-- ==== Sys2Proof/Word.lean ====
section
/-!
DEFINITION. The word types and the index types of the ST9128, and the small closed sets of names that its commands
carry as operands. Nothing here computes: the arithmetic of words is in Machine/Ops.lean.
-/

namespace Sys2Proof

/-- A 32-bit word of control space (R30). -/
abbrev Word := BitVec 32
/-- One byte. -/
abbrev Byte := BitVec 8

/-- A Velvet tile, T0 to T3. -/
abbrev Tile := Fin 4
/-- A device channel, CH0 to CH127; channel n is local channel n mod 32 of tile n / 32 (Velvet chapter). -/
abbrev Channel := Fin 128
/-- A Twill sequencer, TS0 to TS15. -/
abbrev SeqId := Fin 16
/-- A Gingham pattern generator, G0 to G3. -/
abbrev ApgId := Fin 4
/-- A site, 0 to 63. -/
abbrev Site := Fin 64
/-- A pipeline ADC, ADC0 to ADC15. -/
abbrev AdcId := Fin 16
/-- A flow processor, MFP0 to MFP7. -/
abbrev MfpId := Fin 8
/-- An event source (R488). -/
abbrev EvSource := Fin 1792
/-- A DRAM channel, DC0 to DC11. -/
abbrev DcId := Fin 12
/-- A Canvas bay, B0 to B15. -/
abbrev Bay := Fin 16
/-- A Tweed port, W0 to W3. -/
abbrev TwPort := Fin 4
/-- A repair unit, 0 to 3. -/
abbrev RepairId := Fin 4
/-- A burst request port, 0 to 15. -/
abbrev ReqPort := Fin 16

/-- A master of the control interconnect (R19): a flow processor, the SLP engine, the debug access master on its JTAG
port (J) or its SLP stream (S), and the configuration controller. -/
inductive Master
  | mfp (n : MfpId)
  | slp
  | dbgJ
  | dbgS
  | cfg
  deriving DecidableEq, Repr

end Sys2Proof
end

