-- ==== Sys2Proof/Operand.lean ====
section
/-! DEFINITION. The operand types of the commands: small closed sets of names, and the data that the outside world or a
master hands over with a command. -/

namespace Sys2Proof

/-- The option codes (R1). -/
inductive OptionCode
  | a | l | b
  deriving DecidableEq, Repr

/-- The nine levels of a channel (R52). -/
inductive Level
  | vih | vil | vtt | voh | vol | vcom | vch | vcl | vsafe
  deriving DecidableEq, Repr

/-- The two detectors of a channel (R63). -/
inductive Detector
  | overcurrent | clampOverload
  deriving DecidableEq, Repr

/-- A write of VLV_CH_PMU or of VLV_CH_PMU_FORCE. -/
inductive PmuWrite
  | ctl (mode : BitVec 2) (range : BitVec 3)
  | force (code : BitVec 16)
  deriving DecidableEq, Repr

/-- A write of a timing register (R105): a word of TIM_SQ, a word of the table of a tile, or TIM_PLANE. -/
inductive TimingReg
  | sq (word : Fin 1024)
  | tile (t : Tile) (word : Fin 524288)
  | plane
  deriving DecidableEq, Repr

/-- What one TDR search has found for a channel: it goes on, it found the crossing at a code, or it found none. -/
inductive TdrSample
  | searching
  | found (code : BitVec 16)
  | exhausted
  deriving DecidableEq, Repr

/-- Where a command of Calico takes its arguments from: the CAL_CMD registers at a write of CMD_GO (R222), or a message
of SLP or Tweed, which carries them (R222, R446). -/
inductive CalArgs
  | regs
  | msg (id : BitVec 32) (size : BitVec 37) (kind : BitVec 4) (key : BitVec 4)
  deriving DecidableEq, Repr

/-- What the SPD of a rank says and what its training gave (R247 to R249): the width of its devices and of its
subchannels in bits, the density of a die in Gb, the dies of a stack, tRFC1 in ns, the data rates it supports (bit 0
4800, bit 1 5600, bit 2 6400 MT/s), and whether it trained. -/
structure RankReport where
  width : Byte
  sub : Byte
  gb : Byte
  high : BitVec 4
  trfc1 : BitVec 16
  rates : BitVec 3
  trained : Bool
  deriving DecidableEq, Repr

/-- The module types of DDR5 that R247 tells apart. -/
inductive ModuleType
  | rdimm | memoryDown | other
  deriving DecidableEq, Repr

/-- A slot whose SPD hub answers: its module type, its ranks, and the words of its SPD image. -/
structure SlotReport where
  typ : ModuleType
  ranks : List RankReport
  spd : List Word
  deriving DecidableEq, Repr

/-- What SPD discovery and training find on the two slots of a DRAM channel (R248); none: the slot is empty. -/
structure SpdReport where
  slot0 : Option SlotReport
  slot1 : Option SlotReport
  deriving DecidableEq, Repr

/-- The errors of the codeword that a DRAM read returns, against what was stored: bytes of the 80 that differ, with
their differences (R257). -/
abbrev CodeErrors := List (Fin 80 × Byte)

/-- Where a key command takes its arguments from: the ENC_KW registers at a write of KW_GO, or a message of SLP (R278).
-/
inductive KwArgs
  | regs
  | msg (op : BitVec 2) (kid : BitVec 4) (blob : BitVec 320)
  deriving DecidableEq, Repr

/-- What SECDED finds in a word of IMEM or DMEM (R317). -/
inductive Ecc
  | clean
  | corrected
  | uncorrectable
  deriving DecidableEq, Repr

/-- What SECDED finds when a bundle is fetched and in the word that it loads. -/
structure BundleEcc where
  fetch : Ecc
  load : Ecc
  deriving DecidableEq, Repr

/-- What the scrubber finds in a frame (R372). -/
inductive ScrubResult
  | clean
  | single
  | multi
  deriving DecidableEq, Repr

/-- A device that the master's ports reach (R397): the ports that lead to it, one of each device on the way from the
master on, and its path latency in units of 10 ps. -/
structure TwReach where
  path : List TwPort
  lat : BitVec 20
  deriving DecidableEq, Repr

/-- What drops a lane (R409): sync headers received on it one after another, or the partner's report. -/
inductive LaneFault
  | headers (l : List (BitVec 2))
  | reported
  deriving DecidableEq, Repr

/-- BC_CREATE: the master's order at a member, or a member's outcome at the master (R420). -/
inductive BcCreate
  | order (id : Word) (size : BitVec 37) (key : BitVec 4)
  | outcome (d : Fin 32) (code : Byte)
  deriving DecidableEq, Repr

/-- BCAST: the master sends the next message, or a member receives one (R420). -/
inductive BcData
  | send
  | message (id : Word) (off : BitVec 36) (data : List Byte)
  deriving DecidableEq, Repr

/-- BC_SEAL: the master's order at a member, or a member's outcome at the master (R420). -/
inductive BcSeal
  | order (id : Word)
  | outcome (d : Fin 32) (code : Byte)
  deriving DecidableEq, Repr

/-- The ports of the debug access master (R529): J behind the TAP, S behind SLP stream 3. -/
inductive DbgPort
  | j | s
  deriving DecidableEq, Repr

/-- The references that are monitored (R459). -/
inductive ClkRef
  | refclk | tref | xtal32
  deriving DecidableEq, Repr

/-- What a monitor has seen of a reference (R463): no edge for so many ns, or the count of a window. -/
inductive RefFault
  | silent (ns : Word)
  | window (count : Word)
  deriving DecidableEq, Repr

/-- The frequencies in Hz of the four sources, and of a clock that the board or the image makes: a recovered lane
clock, a tile's clock or a network of Canvas (R459, R471). -/
structure ClkHz where
  ref : Word
  tref : Word
  xtal : Word
  iosc : Word
  other : Word
  deriving DecidableEq, Repr

/-- The islands whose PLL has a lock bit (R473); `fab` are the fabric PLLs. -/
inductive Island
  | cp | shm | seq | mem | net
  | mfp (n : MfpId)
  | dc (n : DcId)
  | tm (t : Tile)
  | tw (w : TwPort)
  | fab (k : Fin 8)
  deriving DecidableEq, Repr

/-- ACK, WIN and SACK of an SLP frame with ACKV (R435). -/
structure SlpAck where
  ack : Word
  win : BitVec 13
  sack : Word
  deriving DecidableEq, Repr

/-- What the frames of a received SLP message carry beside its payload: the session, the SEQ of its first frame, how
many frames follow that one, and whether its payload has a wrong length for its TYPE. -/
structure SlpHdr where
  session : Word
  seq : Word
  more : BitVec 12
  ack : Option SlpAck
  wrongLen : Bool
  deriving DecidableEq, Repr

/-- The addresses from which an OPEN comes (R432). -/
structure SlpPeer where
  mac : BitVec 48
  v6 : Bool
  ip : BitVec 128
  port : BitVec 16
  deriving DecidableEq, Repr

/-- An entry of a CSR or debug request (R442, R536). -/
structure CsrEntry where
  write : Bool
  addr : Word
  value : Word
  deriving DecidableEq, Repr

/-- A received SLP message: the requests of stream 0, the data of stream 1, a flow message and a debug request (R437,
R442, R447, R448, R453, R536). `ok` says whether the flash erases or programs. -/
inductive SlpMsg
  | close (tag : Word)
  | status (tag : Word)
  | cal (tag cmd id sizeLo sizeHi : Word)
  | read (tag id : Word) (off : BitVec 64) (len : Word)
  | key (tag cmd : Word) (blob : BitVec 320)
  | flBegin (tag slot size : Word) (ok : Bool)
  | flCommit (tag crc dir2 readback : Word) (ok : Bool)
  | restart (tag slot : Word)
  | shutdown (tag : Word)
  | standby (tag : Word)
  | csr (tag : Word) (entries : List CsrEntry)
  | wrong (typ : Byte) (tag : Word)
  | unknown (typ : Byte) (tag : Word)
  | objData (id : Word) (off : BitVec 64) (data : List Byte)
  | flData (slot off : Word) (data : List Byte) (ok : Bool)
  | flow (q : Fin 4) (words : List Word)
  | debug (tag : Word) (entries : List CsrEntry)
  deriving DecidableEq, Repr

/-- What an IP packet carries (R430, R434): an echo request, a neighbour solicitation, a PTP message, or a UDP
datagram, with its destination port, whether its checksum is not zero, and its bytes. -/
inductive EthPayload
  | echo (len : BitVec 14)
  | solicitation
  | ptp
  | udp (port : BitVec 16) (sum : Bool) (datagram : List Byte)
  | other
  deriving DecidableEq, Repr

/-- What an Ethernet frame carries (R430). -/
inductive EthBody
  | arp
  | pause
  | ip4 (dst : Word) (options fragment : Bool) (p : EthPayload)
  | ip6 (dst : BitVec 128) (extension : Bool) (p : EthPayload)
  | other
  deriving DecidableEq, Repr

/-- A frame that the MAC receives (R434): its bytes from destination address to FCS, whether the FCS is good, whether
its headers are well-formed, its destination address, the VLAN ID of its tag, and what it carries. -/
structure EthFrame where
  bytes : BitVec 14
  fcsOk : Bool
  wellFormed : Bool
  dst : BitVec 48
  vid : Option (BitVec 12)
  body : EthBody
  deriving DecidableEq, Repr

/-- What falls in a RESET_THRESHOLD_FALL: a rail below its reset threshold (R476), or PS_PG (R562). -/
inductive ResetFall
  | rail
  | psPg
  deriving DecidableEq, Repr

/-- What a self-test finds (R518, R519): its duration in ms, the die-to-die bumps tested in 0.01 %, the items that
failed, KIND and ITEM of the first, the channels that failed, and whether the session or the flash ended it early. -/
structure SelfTest where
  dur : BitVec 16
  covD2d : BitVec 16
  fails : Word
  kind : BitVec 4
  item : BitVec 13
  channels : BitVec 128
  early : Bool
  deriving DecidableEq, Repr

/-- What a read of the flash by the configuration controller brings (R375 to R379): no answer or an SFDP lacking R375,
the ID, the capacity in MiB and the two directory copies, the header of the slot being tried, a segment as it is
stored, or the finding that the next record is malformed. -/
inductive FlashRead
  | noAnswer
  | directory (id : BitVec 24) (mib : BitVec 16) (a b : List Word)
  | header (w : List Word)
  | segment (ws : List Word)
  | malformed
  deriving DecidableEq, Repr

/-- A block of the ledger area as a restore reads it (R516, R517). -/
structure LedgerBlock where
  blk : Fin 64
  words : List Word
  deriving DecidableEq, Repr

end Sys2Proof
end

