-- ==== Sys2Proof/Syntax.lean ====
section
/-! DEFINITION. The commands of the ST9128: one constructor for every row of the opcode table, with the row's operands.
An operand that shows a default may be left out where a command is written. -/

namespace Sys2Proof

/-- The commands: the operations and events of the opcode table, in its order. -/
inductive Instr
  /-- REGISTER_WRITE (R34): A write to a configuration register that has no row of its own takes effect as soon as it
  completes. -/
  | registerWrite (m : Master) (addr : Word) (v : Word)
  /-- ABSENT_REL (R42): Empties the SYS_ABSENT_HIT capture and zeroes SYS_ABSENT_CNT. -/
  | absentRel
  /-- INDIRECT_DATA_ACCESS (R40): A read or write through an IDATA register reaches the table word at ADDR, holds the
  master until the far island answers, and may increment ADDR. -/
  | indirectDataAccess (m : Master) (addr : Word) (v : Option Word)
  /-- LEVEL_WRITE (R55): A level register write either takes effect at once or is held until LVL_COMMIT, depending on
  LVL_STAGED. -/
  | levelWrite (ch : Channel) (lvl : Level) (code : BitVec 16)
  /-- LVL_COMMIT (R55): Applies together every held level value of every channel of the tile. -/
  | lvlCommit (t : Tile)
  /-- PROT_FORCE (R65): Sets the trip latch as a local cause, signals the other tiles and drives SAFE_N low. -/
  | protForce (t : Tile)
  /-- PROT_REL (R70): Starts a device-wide trip release: the device stops driving SAFE_N and waits 200 ns. -/
  | protRel (t : Tile)
  /-- RELEASE_CHECK (R70): When the 200 ns wait ends, the release is refused for a local cause or a low SAFE_N, or else
  all latches clear. -/
  | releaseCheck
  /-- VLV_CAP_REL (R67): Empties VLV_TRIP_CAP of the tile. -/
  | vlvCapRel (t : Tile)
  /-- PROT_EN (R64): A write of PROT_EN from 0 to 1 sets the trip latch if a detector of the channel is already
  filtered active. -/
  | protEn (ch : Channel) (on : Bool)
  /-- DETECTOR_INPUT_CHANGE (R63): An overcurrent or clamp-overload detector input becomes active, which starts its
  deglitch filter, or becomes inactive, which clears its filtered state. -/
  | detectorInputChange (ch : Channel) (d : Detector) (ua : Word)
  /-- DEGLITCH_EXPIRY (R64): A detector input has been continuously active for F, so it becomes filtered active and,
  with PROT_EN = 1, sets the trip latch. -/
  | deglitchExpiry (ch : Channel) (d : Detector) (ns : Word := 0xFFFFFFFF)
  /-- SAFE_N_FALL (R65): After the receive filter, SAFE_N reads low, which sets every tile latch of the device with
  CAUSE 4. -/
  | safeNFall
  /-- SAFE_N_RISE (R70): After the receive filter, SAFE_N reads high, which clears REL_BLOCKED. -/
  | safeNRise
  /-- SAFE_SETTLED (R505): A channel driver has settled in its safe state, so its SAFE bit is set. -/
  | safeSettled (ch : Channel)
  /-- MX_COMMIT (R83): Checks the shadow route table; either refuses the commit into VLV_MX_ERR_CAP, switches the
  changed terminals break-before-make, or holds the commit behind one in progress. -/
  | mxCommit (t : Tile)
  /-- MX_COMMIT_END (R84): The 2 µs settle ends, so MX_BUSY clears and any held commit runs. -/
  | mxCommitEnd (t : Tile)
  /-- MX_ERR_REL (R83): Empties VLV_MX_ERR_CAP. -/
  | mxErrRel (t : Tile)
  /-- VLV_CH_PMU (R76): A write to the PMU mode, range or force value takes effect at once and clears PMU_SETTLED when
  the target moves. -/
  | vlvChPmu (ch : Channel) (w : PmuWrite)
  /-- PMU_SETTLE (R75): The PMU force loop has stayed within 0.1 % of its target for 1 µs, so PMU_SETTLED is set. -/
  | pmuSettle (ch : Channel)
  /-- TIMING_WRITE (R105): A write to TIM_SQ, a TIM_Tn table or TIM_PLANE is stored or staged, and takes effect at the
  next vector boundary or at once when no burst runs. -/
  | timingWrite (r : TimingReg) (v : Word)
  /-- SQ_COMMIT (R106): Commits the staged TIM_SQ writes for each sequencer to apply at its next vector boundary. -/
  | sqCommit
  /-- T_COMMIT (R106): Commits the staged TIM_Tn writes of a tile for each channel to apply at its next vector
  boundary. -/
  | tCommit (t : Tile)
  /-- TIM_PLANE (R89): A write of the plane offset moves every channel and rechecks TD against PLANE, which may fill
  KIND 2. -/
  | timPlane (v : BitVec 15)
  /-- TIM_ERR_REL (R119): Empties TIM_ERR_CAPn and rechecks KIND 2 for the tile. -/
  | timErrRel (t : Tile)
  /-- TDR_START (R113): Refuses the run with KIND 3, or sets TDR_BUSY and starts a TDR run on the masked channels. -/
  | tdrStart (t : Tile)
  /-- TDR_ABORT (R116): Ends the TDR run; unfinished channels report VALID = 0. -/
  | tdrAbort (t : Tile)
  /-- TDR_LAUNCH (R114): Every 1 µs the TDR engine launches a VIL-to-VIH step and samples the threshold crossing at the
  current search point. -/
  | tdrLaunch (t : Tile) (obs : List (Fin 32 × TdrSample))
  /-- TDR_END (R115): The TDR run finishes: results are posted, TD is loaded where LOAD = 1, the DAC is restored and
  TDR_BUSY clears. -/
  | tdrEnd (t : Tile)
  /-- CAL_DONE (R112): Start-up timing calibration of every tile completes, so CAL_DONE is set. -/
  | calDone
  /-- RECALIBRATION_STEP (R117): A due channel whose sequencer issues no vectors begins a temperature-tracking
  recalibration. -/
  | recalibrationStep (ch : Channel)
  /-- RECALIBRATION_END (R117): A recalibration step completes and records the tile temperature. -/
  | recalibrationEnd (ch : Channel)
  /-- MAP_COMMIT (R122): Checks and applies the held column map, groups and APG selection all at once, or refuses with
  a KIND into TWL_MAP_CAP. -/
  | mapCommit (q : SeqId)
  /-- MAP_ERR_REL (R122): Empties TWL_MAP_CAP. -/
  | mapErrRel (q : SeqId)
  /-- CMD_STOP (R147): A write of 1 to STOP ends the run at the next vector boundary, or at once in BOUND, with END
  CMD_STOP. -/
  | cmdStop (q : SeqId)
  /-- NOP (R131): Issues the line's vector and goes to the next line. -/
  | twlNop (q : SeqId)
  /-- RPT (R131): Issues the line's vector N times in all. -/
  | twlRpt (q : SeqId)
  /-- LDC (R131): Issues the vector and loads loop counter LCk. -/
  | twlLdc (q : SeqId)
  /-- DJNZ (R131): Issues the vector, decrements LCk and jumps while it is non-zero. -/
  | twlDjnz (q : SeqId)
  /-- JMP (R131): Issues the vector and goes to the target line. -/
  | twlJmp (q : SeqId)
  /-- CALL (R131): Issues the vector, pushes the next line's address and goes to the target. -/
  | twlCall (q : SeqId)
  /-- RET (R131): Issues the vector and pops a return address. -/
  | twlRet (q : SeqId)
  /-- BRC (R136): Issues the vector, holds H masked vectors, and branches if the condition holds at the last held
  vector. -/
  | twlBrc (q : SeqId)
  /-- MATCH (R137): Iterates a body of B lines until the groups match or T iterations have been issued. -/
  | twlMatch (q : SeqId)
  /-- MATCH_TIMEOUT (R138): After T unsatisfied iterations have been decided, the MATCH times out and sets the MTO
  flags. -/
  | twlMatchTimeout (q : SeqId)
  /-- HOF (R131): Sets the halt-on-fail mode from the next vector. -/
  | twlHof (q : SeqId)
  /-- STOP (R131): Issues the STOP line's vector and ends the run with END STOP. -/
  | twlStop (q : SeqId)
  /-- EVT (R151): Issues the vector and raises the slot's sequencer event for 16 ns. -/
  | twlEvt (q : SeqId)
  /-- SYNC (R141): Issues the vector, reports arrival at the barrier to the master, and repeats masked vectors until
  release. -/
  | twlSync (q : SeqId)
  /-- APG (R142): Issues the vector and hands the SRC = 1 columns over to the selected APG, starting at address Start. -/
  | twlApg (q : SeqId)
  /-- CLRF (R131): Clears the fail flag and the MTO flag of every group. -/
  | twlClrf (q : SeqId)
  /-- GNG_NEXT (R161): An APG execution issues S vectors, applies DROP and the unit operations, and goes to PC + 1. -/
  | gngNext (g : ApgId)
  /-- GNG_JMP (R161): An APG execution that goes to TARGET. -/
  | gngJmp (g : ApgId)
  /-- GNG_JW (R161): An APG execution that jumps if unit FU wrapped in it. -/
  | gngJw (g : ApgId)
  /-- GNG_JNW (R161): An APG execution that jumps if unit FU did not wrap in it. -/
  | gngJnw (g : ApgId)
  /-- GNG_LDC (R161): An APG execution that loads loop counter C(FC) with IMM. -/
  | gngLdc (g : ApgId)
  /-- GNG_DJNZ (R161): An APG execution that decrements C(FC) and jumps while it is non-zero. -/
  | gngDjnz (g : ApgId)
  /-- GNG_CALL (R161): An APG execution that pushes PC + 1 and goes to TARGET. -/
  | gngCall (g : ApgId)
  /-- GNG_RET (R161): An APG execution that pops a return address. -/
  | gngRet (g : ApgId)
  /-- GNG_RPT (R161): Executes the APG instruction IMM times in all. -/
  | gngRpt (g : ApgId)
  /-- WAITT (R161): Repeats the span while TMR is not zero. -/
  | gngWaitt (g : ApgId)
  /-- JREF (R161): If refresh debt is owed, decrements the debt and calls TARGET. -/
  | gngJref (g : ApgId)
  /-- GNG_END (R161): Ends the hand-over after this execution. -/
  | gngEnd (g : ApgId)
  /-- REF_INTERVAL (R168): The refresh counter completes GNG_REF_INT ns, so the refresh debt rises or, at saturation,
  GNG_REFLOST counts. -/
  | refInterval (g : ApgId)
  /-- REF_EN (R168): Setting REF_EN during a run starts the refresh counter; clearing it stops the counter and zeroes
  the debt. -/
  | refEn (g : ApgId) (on : Bool)
  /-- TMR_ZERO (R169): The APG timer counts down to zero after a load. -/
  | tmrZero (g : ApgId)
  /-- GNG_ERR_REL (R177): Empties GNG_ERR_CAPn. -/
  | gngErrRel (g : ApgId)
  /-- STROBE_RESULT (R181): Damask judges the compare slots of a vector, updating counters, signatures, fail flags and
  first-fail cycles. -/
  | strobeResult (q : SeqId) (obs : List (Channel × List (List (BitVec 2))))
  /-- RECORD_WRITE (R194): The record writer writes a 64-byte line of two records to the site's ring when the ring has
  room. -/
  | recordWrite (site : Site)
  /-- PAD_TIMEOUT (R194): A record with no partner after 100 ns is paired with a pad record. -/
  | padTimeout (site : Site)
  /-- DMK_RING_RD (R195): A write of the ring read pointer takes effect only if the new value lies between RD and WR. -/
  | dmkRingRd (site : Site) (v : Word)
  /-- RECORD_PORT_READ (R198): A read of DMK_RPp_D7 returns word 7 of the head record and consumes that record. -/
  | recordPortRead (p : Fin 4) (m : Master)
  /-- RESULT_PORT_READ (R203): A read of DMK_RSP_D15 returns word 15 of the head result and consumes that result. -/
  | resultPortRead (m : Master)
  /-- RESULT_POST (R25): Once every record and bitmap update of a burst has been accepted, and the queue has room,
  Damask posts the result. -/
  | resultPost (site : Site)
  /-- BMAP_CLR (R200): Sets BMAP_BUSY and starts, or defers until the sequencer is IDLE, a zero-fill of the bitmap
  allocation. -/
  | bmapClr (site : Site)
  /-- BMAP_CLEAR_END (R200): The bitmap zero-fill completes, so BMAP_BUSY clears. -/
  | bmapClearEnd (site : Site)
  /-- BITMAP_LINE_WRITE (R201): The bitmap writer performs the read-modify-write of a merged line, storing the line
  poisoned if its read does not verify. -/
  | bitmapLineWrite (site : Site) (bad : Bool)
  /-- RA_OPEN (R206): Opens a repair session on unit k if RA_EN is set and BUSY and CFG_ERR are clear. -/
  | raOpen (k : RepairId)
  /-- RA_CLOSE (R206): Requests the close of unit k's session. -/
  | raClose (k : RepairId)
  /-- RA_CLOSE_EFFECT (R206): The close takes effect once the run has drained and its fails have reached the unit, and
  the search starts with SRCH set. -/
  | raCloseEffect (k : RepairId)
  /-- RA_ABORT (R206): Abandons unit k's session at once, as does a write of 0 to its RA_EN bit. -/
  | raAbort (k : RepairId)
  /-- REPAIR_CELL (R207): A fail cell reaches a repair unit, is queued or refused, and drives must-repair assignments. -/
  | repairCell (k : RepairId) (poison : Bool)
  /-- REPAIR_SEARCH_END (R208): The bounded search has given every block a verdict and the output is written, so DONE
  is set. -/
  | repairSearchEnd (k : RepairId) (bad : BitVec 8 := 0)
  /-- CREATE (R223): Creates a new object in state LOADING. -/
  | create (a : CalArgs)
  /-- ALLOC (R223): Creates a non-object allocation in state ZEROING and returns its ID. -/
  | alloc (a : CalArgs)
  /-- SEAL (R225): Checks the object header and sizes, then starts the scan in SCANNING. -/
  | seal (a : CalArgs)
  /-- DELETE (R226): Frees an allocation, or moves it to DELETING while it is in use. -/
  | delete (a : CalArgs)
  /-- QUERY (R225): Returns an allocation's state, kind, key, size and profile. -/
  | query (a : CalArgs)
  /-- CAL_CMD_INVALID (R223): A command with OP 0 or 6–15 answers outcome 0x09. -/
  | calCmdInvalid (a : CalArgs)
  /-- SCAN_END (R229): The profile scan completes and the object moves to READY, or it returns to LOADING on poison. -/
  | scanEnd (id : Word)
  /-- ZERO_FILL_END (R225): A ZEROING allocation's pages are zero, so it becomes READY. -/
  | zeroFillEnd (id : Word)
  /-- SYSTEM_AREA_BUILT (R218): Calico builds or rebuilds its SYSTEM area and directory, then sets READY. -/
  | systemAreaBuilt
  /-- POST (R230): Posts the request held in port p, which is refused at once or enters the admission queue. -/
  | post (p : ReqPort)
  /-- WDRAW (R230): Withdraws port p's held request. -/
  | wdraw (p : ReqPort)
  /-- COLL_REL (R230): Clears COLL bit p. -/
  | collRel (p : ReqPort)
  /-- ADMISSION_DECISION (R233): At each triggering change, and every µs while a request is held, Calico rechecks the
  held requests and admits those that pass, in age order. -/
  | admissionDecision
  /-- FILL_COMPLETE (R236): The lookahead fill completes, so the sequencer issues vector 0 at the next boundary or CT
  boundary. -/
  | fillComplete (q : SeqId)
  /-- LINE_DECODE (R240): Calico receives a fetched line, decodes it and hands it to Twill. -/
  | lineDecode (q : SeqId)
  /-- PZ_NEXT (R219): Discards the head entry of the re-upload list. -/
  | pzNext
  /-- PZ_OVF_REL (R219): Clears the PZ_OVF capture. -/
  | pzOvfRel
  /-- CHANNEL_TRAINED (R248): A DRAM channel finishes SPD discovery and training at a cold start and sets UP, or is
  refused. -/
  | channelTrained (dc : DcId) (r : SpdReport)
  /-- CHANNEL_RESUMED (R250): At a warm restart or wake, a channel restores its training, checks each rank, exits
  self-refresh and sets UP, or is refused. -/
  | channelResumed (dc : DcId) (failed : BitVec 4)
  /-- DRAM_REQUEST (R260): A request enters a subchannel queue, or holds its requester when the queue is full. -/
  | dramRequest (pa : BitVec 44) (write : Bool)
  /-- DRAM_READ_DECODE (R259): A DRAM read completes and is decoded: returned, corrected and rewritten, or marked
  poison and counted. -/
  | dramReadDecode (pa : BitVec 44) (errs : CodeErrors) (cache : Option (BitVec 4))
  /-- REFAB (R261): Each tREFI, the controller issues an all-bank refresh to a rank, or postpones it. -/
  | refab (dc : DcId) (rank : Fin 4) (postpone : Bool)
  /-- THERMAL_POLL (R262): Every 1 ms the controller reads the thermal sensors and MR4 and enters or leaves doubled
  refresh. -/
  | thermalPoll (dc : DcId) (t0 : BitVec 8) (t1 : BitVec 8) (mr4 : BitVec 4)
  /-- IDLE_SELF_REFRESH (R266): A rank idle for ISR_T × 10 µs enters self-refresh. -/
  | idleSelfRefresh (dc : DcId) (rank : Fin 4)
  /-- RETIRE (R269): Starts the retirement of the rank named in DDR_RET_RANK, or refuses it. -/
  | retire (dc : DcId)
  /-- REDIRECTION_SETUP_END (R270): The redirection set-up completes, setting REDIR and MIG, or aborts at the spare
  check. -/
  | redirectionSetupEnd (dc : DcId) (good : Bool)
  /-- MIGRATION_COPY (R271): The copy moves one line of the retired rank to the spare and advances DDR_MIG_PTR. -/
  | migrationCopy (dc : DcId) (errs : CodeErrors)
  /-- DDR_CAP_REL (R253): Empties DDR_ERR_CAP. -/
  | ddrCapRel (dc : DcId)
  /-- KW_LOAD (R278): Unwraps a 40-byte blob under KWK into key ID KID. -/
  | kwLoad (a : KwArgs)
  /-- KW_ERASE (R278): Destroys the key of KID. -/
  | kwErase (a : KwArgs)
  /-- KW_INVALID (R278): A key command with an invalid OP answers 0x07. -/
  | kwInvalid (a : KwArgs)
  /-- ENC_CAP_REL (R295): Empties ENC_ERR_CAP. -/
  | encCapRel
  /-- RKREQ (R286): Marks a loaded key ID for re-key. -/
  | rkreq (k : Fin 16)
  /-- REKEY_WALK_START (R287): A re-key walk begins on the lowest marked key ID and raises its generation. -/
  | rekeyWalkStart
  /-- REKEY_PAGE (R287): The walk rewrites one 4 KiB page under the new generation and advances ENC_RK_PTR. -/
  | rekeyPage (bad : BitVec 64 := 0)
  /-- PARTIAL_WRITE (R290): A write narrower than a line is merged into the read line and stored, poisoned if the line
  did not verify. -/
  | partialWrite (id : Word) (off : BitVec 36) (data : List Byte) (bad : BitVec 64 := 0)
  /-- WHOLE_LINE_WRITE (R291): A whole-line write raises the minor counter and stores a valid line if its counters
  verify. -/
  | wholeLineWrite (id : Word) (line : BitVec 30) (data : BitVec 512) (bad : BitVec 64 := 0)
  /-- NODE_REBUILD (R292): The REKEY job rebuilds a failed counter-tree node and its subtree with fresh counters. -/
  | nodeRebuild
  /-- ADC_START (R303): Starts the sequence list at entry 0, or holds the start behind an urgent request. -/
  | adcStart (a : AdcId)
  /-- ADC_GSTART (R303): Acts as START on every ADC named in the word, on one ACLK edge. -/
  | adcGstart (mask : BitVec 16)
  /-- ADC_STOP (R304): Ends the list at the next ACLK edge and discards a partial average. -/
  | adcStop (a : AdcId)
  /-- URG_GO (R306): Runs the urgent entry, pre-empting a running list, or is ignored while busy. -/
  | urgGo (a : AdcId)
  /-- CAL_GO (R311): Starts self-calibration of the ADC, or refuses it. -/
  | calGo (a : AdcId)
  /-- ADC_CAL_END (R311): Self-calibration ends, and writes the factors or reports failure. -/
  | adcCalEnd (a : AdcId) (ofs0 : BitVec 16) (gain0 : BitVec 16) (ofs1 : BitVec 16) (gain1 : BitVec 16)
  /-- REF_READY (R302): 250 µs after REF_EN is written 1, REF_RDY is set. -/
  | refReady (t : Tile)
  /-- ADC_OUTPUT (R305): 2^AVG raw samples complete an averaged output, which enters the FIFO or stream and advances
  the entry or urgent request. -/
  | adcOutput (a : AdcId) (raws : List (BitVec 14)) (settle : Bool) (nref : Bool)
  /-- ADC_PORT_READ (R308): A read of ADC_PORTm returns and consumes the head output. -/
  | adcPortRead (a : AdcId) (m : Master)
  /-- ADC_STR_RD (R308): A write of the stream read count, accepted only between RD and WR. -/
  | adcStrRd (a : AdcId) (v : Word)
  /-- MFP_NOP (R326): A no-operation slot. -/
  | mfpNop (m : MfpId) (e : BundleEcc)
  /-- ADD (R326): rd := ra + rb, optionally saturated. -/
  | mfpAdd (m : MfpId) (e : BundleEcc)
  /-- SUB (R326): rd := ra − rb, optionally saturated. -/
  | mfpSub (m : MfpId) (e : BundleEcc)
  /-- AND (R326): Bitwise AND. -/
  | mfpAnd (m : MfpId) (e : BundleEcc)
  /-- OR (R326): Bitwise OR. -/
  | mfpOr (m : MfpId) (e : BundleEcc)
  /-- XOR (R326): Bitwise XOR. -/
  | mfpXor (m : MfpId) (e : BundleEcc)
  /-- SLL (R326): Shift left logical by rb[4:0]. -/
  | mfpSll (m : MfpId) (e : BundleEcc)
  /-- SRL (R326): Shift right logical. -/
  | mfpSrl (m : MfpId) (e : BundleEcc)
  /-- SRA (R326): Shift right arithmetic. -/
  | mfpSra (m : MfpId) (e : BundleEcc)
  /-- SLT (R326): Set on signed less-than. -/
  | mfpSlt (m : MfpId) (e : BundleEcc)
  /-- SLTU (R326): Set on unsigned less-than. -/
  | mfpSltu (m : MfpId) (e : BundleEcc)
  /-- MIN (R326): Signed minimum. -/
  | mfpMin (m : MfpId) (e : BundleEcc)
  /-- MAX (R326): Signed maximum. -/
  | mfpMax (m : MfpId) (e : BundleEcc)
  /-- ABS (R326): Absolute value. -/
  | mfpAbs (m : MfpId) (e : BundleEcc)
  /-- MUL (R326): Low 32 bits of the product. -/
  | mfpMul (m : MfpId) (e : BundleEcc)
  /-- MULQ (R326): Q31 fractional multiply. -/
  | mfpMulq (m : MfpId) (e : BundleEcc)
  /-- ADDI (R326): Add immediate. -/
  | mfpAddi (m : MfpId) (e : BundleEcc)
  /-- ANDI (R326): AND with zero-extended immediate. -/
  | mfpAndi (m : MfpId) (e : BundleEcc)
  /-- ORI (R326): OR with zero-extended immediate. -/
  | mfpOri (m : MfpId) (e : BundleEcc)
  /-- XORI (R326): XOR with zero-extended immediate. -/
  | mfpXori (m : MfpId) (e : BundleEcc)
  /-- SHI (R326): Shift by an immediate amount of a chosen kind. -/
  | mfpShi (m : MfpId) (e : BundleEcc)
  /-- SLTI (R326): Set on signed less-than immediate. -/
  | mfpSlti (m : MfpId) (e : BundleEcc)
  /-- LUI (R326): Load the upper immediate. -/
  | mfpLui (m : MfpId) (e : BundleEcc)
  /-- MAXS (R326): Updates a pair with ra and rb if ra exceeds the pair's first register. -/
  | mfpMaxs (m : MfpId) (e : BundleEcc)
  /-- MINS (R326): Updates a pair with ra and rb if ra is below the pair's first register. -/
  | mfpMins (m : MfpId) (e : BundleEcc)
  /-- LDW (R326): Load a word, locally or remotely. -/
  | mfpLdw (m : MfpId) (e : BundleEcc)
  /-- LDH (R326): Load a sign-extended halfword. -/
  | mfpLdh (m : MfpId) (e : BundleEcc)
  /-- LDHU (R326): Load a zero-extended halfword. -/
  | mfpLdhu (m : MfpId) (e : BundleEcc)
  /-- LDB (R326): Load a sign-extended byte. -/
  | mfpLdb (m : MfpId) (e : BundleEcc)
  /-- LDBU (R326): Load a zero-extended byte. -/
  | mfpLdbu (m : MfpId) (e : BundleEcc)
  /-- LDD (R326): Load a register pair. -/
  | mfpLdd (m : MfpId) (e : BundleEcc)
  /-- STW (R326): Store a word. -/
  | mfpStw (m : MfpId) (e : BundleEcc)
  /-- STH (R326): Store a halfword. -/
  | mfpSth (m : MfpId) (e : BundleEcc)
  /-- STB (R326): Store a byte. -/
  | mfpStb (m : MfpId) (e : BundleEcc)
  /-- STD (R326): Store a register pair. -/
  | mfpStd (m : MfpId) (e : BundleEcc)
  /-- LL (R335): Load a word and set the reservation. -/
  | mfpLl (m : MfpId) (e : BundleEcc)
  /-- SC (R335): Store if the reservation holds, report the outcome, and clear the reservation. -/
  | mfpSc (m : MfpId) (e : BundleEcc)
  /-- FENCE (R318): Holds until every earlier remote access has completed. -/
  | mfpFence (m : MfpId) (e : BundleEcc)
  /-- CLRRES (R326): Clears the reservation. -/
  | mfpClrres (m : MfpId) (e : BundleEcc)
  /-- MAC (R326): Accumulates a shifted 16 × 16 product. -/
  | mfpMac (m : MfpId) (e : BundleEcc)
  /-- MSU (R326): Subtracts a shifted 16 × 16 product from the accumulator. -/
  | mfpMsu (m : MfpId) (e : BundleEcc)
  /-- ACCLD (R326): Loads the accumulator with sign-extended ra shifted. -/
  | mfpAccld (m : MfpId) (e : BundleEcc)
  /-- ACCADD (R326): Adds sign-extended ra shifted to the accumulator. -/
  | mfpAccadd (m : MfpId) (e : BundleEcc)
  /-- ACCRD (R326): Reads the accumulator shifted right into rd. -/
  | mfpAccrd (m : MfpId) (e : BundleEcc)
  /-- BEQ (R326): Branch if equal. -/
  | mfpBeq (m : MfpId) (e : BundleEcc)
  /-- BNE (R326): Branch if not equal. -/
  | mfpBne (m : MfpId) (e : BundleEcc)
  /-- BLT (R326): Branch if signed less. -/
  | mfpBlt (m : MfpId) (e : BundleEcc)
  /-- BGE (R326): Branch if signed greater or equal. -/
  | mfpBge (m : MfpId) (e : BundleEcc)
  /-- J (R326): Jump to a bundle index. -/
  | mfpJ (m : MfpId) (e : BundleEcc)
  /-- MFP_CALL (R326): J with L = 1: jump and link into x1. -/
  | mfpCall (m : MfpId) (e : BundleEcc)
  /-- JR (R326): Jump to a register, optionally linking. -/
  | mfpJr (m : MfpId) (e : BundleEcc)
  /-- LOOP (R334): Sets up the hardware loop state LC, LS, LE, LA and ROT. -/
  | mfpLoop (m : MfpId) (e : BundleEcc)
  /-- RETI (R339): Returns from an exception or interrupt: STAT := ESTAT and PC := EPC. -/
  | mfpReti (m : MfpId) (e : BundleEcc)
  /-- RETN (R339): Returns from the NMI: STAT := NSTAT and PC := NPC. -/
  | mfpRetn (m : MfpId) (e : BundleEcc)
  /-- WAIT (R342): Holds the core until an enabled interrupt or an NMI is pending. -/
  | mfpWait (m : MfpId) (e : BundleEcc)
  /-- WAIT_END (R342): An enabled interrupt or NMI becomes pending, which ends WAIT. -/
  | mfpWaitEnd (m : MfpId)
  /-- ISYNC (R317): Makes later fetches see earlier IMEM stores. -/
  | mfpIsync (m : MfpId) (e : BundleEcc)
  /-- TRAP (R338): Raises the TRAP exception. -/
  | mfpTrap (m : MfpId) (e : BundleEcc)
  /-- MFSR (R323): Reads a special register. -/
  | mfpMfsr (m : MfpId) (e : BundleEcc)
  /-- MTSR (R323): Writes a special register, effective from the next bundle. -/
  | mfpMtsr (m : MfpId) (e : BundleEcc)
  /-- REMOTE_LOAD_RETURN (R332): A remote load's data returns and clears its pending registers, or writes zero and
  raises BUSERR or POISON. -/
  | remoteLoadReturn (m : MfpId) (k : Fin 24)
  /-- REMOTE_STORE_ERROR (R332): A remote store ends with a bus error and raises imprecise BUSERR. -/
  | remoteStoreError (m : MfpId) (k : Fin 24)
  /-- INTERRUPT_ENTRY (R340): At a bundle boundary that allows it, the highest enabled pending interrupt is taken. -/
  | interruptEntry (m : MfpId) (e : BundleEcc)
  /-- NMI_ENTRY (R340): A pending NMI enters its handler, saving NPC and NSTAT. -/
  | nmiEntry (m : MfpId)
  /-- RESERVATION_TIMEOUT (R337): A reservation still held 256 cycles after an interrupt became pending is cleared. -/
  | reservationTimeout (m : MfpId)
  /-- WATCHDOG_EXPIRY (R343): MFP_WDT_LEFT reaches zero, so the MFP is reset. -/
  | watchdogExpiry (m : MfpId)
  /-- KICK (R343): Reloads the watchdog from PERIOD. -/
  | kick (m : MfpId)
  /-- MFP_WDT_CTRL (R343): A write not blocked by LOCK reloads the watchdog and sets its controls. -/
  | mfpWdtCtrl (m : MfpId) (v : Word)
  /-- TIMER_EXPIRY (R344): MFP_TMR reaches zero, so it reloads and fills the timer capture or counts a miss. -/
  | timerExpiry (m : MfpId)
  /-- MFP_TMR_LOAD (R344): Restarts the timer from the written value. -/
  | mfpTmrLoad (m : MfpId) (v : Word)
  /-- TMR_REL (R320): Empties the timer capture. -/
  | tmrRel (m : MfpId)
  /-- RST_REL (R320): Empties MFP_RSTCAP and MFP_RSTPC. -/
  | rstRel (m : MfpId)
  /-- RING (R345): Adds one to MFP_DBCNT of each MFP named. -/
  | ring (m : MfpId) (mask : BitVec 8)
  /-- MFP_DBACK (R345): Acknowledges doorbell rings handled. -/
  | mfpDback (m : MfpId) (v : Word)
  /-- MFP_CTXID (R322): Writes the context ID, which is mirrored to SHM_CTXIDn and used by the debug comparators. -/
  | mfpCtxid (m : MfpId) (v : Word)
  /-- MFP_AP_CTRL (R346): Enabling a window checks the allocation and maps the window, or leaves it unmapped with a
  CODE. -/
  | mfpApCtrl (m : MfpId) (w : Fin 8) (v : BitVec 2)
  /-- HOLD (R363): A write of HOLD = 1 engages the bay's Selvage ring. -/
  | hold (b : Bay)
  /-- RING_ENGAGED (R363): Every signal of the ring has been engaged, by force after 1 µs if need be, so HELD is set. -/
  | ringEngaged (b : Bay)
  /-- RING_OPEN (R364): A write of HOLD = 0 opens a LOADED bay's ring, first releasing a load reset. -/
  | ringOpen (b : Bay)
  /-- RING_OPENED (R364): The ring has opened, so HELD clears. -/
  | ringOpened (b : Bay)
  /-- BAY_RST (R364): Holds or releases the bay's logic in reset. -/
  | bayRst (b : Bay) (on : Bool)
  /-- CNV_PORT (R353): Writes a channel's tap, injection source and ICONST, deferring INJSRC until the owner is IDLE. -/
  | cnvPort (c : Channel) (v : Word)
  /-- ICFP_WORD (R368): The ICFP takes a stream word and checks, stages or writes frames, or refuses the stream at its
  first word. -/
  | icfpWord (start : Bool) (w : Word) (valid : Bool := true)
  /-- TAG_VERIFIED (R369): The stream check outcome arrives: in tag mode the ring engages and frames are written, or
  the load fails. -/
  | tagVerified (b : Bay)
  /-- PARTIAL_LOAD_END (R370): A partial load ends as LOADED, or as INCOMPLETE with CNV_ICFP_CAP filled. -/
  | partialLoadEnd
  /-- ICFP_ABORT (R371): Aborts the partial load in progress where the procedure allows. -/
  | icfpAbort
  /-- ICFP_REL (R351): Empties CNV_ICFP_CAP. -/
  | icfpRel
  /-- INJ_REL (R351): Empties CNV_INJ_CAP and zeroes CNV_INJ_CNT. -/
  | injRel
  /-- UPSET_REL (R351): Empties CNV_UPSET_CAP. -/
  | upsetRel
  /-- SCRUB_FRAME (R372): The scrubber checks a static frame and corrects it in place or rewrites it from the golden
  copy. -/
  | scrubFrame (region : BitVec 5) (frame : BitVec 27) (x : ScrubResult)
  /-- COLD_START (R381): RST_N rises, so DONE is driven low, the ledger is restored, the self-test record is read and
  loading begins. -/
  | coldStart (master : Bool) (authOnly : Bool) (mac : BitVec 48) (serial : BitVec 64) (ledger : List LedgerBlock) (head : Option (Fin 16))
  /-- SEGMENT_READ (R381): A stream segment is read from flash and its tag checked; a failure clears the memories and
  goes to the next slot or to SAFEHOLD. -/
  | segmentRead (r : FlashRead)
  /-- WRITE_RECORD (R380): A WRITE record's pairs are staged. -/
  | writeRecord (pairs : List (Word × Word))
  /-- FRAMES (R380): A FRAMES record writes its frames to the fabric. -/
  | frames (addr : BitVec 32) (frames : List (BitVec 3072))
  /-- IMEM (R380): An IMEM record writes its data to an MFP's IMEM. -/
  | imem (m : MfpId) (off : Word) (data : List Word)
  /-- DMEM (R380): A DMEM record writes its data to an MFP's DMEM. -/
  | dmem (m : MfpId) (off : Word) (data : List Word)
  /-- END_RECORD (R381): The END record's CRC and completeness are checked, then the staged writes are applied and the
  SYSTEM area is requested. -/
  | endRecord (crc : Word)
  /-- GOLDEN_BUILD_END (R381): The golden and resume copies are complete, so DONE is released and the start-up order
  begins. -/
  | goldenBuildEnd
  /-- DONE_RISE (R385): Filtered DONE reads high, which releases the device's DONE wait. -/
  | doneRise
  /-- START_UP_PHASE (R384): A start-up phase (LOCK, OUTPUTS, GSR or WRITES) is carried out after the STEPW wait of the
  one before. -/
  | startUpPhase
  /-- LOCK_TIMEOUT (R382): The LOCK phase times out with cause 11. -/
  | lockTimeout
  /-- WARM (R388): Starts a warm restart: sequencers stop, write-back, self-refresh, then a reload from flash. -/
  | warm
  /-- FAIL_REL (R392): Empties CFG_FAIL_CAP. -/
  | failRel
  /-- PORT_BRING_UP (R403): A present, enabled Tweed port begins bring-up at 2.5 Gbit/s with CAP blocks. -/
  | portBringUp (w : TwPort)
  /-- CAP (R404): A CAP block from the partner is received, and an incompatible partner moves the port to IDLE. -/
  | cap (w : TwPort) (sysId : Word) (major : Byte) (offer : Byte) (place : Byte)
  /-- LANE_GOOD (R403): A lane has received CAP blocks cleanly for 100 µs. -/
  | laneGood (w : TwPort) (l : Fin 4)
  /-- RATE_STEP_END (R405): A rate-ladder step's PRBS test ends, so the port climbs, steps back or enters UP. -/
  | rateStepEnd (w : TwPort) (errs : List Word)
  /-- LINK (R408): A LINK block delivers ACKSEQ, NAK and returned credits. -/
  | link (w : TwPort) (ack : BitVec 16) (nak : Bool) (ctl : BitVec 16) (bcast : BitVec 16)
  /-- LANE_DROP (R409): 32 invalid headers in 64 drop a lane, so the port enters RECOVER. -/
  | laneDrop (w : TwPort) (l : Fin 4) (x : LaneFault)
  /-- RECOVER_END (R409): The remaining lanes are deskewed and the port replays and returns to UP. -/
  | recoverEnd (w : TwPort)
  /-- RECOVER_TIMEOUT (R409): A port in RECOVER for 100 µs, or left with no lane, goes DOWN. -/
  | recoverTimeout (w : TwPort)
  /-- LANE_RETRAIN_END (R409): A dropped lane finishes its retrain and is added back through RECOVER. -/
  | laneRetrainEnd (w : TwPort) (l : Fin 4)
  /-- TIME (R415): A TIME exchange aligns the device's CT and hop latency against its upstream partner. -/
  | timeCmd (w : TwPort) (dev : BitVec 5) (depth : BitVec 5) (ct : BitVec 48) (path : BitVec 20) (t1 : BitVec 64)
    (t2 : BitVec 64 := 0) (t3 : BitVec 64 := 0) (t4 : BitVec 64 := 0)
  /-- ARRIVE (R417): The master receives an arrival at barrier n and, when all have arrived, sends RELEASE. -/
  | arrive (n : Byte) (d : Fin 32) (bad : Bool)
  /-- RELEASE (R417): A participant receives RELEASE(n, T) and answers ACK. -/
  | release (n : Byte) (t : BitVec 48)
  /-- ACK (R417): The master receives a barrier acknowledgement. -/
  | ack (n : Byte) (d : Fin 32)
  /-- BARRIER_ACK_DEADLINE (R418): 2 µs after RELEASE, missing ACKs make the master declare devices lost and send FAIL. -/
  | barrierAckDeadline (n : Byte)
  /-- BARRIER_START (R417): At T, the next line of every participating sequencer begins and the held vector is cut. -/
  | barrierStart (n : Byte)
  /-- FAIL (R418): A participant receives FAIL(n), so its participating bursts end with SYNC_FAIL. -/
  | fail (n : Byte)
  /-- WITHDRAW (R419): The master receives a withdrawn arrival after a stopped sequencer. -/
  | withdraw (n : Byte) (d : Fin 32)
  /-- LOST (R412): A member receives LOST and enters state LOST. -/
  | lost
  /-- PROBE_TIMER (R413): Every 20 µs with AUTOREJ = 1, the master sends PROBE to each lost device. -/
  | probeTimer
  /-- PROBE (R413): A lost device answers PROBE and is aligned again to JOINED. -/
  | probe (d : Fin 32)
  /-- GFSUM (R422): The master receives a change of a device's fail contribution and updates GFAIL. -/
  | gfsum (d : Fin 32) (on : Bool)
  /-- GSTOP (R423): A write of GSTOP, or GFAIL with GF_STOP, starts a global stop through the master. -/
  | gstop
  /-- GSTOP_RECEIVED (R423): A device receives GSTOP and stops every sequencer in TWD_GS_SEQ. -/
  | gstopReceived (w : TwPort := 0)
  /-- BC_GO (R420): Starts a pattern broadcast of TWD_BC_OBJ to the masked members. -/
  | bcGo
  /-- BC_CREATE (R420): A member runs CREATE for the broadcast object. -/
  | bcCreate (x : BcCreate)
  /-- BCAST (R420): A member forwards a broadcast message downstream and writes it into the object. -/
  | bcast (x : BcData)
  /-- BC_SEAL (R420): A member runs SEAL and reports the outcome, setting TWD_BC_DONE or TWD_BC_FAILM. -/
  | bcSeal (x : BcSeal)
  /-- CASC_EN (R411): Enabling cascade participation starts numbering on the master or a search on a member. -/
  | cascEn (on : Bool) (reach : List TwReach)
  /-- RETRAIN (R424): Takes the port DOWN and restarts bring-up. -/
  | retrain (w : TwPort)
  /-- PRBS_EN (R424): Takes the port out of service for PRBS31 testing and zeroes its counters. -/
  | prbsEn (w : TwPort) (on : Bool) (errs : List Word)
  /-- TWD_CAP_REL (R425): Empties TWD_ERR_CAP. -/
  | twdCapRel
  /-- ETH_FRAME (R434): A frame is received and counted, discarded, or buffered, with PAUSE sent at three quarters
  full. -/
  | ethFrame (f : EthFrame)
  /-- PAUSE (R434): A received PAUSE halts transmission for its quanta. -/
  | pause (quanta : BitVec 16)
  /-- ARP (R430): An ARP request for ETH_IPV4 is answered. -/
  | arp (ip : Word)
  /-- NEIGHBOUR_SOLICITATION (R430): An NDP solicitation for the device's addresses is answered. -/
  | neighbourSolicitation (target : BitVec 128)
  /-- ECHO (R430): An ICMPv4 or ICMPv6 echo is replied to. -/
  | echo (v6 : Bool) (dst : BitVec 128) (len : BitVec 14)
  /-- ANNOUNCE (R433): A PTP Announce message feeds the best master clock algorithm. -/
  | announce (domain : Byte) (ds : BitVec 127) (utc : BitVec 16)
  /-- SYNC_MESSAGE (R433): A PTP Sync/delay exchange updates the offset and, eventually, PTP_LOCK. -/
  | syncMessage (domain : Byte) (ds : BitVec 127) (ofs : Word)
  /-- LINK_CHANGE (R454): The PCS gains or loses block lock, or the module's presence or loss of signal changes. -/
  | linkChange (link : Bool) (modAbs : Bool) (los : Bool)
  /-- ACKNOWLEDGEMENT (R440): An SLP acknowledgement frame advances ACK, WIN and SACK, releasing acknowledged data such
  as results and records. -/
  | acknowledgement (session : Word) (stream : Fin 11) (a : SlpAck)
  /-- OPEN (R438): Opens an SLP session, binding the sender and starting every stream at SEQ 0. -/
  | slpOpen (h : SlpHdr) (p : SlpPeer) (tag : Word) (maxpay : Word) (force : Bool)
  /-- CLOSE (R439): Ends the session after the response. -/
  | slpClose (h : SlpHdr) (tag : Word)
  /-- STATUS (R442): Returns the configuration state and the self-test summary. -/
  | slpStatus (h : SlpHdr) (tag : Word)
  /-- CAL (R446): Runs a Calico command over SLP, ordered after the acknowledged upload data. -/
  | slpCal (h : SlpHdr) (tag : Word) (cmd : Word) (id : Word) (sizeLo : Word) (sizeHi : Word)
  /-- READ (R450): Starts a read of an allocation on stream 10. -/
  | slpRead (h : SlpHdr) (tag : Word) (id : Word) (off : BitVec 64) (len : Word)
  /-- KEY (R442): Runs a key command over SLP. -/
  | slpKey (h : SlpHdr) (tag : Word) (cmd : Word) (blob : BitVec 320)
  /-- FL_BEGIN (R448): Opens a flash update and erases the slot's blocks. -/
  | slpFlBegin (h : SlpHdr) (tag : Word) (slot : Word) (size : Word) (ok : Bool)
  /-- FL_DATA (R448): Writes contiguous data into the slot being updated, or refuses it with an UPLOAD_ERR notice. -/
  | slpFlData (h : SlpHdr) (slot : Word) (off : Word) (data : List Byte) (ok : Bool)
  /-- FL_COMMIT (R448): Checks the CRC of the read-back and writes the new directory copy. -/
  | slpFlCommit (h : SlpHdr) (tag : Word) (crc : Word) (dir2 : Word) (readback : Word) (ok : Bool)
  /-- RESTART (R442): Responds, then warm-restarts from the named slot; in a hold, reruns the self-test. -/
  | slpRestart (h : SlpHdr) (tag : Word) (slot : Word)
  /-- SHUTDOWN (R521): Responds, stops, runs the self-test, writes the record, flushes and drives PS_EN_MAIN low. -/
  | slpShutdown (h : SlpHdr) (tag : Word)
  /-- STANDBY (R480): Responds, then enters standby, or refuses in fallback. -/
  | slpStandby (h : SlpHdr) (tag : Word)
  /-- CSR (R445): Performs up to 512 control-space accesses as the SLP master. -/
  | slpCsr (h : SlpHdr) (tag : Word) (entries : List CsrEntry)
  /-- OBJ_DATA (R447): Upload data enters Calico's write queue and is written, or is refused with an UPLOAD_ERR notice. -/
  | slpObjData (h : SlpHdr) (id : Word) (off : BitVec 64) (data : List Byte)
  /-- MSG (R453): A flow message is delivered to receive port q. -/
  | slpMsg (h : SlpHdr) (q : Fin 4) (words : List Word)
  /-- DEBUG_REQUEST (R536): A stream 3 request performs debug accesses through port S. -/
  | slpDebugRequest (h : SlpHdr) (tag : Word) (entries : List CsrEntry)
  /-- SLP_SEND (R441): The device sends a new frame of results, records, notices, read data or flow messages while the
  window and its source allow. -/
  | slpSend (stream : Fin 11)
  /-- RETRANSMIT_TIMEOUT (R441): An unacknowledged frame is resent after ETH_RTO, with the timeout doubling. -/
  | retransmitTimeout (stream : Fin 11) (seq : Word)
  /-- ACK_DELAY (R441): 20 µs after receipt, an acknowledgement is sent. -/
  | ackDelay (stream : Fin 11)
  /-- SESSION_TIMEOUT (R439): No frame from the peer for ETH_SESS_TO ms ends the session. -/
  | sessionTimeout
  /-- SESS_END (R439): Ends the session. -/
  | sessEnd
  /-- TX_SEND (R453): Sends the words written to transmit port q as one flow message. -/
  | txSend (mask : BitVec 4)
  /-- RX_SKIP (R453): Discards the head message of receive port q. -/
  | rxSkip (mask : BitVec 4)
  /-- ETH_RX_READ (R453): A read of ETH_RXq_D returns and consumes the next word of the head message. -/
  | ethRxRead (q : Fin 4) (m : Master)
  /-- REFCLK_LOSS (R466): REFCLK is declared lost: sequencers stop, and fallback or WAITREF follows. -/
  | refclkLoss (fab : Byte) (why : RefFault := .silent 0xFFFFFFFF)
  /-- TREF_LOSS (R465): TREF is declared lost: channels are forced safe, runs end and CAL_DONE clears. -/
  | trefLoss (fab : Byte) (why : RefFault := .silent 0xFFFFFFFF)
  /-- XTAL32_LOSS (R469): XTAL32 is declared lost, which clears XTAL_OK and IOSC_OK. -/
  | xtal32Loss (why : RefFault := .silent 0xFFFFFFFF)
  /-- REFERENCE_RESTORED (R468): 16 passing windows restore a reference and the device returns from fallback or
  resumes. -/
  | referenceRestored (r : ClkRef) (counts : List Word := List.replicate 16 0)
  /-- IOSC_WINDOW (R464): Each 64-period XTAL32 window ends and re-judges IOSC_OK. -/
  | ioscWindow (count : Word)
  /-- MUX_SWITCH (R470): A reference multiplexer changes over, by force after 32 new-clock edges if need be. -/
  | muxSwitch (forced : List (BitVec 7))
  /-- PLL_LOCK (R460): An island PLL locks or relocks and its clock runs. -/
  | pllLock (i : Island)
  /-- FM_GO (R471): Starts a frequency measurement. -/
  | fmGo
  /-- FM_END (R471): The gate ends and CLK_FM_CNT holds the count. -/
  | fmEnd (hz : ClkHz)
  /-- FORCED_REL (R473): Empties CLK_FORCED_CAP. -/
  | forcedRel
  /-- LOSS_REL (R473): Empties CLK_LOSS_CAP. -/
  | lossRel
  /-- CLK_MFP (R461): A write of MULT holds the core while its PLL relocks. -/
  | clkMfp (m : MfpId) (v : Word)
  /-- CLK_EN (R472): Gates or ungates peripheral clocks; a 0 to TWL waits until every sequencer is IDLE. -/
  | clkEn (v : Word)
  /-- RAIL_SAMPLE (R476): A rail monitor average updates and raises or clears its alarm. -/
  | railSample (k : Fin 20) (v : BitVec 16) (i : BitVec 16) (p : BitVec 24)
  /-- RAIL_REL (R484): Empties PWR_RAIL_CAP. -/
  | railRel
  /-- RESET_THRESHOLD_FALL (R562): VCORE, VSRAM, VVD_Tn or PS_PG falls outside standby, so the logic die is held in
  reset. -/
  | resetThresholdFall (fall : ResetFall := .rail)
  /-- SENSOR_READ (R477): Every 10 µs each temperature sensor is read and TWARN is updated. -/
  | sensorRead (temps : List (BitVec 12))
  /-- TCRIT_REL (R484): Empties PWR_TCAP. -/
  | tcritRel
  /-- STBY_GO (R479): Starts standby entry, or refuses it in fallback. -/
  | stbyGo
  /-- STANDBY_ENTRY_END (R479): Write-back and self-refresh are done and retention is switched, so PS_EN_MAIN is driven
  low. -/
  | standbyEntryEnd
  /-- STBY_REF_REL (R480): Empties the STBY_REFUSED capture. -/
  | stbyRefRel
  /-- WAKE_N_FALL (R482): A filtered falling WAKE_N, with WAKEN_EN = 1, starts a wake. -/
  | wakeNFall
  /-- RTC_ALARM (R482): The RTC reaches PWR_WAKE_AT with ALARM_EN = 1, which starts a wake. -/
  | rtcAlarm
  /-- PS_PG_RISE (R483): The main rails are good, so the logic die leaves reset and the wake resumes from the resume
  copy. -/
  | psPgRise
  /-- VAON_SETTLED (R560): VAON has been in range for 2 ms, so Chiffon drives PS_EN_MAIN high. -/
  | vaonSettled
  /-- EVENT_OCCURRENCE (R491): A source becomes active; it is stamped, rate-checked by the storm guard and entered or
  folded at each routed destination. -/
  | eventOccurrence (n : EvSource)
  /-- STUCK_TIMEOUT (R497): A source active for its stuck time is masked. -/
  | stuckTimeout (n : EvSource)
  /-- EVT_UNMASK (R498): Unmasks a source and restarts its stuck time and rate window. -/
  | evtUnmask (n : BitVec 11)
  /-- STORM_REL (R501): Empties EVT_STORM_CAP. -/
  | stormRel
  /-- EVT_NEXT (R494): A read of EVT_Mm_NEXT returns and consumes the MFP's head event entry. -/
  | evtNext (m : MfpId) (q : Master)
  /-- EVQ_TAKE (R495): The Canvas static region takes the head event entry by EVQ_R. -/
  | evqTake
  /-- EVIN_CHANGE (R499): A filtered EVIN input takes a new level and counts rising edges. -/
  | evinChange (k : Fin 8) (samples : List Bool := [])
  /-- RTC_SET (R514): Loads LDG_RTC_SET into the RTC seconds and sets RTC_VALID. -/
  | rtcSet
  /-- RTC_ALIGN (R514): When PTP_LOCK rises, and every 60 s after, the RTC is aligned to PTP time at the next second
  boundary. -/
  | rtcAlign (ptp : BitVec 48)
  /-- LEDGER_MINUTE (R515): Each minute the ledger's drive-minute and thermal-histogram counters advance. -/
  | ledgerMinute
  /-- FLUSH_GO (R516): Starts a flush of the ledger to the next flash block. -/
  | flushGo
  /-- FLUSH_INTERVAL (R516): FLUSH_INT minutes of main power, or 60 s after a start, start a flush. -/
  | flushInterval
  /-- FLUSH_END (R516): A flush completes, or fails and sets FLUSH_ERR. -/
  | flushEnd (ok : Bool)
  /-- BST_PRECHECK (R520): Once a second during the self-test, the preconditions are rechecked, and the test stops
  NOT_RUN if one fails. -/
  | bstPrecheck
  /-- SELF_TEST_END (R519): The self-test completes and its record is written. -/
  | selfTestEnd (r : SelfTest)
  /-- CHAL_GO (R531): Draws a debug challenge into the port. -/
  | chalGo (p : DbgPort)
  /-- AUTH_GO (R531): Checks the HMAC response and raises the port's level, or locks it out. -/
  | authGo (p : DbgPort)
  /-- LOCKOUT_END (R531): The 1 s lockout after a failed check ends. -/
  | lockoutEnd (p : DbgPort)
  /-- CHALLENGE_EXPIRY (R531): 60 s after it was drawn, the challenge becomes invalid. -/
  | challengeExpiry (p : DbgPort)
  /-- LOGOUT (R530): Ends the port's debug session and frees its MFPs. -/
  | logout (p : DbgPort)
  /-- TAP_RESET (R530): TRST_N low or Test-Logic-Reset ends port J's session and loads IDCODE. -/
  | tapReset
  /-- IDCODE (R533): Selects the IDCODE register. -/
  | tapIdcode
  /-- SAMPLE_PRELOAD (R533): Selects the boundary-scan register for sample and preload. -/
  | tapSamplePreload (cells : List Bool := [])
  /-- EXTEST (R533): Drives boundary-scan values, at level 3 with the device idle. -/
  | tapExtest (cells : List Bool := [])
  /-- CLAMP (R533): Clamps the outputs, at level 3. -/
  | tapClamp
  /-- HIGHZ (R533): Puts the outputs in high impedance, at level 3. -/
  | tapHighz
  /-- BYPASS (R533): Selects the bypass register. -/
  | tapBypass
  /-- DBGACC_READ (R535): At Update-DR with OP 1, starts a debug read. -/
  | dbgaccRead (addr : Word)
  /-- DBGACC_WRITE (R535): At Update-DR with OP 2, starts a debug write. -/
  | dbgaccWrite (addr : Word) (data : Word)
  /-- DBGACC_READ_INC (R535): At Update-DR with OP 3, starts a debug read and adds 4 to ADDR. -/
  | dbgaccReadInc (addr : Word)
  /-- DBGACC_DONE (R535): A debug access completes and its status and data are captured. -/
  | dbgaccDone
  /-- HALT (R538): Requests a halt of an MFP and takes ownership of it. -/
  | halt (p : DbgPort) (m : MfpId)
  /-- HALT_TAKEN (R538): The core reaches an allowed boundary, halts and records the PC and cause. -/
  | haltTaken (m : MfpId)
  /-- HALT_FORCE (R538): 256 cycles after the request, a halt deferred by a reservation is forced and the reservation
  cleared. -/
  | haltForce (m : MfpId)
  /-- RESUME (R541): Resumes a halted MFP at DBG_Mn_PC. -/
  | resume (p : DbgPort) (m : MfpId)
  /-- STEP (R541): Issues one bundle of a halted MFP and halts again. -/
  | step (p : DbgPort) (m : MfpId)
  /-- FEED_GO (R542): Executes the fed bundle on a halted MFP. -/
  | feedGo (p : DbgPort) (m : MfpId)
  /-- DRST (R541): Resets the MFP with CAUSE 3. -/
  | drst (p : DbgPort) (m : MfpId)
  /-- DBG_REG_ACCESS (R543): Reads or writes a halted MFP's register file word, or ends with a bus error while it runs. -/
  | dbgRegAccess (p : DbgPort) (m : MfpId) (v : Option Word)
  /-- INJECTION_PORT_INPUT (R357): In a TCLK cycle, the region named by INJSRC presents up to eight pin bytes, which
  the injection FIFO takes while it has room; its ready signal follows. -/
  | injectionPortInput (c : Channel) (bytes : List Byte)
  /-- REMOTE_STORE_DONE (R318): A buffered remote store completes without error, freeing its place in the store buffer
  and possibly releasing a held FENCE or bundle. -/
  | remoteStoreDone (m : MfpId) (k : Fin 24)
  /-- EVENT_SOURCE_INACTIVE (R491): An event source becomes inactive, either at the end of its 16 ns pulse or when an
  outside condition such as a CAC comparator or PMU compliance ends, which re-arms its next occurrence and ends its
  stuck time. -/
  | eventSourceInactive (n : EvSource)
  /-- PAUSE_EXPIRY (R434): The time given by a received PAUSE runs out, so PAUSED clears and transmission resumes. -/
  | pauseExpiry
  /-- VAON_LOSS (R476): VAON falls below its threshold, so Chiffon is lost except for the RTC on VBAT, and the next
  start is cold. -/
  | vaonLoss
  /-- VBAT_FALL (R513): VBAT falls below the level that keeps the RTC, which sets VBAT_LOW and, with VAON absent,
  clears RTC_VALID. -/
  | vbatFall
  /-- RETENTION_SUPPLY_LOSS (R483): In standby, Chiffon finds the Canvas retention supply outside its range, so RET_OK
  clears and the next wake becomes a warm restart. -/
  | retentionSupplyLoss
  /-- BST_START_TIMEOUT (R522): The preconditions of a start-time self-test are not met within 10 s, so a NOT_RUN
  record is written and the start continues. -/
  | bstStartTimeout
  /-- CE_WINDOW_AGE (R269): Corrected errors age out of a rank's WIN-second window, so the window count falls and CE_TH
  clears when it no longer exceeds CETH. -/
  | ceWindowAge (dc : DcId) (rank : Fin 4) (n : Word)
  deriving DecidableEq, Repr

end Sys2Proof
end

