-- ==== Sys2Proof/WellFormed.lean ====
section
/-! DEFINITION. Which commands are well-formed: what the spec fixes of an operand beyond its type. The meanings take any
command. -/

namespace Sys2Proof

/-- What a read of the flash brings has the length that R377 and R378 give it. -/
def flashReadOk : FlashRead → Bool
  | .noAnswer => true
  | .directory _ _ a b => a.length == 16 && b.length == 16
  | .header w => w.length == 64
  | .segment ws => decide (ws.length ≤ 16384)
  | .malformed => true

/-- A broadcast message carries 1 to 4,032 bytes (R420). -/
def bcDataOk : BcData → Bool
  | .send => true
  | .message _ _ data => !data.isEmpty && decide (data.length ≤ 4032)

/-- A slot's SPD image has 1,024 bytes at most (R252), and describes at most eight ranks. -/
def slotOk : Option SlotReport → Bool
  | none => true
  | some r => decide (r.spd.length ≤ 256) && decide (r.ranks.length ≤ 8)

/-- A command is well-formed. -/
def Instr.wellFormed (i : Instr) : Bool :=
  match i with
  | .registerWrite _ _ _ => true
  | .absentRel => true
  | .indirectDataAccess _ _ _ => true
  | .levelWrite _ _ _ => true
  | .lvlCommit _ => true
  | .protForce _ => true
  | .protRel _ => true
  | .releaseCheck => true
  | .vlvCapRel _ => true
  | .protEn _ _ => true
  | .detectorInputChange _ _ _ => true
  | .deglitchExpiry _ _ _ => true
  | .safeNFall => true
  | .safeNRise => true
  | .safeSettled _ => true
  | .mxCommit _ => true
  | .mxCommitEnd _ => true
  | .mxErrRel _ => true
  | .vlvChPmu _ _ => true
  | .pmuSettle _ => true
  | .timingWrite _ _ => true
  | .sqCommit => true
  | .tCommit _ => true
  | .timPlane _ => true
  | .timErrRel _ => true
  | .tdrStart _ => true
  | .tdrAbort _ => true
  | .tdrLaunch _ obs => decide (obs.map fun x => x.1).Nodup
  | .tdrEnd _ => true
  | .calDone => true
  | .recalibrationStep _ => true
  | .recalibrationEnd _ => true
  | .mapCommit _ => true
  | .mapErrRel _ => true
  | .cmdStop _ => true
  | .twlNop _ => true
  | .twlRpt _ => true
  | .twlLdc _ => true
  | .twlDjnz _ => true
  | .twlJmp _ => true
  | .twlCall _ => true
  | .twlRet _ => true
  | .twlBrc _ => true
  | .twlMatch _ => true
  | .twlMatchTimeout _ => true
  | .twlHof _ => true
  | .twlStop _ => true
  | .twlEvt _ => true
  | .twlSync _ => true
  | .twlApg _ => true
  | .twlClrf _ => true
  | .gngNext _ => true
  | .gngJmp _ => true
  | .gngJw _ => true
  | .gngJnw _ => true
  | .gngLdc _ => true
  | .gngDjnz _ => true
  | .gngCall _ => true
  | .gngRet _ => true
  | .gngRpt _ => true
  | .gngWaitt _ => true
  | .gngJref _ => true
  | .gngEnd _ => true
  | .refInterval _ => true
  | .refEn _ _ => true
  | .tmrZero _ => true
  | .gngErrRel _ => true
  | .strobeResult _ obs => decide (obs.map fun x => x.1).Nodup
  | .recordWrite _ => true
  | .padTimeout _ => true
  | .dmkRingRd _ _ => true
  | .recordPortRead _ _ => true
  | .resultPortRead _ => true
  | .resultPost _ => true
  | .bmapClr _ => true
  | .bmapClearEnd _ => true
  | .bitmapLineWrite _ _ => true
  | .raOpen _ => true
  | .raClose _ => true
  | .raCloseEffect _ => true
  | .raAbort _ => true
  | .repairCell _ _ => true
  | .repairSearchEnd _ _ => true
  | .create _ => true
  | .alloc _ => true
  | .seal _ => true
  | .delete _ => true
  | .query _ => true
  | .calCmdInvalid _ => true
  | .scanEnd _ => true
  | .zeroFillEnd _ => true
  | .systemAreaBuilt => true
  | .post _ => true
  | .wdraw _ => true
  | .collRel _ => true
  | .admissionDecision => true
  | .fillComplete _ => true
  | .lineDecode _ => true
  | .pzNext => true
  | .pzOvfRel => true
  | .channelTrained _ r => slotOk r.slot0 && slotOk r.slot1
  | .channelResumed _ _ => true
  | .dramRequest _ _ => true
  | .dramReadDecode _ _ _ => true
  | .refab _ _ _ => true
  | .thermalPoll _ _ _ _ => true
  | .idleSelfRefresh _ _ => true
  | .retire _ => true
  | .redirectionSetupEnd _ _ => true
  | .migrationCopy _ _ => true
  | .ddrCapRel _ => true
  | .kwLoad _ => true
  | .kwErase _ => true
  | .kwInvalid _ => true
  | .encCapRel => true
  | .rkreq _ => true
  | .rekeyWalkStart => true
  | .rekeyPage _ => true
  | .partialWrite _ _ data _ => !data.isEmpty
  | .wholeLineWrite _ _ _ _ => true
  | .nodeRebuild => true
  | .adcStart _ => true
  | .adcGstart _ => true
  | .adcStop _ => true
  | .urgGo _ => true
  | .calGo _ => true
  | .adcCalEnd _ _ _ _ _ => true
  | .refReady _ => true
  | .adcOutput _ raws _ _ => !raws.isEmpty
  | .adcPortRead _ _ => true
  | .adcStrRd _ _ => true
  | .mfpNop _ _ => true
  | .mfpAdd _ _ => true
  | .mfpSub _ _ => true
  | .mfpAnd _ _ => true
  | .mfpOr _ _ => true
  | .mfpXor _ _ => true
  | .mfpSll _ _ => true
  | .mfpSrl _ _ => true
  | .mfpSra _ _ => true
  | .mfpSlt _ _ => true
  | .mfpSltu _ _ => true
  | .mfpMin _ _ => true
  | .mfpMax _ _ => true
  | .mfpAbs _ _ => true
  | .mfpMul _ _ => true
  | .mfpMulq _ _ => true
  | .mfpAddi _ _ => true
  | .mfpAndi _ _ => true
  | .mfpOri _ _ => true
  | .mfpXori _ _ => true
  | .mfpShi _ _ => true
  | .mfpSlti _ _ => true
  | .mfpLui _ _ => true
  | .mfpMaxs _ _ => true
  | .mfpMins _ _ => true
  | .mfpLdw _ _ => true
  | .mfpLdh _ _ => true
  | .mfpLdhu _ _ => true
  | .mfpLdb _ _ => true
  | .mfpLdbu _ _ => true
  | .mfpLdd _ _ => true
  | .mfpStw _ _ => true
  | .mfpSth _ _ => true
  | .mfpStb _ _ => true
  | .mfpStd _ _ => true
  | .mfpLl _ _ => true
  | .mfpSc _ _ => true
  | .mfpFence _ _ => true
  | .mfpClrres _ _ => true
  | .mfpMac _ _ => true
  | .mfpMsu _ _ => true
  | .mfpAccld _ _ => true
  | .mfpAccadd _ _ => true
  | .mfpAccrd _ _ => true
  | .mfpBeq _ _ => true
  | .mfpBne _ _ => true
  | .mfpBlt _ _ => true
  | .mfpBge _ _ => true
  | .mfpJ _ _ => true
  | .mfpCall _ _ => true
  | .mfpJr _ _ => true
  | .mfpLoop _ _ => true
  | .mfpReti _ _ => true
  | .mfpRetn _ _ => true
  | .mfpWait _ _ => true
  | .mfpWaitEnd _ => true
  | .mfpIsync _ _ => true
  | .mfpTrap _ _ => true
  | .mfpMfsr _ _ => true
  | .mfpMtsr _ _ => true
  | .remoteLoadReturn _ _ => true
  | .remoteStoreError _ _ => true
  | .interruptEntry _ _ => true
  | .nmiEntry _ => true
  | .reservationTimeout _ => true
  | .watchdogExpiry _ => true
  | .kick _ => true
  | .mfpWdtCtrl _ _ => true
  | .timerExpiry _ => true
  | .mfpTmrLoad _ _ => true
  | .tmrRel _ => true
  | .rstRel _ => true
  | .ring _ _ => true
  | .mfpDback _ _ => true
  | .mfpCtxid _ _ => true
  | .mfpApCtrl _ _ _ => true
  | .hold _ => true
  | .ringEngaged _ => true
  | .ringOpen _ => true
  | .ringOpened _ => true
  | .bayRst _ _ => true
  | .cnvPort _ _ => true
  | .icfpWord _ _ _ => true
  | .tagVerified _ => true
  | .partialLoadEnd => true
  | .icfpAbort => true
  | .icfpRel => true
  | .injRel => true
  | .upsetRel => true
  | .scrubFrame _ _ _ => true
  | .coldStart _ _ _ _ ledger _ => (ledger.all fun b => b.words.length == 16384) && decide (ledger.map fun b => b.blk).Nodup
  | .segmentRead r => flashReadOk r
  | .writeRecord _ => true
  | .frames _ l => !l.isEmpty
  | .imem _ _ _ => true
  | .dmem _ _ _ => true
  | .endRecord _ => true
  | .goldenBuildEnd => true
  | .doneRise => true
  | .startUpPhase => true
  | .lockTimeout => true
  | .warm => true
  | .failRel => true
  | .portBringUp _ => true
  | .cap _ _ _ _ _ => true
  | .laneGood _ _ => true
  | .rateStepEnd _ errs => errs.length == 4
  | .link _ _ _ _ _ => true
  | .laneDrop _ _ _ => true
  | .recoverEnd _ => true
  | .recoverTimeout _ => true
  | .laneRetrainEnd _ _ => true
  | .timeCmd _ _ _ _ _ _ _ _ _ => true
  | .arrive _ _ _ => true
  | .release _ _ => true
  | .ack _ _ => true
  | .barrierAckDeadline _ => true
  | .barrierStart _ => true
  | .fail _ => true
  | .withdraw _ _ => true
  | .lost => true
  | .probeTimer => true
  | .probe _ => true
  | .gfsum _ _ => true
  | .gstop => true
  | .gstopReceived _ => true
  | .bcGo => true
  | .bcCreate _ => true
  | .bcast x => bcDataOk x
  | .bcSeal _ => true
  | .cascEn _ reach => reach.all fun r => !r.path.isEmpty
  | .retrain _ => true
  | .prbsEn _ _ errs => decide (errs.length ≤ 4)
  | .twdCapRel => true
  | .ethFrame f => decide (64 ≤ f.bytes.toNat)
  | .pause _ => true
  | .arp _ => true
  | .neighbourSolicitation _ => true
  | .echo _ _ _ => true
  | .announce _ _ _ => true
  | .syncMessage _ _ _ => true
  | .linkChange _ _ _ => true
  | .acknowledgement _ _ _ => true
  | .slpOpen _ _ _ _ _ => true
  | .slpClose _ _ => true
  | .slpStatus _ _ => true
  | .slpCal _ _ _ _ _ _ => true
  | .slpRead _ _ _ _ _ => true
  | .slpKey _ _ _ _ => true
  | .slpFlBegin _ _ _ _ _ => true
  | .slpFlData _ _ _ data _ => decide (data.length % 4 = 0)
  | .slpFlCommit _ _ _ _ _ _ => true
  | .slpRestart _ _ _ => true
  | .slpShutdown _ _ => true
  | .slpStandby _ _ => true
  | .slpCsr _ _ _ => true
  | .slpObjData _ _ _ data => decide (data.length % 4 = 0)
  | .slpMsg _ _ words => !words.isEmpty && decide (words.length ≤ 4096)
  | .slpDebugRequest _ _ _ => true
  | .slpSend _ => true
  | .retransmitTimeout _ _ => true
  | .ackDelay _ => true
  | .sessionTimeout => true
  | .sessEnd => true
  | .txSend _ => true
  | .rxSkip _ => true
  | .ethRxRead _ _ => true
  | .refclkLoss _ _ => true
  | .trefLoss _ _ => true
  | .xtal32Loss _ => true
  | .referenceRestored _ counts => decide (counts.length = 16)
  | .ioscWindow _ => true
  | .muxSwitch forced => decide forced.Nodup
  | .pllLock _ => true
  | .fmGo => true
  | .fmEnd _ => true
  | .forcedRel => true
  | .lossRel => true
  | .clkMfp _ _ => true
  | .clkEn _ => true
  | .railSample _ _ _ _ => true
  | .railRel => true
  | .resetThresholdFall _ => true
  | .sensorRead temps => temps.length == 12
  | .tcritRel => true
  | .stbyGo => true
  | .standbyEntryEnd => true
  | .stbyRefRel => true
  | .wakeNFall => true
  | .rtcAlarm => true
  | .psPgRise => true
  | .vaonSettled => true
  | .eventOccurrence _ => true
  | .stuckTimeout _ => true
  | .evtUnmask _ => true
  | .stormRel => true
  | .evtNext _ _ => true
  | .evqTake => true
  | .evinChange _ _ => true
  | .rtcSet => true
  | .rtcAlign _ => true
  | .ledgerMinute => true
  | .flushGo => true
  | .flushInterval => true
  | .flushEnd _ => true
  | .bstPrecheck => true
  | .selfTestEnd r =>
      r.early || (9950 ≤ r.covD2d.toNat && r.covD2d.toNat ≤ 10000 &&
        (r.fails == 0 || r.kind == 1 || (r.kind == 2 && r.item.toNat < 4220) || (r.kind == 3 && r.item.toNat < 128)))
  | .chalGo _ => true
  | .authGo _ => true
  | .lockoutEnd _ => true
  | .challengeExpiry _ => true
  | .logout _ => true
  | .tapReset => true
  | .tapIdcode => true
  | .tapSamplePreload cells => decide (cells.length ≤ 1920)
  | .tapExtest cells => decide (cells.length ≤ 1920)
  | .tapClamp => true
  | .tapHighz => true
  | .tapBypass => true
  | .dbgaccRead _ => true
  | .dbgaccWrite _ _ => true
  | .dbgaccReadInc _ => true
  | .dbgaccDone => true
  | .halt _ _ => true
  | .haltTaken _ => true
  | .haltForce _ => true
  | .resume _ _ => true
  | .step _ _ => true
  | .feedGo _ _ => true
  | .drst _ _ => true
  | .dbgRegAccess _ _ _ => true
  | .injectionPortInput _ bytes => decide (bytes.length ≤ 8)
  | .remoteStoreDone _ _ => true
  | .eventSourceInactive _ => true
  | .pauseExpiry => true
  | .vaonLoss => true
  | .vbatFall => true
  | .retentionSupplyLoss => true
  | .bstStartTimeout => true
  | .ceWindowAge _ _ _ => true

end Sys2Proof
end

