-- ==== Sys2Proof/Config.lean ====
section
/-!
DEFINITION. What an implementation fixes, and the free values: every value the spec leaves open is an `opaque`
constant here, without a body. Log entries 1, 18, 37, 43 and 92. -/

namespace Sys2Proof.Config

/-- The decision delay D in ns of a sequencer, from its plane offset and the largest TD of its channels (R136). -/
opaque decisionDelay : Nat → Nat → Nat
/-- The pipeline latency L of the device, code of 0.25 ps (R90). -/
opaque pipelineLatency : Nat
/-- A channel's own capacitance at the pin as measured at the factory, code of 0.01 pF (R86). -/
opaque selfCapacitance : Nat → Nat
/-- The pair 2 CH + CL of a strobe that a threshold left undefined decides, by draw (R59). -/
opaque strobePair : Nat → Nat
/-- The physical page at which the search for a free page of a rank begins, by draw (R216, R256). -/
opaque freePage : Nat → Nat
/-- The ID that Calico gives to an allocation, by draw (R215). -/
opaque allocId : Nat → Nat

/-- A byte of a new allocation that nothing has written, from its allocation's draw and its physical address (R223). -/
opaque undefByte : Nat → Nat → BitVec 8
/-- A draw of the on-die random source for a neighbour refresh (R264). -/
opaque neighbourDraw : Nat → Nat
/-- The key-wrapping key KWK, fused at manufacture (R278). -/
opaque kwk : Nat
/-- The entry of the full metadata cache that makes room for another, by draw (R284). -/
opaque cacheVictim : Nat → Nat
/-- The key drawn for key ID 0 at a cold start (R275). -/
opaque keyDraw : Nat → Nat
/-- How far a rebuilt major counter lies above every value used before (R292). -/
opaque rebuiltCounter : Nat → Nat
/-- The pages that the SYSTEM area takes beside the encryption metadata, from the pages in use (R214, R218). -/
opaque systemPages : Nat → Nat

/-- A debug challenge, by draw (R531). -/
opaque challenge : Nat → Nat
/-- The debug authentication key DAK, fused at manufacture (R531). -/
opaque dak : Nat

/-- The receive buffer of an SLP stream in frames of MAXPAY, from the stream and MAXPAY (R440). -/
opaque streamFrames : Nat → Nat → Nat
/-- A session ID, by draw (R438). -/
opaque sessionId : Nat → Nat

/-- The 64 bytes of the cell that a Tweed message of class CTL carries, from a number of the message (R406): the spec
gives these messages no layout. -/
opaque ctlCell : Nat → Nat

/-- The region of the user window answers an access, by draw: its contents are the loaded design's (R47). -/
opaque userAnswers : Nat → Bool
/-- What a read of the user window returns, by draw (R47). -/
opaque userRead : Nat → BitVec 32

end Sys2Proof.Config
end

