-- ==== Sys2Proof/Machine/State.lean ====
section
/-! DEFINITION. The machine's state, as plain data. Log entries 4 and 5. -/

namespace Sys2Proof.Machine

/-- A sparse map from keys to values, keys strictly rising, no entry equal to the default of its key. -/
abbrev SMap (α : Type) := List (Nat × α)

/-- The access kinds of the register tables; `hid` marks state the spec names without giving it a register. -/
inductive Kind
  | rw | ro | wo | wt | hid
  deriving DecidableEq, Repr

/-- One field of a register table, for every instance of its register: the instance (i, j) lies at byte address
`base + i * s1 + j * s2`, for i < n1 and j < n2. -/
structure Lay where
  base : Nat
  n1 : Nat
  s1 : Nat
  n2 : Nat
  s2 : Nat
  lsb : Nat
  width : Nat
  kind : Kind
  reset : Nat
  deriving DecidableEq, Repr

/-- One field of one register instance. -/
structure Fld where
  addr : Nat
  lsb : Nat
  width : Nat
  reset : Nat
  deriving DecidableEq, Repr

/-- A table of words behind an indirect pair, or inside an engine. -/
structure Tab where
  id : Nat
  size : Nat
  width : Nat
  reset : Nat
  deriving DecidableEq, Repr

/-- One compare slot of a channel in one vector (R101, R102, R107): empty, an edge strobe or a window strobe, with its
expectation code (0 none, 1 low, 2 high, 3 mid). -/
inductive Slot
  | empty
  | edge (exp : Nat)
  | window (exp : Nat)
  deriving DecidableEq, Repr

/-- The reasons for which a step stops with a fault. -/
inductive Fault
  /-- Raised by CLK_MFP with MULT above 15 (R462: the behaviour of the device is then undefined). Safe. -/
  | clockRatioUndefined
  deriving DecidableEq, Repr

/-- The reasons for which a command has no meaning in the model. -/
inductive Refusal
  /-- Raised by an arm of `exec` that has no meaning yet. Safe. -/
  | notModelled (mnemonic : String)
  deriving DecidableEq, Repr

/-- A decoded line of a pattern object (R127 to R131). -/
structure TwlLine where
  addr : Nat
  next : Nat
  op : Nat
  opnd : Nat
  arg : Nat
  tsc : Bool
  tset : Nat
  cmask : Bool
  bytes : List Nat
  deriving DecidableEq, Repr

/-- The tag that an APG passes to Damask with a vector (R176). -/
structure ApgTag where
  dx : Nat
  dy : Nat
  z : Nat
  px : Nat
  py : Nat
  data : Nat
  dir : Nat
  span : Nat
  deriving DecidableEq, Repr

/-- One channel's compare slots in an issued vector: its column and group, whether an APG data lane in DIR 0 masks them
(R175), for a column fed by a data lane of an APG the lane's BIT and STRIDE (R171), the span of each slot from the
vector's start in units of 0.25 ps (R101, R107), and the CMODE under which Damask has judged them, none until it has
(R183). -/
structure FlightCol where
  ch : Nat
  col : Nat
  grp : Nat
  pb : Nat
  slots : List Slot
  masked : Bool
  lane : Option (Nat × Nat)
  times : List (Nat × Nat) := []
  mode : Option Nat := none
  deriving DecidableEq, Repr

/-- An issued vector whose strobes Damask has not judged yet: `starts` and `ends` are its instants from the start of
vector 0 in units of 0.25 ps, `state` the state of the sequencer at its issue. -/
structure Flight where
  cyc : Nat
  ends : Nat
  maskGrp : Nat
  cmask : Bool
  iter : Nat
  iterEnd : Bool
  express : Bool
  tag : Option ApgTag
  cols : List FlightCol
  starts : Nat := 0
  state : Nat := 2
  deriving DecidableEq, Repr

/-- A vector of a MATCH that is judged, kept until the end of the MATCH decides whether it is recorded (R138): for each
of its columns the pairs 2 CH + CL found in its slots. -/
structure HeldVector where
  flight : Flight
  pairs : List (List Nat)
  deriving DecidableEq, Repr

/-- A compare result on its way to the sequencer, which it governs from the instant `due` on (R136): the groups with a
failing, unmasked vector, and for the last vector of a MATCH iteration the groups that matched in it. -/
structure Arrival where
  due : Nat
  cyc : Nat
  fails : Nat
  iter : Nat
  matched : Nat
  deriving DecidableEq, Repr

/-- A MATCH in progress (R137, R138). `idx` lines of the body are complete in the present iteration, `iter` iterations
have been issued, `decided` of them have been decided; `sat` is the instant from which the loop may end. -/
structure MatchRun where
  line : Nat
  body : Nat
  agg : Bool
  limit : Nat
  idx : Nat
  iter : Nat
  decided : Nat
  matched : List (Nat × Nat)
  sat : Option Nat
  tail : Bool
  after : Nat
  deriving DecidableEq, Repr

/-- The header of a pattern object (R126). -/
structure ObjHeader where
  width : Nat
  dictN : Nat
  bodyWords : Nat
  entry : Nat
  tset0 : Nat
  deriving DecidableEq, Repr

/-- The burst of one group of a run: its numbers, the configuration its site held when the run started (R189), and what
its result will report (R150). -/
structure Burst where
  grp : Nat
  site : Nat
  bseq : Nat
  ctx : Nat
  ended : Option Nat := none
  endLine : Nat := 0
  vcnt : Nat := 0
  det : Bool := false
  failCnt : Nat := 0
  ffail : Nat := 0xFFFFFFFFFFFF
  recCnt : Nat := 0
  dropCnt : Nat := 0
  ovf : Bool := false
  dropping : Bool := false
  trip : Bool := false
  mto : Bool := false
  ra : Bool := false
  vpois : Bool := false
  fpois : Bool := false
  miter : Nat := 0
  ring : Bool
  ringBad : Bool
  ringId : Nat
  rspace : Bool
  bmap : Bool
  bmapId : Nat
  xw : Nat
  yw : Nat
  zw : Nat
  db : Nat
  space : Bool
  posted : Bool := false
  deriving DecidableEq, Repr

/-- The run of a sequencer, from its admission to its release. `need` is the address of the line that issues next and
is not decoded yet, reached from the line before it in body order where `flow` holds; `front` is the furthest body word
consumed; `res` says that the object was resident at the admission (R227), `fetched` how many 64-byte lines of it the
fetcher has asked for and `asked` those that have not arrived, `xlat` holds the pages of the object in its translation
cache, the latest first (R240); `ending` is the END code and the line of an ending due at the next vector boundary
(R147). -/
structure SeqRun where
  obj : Nat
  hdr : ObjHeader
  demand : Nat
  res : Bool := false
  fetched : Nat := 0
  asked : List Nat := []
  xlat : List Nat := []
  need : Option Nat
  flow : Bool := false
  prev : List Nat := []
  line : Option TwlLine := none
  fresh : Bool := false
  left : Nat := 0
  stack : List Nat := []
  hof : Nat
  vtime : Nat := 0
  vcnt : Nat := 0
  last : List Nat := []
  flights : List Flight := []
  arrivals : List Arrival := []
  held : List HeldVector := []
  mtch : Option MatchRun := none
  spanPos : Nat := 0
  tag : Option ApgTag := none
  front : Nat := 0
  ending : Option (Nat × Nat) := none
  tstart : Nat := 0
  raUnits : Nat := 0
  bursts : List Burst
  deriving DecidableEq, Repr

/-- A fail record in a site's FIFO, with the bitmap bits that travel with it (R194, R200): its sequencer and group, and
whether it goes to the ring. -/
structure FailRec where
  words : List Nat
  seq : Nat
  grp : Nat
  ring : Bool
  ringId : Nat
  bmapId : Nat
  bits : List Nat
  deriving DecidableEq, Repr

/-- Bitmap bits that have left the FIFO and are not written yet (R201). -/
structure BitmapUpdate where
  seq : Nat
  grp : Nat
  bmapId : Nat
  bits : List Nat
  deriving DecidableEq, Repr

/-- A posted result, with the marks of the consumers that have taken it (R203), the value of DMK_RING_WR when it was
posted (R449), and its place among all results posted. -/
structure ResultEntry where
  words : List Nat
  byPort : Bool
  bySlp : Bool
  upto : Nat
  ord : Nat
  deriving DecidableEq, Repr

/-- A fail cell on its way to a repair unit (R205). -/
structure RaCell where
  grp : Nat
  block : Nat
  row : Nat
  col : Nat
  deriving DecidableEq, Repr

/-- One block of a repair session (R207). -/
structure RaBlock where
  grp : Nat
  block : Nat
  cells : List (Nat × Nat)
  nfail : Nat
  rr : Nat
  cr : Nat
  rows : List Nat
  cols : List Nat
  unrep : Bool
  deriving DecidableEq, Repr

/-- A repair session (R204, R206), with the unit's registers as they stood when it opened. -/
structure RaSession where
  seq : Nat
  gmask : Nat
  autoclose : Bool
  rb : Nat
  cb : Nat
  xbb : Nat
  cbb : Nat
  zb : Nat
  space : Bool
  corder : Bool
  yw : Nat
  db : Nat
  srow : Nat
  scol : Nat
  limit : Nat
  workId : Nat
  outId : Nat
  fed : Bool
  closing : Bool
  searching : Bool
  queue : List RaCell
  blocks : List RaBlock
  lost : Nat
  deriving DecidableEq, Repr

/-- An entry of a second-level page table: the physical page (physical address bits 43:16), and the key ID that Calico
places in bits 47:44 (R216). -/
structure PageEntry where
  page : Nat
  key : Nat
  deriving DecidableEq, Repr

/-- A second-level page table, for 1,024 pages: the place that it takes among the tables of the SYSTEM area, and its
entries (R216). -/
structure PageTable where
  slot : Nat
  entries : List PageEntry
  deriving DecidableEq, Repr

/-- An allocation of Calico (R214 to R217, R225, R241): its first-level page table, which takes the place `root` and
lists the second-level tables, its marked pages, and for each marked page being rewritten the bytes accepted; `pos`
counts the lines that a scan or a zero-fill in progress has done, and `epoch` numbers the draw of its undefined
contents. -/
structure Alloc where
  kind : Nat
  size : Nat
  key : Nat
  st : Nat
  root : Nat := 0
  tables : List PageTable := []
  pos : Nat := 0
  marked : List Nat := []
  rewrite : List (Nat × Nat) := []
  stored : Nat := 0
  bpv : Nat := 0
  tsmask : Nat := 0
  pfx : Nat := 0
  stream : Bool := false
  allpois : Bool := false
  epoch : Nat := 0
  deriving DecidableEq, Repr

/-- A request that a subchannel of DRAM holds: the line, and whether it is a write (R260). -/
structure DramReq where
  pa : Nat
  write : Bool
  deriving DecidableEq, Repr

/-- A write of an allocation's bytes that waits (R10, R286). -/
structure HeldWrite where
  id : Nat
  off : Nat
  data : List Byte
  deriving DecidableEq, Repr

/-- An entry of a destination of the event router (R493). -/
structure EvEntry where
  src : Nat
  ts : Nat
  count : Nat
  deriving DecidableEq, Repr

/-- A result in flight in a flow processor: the cycles until it is written, the physical register and the value (R329).
-/
structure MfpResult where
  left : Nat
  reg : Nat
  val : Nat
  deriving DecidableEq, Repr

/-- What a remote access is. -/
inductive RemoteKind
  | load (signed : Bool)
  | ll
  | store
  | sc
  deriving DecidableEq, Repr

/-- A remote access of a flow processor that has issued and is not complete (R318, R332): its address and size in
bytes, the data of a store, the physical registers that a load or SC writes, and for an aperture access the window's
allocation, byte offset and WR when it was issued, none where it was unmapped (R347); an SC takes with it the line
reserved at its issue. -/
structure Remote where
  kind : RemoteKind
  addr : Nat
  size : Nat
  data : Nat
  dest : List Nat
  win : Option (Nat × Nat × Bool)
  res : Option Nat := none
  deriving DecidableEq, Repr

/-- An imprecise exception that waits for a boundary: its cause code, the address, CAUSE.ST, and the cycles until the
local load that raises it completes (R317, R332). -/
structure Imprecise where
  cause : Nat
  addr : Nat
  st : Bool
  left : Nat := 0
  deriving DecidableEq, Repr

/-- The core of a flow processor (R323 to R342). `slot` is 0 at a bundle boundary and 1 while slot 1 of the bundle at
`pc` is still to issue; `target` is where a branch of slot 0 goes; `acc` holds under 8 k + h accumulator k as it stood
h cycles ago; `srNext` holds MTSR writes that take effect from the next bundle; `res` is the 64-byte line reserved;
`skipExec` says that the next bundle issues without its execute comparators; `haltReq` holds the cause and unit of a
halt request, and `haltFor` the cycles for which it has waited. -/
structure MfpCore where
  released : Bool := false
  pc : Nat := 0
  slot : Nat := 0
  target : Option Nat := none
  looped : Bool := false
  idle : Nat := 0
  x : SMap Nat := []
  acc : SMap Nat := []
  stat : Nat := 0
  epc : Nat := 0
  estat : Nat := 0
  cause : Nat := 0
  badaddr : Nat := 0
  vbase : Nat := 0
  npc : Nat := 0
  nstat : Nat := 0
  lc : Nat := 0
  ls : Nat := 0
  le : Nat := 0
  rb : Nat := 0
  cb : SMap Nat := []
  srNext : List (Nat × Nat) := []
  flight : List MfpResult := []
  remotes : List Remote := []
  imprecise : List Imprecise := []
  niRun : Nat := 0
  lastNi : Bool := false
  waiting : Bool := false
  res : Option Nat := none
  nmi : Bool := false
  skipExec : Bool := false
  haltReq : Option (Nat × Nat) := none
  haltFor : Nat := 0
  stepping : Bool := false
  deriving DecidableEq, Repr

/-- What a Tweed message says (R415 to R423). -/
inductive TwBody
  | arrive (n : Nat) (bad : Bool)
  | release (n t : Nat)
  | ack (n : Nat)
  | fail (n : Nat)
  | withdraw (n : Nat)
  | lost (d : Nat)
  | probe (d : Nat)
  | answer
  | gfsum (on : Bool)
  | gfail (on : Bool)
  | gstop
  | time (t2 t3 : Nat)
  | bcCreate (id size key : Nat)
  | bcCreated (code : Nat)
  | bcast (id off len : Nat)
  | bcSeal (id : Nat)
  | bcSealed (code : Nat)
  deriving DecidableEq, Repr

/-- A message at a Tweed port that its partner has not acknowledged: its SEQ once it is sent (R406 to R408). -/
structure TwMsg where
  body : TwBody
  seq : Option Nat := none
  deriving DecidableEq, Repr

/-- An entry of the notice queue (R451). -/
structure Notice where
  kind : Nat
  count : Nat
  arg0 : Nat
  arg1 : Nat
  ts : Nat
  deriving DecidableEq, Repr

/-- What the acknowledgement of a frame releases: results by site, records of a site, entries of the re-upload list, the
end of a READ, or nothing (R449 to R452). -/
inductive TxRelease
  | nothing
  | results (sites : List Nat)
  | records (site n : Nat)
  | reupload (l : List (Nat × Nat))
  deriving DecidableEq, Repr

/-- An SLP frame that the device sends: TYPE, payload words, FIRST and LAST, what its acknowledgement releases, its
SEQ, how often it has been sent, its timeout in µs, the consecutive acknowledgements that showed later frames received,
and the time of its last sending in ns (R441). -/
structure SlpTx where
  typ : Nat
  words : List Nat
  first : Bool
  last : Bool
  rel : TxRelease
  seq : Nat := 0
  sends : Nat := 0
  rto : Nat := 0
  skips : Nat := 0
  sentAt : Nat := 0
  deriving DecidableEq, Repr

/-- A message of a flow receive port: its length in bytes, and the words not read yet (R453). -/
structure FlowMsg where
  len : Nat
  words : List Nat
  deriving DecidableEq, Repr

/-- A message accepted ahead of a hole in its stream (R440). -/
structure SlpHeld where
  seq : Nat
  more : Nat
  msg : SlpMsg
  deriving DecidableEq, Repr

/-- A reply outside any session that waits for the MAC while transmission is halted (R430, R434, R438). -/
inductive EthReply
  | arp
  | advertisement
  | echo
  | reset
  | openRefused (code : Nat)
  deriving DecidableEq, Repr

/-- A register access that waits (R10, R19): a write or a read by a master, a write of the bits in `mask` of a register
by a command that names no master, a write of a timing table, and the two writes that carry what their port has seen. -/
inductive Access
  | write (m : Master) (addr v : Nat)
  | read (m : Master) (addr : Nat)
  | set (addr v mask : Nat)
  | timing (r : TimingReg) (v : Nat)
  | casc (on : Bool) (reach : List TwReach)
  | prbs (w : TwPort) (on : Bool) (errs : List Word)
  deriving DecidableEq, Repr

/-- The state of the device. -/
structure State where
  /-- The option code of the part (R1); no command changes it. -/
  opt : OptionCode := .a
  /-- Every register field and every single-valued piece of hidden state, by the key of its `Fld`. -/
  regs : SMap Nat := []
  /-- Every table word, by the key of its `Tab`. -/
  tabs : SMap Nat := []
  /-- Every byte of memory. -/
  mem : List Host.Cell := []
  /-- The runs, by sequencer. -/
  runs : SMap SeqRun := []
  /-- The injection FIFO of each channel, head first (R357). -/
  inj : SMap (List Nat) := []
  /-- The record FIFO of each site (R194). -/
  fifos : SMap (List FailRec) := []
  /-- The bitmap updates of each site that are not written yet (R201). -/
  updates : SMap (List BitmapUpdate) := []
  /-- The result queue of each site (R202). -/
  results : SMap (List ResultEntry) := []
  /-- The sessions of the repair units (R206). -/
  sessions : SMap RaSession := []
  /-- Calico's directory, by ID (R215). -/
  dir : SMap Alloc := []
  /-- The directory copy in the SYSTEM area, from which a warm restart and a wake rebuild the directory (R218). -/
  dirCopy : SMap Alloc := []
  /-- The requests of the subchannels, oldest first: 2 n + u the queue of subchannel u of channel n, 24 + 2 n + u the
  requesters that it holds (R260). -/
  dramQ : SMap (List DramReq) := []
  /-- Writes of lines that wait, oldest first (R10, R286). -/
  lineQ : List HeldWrite := []
  /-- Broadcast data that a member has received and not passed on, oldest first (R407, R420, R421). -/
  bcIn : List HeldWrite := []
  /-- The re-upload list, object and page index, head first (R241). -/
  pzList : List (Nat × Nat) := []
  /-- The uses that hold an allocation besides bursts and repair sessions (R226): user code and ID. -/
  uses : List (Nat × Nat) := []
  /-- The nodes of the counter tree that fail, as level and index; level 0 is a counter line (R289, R292). -/
  badNodes : List (Nat × Nat) := []
  /-- The cores of the flow processors; an unlisted one is as its reset leaves it, held in reset (R314). -/
  cores : SMap MfpCore := []
  /-- The output FIFO of each ADC, head first (R307). -/
  adcFifo : SMap (List Nat) := []
  /-- The entries that the event router holds for each destination, in the order in which they are handed out: 0 to 7 the
  MFPs, 8 Canvas, 9 SLP (R493). -/
  evq : SMap (List EvEntry) := []
  /-- The messages at each Tweed port that wait to be sent or acknowledged, oldest first (R407, R408). -/
  twOut : SMap (List TwMsg) := []
  /-- SLP frames of each stream that wait to be sent for the first time (R441). -/
  slpWait : SMap (List SlpTx) := []
  /-- SLP frames of each stream that are sent and not acknowledged, oldest first (R441). -/
  slpUnacked : SMap (List SlpTx) := []
  /-- Messages of each stream accepted ahead of a hole (R440). -/
  slpHeld : SMap (List SlpHeld) := []
  /-- Requests of stream 0 that wait for their turn, the one held first (R442). -/
  ctrlQ : List SlpMsg := []
  /-- Debug requests of stream 3 that wait for their turn, the one held first: TAG, and the entries not answered yet
  (R536). -/
  dbgQ : List (Word × List CsrEntry) := []
  /-- The notice queue, oldest first (R451). -/
  notices : List Notice := []
  /-- The objects that this session has created or sealed and whose OBJ_READY notice is still to be made (R452). -/
  slpObjs : List Nat := []
  /-- The messages of each flow receive port, head first (R453). -/
  rxMsgs : SMap (List FlowMsg) := []
  /-- The words written to each flow transmit port and not sent yet (R453). -/
  txBuf : SMap (List Nat) := []
  /-- Replies that wait while transmission is halted (R434). -/
  ethTx : List EthReply := []
  /-- The timestamps of a source's latest occurrences since its last unmask, at most 17, latest first (R497). -/
  occ : SMap (List Nat) := []
  /-- The pulsed event sources that have become active and whose occurrence is still to be processed, with the timestamps
  of their happenings (R491). -/
  raised : List (Nat × Nat) := []
  /-- The register accesses that wait in the queue of each master, oldest first (R10, R460): 0 to 7 the MFPs, 8 SLP, 9 and
  10 the debug ports, 11 the configuration controller, 12 commands that name no master. -/
  held : SMap (List Access) := []
  /-- The device timestamp, ns since start (R490). -/
  time : Nat := 0
  /-- The model's own counter that numbers the free values drawn so far. -/
  free : Nat := 0
  /-- The commands that wait, first in, first out. -/
  pending : List Instr := []
  deriving DecidableEq, Repr

/-- What a command or a step answers. -/
abbrev Out := Host.Outcome State Fault Refusal

def State.reset : State := {}

end Sys2Proof.Machine
end

