-- ==== Sys2Proof/Machine/Regs.lean ====
section
/-! DEFINITION. The register layout of the control space: one `Lay` for every field of every register table of
the spec (R43 to R548), written from those tables: base address, instances, lowest bit, width, access kind, reset
value. Fields at addresses from 2^32 on are per-MFP local registers (R315), banked debug registers (R547) and the
state the spec names without giving it a register (listed last for each block). Log entry 5. -/

namespace Sys2Proof.Machine

namespace SYS
/-- R43: Device identity -/
def ID : Lay := ⟨0x10001000, 1, 0x0, 1, 0x0, 0, 32, .ro, 0x4D4B9128⟩
/-- R43: SYS_REV: major stepping -/
def REV_MAJOR : Lay := ⟨0x10001004, 1, 0x0, 1, 0x0, 8, 8, .ro, 0x1⟩
/-- R43: SYS_REV: minor stepping -/
def REV_MINOR : Lay := ⟨0x10001004, 1, 0x0, 1, 0x0, 0, 8, .ro, 0x0⟩
/-- R43: See the SYS_CAP layout table -/
def CAP : Lay := ⟨0x10001008, 1, 0x0, 1, 0x0, 0, 32, .ro, 0x0⟩
/-- R43: Address of the captured absent access -/
def ABSENT_ADDR : Lay := ⟨0x1000100C, 1, 0x0, 1, 0x0, 0, 32, .ro, 0x0⟩
/-- R43: Absent accesses while HIT is set -/
def ABSENT_CNT : Lay := ⟨0x10001010, 1, 0x0, 1, 0x0, 0, 32, .ro, 0x0⟩
/-- R42: SYS_ABSENT_HIT holds an absent access -/
def HIT : Lay := ⟨0x10000000, 1, 0x0, 1, 0x0, 0, 1, .ro, 0x0⟩
/-- R42: empties the capture -/
def ABSENT_REL : Lay := ⟨0x10000000, 1, 0x0, 1, 0x0, 1, 1, .wt, 0x0⟩
/-- R34: the value that the last read command returned -/
def RDATA : Lay := ⟨0x100003700000, 1, 0x0, 1, 0x0, 0, 64, .hid, 0x0⟩
/-- Every field of the block, in the order of the spec. -/
def layout0 : List Lay :=
  [ID, REV_MAJOR, REV_MINOR, CAP, ABSENT_ADDR, ABSENT_CNT, HIT, ABSENT_REL, RDATA]
/-- Every field of the block. -/
def layout : List Lay := layout0
end SYS

namespace VLV
/-- R50 [t]: The tile's trip latch is set -/
def TRIP : Lay := ⟨0x20000000, 4, 0x1000000, 1, 0x0, 0, 1, .ro, 0x0⟩
/-- R50 [t]: The latches were set by a local cause of this device (a detector, PROT_FORCE, R478 or R507 -/
def LOCAL : Lay := ⟨0x20000000, 4, 0x1000000, 1, 0x0, 1, 1, .ro, 0x0⟩
/-- R50 [t]: SAFE_N reads low at the device -/
def EXT_IN : Lay := ⟨0x20000000, 4, 0x1000000, 1, 0x0, 2, 1, .ro, 0x0⟩
/-- R50 [t]: A release was refused because SAFE_N is low -/
def REL_BLOCKED : Lay := ⟨0x20000000, 4, 0x1000000, 1, 0x0, 3, 1, .ro, 0x0⟩
/-- R50 [t]: VLV_TRIP_CAP holds a cause -/
def CAP_FULL : Lay := ⟨0x20000000, 4, 0x1000000, 1, 0x0, 4, 1, .ro, 0x0⟩
/-- R50 [t]: Release the trip, as laid down under "Releasing a trip" -/
def PROT_REL : Lay := ⟨0x20000000, 4, 0x1000000, 1, 0x0, 8, 1, .wt, 0x0⟩
/-- R50 [t]: Set the trip as a local cause -/
def PROT_FORCE : Lay := ⟨0x20000000, 4, 0x1000000, 1, 0x0, 9, 1, .wt, 0x0⟩
/-- R50 [t]: Empty VLV_TRIP_CAP -/
def CAP_REL : Lay := ⟨0x20000000, 4, 0x1000000, 1, 0x0, 10, 1, .wt, 0x0⟩
/-- R50 [t]: A matrix commit is in progress -/
def MX_BUSY : Lay := ⟨0x20000004, 4, 0x1000000, 1, 0x0, 0, 1, .ro, 0x0⟩
/-- R50 [t]: VLV_MX_ERR_CAP holds a refused commit -/
def MX_ERR : Lay := ⟨0x20000004, 4, 0x1000000, 1, 0x0, 1, 1, .ro, 0x0⟩
/-- R50 [t]: A commit is held behind the one in progress -/
def MX_PEND : Lay := ⟨0x20000004, 4, 0x1000000, 1, 0x0, 2, 1, .ro, 0x0⟩
/-- R50 [t]: Apply the shadow route table -/
def MX_COMMIT : Lay := ⟨0x20000004, 4, 0x1000000, 1, 0x0, 8, 1, .wt, 0x0⟩
/-- R50 [t]: Empty VLV_MX_ERR_CAP -/
def MX_ERR_REL : Lay := ⟨0x20000004, 4, 0x1000000, 1, 0x0, 9, 1, .wt, 0x0⟩
/-- R50 [t]: Apply the staged levels of the tile -/
def LVL_COMMIT : Lay := ⟨0x20000008, 4, 0x1000000, 1, 0x0, 8, 1, .wt, 0x0⟩
/-- R50 [t c]: 1: driver follows the waveform table. 0: driver held in the OFF state -/
def DRV_EN : Lay := ⟨0x20000100, 4, 0x1000000, 32, 0x20, 0, 1, .rw, 0x0⟩
/-- R50 [t c]: Active load connected while the driver is OFF -/
def LOAD_EN : Lay := ⟨0x20000100, 4, 0x1000000, 32, 0x20, 1, 1, .rw, 0x0⟩
/-- R50 [t c]: Clamps enabled -/
def CLAMP_EN : Lay := ⟨0x20000100, 4, 0x1000000, 32, 0x20, 2, 1, .rw, 0x0⟩
/-- R50 [t c]: PMU regulates at the Kelvin sense input -/
def KELVIN : Lay := ⟨0x20000100, 4, 0x1000000, 32, 0x20, 3, 1, .rw, 0x0⟩
/-- R50 [t c]: PMU connected to the pin -/
def PMU_EN : Lay := ⟨0x20000100, 4, 0x1000000, 32, 0x20, 4, 1, .rw, 0x0⟩
/-- R50 [t c]: Level writes are staged until LVL_COMMIT -/
def LVL_STAGED : Lay := ⟨0x20000100, 4, 0x1000000, 32, 0x20, 5, 1, .rw, 0x0⟩
/-- R50 [t c]: CH comparator threshold is taken from terminal CHc.XTH -/
def EXT_TH : Lay := ⟨0x20000100, 4, 0x1000000, 32, 0x20, 6, 1, .rw, 0x0⟩
/-- R50 [t c]: The channel's detectors may set the trip latch -/
def PROT_EN : Lay := ⟨0x20000100, 4, 0x1000000, 32, 0x20, 7, 1, .rw, 0x1⟩
/-- R50 [t c]: Filtered overcurrent detector active -/
def OC : Lay := ⟨0x20000104, 4, 0x1000000, 32, 0x20, 0, 1, .ro, 0x0⟩
/-- R50 [t c]: Filtered clamp-overload detector active -/
def CLAMP_OVL : Lay := ⟨0x20000104, 4, 0x1000000, 32, 0x20, 1, 1, .ro, 0x0⟩
/-- R50 [t c]: PMU at its compliance limit -/
def PMU_COMPL : Lay := ⟨0x20000104, 4, 0x1000000, 32, 0x20, 2, 1, .ro, 0x0⟩
/-- R50 [t c]: PMU force loop settled -/
def PMU_SETTLED : Lay := ⟨0x20000104, 4, 0x1000000, 32, 0x20, 3, 1, .ro, 0x0⟩
/-- R50 [t c]: A level code lies outside the valid range of its level -/
def LVL_RANGE : Lay := ⟨0x20000104, 4, 0x1000000, 32, 0x20, 4, 1, .ro, 0x0⟩
/-- R50 [t c]: VIH is limited by the swing rule -/
def DRV_SWING : Lay := ⟨0x20000104, 4, 0x1000000, 32, 0x20, 5, 1, .ro, 0x0⟩
/-- R50 [t c]: The channel is in its safe state; set once its driver has settled there (R505) -/
def SAFE : Lay := ⟨0x20000104, 4, 0x1000000, 32, 0x20, 6, 1, .ro, 0x0⟩
/-- R51 [t]: VLV_TRIP_CAP: device channel number of the first cause, for CAUSE 0 or 1 -/
def TRIP_CAP_CH : Lay := ⟨0x20001000, 4, 0x1000000, 1, 0x0, 0, 8, .ro, 0x0⟩
/-- R51 [t]: 0: overcurrent; 1: clamp overload; 2: PROT_FORCE; 3: trip line from another tile; 4: SAFE_ -/
def TRIP_CAP_CAUSE : Lay := ⟨0x20001000, 4, 0x1000000, 1, 0x0, 8, 3, .ro, 0x0⟩
/-- R51 [t]: VLV_MX_ERR_CAP: first node that would carry two sources -/
def MX_ERR_CAP_NODE : Lay := ⟨0x20001004, 4, 0x1000000, 1, 0x0, 0, 6, .ro, 0x0⟩
/-- R51 [t]: Second source terminal found on that node -/
def MX_ERR_CAP_TERM : Lay := ⟨0x20001004, 4, 0x1000000, 1, 0x0, 8, 8, .ro, 0x0⟩
/-- R51 [t]: R39: each IDATA access adds one to ADDR -/
def MX_IADDR_INC : Lay := ⟨0x20001010, 4, 0x1000000, 1, 0x0, 31, 1, .rw, 0x1⟩
/-- R51 [t]: R39: word index into the table -/
def MX_IADDR_ADDR : Lay := ⟨0x20001010, 4, 0x1000000, 1, 0x0, 0, 28, .rw, 0x0⟩
/-- R77 [t k]: cell mode -/
def CAC_MODE : Lay := ⟨0x20001100, 4, 0x1000000, 16, 0x4, 0, 3, .rw, 0x0⟩
/-- R77 [t k]: G = 2^GAIN -/
def CAC_GAIN : Lay := ⟨0x20001100, 4, 0x1000000, 16, 0x4, 4, 3, .rw, 0x0⟩
/-- R77 [t k]: integrator time constant -/
def CAC_TAU : Lay := ⟨0x20001100, 4, 0x1000000, 16, 0x4, 8, 3, .rw, 0x0⟩
/-- R77 [t k]: integrator held at 0 V -/
def CAC_INT_RST : Lay := ⟨0x20001100, 4, 0x1000000, 16, 0x4, 11, 1, .rw, 0x0⟩
/-- R77 [t k]: comparator hysteresis -/
def CAC_HYST : Lay := ⟨0x20001100, 4, 0x1000000, 16, 0x4, 12, 3, .rw, 0x0⟩
/-- R77 [t k]: comparator output raises the cell's event -/
def CAC_EV_EN : Lay := ⟨0x20001100, 4, 0x1000000, 16, 0x4, 15, 1, .rw, 0x0⟩
/-- R78 [t k]: filter type -/
def SCF_TYPE : Lay := ⟨0x20001140, 4, 0x1000000, 8, 0x4, 0, 2, .rw, 0x0⟩
/-- R78 [t k]: corner frequency -/
def SCF_FC : Lay := ⟨0x20001140, 4, 0x1000000, 8, 0x4, 4, 10, .rw, 0x0⟩
/-- R79 [t k]: DAC code -/
def ADAC_CODE : Lay := ⟨0x20001160, 4, 0x1000000, 8, 0x4, 0, 16, .rw, 0x4E20⟩
/-- R79 [t k]: output enabled -/
def ADAC_EN : Lay := ⟨0x20001160, 4, 0x1000000, 8, 0x4, 16, 1, .rw, 0x0⟩
/-- R80 [t k]: input enabled -/
def SNS_EN : Lay := ⟨0x20001180, 4, 0x1000000, 8, 0x4, 0, 1, .rw, 0x0⟩
/-- R80 [t k]: legs halved -/
def SNS_DIV : Lay := ⟨0x20001180, 4, 0x1000000, 8, 0x4, 1, 1, .rw, 0x0⟩
/-- R52 [t c]: Drive-high level -/
def CH_VIH : Lay := ⟨0x20100000, 4, 0x1000000, 32, 0x4000, 0, 16, .rw, 0x4E20⟩
/-- R52 [t c]: Drive-low level -/
def CH_VIL : Lay := ⟨0x20100004, 4, 0x1000000, 32, 0x4000, 0, 16, .rw, 0x4E20⟩
/-- R52 [t c]: Termination level -/
def CH_VTT : Lay := ⟨0x20100008, 4, 0x1000000, 32, 0x4000, 0, 16, .rw, 0x4E20⟩
/-- R52 [t c]: CH comparator threshold -/
def CH_VOH : Lay := ⟨0x2010000C, 4, 0x1000000, 32, 0x4000, 0, 16, .rw, 0x4E20⟩
/-- R52 [t c]: CL comparator threshold -/
def CH_VOL : Lay := ⟨0x20100010, 4, 0x1000000, 32, 0x4000, 0, 16, .rw, 0x4E20⟩
/-- R52 [t c]: Active-load commutation level -/
def CH_VCOM : Lay := ⟨0x20100014, 4, 0x1000000, 32, 0x4000, 0, 16, .rw, 0x4E20⟩
/-- R52 [t c]: High clamp level -/
def CH_VCH : Lay := ⟨0x20100018, 4, 0x1000000, 32, 0x4000, 0, 16, .rw, 0xD6D8⟩
/-- R52 [t c]: Low clamp level -/
def CH_VCL : Lay := ⟨0x2010001C, 4, 0x1000000, 32, 0x4000, 0, 16, .rw, 0x2710⟩
/-- R52 [t c]: Safe drive level -/
def CH_VSAFE : Lay := ⟨0x20100020, 4, 0x1000000, 32, 0x4000, 0, 16, .rw, 0x4E20⟩
/-- R52 [t c]: VLV_CH_LOAD: sink current, code × 6 µA -/
def CH_LOAD_ISNK : Lay := ⟨0x20100030, 4, 0x1000000, 32, 0x4000, 0, 12, .rw, 0x0⟩
/-- R52 [t c]: Source current, code × 6 µA -/
def CH_LOAD_ISRC : Lay := ⟨0x20100030, 4, 0x1000000, 32, 0x4000, 16, 12, .rw, 0x0⟩
/-- R52 [t c]: VLV_CH_PROT: overcurrent threshold, code × 4 mA -/
def CH_PROT_OCTH : Lay := ⟨0x20100034, 4, 0x1000000, 32, 0x4000, 0, 5, .rw, 0xF⟩
/-- R52 [t c]: Clamp-overload threshold, code × 4 mA -/
def CH_PROT_CLTH : Lay := ⟨0x20100034, 4, 0x1000000, 32, 0x4000, 8, 5, .rw, 0xF⟩
/-- R52 [t c]: Deglitch filter F = (code + 1) × 10 ns -/
def CH_PROT_FILT : Lay := ⟨0x20100034, 4, 0x1000000, 32, 0x4000, 16, 8, .rw, 0x3⟩
/-- R52 [t c]: 0: HIZ; 1: drive VSAFE; 2: drive VTT; 3: treated as 0 -/
def CH_PROT_SAFE_MODE : Lay := ⟨0x20100034, 4, 0x1000000, 32, 0x4000, 24, 2, .rw, 0x0⟩
/-- R52 [t c]: VLV_CH_PMU: 0: FVMI; 1: FIMV; 2: MV; 3: treated as 2 -/
def CH_PMU_MODE : Lay := ⟨0x20100038, 4, 0x1000000, 32, 0x4000, 0, 2, .rw, 0x2⟩
/-- R52 [t c]: 0: ±2 µA; 1: ±20 µA; 2: ±200 µA; 3: ±2 mA; 4: ±32 mA; 5–7: treated as 4 -/
def CH_PMU_RANGE : Lay := ⟨0x20100038, 4, 0x1000000, 32, 0x4000, 4, 3, .rw, 0x4⟩
/-- R52 [t c]: Force value: a level code in FVMI; a signed current code in FIMV -/
def CH_PMU_FORCE : Lay := ⟨0x2010003C, 4, 0x1000000, 32, 0x4000, 0, 16, .rw, 0x4E20⟩
/-- R52 [t c]: Channel self-capacitance at the pin in units of 0.01 pF -/
def CH_CSELF : Lay := ⟨0x20100044, 4, 0x1000000, 32, 0x4000, 0, 16, .ro, 0x0⟩
/-- R87 [t]: MX_BUSY clear after a commit, until the next commit -/
def MX_DONE : Lay := ⟨0x100000100000, 4, 0x4, 1, 0x0, 0, 1, .hid, 0x0⟩
/-- R65: the device drives SAFE_N low -/
def SAFE_N_DRV : Lay := ⟨0x100000200000, 1, 0x0, 1, 0x0, 0, 1, .hid, 0x0⟩
/-- R70: a release waits its 200 ns -/
def REL_WAIT : Lay := ⟨0x100000300000, 1, 0x0, 1, 0x0, 0, 1, .hid, 0x0⟩
/-- R63 [ch]: raw overcurrent detector input -/
def OC_IN : Lay := ⟨0x100000400000, 128, 0x4, 1, 0x0, 0, 1, .hid, 0x0⟩
/-- R63 [ch]: raw clamp-overload detector input -/
def CL_IN : Lay := ⟨0x100000500000, 128, 0x4, 1, 0x0, 0, 1, .hid, 0x0⟩
/-- R69: outputs not yet released by the OUTPUTS start-up phase -/
def OUT_HELD : Lay := ⟨0x100000600000, 1, 0x0, 1, 0x0, 0, 1, .hid, 0x1⟩
/-- R69: channels forced safe by TREF loss -/
def TREF_SAFE : Lay := ⟨0x100000700000, 1, 0x0, 1, 0x0, 0, 1, .hid, 0x0⟩
/-- R57 [ch]: driver state the waveform selects: 0 OFF, 1 TERM, 2 LOW, 3 HIGH -/
def SEL : Lay := ⟨0x100000800000, 128, 0x4, 1, 0x0, 0, 2, .hid, 0x0⟩
/-- R71 [ch]: after a release: 1 until the next vector boundary, 2 until its first edge -/
def AWAIT : Lay := ⟨0x100000900000, 128, 0x4, 1, 0x0, 0, 2, .hid, 0x0⟩
/-- R63 [c]: magnitude of the current that the detector sees, in µA -/
def OC_UA : Lay := ⟨0x10000A700000, 128, 0x4, 1, 0x0, 0, 32, .hid, 0x0⟩
/-- R63 [c]: magnitude of the current that the detector sees, in µA -/
def CL_UA : Lay := ⟨0x10000A800000, 128, 0x4, 1, 0x0, 0, 32, .hid, 0x0⟩
/-- Every field of the block, in the order of the spec. -/
def layout0 : List Lay :=
  [TRIP, LOCAL, EXT_IN, REL_BLOCKED, CAP_FULL, PROT_REL, PROT_FORCE, CAP_REL, MX_BUSY, MX_ERR, MX_PEND, MX_COMMIT, MX_ERR_REL, LVL_COMMIT, DRV_EN, LOAD_EN, CLAMP_EN, KELVIN, PMU_EN, LVL_STAGED, EXT_TH, PROT_EN, OC, CLAMP_OVL, PMU_COMPL, PMU_SETTLED, LVL_RANGE, DRV_SWING, SAFE, TRIP_CAP_CH]
def layout1 : List Lay :=
  [TRIP_CAP_CAUSE, MX_ERR_CAP_NODE, MX_ERR_CAP_TERM, MX_IADDR_INC, MX_IADDR_ADDR, CAC_MODE, CAC_GAIN, CAC_TAU, CAC_INT_RST, CAC_HYST, CAC_EV_EN, SCF_TYPE, SCF_FC, ADAC_CODE, ADAC_EN, SNS_EN, SNS_DIV, CH_VIH, CH_VIL, CH_VTT, CH_VOH, CH_VOL, CH_VCOM, CH_VCH, CH_VCL, CH_VSAFE, CH_LOAD_ISNK, CH_LOAD_ISRC, CH_PROT_OCTH, CH_PROT_CLTH]
def layout2 : List Lay :=
  [CH_PROT_FILT, CH_PROT_SAFE_MODE, CH_PMU_MODE, CH_PMU_RANGE, CH_PMU_FORCE, CH_CSELF, MX_DONE, SAFE_N_DRV, REL_WAIT, OC_IN, CL_IN, OUT_HELD, TREF_SAFE, SEL, AWAIT, OC_UA, CL_UA]
/-- Every field of the block. -/
def layout : List Lay := layout0 ++ layout1 ++ layout2
end VLV

namespace TIM
/-- R93: The start-up calibration of every tile is complete -/
def CAL_DONE : Lay := ⟨0x24000000, 1, 0x0, 1, 0x0, 0, 1, .ro, 0x0⟩
/-- R93: Staged TIM_SQ writes are held, or are committed and not yet applied by every sequencer (R1 -/
def SQ_PEND : Lay := ⟨0x24000000, 1, 0x0, 1, 0x0, 1, 1, .ro, 0x0⟩
/-- R93: TIM_SQ writes are staged until SQ_COMMIT -/
def SQ_STAGE : Lay := ⟨0x24000000, 1, 0x0, 1, 0x0, 8, 1, .rw, 0x0⟩
/-- R93: Apply the staged TIM_SQ writes -/
def SQ_COMMIT : Lay := ⟨0x24000000, 1, 0x0, 1, 0x0, 9, 1, .wt, 0x0⟩
/-- R93 [n]: A TDR run is in progress on tile n -/
def TDR_BUSY : Lay := ⟨0x24000010, 4, 0x4, 1, 0x0, 0, 1, .ro, 0x0⟩
/-- R93 [n]: TIM_ERR_CAPn holds an error -/
def ERR_FULL : Lay := ⟨0x24000010, 4, 0x4, 1, 0x0, 1, 1, .ro, 0x0⟩
/-- R93 [n]: At least one channel of the tile is due for recalibration -/
def TRK_DUE : Lay := ⟨0x24000010, 4, 0x4, 1, 0x0, 2, 1, .ro, 0x0⟩
/-- R93 [n]: At least one channel is 4 °C or more from its last calibration -/
def TRK_LATE : Lay := ⟨0x24000010, 4, 0x4, 1, 0x0, 3, 1, .ro, 0x0⟩
/-- R93 [n]: Staged TIM_Tn writes are held, or are committed and not yet applied by every channel of th -/
def T_PEND : Lay := ⟨0x24000010, 4, 0x4, 1, 0x0, 4, 1, .ro, 0x0⟩
/-- R93 [n]: Start a TDR run on the channels in TIM_TDRn_MASK -/
def TDR_START : Lay := ⟨0x24000010, 4, 0x4, 1, 0x0, 8, 1, .wt, 0x0⟩
/-- R93 [n]: End the run; unfinished channels report VALID = 0 -/
def TDR_ABORT : Lay := ⟨0x24000010, 4, 0x4, 1, 0x0, 9, 1, .wt, 0x0⟩
/-- R93 [n]: Empty TIM_ERR_CAPn -/
def ERR_REL : Lay := ⟨0x24000010, 4, 0x4, 1, 0x0, 10, 1, .wt, 0x0⟩
/-- R93 [n]: Apply the staged TIM_Tn writes -/
def T_COMMIT : Lay := ⟨0x24000010, 4, 0x4, 1, 0x0, 11, 1, .wt, 0x0⟩
/-- R93 [n]: TIM_Tn writes are staged until T_COMMIT -/
def T_STAGE : Lay := ⟨0x24000010, 4, 0x4, 1, 0x0, 12, 1, .rw, 0x0⟩
/-- R93 [n]: Temperature tracking is enabled on the tile -/
def TRK_EN : Lay := ⟨0x24000010, 4, 0x4, 1, 0x0, 13, 1, .rw, 0x1⟩
/-- R94: TIM_PLANE: plane offset, code × 0.5 ps; codes above 20,000 are treated as 20,000 (10 ns) -/
def PLANE : Lay := ⟨0x24001000, 1, 0x0, 1, 0x0, 0, 15, .rw, 0x2710⟩
/-- R94: TIM_LAT: latency L, code × 0.25 ps -/
def LAT : Lay := ⟨0x24001004, 1, 0x0, 1, 0x0, 0, 21, .ro, 0x0⟩
/-- R94: R39: each IDATA access adds one to ADDR -/
def SQ_IADDR_INC : Lay := ⟨0x24001010, 1, 0x0, 1, 0x0, 31, 1, .rw, 0x1⟩
/-- R94: R39: word index into the table -/
def SQ_IADDR_ADDR : Lay := ⟨0x24001010, 1, 0x0, 1, 0x0, 0, 28, .rw, 0x0⟩
/-- R94 [n]: R39: each IDATA access adds one to ADDR -/
def T_IADDR_INC : Lay := ⟨0x24001100, 4, 0x20, 1, 0x0, 31, 1, .rw, 0x1⟩
/-- R94 [n]: R39: word index into the table -/
def T_IADDR_ADDR : Lay := ⟨0x24001100, 4, 0x20, 1, 0x0, 0, 28, .rw, 0x0⟩
/-- R94 [n]: Bit c set: local channel c takes part in the next TDR run -/
def TDR_MASK : Lay := ⟨0x24001108, 4, 0x20, 1, 0x0, 0, 32, .rw, 0x0⟩
/-- R94 [n]: TIM_TDRn_CFG: auxiliary DAC used for the threshold -/
def TDR_CFG_ADAC : Lay := ⟨0x2400110C, 4, 0x20, 1, 0x0, 0, 3, .rw, 0x0⟩
/-- R94 [n]: 2^AVG launches per search point; codes below 4 are treated as 4, codes above 12 as 12 -/
def TDR_CFG_AVG : Lay := ⟨0x2400110C, 4, 0x20, 1, 0x0, 8, 4, .rw, 0x8⟩
/-- R94 [n]: 1: write TD from each valid result at the end of the run -/
def TDR_CFG_LOAD : Lay := ⟨0x2400110C, 4, 0x20, 1, 0x0, 16, 1, .rw, 0x1⟩
/-- R94 [n]: TIM_ERR_CAPn: device channel number of the first error -/
def ERR_CAP_CH : Lay := ⟨0x24001110, 4, 0x20, 1, 0x0, 0, 8, .ro, 0x0⟩
/-- R94 [n]: 0: edge or strobe at or beyond P; 1: minimum pulse; 2: TD greater than PLANE; 3: TDR start -/
def ERR_CAP_KIND : Lay := ⟨0x24001110, 4, 0x20, 1, 0x0, 8, 3, .ro, 0x0⟩
/-- R105 [q]: the plane offset in force for the channels of a running sequencer -/
def PLANE_Q : Lay := ⟨0x100000D00000, 16, 0x4, 1, 0x0, 0, 15, .hid, 0x2710⟩
/-- R114 [t]: channels of the TDR run that have not finished -/
def TDR_UNF : Lay := ⟨0x100000E00000, 4, 0x4, 1, 0x0, 0, 32, .hid, 0x0⟩
/-- R114 [t]: unfinished channels whose present search has ended -/
def TDR_GOT : Lay := ⟨0x100000F00000, 4, 0x4, 1, 0x0, 0, 32, .hid, 0x0⟩
/-- R115 [t]: channels that finished with a result -/
def TDR_OK : Lay := ⟨0x100001000000, 4, 0x4, 1, 0x0, 0, 32, .hid, 0x0⟩
/-- R114 [t]: the search in progress: 1 launch, 2 rising, 3 falling -/
def TDR_PHASE : Lay := ⟨0x100001100000, 4, 0x4, 1, 0x0, 0, 2, .hid, 0x0⟩
/-- R114 [t]: the threshold the engine has set on its auxiliary DAC -/
def TDR_DAC : Lay := ⟨0x100001200000, 4, 0x4, 1, 0x0, 0, 16, .hid, 0x0⟩
/-- R114 [ch]: the launch crossing found, code -/
def TDR_T0 : Lay := ⟨0x100001300000, 128, 0x4, 1, 0x0, 0, 16, .hid, 0x0⟩
/-- R117 [ch]: tile temperature at the last calibration of the channel -/
def CAL_TEMP : Lay := ⟨0x100001400000, 128, 0x4, 1, 0x0, 0, 12, .hid, 0x0⟩
/-- R117 [ch]: a recalibration step of the channel is in progress -/
def RECAL : Lay := ⟨0x100001500000, 128, 0x4, 1, 0x0, 0, 1, .hid, 0x0⟩
/-- R100 [ch]: time from the last driver change to the start of the next vector, in 0.25 ps, plus 0x20000 -/
def LAST_CHG : Lay := ⟨0x100001600000, 128, 0x4, 1, 0x0, 0, 31, .hid, 0x60000000⟩
/-- R114 [t]: the channels that were masked when the TDR run began -/
def TDR_RUN : Lay := ⟨0x10000A900000, 4, 0x4, 1, 0x0, 0, 32, .hid, 0x0⟩
/-- R114, R116 [t]: the channels that the TDR engine still holds -/
def TDR_ACT : Lay := ⟨0x10000AA00000, 4, 0x4, 1, 0x0, 0, 32, .hid, 0x0⟩
/-- R114 [t]: launches made at the present search point -/
def TDR_CNT : Lay := ⟨0x10000AB00000, 4, 0x4, 1, 0x0, 0, 12, .hid, 0x0⟩
/-- R94 [t]: ADAC as the TDR run began -/
def TDR_K : Lay := ⟨0x10000AC00000, 4, 0x4, 1, 0x0, 0, 3, .hid, 0x0⟩
/-- R115 [t]: CODE and, in bit 16, EN of VLV_ADAC_CFGk before the TDR run -/
def TDR_SAVE : Lay := ⟨0x10000AD00000, 4, 0x4, 1, 0x0, 0, 17, .hid, 0x0⟩
/-- Every field of the block, in the order of the spec. -/
def layout0 : List Lay :=
  [CAL_DONE, SQ_PEND, SQ_STAGE, SQ_COMMIT, TDR_BUSY, ERR_FULL, TRK_DUE, TRK_LATE, T_PEND, TDR_START, TDR_ABORT, ERR_REL, T_COMMIT, T_STAGE, TRK_EN, PLANE, LAT, SQ_IADDR_INC, SQ_IADDR_ADDR, T_IADDR_INC, T_IADDR_ADDR, TDR_MASK, TDR_CFG_ADAC, TDR_CFG_AVG, TDR_CFG_LOAD, ERR_CAP_CH, ERR_CAP_KIND, PLANE_Q, TDR_UNF, TDR_GOT]
def layout1 : List Lay :=
  [TDR_OK, TDR_PHASE, TDR_DAC, TDR_T0, CAL_TEMP, RECAL, LAST_CHG, TDR_RUN, TDR_ACT, TDR_CNT, TDR_K, TDR_SAVE]
/-- Every field of the block. -/
def layout : List Lay := layout0 ++ layout1
end TIM

namespace TWL
/-- R124 [n]: STATE is not IDLE -/
def BUSY : Lay := ⟨0x28000000, 16, 0x100, 1, 0x0, 0, 1, .ro, 0x0⟩
/-- R124 [n]: TWL_MAP_CAP holds a refused commit -/
def MAP_ERR : Lay := ⟨0x28000000, 16, 0x100, 1, 0x0, 1, 1, .ro, 0x0⟩
/-- R124 [n]: The sequencer waits at a SYNC barrier -/
def SYNC_WAIT : Lay := ⟨0x28000000, 16, 0x100, 1, 0x0, 2, 1, .ro, 0x0⟩
/-- R124 [n]: Columns are handed over to Gingham -/
def APG_WAIT : Lay := ⟨0x28000000, 16, 0x100, 1, 0x0, 3, 1, .ro, 0x0⟩
/-- R124 [n]: The run issues no more vectors and its results are pending -/
def DRAIN : Lay := ⟨0x28000000, 16, 0x100, 1, 0x0, 4, 1, .ro, 0x0⟩
/-- R124 [n]: Stop the run, as laid down under "Ending a run" -/
def STOP : Lay := ⟨0x28000000, 16, 0x100, 1, 0x0, 8, 1, .wt, 0x0⟩
/-- R124 [n]: Check and apply the held map (R122) -/
def MAP_COMMIT : Lay := ⟨0x28000000, 16, 0x100, 1, 0x0, 9, 1, .wt, 0x0⟩
/-- R124 [n]: Empty TWL_MAP_CAP -/
def MAP_ERR_REL : Lay := ⟨0x28000000, 16, 0x100, 1, 0x0, 10, 1, .wt, 0x0⟩
/-- R124 [n]: Software flag tested by BRC -/
def SWF : Lay := ⟨0x28000000, 16, 0x100, 1, 0x0, 11, 1, .rw, 0x0⟩
/-- R124 [n]: Bit g: the fail flag of group g is set -/
def FAIL : Lay := ⟨0x28000004, 16, 0x100, 1, 0x0, 0, 8, .ro, 0x0⟩
/-- R124 [n]: Bit 8 + g: group g is detached -/
def DET : Lay := ⟨0x28000004, 16, 0x100, 1, 0x0, 8, 8, .ro, 0x0⟩
/-- R124 [n]: Bit 16 + g: the MTO flag of group g is set -/
def MTO : Lay := ⟨0x28000004, 16, 0x100, 1, 0x0, 16, 8, .ro, 0x0⟩
/-- R125 [n]: TWL_CTRL: halt-on-fail mode at the start of a run: 0 off; 1 halt the run; 2 detach the gro -/
def CTRL_HOF : Lay := ⟨0x28020000, 16, 0x100000, 1, 0x0, 0, 2, .rw, 0x0⟩
/-- R125 [n]: TWL_STATE: run state, as in the table under "Run states" -/
def STATE_STATE : Lay := ⟨0x28020004, 16, 0x100000, 1, 0x0, 0, 4, .ro, 0x0⟩
/-- R125 [n]: Call stack depth, 0–16 -/
def STATE_SP : Lay := ⟨0x28020004, 16, 0x100000, 1, 0x0, 4, 5, .ro, 0x0⟩
/-- R125 [n]: Time-set in force -/
def STATE_TSET : Lay := ⟨0x28020004, 16, 0x100000, 1, 0x0, 16, 6, .ro, 0x0⟩
/-- R125 [n]: Address of the line that issues the current vector -/
def LINE : Lay := ⟨0x28020008, 16, 0x100000, 1, 0x0, 0, 32, .ro, 0x0⟩
/-- R125 [n]: Vectors issued in the current or last run, bits 31:0 -/
def VCNT_LO : Lay := ⟨0x2802000C, 16, 0x100000, 1, 0x0, 0, 32, .ro, 0x0⟩
/-- R125 [n]: Bits 47:32; bits 31:16 are RSV -/
def VCNT_HI : Lay := ⟨0x28020010, 16, 0x100000, 1, 0x0, 0, 16, .ro, 0x0⟩
/-- R125 [n]: Decision delay D in ns; bits 31:10 are RSV -/
def MLAT : Lay := ⟨0x28020014, 16, 0x100000, 1, 0x0, 0, 10, .ro, 0x0⟩
/-- R125 [n]: Object ID of the current or last run -/
def OBJ : Lay := ⟨0x28020018, 16, 0x100000, 1, 0x0, 0, 32, .ro, 0x0⟩
/-- R125 [n k]: Loop counter k = 0–7 -/
def LC : Lay := ⟨0x28020020, 16, 0x100000, 8, 0x4, 0, 32, .ro, 0x0⟩
/-- R125 [n g]: TWL_GRPg, g = 0–7: site number of group g; held until MAP_COMMIT -/
def GRP_SITE : Lay := ⟨0x28020040, 16, 0x100000, 8, 0x4, 0, 6, .rw, 0x0⟩
/-- R125 [n g]: Group g is enabled; held until MAP_COMMIT -/
def GRP_EN : Lay := ⟨0x28020040, 16, 0x100000, 8, 0x4, 8, 1, .rw, 0x0⟩
/-- R125 [n]: TWL_APGSEL: APG Gn used by this sequencer; held until MAP_COMMIT -/
def APGSEL_APG : Lay := ⟨0x28020060, 16, 0x100000, 1, 0x0, 0, 2, .rw, 0x0⟩
/-- R125 [n]: The sequencer uses an APG -/
def APGSEL_EN : Lay := ⟨0x28020060, 16, 0x100000, 1, 0x0, 8, 1, .rw, 0x0⟩
/-- R125 [n]: TWL_MAP_CAP: channel, for KIND 0 and 1 -/
def MAP_CAP_CH : Lay := ⟨0x28020064, 16, 0x100000, 1, 0x0, 0, 7, .ro, 0x0⟩
/-- R125 [n]: Refusal, as in R122 -/
def MAP_CAP_KIND : Lay := ⟨0x28020064, 16, 0x100000, 1, 0x0, 8, 3, .ro, 0x0⟩
/-- R125 [n]: Other sequencer, for KIND 0 and 4 -/
def MAP_CAP_SEQ : Lay := ⟨0x28020064, 16, 0x100000, 1, 0x0, 12, 4, .ro, 0x0⟩
/-- R125 [n]: R39: each IDATA access adds one to ADDR -/
def CMAP_IADDR_INC : Lay := ⟨0x28020070, 16, 0x100000, 1, 0x0, 31, 1, .rw, 0x1⟩
/-- R125 [n]: R39: word index into the table -/
def CMAP_IADDR_ADDR : Lay := ⟨0x28020070, 16, 0x100000, 1, 0x0, 0, 28, .rw, 0x0⟩
/-- R120 [ch]: the sequencer that owns the channel, plus one; 0: none -/
def OWNER : Lay := ⟨0x100000A00000, 128, 0x4, 1, 0x0, 0, 5, .hid, 0x0⟩
/-- R120 [ch]: the group in which it owns it -/
def OWN_GRP : Lay := ⟨0x100000B00000, 128, 0x4, 1, 0x0, 0, 3, .hid, 0x0⟩
/-- R120 [ch]: the column that feeds it -/
def OWN_COL : Lay := ⟨0x100000C00000, 128, 0x4, 1, 0x0, 0, 7, .hid, 0x0⟩
/-- R122 [q g]: site of a group in force -/
def GF_SITE : Lay := ⟨0x100001700000, 16, 0x20, 8, 0x4, 0, 6, .hid, 0x0⟩
/-- R122 [q g]: enable of a group in force -/
def GF_EN : Lay := ⟨0x100001800000, 16, 0x20, 8, 0x4, 0, 1, .hid, 0x0⟩
/-- R122 [q]: APG in force -/
def AF_APG : Lay := ⟨0x100001900000, 16, 0x4, 1, 0x0, 0, 2, .hid, 0x0⟩
/-- R122 [q]: enable of the APG in force -/
def AF_EN : Lay := ⟨0x100001A00000, 16, 0x4, 1, 0x0, 0, 1, .hid, 0x0⟩
/-- R123 [q]: map width of the map in force -/
def MAPW : Lay := ⟨0x100001B00000, 16, 0x4, 1, 0x0, 0, 8, .hid, 0x0⟩
/-- Every field of the block, in the order of the spec. -/
def layout0 : List Lay :=
  [BUSY, MAP_ERR, SYNC_WAIT, APG_WAIT, DRAIN, STOP, MAP_COMMIT, MAP_ERR_REL, SWF, FAIL, DET, MTO, CTRL_HOF, STATE_STATE, STATE_SP, STATE_TSET, LINE, VCNT_LO, VCNT_HI, MLAT, OBJ, LC, GRP_SITE, GRP_EN, APGSEL_APG, APGSEL_EN, MAP_CAP_CH, MAP_CAP_KIND, MAP_CAP_SEQ, CMAP_IADDR_INC]
def layout1 : List Lay :=
  [CMAP_IADDR_ADDR, OWNER, OWN_GRP, OWN_COL, GF_SITE, GF_EN, AF_APG, AF_EN, MAPW]
/-- Every field of the block. -/
def layout : List Lay := layout0 ++ layout1
end TWL

namespace GNG
/-- R156 [n]: The APG is executing a hand-over -/
def RUN : Lay := ⟨0x29000000, 4, 0x4, 1, 0x0, 0, 1, .ro, 0x0⟩
/-- R156 [n]: GNG_ERR_CAPn holds an error -/
def ERR_FULL : Lay := ⟨0x29000000, 4, 0x4, 1, 0x0, 1, 1, .ro, 0x0⟩
/-- R156 [n]: Refresh debt is 1 or more -/
def REF_DUE : Lay := ⟨0x29000000, 4, 0x4, 1, 0x0, 2, 1, .ro, 0x0⟩
/-- R156 [n]: Refresh debt is 8 or more -/
def REF_LATE : Lay := ⟨0x29000000, 4, 0x4, 1, 0x0, 3, 1, .ro, 0x0⟩
/-- R156 [n]: TMR is not zero -/
def TMR_RUN : Lay := ⟨0x29000000, 4, 0x4, 1, 0x0, 4, 1, .ro, 0x0⟩
/-- R156 [n]: Empty GNG_ERR_CAPn -/
def ERR_REL : Lay := ⟨0x29000000, 4, 0x4, 1, 0x0, 8, 1, .wt, 0x0⟩
/-- R156 [n]: The refresh counter runs -/
def REF_EN : Lay := ⟨0x29000000, 4, 0x4, 1, 0x0, 9, 1, .rw, 0x0⟩
/-- R157 [n]: GNG_CTRL: 0: X is the fastest unit, then Y, then Z; 1: Y, then X, then Z -/
def CTRL_CHAIN : Lay := ⟨0x29001000, 4, 0x40, 1, 0x0, 0, 1, .rw, 0x0⟩
/-- R157 [n]: Scramble RAM SX in use -/
def CTRL_SXEN : Lay := ⟨0x29001000, 4, 0x40, 1, 0x0, 4, 1, .rw, 0x0⟩
/-- R157 [n]: Scramble RAM SY in use -/
def CTRL_SYEN : Lay := ⟨0x29001000, 4, 0x40, 1, 0x0, 5, 1, .rw, 0x0⟩
/-- R157 [n]: Direction of SX (R165) -/
def CTRL_XDIR : Lay := ⟨0x29001000, 4, 0x40, 1, 0x0, 8, 1, .rw, 0x0⟩
/-- R157 [n]: Direction of SY -/
def CTRL_YDIR : Lay := ⟨0x29001000, 4, 0x40, 1, 0x0, 9, 1, .rw, 0x0⟩
/-- R157 [n]: Background index selectors (R166) -/
def BGSEL : Lay := ⟨0x29001004, 4, 0x40, 1, 0x0, 0, 32, .rw, 0x0⟩
/-- R157 [n]: Refresh interval in ns; codes below 100 are treated as 100 -/
def REF_INT : Lay := ⟨0x29001008, 4, 0x40, 1, 0x0, 0, 32, .rw, 0xF3C⟩
/-- R157 [n]: GNG_STATE: instruction being issued, or last issued -/
def STATE_PC : Lay := ⟨0x2900100C, 4, 0x40, 1, 0x0, 0, 12, .ro, 0x0⟩
/-- R157 [n]: Call stack depth, 0–8 -/
def STATE_SP : Lay := ⟨0x2900100C, 4, 0x40, 1, 0x0, 12, 4, .ro, 0x0⟩
/-- R157 [n]: Refresh debt, 0–15 -/
def STATE_DEBT : Lay := ⟨0x2900100C, 4, 0x40, 1, 0x0, 16, 4, .ro, 0x0⟩
/-- R157 [n]: GNG_ERR_CAPn: cause, as in R177 -/
def ERR_CAP_CAUSE : Lay := ⟨0x29001010, 4, 0x40, 1, 0x0, 0, 4, .ro, 0x0⟩
/-- R157 [n]: Instruction concerned -/
def ERR_CAP_PC : Lay := ⟨0x29001010, 4, 0x40, 1, 0x0, 16, 12, .ro, 0x0⟩
/-- R157 [n]: Current X; bits 31:24 RSV -/
def XCUR : Lay := ⟨0x29001014, 4, 0x40, 1, 0x0, 0, 24, .ro, 0x0⟩
/-- R157 [n]: Current Y; bits 31:24 RSV -/
def YCUR : Lay := ⟨0x29001018, 4, 0x40, 1, 0x0, 0, 24, .ro, 0x0⟩
/-- R157 [n]: Current Z; bits 31:8 RSV -/
def ZCUR : Lay := ⟨0x2900101C, 4, 0x40, 1, 0x0, 0, 8, .ro, 0x0⟩
/-- R157 [n]: Timer, in ns -/
def TMR : Lay := ⟨0x29001020, 4, 0x40, 1, 0x0, 0, 32, .ro, 0x0⟩
/-- R157 [n]: Refresh intervals lost at saturation in this run; saturating -/
def REFLOST : Lay := ⟨0x29001024, 4, 0x40, 1, 0x0, 0, 32, .ro, 0x0⟩
/-- R157 [n]: R39: each IDATA access adds one to ADDR -/
def IADDR_INC : Lay := ⟨0x29001030, 4, 0x40, 1, 0x0, 31, 1, .rw, 0x1⟩
/-- R157 [n]: R39: word index into the table -/
def IADDR_ADDR : Lay := ⟨0x29001030, 4, 0x40, 1, 0x0, 0, 28, .rw, 0x0⟩
/-- R159 [g u]: INIT of a unit -/
def U_INIT : Lay := ⟨0x100001C00000, 4, 0xC, 3, 0x4, 0, 24, .hid, 0x0⟩
/-- R159 [g u]: MIN of a unit -/
def U_MIN : Lay := ⟨0x100001D00000, 4, 0xC, 3, 0x4, 0, 24, .hid, 0x0⟩
/-- R159 [g u]: MAX of a unit; the Z unit uses its low 8 bits -/
def U_MAX : Lay := ⟨0x100001E00000, 4, 0xC, 3, 0x4, 0, 24, .hid, 0xFFFFFF⟩
/-- R159 [g u]: B of a unit -/
def U_B : Lay := ⟨0x100001F00000, 4, 0xC, 3, 0x4, 0, 24, .hid, 0x0⟩
/-- R159 [g us]: step registers S0 to S3 of a unit -/
def U_S : Lay := ⟨0x100002000000, 4, 0x30, 12, 0x4, 0, 24, .hid, 0x1⟩
/-- R158 [g k]: loop counters C0 to C7 -/
def LC : Lay := ⟨0x100002100000, 4, 0x20, 8, 0x4, 0, 32, .hid, 0x0⟩
/-- R158 [g]: data register DR -/
def DR : Lay := ⟨0x100002200000, 4, 0x4, 1, 0x0, 0, 144, .hid, 0x0⟩
/-- R161 [g k]: call stack -/
def STK : Lay := ⟨0x100002300000, 4, 0x20, 8, 0x4, 0, 16, .hid, 0x0⟩
/-- R161 [g]: instruction that executes next; above 4,095 an error of CAUSE 6 -/
def NPC : Lay := ⟨0x100002400000, 4, 0x4, 1, 0x0, 0, 17, .hid, 0x0⟩
/-- R161 [g]: executions of an RPT that remain, 0 outside one -/
def RPT_LEFT : Lay := ⟨0x100002500000, 4, 0x4, 1, 0x0, 0, 32, .hid, 0x0⟩
/-- R168 [g]: the refresh counter counts -/
def REF_RUN : Lay := ⟨0x100002600000, 4, 0x4, 1, 0x0, 0, 1, .hid, 0x0⟩
/-- R168 [g]: length of the refresh interval in progress -/
def REF_CUR : Lay := ⟨0x100002700000, 4, 0x4, 1, 0x0, 0, 32, .hid, 0x0⟩
/-- R161 [g]: the FOP of the instruction that RPT_LEFT belongs to -/
def RPT_FOP : Lay := ⟨0x10000AE00000, 4, 0x4, 1, 0x0, 0, 4, .hid, 0x0⟩
/-- Every field of the block, in the order of the spec. -/
def layout0 : List Lay :=
  [RUN, ERR_FULL, REF_DUE, REF_LATE, TMR_RUN, ERR_REL, REF_EN, CTRL_CHAIN, CTRL_SXEN, CTRL_SYEN, CTRL_XDIR, CTRL_YDIR, BGSEL, REF_INT, STATE_PC, STATE_SP, STATE_DEBT, ERR_CAP_CAUSE, ERR_CAP_PC, XCUR, YCUR, ZCUR, TMR, REFLOST, IADDR_INC, IADDR_ADDR, U_INIT, U_MIN, U_MAX, U_B]
def layout1 : List Lay :=
  [U_S, LC, DR, STK, NPC, RPT_LEFT, REF_RUN, REF_CUR, RPT_FOP]
/-- Every field of the block. -/
def layout : List Lay := layout0 ++ layout1
end GNG

namespace DMK
/-- R187 [h]: The site's result queue holds a result not yet read through the result port -/
def RES_WAIT : Lay := ⟨0x2A000000, 2, 0x4, 1, 0x0, 0, 32, .ro, 0x0⟩
/-- R187 [h]: The site's record ring holds unread records -/
def RING_NE : Lay := ⟨0x2A000008, 2, 0x4, 1, 0x0, 0, 32, .ro, 0x0⟩
/-- R187 [h]: A burst of the site is dropping records, and its result is not yet posted -/
def DROP : Lay := ⟨0x2A000010, 2, 0x4, 1, 0x0, 0, 32, .ro, 0x0⟩
/-- R187 [h]: The site's result queue is full -/
def RQ_FULL : Lay := ⟨0x2A000018, 2, 0x4, 1, 0x0, 0, 32, .ro, 0x0⟩
/-- R187: Bit k: repair unit k has a session open or searching -/
def BUSY : Lay := ⟨0x2A000020, 1, 0x0, 1, 0x0, 0, 4, .ro, 0x0⟩
/-- R187: Bit 4 + k: unit k's verdicts are valid -/
def DONE : Lay := ⟨0x2A000020, 1, 0x0, 1, 0x0, 4, 4, .ro, 0x0⟩
/-- R187: Bit 8 + k: unit k is searching -/
def SRCH : Lay := ⟨0x2A000020, 1, 0x0, 1, 0x0, 8, 4, .ro, 0x0⟩
/-- R187: Bit 12 + k: unit k refused fails in the current or last session -/
def QFULL : Lay := ⟨0x2A000020, 1, 0x0, 1, 0x0, 12, 4, .ro, 0x0⟩
/-- R187: Bit 16 + k: unit k's geometry is invalid -/
def CFG_ERR : Lay := ⟨0x2A000020, 1, 0x0, 1, 0x0, 16, 4, .ro, 0x0⟩
/-- R187: Bit k: repair unit k is enabled -/
def RA_EN : Lay := ⟨0x2A000024, 1, 0x0, 1, 0x0, 0, 4, .rw, 0x0⟩
/-- R187: Bit 8 + k: open a session on unit k -/
def OPEN : Lay := ⟨0x2A000024, 1, 0x0, 1, 0x0, 8, 4, .wt, 0x0⟩
/-- R187: Bit 12 + k: close unit k's session -/
def CLOSE : Lay := ⟨0x2A000024, 1, 0x0, 1, 0x0, 12, 4, .wt, 0x0⟩
/-- R187: Bit 16 + k: abandon unit k's session -/
def ABORT : Lay := ⟨0x2A000024, 1, 0x0, 1, 0x0, 16, 4, .wt, 0x0⟩
/-- R187 [h]: A bitmap clear of the site is in progress -/
def BMAP_BUSY : Lay := ⟨0x2A000028, 2, 0x4, 1, 0x0, 0, 32, .ro, 0x0⟩
/-- R187 [h]: BMAP_EN = 1 and DMK_BMAP_ID names no allocation that can serve as the site's bitmap (R200) -/
def BMAP_BAD : Lay := ⟨0x2A000030, 2, 0x4, 1, 0x0, 0, 32, .ro, 0x0⟩
/-- R187 [h]: The site's ring is three quarters full or more -/
def RING_HI : Lay := ⟨0x2A000038, 2, 0x4, 1, 0x0, 0, 32, .ro, 0x0⟩
/-- R187 [h]: RING_EN = 1 and DMK_RING_ID names no usable ring (R196) -/
def RING_BAD : Lay := ⟨0x2A000040, 2, 0x4, 1, 0x0, 0, 32, .ro, 0x0⟩
/-- R188 [s]: DMK_SITE_CFG: records are written to the ring -/
def SITE_CFG_RING_EN : Lay := ⟨0x2A001000, 64, 0x20, 1, 0x0, 0, 1, .rw, 0x0⟩
/-- R188 [s]: The bitmap is updated -/
def SITE_CFG_BMAP_EN : Lay := ⟨0x2A001000, 64, 0x20, 1, 0x0, 1, 1, .rw, 0x0⟩
/-- R188 [s]: Records carry 0: DX, DY; 1: PX, PY -/
def SITE_CFG_RSPACE : Lay := ⟨0x2A001000, 64, 0x20, 1, 0x0, 2, 1, .rw, 0x0⟩
/-- R188 [s]: The result port is a consumer of the result queue -/
def SITE_CFG_RES_PORT : Lay := ⟨0x2A001000, 64, 0x20, 1, 0x0, 3, 1, .rw, 0x1⟩
/-- R188 [s]: SLP is a consumer of the result queue -/
def SITE_CFG_RES_SLP : Lay := ⟨0x2A001000, 64, 0x20, 1, 0x0, 4, 1, .rw, 0x0⟩
/-- R188 [s]: Zero-fill the bitmap allocation -/
def SITE_CFG_BMAP_CLR : Lay := ⟨0x2A001000, 64, 0x20, 1, 0x0, 8, 1, .wt, 0x0⟩
/-- R188 [s]: Calico allocation ID of the record ring -/
def RING_ID : Lay := ⟨0x2A001004, 64, 0x20, 1, 0x0, 0, 32, .rw, 0x0⟩
/-- R188 [s]: Records written to the ring since device start; wraps -/
def RING_WR : Lay := ⟨0x2A001008, 64, 0x20, 1, 0x0, 0, 32, .ro, 0x0⟩
/-- R188 [s]: Records consumed from the ring; wraps -/
def RING_RD : Lay := ⟨0x2A00100C, 64, 0x20, 1, 0x0, 0, 32, .rw, 0x0⟩
/-- R188 [s]: Ring capacity in records, from the allocation -/
def RING_SIZE : Lay := ⟨0x2A001010, 64, 0x20, 1, 0x0, 0, 32, .ro, 0x0⟩
/-- R188 [s]: Calico allocation ID of the bitmap -/
def BMAP_ID : Lay := ⟨0x2A001014, 64, 0x20, 1, 0x0, 0, 32, .rw, 0x0⟩
/-- R188 [s]: DMK_BMAP_GEOM: X bits, 0–24 -/
def BMAP_GEOM_XW : Lay := ⟨0x2A001018, 64, 0x20, 1, 0x0, 0, 5, .rw, 0x0⟩
/-- R188 [s]: Y bits, 0–24 -/
def BMAP_GEOM_YW : Lay := ⟨0x2A001018, 64, 0x20, 1, 0x0, 8, 5, .rw, 0x0⟩
/-- R188 [s]: Z bits, 0–8 -/
def BMAP_GEOM_ZW : Lay := ⟨0x2A001018, 64, 0x20, 1, 0x0, 16, 4, .rw, 0x0⟩
/-- R188 [s]: Data-bit index bits, 0–8 -/
def BMAP_GEOM_DB : Lay := ⟨0x2A001018, 64, 0x20, 1, 0x0, 24, 4, .rw, 0x0⟩
/-- R188 [s]: 0: DX, DY; 1: PX, PY -/
def BMAP_GEOM_SPACE : Lay := ⟨0x2A001018, 64, 0x20, 1, 0x0, 28, 1, .rw, 0x0⟩
/-- R190 [p]: DMK_RPp_SEL, p = 0–3: site read by record port p; bits 31:6 RSV -/
def RP_SEL_SITE : Lay := ⟨0x2A002000, 4, 0x40, 1, 0x0, 0, 6, .rw, 0x0⟩
/-- R190 [p w]: Word w (0–7) of the head record of the selected ring -/
def RP_D : Lay := ⟨0x2A002020, 4, 0x40, 8, 0x4, 0, 32, .ro, 0xFFFFFFFF⟩
/-- R190: DMK_RSP_SEL: site read by the result port; bits 31:6 RSV -/
def RSP_SEL_SITE : Lay := ⟨0x2A002100, 1, 0x0, 1, 0x0, 0, 6, .rw, 0x0⟩
/-- R190 [w]: Word w (0–15) of the head result of the selected queue -/
def RSP_D : Lay := ⟨0x2A002140, 16, 0x4, 1, 0x0, 0, 32, .ro, 0xFFFFFFFF⟩
/-- R190: R39: each IDATA access adds one to ADDR -/
def CH_IADDR_INC : Lay := ⟨0x2A002200, 1, 0x0, 1, 0x0, 31, 1, .rw, 0x1⟩
/-- R190: R39: word index into the table -/
def CH_IADDR_ADDR : Lay := ⟨0x2A002200, 1, 0x0, 1, 0x0, 0, 28, .rw, 0x0⟩
/-- R204 [k]: DMK_RAk_BIND: bound sequencer -/
def RA_BIND_SEQ : Lay := ⟨0x2A003000, 4, 0x80, 1, 0x0, 0, 4, .rw, 0x0⟩
/-- R204 [k]: Bit 8 + g: group g is a DUT of the session -/
def RA_BIND_GMASK : Lay := ⟨0x2A003000, 4, 0x80, 1, 0x0, 8, 8, .rw, 0x0⟩
/-- R204 [k]: The session closes at the end of its first run -/
def RA_BIND_AUTOCLOSE : Lay := ⟨0x2A003000, 4, 0x80, 1, 0x0, 16, 1, .rw, 0x0⟩
/-- R204 [k]: DMK_RAk_GEOM0: row-in-block bits, 0–16 -/
def RA_GEOM0_RB : Lay := ⟨0x2A003004, 4, 0x80, 1, 0x0, 0, 5, .rw, 0x0⟩
/-- R204 [k]: Column-in-block bits, 0–16 -/
def RA_GEOM0_CB : Lay := ⟨0x2A003004, 4, 0x80, 1, 0x0, 8, 5, .rw, 0x0⟩
/-- R204 [k]: Block bits taken from X -/
def RA_GEOM0_XBB : Lay := ⟨0x2A003004, 4, 0x80, 1, 0x0, 16, 4, .rw, 0x0⟩
/-- R204 [k]: Block bits taken from the column word -/
def RA_GEOM0_CBB : Lay := ⟨0x2A003004, 4, 0x80, 1, 0x0, 20, 4, .rw, 0x0⟩
/-- R204 [k]: Block bits taken from Z -/
def RA_GEOM0_ZB : Lay := ⟨0x2A003004, 4, 0x80, 1, 0x0, 24, 4, .rw, 0x0⟩
/-- R204 [k]: 0: DX, DY; 1: PX, PY -/
def RA_GEOM0_SPACE : Lay := ⟨0x2A003004, 4, 0x80, 1, 0x0, 28, 1, .rw, 0x0⟩
/-- R204 [k]: Column word order (R205) -/
def RA_GEOM0_CORDER : Lay := ⟨0x2A003004, 4, 0x80, 1, 0x0, 29, 1, .rw, 0x0⟩
/-- R204 [k]: DMK_RAk_GEOM1: Y bits in the column word, 0–24 -/
def RA_GEOM1_YW : Lay := ⟨0x2A003008, 4, 0x80, 1, 0x0, 0, 5, .rw, 0x0⟩
/-- R204 [k]: Data-bit bits in the column word, 0–8 -/
def RA_GEOM1_DB : Lay := ⟨0x2A003008, 4, 0x80, 1, 0x0, 8, 4, .rw, 0x0⟩
/-- R204 [k]: DMK_RAk_SPARE: spare rows per block; values above 32 treated as 32 -/
def RA_SPARE_SROW : Lay := ⟨0x2A00300C, 4, 0x80, 1, 0x0, 0, 6, .rw, 0x0⟩
/-- R204 [k]: Spare columns per block; values above 32 treated as 32 -/
def RA_SPARE_SCOL : Lay := ⟨0x2A00300C, 4, 0x80, 1, 0x0, 8, 6, .rw, 0x0⟩
/-- R204 [k]: Search node limit per block; 0 treated as 1 -/
def RA_LIMIT : Lay := ⟨0x2A003010, 4, 0x80, 1, 0x0, 0, 32, .rw, 0x100000⟩
/-- R204 [k]: Allocation ID of the work area, at least 256 MiB -/
def RA_WORK_ID : Lay := ⟨0x2A003014, 4, 0x80, 1, 0x0, 0, 32, .rw, 0x0⟩
/-- R204 [k]: Allocation ID of the output area, at least 8 MiB -/
def RA_OUT_ID : Lay := ⟨0x2A003018, 4, 0x80, 1, 0x0, 0, 32, .rw, 0x0⟩
/-- R204 [k g]: DMK_RAk_SUMg: worst block verdict of DUT g -/
def RA_SUM_VERDICT : Lay := ⟨0x2A003020, 4, 0x80, 8, 0x4, 0, 3, .ro, 0x0⟩
/-- R204 [k g]: Blocks of DUT g with verdict 2, 3 or 4 -/
def RA_SUM_NBAD : Lay := ⟨0x2A003020, 4, 0x80, 8, 0x4, 16, 13, .ro, 0x0⟩
/-- R191 [ch]: compare mode of a channel -/
def CMODE : Lay := ⟨0x100002800000, 128, 0x4, 1, 0x0, 0, 2, .hid, 0x0⟩
/-- R191 [ch]: failing vectors of a channel -/
def FCNT : Lay := ⟨0x100002900000, 128, 0x4, 1, 0x0, 0, 32, .hid, 0x0⟩
/-- R191 [ch]: first failing cycle of a channel -/
def FFAIL : Lay := ⟨0x100002A00000, 128, 0x4, 1, 0x0, 0, 48, .hid, 0xFFFFFFFFFFFF⟩
/-- R191 [ch]: signature of a channel -/
def SIG : Lay := ⟨0x100002B00000, 128, 0x4, 1, 0x0, 0, 64, .hid, 0x0⟩
/-- R200 [s]: allocation that the pending or running bitmap clear fills -/
def CLR_ID : Lay := ⟨0x100002C00000, 64, 0x4, 1, 0x0, 0, 32, .hid, 0x0⟩
/-- R203: results posted so far -/
def POSTS : Lay := ⟨0x100007C00000, 1, 0x0, 1, 0x0, 0, 48, .hid, 0x0⟩
/-- R194: the site whose turn at the record writer is next -/
def REC_TURN : Lay := ⟨0x10000AF00000, 1, 0x4, 1, 0x0, 0, 6, .hid, 0x0⟩
/-- R200 [n]: lines that the bitmap clear of a site in progress has zeroed -/
def CLR_POS : Lay := ⟨0x10000B900000, 64, 0x4, 1, 0x0, 0, 30, .hid, 0x0⟩
/-- Every field of the block, in the order of the spec. -/
def layout0 : List Lay :=
  [RES_WAIT, RING_NE, DROP, RQ_FULL, BUSY, DONE, SRCH, QFULL, CFG_ERR, RA_EN, OPEN, CLOSE, ABORT, BMAP_BUSY, BMAP_BAD, RING_HI, RING_BAD, SITE_CFG_RING_EN, SITE_CFG_BMAP_EN, SITE_CFG_RSPACE, SITE_CFG_RES_PORT, SITE_CFG_RES_SLP, SITE_CFG_BMAP_CLR, RING_ID, RING_WR, RING_RD, RING_SIZE, BMAP_ID, BMAP_GEOM_XW, BMAP_GEOM_YW]
def layout1 : List Lay :=
  [BMAP_GEOM_ZW, BMAP_GEOM_DB, BMAP_GEOM_SPACE, RP_SEL_SITE, RP_D, RSP_SEL_SITE, RSP_D, CH_IADDR_INC, CH_IADDR_ADDR, RA_BIND_SEQ, RA_BIND_GMASK, RA_BIND_AUTOCLOSE, RA_GEOM0_RB, RA_GEOM0_CB, RA_GEOM0_XBB, RA_GEOM0_CBB, RA_GEOM0_ZB, RA_GEOM0_SPACE, RA_GEOM0_CORDER, RA_GEOM1_YW, RA_GEOM1_DB, RA_SPARE_SROW, RA_SPARE_SCOL, RA_LIMIT, RA_WORK_ID, RA_OUT_ID, RA_SUM_VERDICT, RA_SUM_NBAD, CMODE, FCNT]
def layout2 : List Lay :=
  [FFAIL, SIG, CLR_ID, POSTS, REC_TURN, CLR_POS]
/-- Every field of the block. -/
def layout : List Lay := layout0 ++ layout1 ++ layout2
end DMK

namespace CAL
/-- R219: The directory is valid. Commands and requests are served -/
def READY : Lay := ⟨0x2B000000, 1, 0x0, 1, 0x0, 0, 1, .ro, 0x0⟩
/-- R219: A command is being executed -/
def CMD_BUSY : Lay := ⟨0x2B000000, 1, 0x0, 1, 0x0, 1, 1, .ro, 0x0⟩
/-- R219: The re-upload list holds an entry -/
def PZ_NE : Lay := ⟨0x2B000000, 1, 0x0, 1, 0x0, 2, 1, .ro, 0x0⟩
/-- R219: The re-upload list overflowed since the last PZ_OVF_REL -/
def PZ_OVF : Lay := ⟨0x2B000000, 1, 0x0, 1, 0x0, 3, 1, .ro, 0x0⟩
/-- R219: A started burst has drawn on its lookahead by more than the routine allowance (R238) -/
def LOOK_LOW : Lay := ⟨0x2B000000, 1, 0x0, 1, 0x0, 4, 1, .ro, 0x0⟩
/-- R219: A background re-key is in progress -/
def REKEY : Lay := ⟨0x2B000000, 1, 0x0, 1, 0x0, 5, 1, .ro, 0x0⟩
/-- R219: A rank migration copy is in progress -/
def MIGR : Lay := ⟨0x2B000000, 1, 0x0, 1, 0x0, 6, 1, .ro, 0x0⟩
/-- R219: Execute the command in CAL_CMD -/
def CMD_GO : Lay := ⟨0x2B000000, 1, 0x0, 1, 0x0, 8, 1, .wt, 0x0⟩
/-- R219: Discard the head entry of the re-upload list -/
def PZ_NEXT : Lay := ⟨0x2B000000, 1, 0x0, 1, 0x0, 9, 1, .wt, 0x0⟩
/-- R219: Clear the PZ_OVF capture -/
def PZ_OVF_REL : Lay := ⟨0x2B000000, 1, 0x0, 1, 0x0, 10, 1, .wt, 0x0⟩
/-- R219: Bit p: post the request held in port p -/
def POST : Lay := ⟨0x2B000010, 1, 0x0, 1, 0x0, 0, 16, .wt, 0x0⟩
/-- R219: Bit p: withdraw port p's held request -/
def WDRAW : Lay := ⟨0x2B000014, 1, 0x0, 1, 0x0, 0, 16, .wt, 0x0⟩
/-- R219: Bit p: port p holds a request -/
def HELD : Lay := ⟨0x2B000018, 1, 0x0, 1, 0x0, 0, 16, .ro, 0x0⟩
/-- R219: Bit p: a write to port p was ignored because HELD was set -/
def COLL : Lay := ⟨0x2B00001C, 1, 0x0, 1, 0x0, 0, 16, .ro, 0x0⟩
/-- R219: Bit p: clear COLL bit p -/
def COLL_REL : Lay := ⟨0x2B000020, 1, 0x0, 1, 0x0, 0, 16, .wt, 0x0⟩
/-- R219: Bit s: sequencer TSs is holding for a missing line -/
def STARVE : Lay := ⟨0x2B000024, 1, 0x0, 1, 0x0, 0, 16, .ro, 0x0⟩
/-- R220: CAL_VBUDGET: vector share in units of 0.1 GB/s; bits 31:16 RSV -/
def VBUDGET : Lay := ⟨0x2B001000, 1, 0x0, 1, 0x0, 0, 16, .ro, 0x0⟩
/-- R220: CAL_VUSED: admitted claim in units of 0.1 GB/s; bits 31:16 RSV -/
def VUSED : Lay := ⟨0x2B001004, 1, 0x0, 1, 0x0, 0, 16, .ro, 0x0⟩
/-- R220: CAL_BUFUSED: buffer granules held by bursts; bits 31:11 RSV -/
def BUFUSED : Lay := ⟨0x2B001008, 1, 0x0, 1, 0x0, 0, 11, .ro, 0x0⟩
/-- R220: CAL_CTRL: age limit in µs; 0 gives strict age order -/
def CTRL_AGE : Lay := ⟨0x2B00100C, 1, 0x0, 1, 0x0, 0, 16, .rw, 0x3E8⟩
/-- R220: Smallest fill claim in GB/s; 0 is treated as 1 -/
def CTRL_FILLMIN : Lay := ⟨0x2B00100C, 1, 0x0, 1, 0x0, 16, 7, .rw, 0x10⟩
/-- R220: Resident limit in MiB; codes above 16 are treated as 16 -/
def CTRL_RESLIM : Lay := ⟨0x2B00100C, 1, 0x0, 1, 0x0, 24, 5, .rw, 0x4⟩
/-- R220: Pages that allocations may use -/
def PAGES_TOTAL : Lay := ⟨0x2B001010, 1, 0x0, 1, 0x0, 0, 32, .ro, 0x0⟩
/-- R220: Pages not allocated -/
def PAGES_FREE : Lay := ⟨0x2B001014, 1, 0x0, 1, 0x0, 0, 32, .ro, 0x0⟩
/-- R220: CAL_ALLOCS: allocations in the directory; bits 31:15 RSV -/
def ALLOCS : Lay := ⟨0x2B001018, 1, 0x0, 1, 0x0, 0, 15, .ro, 0x0⟩
/-- R220: CAL_CMD: command code -/
def CMD_OP : Lay := ⟨0x2B001020, 1, 0x0, 1, 0x0, 0, 4, .rw, 0x0⟩
/-- R220: Allocation kind for CREATE and ALLOC -/
def CMD_KIND : Lay := ⟨0x2B001020, 1, 0x0, 1, 0x0, 4, 4, .rw, 0x0⟩
/-- R220: Key ID for CREATE and ALLOC -/
def CMD_KEY : Lay := ⟨0x2B001020, 1, 0x0, 1, 0x0, 8, 4, .rw, 0x0⟩
/-- R220: Allocation ID -/
def CMD_ID : Lay := ⟨0x2B001024, 1, 0x0, 1, 0x0, 0, 32, .rw, 0x0⟩
/-- R220: Size in bytes, bits 31:0 -/
def CMD_SIZE_LO : Lay := ⟨0x2B001028, 1, 0x0, 1, 0x0, 0, 32, .rw, 0x0⟩
/-- R220: CAL_CMD_SIZE_HI: bits 36:32; bits 31:5 RSV -/
def CMD_SIZE_HI : Lay := ⟨0x2B00102C, 1, 0x0, 1, 0x0, 0, 5, .rw, 0x0⟩
/-- R220: CAL_CMD_STAT: outcome of the last command; bits 31:8 RSV -/
def CMD_STAT_CODE : Lay := ⟨0x2B001030, 1, 0x0, 1, 0x0, 0, 8, .ro, 0x0⟩
/-- R220 [k]: Output word k = 0–7 of the last command -/
def CMD_OUT : Lay := ⟨0x2B001040, 8, 0x4, 1, 0x0, 0, 32, .ro, 0x0⟩
/-- R220: Object of the head re-upload entry -/
def PZ_OBJ : Lay := ⟨0x2B001060, 1, 0x0, 1, 0x0, 0, 32, .ro, 0x0⟩
/-- R220: CAL_PZ_PAGE: page index within the object; bits 31:18 RSV -/
def PZ_PAGE : Lay := ⟨0x2B001064, 1, 0x0, 1, 0x0, 0, 18, .ro, 0x0⟩
/-- R220: Background weights; bits 31:24 RSV -/
def BG_W : Lay := ⟨0x2B001068, 1, 0x0, 1, 0x0, 0, 24, .rw, 0x144488⟩
/-- R220 [p]: Port p = 0–15: object ID -/
def RQ_OBJ : Lay := ⟨0x2B002000, 16, 0x20, 1, 0x0, 0, 32, .rw, 0x0⟩
/-- R220 [p]: CAL_RQp_SITE: site; bits 31:6 RSV -/
def RQ_SITE : Lay := ⟨0x2B002004, 16, 0x20, 1, 0x0, 0, 6, .rw, 0x0⟩
/-- R220 [p]: CTXID carried to the result (R150) -/
def RQ_CTX : Lay := ⟨0x2B002008, 16, 0x20, 1, 0x0, 0, 32, .rw, 0x0⟩
/-- R220 [p]: CAL_RQp_STAT: 0 none; 1 admitted; 2 refused; 3 withdrawn -/
def RQ_STAT_LAST : Lay := ⟨0x2B00200C, 16, 0x20, 1, 0x0, 0, 2, .ro, 0x0⟩
/-- R220 [p]: Refusal reason of the last refused request -/
def RQ_STAT_REASON : Lay := ⟨0x2B00200C, 16, 0x20, 1, 0x0, 8, 4, .ro, 0x0⟩
/-- R220 [p]: Sequencer of the last admitted request -/
def RQ_STAT_SEQ : Lay := ⟨0x2B00200C, 16, 0x20, 1, 0x0, 16, 4, .ro, 0x0⟩
/-- R220 [p]: BSEQ given to the named site at the last admission -/
def RQ_BSEQ : Lay := ⟨0x2B002010, 16, 0x20, 1, 0x0, 0, 32, .ro, 0x0⟩
/-- R220 [s]: Sequencer s = 0–15: object of its current or last burst -/
def SQ_OBJ : Lay := ⟨0x2B003000, 16, 0x10, 1, 0x0, 0, 32, .ro, 0x0⟩
/-- R220 [s]: CAL_SQs_BW: present claim in units of 0.1 GB/s -/
def SQ_BW_CLAIM : Lay := ⟨0x2B003004, 16, 0x10, 1, 0x0, 0, 16, .ro, 0x0⟩
/-- R220 [s]: Buffer granules held -/
def SQ_BW_GRAN : Lay := ⟨0x2B003004, 16, 0x10, 1, 0x0, 16, 11, .ro, 0x0⟩
/-- R220 [s]: CAL_SQs_LOOK: buffered lookahead in µs; 0xFFFF when resident or above 65,534 µs; bits 31:1 -/
def SQ_LOOK : Lay := ⟨0x2B003008, 16, 0x10, 1, 0x0, 0, 16, .ro, 0x0⟩
/-- R220 [s]: Vectors held for missing lines since device start; saturating -/
def SQ_STARVES : Lay := ⟨0x2B00300C, 16, 0x10, 1, 0x0, 0, 32, .ro, 0x0⟩
/-- R150 [s]: next burst number of a site -/
def BSEQ_NEXT : Lay := ⟨0x100002D00000, 64, 0x4, 1, 0x0, 0, 32, .hid, 0x0⟩
/-- R233 [p]: order of the post of a held request -/
def RQ_ORD : Lay := ⟨0x100002E00000, 16, 0x4, 1, 0x0, 0, 48, .hid, 0x0⟩
/-- R233 [p]: device timestamp of the post of a held request -/
def RQ_T : Lay := ⟨0x100002F00000, 16, 0x4, 1, 0x0, 0, 64, .hid, 0x0⟩
/-- R233: posts so far -/
def ORD : Lay := ⟨0x100003000000, 1, 0x0, 1, 0x0, 0, 48, .hid, 0x0⟩
/-- R256: channel from which the next page is taken -/
def ROT : Lay := ⟨0x100003100000, 1, 0x0, 1, 0x0, 0, 4, .hid, 0x0⟩
/-- R256 [n]: rank from which the next page of a channel is taken -/
def ROT_RANK : Lay := ⟨0x100003200000, 12, 0x4, 1, 0x0, 0, 2, .hid, 0x0⟩
/-- R222: outcome of the last command carried by SLP or Tweed -/
def X_CODE : Lay := ⟨0x100003800000, 1, 0x0, 1, 0x0, 0, 8, .hid, 0x0⟩
/-- R222 [k]: output words of that command -/
def X_OUT : Lay := ⟨0x100003900000, 8, 0x4, 1, 0x0, 0, 32, .hid, 0x0⟩
/-- R218: the copy of the directory in DRAM is valid for the next start -/
def KEEP : Lay := ⟨0x100003A00000, 1, 0x0, 1, 0x0, 0, 1, .hid, 0x0⟩
/-- R214, R218: pages of the SYSTEM area, the first in rotation -/
def SYS_PAGES : Lay := ⟨0x10000B000000, 1, 0x0, 1, 0x0, 0, 32, .hid, 0x0⟩
/-- R283: pages of the metadata region, the first of the SYSTEM area -/
def SYS_MD : Lay := ⟨0x10000B100000, 1, 0x0, 1, 0x0, 0, 32, .hid, 0x0⟩
/-- R245: bytes in the upload write queue -/
def UPQ : Lay := ⟨0x10000B200000, 1, 0x0, 1, 0x0, 0, 20, .hid, 0x0⟩
/-- R243: the background job whose turns run -/
def BG_JOB : Lay := ⟨0x10000B300000, 1, 0x0, 1, 0x0, 0, 3, .hid, 0x0⟩
/-- R243: the turns that are left to it -/
def BG_LEFT : Lay := ⟨0x10000B400000, 1, 0x0, 1, 0x0, 0, 4, .hid, 0x0⟩
/-- Every field of the block, in the order of the spec. -/
def layout0 : List Lay :=
  [READY, CMD_BUSY, PZ_NE, PZ_OVF, LOOK_LOW, REKEY, MIGR, CMD_GO, PZ_NEXT, PZ_OVF_REL, POST, WDRAW, HELD, COLL, COLL_REL, STARVE, VBUDGET, VUSED, BUFUSED, CTRL_AGE, CTRL_FILLMIN, CTRL_RESLIM, PAGES_TOTAL, PAGES_FREE, ALLOCS, CMD_OP, CMD_KIND, CMD_KEY, CMD_ID, CMD_SIZE_LO]
def layout1 : List Lay :=
  [CMD_SIZE_HI, CMD_STAT_CODE, CMD_OUT, PZ_OBJ, PZ_PAGE, BG_W, RQ_OBJ, RQ_SITE, RQ_CTX, RQ_STAT_LAST, RQ_STAT_REASON, RQ_STAT_SEQ, RQ_BSEQ, SQ_OBJ, SQ_BW_CLAIM, SQ_BW_GRAN, SQ_LOOK, SQ_STARVES, BSEQ_NEXT, RQ_ORD, RQ_T, ORD, ROT, ROT_RANK, X_CODE, X_OUT, KEEP, SYS_PAGES, SYS_MD, UPQ, BG_JOB, BG_LEFT]
/-- Every field of the block. -/
def layout : List Lay := layout0 ++ layout1
end CAL

namespace DDR
/-- R251 [n]: The channel is trained and in service -/
def UP : Lay := ⟨0x30000000, 12, 0x100, 1, 0x0, 0, 1, .ro, 0x0⟩
/-- R251 [n]: SPD found at least one rank -/
def FITTED : Lay := ⟨0x30000000, 12, 0x100, 1, 0x0, 1, 1, .ro, 0x0⟩
/-- R251 [n]: The channel was refused (R249) -/
def REFUSED : Lay := ⟨0x30000000, 12, 0x100, 1, 0x0, 2, 1, .ro, 0x0⟩
/-- R251 [n]: Doubled refresh is in force on at least one rank -/
def HOT : Lay := ⟨0x30000000, 12, 0x100, 1, 0x0, 3, 1, .ro, 0x0⟩
/-- R251 [n]: A redirection set-up is in progress -/
def SETUP : Lay := ⟨0x30000000, 12, 0x100, 1, 0x0, 4, 1, .ro, 0x0⟩
/-- R251 [n]: A rank is redirected to the spare -/
def REDIR : Lay := ⟨0x30000000, 12, 0x100, 1, 0x0, 5, 1, .ro, 0x0⟩
/-- R251 [n]: The migration copy is running -/
def MIG : Lay := ⟨0x30000000, 12, 0x100, 1, 0x0, 6, 1, .ro, 0x0⟩
/-- R251 [n]: The migration copy has finished; the retired rank is out of use -/
def MIG_DONE : Lay := ⟨0x30000000, 12, 0x100, 1, 0x0, 7, 1, .ro, 0x0⟩
/-- R251 [n]: DDR_ERR_CAP holds an error -/
def CAP_FULL : Lay := ⟨0x30000000, 12, 0x100, 1, 0x0, 8, 1, .ro, 0x0⟩
/-- R251 [n]: A rank's corrected errors in the present window exceed CETH -/
def CE_TH : Lay := ⟨0x30000000, 12, 0x100, 1, 0x0, 9, 1, .ro, 0x0⟩
/-- R251 [n]: Every rank of the channel is in self-refresh -/
def SR : Lay := ⟨0x30000000, 12, 0x100, 1, 0x0, 10, 1, .ro, 0x0⟩
/-- R251 [n]: A subchannel request queue is full -/
def QFULL : Lay := ⟨0x30000000, 12, 0x100, 1, 0x0, 11, 1, .ro, 0x0⟩
/-- R251 [n]: A doubled-refresh debt is being paid -/
def DEBT : Lay := ⟨0x30000000, 12, 0x100, 1, 0x0, 12, 1, .ro, 0x0⟩
/-- R251 [n]: Retire the rank named in DDR_RET_RANK -/
def RETIRE : Lay := ⟨0x30000000, 12, 0x100, 1, 0x0, 16, 1, .wt, 0x0⟩
/-- R251 [n]: Empty DDR_ERR_CAP -/
def CAP_REL : Lay := ⟨0x30000000, 12, 0x100, 1, 0x0, 17, 1, .wt, 0x0⟩
/-- R251 [n]: Neighbour refresh is enabled -/
def NRF_EN : Lay := ⟨0x30000000, 12, 0x100, 1, 0x0, 18, 1, .rw, 0x1⟩
/-- R251 [n]: Idle self-refresh is enabled -/
def ISR_EN : Lay := ⟨0x30000000, 12, 0x100, 1, 0x0, 19, 1, .rw, 0x0⟩
/-- R251 [n]: Thresholds in DDR_RET_CFG start a retirement -/
def AUTO : Lay := ⟨0x30000000, 12, 0x100, 1, 0x0, 20, 1, .rw, 0x0⟩
/-- R252 [n]: DDR_CFG: spare rank -/
def CFG_SPARE : Lay := ⟨0x30020000, 12, 0x100000, 1, 0x0, 0, 2, .rw, 0x0⟩
/-- R252 [n]: The channel has a spare rank -/
def CFG_SPARE_EN : Lay := ⟨0x30020000, 12, 0x100000, 1, 0x0, 2, 1, .rw, 0x0⟩
/-- R252 [n]: Bit 4 + r: rank r is excluded from use -/
def CFG_EXCL : Lay := ⟨0x30020000, 12, 0x100000, 1, 0x0, 4, 4, .rw, 0x0⟩
/-- R252 [n]: Neighbour-refresh exponent n; codes below 4 are treated as 4 -/
def CFG_NRF_N : Lay := ⟨0x30020000, 12, 0x100000, 1, 0x0, 8, 4, .rw, 0xA⟩
/-- R252 [n]: Doubled-refresh limit in °C -/
def CFG_TLIM : Lay := ⟨0x30020000, 12, 0x100000, 1, 0x0, 16, 8, .rw, 0x55⟩
/-- R252 [n]: Idle time before idle self-refresh, code × 10 µs; 0 is treated as 1 -/
def CFG_ISR_T : Lay := ⟨0x30020000, 12, 0x100000, 1, 0x0, 24, 8, .rw, 0x64⟩
/-- R252 [n]: DDR_STAT: bit r, rank r fitted -/
def STAT_RANKS : Lay := ⟨0x30020004, 12, 0x100000, 1, 0x0, 0, 4, .ro, 0x0⟩
/-- R252 [n]: 0 none; 1 4800; 2 5600; 3 6400 MT/s; 4–7 not used -/
def STAT_RATE : Lay := ⟨0x30020004, 12, 0x100000, 1, 0x0, 4, 3, .ro, 0x0⟩
/-- R252 [n]: Rank size 2^RSIZE GiB: 5 or 6; 0 when not fitted -/
def STAT_RSIZE : Lay := ⟨0x30020004, 12, 0x100000, 1, 0x0, 8, 4, .ro, 0x0⟩
/-- R252 [n]: Refusal reason (R249) -/
def STAT_REASON : Lay := ⟨0x30020004, 12, 0x100000, 1, 0x0, 12, 4, .ro, 0x0⟩
/-- R252 [n]: Bit 16 + r: rank r caused the refusal -/
def STAT_FAILRANK : Lay := ⟨0x30020004, 12, 0x100000, 1, 0x0, 16, 4, .ro, 0x0⟩
/-- R252 [n]: Rank redirected to the spare, valid while REDIR -/
def STAT_RETR : Lay := ⟨0x30020004, 12, 0x100000, 1, 0x0, 20, 2, .ro, 0x0⟩
/-- R252 [n]: DDR_TEMP: highest DRAM temperature, signed °C; bits 31:8 RSV -/
def TEMP : Lay := ⟨0x30020008, 12, 0x100000, 1, 0x0, 0, 8, .ro, 0x0⟩
/-- R252 [n]: DDR_RET_CFG: corrected errors allowed per rank per window -/
def RET_CFG_CETH : Lay := ⟨0x3002000C, 12, 0x100000, 1, 0x0, 0, 16, .rw, 0x400⟩
/-- R252 [n]: Window in seconds; 0 is treated as 1 -/
def RET_CFG_WIN : Lay := ⟨0x3002000C, 12, 0x100000, 1, 0x0, 16, 8, .rw, 0x3C⟩
/-- R252 [n]: Uncorrectable errors per rank that start a retirement; 0 is treated as 1 -/
def RET_CFG_UETH : Lay := ⟨0x3002000C, 12, 0x100000, 1, 0x0, 24, 8, .rw, 0x4⟩
/-- R252 [n]: DDR_MIG_RATE: copy rate limit, code × 0.1 GB/s; 0 is treated as 1, codes above 256 as 256; -/
def MIG_RATE : Lay := ⟨0x30020010, 12, 0x100000, 1, 0x0, 0, 16, .rw, 0x14⟩
/-- R252 [n]: Lines of the retired rank already copied -/
def MIG_PTR : Lay := ⟨0x30020014, 12, 0x100000, 1, 0x0, 0, 32, .ro, 0x0⟩
/-- R252 [n]: DDR_RET_RANK: rank for RETIRE; bits 31:2 RSV -/
def RET_RANK : Lay := ⟨0x30020018, 12, 0x100000, 1, 0x0, 0, 2, .rw, 0x0⟩
/-- R252 [n r]: Corrected errors on rank r, saturating -/
def CE_CNT : Lay := ⟨0x30020020, 12, 0x100000, 4, 0x4, 0, 32, .ro, 0x0⟩
/-- R252 [n r]: Uncorrectable errors on rank r, saturating -/
def UE_CNT : Lay := ⟨0x30020030, 12, 0x100000, 4, 0x4, 0, 32, .ro, 0x0⟩
/-- R252 [n]: Physical address of the captured error, bits 31:0 -/
def ERR_CAP_LO : Lay := ⟨0x30020040, 12, 0x100000, 1, 0x0, 0, 32, .ro, 0x0⟩
/-- R252 [n]: DDR_ERR_CAP_HI: physical address bits 47:32 -/
def ERR_CAP_HI_PA_HI : Lay := ⟨0x30020044, 12, 0x100000, 1, 0x0, 0, 16, .ro, 0x0⟩
/-- R252 [n]: 0 uncorrectable; 1 stored poison read; 2 poisoned store; 3 uncorrectable in migration copy -/
def ERR_CAP_HI_KIND : Lay := ⟨0x30020044, 12, 0x100000, 1, 0x0, 16, 3, .ro, 0x0⟩
/-- R252 [n]: Rank -/
def ERR_CAP_HI_RANK : Lay := ⟨0x30020044, 12, 0x100000, 1, 0x0, 20, 2, .ro, 0x0⟩
/-- R252 [n]: Subchannel -/
def ERR_CAP_HI_SUB : Lay := ⟨0x30020044, 12, 0x100000, 1, 0x0, 24, 1, .ro, 0x0⟩
/-- R252 [n]: DDR_CE_DEV: device (0–9) of the last corrected error -/
def CE_DEV_DEV : Lay := ⟨0x30020048, 12, 0x100000, 1, 0x0, 0, 4, .ro, 0x0⟩
/-- R252 [n]: Its rank -/
def CE_DEV_RANK : Lay := ⟨0x30020048, 12, 0x100000, 1, 0x0, 4, 2, .ro, 0x0⟩
/-- R252 [n]: Its subchannel -/
def CE_DEV_SUB : Lay := ⟨0x30020048, 12, 0x100000, 1, 0x0, 8, 1, .ro, 0x0⟩
/-- R252 [n]: R39: each IDATA access adds one to ADDR -/
def SPD_IADDR_INC : Lay := ⟨0x30020050, 12, 0x100000, 1, 0x0, 31, 1, .rw, 0x1⟩
/-- R252 [n]: R39: word index into the table -/
def SPD_IADDR_ADDR : Lay := ⟨0x30020050, 12, 0x100000, 1, 0x0, 0, 28, .rw, 0x0⟩
/-- R256 [n]: ranks that serve allocations, fixed at the last cold start -/
def USE : Lay := ⟨0x100003C00000, 12, 0x4, 1, 0x0, 0, 4, .hid, 0x0⟩
/-- R253 [n]: spare rank in bits 1:0 and its enable in bit 2, as read at the last cold start -/
def SPARE_ACT : Lay := ⟨0x100003D00000, 12, 0x4, 1, 0x0, 0, 3, .hid, 0x0⟩
/-- R266 [n]: ranks in self-refresh -/
def RSR : Lay := ⟨0x100004000000, 12, 0x4, 1, 0x0, 0, 4, .hid, 0x0⟩
/-- R261 [n r]: refreshes owed -/
def OWED : Lay := ⟨0x100004100000, 12, 0x10, 4, 0x4, 0, 3, .hid, 0x0⟩
/-- R262 [n]: ranks in doubled mode -/
def DBL : Lay := ⟨0x100004200000, 12, 0x4, 1, 0x0, 0, 4, .hid, 0x0⟩
/-- R263 [n r]: refreshes of a doubled-refresh debt still to be paid -/
def DEBT_N : Lay := ⟨0x100004300000, 12, 0x10, 4, 0x4, 0, 4, .hid, 0x0⟩
/-- R270 [n]: rank whose redirection set-up is in progress, valid while SETUP -/
def RETIRING : Lay := ⟨0x100004400000, 12, 0x4, 1, 0x0, 0, 2, .hid, 0x0⟩
/-- R269 [n r]: corrected errors of a rank in its present window -/
def CE_WIN : Lay := ⟨0x100004500000, 12, 0x10, 4, 0x4, 0, 32, .hid, 0x0⟩
/-- R250 [n]: the contents of the channel were lost when it was refused at a warm restart or a wake -/
def LOST : Lay := ⟨0x10000B500000, 12, 0x4, 1, 0x0, 0, 1, .hid, 0x0⟩
/-- R269 [n]: the causes of a retirement that stood
                                                                    when last looked at: bit r corrected errors of rank
                                                                    r, bit 4 + r uncorrectable ones -/
def AUTOD : Lay := ⟨0x10000B600000, 12, 0x4, 1, 0x0, 0, 8, .hid, 0x0⟩
/-- R271 [n]: bytes that RATE still lets the copy move -/
def MIG_CR : Lay := ⟨0x10000B700000, 12, 0x4, 1, 0x0, 0, 16, .hid, 0x0⟩
/-- R250 [n]: Chiffon keeps training results of the channel -/
def TRAINED : Lay := ⟨0x10000BA00000, 12, 0x4, 1, 0x0, 0, 1, .hid, 0x0⟩
/-- Every field of the block, in the order of the spec. -/
def layout0 : List Lay :=
  [UP, FITTED, REFUSED, HOT, SETUP, REDIR, MIG, MIG_DONE, CAP_FULL, CE_TH, SR, QFULL, DEBT, RETIRE, CAP_REL, NRF_EN, ISR_EN, AUTO, CFG_SPARE, CFG_SPARE_EN, CFG_EXCL, CFG_NRF_N, CFG_TLIM, CFG_ISR_T, STAT_RANKS, STAT_RATE, STAT_RSIZE, STAT_REASON, STAT_FAILRANK, STAT_RETR]
def layout1 : List Lay :=
  [TEMP, RET_CFG_CETH, RET_CFG_WIN, RET_CFG_UETH, MIG_RATE, MIG_PTR, RET_RANK, CE_CNT, UE_CNT, ERR_CAP_LO, ERR_CAP_HI_PA_HI, ERR_CAP_HI_KIND, ERR_CAP_HI_RANK, ERR_CAP_HI_SUB, CE_DEV_DEV, CE_DEV_RANK, CE_DEV_SUB, SPD_IADDR_INC, SPD_IADDR_ADDR, USE, SPARE_ACT, RSR, OWED, DBL, DEBT_N, RETIRING, CE_WIN, LOST, AUTOD, MIG_CR, TRAINED]
/-- Every field of the block. -/
def layout : List Lay := layout0 ++ layout1
end DDR

namespace ENC
/-- R294: Tenant mode is in force -/
def TENANT : Lay := ⟨0x31000000, 1, 0x0, 1, 0x0, 0, 1, .ro, 0x0⟩
/-- R294: A key command is being executed -/
def KW_BUSY : Lay := ⟨0x31000000, 1, 0x0, 1, 0x0, 1, 1, .ro, 0x0⟩
/-- R294: A re-key walk is running -/
def RK_RUN : Lay := ⟨0x31000000, 1, 0x0, 1, 0x0, 2, 1, .ro, 0x0⟩
/-- R294: A subtree rebuild is pending or running -/
def RB_RUN : Lay := ⟨0x31000000, 1, 0x0, 1, 0x0, 3, 1, .ro, 0x0⟩
/-- R294: ENC_ERR_CAP holds an error -/
def CAP_FULL : Lay := ⟨0x31000000, 1, 0x0, 1, 0x0, 4, 1, .ro, 0x0⟩
/-- R294: Execute the key command -/
def KW_GO : Lay := ⟨0x31000000, 1, 0x0, 1, 0x0, 8, 1, .wt, 0x0⟩
/-- R294: Empty ENC_ERR_CAP -/
def CAP_REL : Lay := ⟨0x31000000, 1, 0x0, 1, 0x0, 9, 1, .wt, 0x0⟩
/-- R294: Bit k: key ID k holds a key -/
def KEYV : Lay := ⟨0x31000004, 1, 0x0, 1, 0x0, 0, 16, .ro, 0x0⟩
/-- R294: Bit k: key ID k is marked for re-key -/
def RKPEND : Lay := ⟨0x31000008, 1, 0x0, 1, 0x0, 0, 16, .ro, 0x0⟩
/-- R294: Bit k: mark key ID k for re-key; ignored if no key is loaded -/
def RKREQ : Lay := ⟨0x3100000C, 1, 0x0, 1, 0x0, 0, 16, .wt, 0x0⟩
/-- R295: ENC_CFG: tenant mode at the next cold start; bits 31:1 RSV -/
def CFG_TENANT : Lay := ⟨0x31001000, 1, 0x0, 1, 0x0, 0, 1, .rw, 0x0⟩
/-- R295: ENC_KW_CMD: 1 LOAD; 2 ERASE; 0, 3 invalid -/
def KW_CMD_OP : Lay := ⟨0x31001004, 1, 0x0, 1, 0x0, 0, 2, .rw, 0x0⟩
/-- R295: Key ID -/
def KW_CMD_KID : Lay := ⟨0x31001004, 1, 0x0, 1, 0x0, 8, 4, .rw, 0x0⟩
/-- R295: ENC_KW_STAT: outcome (R278); bits 31:8 RSV -/
def KW_STAT_CODE : Lay := ⟨0x31001008, 1, 0x0, 1, 0x0, 0, 8, .ro, 0x0⟩
/-- R295 [w]: Wrapped key, bytes 4w to 4w + 3, w = 0–9 -/
def KW_DATA : Lay := ⟨0x31001010, 10, 0x4, 1, 0x0, 0, 32, .wo, 0x0⟩
/-- R295: ENC_RK_STAT: key ID of the running walk; bits 31:4 RSV -/
def RK_STAT_KID : Lay := ⟨0x31001040, 1, 0x0, 1, 0x0, 0, 4, .ro, 0x0⟩
/-- R295: Next page, as physical address bits 43:12 -/
def RK_PTR : Lay := ⟨0x31001044, 1, 0x0, 1, 0x0, 0, 32, .ro, 0x0⟩
/-- R295: Physical address, bits 31:0 -/
def ERR_CAP_LO : Lay := ⟨0x31001050, 1, 0x0, 1, 0x0, 0, 32, .ro, 0x0⟩
/-- R295: ENC_ERR_CAP_HI: physical address bits 47:32 -/
def ERR_CAP_HI_PA_HI : Lay := ⟨0x31001054, 1, 0x0, 1, 0x0, 0, 16, .ro, 0x0⟩
/-- R295: As in R289 and R290; 5 write stored poisoned because the counters are exhausted (R288); 6– -/
def ERR_CAP_HI_KIND : Lay := ⟨0x31001054, 1, 0x0, 1, 0x0, 16, 3, .ro, 0x0⟩
/-- R295: Node level, for KIND 2 and 4 -/
def ERR_CAP_HI_LEVEL : Lay := ⟨0x31001054, 1, 0x0, 1, 0x0, 20, 4, .ro, 0x0⟩
/-- R295: Data-line MAC failures since start; saturating -/
def MAC_FAIL : Lay := ⟨0x31001058, 1, 0x0, 1, 0x0, 0, 32, .ro, 0x0⟩
/-- R295: ENC_LEVELS: stored tree levels; bits 31:4 RSV -/
def LEVELS : Lay := ⟨0x3100105C, 1, 0x0, 1, 0x0, 0, 4, .ro, 0x0⟩
/-- R295 [k]: ENC_GENk: generation of key ID k; bits 31:16 RSV -/
def GEN : Lay := ⟨0x31001080, 16, 0x4, 1, 0x0, 0, 16, .ro, 0x0⟩
/-- R276 [k]: key of a key ID, valid while its KEYV bit is set -/
def KEY : Lay := ⟨0x100004600000, 16, 0x4, 1, 0x0, 0, 256, .hid, 0x0⟩
/-- R243, R287: lines that the REKEY job has spent on its present page or node -/
def RK_DONE : Lay := ⟨0x10000B800000, 1, 0x0, 1, 0x0, 0, 40, .hid, 0x0⟩
/-- The highest major counter used since the cold start (R292; hidden) -/
def MAJ_TOP : Lay := ⟨0x10000BB00000, 1, 0x4, 1, 0x4, 0, 64, .hid, 0x0⟩
/-- The highest counter of the tree used since the cold start (R292; hidden) -/
def CTR_TOP : Lay := ⟨0x10000BC00000, 1, 0x4, 1, 0x4, 0, 56, .hid, 0x0⟩
/-- Every field of the block, in the order of the spec. -/
def layout0 : List Lay :=
  [TENANT, KW_BUSY, RK_RUN, RB_RUN, CAP_FULL, KW_GO, CAP_REL, KEYV, RKPEND, RKREQ, CFG_TENANT, KW_CMD_OP, KW_CMD_KID, KW_STAT_CODE, KW_DATA, RK_STAT_KID, RK_PTR, ERR_CAP_LO, ERR_CAP_HI_PA_HI, ERR_CAP_HI_KIND, ERR_CAP_HI_LEVEL, MAC_FAIL, LEVELS, GEN, KEY, RK_DONE, MAJ_TOP, CTR_TOP]
/-- Every field of the block. -/
def layout : List Lay := layout0
end ENC

namespace ADC
/-- R299 [m]: The sequence list of ADCm is running -/
def RUN : Lay := ⟨0x2C000000, 16, 0x4, 1, 0x0, 0, 1, .ro, 0x0⟩
/-- R299 [m]: An urgent request is pending or converting -/
def URG_BUSY : Lay := ⟨0x2C000000, 16, 0x4, 1, 0x0, 1, 1, .ro, 0x0⟩
/-- R299 [m]: Self-calibration is running -/
def CAL_BUSY : Lay := ⟨0x2C000000, 16, 0x4, 1, 0x0, 2, 1, .ro, 0x0⟩
/-- R299 [m]: The output FIFO holds an output -/
def FIFO_NE : Lay := ⟨0x2C000000, 16, 0x4, 1, 0x0, 3, 1, .ro, 0x0⟩
/-- R299 [m]: The FIFO holds 768 outputs or more -/
def FIFO_HI : Lay := ⟨0x2C000000, 16, 0x4, 1, 0x0, 4, 1, .ro, 0x0⟩
/-- R299 [m]: The FIFO holds 1,024 outputs -/
def FIFO_FULL : Lay := ⟨0x2C000000, 16, 0x4, 1, 0x0, 5, 1, .ro, 0x0⟩
/-- R299 [m]: Conversion is held by back-pressure -/
def HOLD : Lay := ⟨0x2C000000, 16, 0x4, 1, 0x0, 6, 1, .ro, 0x0⟩
/-- R299 [m]: Start the list at entry 0 -/
def START : Lay := ⟨0x2C000000, 16, 0x4, 1, 0x0, 8, 1, .wt, 0x0⟩
/-- R299 [m]: Stop the list -/
def STOP : Lay := ⟨0x2C000000, 16, 0x4, 1, 0x0, 9, 1, .wt, 0x0⟩
/-- R299 [m]: Convert the urgent entry in ADC_URGm -/
def URG_GO : Lay := ⟨0x2C000000, 16, 0x4, 1, 0x0, 10, 1, .wt, 0x0⟩
/-- R299 [m]: Start self-calibration -/
def CAL_GO : Lay := ⟨0x2C000000, 16, 0x4, 1, 0x0, 11, 1, .wt, 0x0⟩
/-- R299 [m]: 1: the list wraps from its last entry to entry 0 -/
def CONT : Lay := ⟨0x2C000000, 16, 0x4, 1, 0x0, 13, 1, .rw, 0x0⟩
/-- R299 [m]: 1: outputs go to MFP data memory; 0: to the sample port -/
def STREAM : Lay := ⟨0x2C000000, 16, 0x4, 1, 0x0, 14, 1, .rw, 0x0⟩
/-- R299 [n]: The reference buffer of tile Tn is ready -/
def REF_RDY : Lay := ⟨0x2C000040, 4, 0x4, 1, 0x0, 0, 1, .ro, 0x0⟩
/-- R299 [n]: The reference buffer of tile Tn is enabled -/
def REF_EN : Lay := ⟨0x2C000040, 4, 0x4, 1, 0x0, 8, 1, .rw, 0x0⟩
/-- R300 [m]: ADC_CTRLm: the list has LEN + 1 entries -/
def CTRL_LEN : Lay := ⟨0x2C001000, 16, 0x40, 1, 0x0, 0, 6, .rw, 0x0⟩
/-- R300 [m]: Target MFP of the stream -/
def CTRL_MFP : Lay := ⟨0x2C001000, 16, 0x40, 1, 0x0, 8, 3, .rw, 0x0⟩
/-- R300 [m]: ADC_POSm: entry in progress, or the last one run -/
def POS_ENTRY : Lay := ⟨0x2C001004, 16, 0x40, 1, 0x0, 0, 6, .ro, 0x0⟩
/-- R300 [m]: Passes through the list since START; wraps -/
def POS_PASS : Lay := ⟨0x2C001004, 16, 0x40, 1, 0x0, 8, 24, .ro, 0x0⟩
/-- R300 [m]: Sample port: the head output; a read consumes it -/
def PORT : Lay := ⟨0x2C001008, 16, 0x40, 1, 0x0, 0, 32, .ro, 0xFFFFFFFF⟩
/-- R300 [m]: ADC_FILLm: outputs in the FIFO; bits 31:11 RSV -/
def FILL : Lay := ⟨0x2C00100C, 16, 0x40, 1, 0x0, 0, 11, .ro, 0x0⟩
/-- R300 [m]: Urgent entry, in the entry layout -/
def URG : Lay := ⟨0x2C001010, 16, 0x40, 1, 0x0, 0, 32, .rw, 0x0⟩
/-- R300 [m]: ADC_STATm: 0 none; 1 done; 2 refused, no reference; 3 refused, busy; 4 failed -/
def STAT_CAL : Lay := ⟨0x2C001014, 16, 0x40, 1, 0x0, 0, 3, .ro, 0x0⟩
/-- R300 [m]: 0 none; 1 done; 2 ignored -/
def STAT_URG : Lay := ⟨0x2C001014, 16, 0x40, 1, 0x0, 8, 2, .ro, 0x0⟩
/-- R300 [m]: Range 0 offset, signed, in 1/16 LSB; bits 31:16 RSV -/
def OFS0 : Lay := ⟨0x2C001018, 16, 0x40, 1, 0x0, 0, 16, .rw, 0x0⟩
/-- R300 [m]: Range 0 gain, unsigned, 0x8000 = 1.0; bits 31:16 RSV -/
def GAIN0 : Lay := ⟨0x2C00101C, 16, 0x40, 1, 0x0, 0, 16, .rw, 0x8000⟩
/-- R300 [m]: Range 1 offset -/
def OFS1 : Lay := ⟨0x2C001020, 16, 0x40, 1, 0x0, 0, 16, .rw, 0x0⟩
/-- R300 [m]: Range 1 gain -/
def GAIN1 : Lay := ⟨0x2C001024, 16, 0x40, 1, 0x0, 0, 16, .rw, 0x8000⟩
/-- R300 [m]: Byte offset of the stream buffer in the MFP's data memory; bits 1:0 RSV -/
def STR_BASE : Lay := ⟨0x2C001028, 16, 0x40, 1, 0x0, 0, 32, .rw, 0x0⟩
/-- R300 [m]: ADC_STR_LENm: buffer length in words; 0 is treated as 1; bits 31:18 RSV -/
def STR_LEN : Lay := ⟨0x2C00102C, 16, 0x40, 1, 0x0, 0, 18, .rw, 0x400⟩
/-- R300 [m]: Outputs written to the buffer; wraps -/
def STR_WR : Lay := ⟨0x2C001030, 16, 0x40, 1, 0x0, 0, 32, .ro, 0x0⟩
/-- R300 [m]: Outputs consumed from the buffer; wraps -/
def STR_RD : Lay := ⟨0x2C001034, 16, 0x40, 1, 0x0, 0, 32, .rw, 0x0⟩
/-- R300 [m]: Device timestamp of the first raw sample after the last START, bits 31:0 -/
def TS_LO : Lay := ⟨0x2C001038, 16, 0x40, 1, 0x0, 0, 32, .ro, 0x0⟩
/-- R300 [m]: Bits 63:32 -/
def TS_HI : Lay := ⟨0x2C00103C, 16, 0x40, 1, 0x0, 0, 32, .ro, 0x0⟩
/-- R303 [m]: a START is held until the urgent request ends -/
def START_HELD : Lay := ⟨0x100004900000, 16, 0x4, 1, 0x0, 0, 1, .hid, 0x0⟩
/-- R304 [m]: the list entry in progress, as read when it began -/
def CUR : Lay := ⟨0x100004A00000, 16, 0x4, 1, 0x0, 0, 28, .hid, 0x0⟩
/-- R301 [m]: outputs that the list entry in progress still owes -/
def LEFT : Lay := ⟨0x100004B00000, 16, 0x4, 1, 0x0, 0, 13, .hid, 0x0⟩
/-- R306 [m]: the urgent entry in progress -/
def URG_CUR : Lay := ⟨0x100004C00000, 16, 0x4, 1, 0x0, 0, 28, .hid, 0x0⟩
/-- R306 [m]: outputs that the urgent entry still owes -/
def URG_LEFT : Lay := ⟨0x100004D00000, 16, 0x4, 1, 0x0, 0, 13, .hid, 0x0⟩
/-- R306 [m]: the next list output is the first one after pre-emption -/
def RES_MARK : Lay := ⟨0x100004E00000, 16, 0x4, 1, 0x0, 0, 1, .hid, 0x0⟩
/-- R309 [m]: the next output carries GAP -/
def GAP_MARK : Lay := ⟨0x100004F00000, 16, 0x4, 1, 0x0, 0, 1, .hid, 0x0⟩
/-- Bit 0: MX_BUSY of the tile has changed since the last output of ADCm; bit 1: REF_RDY has (R307; hidden) -/
def CHG : Lay := ⟨0x10000BD00000, 16, 0x4, 1, 0x4, 0, 2, .hid, 0x0⟩
/-- INSEL and RANGE of the last conversion of ADCm, with bit 3 set once there was one (R303; hidden) -/
def LAST : Lay := ⟨0x10000BE00000, 16, 0x4, 1, 0x4, 0, 4, .hid, 0x0⟩
/-- The list of ADCm waits for MX_BUSY to clear before its first raw sample (R303; hidden) -/
def TS_WAIT : Lay := ⟨0x10000BF00000, 16, 0x4, 1, 0x4, 0, 1, .hid, 0x0⟩
/-- Every field of the block, in the order of the spec. -/
def layout0 : List Lay :=
  [RUN, URG_BUSY, CAL_BUSY, FIFO_NE, FIFO_HI, FIFO_FULL, HOLD, START, STOP, URG_GO, CAL_GO, CONT, STREAM, REF_RDY, REF_EN, CTRL_LEN, CTRL_MFP, POS_ENTRY, POS_PASS, PORT, FILL, URG, STAT_CAL, STAT_URG, OFS0, GAIN0, OFS1, GAIN1, STR_BASE, STR_LEN]
def layout1 : List Lay :=
  [STR_WR, STR_RD, TS_LO, TS_HI, START_HELD, CUR, LEFT, URG_CUR, URG_LEFT, RES_MARK, GAP_MARK, CHG, LAST, TS_WAIT]
/-- Every field of the block. -/
def layout : List Lay := layout0 ++ layout1
end ADC

namespace MFP
/-- R320 [n]: MFP_WDT_LEFT is half of PERIOD or less -/
def WDW : Lay := ⟨0x100000000, 8, 0x10000000, 1, 0x0, 0, 1, .ro, 0x0⟩
/-- R320 [n]: A remote load is outstanding -/
def RPEND : Lay := ⟨0x100000000, 8, 0x10000000, 1, 0x0, 1, 1, .ro, 0x0⟩
/-- R320 [n]: Sixteen remote stores are buffered -/
def SBFULL : Lay := ⟨0x100000000, 8, 0x10000000, 1, 0x0, 2, 1, .ro, 0x0⟩
/-- R320 [n]: A reservation is held -/
def RES : Lay := ⟨0x100000000, 8, 0x10000000, 1, 0x0, 3, 1, .ro, 0x0⟩
/-- R320 [n]: The timer capture is full -/
def TMR_CAP : Lay := ⟨0x100000000, 8, 0x10000000, 1, 0x0, 4, 1, .ro, 0x0⟩
/-- R320 [n]: MFP_DBCNT differs from MFP_DBACK -/
def DB_PEND : Lay := ⟨0x100000000, 8, 0x10000000, 1, 0x0, 5, 1, .ro, 0x0⟩
/-- R320 [n]: MFP_RSTCAP holds a cause -/
def RST_FULL : Lay := ⟨0x100000000, 8, 0x10000000, 1, 0x0, 6, 1, .ro, 0x0⟩
/-- R320 [n]: Reload the watchdog from PERIOD -/
def KICK : Lay := ⟨0x100000000, 8, 0x10000000, 1, 0x0, 8, 1, .wt, 0x0⟩
/-- R320 [n]: Empty the timer capture -/
def TMR_REL : Lay := ⟨0x100000000, 8, 0x10000000, 1, 0x0, 9, 1, .wt, 0x0⟩
/-- R320 [n]: Empty MFP_RSTCAP and MFP_RSTPC -/
def RST_REL : Lay := ⟨0x100000000, 8, 0x10000000, 1, 0x0, 10, 1, .wt, 0x0⟩
/-- R320 [n]: MFP_IE: bit 0 EVT, bit 1 DB, bit 2 TMR, bit 3 WDW enabled -/
def IE : Lay := ⟨0x100000004, 8, 0x10000000, 1, 0x0, 0, 4, .rw, 0x0⟩
/-- R320 [n]: MFP_IP: bit 0 EVT, bit 1 DB, bit 2 TMR, bit 3 WDW, bit 4 NMI pending -/
def IP : Lay := ⟨0x100000008, 8, 0x10000000, 1, 0x0, 0, 5, .ro, 0x0⟩
/-- R320 [n]: Bit m: add one to MFP_DBCNT of MFPm -/
def RING : Lay := ⟨0x10000000C, 8, 0x10000000, 1, 0x0, 0, 8, .wt, 0x0⟩
/-- R321 [n]: Site and flow identifier -/
def CTXID : Lay := ⟨0x100001000, 8, 0x10000000, 1, 0x0, 0, 32, .rw, 0x0⟩
/-- R321 [n]: MFP_WDT_CTRL: watchdog period in µs; 0 is treated as 1 -/
def WDT_CTRL_PERIOD : Lay := ⟨0x100001004, 8, 0x10000000, 1, 0x0, 0, 24, .rw, 0xF4240⟩
/-- R321 [n]: The watchdog counts -/
def WDT_CTRL_EN : Lay := ⟨0x100001004, 8, 0x10000000, 1, 0x0, 24, 1, .rw, 0x0⟩
/-- R321 [n]: 1: the watchdog keeps counting while the core is halted, as laid down in the chapter "Debu -/
def WDT_CTRL_RUNHALT : Lay := ⟨0x100001004, 8, 0x10000000, 1, 0x0, 25, 1, .rw, 0x0⟩
/-- R321 [n]: Once 1, writes to this register are ignored until the MFP is reset -/
def WDT_CTRL_LOCK : Lay := ⟨0x100001004, 8, 0x10000000, 1, 0x0, 26, 1, .rw, 0x0⟩
/-- R321 [n]: µs left; bits 31:24 RSV -/
def WDT_LEFT : Lay := ⟨0x100001008, 8, 0x10000000, 1, 0x0, 0, 24, .ro, 0xF4240⟩
/-- R321 [n]: MFP_RSTCAP: 0 none; 1 watchdog; 2 double fault; 3 debug reset; bits 31:2 RSV -/
def RSTCAP_CAUSE : Lay := ⟨0x10000100C, 8, 0x10000000, 1, 0x0, 0, 2, .ro, 0x0⟩
/-- R321 [n]: PC of the bundle about to issue when the captured reset occurred -/
def RSTPC : Lay := ⟨0x100001010, 8, 0x10000000, 1, 0x0, 0, 32, .ro, 0x0⟩
/-- R321 [n]: Cycles since the MFP's last reset, bits 31:0; a read latches bits 63:32 -/
def CYC_LO : Lay := ⟨0x100001014, 8, 0x10000000, 1, 0x0, 0, 32, .ro, 0x0⟩
/-- R321 [n]: Bits 63:32 as latched -/
def CYC_HI : Lay := ⟨0x100001018, 8, 0x10000000, 1, 0x0, 0, 32, .ro, 0x0⟩
/-- R321 [n]: Timer period in cycles; 0 stops the timer -/
def TMR_LOAD : Lay := ⟨0x10000101C, 8, 0x10000000, 1, 0x0, 0, 32, .rw, 0x0⟩
/-- R321 [n]: Timer count -/
def TMR : Lay := ⟨0x100001020, 8, 0x10000000, 1, 0x0, 0, 32, .ro, 0x0⟩
/-- R321 [n]: Expiries while the capture was full; saturating -/
def TMR_MISS : Lay := ⟨0x100001024, 8, 0x10000000, 1, 0x0, 0, 32, .ro, 0x0⟩
/-- R321 [n]: Doorbell rings received; wraps -/
def DBCNT : Lay := ⟨0x100001028, 8, 0x10000000, 1, 0x0, 0, 32, .ro, 0x0⟩
/-- R321 [n]: Doorbell rings handled -/
def DBACK : Lay := ⟨0x10000102C, 8, 0x10000000, 1, 0x0, 0, 32, .rw, 0x0⟩
/-- R321 [n]: Corrected IMEM and DMEM errors; saturating -/
def ECC_CNT : Lay := ⟨0x100001030, 8, 0x10000000, 1, 0x0, 0, 32, .ro, 0x0⟩
/-- R321 [n w]: Aperture window w = 0–7: allocation ID -/
def AP_ID : Lay := ⟨0x100001040, 8, 0x10000000, 8, 0x10, 0, 32, .rw, 0x0⟩
/-- R321 [n w]: MFP_APw_OFS: offset in the allocation, code × 64 KiB; bits 31:20 RSV -/
def AP_OFS : Lay := ⟨0x100001044, 8, 0x10000000, 8, 0x10, 0, 20, .rw, 0x0⟩
/-- R321 [n w]: Bit 0 EN; bit 1 WR; bits 31:2 RSV -/
def AP_CTRL : Lay := ⟨0x100001048, 8, 0x10000000, 8, 0x10, 0, 2, .rw, 0x0⟩
/-- R321 [n w]: MFP_APw_STAT: 0 unmapped; 1 mapped; 2 no such allocation; 3 allocation in DELETING, ZEROIN -/
def AP_STAT_CODE : Lay := ⟨0x10000104C, 8, 0x10000000, 8, 0x10, 0, 2, .ro, 0x0⟩
/-- R321 [n]: cycles since the last reset of the MFP -/
def CYC : Lay := ⟨0x100004700000, 8, 0x4, 1, 0x0, 0, 64, .hid, 0x0⟩
/-- Every field of the block, in the order of the spec. -/
def layout0 : List Lay :=
  [WDW, RPEND, SBFULL, RES, TMR_CAP, DB_PEND, RST_FULL, KICK, TMR_REL, RST_REL, IE, IP, RING, CTXID, WDT_CTRL_PERIOD, WDT_CTRL_EN, WDT_CTRL_RUNHALT, WDT_CTRL_LOCK, WDT_LEFT, RSTCAP_CAUSE, RSTPC, CYC_LO, CYC_HI, TMR_LOAD, TMR, TMR_MISS, DBCNT, DBACK, ECC_CNT, AP_ID]
def layout1 : List Lay :=
  [AP_OFS, AP_CTRL, AP_STAT_CODE, CYC]
/-- Every field of the block. -/
def layout : List Lay := layout0 ++ layout1
end MFP

namespace SHM
/-- R319 [n]: Resets of MFPn other than its release at start; wraps -/
def RSTCNT : Lay := ⟨0x4800000, 8, 0x4, 1, 0x0, 0, 32, .ro, 0x0⟩
/-- R319 [n]: Copy of MFP_CTXID of MFPn -/
def CTXID : Lay := ⟨0x4800020, 8, 0x4, 1, 0x0, 0, 32, .ro, 0x0⟩
/-- Every field of the block, in the order of the spec. -/
def layout0 : List Lay :=
  [RSTCNT, CTXID]
/-- Every field of the block. -/
def layout : List Lay := layout0
end SHM

namespace CNV
/-- R351: The scrubber is cycling -/
def SCRUB_RUN : Lay := ⟨0x38000000, 1, 0x0, 1, 0x0, 0, 1, .ro, 0x0⟩
/-- R351: A partial load is in progress -/
def ICFP_BUSY : Lay := ⟨0x38000000, 1, 0x0, 1, 0x0, 1, 1, .ro, 0x0⟩
/-- R351: CNV_ICFP_CAP holds a failed load -/
def ICFP_FULL : Lay := ⟨0x38000000, 1, 0x0, 1, 0x0, 2, 1, .ro, 0x0⟩
/-- R351: CNV_INJ_CAP holds an underflow -/
def INJ_FULL : Lay := ⟨0x38000000, 1, 0x0, 1, 0x0, 3, 1, .ro, 0x0⟩
/-- R351: CNV_UPSET_CAP holds a frame -/
def UPSET_FULL : Lay := ⟨0x38000000, 1, 0x0, 1, 0x0, 4, 1, .ro, 0x0⟩
/-- R351: Scrubbing is enabled; the configuration controller sets it from the image -/
def SCRUB_EN : Lay := ⟨0x38000000, 1, 0x0, 1, 0x0, 8, 1, .rw, 0x0⟩
/-- R351: Abort the partial load in progress -/
def ICFP_ABORT : Lay := ⟨0x38000000, 1, 0x0, 1, 0x0, 9, 1, .wt, 0x0⟩
/-- R351: Empty CNV_ICFP_CAP -/
def ICFP_REL : Lay := ⟨0x38000000, 1, 0x0, 1, 0x0, 10, 1, .wt, 0x0⟩
/-- R351: Empty CNV_INJ_CAP and zero CNV_INJ_CNT -/
def INJ_REL : Lay := ⟨0x38000000, 1, 0x0, 1, 0x0, 11, 1, .wt, 0x0⟩
/-- R351: Empty CNV_UPSET_CAP -/
def UPSET_REL : Lay := ⟨0x38000000, 1, 0x0, 1, 0x0, 12, 1, .wt, 0x0⟩
/-- R351 [b]: The ring of bay b is engaged -/
def HELD : Lay := ⟨0x38000100, 16, 0x4, 1, 0x0, 0, 1, .ro, 0x0⟩
/-- R351 [b]: Half of the golden allocation that is in force -/
def HALF : Lay := ⟨0x38000100, 16, 0x4, 1, 0x0, 1, 1, .ro, 0x0⟩
/-- R351 [b]: 1: engage the ring. The device also sets it when a load engages the ring -/
def HOLD : Lay := ⟨0x38000100, 16, 0x4, 1, 0x0, 8, 1, .rw, 0x0⟩
/-- R351 [b]: 1: hold the bay's logic in reset -/
def RST : Lay := ⟨0x38000100, 16, 0x4, 1, 0x0, 9, 1, .rw, 0x0⟩
/-- R352: CNV_CTRL: network of the register-window clock; values above 47 treated as 1; bits 31:6 RS -/
def CTRL_WNET : Lay := ⟨0x38001000, 1, 0x0, 1, 0x0, 0, 6, .rw, 0x1⟩
/-- R352: Allocation ID of the static region's golden copy -/
def STATIC_GOLD : Lay := ⟨0x38001004, 1, 0x0, 1, 0x0, 0, 32, .ro, 0x0⟩
/-- R352: Completed scrub cycles; wraps -/
def SCRUB_PASS : Lay := ⟨0x38001008, 1, 0x0, 1, 0x0, 0, 32, .ro, 0x0⟩
/-- R352: Frames corrected in place; saturating -/
def SCRUB_CE : Lay := ⟨0x3800100C, 1, 0x0, 1, 0x0, 0, 32, .ro, 0x0⟩
/-- R352: Frames rewritten from the golden copy; saturating -/
def SCRUB_ME : Lay := ⟨0x38001010, 1, 0x0, 1, 0x0, 0, 32, .ro, 0x0⟩
/-- R352: Address of the first captured frame, in the frame-address layout -/
def UPSET_CAP : Lay := ⟨0x38001014, 1, 0x0, 1, 0x0, 0, 32, .ro, 0x0⟩
/-- R352: CNV_UPSET_KIND: 0 rewritten from the golden copy; 1 unrepairable; bits 31:1 RSV -/
def UPSET_KIND : Lay := ⟨0x38001018, 1, 0x0, 1, 0x0, 0, 1, .ro, 0x0⟩
/-- R352: CNV_ICFP_CAP: as in the table under "Partial reconfiguration" -/
def ICFP_CAP_CAUSE : Lay := ⟨0x38001020, 1, 0x0, 1, 0x0, 0, 3, .ro, 0x0⟩
/-- R352: Region that the stream named -/
def ICFP_CAP_REGION : Lay := ⟨0x38001020, 1, 0x0, 1, 0x0, 8, 5, .ro, 0x0⟩
/-- R352: CNV_INJ_CAP: channel of the first underflow; bits 31:7 RSV -/
def INJ_CAP_CH : Lay := ⟨0x38001024, 1, 0x0, 1, 0x0, 0, 7, .ro, 0x0⟩
/-- R352: Underflowed vectors while INJ_FULL is set, the vector that filled the capture included (R3 -/
def INJ_CNT : Lay := ⟨0x38001028, 1, 0x0, 1, 0x0, 0, 32, .ro, 0x0⟩
/-- R352 [b]: CNV_BAYb_STAT: as in the table of bay states; bits 31:3 RSV -/
def BAY_STAT_BSTATE : Lay := ⟨0x38001100, 16, 0x8, 1, 0x0, 0, 3, .ro, 0x0⟩
/-- R352 [b]: Allocation ID of bay b's golden copy -/
def BAY_GOLD : Lay := ⟨0x38001104, 16, 0x8, 1, 0x0, 0, 32, .ro, 0x0⟩
/-- R353 [n]: region that receives the tap -/
def PORT_TAPDST : Lay := ⟨0x38002000, 128, 0x4, 1, 0x0, 0, 5, .rw, 0x1F⟩
/-- R353 [n]: region whose injection port feeds the channel -/
def PORT_INJSRC : Lay := ⟨0x38002000, 128, 0x4, 1, 0x0, 8, 5, .rw, 0x1F⟩
/-- R353 [n]: constant pin byte -/
def PORT_ICONST : Lay := ⟨0x38002000, 128, 0x4, 1, 0x0, 16, 8, .rw, 0x1F⟩
/-- R353 [n]: an INJSRC write waits -/
def PORT_INJ_PEND : Lay := ⟨0x38002000, 128, 0x4, 1, 0x0, 24, 1, .ro, 0x0⟩
/-- R353 [ch]: INJSRC in force -/
def INJ_ACT : Lay := ⟨0x100003300000, 128, 0x4, 1, 0x0, 0, 5, .hid, 0x1F⟩
/-- R354 [ch]: the eight lanes of the channel tap, 22 bits each: VLD, PB, CR, FL, MSK from bit 0 -/
def TAP : Lay := ⟨0x100003400000, 128, 0x4, 1, 0x0, 0, 176, .hid, 0x0⟩
/-- R356 [q]: the sequencer tap: STATE 3:0, CYC 51:4, NV 55:52, SOR 56 -/
def STAP : Lay := ⟨0x100003500000, 16, 0x4, 1, 0x0, 0, 57, .hid, 0x0⟩
/-- R356 [q]: GFAIL of the sequencer tap -/
def STAP_G : Lay := ⟨0x100003600000, 16, 0x4, 1, 0x0, 0, 8, .hid, 0x0⟩
/-- R364 [b]: the bay logic is in reset because of a load -/
def LOADRST : Lay := ⟨0x100005000000, 16, 0x4, 1, 0x0, 0, 1, .hid, 0x0⟩
/-- R368: words of the header that the ICFP has taken, 64 when it is complete -/
def ICFP_POS : Lay := ⟨0x100005100000, 1, 0x0, 1, 0x0, 0, 7, .hid, 0x0⟩
/-- R368: bay of the partial load in progress -/
def ICFP_REGION : Lay := ⟨0x100005200000, 1, 0x0, 1, 0x0, 0, 4, .hid, 0x0⟩
/-- R369: tag mode from step 3 on: the frames are written from the staged half -/
def ICFP_WRITING : Lay := ⟨0x100005300000, 1, 0x0, 1, 0x0, 0, 1, .hid, 0x0⟩
/-- R370: cause of the first frame that a CRC load refused or could not stage, 0 none -/
def ICFP_BAD : Lay := ⟨0x100005400000, 1, 0x0, 1, 0x0, 0, 3, .hid, 0x0⟩
/-- R370: outcome of the stream check: 0 not known, 1 good, 2 failed -/
def ICFP_OUT : Lay := ⟨0x100005500000, 1, 0x0, 1, 0x0, 0, 2, .hid, 0x0⟩
/-- R381: the fabric is held in global reset -/
def DRVRST : Lay := ⟨0x100005600000, 1, 0x0, 1, 0x0, 0, 1, .hid, 0x1⟩
/-- R384: fabric flip-flops and memories do not accept updates yet -/
def FROZEN : Lay := ⟨0x100005700000, 1, 0x0, 1, 0x0, 0, 1, .hid, 0x1⟩
/-- R360: levels of the user event lines -/
def LINES : Lay := ⟨0x100005800000, 1, 0x0, 1, 0x0, 0, 160, .hid, 0x0⟩
/-- R368: words of the segments that the ICFP has taken -/
def ICFP_N : Lay := ⟨0x10000C000000, 1, 0x0, 1, 0x0, 0, 32, .hid, 0x0⟩
/-- R379: tag of the last segment that has ended -/
def ICFP_TAG : Lay := ⟨0x10000C100000, 1, 0x0, 1, 0x0, 0, 128, .hid, 0x0⟩
/-- R380: payload word at which the record being taken begins -/
def ICFP_REC : Lay := ⟨0x10000C200000, 1, 0x0, 1, 0x0, 0, 32, .hid, 0x0⟩
/-- R380: 1 END taken and its CRC right, 2 its CRC wrong or a record malformed -/
def ICFP_END : Lay := ⟨0x10000C300000, 1, 0x0, 1, 0x0, 0, 2, .hid, 0x0⟩
/-- R372: place in the order of scrubbing from which the cycle goes on -/
def SCRUB_POS : Lay := ⟨0x10000C400000, 1, 0x0, 1, 0x0, 0, 20, .hid, 0x0⟩
/-- R354 [q]: TCLK cycle of the lanes that the taps of the sequencer carry, plus one; 0 none -/
def TAP_AT : Lay := ⟨0x10000C500000, 16, 0x4, 1, 0x0, 0, 64, .hid, 0x0⟩
/-- R368: 1 ICFP_OK, 2 ICFP_ERR, for the cycle at the end of a load -/
def ICFP_SIG : Lay := ⟨0x10000C600000, 1, 0x0, 1, 0x0, 0, 2, .hid, 0x0⟩
/-- Every field of the block, in the order of the spec. -/
def layout0 : List Lay :=
  [SCRUB_RUN, ICFP_BUSY, ICFP_FULL, INJ_FULL, UPSET_FULL, SCRUB_EN, ICFP_ABORT, ICFP_REL, INJ_REL, UPSET_REL, HELD, HALF, HOLD, RST, CTRL_WNET, STATIC_GOLD, SCRUB_PASS, SCRUB_CE, SCRUB_ME, UPSET_CAP, UPSET_KIND, ICFP_CAP_CAUSE, ICFP_CAP_REGION, INJ_CAP_CH, INJ_CNT, BAY_STAT_BSTATE, BAY_GOLD, PORT_TAPDST, PORT_INJSRC, PORT_ICONST]
def layout1 : List Lay :=
  [PORT_INJ_PEND, INJ_ACT, TAP, STAP, STAP_G, LOADRST, ICFP_POS, ICFP_REGION, ICFP_WRITING, ICFP_BAD, ICFP_OUT, DRVRST, FROZEN, LINES, ICFP_N, ICFP_TAG, ICFP_REC, ICFP_END, SCRUB_POS, TAP_AT, ICFP_SIG]
/-- Every field of the block. -/
def layout : List Lay := layout0 ++ layout1
end CNV

namespace CFG
/-- R391: A load, restart or start-up order is in progress -/
def BUSY : Lay := ⟨0x13000000, 1, 0x0, 1, 0x0, 0, 1, .ro, 0x1⟩
/-- R391: A full configuration is in force -/
def LOADED : Lay := ⟨0x13000000, 1, 0x0, 1, 0x0, 1, 1, .ro, 0x0⟩
/-- R391: The slot in force is not the first tried -/
def FALLBACK : Lay := ⟨0x13000000, 1, 0x0, 1, 0x0, 2, 1, .ro, 0x0⟩
/-- R391: The device is in SAFEHOLD (R383) -/
def SAFEHOLD : Lay := ⟨0x13000000, 1, 0x0, 1, 0x0, 3, 1, .ro, 0x0⟩
/-- R391: CFG_FAIL_CAP holds a failure -/
def FAIL_FULL : Lay := ⟨0x13000000, 1, 0x0, 1, 0x0, 4, 1, .ro, 0x0⟩
/-- R391: DONE reads high -/
def DONE_IN : Lay := ⟨0x13000000, 1, 0x0, 1, 0x0, 5, 1, .ro, 0x0⟩
/-- R391: The device drives DONE low -/
def DONE_DRV : Lay := ⟨0x13000000, 1, 0x0, 1, 0x0, 6, 1, .ro, 0x1⟩
/-- R391: MASTER_SEL reads master -/
def MASTER : Lay := ⟨0x13000000, 1, 0x0, 1, 0x0, 7, 1, .ro, 0x0⟩
/-- R391: Warm restart from the slot that CFG_NEXT names -/
def WARM : Lay := ⟨0x13000000, 1, 0x0, 1, 0x0, 8, 1, .wt, 0x0⟩
/-- R391: Empty CFG_FAIL_CAP -/
def FAIL_REL : Lay := ⟨0x13000000, 1, 0x0, 1, 0x0, 9, 1, .wt, 0x0⟩
/-- R392: CFG_STATE: step of R381 in progress, 1–8; 9 order; 10 loaded; 11 SAFEHOLD; 0 restart steps -/
def STATE_STEP : Lay := ⟨0x13001000, 1, 0x0, 1, 0x0, 0, 4, .ro, 0x0⟩
/-- R392: Slot in force; 3: none -/
def STATE_SLOT : Lay := ⟨0x13001000, 1, 0x0, 1, 0x0, 4, 2, .ro, 0x3⟩
/-- R392: Last start: 0 cold; 1 warm; 2 wake -/
def STATE_START : Lay := ⟨0x13001000, 1, 0x0, 1, 0x0, 8, 2, .ro, 0x0⟩
/-- R392: CFG_NEXT: slot of the next warm restart; 3: directory order; bits 31:2 RSV -/
def NEXT_SLOT : Lay := ⟨0x13001004, 1, 0x0, 1, 0x0, 0, 2, .rw, 0x3⟩
/-- R392: CFG_FAIL_CAP: cause (R382) -/
def FAIL_CAP_CAUSE : Lay := ⟨0x13001008, 1, 0x0, 1, 0x0, 0, 4, .ro, 0x0⟩
/-- R392: Slot concerned -/
def FAIL_CAP_SLOT : Lay := ⟨0x13001008, 1, 0x0, 1, 0x0, 4, 2, .ro, 0x0⟩
/-- R392: Segment in which the failure was found -/
def FAIL_CAP_SEG : Lay := ⟨0x13001008, 1, 0x0, 1, 0x0, 8, 24, .ro, 0x0⟩
/-- R392: VERSION of the image in force -/
def IMG_VER : Lay := ⟨0x1300100C, 1, 0x0, 1, 0x0, 0, 32, .ro, 0x0⟩
/-- R392: Time of the last start, in µs -/
def LOAD_TIME : Lay := ⟨0x13001010, 1, 0x0, 1, 0x0, 0, 32, .ro, 0x0⟩
/-- R392: CFG_FUSE: images and streams with CHECK = 0 are refused; bits 31:1 RSV -/
def FUSE_AUTH_ONLY : Lay := ⟨0x13001014, 1, 0x0, 1, 0x0, 0, 1, .ro, 0x0⟩
/-- R392: Manufacturer and device ID read from the flash; bits 31:24 RSV -/
def FL_ID : Lay := ⟨0x13001018, 1, 0x0, 1, 0x0, 0, 24, .ro, 0x0⟩
/-- R392: Flash capacity in MiB, from SFDP; bits 31:16 RSV -/
def FL_SIZE : Lay := ⟨0x1300101C, 1, 0x0, 1, 0x0, 0, 16, .ro, 0x0⟩
/-- R516: the slot directory read last is valid -/
def DIR_OK : Lay := ⟨0x100009D00000, 1, 0x0, 1, 0x0, 0, 1, .hid, 0x0⟩
/-- R381 [i]: slots to try, in order; 3 none -/
def ORD : Lay := ⟨0x100009E00000, 3, 0x4, 1, 0x0, 0, 2, .hid, 0x3⟩
/-- R381: place in the order of the slot being tried -/
def TRY : Lay := ⟨0x100009F00000, 1, 0x0, 1, 0x0, 0, 2, .hid, 0x0⟩
/-- R380: payload bytes taken from the stream -/
def POS : Lay := ⟨0x10000A000000, 1, 0x0, 1, 0x0, 0, 32, .hid, 0x0⟩
/-- R380: CRC-32 register over the payload bytes taken -/
def CRC : Lay := ⟨0x10000A100000, 1, 0x0, 1, 0x0, 0, 32, .hid, 0xFFFFFFFF⟩
/-- R379: segments read -/
def SEGS : Lay := ⟨0x10000A200000, 1, 0x0, 1, 0x0, 0, 24, .hid, 0x0⟩
/-- R380: WRITE pairs staged -/
def PAIRS : Lay := ⟨0x10000A300000, 1, 0x0, 1, 0x0, 0, 14, .hid, 0x0⟩
/-- R384: start-up phases carried out -/
def PHASE : Lay := ⟨0x10000A400000, 1, 0x0, 1, 0x0, 0, 3, .hid, 0x0⟩
/-- R385: the DONE wait of this start is over -/
def DONE_SEEN : Lay := ⟨0x10000A500000, 1, 0x0, 1, 0x0, 0, 1, .hid, 0x0⟩
/-- R382: a WRITE pair that waited has ended with a bus error -/
def PAIR_ERR : Lay := ⟨0x10000C700000, 1, 0x0, 1, 0x0, 0, 1, .hid, 0x0⟩
/-- R384: instant in ns at which the wait of the last phase ends -/
def PHASE_AT : Lay := ⟨0x10000C800000, 1, 0x0, 1, 0x0, 0, 64, .hid, 0x0⟩
/-- R379: tag of the last segment read -/
def SEG_TAG : Lay := ⟨0x10000C900000, 1, 0x0, 1, 0x0, 0, 128, .hid, 0x0⟩
/-- Every field of the block, in the order of the spec. -/
def layout0 : List Lay :=
  [BUSY, LOADED, FALLBACK, SAFEHOLD, FAIL_FULL, DONE_IN, DONE_DRV, MASTER, WARM, FAIL_REL, STATE_STEP, STATE_SLOT, STATE_START, NEXT_SLOT, FAIL_CAP_CAUSE, FAIL_CAP_SLOT, FAIL_CAP_SEG, IMG_VER, LOAD_TIME, FUSE_AUTH_ONLY, FL_ID, FL_SIZE, DIR_OK, ORD, TRY, POS, CRC, SEGS, PAIRS, PHASE]
def layout1 : List Lay :=
  [DONE_SEEN, PAIR_ERR, PHASE_AT, SEG_TAG]
/-- Every field of the block. -/
def layout : List Lay := layout0 ++ layout1
end CFG

namespace TWD
/-- R424: STATE is JOINED or MASTER -/
def CASC : Lay := ⟨0x32000000, 1, 0x0, 1, 0x0, 0, 1, .ro, 0x0⟩
/-- R424: STATE is LOST or SEARCH while CASC_EN = 1 -/
def LOST : Lay := ⟨0x32000000, 1, 0x0, 1, 0x0, 1, 1, .ro, 0x0⟩
/-- R424: Global fail, as R422 lays down -/
def GFAIL : Lay := ⟨0x32000000, 1, 0x0, 1, 0x0, 2, 1, .ro, 0x0⟩
/-- R424: A broadcast is running, on the master -/
def BC_BUSY : Lay := ⟨0x32000000, 1, 0x0, 1, 0x0, 3, 1, .ro, 0x0⟩
/-- R424: TWD_ERR_CAP holds an error -/
def CAP_FULL : Lay := ⟨0x32000000, 1, 0x0, 1, 0x0, 4, 1, .ro, 0x0⟩
/-- R424: Start a global stop -/
def GSTOP : Lay := ⟨0x32000000, 1, 0x0, 1, 0x0, 8, 1, .wt, 0x0⟩
/-- R424: Start the broadcast in TWD_BC_OBJ and TWD_BC_MASK -/
def BC_GO : Lay := ⟨0x32000000, 1, 0x0, 1, 0x0, 9, 1, .wt, 0x0⟩
/-- R424: Empty TWD_ERR_CAP -/
def CAP_REL : Lay := ⟨0x32000000, 1, 0x0, 1, 0x0, 10, 1, .wt, 0x0⟩
/-- R424: The device takes part in a cascade -/
def CASC_EN : Lay := ⟨0x32000000, 1, 0x0, 1, 0x0, 11, 1, .rw, 0x0⟩
/-- R424 [w]: The port carries messages -/
def UP : Lay := ⟨0x32000010, 4, 0x4, 1, 0x0, 0, 1, .ro, 0x0⟩
/-- R424 [w]: Fewer than four lanes in use -/
def DEGR : Lay := ⟨0x32000010, 4, 0x4, 1, 0x0, 1, 1, .ro, 0x0⟩
/-- R424 [w]: The port is in RECOVER -/
def RECOV : Lay := ⟨0x32000010, 4, 0x4, 1, 0x0, 2, 1, .ro, 0x0⟩
/-- R424 [w]: Bring-up or a lane retrain is in progress -/
def TRAIN : Lay := ⟨0x32000010, 4, 0x4, 1, 0x0, 3, 1, .ro, 0x0⟩
/-- R424 [w]: The port is this device's upstream port -/
def UPSTREAM : Lay := ⟨0x32000010, 4, 0x4, 1, 0x0, 4, 1, .ro, 0x0⟩
/-- R424 [w]: A PRBS counter of the port is not zero -/
def PRBS_ERR : Lay := ⟨0x32000010, 4, 0x4, 1, 0x0, 5, 1, .ro, 0x0⟩
/-- R424 [w]: The port trains and runs -/
def EN : Lay := ⟨0x32000010, 4, 0x4, 1, 0x0, 8, 1, .rw, 0x1⟩
/-- R424 [w]: Take the port DOWN and start bring-up again -/
def RETRAIN : Lay := ⟨0x32000010, 4, 0x4, 1, 0x0, 9, 1, .wt, 0x0⟩
/-- R424 [w]: Take the port out of service and send PRBS31 on every lane; the counters count while the p -/
def PRBS_EN : Lay := ⟨0x32000010, 4, 0x4, 1, 0x0, 10, 1, .rw, 0x0⟩
/-- R425: TWD_CTRL: 0 2.5; 1 8; 2 16; 3 25; 4 32 Gbit/s; 5–7 treated as 4; used at the next bring-up -/
def CTRL_MAXRATE : Lay := ⟨0x32001000, 1, 0x0, 1, 0x0, 0, 3, .rw, 0x4⟩
/-- R425: Release lead in units of 0.1 µs (3.0 µs) -/
def CTRL_REL_LEAD : Lay := ⟨0x32001000, 1, 0x0, 1, 0x0, 8, 8, .rw, 0x1E⟩
/-- R425: On the master: GFAIL starts a global stop -/
def CTRL_GF_STOP : Lay := ⟨0x32001000, 1, 0x0, 1, 0x0, 16, 1, .rw, 0x0⟩
/-- R425: On the master: lost devices are probed (R413) -/
def CTRL_AUTOREJ : Lay := ⟨0x32001000, 1, 0x0, 1, 0x0, 17, 1, .rw, 0x1⟩
/-- R425: TWD_STAT: 0 OFF; 1 SEARCH; 2 ALIGNING; 3 JOINED; 4 LOST; 5 MASTER; 6–7 not used -/
def STAT_STATE : Lay := ⟨0x32001004, 1, 0x0, 1, 0x0, 0, 3, .ro, 0x0⟩
/-- R425: Device number -/
def STAT_DEV : Lay := ⟨0x32001004, 1, 0x0, 1, 0x0, 8, 5, .ro, 0x0⟩
/-- R425: Hops to the master -/
def STAT_DEPTH : Lay := ⟨0x32001004, 1, 0x0, 1, 0x0, 16, 5, .ro, 0x0⟩
/-- R425: On the master: devices numbered, 1–32 -/
def STAT_NDEV : Lay := ⟨0x32001004, 1, 0x0, 1, 0x0, 24, 6, .ro, 0x0⟩
/-- R425: CT bits 31:0; a read latches bits 47:32 -/
def CT_LO : Lay := ⟨0x32001008, 1, 0x0, 1, 0x0, 0, 32, .ro, 0x0⟩
/-- R425: CT bits 47:32 as latched; bits 31:16 RSV -/
def CT_HI : Lay := ⟨0x3200100C, 1, 0x0, 1, 0x0, 0, 16, .ro, 0x0⟩
/-- R425: Path latency to the master, code × 10 ps; bits 31:20 RSV -/
def PATHLAT : Lay := ⟨0x32001010, 1, 0x0, 1, 0x0, 0, 20, .ro, 0x0⟩
/-- R425: Sequencers whose fail flags form the contribution; bits 31:16 RSV -/
def GF_SEQ : Lay := ⟨0x32001014, 1, 0x0, 1, 0x0, 0, 16, .rw, 0x0⟩
/-- R425: Sequencers stopped by a global stop; bits 31:16 RSV -/
def GS_SEQ : Lay := ⟨0x32001018, 1, 0x0, 1, 0x0, 0, 16, .rw, 0x0⟩
/-- R425: TWD_ERR_CAP: 0 lane dropped; 1 port DOWN; 2 barrier failed; 3 declared lost; 4 master conf -/
def ERR_CAP_KIND : Lay := ⟨0x3200101C, 1, 0x0, 1, 0x0, 0, 4, .ro, 0x0⟩
/-- R425: Port, for KIND 0, 1, 4, 5 and 7 -/
def ERR_CAP_PORT : Lay := ⟨0x3200101C, 1, 0x0, 1, 0x0, 4, 2, .ro, 0x0⟩
/-- R425: Lane, for KIND 0 -/
def ERR_CAP_LANE : Lay := ⟨0x3200101C, 1, 0x0, 1, 0x0, 6, 2, .ro, 0x0⟩
/-- R425: Barrier, for KIND 2 -/
def ERR_CAP_BAR : Lay := ⟨0x3200101C, 1, 0x0, 1, 0x0, 8, 8, .ro, 0x0⟩
/-- R425: Device, for KIND 2, 3 and 6 -/
def ERR_CAP_DEV : Lay := ⟨0x3200101C, 1, 0x0, 1, 0x0, 16, 5, .ro, 0x0⟩
/-- R425: R39: each IDATA access adds one to ADDR -/
def BAR_IADDR_INC : Lay := ⟨0x32001020, 1, 0x0, 1, 0x0, 31, 1, .rw, 0x1⟩
/-- R425: R39: word index into the table -/
def BAR_IADDR_ADDR : Lay := ⟨0x32001020, 1, 0x0, 1, 0x0, 0, 28, .rw, 0x0⟩
/-- R425: Object to broadcast -/
def BC_OBJ : Lay := ⟨0x32001030, 1, 0x0, 1, 0x0, 0, 32, .rw, 0x0⟩
/-- R425: Bit d: device d receives the broadcast -/
def BC_MASK : Lay := ⟨0x32001034, 1, 0x0, 1, 0x0, 0, 32, .rw, 0x0⟩
/-- R425: TWD_BC_STAT: as in R421; bits 31:8 RSV -/
def BC_STAT_CODE : Lay := ⟨0x32001038, 1, 0x0, 1, 0x0, 0, 8, .ro, 0x0⟩
/-- R425: Devices that sealed the object -/
def BC_DONE : Lay := ⟨0x3200103C, 1, 0x0, 1, 0x0, 0, 32, .ro, 0x0⟩
/-- R425: Devices that failed -/
def BC_FAILM : Lay := ⟨0x32001040, 1, 0x0, 1, 0x0, 0, 32, .ro, 0x0⟩
/-- R425 [d]: TWD_ROSTd, d = 0–31, on the master: device d is numbered -/
def ROST_PRES : Lay := ⟨0x32001100, 32, 0x4, 1, 0x0, 0, 1, .ro, 0x0⟩
/-- R425 [d]: Device d is lost -/
def ROST_LOSTD : Lay := ⟨0x32001100, 32, 0x4, 1, 0x0, 1, 1, .ro, 0x0⟩
/-- R425 [d]: Its depth -/
def ROST_DEPTH : Lay := ⟨0x32001100, 32, 0x4, 1, 0x0, 8, 5, .ro, 0x0⟩
/-- R425 [d]: Master port that leads to it -/
def ROST_VIA : Lay := ⟨0x32001100, 32, 0x4, 1, 0x0, 16, 2, .ro, 0x0⟩
/-- R427 [w]: TWD_Pw_STAT: rate code, as MAXRATE -/
def P_STAT_RATE : Lay := ⟨0x32001200, 4, 0x40, 1, 0x0, 0, 3, .ro, 0x0⟩
/-- R427 [w]: Bit 4 + l: lane l in use -/
def P_STAT_LANES : Lay := ⟨0x32001200, 4, 0x40, 1, 0x0, 4, 4, .ro, 0x0⟩
/-- R427 [w]: 0 DOWN; 1 TRAIN; 2 UP; 3 RECOVER; 4 IDLE; 5 CONFLICT; 6–7 not used -/
def P_STAT_PSTATE : Lay := ⟨0x32001200, 4, 0x40, 1, 0x0, 12, 3, .ro, 0x0⟩
/-- R427 [w]: Partner's device number -/
def P_STAT_PDEV : Lay := ⟨0x32001200, 4, 0x40, 1, 0x0, 16, 5, .ro, 0x0⟩
/-- R427 [w]: Partner's port -/
def P_STAT_PPORT : Lay := ⟨0x32001200, 4, 0x40, 1, 0x0, 24, 2, .ro, 0x0⟩
/-- R427 [w]: Bytes 4–7 of the partner's last CAP block -/
def P_PCAP : Lay := ⟨0x32001204, 4, 0x40, 1, 0x0, 0, 32, .ro, 0x0⟩
/-- R427 [w]: TWD_Pw_CRED: credits held for sending, 0–256; bits 31:9 RSV -/
def P_CRED : Lay := ⟨0x32001208, 4, 0x40, 1, 0x0, 0, 9, .ro, 0x0⟩
/-- R427 [w]: Hop latency, code × 10 ps; bits 31:16 RSV -/
def P_LAT : Lay := ⟨0x3200120C, 4, 0x40, 1, 0x0, 0, 16, .ro, 0x0⟩
/-- R427 [w l]: Invalid headers on lane l since start; saturating -/
def P_SHE : Lay := ⟨0x32001210, 4, 0x40, 4, 0x4, 0, 32, .ro, 0x0⟩
/-- R427 [w l]: PRBS31 bit errors on lane l; zeroed when PRBS_EN is written 1; saturating -/
def P_PRBS : Lay := ⟨0x32001220, 4, 0x40, 4, 0x4, 0, 32, .ro, 0x0⟩
/-- R427 [w]: Messages answered with NAK; saturating -/
def P_CRCE : Lay := ⟨0x32001230, 4, 0x40, 1, 0x0, 0, 32, .ro, 0x0⟩
/-- R427 [w]: Lane retrains since start; saturating -/
def P_RETR : Lay := ⟨0x32001234, 4, 0x40, 1, 0x0, 0, 32, .ro, 0x0⟩
/-- R414: CT minus the TREF cycles counted since start, modulo 2^48 -/
def CT_OFS : Lay := ⟨0x100005900000, 1, 0x0, 1, 0x0, 0, 48, .hid, 0x0⟩
/-- R417 [d]: path latency of a device, on the master, code x 10 ps -/
def ROST_LAT : Lay := ⟨0x100005A00000, 32, 0x4, 1, 0x0, 0, 20, .hid, 0x0⟩
/-- R407 [w]: credits of class CTL held for sending -/
def P_CCTL : Lay := ⟨0x100005B00000, 4, 0x4, 1, 0x0, 0, 6, .hid, 0x0⟩
/-- R407 [w]: credits of class BCAST held for sending -/
def P_CBC : Lay := ⟨0x100005C00000, 4, 0x4, 1, 0x0, 0, 8, .hid, 0x0⟩
/-- R408 [w]: SEQ of the next message sent -/
def P_SEQ : Lay := ⟨0x100005D00000, 4, 0x4, 1, 0x0, 0, 16, .hid, 0x0⟩
/-- R409 [w]: lanes dropped and being retrained -/
def P_DROPPED : Lay := ⟨0x100005E00000, 4, 0x4, 1, 0x0, 0, 4, .hid, 0x0⟩
/-- R422: on the master: devices whose fail contribution is set -/
def CONTRIB : Lay := ⟨0x100005F00000, 1, 0x0, 1, 0x0, 0, 32, .hid, 0x0⟩
/-- R422: this device's fail contribution as last reported -/
def MYC : Lay := ⟨0x100006000000, 1, 0x0, 1, 0x0, 0, 1, .hid, 0x0⟩
/-- R420: broadcast on the master: 0 none, 1 BC_CREATE outcomes awaited, 2 data, 3 BC_SEAL outcomes  -/
def BC_PH : Lay := ⟨0x100006100000, 1, 0x0, 1, 0x0, 0, 2, .hid, 0x0⟩
/-- R420: devices whose outcome is awaited -/
def BC_WAIT : Lay := ⟨0x100006200000, 1, 0x0, 1, 0x0, 0, 32, .hid, 0x0⟩
/-- R420: devices in the broadcast -/
def BC_LIVE : Lay := ⟨0x100006300000, 1, 0x0, 1, 0x0, 0, 32, .hid, 0x0⟩
/-- R420: next byte of the object to send -/
def BC_OFF : Lay := ⟨0x100006400000, 1, 0x0, 1, 0x0, 0, 37, .hid, 0x0⟩
/-- R402 [w]: blocks per lane since the last FILL column -/
def P_TXFILL : Lay := ⟨0x10000CA00000, 4, 0x4, 1, 0x0, 0, 16, .hid, 0x0⟩
/-- R402 [w]: blocks per lane since the last AM column -/
def P_TXAM : Lay := ⟨0x10000CB00000, 4, 0x4, 1, 0x0, 0, 16, .hid, 0x0⟩
/-- R400 [w, l]: state of the scrambler of a lane -/
def P_SCR : Lay := ⟨0x10000CC00000, 4, 0x10, 4, 0x4, 0, 58, .hid, 0x0⟩
/-- R400 [w, l]: the 66 bits that a lane has sent last -/
def P_OUT : Lay := ⟨0x10000CD00000, 4, 0x10, 4, 0x4, 0, 66, .hid, 0x0⟩
/-- R405 [w]: bits per lane left over from the last microsecond -/
def P_BITS : Lay := ⟨0x10000CE00000, 4, 0x4, 1, 0x0, 0, 8, .hid, 0x0⟩
/-- R409 [w, l]: the last 64 headers of a lane, 1 for an invalid one -/
def P_HEADS : Lay := ⟨0x10000CF00000, 4, 0x10, 4, 0x4, 0, 64, .hid, 0x0⟩
/-- R408 [w]: SEQ of the next message received -/
def P_RSEQ : Lay := ⟨0x10000D000000, 4, 0x4, 1, 0x0, 0, 16, .hid, 0x0⟩
/-- R407 [w]: CTL credits to return -/
def P_RETC : Lay := ⟨0x10000D100000, 4, 0x4, 1, 0x0, 0, 9, .hid, 0x0⟩
/-- R407 [w]: BCAST credits to return -/
def P_RETB : Lay := ⟨0x10000D200000, 4, 0x4, 1, 0x0, 0, 9, .hid, 0x0⟩
/-- R407 [w]: BCAST cells received and not passed on -/
def P_RBC : Lay := ⟨0x10000D300000, 4, 0x4, 1, 0x0, 0, 8, .hid, 0x0⟩
/-- R409 [w]: instant in ns at which RECOVER was entered -/
def P_RECOV_AT : Lay := ⟨0x10000D400000, 4, 0x4, 1, 0x0, 0, 64, .hid, 0x0⟩
/-- R425 [w]: MAXRATE as it stood at the bring-up -/
def P_MAXR : Lay := ⟨0x10000D500000, 4, 0x4, 1, 0x0, 0, 3, .hid, 0x4⟩
/-- R420: on a member, the object of a BC_SEAL that waits for its data, plus one -/
def BC_SEALQ : Lay := ⟨0x10000D600000, 1, 0x0, 1, 0x0, 0, 33, .hid, 0x0⟩
/-- Every field of the block, in the order of the spec. -/
def layout0 : List Lay :=
  [CASC, LOST, GFAIL, BC_BUSY, CAP_FULL, GSTOP, BC_GO, CAP_REL, CASC_EN, UP, DEGR, RECOV, TRAIN, UPSTREAM, PRBS_ERR, EN, RETRAIN, PRBS_EN, CTRL_MAXRATE, CTRL_REL_LEAD, CTRL_GF_STOP, CTRL_AUTOREJ, STAT_STATE, STAT_DEV, STAT_DEPTH, STAT_NDEV, CT_LO, CT_HI, PATHLAT, GF_SEQ]
def layout1 : List Lay :=
  [GS_SEQ, ERR_CAP_KIND, ERR_CAP_PORT, ERR_CAP_LANE, ERR_CAP_BAR, ERR_CAP_DEV, BAR_IADDR_INC, BAR_IADDR_ADDR, BC_OBJ, BC_MASK, BC_STAT_CODE, BC_DONE, BC_FAILM, ROST_PRES, ROST_LOSTD, ROST_DEPTH, ROST_VIA, P_STAT_RATE, P_STAT_LANES, P_STAT_PSTATE, P_STAT_PDEV, P_STAT_PPORT, P_PCAP, P_CRED, P_LAT, P_SHE, P_PRBS, P_CRCE, P_RETR, CT_OFS]
def layout2 : List Lay :=
  [ROST_LAT, P_CCTL, P_CBC, P_SEQ, P_DROPPED, CONTRIB, MYC, BC_PH, BC_WAIT, BC_LIVE, BC_OFF, P_TXFILL, P_TXAM, P_SCR, P_OUT, P_BITS, P_HEADS, P_RSEQ, P_RETC, P_RETB, P_RBC, P_RECOV_AT, P_MAXR, BC_SEALQ]
/-- Every field of the block. -/
def layout : List Lay := layout0 ++ layout1 ++ layout2
end TWD

namespace ETH
/-- R454: The PCS is in block lock -/
def LINK : Lay := ⟨0x33000000, 1, 0x0, 1, 0x0, 0, 1, .ro, 0x0⟩
/-- R454: No SFP+ module is present -/
def MOD_ABS : Lay := ⟨0x33000000, 1, 0x0, 1, 0x0, 1, 1, .ro, 0x1⟩
/-- R454: The module reports loss of signal -/
def LOS : Lay := ⟨0x33000000, 1, 0x0, 1, 0x0, 2, 1, .ro, 0x1⟩
/-- R454: A session is bound -/
def SESS : Lay := ⟨0x33000000, 1, 0x0, 1, 0x0, 3, 1, .ro, 0x0⟩
/-- R454: R433 -/
def PTP_LOCK : Lay := ⟨0x33000000, 1, 0x0, 1, 0x0, 4, 1, .ro, 0x0⟩
/-- R454: Only the requests of R444 are served -/
def SAFE_ONLY : Lay := ⟨0x33000000, 1, 0x0, 1, 0x0, 5, 1, .ro, 0x1⟩
/-- R454: Transmission is halted by a received PAUSE -/
def PAUSED : Lay := ⟨0x33000000, 1, 0x0, 1, 0x0, 6, 1, .ro, 0x0⟩
/-- R454: The port receives and transmits -/
def EN : Lay := ⟨0x33000000, 1, 0x0, 1, 0x0, 8, 1, .rw, 0x1⟩
/-- R454: PAUSE is sent and obeyed -/
def PAUSE_EN : Lay := ⟨0x33000000, 1, 0x0, 1, 0x0, 9, 1, .rw, 0x1⟩
/-- R454: The PTP clock runs -/
def PTP_EN : Lay := ⟨0x33000000, 1, 0x0, 1, 0x0, 10, 1, .rw, 0x0⟩
/-- R454: SLP consumes the re-upload list -/
def PZ_SLP : Lay := ⟨0x33000000, 1, 0x0, 1, 0x0, 11, 1, .rw, 0x0⟩
/-- R454: End the session -/
def SESS_END : Lay := ⟨0x33000000, 1, 0x0, 1, 0x0, 12, 1, .wt, 0x0⟩
/-- R454: Drives the module's TX_DISABLE -/
def TXDIS : Lay := ⟨0x33000000, 1, 0x0, 1, 0x0, 13, 1, .rw, 0x0⟩
/-- R454: Bit q: receive port q holds a message -/
def RX_NE : Lay := ⟨0x33000004, 1, 0x0, 1, 0x0, 0, 4, .ro, 0x0⟩
/-- R454: Bit 8 + q: send the words written to transmit port q -/
def TX_SEND : Lay := ⟨0x33000004, 1, 0x0, 1, 0x0, 8, 4, .wt, 0x0⟩
/-- R454: Bit 12 + q: discard the head message of receive port q -/
def RX_SKIP : Lay := ⟨0x33000004, 1, 0x0, 1, 0x0, 12, 4, .wt, 0x0⟩
/-- R455: MAC address bits 31:0 -/
def MAC_LO : Lay := ⟨0x33001000, 1, 0x0, 1, 0x0, 0, 32, .ro, 0x0⟩
/-- R455: MAC address bits 47:32; bits 31:16 RSV -/
def MAC_HI : Lay := ⟨0x33001004, 1, 0x0, 1, 0x0, 0, 16, .ro, 0x0⟩
/-- R455: IPv4 address; 0: none -/
def IPV4 : Lay := ⟨0x33001008, 1, 0x0, 1, 0x0, 0, 32, .rw, 0x0⟩
/-- R455: ETH_VLAN: VLAN ID -/
def VLAN_VID : Lay := ⟨0x3300100C, 1, 0x0, 1, 0x0, 0, 12, .rw, 0x0⟩
/-- R455: Tagged operation -/
def VLAN_EN : Lay := ⟨0x3300100C, 1, 0x0, 1, 0x0, 12, 1, .rw, 0x0⟩
/-- R455: Priority of transmitted frames; bits 31:16 RSV -/
def VLAN_PCP : Lay := ⟨0x3300100C, 1, 0x0, 1, 0x0, 13, 3, .rw, 0x0⟩
/-- R455 [k]: Global address, k = 0 holding bits 127:96; all zero: none -/
def IPV6 : Lay := ⟨0x33001010, 4, 0x4, 1, 0x0, 0, 32, .rw, 0x0⟩
/-- R455: UDP port of SLP (45,120); bits 31:16 RSV -/
def SLP_PORT : Lay := ⟨0x33001020, 1, 0x0, 1, 0x0, 0, 16, .rw, 0xB040⟩
/-- R455: ETH_PTP_CFG: PTP domain number; bits 31:8 RSV -/
def PTP_CFG_DOMAIN : Lay := ⟨0x33001024, 1, 0x0, 1, 0x0, 0, 8, .rw, 0x0⟩
/-- R455: Session timeout in ms; 0 is treated as 1 -/
def SESS_TO : Lay := ⟨0x33001028, 1, 0x0, 1, 0x0, 0, 32, .rw, 0x2710⟩
/-- R455: Initial retransmission timeout in µs; 0 is treated as 1; bits 31:16 RSV -/
def RTO : Lay := ⟨0x3300102C, 1, 0x0, 1, 0x0, 0, 16, .rw, 0x7D0⟩
/-- R455: Bit s: SLP consumes the ring of site s, s < 32 -/
def REC_SITES_LO : Lay := ⟨0x33001030, 1, 0x0, 1, 0x0, 0, 32, .rw, 0x0⟩
/-- R455: Bit s − 32, for s ≥ 32 -/
def REC_SITES_HI : Lay := ⟨0x33001034, 1, 0x0, 1, 0x0, 0, 32, .rw, 0x0⟩
/-- R455: Bound session ID; 0: none -/
def SESSION : Lay := ⟨0x33001038, 1, 0x0, 1, 0x0, 0, 32, .ro, 0x0⟩
/-- R455: Last measured offset from the PTP master, signed ns -/
def PTP_OFS : Lay := ⟨0x3300103C, 1, 0x0, 1, 0x0, 0, 32, .ro, 0x0⟩
/-- R455: Frames received -/
def RX_FRAMES : Lay := ⟨0x33001050, 1, 0x0, 1, 0x0, 0, 32, .ro, 0x0⟩
/-- R455: Frames discarded (R434, R435) -/
def RX_DROP : Lay := ⟨0x33001054, 1, 0x0, 1, 0x0, 0, 32, .ro, 0x0⟩
/-- R455: Frames with a bad FCS -/
def RX_FCS : Lay := ⟨0x33001058, 1, 0x0, 1, 0x0, 0, 32, .ro, 0x0⟩
/-- R455: Frames sent -/
def TX_FRAMES : Lay := ⟨0x3300105C, 1, 0x0, 1, 0x0, 0, 32, .ro, 0x0⟩
/-- R455: SLP frames sent again -/
def RETX : Lay := ⟨0x33001060, 1, 0x0, 1, 0x0, 0, 32, .ro, 0x0⟩
/-- R455 [q]: Receive port q, q = 0–3; a read consumes (R453) -/
def RX_D : Lay := ⟨0x33001100, 4, 0x10, 1, 0x0, 0, 32, .ro, 0x0⟩
/-- R455 [q]: Bytes of the head message; bits 31:15 RSV -/
def RX_LEN : Lay := ⟨0x33001104, 4, 0x10, 1, 0x0, 0, 15, .ro, 0x0⟩
/-- R455 [q]: Transmit port q -/
def TX_D : Lay := ⟨0x33001108, 4, 0x10, 1, 0x0, 0, 32, .wo, 0x0⟩
/-- R455 [q]: Bytes free in transmit port q; bits 31:17 RSV -/
def TX_ROOM : Lay := ⟨0x3300110C, 4, 0x10, 1, 0x0, 0, 17, .ro, 0x10000⟩
/-- R438 [n]: SEQ of the next new frame of a stream -/
def TX_SEQ : Lay := ⟨0x100007D00000, 16, 0x4, 1, 0x0, 0, 32, .hid, 0x0⟩
/-- R440 [n]: next SEQ expected of a stream: ACK -/
def RX_NEXT : Lay := ⟨0x100007E00000, 16, 0x4, 1, 0x0, 0, 32, .hid, 0x0⟩
/-- R440 [n]: WIN as last advertised for a stream -/
def RX_WIN : Lay := ⟨0x100007F00000, 16, 0x4, 1, 0x0, 0, 13, .hid, 0x0⟩
/-- R441 [n]: ACK as the host last gave it for a stream -/
def PEER_ACK : Lay := ⟨0x100008000000, 16, 0x4, 1, 0x0, 0, 32, .hid, 0x0⟩
/-- R441 [n]: WIN as the host last gave it for a stream -/
def PEER_WIN : Lay := ⟨0x100008100000, 16, 0x4, 1, 0x0, 0, 13, .hid, 0x0⟩
/-- R441 [n]: frames received on a stream and not acknowledged -/
def OWED : Lay := ⟨0x100008200000, 16, 0x4, 1, 0x0, 0, 5, .hid, 0x0⟩
/-- R442: largest payload of the session -/
def MAXPAY : Lay := ⟨0x100008300000, 1, 0x0, 1, 0x0, 0, 14, .hid, 0x0⟩
/-- R432: MAC address of the session's peer -/
def PEER_MAC : Lay := ⟨0x100008400000, 1, 0x0, 1, 0x0, 0, 48, .hid, 0x0⟩
/-- R432: IP address of the peer -/
def PEER_IP : Lay := ⟨0x100008500000, 1, 0x0, 1, 0x0, 0, 128, .hid, 0x0⟩
/-- R432: the peer uses IPv6 -/
def PEER_V6 : Lay := ⟨0x100008600000, 1, 0x0, 1, 0x0, 0, 1, .hid, 0x0⟩
/-- R432: UDP port of the peer -/
def PEER_PORT : Lay := ⟨0x100008700000, 1, 0x0, 1, 0x0, 0, 16, .hid, 0x0⟩
/-- R434: bytes in the MAC receive buffer -/
def RX_FILL : Lay := ⟨0x100008800000, 1, 0x0, 1, 0x0, 0, 19, .hid, 0x0⟩
/-- R434: the last PAUSE sent asked the partner to stop -/
def TX_PAUSE : Lay := ⟨0x100008900000, 1, 0x0, 1, 0x0, 0, 1, .hid, 0x0⟩
/-- R433: data set of the best master, plus one; 0 none -/
def PTP_BEST : Lay := ⟨0x100008A00000, 1, 0x0, 1, 0x0, 0, 128, .hid, 0x0⟩
/-- R433: currentUtcOffset of the best master -/
def PTP_UTC : Lay := ⟨0x100008B00000, 1, 0x0, 1, 0x0, 0, 16, .hid, 0x0⟩
/-- R433: consecutive Sync intervals within 1 us, at most 16 -/
def PTP_CNT : Lay := ⟨0x100008C00000, 1, 0x0, 1, 0x0, 0, 5, .hid, 0x0⟩
/-- R450: a READ is in progress -/
def RD_OPEN : Lay := ⟨0x100008D00000, 1, 0x0, 1, 0x0, 0, 1, .hid, 0x0⟩
/-- R450: TAG of the READ -/
def RD_TAG : Lay := ⟨0x100008E00000, 1, 0x0, 1, 0x0, 0, 32, .hid, 0x0⟩
/-- R450: allocation of the READ -/
def RD_ID : Lay := ⟨0x100008F00000, 1, 0x0, 1, 0x0, 0, 32, .hid, 0x0⟩
/-- R450: next byte to send -/
def RD_POS : Lay := ⟨0x100009000000, 1, 0x0, 1, 0x0, 0, 37, .hid, 0x0⟩
/-- R450: byte at which the READ ends -/
def RD_END : Lay := ⟨0x100009100000, 1, 0x0, 1, 0x0, 0, 37, .hid, 0x0⟩
/-- R450: offset of the first poisoned line plus one, 0 none -/
def RD_POIS : Lay := ⟨0x100009200000, 1, 0x0, 1, 0x0, 0, 38, .hid, 0x0⟩
/-- R450: the allocation was READY when the READ began -/
def RD_LIVE : Lay := ⟨0x100009300000, 1, 0x0, 1, 0x0, 0, 1, .hid, 0x0⟩
/-- R448: a flash update is open -/
def FL_OPEN : Lay := ⟨0x100009400000, 1, 0x0, 1, 0x0, 0, 1, .hid, 0x0⟩
/-- R448: its slot -/
def FL_SLOT : Lay := ⟨0x100009500000, 1, 0x0, 1, 0x0, 0, 2, .hid, 0x0⟩
/-- R448: its size -/
def FL_SIZE : Lay := ⟨0x100009600000, 1, 0x0, 1, 0x0, 0, 32, .hid, 0x0⟩
/-- R448: bytes written so far -/
def FL_POS : Lay := ⟨0x100009700000, 1, 0x0, 1, 0x0, 0, 32, .hid, 0x0⟩
/-- R448: a page of the open flash update failed to program -/
def FL_BAD : Lay := ⟨0x10000A600000, 1, 0x0, 1, 0x0, 0, 1, .hid, 0x0⟩
/-- R440 [n]: ACK as last advertised for a stream -/
def ADV_ACK : Lay := ⟨0x10000D700000, 16, 0x4, 1, 0x0, 0, 32, .hid, 0x0⟩
/-- R439: time at which the last frame of the peer arrived, ns -/
def LAST_RX : Lay := ⟨0x10000D800000, 1, 0x0, 1, 0x0, 0, 64, .hid, 0x0⟩
/-- R434: time at which a received PAUSE runs out, ns -/
def PAUSE_END : Lay := ⟨0x10000D900000, 1, 0x0, 1, 0x0, 0, 64, .hid, 0x0⟩
/-- R442, R536 [k]: entries answered of the request in progress, k = 0 CSR, 1 debug -/
def ANS_N : Lay := ⟨0x10000DA00000, 2, 0x4, 1, 0x0, 0, 10, .hid, 0x0⟩
/-- R450: lines of the next READ_DATA frame that LOAD turns have read -/
def RD_CRED : Lay := ⟨0x10000DB00000, 1, 0x0, 1, 0x0, 0, 8, .hid, 0x0⟩
/-- Every field of the block, in the order of the spec. -/
def layout0 : List Lay :=
  [LINK, MOD_ABS, LOS, SESS, PTP_LOCK, SAFE_ONLY, PAUSED, EN, PAUSE_EN, PTP_EN, PZ_SLP, SESS_END, TXDIS, RX_NE, TX_SEND, RX_SKIP, MAC_LO, MAC_HI, IPV4, VLAN_VID, VLAN_EN, VLAN_PCP, IPV6, SLP_PORT, PTP_CFG_DOMAIN, SESS_TO, RTO, REC_SITES_LO, REC_SITES_HI, SESSION]
def layout1 : List Lay :=
  [PTP_OFS, RX_FRAMES, RX_DROP, RX_FCS, TX_FRAMES, RETX, RX_D, RX_LEN, TX_D, TX_ROOM, TX_SEQ, RX_NEXT, RX_WIN, PEER_ACK, PEER_WIN, OWED, MAXPAY, PEER_MAC, PEER_IP, PEER_V6, PEER_PORT, RX_FILL, TX_PAUSE, PTP_BEST, PTP_UTC, PTP_CNT, RD_OPEN, RD_TAG, RD_ID, RD_POS]
def layout2 : List Lay :=
  [RD_END, RD_POIS, RD_LIVE, FL_OPEN, FL_SLOT, FL_SIZE, FL_POS, FL_BAD, ADV_ACK, LAST_RX, PAUSE_END, ANS_N, RD_CRED]
/-- Every field of the block. -/
def layout : List Lay := layout0 ++ layout1 ++ layout2
end ETH

namespace CLK
/-- R473: REFCLK is present (R463) -/
def REF_OK : Lay := ⟨0x11000000, 1, 0x0, 1, 0x0, 0, 1, .ro, 0x0⟩
/-- R473: TREF is present -/
def TREF_OK : Lay := ⟨0x11000000, 1, 0x0, 1, 0x0, 1, 1, .ro, 0x0⟩
/-- R473: XTAL32 is present -/
def XTAL_OK : Lay := ⟨0x11000000, 1, 0x0, 1, 0x0, 2, 1, .ro, 0x0⟩
/-- R473: IOSC is proven (R464) -/
def IOSC_OK : Lay := ⟨0x11000000, 1, 0x0, 1, 0x0, 3, 1, .ro, 0x0⟩
/-- R473: The REFCLK islands run from IOSC -/
def FALLBACK : Lay := ⟨0x11000000, 1, 0x0, 1, 0x0, 4, 1, .ro, 0x0⟩
/-- R473: REFCLK is lost and IOSC is not proven (R467) -/
def WAITREF : Lay := ⟨0x11000000, 1, 0x0, 1, 0x0, 5, 1, .ro, 0x0⟩
/-- R473: CLK_FORCED_CAP holds a forced switch -/
def FORCED : Lay := ⟨0x11000000, 1, 0x0, 1, 0x0, 6, 1, .ro, 0x0⟩
/-- R473: CLK_LOSS_CAP holds a loss -/
def LOSS_FULL : Lay := ⟨0x11000000, 1, 0x0, 1, 0x0, 7, 1, .ro, 0x0⟩
/-- R473: Start a measurement -/
def FM_GO : Lay := ⟨0x11000000, 1, 0x0, 1, 0x0, 8, 1, .wt, 0x0⟩
/-- R473: Empty CLK_FORCED_CAP -/
def FORCED_REL : Lay := ⟨0x11000000, 1, 0x0, 1, 0x0, 9, 1, .wt, 0x0⟩
/-- R473: Empty CLK_LOSS_CAP -/
def LOSS_REL : Lay := ⟨0x11000000, 1, 0x0, 1, 0x0, 10, 1, .wt, 0x0⟩
/-- R473: A measurement is running -/
def FM_BUSY : Lay := ⟨0x11000000, 1, 0x0, 1, 0x0, 11, 1, .ro, 0x0⟩
/-- R473: Locked: bit 0 CP, bit 1 SHM, bit 2 SEQ, bit 3 MEM, bit 4 NET -/
def LK : Lay := ⟨0x11000008, 1, 0x0, 1, 0x0, 0, 5, .ro, 0x0⟩
/-- R473: Bit 8 + n: MFPn PLL locked -/
def LK_MFP : Lay := ⟨0x11000008, 1, 0x0, 1, 0x0, 8, 8, .ro, 0x0⟩
/-- R473: Bit 16 + n: DCn PLL locked -/
def LK_DC : Lay := ⟨0x11000008, 1, 0x0, 1, 0x0, 16, 12, .ro, 0x0⟩
/-- R473: Bit n: TMn PLL locked -/
def LK_TM : Lay := ⟨0x1100000C, 1, 0x0, 1, 0x0, 0, 4, .ro, 0x0⟩
/-- R473: Bit 4 + w: Tweed Ww transmit PLL locked -/
def LK_TW : Lay := ⟨0x1100000C, 1, 0x0, 1, 0x0, 4, 4, .ro, 0x0⟩
/-- R473: Bit 8 + k: fabric PLL k locked -/
def LK_FAB : Lay := ⟨0x1100000C, 1, 0x0, 1, 0x0, 8, 8, .ro, 0x0⟩
/-- R474 [n]: CLK_MFPn, n = 0–7: multiplier (R461); bits 31:5 RSV -/
def MFP_MULT : Lay := ⟨0x11001000, 8, 0x4, 1, 0x0, 0, 5, .rw, 0xC⟩
/-- R474: CLK_FM_CFG: measured clock code -/
def FM_CFG_MEAS : Lay := ⟨0x11001020, 1, 0x0, 1, 0x0, 0, 7, .rw, 0x0⟩
/-- R474: Reference clock code -/
def FM_CFG_REF : Lay := ⟨0x11001020, 1, 0x0, 1, 0x0, 8, 7, .rw, 0x3⟩
/-- R474: Gate in REF cycles; 0 is treated as 1 -/
def FM_CFG_GATE : Lay := ⟨0x11001020, 1, 0x0, 1, 0x0, 16, 16, .rw, 0x400⟩
/-- R474: Count of the last measurement; saturating -/
def FM_CNT : Lay := ⟨0x11001024, 1, 0x0, 1, 0x0, 0, 32, .ro, 0x0⟩
/-- R474: CLK_LOSS_CAP: 0 REFCLK; 1 TREF; 2 XTAL32; bits 31:2 RSV -/
def LOSS_CAP_REF : Lay := ⟨0x11001028, 1, 0x0, 1, 0x0, 0, 2, .ro, 0x0⟩
/-- R474: CLK_FORCED_CAP: island clock code (R471); bits 31:7 RSV -/
def FORCED_CAP_CODE : Lay := ⟨0x1100102C, 1, 0x0, 1, 0x0, 0, 7, .ro, 0x0⟩
/-- R474: IOSC cycles in the last 64 XTAL32 periods -/
def IOSC_CNT : Lay := ⟨0x11001030, 1, 0x0, 1, 0x0, 0, 32, .ro, 0x0⟩
/-- R472: CLK_EN: the peripheral clock enables -/
def EN : Lay := ⟨0x11000010, 1, 0x0, 1, 0x0, 0, 29, .rw, 0x0⟩
/-- R472: a 0 written to the TWL clock enable waits for every sequencer to be IDLE -/
def TWL_OFF : Lay := ⟨0x100003B00000, 1, 0x0, 1, 0x0, 0, 1, .hid, 0x0⟩
/-- R466: the REFCLK islands are going over to IOSC -/
def FB_PEND : Lay := ⟨0x100006500000, 1, 0x0, 1, 0x0, 0, 1, .hid, 0x0⟩
/-- R468: the REFCLK islands are going back to REFCLK -/
def RET_PEND : Lay := ⟨0x100006600000, 1, 0x0, 1, 0x0, 0, 1, .hid, 0x0⟩
/-- Every field of the block, in the order of the spec. -/
def layout0 : List Lay :=
  [REF_OK, TREF_OK, XTAL_OK, IOSC_OK, FALLBACK, WAITREF, FORCED, LOSS_FULL, FM_GO, FORCED_REL, LOSS_REL, FM_BUSY, LK, LK_MFP, LK_DC, LK_TM, LK_TW, LK_FAB, MFP_MULT, FM_CFG_MEAS, FM_CFG_REF, FM_CFG_GATE, FM_CNT, LOSS_CAP_REF, FORCED_CAP_CODE, IOSC_CNT, EN, TWL_OFF, FB_PEND, RET_PEND]
/-- Every field of the block. -/
def layout : List Lay := layout0
end CLK

namespace PWR
/-- R484: Standby entry is in progress -/
def STBY_PEND : Lay := ⟨0x11100000, 1, 0x0, 1, 0x0, 0, 1, .ro, 0x0⟩
/-- R484: The Canvas retention supply held through the last standby -/
def RET_OK : Lay := ⟨0x11100000, 1, 0x0, 1, 0x0, 1, 1, .ro, 0x1⟩
/-- R484: R478 -/
def TWARN : Lay := ⟨0x11100000, 1, 0x0, 1, 0x0, 2, 1, .ro, 0x0⟩
/-- R484: PWR_TCAP holds a sensor -/
def TCRIT_HIT : Lay := ⟨0x11100000, 1, 0x0, 1, 0x0, 3, 1, .ro, 0x0⟩
/-- R484: R476 -/
def RAIL_ALM : Lay := ⟨0x11100000, 1, 0x0, 1, 0x0, 4, 1, .ro, 0x0⟩
/-- R484: PWR_RAIL_CAP holds an alarm -/
def RAIL_FULL : Lay := ⟨0x11100000, 1, 0x0, 1, 0x0, 5, 1, .ro, 0x0⟩
/-- R484: VBAT is below the level that keeps the RTC -/
def VBAT_LOW : Lay := ⟨0x11100000, 1, 0x0, 1, 0x0, 6, 1, .ro, 0x0⟩
/-- R484: A standby request was refused (R480) -/
def STBY_REFUSED : Lay := ⟨0x11100000, 1, 0x0, 1, 0x0, 7, 1, .ro, 0x0⟩
/-- R484: Enter standby (R479) -/
def STBY_GO : Lay := ⟨0x11100000, 1, 0x0, 1, 0x0, 8, 1, .wt, 0x0⟩
/-- R484: Empty PWR_TCAP -/
def TCRIT_REL : Lay := ⟨0x11100000, 1, 0x0, 1, 0x0, 9, 1, .wt, 0x0⟩
/-- R484: Empty PWR_RAIL_CAP -/
def RAIL_REL : Lay := ⟨0x11100000, 1, 0x0, 1, 0x0, 10, 1, .wt, 0x0⟩
/-- R484: WAKE_N is a wake source -/
def WAKEN_EN : Lay := ⟨0x11100000, 1, 0x0, 1, 0x0, 11, 1, .rw, 0x1⟩
/-- R484: The RTC alarm is a wake source -/
def ALARM_EN : Lay := ⟨0x11100000, 1, 0x0, 1, 0x0, 12, 1, .rw, 0x0⟩
/-- R484: Empty the STBY_REFUSED capture -/
def STBY_REF_REL : Lay := ⟨0x11100000, 1, 0x0, 1, 0x0, 13, 1, .wt, 0x0⟩
/-- R485 [k]: PWR_RAILk, k = 0–19: voltage in mV; bits 31:16 RSV -/
def RAIL_V : Lay := ⟨0x11101000, 20, 0x10, 1, 0x0, 0, 16, .ro, 0x0⟩
/-- R485 [k]: Current, code × 10 mA; bits 31:16 RSV -/
def RAIL_I : Lay := ⟨0x11101004, 20, 0x10, 1, 0x0, 0, 16, .ro, 0x0⟩
/-- R485 [k]: Power, code × 10 mW; bits 31:24 RSV -/
def RAIL_P : Lay := ⟨0x11101008, 20, 0x10, 1, 0x0, 0, 24, .ro, 0x0⟩
/-- R485 [k]: threshold of rails from 0 on, mV (R558) -/
def RAIL_LO_0 : Lay := ⟨0x1110100C, 2, 0x10, 1, 0x0, 0, 16, .rw, 0x2D5⟩
/-- R485: threshold of rails from 2 on, mV (R558) -/
def RAIL_LO_2 : Lay := ⟨0x1110102C, 1, 0x0, 1, 0x0, 0, 16, .rw, 0x339⟩
/-- R485 [k]: threshold of rails from 3 on, mV (R558) -/
def RAIL_LO_3 : Lay := ⟨0x1110103C, 2, 0x10, 1, 0x0, 0, 16, .rw, 0x42B⟩
/-- R485: threshold of rails from 5 on, mV (R558) -/
def RAIL_LO_5 : Lay := ⟨0x1110105C, 1, 0x0, 1, 0x0, 0, 16, .rw, 0x369⟩
/-- R485 [k]: threshold of rails from 6 on, mV (R558) -/
def RAIL_LO_6 : Lay := ⟨0x1110106C, 2, 0x10, 1, 0x0, 0, 16, .rw, 0x6AE⟩
/-- R485 [k]: threshold of rails from 8 on, mV (R558) -/
def RAIL_LO_8 : Lay := ⟨0x1110108C, 4, 0x10, 1, 0x0, 0, 16, .rw, 0x16BC⟩
/-- R485 [k]: threshold of rails from 12 on, mV (R558) -/
def RAIL_LO_12 : Lay := ⟨0x111010CC, 4, 0x10, 1, 0x0, 0, 16, .rw, 0xF3EE⟩
/-- R485 [k]: threshold of rails from 16 on, mV (R558) -/
def RAIL_LO_16 : Lay := ⟨0x1110110C, 4, 0x10, 1, 0x0, 0, 16, .rw, 0x369⟩
/-- R485 [k]: threshold of rails from 0 on, mV (R558) -/
def RAIL_HI_0 : Lay := ⟨0x1110100C, 2, 0x10, 1, 0x0, 16, 16, .rw, 0x307⟩
/-- R485: threshold of rails from 2 on, mV (R558) -/
def RAIL_HI_2 : Lay := ⟨0x1110102C, 1, 0x0, 1, 0x0, 16, 16, .rw, 0x36B⟩
/-- R485 [k]: threshold of rails from 3 on, mV (R558) -/
def RAIL_HI_3 : Lay := ⟨0x1110103C, 2, 0x10, 1, 0x0, 16, 16, .rw, 0x46D⟩
/-- R485: threshold of rails from 5 on, mV (R558) -/
def RAIL_HI_5 : Lay := ⟨0x1110105C, 1, 0x0, 1, 0x0, 16, 16, .rw, 0x39F⟩
/-- R485 [k]: threshold of rails from 6 on, mV (R558) -/
def RAIL_HI_6 : Lay := ⟨0x1110106C, 2, 0x10, 1, 0x0, 16, 16, .rw, 0x762⟩
/-- R485 [k]: threshold of rails from 8 on, mV (R558) -/
def RAIL_HI_8 : Lay := ⟨0x1110108C, 4, 0x10, 1, 0x0, 16, 16, .rw, 0x1824⟩
/-- R485 [k]: threshold of rails from 12 on, mV (R558) -/
def RAIL_HI_12 : Lay := ⟨0x111010CC, 4, 0x10, 1, 0x0, 16, 16, .rw, 0xF4A2⟩
/-- R485 [k]: threshold of rails from 16 on, mV (R558) -/
def RAIL_HI_16 : Lay := ⟨0x1110110C, 4, 0x10, 1, 0x0, 16, 16, .rw, 0x39F⟩
/-- R485 [s]: Sensor s = 0–11, signed, 0.125 °C; bits 31:12 RSV -/
def TEMP : Lay := ⟨0x11101200, 12, 0x4, 1, 0x0, 0, 12, .ro, 0x0⟩
/-- R485: PWR_TLIM: warning level, signed °C (105 °C) -/
def TLIM_TWARN : Lay := ⟨0x11101240, 1, 0x0, 1, 0x0, 0, 8, .rw, 0x69⟩
/-- R485: Critical level, signed °C (120 °C) -/
def TLIM_TCRIT : Lay := ⟨0x11101240, 1, 0x0, 1, 0x0, 8, 8, .rw, 0x78⟩
/-- R485: PWR_TCAP: first sensor at TCRIT; bits 31:4 RSV -/
def TCAP_SENS : Lay := ⟨0x11101244, 1, 0x0, 1, 0x0, 0, 4, .ro, 0x0⟩
/-- R485: PWR_RAIL_CAP: first rail in alarm -/
def RAIL_CAP_RAIL : Lay := ⟨0x11101248, 1, 0x0, 1, 0x0, 0, 5, .ro, 0x0⟩
/-- R485: 1: above HI; 0: below LO -/
def RAIL_CAP_OVER : Lay := ⟨0x11101248, 1, 0x0, 1, 0x0, 8, 1, .ro, 0x0⟩
/-- R485: RTC alarm, seconds bits 31:0 -/
def WAKE_AT_LO : Lay := ⟨0x11101250, 1, 0x0, 1, 0x0, 0, 32, .rw, 0x0⟩
/-- R485: Bits 47:32; bits 31:16 RSV -/
def WAKE_AT_HI : Lay := ⟨0x11101254, 1, 0x0, 1, 0x0, 0, 16, .rw, 0x0⟩
/-- R485: 0 none; 1 WAKE_N; 2 RTC alarm; bits 31:2 RSV -/
def WAKE_SRC : Lay := ⟨0x11101258, 1, 0x0, 1, 0x0, 0, 2, .ro, 0x0⟩
/-- R475: bit k: rail k has been averaged since its start -/
def SEEN : Lay := ⟨0x100006700000, 1, 0x0, 1, 0x0, 0, 20, .hid, 0x0⟩
/-- R478: sensors whose last reading was at TCRIT or more -/
def SCRIT : Lay := ⟨0x100006800000, 1, 0x0, 1, 0x0, 0, 12, .hid, 0x0⟩
/-- R394: a standby request waits for the end of a load: 1 by STBY_GO, 2 by SLP; 3 a shutdown reques -/
def STBY_HELD : Lay := ⟨0x100006900000, 1, 0x0, 1, 0x0, 0, 2, .hid, 0x0⟩
/-- R479: the device is in standby -/
def STBY : Lay := ⟨0x100006A00000, 1, 0x0, 1, 0x0, 0, 1, .hid, 0x0⟩
/-- R560: PS_EN_MAIN is driven high -/
def EN_MAIN : Lay := ⟨0x100006B00000, 1, 0x0, 1, 0x0, 0, 1, .hid, 0x1⟩
/-- R483: a wake waits for PS_PG -/
def WAKING : Lay := ⟨0x100006C00000, 1, 0x0, 1, 0x0, 0, 1, .hid, 0x0⟩
/-- R482: wake source that arrived during entry -/
def WAKE_PEND : Lay := ⟨0x100006D00000, 1, 0x0, 1, 0x0, 0, 2, .hid, 0x0⟩
/-- R560: VAON is within its range -/
def VAON : Lay := ⟨0x100006E00000, 1, 0x0, 1, 0x0, 0, 1, .hid, 0x1⟩
/-- R476: the logic die is held in reset until its next start, a cold one -/
def DIE_OFF : Lay := ⟨0x100006F00000, 1, 0x0, 1, 0x0, 0, 1, .hid, 0x0⟩
/-- R284: the metadata was not saved, so that the next start is cold -/
def COLD_NEXT : Lay := ⟨0x100007000000, 1, 0x0, 1, 0x0, 0, 1, .hid, 0x0⟩
/-- Every field of the block, in the order of the spec. -/
def layout0 : List Lay :=
  [STBY_PEND, RET_OK, TWARN, TCRIT_HIT, RAIL_ALM, RAIL_FULL, VBAT_LOW, STBY_REFUSED, STBY_GO, TCRIT_REL, RAIL_REL, WAKEN_EN, ALARM_EN, STBY_REF_REL, RAIL_V, RAIL_I, RAIL_P, RAIL_LO_0, RAIL_LO_2, RAIL_LO_3, RAIL_LO_5, RAIL_LO_6, RAIL_LO_8, RAIL_LO_12, RAIL_LO_16, RAIL_HI_0, RAIL_HI_2, RAIL_HI_3, RAIL_HI_5, RAIL_HI_6]
def layout1 : List Lay :=
  [RAIL_HI_8, RAIL_HI_12, RAIL_HI_16, TEMP, TLIM_TWARN, TLIM_TCRIT, TCAP_SENS, RAIL_CAP_RAIL, RAIL_CAP_OVER, WAKE_AT_LO, WAKE_AT_HI, WAKE_SRC, SEEN, SCRIT, STBY_HELD, STBY, EN_MAIN, WAKING, WAKE_PEND, VAON, DIE_OFF, COLD_NEXT]
/-- Every field of the block. -/
def layout : List Lay := layout0 ++ layout1
end PWR

namespace EVT
/-- R501: At least one source is storm-masked -/
def STORM : Lay := ⟨0x12000000, 1, 0x0, 1, 0x0, 0, 1, .ro, 0x0⟩
/-- R501: EVT_STORM_CAP holds a source -/
def STORM_FULL : Lay := ⟨0x12000000, 1, 0x0, 1, 0x0, 1, 1, .ro, 0x0⟩
/-- R501: Empty EVT_STORM_CAP -/
def STORM_REL : Lay := ⟨0x12000000, 1, 0x0, 1, 0x0, 8, 1, .wt, 0x0⟩
/-- R501: Bit k: filtered EVINk is high -/
def IN_LVL : Lay := ⟨0x12000004, 1, 0x0, 1, 0x0, 0, 8, .ro, 0x0⟩
/-- R501: Bit k: EV(1632 + k) follows filtered EVINk -/
def PINSEL : Lay := ⟨0x12000008, 1, 0x0, 1, 0x0, 0, 8, .rw, 0x0⟩
/-- R501: Bit k: EVINk is inverted before its filter -/
def INV : Lay := ⟨0x1200000C, 1, 0x0, 1, 0x0, 0, 8, .rw, 0x0⟩
/-- R501: Bit m: MFPm holds an entry; bit 8 Canvas; bit 9 SLP -/
def PEND : Lay := ⟨0x12000010, 1, 0x0, 1, 0x0, 0, 10, .ro, 0x0⟩
/-- R502: Device timestamp bits 31:0; a read latches bits 63:32 -/
def TIME_LO : Lay := ⟨0x12001000, 1, 0x0, 1, 0x0, 0, 32, .ro, 0x0⟩
/-- R502: Bits 63:32 as latched -/
def TIME_HI : Lay := ⟨0x12001004, 1, 0x0, 1, 0x0, 0, 32, .ro, 0x0⟩
/-- R502: R39: each IDATA access adds one to ADDR -/
def SRC_IADDR_INC : Lay := ⟨0x12001010, 1, 0x0, 1, 0x0, 31, 1, .rw, 0x1⟩
/-- R502: R39: word index into the table -/
def SRC_IADDR_ADDR : Lay := ⟨0x12001010, 1, 0x0, 1, 0x0, 0, 28, .rw, 0x0⟩
/-- R502: EVT_UNMASK: source to unmask (R498); bits 31:11 RSV -/
def UNMASK_SRC : Lay := ⟨0x12001018, 1, 0x0, 1, 0x0, 0, 11, .wo, 0x0⟩
/-- R502: EVT_STORM_CAP: first masked source -/
def STORM_CAP_SRC : Lay := ⟨0x1200101C, 1, 0x0, 1, 0x0, 0, 11, .ro, 0x0⟩
/-- R502: 0 stuck; 1 rate -/
def STORM_CAP_KIND : Lay := ⟨0x1200101C, 1, 0x0, 1, 0x0, 16, 1, .ro, 0x0⟩
/-- R502 [k]: k = 0–7: filtered rising edges since start; wraps -/
def IN_CNT : Lay := ⟨0x12001020, 8, 0x4, 1, 0x0, 0, 32, .ro, 0x0⟩
/-- R502 [m]: m = 0–7: head entry; a read consumes it (R494) -/
def M_NEXT : Lay := ⟨0x12002000, 8, 0x10, 1, 0x0, 0, 32, .ro, 0xFFFFFFFF⟩
/-- R502 [m]: Timestamp of the head entry, bits 31:0 -/
def M_TS_LO : Lay := ⟨0x12002004, 8, 0x10, 1, 0x0, 0, 32, .ro, 0x0⟩
/-- R502 [m]: Bits 63:32 -/
def M_TS_HI : Lay := ⟨0x12002008, 8, 0x10, 1, 0x0, 0, 32, .ro, 0x0⟩
/-- R502 [m]: EVT_Mm_FILL: entries held for MFPm; bits 31:11 RSV -/
def M_FILL : Lay := ⟨0x1200200C, 8, 0x10, 1, 0x0, 0, 11, .ro, 0x0⟩
/-- R499 [k]: consecutive samples of EVINk that differ from its filtered level, at most 3 -/
def IN_RUN : Lay := ⟨0x10000DC00000, 8, 0x4, 1, 0x0, 0, 2, .hid, 0x0⟩
/-- R499 [k]: samples for which the filtered level of EVINk is still held -/
def IN_HOLD : Lay := ⟨0x10000DD00000, 8, 0x4, 1, 0x0, 0, 3, .hid, 0x0⟩
/-- Every field of the block, in the order of the spec. -/
def layout0 : List Lay :=
  [STORM, STORM_FULL, STORM_REL, IN_LVL, PINSEL, INV, PEND, TIME_LO, TIME_HI, SRC_IADDR_INC, SRC_IADDR_ADDR, UNMASK_SRC, STORM_CAP_SRC, STORM_CAP_KIND, IN_CNT, M_NEXT, M_TS_LO, M_TS_HI, M_FILL, IN_RUN, IN_HOLD]
/-- Every field of the block. -/
def layout : List Lay := layout0
end EVT

namespace LDG
/-- R524: The SRAM holds the ledger (R517) -/
def VALID : Lay := ⟨0x15000000, 1, 0x0, 1, 0x0, 0, 1, .ro, 0x0⟩
/-- R524: A flush is in progress -/
def FLUSH_BUSY : Lay := ⟨0x15000000, 1, 0x0, 1, 0x0, 1, 1, .ro, 0x0⟩
/-- R524: The last flush failed -/
def FLUSH_ERR : Lay := ⟨0x15000000, 1, 0x0, 1, 0x0, 2, 1, .ro, 0x0⟩
/-- R524: R513 -/
def RTC_VALID : Lay := ⟨0x15000000, 1, 0x0, 1, 0x0, 3, 1, .ro, 0x0⟩
/-- R524: The RTC counts from IOSC -/
def RTC_DRIFT : Lay := ⟨0x15000000, 1, 0x0, 1, 0x0, 4, 1, .ro, 0x0⟩
/-- R524: No valid block was found at the last restore -/
def FRESH : Lay := ⟨0x15000000, 1, 0x0, 1, 0x0, 5, 1, .ro, 0x0⟩
/-- R524: Start a flush -/
def FLUSH_GO : Lay := ⟨0x15000000, 1, 0x0, 1, 0x0, 8, 1, .wt, 0x0⟩
/-- R524: Load LDG_RTC_SET into the RTC -/
def RTC_SET : Lay := ⟨0x15000000, 1, 0x0, 1, 0x0, 9, 1, .wt, 0x0⟩
/-- R525: RTC seconds, bits 31:0 -/
def RTC_LO : Lay := ⟨0x15001000, 1, 0x0, 1, 0x0, 0, 32, .ro, 0x0⟩
/-- R525: Bits 47:32 as latched; bits 31:16 RSV -/
def RTC_HI : Lay := ⟨0x15001004, 1, 0x0, 1, 0x0, 0, 16, .ro, 0x0⟩
/-- R525: Fraction as latched, 1/32,768 s; bits 31:15 RSV -/
def RTC_SUB : Lay := ⟨0x15001008, 1, 0x0, 1, 0x0, 0, 15, .ro, 0x0⟩
/-- R525: Seconds to set, bits 31:0 -/
def RTC_SET_LO : Lay := ⟨0x15001010, 1, 0x0, 1, 0x0, 0, 32, .rw, 0x0⟩
/-- R525: Bits 47:32; bits 31:16 RSV -/
def RTC_SET_HI : Lay := ⟨0x15001014, 1, 0x0, 1, 0x0, 0, 16, .rw, 0x0⟩
/-- R525: LDG_CTRL: flush interval in minutes; 0 is treated as 1, codes above 10 as 10; bits 31:4 RS -/
def CTRL_FLUSH_INT : Lay := ⟨0x15001018, 1, 0x0, 1, 0x0, 0, 4, .rw, 0xA⟩
/-- R525: Block of the last flush; bits 31:6 RSV -/
def FLUSH_BLK : Lay := ⟨0x1500101C, 1, 0x0, 1, 0x0, 0, 6, .ro, 0x0⟩
/-- R525: PTP alignments that changed the seconds; saturating -/
def RTC_ADJ : Lay := ⟨0x15001020, 1, 0x0, 1, 0x0, 0, 32, .ro, 0x0⟩
/-- R525: Record slot of the latest record; bits 31:4 RSV -/
def BST_HEAD : Lay := ⟨0x15001024, 1, 0x0, 1, 0x0, 0, 4, .ro, 0x0⟩
/-- R525: R39: each IDATA access adds one to ADDR -/
def IADDR_INC : Lay := ⟨0x15001030, 1, 0x0, 1, 0x0, 31, 1, .rw, 0x1⟩
/-- R525: R39: word index into the table -/
def IADDR_ADDR : Lay := ⟨0x15001030, 1, 0x0, 1, 0x0, 0, 28, .rw, 0x0⟩
/-- R513: RTC seconds -/
def RTC_S : Lay := ⟨0x100007100000, 1, 0x0, 1, 0x0, 0, 48, .hid, 0x0⟩
/-- R513: RTC fraction, in ns; the register shows it in units of 1/32,768 s -/
def RTC_NS : Lay := ⟨0x100007200000, 1, 0x0, 1, 0x0, 0, 30, .hid, 0x0⟩
/-- R515: VAON has come up since the last cold start -/
def PWRUP : Lay := ⟨0x100007300000, 1, 0x0, 1, 0x0, 0, 1, .hid, 0x1⟩
/-- R518: a self-test record has been written -/
def BST_ANY : Lay := ⟨0x100009800000, 1, 0x0, 1, 0x0, 0, 1, .hid, 0x0⟩
/-- R521: PS_EN_MAIN goes low when the flush in progress ends -/
def FLUSH_OFF : Lay := ⟨0x100009B00000, 1, 0x0, 1, 0x0, 0, 1, .hid, 0x0⟩
/-- R515 [s]: highest reading of a sensor in this minute, plus 2049; 0 none -/
def TMAX : Lay := ⟨0x100009C00000, 12, 0x4, 1, 0x0, 0, 13, .hid, 0x0⟩
/-- R514: time from which the next PTP alignment is due, ns -/
def ALIGN_NEXT : Lay := ⟨0x10000DE00000, 1, 0x0, 1, 0x0, 0, 64, .hid, 0x0⟩
/-- R516: a flush has started since the start -/
def FLUSHED : Lay := ⟨0x10000DF00000, 1, 0x0, 1, 0x0, 0, 1, .hid, 0x0⟩
/-- R516: time at which the last flush started, ns -/
def FLUSH_AT : Lay := ⟨0x10000E000000, 1, 0x0, 1, 0x0, 0, 64, .hid, 0x0⟩
/-- Every field of the block, in the order of the spec. -/
def layout0 : List Lay :=
  [VALID, FLUSH_BUSY, FLUSH_ERR, RTC_VALID, RTC_DRIFT, FRESH, FLUSH_GO, RTC_SET, RTC_LO, RTC_HI, RTC_SUB, RTC_SET_LO, RTC_SET_HI, CTRL_FLUSH_INT, FLUSH_BLK, RTC_ADJ, BST_HEAD, IADDR_INC, IADDR_ADDR, RTC_S, RTC_NS, PWRUP, BST_ANY, FLUSH_OFF, TMAX, ALIGN_NEXT, FLUSHED, FLUSH_AT]
/-- Every field of the block. -/
def layout : List Lay := layout0
end LDG

namespace BST
/-- R526: The device is held by a FAILED record (R523) -/
def HOLD : Lay := ⟨0x15100000, 1, 0x0, 1, 0x0, 0, 1, .ro, 0x0⟩
/-- R526: The self-test is running -/
def RUN : Lay := ⟨0x15100000, 1, 0x0, 1, 0x0, 1, 1, .ro, 0x0⟩
/-- R527: Bit g: ball group g may be driven by boundary scan -/
def BSMASK : Lay := ⟨0x15101000, 1, 0x0, 1, 0x0, 0, 32, .rw, 0x0⟩
/-- R527 [k]: k = 0–3: bit i set when channel 32k + i failed in the latest test -/
def CHFAIL : Lay := ⟨0x15101010, 4, 0x4, 1, 0x0, 0, 32, .ro, 0x0⟩
/-- R521: what the self-test is for: 1 start, 2 shutdown, 3 RESTART in a hold -/
def WAIT : Lay := ⟨0x100009900000, 1, 0x0, 1, 0x0, 0, 2, .hid, 0x0⟩
/-- R522: a start-time self-test waits for LOCK and its preconditions -/
def TRYING : Lay := ⟨0x100009A00000, 1, 0x0, 1, 0x0, 0, 1, .hid, 0x0⟩
/-- Every field of the block, in the order of the spec. -/
def layout0 : List Lay :=
  [HOLD, RUN, BSMASK, CHFAIL, WAIT, TRYING]
/-- Every field of the block. -/
def layout : List Lay := layout0
end BST

namespace DBG
/-- R547 [p]: The port's level -/
def LEVEL : Lay := ⟨0x14000000, 2, 0x10000000000, 1, 0x0, 0, 2, .ro, 0x0⟩
/-- R547 [p]: AUTH_GO is locked out -/
def LOCKOUT : Lay := ⟨0x14000000, 2, 0x10000000000, 1, 0x0, 2, 1, .ro, 0x0⟩
/-- R547 [p]: A challenge awaits a response -/
def CHAL_VALID : Lay := ⟨0x14000000, 2, 0x10000000000, 1, 0x0, 3, 1, .ro, 0x0⟩
/-- R547 [p]: Draw a challenge -/
def CHAL_GO : Lay := ⟨0x14000000, 2, 0x10000000000, 1, 0x0, 8, 1, .wt, 0x0⟩
/-- R547 [p]: Check the response -/
def AUTH_GO : Lay := ⟨0x14000000, 2, 0x10000000000, 1, 0x0, 9, 1, .wt, 0x0⟩
/-- R547 [p]: End the session -/
def LOGOUT : Lay := ⟨0x14000000, 2, 0x10000000000, 1, 0x0, 10, 1, .wt, 0x0⟩
/-- R547 [p]: FIFO reads consume (level 3) -/
def SIDEFX : Lay := ⟨0x14000000, 2, 0x10000000000, 1, 0x0, 11, 1, .rw, 0x0⟩
/-- R547 [n]: MFPn is halted -/
def HALTED : Lay := ⟨0x14000010, 8, 0x4, 1, 0x0, 0, 1, .ro, 0x0⟩
/-- R547 [n]: A halt request waits (R538) -/
def DEFER : Lay := ⟨0x14000010, 8, 0x4, 1, 0x0, 1, 1, .ro, 0x0⟩
/-- R547 [n]: A fed bundle is executing -/
def FEED_BUSY : Lay := ⟨0x14000010, 8, 0x4, 1, 0x0, 2, 1, .ro, 0x0⟩
/-- R547 [n]: The last fed bundle had no effect (R542) -/
def FEXC : Lay := ⟨0x14000010, 8, 0x4, 1, 0x0, 3, 1, .ro, 0x0⟩
/-- R547 [n]: The other port owns MFPn -/
def OTHER : Lay := ⟨0x14000010, 8, 0x4, 1, 0x0, 4, 1, .ro, 0x0⟩
/-- R547 [n]: Request a halt -/
def HALT : Lay := ⟨0x14000010, 8, 0x4, 1, 0x0, 8, 1, .wt, 0x0⟩
/-- R547 [n]: Resume -/
def RESUME : Lay := ⟨0x14000010, 8, 0x4, 1, 0x0, 9, 1, .wt, 0x0⟩
/-- R547 [n]: Issue one bundle and halt -/
def STEP : Lay := ⟨0x14000010, 8, 0x4, 1, 0x0, 10, 1, .wt, 0x0⟩
/-- R547 [n]: Execute the fed bundle -/
def FEED_GO : Lay := ⟨0x14000010, 8, 0x4, 1, 0x0, 11, 1, .wt, 0x0⟩
/-- R547 [n]: Reset MFPn (level 3) -/
def DRST : Lay := ⟨0x14000010, 8, 0x4, 1, 0x0, 12, 1, .wt, 0x0⟩
/-- R547 [n]: Interrupts may be taken before a stepped bundle -/
def STEPINT : Lay := ⟨0x14000010, 8, 0x4, 1, 0x0, 13, 1, .rw, 0x0⟩
/-- R548 [p]: DBG_AUTH: level requested; bits 31:2 RSV -/
def AUTH_LEVEL : Lay := ⟨0x14001000, 2, 0x10000000000, 1, 0x0, 0, 2, .rw, 0x0⟩
/-- R548: Serial number, bits 31:0 -/
def SERIAL_LO : Lay := ⟨0x14001004, 1, 0x0, 1, 0x0, 0, 32, .ro, 0x0⟩
/-- R548: Bits 63:32 -/
def SERIAL_HI : Lay := ⟨0x14001008, 1, 0x0, 1, 0x0, 0, 32, .ro, 0x0⟩
/-- R548: R534 -/
def IDCODE : Lay := ⟨0x1400100C, 1, 0x0, 1, 0x0, 0, 32, .ro, 0x9128001⟩
/-- R548 [p w]: Challenge, w = 0–7 -/
def CHAL : Lay := ⟨0x14001010, 2, 0x10000000000, 8, 0x4, 0, 32, .ro, 0x0⟩
/-- R548 [p w]: Response, w = 0–7 -/
def RESP : Lay := ⟨0x14001030, 2, 0x10000000000, 8, 0x4, 0, 32, .wo, 0x0⟩
/-- R548: Failed checks since start; saturating -/
def AUTH_FAIL : Lay := ⟨0x14001050, 1, 0x0, 1, 0x0, 0, 32, .ro, 0x0⟩
/-- R548 [p]: DBG_AP: MFP whose aperture windows the port uses; bits 31:3 RSV -/
def AP_APMFP : Lay := ⟨0x14001054, 2, 0x10000000000, 1, 0x0, 0, 3, .rw, 0x0⟩
/-- R548 [n]: DBG_Mn_HCAUSE: 0 none; 1 request; 2 execute; 3 data; 4 step; 5 group; 6–7 not used -/
def M_HCAUSE_CAUSE : Lay := ⟨0x14002000, 8, 0x100, 1, 0x0, 0, 3, .ro, 0x0⟩
/-- R548 [n]: AC number, or 8 + j for DWj; bits 31:8, 3 RSV -/
def M_HCAUSE_UNIT : Lay := ⟨0x14002000, 8, 0x100, 1, 0x0, 4, 4, .ro, 0x0⟩
/-- R548 [n]: PC of the next bundle while halted -/
def M_PC : Lay := ⟨0x14002004, 8, 0x100, 1, 0x0, 0, 32, .ro, 0x0⟩
/-- R548 [n]: Bit m: halt MFPm with MFPn; bits 31:8 RSV -/
def M_HGRP : Lay := ⟨0x14002008, 8, 0x100, 1, 0x0, 0, 8, .rw, 0x0⟩
/-- R548 [n]: Slot 0 of the fed bundle -/
def M_FEED_LO : Lay := ⟨0x1400200C, 8, 0x100, 1, 0x0, 0, 32, .wo, 0x0⟩
/-- R548 [n]: Slot 1 -/
def M_FEED_HI : Lay := ⟨0x14002010, 8, 0x100, 1, 0x0, 0, 32, .wo, 0x0⟩
/-- R548 [n]: DBG_Mn_FSTAT: cause code (R338) when FEXC; bits 31:5 RSV -/
def M_FSTAT_CAUSE : Lay := ⟨0x14002014, 8, 0x100, 1, 0x0, 0, 5, .ro, 0x0⟩
/-- R548 [n]: R39: each IDATA access adds one to ADDR -/
def M_REG_IADDR_INC : Lay := ⟨0x14002018, 8, 0x100, 1, 0x0, 31, 1, .rw, 0x1⟩
/-- R548 [n]: R39: word index into the table -/
def M_REG_IADDR_ADDR : Lay := ⟨0x14002018, 8, 0x100, 1, 0x0, 0, 28, .rw, 0x0⟩
/-- R548 [n k]: Address of ACk -/
def M_AC_ADDR : Lay := ⟨0x14002040, 8, 0x100, 8, 0x8, 0, 32, .rw, 0x0⟩
/-- R548 [n k]: DBG_Mn_ACk_CTL: 0 off; 1 execute; 2 load; 3 store; 4 load or store; 5–7 off -/
def M_AC_CTL_KIND : Lay := ⟨0x14002044, 8, 0x100, 8, 0x8, 0, 3, .rw, 0x0⟩
/-- R548 [n k]: Range with AC(k + 1); even k only -/
def M_AC_CTL_RANGE : Lay := ⟨0x14002044, 8, 0x100, 8, 0x8, 4, 1, .rw, 0x0⟩
/-- R548 [n k]: 0 halt; 1 event; 2 both; 3 treated as 0 -/
def M_AC_CTL_ACT : Lay := ⟨0x14002044, 8, 0x100, 8, 0x8, 5, 2, .rw, 0x0⟩
/-- R548 [n k]: CTXID must match -/
def M_AC_CTL_CTXEN : Lay := ⟨0x14002044, 8, 0x100, 8, 0x8, 8, 1, .rw, 0x0⟩
/-- R548 [n k]: Needs DW(DWSEL) -/
def M_AC_CTL_LINK : Lay := ⟨0x14002044, 8, 0x100, 8, 0x8, 9, 1, .rw, 0x0⟩
/-- R548 [n k]: Linked DW; bits 31:12, 7, 3 RSV -/
def M_AC_CTL_DWSEL : Lay := ⟨0x14002044, 8, 0x100, 8, 0x8, 10, 2, .rw, 0x0⟩
/-- R548 [n j]: j = 0–3: value -/
def M_DW_VAL : Lay := ⟨0x14002080, 8, 0x100, 4, 0xC, 0, 32, .rw, 0x0⟩
/-- R548 [n j]: Bits compared -/
def M_DW_MASK : Lay := ⟨0x14002084, 8, 0x100, 4, 0xC, 0, 32, .rw, 0x0⟩
/-- R548 [n j]: DBG_Mn_DWj_CTL: fires on any data access -/
def M_DW_CTL_ANY : Lay := ⟨0x14002088, 8, 0x100, 4, 0xC, 0, 1, .rw, 0x0⟩
/-- R548 [n j]: CTXID must match -/
def M_DW_CTL_CTXEN : Lay := ⟨0x14002088, 8, 0x100, 4, 0xC, 1, 1, .rw, 0x0⟩
/-- R548 [n j]: As in ACk_CTL; bits 31:4 RSV -/
def M_DW_CTL_ACT : Lay := ⟨0x14002088, 8, 0x100, 4, 0xC, 2, 2, .rw, 0x0⟩
/-- R548 [n]: CTXID compared -/
def M_CTX : Lay := ⟨0x140020B0, 8, 0x100, 1, 0x0, 0, 32, .rw, 0x0⟩
/-- R548 [n]: CTXID bits compared -/
def M_CTXMASK : Lay := ⟨0x140020B4, 8, 0x100, 1, 0x0, 0, 32, .rw, 0xFFFFFFFF⟩
/-- R537 [p n]: a port's private latch of the high word of MFP_CYC -/
def CYC_HI : Lay := ⟨0x100004800000, 2, 0x20, 8, 0x4, 0, 32, .hid, 0x0⟩
/-- R546 [n]: owner of an MFP: 0 none, 1 port J, 2 port S -/
def OWN : Lay := ⟨0x100007400000, 8, 0x4, 1, 0x0, 0, 2, .hid, 0x0⟩
/-- R533: instruction register of the TAP -/
def TAP_IR : Lay := ⟨0x100007500000, 1, 0x0, 1, 0x0, 0, 8, .hid, 0x1⟩
/-- R535: ADDR of the DBGACC register -/
def TAP_ADDR : Lay := ⟨0x100007600000, 1, 0x0, 1, 0x0, 0, 32, .hid, 0x0⟩
/-- R535: DATA of the DBGACC register -/
def TAP_DATA : Lay := ⟨0x100007700000, 1, 0x0, 1, 0x0, 0, 32, .hid, 0x0⟩
/-- R535: address of the access in progress -/
def TAP_AT : Lay := ⟨0x100007800000, 1, 0x0, 1, 0x0, 0, 32, .hid, 0x0⟩
/-- R535: the access in progress is a write -/
def TAP_WR : Lay := ⟨0x100007900000, 1, 0x0, 1, 0x0, 0, 1, .hid, 0x0⟩
/-- R535: status of the last access: 0 done, 1 busy, 2 bus error, 3 DENIED -/
def TAP_STAT : Lay := ⟨0x100007A00000, 1, 0x0, 1, 0x0, 0, 2, .hid, 0x0⟩
/-- R532 [p]: the last access of the port was answered DENIED -/
def DENIED : Lay := ⟨0x100007B00000, 2, 0x4, 1, 0x0, 0, 1, .hid, 0x0⟩
/-- R531 [p]: time at which the port's challenge was drawn, ns -/
def CHAL_AT : Lay := ⟨0x10000E100000, 2, 0x4, 1, 0x0, 0, 64, .hid, 0x0⟩
/-- R531 [p]: time at which the port's lockout began, ns -/
def LOCK_AT : Lay := ⟨0x10000E200000, 2, 0x4, 1, 0x0, 0, 64, .hid, 0x0⟩
/-- Every field of the block, in the order of the spec. -/
def layout0 : List Lay :=
  [LEVEL, LOCKOUT, CHAL_VALID, CHAL_GO, AUTH_GO, LOGOUT, SIDEFX, HALTED, DEFER, FEED_BUSY, FEXC, OTHER, HALT, RESUME, STEP, FEED_GO, DRST, STEPINT, AUTH_LEVEL, SERIAL_LO, SERIAL_HI, IDCODE, CHAL, RESP, AUTH_FAIL, AP_APMFP, M_HCAUSE_CAUSE, M_HCAUSE_UNIT, M_PC, M_HGRP]
def layout1 : List Lay :=
  [M_FEED_LO, M_FEED_HI, M_FSTAT_CAUSE, M_REG_IADDR_INC, M_REG_IADDR_ADDR, M_AC_ADDR, M_AC_CTL_KIND, M_AC_CTL_RANGE, M_AC_CTL_ACT, M_AC_CTL_CTXEN, M_AC_CTL_LINK, M_AC_CTL_DWSEL, M_DW_VAL, M_DW_MASK, M_DW_CTL_ANY, M_DW_CTL_CTXEN, M_DW_CTL_ACT, M_CTX, M_CTXMASK, CYC_HI, OWN, TAP_IR, TAP_ADDR, TAP_DATA, TAP_AT, TAP_WR, TAP_STAT, DENIED, CHAL_AT, LOCK_AT]
/-- Every field of the block. -/
def layout : List Lay := layout0 ++ layout1
end DBG

end Sys2Proof.Machine
end

