-- ==== Sys2Proof/Machine/Ops.lean ====
section
/-! DEFINITION. The named operations over the state: sparse maps, register fields, tables, bytes of memory, free
values, and bit fields of numbers. Every meaning reads and writes the state through these. Log entries 1, 3 and 7. -/

namespace Sys2Proof.Machine

/-! Bit fields of numbers. -/

/-- Bits `lsb + w - 1 .. lsb` of `v`. -/
def bits (v lsb w : Nat) : Nat := v / 2 ^ lsb % 2 ^ w

/-- Bit `i` of `v`. -/
def bitOf (v i : Nat) : Bool := v / 2 ^ i % 2 == 1

/-- `v` with bit `i` made `b`. -/
def putBit (v i : Nat) (b : Bool) : Nat :=
  v - v / 2 ^ i % 2 * 2 ^ i + (if b then 2 ^ i else 0)

/-- `v` with the field of `w` bits at `lsb` replaced by `x` (taken modulo `2 ^ w`). -/
def putBits (v lsb w x : Nat) : Nat :=
  v - v / 2 ^ lsb % 2 ^ w * 2 ^ lsb + x % 2 ^ w * 2 ^ lsb

/-- The signed value of the low `w` bits of `v`. -/
def signedOf (w v : Nat) : Int :=
  if v % 2 ^ w < 2 ^ (w - 1) then (v % 2 ^ w : Nat) else (v % 2 ^ w : Nat) - (2 ^ w : Nat)

/-- The low `w` bits of the two's-complement form of `x`. -/
def unsignedOf (w : Nat) (x : Int) : Nat := (x % (2 ^ w : Nat)).toNat

def b2n (b : Bool) : Nat := if b then 1 else 0

/-- `x + 1`, saturating at all ones of `w` bits. -/
def satInc (w x : Nat) : Nat := if x + 1 < 2 ^ w then x + 1 else 2 ^ w - 1

/-! Sparse maps. -/

namespace SMap

/-- The value at key `k`, or `d` where no entry names it. -/
def get {α : Type} (m : SMap α) (k : Nat) (d : α) : α :=
  match m with
  | [] => d
  | (k', v) :: r => if k' = k then v else get r k d

/-- The entry at key `k`, if any. -/
def find? {α : Type} (m : SMap α) (k : Nat) : Option α :=
  match m with
  | [] => none
  | (k', v) :: r => if k' = k then some v else find? r k

/-- `m` with value `v` at key `k`, put in key order. -/
def put {α : Type} (m : SMap α) (k : Nat) (v : α) : SMap α :=
  match m with
  | [] => [(k, v)]
  | (k', v') :: r =>
    if k < k' then (k, v) :: (k', v') :: r
    else if k = k' then (k, v) :: r
    else (k', v') :: put r k v

/-- `m` without any entry at key `k`. -/
def del {α : Type} (m : SMap α) (k : Nat) : SMap α :=
  match m with
  | [] => []
  | (k', v') :: r => if k' = k then del r k else (k', v') :: del r k

/-- `m` with value `v` at key `k`; the default of the key is not listed. -/
def set {α : Type} [DecidableEq α] (m : SMap α) (k : Nat) (v d : α) : SMap α :=
  if v = d then del m k else put m k v

/-- Keys strictly rising. -/
def sorted {α : Type} : SMap α → Bool
  | [] => true
  | [_] => true
  | (k, _) :: (k', v') :: r => decide (k < k') && sorted ((k', v') :: r)

end SMap

/-! Register fields. -/

/-- Instance (i, j) of a field. -/
def Lay.f (l : Lay) (i : Nat := 0) (j : Nat := 0) : Fld :=
  ⟨l.base + i * l.s1 + j * l.s2, l.lsb, l.width, l.reset⟩

/-- The key of a field in `State.regs`. -/
def Fld.key (f : Fld) : Nat := f.addr * 32 + f.lsb

/-- The value of a field: as many bits as it is wide. -/
def State.rd (s : State) (f : Fld) : Nat := s.regs.get f.key f.reset % 2 ^ f.width

/-- Store `v`, cut to the field's width, in a field. -/
def State.wr (s : State) (f : Fld) (v : Nat) : State :=
  { s with regs := s.regs.set f.key (v % 2 ^ f.width) f.reset }

/-- A one-bit field as a truth value. -/
def State.flag (s : State) (f : Fld) : Bool := s.rd f != 0

/-- Store a truth value in a one-bit field. -/
def State.setFlag (s : State) (f : Fld) (b : Bool) : State := s.wr f (b2n b)

/-- Bit `i` of a field. -/
def State.bit (s : State) (f : Fld) (i : Nat) : Bool := bitOf (s.rd f) i

/-- Store bit `i` of a field. -/
def State.setBit (s : State) (f : Fld) (i : Nat) (b : Bool) : State := s.wr f (putBit (s.rd f) i b)

/-- Add one to a counter field that wraps. -/
def State.inc (s : State) (f : Fld) : State := s.wr f (s.rd f + 1)

/-- Add one to a counter field that saturates. -/
def State.incSat (s : State) (f : Fld) : State := s.wr f (satInc f.width (s.rd f))

/-! Tables. -/

/-- The key of word `i` of instance `n` of a table in `State.tabs`. -/
def Tab.key (t : Tab) (n i : Nat) : Nat := (t.id * 2 ^ 16 + n) * 2 ^ 32 + i

/-- Word `i` of instance `n` of a table: as many bits as the table is wide. -/
def State.tab (s : State) (t : Tab) (n i : Nat) : Nat := s.tabs.get (t.key n i) t.reset % 2 ^ t.width

/-- Store a word of a table. -/
def State.setTab (s : State) (t : Tab) (n i v : Nat) : State :=
  { s with tabs := s.tabs.set (t.key n i) (v % 2 ^ t.width) t.reset }

/-! Bytes of memory. An unlisted byte reads as zero (log entry 3). -/

/-- The byte at key `a`. -/
def State.byte (s : State) (a : Nat) : Byte := SMap.get s.mem a 0

/-- Store one byte. -/
def State.setByte (s : State) (a : Nat) (b : Byte) : State := { s with mem := SMap.set s.mem a b 0 }

/-- The `n` bytes from `a`, little-endian, as a number. -/
def State.bytes (s : State) (a : Nat) : Nat → Nat
  | 0 => 0
  | n + 1 => (s.byte a).toNat + 256 * s.bytes (a + 1) n

/-- Store `n` bytes of `v` from `a` on, little-endian. -/
def State.setBytes (s : State) (a n v : Nat) : State :=
  match n with
  | 0 => s
  | n + 1 => (s.setByte a (BitVec.ofNat 8 v)).setBytes (a + 1) n (v / 256)

/-- Store a list of bytes from `a` on. -/
def State.storeList (s : State) (a : Nat) : List Byte → State
  | [] => s
  | b :: r => (s.setByte a b).storeList (a + 1) r

/-- The canonical form of memory: keys strictly rising and no byte listed that an unlisted address reads as. -/
abbrev Memory.wf (m : List Host.Cell) : Prop :=
  SMap.sorted m = true ∧ m.all (fun c => c.2 != 0) = true

/-! One named operation per component of the state that is not a register field: the component is replaced whole. -/

/-- `tabs` replaced. -/
def State.withTabs (s : State) (v : SMap Nat) : State := { s with tabs := v }

/-- `mem` replaced. -/
def State.withMem (s : State) (v : List Host.Cell) : State := { s with mem := v }

/-- `runs` replaced. -/
def State.withRuns (s : State) (v : SMap SeqRun) : State := { s with runs := v }

/-- `inj` replaced. -/
def State.withInj (s : State) (v : SMap (List Nat)) : State := { s with inj := v }

/-- `fifos` replaced. -/
def State.withFifos (s : State) (v : SMap (List FailRec)) : State := { s with fifos := v }

/-- `updates` replaced. -/
def State.withUpdates (s : State) (v : SMap (List BitmapUpdate)) : State := { s with updates := v }

/-- `results` replaced. -/
def State.withResults (s : State) (v : SMap (List ResultEntry)) : State := { s with results := v }

/-- `sessions` replaced. -/
def State.withSessions (s : State) (v : SMap RaSession) : State := { s with sessions := v }

/-- `dir` replaced, and with it the copy of the directory in the SYSTEM area. -/
def State.withDir (s : State) (v : SMap Alloc) : State := { s with dir := v, dirCopy := v }

/-- `dramQ` replaced. -/
def State.withDramQ (s : State) (v : SMap (List DramReq)) : State := { s with dramQ := v }

/-- `lineQ` replaced. -/
def State.withLineQ (s : State) (v : List HeldWrite) : State := { s with lineQ := v }

/-- `bcIn` replaced. -/
def State.withBcIn (s : State) (v : List HeldWrite) : State := { s with bcIn := v }

/-- `pzList` replaced. -/
def State.withPzList (s : State) (v : List (Nat × Nat)) : State := { s with pzList := v }

/-- `uses` replaced. -/
def State.withUses (s : State) (v : List (Nat × Nat)) : State := { s with uses := v }

/-- `badNodes` replaced. -/
def State.withBadNodes (s : State) (v : List (Nat × Nat)) : State := { s with badNodes := v }

/-- `cores` replaced. -/
def State.withCores (s : State) (v : SMap MfpCore) : State := { s with cores := v }

/-- `adcFifo` replaced. -/
def State.withAdcFifo (s : State) (v : SMap (List Nat)) : State := { s with adcFifo := v }

/-- `evq` replaced. -/
def State.withEvq (s : State) (v : SMap (List EvEntry)) : State := { s with evq := v }

/-- `twOut` replaced. -/
def State.withTwOut (s : State) (v : SMap (List TwMsg)) : State := { s with twOut := v }

/-- `slpWait` replaced. -/
def State.withSlpWait (s : State) (v : SMap (List SlpTx)) : State := { s with slpWait := v }

/-- `slpUnacked` replaced. -/
def State.withSlpUnacked (s : State) (v : SMap (List SlpTx)) : State := { s with slpUnacked := v }

/-- `slpHeld` replaced. -/
def State.withSlpHeld (s : State) (v : SMap (List SlpHeld)) : State := { s with slpHeld := v }

/-- `dbgQ` replaced. -/
def State.withDbgQ (s : State) (v : List (Word × List CsrEntry)) : State := { s with dbgQ := v }

/-- `ctrlQ` replaced. -/
def State.withCtrlQ (s : State) (v : List SlpMsg) : State := { s with ctrlQ := v }

/-- `notices` replaced. -/
def State.withNotices (s : State) (v : List Notice) : State := { s with notices := v }

/-- `slpObjs` replaced. -/
def State.withSlpObjs (s : State) (v : List Nat) : State := { s with slpObjs := v }

/-- `rxMsgs` replaced. -/
def State.withRxMsgs (s : State) (v : SMap (List FlowMsg)) : State := { s with rxMsgs := v }

/-- `txBuf` replaced. -/
def State.withTxBuf (s : State) (v : SMap (List Nat)) : State := { s with txBuf := v }

/-- `ethTx` replaced. -/
def State.withEthTx (s : State) (v : List EthReply) : State := { s with ethTx := v }

/-- `occ` replaced. -/
def State.withOcc (s : State) (v : SMap (List Nat)) : State := { s with occ := v }

/-- `held` replaced. -/
def State.withHeld (s : State) (v : SMap (List Access)) : State := { s with held := v }

/-- `raised` replaced. -/
def State.withRaised (s : State) (v : List (Nat × Nat)) : State := { s with raised := v }

/-! Free values. -/

/-- Count one free value as drawn. -/
def State.draw (s : State) : State := { s with free := s.free + 1 }

/-- A pulsed event source becomes active and its occurrence is stamped (R491); EVENT_OCCURRENCE processes it. -/
def State.pulse (s : State) (n : Nat) : State := { s with raised := s.raised ++ [(n, s.time)] }

/-- Repeat `f` over the indices `0 .. n - 1`. -/
def State.forUpTo (s : State) (n : Nat) (f : State → Nat → State) : State :=
  (List.range n).foldl f s

/-- Answer the next state. -/
def done (s : State) : Out := .next s

end Sys2Proof.Machine
end

