-- ==== Sys2Proof/Machine/Tables.lean ====
section
/-! DEFINITION. The tables of the device: those behind an indirect pair (R39), and those an engine keeps for itself. A
table is a `Tab` (its number, its words per instance, their width, their reset value). Log entry 5. -/

namespace Sys2Proof.Machine

/-- The shadow route table of a tile (R82), word t for terminal t: NODE in bits 5:0, EN in bit 7. Bit 6 reads zero. -/
def VLV.mxShadow : Tab := ⟨1, 194, 8, 0⟩
/-- The route table in force (R83). -/
def VLV.mxRoute : Tab := ⟨2, 194, 8, 0⟩
/-- Held levels (R55), instance channel, word level: the code plus one, or 0 where none is held. -/
def VLV.held : Tab := ⟨3, 9, 17, 0⟩
/-- The period table in force (R95). -/
def TIM.sq : Tab := ⟨4, 1024, 32, 0xFA0⟩
/-- Writes of the period table that wait for a vector boundary: twice the word
                                        plus one, plus one where a staged write is among them, or 0 (R105, R106). -/
def TIM.sqCommitted : Tab := ⟨5, 1024, 34, 0⟩
/-- Staged writes of the period table: the word plus one, or 0 (R106). -/
def TIM.sqHeld : Tab := ⟨6, 1024, 33, 0⟩
/-- The channel tables of a tile in force (R96). -/
def TIM.t : Tab := ⟨7, 524288, 32, 0⟩
/-- The Express strobe position word of each channel of a tile, in force (R96, word 0x2202). -/
def TIM.xstb : Tab := ⟨12, 32, 7, 0x3E⟩
/-- Writes of the channel tables that wait for a vector boundary, kept as those of the period table. -/
def TIM.tCommitted : Tab := ⟨8, 524288, 34, 0⟩
/-- Staged writes of the channel tables: the word plus one, or 0. -/
def TIM.tHeld : Tab := ⟨9, 524288, 33, 0⟩
/-- The ledger SRAM (R515). -/
def LDG.sram : Tab := ⟨10, 16384, 32, 0⟩
/-- The route words of the event sources (R492). -/
def EVT.src : Tab := ⟨11, 1792, 32, 0x40000⟩

/-- The shadow column tables of a sequencer (R121). -/
def TWL.cmap : Tab := ⟨13, 1152, 15, 0⟩
/-- The column sources in force: SRC in bits 1:0, LANE in bits 14:8 (R121, R122). -/
def TWL.src : Tab := ⟨14, 128, 15, 0⟩
/-- The tables of an APG by ADDR (R158), but for the unit registers, the loop counters and DR. A scramble entry is kept
as its value XOR its index, so that the identity of reset is zero. -/
def GNG.tab : Tab := ⟨15, 198696, 32, 0⟩

/-- The state of each 64-byte line of DRAM, by physical address bits 43:6 (through `State.wide`): 0 as it was written, 1
stored with the reserved syndrome (R258), 2 with a MAC that fails (R289, R292), 3 written since its channel lost its
contents (R250). -/
def DDR.pois : Tab := ⟨16, 0, 2, 0⟩
/-- The minor counter of each line, by the same index (R281). -/
def ENC.minor : Tab := ⟨17, 0, 7, 0⟩
/-- The major counter of each 4 KiB page, by physical address bits 43:12 (R281). -/
def ENC.major : Tab := ⟨18, 0, 64, 0⟩

/-- Bit i of a line's word: byte i of the line has been written since its page was given to its allocation. -/
def DDR.wrote : Tab := ⟨19, 0, 64, 0⟩

/-- The SPD copy of a channel (R252). -/
def DDR.spd : Tab := ⟨20, 512, 32, 0⟩
/-- A neighbour refresh that waits for the next activate of a bank: 1 + die × 65,536 + the row activated, or 0 (R264);
instance channel, word rank × 64 + subchannel × 32 + bank. -/
def DDR.nbr : Tab := ⟨21, 256, 18, 0⟩

/-- A word of IMEM as it was before a store that no ISYNC has made visible to fetches, plus one, or 0 (R317). -/
def MFP.stale : Tab := ⟨22, 65536, 33, 0⟩
/-- The list entries of an ADC (R300, R301). -/
def ADC.list : Tab := ⟨23, 64, 28, 0⟩
/-- The header of the stream that the ICFP takes (R378, R390). -/
def CNV.hdr : Tab := ⟨24, 64, 32, 0⟩
/-- Frames of the load in progress that are staged, by frame number (R369). -/
def CNV.staged : Tab := ⟨25, 32000, 1, 0⟩
/-- The barrier table (R426). -/
def TWD.bar : Tab := ⟨26, 1024, 32, 0⟩
/-- On the master, acknowledgements of barrier n, valid while it is RELEASING (R417). -/
def TWD.acks : Tab := ⟨27, 256, 32, 0⟩
/-- On the master, arrivals that count towards the next use of barrier n (R419). -/
def TWD.barNext : Tab := ⟨28, 256, 32, 0⟩
/-- The release instant of barrier n plus one while a release is received and T is awaited, or 0. -/
def TWD.barT : Tab := ⟨29, 256, 49, 0⟩
/-- This device has sent ARRIVE for barrier n. -/
def TWD.barSent : Tab := ⟨30, 256, 1, 0⟩
/-- The header of the image being loaded (R378). -/
def CFG.hdr : Tab := ⟨31, 64, 32, 0⟩
/-- The WRITE pairs staged, address and value in turn (R380). -/
def CFG.staged : Tab := ⟨32, 16384, 32, 0⟩
/-- The frames that the image has written, by region and frame number (R380). -/
def CFG.seen : Tab := ⟨33, 32000, 1, 0⟩
/-- The slot directory read last (R377). -/
def CFG.dirw : Tab := ⟨34, 16, 32, 0⟩

/-- The buffer of a sequencer's run (R236, R237), word i for the 64-byte line i of its object as stored: 0 where the
buffer does not hold it, else 1 + 2 × (it was read as poison) + 4 × its 512 bits. -/
def CAL.buf : Tab := ⟨35, 0, 514, 0⟩

/-- The counters of the root of the tree, by top-level node (R282). -/
def ENC.root : Tab := ⟨36, 64, 56, 0⟩
/-- The root as it was last saved in Chiffon (R282, R284). -/
def ENC.rootSave : Tab := ⟨37, 64, 56, 0⟩
/-- The counter that a tree node holds for the counter line or node beneath it, by the level of what lies beneath × 2^44
and its index there (R282). -/
def ENC.node : Tab := ⟨38, 0, 56, 0⟩
/-- The metadata cache (R284), by kind × 2^44 and index: 0 not held, 1 held, 2 held
                                    and dirty. Kind 0 are counter lines, k the nodes of level k, 14 the lines of their
                                    MACs and 15 those of data lines. -/
def ENC.cache : Tab := ⟨39, 0, 2, 0⟩

/-- The words of the segment that the ICFP is taking, as stored (R379). -/
def CNV.seg : Tab := ⟨40, 16384, 32, 0⟩
/-- The payload words that the ICFP has taken (R379, R380). -/
def CNV.pay : Tab := ⟨41, 0, 32, 0⟩
/-- The payload words of the image being loaded that the segments read so far hold (R379, R380). -/
def CFG.pay : Tab := ⟨42, 0, 32, 0⟩

/-- The instant in ns at which the master sent RELEASE of barrier n (R418). -/
def TWD.barRel : Tab := ⟨43, 256, 64, 0⟩

/-- The answers of the request in progress, as value and status of each entry: instance 0 CSR, 1 debug (R442, R536). -/
def ETH.ans : Tab := ⟨44, 1024, 32, 0⟩

/-- The timestamp from which the stuck time of a source runs: its latest occurrence, or its unmask since (R497, R498).
-/
def EVT.since : Tab := ⟨45, 1792, 64, 0⟩

/-- The cells of the boundary-scan register, in its order (R533, R550). -/
def DBG.cells : Tab := ⟨46, 1920, 1, 0⟩

/-- Word `i` of a table indexed by more than 32 bits. -/
def State.wide (s : State) (t : Tab) (i : Nat) : Nat := s.tab t (i / 2 ^ 32) (i % 2 ^ 32)

/-- Store a word of such a table. -/
def State.setWide (s : State) (t : Tab) (i v : Nat) : State := s.setTab t (i / 2 ^ 32) (i % 2 ^ 32) v

/-- The listed words of instance `n` of a table, as (index, value). -/
def State.listed (s : State) (t : Tab) (n : Nat) : List (Nat × Nat) :=
  s.tabs.filterMap fun e =>
    if e.1 / 2 ^ 32 = t.id * 2 ^ 16 + n then some (e.1 % 2 ^ 32, e.2) else none

end Sys2Proof.Machine
end

