-- ==== Sys2Proof/Machine/Common.lean ====
section
/-! DEFINITION. What every block uses: presence and clock gating (R41, R42), the absent-access capture, the ledger's
counters, the ownership of channels, and the conditions that more than one block reads.
Log entries 10, 15, 89 and 93. -/

namespace Sys2Proof.Machine

/-- The blocks of control space that can be gated or absent. -/
inductive Blk
  | sys | vlv (t : Nat) | tim | twl | gng | dmk | cal | adc | enc | ddr (n : Nat) | twd | eth | cnv | cfg | ldg | bst
  | clk | pwr | evt | dbg
  deriving DecidableEq, Repr

/-- The bit of CLK_EN that clocks a block (R472); none: never gated (R41). -/
def Blk.enBit : Blk → Option Nat
  | .vlv t => some t
  | .tim => some 4
  | .twl => some 5
  | .gng => some 6
  | .dmk => some 7
  | .cal => some 8
  | .adc => some 9
  | .enc => some 10
  | .ddr n => some (11 + n)
  | .twd => some 23
  | .eth => some 24
  | .cnv => some 25
  | .cfg => some 26
  | .ldg => some 27
  | .bst => some 28
  | .sys => none
  | .clk => none
  | .pwr => none
  | .evt => none
  | .dbg => none

/-- The logic die has its supplies and is out of reset. -/
def State.dieOn (s : State) : Bool := s.flag PWR.EN_MAIN.f && !s.flag PWR.STBY.f && !s.flag PWR.DIE_OFF.f

/-- The block answers nothing: its peripheral clock is off, or the logic die is. -/
def State.gated (s : State) (b : Blk) : Bool :=
  !s.dieOn ||
    match b.enBit with
    | none => false
    | some i => !s.bit CLK.EN.f i

def State.hasGng (s : State) : Bool := s.opt != .l
def State.hasRa (s : State) : Bool := s.opt != .l
def State.hasExpress (s : State) : Bool := s.opt != .b
def State.hasTenant (s : State) : Bool := s.opt != .b
def State.hasDc (s : State) (n : Nat) : Bool := s.opt != .b || n < 8
def State.hasMfp (s : State) (n : Nat) : Bool := s.opt != .b || n < 4
def State.hasTwp (s : State) (n : Nat) : Bool := s.opt != .b || n < 2

/-- The block or instance is absent in the option code (R1). -/
def State.absent (s : State) (b : Blk) : Bool :=
  match b with
  | .gng => !s.hasGng
  | .ddr n => !s.hasDc n
  | _ => false

/-- An absent access at address `a` fills SYS_ABSENT_HIT, or is counted while it is full (R42). -/
def State.absentHit (s : State) (a : Nat) : State :=
  if s.flag SYS.HIT.f then s.incSat SYS.ABSENT_CNT.f
  else (s.setFlag SYS.HIT.f true).wr SYS.ABSENT_ADDR.f a

/-- The SEQ and TMn islands are locked. -/
def State.tmLocked (s : State) : Bool := s.bit CLK.LK.f 2 && s.rd CLK.LK_TM.f == 15

/-- The clock of the island that answers a block's registers runs: CP for every access, since the interconnect lies
there, and the block's own island by R9. The spec puts TIM in no island by name; it is taken to answer from SEQ and the
tiles' edge generators, and a block that R9 places nowhere from CP alone (log entry 89). -/
def State.islandUp (s : State) (b : Blk) : Bool :=
  s.bit CLK.LK.f 0 &&
    match b with
    | .tim => s.tmLocked
    | .twl | .gng | .dmk => s.bit CLK.LK.f 2
    | .cal | .enc => s.bit CLK.LK.f 3
    | .ddr n => s.bit CLK.LK_DC.f n
    | .eth => s.bit CLK.LK.f 4
    | .sys | .vlv _ | .adc | .twd | .cnv | .cfg | .ldg | .bst | .clk | .pwr | .evt | .dbg => true

/-- The queue of held accesses of a master (R10, R19). -/
def masterIdx : Master → Nat
  | .mfp n => n
  | .slp => 8
  | .dbgJ => 9
  | .dbgS => 10
  | .cfg => 11

/-- The queue of an access: its master's, or that of the commands that name no master. -/
def Access.queue : Access → Nat
  | .write m _ _ | .read m _ => masterIdx m
  | .set .. | .timing .. | .casc .. | .prbs .. => 12

/-- The address of the register that an access reaches. -/
def Access.addr : Access → Nat
  | .write _ a _ | .read _ a | .set a _ _ => a
  | .timing r _ =>
    match r with
    | .sq _ => 0x24001014
    | .tile t _ => 0x24001104 + 0x20 * t
    | .plane => 0x24001000
  | .casc .. => 0x32000000
  | .prbs w _ _ => 0x32000010 + 4 * w

/-- The access that writes `x` to a field alone. -/
def Fld.sets (f : Fld) (x : Nat) : Access := .set f.addr (x * 2 ^ f.lsb) ((2 ^ f.width - 1) * 2 ^ f.lsb)

/-- The held accesses of a queue, oldest first. -/
def State.heldIn (s : State) (k : Nat) : List Access := s.held.get k []

/-- An access is held behind those its master has issued before, or on a crossing into an island that stands still (R10,
R19, R460). -/
def State.hold (s : State) (x : Access) : State :=
  s.withHeld (s.held.set x.queue (s.heldIn x.queue ++ [x]) [])

/-- An access of queue `k` to the block is answered at once: the die is on, the block's clock enabled, its island
running, and nothing of the queue waits. -/
def State.openTo (s : State) (k : Nat) (b : Blk) : Bool :=
  !s.gated b && s.islandUp b && (s.heldIn k).isEmpty

/-- The value that a read returns to its master. -/
def State.answer (s : State) (v : Nat) : State := s.wr SYS.RDATA.f v

/-- An access to an absent unit fills the capture, and a read answers 0 (R42). -/
def State.absentUnit (s : State) (x : Access) : State :=
  match x with
  | .read .. => (s.absentHit x.addr).answer 0
  | _ => s.absentHit x.addr

/-- A register access reaches its unit, where `present` holds: while the logic die is off nothing happens; behind a held
access, or with the interconnect's own island standing still, it is held; an absent unit answers as such, a gated one
answers a bus error and has no effect (R41, R42); an island that stands still holds it (R10, R460); else `f` is its
effect. -/
def State.reachUnit (s : State) (x : Access) (b : Blk) (present : Bool) (f : State → State) : State :=
  if !s.dieOn then s
  else if !s.bit CLK.LK.f 0 || !(s.heldIn x.queue).isEmpty then s.hold x
  else if !present then s.absentUnit x
  else if s.gated b then s
  else if s.islandUp b then f s
  else s.hold x

/-- The same for a unit that is present wherever its block is. -/
def State.reach (s : State) (x : Access) (b : Blk) (f : State → State) : State := s.reachUnit x b (!s.absent b) f

/-- A read by a master consumes: always, but for the debug master unless its port has SIDEFX = 1 (R198, R540). -/
def State.consumes (s : State) (m : Master) : Bool :=
  match m with
  | .dbgJ => s.flag (DBG.SIDEFX.f 0)
  | .dbgS => s.flag (DBG.SIDEFX.f 1)
  | _ => true

/-- Add one to a counter word of the ledger, saturating (R515). -/
def State.ledgerInc (s : State) (w : Nat) : State :=
  s.setTab LDG.sram 0 w (satInc 32 (s.tab LDG.sram 0 w))

/-- Add `n` to a counter word of the ledger, saturating. -/
def State.ledgerAdd (s : State) (w n : Nat) : State :=
  s.setTab LDG.sram 0 w (min (s.tab LDG.sram 0 w + n) 0xFFFFFFFF)

/-- Instance of a tile's channel field for a device channel. -/
def Lay.ch (l : Lay) (c : Nat) : Fld := l.f (c / 32) (c % 32)

/-- The sequencer that owns a channel (R120). -/
def State.ownerOf (s : State) (c : Nat) : Option Nat :=
  match s.rd (TWL.OWNER.f c) with
  | 0 => none
  | n + 1 => some (n % 16)

/-- A sequencer issues vectors: its STATE is RUN, HOLD, MATCH, SYNC or APG (R145). These are the states in which the
model says that it runs a burst (R103, R105, R106, R113): whether it does in BOUND, before vector 0, the spec does not
say (DESIGN CHOICE, log entry 15). -/
def State.issuing (s : State) (q : Nat) : Bool :=
  decide (2 ≤ s.rd (TWL.STATE_STATE.f q)) && decide (s.rd (TWL.STATE_STATE.f q) ≤ 6)

/-- The channel's owning sequencer runs a burst. -/
def State.chanRunning (s : State) (c : Nat) : Bool :=
  match s.ownerOf c with
  | none => false
  | some q => s.issuing q

/-- The time-set in force of a sequencer is an Express one (R107). -/
def State.seqExpress (s : State) (q : Nat) : Bool :=
  bitOf (s.tab TIM.sq 0 (q * 64 + s.rd (TWL.STATE_TSET.f q))) 31

/-- The channel is in Express mode. -/
def State.chanExpress (s : State) (c : Nat) : Bool :=
  match s.ownerOf c with
  | none => false
  | some q => s.seqExpress q

/-- The temperature of a tile: sensor Sn, signed, in units of 0.125 degrees (R477). -/
def State.tileTemp (s : State) (t : Nat) : Int := signedOf 12 (s.rd (PWR.TEMP.f t))

/-- The field of a rail among the groups of rails, from `k0`: the group's first rail, its number of rails and its
field. -/
def railField (gs : List (Nat × Nat × Lay)) (k : Nat) : Fld :=
  match gs.find? fun g => g.1 ≤ k && k < g.1 + g.2.1 with
  | none => (PWR.RAIL_LO_0).f
  | some g => g.2.2.f (k - g.1)

/-- The groups of rails whose thresholds have one reset value. -/
def railLos : List (Nat × Nat × Lay) :=
  [(0, 2, PWR.RAIL_LO_0), (2, 1, PWR.RAIL_LO_2), (3, 2, PWR.RAIL_LO_3), (5, 1, PWR.RAIL_LO_5),
    (6, 2, PWR.RAIL_LO_6), (8, 4, PWR.RAIL_LO_8), (12, 4, PWR.RAIL_LO_12), (16, 4, PWR.RAIL_LO_16)]
def railHis : List (Nat × Nat × Lay) :=
  [(0, 2, PWR.RAIL_HI_0), (2, 1, PWR.RAIL_HI_2), (3, 2, PWR.RAIL_HI_3), (5, 1, PWR.RAIL_HI_5),
    (6, 2, PWR.RAIL_HI_6), (8, 4, PWR.RAIL_HI_8), (12, 4, PWR.RAIL_HI_12), (16, 4, PWR.RAIL_HI_16)]

/-- LO and HI of PWR_RAILk. -/
def railLo (k : Nat) : Fld :=
  railField railLos k
def railHi (k : Nat) : Fld :=
  railField railHis k

/-- A voltage in mV; that of a negative rail is signed. -/
def railMv (k v : Nat) : Int := if 12 ≤ k && k < 16 then signedOf 16 v else (v : Int)

/-- The rail's average lies below LO, or above HI. -/
def State.railUnder (s : State) (k : Nat) : Bool := decide (railMv k (s.rd (PWR.RAIL_V.f k)) < railMv k (s.rd (railLo k)))
def State.railAbove (s : State) (k : Nat) : Bool := decide (railMv k (s.rd (railHi k)) < railMv k (s.rd (PWR.RAIL_V.f k)))

/-- A rail that has been averaged is in alarm. -/
def State.railAlarm (s : State) (k : Nat) : Bool := s.bit PWR.SEEN.f k && (s.railUnder k || s.railAbove k)

/-- Some rail is in alarm: RAIL_ALM. -/
def State.anyAlarm (s : State) : Bool := (List.range 20).any s.railAlarm

/-- A sensor reads TWARN or more (R478). -/
def State.sensorWarns (s : State) (k : Nat) : Bool :=
  decide (signedOf 8 (s.rd PWR.TLIM_TWARN.f) * 8 ≤ signedOf 12 (s.rd (PWR.TEMP.f k)))

/-- A sensor reads TCRIT or more (R478). -/
def State.sensorCritical (s : State) (k : Nat) : Bool :=
  decide (signedOf 8 (s.rd PWR.TLIM_TCRIT.f) * 8 ≤ signedOf 12 (s.rd (PWR.TEMP.f k)))

/-- An event source with PROT = 1 is active (R507). -/
def State.protSourceActive (s : State) : Bool :=
  (s.listed EVT.src 0).any fun e => bitOf e.2 10 && bitOf e.2 21

/-- A channel is held in its safe state (R69): its tile's latch is set, TREF is lost, the islands wait for a reference
(R467), a FAILED self-test record holds the device, or the outputs have not been released since the start or for
standby. -/
def State.inSafe (s : State) (c : Nat) : Bool :=
  s.flag (VLV.TRIP.f (c / 32)) || s.flag VLV.TREF_SAFE.f || s.flag CLK.WAITREF.f || s.flag BST.HOLD.f ||
    s.flag VLV.OUT_HELD.f

/-- The DRAM channels hold their queues: from the loss of REFCLK to the end of fallback (R466, R468). -/
def State.dramHeld (s : State) : Bool :=
  s.flag CLK.FALLBACK.f || s.flag CLK.WAITREF.f || s.flag CLK.FB_PEND.f || s.flag CLK.RET_PEND.f

/-- Only the requests of R444 are served. -/
def State.safeOnly (s : State) : Bool := !s.flag CFG.LOADED.f || s.flag CFG.SAFEHOLD.f

/-- The device belongs to a cascade: JOINED or MASTER (R411). -/
def State.inCascade (s : State) : Bool := s.rd TWD.STAT_STATE.f == 3 || s.rd TWD.STAT_STATE.f == 5

/-- Where the safe state of R69 is high impedance with the clamps off, whatever SAFE_MODE holds: before the outputs are
released, but for a hold by a FAILED record; and throughout a self-test (R519). -/
def State.inHiz (s : State) : Bool := s.flag VLV.OUT_HELD.f && (!s.flag BST.HOLD.f || s.flag BST.RUN.f)

/-- VVD_Tn of a tile stands outside its range of R558, 873 mV to 927 mV, by its last average (R561). -/
def State.tileStarved (s : State) (t : Nat) : Bool :=
  s.bit PWR.SEEN.f (16 + t) && (s.rd (PWR.RAIL_V.f (16 + t)) < 873 || 927 < s.rd (PWR.RAIL_V.f (16 + t)))

/-- The pin of a channel is high-impedance with its clamps off: its tile is unpowered or starved, or the outputs are
held (R69, R561). -/
def State.pinDead (s : State) (c : Nat) : Bool := s.inHiz || !s.dieOn || s.tileStarved (c / 32)

/-! Register words from the layout. -/

/-- The instance (i, j) of a field whose register lies at a word address. -/
def Lay.idx? (l : Lay) (a : Nat) : Option (Nat × Nat) :=
  if a < l.base then none
  else
    let d := a - l.base
    let two := fun (s1 n1 s2 n2 : Nat) =>
      if d / s1 < n1 && d % s1 % s2 == 0 && d % s1 / s2 < n2 then some (d / s1, d % s1 / s2) else none
    if l.n1 = 1 && l.n2 = 1 then if d = 0 then some (0, 0) else none
    else if l.n2 = 1 then if d % l.s1 = 0 && d / l.s1 < l.n1 then some (d / l.s1, 0) else none
    else if l.s2 ≤ l.s1 then two l.s1 l.n1 l.s2 l.n2
    else (two l.s2 l.n2 l.s1 l.n1).map fun x => (x.2, x.1)

/-- The instance of a field whose register lies at a word address. -/
def Lay.at? (l : Lay) (a : Nat) : Option Fld := (l.idx? a).map fun x => l.f x.1 x.2

/-- The key of a register field belongs to a field of the layout. -/
def Lay.owns (l : Lay) (key : Nat) : Bool := key % 32 == l.lsb && (l.idx? (key / 32)).isSome

/-- The fields of the register at a word address, with their kinds. -/
def fieldsAt (ls : List Lay) (a : Nat) : List (Kind × Fld) := ls.filterMap fun l => (l.at? a).map fun f => (l.kind, f)

/-- The word that a read of a register returns: its RO and RW fields, each read by `rd`; WO, WT and RSV bits read zero.
-/
def readFields (ls : List Lay) (a : Nat) (rd : Fld → Nat) : Nat :=
  (fieldsAt ls a).foldl (fun v x => if x.1 == .ro || x.1 == .rw then v + rd x.2 * 2 ^ x.2.lsb else v) 0

/-- Store the RW and WO fields of the register at a word address. -/
def State.writeFields (s : State) (ls : List Lay) (a v : Nat) : State :=
  (fieldsAt ls a).foldl (fun s x => if x.1 == .rw || x.1 == .wo then s.wr x.2 (v / 2 ^ x.2.lsb) else s) s

/-- The flag-page register and the bit that an alias names, by the alias's offset from the first alias (R37). -/
def aliasWord (off : Nat) : Nat × Nat := (off / 128 * 4, off / 4 % 32)

end Sys2Proof.Machine
end

