-- ==== Sys2Proof/Machine/Balls.lean ====
section
/-! DEFINITION. The ball map: the groups, their regions, their fill orders and their ball lists, the ball index, and the
cells of the boundary-scan register (R550 to R556). Log entry 93. -/

namespace Sys2Proof.Machine

/-- A ball by its use. A pair's second leg (`neg`) is the N or C leg; subchannel 0 is A and 1 is B. -/
inductive Ball
  | ch (c : Nat)
  | ks (c : Nat)
  | sns (t k : Nat) (neg : Bool)
  | lane (w l : Nat) (rx neg : Bool)
  | eth (rx neg : Bool)
  | refclk (neg : Bool)
  | tref (neg : Bool)
  | xtalIn | xtalOut
  | tck | tms | tdi | tdo | trstN
  | rstN | wakeN | psPg | psEnMain | safeN | done
  | masterSel
  | evin (k : Nat)
  | flCsN | flSck | flDqs
  | flIo (k : Nat)
  | flResetN
  | sfpAbs | sfpLos | sfpTxdis
  | dq (n sub k : Nat)
  | dqs (n sub k : Nat) (neg : Bool)
  | ca (n sub k : Nat)
  | par (n sub : Nat)
  | csN (n sub rank : Nat)
  | ck (n sub slot : Nat) (neg : Bool)
  | alertN (n sub : Nat)
  | dramResetN (n : Nat)
  | scl (n : Nat)
  | sda (n : Nat)
  | zq (n : Nat)
  | supply (rail : Nat)
  | vbat
  | ground
  | open_
  deriving DecidableEq, Repr

/-- A supply or ground ball. -/
def Ball.power : Ball → Bool
  | .supply _ => true
  | .vbat => true
  | .ground => true
  | _ => false

/-- The unit of a DRAM ball: its channel. -/
def Ball.dram : Ball → Option Nat
  | .dq n _ _ => some n
  | .dqs n _ _ _ => some n
  | .ca n _ _ => some n
  | .par n _ => some n
  | .csN n _ _ => some n
  | .ck n _ _ _ => some n
  | .alertN n _ => some n
  | .dramResetN n => some n
  | .scl n => some n
  | .sda n => some n
  | .zq n => some n
  | _ => none

/-- The ball belongs to a unit that the option lacks, so that it is high-impedance (R551). -/
def State.ballAbsent (s : State) (b : Ball) : Bool :=
  match b with
  | .lane w _ _ _ => !s.hasTwp w
  | b => match b.dram with
    | some n => !s.hasDc n
    | none => false

/-! Ball lists (R553, R556). -/

/-- Both legs of a pair. -/
def pair (f : Bool → Ball) : List Ball := [f false, f true]

/-- After every `k`-th ball of a list, `extra j` follows, where `j` counts the balls so far; `i` is where the list
begins. -/
def spread (k : Nat) (extra : Nat → List Ball) : Nat → List Ball → List Ball
  | _, [] => []
  | i, b :: bs => b :: ((if (i + 1) % k = 0 then extra (i + 1) else []) ++ spread k extra (i + 1) bs)

def rep (n : Nat) (b : Ball) : List Ball := List.replicate n b

/-- The list of a tile group. -/
def tileBalls (t : Nat) : List Ball :=
  let signals := ((List.range 32).flatMap fun c => [Ball.ch (32 * t + c), Ball.ks (32 * t + c)]) ++
    (List.range 8).flatMap fun k => pair (.sns t k)
  spread 4 (fun _ => [.ground]) 0 signals ++ rep 4 .ground ++ rep 36 (.supply (16 + t)) ++ rep 36 (.supply (8 + t)) ++
    rep 20 (.supply (12 + t))

/-- The list of the lanes. -/
def laneBalls : List Ball :=
  let lanes := (List.range 16).flatMap fun i =>
    pair (.lane (i / 4) (i % 4) false) ++ pair (.lane (i / 4) (i % 4) true) ++ [.ground]
  lanes ++ pair (.eth false) ++ pair (.eth true) ++ [.ground] ++ rep 15 .ground ++ rep 40 (.supply 5)

/-- The list of clocks, JTAG and always-on control. -/
def controlBalls : List Ball :=
  pair .refclk ++ [.ground] ++ pair .tref ++ [.ground, .xtalIn, .xtalOut, .ground, .tck, .tms, .tdi, .tdo, .trstN, .ground,
    .rstN, .wakeN, .psPg, .psEnMain, .safeN, .done, .ground] ++ rep 4 (.supply 7) ++ [.vbat, .ground] ++ rep 12 .open_

/-- The signals of a subchannel. -/
def subBalls (n sub : Nat) : List Ball :=
  (List.range 40).map (Ball.dq n sub) ++ (List.range 10).flatMap (fun k => pair (.dqs n sub k)) ++
    (List.range 7).map (Ball.ca n sub) ++ [.par n sub] ++ (List.range 4).map (Ball.csN n sub) ++
    pair (.ck n sub 0) ++ pair (.ck n sub 1) ++ [.alertN n sub]

/-- The 158 signals of a DRAM channel. -/
def channelBalls (n : Nat) : List Ball := subBalls n 0 ++ subBalls n 1 ++ [.dramResetN n, .scl n, .sda n, .zq n]

/-- The block of a DRAM channel, of the supply `rail`. -/
def dramBlock (rail n : Nat) : List Ball :=
  spread 2 (fun j => .ground :: if j % 8 = 0 then [.supply rail] else []) 0 (channelBalls n) ++ [.ground, .supply rail]

/-- The list of a DRAM group, whose first channel is `n`. -/
def dramBalls (rail n : Nat) : List Ball :=
  ((List.range 6).flatMap fun k => dramBlock rail (n + k)) ++ rep 10 .ground

/-- The signals of group 8. -/
def sideSignals : List Ball :=
  .masterSel :: (List.range 8).map Ball.evin ++ [.flCsN, .flSck, .flDqs] ++ (List.range 8).map Ball.flIo ++
    [.flResetN, .sfpAbs, .sfpLos, .sfpTxdis]

def sideBalls : List Ball := spread 3 (fun _ => [.ground]) 0 sideSignals ++ rep 8 .ground ++ rep 16 (.supply 6)

/-- The `i`-th supply ball of group 9: the first 96 are VSRAM, the others VCORE. -/
def coreSupply (i : Nat) : Ball := .supply (if i < 96 then 2 else 0)

def coreBalls : List Ball :=
  ((List.range 224).flatMap fun i => [coreSupply (2 * i), coreSupply (2 * i + 1), .ground]) ++
    (List.range 8).flatMap fun i => [coreSupply (448 + i), .ground]

def canvasBalls : List Ball := (List.range 120).flatMap fun _ => [.supply 1, .supply 1, .ground]

/-- The ball list of a group. -/
def groupBalls (g : Nat) : List Ball :=
  if g < 4 then tileBalls g
  else match g with
    | 4 => laneBalls
    | 5 => controlBalls
    | 6 => dramBalls 3 0
    | 7 => dramBalls 4 6
    | 8 => sideBalls
    | 9 => coreBalls
    | 10 => canvasBalls
    | _ => []

/-- How many balls a group has. -/
def groupSize (g : Nat) : Nat :=
  if g < 4 then 196
  else match g with
    | 4 => 140
    | 5 => 40
    | 6 => 1558
    | 7 => 1558
    | 8 => 56
    | 9 => 688
    | 10 => 360
    | _ => 0

/-! Regions and fill orders (R552, R553). -/

/-- The cells of some rows and columns, row by row or column by column. -/
def byRows (rows cols : List Nat) : List (Nat × Nat) := rows.flatMap fun y => cols.map fun x => (y, x)
def byCols (rows cols : List Nat) : List (Nat × Nat) := cols.flatMap fun x => rows.map fun y => (y, x)

/-- The numbers from `a` to `b`, rising or falling. -/
def upTo (a b : Nat) : List Nat := List.range' a (b + 1 - a)
def downTo (b a : Nat) : List Nat := (upTo a b).reverse

/-- The places of a group, as rows and columns in its fill order. -/
def groupPlaces (g : Nat) : List (Nat × Nat) :=
  match g with
  | 0 => byRows (upTo 1 14) (upTo 1 14)
  | 1 => byRows (upTo 1 14) (downTo 72 59)
  | 2 => byRows (downTo 72 59) (upTo 1 14)
  | 3 => byRows (downTo 72 59) (downTo 72 59)
  | 4 => byRows (downTo 72 66) (upTo 28 45) ++ byRows [65] (upTo 30 43)
  | 5 => byRows (upTo 1 2) (upTo 29 44) ++ byRows [3] (upTo 29 36)
  | 6 => byCols (upTo 15 58) (upTo 1 14) ++ byCols (upTo 1 72) (upTo 15 27) ++ byCols (upTo 1 6) [28]
  | 7 => byCols (upTo 15 58) (downTo 72 59) ++ byCols (upTo 1 72) (downTo 58 46) ++ byCols (upTo 1 6) [45]
  | 8 => byRows [3] (upTo 37 44) ++ byRows (upTo 4 6) (upTo 29 44)
  | 9 => byRows (upTo 27 64) (upTo 28 45) ++ byRows [65] [28, 29, 44, 45]
  | 10 => byRows (upTo 7 26) (upTo 28 45)
  | _ => []

/-- Every ball of a group with its place. -/
def groupMap (g : Nat) : List ((Nat × Nat) × Ball) := (groupPlaces g).zip (groupBalls g)

/-- The group and the ball at row `y` and column `x`. -/
def ballAt (y x : Nat) : Option (Nat × Ball) :=
  (List.range 11).findSome? fun g => ((groupMap g).find? fun e => e.1 == (y, x)).map fun e => (g, e.2)

/-! The ball index and boundary scan (R550, R554). -/

/-- The groups that the self-test and boundary scan reach. -/
def scannable (g : Nat) : Bool := 6 ≤ g && g ≤ 10

/-- The signal balls of groups 6, 7 and 8 in boundary-scan register order. -/
def scanBalls : List Ball :=
  (List.range 12).flatMap channelBalls ++ sideSignals

/-- The cells of the boundary-scan register. -/
def scanCells : Nat := 1920

/-- The balls of groups 6 to 10 by their ball index, each with its group and place: the signal balls, then the supply
and ground balls. -/
def indexedBalls : List (Nat × (Nat × Nat) × Ball) :=
  let all := [6, 7, 8, 9, 10].flatMap fun g => (groupMap g).map fun e => (g, e)
  all.filter (fun e => !e.2.2.power) ++ all.filter fun e => e.2.2.power

/-- The ball of a ball index. -/
def ballOf (i : Nat) : Option (Nat × (Nat × Nat) × Ball) := indexedBalls[i]?

/-- The self-test drives or probes the balls of a group: a scannable one whose bit of BST_BSMASK is set. -/
def State.groupTested (s : State) (g : Nat) : Bool := scannable g && s.bit BST.BSMASK.f g

end Sys2Proof.Machine
end

