-- ==== Sys2Proof/Machine/Cipher.lean ====
section
/-! DEFINITION. The arithmetic that protects a line of DRAM: GF(2^8), the Reed–Solomon code of R257, AES-256 (R277,
R279), the AES key unwrap of SP 800-38F (R278), GHASH of SP 800-38D with the MACs over it (R280), and HMAC-SHA-256
(R531). Nothing here reads the state. A block of AES is a number whose most significant byte is byte 0. Log entry 43.
-/

namespace Sys2Proof.Machine

/-! GF(2^8). -/

/-- The double of an element modulo a field polynomial of degree 8. -/
def gfDouble (p a : Nat) : Nat := if a < 128 then a * 2 else a * 2 ^^^ p

/-- The product of two elements modulo a field polynomial. -/
def gfMul (p a b : Nat) : Nat :=
  (List.range 8).foldr (fun i r => if bitOf b i then gfDouble p r ^^^ a else gfDouble p r) 0

/-- `a` to the power `n`. -/
def gfPow (p a : Nat) : Nat → Nat
  | 0 => 1
  | n + 1 => gfMul p a (gfPow p a n)

/-- The inverse of an element, 0 for 0: its power 254. -/
def gfInv (p a : Nat) : Nat :=
  let sq := fun x => gfMul p x x
  let a2 := sq a
  let a3 := gfMul p a2 a
  let a12 := sq (sq a3)
  let a15 := gfMul p a12 a3
  let a240 := sq (sq (sq (sq a15)))
  gfMul p (gfMul p a240 a12) a2

/-! The Reed–Solomon code (R257). Bytes of a codeword are listed from byte 0, the highest degree. -/

/-- The field polynomial x^8 + x^4 + x^3 + x^2 + 1. -/
def rsPoly : Nat := 0x11D

/-- α to the power `n`. -/
def rsAlpha (n : Nat) : Nat := gfPow rsPoly 2 n

/-- The product of a polynomial, highest coefficient first, with x - r. -/
def rsTimes (l : List Nat) (r : Nat) : List Nat :=
  l.zipWith (fun a b => a ^^^ gfMul rsPoly r b) (0 :: l) ++ [gfMul rsPoly r (l.getD (l.length - 1) 0)]

/-- The generator (x - α^0) … (x - α^15), highest coefficient first. -/
def rsGenerator : List Nat := (List.range 16).foldl (fun l i => rsTimes l (rsAlpha i)) [1]

/-- The 16 check bytes of a line: the remainder of its polynomial times x^16. -/
def rsCheck (line : List Nat) : List Nat :=
  let g := rsGenerator.drop 1
  line.foldl (fun r b =>
    let f := b ^^^ r.getD 0 0
    (r.drop 1 ++ [0]).zipWith (fun x y => x ^^^ gfMul rsPoly f y) g) (List.replicate 16 0)

/-- The codeword of a line; a poisoned line has every check byte inverted (R258). -/
def rsCodeword (line : List Nat) (poison : Bool) : List Nat :=
  line ++ (rsCheck line).map fun b => if poison then 255 - b else b

/-- The 16 syndromes of a word. -/
def rsSyndromes (w : List Nat) : List Nat :=
  (List.range 16).map fun i => w.foldl (fun s b => gfMul rsPoly s (rsAlpha i) ^^^ b) 0

/-- The coefficients of the product of 1 - X x over the locators X of the bytes of a device, lowest first. -/
def rsLocator (dev : Nat) : List Nat :=
  (List.range 8).foldl (fun l k =>
    let x := rsAlpha (79 - (8 * dev + k))
    (l ++ [0]).zipWith (fun a b => a ^^^ gfMul rsPoly x b) (0 :: l)) [1]

/-- Coefficient `i` of the product of two polynomials, lowest coefficients first. -/
def rsConv (a b : List Nat) (i : Nat) : Nat :=
  (List.range (i + 1)).foldl (fun s j => s ^^^ gfMul rsPoly (a.getD j 0) (b.getD (i - j) 0)) 0

/-- The syndromes are those of an error confined to the bytes of a device. -/
def rsConfined (syn : List Nat) (dev : Nat) : Bool :=
  (List.range 8).all fun i => rsConv (rsLocator dev) syn (i + 8) == 0

/-- The value of a polynomial, lowest coefficient first. -/
def rsEval (l : List Nat) (x : Nat) : Nat := l.foldr (fun c s => gfMul rsPoly s x ^^^ c) 0

/-- The error of a device that gives the syndromes, by byte of the device. -/
def rsErrors (syn : List Nat) (dev : Nat) : List Nat :=
  let lam := rsLocator dev
  let om := (List.range 8).map fun i => rsConv lam syn i
  let der := (List.range 8).map fun i => if i % 2 = 0 then lam.getD (i + 1) 0 else 0
  (List.range 8).map fun k =>
    let x := rsAlpha (79 - (8 * dev + k))
    let y := gfInv rsPoly x
    gfMul rsPoly x (gfMul rsPoly (rsEval om y) (gfInv rsPoly (rsEval der y)))

/-- What the decoder makes of a word, told by how the word differs from a codeword: nothing in error; one device, with
the difference it takes out; the reserved syndrome, with or without one device in error; anything else (R259). -/
inductive RsOutcome
  | clean
  | device (dev : Nat) (errs : List Nat)
  | reserved
  | other
  deriving DecidableEq, Repr

/-- The syndromes of the reserved syndrome: sixteen check bytes inverted (R258). -/
def rsReserved : List Nat := List.replicate 64 0 ++ List.replicate 16 255

/-- Bytes combined one by one. -/
def xorBytes (a b : List Nat) : List Nat := a.zipWith (· ^^^ ·) b

/-- The decoder. The code is linear, so the difference from a codeword has the syndromes of the word itself. -/
def rsDecode (diff : List Nat) : RsOutcome :=
  if diff.all (· == 0) then .clean
  else
  let syn := rsSyndromes diff
  if syn.all (· == 0) then .clean
  else
    match (List.range 10).find? fun d => rsConfined syn d with
    | some d => .device d (rsErrors syn d)
    | none =>
      let syn := xorBytes syn (rsSyndromes rsReserved)
      if syn.all (· == 0) || (List.range 10).any fun d => rsConfined syn d then .reserved else .other

/-- The errors of a device as a difference of 80 bytes. -/
def rsDevice (dev : Nat) (errs : List Nat) : List Nat :=
  List.replicate (8 * dev) 0 ++ errs ++ List.replicate (72 - 8 * dev) 0

/-! AES-256 (FIPS 197). -/

/-- The field polynomial of AES. -/
def aesPoly : Nat := 0x11B

/-- Rotate a byte left. -/
def rotl8 (b n : Nat) : Nat := b * 2 ^ n % 256 + b / 2 ^ (8 - n)

/-- The S-box. -/
def aesSub (b : Nat) : Nat :=
  let i := gfInv aesPoly b
  i ^^^ rotl8 i 1 ^^^ rotl8 i 2 ^^^ rotl8 i 3 ^^^ rotl8 i 4 ^^^ 0x63

/-- The inverse S-box. -/
def aesUnsub (b : Nat) : Nat := gfInv aesPoly (rotl8 b 1 ^^^ rotl8 b 3 ^^^ rotl8 b 6 ^^^ 0x05)

/-- The bytes of a number, the most significant first. -/
def beBytes (n v : Nat) : List Nat := (List.range n).map fun i => v / 256 ^ (n - 1 - i) % 256

/-- The number that bytes spell, the most significant first. -/
def ofBe (l : List Nat) : Nat := l.foldl (fun v b => v * 256 + b) 0

/-- Word `i` of the key schedule from the word eight before it and the word before it. -/
def aesNextWord (i : Nat) (w8 w1 : List Nat) : List Nat :=
  let t :=
    if i % 8 = 0 then
      xorBytes ((w1.drop 1 ++ w1.take 1).map aesSub) [gfPow aesPoly 2 (i / 8 - 1), 0, 0, 0]
    else if i % 8 = 4 then w1.map aesSub
    else w1
  xorBytes w8 t

/-- The key schedule of a 256-bit key: 60 words of four bytes. -/
def aesSchedule (key : Nat) : List (List Nat) :=
  (List.range 52).foldl
    (fun ws i => ws ++ [aesNextWord (i + 8) (ws.getD i []) (ws.getD (i + 7) [])])
    ((List.range 8).map fun i => ((beBytes 32 key).drop (4 * i)).take 4)

/-- The round key of round `r`. -/
def aesRoundKey (ws : List (List Nat)) (r : Nat) : List Nat := (List.range 4).flatMap fun i => ws.getD (4 * r + i) []

/-- ShiftRows on the sixteen bytes of a block, column by column. -/
def aesShift (l : List Nat) : List Nat := (List.range 16).map fun i => l.getD ((i + 4 * (i % 4)) % 16) 0

/-- The inverse of ShiftRows. -/
def aesUnshift (l : List Nat) : List Nat := (List.range 16).map fun i => l.getD ((i + 12 * (i % 4)) % 16) 0

/-- MixColumns with the four coefficients of its first row. -/
def aesMix (m : List Nat) (l : List Nat) : List Nat :=
  (List.range 16).map fun i =>
    (List.range 4).foldl
      (fun s j => s ^^^ gfMul aesPoly (m.getD ((j + 4 - i % 4) % 4) 0) (l.getD (i / 4 * 4 + j) 0)) 0

/-- AES-256 of a 128-bit block under a 256-bit key. -/
def aes256 (key blk : Nat) : Nat :=
  let ws := aesSchedule key
  let l := xorBytes (beBytes 16 blk) (aesRoundKey ws 0)
  let l := (List.range 13).foldl
    (fun l r => xorBytes (aesMix [2, 3, 1, 1] (aesShift (l.map aesSub))) (aesRoundKey ws (r + 1))) l
  ofBe (xorBytes (aesShift (l.map aesSub)) (aesRoundKey ws 14))

/-- The inverse of AES-256 under a key. -/
def aes256Inv (key blk : Nat) : Nat :=
  let ws := aesSchedule key
  let l := xorBytes (beBytes 16 blk) (aesRoundKey ws 14)
  let l := (List.range 13).foldl
    (fun l r => aesMix [14, 11, 13, 9] (xorBytes ((aesUnshift l).map aesUnsub) (aesRoundKey ws (13 - r)))) l
  ofBe (xorBytes ((aesUnshift l).map aesUnsub) (aesRoundKey ws 0))

/-! The key unwrap (R278): KW of SP 800-38F, without padding, of four semiblocks. -/

/-- Step `t` of the unwrap, from 24 down to 1: the register A and the four semiblocks. -/
def kwStep (kek : Nat) (x : Nat × List Nat) (t : Nat) : Nat × List Nat :=
  let i := (t - 1) % 4
  let b := aes256Inv kek ((x.1 ^^^ t) * 2 ^ 64 + x.2.getD i 0)
  (b / 2 ^ 64, x.2.set i (b % 2 ^ 64))

/-- The 256-bit key that a blob of 40 bytes wraps under a key-wrapping key, none where the integrity check fails. -/
def kwUnwrap (kek : Nat) (blob : List Nat) : Option Nat :=
  let semi := (List.range 5).map fun i => ofBe ((blob.drop (8 * i)).take 8)
  let x := (List.range 24).foldl (fun x t => kwStep kek x (24 - t)) (semi.getD 0 0, semi.drop 1)
  if x.1 = 0xA6A6A6A6A6A6A6A6 then some (x.2.foldl (fun v b => v * 2 ^ 64 + b) 0) else none

/-! Keys, keystream and MACs (R277, R279, R280). -/

/-- B(g, i) (R277). -/
def encBlock (g i : Nat) : Nat := g % 2 ^ 16 * 2 ^ 112 + i % 256

/-- A derived key: its two halves under B(g, i) and B(g, i + 1) (R277). -/
def deriveKey (k g i : Nat) : Nat := aes256 k (encBlock g i) * 2 ^ 128 + aes256 k (encBlock g (i + 1))

/-- The encryption key, the MAC key and the tree key. -/
def keyE (k g : Nat) : Nat := deriveKey k g 1
def keyM (k g : Nat) : Nat := deriveKey k g 3
def keyT (k0 : Nat) : Nat := deriveKey k0 0 5

/-- The counter block: the physical address with its key ID, the counters, and j (R279). -/
def counterBlock (pa48 major minor j : Nat) : Nat :=
  pa48 / 64 % 2 ^ 42 * 2 ^ 86 + major % 2 ^ 64 * 2 ^ 22 + minor % 2 ^ 7 * 2 ^ 15 + j % 4 * 2 ^ 13

/-- Block j of a line of 64 bytes, its first byte the most significant. -/
def lineBlock (line : List Nat) (j : Nat) : Nat := ofBe ((line.drop (16 * j)).take 16)

/-- AES-256 in counter mode over a line: encryption and decryption alike (R279). -/
def ctrLine (ke pa48 major minor : Nat) (line : List Nat) : List Nat :=
  (List.range 4).flatMap fun j =>
    beBytes 16 (lineBlock line j ^^^ aes256 ke (counterBlock pa48 major minor j))

/-- The product of GHASH's field, bit 0 of an element being its most significant. -/
def ghashMul (x y : Nat) : Nat :=
  ((List.range 128).foldl (fun (a : Nat × Nat) i =>
    (if bitOf x (127 - i) then a.1 ^^^ a.2 else a.1, if a.2 % 2 = 1 then a.2 / 2 ^^^ 0xE1 * 2 ^ 120 else a.2 / 2)) (0, y)).1

/-- GHASH of SP 800-38D. -/
def ghash (h : Nat) (blocks : List Nat) : Nat := blocks.foldl (fun y x => ghashMul (y ^^^ x) h) 0

/-- The MAC over the four blocks of a line and the counter block L under a MAC key (R280). -/
def lineMac (km l : Nat) (line : List Nat) : Nat :=
  (ghash (aes256 km 0) ((List.range 4).map (lineBlock line) ++ [l]) ^^^ aes256 km l) / 2 ^ 64

/-! SHA-256 of FIPS 180-4 and HMAC of RFC 2104 (R531). -/

/-- The 64 round constants. -/
def shaK : List Nat :=
  [0x428A2F98, 0x71374491, 0xB5C0FBCF, 0xE9B5DBA5, 0x3956C25B, 0x59F111F1, 0x923F82A4, 0xAB1C5ED5,
    0xD807AA98, 0x12835B01, 0x243185BE, 0x550C7DC3, 0x72BE5D74, 0x80DEB1FE, 0x9BDC06A7, 0xC19BF174] ++
  [0xE49B69C1, 0xEFBE4786, 0x0FC19DC6, 0x240CA1CC, 0x2DE92C6F, 0x4A7484AA, 0x5CB0A9DC, 0x76F988DA,
    0x983E5152, 0xA831C66D, 0xB00327C8, 0xBF597FC7, 0xC6E00BF3, 0xD5A79147, 0x06CA6351, 0x14292967] ++
  [0x27B70A85, 0x2E1B2138, 0x4D2C6DFC, 0x53380D13, 0x650A7354, 0x766A0ABB, 0x81C2C92E, 0x92722C85,
    0xA2BFE8A1, 0xA81A664B, 0xC24B8B70, 0xC76C51A3, 0xD192E819, 0xD6990624, 0xF40E3585, 0x106AA070] ++
  [0x19A4C116, 0x1E376C08, 0x2748774C, 0x34B0BCB5, 0x391C0CB3, 0x4ED8AA4A, 0x5B9CCA4F, 0x682E6FF3,
    0x748F82EE, 0x78A5636F, 0x84C87814, 0x8CC70208, 0x90BEFFFA, 0xA4506CEB, 0xBEF9A3F7, 0xC67178F2]

/-- A word rotated right. -/
def rotr32 (x n : Nat) : Nat := x / 2 ^ n + x % 2 ^ n * 2 ^ (32 - n)

/-- The message schedule: a block's 16 words and the 48 that follow from them. -/
def shaSchedule (ws : List Nat) : List Nat :=
  (List.range 48).foldl (fun l t =>
    let a := l.getD (t + 1) 0
    let b := l.getD (t + 14) 0
    let s0 := rotr32 a 7 ^^^ rotr32 a 18 ^^^ a / 2 ^ 3
    let s1 := rotr32 b 17 ^^^ rotr32 b 19 ^^^ b / 2 ^ 10
    l ++ [(l.getD t 0 + s0 + l.getD (t + 9) 0 + s1) % 2 ^ 32]) ws

/-- A round on the eight working variables, with its constant plus its word. -/
def shaRound (v : List Nat) (kw : Nat) : List Nat :=
  let x := fun i => v.getD i 0
  let t1 := x 7 + (rotr32 (x 4) 6 ^^^ rotr32 (x 4) 11 ^^^ rotr32 (x 4) 25) +
    ((x 4 &&& x 5) ^^^ ((2 ^ 32 - 1 - x 4) &&& x 6)) + kw
  let t2 := (rotr32 (x 0) 2 ^^^ rotr32 (x 0) 13 ^^^ rotr32 (x 0) 22) +
    ((x 0 &&& x 1) ^^^ (x 0 &&& x 2) ^^^ (x 1 &&& x 2))
  [(t1 + t2) % 2 ^ 32, x 0, x 1, x 2, (x 3 + t1) % 2 ^ 32, x 4, x 5, x 6]

/-- A block of 64 bytes joins the hash. -/
def shaBlock (h : List Nat) (bytes : List Nat) : List Nat :=
  let w := shaSchedule ((List.range 16).map fun i => ofBe ((bytes.drop (4 * i)).take 4))
  let v := (shaK.zipWith (· + ·) w).foldl shaRound h
  h.zipWith (fun a b => (a + b) % 2 ^ 32) v

/-- The initial hash. -/
def shaInit : List Nat :=
  [0x6A09E667, 0xBB67AE85, 0x3C6EF372, 0xA54FF53A, 0x510E527F, 0x9B05688C, 0x1F83D9AB, 0x5BE0CD19]

/-- A message with its padding to whole blocks. -/
def shaPad (m : List Nat) : List Nat :=
  m ++ [0x80] ++ List.replicate ((119 - m.length % 64) % 64) 0 ++ beBytes 8 (8 * m.length)

/-- SHA-256 of a message: 32 bytes. -/
def sha256 (m : List Nat) : List Nat :=
  let p := shaPad m
  ((List.range (p.length / 64)).foldl (fun h i => shaBlock h ((p.drop (64 * i)).take 64)) shaInit).flatMap (beBytes 4)

/-- HMAC-SHA-256 under a key of at most 64 bytes. -/
def hmacSha256 (key m : List Nat) : List Nat :=
  let k := key ++ List.replicate (64 - key.length) 0
  sha256 (k.map (· ^^^ 0x5C) ++ sha256 (k.map (· ^^^ 0x36) ++ m))

end Sys2Proof.Machine
end

