-- ==== Sys2Proof/Machine/Velvet.lean ====
section
/-! DEFINITION. The Velvet pin front end (R48 to R87): levels, driver, detectors and trip, PMU, analogue matrix.
Log entries 8, 11, 12, 13 and 14. -/

namespace Sys2Proof.Machine

/-! Levels (R53 to R56, R58). -/

/-- The register of a level. -/
def levelLay : Level → Lay
  | .vih => VLV.CH_VIH
  | .vil => VLV.CH_VIL
  | .vtt => VLV.CH_VTT
  | .voh => VLV.CH_VOH
  | .vol => VLV.CH_VOL
  | .vcom => VLV.CH_VCOM
  | .vch => VLV.CH_VCH
  | .vcl => VLV.CH_VCL
  | .vsafe => VLV.CH_VSAFE

/-- The word of a level in `VLV.held`. -/
def levelIdx : Level → Nat
  | .vih => 0
  | .vil => 1
  | .vtt => 2
  | .voh => 3
  | .vol => 4
  | .vcom => 5
  | .vch => 6
  | .vcl => 7
  | .vsafe => 8

def allLevels : List Level := [.vih, .vil, .vtt, .voh, .vol, .vcom, .vch, .vcl, .vsafe]

/-- The lowest valid code of a level (R54). -/
def levelLo : Level → Nat
  | .voh => 0x1388
  | .vol => 0x1388
  | .vch => 0x1388
  | .vcl => 0x1388
  | _ => 0x2710

/-- The highest valid code of a level (R54). -/
def levelHi : Level → Nat
  | .voh => 0xEA60
  | .vol => 0xEA60
  | .vch => 0xEA60
  | .vcl => 0xEA60
  | _ => 0xD6D8

/-- A code held at the nearer end of its range (R54). -/
def clampCode (lo hi c : Nat) : Nat := max lo (min hi c)

/-- The code at which a level stands (R54). -/
def State.levelCode (s : State) (l : Level) (c : Nat) : Nat :=
  clampCode (levelLo l) (levelHi l) (s.rd ((levelLay l).ch c))

/-- VLV_CH_PMU mode, 3 treated as 2 (R52). -/
def State.pmuMode (s : State) (c : Nat) : Nat := min 2 (s.rd (VLV.CH_PMU_MODE.ch c))

/-- VLV_CH_PMU range, 5 to 7 treated as 4 (R52). -/
def State.pmuRange (s : State) (c : Nat) : Nat := min 4 (s.rd (VLV.CH_PMU_RANGE.ch c))

/-- Some level of the channel, or its PMU force voltage in FVMI, lies outside its range (R54). -/
def State.levelBad (s : State) (c : Nat) : Bool :=
  (allLevels.any fun l => s.levelCode l c != s.rd ((levelLay l).ch c)) ||
    (s.pmuMode c == 0 &&
      clampCode 0x2710 0xD6D8 (s.rd (VLV.CH_PMU_FORCE.ch c)) != s.rd (VLV.CH_PMU_FORCE.ch c))

/-- The swing limit of the mode in force, as a number of codes of 100 µV (R58). -/
def State.swingLimit (s : State) (c : Nat) : Nat := if s.chanExpress c then 10000 else 30000

/-- The distance from VIL to VIH, as a number of codes. -/
def State.swing (s : State) (c : Nat) : Nat :=
  (s.levelCode .vih c - s.levelCode .vil c) + (s.levelCode .vil c - s.levelCode .vih c)

/-- The code that the driver uses for VIH: VIL is kept and VIH moved towards it until the swing equals the limit (R58).
-/
def State.driveHigh (s : State) (c : Nat) : Nat :=
  if s.swing c ≤ s.swingLimit c then s.levelCode .vih c
  else if s.levelCode .vil c < s.levelCode .vih c then s.levelCode .vil c + s.swingLimit c
  else s.levelCode .vil c - s.swingLimit c

/-- The swing rule limits VIH in the mode in force: what DRV_SWING shows (R58). -/
def State.swingLimited (s : State) (c : Nat) : Bool := decide (s.swingLimit c < s.swing c)

/-- Bring LVL_RANGE of a channel up to date (R54). A staged code counts from its commit on: the spec says that a written
code sets LVL_RANGE, and a held one is not yet the level's (DEDUCED, log entry 11). -/
def State.levelStatus (s : State) (c : Nat) : State := s.setFlag (VLV.LVL_RANGE.ch c) (s.levelBad c)

/-- VSAFE is never staged (R55). -/
def staged : Level → Bool
  | .vsafe => false
  | _ => true

/-- A write of a level register (R55). -/
def State.writeLevel (s : State) (c : Nat) (l : Level) (code : Nat) : State :=
  if s.flag (VLV.LVL_STAGED.ch c) && staged l then s.setTab VLV.held c (levelIdx l) (code + 1)
  else ((s.setTab VLV.held c (levelIdx l) 0).wr ((levelLay l).ch c) code).levelStatus c

/-- What a read of a level register returns: its held value while one is held, and the value in force otherwise (R55):
for a code out of range that is the end of the range at which the level is held (R54). -/
def State.readLevel (s : State) (c : Nat) (l : Level) : Nat :=
  match s.tab VLV.held c (levelIdx l) with
  | 0 => s.levelCode l c
  | v + 1 => v

def execLevelWrite (ch : Channel) (lvl : Level) (code : BitVec 16) (s : State) : Out :=
  done (s.reach (((levelLay lvl).ch ch).sets code.toNat) (.vlv (ch / 32)) fun s => s.writeLevel ch lvl code.toNat)

/-- Apply the held value of one level, if any. -/
def State.applyHeld (s : State) (c : Nat) (l : Level) : State :=
  match s.tab VLV.held c (levelIdx l) with
  | 0 => s
  | v + 1 => (s.setTab VLV.held c (levelIdx l) 0).wr ((levelLay l).ch c) v

/-- LVL_COMMIT: apply every held value of every channel of the tile (R55). -/
def State.lvlCommit (s : State) (t : Nat) : State :=
  s.forUpTo 32 fun s k => (allLevels.foldl (fun s l => s.applyHeld (32 * t + k) l) s).levelStatus (32 * t + k)

def execLvlCommit (t : Tile) (s : State) : Out :=
  done (s.reach ((VLV.LVL_COMMIT.f t).sets 1) (.vlv t) fun s => s.lvlCommit t)

/-! The driver's output (R57, R61, R68, R72). -/

/-- What the driver puts on the pin: nothing, with the active load or without it, or a level code through 50 Ω. -/
inductive Drive
  | off (load : Bool)
  | volt (code : Nat)
  deriving DecidableEq, Repr

/-- The TDR engine of its tile holds a channel (R114, R116). -/
def State.tdrHolds (s : State) (c : Nat) : Bool :=
  s.flag (TIM.TDR_BUSY.f (c / 32)) && s.bit (TIM.TDR_ACT.f (c / 32)) (c % 32)

/-- A TDR run of a tile ends on every channel: those that have not finished stay without a result (R116). -/
def State.tdrStop (s : State) (t : Nat) : State := (s.wr (TIM.TDR_UNF.f t) 0).wr (TIM.TDR_ACT.f t) 0

/-- The lowest-numbered channel that was masked when a TDR run of a tile began, from which its engine takes VIL and
VIH. -/
def State.tdrLowest (s : State) (t : Nat) : Option Nat := (List.range 32).find? fun k => s.bit (TIM.TDR_RUN.f t) k

/-- The driver's output of a channel; an unpowered tile's pins are high impedance, and so are those of a tile whose
VVD_Tn is out of range (R69, R561). A masked channel of a TDR run is held at VIL by its engine between the launches
(R114). -/
def State.driverOutput (s : State) (c : Nat) : Drive :=
  if s.pinDead c then .off false
  else if s.inSafe c || s.rd (VLV.AWAIT.f c) != 0 then
    match s.rd (VLV.CH_PROT_SAFE_MODE.ch c) with
    | 1 => .volt (s.levelCode .vsafe c)
    | 2 => .volt (s.levelCode .vtt c)
    | _ => .off false
  else if s.flag (VLV.PMU_EN.ch c) then .off false
  else if s.tdrHolds c then .volt (s.levelCode .vil (c / 32 * 32 + (s.tdrLowest (c / 32)).getD 0))
  else if !s.flag (VLV.DRV_EN.ch c) then .off (s.flag (VLV.LOAD_EN.ch c))
  else
    match s.rd (VLV.SEL.f c) with
    | 1 => .volt (s.levelCode .vtt c)
    | 2 => .volt (s.levelCode .vil c)
    | 3 => .volt (s.driveHigh c)
    | _ => .off (s.flag (VLV.LOAD_EN.ch c))

/-! Detectors and the trip (R63 to R67). -/

/-- Fill VLV_TRIP_CAP of a tile unless it is full (R67). -/
def State.tripCapture (s : State) (t ch cause : Nat) : State :=
  if s.flag (VLV.CAP_FULL.f t) then s
  else ((s.setFlag (VLV.CAP_FULL.f t) true).wr (VLV.TRIP_CAP_CH.f t) ch).wr (VLV.TRIP_CAP_CAUSE.f t) cause

/-- A vector in flight has a strobe of group `g`: a slot that is not empty, on a channel whose CMODE is not OFF (R181).
-/
def State.strobesIn (s : State) (f : Flight) (g : Nat) : Bool :=
  f.cols.any fun c => c.grp == g && s.rd (DMK.CMODE.f c.ch) != 3 && c.slots.any fun x => x != .empty

/-- A trip that becomes active counts for every burst that has a strobe in flight (R150, R182). -/
def State.tripMarks (s : State) : State :=
  s.withRuns (s.runs.map fun (e : Nat × SeqRun) => (e.1, { e.2 with
    bursts := e.2.bursts.map fun b => if e.2.flights.any fun f => s.strobesIn f b.grp then { b with trip := true } else b }))

/-- Set the latch of one tile with a cause, counting the setting in the ledger (R515); a run of the tile's TDR engine
ends without results for the channels that have not finished (R116). -/
def State.latchSet (s : State) (t ch cause : Nat) : State :=
  (((if s.flag (VLV.TRIP.f t) then s else (s.setFlag (VLV.TRIP.f t) true).ledgerInc (0x2E8 + cause)).tripCapture
    t ch cause).tdrStop t).tripMarks

/-- A local cause in tile `t`: its latch and, over the trip lines, the others are set, LOCAL is set in every tile and
SAFE_N is driven low (R65). -/
def State.tripLocal (s : State) (t ch cause : Nat) : State :=
  let s := s.latchSet t ch cause
  let s := s.forUpTo 4 fun s k => if k = t then s else s.latchSet k 0 3
  (s.forUpTo 4 fun s k => s.setFlag (VLV.LOCAL.f k) true).setFlag VLV.SAFE_N_DRV.f true

/-- A cause that acts on every tile as PROT_FORCE does, each capture recording CAUSE 2 (R507, R478). -/
def State.tripEvery (s : State) : State :=
  ((s.forUpTo 4 fun s k => s.latchSet k 0 2).forUpTo 4 fun s k => s.setFlag (VLV.LOCAL.f k) true).setFlag
    VLV.SAFE_N_DRV.f true

def execProtForce (t : Tile) (s : State) : Out :=
  done (s.reach ((VLV.PROT_FORCE.f t).sets 1) (.vlv t) fun s => s.tripLocal t 0 2)

def detectorLay : Detector → Lay
  | .overcurrent => VLV.OC
  | .clampOverload => VLV.CLAMP_OVL

def detectorIn : Detector → Lay
  | .overcurrent => VLV.OC_IN
  | .clampOverload => VLV.CL_IN

def detectorCause : Detector → Nat
  | .overcurrent => 0
  | .clampOverload => 1

/-- The deglitch filter of a channel in ns: (FILT + 1) × 10, codes above 199 treated as 199 (R63). -/
def State.deglitchNs (s : State) (c : Nat) : Nat := (min 199 (s.rd (VLV.CH_PROT_FILT.ch c)) + 1) * 10

/-- A detector's threshold in mA: codes 0 treated as 1, above 20 as 20 (R63). -/
def State.thresholdMa (s : State) (d : Detector) (c : Nat) : Nat :=
  4 * max 1 (min 20 (match d with
    | .overcurrent => s.rd (VLV.CH_PROT_OCTH.ch c)
    | .clampOverload => s.rd (VLV.CH_PROT_CLTH.ch c)))

/-- The current that a detector watches, as last seen. -/
def detectorUa : Detector → Lay
  | .overcurrent => VLV.OC_UA
  | .clampOverload => VLV.CL_UA

/-- A detector compares its current with its threshold (R63): its input becomes active, which starts the filter, or
inactive, which ends the filtered state at once (R64). -/
def State.detectorJudge (s : State) (c : Nat) (d : Detector) : State :=
  let active := decide (s.thresholdMa d c * 1000 < s.rd ((detectorUa d).f c))
  let s := s.setFlag ((detectorIn d).f c) active
  if active then s else s.setFlag ((detectorLay d).ch c) false

/-- The driver's output current, or the larger current of the two clamps, takes the magnitude `ua` in µA. An unpowered
tile has no detectors (R69). -/
def execDetectorInputChange (ch : Channel) (d : Detector) (ua : Word) (s : State) : Out :=
  done (if s.dieOn then (s.wr ((detectorUa d).f ch) ua.toNat).detectorJudge ch d else s)

/-- A detector trips its channel's tile: the trip, and the ledger's count for the channel (R64, R515). -/
def State.detectorTrip (s : State) (c : Nat) (d : Detector) : State :=
  ((if s.flag (VLV.TRIP.f (c / 32)) then s else s.ledgerInc (0x11 + 4 * c)).tripLocal (c / 32) c (detectorCause d))

/-- An input that has been continuously active for `ns`, where that is F or more, becomes filtered active and, with
PROT_EN = 1, sets the latch (R64). -/
def execDeglitchExpiry (ch : Channel) (d : Detector) (s : State) (ns : Word := 0xFFFFFFFF) : Out :=
  if s.dieOn && s.flag ((detectorIn d).f ch) && !s.flag ((detectorLay d).ch ch) && s.deglitchNs ch ≤ ns.toNat then
    let s := s.setFlag ((detectorLay d).ch ch) true
    done (if s.flag (VLV.PROT_EN.ch ch) then s.detectorTrip ch d else s)
  else done s

/-- A write of PROT_EN: from 0 to 1 it sets the latch if a detector is already filtered active (R64). Where both are,
the spec does not say which cause the capture and the ledger take: they take overcurrent (DESIGN CHOICE, log entry 12).
-/
def State.writeProtEn (s : State) (c : Nat) (on : Bool) : State :=
  let was := s.flag (VLV.PROT_EN.ch c)
  let s := s.setFlag (VLV.PROT_EN.ch c) on
  if on && !was then
    if s.flag (VLV.OC.ch c) then s.detectorTrip c .overcurrent
    else if s.flag (VLV.CLAMP_OVL.ch c) then s.detectorTrip c .clampOverload
    else s
  else s

def execProtEn (ch : Channel) (on : Bool) (s : State) : Out :=
  done (s.reach ((VLV.PROT_EN.ch ch).sets (b2n on)) (.vlv (ch / 32)) fun s => s.writeProtEn ch on)

/-- SAFE_N low at the input sets every latch of a powered device with CAUSE 4 (R65). -/
def State.safeNTrips (s : State) : State :=
  if s.flag (VLV.EXT_IN.f 0) && s.dieOn then s.forUpTo 4 fun s t => s.latchSet t 0 4 else s

/-- SAFE_N reads low. -/
def execSafeNFall (s : State) : Out :=
  done (s.forUpTo 4 fun s t => s.setFlag (VLV.EXT_IN.f t) true).safeNTrips

/-- SAFE_N reads high, which clears REL_BLOCKED (R70). -/
def execSafeNRise (s : State) : Out :=
  let s := s.forUpTo 4 fun s t => s.setFlag (VLV.EXT_IN.f t) false
  done (s.forUpTo 4 fun s t => s.setFlag (VLV.REL_BLOCKED.f t) false)

/-- A channel's driver has settled in its safe state (R505). -/
def execSafeSettled (ch : Channel) (s : State) : Out :=
  done (if s.inSafe ch && s.dieOn then s.setFlag (VLV.SAFE.ch ch) true else s)

def State.vlvCapRel (s : State) (t : Nat) : State :=
  ((s.setFlag (VLV.CAP_FULL.f t) false).wr (VLV.TRIP_CAP_CH.f t) 0).wr (VLV.TRIP_CAP_CAUSE.f t) 0

def execVlvCapRel (t : Tile) (s : State) : Out :=
  done (s.reach ((VLV.CAP_REL.f t).sets 1) (.vlv t) fun s => s.vlvCapRel t)

/-! Releasing a trip (R70, R71). -/

/-- PROT_REL: the device stops driving SAFE_N and waits 200 ns (R70, step 1). -/
def State.protRel (s : State) : State := (s.setFlag VLV.SAFE_N_DRV.f false).setFlag VLV.REL_WAIT.f true

def execProtRel (t : Tile) (s : State) : Out :=
  done (s.reach ((VLV.PROT_REL.f t).sets 1) (.vlv t) State.protRel)

/-- A local cause is present (R70, step 2). -/
def State.localCause (s : State) : Bool :=
  ((List.range 128).any fun c =>
    s.flag (VLV.PROT_EN.ch c) && (s.flag (VLV.OC.ch c) || s.flag (VLV.CLAMP_OVL.ch c))) ||
  s.protSourceActive || (List.range 12).any fun k => s.sensorCritical k

/-- A channel that is no longer held safe leaves its safe state: with a running burst it keeps the safe output until the
next vector boundary (R71). A PMU that was unforced until now has to settle again (R68, R75). -/
def State.leaveSafe (s : State) (c : Nat) : State :=
  if s.inSafe c then s
  else ((s.setFlag (VLV.SAFE.ch c) false).setFlag (VLV.PMU_SETTLED.ch c) false).wr (VLV.AWAIT.f c)
    (if s.chanRunning c then 1 else 0)

/-- Steps 2 to 4 of R70. A local cause that came and went during the 200 ns has driven SAFE_N low anew (R65); where
step 3 or 4 then ends the wait, LOCAL clears as those steps say, and SAFE_N stays driven until the next release write,
which alone ends the drive by R65 (DESIGN CHOICE, log entry 13: the spec orders no such case). -/
def State.releaseCheck (s : State) : State :=
  if s.localCause then
    (s.setFlag VLV.SAFE_N_DRV.f true).forUpTo 4 fun s t => s.setFlag (VLV.LOCAL.f t) true
  else if s.flag (VLV.EXT_IN.f 0) then
    s.forUpTo 4 fun s t => (s.setFlag (VLV.LOCAL.f t) false).setFlag (VLV.REL_BLOCKED.f t) true
  else
    let s := s.forUpTo 4 fun s t => (s.setFlag (VLV.TRIP.f t) false).setFlag (VLV.LOCAL.f t) false
    s.forUpTo 128 fun s c => s.leaveSafe c

def execReleaseCheck (s : State) : Out :=
  done (if s.flag VLV.REL_WAIT.f then (s.setFlag VLV.REL_WAIT.f false).releaseCheck else s)

/-! The PMU (R72 to R76). -/

/-- The target of the PMU's force loop: a voltage code, a signed current code on a range, or none (R72). -/
inductive PmuTarget
  | volt (code : Nat)
  | amp (range : Nat) (code : Nat)
  | none
  deriving DecidableEq, Repr

/-- The PMU is connected and not switched to MV by the safe state (R68, R72). -/
def State.pmuConnected (s : State) (c : Nat) : Bool := s.flag (VLV.PMU_EN.ch c) && !s.inSafe c && s.dieOn

def State.pmuTarget (s : State) (c : Nat) : PmuTarget :=
  if !s.pmuConnected c then .none
  else match s.pmuMode c with
  | 0 => .volt (clampCode 0x2710 0xD6D8 (s.rd (VLV.CH_PMU_FORCE.ch c)))
  | 1 => .amp (s.pmuRange c) (s.rd (VLV.CH_PMU_FORCE.ch c))
  | _ => .none

/-- A write of MODE and RANGE or of the force value takes effect at once; PMU_SETTLED clears when the target moves (R75,
R76). -/
def State.writePmu (s : State) (c : Nat) (w : PmuWrite) : State :=
  let old := s.pmuTarget c
  let s := match w with
    | .ctl m r => (s.wr (VLV.CH_PMU_MODE.ch c) m.toNat).wr (VLV.CH_PMU_RANGE.ch c) r.toNat
    | .force v => s.wr (VLV.CH_PMU_FORCE.ch c) v.toNat
  (if s.pmuTarget c = old then s else s.setFlag (VLV.PMU_SETTLED.ch c) false).levelStatus c

/-- The PMU forces: it is connected in FVMI or FIMV. -/
def State.pmuForces (s : State) (c : Nat) : Bool := decide (s.pmuTarget c ≠ .none)

/-- A write of PMU_EN: a change connects or disconnects the loop, which has to settle anew (R72, R75). -/
def State.writePmuEn (s : State) (c : Nat) (on : Bool) : State :=
  if s.flag (VLV.PMU_EN.ch c) == on then s
  else (s.setFlag (VLV.PMU_EN.ch c) on).setFlag (VLV.PMU_SETTLED.ch c) false

/-- PMU_SETTLED and PMU_COMPL as they read: a loop that does not force is neither settled nor at a limit (R75). -/
def State.pmuSettled (s : State) (c : Nat) : Bool := s.flag (VLV.PMU_SETTLED.ch c) && s.pmuForces c
def State.pmuCompl (s : State) (c : Nat) : Bool := s.flag (VLV.PMU_COMPL.ch c) && s.pmuForces c

/-- The register write that a PMU write is: MODE and RANGE lie in one register. -/
def pmuAccess (c : Nat) : PmuWrite → Access
  | .ctl m r => .set (VLV.CH_PMU_MODE.ch c).addr (m.toNat + 16 * r.toNat) 0x73
  | .force v => (VLV.CH_PMU_FORCE.ch c).sets v.toNat

def execVlvChPmu (ch : Channel) (w : PmuWrite) (s : State) : Out :=
  done (s.reach (pmuAccess ch w) (.vlv (ch / 32)) fun s => s.writePmu ch w)

/-- The force loop has stayed within its band for 1 µs (R75): a loop runs with PMU_EN = 1, in a forcing mode, outside
the safe state (R68). -/
def execPmuSettle (ch : Channel) (s : State) : Out :=
  done (if s.pmuForces ch then
    s.setFlag (VLV.PMU_SETTLED.ch ch) true else s)

/-! The matrix (R81 to R85). -/

/-- The terminal is a source (R81). -/
def isSource (t : Nat) : Bool :=
  t < 0x40 || (0x60 ≤ t && t < 0x90 && (t - 0x60) % 3 == 2) || (0x90 ≤ t && t < 0xA0 && t % 2 == 1) ||
    (0xA0 ≤ t && t < 0xB8) || t == 0xC0 || t == 0xC1

/-- The node that a route word connects its terminal to; NODE 48 to 63 is treated as EN = 0 (R82). -/
def routeNode (w : Nat) : Option Nat :=
  if bitOf w 7 && w % 64 < 48 then some (w % 64) else none

/-- The source terminals on a node of the shadow table, in ascending order. -/
def State.nodeSources (s : State) (t n : Nat) : List Nat :=
  (List.range 194).filter fun k => isSource k && routeNode (s.tab VLV.mxShadow t k) == some n

/-- The first node that would carry more than one source, with its second source (R83). -/
def State.mxConflict (s : State) (t : Nat) : Option (Nat × Nat) :=
  (List.range 48).findSome? fun n =>
    match s.nodeSources t n with
    | _ :: b :: _ => some (n, b)
    | _ => none

/-- WAIT of a converter's entry in ns (R301). -/
def entryWait (e : Nat) : Nat := bits e 20 7 * if bitOf e 27 then 8000 else 8

/-- MX_BUSY changes: what the converters of the tile sample from now on carries another SETTLE (R307), and a list that
waited for it to clear takes its first raw sample after its WAIT (R303). -/
def State.setMxBusy (s : State) (t : Nat) (b : Bool) : State :=
  (s.setFlag (VLV.MX_BUSY.f t) b).forUpTo 4 fun s j =>
    let m := 4 * t + j
    let s := s.setBit (ADC.CHG.f m) 0 true
    if !b && s.flag (ADC.TS_WAIT.f m) then
      let ts := s.time + entryWait (s.rd (ADC.CUR.f m))
      ((s.setFlag (ADC.TS_WAIT.f m) false).wr (ADC.TS_LO.f m) ts).wr (ADC.TS_HI.f m) (ts / 2 ^ 32)
    else s

/-- Run a commit: refused into VLV_MX_ERR_CAP, or every changed terminal switched (R83). A refused commit switches
nothing and so does not end the activity of slot 6, c = 16 ("until the next commit" is taken as the next that runs;
DESIGN CHOICE, log entry 14). -/
def State.mxRun (s : State) (t : Nat) : State :=
  match s.mxConflict t with
  | some (n, k) =>
    if s.flag (VLV.MX_ERR.f t) then s
    else ((s.setFlag (VLV.MX_ERR.f t) true).wr (VLV.MX_ERR_CAP_NODE.f t) n).wr (VLV.MX_ERR_CAP_TERM.f t) k
  | none =>
    let s := s.forUpTo 194 fun s k => s.setTab VLV.mxRoute t k (s.tab VLV.mxShadow t k)
    (s.setMxBusy t true).setFlag (VLV.MX_DONE.f t) false

/-- MX_COMMIT: held while one is in progress (R84). -/
def State.mxCommit (s : State) (t : Nat) : State :=
  if s.flag (VLV.MX_BUSY.f t) then s.setFlag (VLV.MX_PEND.f t) true else s.mxRun t

def execMxCommit (t : Tile) (s : State) : Out :=
  done (s.reach ((VLV.MX_COMMIT.f t).sets 1) (.vlv t) fun s => s.mxCommit t)

/-- The settle ends: MX_BUSY clears and a held commit runs (R84). -/
def execMxCommitEnd (t : Tile) (s : State) : Out :=
  if s.flag (VLV.MX_BUSY.f t) then
    let s := (s.setMxBusy t false).setFlag (VLV.MX_DONE.f t) true
    done (if s.flag (VLV.MX_PEND.f t) then (s.setFlag (VLV.MX_PEND.f t) false).mxRun t else s)
  else done s

def State.mxErrRel (s : State) (t : Nat) : State :=
  ((s.setFlag (VLV.MX_ERR.f t) false).wr (VLV.MX_ERR_CAP_NODE.f t) 0).wr (VLV.MX_ERR_CAP_TERM.f t) 0

def execMxErrRel (t : Tile) (s : State) : Out :=
  done (s.reach ((VLV.MX_ERR_REL.f t).sets 1) (.vlv t) fun s => s.mxErrRel t)

/-- The CH threshold of a channel is undefined (R59): EXT_TH = 1 and CHc.XTH routed to no node, or to a node without a
driving source. -/
def State.thresholdUndefined (s : State) (c : Nat) : Bool :=
  s.flag (VLV.EXT_TH.ch c) &&
    match routeNode (s.tab VLV.mxRoute (c / 32) (0x40 + c % 32)) with
    | none => true
    | some n =>
      !(List.range 194).any fun k => isSource k && routeNode (s.tab VLV.mxRoute (c / 32) k) == some n

/-- Whether the comparator output of amplifier cell k of a tile raises its event: comparator mode with EV_EN (R77). -/
def State.cacEvent (s : State) (t k : Nat) : Bool :=
  s.rd (VLV.CAC_MODE.f t k) == 5 && s.flag (VLV.CAC_EV_EN.f t k)

end Sys2Proof.Machine
end

