-- ==== Sys2Proof/Machine/Timing.lean ====
section
/-! DEFINITION. Edge timing, waveforms and deskew (R88 to R119). Times are in units of 0.25 ps.
Log entries 15, 16 and 17. -/

namespace Sys2Proof.Machine

/-! Timing registers (R94 to R96). -/

/-- The writable bits of a word of a channel's table, none where the word is RO or not listed (R96, R97). -/
def tWordMask (w : Nat) : Option Nat :=
  if w < 0x2000 then some (if w % 2 = 0 then 0x3F3F3F3F else 0x00013F3F)
  else if w < 0x2080 then some 0x07FFFFFF
  else if 0x2100 ≤ w && w < 0x2140 then some 0xF
  else if w = 0x2200 then some 0x3
  else if w = 0x2201 then some 0x7FFF
  else if w = 0x2202 then some 0x7F
  else none

/-- The word of tile table `t` in force at ADDR `a`. -/
def State.tCur (s : State) (t a : Nat) : Nat :=
  if a % 0x4000 = 0x2202 then s.tab TIM.xstb t (a / 0x4000) else s.tab TIM.t t a

def State.setTCur (s : State) (t a v : Nat) : State :=
  if a % 0x4000 = 0x2202 then s.setTab TIM.xstb t (a / 0x4000) v else s.setTab TIM.t t a v

/-- Word `w` of a device channel's table in force. -/
def State.chWord (s : State) (c w : Nat) : Nat := s.tCur (c / 32) (c % 32 * 0x4000 + w)

def State.setChWord (s : State) (c w v : Nat) : State := s.setTCur (c / 32) (c % 32 * 0x4000 + w) v

/-- A write that waits for a vector boundary; `staged` says that it was staged, or overtakes a staged one that waits as
well. -/
def waitingWord (old v : Nat) (staged : Bool) : Nat := 2 * v + 1 + b2n (staged || (old != 0 && old % 2 == 0))

/-- Among the writes that wait is a staged one (R106). -/
def stagedWaits (l : List (Nat × Nat)) : Bool := l.any fun e => e.2 % 2 == 0

/-- What a read of a tile table returns: the value held, or last written (R105); the Express strobe position is a field
of an absent feature on an option without Express mode (R42, R110). -/
def State.tRead (s : State) (t a : Nat) : Nat :=
  if a % 0x4000 = 0x2202 && !s.hasExpress then 0
  else
    match s.tab TIM.tHeld t a with
    | v + 1 => v
    | 0 =>
      match s.tab TIM.tCommitted t a with
      | v + 1 => v / 2
      | 0 => s.tCur t a

/-- What a read of the period table returns. -/
def State.sqRead (s : State) (w : Nat) : Nat :=
  match s.tab TIM.sqHeld 0 w with
  | v + 1 => v
  | 0 =>
    match s.tab TIM.sqCommitted 0 w with
    | v + 1 => v / 2
    | 0 => s.tab TIM.sq 0 w

/-- T_PEND: a staged write is held, or committed and not yet applied (R106). -/
def State.tPend (s : State) (t : Nat) : State :=
  s.setFlag (TIM.T_PEND.f t) (s.listed TIM.tHeld t != [] || stagedWaits (s.listed TIM.tCommitted t))

/-- SQ_PEND follows the same rule. -/
def State.sqPend (s : State) : State :=
  s.setFlag TIM.SQ_PEND.f (s.listed TIM.sqHeld 0 != [] || stagedWaits (s.listed TIM.sqCommitted 0))

/-- Fill TIM_ERR_CAP of the channel's tile unless it is full (R119). -/
def State.timErr (s : State) (c kind : Nat) : State :=
  if s.flag (TIM.ERR_FULL.f (c / 32)) then s
  else ((s.setFlag (TIM.ERR_FULL.f (c / 32)) true).wr (TIM.ERR_CAP_CH.f (c / 32)) c).wr
    (TIM.ERR_CAP_KIND.f (c / 32)) kind

/-- The plane offset in force for a channel, code of 0.5 ps, above 20,000 treated as 20,000 (R89, R94, R105). -/
def State.planeOf (s : State) (c : Nat) : Nat :=
  min 20000 (match s.ownerOf c with
    | some q => if s.issuing q then s.rd (TIM.PLANE_Q.f q) else s.rd TIM.PLANE.f
    | none => s.rd TIM.PLANE.f)

/-- The channel's path delay, code of 0.5 ps (R96). -/
def State.tdOf (s : State) (c : Nat) : Nat := min 20000 (s.chWord c 0x2201)

/-- The path delay that the channel uses (R89). -/
def State.tdUsed (s : State) (c : Nat) : Nat := min (s.tdOf c) (s.planeOf c)

/-- KIND 2 for every channel of a tile (R89). -/
def State.checkTd (s : State) (t : Nat) : State :=
  match (List.range 32).find? fun k => s.planeOf (32 * t + k) < s.tdOf (32 * t + k) with
  | some k => s.timErr (32 * t + k) 2
  | none => s

/-! The device pin (R14, R88 to R90). Instants are counted from the issue of the vector, in units of 0.25 ps. -/

/-- When a drive edge programmed at `e` leaves the device pin: L + PLANE − TD + E. -/
def State.driveAt (s : State) (c e : Nat) : Nat := s.rd TIM.LAT.f + 2 * (s.planeOf c - s.tdUsed c) + e

/-- When a strobe programmed at `e` samples at the device pin: L + PLANE + TD + S. -/
def State.strobeAt (s : State) (c e : Nat) : Nat := s.rd TIM.LAT.f + 2 * (s.planeOf c + s.tdUsed c) + e

/-- A channel without a running burst takes the state given by IDLE (R103), and no safe output is kept on it (R71). -/
def State.applyIdle (s : State) (c : Nat) : State :=
  let s := s.wr (VLV.AWAIT.f c) 0
  match s.chWord c 0x2200 with
  | 0 => s.wr (VLV.SEL.f c) 0
  | 1 => s.wr (VLV.SEL.f c) 1
  | 2 => s.wr (VLV.SEL.f c) 2
  | _ => s

/-- A word of a channel table takes effect: KIND 2 is checked for TD, and a new IDLE shows at once on a channel without
a running burst. -/
def State.tEffect (s : State) (t a v : Nat) : State :=
  let s := s.setTCur t a v
  let c := 32 * t + a / 0x4000
  if a % 0x4000 = 0x2201 then s.checkTd t
  else if a % 0x4000 = 0x2200 && !s.chanRunning c then s.applyIdle c
  else s

/-- A write of a tile table, not staged or committed: at once, or at the next vector boundary of a channel with a
running burst (R105, R106). -/
def State.tWriteNow (s : State) (t a v : Nat) (staged : Bool) : State :=
  if s.chanRunning (32 * t + a / 0x4000) then
    s.setTab TIM.tCommitted t a (waitingWord (s.tab TIM.tCommitted t a) v staged)
  else (s.setTab TIM.tCommitted t a 0).tEffect t a v

/-- A write through TIM_Tn_IDATA (R96, R105, R106); on an option without Express mode a write of the strobe position
other than 0 fills SYS_ABSENT_HIT and stores nothing (R42). -/
def State.writeT (s : State) (t a v : Nat) : State :=
  match tWordMask (a % 0x4000) with
  | none => s
  | some m =>
    if a % 0x4000 = 0x2202 && !s.hasExpress then
      if (v &&& m) = 0 then s else s.absentHit ((TIM.T_IADDR_INC.f t).addr + 4)
    else
      (if s.flag (TIM.T_STAGE.f t) then s.setTab TIM.tHeld t a ((v &&& m) + 1)
       else s.tWriteNow t a (v &&& m) false).tPend t

/-- The word stored for a write of the period table: EXPRESS is a field of an absent feature on an option without
Express mode (R95, R110). -/
def State.sqWord (s : State) (v : Nat) : Nat := (v &&& 0x0FFFFFFF) + (if s.hasExpress then v &&& 0x80000000 else 0)

/-- A write of the period table, not staged or committed (R105, R106). -/
def State.sqWriteNow (s : State) (w v : Nat) (staged : Bool) : State :=
  if s.issuing (w / 64) then s.setTab TIM.sqCommitted 0 w (waitingWord (s.tab TIM.sqCommitted 0 w) v staged)
  else (s.setTab TIM.sqCommitted 0 w 0).setTab TIM.sq 0 w v

/-- A write through TIM_SQ_IDATA. -/
def State.writeSq (s : State) (w v : Nat) : State :=
  let s := if !s.hasExpress && bitOf v 31 then s.absentHit 0x24001014 else s
  (if s.flag TIM.SQ_STAGE.f then s.setTab TIM.sqHeld 0 w (s.sqWord v + 1) else s.sqWriteNow w (s.sqWord v) false).sqPend

/-- A write of TIM_PLANE: sequencers that run take it at their next vector boundary (R105), and KIND 2 is rechecked for
the channels it moves at once (R89). -/
def State.writePlane (s : State) (v : Nat) : State :=
  (s.wr TIM.PLANE.f v).forUpTo 4 fun s t => s.checkTd t

def execTimingWrite (r : TimingReg) (v : Word) (s : State) : Out :=
  done (match r with
    | .sq w => s.reach (.timing r v.toNat) .tim fun s => s.writeSq w v.toNat
    | .tile t a => s.reach (.timing r v.toNat) .tim fun s => s.writeT t a v.toNat
    | .plane => s.reach (.timing r v.toNat) .tim fun s => s.writePlane v.toNat)

def execTimPlane (v : BitVec 15) (s : State) : Out :=
  done (s.reach (.timing .plane v.toNat) .tim fun s => s.writePlane v.toNat)

/-- SQ_COMMIT: each held word is committed; a sequencer without a running burst applies it at once (R106). -/
def State.sqCommit (s : State) : State :=
  ((s.listed TIM.sqHeld 0).foldl (fun s e => (s.setTab TIM.sqHeld 0 e.1 0).sqWriteNow e.1 (e.2 - 1) true) s).sqPend

def execSqCommit (s : State) : Out := done (s.reach (TIM.SQ_COMMIT.f.sets 1) .tim fun s => s.sqCommit)

/-- T_COMMIT (R106). -/
def State.tCommit (s : State) (t : Nat) : State :=
  ((s.listed TIM.tHeld t).foldl (fun s e => (s.setTab TIM.tHeld t e.1 0).tWriteNow t e.1 (e.2 - 1) true) s).tPend t

def execTCommit (t : Tile) (s : State) : Out :=
  done (s.reach ((TIM.T_COMMIT.f t).sets 1) .tim fun s => s.tCommit t)

def State.timErrRel (s : State) (t : Nat) : State :=
  (((s.setFlag (TIM.ERR_FULL.f t) false).wr (TIM.ERR_CAP_CH.f t) 0).wr (TIM.ERR_CAP_KIND.f t) 0).checkTd t

def execTimErrRel (t : Tile) (s : State) : Out :=
  done (s.reach ((TIM.ERR_REL.f t).sets 1) .tim fun s => s.timErrRel t)

/-- The channels a sequencer owns, in ascending order. -/
def State.owned (s : State) (q : Nat) : List Nat := (List.range 128).filter fun c => s.ownerOf c == some q

/-- At a vector boundary of a sequencer, its committed timing writes are applied before the time-set of the new vector
is read (R105, R106). A write that flips EXPRESS of the time-set in force is applied like any other and the sequencer
changes its mode there: R109 speaks of time-set changes alone (DESIGN CHOICE, log entry 15). -/
def State.timingApply (s : State) (q : Nat) : State :=
  let s := ((s.listed TIM.sqCommitted 0).filter fun e => e.1 / 64 == q).foldl
    (fun s e => (s.setTab TIM.sqCommitted 0 e.1 0).setTab TIM.sq 0 e.1 ((e.2 - 1) / 2)) s
  let moved := s.rd (TIM.PLANE_Q.f q) != s.rd TIM.PLANE.f
  let s := s.wr (TIM.PLANE_Q.f q) (s.rd TIM.PLANE.f)
  let s := s.forUpTo 4 fun s t =>
    (((s.listed TIM.tCommitted t).filter fun e => s.ownerOf (32 * t + e.1 / 0x4000) == some q).foldl
      (fun s e => (s.setTab TIM.tCommitted t e.1 0).tEffect t e.1 ((e.2 - 1) / 2)) s).tPend t
  (if moved then s.forUpTo 4 fun s t => s.checkTd t else s).sqPend

/-! Periods (R91, R107). -/

/-- The period of time-set k of a sequencer, in units of 0.25 ps. -/
def State.period (s : State) (q k : Nat) : Nat :=
  let w := s.tab TIM.sq 0 (q * 64 + k)
  if bitOf w 31 then 1000 else max 1000 (min 262144000 (w % 2 ^ 28))

/-! One vector at one channel (R98 to R102, R107). -/

/-- The waveform table in force for a channel under time-set k. -/
def State.wftOf (s : State) (c k : Nat) : Nat := s.chWord c (0x2100 + k)

/-- The time of slot `i` of waveform table `w`, in units of 0.25 ps. -/
def State.tslot (s : State) (c w i : Nat) : Nat := 2 * s.chWord c (0x2000 + w * 8 + i)

/-- The enabled edges of ENTRY0 as (time, index, driver state coded as VLV.SEL). -/
def State.entryEdges (s : State) (c w e0 : Nat) : List (Nat × Nat × Nat) :=
  ((List.range 4).filter fun e => bitOf e0 (8 * e + 5)).map fun e =>
    (s.tslot c w (bits e0 (8 * e) 3), e, 3 - bits e0 (8 * e + 3) 2)

/-- Insert an edge in ascending order of time, then of index. -/
def insertEdge (x : Nat × Nat × Nat) : List (Nat × Nat × Nat) → List (Nat × Nat × Nat)
  | [] => [x]
  | y :: r => if x.1 < y.1 || (x.1 == y.1 && x.2.1 < y.2.1) then x :: y :: r else y :: insertEdge x r

def sortEdges (l : List (Nat × Nat × Nat)) : List (Nat × Nat × Nat) := l.foldr insertEdge []

/-- Of edges that share a time, only the one with the highest index applies (R98). -/
def dropShadowed : List (Nat × Nat × Nat) → List (Nat × Nat × Nat)
  | [] => []
  | [x] => [x]
  | x :: y :: r => if x.1 == y.1 then dropShadowed (y :: r) else x :: dropShadowed (y :: r)

/-- Apply one edge at time `t`: a change less than 120 ps after the previous one takes effect 120 ps after it, and KIND
1 is recorded (R100). An edge that comes while an earlier change is still delayed is compared with the state that this
change will select, not with the one on the pin until then (DESIGN CHOICE, log entry 15). VLV.AWAIT clears at the first
applied edge after a release (R71). -/
def State.applyEdge (s : State) (c t sel : Nat) : State :=
  let s := if s.rd (VLV.AWAIT.f c) = 2 then s.wr (VLV.AWAIT.f c) 0 else s
  if s.rd (VLV.SEL.f c) = sel then s
  else
    let due := 480 + 0x20000000 - s.rd (TIM.LAST_CHG.f c)
    let s := if t < due then s.timErr c 1 else s
    (s.wr (VLV.SEL.f c) sel).wr (TIM.LAST_CHG.f c) (0x20000000 - max t due)

/-- The compare slots of ENTRY1 for a period (R101, R102). -/
def State.entrySlots (s : State) (c w e1 p : Nat) : List Slot :=
  let t0 := s.tslot c w (bits e1 0 3)
  let t1 := s.tslot c w (bits e1 8 3)
  let en0 := bitOf e1 5
  let en1 := bitOf e1 13
  let x0 := bits e1 3 2
  let x1 := bits e1 11 2
  let p0 := en0 && t0 < p
  let p1 := en1 && t1 < p
  if bitOf e1 16 && en0 && en1 then
    if !p0 then [.empty, .empty]
    else if p1 && t0 < t1 then [.window x0, .empty]
    else [.edge x0, .empty]
  else [if p0 then .edge x0 else .empty, if p1 then .edge x1 else .empty]

/-- Some enabled edge or strobe of the entry lies at or beyond the period (R99). -/
def State.beyondPeriod (s : State) (c w e0 e1 p : Nat) : Bool :=
  ((s.entryEdges c w e0).any fun x => p ≤ x.1) ||
    (bitOf e1 5 && decide (p ≤ s.tslot c w (bits e1 0 3))) ||
    (bitOf e1 13 && decide (p ≤ s.tslot c w (bits e1 8 3)))

/-- The Express unit interval `u` of a pin byte: the driver state (R107). -/
def uiSel (b u : Nat) : Nat :=
  if bitOf b (2 * u) then (if bitOf b (2 * u + 1) then 3 else 2) else 1

/-- The Express unit interval `u` of a pin byte: its compare slot (R107). -/
def uiSlot (b u : Nat) : Slot :=
  if bitOf b (2 * u) then .edge 0 else if bitOf b (2 * u + 1) then .edge 2 else .edge 1

/-- Drive one vector with pin byte `b` on a channel, under time-set `k` of its sequencer `q`. Of several errors of one
vector the capture takes KIND 0 before KIND 1, and the channels of a tile come in ascending order: R119 does not say
which is first (DESIGN CHOICE, log entry 15). -/
def State.driveByte (s : State) (q k c b : Nat) : State :=
  let p := s.period q k
  if bitOf (s.tab TIM.sq 0 (q * 64 + k)) 31 then
    let s := s.forUpTo 4 fun s u =>
      (s.wr (VLV.SEL.f c) (uiSel b u)).wr (VLV.AWAIT.f c) 0
    s.wr (TIM.LAST_CHG.f c) 0x60000000
  else
    let w := s.wftOf c k
    let e0 := s.chWord c (w * 0x200 + b * 2)
    let e1 := s.chWord c (w * 0x200 + b * 2 + 1)
    let s := if s.beyondPeriod c w e0 e1 p then s.timErr c 0 else s
    let es := dropShadowed (sortEdges ((s.entryEdges c w e0).filter fun x => x.1 < p))
    let s := es.foldl (fun s x => s.applyEdge c x.1 x.2.2) s
    s.wr (TIM.LAST_CHG.f c) (min 0x60000000 (s.rd (TIM.LAST_CHG.f c) + p))

/-- The span of each compare slot from the vector's start, in units of 0.25 ps: an edge strobe's instant twice, or the
two ends of a window; an Express strobe lies XSTB × 0.5 ps behind the start of its unit interval, codes above 124 being
treated as 124 (R88, R96, R101, R102, R107). An empty slot has none. -/
def State.slotTimes (s : State) (q k c b : Nat) : List (Nat × Nat) :=
  if bitOf (s.tab TIM.sq 0 (q * 64 + k)) 31 then
    (List.range 4).map fun u => (250 * u + 2 * min 124 (s.chWord c 0x2202), 250 * u + 2 * min 124 (s.chWord c 0x2202))
  else
    let w := s.wftOf c k
    let e1 := s.chWord c (w * 0x200 + b * 2 + 1)
    let t0 := s.tslot c w (bits e1 0 3)
    let t1 := s.tslot c w (bits e1 8 3)
    ((s.entrySlots c w e1 (s.period q k)).zip [t0, t1]).map fun x =>
      match x.1 with
      | .empty => (0, 0)
      | .edge _ => (x.2, x.2)
      | .window _ => (t0, t1)

/-- The compare slots of one vector with pin byte `b` on a channel. -/
def State.slotsOf (s : State) (q k c b : Nat) : List Slot :=
  if bitOf (s.tab TIM.sq 0 (q * 64 + k)) 31 then (List.range 4).map (uiSlot b)
  else
    let w := s.wftOf c k
    s.entrySlots c w (s.chWord c (w * 0x200 + b * 2 + 1)) (s.period q k)

/-! Time-domain reflectometry (R113 to R116). -/

/-- The masked channels of a tile, as local numbers. -/
def State.tdrMasked (s : State) (t : Nat) : List Nat :=
  (List.range 32).filter fun k => s.bit (TIM.TDR_MASK.f t) k

/-- A channel that refuses a TDR start (R113). -/
def State.tdrOffends (s : State) (t k : Nat) : Bool :=
  !s.flag (VLV.EXT_TH.f t k) || s.flag (VLV.PMU_EN.f t k) || s.chanRunning (32 * t + k) || s.flag (VLV.TRIP.f t)

/-- What refuses a TDR start, as the local channel that the capture takes: the first masked channel that offends; under
a trip latch with no channel masked, where the spec names none, channel 0 (DESIGN CHOICE, log entry 16). -/
def State.tdrRefusal (s : State) (t : Nat) : Option Nat :=
  match (s.tdrMasked t).find? fun k => s.tdrOffends t k with
  | some k => some k
  | none => if s.flag (VLV.TRIP.f t) then some 0 else none

/-- The launches of a search point: 2^AVG, codes below 4 treated as 4 and above 12 as 12 (R94). -/
def State.tdrLaunches (s : State) (t : Nat) : Nat := 2 ^ max 4 (min 12 (s.rd (TIM.TDR_CFG_AVG.f t)))

/-- The threshold code of a search phase: VIL + 0.25 or 0.75 of the step (R114). -/
def tdrThreshold (vil vih phase : Nat) : Nat := if phase = 2 then (vil + 3 * vih) / 4 else (3 * vil + vih) / 4

/-- Set the engine's threshold for a phase, from the levels of the lowest-numbered masked channel. -/
def State.tdrSetDac (s : State) (t phase : Nat) : State :=
  match s.tdrLowest t with
  | none => s
  | some k => (s.wr (TIM.TDR_PHASE.f t) phase).wr (TIM.TDR_DAC.f t)
      (tdrThreshold (s.levelCode .vil (32 * t + k)) (s.levelCode .vih (32 * t + k)) phase)

/-- TDR_START (R113, R114): of the last results VALID alone clears. A start while a run is in progress is ignored
(DESIGN CHOICE, log entry 16). -/
def State.tdrStart (s : State) (t : Nat) : State :=
  if s.flag (TIM.TDR_BUSY.f t) then s
  else
    match s.tdrRefusal t with
    | some k => s.timErr (32 * t + k) 3
    | none =>
      let ms := s.tdrMasked t
      let d := s.rd (TIM.TDR_CFG_ADAC.f t)
      let s := ms.foldl (fun s k => s.setChWord (32 * t + k) 0x2203 (putBit (s.chWord (32 * t + k) 0x2203) 31 false)) s
      let s := (s.wr (TIM.TDR_RUN.f t) (s.rd (TIM.TDR_MASK.f t))).wr (TIM.TDR_ACT.f t) (s.rd (TIM.TDR_MASK.f t))
      let s := (s.wr (TIM.TDR_K.f t) d).wr (TIM.TDR_SAVE.f t)
        (s.rd (VLV.ADAC_CODE.f t d) + b2n (s.flag (VLV.ADAC_EN.f t d)) * 2 ^ 16)
      let s := s.wr (TIM.TDR_CNT.f t) 0
      let same := ms.filter fun k => match ms with
        | [] => false
        | k0 :: _ => s.levelCode .vil (32 * t + k) == s.levelCode .vil (32 * t + k0) &&
            s.levelCode .vih (32 * t + k) == s.levelCode .vih (32 * t + k0)
      let s := s.setFlag (TIM.TDR_BUSY.f t) true
      let s := s.wr (TIM.TDR_UNF.f t) (same.foldl (fun m k => putBit m k true) 0)
      ((s.wr (TIM.TDR_GOT.f t) 0).wr (TIM.TDR_OK.f t) 0).tdrSetDac t 1

def execTdrStart (t : Tile) (s : State) : Out :=
  done (s.reach ((TIM.TDR_START.f t).sets 1) .tim fun s => s.tdrStart t)

/-- TDR_ABORT ends the run on every channel (R116); TDR_END then reports it. -/
def State.tdrAbort (s : State) (t : Nat) : State := s.tdrStop t

def execTdrAbort (t : Tile) (s : State) : Out :=
  done (s.reach ((TIM.TDR_ABORT.f t).sets 1) .tim fun s => s.tdrAbort t)

/-- A crossing lies in the span of the second and third search: up to 20 ns after t_launch (R114). -/
def tdrSpan (t0 v : Nat) : Bool := decide (t0 ≤ v) && decide (v ≤ t0 + 40000)

/-- What a search of a channel has found in its span (R114). -/
def State.tdrFound (s : State) (t k : Nat) : TdrSample → TdrSample
  | .found v =>
    if s.rd (TIM.TDR_PHASE.f t) = 1 || tdrSpan (s.rd (TIM.TDR_T0.f (32 * t + k))) v.toNat then .found v else .exhausted
  | x => x

/-- A channel of the run finishes with END and RT; VALID is set at the end of the run. -/
def State.tdrFinish (s : State) (t k fin rt : Nat) : State :=
  let s := s.setChWord (32 * t + k) 0x2203 (rt % 0x10000 + fin * 0x10000)
  (s.setBit (TIM.TDR_UNF.f t) k false).setBit (TIM.TDR_OK.f t) k true

/-- What one channel's search has found (R114). -/
def State.tdrSample (s : State) (t k : Nat) (x : TdrSample) : State :=
  if !s.bit (TIM.TDR_UNF.f t) k || s.bit (TIM.TDR_GOT.f t) k then s
  else
    match s.rd (TIM.TDR_PHASE.f t), s.tdrFound t k x with
    | _, .searching => s
    | 1, .found v => (s.wr (TIM.TDR_T0.f (32 * t + k)) v.toNat).setBit (TIM.TDR_GOT.f t) k true
    | 1, .exhausted => s.tdrFinish t k 4 (s.chWord (32 * t + k) 0x2203)
    | 2, .found v => s.tdrFinish t k 1 (v.toNat - s.rd (TIM.TDR_T0.f (32 * t + k)))
    | 2, .exhausted => s.setBit (TIM.TDR_GOT.f t) k true
    | 3, .found v => s.tdrFinish t k 2 (v.toNat - s.rd (TIM.TDR_T0.f (32 * t + k)))
    | 3, .exhausted => s.tdrFinish t k 3 0
    | _, _ => s

/-- Every unfinished channel has ended its present search: the next one begins (R114). -/
def State.tdrAdvance (s : State) (t : Nat) : State :=
  if s.rd (TIM.TDR_UNF.f t) != 0 && s.rd (TIM.TDR_UNF.f t) == s.rd (TIM.TDR_GOT.f t) then
    (s.wr (TIM.TDR_GOT.f t) 0).tdrSetDac t (s.rd (TIM.TDR_PHASE.f t) + 1)
  else s

/-- One launch of the TDR engine of a tile, with what each listed channel's search has found. A search can end only with
the last of the 2^AVG launches of a search point (R114). -/
def State.tdrLaunch (s : State) (t : Nat) (obs : List (Fin 32 × TdrSample)) : State :=
  if s.rd (TIM.TDR_CNT.f t) + 1 < s.tdrLaunches t then s.wr (TIM.TDR_CNT.f t) (s.rd (TIM.TDR_CNT.f t) + 1)
  else
    let s := obs.foldl (fun s o => s.tdrSample t o.1 o.2) (s.wr (TIM.TDR_CNT.f t) 0)
    (s.wr (TIM.TDR_GOT.f t) (s.rd (TIM.TDR_GOT.f t) &&& s.rd (TIM.TDR_UNF.f t))).tdrAdvance t

def execTdrLaunch (t : Tile) (obs : List (Fin 32 × TdrSample)) (s : State) : Out :=
  done (if s.flag (TIM.TDR_BUSY.f t) then s.tdrLaunch t obs else s)

/-- The end of a run for one channel that finished: VALID, and TD from the result where LOAD = 1 (R115). -/
def State.tdrReport (s : State) (t k : Nat) : State :=
  let w := s.chWord (32 * t + k) 0x2203
  let s := s.setChWord (32 * t + k) 0x2203 (putBit w 31 true)
  if s.flag (TIM.TDR_CFG_LOAD.f t) && (bits w 16 3 == 1 || bits w 16 3 == 2) then
    s.tWriteNow t (k * 0x4000 + 0x2201) (w % 0x10000 / 2) false
  else s

/-- The auxiliary DAC of the run goes back to what VLV_ADAC_CFGk held before it; a write of that register during the
run is undone so (DEDUCED, log entry 16). -/
def State.tdrRestore (s : State) (t : Nat) : State :=
  let k := s.rd (TIM.TDR_K.f t)
  let v := s.rd (TIM.TDR_SAVE.f t)
  (((s.wr (VLV.ADAC_CODE.f t k) v).setFlag (VLV.ADAC_EN.f t k) (bitOf v 16)).wr (TIM.TDR_DAC.f t) 0).wr (TIM.TDR_SAVE.f t) 0

/-- The run finishes: results are posted, TD is loaded, the DAC is restored, TDR_BUSY clears (R115). -/
def State.tdrEnd (s : State) (t : Nat) : State :=
  let s := s.forUpTo 32 fun s k => if s.bit (TIM.TDR_OK.f t) k then s.tdrReport t k else s
  let s := (s.tdrRestore t).setFlag (TIM.TDR_BUSY.f t) false
  ((((s.wr (TIM.TDR_OK.f t) 0).wr (TIM.TDR_PHASE.f t) 0).wr (TIM.TDR_RUN.f t) 0).wr (TIM.TDR_ACT.f t) 0).wr
    (TIM.TDR_CNT.f t) 0

def execTdrEnd (t : Tile) (s : State) : Out :=
  done (if s.flag (TIM.TDR_BUSY.f t) && s.rd (TIM.TDR_UNF.f t) == 0 then s.tdrEnd t else s)

/-! Calibration and temperature tracking (R112, R117). -/

/-- The distance of a channel's tile temperature from that at its last calibration, in 0.125 degrees. -/
def State.tempDrift (s : State) (c : Nat) : Nat := (s.tileTemp (c / 32) - signedOf 12 (s.rd (TIM.CAL_TEMP.f c))).natAbs

/-- The channel is due for recalibration (R117). -/
def State.trkDue (s : State) (c : Nat) : Bool := s.flag (TIM.TRK_EN.f (c / 32)) && decide (16 ≤ s.tempDrift c)

/-- TRK_DUE and TRK_LATE of a tile (R117). -/
def State.trkStatus (s : State) (t : Nat) : State :=
  (s.setFlag (TIM.TRK_DUE.f t) ((List.range 32).any fun k => s.trkDue (32 * t + k))).setFlag (TIM.TRK_LATE.f t)
    ((List.range 32).any fun k => decide (32 ≤ s.tempDrift (32 * t + k)))

/-- The start-up calibration of every tile completes (R112), which needs power and the tiles' clocks locked to TREF. -/
def execCalDone (s : State) : Out :=
  done (if s.dieOn && s.flag CLK.TREF_OK.f && s.tmLocked then
    let s := s.forUpTo 128 fun s c => s.wr (TIM.CAL_TEMP.f c) (s.rd (PWR.TEMP.f (c / 32)))
    (s.setFlag TIM.CAL_DONE.f true).forUpTo 4 fun s t => s.trkStatus t
  else s)

/-- A recalibration step of a channel may begin: its owning sequencer issues no vectors and no TDR run holds it (R117).
-/
def State.recalMayBegin (s : State) (c : Nat) : Bool :=
  s.trkDue c && !s.chanRunning c && !s.tdrHolds c &&
    !s.flag (TIM.RECAL.f c) &&
    decide (((List.range 32).filter fun k => s.flag (TIM.RECAL.f (c / 32 * 32 + k))).length < 8)

def execRecalibrationStep (ch : Channel) (s : State) : Out :=
  done (if s.recalMayBegin ch then s.setFlag (TIM.RECAL.f ch) true else s)

def execRecalibrationEnd (ch : Channel) (s : State) : Out :=
  done (if s.flag (TIM.RECAL.f ch) then
    ((s.setFlag (TIM.RECAL.f ch) false).wr (TIM.CAL_TEMP.f ch) (s.rd (PWR.TEMP.f (ch / 32)))).trkStatus (ch / 32)
  else s)

/-- A TDR engine releases a channel, which takes its idle state and reports no result of the run (R116). -/
def State.tdrRelease (s : State) (c : Nat) : State :=
  let s := (s.setBit (TIM.TDR_UNF.f (c / 32)) (c % 32) false).setBit (TIM.TDR_OK.f (c / 32)) (c % 32) false
  (s.setBit (TIM.TDR_GOT.f (c / 32)) (c % 32) false).setBit (TIM.TDR_ACT.f (c / 32)) (c % 32) false

/-- Before a sequencer's vector 0 the TDR engines release its channels, recalibration steps in progress on them are
abandoned (R116, R117), and the PLANE last written is in force for it (R105); the last change of its drivers lies far
back (R100). -/
def State.timingStart (s : State) (q : Nat) : State :=
  (s.owned q).foldl
    (fun s c => ((s.tdrRelease c).setFlag (TIM.RECAL.f c) false).wr (TIM.LAST_CHG.f c) 0x60000000)
    (s.wr (TIM.PLANE_Q.f q) (s.rd TIM.PLANE.f))

end Sys2Proof.Machine
end

