-- ==== Sys2Proof/Machine/Tree.lean ====
section
/-! DEFINITION. Where the lines of DRAM lie and what protects them: physical addresses (R254, R255), pages in rotation
(R256), the metadata region with its four parts (R283), the counter lines, the tree and its root (R281, R282), the
cache (R284), and the ciphertext and MAC of a line (R279, R280). The model keeps plaintext, counters and the state of
each stored line; what stands in the DRAM devices is defined here from them. Log entries 37, 42 and 43. -/

namespace Sys2Proof.Machine

/-! Physical addresses (R216, R254, R255). -/

/-- The key in `State.mem` of a byte of DRAM. -/
def dramKey (pa : Nat) : Nat := 2 ^ 48 + pa

/-- The DRAM channel and the rank of a physical address. -/
def paChan (pa : Nat) : Nat := pa / 65536 % 16
def paRank (pa : Nat) : Nat := pa / 2 ^ 20 % 4

/-- The page within the rank, and the line within the page. -/
def paPage (pa : Nat) : Nat := pa / 2 ^ 22 % 2 ^ 20
def paLine (pa : Nat) : Nat := pa / 64 % 1024

/-- The 3DS die, the row, the column block, and the bank within the channel (subchannel, bank, bank group). -/
def paDie (pa : Nat) : Nat := paPage pa / 2 ^ 19
def paRow (pa : Nat) : Nat := paPage pa % 2 ^ 19 / 8
def paCol (pa : Nat) : Nat := paPage pa % 8 * 16 + paLine pa / 64
def paBank (pa : Nat) : Nat := paLine pa % 2 * 32 + paLine pa / 2 % 32

/-- The name of page p of rank r of channel n: its physical address bits 43:16. -/
def pageName (n r p : Nat) : Nat := p * 64 + r * 16 + n

/-! Pages in rotation (R256). -/

/-- Pages of one rank of a channel. -/
def State.rankPages (s : State) (n : Nat) : Nat := 2 ^ (s.rd (DDR.STAT_RSIZE.f n) + 14)

/-- The ranks of a channel that the last cold start took into use. -/
def State.chanRanks (s : State) (n : Nat) : List Nat := (List.range 4).filter fun r => bitOf (s.rd (DDR.USE.f n)) r

/-- The pages of each channel's ranks in use. -/
def State.chanCaps (s : State) : List Nat := (List.range 12).map fun n => (s.chanRanks n).length * s.rankPages n

/-- The DRAM in use, in pages (R283). -/
def State.pagesInUse (s : State) : Nat := s.chanCaps.foldl (· + ·) 0

/-- The place of a page in rotation among all pages in use: consecutive channels, and within each channel the ranks in
turn; a channel without a further page is skipped (R256). -/
def State.pageNo (s : State) (pg : Nat) : Nat :=
  let rs := s.chanRanks (pg % 16)
  let j := pg / 64 * rs.length + rs.findIdx (· == pg / 16 % 4)
  (s.chanCaps.map (min j)).foldl (· + ·) 0 + ((s.chanCaps.take (pg % 16)).filter fun x => decide (j < x)).length

/-- The channel of page `i` in rotation and its place in the channel, of the pages from pass `lo` on; the first argument
bounds how often channels run out. -/
def rotAt (caps : List Nat) : Nat → Nat → Nat → Nat × Nat
  | 0, lo, _ => (0, lo)
  | n + 1, lo, i =>
    let act := (List.range caps.length).filter fun c => decide (lo < caps.getD c 0)
    let top := act.foldl (fun m c => min m (caps.getD c 0)) (2 ^ 32)
    if act.isEmpty || i < (top - lo) * act.length then (act.getD (i % act.length) 0, lo + i / act.length)
    else rotAt caps n top (i - (top - lo) * act.length)

/-- Page `i` in rotation. -/
def State.rotPage (s : State) (i : Nat) : Nat :=
  let x := rotAt s.chanCaps 13 0 i
  let rs := s.chanRanks x.1
  pageName x.1 (rs.getD (x.2 % rs.length) 0) (x.2 / rs.length)

/-- The page belongs to the DRAM in use. -/
def State.pageInUse (s : State) (pg : Nat) : Bool := bitOf (s.rd (DDR.USE.f (pg % 16))) (pg / 16 % 4)

/-- The page belongs to the SYSTEM area: the first pages in rotation, the metadata region before the rest (R214, R283).
-/
def State.pageSystem (s : State) (pg : Nat) : Bool :=
  s.pageInUse pg && decide (s.pageNo pg < s.rd CAL.SYS_PAGES.f)

/-! The metadata region (R283). A metadata line is named by its kind and its index: kind 0 a counter line, k a node of
level k, 14 a line of the MACs of counter lines, 15 a line of the MACs of data lines. -/

/-- The pages of the protected part. -/
def State.protPages (s : State) : Nat := s.pagesInUse - s.rd CAL.SYS_MD.f

/-- The nodes of level `k` for `p` protected pages; at level 0 the counter lines. -/
def nodesAt (p : Nat) : Nat → Nat
  | 0 => 16 * p
  | k + 1 => (nodesAt p k + 7) / 8

/-- The nodes of the levels 1 to `k`. -/
def nodesTo (p : Nat) : Nat → Nat
  | 0 => 0
  | k + 1 => nodesTo p k + nodesAt p (k + 1)

/-- The number of stored levels: the smallest that leaves 64 top-level nodes or fewer (R282); `n` counts the nodes of
the level below. -/
def treeLevels : Nat → Nat → Nat
  | 0, _ => 0
  | k + 1, n => if (n + 7) / 8 ≤ 64 then 1 else 1 + treeLevels k ((n + 7) / 8)

/-- The place of a metadata line in the region, in lines. -/
def metaLine (p : Nat) (x : Nat × Nat) : Nat :=
  if x.1 = 15 then x.2
  else if x.1 = 0 then 128 * p + x.2
  else if x.1 = 14 then 144 * p + x.2
  else 146 * p + nodesTo p (x.1 - 1) + x.2

/-- The physical address of a metadata line. -/
def State.metaPa (s : State) (x : Nat × Nat) : Nat :=
  let l := metaLine s.protPages x
  s.rotPage (l / 1024) * 65536 + l % 1024 * 64

/-- The metadata line at a physical address, none where the page lies outside the region or is one of its free pages. -/
def State.metaAt (s : State) (pa : Nat) : Option (Nat × Nat) :=
  let n := s.pageNo (pa / 65536)
  let p := s.protPages
  let l := n * 1024 + paLine pa
  if !s.pageInUse (pa / 65536) || s.rd CAL.SYS_MD.f ≤ n then none
  else if l < 128 * p then some (15, l)
  else if l < 144 * p then some (0, l - 128 * p)
  else if l < 146 * p then some (14, l - 144 * p)
  else
    ((List.range (s.rd ENC.LEVELS.f)).find? fun k => decide (l - 146 * p < nodesTo p (k + 1))).map fun k =>
      (k + 1, l - 146 * p - nodesTo p k)

/-- The counter line of a line of the protected part. -/
def State.ctrNo (s : State) (pa : Nat) : Nat := (s.pageNo (pa / 65536) - s.rd CAL.SYS_MD.f) * 16 + pa / 4096 % 16

/-- The node of the tree at `lvl` above a line; level 0 is its counter line. -/
def State.nodeOf (s : State) (pa lvl : Nat) : Nat := s.ctrNo pa / 8 ^ lvl

/-- The line of MACs that holds the MAC of a data line. -/
def State.macNo (s : State) (pa : Nat) : Nat := (s.pageNo (pa / 65536) - s.rd CAL.SYS_MD.f) * 128 + paLine pa / 8

/-! Counters, the tree, and what stands in the devices. -/

/-- The index of a metadata line in the tables that are kept by it. -/
def treeKey (x : Nat × Nat) : Nat := x.1 * 2 ^ 44 + x.2

/-- The counter that the parent of a counter line or node holds for it: in a stored node, or in the root (R282). -/
def State.parentCtr (s : State) (x : Nat × Nat) : Nat :=
  if x.1 = s.rd ENC.LEVELS.f then s.wide ENC.root x.2 else s.wide ENC.node (treeKey x)

/-- The parent's counter increases by one: its child is written back (R282). -/
def State.bumpParent (s : State) (x : Nat × Nat) : State :=
  let v := s.parentCtr x + 1
  let s := s.wr ENC.CTR_TOP.f (max v (s.rd ENC.CTR_TOP.f))
  if x.1 = s.rd ENC.LEVELS.f then s.setWide ENC.root x.2 v else s.setWide ENC.node (treeKey x) v

/-- The 512 bits of counter line `c`: the major counter in bits 63:0, the minor counter of line i in bits 64 + 7i + 6 to
64 + 7i (R281). -/
def State.counterLine (s : State) (c : Nat) : Nat :=
  let p := s.rotPage (s.rd CAL.SYS_MD.f + c / 16) * 16 + c % 16
  (List.range 64).foldl (fun v i => v + s.wide ENC.minor (p * 64 + i) * 2 ^ (64 + 7 * i)) (s.wide ENC.major p)

/-- The eight counters of a node, counter c in bits 56c + 55 to 56c; its MAC field is zero (R282). -/
def State.nodeLine (s : State) (x : Nat × Nat) : Nat :=
  (List.range 8).foldl (fun v c => v + s.wide ENC.node (treeKey (x.1 - 1, 8 * x.2 + c)) * 2 ^ (56 * c)) 0

/-- The bytes of a line that is kept as a number, byte 0 the least significant. -/
def lineBytes (v : Nat) : List Nat := (List.range 64).map fun i => v / 256 ^ i % 256

/-- A counter line or a node without its MAC. -/
def State.treeLine (s : State) (x : Nat × Nat) : Nat := if x.1 = 0 then s.counterLine x.2 else s.nodeLine x

/-- The MAC of a counter line or a node that reads as `v`: under K_T, with its parent counter in the fields of the
counters (R280). -/
def State.treeMac (s : State) (x : Nat × Nat) (v : Nat) : Nat :=
  let c := s.parentCtr x
  lineMac (keyT (s.rd (ENC.KEY.f 0))) (counterBlock (s.metaPa x) (c / 2 ^ 7) c 0) (lineBytes v)

/-- The generation under which a page of a key ID stands: while its walk runs, a page that the walk has not passed is
under the one before (R287). -/
def State.pageGen (s : State) (key pa : Nat) : Nat :=
  if s.flag ENC.RK_RUN.f && s.rd ENC.RK_STAT_KID.f == key && decide (s.rd ENC.RK_PTR.f ≤ pa / 4096)
  then s.rd (ENC.GEN.f key) - 1 else s.rd (ENC.GEN.f key)

/-- The counters of a line. -/
def State.majorOf (s : State) (pa : Nat) : Nat := s.wide ENC.major (pa / 4096)
def State.minorOf (s : State) (pa : Nat) : Nat := s.wide ENC.minor (pa / 64)

/-- The ciphertext of a data line whose plaintext is `l` (R279). -/
def State.cipherLine (s : State) (key pa : Nat) (l : List Nat) : List Nat :=
  ctrLine (keyE (s.rd (ENC.KEY.f key)) (s.pageGen key pa)) (key * 2 ^ 44 + pa) (s.majorOf pa) (s.minorOf pa) l

/-- The MAC of a data line whose ciphertext is `c` (R280). -/
def State.dataMac (s : State) (key pa : Nat) (c : List Nat) : Nat :=
  lineMac (keyM (s.rd (ENC.KEY.f key)) (s.pageGen key pa))
    (counterBlock (key * 2 ^ 44 + pa) (s.majorOf pa) (s.minorOf pa) 0) c

/-! The state of stored lines, and the cache. -/

/-- The controller returns the line as poison, or not at all: it is stored with the reserved syndrome, its MAC fails,
its channel is out of service or has lost its contents since (R250, R258). -/
def State.lineDead (s : State) (pa : Nat) : Bool :=
  !s.flag (DDR.UP.f (paChan pa)) ||
    match s.wide DDR.pois (pa / 64) with
    | 0 => s.flag (DDR.LOST.f (paChan pa))
    | 3 => false
    | _ => true

/-- A line is stored good. -/
def State.storeGood (s : State) (pa : Nat) : State :=
  s.setWide DDR.pois (pa / 64) (if s.flag (DDR.LOST.f (paChan pa)) then 3 else 0)

/-- What the cache holds of a metadata line: nothing, the line, or a dirty one. -/
def State.cached (s : State) (x : Nat × Nat) : Nat := s.wide ENC.cache (treeKey x)

/-- The metadata lines that the cache holds, with their states. -/
def State.cacheList (s : State) : List ((Nat × Nat) × Nat) :=
  s.tabs.filterMap fun e =>
    if e.1 / 2 ^ 48 = ENC.cache.id then some ((e.1 % 2 ^ 48 / 2 ^ 44, e.1 % 2 ^ 44), e.2) else none

/-- A metadata line comes into the cache, or is changed there. -/
def State.cacheIn (s : State) (x : Nat × Nat) (dirty : Bool) : State :=
  s.setWide ENC.cache (treeKey x) (if dirty then 2 else max 1 (s.cached x))

/-- A metadata line is written back: its parent's counter for it goes up, so that the parent is dirty, and so is the
line that holds the MAC of a counter line (R282, R284). -/
def State.writeBack (s : State) (x : Nat × Nat) : State :=
  let s := (s.storeGood (s.metaPa x)).setWide ENC.cache (treeKey x) 1
  if x.1 ≤ s.rd ENC.LEVELS.f then
    let s := s.bumpParent x
    let s := if x.1 = s.rd ENC.LEVELS.f then s else s.cacheIn (x.1 + 1, x.2 / 8) true
    if x.1 = 0 then s.cacheIn (14, x.2 / 8) true else s
  else s

/-- The cache holds 8 MiB, 131,072 lines: beyond that entries leave it, dirty ones by a write-back (R284). -/
def State.cacheTrim (s : State) : Nat → State
  | 0 => s
  | n + 1 =>
    let l := s.cacheList
    if l.length ≤ 131072 then s
    else
      let e := l.getD (Config.cacheVictim s.free % l.length) ((0, 0), 0)
      let t := if e.2 = 2 then s.draw.writeBack e.1 else s.draw
      (t.setWide ENC.cache (treeKey e.1) 0).cacheTrim n

/-- The lines of the path above a metadata line come into the cache, as far as the first that is there (R284). -/
def State.cachePath (s : State) : Nat → Nat × Nat → State
  | 0, _ => s
  | n + 1, x =>
    if s.rd ENC.LEVELS.f < x.1 || s.cached x != 0 then s
    else (s.cacheIn x false).cachePath n (x.1 + 1, x.2 / 8)

/-- The metadata of a line comes into the cache for a read of it, or for a write, which changes its counter line and its
MAC. -/
def State.cacheLine (s : State) (pa : Nat) (write : Bool) : State :=
  let c := s.ctrNo pa
  let s := s.cachePath 16 (0, c)
  let s := (s.cacheIn (0, c) write).cacheIn (14, c / 8) false
  (s.cacheIn (15, s.macNo pa) write).cacheTrim 64

/-- Every dirty entry is written back, from the counter lines up, and the root is saved (R284). -/
def State.metaFlush (s : State) : State :=
  let s := (List.range 16).foldl (fun s k =>
    (s.cacheList.filter fun e => e.2 == 2 && e.1.1 == k).foldl (fun s e => s.writeBack e.1) s) s
  s.forUpTo 64 fun s i => s.setWide ENC.rootSave i (s.wide ENC.root i)

/-- The root comes back from Chiffon (R284). -/
def State.rootRestore (s : State) : State := s.forUpTo 64 fun s i => s.setWide ENC.root i (s.wide ENC.rootSave i)

/-- The lines that a check of the path reads verify: those above a line of the cache, which is trusted, are not read
(R282, R284). -/
def State.climb (s : State) : Nat → Nat × Nat → Bool
  | 0, _ => true
  | n + 1, x =>
    s.rd ENC.LEVELS.f < x.1 || s.cached x != 0 ||
      (!s.lineDead (s.metaPa x) && (x.1 != 0 || s.cached (14, x.2 / 8) != 0 || !s.lineDead (s.metaPa (14, x.2 / 8))) &&
        s.climb n (x.1 + 1, x.2 / 8))

/-- The counter line of a line and its path verify (R289): no node above it has failed, and what the check reads can be
read. -/
def State.pathGood (s : State) (pa : Nat) : Bool :=
  !(s.badNodes.any fun n => s.nodeOf pa n.1 == n.2) && s.climb 16 (0, s.ctrNo pa)

/-- The MAC of a line can be read. -/
def State.macGood (s : State) (pa : Nat) : Bool :=
  s.cached (15, s.macNo pa) != 0 || !s.lineDead (s.metaPa (15, s.macNo pa))

end Sys2Proof.Machine
end

