-- ==== Sys2Proof/Machine/CalBase.lean ====
section
/-! DEFINITION. DRAM as Calico's users see it: the directory and its pages (R214 to R217), reads and writes of
allocations through the encryption layer (R285 to R292), poison and re-upload (R241), and the freeing of pages (R226).
Log entries 3, 37 and 42. -/

namespace Sys2Proof.Machine

/-! Page tables (R216). -/

/-- The second-level tables of an allocation over its pages, in the places given. -/
def tablesOf (key : Nat) : List Nat → List Nat → List PageTable
  | [], _ => []
  | p :: r, l => { slot := p, entries := (l.take 1024).map fun x => ⟨x, key⟩ } :: tablesOf key r (l.drop 1024)

/-- The pages of an allocation in the order of its contents. -/
def Alloc.pages (a : Alloc) : List Nat := a.tables.flatMap fun t => t.entries.map PageEntry.page

/-- The entry for byte `off`: the first level is indexed by bits 35:26, the second by bits 25:16. -/
def Alloc.entry (a : Alloc) (off : Nat) : Option PageEntry :=
  (a.tables[off / 2 ^ 26]?).bind fun t => t.entries[off / 65536 % 1024]?

/-- The physical address (bits 43:0) of byte `off` of an allocation. -/
def Alloc.pa (a : Alloc) (off : Nat) : Nat := ((a.entry off).map PageEntry.page).getD 0 * 65536 + off % 65536

/-- Page `i` of an allocation moves to another physical page. -/
def Alloc.setPage (a : Alloc) (i pg : Nat) : Alloc :=
  { a with tables := a.tables.modify (i / 1024) fun t => { t with entries := t.entries.set (i % 1024) ⟨pg, a.key⟩ } }

/-- The places that the page tables of an allocation take. -/
def Alloc.slots (a : Alloc) : List Nat := a.root :: a.tables.map PageTable.slot

/-- The lowest `n` places that no table takes. -/
def freeSlots (used : List Nat) (n : Nat) : List Nat :=
  ((List.range (used.length + n)).filter fun i => !used.contains i).take n

/-- The place of a page table that lies at a physical address: tables of 8 KiB follow the metadata region in the SYSTEM
area (log entry 37). -/
def State.tableAt (s : State) (pa : Nat) : Option Nat :=
  let n := s.pageNo (pa / 65536)
  if s.pageSystem (pa / 65536) && decide (s.rd CAL.SYS_MD.f ≤ n) then some ((n - s.rd CAL.SYS_MD.f) * 8 + pa / 8192 % 8)
  else none

/-- The physical address of entry `i` of the page table in a place. -/
def State.tablePa (s : State) (slot i : Nat) : Nat :=
  s.rotPage (s.rd CAL.SYS_MD.f + slot / 8) * 65536 + slot % 8 * 8192 + i * 8

/-! The directory. -/

/-- Calico's allocation with an ID. -/
def State.alloc? (s : State) (id : Nat) : Option Alloc := s.dir.find? id

/-- Put an allocation into the directory. -/
def State.setAlloc (s : State) (id : Nat) (a : Alloc) : State := s.withDir (s.dir.put id a)

/-- The pages that allocations hold. -/
def State.usedPages (s : State) : List Nat := s.dir.flatMap fun e => e.2.pages

/-- CAL_ALLOCS (R220). -/
def State.allocCount (s : State) : Nat := s.dir.length

/-- CAL_PAGES_FREE (R220). -/
def State.pagesFree (s : State) : Nat := s.rd CAL.PAGES_TOTAL.f - s.usedPages.length

/-- The ring and bitmap allocations that the burst of a run uses. -/
def Burst.names (b : Burst) (id : Nat) : Bool := (b.ring && b.ringId == id) || (b.bmap && b.bmapId == id)

/-- A use of R226 keeps an allocation. -/
def State.allocUsed (s : State) (id : Nat) : Bool :=
  (s.runs.any fun e => e.2.obj == id || e.2.bursts.any fun b => b.names id) ||
    (s.sessions.any fun e => e.2.workId == id || e.2.outId == id) || s.uses.any fun u => u.2 == id

/-- PAGES_FREED: the pages of a DELETING allocation are freed once its last use ends (R226). -/
def State.freeDeleted (s : State) : State :=
  if s.flag CAL.READY.f then s.withDir (s.dir.filter fun e => e.2.st != 5 || s.allocUsed e.1) else s

/-- The places that page tables take. -/
def State.usedSlots (s : State) : List Nat := s.dir.flatMap fun e => e.2.slots

/-- The user `u` uses allocation `id`. -/
def State.addUse (s : State) (u id : Nat) : State := s.withUses (s.uses ++ [(u, id)])

/-- The user `u` ends its use, and pages that waited for it are freed. -/
def State.dropUse (s : State) (u : Nat) : State := (s.withUses (s.uses.filter fun x => x.1 != u)).freeDeleted

/-! The state of a line (R258, R289). -/

/-- A key ID holds a key. -/
def State.keyLoaded (s : State) (k : Nat) : Bool := s.bit ENC.KEYV.f k

/-- A line reads as poison: the controller returns poison or its MAC fails, its MAC or its counters cannot be verified,
or its key is gone (R250, R278, R289). -/
def State.linePoison (s : State) (key pa : Nat) : Bool :=
  s.lineDead pa || !s.keyLoaded key || !s.macGood pa || !s.pathGood pa

/-- ENC_ERR_CAP takes the first error (R295). -/
def State.encCapture (s : State) (pa key kind lvl : Nat) : State :=
  if s.flag ENC.CAP_FULL.f then s
  else ((((s.setFlag ENC.CAP_FULL.f true).wr ENC.ERR_CAP_LO.f pa).wr ENC.ERR_CAP_HI_PA_HI.f
    (pa / 2 ^ 32 + key * 2 ^ 12)).wr ENC.ERR_CAP_HI_KIND.f kind).wr ENC.ERR_CAP_HI_LEVEL.f lvl

/-- DDR_ERR_CAP takes the first error of a channel (R253). -/
def State.ddrCapture (s : State) (pa key kind : Nat) : State :=
  let n := paChan pa
  if s.flag (DDR.CAP_FULL.f n) then s
  else (((((s.setFlag (DDR.CAP_FULL.f n) true).wr (DDR.ERR_CAP_LO.f n) pa).wr (DDR.ERR_CAP_HI_PA_HI.f n)
    (pa / 2 ^ 32 + key * 2 ^ 12)).wr (DDR.ERR_CAP_HI_KIND.f n) kind).wr (DDR.ERR_CAP_HI_RANK.f n) (paRank pa)).wr
      (DDR.ERR_CAP_HI_SUB.f n) (pa / 64 % 2)

/-- A line is stored poisoned: the reserved syndrome, the channel's capture and DRAM event slot 2 (R253, R258, R273). -/
def State.storeMark (s : State) (key pa : Nat) : State :=
  ((s.setWide DDR.pois (pa / 64) 1).ddrCapture pa key 2).pulse (1280 + 16 * paChan pa + 2)

/-- A write is stored poisoned: ENC_ERR_CAP takes its kind (R288, R290). -/
def State.storePoison (s : State) (key pa kind : Nat) : State := (s.storeMark key pa).encCapture pa key kind 0

/-- The MAC of a line fails: it is counted and captured (R289). -/
def State.macFails (s : State) (key pa : Nat) : State := (s.incSat ENC.MAC_FAIL.f).encCapture pa key 0 0

/-! Writes (R285 to R291). -/

/-- Accesses to a line of DRAM wait: its channel holds its queue, or its rank is being redirected (R270, R466). -/
def State.lineWaits (s : State) (pa : Nat) : Bool :=
  s.dramHeld || (s.flag (DDR.SETUP.f (paChan pa)) && s.rd (DDR.RETIRING.f (paChan pa)) == paRank pa)

/-- A write of the line needs a re-encryption of its page. -/
def State.needsReencrypt (s : State) (pa : Nat) : Bool := s.minorOf pa == 127

/-- The major counter of the page stands at all ones. -/
def State.majorFull (s : State) (pa : Nat) : Bool := s.majorOf pa == 2 ^ 64 - 1

/-- A write is held because only the re-key walk can give the page new counters, and a walk will pass it (R286, R288).
-/
def State.writeHeld (s : State) (key pa : Nat) : Bool :=
  s.needsReencrypt pa && s.majorFull pa && s.pageGen key pa != 0xFFFF

/-- A write of the line waits. -/
def State.writeWaits (s : State) (key pa : Nat) : Bool := s.lineWaits pa || s.writeHeld key pa

/-- A line whose rewriting finds it unverifiable is stored poisoned: a stored poison that is read, or a MAC that fails
(R259, R285, R287). -/
def State.rewriteBad (s : State) (key pa : Nat) : State :=
  let n := paChan pa
  let s := if s.wide DDR.pois (pa / 64) = 1 then (s.ddrCapture pa key 1).pulse (1280 + 16 * n + 3) else s.macFails key pa
  s.storeMark key pa

/-- Every line of the 4 KiB page `p` is rewritten under fresh counters and MACs: those that do not verify, among them
the lines in the mask `bad`, are stored poisoned. -/
def State.rewriteLines (s : State) (key p bad : Nat) : State :=
  let s := s.forUpTo 64 fun s i =>
    let pa := (p * 64 + i) * 64
    let b := bitOf bad i || s.lineDead pa || !s.macGood pa
    let s := s.setWide ENC.minor (p * 64 + i) 0
    if b then s.rewriteBad key pa else s
  s.forUpTo 8 fun s i => s.cacheLine (p * 4096 + i * 512) true

/-- PAGE_REENCRYPT: the whole page goes to major + 1 with every minor counter 0; a line that fails verification is
stored poisoned (R285); at 0xFFFF_FFFF_FFFF_0000 the key ID is marked for re-key (R286). -/
def State.pageReencrypt (s : State) (key pa bad : Nat) : State :=
  let p := pa / 4096
  let m := s.wide ENC.major p + 1
  let s := ((s.rewriteLines key p bad).setWide ENC.major p m).wr ENC.MAJ_TOP.f (max m (s.rd ENC.MAJ_TOP.f))
  if m = 0xFFFFFFFFFFFF0000 then s.setBit ENC.RKPEND.f key true else s

/-- A line of MACs that cannot be read is made anew: the MACs of the other lines in it are lost. -/
def State.loseMacs (s : State) (pa : Nat) : State :=
  s.forUpTo 8 fun s i =>
    let l := pa / 512 * 8 + i
    if s.wide DDR.pois l = 1 then s else s.setWide DDR.pois l 2

/-- The counters and the stored state of a line after a write that does not wait; `whole` says that the whole line is
written, `bad` names the lines of its page that a re-encryption finds unverifiable. A line whose counters do not
verify, or whose key is gone, is stored poisoned with its counters as they are (R285, R288, R290, R291). -/
def State.lineWritten (s : State) (key pa : Nat) (whole : Bool) (bad : Nat := 0) : State :=
  if !s.flag (DDR.UP.f (paChan pa)) then s
  else if !s.pathGood pa || !s.keyLoaded key then s.storePoison key pa 3
  else if s.needsReencrypt pa && s.majorFull pa then s.storePoison key pa 5
  else
    let poison := !whole && (s.lineDead pa || !s.macGood pa)
    let s := if s.macGood pa then s else s.loseMacs pa
    let s := if s.needsReencrypt pa then s.pageReencrypt key pa bad else s
    let s := (s.setWide ENC.minor (pa / 64) (s.minorOf pa + 1)).cacheLine pa true
    if poison then s.storePoison key pa 3 else s.storeGood pa

/-- The read of a line for a merge finds that it does not verify (R289, R290). -/
def State.readBad (s : State) (key pa : Nat) (bad : Bool) : State :=
  if bad && !s.lineDead pa then (s.setWide DDR.pois (pa / 64) 2).macFails key pa else s

/-- The lines that the bytes `off .. off + n - 1` of an allocation touch, by offset. -/
def lineOffsets (off n : Nat) : List Nat :=
  if n = 0 then [] else (List.range ((off + n - 1) / 64 - off / 64 + 1)).map fun i => (off / 64 + i) * 64

/-- A byte of an allocation by physical address: undefined until it is written (R223). -/
def State.dramByte (s : State) (a : Alloc) (pa : Nat) : Byte :=
  if bitOf (s.wide DDR.wrote (pa / 64)) (pa % 64) then s.byte (dramKey pa) else Config.undefByte a.epoch pa

/-- Store a byte of an allocation by physical address. -/
def State.setDramByte (s : State) (pa : Nat) (b : Byte) : State :=
  (s.setByte (dramKey pa) b).setWide DDR.wrote (pa / 64) (putBit (s.wide DDR.wrote (pa / 64)) (pa % 64) true)

/-- Store bytes into an allocation, one byte after another. -/
def State.allocStore (s : State) (a : Alloc) (off : Nat) : List Byte → State
  | [] => s
  | b :: r => (s.setDramByte (a.pa off) b).allocStore a (off + 1) r

/-- Write bytes of an allocation: the data, and for every line touched its counters and state. -/
def State.allocWrite (s : State) (a : Alloc) (off : Nat) (bs : List Byte) (bad : Nat := 0) : State :=
  let s := s.allocStore a off bs
  (lineOffsets off bs.length).foldl
    (fun s o => s.lineWritten a.key (a.pa o) (off ≤ o && o + 64 ≤ off + bs.length) bad) s

/-- Line `i` of an allocation becomes zero. -/
def State.zeroLine (s : State) (a : Alloc) (i : Nat) : State :=
  let pa := a.pa (64 * i)
  let s := s.withMem (s.mem.filter fun c => !(decide (dramKey pa ≤ c.1) && decide (c.1 < dramKey pa + 64)))
  (s.setWide DDR.wrote (pa / 64) (2 ^ 64 - 1)).lineWritten a.key pa true

/-- The lines of an allocation from line `pos` on become zero. -/
def State.zeroFrom (s : State) (a : Alloc) (pos : Nat) : State :=
  (List.range (a.size / 64 - pos)).foldl (fun s i => s.zeroLine a (pos + i)) s

/-- A write of the bytes `off .. off + n - 1` of an allocation waits. -/
def State.storeWaits (s : State) (a : Alloc) (off n : Nat) : Bool :=
  (lineOffsets off n).any fun o => s.writeWaits a.key (a.pa o)

/-- A read of them waits. -/
def State.loadWaits (s : State) (a : Alloc) (off n : Nat) : Bool := (lineOffsets off n).any fun o => s.lineWaits (a.pa o)

/-- Some line of the bytes `off .. off + n - 1` of an allocation reads as poison. -/
def State.allocPoison (s : State) (a : Alloc) (off n : Nat) : Bool :=
  (lineOffsets off n).any fun o => a.marked.contains (o / 65536) || s.linePoison a.key (a.pa o)

/-- `n` bytes of an allocation, little-endian. -/
def State.allocRead (s : State) (a : Alloc) (off : Nat) : Nat → Nat
  | 0 => 0
  | n + 1 => (s.dramByte a (a.pa off)).toNat + 256 * s.allocRead a (off + 1) n

/-- `n` bytes of an allocation, as a list. -/
def State.allocBytes (s : State) (a : Alloc) (off n : Nat) : List Nat :=
  (List.range n).map fun i => (s.dramByte a (a.pa (off + i))).toNat

/-- The little-endian bytes of a word. -/
def wordBytes (v n : Nat) : List Byte := (List.range n).map fun i => BitVec.ofNat 8 (v / 256 ^ i)

/-! Poison in an object page (R241, R242). -/

/-- With PZ_SLP = 1, an object whose ALLPOIS is set anew is reported to the host where the notice queue has room (R241,
R451). -/
def State.allpoisNotice (s : State) (id : Nat) (a : Alloc) : State :=
  if s.flag ETH.PZ_SLP.f && !a.allpois && s.notices.length < 1024 then
    s.withNotices (s.notices ++ [{ kind := 1, count := 0, arg0 := id, arg1 := 2 ^ 32 - 1, ts := s.time % 2 ^ 32 }])
  else s

/-- PAGE_MARK: the page is marked and listed, or ALLPOIS is set while the list is full; a READY object enters
REUPLOAD. -/
def State.pageMark (s : State) (id page : Nat) : State :=
  match s.alloc? id with
  | none => s
  | some a =>
    if a.marked.contains page then s
    else
      let s := s.pulse 1238
      if s.pzList.length < 256 then
        (s.withPzList (s.pzList ++ [(id, page)])).setAlloc id
          { a with marked := a.marked ++ [page], st := if a.st = 3 then 4 else if a.st = 2 then 1 else a.st }
      else ((s.setFlag CAL.PZ_OVF.f true).allpoisNotice id a).setAlloc id
          { a with marked := a.marked ++ [page], allpois := true, st := if a.st = 3 then 4 else if a.st = 2 then 1 else a.st }

/-- The allocation that holds a physical page, with its ID. -/
def State.pageOwner (s : State) (pg : Nat) : Option (Nat × Alloc) := List.find? (fun e => e.2.pages.contains pg) s.dir

/-- Poison in the page table in a place marks every page beneath it and sets ALLPOIS (R242, R246). -/
def State.tablePoison (s : State) (slot : Nat) : State :=
  s.dir.foldl (fun s e =>
    if !e.2.slots.contains slot then s
    else
      let a := e.2
      let n := a.pages.length
      let beneath := if a.root = slot then List.range n
        else (List.range n).filter fun i => (a.tables[i / 1024]?).any fun t => t.slot == slot
      let m := a.marked ++ beneath.filter fun i => !a.marked.contains i
      ((if a.kind = 0 then s.allpoisNotice e.1 a else s).setAlloc e.1
        { a with marked := m, allpois := true, st := if a.kind = 0 && a.st = 3 then 4 else if a.st = 2 then 1 else a.st }).pulse 1238) s

/-- Mark every page of an object among the bytes `off .. off + n - 1` that has a line reading as poison. -/
def State.markPoison (s : State) (id : Nat) (a : Alloc) (off n : Nat) : State :=
  (lineOffsets off n).foldl
    (fun s o => if s.linePoison a.key (a.pa o) then s.pageMark id (o / 65536) else s) s

end Sys2Proof.Machine
end

