-- ==== Sys2Proof/Machine/Stream.lean ====
section
/-! DEFINITION. Pattern objects and their stream (R126 to R130): the header, the decoding of a line over the object's
bytes, and the buffer of a run (R236 to R240): what Calico has fetched of the object, by 64-byte lines, and how far
ahead of consumption it lies. Log entries 21 and 35. -/

namespace Sys2Proof.Machine

/-! The object's bytes and its header. -/

/-- `n` bytes from offset `o`, little-endian. -/
def leAt (b : Nat → Nat) (o : Nat) : Nat → Nat
  | 0 => 0
  | n + 1 => b o + 256 * leAt b (o + 1) n

/-- `n` bytes from offset `o`. -/
def bytesAt (b : Nat → Nat) (o n : Nat) : List Nat := (List.range n).map fun i => b (o + i)

/-- The bytes of an allocation, by offset. -/
def State.objByte (s : State) (a : Alloc) (o : Nat) : Nat := (s.dramByte a (a.pa o)).toNat

/-- The header that the bytes of an object give (R126). -/
def ObjHeader.of (b : Nat → Nat) : ObjHeader :=
  { width := leAt b 4 4 % 256, dictN := bits (leAt b 4 4) 16 13, bodyWords := leAt b 8 4, entry := leAt b 12 4,
    tset0 := leAt b 16 4 % 64 }

/-- The header of an object, from its allocation. -/
def State.objHeader (s : State) (a : Alloc) : ObjHeader := ObjHeader.of (s.objByte a)

/-- The byte offset of body word `w`. -/
def ObjHeader.bodyOff (h : ObjHeader) (w : Nat) : Nat := 64 + h.dictN * 8 + w * 4

/-- The stored size of an object (R227). -/
def ObjHeader.stored (h : ObjHeader) : Nat := 64 + h.dictN * 8 + h.bodyWords * 4

/-! Decoding a line (R127 to R130). -/

/-- The opcodes of R131 that have an operand word. -/
def hasOperand (op : Nat) : Bool := [1, 3, 4, 5, 6, 8, 9, 0xE].contains op

/-- The opcodes of R131. -/
def validOp (op : Nat) : Bool := op = 0 || op = 1 || (3 ≤ op && op ≤ 0xF)

/-- The opcodes whose OPND is 0 in R131. -/
def zeroOpnd (op : Nat) : Bool := [0, 1, 5, 6, 7, 0xB, 0xE, 0xF].contains op

/-- What the decoding of a line gives: the line, or an error of R130. -/
inductive Decoded
  | line (l : TwlLine)
  | bad
  deriving DecidableEq, Repr

/-- The octets of an OCT payload, from octet `k` on: `codes` and `lits` are the offsets of the next code and literal
(R128). The result is the bytes and the end offset, or none where a code breaks R128. -/
def octets (b : Nat → Nat) (h : ObjHeader) (prev : List Nat) (mask codes lits : Nat) :
    Nat → Nat → Option (List Nat × Nat)
  | 0, _ => some ([], lits)
  | n + 1, k =>
    if bitOf mask k then
      let c := leAt b codes 2
      if bits c 12 3 != 0 then none
      else if bitOf c 15 then
        (octets b h prev mask (codes + 2) (lits + 8) n (k + 1)).map fun r => (bytesAt b lits 8 ++ r.1, r.2)
      else if h.dictN ≤ c % 4096 then none
      else
        (octets b h prev mask (codes + 2) lits n (k + 1)).map fun r => (bytesAt b (64 + c % 4096 * 8) 8 ++ r.1, r.2)
    else
      (octets b h prev mask codes lits n (k + 1)).map fun r =>
        ((List.range 8).map (fun i => prev.getD (8 * k + i) 0) ++ r.1, r.2)

/-- The octets that an OCT mask names. -/
def maskCount (mask : Nat) : Nat := ((List.range 16).filter fun k => bitOf mask k).length

/-- The payload of a line at byte offset `o`: its W bytes, and its length in bytes. -/
def payload (b : Nat → Nat) (h : ObjHeader) (prev : List Nat) (pay o : Nat) : Option (List Nat × Nat) :=
  match pay with
  | 0 => some (bytesAt b o h.width, h.width)
  | 1 => some (prev, 0)
  | 2 =>
    let mask := leAt b o 2
    (octets b h prev mask (o + 2) (o + 2 + 2 * maskCount mask) 16 0).map fun r => (r.1.take h.width, r.2 - o)
  | 3 => some (List.replicate h.width (b o), 1)
  | _ => none

/-- A payload code makes its line self-contained (R129). -/
def selfContained (b : Nat → Nat) (h : ObjHeader) (pay o : Nat) : Bool :=
  pay == 0 || pay == 3 || (pay == 2 && (List.range ((h.width + 7) / 8)).all fun k => bitOf (leAt b o 2) k)

/-- Decode the line at body address `w`, reached from the line before it where `flow` holds (R127 to R130). -/
def decodeLine (b : Nat → Nat) (h : ObjHeader) (w : Nat) (flow : Bool) (prev : List Nat) : Decoded :=
  let hd := leAt b (h.bodyOff w) 4
  let op := hd % 64
  let pay := bits hd 6 3
  let pw := if hasOperand op then w + 2 else w + 1
  if h.bodyWords ≤ w || !validOp op || bits hd 17 3 != 0 || h.bodyWords < pw then .bad
  else if !(flow && w != h.entry && w != 0) && !selfContained b h pay (h.bodyOff pw) then .bad
  else
    match payload b h prev pay (h.bodyOff pw) with
    | none => .bad
    | some (bs, n) =>
      let next := pw + (n + 3) / 4
      if h.bodyWords < next then .bad
      else if (bytesAt b (h.bodyOff pw + n) ((4 - n % 4) % 4)).any fun x => x != 0 then .bad
      else
        .line
          { addr := w, next := next, op := op, opnd := bits hd 20 12,
            arg := if hasOperand op then leAt b (h.bodyOff (w + 1)) 4 else 0,
            tsc := bitOf hd 9, tset := bits hd 10 6, cmask := bitOf hd 16, bytes := bs }

/-- The dictionary entries and literals that the codes of an OCT payload name, as offsets and lengths; `lits` is the
offset of the next literal. -/
def octetRanges (b : Nat → Nat) (h : ObjHeader) (codes lits : Nat) : Nat → List (Nat × Nat)
  | 0 => []
  | n + 1 =>
    let c := leAt b codes 2
    if bitOf c 15 then (lits, 8) :: octetRanges b h (codes + 2) (lits + 8) n
    else if c % 4096 < h.dictN then (64 + c % 4096 * 8, 8) :: octetRanges b h (codes + 2) lits n
    else octetRanges b h (codes + 2) lits n

/-- A range of the object's bytes cut at the end of the body. -/
def ObjHeader.cut (h : ObjHeader) (x : Nat × Nat) : Nat × Nat := (x.1, min x.2 (h.stored - x.1))

/-- The bytes that the decoding of the line at `w` reads, in the parts in which it comes to know them: the header word;
the operand word with a fixed payload or the octet mask; the codes; the literals and the dictionary entries. -/
def lineParts (b : Nat → Nat) (h : ObjHeader) (w : Nat) : List (List (Nat × Nat)) :=
  if h.bodyWords ≤ w then []
  else
    let hd := leAt b (h.bodyOff w) 4
    let pw := if hasOperand (hd % 64) then w + 2 else w + 1
    let o := h.bodyOff pw
    let n := match bits hd 6 3 with
      | 0 => h.width
      | 2 => 2
      | 3 => 1
      | _ => 0
    let k := if bits hd 6 3 = 2 then maskCount (leAt b o 2) else 0
    let parts := [[(h.bodyOff w, 4)], [(h.bodyOff (w + 1), (pw - w - 1) * 4), (o, n)], [(o + 2, 2 * k)],
      octetRanges b h (o + 2) (o + 2 + 2 * k) k]
    parts.map fun p => p.map h.cut

/-! The buffer of a run. -/

/-- 64-byte line `i` of the object of sequencer `q` is in the buffer. -/
def State.bufHas (s : State) (q i : Nat) : Bool := s.tab CAL.buf q i != 0

/-- It was poison when it was read. -/
def State.bufPois (s : State) (q i : Nat) : Bool := bitOf (s.tab CAL.buf q i) 1

/-- Byte `o` of the object as the buffer of a sequencer holds it. -/
def State.bufByte (s : State) (q o : Nat) : Nat := bits (s.tab CAL.buf q (o / 64)) (2 + 8 * (o % 64)) 8

/-- The 64-byte lines that a range of bytes touches. -/
def rangeLines (x : Nat × Nat) : List Nat := (lineOffsets x.1 x.2).map fun o => o / 64

/-- How a line's bytes stand in the buffer: whole, with a part still missing, or with a poisoned part. -/
inductive Buffered
  | whole
  | missing
  | poison
  deriving DecidableEq, Repr

/-- The first part of a line that is missing or poisoned settles it: what lies behind it cannot be told (R148, R239). -/
def State.buffered (s : State) (q : Nat) : List (List (Nat × Nat)) → Buffered
  | [] => .whole
  | p :: r =>
    let ls := p.flatMap rangeLines
    if ls.any fun i => !s.bufHas q i then .missing
    else if ls.any fun i => s.bufPois q i then .poison
    else s.buffered q r

/-- One 64-byte line of an object is read into the buffer; poison marks its page (R241). -/
def State.fetchLine (s : State) (q id i : Nat) : State :=
  match s.alloc? id with
  | none => s
  | some a =>
    let p := s.allocPoison a (64 * i) 64
    let v := s.allocRead a (64 * i) 64
    ((if p then s.pageMark id (i / 1024) else s).cacheLine (a.pa (64 * i)) false).setTab CAL.buf q i (4 * v + 2 * b2n p + 1)

/-- A translation that misses reads an entry of each level; poison in a page table marks what lies beneath it (R242). -/
def State.translate (s : State) (a : Alloc) (p : Nat) : State :=
  let s := if s.linePoison 0 (s.tablePa a.root (p / 1024)) then s.tablePoison a.root else s
  match a.tables[p / 1024]? with
  | none => s
  | some t => if s.linePoison 0 (s.tablePa t.slot (p % 1024)) then s.tablePoison t.slot else s

/-- The pages of lines asked for that the translation cache does not hold. -/
def SeqRun.misses (r : SeqRun) : List Nat := ((r.asked.map fun i => i / 1024).eraseDups).filter fun p => !r.xlat.contains p

/-- The 64-byte line reads that are outstanding, device-wide (R240). -/
def State.readsOut (s : State) : Nat := (s.runs.map fun e => e.2.asked.length).foldl (· + ·) 0

/-- The fetcher asks for ascending lines, `n` at most, up to line `goal`; it holds at 32 missing translations and at a
line whose channel makes it wait (R237, R240, R245). -/
def State.askLines (s : State) (a : Alloc) (goal : Nat) : Nat → SeqRun → SeqRun
  | 0, r => r
  | n + 1, r =>
    let p := r.fetched / 1024
    if goal ≤ r.fetched || s.lineWaits (a.pa (64 * r.fetched)) ||
        (!r.xlat.contains p && !r.misses.contains p && decide (32 ≤ r.misses.length)) then r
    else s.askLines a goal n { r with asked := r.asked ++ [r.fetched], fetched := r.fetched + 1 }

/-- The lines that a sequencer's fetcher has asked for arrive (R240). -/
def State.takeReads (s : State) (q : Nat) : State :=
  match s.runs.find? q with
  | none => s
  | some r =>
    match s.alloc? r.obj with
    | none => s
    | some a =>
      let s := r.misses.foldl (fun s p => s.translate a p) s
      let s := r.asked.foldl (fun s i => s.fetchLine q r.obj i) s
      s.withRuns (s.runs.put q { r with asked := [], xlat := (r.misses ++ r.xlat).take 4096 })

/-- The fetch front that Calico keeps up for consumption up to body word `w`: the whole of a resident object, else
d × 128 µs of new bytes, or the rest of the body (R236, R237). -/
def SeqRun.fetchGoal (r : SeqRun) (h : ObjHeader) (w : Nat) : Nat :=
  if r.res then h.stored else min h.stored (h.bodyOff w + r.demand * 12800)

/-- The lines that the fetch front has passed and the run no longer keeps: those of the body from ENTRY on that lie
more than 1 MiB behind the furthest address consumed (R237). -/
def SeqRun.drops (r : SeqRun) (h : ObjHeader) (i : Nat) : Bool :=
  !r.res && decide (h.bodyOff h.entry ≤ 64 * i) && decide (64 * i + 64 + 2 ^ 20 ≤ h.bodyOff r.front)

/-- Lines that have left the window of a sequencer's run leave its buffer. -/
def State.dropLines (s : State) (q : Nat) (r : SeqRun) : State :=
  if r.res || r.hdr.bodyOff r.front < 2 ^ 20 then s
  else s.withTabs (s.tabs.filter fun e => !(e.1 / 2 ^ 32 == CAL.buf.id * 2 ^ 16 + q && r.drops r.hdr (e.1 % 2 ^ 32)))

/-- The fetcher of a sequencer asks for lines towards its goal for body word `w`. The 1,024 reads that may be
outstanding are shared equally among the runs (DESIGN CHOICE, log entry 35). -/
def State.askReads (s : State) (q w : Nat) : State :=
  match s.runs.find? q with
  | none => s
  | some r =>
    match s.alloc? r.obj with
    | none => s
    | some a =>
      let n := min (1024 - s.readsOut) (1024 / max 1 s.runs.length - r.asked.length)
      s.withRuns (s.runs.put q (s.askLines a ((r.fetchGoal r.hdr w + 63) / 64) n r))

/-- A turn of a sequencer's fetcher: what it has asked for arrives, lines that have left the window go, and it asks for
more. -/
def State.fetch (s : State) (q w : Nat) : State :=
  match s.runs.find? q with
  | none => s
  | some r => ((s.takeReads q).dropLines q r).askReads q w

/-- Turns of the fetcher until it asks for nothing more, `n` at most. -/
def State.fetchAll (s : State) (q w : Nat) : Nat → State
  | 0 => s
  | n + 1 =>
    let s := s.fetch q w
    if (s.runs.find? q).any fun r => !r.asked.isEmpty then s.fetchAll q w n else s

/-- The lines at the front of the object that have arrived. -/
def SeqRun.arrived (r : SeqRun) : Nat := r.fetched - r.asked.length

/-- The new bytes that the buffer holds ahead of consumption. -/
def SeqRun.ahead (r : SeqRun) (h : ObjHeader) : Nat := min h.stored (64 * r.arrived) - h.bodyOff r.front

/-- The bytes of the body ahead of consumption. -/
def SeqRun.rest (r : SeqRun) (h : ObjHeader) : Nat := h.stored - h.bodyOff r.front

/-- CAL_SQs_LOOK: the lookahead in µs, the demand being in units of 100 bytes a µs (R220). -/
def State.lookUs (s : State) (q : Nat) : Nat :=
  match s.runs.find? q with
  | none => 0
  | some r =>
    if r.res || r.demand = 0 || 65534 < r.ahead r.hdr / (r.demand * 100) then 0xFFFF
    else r.ahead r.hdr / (r.demand * 100)

/-- A burst that has issued its vector 0 and not ended holds less ahead than both d × 108 µs and the rest of its body
(R238). -/
def State.lookShort (s : State) (q : Nat) : Bool :=
  match s.runs.find? q with
  | none => false
  | some r => s.issuing q && r.vcnt != 0 && !r.res && decide (r.ahead r.hdr < min (r.demand * 10800) (r.rest r.hdr))

/-- LOOK_LOW. -/
def State.lookLow (s : State) : Bool := (List.range 16).any fun q => s.lookShort q

/-- The buffer space of a sequencer is given back. -/
def State.dropBuf (s : State) (q : Nat) : State :=
  s.withTabs (s.tabs.filter fun e => e.1 / 2 ^ 32 != CAL.buf.id * 2 ^ 16 + q)

end Sys2Proof.Machine
end

