-- ==== Sys2Proof/Machine/Compare.lean ====
section
/-! DEFINITION. Damask's judging of compare slots (R181 to R186), the fail records it makes (R192 to R197), the bitmap
bits that travel with them (R199), and the cells it hands to the repair units (R205, R206).
Log entries 12, 18, 27 and 29. -/

namespace Sys2Proof.Machine

/-! Slots. -/

/-- The expectation of a slot, 0 none, 1 low, 2 high, 3 mid; an empty slot has none. -/
def Slot.exp : Slot → Nat
  | .empty => 0
  | .edge e => e
  | .window e => e

def Slot.isEmpty : Slot → Bool
  | .empty => true
  | _ => false

/-- The pair 2 CH + CL that an expectation asks for (R102). -/
def expPair : Nat → Nat
  | 1 => 1
  | 2 => 2
  | _ => 0

/-- The pair that a window strobe reports: each bit differs from the expected one if it did so at any instant; with no
expectation, the bits at the S0 time (R102). -/
def foldWindow (e : Nat) (xs : List Nat) : Nat :=
  match e, xs with
  | _, [] => 0
  | 0, x :: _ => x
  | e, xs =>
    let w := expPair e
    let hi := if xs.any fun x => x / 2 % 2 != w / 2 then 1 - w / 2 else w / 2
    let lo := if xs.any fun x => x % 2 != w % 2 then 1 - w % 2 else w % 2
    2 * hi + lo

/-- A slot fails under a compare mode (R181). -/
def slotFails (cmode e pair : Nat) : Bool :=
  match cmode, e with
  | 0, 1 => pair != 1
  | 0, 2 => pair != 2
  | 0, 3 => pair != 0
  | 1, 1 => pair % 2 == 0
  | 1, 2 => pair / 2 == 0
  | 1, 3 => pair != 0
  | _, _ => false

/-- The CMODE under which a column is judged: that of its first judging, or the channel's now (R183). -/
def State.modeOf (s : State) (c : FlightCol) : Nat := c.mode.getD (s.rd (DMK.CMODE.f c.ch))

/-- The columns of a vector with the CMODE of each kept, as Damask judges them now. -/
def State.judgedCols (s : State) (f : Flight) : Flight :=
  { f with cols := f.cols.map fun c => { c with mode := some (s.modeOf c) } }

/-- The slot takes part in judging and signatures: it is not empty, and its channel's CMODE is not OFF. -/
def State.slotLive (s : State) (c : FlightCol) (x : Slot) : Bool := !x.isEmpty && s.modeOf c != 3

/-- One bit of the signature register (R185): `v` is 2 CH + CL. -/
def sigStep (sig v : Nat) : Nat :=
  (sig * 2 % 2 ^ 64 ^^^ sig / 2 ^ 63 * 0x1B) ^^^ v

/-- The column is masked in a vector. -/
def Flight.masks (_f : Flight) (maskGrp : Nat) (c : FlightCol) : Bool := bitOf maskGrp c.grp || c.masked

/-- The slots of one column with their pairs. -/
def FlightCol.judged (c : FlightCol) (ps : List Nat) : List (Slot × Nat) := c.slots.zip ps

/-- The column fails in slot `k`. -/
def State.failsAt (s : State) (f : Flight) (mg : Nat) (c : FlightCol) (ps : List Nat) (k : Nat) : Bool :=
  !f.masks mg c && slotFails (s.modeOf c) (c.slots.getD k .empty).exp (ps.getD k 0)

/-- The column fails in some slot. -/
def State.colFails (s : State) (f : Flight) (mg : Nat) (c : FlightCol) (ps : List Nat) : Bool :=
  (List.range c.slots.length).any fun k => s.failsAt f mg c ps k

/-- The counters and the signature of one channel take in a judged vector (R184, R185). -/
def State.judgeColumn (s : State) (f : Flight) (mg : Nat) (c : FlightCol) (ps : List Nat) : State :=
  if f.masks mg c then s
  else
    let sig := (c.judged ps).foldl (fun a x => if s.slotLive c x.1 then sigStep a x.2 else a) (s.rd (DMK.SIG.f c.ch))
    let fails := s.colFails f mg c ps
    let s := s.wr (DMK.SIG.f c.ch) sig
    if fails then
      let s := if s.rd (DMK.FFAIL.f c.ch) = 0xFFFFFFFFFFFF then s.wr (DMK.FFAIL.f c.ch) f.cyc else s
      s.incSat (DMK.FCNT.f c.ch)
    else s

/-! Runs and bursts. -/

/-- The run of a sequencer. -/
def State.run? (s : State) (q : Nat) : Option SeqRun := s.runs.find? q

def State.setRun (s : State) (q : Nat) (r : SeqRun) : State := s.withRuns (s.runs.put q r)

/-- Apply `f` to the burst of group `g` of a run. -/
def SeqRun.updBurst (r : SeqRun) (g : Nat) (f : Burst → Burst) : SeqRun :=
  { r with bursts := r.bursts.map fun b => if b.grp = g then f b else b }

/-- Apply `f` to a burst of a sequencer's run. -/
def State.updBurst (s : State) (q g : Nat) (f : Burst → Burst) : State :=
  match s.run? q with
  | none => s
  | some r => s.setRun q (r.updBurst g f)

/-! Fail records. -/

/-- The site's FIFO. -/
def State.fifo (s : State) (site : Nat) : List FailRec := s.fifos.get site []

def State.setFifo (s : State) (site : Nat) (l : List FailRec) : State := s.withFifos (s.fifos.set site l [])

/-- Pack per-column values of a slice, `w` bits each. -/
def packCols (w : Nat) (l : List (Nat × Nat)) : Nat := l.foldl (fun a x => a + x.2 * 2 ^ (w * x.1)) 0

/-- The span position of a record: that of the vector, or of the unit interval (R154, R192). -/
def Flight.spanAt (f : Flight) (t : ApgTag) (k : Nat) : Nat := t.span + (if f.express then k else 0)

/-- The bit index of a data lane at a slot (R171, R199). -/
def laneIdx (l : Nat × Nat) (n : Nat) : Nat := (l.1 + n * l.2) % 144

/-- The bitmap bit of a failing data column (R199). -/
def Burst.bitAddr (b : Burst) (t : ApgTag) (idx : Nat) : Nat :=
  let x := (if b.space then t.px else t.dx) % 2 ^ b.xw
  let y := (if b.space then t.py else t.dy) % 2 ^ b.yw
  let z := t.z % 2 ^ b.zw
  ((z * 2 ^ b.xw + x) * 2 ^ b.yw + y) * 2 ^ b.db + idx % 2 ^ b.db

/-- The columns of a burst in one slice, with their pairs. -/
def sliceCols (cs : List (FlightCol × List Nat)) (g sl : Nat) : List (FlightCol × List Nat) :=
  cs.filter fun x => x.1.grp == g && x.1.col / 16 == sl

/-- The record of one slot and slice (R192), or none where no column of it fails. -/
def State.mkRecord (s : State) (f : Flight) (mg : Nat) (q : Nat) (b : Burst) (cs : List (FlightCol × List Nat))
    (k sl : Nat) : Option FailRec :=
  let xs := sliceCols cs b.grp sl
  let fl := xs.filter fun x => s.failsAt f mg x.1 x.2 k
  if fl.isEmpty then none
  else
    let live := xs.filter fun x => !f.masks mg x.1 && s.slotLive x.1 (x.1.slots.getD k .empty)
    let fail := packCols 1 (fl.map fun x => (x.1.col % 16, 1))
    let exp := packCols 2 (live.map fun x => (x.1.col % 16, (x.1.slots.getD k .empty).exp))
    let act := packCols 2 (live.map fun x => (x.1.col % 16, x.2.getD k 0))
    let tagw := match f.tag with
      | none => (0, 0, 0, 0)
      | some t => (2 ^ 23 + t.z * 2 ^ 24, f.spanAt t k * 2 ^ 16 + t.dir * 2 ^ 20,
          if b.rspace then t.px else t.dx, if b.rspace then t.py else t.dy)
    let bits := match f.tag with
      | none => []
      | some t =>
        if b.bmap && t.dir == 2 then
          fl.filterMap fun x => x.1.lane.map fun l => b.bitAddr t (laneIdx l (f.spanAt t k))
        else []
    some
      { words := [f.cyc % 2 ^ 32, f.cyc / 2 ^ 32 + sl * 2 ^ 16 + k * 2 ^ 19 + tagw.1, fail + tagw.2.1, exp, act,
          tagw.2.2.1, tagw.2.2.2, b.bseq % 2 ^ 16],
        seq := q, grp := b.grp, ring := b.ring && !b.ringBad, ringId := b.ringId, bmapId := b.bmapId, bits := bits }

/-- The overflow marker of a record (R197). -/
def FailRec.marker (r : FailRec) : FailRec :=
  { r with words := [r.words.getD 0 0, r.words.getD 1 0 % 2 ^ 21 + 2 ^ 21, 0, 0, 0, 0, 0, r.words.getD 7 0], bits := [] }

/-- The pending bitmap updates of a site. -/
def State.updatesOf (s : State) (site : Nat) : List BitmapUpdate := s.updates.get site []

def State.setUpdates (s : State) (site : Nat) (l : List BitmapUpdate) : State :=
  s.withUpdates (s.updates.set site l [])

/-- The lines of bitmaps that updates touch: the bitmap's ID and the 64-byte line. -/
def updateLines (us : List (Nat × List Nat)) : List (Nat × Nat) :=
  (us.flatMap fun u => u.2.map fun b => (u.1, b / 512)).eraseDups

/-- The bitmap writer of a site has room for the bits of records. It merges at most two lines at a time, as many as the
two records of one ring line can touch; a record that brings a third waits in the FIFO (R201, R212; the number of two
is a DESIGN CHOICE, log entry 29). -/
def State.mergeRoom (s : State) (site : Nat) (rs : List FailRec) : Bool :=
  (rs.all fun r => r.bits.isEmpty) ||
    decide ((updateLines (((s.updatesOf site).map fun u => (u.bmapId, u.bits)) ++
      rs.map fun r => (r.bmapId, r.bits))).length ≤ 2)

/-- The bitmap bits of a record leave the FIFO with it (R200). -/
def State.recordOut (s : State) (site : Nat) (r : FailRec) : State :=
  if r.bits.isEmpty then s
  else
    s.setUpdates site
      (s.updatesOf site ++ [{ seq := r.seq, grp := r.grp, bmapId := r.bmapId, bits := r.bits }])

/-- Records at the head of a FIFO that are not written to a ring pass, as far as the bitmap writer takes their bits. -/
def State.passRecords (s : State) (site : Nat) : List FailRec → State
  | [] => s.setFifo site []
  | r :: rest =>
    if r.ring || !s.mergeRoom site [r] then s.setFifo site (r :: rest)
    else (s.recordOut site r).passRecords site rest

/-- Records that are not written to a ring pass through the head of the FIFO (R195, R196). -/
def State.passHead (s : State) (site : Nat) : State := s.passRecords site (s.fifo site)

/-- A record enters the FIFO of its site (R194), is counted as dropped behind the overflow marker (R197), or passes for
a burst whose ring is bad, counted in DROPCNT (R196). -/
def State.enterRecord (s : State) (q : Nat) (b : Burst) (r : FailRec) : State :=
  let s := s.passHead b.site
  if b.dropping then s.updBurst q b.grp fun b => { b with dropCnt := b.dropCnt + 1 }
  else if 1024 ≤ (s.fifo b.site).length then
    let s := s.updBurst q b.grp fun b => { b with dropCnt := b.dropCnt + 1, ovf := true, dropping := true }
    if b.ringBad then s else s.setFifo b.site (s.fifo b.site ++ [r.marker])
  else
    (if b.ringBad then s.updBurst q b.grp fun b => { b with dropCnt := b.dropCnt + 1, ovf := true } else s).setFifo
      b.site (s.fifo b.site ++ [r])

/-- The burst of group `g` of a sequencer's run. -/
def State.burst? (s : State) (q g : Nat) : Option Burst :=
  match s.run? q with
  | none => none
  | some r => r.bursts.find? fun b => b.grp == g

/-- The records of one vector of one group, by slot and then by slice (R193). -/
def State.recordsOf (s : State) (f : Flight) (mg q g : Nat) (cs : List (FlightCol × List Nat)) : State :=
  s.forUpTo 4 fun s k => s.forUpTo 8 fun s sl =>
    match s.burst? q g with
    | none => s
    | some b =>
      match s.mkRecord f mg q b cs k sl with
      | none => s
      | some r => s.enterRecord q b r

/-! Repair cells (R205, R206). -/

/-- The cell of a fail (R205). -/
def RaSession.cell (u : RaSession) (g : Nat) (t : ApgTag) (idx : Nat) : RaCell :=
  let x := if u.space then t.px else t.dx
  let y := (if u.space then t.py else t.dy) % 2 ^ u.yw
  let b := idx % 2 ^ u.db
  let c := if u.corder then b * 2 ^ u.yw + y else y * 2 ^ u.db + b
  { grp := g, row := x % 2 ^ u.rb, col := c % 2 ^ u.cb,
    block := ((t.z % 2 ^ u.zb) * 2 ^ u.xbb + x / 2 ^ u.rb % 2 ^ u.xbb) * 2 ^ u.cbb + c / 2 ^ u.cb % 2 ^ u.cbb }

/-- A cell arrives at a unit: it is queued, or refused where the queue is full (R211). -/
def State.raArrive (s : State) (k g : Nat) (t : ApgTag) (idx : Nat) : State :=
  match s.sessions.find? k with
  | none => s
  | some u =>
    if !bitOf u.gmask g || u.searching then s
    else if u.queue.length < 65536 then
      s.withSessions (s.sessions.put k { u with queue := u.queue ++ [u.cell g t idx] })
    else
      (s.withSessions (s.sessions.put k { u with lost := putBit u.lost g true })).setBit DMK.QFULL.f k true

/-- The fails of the data columns of one vector go to the units that its run feeds. -/
def State.raFeed (s : State) (f : Flight) (mg q : Nat) (cs : List (FlightCol × List Nat)) : State :=
  match f.tag, s.run? q with
  | some t, some r =>
    if t.dir != 2 then s
    else
      cs.foldl (fun s x =>
        match x.1.lane with
        | none => s
        | some l =>
          (List.range x.1.slots.length).foldl (fun s k =>
            if s.failsAt f mg x.1 x.2 k then
              s.forUpTo 4 fun s u =>
                if bitOf r.raUnits u then s.raArrive u x.1.grp t (laneIdx l (f.spanAt t k)) else s
            else s) s) s
  | _, _ => s

/-! One judged vector. -/

/-- The groups of a vector with a failing slot, as a mask. -/
def State.failMask (s : State) (f : Flight) (mg : Nat) (cs : List (FlightCol × List Nat)) : Nat :=
  cs.foldl (fun m x => if s.colFails f mg x.1 x.2 then putBit m x.1.grp true else m) 0

/-- A failing vector enters the counts of its group (R186). -/
def Burst.countFail (b : Burst) (cyc : Nat) : Burst :=
  { b with failCnt := satInc 32 b.failCnt, ffail := if b.ffail = 0xFFFFFFFFFFFF then cyc else b.ffail }

/-- Damask judges a vector under the group mask `mg`: channels, groups, records and repair cells. -/
def State.judge (s : State) (q : Nat) (f : Flight) (mg : Nat) (ps : List (List Nat)) : State :=
  let cs := f.cols.zip ps
  let fm := s.failMask f mg cs
  let s := cs.foldl (fun s x => s.judgeColumn f mg x.1 x.2) s
  let s := s.forUpTo 8 fun s g => if bitOf fm g then s.updBurst q g fun b => b.countFail f.cyc else s
  let s := s.forUpTo 8 fun s g => if bitOf fm g then s.recordsOf f mg q g cs else s
  s.raFeed f mg q cs

end Sys2Proof.Machine
end

