-- ==== Sys2Proof/Machine/Vector.lean ====
section
/-! DEFINITION. The issue of one vector by a sequencer (R120, R132, R142, R143), its end of run (R146 to R149), the
arrival of compare results (R134, R136 to R140), and its release (R24, R202). Log entries 18, 19, 20, 22 and 23. -/

namespace Sys2Proof.Machine

/-! The decision delay (R136). -/

/-- The largest TD of a sequencer's channels, code of 0.5 ps. -/
def State.maxTd (s : State) (q : Nat) : Nat := (s.owned q).foldl (fun m c => max m (s.tdUsed c)) 0

/-- D of a sequencer in ns, as TWL_MLAT reports it (R125, R136). -/
def State.decisionNs (s : State) (q : Nat) : Nat :=
  Config.decisionDelay (min 20000 (if s.issuing q then s.rd (TIM.PLANE_Q.f q) else s.rd TIM.PLANE.f)) (s.maxTd q) % 1024

/-- D in units of 0.25 ps. -/
def State.decisionDelay (s : State) (q : Nat) : Nat := s.decisionNs q * 4000

/-! Sources of pin bytes (R12). -/

/-- The bay that a region code names is held by its ring, or empty (R22, R358, R362). -/
def State.bayHeld (s : State) (b : Nat) : Bool := s.flag (CNV.HELD.f b) || s.rd (CNV.BAY_STAT_BSTATE.f b) == 0

/-- An underflow of a channel's injection port (R358). -/
def State.injUnderflow (s : State) (c : Nat) : State :=
  (if s.flag CNV.INJ_FULL.f then s else (s.setFlag CNV.INJ_FULL.f true).wr CNV.INJ_CAP_CH.f c).incSat CNV.INJ_CNT.f

/-- The injected byte of a channel (R22, R357, R358). -/
def State.injByte (s : State) (c : Nat) : State × Nat :=
  let src := s.rd (CNV.INJ_ACT.f c)
  let k := s.rd (CNV.PORT_ICONST.f c)
  if 17 ≤ src then (s, k)
  else if src < 16 && s.bayHeld src then (s, k)
  else
    match s.inj.get c [] with
    | b :: r => (s.withInj (s.inj.set c r []), b)
    | [] => (s.injUnderflow c, k)

/-- What an APG lane gives for a vector: its pin byte, whether its slots are masked, and its BIT and STRIDE for a data
lane (R171 to R175). -/
abbrev LaneOut := Nat × Bool × Option (Nat × Nat)

/-- A vector to issue: its stream bytes by column, its masking, its place in a MATCH, and the tag of an APG. -/
structure VectorSpec where
  bytes : List Nat
  masked : Bool
  cmask : Bool
  iter : Nat
  iterEnd : Bool
  tag : Option ApgTag

/-- The pin byte of a channel, with the APG lane's marks. -/
def State.columnByte (s : State) (q c j : Nat) (v : VectorSpec) (lane : Option (Nat → LaneOut)) : State × LaneOut :=
  let w := s.tab TWL.src q j
  match w % 4, lane with
  | 2, _ => let r := s.injByte c; (r.1, r.2, false, none)
  | 1, some f => (s, f (w / 256))
  | _, _ => (s, v.bytes.getD j 0, false, none)

/-- Drive one channel for a vector and give its compare slots. -/
def State.issueColumn (s : State) (q k : Nat) (v : VectorSpec) (lane : Option (Nat → LaneOut)) (c : Nat) :
    State × FlightCol :=
  let j := s.rd (TWL.OWN_COL.f c)
  let r := s.columnByte q c j v lane
  let s := r.1
  let s := if s.rd (VLV.AWAIT.f c) = 1 then s.wr (VLV.AWAIT.f c) 2 else s
  let b := r.2.1
  (s.driveByte q k c b,
    { ch := c, col := j, grp := s.rd (TWL.OWN_GRP.f c), pb := b, slots := s.slotsOf q k c b, masked := r.2.2.1,
      lane := r.2.2.2, times := s.slotTimes q k c b })

/-- Drive the channels of a list, in order. -/
def State.issueColumns (s : State) (q k : Nat) (v : VectorSpec) (lane : Option (Nat → LaneOut)) :
    List Nat → State × List FlightCol
  | [] => (s, [])
  | c :: r =>
    let x := s.issueColumn q k v lane c
    let y := x.1.issueColumns q k v lane r
    (y.1, x.2 :: y.2)

/-- The channels that a vector of a sequencer reaches: those of its undetached groups that its columns name. -/
def State.liveChannels (s : State) (q width : Nat) : List Nat :=
  (s.owned q).filter fun c =>
    !s.bit (TWL.DET.f q) (s.rd (TWL.OWN_GRP.f c)) && s.rd (TWL.OWN_COL.f c) < width

/-- The protection trip is active on some tile. -/
def State.tripActive (s : State) : Bool := (List.range 4).any fun t => s.flag (VLV.TRIP.f t)

/-- The APG that a sequencer's map in force names (R122). -/
def State.apgOf (s : State) (q : Nat) : Option Nat :=
  if s.flag (TWL.AF_EN.f q) then some (s.rd (TWL.AF_APG.f q)) else none

/-- The refresh counter of an APG starts an interval (R168). -/
def State.refreshStart (s : State) (g : Nat) : State :=
  (s.setFlag (GNG.REF_RUN.f g) true).wr (GNG.REF_CUR.f g) (max 100 (s.rd (GNG.REF_INT.f g)))

/-- What the issue of vector 0 does besides: the burst's claim falls to its demand (R232), and the refresh counter
starts (R168). -/
def State.vectorZero (s : State) (q : Nat) (r : SeqRun) : State :=
  let s := s.wr (CAL.SQ_BW_CLAIM.f q) r.demand
  match s.apgOf q with
  | none => s
  | some g => if s.flag (GNG.REF_EN.f g) then s.refreshStart g else s

/-- The vector count of a run, in its two registers (R125). -/
def State.setVcnt (s : State) (q n : Nat) : State := (s.wr (TWL.VCNT_LO.f q) n).wr (TWL.VCNT_HI.f q) (n / 2 ^ 32)

/-- The instant in ns at which vector 0 begins: in a cascade at the first CT boundary, which is a TREF cycle of 10 ns
(R416). -/
def State.startTime (s : State) : Nat := if s.inCascade then (s.time + 9) / 10 * 10 else s.time

/-- The issue of one vector: every live channel is driven, and its slots go to Damask (R120, R132). -/
def State.issueVector (s : State) (q : Nat) (r : SeqRun) (v : VectorSpec) (lane : Option (Nat → LaneOut)) : State :=
  let k := s.rd (TWL.STATE_TSET.f q)
  let s := if r.vcnt = 0 then s.vectorZero q r else s
  let x := s.issueColumns q k v lane (s.liveChannels q v.bytes.length)
  let s := x.1
  let fl : Flight :=
    { cyc := r.vcnt, ends := r.vtime + s.period q k, maskGrp := if v.masked then 0xFF else 0, cmask := v.cmask,
      iter := v.iter, iterEnd := v.iterEnd, express := s.seqExpress q, tag := v.tag, cols := x.2, starts := r.vtime,
      state := s.rd (TWL.STATE_STATE.f q) }
  let trip := s.tripActive
  let r :=
    { r with
      tstart := if r.vcnt = 0 then s.startTime else r.tstart
      vcnt := r.vcnt + 1
      vtime := r.vtime + s.period q k
      last := v.bytes
      flights := r.flights ++ [fl]
      bursts := r.bursts.map fun b => if trip && s.strobesIn fl b.grp then { b with trip := true } else b }
  (s.setRun q r).setVcnt q (r.vcnt % 2 ^ 48)

/-! The end of a run (R146 to R149). -/

/-- The APG of a sequencer stops (R178), and its refresh counter with the run (R168). -/
def State.apgStop (s : State) (q : Nat) : State :=
  match s.apgOf q with
  | none => s
  | some g => ((s.setFlag (GNG.RUN.f g) false).setFlag (GNG.REF_RUN.f g) false).wr (GNG.RPT_LEFT.f g) 0

/-- A burst ends with a code, unless it has ended before (R140, R146). -/
def Burst.finish (b : Burst) (code line vcnt : Nat) : Burst :=
  match b.ended with
  | some _ => b
  | none => { b with ended := some code, endLine := line, vcnt := vcnt, vpois := b.vpois || code == 0xA }

/-- The groups of a run that are not detached. -/
def SeqRun.liveGroups (r : SeqRun) : List Nat := (r.bursts.filter fun b => !b.det).map fun b => b.grp

/-- The fail flags of the groups of a mask are set (R134). -/
def State.setFails (s : State) (q m : Nat) : State :=
  match s.run? q with
  | none => s
  | some r => r.liveGroups.foldl (fun s g => if bitOf m g then s.setBit (TWL.FAIL.f q) g true else s) s

/-- A run ends: every burst that has not ended takes the code, the vectors of an unfinished MATCH stay masked, the
channels take IDLE, the sequencer enters DRAIN, and timing writes that waited are applied (R103, R105, R145). Compare
results still on their way reach the sequencer in DRAIN; the model sets their fail flags at once (R134, log entry 19).
-/
def State.endRun (s : State) (q code line : Nat) : State :=
  match s.run? q with
  | none => s
  | some r =>
    let s := s.setFails q (r.arrivals.foldl (fun m a => m ||| a.fails) 0)
    let r :=
      { r with
        need := none, line := none, fresh := false, left := 0, mtch := none, held := [], arrivals := [], ending := none
        flights := r.flights.map fun f => if f.iter = 0 then f else { f with iter := 0, maskGrp := 0xFF }
        bursts := r.bursts.map fun b => b.finish code line r.vcnt }
    let s := (s.setRun q r).apgStop q
    let s := (s.setBit CAL.STARVE.f q false).wr (TWL.STATE_STATE.f q) 7
    ((s.owned q).foldl (fun s c => s.applyIdle c) s).timingApply q

/-- A run ends at the line of its last vector. -/
def State.endRunHere (s : State) (q code : Nat) : State := s.endRun q code (s.rd (TWL.LINE.f q))

/-- A run ends at the next vector boundary with a code, unless an ending with a lower one comes there (R147). -/
def State.endSoon (s : State) (q code line : Nat) : State :=
  match s.run? q with
  | none => s
  | some r =>
    let e := match r.ending with
      | some x => if x.1 ≤ code then x else (code, line)
      | none => (code, line)
    s.setRun q { r with ending := some e, need := none, line := none, fresh := false, left := 0 }

/-- The ending at the line of the last vector. -/
def State.endSoonHere (s : State) (q code : Nat) : State := s.endSoon q code (s.rd (TWL.LINE.f q))

/-- An ending that is due comes at its boundary. -/
def State.endDue (s : State) (q : Nat) : State :=
  match s.run? q with
  | none => s
  | some r =>
    match r.ending with
    | none => s
    | some x => s.endRun q x.1 x.2

/-- Groups of a mask, ascending. -/
def groupsOf (m : Nat) : List Nat := (List.range 8).filter fun g => bitOf m g

/-- GROUP_DETACH: a group whose fail flag is set is detached (R140). -/
def State.detachGroup (s : State) (q g : Nat) : State :=
  let s := s.setBit (TWL.DET.f q) g true
  let line := s.rd (TWL.LINE.f q)
  let n := match s.run? q with
    | none => 0
    | some r => r.vcnt
  let s := s.updBurst q g fun b => { b.finish 2 line n with det := true }
  ((s.owned q).filter fun c => s.rd (TWL.OWN_GRP.f c) == g).foldl (fun s c => s.applyIdle c) s

/-- HALT_ON_FAIL at a vector boundary: mode 1 acts on the fail flag of any group, a detached one included, mode 2 on
those not detached yet (R139, R140). -/
def State.haltOnFail (s : State) (q : Nat) : State :=
  match s.run? q with
  | none => s
  | some r =>
    match r.hof with
    | 1 => if s.rd (TWL.FAIL.f q) = 0 then s else s.endRunHere q 2
    | 2 =>
      let new := r.liveGroups.filter fun g => s.bit (TWL.FAIL.f q) g
      let s := new.foldl (fun s g => s.detachGroup q g) s
      match s.run? q with
      | none => s
      | some r => if !new.isEmpty && r.liveGroups.isEmpty then s.endRunHere q 2 else s
    | _ => s

/-! MATCH decisions (R137, R138). -/

/-- The loop is satisfied: some live group, or with agg = 1 every live group, has matched. -/
def MatchRun.satisfied (m : MatchRun) (live : List Nat) : Bool :=
  let hit := fun g => m.matched.any fun x => x.1 == g
  if m.agg then live.all hit else live.any hit

/-- The result of one iteration's last vector reaches the sequencer. -/
def MatchRun.decide (m : MatchRun) (live : List Nat) (a : Arrival) : MatchRun :=
  if a.iter = 0 then m
  else
    let new := live.filter fun g => bitOf a.matched g && !m.matched.any fun x => x.1 == g
    let m := { m with decided := m.decided + 1, matched := m.matched ++ new.map fun g => (g, a.iter) }
    match m.sat with
    | some _ => m
    | none => if m.satisfied live then { m with sat := some a.due } else m

/-- One compare result reaches the sequencer: the fail flags of its groups are set (R134), an iteration is decided. -/
def State.takeArrival (s : State) (q : Nat) (a : Arrival) : State :=
  match s.run? q with
  | none => s
  | some r =>
    (s.setFails q a.fails).setRun q { r with mtch := r.mtch.map fun m => m.decide r.liveGroups a }

/-- The results that are due at the present boundary reach the sequencer, oldest first. -/
def State.takeArrivals (s : State) (q : Nat) : State :=
  match s.run? q with
  | none => s
  | some r =>
    let due := r.arrivals.filter fun a => a.due ≤ r.vtime
    let s := s.setRun q { r with arrivals := r.arrivals.filter fun a => !(a.due ≤ r.vtime) }
    due.foldl (fun s a => s.takeArrival q a) s

/-- A compare result is on its way to the sequencer (R136). -/
def State.pushArrival (s : State) (q : Nat) (a : Arrival) : State :=
  match s.run? q with
  | none => s
  | some r => s.setRun q { r with arrivals := r.arrivals ++ [a] }

/-- A group of the MATCH, undetached, has not matched: its MTO flag is set at the end (R138). A group detached during
the MATCH has left it, and its flag stays as it was (DEDUCED from R137 and R140, log entry 23). -/
def MatchRun.unmatched (m : MatchRun) (live : List Nat) (g : Nat) : Bool :=
  live.contains g && !m.matched.any fun x => x.1 == g

/-- The mask of a MATCH's vector once the MATCH has ended: the vectors of the last iteration are recorded for the groups
whose MTO flag it has set, every other vector stays masked (R138). -/
def Flight.matchMask (f : Flight) (m : MatchRun) (live : List Nat) : Nat :=
  if f.cmask || f.iter != m.iter then 0xFF
  else (List.range 8).foldl (fun a g => if m.unmatched live g then a else putBit a g true) 0

/-- The judged vectors of a MATCH that waited for its end. -/
def State.flushHeld (s : State) (q : Nat) (m : MatchRun) (live : List Nat) : List HeldVector → State
  | [] => s
  | h :: r =>
    let mg := h.flight.matchMask m live
    let fm := s.failMask h.flight mg (h.flight.cols.zip h.pairs)
    let s := s.judge q h.flight mg h.pairs
    (s.pushArrival q
      { due := h.flight.ends + s.decisionDelay q, cyc := h.flight.cyc, fails := fm, iter := 0, matched := 0 }).flushHeld
        q m live r

/-- The MTO flags and the match iterations at the end of a MATCH (R138, R150). -/
def Burst.matchEnd (b : Burst) (m : MatchRun) : Burst :=
  if b.det then b
  else
    match m.matched.find? fun x => x.1 == b.grp with
    | some x => { b with miter := x.2 }
    | none => { b with mto := true, miter := 0 }

/-- A MATCH ends, satisfied or timed out: flags, iterations, and the recording of its last iteration; the line after the
body comes next (R137, R138). -/
def State.matchFinish (s : State) (q : Nat) : State :=
  match s.run? q with
  | none => s
  | some r =>
    match r.mtch with
    | none => s
    | some m =>
      let s := r.liveGroups.foldl
        (fun s g => s.setBit (TWL.MTO.f q) g (m.unmatched r.liveGroups g)) s
      let s := s.setRun q
        { r with
          mtch := none, held := [], need := some m.after, flow := true, line := none
          flights := r.flights.map fun f => if f.iter = 0 then f else { f with iter := 0, maskGrp := f.matchMask m r.liveGroups }
          bursts := r.bursts.map fun b => b.matchEnd m }
      ((s.flushHeld q m r.liveGroups r.held).takeArrivals q).wr (TWL.STATE_STATE.f q) 2

/-! Release (R24 step 9, R145). -/

/-- The taps of a sequencer carry no lane (R354). -/
def State.clearTaps (s : State) (q : Nat) : State :=
  (((s.owned q).foldl (fun s c => s.wr (CNV.TAP.f c) 0) s).wr (CNV.STAP.f q) 0).wr (CNV.STAP_G.f q) 0 |>.wr (CNV.TAP_AT.f q) 0

/-- INJSRC_APPLY: a pending INJSRC of a channel takes effect, and its FIFO is emptied (R353, R357). -/
def State.injsrcApply (s : State) (c : Nat) : State :=
  if s.flag (CNV.PORT_INJ_PEND.f c) then
    let s := (s.setFlag (CNV.PORT_INJ_PEND.f c) false).wr (CNV.INJ_ACT.f c) (s.rd (CNV.PORT_INJSRC.f c))
    s.withInj (s.inj.set c [] [])
  else s

/-- The clock of Twill stops, once a 0 that was written to its enable finds every sequencer IDLE (R472). -/
def State.twlOffSettle (s : State) : State :=
  if s.flag CLK.TWL_OFF.f && (List.range 16).all fun q => s.rd (TWL.STATE_STATE.f q) == 0 then
    (s.setFlag CLK.TWL_OFF.f false).setBit CLK.EN.f 5 false
  else s

/-- SEQUENCER_RELEASE: Calico takes back the sequencer and its buffer space; the flags clear, INJSRC writes apply and
pages whose last use this was are freed. -/
def State.release (s : State) (q : Nat) : State :=
  let s := (s.withRuns (s.runs.del q)).dropBuf q
  let s := ((s.wr (TWL.FAIL.f q) 0).wr (TWL.DET.f q) 0).wr (TWL.MTO.f q) 0
  let s := ((s.wr (TWL.STATE_STATE.f q) 0).wr (CAL.SQ_BW_CLAIM.f q) 0).wr (CAL.SQ_BW_GRAN.f q) 0
  ((s.owned q).foldl (fun s c => s.injsrcApply c) (s.clearTaps q)).freeDeleted.twlOffSettle

end Sys2Proof.Machine
end

