-- ==== Sys2Proof/Machine/Twill.lean ====
section
/-! DEFINITION. The Twill sequencers (R120 to R152): the column map, the handing over of lines (R130, R240), and the
instructions (R131 to R142). A command of an instruction stands for one vector that its line issues.
Log entries 8, 15, 19, 21, 22 and 23. -/

namespace Sys2Proof.Machine

/-! The column map (R121 to R123). -/

/-- TWL_MAP_CAP takes a refusal unless it is full (R122). -/
def State.mapRefuse (s : State) (q kind ch other : Nat) : State :=
  if s.flag (TWL.MAP_ERR.f q) then s
  else (((s.setFlag (TWL.MAP_ERR.f q) true).wr (TWL.MAP_CAP_CH.f q) ch).wr (TWL.MAP_CAP_KIND.f q) kind).wr
    (TWL.MAP_CAP_SEQ.f q) other

/-- The entries in use of the enabled groups held, by group and then by column: group, column, channel. -/
def State.heldEntries (s : State) (q : Nat) : List (Nat × Nat × Nat) :=
  ((List.range 8).filter fun g => s.flag (TWL.GRP_EN.f q g)).flatMap fun g =>
    (List.range 128).filterMap fun j =>
      let w := s.tab TWL.cmap q (g * 128 + j)
      if bitOf w 7 then some (g, j, w % 128) else none

/-- The first channel that an earlier entry of the list names as well. R122 does not say which of several repeated
channels KIND 1 captures (DESIGN CHOICE, log entry 22). -/
def firstRepeat : List Nat → List Nat → Option Nat
  | _, [] => none
  | seen, c :: r => if seen.contains c then some c else firstRepeat (c :: seen) r

/-- The sites of the enabled groups held. -/
def State.heldSites (s : State) (q : Nat) : List Nat :=
  ((List.range 8).filter fun g => s.flag (TWL.GRP_EN.f q g)).map fun g => s.rd (TWL.GRP_SITE.f q g)

/-- The sequencer and group in force that hold a site (R123). -/
def State.siteOwner (s : State) (site : Nat) : Option (Nat × Nat) :=
  ((List.range 16).flatMap fun q => (List.range 8).map fun g => (q, g)).find? fun x =>
    s.flag (TWL.GF_EN.f x.1 x.2) && s.rd (TWL.GF_SITE.f x.1 x.2) == site

/-- The first check of MAP_COMMIT that fails: KIND, channel, other sequencer (R122). -/
def State.mapCheck (s : State) (q : Nat) : Option (Nat × Nat × Nat) :=
  let es := s.heldEntries q
  let sites := s.heldSites q
  if s.rd (TWL.STATE_STATE.f q) != 0 then some (3, 0, 0)
  else
    match es.find? fun e => s.rd (TWL.OWNER.f e.2.2) != 0 && s.rd (TWL.OWNER.f e.2.2) != q + 1 with
    | some e => some (0, e.2.2, s.rd (TWL.OWNER.f e.2.2) - 1)
    | none =>
      match firstRepeat [] (es.map fun e => e.2.2) with
      | some c => some (1, c, 0)
      | none =>
        if (firstRepeat [] sites).isSome || sites.any fun x => (s.siteOwner x).any fun o => o.1 != q then some (2, 0, 0)
        else
          match (List.range 16).find? fun p =>
              p != q && s.flag (TWL.APGSEL_EN.f q) && s.apgOf p == some (s.rd (TWL.APGSEL_APG.f q)) with
          | some p => some (4, 0, p)
          | none => none

/-- The held map, groups, sources and APG selection come into force together (R122, R123). -/
def State.mapApply (s : State) (q : Nat) : State :=
  let s := (s.owned q).foldl (fun s c => s.wr (TWL.OWNER.f c) 0) s
  let s := (s.heldEntries q).foldl
    (fun s e => ((s.wr (TWL.OWNER.f e.2.2) (q + 1)).wr (TWL.OWN_GRP.f e.2.2) e.1).wr (TWL.OWN_COL.f e.2.2) e.2.1) s
  let s := s.forUpTo 8 fun s g =>
    (s.wr (TWL.GF_SITE.f q g) (s.rd (TWL.GRP_SITE.f q g))).setFlag (TWL.GF_EN.f q g) (s.flag (TWL.GRP_EN.f q g))
  let s := (s.wr (TWL.AF_APG.f q) (s.rd (TWL.APGSEL_APG.f q))).setFlag (TWL.AF_EN.f q) (s.flag (TWL.APGSEL_EN.f q))
  let s := s.forUpTo 128 fun s j => s.setTab TWL.src q j (s.tab TWL.cmap q (0x400 + j))
  s.wr (TWL.MAPW.f q) ((List.range 128).foldl (fun m j => if bitOf (s.tab TWL.cmap q j) 7 then j + 1 else m) 0)

def State.mapCommit (s : State) (q : Nat) : State :=
  match s.mapCheck q with
  | some (k, c, o) => s.mapRefuse q k c o
  | none => s.mapApply q

def execMapCommit (q : SeqId) (s : State) : Out :=
  done (s.reach ((TWL.MAP_COMMIT.f q).sets 1) .twl fun s => s.mapCommit q)

def State.mapErrRel (s : State) (q : Nat) : State :=
  (((s.setFlag (TWL.MAP_ERR.f q) false).wr (TWL.MAP_CAP_CH.f q) 0).wr (TWL.MAP_CAP_KIND.f q) 0).wr (TWL.MAP_CAP_SEQ.f q) 0

def execMapErrRel (q : SeqId) (s : State) : Out :=
  done (s.reach ((TWL.MAP_ERR_REL.f q).sets 1) .twl fun s => s.mapErrRel q)

/-- A write through TWL_CMAP_IDATA: the shadow tables (R121). -/
def State.writeCmap (s : State) (q w v : Nat) : State :=
  if w < 0x400 then s.setTab TWL.cmap q w (v % 256)
  else if s.hasGng then s.setTab TWL.cmap q w (v &&& 0x7F03)
  else
    let s := if v % 4 = 1 || bits v 8 7 != 0 then s.absentHit ((TWL.CMAP_IADDR_INC.f q).addr + 4) else s
    s.setTab TWL.cmap q w (if v % 4 = 1 then 0 else v % 4)

/-! Handing over a line (R130, R148, R240). -/

/-- What the decoder found at line `w`: the line is handed to Twill and consumed, or the run ends (R130). -/
def State.lineFound (s : State) (q : Nat) (r : SeqRun) (w : Nat) : Decoded → State
  | .bad => s.endSoon q 6 w
  | .line l =>
    ((s.setBit CAL.STARVE.f q false).setRun q
      { r with need := none, line := some l, fresh := true, left := 0, prev := l.bytes, front := max r.front l.next }).fetch
        q l.next

/-- The line that a sequencer needs is decoded from the buffer. A part that is missing leaves it needed (R239); a part
that was read as poison comes before any error of R130 and ends the run (R148). -/
def State.lineDecode (s : State) (q : Nat) (r : SeqRun) (w : Nat) : State :=
  match s.buffered q (lineParts (s.bufByte q) r.hdr w) with
  | .missing => s
  | .poison => s.endSoon q 0xA w
  | .whole => s.lineFound q r w (decodeLine (s.bufByte q) r.hdr w r.flow r.prev)

/-! The state of a run between two vectors. -/

/-- A compare result that governs the present boundary has not been delivered yet. -/
def State.awaiting (s : State) (q : Nat) (r : SeqRun) : Bool :=
  r.flights.any fun f => f.ends + s.decisionDelay q ≤ r.vtime

/-- The BRC condition (R135). -/
def State.brcHolds (s : State) (q : Nat) (r : SeqRun) (opnd : Nat) : Bool :=
  let among := fun (f : Nat → Bool) => if bitOf opnd 3 then r.liveGroups.all f else r.liveGroups.any f
  match opnd % 8 with
  | 0 => among fun g => s.bit (TWL.FAIL.f q) g
  | 1 => among fun g => !s.bit (TWL.FAIL.f q) g
  | 2 => among fun g => s.bit (TWL.MTO.f q) g
  | 3 => among fun g => !s.bit (TWL.MTO.f q) g
  | 4 => s.flag (TWL.SWF.f q)
  | 5 => !s.flag (TWL.SWF.f q)
  | _ => false

/-- The run goes to another line. -/
def SeqRun.goto (r : SeqRun) (w : Nat) (flow : Bool) : SeqRun :=
  { r with need := some w, flow := flow, line := none, fresh := false, left := 0 }

/-- What is decided at a boundary before a vector issues: the end of a BRC hold (R136), and the end of an iteration of a
MATCH (R137, R138). -/
def State.resolve (s : State) (q : Nat) : State :=
  match s.run? q with
  | none => s
  | some r =>
    match r.mtch with
    | some m =>
      match r.line, r.need with
      | none, none =>
        if m.sat.isSome then s.matchFinish q
        else if m.tail then s
        else if m.limit ≤ m.iter then s.setRun q { r with mtch := some { m with tail := true } }
        else s.setRun q (r.goto m.line false)
      | _, _ => s
    | none =>
      match r.line with
      | none => s
      | some l =>
        if l.op = 8 && !r.fresh && r.left = 0 then
          (if s.brcHolds q r l.opnd then s.setRun q (r.goto l.arg false) else s.setRun q (r.goto l.next true)).wr
            (TWL.STATE_STATE.f q) 2
        else s

/-- At a vector boundary: the results that are due reach the sequencer and halt-on-fail acts, unless one is missing. -/
def State.haltDue (s : State) (q : Nat) : State :=
  match s.run? q with
  | none => s
  | some r => if !s.issuing q || s.awaiting q r then s else (s.takeArrivals q).haltOnFail q

/-- A vector boundary of a sequencer: the results that are due reach it, halt-on-fail acts, committed timing writes are
applied and what waits for a decision is decided. Of two endings at one boundary the lower code wins: HALT_FAIL comes
before any that the run's own lines or its APG have brought (R147). It waits while a result that is due is missing. -/
def State.settle (s : State) (q : Nat) : State :=
  match s.run? q with
  | none => s
  | some r =>
    if !s.issuing q || s.awaiting q r then s
    else
      let s := (s.takeArrivals q).haltOnFail q
      let s := if s.issuing q then s.endDue q else s
      if s.issuing q then (s.timingApply q).resolve q else s

/-- Calico hands Twill the line it needs (R240). -/
def execLineDecode (q : SeqId) (s : State) : Out :=
  done (
    let s := s.settle q
    match s.run? q with
    | none => s
    | some r =>
      match r.need with
      | none => s
      | some w =>
        if !s.issuing q || s.awaiting q r then s
        else
          let s := s.fetch q w
          match s.run? q with
          | none => s
          | some r => s.lineDecode q r w)

/-- A write of 1 to STOP: the run ends with CMD_STOP, in BOUND without a vector; IDLE and DRAIN ignore it (R147). A
halt on fail that is due at the boundary comes first; any other ending that is due there has a higher code. -/
def State.stopSeq (s : State) (q : Nat) : State :=
  let s := s.haltDue q
  if s.issuing q || s.rd (TWL.STATE_STATE.f q) == 1 then s.endRunHere q 3 else s

def execCmdStop (q : SeqId) (s : State) : Out :=
  done (s.reach ((TWL.STOP.f q).sets 1) .twl fun s => s.stopSeq q)

/-! Issuing a line. -/

/-- The time-set of a line with TSC = 1 comes into force at its first vector, but not where it would change between
Standard and Express mode during a burst (R109, R127). On the entry line, before vector 0, no burst issues yet and the
switch takes effect (DESIGN CHOICE, log entry 15). -/
def State.lineTset (s : State) (q : Nat) (r : SeqRun) (l : TwlLine) : State :=
  if !l.tsc then s
  else if r.vcnt != 0 && bitOf (s.tab TIM.sq 0 (q * 64 + l.tset)) 31 != s.seqExpress q then
    match s.owned q with
    | c :: _ => s.timErr c 4
    | [] => s
  else s.wr (TWL.STATE_TSET.f q) l.tset

/-- The line ends the run after its first vector (R131, R137). -/
def State.insnErr (s : State) (q : Nat) (r : SeqRun) (l : TwlLine) : Bool :=
  (zeroOpnd l.op && l.opnd != 0) || (l.op == 8 && 6 ≤ l.opnd % 8) || (l.op == 6 && 16 ≤ r.stack.length) ||
    (l.op == 7 && r.stack.isEmpty) || (l.op == 0xE && !(s.hasGng && (s.apgOf q).isSome)) ||
    (r.mtch.isSome && !(l.op == 0 || l.op == 1) && !(l.op == 9 && r.mtch.any fun m => m.line == l.addr && m.idx == 0))

/-- A vector of the line, masked as told. -/
def State.lineVector (s : State) (q : Nat) (l : TwlLine) (masked : Bool) (iter : Nat) (iterEnd : Bool) : State :=
  match s.run? q with
  | none => s
  | some r =>
    (s.wr (TWL.LINE.f q) l.addr).issueVector q r
      { bytes := l.bytes, masked := masked || l.cmask, cmask := l.cmask, iter := iter, iterEnd := iterEnd, tag := none }
      none

/-- Set the loop counter k. -/
def State.setLc (s : State) (q k v : Nat) : State := s.wr (TWL.LC.f q k) v

/-- Replace a run's data. -/
def State.mapRun (s : State) (q : Nat) (f : SeqRun → SeqRun) : State :=
  match s.run? q with
  | none => s
  | some r => s.setRun q (f r)

/-- The call stack and its depth register. -/
def State.setStack (s : State) (q : Nat) (st : List Nat) : State :=
  (s.mapRun q fun r => { r with stack := st }).wr (TWL.STATE_SP.f q) st.length

/-- Go to a line after the vector in progress. -/
def State.goLine (s : State) (q w : Nat) (flow : Bool) : State := s.mapRun q fun r => r.goto w flow

/-- The state code that a line's own vectors show. -/
def SeqRun.stateCode (r : SeqRun) : Nat := if r.mtch.isSome then 4 else 2

/-- A line of a MATCH body is complete: its iteration goes on or is complete (R137). -/
def MatchRun.lineDone (m : MatchRun) (next : Nat) : MatchRun :=
  if m.idx + 1 = m.body then { m with idx := 0, iter := m.iter + 1, after := next } else { m with idx := m.idx + 1 }

/-- The line is complete: the next line in body order, or the end of an iteration. -/
def SeqRun.advance (r : SeqRun) (l : TwlLine) : SeqRun :=
  match r.mtch with
  | none => r.goto l.next true
  | some m =>
    if m.idx + 1 = m.body then
      { r with mtch := some (m.lineDone l.next), need := none, line := none, fresh := false, left := 0 }
    else { (r.goto l.next true) with mtch := some (m.lineDone l.next) }

/-- The iteration number that marks the vectors of a MATCH in flight, 0 outside one. -/
def SeqRun.iterMark (r : SeqRun) : Nat :=
  match r.mtch with
  | none => 0
  | some m => m.iter + 1

/-- The line is the last of the body of a MATCH. -/
def SeqRun.lastOfBody (r : SeqRun) : Bool :=
  match r.mtch with
  | none => false
  | some m => m.idx + 1 == m.body

/-- Issue the first vector of a fresh line: its time-set, its first vector, and the event of an EVT line (R151). `n` is
how many vectors of its own the line issues in all. -/
def State.firstVector (s : State) (q : Nat) (r : SeqRun) (l : TwlLine) (n : Nat) : State :=
  let s := s.lineTset q r l
  let s := if l.op = 0xC then s.pulse (1024 + 8 * q + 4 + l.opnd % 4) else s
  let s := s.wr (TWL.STATE_STATE.f q) r.stateCode
  let s := s.lineVector q l r.mtch.isSome r.iterMark (r.lastOfBody && n ≤ 1)
  s.mapRun q fun r => { r with fresh := false, left := n - 1 }

/-- STARVE_REPEAT: the next line is missing at its boundary, so the last vector is repeated, masked (R239). -/
def State.starveRepeat (s : State) (q : Nat) (r : SeqRun) : State :=
  if r.vcnt = 0 then s
  else
    ((s.setBit CAL.STARVE.f q true).incSat (CAL.SQ_STARVES.f q)).issueVector q r
      { bytes := r.last, masked := true, cmask := true, iter := 0, iterEnd := false, tag := none } none

/-- A vector of an instruction at a boundary: `first` where the sequencer's line is fresh and has the opcode, or `again`
where the line has issued its first vector; a missing line starves. -/
def State.twlAt (s : State) (q op : Nat) (first again : State → SeqRun → TwlLine → State) : State :=
  match s.run? q with
  | none => s
  | some r =>
    if !s.issuing q || s.awaiting q r then s
    else
      match r.need, r.line with
      | some _, _ => s.starveRepeat q r
      | none, some l =>
        if l.op != op then s
        else if !r.fresh then again s r l
        else if s.insnErr q r l then (s.firstVector q r l 1).endSoonHere q 5
        else first s r l
      | none, none => s

/-- A vector of an instruction: the boundary, then the vector. -/
def State.twl (s : State) (q op : Nat) (first again : State → SeqRun → TwlLine → State) : State :=
  (s.settle q).twlAt q op first again

/-- The line has no vector but its first. -/
def noRepeat (s : State) (_ : SeqRun) (_ : TwlLine) : State := s

/-- A line that issues its vector once and then acts. -/
def State.twlOnce (s : State) (q op : Nat) (act : State → SeqRun → TwlLine → State) : State :=
  s.twl q op (fun s r l => act (s.firstVector q r l 1) r l) noRepeat

/-- Go on with the next line. -/
def State.goNext (s : State) (q : Nat) (l : TwlLine) : State := s.mapRun q fun r => r.advance l

def execTwlNop (q : SeqId) (s : State) : Out := done (s.twlOnce q 0 fun s _ l => s.goNext q l)

/-- After a vector of an RPT: the next line once no vector is left. -/
def State.rptNext (s : State) (q : Nat) (l : TwlLine) : State :=
  match s.run? q with
  | none => s
  | some r => if r.left = 0 then s.goNext q l else s

def execTwlRpt (q : SeqId) (s : State) : Out :=
  done (s.twl q 1 (fun s r l => (s.firstVector q r l (max 1 l.arg)).rptNext q l)
    fun s r l =>
      ((s.lineVector q l r.mtch.isSome r.iterMark (r.lastOfBody && r.left ≤ 1)).mapRun q fun r =>
        { r with left := r.left - 1 }).rptNext q l)

def execTwlLdc (q : SeqId) (s : State) : Out :=
  done (s.twlOnce q 3 fun s _ l => (s.setLc q (l.opnd % 8) l.arg).goNext q l)

def execTwlDjnz (q : SeqId) (s : State) : Out :=
  done (s.twlOnce q 4 fun s _ l =>
    let v := (s.rd (TWL.LC.f q (l.opnd % 8)) + 0xFFFFFFFF) % 2 ^ 32
    let s := s.setLc q (l.opnd % 8) v
    if v = 0 then s.goNext q l else s.goLine q l.arg false)

def execTwlJmp (q : SeqId) (s : State) : Out := done (s.twlOnce q 5 fun s _ l => s.goLine q l.arg false)

def execTwlCall (q : SeqId) (s : State) : Out :=
  done (s.twlOnce q 6 fun s r l => (s.setStack q (l.next :: r.stack)).goLine q l.arg false)

def execTwlRet (q : SeqId) (s : State) : Out :=
  done (s.twlOnce q 7 fun s r _ =>
    match r.stack with
    | [] => s
    | w :: st => (s.setStack q st).goLine q w false)

/-- H of a BRC: D over the period of its time-set, rounded up (R136). -/
def State.holdCount (s : State) (q : Nat) : Nat :=
  let p := s.period q (s.rd (TWL.STATE_TSET.f q))
  (s.decisionDelay q + p - 1) / p

def execTwlBrc (q : SeqId) (s : State) : Out :=
  done (s.twl q 8
    (fun s r l =>
      let s := s.firstVector q r l 1
      s.mapRun q fun r => { r with left := s.holdCount q })
    fun s _ l =>
      ((s.wr (TWL.STATE_STATE.f q) 3).lineVector q l true 0 false).mapRun q fun r => { r with left := r.left - 1 })

/-- The loop that a MATCH line begins (R137, R138). -/
def newMatch (l : TwlLine) : MatchRun :=
  { line := l.addr, body := l.opnd % 256 + 1, agg := bitOf l.opnd 8, limit := max 1 l.arg, idx := 0, iter := 0,
    decided := 0, matched := [], sat := none, tail := false, after := 0 }

/-- A MATCH line begins its loop, unless it is the line that has begun it. -/
def SeqRun.beginMatch (r : SeqRun) (l : TwlLine) : SeqRun :=
  match r.mtch with
  | some _ => r
  | none => { r with mtch := some (newMatch l) }

/-- A masked repetition of the last vector of the body, after T iterations (R138). -/
def State.matchTail (s : State) (q : Nat) (r : SeqRun) (m : MatchRun) : State :=
  if m.iter ≤ m.decided then s
  else
    (s.wr (TWL.STATE_STATE.f q) 3).issueVector q r
      { bytes := r.last, masked := true, cmask := true, iter := 0, iterEnd := false, tag := none } none

def execTwlMatch (q : SeqId) (s : State) : Out :=
  done (
    let t := s.settle q
    match t.run? q with
    | none => t
    | some r =>
      match r.mtch, r.line, r.need with
      | some m, none, none => if !t.issuing q || t.awaiting q r then t else t.matchTail q r m
      | _, _, _ =>
        t.twlAt q 9
          (fun s r l =>
            let r := r.beginMatch l
            ((s.setRun q r).firstVector q r l 1).goNext q l) noRepeat)

/-- Every issued iteration is decided and the loop is not satisfied: the MATCH times out (R138). -/
def execTwlMatchTimeout (q : SeqId) (s : State) : Out :=
  done (
    let s := s.settle q
    match s.run? q with
    | none => s
    | some r =>
      match r.mtch with
      | none => s
      | some m =>
        if m.tail && m.sat.isNone && m.iter ≤ m.decided && s.issuing q then s.matchFinish q else s)

/-- A halt-on-fail mode, 3 treated as 0. -/
def hofMode (v : Nat) : Nat := if v % 4 = 3 then 0 else v % 4

def execTwlHof (q : SeqId) (s : State) : Out :=
  done (s.twlOnce q 0xA fun s _ l => (s.mapRun q fun r => { r with hof := hofMode l.opnd }).goNext q l)

def execTwlStop (q : SeqId) (s : State) : Out := done (s.twlOnce q 0xB fun s _ _ => s.endRunHere q 1)

def execTwlEvt (q : SeqId) (s : State) : Out := done (s.twlOnce q 0xC fun s _ l => s.goNext q l)

/-- SYNC: NOP outside a cascade, SYNC_FAIL without a path to the master, else the arrival at the barrier and masked
repetitions until it is released (R141, R411). -/
def State.twlSync (s : State) (q : Nat) : State :=
  s.twl q 0xD
    (fun s r l =>
      let s := s.firstVector q r l 1
      if s.inCascade then s.wr (TWL.STATE_STATE.f q) 5
      else if s.flag TWD.CASC_EN.f then s.endSoonHere q 4
      else s.goNext q l)
    fun s _ l => s.lineVector q l true 0 false

def execTwlClrf (q : SeqId) (s : State) : Out :=
  done (s.twlOnce q 0xF fun s _ l => ((s.wr (TWL.FAIL.f q) 0).wr (TWL.MTO.f q) 0).goNext q l)

end Sys2Proof.Machine
end

