-- ==== Sys2Proof/Machine/Gingham.lean ====
section
/-! DEFINITION. The Gingham pattern generators (R153 to R180): their program and tables, address units, data, lanes,
refresh and timer, and the instructions. A command of an instruction stands for one execution of it.
Log entries 24, 25 and 26. -/

namespace Sys2Proof.Machine

/-! The instruction (R160) and the tables (R158). -/

/-- Word `w` of instruction `i` of an APG. -/
def State.apgWord (s : State) (g i w : Nat) : Nat := s.tab GNG.tab g (i * 8 + w)

/-- A 144-bit value from its five words at table index `a` (R158). -/
def State.apgWide (s : State) (g a : Nat) : Nat :=
  (List.range 5).foldl (fun v w => v + s.tab GNG.tab g (a + w) * 2 ^ (32 * w)) 0 % 2 ^ 144

/-- Scramble entry `a` of SX (`u` = 0) or SY (`u` = 1): M and INV. -/
def State.scramble (s : State) (g u a : Nat) : Nat := s.tab GNG.tab g ((u + 1) * 0x10000 + a) ^^^ a

/-- FOP of instruction `i`. -/
def State.apgFop (s : State) (g i : Nat) : Nat := s.apgWord g i 0 % 16

/-- Some RSV bit of instruction `i` is not zero (R160, R177). -/
def State.apgRsv (s : State) (g i : Nat) : Bool :=
  (s.apgWord g i 0 &&& 0xFF000200) != 0 || (s.apgWord g i 2 &&& 0xFFC0C0C0) != 0 ||
    (s.apgWord g i 3 &&& 0xFFFF0080) != 0 || (s.apgWord g i 4 &&& 0xFFFFFFFC) != 0

/-- The CAUSE with the lowest number that the fetch of instruction `i` finds (R177). -/
def State.apgCause (s : State) (g i : Nat) : Option Nat :=
  let f := s.apgFop g i
  let w2 := s.apgWord g i 2
  let sp := s.rd (GNG.STATE_SP.f g)
  if 12 ≤ f then some 1
  else if 14 ≤ bits w2 0 4 || 14 ≤ bits w2 8 4 || 14 ≤ bits w2 16 4 then some 2
  else if (f == 6 || f == 10) && sp == 8 then some 3
  else if f == 7 && sp == 0 then some 4
  else if s.apgRsv g i then some 5
  else none

/-- GNG_ERR_CAP takes the first error (R177). -/
def State.gngErr (s : State) (g cause pc : Nat) : State :=
  if s.flag (GNG.ERR_FULL.f g) then s
  else ((s.setFlag (GNG.ERR_FULL.f g) true).wr (GNG.ERR_CAP_CAUSE.f g) cause).wr (GNG.ERR_CAP_PC.f g) pc

/-- APG_ERR: the hand-over stops, and the run ends at the boundary at which the instruction's first vector would have
begun, unless an ending with a lower code comes there (R142, R147, R177). -/
def State.apgErr (s : State) (q g cause pc : Nat) : State :=
  ((s.gngErr g cause pc).setFlag (GNG.RUN.f g) false).endSoonHere q 8

/-- The check that precedes the first vector of the instruction to execute next. -/
def State.apgCheck (s : State) (q g : Nat) : State :=
  let pc := s.rd (GNG.NPC.f g)
  if 4096 ≤ pc then s.apgErr q g 6 (s.rd (GNG.STATE_PC.f g))
  else
    match s.apgCause g pc with
    | some c => s.apgErr q g c pc
    | none => s

/-! Hand-over (R142, R153, R155). -/

/-- At the assignment of a run the APG of its sequencer starts afresh (R155, R168). -/
def State.apgAssign (s : State) (g : Nat) : State :=
  let s := ((s.wr (GNG.XCUR.f g) (s.rd (GNG.U_INIT.f g 0))).wr (GNG.YCUR.f g) (s.rd (GNG.U_INIT.f g 1))).wr
    (GNG.ZCUR.f g) (s.rd (GNG.U_INIT.f g 2))
  let s := s.forUpTo 8 fun s k => s.wr (GNG.LC.f g k) 0
  ((((s.wr (GNG.DR.f g) 0).wr (GNG.STATE_DEBT.f g) 0).wr (GNG.REFLOST.f g) 0).setFlag (GNG.REF_RUN.f g) false).wr
    (GNG.REF_CUR.f g) (max 100 (s.rd (GNG.REF_INT.f g)))

/-- The hand-over of the columns to an APG at a Start operand: PC, stack and TMR are set, the clock and Start are
checked (R155, R177). -/
def State.handOver (s : State) (q g start : Nat) : State :=
  if 4096 ≤ start then s.apgErr q g 6 (start % 4096)
  else if s.gated .gng then s.apgErr q g 7 start
  else
    let s := (((s.wr (GNG.NPC.f g) start).wr (GNG.STATE_SP.f g) 0).wr (GNG.TMR.f g) 0).wr (GNG.RPT_LEFT.f g) 0
    let s := ((s.setFlag (GNG.RUN.f g) true).wr (GNG.STATE_PC.f g) start).wr (TWL.STATE_STATE.f q) 6
    (s.mapRun q fun r => { r with spanPos := 0, tag := none }).apgCheck q g

def execTwlApg (q : SeqId) (s : State) : Out :=
  done (s.twlOnce q 0xE fun s _ l =>
    match s.apgOf q with
    | none => s
    | some g => s.handOver q g l.arg)

/-! Scramble, background and data (R165 to R167). -/

/-- The DUT address, the physical address and the inversion of the X (`u` = 0) or Y unit (R165). -/
def State.unitAddr (s : State) (g u v : Nat) : Nat × Nat × Bool :=
  let en := s.flag (if u = 0 then GNG.CTRL_SXEN.f g else GNG.CTRL_SYEN.f g)
  let dir := s.flag (if u = 0 then GNG.CTRL_XDIR.f g else GNG.CTRL_YDIR.f g)
  let e := s.scramble g u (v % 65536)
  let m := v / 65536 * 65536 + e % 65536
  if !en then (v, v, false) else if dir then (m, v, bitOf e 16) else (v, m, bitOf e 16)

/-- Bit k of the background index (R166). -/
def bgBit (sel px py z k : Nat) : Bool :=
  let f := bits sel (8 * k) 8
  let n := f % 32
  match bits f 5 2 with
  | 1 => n < 24 && bitOf px n
  | 2 => n < 24 && bitOf py n
  | 3 => n < 8 && bitOf z n
  | _ => false

/-- The tag of an execution at its first span position: addresses, data word and DIR (R167, R176). -/
def State.apgTag (s : State) (g pc : Nat) : ApgTag :=
  let w3 := s.apgWord g pc 3
  let w4 := s.apgWord g pc 4
  let x := s.unitAddr g 0 (s.rd (GNG.XCUR.f g))
  let y := s.unitAddr g 1 (s.rd (GNG.YCUR.f g))
  let z := s.rd (GNG.ZCUR.f g)
  let idx := (List.range 4).foldl
    (fun a k => if bgBit (s.rd (GNG.BGSEL.f g)) x.2.1 y.2.1 z k then a + 2 ^ k else a) 0
  let src := match bits w3 0 2 with
    | 1 => s.apgWide g (0x30000 + idx * 8)
    | 2 => s.apgWide g (0x30100 + bits w3 2 2 * 8)
    | _ => s.rd (GNG.DR.f g)
  let inv := (bitOf w3 4 ^^ (bitOf w4 0 && x.2.2)) ^^ (bitOf w4 1 && y.2.2)
  { dx := x.1, dy := y.1, z := z, px := x.2.1, py := y.2.1,
    data := if inv then 2 ^ 144 - 1 - src else src,
    dir := if bits w3 8 2 = 3 then 0 else bits w3 8 2, span := 0 }

/-! Lanes (R170 to R175). -/

/-- The bit of a lane at span position n (R171). -/
def State.laneBit (s : State) (g pc l n : Nat) (t : ApgTag) : Bool :=
  let w := s.tab GNG.tab g (0x30400 + l * 4)
  let bit := bits w 8 8
  let st := bits w 16 4
  let idx := bit + n * st
  let cw := s.tab GNG.tab g (0x30200 + bits (s.apgWord g pc 3) 10 6 * 2)
  let cw1 := s.tab GNG.tab g (0x30200 + bits (s.apgWord g pc 3) 10 6 * 2 + 1)
  match w % 8 with
  | 1 => bitOf t.data (idx % 144)
  | 2 => idx < 24 && bitOf t.dx idx
  | 3 => idx < 24 && bitOf t.dy idx
  | 4 => idx < 8 && bitOf t.z idx
  | 5 =>
    match bits cw1 16 2 with
    | 1 => idx < 24 && bitOf t.dx idx
    | 2 => idx < 24 && bitOf t.dy idx
    | _ => false
  | 6 => idx < 48 && bitOf (cw + cw1 % 65536 * 2 ^ 32) idx
  | _ => bitOf bit (n * st % 8)

/-- What a lane gives in a Standard time-set (R173, R175). -/
def State.laneStd (s : State) (g pc l : Nat) (t : ApgTag) : LaneOut :=
  let w0 := s.tab GNG.tab g (0x30400 + l * 4)
  let w1 := s.tab GNG.tab g (0x30400 + l * 4 + 1)
  let b := s.laneBit g pc l t.span t
  let d := if b then bits w1 8 8 else bits w1 0 8
  if w0 % 8 = 1 then
    match t.dir with
    | 1 => (d, false, some (bits w0 8 8, bits w0 16 4))
    | 2 => (if b then bits w1 24 8 else bits w1 16 8, false, some (bits w0 8 8, bits w0 16 4))
    | _ => (s.tab GNG.tab g (0x30400 + l * 4 + 2) % 256, true, some (bits w0 8 8, bits w0 16 4))
  else (d, false, none)

/-- What a lane gives in an Express time-set (R174, R175). -/
def State.laneExpress (s : State) (g pc l : Nat) (t : ApgTag) : LaneOut :=
  let w0 := s.tab GNG.tab g (0x30400 + l * 4)
  let pair := fun u =>
    let b := b2n (s.laneBit g pc l (t.span + u) t)
    if w0 % 8 = 1 then
      match t.dir with
      | 1 => b + 2
      | 2 => b
      | _ => 0
    else b + 2
  let ui := fun u => (pair u / 2 + pair u % 2 * 2) * 4 ^ u
  let byte := ui 0 + ui 1 + ui 2 + ui 3
  if w0 % 8 = 1 then (byte, t.dir == 0, some (bits w0 8 8, bits w0 16 4)) else (byte, false, none)

/-! Address units (R163, R164). -/

/-- The width of unit u. -/
def unitWidth (u : Nat) : Nat := if u = 2 then 8 else 24

/-- The current value of unit u. -/
def State.unitVal (s : State) (g u : Nat) : Nat :=
  match u with
  | 0 => s.rd (GNG.XCUR.f g)
  | 1 => s.rd (GNG.YCUR.f g)
  | _ => s.rd (GNG.ZCUR.f g)

def State.setUnit (s : State) (g u v : Nat) : State :=
  match u with
  | 0 => s.wr (GNG.XCUR.f g) v
  | 1 => s.wr (GNG.YCUR.f g) v
  | _ => s.wr (GNG.ZCUR.f g) v

/-- The range of a unit: the whole width where MAX is below MIN (R159). -/
def State.unitRange (s : State) (g u : Nat) : Nat × Nat :=
  let lo := s.rd (GNG.U_MIN.f g u) % 2 ^ unitWidth u
  let hi := s.rd (GNG.U_MAX.f g u) % 2 ^ unitWidth u
  if hi < lo then (0, 2 ^ unitWidth u - 1) else (lo, hi)

/-- A result brought into the range, and the wrap flag (R163). -/
def wrapUnit (lo hi : Nat) (r : Int) : Nat × Bool :=
  if r < lo || (hi : Int) < r then ((lo + (r - lo) % (hi - lo + 1 : Int)).toNat, true) else (r.toNat, false)

/-- The result r of a unit operation, none where the unit holds; `low` is the wrap flag of the lower unit, none for the
fastest unit. -/
def State.unitResult (s : State) (g u code st : Nat) (low : Option Bool) : Option Int :=
  let v := s.unitVal g u
  let sn := s.rd (GNG.U_S.f g (u * 4 + st)) % 2 ^ unitWidth u
  let rg := s.unitRange g u
  match code with
  | 1 => some (v + 1 : Int)
  | 2 => some (v - 1 : Int)
  | 3 => some (v + sn : Int)
  | 4 => some ((v : Int) - sn)
  | 5 => if low = some true then some (v + 1 : Int) else none
  | 6 => if low = some true then some (v - 1 : Int) else none
  | 7 => some (s.rd (GNG.U_B.f g u) % 2 ^ unitWidth u : Nat)
  | 8 => some (sn : Int)
  | 10 => some ((rg.2 : Int) - (v - rg.1))
  | 11 => some ((v ^^^ sn : Nat) : Int)
  | 13 =>
    match u with
    | 0 => some (s.unitVal g 1 : Int)
    | 1 => some (s.unitVal g 0 : Int)
    | _ => none
  | _ => none

/-- ADDRESS_UNIT_OPERATION of one unit, computed from the state `o` before step 3: the state after it and its wrap
flag. -/
def State.unitOp (s o : State) (g u code st : Nat) (low : Option Bool) : State × Bool :=
  match code with
  | 9 => (s.wr (GNG.U_B.f g u) (o.unitVal g u), false)
  | 12 =>
    let v := o.rd (GNG.U_S.f g (u * 4 + st)) * 2 % 2 ^ unitWidth u
    (s.wr (GNG.U_S.f g (u * 4 + st)) (if v = 0 then 1 else v), false)
  | _ =>
    match o.unitResult g u code st low with
    | none => (s, false)
    | some r =>
      let x := wrapUnit (o.unitRange g u).1 (o.unitRange g u).2 r
      (s.setUnit g u x.1, x.2)

/-- Step 3 for the three units in the order of CHAIN: the state and the wrap flags of X, Y and Z (R164). -/
def State.unitOps (s : State) (g pc : Nat) : State × (Bool × Bool × Bool) :=
  let w := s.apgWord g pc 2
  let op := fun u => bits w (8 * u) 4
  let st := fun u => bits w (8 * u + 4) 2
  if s.flag (GNG.CTRL_CHAIN.f g) then
    let y := s.unitOp s g 1 (op 1) (st 1) none
    let x := y.1.unitOp s g 0 (op 0) (st 0) (some y.2)
    let z := x.1.unitOp s g 2 (op 2) (st 2) (some x.2)
    (z.1, x.2, y.2, z.2)
  else
    let x := s.unitOp s g 0 (op 0) (st 0) none
    let y := x.1.unitOp s g 1 (op 1) (st 1) (some x.2)
    let z := y.1.unitOp s g 2 (op 2) (st 2) (some y.2)
    (z.1, x.2, y.2, z.2)

/-- DROP (R160). -/
def State.apgDrop (s : State) (g pc word : Nat) : State :=
  let d := s.rd (GNG.DR.f g)
  match bits (s.apgWord g pc 3) 5 2 with
  | 1 => s.wr (GNG.DR.f g) word
  | 2 => s.wr (GNG.DR.f g) (d * 2 % 2 ^ 144 + d / 2 ^ 143)
  | 3 => s.wr (GNG.DR.f g) (d / 2 + d % 2 * 2 ^ 143)
  | _ => s

/-- Step 3 of an execution: DROP and the units together, from the values before it (R162). -/
def State.apgStep3 (s : State) (g pc word : Nat) : State × (Bool × Bool × Bool) :=
  let x := s.unitOps g pc
  (x.1.apgDrop g pc word, x.2)

/-- The wrap flag that FU names. -/
def fuFlag (fu : Nat) (w : Bool × Bool × Bool) : Bool :=
  match fu with
  | 1 => w.2.1
  | 2 => w.2.2
  | _ => w.1

/-! One execution (R154, R162). -/

/-- S of the time-set in force (R154). -/
def State.spanLen (s : State) (q : Nat) : Nat :=
  if s.seqExpress q || s.period q (s.rd (TWL.STATE_TSET.f q)) < 2000 then 2 else 1

/-- TOP, at the first vector of an execution; the later executions of an RPT do not repeat it. -/
def State.apgTop (s : State) (g pc : Nat) : State :=
  match bits (s.apgWord g pc 0) 22 2 with
  | 1 => s.wr (GNG.TMR.f g) (s.apgWord g pc 1)
  | 2 =>
    let s := s.wr (GNG.STATE_DEBT.f g) 0
    if s.flag (GNG.REF_RUN.f g) then s.refreshStart g else s
  | _ => s

/-- The vector at position `v` of a span. -/
def State.apgVector (s : State) (q g pc : Nat) (r : SeqRun) (l : TwlLine) (t : ApgTag) : State :=
  let x := s.seqExpress q
  let t := { t with span := if x then 4 * r.spanPos else r.spanPos }
  let s := ((s.wr (GNG.STATE_PC.f g) pc).wr (TWL.LINE.f q) l.addr).issueVector q r
    { bytes := l.bytes, masked := l.cmask, cmask := l.cmask, iter := 0, iterEnd := false, tag := some t }
    (some fun n => if x then s.laneExpress g pc n t else s.laneStd g pc n t)
  s.mapRun q fun r => { r with spanPos := r.spanPos + 1, tag := some t }

/-- RPT_LEFT belongs to the instruction that repeats: one that has been rewritten to another FOP begins afresh (R179).
-/
def State.apgRepeat (s : State) (g fop : Nat) : State :=
  if s.rd (GNG.RPT_FOP.f g) = fop then s else (s.wr (GNG.RPT_LEFT.f g) 0).wr (GNG.RPT_FOP.f g) fop

/-- The start of an execution, at a span's first position: the check of its instruction (R177), the repetition it is
part of, and TOP. -/
def State.apgBegin (s : State) (q g fop : Nat) : State :=
  let s := (s.apgCheck q g).endDue q
  let pc := s.rd (GNG.NPC.f g)
  if !s.issuing q || s.apgFop g pc != fop then s
  else
    let s := s.apgRepeat g fop
    if s.rd (GNG.RPT_LEFT.f g) = 0 then s.apgTop g pc else s

/-- What ends an execution whose span is complete: step 3 and the flow, told by the instruction. -/
abbrev ApgFlow := State → Nat → (Bool × Bool × Bool) → State

/-- One vector of an execution of the instruction at PC; with its last vector the execution is complete. `fop` is the
instruction's code, `step3` says whether step 3 applies at the end of this span (else the span repeats), and `flow`
decides the flow. -/
def State.apgOne (s : State) (q g fop : Nat) (step3 : State → Bool) (flow : ApgFlow) : State :=
  let s := s.settle q
  match s.run? q with
  | none => s
  | some r =>
    match r.line with
    | none => s
    | some l =>
      if !s.issuing q || s.awaiting q r || s.rd (TWL.STATE_STATE.f q) != 6 then s
      else
        let s := if r.spanPos = 0 then s.apgBegin q g fop else s
        let pc := s.rd (GNG.NPC.f g)
        if !s.issuing q || s.apgFop g pc != fop then s
        else
          let t := if r.spanPos = 0 then s.apgTag g pc else r.tag.getD (s.apgTag g pc)
          let s := s.apgVector q g pc r l t
          if r.spanPos + 1 < s.spanLen q then s
          else
            let s := s.mapRun q fun r => { r with spanPos := 0, tag := none }
            if step3 s then
              let x := s.apgStep3 g pc t.data
              flow x.1 pc x.2
            else s.wr (GNG.RPT_LEFT.f g) 1

/-- An execution issues its S vectors; a boundary that ends the run, or at which a result is missing, cuts it (R178). -/
def State.apgExec (s : State) (g fop : Nat) (step3 : State → Bool) (flow : Nat → ApgFlow) : State :=
  match (List.range 16).find? fun q => s.apgOf q == some g && s.rd (TWL.STATE_STATE.f q) == 6 with
  | none => s
  | some q =>
    let s := s.apgOne q g fop step3 (flow q)
    match s.run? q with
    | none => s
    | some r => if r.spanPos = 0 then s else s.apgOne q g fop step3 (flow q)

/-- Go to an instruction, and check it. -/
def State.apgGo (s : State) (q g pc : Nat) : State := (s.wr (GNG.NPC.f g) pc).apgCheck q g

/-- TARGET of an instruction. -/
def State.apgTarget (s : State) (g pc : Nat) : Nat := bits (s.apgWord g pc 0) 10 12

/-- IMM of an instruction. -/
def State.apgImm (s : State) (g pc : Nat) : Nat := s.apgWord g pc 1

/-- FC of an instruction. -/
def State.apgFc (s : State) (g pc : Nat) : Nat := bits (s.apgWord g pc 0) 6 3

/-- Push PC + 1 and go to TARGET. -/
def State.apgCall (s : State) (q g pc : Nat) : State :=
  let sp := s.rd (GNG.STATE_SP.f g)
  ((s.wr (GNG.STK.f g sp) (pc + 1)).wr (GNG.STATE_SP.f g) (sp + 1)).apgGo q g (s.apgTarget g pc)

def always (_ : State) : Bool := true

def execGngNext (g : ApgId) (s : State) : Out :=
  done (s.apgExec g 0 always fun q s pc _ => s.apgGo q g (pc + 1))

def execGngJmp (g : ApgId) (s : State) : Out :=
  done (s.apgExec g 1 always fun q s pc _ => s.apgGo q g (s.apgTarget g pc))

/-- The flow of JW and JNW (R161). -/
def State.apgJumpIf (s : State) (q g pc : Nat) (c : Bool) : State :=
  s.apgGo q g (if c then s.apgTarget g pc else pc + 1)

def execGngJw (g : ApgId) (s : State) : Out :=
  done (s.apgExec g 2 always fun q s pc w => s.apgJumpIf q g pc (fuFlag (bits (s.apgWord g pc 0) 4 2) w))

def execGngJnw (g : ApgId) (s : State) : Out :=
  done (s.apgExec g 3 always fun q s pc w => s.apgJumpIf q g pc (!fuFlag (bits (s.apgWord g pc 0) 4 2) w))

def execGngLdc (g : ApgId) (s : State) : Out :=
  done (s.apgExec g 4 always fun q s pc _ => (s.wr (GNG.LC.f g (s.apgFc g pc)) (s.apgImm g pc)).apgGo q g (pc + 1))

def execGngDjnz (g : ApgId) (s : State) : Out :=
  done (s.apgExec g 5 always fun q s pc _ =>
    let v := (s.rd (GNG.LC.f g (s.apgFc g pc)) + 0xFFFFFFFF) % 2 ^ 32
    (s.wr (GNG.LC.f g (s.apgFc g pc)) v).apgGo q g (if v = 0 then pc + 1 else s.apgTarget g pc))

def execGngCall (g : ApgId) (s : State) : Out := done (s.apgExec g 6 always fun q s pc _ => s.apgCall q g pc)

def execGngRet (g : ApgId) (s : State) : Out :=
  done (s.apgExec g 7 always fun q s _ _ =>
    let sp := s.rd (GNG.STATE_SP.f g) - 1
    (s.wr (GNG.STATE_SP.f g) sp).apgGo q g (s.rd (GNG.STK.f g sp)))

/-- RPT: IMM executions in all; only the last decides the flow (R161, R162). -/
def execGngRpt (g : ApgId) (s : State) : Out :=
  done (s.apgExec g 8 always fun q s pc _ =>
    let n := if s.rd (GNG.RPT_LEFT.f g) = 0 then max 1 (s.apgImm g pc) else s.rd (GNG.RPT_LEFT.f g)
    let s := s.wr (GNG.RPT_LEFT.f g) (n - 1)
    if n = 1 then s.apgGo q g (pc + 1) else s)

/-- WAITT: the span repeats while TMR is not zero at its end; step 3 applies after the last span (R161, R162). -/
def execGngWaitt (g : ApgId) (s : State) : Out :=
  done (s.apgExec g 9 (fun s => s.rd (GNG.TMR.f g) == 0) fun q s pc _ =>
    (s.wr (GNG.RPT_LEFT.f g) 0).apgGo q g (pc + 1))

def execGngJref (g : ApgId) (s : State) : Out :=
  done (s.apgExec g 10 always fun q s pc _ =>
    let d := s.rd (GNG.STATE_DEBT.f g)
    if d = 0 then s.apgGo q g (pc + 1) else (s.wr (GNG.STATE_DEBT.f g) (d - 1)).apgCall q g pc)

def execGngEnd (g : ApgId) (s : State) : Out :=
  done (s.apgExec g 11 always fun q s _ _ =>
    ((s.setFlag (GNG.RUN.f g) false).wr (TWL.STATE_STATE.f q) 2).mapRun q fun r =>
      match r.line with
      | none => r
      | some l => r.goto l.next true)

/-! Refresh and timer (R168, R169). -/

/-- The refresh counter completes an interval; the next one has the length written last. -/
def execRefInterval (g : ApgId) (s : State) : Out :=
  done (if s.flag (GNG.REF_RUN.f g) then
    let d := s.rd (GNG.STATE_DEBT.f g)
    (if d < 15 then s.wr (GNG.STATE_DEBT.f g) (d + 1) else s.incSat (GNG.REFLOST.f g)).refreshStart g
  else s)

/-- A run of a sequencer that uses the APG has issued vector 0 and has not ended. -/
def State.apgInRun (s : State) (g : Nat) : Bool :=
  (List.range 16).any fun q => s.apgOf q == some g && s.issuing q && (s.run? q).any fun r => r.vcnt != 0

/-- A write of REF_EN (R168). -/
def State.writeRefEn (s : State) (g : Nat) (on : Bool) : State :=
  let was := s.flag (GNG.REF_EN.f g)
  let s := s.setFlag (GNG.REF_EN.f g) on
  if !on then (s.setFlag (GNG.REF_RUN.f g) false).wr (GNG.STATE_DEBT.f g) 0
  else if !was && s.apgInRun g then s.refreshStart g
  else s

def execRefEn (g : ApgId) (on : Bool) (s : State) : Out :=
  done (s.reach ((GNG.REF_EN.f g).sets (b2n on)) .gng fun s => s.writeRefEn g on)

/-- TMR reaches zero after a load, which raises slot 4 (R169, R180). -/
def State.tmrZero (s : State) (g : Nat) : State :=
  if s.rd (GNG.TMR.f g) = 0 then s else (s.wr (GNG.TMR.f g) 0).pulse (1152 + 8 * g + 4)

def execTmrZero (g : ApgId) (s : State) : Out := done (s.tmrZero g)

def State.gngErrRel (s : State) (g : Nat) : State :=
  ((s.setFlag (GNG.ERR_FULL.f g) false).wr (GNG.ERR_CAP_CAUSE.f g) 0).wr (GNG.ERR_CAP_PC.f g) 0

def execGngErrRel (g : ApgId) (s : State) : Out :=
  done (s.reach ((GNG.ERR_REL.f g).sets 1) .gng fun s => s.gngErrRel g)

/-! The table behind GNG_IADDR and GNG_IDATA (R158, R179). -/

/-- The writable bits of a word of the table that is not a unit register, zero where none is listed (R158 to R172). -/
def apgMask (a : Nat) : Nat :=
  if a < 0x8000 then (if a % 8 < 5 then 0xFFFFFFFF else 0)
  else if 0x10000 ≤ a && a < 0x30000 then 0x1FFFF
  else if 0x30000 ≤ a && a < 0x30080 || 0x30100 ≤ a && a < 0x30120 then
    (if a % 8 < 4 then 0xFFFFFFFF else if a % 8 = 4 then 0xFFFF else 0)
  else if 0x30200 ≤ a && a < 0x30280 then (if a % 2 = 0 then 0xFFFFFFFF else 0x3FFFF)
  else if 0x30400 ≤ a && a < 0x30600 then
    (match a % 4 with
    | 0 => 0xFFF07
    | 1 => 0xFFFFFFFF
    | 2 => 0xFF
    | _ => 0)
  else 0

/-- The field of a unit register at table index 0x3_0800 + u × 8 + r (R159). -/
def unitField (g u r : Nat) : Fld :=
  match r with
  | 0 => GNG.U_INIT.f g u
  | 1 => GNG.U_MIN.f g u
  | 2 => GNG.U_MAX.f g u
  | 3 => GNG.U_B.f g u
  | r => GNG.U_S.f g (u * 4 + (r - 4))

/-- A write through GNG_IDATA. -/
def State.writeApg (s : State) (g a v : Nat) : State :=
  if 0x30800 ≤ a && a < 0x30818 then
    s.wr (unitField g ((a - 0x30800) / 8) (a % 8)) (v % 2 ^ unitWidth ((a - 0x30800) / 8))
  else if 0x10000 ≤ a && a < 0x30000 then s.setTab GNG.tab g a ((v &&& apgMask a) ^^^ (a % 65536))
  else if apgMask a = 0 then s
  else s.setTab GNG.tab g a (v &&& apgMask a)

/-- A read through GNG_IDATA. -/
def State.readApg (s : State) (g a : Nat) : Nat :=
  if 0x30800 ≤ a && a < 0x30818 then
    s.rd (unitField g ((a - 0x30800) / 8) (a % 8)) % 2 ^ unitWidth ((a - 0x30800) / 8)
  else if 0x30818 ≤ a && a < 0x30820 then s.rd (GNG.LC.f g (a - 0x30818))
  else if 0x30820 ≤ a && a < 0x30825 then bits (s.rd (GNG.DR.f g)) (32 * (a - 0x30820)) 32
  else if 0x10000 ≤ a && a < 0x30000 then s.tab GNG.tab g a ^^^ (a % 65536)
  else s.tab GNG.tab g a

end Sys2Proof.Machine
end

