-- ==== Sys2Proof/Machine/Damask.lean ====
section
/-! DEFINITION. Damask (R181 to R213): strobe results, the record writer and the rings, the bitmap, results, and repair
analysis. Log entries 20, 27, 28, 29, 30, 31 and 59. -/

namespace Sys2Proof.Machine

/-! Allocations that Damask uses. -/

/-- The usable ring that an ID names (R196). -/
def State.ringAlloc (s : State) (id : Nat) : Option Alloc :=
  (s.alloc? id).filter fun a => a.kind == 1 && (a.st == 3 || a.st == 5) && decide (64 ≤ a.size)

/-- The allocation that an ID names for BMAP_CLR: of kind BITMAP, READY or DELETING (R200). -/
def State.bmapAlloc (s : State) (id : Nat) : Option Alloc :=
  (s.alloc? id).filter fun a => a.kind == 2 && (a.st == 3 || a.st == 5)

/-- The capacity of a ring in records: the writer writes whole lines of two (R194; that an odd record at the end is no
place is DEDUCED, log entry 27). -/
def Alloc.ringCap (a : Alloc) : Nat := a.size / 64 * 2

/-- The ring ID in force at a site: that of the run that holds the site, which read it at its start, else DMK_RING_ID
(R189). -/
def State.ringIdNow (s : State) (site : Nat) : Nat :=
  ((s.runs.findSome? fun e => e.2.bursts.find? fun b => b.site == site).map fun b => b.ringId).getD
    (s.rd (DMK.RING_ID.f site))

/-- The usable ring of a site, by the ID in force. -/
def State.siteRing (s : State) (site : Nat) : Option Alloc := s.ringAlloc (s.ringIdNow site)

/-- DMK_RING_SIZE of a site (R188). -/
def State.ringSize (s : State) (site : Nat) : Nat :=
  match s.siteRing site with
  | none => 0
  | some a => a.ringCap % 2 ^ 32

/-- RING_BAD of a site (R196). -/
def State.ringBad (s : State) (site : Nat) : Bool :=
  s.flag (DMK.SITE_CFG_RING_EN.f site) && (s.ringAlloc (s.rd (DMK.RING_ID.f site))).isNone

/-- BMAP_BAD of a site (R200). -/
def State.bmapBad (s : State) (site : Nat) : Bool :=
  s.flag (DMK.SITE_CFG_BMAP_EN.f site) &&
    match s.bmapAlloc (s.rd (DMK.BMAP_ID.f site)) with
    | none => true
    | some a => decide (a.size * 8 < 2 ^ (s.rd (DMK.BMAP_GEOM_ZW.f site) + s.rd (DMK.BMAP_GEOM_XW.f site) +
        s.rd (DMK.BMAP_GEOM_YW.f site) + s.rd (DMK.BMAP_GEOM_DB.f site)))

/-- Records that a site's ring holds. -/
def State.ringFill (s : State) (site : Nat) : Nat :=
  (s.rd (DMK.RING_WR.f site) + 2 ^ 32 - s.rd (DMK.RING_RD.f site)) % 2 ^ 32

/-- A site's bit in a pair of registers (R187). -/
def siteBit (l : Lay) (site : Nat) : Fld × Nat := (l.f (site / 32), site % 32)

def State.siteFlag (s : State) (l : Lay) (site : Nat) : Bool := s.bit (siteBit l site).1 (siteBit l site).2

def State.setSiteFlag (s : State) (l : Lay) (site : Nat) (b : Bool) : State :=
  s.setBit (siteBit l site).1 (siteBit l site).2 b

/-! STROBE_RESULT (R181). -/

/-- The samples that a strobe result gives for a channel: for each slot the pairs 2 CH + CL found, one for an edge
strobe and every one in the window for a window strobe. -/
abbrev ChannelSamples := Channel × List (List (BitVec 2))

/-- The samples of one slot of one channel. -/
def samplesOf (obs : List ChannelSamples) (c k : Nat) : List Nat :=
  match obs.find? fun o => o.1.val == c with
  | none => []
  | some o => (o.2.getD k []).map fun x => x.toNat

/-- The pair of a slot: a free pair where no sample is given, a free CH where the threshold is undefined (R59). -/
def State.slotPair (s : State) (c : Nat) (x : Slot) (xs : List Nat) : State × Nat :=
  match x, xs with
  | .empty, _ => (s, 0)
  | _, [] => (s.draw, Config.strobePair s.free % 4)
  | x, y :: ys =>
    let v := match x with
      | .window e => foldWindow e (y :: ys)
      | _ => y
    if s.thresholdUndefined c then (s.draw, Config.strobePair s.free % 4 / 2 * 2 + v % 2) else (s, v)

/-- The pairs of a column's slots, from slot `k` on. -/
def State.slotPairs (s : State) (c : Nat) (obs : List ChannelSamples) : Nat → List Slot → State × List Nat
  | _, [] => (s, [])
  | k, x :: r =>
    let p := s.slotPair c x (samplesOf obs c k)
    let t := p.1.slotPairs c obs (k + 1) r
    (t.1, p.2 :: t.2)

/-- The pairs of every column of a vector. -/
def State.vectorPairs (s : State) (obs : List ChannelSamples) : List FlightCol → State × List (List Nat)
  | [] => (s, [])
  | c :: r =>
    let p := s.slotPairs c.ch obs 0 c.slots
    let t := p.1.vectorPairs obs r
    (t.1, p.2 :: t.2)

/-- The lane that a judged vector takes in a channel tap: VLD, PB, CR, FL and MSK (R354). -/
def State.tapLane (s : State) (f : Flight) (c : FlightCol) (ps : List Nat) : Nat :=
  let cr := (List.range c.slots.length).foldl
    (fun a k => if (c.slots.getD k .empty).isEmpty then a else a + ps.getD k 0 * 4 ^ k) 0
  let fl := (List.range c.slots.length).foldl
    (fun a k => if s.failsAt f f.maskGrp c ps k then a + 2 ^ k else a) 0
  1 + c.pb * 2 + cr * 2 ^ 9 + fl * 2 ^ 17 + b2n (f.masks f.maskGrp c) * 2 ^ 21

/-- A vector appears on the taps TWL_MLAT + 32 ns after its issue (R355); the instant, counted from the start of vector
0, in units of 0.25 ps. -/
def State.tapInstant (s : State) (q : Nat) (f : Flight) : Nat := f.starts + s.decisionDelay q + 32 * 4000

/-- NV of a sequencer's tap: the lanes that are valid (R356). -/
def State.tapLanes (s : State) (q : Nat) : Nat := bits (s.rd (CNV.STAP.f q)) 52 4

/-- The lane of a channel tap takes a vector; lane 0 begins a new cycle. -/
def State.setTap (s : State) (lane : Nat) (f : Flight) (c : FlightCol) (ps : List Nat) : State :=
  s.wr (CNV.TAP.f c.ch) ((if lane = 0 then 0 else s.rd (CNV.TAP.f c.ch)) + s.tapLane f c ps * 2 ^ (22 * lane))

/-- The fail flags of the groups that the compare results up to an instant have set. -/
def State.failsBy (s : State) (q at' : Nat) : Nat :=
  match s.run? q with
  | none => s.rd (TWL.FAIL.f q)
  | some r => r.arrivals.foldl (fun m a => if a.due ≤ at' then m ||| a.fails else m) (s.rd (TWL.FAIL.f q))

/-- The sequencer tap with a vector in a lane: STATE and CYC are those of lane 0, SOR marks the cycle of vector 0
(R356). -/
def State.setSeqTap (s : State) (q lane : Nat) (f : Flight) : State :=
  let w := s.rd (CNV.STAP.f q)
  let w := if lane = 0 then f.state + f.cyc % 2 ^ 48 * 2 ^ 4 + b2n (f.cyc == 0) * 2 ^ 56 else w - bits w 52 4 * 2 ^ 52
  (s.wr (CNV.STAP.f q) (w + (lane + 1) * 2 ^ 52)).wr (CNV.STAP_G.f q) (s.failsBy q (s.tapInstant q f))

/-- A judged vector appears on the taps of its sequencer: in the next lane of the same TCLK cycle of 2 ns, or in lane 0
of a later one (R354 to R356). -/
def State.setTaps (s : State) (q : Nat) (f : Flight) (ps : List (List Nat)) : State :=
  let cyc := s.tapInstant q f / 8000 + 1
  let lane := if s.rd (CNV.TAP_AT.f q) = cyc && s.tapLanes q < 8 then s.tapLanes q else 0
  let s := if lane = 0 then (s.owned q).foldl (fun s c => s.wr (CNV.TAP.f c) 0) s else s
  ((((f.cols.zip ps).foldl (fun s x => s.setTap lane f x.1 x.2) s).setSeqTap q lane f)).wr (CNV.TAP_AT.f q) cyc

/-- A tap reaches a region: the static region, or a bay whose ring is open (R363). -/
def State.tapReaches (s : State) (r : Nat) : Bool := r == 16 || (r < 16 && !s.bayHeld r)

/-- What region `r` sees of the tap of a channel: its eight lanes, where TAPDST names the region, and none while no
burst of its owner runs (R353, R354, R363). -/
def State.tapSeen (s : State) (c r : Nat) : Nat :=
  match s.ownerOf c with
  | none => 0
  | some q =>
    if s.rd (CNV.PORT_TAPDST.f c) = r && s.tapReaches r && 2 ≤ s.rd (TWL.STATE_STATE.f q) then s.rd (CNV.TAP.f c) else 0

/-- What a region sees of the tap of a sequencer, and its GFAIL: the present STATE while no lane of the run has appeared
(R356, R357), and zeros through a closed ring (R363). -/
def State.seqTapSeen (s : State) (q r : Nat) : Nat × Nat :=
  if !s.tapReaches r then (0, 0)
  else if s.rd (CNV.TAP_AT.f q) = 0 then (s.rd (TWL.STATE_STATE.f q), 0)
  else (s.rd (CNV.STAP.f q), s.rd (CNV.STAP_G.f q))

/-- The result of a vector of a MATCH in progress: kept until the MATCH ends, and the iteration's decision on its way
(R137, R138). -/
def State.judgeMatch (s : State) (q : Nat) (f : Flight) (ps : List (List Nat)) : State :=
  let s := s.mapRun q fun r =>
    { r with held := (r.held.filter fun h => h.flight.iter == f.iter) ++ [{ flight := s.judgedCols f, pairs := ps }] }
  if f.iterEnd then
    let ok := if f.cmask then 0 else 0xFF - s.failMask f 0 (f.cols.zip ps)
    s.pushArrival q { due := f.ends + s.decisionDelay q, cyc := f.cyc, fails := 0, iter := f.iter, matched := ok }
  else s

/-- The result of a vector outside a MATCH, or of one that has ended. -/
def State.judgePlain (s : State) (q : Nat) (f : Flight) (ps : List (List Nat)) : State :=
  let fm := s.failMask f f.maskGrp (f.cols.zip ps)
  let s := s.judge q f f.maskGrp ps
  if fm = 0 then s
  else if s.issuing q then
    s.pushArrival q { due := f.ends + s.decisionDelay q, cyc := f.cyc, fails := fm, iter := 0, matched := 0 }
  else s.setFails q fm

/-- Damask judges the oldest vector in flight of a sequencer. -/
def execStrobeResult (q : SeqId) (obs : List ChannelSamples) (s : State) : Out :=
  done (match s.run? q with
    | none => s
    | some r =>
      match r.flights with
      | [] => s
      | f :: fs =>
        let s := s.setRun q { r with flights := fs }
        let p := s.vectorPairs obs f.cols
        let s := if f.iter != 0 then p.1.judgeMatch q f p.2 else p.1.judgePlain q f p.2
        (s.setTaps q f p.2).settle q)

/-! The record writer (R194 to R197). -/

/-- The bytes of a record. -/
def recBytes (ws : List Nat) : List Byte := ws.flatMap fun w => wordBytes w 4

/-- A record counts as written for its burst: a fail record, not a marker (R186). -/
def State.countWritten (s : State) (r : FailRec) : State :=
  if bits (r.words.getD 1 0) 21 2 = 0 then s.updBurst r.seq r.grp fun b => { b with recCnt := b.recCnt + 1 } else s

/-- The ring of a record has room for one line. -/
def State.ringRoom (s : State) (site : Nat) (a : Alloc) : Bool := decide (s.ringFill site + 2 ≤ a.ringCap)

/-- One line of two records goes to the ring, and DMK_RING_WR advances by two (R195). -/
def State.writeLine (s : State) (site : Nat) (a : Alloc) (w1 w2 : List Nat) : State :=
  let pos := s.rd (DMK.RING_WR.f site) % a.ringCap
  (s.allocWrite a (32 * pos) (recBytes w1 ++ recBytes w2)).wr (DMK.RING_WR.f site) (s.rd (DMK.RING_WR.f site) + 2)

/-- The write of the next ring line waits (R10, R270, R286). -/
def State.lineHeld (s : State) (site : Nat) (a : Alloc) : Bool :=
  s.storeWaits a (32 * (s.rd (DMK.RING_WR.f site) % a.ringCap)) 64

/-- The pad record of a record (R194). -/
def padOf (ws : List Nat) : List Nat :=
  [ws.getD 0 0, ws.getD 1 0 % 2 ^ 16 + 2 * 2 ^ 21, 0, 0, 0, 0, 0, ws.getD 7 0 % 2 ^ 16]

/-- The ring and the two records of the next line of a site's FIFO, where the ring and the bitmap writer have room. -/
def State.lineReady (s : State) (site : Nat) : Option (Alloc × FailRec × FailRec × List FailRec) :=
  match s.fifo site with
  | r1 :: r2 :: rest =>
    match s.alloc? r1.ringId with
    | none => none
    | some a =>
      if r1.ring && r2.ring && r2.ringId == r1.ringId && s.ringRoom site a && s.mergeRoom site [r1, r2] then
        some (a, r1, r2, rest)
      else none
  | _ => none

/-- It is a site's turn: no site between the one whose turn is next and this one has a line to write (R194). -/
def State.recordTurn (s : State) (site : Nat) : Bool :=
  (List.range ((site + 64 - s.rd DMK.REC_TURN.f) % 64)).all fun d =>
    (s.lineReady ((s.rd DMK.REC_TURN.f + d) % 64)).isNone

/-- The turn goes to the site after one. -/
def State.recordServed (s : State) (site : Nat) : State := s.wr DMK.REC_TURN.f ((site + 1) % 64)

/-- The writer takes two records of a site to the ring when the ring has room and it is the site's turn. -/
def execRecordWrite (site : Site) (s : State) : Out :=
  done (
    let s := s.passHead site
    match s.lineReady site with
    | none => s
    | some (a, r1, r2, rest) =>
      if s.recordTurn site && !s.lineHeld site a then
        let s := ((s.writeLine site a r1.words r2.words).setFifo site rest).recordServed site
        ((((s.countWritten r1).countWritten r2).recordOut site r1).recordOut site r2).passHead site
      else s)

/-- A record with no partner in its FIFO after 100 ns is written with a pad. -/
def execPadTimeout (site : Site) (s : State) : Out :=
  done (
    let s := s.passHead site
    match s.fifo site with
    | [r] =>
      match s.alloc? r.ringId with
      | none => s
      | some a =>
        if s.ringRoom site a && s.mergeRoom site [r] && !s.lineHeld site a then
          ((((s.writeLine site a r.words (padOf r.words)).setFifo site []).recordServed site).countWritten r).recordOut
            site r
        else s
    | _ => s)

/-- A write of DMK_RING_RD: only between RD and WR (R195). -/
def State.writeRingRd (s : State) (site v : Nat) : State :=
  if (v + 2 ^ 32 - s.rd (DMK.RING_RD.f site)) % 2 ^ 32 ≤ s.ringFill site then s.wr (DMK.RING_RD.f site) v else s

def execDmkRingRd (site : Site) (v : Word) (s : State) : Out :=
  done (s.reach ((DMK.RING_RD.f site).sets v.toNat) .dmk fun s => s.writeRingRd site v.toNat)

/-- Word `w` of the record `k` places behind the head of a site's ring, as a port or SLP reads it (R198, R449). -/
def State.ringRecord (s : State) (site k w : Nat) : Nat :=
  match s.siteRing site with
  | none => 0xFFFFFFFF
  | some a =>
    if s.ringFill site ≤ k then 0xFFFFFFFF
    else
      let o := (s.rd (DMK.RING_RD.f site) + k) % 2 ^ 32 % a.ringCap * 32
      if s.allocPoison a o 32 then (if w = 7 then 2 ^ 16 else 0) else s.allocRead a (o + 4 * w) 4

/-- A read of the record `k` places behind the head of a site's ring waits for its line. -/
def State.ringWaits (s : State) (site k : Nat) : Bool :=
  decide (k < s.ringFill site) &&
    (s.siteRing site).any fun a => s.loadWaits a ((s.rd (DMK.RING_RD.f site) + k) % 2 ^ 32 % a.ringCap * 32) 32

/-- A read of a register of a record port waits for the ring line of the head record. -/
def State.portWaits (s : State) (a : Nat) : Bool :=
  (DMK.RP_D.idx? a).any fun x => s.ringWaits (s.rd (DMK.RP_SEL_SITE.f x.1)) 0

/-- Word `w` of the head record. -/
def State.headRecord (s : State) (site w : Nat) : Nat := s.ringRecord site 0 w

/-- A read of a word of the head record finds its ring line poisoned, which raises EV1197, whether it consumes or not
(R198, R213). -/
def State.ringDetect (s : State) (site : Nat) : State :=
  match s.siteRing site with
  | none => s
  | some a =>
    if s.ringFill site != 0 && s.allocPoison a (s.rd (DMK.RING_RD.f site) % a.ringCap * 32) 32 then s.pulse 1197 else s

/-- A read of word 7 of the head record by a consumer consumes the record (R198). -/
def State.consumeRecord (s : State) (site : Nat) : State :=
  match s.siteRing site with
  | none => s
  | some _ => if s.ringFill site = 0 then s else s.inc (DMK.RING_RD.f site)

/-- A read of DMK_RPp_D7 (R198). -/
def execRecordPortRead (p : Fin 4) (m : Master) (s : State) : Out :=
  let x : Access := .read m (DMK.RP_D.f p 7).addr
  done (if s.dieOn && s.portWaits x.addr then s.hold x
  else
    s.reach x .dmk fun s =>
      let site := s.rd (DMK.RP_SEL_SITE.f p)
      let s := (s.answer (s.headRecord site 7)).ringDetect site
      if s.consumes m then s.consumeRecord site else s)

/-! Results (R150, R202, R203). -/

/-- One bit step of the CRC-32 of IEEE 802.3, least significant bit first. -/
def crcBit (c : Nat) : Nat := if c % 2 = 1 then c / 2 ^^^ 0xEDB88320 else c / 2

/-- CRC-32 over bytes. -/
def crc32 (bs : List Nat) : Nat :=
  (bs.foldl (fun c b => (List.range 8).foldl (fun c _ => crcBit c) (c ^^^ b)) 0xFFFFFFFF) ^^^ 0xFFFFFFFF

/-- The bytes of a word, low first. -/
def natBytes (w n : Nat) : List Nat := (List.range n).map fun i => w / 256 ^ i % 256

/-- Words 0 to 14 of the result of a burst (R150). -/
def Burst.resultHead (b : Burst) (q obj tstart : Nat) : List Nat :=
  [b2n (b.vpois || b.fpois) + b.ended.getD 0 * 2 ^ 8 + b.site * 2 ^ 16 + q * 2 ^ 22 + b.grp * 2 ^ 26, obj, b.bseq, b.ctx,
    b.vcnt % 2 ^ 32,
    b.vcnt / 2 ^ 32 % 2 ^ 16 + b2n b.ovf * 2 ^ 16 + b2n b.trip * 2 ^ 17 + b2n b.mto * 2 ^ 18 + b2n b.ra * 2 ^ 19 +
      b2n b.vpois * 2 ^ 20 + b2n b.fpois * 2 ^ 21 + b2n b.det * 2 ^ 22,
    b.endLine, b.ffail % 2 ^ 32, b.ffail / 2 ^ 32, b.failCnt, b.recCnt % 2 ^ 32, b.dropCnt % 2 ^ 32, tstart % 2 ^ 32,
    tstart / 2 ^ 32 % 2 ^ 32, b.miter % 2 ^ 32]

/-- The result record of a burst. -/
def Burst.result (b : Burst) (q obj tstart : Nat) : List Nat :=
  let h := b.resultHead q obj tstart
  h ++ [crc32 (h.flatMap fun w => natBytes w 4)]

/-- A site's result queue. -/
def State.resultQ (s : State) (site : Nat) : List ResultEntry := s.results.get site []

def State.setResultQ (s : State) (site : Nat) (l : List ResultEntry) : State :=
  s.withResults (s.results.set site l [])

/-- Results that every enabled consumer has taken leave the queue (R203). -/
def State.purgeResults (s : State) (site : Nat) : State :=
  let port := s.flag (DMK.SITE_CFG_RES_PORT.f site)
  let slp := s.flag (DMK.SITE_CFG_RES_SLP.f site)
  s.setResultQ site ((s.resultQ site).filter fun e => (port && !e.byPort) || (slp && !e.bySlp))

/-- The head result for the port: the first that the port has not taken. -/
def State.portResult (s : State) (site : Nat) : Option ResultEntry :=
  if s.flag (DMK.SITE_CFG_RES_PORT.f site) then (s.resultQ site).find? fun e => !e.byPort else none

/-- Mark the first entry that is not marked. -/
def takeFirst (p : ResultEntry → Bool) (f : ResultEntry → ResultEntry) : List ResultEntry → List ResultEntry
  | [] => []
  | e :: r => if p e then f e :: r else e :: takeFirst p f r

/-- The port takes the head result. -/
def State.portTake (s : State) (site : Nat) : State :=
  if s.flag (DMK.SITE_CFG_RES_PORT.f site) then
    (s.setResultQ site
      (takeFirst (fun e => !e.byPort) (fun e => { e with byPort := true }) (s.resultQ site))).purgeResults site
  else s

/-- Word `w` of the head result as the port reads it. -/
def State.headResult (s : State) (site w : Nat) : Nat :=
  match s.portResult site with
  | none => 0xFFFFFFFF
  | some e => e.words.getD w 0

def execResultPortRead (m : Master) (s : State) : Out :=
  done (s.reach (.read m (DMK.RSP_D.f 15).addr) .dmk fun s =>
    let site := s.rd DMK.RSP_SEL_SITE.f
    let s := s.answer (s.headResult site 15)
    if s.consumes m then s.portTake site else s)

/-- Every vector of the burst is judged; a detached group waits for no MATCH (R25, R140). -/
def SeqRun.judgedAll (r : SeqRun) (g : Nat) : Bool :=
  (r.flights.all fun f => f.cols.all fun c => c.grp != g) &&
    ((r.bursts.any fun b => b.grp == g && b.det) || r.held.all fun h => h.flight.cols.all fun c => c.grp != g)

/-- Every record and bitmap update of the burst has been accepted (R25). -/
def State.acceptedAll (s : State) (q g site : Nat) : Bool :=
  ((s.fifo site).all fun r => !(r.seq == q && r.grp == g)) &&
    (s.updatesOf site).all fun u => !(u.seq == q && u.grp == g)

/-- The burst of a site that may be posted now: its sequencer and itself. It waits while the DRAM is held (R466), and
after a loss of TREF until SQCLK runs again (R149). -/
def State.postable (s : State) (site : Nat) : Option (Nat × SeqRun × Burst) :=
  s.runs.findSome? fun e =>
    (e.2.bursts.find? fun b => b.site == site && !b.posted && b.ended.isSome && e.2.judgedAll b.grp &&
      s.acceptedAll e.1 b.grp site && !s.dramHeld && (b.ended != some 9 || s.bit CLK.LK.f 2)).map fun b => (e.1, e.2, b)

/-- RESULT_POST: the result enters the site's queue, and a run whose results are all posted releases its sequencer (R25,
R202, R203). -/
def execResultPost (site : Site) (s : State) : Out :=
  done (
    let s := s.passHead site
    match s.postable site with
    | none => s
    | some (q, r, b) =>
      if 32 ≤ (s.resultQ site).length then s
      else
        let e : ResultEntry :=
          { words := b.result q r.obj r.tstart, byPort := false, bySlp := false, upto := s.rd (DMK.RING_WR.f site),
            ord := s.rd DMK.POSTS.f }
        let s := ((s.setResultQ site (s.resultQ site ++ [e])).inc DMK.POSTS.f).purgeResults site
        let s := s.updBurst q b.grp fun b => { b with posted := true }
        match s.run? q with
        | none => s
        | some r => if r.bursts.all fun b => b.posted then s.release q else s)

/-! The bitmap (R199 to R201). -/

/-- BMAP_CLR (R200). -/
def State.bmapClear (s : State) (site : Nat) : State :=
  if s.siteFlag DMK.BMAP_BUSY site then s
  else
    match s.bmapAlloc (s.rd (DMK.BMAP_ID.f site)) with
    | none => s
    | some _ =>
      ((s.setSiteFlag DMK.BMAP_BUSY site true).wr (DMK.CLR_ID.f site) (s.rd (DMK.BMAP_ID.f site))).wr (DMK.CLR_POS.f site) 0

def execBmapClr (site : Site) (s : State) : Out :=
  done (s.reach ((DMK.SITE_CFG_BMAP_CLR.f site).sets 1) .dmk fun s => s.bmapClear site)

/-- The sequencer that holds a site is IDLE, or none holds it. -/
def State.siteIdle (s : State) (site : Nat) : Bool :=
  match s.siteOwner site with
  | none => true
  | some (q, _) => s.rd (TWL.STATE_STATE.f q) == 0

/-- The bitmap clear of a site can go on: it starts only with the sequencer IDLE and every update written. -/
def State.clearRuns (s : State) (site : Nat) : Bool :=
  s.siteFlag DMK.BMAP_BUSY site && s.siteIdle site && (s.updatesOf site).isEmpty

/-- The fill of a bitmap clear completes: the lines that it has not zeroed yet become zero. -/
def State.clearEnd (s : State) (site : Nat) : State :=
  (match s.alloc? (s.rd (DMK.CLR_ID.f site)) with
    | none => s
    | some a => s.zeroFrom a (s.rd (DMK.CLR_POS.f site))).setSiteFlag DMK.BMAP_BUSY site false

/-- The fill waits for a line that cannot be written yet. -/
def State.clearWaits (s : State) (site : Nat) : Bool :=
  (s.alloc? (s.rd (DMK.CLR_ID.f site))).any fun a => s.storeWaits a (64 * s.rd (DMK.CLR_POS.f site)) (a.size - 64 * s.rd (DMK.CLR_POS.f site))

def execBmapClearEnd (site : Site) (s : State) : Out :=
  done (if s.clearRuns site && !s.clearWaits site then s.clearEnd site else s)

/-- Set one bit of a bitmap. -/
def State.setBitmapBit (s : State) (a : Alloc) (b : Nat) : State :=
  let pa := a.pa (b / 8)
  s.setDramByte pa (s.dramByte a pa ||| BitVec.ofNat 8 (2 ^ (b % 8)))

/-- The bursts of the updates end INVALID_MEM with FPOIS (R201). -/
def State.fpoison (s : State) (us : List BitmapUpdate) : State :=
  us.foldl (fun s u => s.updBurst u.seq u.grp fun b => { b with fpois := true }) s

/-- The bitmap writer merges the pending updates of one line and writes it by read-modify-write; `bad` says that the
line read does not verify (R201). -/
def execBitmapLineWrite (site : Site) (bad : Bool) (s : State) : Out :=
  done (
    let s := s.passHead site
    let us := s.updatesOf site
    match us with
    | [] => s
    | u :: _ =>
      match u.bits, s.alloc? u.bmapId with
      | b :: _, some a =>
        if s.writeWaits a.key (a.pa (b / 512 * 64)) then s
        else
        let here := fun (x : BitmapUpdate) (y : Nat) => x.bmapId == u.bmapId && y / 512 == b / 512
        let hit := us.filter fun x => x.bits.any (here x)
        let s := hit.foldl (fun s x => (x.bits.filter (here x)).foldl (fun s y => s.setBitmapBit a y) s) s
        let rest := (us.map fun x => { x with bits := x.bits.filter fun y => !here x y }).filter fun x => !x.bits.isEmpty
        let s := s.setUpdates site rest
        let pa := a.pa (b / 512 * 64)
        let poison := bad || s.linePoison a.key pa
        let s := (s.readBad a.key pa bad).lineWritten a.key pa false
        (if poison then (s.fpoison hit).pulse 1197 else s).passHead site
      | _, _ => s.setUpdates site (us.drop 1))

/-! Repair analysis (R204 to R211). -/

/-- CFG_ERR of a unit (R204); it reads 0 where the units are absent (R42). -/
def State.raCfgErr (s : State) (k : Nat) : Bool :=
  let ok := fun (id n : Nat) => (s.alloc? id).any fun a => a.st != 6 && decide (n ≤ a.size)
  s.hasRa && (decide (16 < s.rd (DMK.RA_GEOM0_RB.f k)) || decide (16 < s.rd (DMK.RA_GEOM0_CB.f k)) ||
    decide (12 < s.rd (DMK.RA_GEOM0_XBB.f k) + s.rd (DMK.RA_GEOM0_CBB.f k) + s.rd (DMK.RA_GEOM0_ZB.f k)) ||
    decide (24 < s.rd (DMK.RA_GEOM1_YW.f k)) || decide (8 < s.rd (DMK.RA_GEOM1_DB.f k)) ||
    !ok (s.rd (DMK.RA_WORK_ID.f k)) (256 * 2 ^ 20) || !ok (s.rd (DMK.RA_OUT_ID.f k)) (8 * 2 ^ 20))

/-- A session with the unit's registers (R204). -/
def State.raSession (s : State) (k : Nat) : RaSession :=
  { seq := s.rd (DMK.RA_BIND_SEQ.f k), gmask := s.rd (DMK.RA_BIND_GMASK.f k),
    autoclose := s.flag (DMK.RA_BIND_AUTOCLOSE.f k), rb := s.rd (DMK.RA_GEOM0_RB.f k), cb := s.rd (DMK.RA_GEOM0_CB.f k),
    xbb := s.rd (DMK.RA_GEOM0_XBB.f k), cbb := s.rd (DMK.RA_GEOM0_CBB.f k), zb := s.rd (DMK.RA_GEOM0_ZB.f k),
    space := s.flag (DMK.RA_GEOM0_SPACE.f k), corder := s.flag (DMK.RA_GEOM0_CORDER.f k),
    yw := s.rd (DMK.RA_GEOM1_YW.f k), db := s.rd (DMK.RA_GEOM1_DB.f k), srow := min 32 (s.rd (DMK.RA_SPARE_SROW.f k)),
    scol := min 32 (s.rd (DMK.RA_SPARE_SCOL.f k)), limit := max 1 (s.rd (DMK.RA_LIMIT.f k)),
    workId := s.rd (DMK.RA_WORK_ID.f k), outId := s.rd (DMK.RA_OUT_ID.f k), fed := false, closing := false,
    searching := false, queue := [], blocks := [], lost := 0 }

/-- The repair units are absent on ST9128-L (R42). -/
def State.reachRa (s : State) (w : Lay) (k : Nat) (f : State → State) : State :=
  s.reachUnit (w.f.sets (2 ^ k)) .dmk s.hasRa f

def State.setSession (s : State) (k : Nat) (u : RaSession) : State := s.withSessions (s.sessions.put k u)

/-- OPEN (R206). -/
def State.raOpen (s : State) (k : Nat) : State :=
  if s.bit DMK.RA_EN.f k && !s.bit DMK.BUSY.f k && !s.raCfgErr k then
    let s := ((s.setBit DMK.BUSY.f k true).setBit DMK.DONE.f k false).setBit DMK.QFULL.f k false
    let s := s.forUpTo 8 fun s g => (s.wr (DMK.RA_SUM_VERDICT.f k g) 0).wr (DMK.RA_SUM_NBAD.f k g) 0
    s.setSession k (s.raSession k)
  else s

def execRaOpen (k : RepairId) (s : State) : Out := done (s.reachRa DMK.OPEN k fun s => s.raOpen k)

/-- The runs that feed a unit are all in DRAIN with every vector judged, or none does (R206). -/
def State.raDrained (s : State) (k : Nat) : Bool :=
  s.runs.all fun e => !bitOf e.2.raUnits k || (s.rd (TWL.STATE_STATE.f e.1) == 7 && e.2.flights.isEmpty)

/-- A close takes effect: the search begins. -/
def State.raSearch (s : State) (k : Nat) (u : RaSession) : State :=
  (s.setSession k { u with closing := true, searching := true }).setBit DMK.SRCH.f k true

/-- CLOSE: at once where no run is in progress or its fails have all reached the unit, else when they have (R206). -/
def State.raClose (s : State) (k : Nat) : State :=
  match s.sessions.find? k with
  | none => s
  | some u =>
    if u.searching then s
    else if s.raDrained k then s.raSearch k u
    else s.setSession k { u with closing := true }

def execRaClose (k : RepairId) (s : State) : Out := done (s.reachRa DMK.CLOSE k fun s => s.raClose k)

/-- A close that was asked for, or that AUTOCLOSE brings at the end of the first run, takes effect. -/
def execRaCloseEffect (k : RepairId) (s : State) : Out :=
  done (match s.sessions.find? k with
    | none => s
    | some u =>
      if (u.closing || (u.autoclose && u.fed)) && !u.searching && s.raDrained k then s.raSearch k u else s)

/-- No run in progress feeds a unit any more. -/
def State.raUnfeed (s : State) (k : Nat) : State :=
  s.withRuns (s.runs.map fun (e : Nat × SeqRun) => (e.1, { e.2 with raUnits := putBit e.2.raUnits k false }))

/-- A session is over: its run in progress no longer feeds the unit, and the unit is not busy. -/
def State.raEnd (s : State) (k : Nat) : State :=
  (((s.withSessions (s.sessions.del k)).raUnfeed k).setBit DMK.BUSY.f k false).setBit DMK.SRCH.f k false

/-- ABORT, or RA_EN written 0: the session ends at once (R206). -/
def State.raAbort (s : State) (k : Nat) : State :=
  match s.sessions.find? k with
  | none => s
  | some _ => (s.raEnd k).freeDeleted

def execRaAbort (k : RepairId) (s : State) : Out := done (s.reachRa DMK.ABORT k fun s => s.raAbort k)

/-- The cells that no assigned line covers. -/
def uncovered (cells : List (Nat × Nat)) (rows cols : List Nat) : List (Nat × Nat) :=
  cells.filter fun c => !rows.contains c.1 && !cols.contains c.2

/-- A line whose uncovered cells number more than `n`. -/
def overLine (cells : List (Nat × Nat)) (p : Nat × Nat → Nat) (n : Nat) : Option Nat :=
  (cells.find? fun c => decide (n < (cells.filter fun d => p d == p c).length)).map p

/-- The state of the assignment rule of R207: spares left and lines assigned. -/
structure Cover where
  rr : Nat
  cr : Nat
  rows : List Nat
  cols : List Nat

/-- The assignments of R207, repeated until nothing changes, rows before columns, and whether they failed: an
assignment was due while the spare it needs was exhausted. The lines assigned before that stay assigned. -/
def mustRepair (cells : List (Nat × Nat)) : Nat → Cover → Cover × Bool
  | 0, c => (c, false)
  | n + 1, c =>
    let f := uncovered cells c.rows c.cols
    match overLine f Prod.fst c.cr with
    | some r => if c.rr = 0 then (c, true) else mustRepair cells n { c with rr := c.rr - 1, rows := r :: c.rows }
    | none =>
      match overLine f Prod.snd c.rr with
      | some k => if c.cr = 0 then (c, true) else mustRepair cells n { c with cr := c.cr - 1, cols := k :: c.cols }
      | none => (c, false)

/-- A new cell enters a block (R207). The number of uncovered cells is compared with 2 × Rr × Cr once the assignments
have come to rest: compared before them, a block with spare rows alone could never be repaired (DEDUCED, log entry 30).
-/
def RaBlock.add (b : RaBlock) (row col : Nat) : RaBlock :=
  if b.unrep || b.cells.contains (row, col) then b
  else
    let cells := b.cells ++ [(row, col)]
    let x := mustRepair cells (b.rr + b.cr + 1) { rr := b.rr, cr := b.cr, rows := b.rows, cols := b.cols }
    let c := x.1
    { b with
      cells := cells, nfail := b.nfail + 1, rr := c.rr, cr := c.cr, rows := c.rows, cols := c.cols
      unrep := x.2 || decide (2 * c.rr * c.cr < (uncovered cells c.rows c.cols).length) }

/-- A block that no cell has reached. -/
def RaSession.newBlock (u : RaSession) (g n : Nat) : RaBlock :=
  { grp := g, block := n, cells := [], nfail := 0, rr := u.srow, cr := u.scol, rows := [], cols := [], unrep := false }

/-- A cell enters its block of a session. -/
def RaSession.addCell (u : RaSession) (c : RaCell) : RaSession :=
  let here := fun (b : RaBlock) => b.grp == c.grp && b.block == c.block
  let bs := if u.blocks.any here then u.blocks
    else u.blocks ++ [u.newBlock c.grp c.block]
  { u with blocks := bs.map fun b => if here b then b.add c.row c.col else b }

/-- Poison in the work area marks the burst of the group in the run of the session that is in progress, which is that of
its sequencer until its result is posted (R211). -/
def State.raPoison (s : State) (k q g : Nat) : State :=
  match s.run? q with
  | none => s
  | some r => if bitOf r.raUnits k then s.updBurst q g fun b => if b.posted then b else { b with fpois := true } else s

/-- Reads of the work area have returned poison for the DUTs of a mask: they end INCOMPLETE (R211). -/
def State.raLose (s : State) (k : Nat) (u : RaSession) (m : Nat) : State :=
  if m = 0 then s.setSession k u
  else
    ((s.setSession k { u with lost := u.lost ||| m }).pulse 1197).forUpTo 8 fun s g =>
      if bitOf m g then s.raPoison k u.seq g else s

/-- A fail cell reaches the unit; `poison` says that a read of the work area returns poison (R211). -/
def execRepairCell (k : RepairId) (poison : Bool) (s : State) : Out :=
  done (match s.sessions.find? k with
    | none => s
    | some u =>
      match u.queue with
      | [] => s
      | c :: rest =>
        let u := { u with queue := rest }
        if poison then s.raLose k u (2 ^ c.grp) else s.setSession k (u.addCell c))

/-- The lowest cell of a list, by row and then by column. -/
def lowestCell : List (Nat × Nat) → Option (Nat × Nat)
  | [] => none
  | c :: r =>
    match lowestCell r with
    | none => some c
    | some d => if c.1 < d.1 || (c.1 == d.1 && c.2 < d.2) then some c else some d

/-- What the search of R208 gives: the lines of a cover, no cover, or the limit; with the nodes counted. -/
inductive Search
  | found (c : Cover)
  | noCover
  | limit

/-- The function cover of R208, with the node count threaded through it. -/
def cover (cells : List (Nat × Nat)) (limit : Nat) : Nat → Nat → Cover → Search × Nat
  | 0, nodes, _ => (.noCover, nodes)
  | n + 1, nodes, c =>
    match mustRepair cells (c.rr + c.cr + 1) c with
    | (_, true) => (.noCover, nodes)
    | (c, false) =>
      match lowestCell (uncovered cells c.rows c.cols) with
      | none => (.found c, nodes)
      | some (r, k) =>
        if limit < nodes + 1 then (.limit, nodes + 1)
        else
          let a := if 0 < c.rr then cover cells limit n (nodes + 1) { c with rr := c.rr - 1, rows := r :: c.rows }
            else (.noCover, nodes + 1)
          match a.1 with
          | .found x => (.found x, a.2)
          | .limit => (.limit, a.2)
          | .noCover =>
            if 0 < c.cr then cover cells limit n a.2 { c with cr := c.cr - 1, cols := k :: c.cols }
            else (.noCover, a.2)

/-- The verdict of a block, and its spare rows and columns (R208, R209). -/
def RaBlock.verdict (b : RaBlock) (limit : Nat) (lost : Bool) : Nat × List Nat × List Nat :=
  if lost then (4, b.rows, b.cols)
  else if b.unrep then (2, b.rows, b.cols)
  else if b.cells.isEmpty then (0, [], [])
  else
    match (cover b.cells limit (b.rr + b.cr + 1) 0 { rr := b.rr, cr := b.cr, rows := b.rows, cols := b.cols }).1 with
    | .found c => (1, c.rows, c.cols)
    | .noCover => (2, b.rows, b.cols)
    | .limit => (3, b.rows, b.cols)

/-- Insert into an ascending list. -/
def insertNat (x : Nat) : List Nat → List Nat
  | [] => [x]
  | y :: r => if x ≤ y then x :: y :: r else y :: insertNat x r

/-- Lines in ascending order, two to a word, 16 words (R210). -/
def packLines (l : List Nat) : List Nat :=
  let a := l.foldr insertNat []
  (List.range 16).map fun i => a.getD (2 * i) 0 + a.getD (2 * i + 1) 0 * 2 ^ 16

/-- The 64 words of an output entry (R210). -/
def RaBlock.entry (b : RaBlock) (limit : Nat) (lost : Bool) : List Nat :=
  let v := b.verdict limit lost
  [v.1 + v.2.1.length * 2 ^ 8 + v.2.2.length * 2 ^ 16,
    min 0xFFFF b.nfail + b.rows.length * 2 ^ 16 + b.cols.length * 2 ^ 24] ++
    packLines v.2.1 ++ packLines v.2.2 ++ List.replicate 30 0

/-- The block of a session by number, CLEAN where no cell reached it. -/
def RaSession.blockAt (u : RaSession) (g n : Nat) : RaBlock :=
  match u.blocks.find? fun b => b.grp == g && b.block == n with
  | some b => b
  | none => u.newBlock g n

/-- Rank of a verdict, the worst first: 4, 2, 3, 1, 0 (R209). -/
def verdictRank : Nat → Nat
  | 4 => 4
  | 2 => 3
  | 3 => 2
  | 1 => 1
  | _ => 0

def worseVerdict (a b : Nat) : Nat := if verdictRank b > verdictRank a then b else a

/-- The verdicts of one DUT: its blocks' entries are written and its summary is set (R204, R209, R210). -/
def State.raDut (s : State) (k g : Nat) (u : RaSession) (out : Alloc) : State :=
  let lost := bitOf u.lost g
  let n := 2 ^ (u.xbb + u.cbb + u.zb)
  let s := s.forUpTo n fun s i =>
    s.allocWrite out ((g * 4096 + i) * 256) (recBytes ((u.blockAt g i).entry u.limit lost))
  let vs := (List.range n).map fun i => ((u.blockAt g i).verdict u.limit lost).1
  (s.wr (DMK.RA_SUM_VERDICT.f k g) (vs.foldl worseVerdict 0)).wr (DMK.RA_SUM_NBAD.f k g)
    (vs.filter fun v => 2 ≤ v).length

/-- A line of a session's output cannot be written yet. -/
def State.outWaits (s : State) (u : RaSession) (out : Alloc) : Bool :=
  (List.range 8).any fun g =>
    bitOf u.gmask g && s.storeWaits out (g * 4096 * 256) (2 ^ (u.xbb + u.cbb + u.zb) * 256)

/-- The search ends: every block has its verdict, the output is written, DONE is set (R206, R208); `bad` names the DUTs
for which a read of the work area in the search returned poison (R211). The output waits where a line of it cannot be
written yet. -/
def execRepairSearchEnd (k : RepairId) (s : State) (bad : BitVec 8 := 0) : Out :=
  done (match s.sessions.find? k with
    | none => s
    | some u =>
      if !u.searching || !u.queue.isEmpty || (s.alloc? u.outId).any (fun o => s.outWaits u o) then s
      else
        let m := u.gmask &&& bad.toNat
        let s := s.raLose k u m
        let s := match s.alloc? u.outId with
          | none => s
          | some out => s.forUpTo 8 fun s g => if bitOf u.gmask g then s.raDut k g { u with lost := u.lost ||| m } out else s
        ((s.setBit DMK.DONE.f k true).raEnd k).freeDeleted)

/-! The channel table (R191). -/

/-- A read through DMK_CH_IDATA. -/
def State.readDmkCh (s : State) (a : Nat) : Nat :=
  let n := a / 16
  match a % 16 with
  | 0 => s.rd (DMK.CMODE.f n)
  | 1 => s.rd (DMK.FCNT.f n)
  | 2 => s.rd (DMK.FFAIL.f n) % 2 ^ 32
  | 3 => s.rd (DMK.FFAIL.f n) / 2 ^ 32
  | 4 => s.rd (DMK.SIG.f n) % 2 ^ 32
  | 5 => s.rd (DMK.SIG.f n) / 2 ^ 32
  | _ => 0

/-- A write through DMK_CH_IDATA (R183). -/
def State.writeDmkCh (s : State) (a v : Nat) : State :=
  if a % 16 = 0 then s.wr (DMK.CMODE.f (a / 16)) v else s

end Sys2Proof.Machine
end

