-- ==== Sys2Proof/Machine/Scan.lean ====
section
/-! DEFINITION. The profile scan of a sealed object (R227 to R229): the paths from ENTRY, merged where they reach the
same line with the same pending return addresses, and the quantities counted over them. Log entry 34. -/

namespace Sys2Proof.Machine

/-- A point on a path: the line, the pending return addresses, the MATCH body in progress (its first line and the
address after it), and whether a transfer of control reaches the line. -/
structure ScanPoint where
  addr : Nat
  stack : List Nat
  body : Option (Nat × Nat)
  xfer : Bool
  deriving DecidableEq

/-- How a path goes from a line to the next. -/
inductive ScanEdge
  | seq
  | xfer
  | call
  | ret
  | rep
  deriving DecidableEq

/-- A line on a path, with the points that follow it. -/
structure ScanNode where
  pt : ScanPoint
  line : TwlLine
  next : List (ScanPoint × ScanEdge)

/-- The decoding of a line during the scan; the bytes of the line before it play no part. -/
def State.scanLine (s : State) (a : Alloc) (h : ObjHeader) (w : Nat) (xfer : Bool) : Option TwlLine :=
  match decodeLine (s.objByte a) h w (!xfer) [] with
  | .bad => none
  | .line l => some l

/-- The address after `n` more lines in body order, or none where a line is malformed. -/
def State.bodyEnd (s : State) (a : Alloc) (h : ObjHeader) : Nat → Nat → Option Nat
  | 0, w => some w
  | n + 1, w =>
    match s.scanLine a h w false with
    | none => none
    | some l => s.bodyEnd a h n l.next

/-- The points that follow a line on the paths that the opcodes allow (R228). A line that ends the run is followed by
none. -/
def State.scanNext (s : State) (a : Alloc) (h : ObjHeader) (p : ScanPoint) (l : TwlLine) :
    List (ScanPoint × ScanEdge) :=
  let xto := fun (w : Nat) (e : ScanEdge) => (({ addr := w, stack := p.stack, body := none, xfer := true } : ScanPoint), e)
  let on : ScanPoint × ScanEdge := ({ addr := l.next, stack := p.stack, body := none, xfer := false }, .seq)
  if zeroOpnd l.op && l.opnd != 0 then []
  else
    match p.body with
    | some (first, stop) =>
      if !(l.op == 0 || l.op == 1 || (l.op == 9 && l.addr == first)) then []
      else if l.next = stop then
        [({ addr := first, stack := p.stack, body := some (first, stop), xfer := true }, .rep), on]
      else [({ addr := l.next, stack := p.stack, body := p.body, xfer := false }, .seq)]
    | none =>
      match l.op with
      | 9 =>
        match s.bodyEnd a h (l.opnd % 256) l.next with
        | none => [({ addr := l.next, stack := p.stack, body := some (l.addr, 0), xfer := false }, .seq)]
        | some stop =>
          if l.next = stop then
            [({ addr := l.addr, stack := p.stack, body := some (l.addr, stop), xfer := true }, .rep), on]
          else [({ addr := l.next, stack := p.stack, body := some (l.addr, stop), xfer := false }, .seq)]
      | 0xB => []
      | 5 => [xto l.arg .xfer]
      | 4 => [xto l.arg .xfer, on]
      | 8 => if 6 ≤ l.opnd % 8 then [] else [xto l.arg .xfer, on]
      | 6 =>
        if 16 ≤ p.stack.length then []
        else [({ addr := l.arg, stack := l.next :: p.stack, body := none, xfer := true }, .call)]
      | 7 =>
        match p.stack with
        | [] => []
        | w :: st => [({ addr := w, stack := st, body := none, xfer := true }, .ret)]
      | _ => [on]

/-- Every line on a path from the points of `todo`; the first argument bounds the work. -/
def State.scanPaths (s : State) (a : Alloc) (h : ObjHeader) :
    Nat → List ScanPoint → List ScanPoint → List ScanNode → List ScanNode
  | 0, _, _, acc => acc
  | _ + 1, [], _, acc => acc
  | n + 1, p :: todo, seen, acc =>
    if seen.contains p then s.scanPaths a h n todo seen acc
    else
      match s.scanLine a h p.addr p.xfer with
      | none => s.scanPaths a h n todo (p :: seen) acc
      | some l =>
        let nx := s.scanNext a h p l
        s.scanPaths a h n (nx.map Prod.fst ++ todo) (p :: seen) ({ pt := p, line := l, next := nx } :: acc)

/-- An edge of a path that a streamed object must not have (R228); `e` is ENTRY. -/
def edgeBreaksStream (e : Nat) (n : ScanNode) (x : ScanPoint × ScanEdge) : Bool :=
  let a := n.pt.addr
  let b := x.1.addr
  (x.2 == .call && e ≤ b) || (b < e && e ≤ a && x.2 != .call && x.2 != .ret) || (a < e && e ≤ b && x.2 != .ret) ||
    (x.2 == .xfer && e ≤ b && b ≤ a && decide (2 ^ 20 < (a - b) * 4))

/-- STREAM (R228). -/
def scanStream (h : ObjHeader) (ns : List ScanNode) : Bool :=
  decide (h.entry * 4 ≤ 2 ^ 20) && ns.all fun n => n.next.all fun x => !edgeBreaksStream h.entry n x

/-- TSMASK (R229). -/
def scanTsmask (h : ObjHeader) (ns : List ScanNode) : Nat :=
  ns.foldl (fun m n => if n.line.tsc then putBit m n.line.tset true else m) (2 ^ h.tset0)

/-- The body bytes that a line reaches: its own end, and the target of a transfer from it, whose skipped bytes become
new at the transfer (R229). -/
def ScanNode.reach (n : ScanNode) (x : ScanPoint × ScanEdge) : Nat :=
  max (n.line.next * 4) (if x.2 = .seq then 0 else x.1.addr * 4)

/-- The furthest byte that a line reaches by any path out of it. -/
def ScanNode.farthest (n : ScanNode) : Nat := n.next.foldl (fun m x => max m (n.reach x)) (n.line.next * 4)

/-- The vectors that a line counts (R229). -/
def ScanNode.vectors (n : ScanNode) : Nat := if n.line.op = 1 then max 1 n.line.arg else 1

/-- The value of a point in a list of points with values. -/
def pointVal (l : List (ScanPoint × Nat)) (p : ScanPoint) : Option Nat := (l.find? fun x => x.1 == p).map Prod.snd

/-- Put a value for a point where it is lower than the one known. -/
def lowerPoint (l : List (ScanPoint × Nat)) (p : ScanPoint) (v : Nat) : List (ScanPoint × Nat) :=
  match l with
  | [] => [(p, v)]
  | (q, w) :: r => if q = p then (q, min v w) :: r else (q, w) :: lowerPoint r p v

/-- One round over every line: `step` carries the value of a line's point to the points that follow it, none where it
carries nothing. -/
def relaxOnce (ns : List ScanNode) (step : ScanNode → Nat → (ScanPoint × ScanEdge) → Option Nat)
    (l : List (ScanPoint × Nat)) : List (ScanPoint × Nat) :=
  ns.foldl (fun l n =>
    match pointVal l n.pt with
    | none => l
    | some v => n.next.foldl (fun l x =>
        match step n v x with
        | none => l
        | some w => lowerPoint l x.1 w) l) l

/-- The least values, carried along every path: as many rounds as there are lines. -/
def relax (ns : List ScanNode) (step : ScanNode → Nat → (ScanPoint × ScanEdge) → Option Nat)
    (l : List (ScanPoint × Nat)) : List (ScanPoint × Nat) :=
  (List.range ns.length).foldl (fun l _ => relaxOnce ns step l) l

/-- The least furthest byte with which each line is reached: the value that gives the larger count (R228, R229). -/
def scanLeast (h : ObjHeader) (ns : List ScanNode) (start : ScanPoint) : List (ScanPoint × Nat) :=
  relax ns (fun n v x => some (max v (n.reach x))) [(start, h.entry * 4)]

/-- The new bytes of a window of 16,384 vectors that begins with a line (R229). -/
def windowBytes (ns : List ScanNode) (least : List (ScanPoint × Nat)) (p : ScanNode) : Nat :=
  let dist := relax ns
    (fun n v _ => if v + n.vectors < 16384 then some (v + n.vectors) else none) [(p.pt, 0)]
  let far := ns.foldl (fun m n => if (pointVal dist n.pt).isSome then max m n.farthest else m) 0
  far - (pointVal least p.pt).getD 0

/-- BPV: with 8 fractional bits, rounded up (R229). -/
def scanBpv (h : ObjHeader) (ns : List ScanNode) (start : ScanPoint) : Nat :=
  let least := scanLeast h ns start
  (ns.foldl (fun m n => max m (windowBytes ns least n)) 0 + 63) / 64

/-- The allocation of an object with its profile (R227 to R229). -/
def State.profiled (s : State) (a : Alloc) : Alloc :=
  let h := s.objHeader a
  let start : ScanPoint := { addr := h.entry, stack := [], body := none, xfer := true }
  let ns := s.scanPaths a h (2 ^ 64) [start] [] []
  { a with
    stored := 64 + h.dictN * 8 + h.bodyWords * 4, pfx := h.entry * 4, stream := scanStream h ns
    tsmask := scanTsmask h ns, bpv := scanBpv h ns start }

end Sys2Proof.Machine
end

