-- ==== Sys2Proof/Machine/Pages.lean ====
section
/-! DEFINITION. Physical pages: which pages Calico may allocate and in which order it takes them (R216, R256, R283,
R292), the writes that an object accepts (R225, R241), and the build of the SYSTEM area (R218, R221).
Log entries 37, 39 and 91. -/

namespace Sys2Proof.Machine

/-! Pages in rotation (R256). A physical page is named by its physical address bits 43:16. -/

/-- Rank r of channel n serves allocations: fitted, in service, neither spare nor excluded at the last cold start. -/
def State.rankUsable (s : State) (n r : Nat) : Bool :=
  s.flag (DDR.UP.f n) && bitOf (s.rd (DDR.USE.f n)) r

/-- The page lies beneath a node that fails, so it is withheld from allocation (R292). -/
def State.pageWithheld (s : State) (pg : Nat) : Bool :=
  (List.range 16).any fun i => !s.pathGood (pg * 65536 + i * 4096)

/-- The free-page map (R214): the page may be given to an allocation. -/
def State.pageFree (s : State) (used : List Nat) (pg : Nat) : Bool :=
  !used.contains pg && !s.pageSystem pg && !s.pageWithheld pg

/-- The first of the `n` pages from `p` on, with wrap-around at `m`, that `ok` accepts. -/
def findPage (ok : Nat → Bool) (m : Nat) : Nat → Nat → Option Nat
  | 0, _ => none
  | n + 1, p => if ok p then some p else findPage ok m n ((p + 1) % m)

/-- A free page of a rank, from a page drawn (R216: any free page may serve). -/
def State.rankPage (s : State) (used : List Nat) (n r : Nat) : Option Nat :=
  if s.rankUsable n r then
    let m := s.rankPages n
    (findPage (fun p => s.pageFree used (pageName n r p)) m m (Config.freePage s.free % m)).map (pageName n r)
  else none

/-- The first rank of a channel with a free page, from rank r on: the rank and the page. -/
def State.chanPage (s : State) (used : List Nat) (n r : Nat) : Option (Nat × Nat) :=
  (List.range 4).findSome? fun i => (s.rankPage used n ((r + i) % 4)).map fun p => ((r + i) % 4, p)

/-- The next page in rotation, as (channel, rank, page). -/
def State.nextPage (s : State) (used : List Nat) : Option (Nat × Nat × Nat) :=
  (List.range 12).findSome? fun i =>
    let n := (s.rd CAL.ROT.f + i) % 12
    (s.chanPage used n (s.rd (CAL.ROT_RANK.f n))).map fun x => (n, x.1, x.2)

/-- What a page held before is not readable through its new allocation. -/
def State.clearPage (s : State) (pg : Nat) : State :=
  s.withTabs (s.tabs.filter fun e =>
    !(e.1 / 2 ^ 48 == DDR.wrote.id && e.1 % 2 ^ 48 / 1024 == pg))

/-- Take the next page in rotation. -/
def State.takePage (s : State) (used : List Nat) : Option (State × Nat) :=
  match s.nextPage used with
  | none => none
  | some (n, r, p) => some ((((s.draw).clearPage p).wr CAL.ROT.f ((n + 1) % 12)).wr (CAL.ROT_RANK.f n) ((r + 1) % 4), p)

/-- Take `k` pages in rotation. -/
def State.takePages (s : State) (used : List Nat) : Nat → Option (State × List Nat)
  | 0 => some (s, [])
  | k + 1 =>
    match s.takePage used with
    | none => none
    | some (t, p) =>
      match t.takePages (p :: used) k with
      | none => none
      | some (u, ps) => some (u, p :: ps)

/-! Writes to objects (R225, R241). -/

/-- The bytes of a marked page rewritten so far. -/
def Alloc.rewritten (a : Alloc) (pg : Nat) : Nat := SMap.get a.rewrite pg 0

/-- The pieces of a write, one for each page: page index, offset in the page, length. -/
def pagePieces : Nat → Nat → Nat → List (Nat × Nat × Nat)
  | 0, _, _ => []
  | k + 1, off, n =>
    if n = 0 then []
    else
      let m := min n (65536 - off % 65536)
      (off / 65536, off % 65536, m) :: pagePieces k (off + m) (n - m)

/-- An object accepts one piece of a write: a marked page in order, another page only while it is LOADING. -/
def Alloc.acceptsPiece (a : Alloc) (x : Nat × Nat × Nat) : Bool :=
  if a.marked.contains x.1 then a.rewritten x.1 == x.2.1 else a.st == 1

/-- An object accepts a write. -/
def Alloc.accepts (a : Alloc) (off n : Nat) : Bool :=
  a.kind == 0 && (a.st == 1 || a.st == 4) && !a.allpois && decide (off + n ≤ a.size) &&
    (pagePieces (n / 65536 + 2) off n).all a.acceptsPiece

/-- A marked page moves to a fresh page at its first accepted write. -/
def State.movePage (s : State) (id : Nat) (a : Alloc) (pg : Nat) : Option State :=
  match s.takePage s.usedPages with
  | none => none
  | some (t, p) => some (t.setAlloc id (a.setPage pg p))

/-- The rewriting of a marked page goes on; its mark clears at its last byte, and a REUPLOAD object without a marked
page is READY again. -/
def Alloc.rewriteTo (a : Alloc) (pg n : Nat) : Alloc :=
  if n < 65536 then { a with rewrite := SMap.put a.rewrite pg n }
  else
    let m := a.marked.filter fun x => x != pg
    { a with rewrite := SMap.del a.rewrite pg, marked := m, st := if a.st = 4 && m.isEmpty then 3 else a.st }

/-- One piece of an accepted write: the state after it, none where no page is free for a marked page. -/
def State.writePiece (s : State) (id : Nat) (x : Nat × Nat × Nat) (bs : List Byte) (bad : Nat) : Option State :=
  match s.alloc? id with
  | none => none
  | some a =>
    let off := x.1 * 65536 + x.2.1
    if a.marked.contains x.1 then
      let t := if x.2.1 = 0 then s.movePage id a x.1 else some s
      match t with
      | none => none
      | some t =>
        match t.alloc? id with
        | none => none
        | some b => some ((t.allocWrite b off bs bad).setAlloc id (b.rewriteTo x.1 (x.2.1 + bs.length)))
    else some (s.allocWrite a off bs bad)

/-- The pieces of an accepted write in order. -/
def State.writePieces (s : State) (id bad : Nat) : List (Nat × Nat × Nat) → List Byte → Option State
  | [], _ => some s
  | x :: r, bs =>
    match s.writePiece id x (bs.take x.2.2) bad with
    | none => none
    | some t => t.writePieces id bad r (bs.drop x.2.2)

/-- A write of an object's bytes: the state after it, or none where the object refuses it (R225, R241, R447). -/
def State.objWrite (s : State) (id off : Nat) (bs : List Byte) (bad : Nat := 0) : Option State :=
  match s.alloc? id with
  | none => none
  | some a =>
    if a.accepts off bs.length then s.writePieces id bad (pagePieces (bs.length / 65536 + 2) off bs.length) bs else none

/-- A write that an object accepts waits for a line (R10, R286). -/
def State.objWaits (s : State) (id off n : Nat) : Bool :=
  (s.alloc? id).any fun a => a.accepts off n && s.storeWaits a off n

/-- The upload write queue of 256 KiB has room for `n` bytes (R245). -/
def State.uploadRoom (s : State) (n : Nat) : Bool := decide (s.rd CAL.UPQ.f + n ≤ 262144)

/-- Bytes of an upload or a broadcast enter the upload write queue, which the LOAD turns drain (R243, R245). The model
applies them to memory at once. -/
def State.uploaded (s : State) (n : Nat) : State := s.wr CAL.UPQ.f (s.rd CAL.UPQ.f + n)

/-! The build of the SYSTEM area (R218, R221, R275, R282, R283). -/

/-- The transfer rate in MT/s of a channel in service, zero for another. -/
def State.chanRate (s : State) (n : Nat) : Nat :=
  if s.flag (DDR.UP.f n) then
    match s.rd (DDR.STAT_RATE.f n) with
    | 1 => 4800
    | 2 => 5600
    | 3 => 6400
    | _ => 0
  else 0

/-- VBUDGET in units of 0.1 GB/s (R221). -/
def State.vbudget (s : State) : Nat :=
  let sum := ((List.range 12).map s.chanRate).foldl (· + ·) 0
  if s.opt == .b then 2000 * sum / (8 * 6400) else 3200 * sum / (12 * 6400)

/-- The ranks of channel n that a cold start takes into use (R253, R256). -/
def State.ranksInUse (s : State) (n : Nat) : Nat :=
  (List.range 4).foldl (fun m r => putBit m r
    (bitOf (s.rd (DDR.STAT_RANKS.f n)) r && !bitOf (s.rd (DDR.CFG_EXCL.f n)) r &&
      !(s.flag (DDR.CFG_SPARE_EN.f n) && s.rd (DDR.CFG_SPARE.f n) == r))) 0

/-- The tables that a cold start drops: the state and the counters of lines, which bytes were written, and the tree
with its cache and root. -/
def droppedTab (key : Nat) : Bool :=
  let i := key / 2 ^ 48
  (decide (16 ≤ i) && decide (i ≤ 19)) || (decide (36 ≤ i) && decide (i ≤ 39))

/-- Calico's memory without an allocation, a poisoned line or a bad node, its bytes reading zero (R218). -/
def State.dropPages (s : State) : State :=
  { s with
    dir := [], dirCopy := [], pzList := [], badNodes := []
    mem := s.mem.filter fun c => decide (c.1 < 2 ^ 48)
    tabs := s.tabs.filter fun e => !droppedTab e.1 }

/-- The pages of the SYSTEM area behind the metadata region, from the pages in use: page tables in 8 KiB each, two for
each allocation that the directory holds and one for every 1,024 pages more; the directory copy and the free-page map,
whose size is free (log entry 37). -/
def systemPages (used : Nat) : Nat := 4096 + used / 8192 + Config.systemPages used

/-- A cold start builds the SYSTEM area: the ranks in use are chosen, the encryption layer starts afresh under a new key
of key ID 0, and every allocation is gone. -/
def State.coldBuild (s : State) : State :=
  let s := s.forUpTo 12 fun s n =>
    let t := ((s.wr (DDR.USE.f n) (if s.flag (DDR.UP.f n) then s.ranksInUse n else 0)).wr (CAL.ROT_RANK.f n) 0).wr
      (DDR.SPARE_ACT.f n) (s.rd (DDR.CFG_SPARE.f n) + 4 * s.rd (DDR.CFG_SPARE_EN.f n))
    t.setFlag (DDR.LOST.f n) false
  let s := s.dropPages
  let used := s.pagesInUse
  let md := (used * 33 + 255) / 256
  let sys := min used (md + systemPages used)
  let s := (((s.wr CAL.SYS_MD.f md).wr CAL.SYS_PAGES.f sys).wr CAL.PAGES_TOTAL.f (used - sys)).wr CAL.ROT.f 0
  let s := ((s.draw.wr ENC.KEYV.f 1).wr ENC.RKPEND.f 0).wr (ENC.KEY.f 0) (Config.keyDraw s.free)
  let s := s.forUpTo 16 fun s k => s.wr (ENC.GEN.f k) 0
  let s := (s.wr ENC.MAJ_TOP.f 0).wr ENC.CTR_TOP.f 0
  (s.setFlag ENC.TENANT.f (s.hasTenant && s.flag ENC.CFG_TENANT.f)).wr ENC.LEVELS.f
    (treeLevels 16 ((used - md) * 16))

/-- A warm restart or a wake takes the root from Chiffon and the directory from its copy; the users of what was being
deleted are gone (R218, R226, R284). -/
def State.warmBuild (s : State) : State := s.rootRestore.withDir (s.dirCopy.filter fun e => e.2.st != 5)

/-- The directory is valid: at a cold start after the build, at a warm restart or a wake as it was kept; the budget is
computed and READY is set. -/
def State.calicoReady (s : State) : State :=
  let s := if s.flag CAL.KEEP.f then s.warmBuild else s.coldBuild
  ((s.wr CAL.VBUDGET.f s.vbudget).setFlag CAL.KEEP.f true).setFlag CAL.READY.f true

end Sys2Proof.Machine
end

