-- ==== Sys2Proof/Machine/Calico.lean ====
section
/-! DEFINITION. Calico's commands and the object lifecycle (R222 to R229), requests and admission (R230 to R235), the
fill (R236), and the re-upload list (R241). Log entries 32, 33, 34, 35, 36, 37 and 38. -/

namespace Sys2Proof.Machine

/-! Commands (R222 to R226). -/

/-- The arguments of a command. -/
structure CalCmd where
  id : Nat
  size : Nat
  kind : Nat
  key : Nat

def State.calCmd (s : State) : CalArgs → CalCmd
  | .regs =>
    { id := s.rd CAL.CMD_ID.f, size := s.rd CAL.CMD_SIZE_LO.f + s.rd CAL.CMD_SIZE_HI.f * 2 ^ 32,
      kind := s.rd CAL.CMD_KIND.f, key := s.rd CAL.CMD_KEY.f }
  | .msg id size kind key => { id := id.toNat, size := size.toNat, kind := kind.toNat, key := key.toNat }

/-- The outcome and the output words of a command, in CAL_CMD_STAT and CAL_CMD_OUT, or on the path of SLP and Tweed. -/
def State.calEnd (s : State) (a : CalArgs) (code : Nat) (outs : List Nat) : State :=
  match a with
  | .regs => ((s.forUpTo 8 fun s k => s.wr (CAL.CMD_OUT.f k) (outs.getD k 0)).wr CAL.CMD_STAT_CODE.f code).pulse 1235
  | .msg .. => ((s.forUpTo 8 fun s k => s.wr (CAL.X_OUT.f k) (outs.getD k 0)).wr CAL.X_CODE.f code).pulse 1235

/-- A command is executed while the directory is valid; the one in the registers leaves CMD_BUSY clear (R222). -/
def State.calDo (s : State) (a : CalArgs) (ops : List Nat) (f : State → CalCmd → State) : State :=
  match a with
  | .regs =>
    if s.flag CAL.READY.f && ops.contains (s.rd CAL.CMD_OP.f) then f (s.setFlag CAL.CMD_BUSY.f false) (s.calCmd a) else s
  | .msg .. => if s.flag CAL.READY.f then f s (s.calCmd a) else s

/-- Calico's clocks run: its peripheral clock is enabled and the MEM island is locked. -/
def State.calRuns (s : State) : Bool := !s.gated .cal && s.bit CLK.LK.f 3

/-- A command comes from the registers, where it waits since CMD_GO was written or CMD_GO is written now with its code
in OP, or in a message. -/
def State.calRun (s : State) (a : CalArgs) (ops : List Nat) (f : State → CalCmd → State) : State :=
  match a with
  | .regs =>
    if s.flag CAL.CMD_BUSY.f then (if s.calRuns then s.calDo a ops f else s)
    else s.reach (CAL.CMD_GO.f.sets 1) .cal fun s => s.calDo a ops f
  | .msg .. => s.calDo a ops f

/-- A write of 1 to CMD_GO: CMD_BUSY is set until the command is executed; the write is ignored while it is set, and
while no directory is valid (R219, R222). -/
def State.writeCmdGo (s : State) : State := if s.flag CAL.READY.f then s.setFlag CAL.CMD_BUSY.f true else s

/-- A command register keeps its value while a command is executed (R222). -/
def State.writeCmdReg (s : State) (f : Fld) (x : Nat) : State := if s.flag CAL.CMD_BUSY.f then s else s.wr f x

/-- KEY is valid in the key mode in force (R217, R278). -/
def State.calKeyOk (s : State) (k : Nat) : Bool := if s.flag ENC.TENANT.f then s.keyLoaded k else k == 0

/-- A size in whole pages. -/
def pagesOf (size : Nat) : Nat := (size + 65535) / 65536

/-- What a new allocation's size, key, directory entry and pages answer, in that order. -/
def State.allocCheck (s : State) (c : CalCmd) : Option Nat :=
  if c.size = 0 || 2 ^ 36 < c.size then some 7
  else if !s.calKeyOk c.key then some 8
  else if 16384 ≤ s.allocCount then some 5
  else if s.pagesFree < pagesOf c.size then some 4
  else none

/-- A new allocation enters the directory with its pages. -/
def State.newAlloc (s : State) (id kind st : Nat) (c : CalCmd) : Option State :=
  let n := pagesOf c.size
  let sl := freeSlots s.usedSlots (1 + (n + 1023) / 1024)
  (s.takePages s.usedPages n).map fun x => x.1.draw.setAlloc id
    { kind := kind, size := n * 65536, key := c.key, st := st, root := sl.headD 0, tables := tablesOf c.key sl.tail x.2,
      epoch := x.1.free }

/-- CREATE (R223). -/
def State.create (s : State) (a : CalArgs) (c : CalCmd) : State :=
  if c.kind != 0 then s.calEnd a 9 []
  else if c.id = 0 || 0x80000000 ≤ c.id || (s.alloc? c.id).isSome then s.calEnd a 1 []
  else
    match s.allocCheck c with
    | some e => s.calEnd a e []
    | none => (s.newAlloc c.id 0 1 c).elim (s.calEnd a 4 []) fun t => t.calEnd a 0 []

def execCreate (a : CalArgs) (s : State) : Out := done (s.calRun a [1] fun s c => s.create a c)

/-- An ID of the range of ALLOC that names no allocation, from one drawn (R215). -/
def State.freeId (s : State) : Option Nat :=
  (findPage (fun i => (s.alloc? (0x80000000 + i)).isNone) 0x7FFFFFFF 16385 (Config.allocId s.free % 0x7FFFFFFF)).map
    fun i => 0x80000000 + i

/-- ALLOC (R223). -/
def State.allocNew (s : State) (a : CalArgs) (c : CalCmd) : State :=
  if c.kind = 0 || 6 < c.kind then s.calEnd a 9 []
  else
    match s.allocCheck c with
    | some e => s.calEnd a e []
    | none =>
      match s.freeId with
      | none => s.calEnd a 5 []
      | some id => (s.draw.newAlloc id c.kind 6 c).elim (s.calEnd a 4 []) fun t => t.calEnd a 0 [id]

def execAlloc (a : CalArgs) (s : State) : Out := done (s.calRun a [2] fun s c => s.allocNew a c)

/-- The header of an object breaks R126. -/
def State.headerBad (s : State) (a : Alloc) : Bool :=
  let h := s.objHeader a
  let w1 := s.allocRead a 4 4
  s.allocRead a 0 4 != 0x54574C31 || h.width == 0 || decide (128 < h.width) || bits w1 8 8 != 0 || bits w1 29 3 != 0 ||
    decide (4096 < h.dictN) || decide (2 ^ 32 < h.bodyWords) || decide (h.bodyWords ≤ h.entry) ||
    s.allocRead a 16 4 / 64 != 0 || ((List.range 11).any fun i => s.allocRead a (20 + 4 * i) 4 != 0) ||
    decide (a.size < h.stored)

/-- SEAL (R225). A header that reads as poison marks its page, so that the command answers as for a marked page (R241).
-/
def State.seal (s : State) (x : CalArgs) (c : CalCmd) : State :=
  match s.alloc? c.id with
  | none => s.calEnd x 2 []
  | some a =>
    if a.kind != 0 || a.st != 1 || !a.marked.isEmpty || a.allpois then s.calEnd x 3 []
    else if s.allocPoison a 0 64 then (s.pageMark c.id 0).calEnd x 3 []
    else if s.headerBad a then s.calEnd x 6 []
    else (s.setAlloc c.id { a with st := 2, pos := 0 }).calEnd x 0 []

def execSeal (a : CalArgs) (s : State) : Out := done (s.calRun a [3] fun s c => s.seal a c)

/-- DELETE (R226). -/
def State.delete (s : State) (x : CalArgs) (c : CalCmd) : State :=
  match s.alloc? c.id with
  | none => s.calEnd x 2 []
  | some a =>
    if a.st = 5 then s.calEnd x 3 []
    else ((s.setAlloc c.id { a with st := 5 }).freeDeleted).calEnd x 0 []

def execDelete (a : CalArgs) (s : State) : Out := done (s.calRun a [4] fun s c => s.delete a c)

/-- RESLIM in bytes (R220). -/
def State.reslim (s : State) : Nat := min 16 (s.rd CAL.CTRL_RESLIM.f) * 2 ^ 20

/-- The output words of QUERY (R225). -/
def State.queryOut (s : State) (a : Alloc) : List Nat :=
  [a.st + a.kind * 16 + a.key * 256, a.size % 2 ^ 32, a.size / 2 ^ 32] ++
    if a.stored = 0 then []
    else [a.bpv, a.tsmask % 2 ^ 32, a.tsmask / 2 ^ 32, a.pfx,
      b2n (a.stored ≤ s.reslim) + b2n a.stream * 2 + b2n a.allpois * 4 + a.marked.length * 4096]

/-- QUERY (R225). -/
def State.query (s : State) (x : CalArgs) (c : CalCmd) : State :=
  match s.alloc? c.id with
  | none => s.calEnd x 2 []
  | some a => s.calEnd x 0 (s.queryOut a)

def execQuery (a : CalArgs) (s : State) : Out := done (s.calRun a [5] fun s c => s.query a c)

def execCalCmdInvalid (a : CalArgs) (s : State) : Out :=
  done (s.calRun a [0, 6, 7, 8, 9, 10, 11, 12, 13, 14, 15] fun s _ => s.calEnd a 9 [])

/-- The command whose code OP holds is executed (R222, R223). -/
def State.calGoCmd (s : State) : State :=
  match s.rd CAL.CMD_OP.f with
  | 1 => s.calDo .regs [1] fun s c => s.create .regs c
  | 2 => s.calDo .regs [2] fun s c => s.allocNew .regs c
  | 3 => s.calDo .regs [3] fun s c => s.seal .regs c
  | 4 => s.calDo .regs [4] fun s c => s.delete .regs c
  | 5 => s.calDo .regs [5] fun s c => s.query .regs c
  | n => s.calDo .regs [n] fun s _ => s.calEnd .regs 9 []

/-- Calico acts: its directory is valid and its clocks run. -/
def State.calServes (s : State) : Bool := s.flag CAL.READY.f && s.calRuns

/-- The command that waits in the registers is executed in time. -/
def State.calTick (s : State) : State := if s.flag CAL.CMD_BUSY.f && s.calServes then s.calGoCmd else s

/-- The scan has `n` lines from line `i` on to read: the first that reads as poison marks its page, which ends the scan
with the object in LOADING (R241); with none the profile is kept and the object is READY (R225). -/
def State.scanRest (s : State) (id : Nat) (a : Alloc) (i n : Nat) : State :=
  match ((List.range n).map (i + ·)).find? fun l => s.allocPoison a (64 * l) 64 with
  | some l => s.pageMark id (l / 1024)
  | none => s.setAlloc id { (s.profiled a) with st := 3 }

/-- The lines of an object that its scan reads. -/
def State.scanLines (s : State) (a : Alloc) : Nat := ((s.objHeader a).stored + 63) / 64

/-- The scan reads the stored bytes that it has not read yet. -/
def execScanEnd (id : Word) (s : State) : Out :=
  done (match s.alloc? id.toNat with
    | none => s
    | some a =>
      if a.st != 2 || s.loadWaits a (64 * a.pos) (64 * (s.scanLines a - a.pos)) then s
      else s.scanRest id.toNat a a.pos (s.scanLines a - a.pos))

/-- The zero-fill of an allocation writes the lines that it has not written yet. -/
def execZeroFillEnd (id : Word) (s : State) : Out :=
  done (match s.alloc? id.toNat with
    | none => s
    | some a =>
      if a.st != 6 || s.storeWaits a (64 * a.pos) (a.size - 64 * a.pos) then s
      else (s.zeroFrom a a.pos).setAlloc id.toNat { a with st := 3, pos := 0 })

/-! Requests and admission (R230 to R235). -/

/-- Demand, fill claim and quota of a request (R232), in units of 0.1 GB/s and in granules. -/
structure Demand where
  d : Nat
  dfill : Nat
  q : Nat

/-- x ÷ y, rounded up. -/
def ceilDiv (x y : Nat) : Nat := (x + y - 1) / y

/-- pmin: the shortest period of the object's time-sets, in units of 0.25 ps. -/
def State.pmin (s : State) (q tsmask : Nat) : Nat :=
  (List.range 64).foldl (fun m k => if bitOf tsmask k then min m (s.period q k) else m) 262144000

/-- The object is resident at this moment (R227). -/
def State.resident (s : State) (a : Alloc) : Bool := decide (a.stored ≤ s.reslim)

def State.demandOf (s : State) (q : Nat) (a : Alloc) : Demand :=
  let fm := 10 * max 1 (s.rd CAL.CTRL_FILLMIN.f)
  if s.resident a then { d := 0, dfill := fm, q := ceilDiv a.stored 65536 }
  else
    let p := s.pmin q a.tsmask
    let n := max (ceilDiv 512000000 p) 32768
    let d := ceilDiv (a.bpv * 10000) (64 * p)
    { d := d, dfill := max d fm, q := ceilDiv (a.bpv * n + a.pfx * 256) (65536 * 256) + 17 }

/-- The object of a request port, if it names one. -/
def State.rqObject (s : State) (p : Nat) : Option Alloc :=
  (s.alloc? (s.rd (CAL.RQ_OBJ.f p))).filter fun a => a.kind == 0

/-- The REASON for which a request is refused now, if any; the lowest that applies (R231). -/
def State.refuseReason (s : State) (p : Nat) : Option Nat :=
  match s.rqObject p with
  | none => some 1
  | some a =>
    if a.st = 1 || a.st = 2 || a.st = 5 then some 2
    else if a.st = 4 then some 3
    else
      match s.siteOwner (s.rd (CAL.RQ_SITE.f p)) with
      | none => some 4
      | some (q, _) =>
        let x := s.demandOf q a
        if s.rd CAL.VBUDGET.f < x.dfill || 1024 < x.q then some 5
        else if !s.resident a && !a.stream then some 6
        else if !s.keyLoaded a.key then some 7
        else none

/-- A request is refused: LAST 2 and REASON, and HELD clears (R231). -/
def State.requestRefuse (s : State) (p reason : Nat) : State :=
  (((s.setBit CAL.HELD.f p false).wr (CAL.RQ_STAT_LAST.f p) 2).wr (CAL.RQ_STAT_REASON.f p) reason).pulse (1216 + p)

/-- A write of 1 to a bit of POST (R230). -/
def State.postPort (s : State) (p : Nat) : State :=
  if !s.flag CAL.READY.f then s
  else if s.bit CAL.HELD.f p then s.setBit CAL.COLL.f p true
  else
    let s := (((s.setBit CAL.HELD.f p true).wr (CAL.RQ_ORD.f p) (s.rd CAL.ORD.f)).inc CAL.ORD.f).wr (CAL.RQ_T.f p) s.time
    match s.refuseReason p with
    | some r => s.requestRefuse p r
    | none => s

def execPost (p : ReqPort) (s : State) : Out := done (s.reach (CAL.POST.f.sets (2 ^ p.val)) .cal fun s => s.postPort p)

/-- A write to OBJ, SITE or CTX of a port: ignored while the port holds a request, which sets COLL (R230). -/
def State.writeRq (s : State) (p : Nat) (f : Fld) (x : Nat) : State :=
  if s.bit CAL.HELD.f p then s.setBit CAL.COLL.f p true else s.wr f x

/-- A write of 1 to a bit of WDRAW (R230). -/
def State.withdrawPort (s : State) (p : Nat) : State :=
  if s.bit CAL.HELD.f p then ((s.setBit CAL.HELD.f p false).wr (CAL.RQ_STAT_LAST.f p) 3).pulse (1216 + p) else s

def execWdraw (p : ReqPort) (s : State) : Out := done (s.reach (CAL.WDRAW.f.sets (2 ^ p.val)) .cal fun s => s.withdrawPort p)

def execCollRel (p : ReqPort) (s : State) : Out :=
  done (s.reach (CAL.COLL_REL.f.sets (2 ^ p.val)) .cal fun s => s.setBit CAL.COLL.f p false)

/-- CAL_VUSED: the sum of the claims (R232). -/
def State.vused (s : State) : Nat := ((List.range 16).map fun q => s.rd (CAL.SQ_BW_CLAIM.f q)).foldl (· + ·) 0

/-- CAL_BUFUSED: the sum of the quotas (R232). -/
def State.bufused (s : State) : Nat := ((List.range 16).map fun q => s.rd (CAL.SQ_BW_GRAN.f q)).foldl (· + ·) 0

/-- The sites of the groups of a sequencer that are enabled in force, with their groups. -/
def State.runSites (s : State) (q : Nat) : List (Nat × Nat) :=
  ((List.range 8).filter fun g => s.flag (TWL.GF_EN.f q g)).map fun g => (g, s.rd (TWL.GF_SITE.f q g))

/-- A request posted earlier is held and has been held for more than AGE µs; with AGE 0 any earlier one (R220, R233). -/
def State.agedBefore (s : State) (p : Nat) : Bool :=
  (List.range 16).any fun o =>
    s.bit CAL.HELD.f o && decide (s.rd (CAL.RQ_ORD.f o) < s.rd (CAL.RQ_ORD.f p)) &&
      (s.rd CAL.CTRL_AGE.f == 0 || decide (s.rd (CAL.RQ_T.f o) + s.rd CAL.CTRL_AGE.f * 1000 < s.time))

/-- R233 holds for the request of port p on sequencer q. -/
def State.admits (s : State) (p q : Nat) (x : Demand) : Bool :=
  s.rd (TWL.STATE_STATE.f q) == 0 && s.flag TIM.CAL_DONE.f && s.bit CLK.EN.f 5 && !s.flag CLK.TWL_OFF.f &&
    !s.dramHeld &&
    !((s.runSites q).any fun g => s.siteFlag DMK.BMAP_BUSY g.2) && !s.lookLow &&
    decide (s.vused + x.dfill ≤ s.rd CAL.VBUDGET.f) && decide (s.bufused + x.q ≤ 1024) && !s.agedBefore p

/-- A run of sequencer `q` that starts now feeds the session: it is bound to it, its close has not been asked for, and
with AUTOCLOSE no run has fed it yet (R206). -/
def RaSession.takesRun (u : RaSession) (q : Nat) : Bool := u.seq == q && !u.searching && !u.closing && !(u.autoclose && u.fed)

/-- The burst of a group with what its site's configuration holds (R189, R206). -/
def State.newBurst (s : State) (q g site ctx bseq : Nat) : Burst :=
  { grp := g, site := site, bseq := bseq, ctx := ctx, ring := s.flag (DMK.SITE_CFG_RING_EN.f site),
    ringBad := s.ringBad site, ringId := s.rd (DMK.RING_ID.f site), rspace := s.flag (DMK.SITE_CFG_RSPACE.f site),
    bmap := s.flag (DMK.SITE_CFG_BMAP_EN.f site) && !s.bmapBad site, bmapId := s.rd (DMK.BMAP_ID.f site),
    xw := s.rd (DMK.BMAP_GEOM_XW.f site), yw := s.rd (DMK.BMAP_GEOM_YW.f site), zw := s.rd (DMK.BMAP_GEOM_ZW.f site),
    db := s.rd (DMK.BMAP_GEOM_DB.f site), space := s.flag (DMK.BMAP_GEOM_SPACE.f site),
    ra := s.sessions.any fun e => e.2.takesRun q && bitOf e.2.gmask g }

/-- The repair sessions bound to a sequencer, as a mask of units. -/
def State.boundUnits (s : State) (q : Nat) : Nat :=
  s.sessions.foldl (fun m e => if e.2.takesRun q then putBit m e.1 true else m) 0

/-- The run that starts feeds the sessions of a mask of units (R206). -/
def State.feedUnits (s : State) (units : Nat) : State :=
  s.withSessions (s.sessions.map fun (e : Nat × RaSession) =>
      if bitOf units e.1 then (e.1, { e.2 with fed := true }) else e)

/-- The channels of a run start their counts afresh, and their injection FIFOs are emptied (R184, R357). -/
def State.startChannels (s : State) (q : Nat) : State :=
  (s.owned q).foldl (fun s c =>
    (((s.wr (DMK.FCNT.f c) 0).wr (DMK.FFAIL.f c) 0xFFFFFFFFFFFF).wr (DMK.SIG.f c) 0).withInj (s.inj.del c)) s

/-- The sequencer's registers at its assignment (R144). -/
def State.startSeq (s : State) (q obj tset0 : Nat) : State :=
  let s := (((s.wr (TWL.STATE_STATE.f q) 1).wr (TWL.OBJ.f q) obj).wr (TWL.STATE_TSET.f q) tset0).setVcnt q 0
  let s := (((s.wr (TWL.STATE_SP.f q) 0).wr (TWL.FAIL.f q) 0).wr (TWL.DET.f q) 0).wr (TWL.MTO.f q) 0
  s.forUpTo 8 fun s k => s.wr (TWL.LC.f q k) 0

/-- ADMIT (R123, R144, R155, R189, R206, R235). -/
def State.admitRun (s : State) (p q obj : Nat) (a : Alloc) (x : Demand) : State :=
  let h := s.objHeader a
  let site := s.rd (CAL.RQ_SITE.f p)
  let gs := s.runSites q
  let bursts := gs.map fun g => s.newBurst q g.1 g.2 (s.rd (CAL.RQ_CTX.f p)) (s.rd (CAL.BSEQ_NEXT.f g.2))
  let units := s.boundUnits q
  let s := s.wr (CAL.RQ_BSEQ.f p) (s.rd (CAL.BSEQ_NEXT.f site))
  let s := gs.foldl (fun s g => s.inc (CAL.BSEQ_NEXT.f g.2)) s
  let s := ((s.startSeq q obj h.tset0).wr (TWL.LINE.f q) h.entry).startChannels q
  let s := match s.apgOf q with
    | none => s
    | some g => s.apgAssign g
  let s := s.setRun q
    { obj := obj, hdr := h, demand := x.d, res := s.resident a, need := none, hof := hofMode (s.rd (TWL.CTRL_HOF.f q)),
      front := h.entry, raUnits := units, bursts := bursts }
  let s := s.feedUnits units
  let s := ((s.wr (CAL.SQ_OBJ.f q) obj).wr (CAL.SQ_BW_CLAIM.f q) x.dfill).wr (CAL.SQ_BW_GRAN.f q) x.q
  let s := (s.setBit CAL.HELD.f p false).wr (CAL.RQ_STAT_LAST.f p) 1
  (s.wr (CAL.RQ_STAT_SEQ.f p) q).pulse (1216 + p)

/-- Insert a port in ascending order of post. -/
def insertPort (ord : Nat → Nat) (p : Nat) : List Nat → List Nat
  | [] => [p]
  | x :: r => if ord p < ord x then p :: x :: r else x :: insertPort ord p r

/-- The ports that hold a request, the oldest first. -/
def State.heldPorts (s : State) : List Nat :=
  ((List.range 16).filter fun p => s.bit CAL.HELD.f p).foldl
    (fun l p => insertPort (fun o => s.rd (CAL.RQ_ORD.f o)) p l) []

/-- The recheck of a held request (R234). -/
def State.recheckPort (s : State) (p : Nat) : State :=
  match s.refuseReason p with
  | some r => s.requestRefuse p r
  | none => s

/-- The decision on one held request (R233). -/
def State.decidePort (s : State) (p : Nat) : State :=
  match s.rqObject p, s.siteOwner (s.rd (CAL.RQ_SITE.f p)) with
  | some a, some (q, _) =>
    let x := s.demandOf q a
    if s.bit CAL.HELD.f p && s.admits p q x then s.admitRun p q (s.rd (CAL.RQ_OBJ.f p)) a x else s
  | _, _ => s

/-- One decision: every held request is checked again, then each that passes is admitted, in age order (R233, R234). -/
def State.decideAll (s : State) : State :=
  let s := s.heldPorts.foldl (fun s p => s.recheckPort p) s
  s.heldPorts.foldl (fun s p => s.decidePort p) s

def execAdmissionDecision (s : State) : Out := done (if s.calServes then s.decideAll else s)

/-- A decision is made in time too, while a port holds a request. -/
def State.decideTick (s : State) : State := if s.rd CAL.HELD.f != 0 && s.calServes then s.decideAll else s

/-! The fill (R236). -/

/-- Calico fills the buffer of a sequencer: a resident object whole, else the header, the dictionary, the prefix and
d × 128 µs of the body from ENTRY on. -/
def State.fill (s : State) (q : Nat) (r : SeqRun) : State := s.fetchAll q r.hdr.entry (r.hdr.stored / 64 + 2)

/-- The fill is complete. -/
def SeqRun.filled (r : SeqRun) : Bool := decide (r.fetchGoal r.hdr r.hdr.entry ≤ 64 * r.arrived)

/-- FILL_COMPLETE: a wrong width ends the run (R144), a header that was read as poison ends it as a poisoned line does,
and else the sequencer issues vector 0 next. -/
def State.fillComplete (s : State) (q : Nat) (r : SeqRun) : State :=
  let h := ObjHeader.of (s.bufByte q)
  if s.bufPois q 0 then s.endRun q 0xA r.hdr.entry
  else if h.width != s.rd (TWL.MAPW.f q) then s.endRun q 7 h.entry
  else
    ((s.timingStart q).mapRun q fun r => { r with hdr := h, need := some h.entry }).wr (TWL.STATE_STATE.f q) 2

def execFillComplete (q : SeqId) (s : State) : Out :=
  done (match s.run? q with
    | none => s
    | some r =>
      if s.rd (TWL.STATE_STATE.f q) != 1 then s
      else
        let s := s.fill q r
        match s.run? q with
        | none => s
        | some r => if r.filled then s.fillComplete q r else s)

/-! The re-upload list (R219, R241). -/

def State.pzNext (s : State) : State := s.withPzList (s.pzList.drop 1)

def execPzNext (s : State) : Out := done (s.reach (CAL.PZ_NEXT.f.sets 1) .cal State.pzNext)

def execPzOvfRel (s : State) : Out :=
  done (s.reach (CAL.PZ_OVF_REL.f.sets 1) .cal fun s => s.setFlag CAL.PZ_OVF.f false)

end Sys2Proof.Machine
end

