-- ==== Sys2Proof/Machine/Dram.lean ====
section
/-! DEFINITION. The DRAM channels (R247 to R273): bring-up, requests, reads, refresh, self-refresh and rank retirement;
and the check of a read line by the encryption layer (R289, R292). Log entries 39, 40, 41 and 42. -/

namespace Sys2Proof.Machine

/-! Bring-up (R248 to R250). -/

/-- The channel is present in the option, and this start has not brought it up or refused it yet. -/
def State.chanAwaits (s : State) (n : Nat) : Bool :=
  s.dieOn && s.hasDc n && !s.flag (DDR.UP.f n) && !s.flag (DDR.REFUSED.f n)

/-- A channel is refused (R249). -/
def State.refuseChannel (s : State) (n reason ranks : Nat) : State :=
  ((s.setFlag (DDR.REFUSED.f n) true).wr (DDR.STAT_REASON.f n) reason).wr (DDR.STAT_FAILRANK.f n) ranks

/-- The SPD copy of a channel: word w holds the image of slot w div 256. -/
def State.loadSpd (s : State) (n : Nat) (r : SpdReport) : State :=
  let word := fun (x : Option SlotReport) (w : Nat) => (x.elim 0 fun y => y.spd.getD w 0).toNat
  s.forUpTo 512 fun s w => s.setTab DDR.spd n w (word (if w < 256 then r.slot0 else r.slot1) (w % 256))

/-- The ranks that a slot reports, numbered from `base`. -/
def slotRanks (base : Nat) (x : Option SlotReport) : List (Nat × RankReport) :=
  match x with
  | none => []
  | some r => (List.range r.ranks.length).zip r.ranks |>.map fun e => (base + e.1, e.2)

/-- The ranks of a channel: 0 and 1 lie in slot 0, 2 and 3 in slot 1 (log entry 39). -/
def spdList (r : SpdReport) : List (Nat × RankReport) := slotRanks 0 r.slot0 ++ slotRanks 2 r.slot1

/-- A mask of rank numbers. -/
def rankMask (l : List Nat) : Nat := l.foldl (fun m r => if r < 4 then putBit m r true else m) 0

/-- The ranks that meet a condition, as a mask. -/
def spdThose (r : SpdReport) (p : RankReport → Bool) : Nat := rankMask (((spdList r).filter fun e => p e.2).map Prod.fst)

/-- The ranks of slots whose module type R247 does not list. -/
def spdForeign (r : SpdReport) : Nat :=
  let bad := fun (x : Option SlotReport) => x.any fun y => y.typ == .other
  rankMask ((if bad r.slot0 then (slotRanks 0 r.slot0).map Prod.fst else []) ++
    if bad r.slot1 then (slotRanks 2 r.slot1).map Prod.fst else [])

/-- The ranks that differ from the first in density or stacking, and so in rank size. -/
def spdDiffering (r : SpdReport) : Nat :=
  match spdList r with
  | [] => 0
  | x :: _ => spdThose r fun y => y.gb != x.2.gb || (y.high == 2) != (x.2.high == 2)

/-- More ranks than the channel or a slot of it may have (R247, R249). -/
def spdTooMany (r : SpdReport) : Bool :=
  decide (4 < (spdList r).length) || [r.slot0, r.slot1].any fun x => x.any fun y => decide (2 < y.ranks.length)

/-- The ranks that cause each REASON from 1 to 9, in order; none where its condition does not hold (R249). -/
def spdCauses (r : SpdReport) : List (Option Nat) :=
  let named := fun (m : Nat) => if m = 0 then none else some m
  [named (spdThose r fun x => x.width != 4), named (spdThose r fun x => x.sub != 40),
    named (spdThose r fun x => x.gb != 16 || decide (2 < x.high.toNat)), named (spdThose r fun x => decide (350 < x.trfc1.toNat)),
    named (spdThose r fun x => !x.rates.getLsbD 0), named (spdForeign r), named (spdThose r fun x => !x.trained), named (spdDiffering r),
    if spdTooMany r then some (spdThose r fun _ => true) else none]

/-- The refusal of a channel: REASON and FAILRANK. Where several conditions hold, the one with the lowest number is
given (DESIGN CHOICE, log entry 39). -/
def spdRefusal (r : SpdReport) : Option (Nat × Nat) :=
  (List.range 9).findSome? fun i => ((spdCauses r).getD i none).map fun m => (i + 1, m)

/-- The code of the highest data rate that every rank supports (R248). -/
def spdRate (r : SpdReport) : Nat :=
  let all := fun (i : Nat) => (spdList r).all fun e => e.2.rates.getLsbD i
  if all 2 then 3 else if all 1 then 2 else if all 0 then 1 else 0

/-- RSIZE: 32 GiB, or 64 GiB of a two-high stack (R247). -/
def spdRsize (r : SpdReport) : Nat := if (spdList r).any fun e => e.2.high == 2 then 6 else 5

/-- What a fitted channel's status shows of its discovery. -/
def State.showSpd (s : State) (n : Nat) (r : SpdReport) : State :=
  (((s.setFlag (DDR.FITTED.f n) true).wr (DDR.STAT_RANKS.f n) (spdThose r fun _ => true)).wr (DDR.STAT_RATE.f n) (spdRate r)).wr
    (DDR.STAT_RSIZE.f n) (spdRsize r)

/-- At a cold start; without a rank the channel is not fitted. -/
def execChannelTrained (dc : DcId) (r : SpdReport) (s : State) : Out :=
  done (if s.chanAwaits dc && s.rd CFG.STATE_START.f == 0 then
    let s := s.loadSpd dc r
    if (spdList r).isEmpty then s
    else
      let s := s.showSpd dc r
      match spdRefusal r with
      | some x => s.refuseChannel dc x.1 x.2
      | none => (s.setFlag (DDR.UP.f dc) true).setFlag (DDR.TRAINED.f dc) true
  else s)

/-- A channel comes back at a warm restart or a wake from the training results that Chiffon kept; `failed` are the
ranks whose write-read check fails, with which the contents of the channel are lost (R250). -/
def execChannelResumed (dc : DcId) (failed : BitVec 4) (s : State) : Out :=
  done (if s.chanAwaits dc && s.rd CFG.STATE_START.f != 0 && s.flag (DDR.TRAINED.f dc) then
    let bad := failed.toNat &&& s.rd (DDR.STAT_RANKS.f dc)
    if bad = 0 then (s.setFlag (DDR.UP.f dc) true).wr (DDR.RSR.f dc) 0
    else (s.refuseChannel dc 7 bad).setFlag (DDR.LOST.f dc) true
  else s)

/-! Ranks. -/

/-- The retired rank of a channel receives no further command (R272). -/
def State.rankRetired (s : State) (n r : Nat) : Bool :=
  s.flag (DDR.REDIR.f n) && s.flag (DDR.MIG_DONE.f n) && s.rd (DDR.STAT_RETR.f n) == r

/-- The ranks of a channel that receive commands. -/
def State.liveRanks (s : State) (n : Nat) : List Nat :=
  (List.range 4).filter fun r => bitOf (s.rd (DDR.STAT_RANKS.f n)) r && !s.rankRetired n r

/-- The lines of a rank of a channel, and a line's place in its rank in the order of R254. -/
def State.rankLines (s : State) (n : Nat) : Nat := s.rankPages n * 1024
def lineIndex (pa : Nat) : Nat := pa / 2 ^ 22 * 1024 + pa / 64 % 1024

/-- The rank that serves a line: the spare for a line of the retired rank that has been copied (R271). -/
def State.servingRank (s : State) (pa : Nat) : Nat :=
  let n := paChan pa
  if s.flag (DDR.REDIR.f n) && s.rd (DDR.STAT_RETR.f n) == paRank pa && decide (lineIndex pa < s.rd (DDR.MIG_PTR.f n))
  then s.rd (DDR.SPARE_ACT.f n) % 4 else paRank pa

/-- With NRF_EN, an activate triggers a neighbour refresh of its bank by draw; the one that waited has been made before
it (R264). -/
def State.activate (s : State) (n r pa : Nat) : State :=
  let hit := s.flag (DDR.NRF_EN.f n) && Config.neighbourDraw s.free % 2 ^ max 4 (s.rd (DDR.CFG_NRF_N.f n)) == 0
  (if s.flag (DDR.NRF_EN.f n) then s.draw else s).setTab DDR.nbr n (r * 64 + paBank pa)
    (b2n hit * (1 + paDie pa * 65536 + paRow pa))

/-- The die and the rows that the neighbour refresh waiting at a bank activates and precharges: those beside the row,
but for one outside the bank (R264). -/
def State.nbrRows (s : State) (n b : Nat) : List (Nat × Nat) :=
  match s.tab DDR.nbr n b with
  | 0 => []
  | v + 1 =>
    (if 0 < v % 65536 then [(v / 65536, v % 65536 - 1)] else []) ++
      if v % 65536 + 1 < 65536 then [(v / 65536, v % 65536 + 1)] else []

/-- A debt is paid before any further access to its rank (R263). -/
def State.payDebt (s : State) (n r : Nat) : State := s.wr (DDR.DEBT_N.f n r) 0

/-- A rank is accessed at a line: it is out of self-refresh, its debt is paid, and a row is activated. -/
def State.accessRank (s : State) (n r pa : Nat) : State :=
  ((s.setBit (DDR.RSR.f n) r false).payDebt n r).activate n r pa

/-! Requests (R260, R264, R266, R267). -/

/-- The queue of a subchannel, and the requesters that it holds, oldest first. -/
def State.dramQueue (s : State) (n u : Nat) : List DramReq := s.dramQ.get (2 * n + u) []
def State.dramWaiting (s : State) (n u : Nat) : List DramReq := s.dramQ.get (24 + 2 * n + u) []

def State.setDramQueue (s : State) (n u : Nat) (l : List DramReq) : State := s.withDramQ (s.dramQ.set (2 * n + u) l [])
def State.setDramWaiting (s : State) (n u : Nat) (l : List DramReq) : State :=
  s.withDramQ (s.dramQ.set (24 + 2 * n + u) l [])

/-- QFULL of a channel. -/
def State.ddrQfull (s : State) (n : Nat) : Bool := (List.range 2).any fun u => decide (64 ≤ (s.dramQueue n u).length)

/-- The requests queued for a rank. -/
def State.rankQueue (s : State) (n r : Nat) : Nat :=
  ((List.range 2).map fun u => ((s.dramQueue n u).filter fun x => s.servingRank x.pa == r).length).foldl (· + ·) 0

/-- The rank of a line is being redirected, so that its requests wait (R270). -/
def State.rankSetup (s : State) (pa : Nat) : Bool :=
  s.flag (DDR.SETUP.f (paChan pa)) && s.rd (DDR.RETIRING.f (paChan pa)) == paRank pa

/-- The subchannel of a line. -/
def paSub (pa : Nat) : Nat := pa / 64 % 2

/-- A request can enter its queue, but for requests to its line that wait in front of it. -/
def State.dramRoom (s : State) (pa : Nat) : Bool :=
  decide ((s.dramQueue (paChan pa) (paSub pa)).length < 64) && !s.rankSetup pa

/-- A request enters its queue; a rank in idle self-refresh exits for it (R266). -/
def State.dramEnter (s : State) (x : DramReq) : State :=
  let n := paChan x.pa
  (s.setBit (DDR.RSR.f n) (s.servingRank x.pa) false).setDramQueue n (paSub x.pa) (s.dramQueue n (paSub x.pa) ++ [x])

/-- The requesters that a subchannel holds come in, oldest first, as far as they can. -/
def State.dramAdmit (s : State) (n u : Nat) : State :=
  (s.dramWaiting n u).foldl (fun s x =>
    if s.dramRoom x.pa && !(s.dramWaiting n u).any fun y => y.pa / 64 == x.pa / 64 then s.dramEnter x
    else s.setDramWaiting n u (s.dramWaiting n u ++ [x])) (s.setDramWaiting n u [])

/-- A request enters the queue of its subchannel, or holds its requester while the queue is full or its rank is being
redirected. -/
def execDramRequest (pa : BitVec 44) (write : Bool) (s : State) : Out :=
  let x : DramReq := { pa := pa.toNat, write := write }
  let n := paChan x.pa
  let u := paSub x.pa
  done (if n < 12 && s.flag (DDR.UP.f n) then
    if s.dramRoom x.pa && !(s.dramWaiting n u).any fun y => y.pa / 64 == x.pa / 64 then s.dramEnter x
    else s.setDramWaiting n u (s.dramWaiting n u ++ [x])
  else s)

/-! Errors and retirement (R253, R259, R269 to R272). -/

/-- Corrected errors of some rank exceed CETH in the present window. -/
def State.ceTh (s : State) (n : Nat) : Bool :=
  (List.range 4).any fun r => decide (s.rd (DDR.RET_CFG_CETH.f n) < s.rd (DDR.CE_WIN.f n r))

/-- Start the retirement of a rank, or refuse it with its event (R269). -/
def State.retire (s : State) (n r : Nat) : State :=
  if s.rd (DDR.SPARE_ACT.f n) < 4 || s.rd (DDR.SPARE_ACT.f n) % 4 == r || !bitOf (s.rd (DDR.STAT_RANKS.f n)) r ||
      s.flag (DDR.SETUP.f n) || s.flag (DDR.REDIR.f n) then s.pulse (1280 + 16 * n + 10)
  else ((s.setFlag (DDR.SETUP.f n) true).wr (DDR.RETIRING.f n) r).wr (DDR.RSR.f n) 0

def execRetire (dc : DcId) (s : State) : Out :=
  done (s.reach ((DDR.RETIRE.f dc).sets 1) (.ddr dc) fun s => s.retire dc (s.rd (DDR.RET_RANK.f dc)))

/-- The causes of a retirement that stand with AUTO = 1: bit r, the corrected errors of rank r exceed CETH; bit 4 + r,
its uncorrectable errors have reached UETH (R269). -/
def State.autoCauses (s : State) (n : Nat) : Nat :=
  if s.flag (DDR.AUTO.f n) then
    (List.range 4).foldl (fun m r =>
      putBit (putBit m r (decide (s.rd (DDR.RET_CFG_CETH.f n) < s.rd (DDR.CE_WIN.f n r)))) (4 + r)
        (decide (max 1 (s.rd (DDR.RET_CFG_UETH.f n)) ≤ s.rd (DDR.UE_CNT.f n r)))) 0
  else 0

/-- A retirement starts for a cause that has come to stand since the causes were last looked at; a cause that goes on
starts no second one (R269; log entry 40). -/
def State.autoRetire (s : State) (n : Nat) : State :=
  let m := s.autoCauses n
  let old := s.rd (DDR.AUTOD.f n)
  (s.wr (DDR.AUTOD.f n) m).forUpTo 8 fun s i => if bitOf m i && !bitOf old i then s.retire n (i % 4) else s

/-- A corrected error is counted, for the device's life too (R253, R259, R515). -/
def State.correctedError (s : State) (pa r dev : Nat) : State :=
  let n := paChan pa
  let s := ((s.incSat (DDR.CE_CNT.f n r)).wr (DDR.CE_DEV_DEV.f n) dev).wr (DDR.CE_DEV_RANK.f n) r
  let s := ((s.wr (DDR.CE_DEV_SUB.f n) (paSub pa)).incSat (DDR.CE_WIN.f n r)).ledgerInc (0x210 + 4 * (4 * n + r))
  (s.pulse (1280 + 16 * n)).autoRetire n

/-- An uncorrectable error is counted and captured as `kind`, and the line is rewritten with the reserved syndrome
(R259). -/
def State.uncorrectable (s : State) (key pa r kind : Nat) : State :=
  let n := paChan pa
  let s := (((s.incSat (DDR.UE_CNT.f n r)).ddrCapture pa key kind).setWide DDR.pois (pa / 64) 1).activate n r pa
  ((s.ledgerInc (0x211 + 4 * (4 * n + r))).pulse (1280 + 16 * n + 1)).autoRetire n

/-- The 80 bytes of a difference. -/
def errBytes (errs : CodeErrors) : List Nat :=
  (List.range 80).map fun i => errs.foldl (fun v e => if e.1.val = i then v ^^^ e.2.toNat else v) 0

/-- How the word that a read returns differs from the codeword of the line: by the errors, and by the inverted check
bytes of a line that is stored poisoned (R258). -/
def State.readDiff (s : State) (pa : Nat) (errs : CodeErrors) : List Nat :=
  if s.wide DDR.pois (pa / 64) = 1 then xorBytes (errBytes errs) rsReserved else errBytes errs

/-- A write to the line is queued. -/
def State.writeQueued (s : State) (pa : Nat) : Bool :=
  (s.dramQueue (paChan pa) (paSub pa)).any fun x => x.write && x.pa / 64 == pa / 64

/-- What a read hands up: poison, or the line with what is still wrong in its 64 bytes. -/
inductive ReadOut
  | poison
  | line (wrong : List Nat)
  deriving DecidableEq, Repr

/-- One line is read from rank `r` and decoded; `kind` is the KIND under which an uncorrectable line is captured (R259,
R271). -/
def State.decodeRead (s : State) (key pa r kind : Nat) (errs : CodeErrors) : State × ReadOut :=
  let n := paChan pa
  let diff := s.readDiff pa errs
  match rsDecode diff with
  | .clean => (s, .line (diff.take 64))
  | .device d e =>
    let s := s.correctedError pa r d
    (if s.writeQueued pa then s else s.activate n r pa, .line ((xorBytes diff (rsDevice d e)).take 64))
  | .reserved => ((s.ddrCapture pa key 1).pulse (1280 + 16 * n + 3), .poison)
  | .other => (s.uncorrectable key pa r kind, .poison)

/-! The check of a read line (R289, R292). -/

/-- A counter line or a node of the tree fails: it is stored poisoned, every line beneath it becomes unverifiable, and
every key ID with an allocated page beneath it is marked for re-key (R289, R292). -/
def State.nodeFails (s : State) (x : Nat × Nat) : State :=
  let beneath := fun (a : Alloc) =>
    a.pages.any fun pg => (List.range 16).any fun i => s.nodeOf (pg * 65536 + i * 4096) x.1 == x.2
  let s := s.dir.foldl (fun s e => if beneath e.2 then s.setBit ENC.RKPEND.f e.2.key true else s) s
  let s := (s.setWide DDR.pois (s.metaPa x / 64) 1).setWide ENC.cache (treeKey x) 0
  if s.badNodes.contains x then s else s.withBadNodes (s.badNodes ++ [x])

/-- The data line `i` of a line of MACs. -/
def State.macLine (s : State) (m i : Nat) : Nat :=
  s.rotPage (s.rd CAL.SYS_MD.f + m / 128) * 65536 + (m % 128 * 8 + i) * 64

/-- A metadata line that the cache does not hold is read and fails: a counter line or a node as R289 lays down; with
the MAC of a counter line that line fails, and with MACs of data lines those lines fail when they are read. `hit` are
the MACs concerned. -/
def State.metaFails (s : State) (pa : Nat) (x : Nat × Nat) (hit : Nat → Bool) : State :=
  if x.1 = 15 then
    ((List.range 8).filter hit).foldl (fun s i =>
      let l := s.macLine x.2 i / 64
      if s.wide DDR.pois l = 1 then s else s.setWide DDR.pois l 2) (s.storeGood pa)
  else if x.1 = 14 then
    ((List.range 8).filter hit).foldl (fun s i => (s.encCapture pa 0 1 0).nodeFails (0, 8 * x.2 + i)) (s.storeGood pa)
  else if x.1 = 0 then (s.encCapture pa 0 1 0).nodeFails x
  else (s.encCapture pa 0 2 x.1).nodeFails x

/-- Two lines combined. -/
def xorLine (v : Nat) (wrong : List Nat) : Nat := v ^^^ (wrong.foldr (fun b n => b + 256 * n) 0)

/-- A metadata line is read with bytes that are wrong: a counter line or a node whose MAC no longer fits fails, and
MACs that are wrong no longer fit their lines (R289). -/
def State.metaWrong (s : State) (pa : Nat) (x : Nat × Nat) (wrong : List Nat) : State :=
  if wrong.all (· == 0) then s
  else if 14 ≤ x.1 then s.metaFails pa x fun i => ((wrong.drop (8 * i)).take 8).any (· != 0)
  else
    let v := s.treeLine x
    let body := xorLine v wrong % (if x.1 = 0 then 2 ^ 512 else 2 ^ 448)
    let tag := s.treeMac x v ^^^ (if x.1 = 0 then 0 else xorLine 0 wrong / 2 ^ 448)
    if s.treeMac x body = tag then s else s.metaFails pa x fun _ => true

/-- The 64 bytes of the line of an allocation at a physical address. -/
def State.plainLine (s : State) (a : Alloc) (pa : Nat) : List Nat :=
  (List.range 64).map fun i => (s.dramByte a (pa / 64 * 64 + i)).toNat

/-- The MAC of a data line that its channel returned good does not fit it: the stored line failed before, it was stored
poisoned, or what is wrong in its ciphertext changes its MAC (R280, R289). -/
def State.macMisses (s : State) (a : Alloc) (pa : Nat) (wrong : List Nat) : Bool :=
  1 ≤ s.wide DDR.pois (pa / 64) && s.wide DDR.pois (pa / 64) ≤ 2 || !s.macGood pa ||
    (!wrong.all (· == 0) &&
      let c := s.cipherLine a.key pa (s.plainLine a pa)
      s.dataMac a.key pa (xorBytes c wrong) != s.dataMac a.key pa c)

/-- The dirty entry of the cache at a level of the path of a line cannot be corrected (R289). -/
def State.cacheFails (s : State) (pa : Nat) : Option (BitVec 4) → State
  | none => s
  | some l =>
    let x := (l.toNat, s.nodeOf pa l.toNat)
    if s.cached x = 2 then (s.encCapture pa 0 4 l.toNat).nodeFails x else s

/-- The check of R289 on a data line that its channel returned good. -/
def State.verifyLine (s : State) (a : Alloc) (pa : Nat) (wrong : List Nat) (cache : Option (BitVec 4)) : State :=
  let s := s.cacheFails pa cache
  if !s.pathGood pa then s
  else if s.macMisses a pa wrong then
    (s.macFails a.key pa).setWide DDR.pois (pa / 64) (if s.wide DDR.pois (pa / 64) = 1 then 1 else 2)
  else s.cacheLine pa false

/-- Poison in an object page marks the page, and poison in a page table what lies beneath it (R241, R242). -/
def State.markLine (s : State) (pa : Nat) : State :=
  match s.pageOwner (pa / 65536) with
  | none =>
    match s.tableAt pa with
    | none => s
    | some t => s.tablePoison t
  | some (id, a) =>
    if a.kind = 0 then
      match (List.range a.pages.length).find? fun i => a.pages.getD i 0 == pa / 65536 with
      | none => s
      | some i => s.pageMark id i
    else s

/-- The first read of a line leaves its queue; a write to the line in front of it gives it its data (R260). -/
def takeRead (pa : Nat) : List DramReq → List DramReq × Bool
  | [] => ([], false)
  | x :: r =>
    if x.pa / 64 = pa / 64 && !x.write then (r, false)
    else
      let t := takeRead pa r
      (x :: t.1, t.2 || (x.pa / 64 == pa / 64 && x.write && decide (t.1.length < r.length)))

/-- What a page is to the encryption layer: the allocation that holds it, else the part of the SYSTEM area that key ID 0
protects. -/
def State.allocAt (s : State) (pa : Nat) : Alloc :=
  match s.pageOwner (pa / 65536) with
  | some (_, a) => a
  | none => { kind := 7, size := 0, key := 0, st := 3 }

/-- What a decoded read means to the layer above. -/
def State.readChecked (s : State) (pa : Nat) (o : ReadOut) (cache : Option (BitVec 4)) : State :=
  match s.metaAt pa, o with
  | some x, .poison => if s.cached x = 0 then s.metaFails pa x fun _ => true else s
  | some x, .line w => if s.cached x = 0 then s.metaWrong pa x w else s
  | none, .poison => s
  | none, .line w => s.verifyLine (s.allocAt pa) pa w cache

/-- A DRAM read completes: it takes the data of a queued write, or is decoded (R259) and checked (R289); poison is
handed on and marked. `cache` names the level at which a dirty entry of the metadata cache on its path is found
uncorrectable. -/
def execDramReadDecode (pa : BitVec 44) (errs : CodeErrors) (cache : Option (BitVec 4)) (s : State) : Out :=
  let a := pa.toNat
  let n := paChan a
  done (if n < 12 && s.flag (DDR.UP.f n) && !s.dramHeld then
    let q := takeRead a (s.dramQueue n (paSub a))
    let s := (s.setDramQueue n (paSub a) q.1).dramAdmit n (paSub a)
    if q.2 then s
    else
      let r := s.servingRank a
      let d := (s.accessRank n r a).decodeRead (s.allocAt a).key a r 0 errs
      let s := d.1.readChecked a d.2 cache
      if (s.metaAt a).isNone && s.linePoison (s.allocAt a).key a then s.markLine a else s
  else s)

/-- Corrected errors leave a rank's window (R269). -/
def execCeWindowAge (dc : DcId) (rank : Fin 4) (n : Word) (s : State) : Out :=
  done ((s.wr (DDR.CE_WIN.f dc rank) (s.rd (DDR.CE_WIN.f dc rank) - n.toNat)).autoRetire dc)

/-- The set-up of a redirection ends once the requests queued for the rank are drained; `good` says that the spare
passed its check (R270). Those that waited are released. -/
def execRedirectionSetupEnd (dc : DcId) (good : Bool) (s : State) : Out :=
  done (if s.flag (DDR.SETUP.f dc) && s.rankQueue dc (s.rd (DDR.RETIRING.f dc)) == 0 then
    let s := s.setFlag (DDR.SETUP.f dc) false
    let s := if good then
        ((((s.setFlag (DDR.REDIR.f dc) true).setFlag (DDR.MIG.f dc) true).wr (DDR.MIG_PTR.f dc) 0).wr (DDR.STAT_RETR.f dc)
          (s.rd (DDR.RETIRING.f dc))).ledgerInc (0x212 + 4 * (4 * dc + s.rd (DDR.RETIRING.f dc)))
      else s.pulse (1280 + 16 * dc + 10)
    (s.dramAdmit dc 0).dramAdmit dc 1
  else s)

/-- The physical address of line `i` of a rank, in the order of R254. -/
def rankLinePa (n r i : Nat) : Nat := i / 1024 * 2 ^ 22 + r * 2 ^ 20 + n * 2 ^ 16 + i % 1024 * 64

/-- The copy can go on: the channel is in service and its clocks run. -/
def State.copyRuns (s : State) (n : Nat) : Bool := s.flag (DDR.MIG.f n) && s.flag (DDR.UP.f n) && !s.dramHeld

/-- The copy moves one line of the retired rank to the spare; it ends after the last. A line that decodes as poison, or
with what no decoder can see wrong in it, is written to the spare as it was read (R271, R272). -/
def State.copyLine (s : State) (n : Nat) (errs : CodeErrors) : State :=
  let i := s.rd (DDR.MIG_PTR.f n)
  let r := s.rd (DDR.STAT_RETR.f n)
  let pa := rankLinePa n r i
  let d := (s.accessRank n r pa).decodeRead (s.allocAt pa).key pa r 3 errs
  let s := match d.2 with
    | .poison => d.1.setWide DDR.pois (pa / 64) 1
    | .line w => if w.all (· == 0) then d.1 else d.1.setWide DDR.pois (pa / 64) 2
  let s := (s.accessRank n (s.rd (DDR.SPARE_ACT.f n) % 4) pa).wr (DDR.MIG_PTR.f n) (i + 1)
  if i + 1 < s.rankLines n then s else (s.setFlag (DDR.MIG.f n) false).setFlag (DDR.MIG_DONE.f n) true

def execMigrationCopy (dc : DcId) (errs : CodeErrors) (s : State) : Out :=
  done (if s.copyRuns dc then s.copyLine dc errs else s)

def State.ddrCapRel (s : State) (n : Nat) : State :=
  (((((s.setFlag (DDR.CAP_FULL.f n) false).wr (DDR.ERR_CAP_LO.f n) 0).wr (DDR.ERR_CAP_HI_PA_HI.f n) 0).wr
    (DDR.ERR_CAP_HI_KIND.f n) 0).wr (DDR.ERR_CAP_HI_RANK.f n) 0).wr (DDR.ERR_CAP_HI_SUB.f n) 0

def execDdrCapRel (dc : DcId) (s : State) : Out :=
  done (s.reach ((DDR.CAP_REL.f dc).sets 1) (.ddr dc) fun s => s.ddrCapRel dc)

/-! Refresh and self-refresh (R261 to R266). -/

/-- tREFI has passed for a rank: the refresh is issued with those owed, or postponed while requests are queued and fewer
than four are owed (R261). -/
def execRefab (dc : DcId) (rank : Fin 4) (postpone : Bool) (s : State) : Out :=
  done (if !s.flag (DDR.UP.f dc) || !bitOf (s.rd (DDR.STAT_RANKS.f dc)) rank || s.bit (DDR.RSR.f dc) rank ||
      s.rankRetired dc rank then s
  else
    let k := s.rd (DDR.OWED.f dc rank)
    if postpone && k < 4 && 0 < s.rankQueue dc rank then s.wr (DDR.OWED.f dc rank) (k + 1)
    else s.wr (DDR.OWED.f dc rank) 0)

/-- The mode of one rank after a poll: `hot` asks for doubled refresh, `cool` allows the normal mode (R262, R263). -/
def State.rankMode (s : State) (n r : Nat) (hot cool : Bool) : State :=
  let k := s.rd (DDR.OWED.f n r)
  if !s.bit (DDR.DBL.f n) r then
    if hot then ((s.setBit (DDR.DBL.f n) r true).wr (DDR.DEBT_N.f n r) (2 * k)).wr (DDR.OWED.f n r) 0 else s
  else if cool then
    ((s.setBit (DDR.DBL.f n) r false).wr (DDR.OWED.f n r) ((k + 1) / 2)).wr (DDR.DEBT_N.f n r)
      ((s.rd (DDR.DEBT_N.f n r) + 1) / 2)
  else s

/-- The highest sensor readings of the two slots, in °C, and the ranks whose MR4 asks for doubled refresh. Ranks 0 and 1
lie in slot 0, ranks 2 and 3 in slot 1. -/
def execThermalPoll (dc : DcId) (t0 t1 : BitVec 8) (mr4 : BitVec 4) (s : State) : Out :=
  done (if s.flag (DDR.UP.f dc) then
    let lim : Int := s.rd (DDR.CFG_TLIM.f dc)
    let tmp := fun (r : Nat) => if r < 2 then t0.toInt else t1.toInt
    let ranks := s.liveRanks dc
    let s := ranks.foldl (fun s r =>
      s.rankMode dc r (decide (lim ≤ tmp r) || mr4.getLsbD r) (decide (tmp r < lim - 3) && !mr4.getLsbD r)) s
    let top := ranks.foldl (fun m r => max m (tmp r)) (-128)
    (s.wr (DDR.TEMP.f dc) (unsignedOf 8 top)).setFlag (DDR.HOT.f dc) (s.rd (DDR.DBL.f dc) != 0)
  else s)

/-- A rank that has been idle enters self-refresh (R266, R268); a request that is queued cancels the entry (R267). -/
def execIdleSelfRefresh (dc : DcId) (rank : Fin 4) (s : State) : Out :=
  done (if s.flag (DDR.UP.f dc) && s.flag (DDR.ISR_EN.f dc) && bitOf (s.rd (DDR.STAT_RANKS.f dc)) rank &&
      s.rankQueue dc rank == 0 && s.rd (DDR.DEBT_N.f dc rank) == 0 && !s.flag (DDR.SETUP.f dc) &&
      s.rd (DDR.SPARE_ACT.f dc) != 4 + rank && !s.rankRetired dc rank then s.setBit (DDR.RSR.f dc) rank true
  else s)

/-- One queued write is issued to its rank (R260). -/
def State.issueWrite (s : State) (x : DramReq) : State := s.accessRank (paChan x.pa) (s.servingRank x.pa) x.pa

/-- A subchannel issues its queued writes, oldest first; reads stay until DRAM_READ_DECODE completes them, and
requesters that it held come in (R260). -/
def State.subTick (s : State) (n u : Nat) : State :=
  let q := s.dramQueue n u
  let s := (q.filter fun x => x.write).foldl (fun s x => s.issueWrite x) s
  (s.setDramQueue n u (q.filter fun x => !x.write)).dramAdmit n u

/-- What a channel does in time: its queues go on, and debts are paid, while SETUP is set on one rank at a time (R260,
R263, R268). -/
def State.ddrTick (s : State) (n : Nat) : State :=
  if s.dramHeld || !s.flag (DDR.UP.f n) then s
  else
    let s := (s.subTick n 0).subTick n 1
    let owing := (s.liveRanks n).filter fun r => 0 < s.rd (DDR.DEBT_N.f n r)
    (if s.flag (DDR.SETUP.f n) then owing.take 1 else owing).foldl (fun s r => s.payDebt n r) s

/-- SR of a channel: every rank that receives commands is in self-refresh. -/
def State.ddrSr (s : State) (n : Nat) : Bool :=
  !(s.liveRanks n).isEmpty && (s.liveRanks n).all fun r => s.bit (DDR.RSR.f n) r

/-- The ranks that receive commands enter self-refresh (R265). -/
def State.selfRefresh (s : State) (n : Nat) : State := s.wr (DDR.RSR.f n) (rankMask (s.liveRanks n))

/-- DEBT of a channel. -/
def State.ddrDebt (s : State) (n : Nat) : Bool := (List.range 4).any fun r => 0 < s.rd (DDR.DEBT_N.f n r)

end Sys2Proof.Machine
end

