-- ==== Sys2Proof/Machine/Crypt.lean ====
section
/-! DEFINITION. The encryption layer (R274 to R296): key commands, writes of lines, the re-key walk and the rebuild of
the counter tree. Log entries 43 and 44. -/

namespace Sys2Proof.Machine

/-! Key commands (R278). -/

/-- A key command's code, key ID and wrapped key. -/
structure KwCmd where
  op : Nat
  kid : Nat
  blob : Nat

def State.kwCmd (s : State) : KwArgs → KwCmd
  | .regs =>
    { op := s.rd ENC.KW_CMD_OP.f, kid := s.rd ENC.KW_CMD_KID.f,
      blob := (List.range 10).foldl (fun v w => v + s.rd (ENC.KW_DATA.f w) * 2 ^ (32 * w)) 0 }
  | .msg op kid blob => { op := op.toNat, kid := kid.toNat, blob := blob.toNat }

/-- The outcome of a key command; the data words are cleared at its end. -/
def State.kwEnd (s : State) (a : KwArgs) (code : Nat) : State :=
  match a with
  | .regs => (s.forUpTo 10 fun s w => s.wr (ENC.KW_DATA.f w) 0).wr ENC.KW_STAT_CODE.f code
  | .msg .. => s.wr CAL.X_CODE.f code

/-- A key command is executed; the one in the registers leaves KW_BUSY clear. -/
def State.kwDo (s : State) (a : KwArgs) (ops : List Nat) (f : State → KwCmd → State) : State :=
  if ops.contains (s.kwCmd a).op then
    match a with
    | .regs => f (s.setFlag ENC.KW_BUSY.f false) (s.kwCmd a)
    | .msg .. => f s (s.kwCmd a)
  else s

/-- The clocks of the layer run. -/
def State.encRuns (s : State) : Bool := !s.gated .enc && s.bit CLK.LK.f 3

/-- A key command comes from the registers, where it waits since KW_GO was written or KW_GO is written now with its
code in OP, or in a message. -/
def State.kwRun (s : State) (a : KwArgs) (ops : List Nat) (f : State → KwCmd → State) : State :=
  match a with
  | .regs =>
    if s.flag ENC.KW_BUSY.f then (if s.encRuns then s.kwDo a ops f else s)
    else s.reach (ENC.KW_GO.f.sets 1) .enc fun s => s.kwDo a ops f
  | .msg .. => s.kwDo a ops f

/-- A write of 1 to KW_GO: KW_BUSY is set until the command is executed. -/
def State.writeKwGo (s : State) : State := s.setFlag ENC.KW_BUSY.f true

/-- A key-command register is written while KW_BUSY is clear (R278); a write while it is set is ignored, as R222 lays
down for Calico's commands (DESIGN CHOICE, log entry 43). -/
def State.writeKwReg (s : State) (f : Fld) (x : Nat) : State := if s.flag ENC.KW_BUSY.f then s else s.wr f x

/-- Calico's directory holds an allocation with a key ID. -/
def State.keyInDir (s : State) (k : Nat) : Bool := s.dir.any fun e => e.2.key == k

/-- A key ID must be 1 to 15 and tenant mode in force. -/
def State.kidBad (s : State) (k : Nat) : Bool := k == 0 || !s.flag ENC.TENANT.f

/-- LOAD. -/
def State.kwLoad (s : State) (a : KwArgs) (c : KwCmd) : State :=
  if s.kidBad c.kid then s.kwEnd a 1
  else if s.keyLoaded c.kid then s.kwEnd a 2
  else
    match kwUnwrap Config.kwk (wordBytes c.blob 40 |>.map BitVec.toNat) with
    | none => s.kwEnd a 3
    | some k =>
      if s.keyInDir c.kid then s.kwEnd a 4
      else (((s.setBit ENC.KEYV.f c.kid true).wr (ENC.GEN.f c.kid) 0).wr (ENC.KEY.f c.kid) k).kwEnd a 0

def execKwLoad (a : KwArgs) (s : State) : Out := done (s.kwRun a [1] fun s c => s.kwLoad a c)

/-- A burst in BOUND or later uses an object with a key ID, or its re-key walk runs. -/
def State.keyBusy (s : State) (k : Nat) : Bool :=
  (s.runs.any fun e => (s.alloc? e.2.obj).any fun a => a.key == k) ||
    (s.flag ENC.RK_RUN.f && s.rd ENC.RK_STAT_KID.f == k)

/-- ERASE. -/
def State.kwErase (s : State) (a : KwArgs) (c : KwCmd) : State :=
  if s.kidBad c.kid then s.kwEnd a 1
  else if !s.keyLoaded c.kid then s.kwEnd a 5
  else if s.keyBusy c.kid then s.kwEnd a 6
  else ((s.setBit ENC.KEYV.f c.kid false).wr (ENC.KEY.f c.kid) 0).kwEnd a 0

def execKwErase (a : KwArgs) (s : State) : Out := done (s.kwRun a [2] fun s c => s.kwErase a c)

def execKwInvalid (a : KwArgs) (s : State) : Out := done (s.kwRun a [0, 3] fun s _ => s.kwEnd a 7)

/-- The key command in the registers is executed. -/
def State.kwRegs (s : State) : State :=
  match s.rd ENC.KW_CMD_OP.f with
  | 1 => s.kwDo .regs [1] fun s c => s.kwLoad .regs c
  | 2 => s.kwDo .regs [2] fun s c => s.kwErase .regs c
  | n => s.kwDo .regs [n] fun s _ => s.kwEnd .regs 7

/-- The key command that waits is executed in time. -/
def State.kwTick (s : State) : State := if s.flag ENC.KW_BUSY.f && s.encRuns then s.kwRegs else s

def State.encCapRel (s : State) : State :=
  ((((s.setFlag ENC.CAP_FULL.f false).wr ENC.ERR_CAP_LO.f 0).wr ENC.ERR_CAP_HI_PA_HI.f 0).wr ENC.ERR_CAP_HI_KIND.f 0).wr
    ENC.ERR_CAP_HI_LEVEL.f 0

def execEncCapRel (s : State) : Out := done (s.reach (ENC.CAP_REL.f.sets 1) .enc State.encCapRel)

/-- A re-key request for a loaded key (R286). -/
def State.rkreq (s : State) (k : Nat) : State := if s.keyLoaded k then s.setBit ENC.RKPEND.f k true else s

def execRkreq (k : Fin 16) (s : State) : Out := done (s.reach (ENC.RKREQ.f.sets (2 ^ k.val)) .enc fun s => s.rkreq k)

/-! The re-key walk (R286, R287). -/

/-- The key ID that the next walk takes: the lowest marked one that holds a key and whose generation is not 0xFFFF. -/
def State.rekeyNext (s : State) : Option Nat :=
  (List.range 16).find? fun k => s.bit ENC.RKPEND.f k && s.keyLoaded k && s.rd (ENC.GEN.f k) != 0xFFFF

/-- Calico's jobs can access DRAM: the directory is valid and the clocks run. -/
def State.memServes (s : State) : Bool := s.flag CAL.READY.f && !s.dramHeld

/-- The walk of the next marked key ID begins. -/
def State.rekeyStart (s : State) : State :=
  match s.rekeyNext with
  | none => s
  | some k =>
    (((((s.setBit ENC.RKPEND.f k false).inc (ENC.GEN.f k)).wr ENC.RK_PTR.f 0).wr ENC.RK_STAT_KID.f k).wr ENC.RK_DONE.f 0).setFlag
      ENC.RK_RUN.f true

def execRekeyWalkStart (s : State) : Out :=
  done (if s.flag ENC.RK_RUN.f || !s.badNodes.isEmpty || !s.memServes then s else s.rekeyStart)

/-- The least of a list of numbers that is at least `lo`. -/
def leastFrom (lo : Nat) (l : List Nat) : Option Nat :=
  l.foldl (fun m x => if x < lo then m else match m with
    | none => some x
    | some y => some (min x y)) none

/-- The pages that a key ID protects; for key ID 0 those of the SYSTEM area behind the metadata region too (R275). -/
def State.keyPages (s : State) (key : Nat) : List Nat :=
  (s.dir.flatMap fun e => if e.2.key = key then e.2.pages else []) ++
    if key = 0 then (List.range (s.rd CAL.SYS_PAGES.f - s.rd CAL.SYS_MD.f)).map fun i => s.rotPage (s.rd CAL.SYS_MD.f + i)
    else []

/-- The next 4 KiB page of a walk: the least one at or above the pointer in the pages of the key ID. -/
def State.walkPage (s : State) (key ptr : Nat) : Option Nat :=
  leastFrom ptr ((s.keyPages key).filterMap fun pg => if pg * 16 + 16 ≤ ptr then none else some (max ptr (pg * 16)))

/-- A page of a channel out of service cannot be rewritten: what stands there does not verify under the new generation.
-/
def State.missPage (s : State) (p : Nat) : State :=
  s.forUpTo 64 fun s i =>
    (s.setWide ENC.minor (p * 64 + i) 0).setWide DDR.pois (p * 64 + i) (if s.wide DDR.pois (p * 64 + i) = 1 then 1 else 2)

/-- A page of the walk is read under generation g and rewritten under g + 1 with every counter 0; the lines in `bad`,
and all where the counter line or its path does not verify, are rewritten poisoned (R287). -/
def State.rekeyLines (s : State) (key p bad : Nat) : State :=
  (if s.flag (DDR.UP.f (paChan (p * 4096))) then
    s.rewriteLines key p (if s.pathGood (p * 4096) then bad else 2 ^ 64 - 1)
  else s.missPage p).setWide ENC.major p 0

/-- The walk goes on: no node waits for its rebuild (R292), and the clocks run. -/
def State.walkRuns (s : State) : Bool := s.flag ENC.RK_RUN.f && s.badNodes.isEmpty && s.memServes

/-- One page of the walk, or its end. -/
def State.rekeyStep (s : State) (bad : Nat) : State :=
  let key := s.rd ENC.RK_STAT_KID.f
  match s.walkPage key (s.rd ENC.RK_PTR.f) with
  | none => s.setFlag ENC.RK_RUN.f false
  | some p =>
    let s := ((s.rekeyLines key p bad).wr ENC.RK_PTR.f (p + 1)).wr ENC.RK_DONE.f 0
    if (s.walkPage key (p + 1)).isSome then s else s.setFlag ENC.RK_RUN.f false

/-- `bad` are the lines of the page whose MAC fails. -/
def execRekeyPage (s : State) (bad : BitVec 64 := 0) : Out :=
  done (if s.walkRuns then s.rekeyStep bad.toNat else s)

/-! Writes of lines (R285, R288, R290, R291). -/

/-- A write of an allocation's bytes in one line, once it need not wait: an object accepts it as R225 and R241 lay
down. Bit i of `bad` says that line i of the 4 KiB page fails its MAC where it is read. -/
def State.lineApply (s : State) (w : HeldWrite) (bad : Nat) : State :=
  match s.alloc? w.id with
  | none => s
  | some a =>
    if a.size < w.off + w.data.length then s
    else
      let pa := a.pa w.off
      let go := fun (s : State) => if w.data.length = 64 then s else s.readBad a.key pa (bitOf bad (pa / 64 % 64))
      if a.kind = 0 then
        (if a.accepts w.off w.data.length then
          (if a.marked.contains (w.off / 65536) then s else go s).objWrite w.id w.off w.data bad else none).getD s
      else (go s).allocWrite a w.off w.data bad

/-- The write waits: for its line, or behind an earlier write to it (R10, R286, R290). -/
def State.lineWriteWaits (s : State) (w : HeldWrite) : Bool :=
  (s.alloc? w.id).any fun a =>
    s.storeWaits a w.off w.data.length || s.lineQ.any fun x => x.id == w.id && x.off / 64 == w.off / 64

/-- A requester writes bytes of an allocation within one line; a write that waits holds its requester. -/
def State.lineWrite (s : State) (w : HeldWrite) (bad : Nat) : State :=
  if s.lineWriteWaits w then s.withLineQ (s.lineQ ++ [w]) else s.lineApply w bad

/-- The held writes go on in order, as far as their lines allow. -/
def State.serveLines (s : State) : State :=
  s.lineQ.foldl (fun s w => s.lineWrite w 0) (s.withLineQ [])

def execPartialWrite (id : Word) (off : BitVec 36) (data : List Byte) (s : State) (bad : BitVec 64 := 0) : Out :=
  done (if 0 < data.length && off.toNat % 64 + data.length ≤ 64 && data.length < 64 then
    s.lineWrite ⟨id.toNat, off.toNat, data⟩ bad.toNat
  else s)

def execWholeLineWrite (id : Word) (line : BitVec 30) (data : BitVec 512) (s : State) (bad : BitVec 64 := 0) : Out :=
  done (s.lineWrite ⟨id.toNat, line.toNat * 64, wordBytes data.toNat 64⟩ bad.toNat)

/-! The rebuild of a node (R292). A failed counter line is rebuilt as a node of level 0. -/

/-- The metadata lines of level `k` beneath a node, the node among them. -/
def State.subtree (s : State) (nd : Nat × Nat) (k : Nat) : List Nat :=
  ((List.range (8 ^ (nd.1 - k))).map fun i => nd.2 * 8 ^ (nd.1 - k) + i).filter fun i => decide (i < nodesAt s.protPages k)

/-- The 4 KiB page of a counter line. -/
def State.ctrPage (s : State) (c : Nat) : Nat := s.rotPage (s.rd CAL.SYS_MD.f + c / 16) * 16 + c % 16

/-- A value above `top`, by draw, while there is one of `w` bits (R292). -/
def freshAbove (top w draw : Nat) : Nat := if top + 1 < 2 ^ w then top + 1 + draw % (2 ^ w - 1 - top) else 2 ^ w - 1

/-- Every line of a page beneath a lost counter stays unverifiable until it is written again, under a fresh counter. -/
def State.rebuildPage (s : State) (p : Nat) : State :=
  let m := freshAbove (s.rd ENC.MAJ_TOP.f) 64 (Config.rebuiltCounter s.free)
  ((s.draw.setWide ENC.major p m).wr ENC.MAJ_TOP.f m).forUpTo 64 fun s i =>
    let l := p * 64 + i
    (s.setWide ENC.minor l 0).setWide DDR.pois l (if s.wide DDR.pois l = 1 then 1 else 2)

/-- The counter that the parent holds for a metadata line beneath the node is rebuilt. -/
def State.rebuildCtr (s : State) (x : Nat × Nat) : State :=
  let v := freshAbove (s.rd ENC.CTR_TOP.f) 56 (Config.rebuiltCounter s.free)
  (s.draw.wr ENC.CTR_TOP.f v).setWide ENC.node (treeKey x) v

/-- A rebuilt metadata line is verified and dirty. -/
def State.rebuildLine (s : State) (x : Nat × Nat) : State := (s.storeGood (s.metaPa x)).cacheIn x true

/-- A node and its subtree are rebuilt. -/
def State.rebuild (s : State) (nd : Nat × Nat) : State :=
  let s := (List.range nd.1).foldl (fun s k => (s.subtree nd k).foldl (fun s i => s.rebuildCtr (k, i)) s) s
  let s := (s.subtree nd 0).foldl (fun s c => s.rebuildPage (s.ctrPage c)) s
  (List.range (nd.1 + 1)).foldl (fun s k => (s.subtree nd k).foldl (fun s i => s.rebuildLine (k, i)) s) s

/-- The first failed node is rebuilt, with those beneath it. -/
def State.rebuildStep (s : State) : State :=
  match s.badNodes with
  | [] => s
  | nd :: rest => (s.withBadNodes (rest.filter fun x => !(x.1 ≤ nd.1 && x.2 / 8 ^ (nd.1 - x.1) == nd.2))).rebuild nd

def execNodeRebuild (s : State) : Out := done (if s.memServes then s.rebuildStep else s)

end Sys2Proof.Machine
end

