-- ==== Sys2Proof/Machine/Mfp.lean ====
section
/-! DEFINITION. The flow processors outside the pipeline (R314 to R322, R343 to R346): their memories, their local
registers, the watchdog, timer and doorbells, the aperture windows and the reset. Log entries 49, 50, 52, 55 and 57. -/

namespace Sys2Proof.Machine

/-! Memories (R315). -/

/-- The keys in `State.mem` of a byte of the local view of an MFP, and of a byte of SHM. -/
def mfpKey (n a : Nat) : Nat := 2 ^ 46 + n * 2 ^ 28 + a
def shmKey (a : Nat) : Nat := 2 ^ 46 + 15 * 2 ^ 28 + a

def inImem (a : Nat) : Bool := decide (0x01000000 ≤ a) && decide (a < 0x01040000)
def inDmem (a : Nat) : Bool := decide (0x02000000 ≤ a) && decide (a < 0x02080000)
def inShm (a : Nat) : Bool := decide (0x04000000 ≤ a) && decide (a < 0x04400000)
def inLocalAlias (a : Nat) : Bool := decide (0x00800000 ≤ a) && decide (a < 0x00820000)
def inLocalRegs (a : Nat) : Bool := decide (a < 0x10000)
def inAperture (a : Nat) : Bool := decide (0x80000000 ≤ a)

/-- A local access (R316). -/
def isLocal (a : Nat) : Bool := inLocalRegs a || inLocalAlias a || inImem a || inDmem a

/-- The core of an MFP. -/
def State.core (s : State) (n : Nat) : MfpCore := s.cores.get n {}

def State.setCore (s : State) (n : Nat) (c : MfpCore) : State := s.withCores (s.cores.set n c {})

def State.updCore (s : State) (n : Nat) (f : MfpCore → MfpCore) : State := s.setCore n (f (s.core n))

/-- A core loses its reservation, or the one that an SC on its way has taken with it, on a line from `lo` to `hi`. -/
def MfpCore.loseRes (c : MfpCore) (lo hi : Nat) : MfpCore :=
  let keep := fun (l : Nat) => !(decide (lo ≤ l) && decide (l ≤ hi))
  { c with res := c.res.filter keep, remotes := c.remotes.map fun r => { r with res := r.res.filter keep } }

/-- A write to a line by another master clears the reservations on it (R336); `n` is the MFP that writes, 8 for another
master. -/
def State.breakRes (s : State) (n key len : Nat) : State :=
  s.forUpTo 8 fun s m => if m = n then s else s.updCore m fun c => c.loseRes (key / 64) ((key + len - 1) / 64)

/-- A store into IMEM leaves the old word in what fetches see until an ISYNC (R317). -/
def State.staleWord (s : State) (n w : Nat) : State :=
  if s.tab MFP.stale n w = 0 then s.setTab MFP.stale n w (s.bytes (mfpKey n (0x01000000 + 4 * w)) 4 + 1) else s

/-- A store of `k` bytes by an MFP into its IMEM or DMEM. -/
def State.localStore (s : State) (n a k v : Nat) : State :=
  let s := if inImem a then (s.staleWord n ((a - 0x01000000) / 4)).staleWord n ((a + k - 1 - 0x01000000) / 4) else s
  s.setBytes (mfpKey n a) k v

/-- A write to DMEM through the separate port (R316): the offset wraps in the 512 KiB. -/
def State.dmemPort (s : State) (n off v : Nat) : State :=
  let k := mfpKey n (0x02000000 + off % 0x80000)
  (s.setBytes k 4 v).breakRes 8 k 4

/-! Status (R320). -/

/-- PERIOD, 0 treated as 1. -/
def State.wdtPeriod (s : State) (n : Nat) : Nat := max 1 (s.rd (MFP.WDT_CTRL_PERIOD.f n))

def State.wdw (s : State) (n : Nat) : Bool := decide (2 * s.rd (MFP.WDT_LEFT.f n) ≤ s.wdtPeriod n)

def State.dbPend (s : State) (n : Nat) : Bool := s.rd (MFP.DBCNT.f n) != s.rd (MFP.DBACK.f n)

/-- MFP_IP. -/
def State.mfpIp (s : State) (n : Nat) : Nat :=
  b2n (!(s.evq.get n []).isEmpty) + b2n (s.dbPend n) * 2 + b2n (s.flag (MFP.TMR_CAP.f n)) * 4 + b2n (s.wdw n) * 8 +
    b2n (s.core n).nmi * 16

/-- The flag bits of MFP_IP that are enabled. -/
def State.mfpIrq (s : State) (n : Nat) : Nat := s.mfpIp n % 16 &&& s.rd (MFP.IE.f n)

/-- Outstanding remote loads, SC among them, and buffered remote stores. -/
def Remote.isLoad (r : Remote) : Bool := r.kind != .store
def MfpCore.loads (c : MfpCore) : Nat := (c.remotes.filter Remote.isLoad).length
def MfpCore.stores (c : MfpCore) : Nat := (c.remotes.filter fun r => !r.isLoad).length

/-- A field of a local register as it reads: those that show a condition are computed. -/
def State.mfpField (s : State) (n : Nat) (f : Fld) : Nat :=
  let c := s.core n
  if f.key = (MFP.WDW.f n).key then b2n (s.wdw n)
  else if f.key = (MFP.RPEND.f n).key then b2n (0 < c.loads)
  else if f.key = (MFP.SBFULL.f n).key then b2n (16 ≤ c.stores)
  else if f.key = (MFP.RES.f n).key then b2n c.res.isSome
  else if f.key = (MFP.DB_PEND.f n).key then b2n (s.dbPend n)
  else if f.key = (MFP.IP.f n).key then s.mfpIp n
  else if f.key = (MFP.CYC_LO.f n).key then s.rd (MFP.CYC.f n) % 2 ^ 32
  else s.rd f

/-- The address of a local register of MFP n in the register layout. -/
def mfpRegAddr (n off : Nat) : Nat := 0x100000000 + n * 0x10000000 + off

/-- The word of a local register. -/
def State.mfpRegWord (s : State) (n off : Nat) : Nat := readFields MFP.layout (mfpRegAddr n off) (s.mfpField n)

/-- An MFP that is absent answers nothing (R314). -/
def State.onMfp (s : State) (n : Nat) (f : State → State) : State := if s.hasMfp n then f s else s

/-! Watchdog, timer and doorbells (R343 to R345). -/

def State.wdtReload (s : State) (n : Nat) : State := s.wr (MFP.WDT_LEFT.f n) (s.wdtPeriod n)

def execKick (m : MfpId) (s : State) : Out := done (s.onMfp m fun s => s.wdtReload m)

/-- A write to MFP_WDT_CTRL. -/
def State.writeWdt (s : State) (n v : Nat) : State :=
  if s.flag (MFP.WDT_CTRL_LOCK.f n) then s
  else (s.writeFields MFP.layout (mfpRegAddr n 0x1004) v).wdtReload n

def execMfpWdtCtrl (m : MfpId) (v : Word) (s : State) : Out := done (s.onMfp m fun s => s.writeWdt m v.toNat)

/-- A write to MFP_TMR_LOAD. -/
def State.writeTmrLoad (s : State) (n v : Nat) : State := (s.wr (MFP.TMR_LOAD.f n) v).wr (MFP.TMR.f n) v

def execMfpTmrLoad (m : MfpId) (v : Word) (s : State) : Out := done (s.onMfp m fun s => s.writeTmrLoad m v.toNat)

/-- `e` expiries of the timer: the first fills the capture if it is empty, and each other one counts as missed. -/
def State.tmrExpire (s : State) (n e : Nat) : State :=
  let miss := e - b2n (!s.flag (MFP.TMR_CAP.f n))
  (s.wr (MFP.TMR_MISS.f n) (min (2 ^ 32 - 1) (s.rd (MFP.TMR_MISS.f n) + miss))).setFlag (MFP.TMR_CAP.f n) true

/-- The timer counts `k` cycles down, and reloads at each zero (R344). -/
def State.tmrPass (s : State) (n k : Nat) : State :=
  let l := s.rd (MFP.TMR_LOAD.f n)
  let t := s.rd (MFP.TMR.f n)
  if l = 0 then s
  else if k < t then s.wr (MFP.TMR.f n) (t - k)
  else (s.wr (MFP.TMR.f n) (l - (k - t) % l)).tmrExpire n (1 + (k - t) / l)

/-- The timer counts down to its next zero. -/
def execTimerExpiry (m : MfpId) (s : State) : Out := done (s.tmrPass m (s.rd (MFP.TMR.f m)))

/-- Core cycles pass in the counters of an MFP (R321, R344), and for a halt request that waits (R538). -/
def State.mfpTime (s : State) (n k : Nat) : State :=
  let s := if (s.core n).haltReq.isSome then s.updCore n fun c => { c with haltFor := c.haltFor + k } else s
  (s.wr (MFP.CYC.f n) (s.rd (MFP.CYC.f n) + k)).tmrPass n k

/-- The core clock of an MFP runs: the core is present, released and not halted (R461, R539). -/
def State.mfpClocked (s : State) (n : Nat) : Bool :=
  s.hasMfp n && (s.core n).released && s.bit CLK.LK_MFP.f n && !s.flag (DBG.HALTED.f n)

/-- The cycles of a microsecond in which no command issues a bundle: MULT × 100 MHz, MULT 0 treated as 1 (R461). -/
def State.mfpTick (s : State) (n : Nat) : State :=
  if s.mfpClocked n then s.mfpTime n (100 * max 1 (s.rd (CLK.MFP_MULT.f n))) else s

def execTmrRel (m : MfpId) (s : State) : Out := done (s.onMfp m fun s => s.setFlag (MFP.TMR_CAP.f m) false)

/-- RST_REL empties MFP_RSTCAP and MFP_RSTPC. -/
def State.rstRelease (s : State) (n : Nat) : State :=
  ((s.setFlag (MFP.RST_FULL.f n) false).wr (MFP.RSTCAP_CAUSE.f n) 0).wr (MFP.RSTPC.f n) 0

def execRstRel (m : MfpId) (s : State) : Out := done (s.onMfp m fun s => s.rstRelease m)

/-- RING: each named MFP that is present gets a ring; naming an absent one is an access to an absent unit (R314). -/
def State.ringDoorbells (s : State) (n mask : Nat) : State :=
  let s := if (List.range 8).any fun m => bitOf mask m && !s.hasMfp m then s.absentHit (mfpRegAddr n 0xC % 2 ^ 28) else s
  s.forUpTo 8 fun s m => if bitOf mask m && s.hasMfp m then s.inc (MFP.DBCNT.f m) else s

def execRing (m : MfpId) (mask : BitVec 8) (s : State) : Out := done (s.onMfp m fun s => s.ringDoorbells m mask.toNat)

def execMfpDback (m : MfpId) (v : Word) (s : State) : Out := done (s.onMfp m fun s => s.wr (MFP.DBACK.f m) v.toNat)

/-- A write of MFP_CTXID, copied to SHM_CTXIDn (R322). -/
def State.writeCtxid (s : State) (n v : Nat) : State := (s.wr (MFP.CTXID.f n) v).wr (SHM.CTXID.f n) v

def execMfpCtxid (m : MfpId) (v : Word) (s : State) : Out := done (s.onMfp m fun s => s.writeCtxid m v.toNat)

/-! Aperture windows (R346). -/

/-- The user code of a window in `State.uses`. -/
def useAperture (n w : Nat) : Nat := 1000 + n * 8 + w

/-- The CODE that enabling a window on an allocation gives. -/
def State.apCode (s : State) (id : Nat) : Nat :=
  match s.alloc? id with
  | none => 2
  | some a => if a.st = 5 || a.st = 6 then 3 else 1

/-- A write of MFP_APw_CTRL. -/
def State.writeApCtrl (s : State) (n w v : Nat) : State :=
  let id := s.rd (MFP.AP_ID.f n w)
  let c := if bitOf v 0 then s.apCode id else 0
  let s := ((s.wr (MFP.AP_CTRL.f n w) v).wr (MFP.AP_STAT_CODE.f n w) c).dropUse (useAperture n w)
  if c = 1 then s.addUse (useAperture n w) id else s

def execMfpApCtrl (m : MfpId) (w : Fin 8) (v : BitVec 2) (s : State) : Out := done (s.onMfp m fun s => s.writeApCtrl m w v.toNat)

/-- The window of an aperture address as it stands: its allocation, the byte offset and WR, none where it is unmapped.
-/
def State.apWindow (s : State) (n a : Nat) : Option (Nat × Nat × Bool) :=
  let w := (a - 0x80000000) / 0x10000000 % 8
  if s.rd (MFP.AP_STAT_CODE.f n w) = 1 then
    some (s.rd (MFP.AP_ID.f n w), s.rd (MFP.AP_OFS.f n w) * 65536 + a % 0x10000000, bitOf (s.rd (MFP.AP_CTRL.f n w)) 1)
  else none

/-- The allocation's kind and state allow a load. -/
def Alloc.apLoad (a : Alloc) : Bool :=
  if a.kind = 0 then a.st == 1 || a.st == 3 || a.st == 4 || a.st == 5 else a.st == 3 || a.st == 5

/-- A load through a window: none for a bus error, else the value, none for poison. Poison in an object marks its page
(R241). -/
def State.apRead (s : State) (w : Option (Nat × Nat × Bool)) (size : Nat) : State × Option (Option Nat) :=
  match w with
  | none => (s, none)
  | some (id, off, _) =>
    match s.alloc? id with
    | none => (s, none)
    | some a =>
      if a.size ≤ off || off % size != 0 || !a.apLoad then (s, none)
      else if s.allocPoison a off size then (if a.kind = 0 then s.markPoison id a off size else s, some none)
      else (s, some (some (s.allocRead a off size)))

/-- A store through a window: none for a bus error. -/
def State.apWrite (s : State) (w : Option (Nat × Nat × Bool)) (size v : Nat) : Option State :=
  match w with
  | none => none
  | some (id, off, wr) =>
    match s.alloc? id with
    | none => none
    | some a =>
      if a.size ≤ off || off % size != 0 || !wr then none
      else if a.kind = 0 then s.objWrite id off (wordBytes v size)
      else if a.kind = 5 && (a.st = 3 || a.st = 5) then some (s.allocWrite a off (wordBytes v size))
      else none

/-- An access through a window waits for its line of DRAM (R10, R286). -/
def State.apWaits (s : State) (w : Option (Nat × Nat × Bool)) (size : Nat) (store : Bool) : Bool :=
  match w with
  | none => false
  | some (id, off, wr) =>
    (s.alloc? id).any fun a =>
      if a.size ≤ off || off % size != 0 then false
      else if store then wr && (if a.kind = 0 then a.accepts off size else a.kind == 5) && s.storeWaits a off size
      else a.apLoad && s.loadWaits a off size

/-! Local registers (R320, R321). -/

/-- A write of the flag-page word at offset 0: the triggers among its bits. -/
def State.mfpTriggers (s : State) (n v : Nat) : State :=
  let s := if bitOf v 8 then s.wdtReload n else s
  let s := if bitOf v 9 then s.setFlag (MFP.TMR_CAP.f n) false else s
  if bitOf v 10 then s.rstRelease n else s

/-- A 32-bit write of a local register. -/
def State.mfpRegWrite (s : State) (n off v : Nat) : State :=
  if off = 0 then s.mfpTriggers n v
  else if off = 0xC then s.ringDoorbells n (v % 256)
  else if off = 0x1000 then s.writeCtxid n v
  else if off = 0x1004 then s.writeWdt n v
  else if off = 0x101C then s.writeTmrLoad n v
  else if 0x1040 ≤ off && off < 0x10C0 && off % 16 = 8 then s.writeApCtrl n ((off - 0x1040) / 16) v
  else s.writeFields MFP.layout (mfpRegAddr n off) v

/-- A read of a local register: MFP_CYC_LO latches the high word. -/
def State.mfpRegRead (s : State) (n off : Nat) : State × Nat :=
  (if off = 0x1014 then s.wr (MFP.CYC_HI.f n) (s.rd (MFP.CYC.f n) / 2 ^ 32) else s, s.mfpRegWord n off)

/-- A write of an alias of the flag page changes its bit alone (R38). -/
def State.mfpAliasWrite (s : State) (n off v : Nat) : State :=
  let w := aliasWord off
  if w.1 = 4 then
    (if w.2 < 4 then s.setBit (MFP.IE.f n) w.2 (bitOf v 0) else s)
  else if bitOf v 0 then s.mfpRegWrite n w.1 (2 ^ w.2)
  else s

/-- A read of an alias. -/
def State.mfpAliasRead (s : State) (n off : Nat) : Nat :=
  let w := aliasWord off
  b2n (bitOf (s.mfpRegWord n w.1) w.2)

/-! Reset (R322, R343). -/

/-- The local registers that a reset returns to their reset values. -/
def mfpResetFields (n : Nat) : List Fld :=
  [MFP.IE.f n, MFP.TMR_CAP.f n, MFP.CTXID.f n, MFP.WDT_CTRL_PERIOD.f n, MFP.WDT_CTRL_EN.f n, MFP.WDT_CTRL_RUNHALT.f n,
    MFP.WDT_CTRL_LOCK.f n, MFP.WDT_LEFT.f n, MFP.CYC.f n, MFP.CYC_HI.f n, MFP.TMR_LOAD.f n, MFP.TMR.f n,
    MFP.TMR_MISS.f n, MFP.DBCNT.f n, MFP.DBACK.f n] ++
    (List.range 8).flatMap fun w => [MFP.AP_ID.f n w, MFP.AP_OFS.f n w, MFP.AP_CTRL.f n w, MFP.AP_STAT_CODE.f n w]

/-- A field returns to its reset value. -/
def State.resetField (s : State) (f : Fld) : State := s.wr f f.reset

/-- The registers, windows and core of an MFP as a reset leaves them; the remote stores buffered are still completed. -/
def State.mfpClear (s : State) (n : Nat) : State :=
  let s := (mfpResetFields n).foldl (fun s f => s.resetField f) s
  let s := (s.wr (SHM.CTXID.f n) 0).forUpTo 8 fun s w => s.dropUse (useAperture n w)
  let c := s.core n
  s.setCore n { released := c.released, nmi := c.nmi, remotes := c.remotes.filter fun r => !r.isLoad }

/-- MFP_RESET: the capture, the count, the doorbells of the others, and the core starts at VBASE with CAUSE RESET. -/
def State.mfpReset (s : State) (n cause : Nat) : State :=
  let pc := (s.core n).pc
  let s := if s.flag (MFP.RST_FULL.f n) then s
    else ((s.setFlag (MFP.RST_FULL.f n) true).wr (MFP.RSTCAP_CAUSE.f n) cause).wr (MFP.RSTPC.f n) pc
  let s := ((s.mfpClear n).inc (SHM.RSTCNT.f n)).forUpTo 8 fun s m =>
    if m != n && s.hasMfp m then s.inc (MFP.DBCNT.f m) else s
  (((s.setFlag (DBG.HALTED.f n) false).setFlag (DBG.DEFER.f n) false).wr (DBG.M_HCAUSE_CAUSE.f n) 0).wr
    (DBG.M_HCAUSE_UNIT.f n) 0

/-- The watchdog counts: EN, and not paused by a halt or a fed bundle unless RUNHALT (R540). -/
def State.wdtCounts (s : State) (n : Nat) : Bool :=
  (s.core n).released && s.flag (MFP.WDT_CTRL_EN.f n) &&
    (s.flag (MFP.WDT_CTRL_RUNHALT.f n) || !(s.flag (DBG.HALTED.f n) || s.flag (DBG.FEED_BUSY.f n)))

def execWatchdogExpiry (m : MfpId) (s : State) : Out := done (if s.wdtCounts m then s.mfpReset m 1 else s)

end Sys2Proof.Machine
end

