-- ==== Sys2Proof/Machine/MfpIssue.lean ====
section
/-! DEFINITION. The pipeline of a flow processor (R323 to R342): registers and results in flight, the fetch and the
legality of a bundle, the exceptions found before it issues, entry, and the end of a bundle. Log entries 47, 48, 49,
51, 52, 53 and 56. -/

namespace Sys2Proof.Machine

/-! Registers (R323, R324, R329 to R331). -/

/-- The physical register of a name (R324). -/
def MfpCore.phys (c : MfpCore) (k : Nat) : Nat := if k < 16 then k else 16 + (k - 16 + c.rb) % 16

/-- A general register as the bundle that issues reads it; x0 reads zero. -/
def MfpCore.get (c : MfpCore) (k : Nat) : Nat := if k = 0 then 0 else c.x.get (c.phys k) 0

/-- Write a physical register; x0 discards. -/
def MfpCore.putReg (c : MfpCore) (p v : Nat) : MfpCore :=
  if p = 0 then c else { c with x := SMap.set c.x p (v % 2 ^ 32) 0 }

/-- A result that becomes visible `lat` cycles after its issue. -/
def MfpCore.result (c : MfpCore) (lat k v : Nat) : MfpCore :=
  { c with flight := c.flight ++ [{ left := lat, reg := c.phys k, val := v }] }

/-- Accumulator k as it stood h cycles ago. -/
def MfpCore.accAt (c : MfpCore) (k h : Nat) : Nat := c.acc.get (8 * k + h) 0

def MfpCore.putAcc (c : MfpCore) (k h v : Nat) : MfpCore := { c with acc := SMap.set c.acc (8 * k + h) (v % 2 ^ 40) 0 }

/-- Every accumulator moves one place into its history. -/
def MfpCore.ageAcc (c : MfpCore) : MfpCore :=
  (List.range 4).foldl (fun c k => [4, 3, 2, 1].foldl (fun c h => c.putAcc k h (c.accAt k (h - 1))) c) c

/-- One cycle passes: results that are due are written, the later issued last (R331). -/
def MfpCore.cycle (c : MfpCore) : MfpCore :=
  let due := c.flight.filter fun r => r.left ≤ 1
  let rest := (c.flight.filter fun r => 1 < r.left).map fun r => { r with left := r.left - 1 }
  let imp := c.imprecise.map fun i => { i with left := i.left - 1 }
  (due.foldl (fun (c : MfpCore) r => c.putReg r.reg r.val) { c with flight := rest, imprecise := imp }).ageAcc

/-- `k` cycles pass. -/
def MfpCore.cycles (c : MfpCore) : Nat → MfpCore
  | 0 => c
  | k + 1 => c.cycle.cycles k

/-- Every local result in flight is written (R331, R339). -/
def MfpCore.flush (c : MfpCore) : MfpCore := c.cycles 4

/-- A special register (R323). -/
def MfpCore.sr (c : MfpCore) (n : Nat) : Nat :=
  match n with
  | 0 => c.stat
  | 1 => c.epc
  | 2 => c.estat
  | 3 => c.cause
  | 4 => c.badaddr
  | 5 => c.vbase
  | 6 => c.npc
  | 7 => c.nstat
  | 8 => c.lc
  | 9 => c.ls
  | 10 => c.le
  | 11 => c.rb
  | n => if 16 ≤ n && n < 24 then c.cb.get (n - 16) 0 else 0

/-- Write a special register. -/
def MfpCore.putSr (c : MfpCore) (n v : Nat) : MfpCore :=
  match n with
  | 0 => { c with stat := v % 32 }
  | 1 => { c with epc := v }
  | 2 => { c with estat := v % 32 }
  | 3 => { c with cause := v % 32 + v / 256 % 2 * 256 }
  | 4 => { c with badaddr := v }
  | 5 => { c with vbase := v / 1024 * 1024 }
  | 6 => { c with npc := v }
  | 7 => { c with nstat := v % 32 }
  | 8 => { c with lc := v }
  | 9 => { c with ls := v }
  | 10 => { c with le := v }
  | 11 => { c with rb := v % 16 }
  | n => if 16 ≤ n && n < 24 then { c with cb := SMap.set c.cb (n - 16) v 0 } else c

/-- An SRN that the table lists. -/
def srnValid (n : Nat) : Bool := decide (n < 12) || (decide (16 ≤ n) && decide (n < 24))

def MfpCore.ie (c : MfpCore) : Bool := bitOf c.stat 0
def MfpCore.exl (c : MfpCore) : Bool := bitOf c.stat 1
def MfpCore.nmil (c : MfpCore) : Bool := bitOf c.stat 2
def MfpCore.la (c : MfpCore) : Bool := bitOf c.stat 3
def MfpCore.rot (c : MfpCore) : Bool := bitOf c.stat 4

/-- Set or clear a bit of STAT. -/
def MfpCore.setStat (c : MfpCore) (i : Nat) (b : Bool) : MfpCore := { c with stat := putBit c.stat i b }

/-! Fetch and legality (R317, R325, R326). -/

/-- A word of IMEM as a fetch sees it. -/
def State.fetchWord (s : State) (n off : Nat) : Nat :=
  match s.tab MFP.stale n (off / 4) with
  | 0 => s.bytes (mfpKey n (0x01000000 + off)) 4
  | v + 1 => v

/-- The word of a slot of the bundle at the PC. -/
def State.slotWord (s : State) (n slot : Nat) : Nat := s.fetchWord n ((s.core n).pc + 4 * slot)

/-- The code of the instruction in a slot: OP, 0x200 + FN for SYS, 0x400 for J with L = 1. -/
def mfpKind (w : Nat) : Nat :=
  if bits w 25 6 = 0x3F then 0x200 + bits w 0 9 else if bits w 25 6 = 0x3C && bitOf w 24 then 0x400 else bits w 25 6

/-- The formats of R325. -/
inductive MfpFmt
  | nop | r | i | u | m | a | b | j | l | sys | bad
  deriving DecidableEq

def mfpFmt (op : Nat) : MfpFmt :=
  if op = 0 then .nop
  else if op ≤ 0xF || op = 0x17 || op = 0x18 || op = 0x3D then .r
  else if op ≤ 0x15 then .i
  else if op = 0x16 then .u
  else if 0x20 ≤ op && op ≤ 0x2D then .m
  else if 0x30 ≤ op && op ≤ 0x34 then .a
  else if 0x38 ≤ op && op ≤ 0x3B then .b
  else if op = 0x3C then .j
  else if op = 0x3E then .l
  else if op = 0x3F then .sys
  else .bad

/-- The slot that an instruction may occupy: 0, 1, or 2 for either (R326). -/
def mfpSlotOf (op : Nat) : Nat := if op ≤ 0x18 then 2 else if op ≤ 0x2D then 1 else 0

/-- The instructions of R format and I format that S = 1 makes saturate, and JR, where it links. -/
def mfpSOk (w : Nat) : Bool :=
  [1, 2, 6, 0xD, 0xE, 0xF, 0x10, 0x3D].contains (bits w 25 6) || (bits w 25 6 == 0x14 && bits w 5 2 == 0)

/-- A pair begins with an even register from x2 to x30. -/
def pairBad (d : Nat) : Bool := d % 2 == 1 || d == 0

/-- The instruction of a slot raises ILLEGAL (R325 to R328, R334). -/
def slotIllegal (slot w : Nat) : Bool :=
  let op := bits w 25 6
  let rd := bits w 19 5
  let ra := bits w 14 5
  let s := bitOf w 24
  (mfpSlotOf op != 2 && mfpSlotOf op != slot) || (slot == 1 && bitOf w 31) ||
    match mfpFmt op with
    | .bad => true
    | .nop => w % 2 ^ 31 != 0
    | .r => bits w 0 9 != 0 || (s && !mfpSOk w) || (op == 0xD && bits w 9 5 != 0) ||
        ((op == 0x17 || op == 0x18) && pairBad rd)
    | .i => (s && !mfpSOk w) || (op == 0x14 && (bits w 5 2 == 3 || bits w 7 7 != 0))
    | .u => s || bitOf w 18
    | .m => s || bits w 12 2 == 3 || ((op == 0x2C || op == 0x2D) && w % 2 ^ 25 != 0) ||
        (op < 0x2C && bits w 12 2 != 0 && rd == ra) || ((op == 0x25 || op == 0x29) && pairBad rd)
    | .a => false
    | .b => s
    | .j => bits w 15 9 != 0
    | .l => rd != 0 || bits w 0 14 == 0
    | .sys => s || 6 < bits w 0 9 || ((bits w 0 9 == 5 || bits w 0 9 == 6) && !srnValid (bits w 9 5))

/-- The registers that the instruction of a slot names, as source or destination. -/
def slotNames (w : Nat) : List Nat :=
  let op := bits w 25 6
  let rd := bits w 19 5
  let ra := bits w 14 5
  let rb := bits w 9 5
  match mfpFmt op with
  | .r =>
    if op = 0x3D then (if bitOf w 24 then [ra, 1] else [ra])
    else [rd, ra, rb] ++ if op = 0x17 || op = 0x18 then [rd + 1] else []
  | .i => [rd, ra]
  | .u => [rd]
  | .m => if 0x2C ≤ op then [] else [rd, ra] ++ if op = 0x25 || op = 0x29 then [rd + 1] else []
  | .a => if op ≤ 0x31 then [ra, rb] else if op = 0x34 then [rd] else [ra]
  | .b => [rd, ra]
  | .j => if bitOf w 24 then [1] else []
  | .l => [ra]
  | .sys => if bits w 0 9 = 5 then [rd] else if bits w 0 9 = 6 then [ra] else []
  | _ => []

/-- The physical registers that outstanding remote loads mark pending (R332). -/
def MfpCore.pendingRegs (c : MfpCore) : List Nat := c.remotes.flatMap fun r => r.dest

/-- The instruction of a slot names a pending register. -/
def MfpCore.namesPending (c : MfpCore) (w : Nat) : Bool :=
  (slotNames w).any fun k => k != 0 && c.pendingRegs.contains (c.phys k)

/-! Addresses of memory instructions (R328). -/

/-- The access size in bytes. -/
def memSize (op : Nat) : Nat :=
  if op = 0x21 || op = 0x22 || op = 0x27 then 2
  else if op = 0x23 || op = 0x24 || op = 0x28 then 1
  else if op = 0x25 || op = 0x29 then 8
  else 4

/-- A memory instruction that makes an access. -/
def isMemOp (w : Nat) : Bool := decide (0x20 ≤ bits w 25 6) && decide (bits w 25 6 ≤ 0x2B)

/-- off10 × z. -/
def memOff (w : Nat) : Int := signedOf 10 w * memSize (bits w 25 6)

/-- The address that a memory instruction accesses. -/
def MfpCore.memAddr (c : MfpCore) (w : Nat) : Nat :=
  let ra := c.get (bits w 14 5)
  if bits w 12 2 = 0 then unsignedOf 32 (ra + memOff w) else ra

/-- The value that AM 1 and AM 2 give to ra, none where ra keeps its value. -/
def MfpCore.memUpdate (c : MfpCore) (w : Nat) : Option Nat :=
  let ra : Int := c.get (bits w 14 5)
  match bits w 12 2 with
  | 1 => some (unsignedOf 32 (ra + memOff w))
  | 2 =>
    let base : Int := c.cb.get (2 * bits w 10 2) 0
    let len : Int := c.cb.get (2 * bits w 10 2 + 1) 0
    if len = 0 then none else some (unsignedOf 32 (base + (ra - base + memOff w) % len))
  | _ => none

/-- The bundle makes a remote access. -/
def MfpCore.isRemote (c : MfpCore) (w1 : Nat) : Bool := isMemOp w1 && !isLocal (c.memAddr w1)

/-! Branches (R326, R333). -/

/-- Where a branch, J or JR of slot 0 goes, none where it is not taken. -/
def MfpCore.branchTo (c : MfpCore) (w : Nat) : Option Int :=
  let a := c.get (bits w 19 5)
  let b := c.get (bits w 14 5)
  let dst : Int := c.pc + 8 * signedOf 14 w
  let when := fun (t : Bool) => if t then some dst else none
  match bits w 25 6 with
  | 0x38 => when (a == b)
  | 0x39 => when (a != b)
  | 0x3A => when (decide (signedOf 32 a < signedOf 32 b))
  | 0x3B => when (decide (signedOf 32 b ≤ signedOf 32 a))
  | 0x3C => some (bits w 0 15 * 8 : Nat)
  | 0x3D => some (b : Nat)
  | _ => none

/-- An address outside IMEM or not on a bundle. -/
def pcBad (p : Int) : Bool := decide (p < 0) || decide (0x40000 ≤ p) || p % 8 != 0

/-! Precise exceptions (R317, R326, R328, R333, R335, R338, R341). -/

/-- The precise exception of a bundle by its words, slot 0 with its NI bit: the one with the lowest code, with the
address that BADADDR takes. -/
def State.bundleCause (s : State) (n w0 w1 : Nat) : Option (Nat × Option Nat) :=
  let c := s.core n
  let a := c.memAddr w1
  let ni := bitOf w0 31
  if slotIllegal 0 (w0 % 2 ^ 31) || slotIllegal 1 w1 then some (2, none)
  else if (c.branchTo w0).any pcBad then some (3, none)
  else if isMemOp w1 && isLocal a && a % memSize (bits w1 25 6) != 0 then some (4, some a)
  else if ni && decide (64 < c.niRun + 1) then some (6, none)
  else if ni && (c.isRemote w1 || c.namesPending w0 || c.namesPending w1 || bits w1 25 6 == 0x2C ||
      mfpKind (w0 % 2 ^ 31) == 0x202) then some (7, none)
  else if (bits w1 25 6 == 0x2A || bits w1 25 6 == 0x2B) && !inDmem a && !inShm a then some (8, some a)
  else if mfpKind (w0 % 2 ^ 31) == 0x204 then some (11, none)
  else none

/-- The precise exception of the next bundle. -/
def State.preciseCause (s : State) (n : Nat) (e : BundleEcc) : Option (Nat × Option Nat) :=
  let pc := (s.core n).pc
  if pcBad pc then some (3, none)
  else if e.fetch = .uncorrectable then some (5, some (0x01000000 + pc))
  else s.bundleCause n (s.slotWord n 0) (s.slotWord n 1)

/-! Entry (R339, R340). -/

/-- Where the handler of a cause starts (R338). -/
def MfpCore.vector (c : MfpCore) (cause : Nat) : Nat := (c.vbase + cause * 32) % 2 ^ 32

/-- EXCEPTION_ENTRY: entry for an exception or a maskable interrupt. -/
def MfpCore.enter (c : MfpCore) (cause : Nat) (st : Bool) : MfpCore :=
  let c := c.flush
  let c :=
    { c with
      epc := c.pc, estat := c.stat, cause := cause + (if st then 256 else 0), res := none, lastNi := false
      niRun := 0, skipExec := false, pc := c.vector cause }
  ((c.setStat 0 false).setStat 3 false).setStat 1 true

/-- Entry for the NMI: NPC and NSTAT instead, and NMIL. -/
def MfpCore.enterNmi (c : MfpCore) : MfpCore :=
  let c := c.flush
  let c :=
    { c with
      npc := c.pc, nstat := c.stat, cause := 1, res := none, lastNi := false, niRun := 0, nmi := false
      skipExec := false, pc := c.vector 1 }
  (c.setStat 3 false).setStat 2 true

/-- An exception, precise or imprecise: a double fault while EXL = 1 resets the MFP (R340). -/
def State.mfpException (s : State) (n cause : Nat) (addr : Option Nat) (st : Bool) : State :=
  if (s.core n).exl then s.mfpReset n 2
  else s.updCore n fun c =>
    let c := c.enter cause st
    match addr with
    | none => c
    | some a => { c with badaddr := a }

/-- An imprecise exception can be taken: its access is complete, and the boundary follows no NI bundle (R341). -/
def MfpCore.impreciseDue (c : MfpCore) : Bool := !c.lastNi && c.imprecise.any fun i => i.left == 0

/-- The oldest imprecise exception of a complete access is taken. -/
def State.mfpImprecise (s : State) (n : Nat) : State :=
  let l := (s.core n).imprecise
  let k := l.findIdx fun i => i.left == 0
  match l[k]? with
  | none => s
  | some i => (s.updCore n fun c => { c with imprecise := l.eraseIdx k }).mfpException n i.cause (some i.addr) i.st

/-- An imprecise exception is recorded, for an access that completes in `left` cycles. -/
def State.addImprecise (s : State) (n cause addr : Nat) (st : Bool) (left : Nat := 0) : State :=
  s.updCore n fun c => { c with imprecise := c.imprecise ++ [{ cause := cause, addr := addr, st := st, left := left }] }

/-! Comparators (R544). -/

/-- The context condition of a comparator. -/
def State.ctxMatch (s : State) (n : Nat) (en : Bool) : Bool :=
  !en || (s.rd (MFP.CTXID.f n) &&& s.rd (DBG.M_CTXMASK.f n)) == (s.rd (DBG.M_CTX.f n) &&& s.rd (DBG.M_CTXMASK.f n))

/-- A halt is requested of a core: the first request stands until it is taken. -/
def State.requestHalt (s : State) (n cause unit : Nat) : State :=
  if s.flag (DBG.HALTED.f n) || (s.core n).haltReq.isSome then s
  else (s.updCore n fun c => { c with haltReq := some (cause, unit), haltFor := 0 }).setFlag (DBG.DEFER.f n) true

/-- COMPARATOR_FIRE: the action of a comparator. -/
def State.comparatorFire (s : State) (n cause unit act : Nat) : State :=
  let s := if act = 1 || act = 2 then s.pulse 1614 else s
  if act = 1 then s else s.requestHalt n cause unit

/-- ACk belongs to the range of the even comparator below it. -/
def State.acInRange (s : State) (n k : Nat) : Bool := k % 2 == 1 && s.flag (DBG.M_AC_CTL_RANGE.f n (k - 1))

/-- ACk matches a span of addresses, in units of `u` bytes. -/
def State.acHits (s : State) (n k u lo hi : Nat) : Bool :=
  let a := s.rd (DBG.M_AC_ADDR.f n k)
  if k % 2 == 0 && s.flag (DBG.M_AC_CTL_RANGE.f n k) then
    decide (a ≤ hi) && decide (lo ≤ s.rd (DBG.M_AC_ADDR.f n (k + 1)))
  else decide (lo / u ≤ a / u) && decide (a / u ≤ hi / u)

/-- A value matches DWj. -/
def State.dwHits (s : State) (n j v : Nat) : Bool :=
  (v &&& s.rd (DBG.M_DW_MASK.f n j)) == (s.rd (DBG.M_DW_VAL.f n j) &&& s.rd (DBG.M_DW_MASK.f n j))

/-- The execute comparators at the PC. -/
def State.execComparators (s : State) (n : Nat) : State :=
  let pc := (s.core n).pc
  s.forUpTo 8 fun s k =>
    if s.rd (DBG.M_AC_CTL_KIND.f n k) == 1 && !s.acInRange n k && !s.flag (DBG.M_AC_CTL_LINK.f n k) &&
        s.acHits n k 8 pc (pc + 7) && s.ctxMatch n (s.flag (DBG.M_AC_CTL_CTXEN.f n k)) then
      s.comparatorFire n 2 k (s.rd (DBG.M_AC_CTL_ACT.f n k))
    else s

/-- The data comparators on an access; `v` is its value where it is known, and `linked` says whether only the
comparators that need the value are asked. -/
def State.dataComparators (s : State) (n : Nat) (store : Bool) (a size : Nat) (v : Option Nat) (linked : Bool) : State :=
  let s := s.forUpTo 8 fun s k =>
    let kind := s.rd (DBG.M_AC_CTL_KIND.f n k)
    let link := s.flag (DBG.M_AC_CTL_LINK.f n k)
    let val := if link then v.any fun x => s.dwHits n (s.rd (DBG.M_AC_CTL_DWSEL.f n k)) (x % 2 ^ 32) else !linked
    if (kind == 4 || kind == (if store then 3 else 2)) && !s.acInRange n k && s.acHits n k 4 a (a + size - 1) && val &&
        s.ctxMatch n (s.flag (DBG.M_AC_CTL_CTXEN.f n k)) then
      s.comparatorFire n 3 k (s.rd (DBG.M_AC_CTL_ACT.f n k))
    else s
  match v with
  | none => s
  | some x =>
    s.forUpTo 4 fun s j =>
      if s.flag (DBG.M_DW_CTL_ANY.f n j) && s.dwHits n j (x % 2 ^ 32) &&
          s.ctxMatch n (s.flag (DBG.M_DW_CTL_CTXEN.f n j)) then
        s.comparatorFire n 3 (8 + j) (s.rd (DBG.M_DW_CTL_ACT.f n j))
      else s

/-! The boundary before a bundle (R332, R337, R340, R341, R538). -/

/-- A halt request can be taken at this boundary: a reservation defers it for 256 cycles. -/
def MfpCore.haltDue (c : MfpCore) : Bool := c.haltReq.isSome && !c.lastNi && (c.res.isNone || decide (256 ≤ c.haltFor))

/-- The core halts: its local results are written, a reservation that it still holds is cleared, the PC and the cause
are recorded, and a halt is requested of its group (R538, R539). -/
def State.haltNow (s : State) (n cause unit : Nat) : State :=
  let s := s.updCore n fun c => { c.flush with haltReq := none, haltFor := 0, stepping := false, idle := 0, res := none }
  let s := (s.setFlag (DBG.HALTED.f n) true).setFlag (DBG.DEFER.f n) false
  let s := ((s.wr (DBG.M_PC.f n) (s.core n).pc).wr (DBG.M_HCAUSE_CAUSE.f n) cause).wr (DBG.M_HCAUSE_UNIT.f n) unit
  s.forUpTo 8 fun s m =>
    if bitOf (s.rd (DBG.M_HGRP.f n)) m && m != n && s.hasMfp m && (s.core m).released then s.requestHalt m 5 0 else s

/-- A halt request that can be taken is. -/
def State.takeHalt (s : State) (n : Nat) : State :=
  match (s.core n).haltReq with
  | none => s
  | some (cause, unit) => if (s.core n).haltDue then s.haltNow n cause unit else s

/-- The end of a STEP is a halt request (R538, R541). -/
def State.stepEnd (s : State) (n : Nat) : State :=
  if (s.core n).stepping then
    ((s.updCore n fun c => { c with stepping := false }).requestHalt n 4 0).takeHalt n
  else s

/-- The NMI is due, which a stepped core considers only with STEPINT. -/
def State.nmiDue (s : State) (n : Nat) : Bool :=
  let c := s.core n
  c.nmi && !c.nmil && !c.lastNi && (!c.stepping || s.flag (DBG.STEPINT.f n))

/-- A maskable interrupt is due. -/
def State.irqDue (s : State) (n : Nat) : Bool :=
  let c := s.core n
  s.mfpIrq n != 0 && c.ie && !c.exl && !c.lastNi && c.res.isNone && (!c.stepping || s.flag (DBG.STEPINT.f n))

/-- The bundle is held before it issues: a pending register, a full queue, or a FENCE (R318, R332). -/
def State.bundleHeld (s : State) (n : Nat) : Bool :=
  let c := s.core n
  let w0 := s.slotWord n 0
  let w1 := s.slotWord n 1
  let op := bits w1 25 6
  let store := decide (0x26 ≤ op) && decide (op ≤ 0x29)
  c.namesPending w0 || c.namesPending w1 || (op == 0x2C && !c.remotes.isEmpty) ||
    (c.isRemote w1 && (if store then decide (16 ≤ c.stores) else decide (8 ≤ c.loads)))

/-- The boundary before a bundle: the state after what happens there, and whether the bundle issues. The NMI, a halt
and a maskable interrupt that are due wait for their own commands. -/
def State.mfpBoundary (s : State) (n : Nat) (e : BundleEcc) : State × Bool :=
  let c := s.core n
  if !c.released || !s.bit CLK.LK_MFP.f n || s.flag (DBG.HALTED.f n) || c.waiting || c.haltDue ||
      s.nmiDue n then (s, false)
  else
    match s.preciseCause n e with
    | some (code, addr) => ((s.mfpException n code addr false).stepEnd n, false)
    | none =>
      if c.impreciseDue then ((s.mfpImprecise n).stepEnd n, false)
      else if s.irqDue n || s.bundleHeld n then (s, false)
      else
        let s := if c.skipExec then s else s.execComparators n
        if (s.core n).haltDue then (s, false)
        else if e.fetch = .corrected then (s.incSat (MFP.ECC_CNT.f n), true)
        else (s, true)

/-! The end of a bundle (R333, R334). -/

/-- The bundle at LE issues while LA = 1; the LOOP that sets LE does not count. -/
def MfpCore.atLe (c : MfpCore) : Bool := c.la && c.pc == c.le && !c.looped

/-- The loop at the bundle at LE (R334), and the next PC. -/
def MfpCore.advance (c : MfpCore) : MfpCore :=
  match c.target with
  | some t => { c with pc := t }
  | none =>
    if c.atLe then
      let c := if c.rot then { c with rb := (c.rb + 15) % 16 } else c
      if 1 < c.lc then { c with lc := c.lc - 1, pc := c.ls }
      else ({ c with lc := 0, pc := c.pc + 8 } : MfpCore).setStat 3 false
    else { c with pc := c.pc + 8 }

/-- A bundle has issued: its cycle and the idle cycles after it pass, the next PC is decided and MTSR writes take
effect. -/
def MfpCore.endBundle (c : MfpCore) (ni : Bool) : MfpCore :=
  let k := 1 + c.idle
  let c := (c.cycles k).advance
  let c := c.srNext.foldl (fun c x => c.putSr x.1 x.2) c
  { c with
    slot := 0, target := none, looped := false, idle := 0, srNext := [], niRun := if ni then c.niRun + k else 0, lastNi := ni,
    skipExec := false }

/-- The end of the bundle at the PC. -/
def State.endBundle (s : State) (n : Nat) (ni : Bool) : State :=
  let k := 1 + (s.core n).idle
  ((s.updCore n fun c => c.endBundle ni).mfpTime n k).stepEnd n

/-- The instruction of a slot issues: slot 0 at a boundary, then slot 1, with which the bundle ends. `kind` is the code
of the instruction and `act` what it does with its word. -/
def State.mfpSlot (s : State) (n : Nat) (e : BundleEcc) (kind : Nat) (act : State → Nat → Nat → State) : State :=
  let c := s.core n
  let w0 := s.slotWord n 0
  if c.slot = 0 then
    if mfpKind (w0 % 2 ^ 31) != kind then s
    else
      let g := s.mfpBoundary n e
      if g.2 then (act g.1 n (w0 % 2 ^ 31)).updCore n fun c => { c with slot := 1 } else g.1
  else
    let w1 := s.slotWord n 1
    if mfpKind w1 != kind || !s.bit CLK.LK_MFP.f n then s else (act s n w1).endBundle n (bitOf w0 31)

end Sys2Proof.Machine
end

