-- ==== Sys2Proof/Machine/MfpOps.lean ====
section
/-! DEFINITION. The instructions of the flow processors (R326 to R328, R334, R335). A command of an instruction issues
it from the slot that is next on its core. Log entries 47, 49, 50, 51, 54 and 56. -/

namespace Sys2Proof.Machine

/-! Arithmetic (R326, R327). -/

/-- A result in a register: wrapped, or with S = 1 the nearer end of the signed range. -/
def narrow32 (sat : Bool) (r : Int) : Nat := if sat then unsignedOf 32 (min (max r (-2 ^ 31)) (2 ^ 31 - 1)) else unsignedOf 32 r

/-- A result in an accumulator. -/
def narrow40 (sat : Bool) (r : Int) : Nat := if sat then unsignedOf 40 (min (max r (-2 ^ 39)) (2 ^ 39 - 1)) else unsignedOf 40 r

/-- The signed value of a register. -/
def sx32 (v : Nat) : Int := signedOf 32 v

/-- An R-format instruction: rd := f of ra and rb, visible after `lat` cycles. -/
def State.opR (s : State) (n w lat : Nat) (f : Nat → Nat → Nat) : State :=
  s.updCore n fun c => c.result lat (bits w 19 5) (f (c.get (bits w 14 5)) (c.get (bits w 9 5)))

/-- An R-format instruction on signed values that may saturate. -/
def State.opRs (s : State) (n w lat : Nat) (f : Int → Int → Int) : State :=
  s.opR n w lat fun a b => narrow32 (bitOf w 24) (f (sx32 a) (sx32 b))

/-- An I-format instruction on ra and the immediate. -/
def State.opI (s : State) (n w : Nat) (f : Nat → Nat) : State :=
  s.updCore n fun c => c.result 1 (bits w 19 5) (f (c.get (bits w 14 5)))

def opNop (s : State) (_ _ : Nat) : State := s
def opAdd (s : State) (n w : Nat) : State := s.opRs n w 1 fun a b => a + b
def opSub (s : State) (n w : Nat) : State := s.opRs n w 1 fun a b => a - b
def opAnd (s : State) (n w : Nat) : State := s.opR n w 1 fun a b => a &&& b
def opOr (s : State) (n w : Nat) : State := s.opR n w 1 fun a b => a ||| b
def opXor (s : State) (n w : Nat) : State := s.opR n w 1 fun a b => a ^^^ b
def opSll (s : State) (n w : Nat) : State := s.opR n w 1 fun a b => narrow32 (bitOf w 24) (sx32 a * 2 ^ (b % 32))
def opSrl (s : State) (n w : Nat) : State := s.opR n w 1 fun a b => a / 2 ^ (b % 32)
def opSra (s : State) (n w : Nat) : State := s.opR n w 1 fun a b => unsignedOf 32 (sx32 a / 2 ^ (b % 32))
def opSlt (s : State) (n w : Nat) : State := s.opR n w 1 fun a b => b2n (sx32 a < sx32 b)
def opSltu (s : State) (n w : Nat) : State := s.opR n w 1 fun a b => b2n (a < b)
def opMin (s : State) (n w : Nat) : State := s.opR n w 1 fun a b => if sx32 a ≤ sx32 b then a else b
def opMax (s : State) (n w : Nat) : State := s.opR n w 1 fun a b => if sx32 a ≤ sx32 b then b else a
def opAbs (s : State) (n w : Nat) : State := s.opRs n w 1 fun a _ => a.natAbs
def opMul (s : State) (n w : Nat) : State := s.opRs n w 2 fun a b => a * b
def opMulq (s : State) (n w : Nat) : State := s.opRs n w 2 fun a b => a * b / 2 ^ 31
def opAddi (s : State) (n w : Nat) : State := s.opI n w fun a => narrow32 (bitOf w 24) (sx32 a + signedOf 14 w)
def opAndi (s : State) (n w : Nat) : State := s.opI n w fun a => a &&& bits w 0 14
def opOri (s : State) (n w : Nat) : State := s.opI n w fun a => a ||| bits w 0 14
def opXori (s : State) (n w : Nat) : State := s.opI n w fun a => a ^^^ bits w 0 14
def opSlti (s : State) (n w : Nat) : State := s.opI n w fun a => b2n (sx32 a < signedOf 14 w)
def opLui (s : State) (n w : Nat) : State := s.updCore n fun c => c.result 1 (bits w 19 5) (bits w 0 18 * 2 ^ 14)

/-- SHI: kind in imm[6:5], amount in imm[4:0]. -/
def opShi (s : State) (n w : Nat) : State :=
  s.opI n w fun a =>
    match bits w 5 2 with
    | 0 => narrow32 (bitOf w 24) (sx32 a * 2 ^ bits w 0 5)
    | 1 => a / 2 ^ bits w 0 5
    | _ => unsignedOf 32 (sx32 a / 2 ^ bits w 0 5)

/-- MAXS and MINS: the pair takes ra and rb where `better` holds of ra and the pair's first register. -/
def State.opPair (s : State) (n w : Nat) (better : Int → Int → Bool) : State :=
  s.updCore n fun c =>
    let d := bits w 19 5
    let a := c.get (bits w 14 5)
    if better (sx32 a) (sx32 (c.get d)) then (c.result 1 d a).result 1 (d + 1) (c.get (bits w 9 5)) else c

def opMaxs (s : State) (n w : Nat) : State := s.opPair n w fun a d => decide (d < a)
def opMins (s : State) (n w : Nat) : State := s.opPair n w fun a d => decide (a < d)

/-! Accumulators (R326, R329, R330). -/

/-- The signed 16 × 16 product chosen by H. -/
def macProduct (h a b : Nat) : Int :=
  let lo := fun (v : Nat) => signedOf 16 v
  let hi := fun (v : Nat) => signedOf 16 (v / 65536)
  match h with
  | 0 => lo a * lo b
  | 1 => hi a * hi b
  | 2 => lo a * hi b
  | _ => lo a * lo b + hi a * hi b

/-- SH, codes above 8 treated as 8. -/
def accShift (w : Nat) : Nat := min 8 (bits w 0 5)

/-- An accumulator instruction: acc := f of acc, ra and rb. -/
def State.opAcc (s : State) (n w : Nat) (f : Int → Nat → Nat → Int) : State :=
  s.updCore n fun c =>
    let k := bits w 7 2
    c.putAcc k 0 (narrow40 (bitOf w 24) (f (signedOf 40 (c.accAt k 0)) (c.get (bits w 14 5)) (c.get (bits w 9 5))))

def opMac (s : State) (n w : Nat) : State :=
  s.opAcc n w fun acc a b => acc + macProduct (bits w 5 2) a b * 2 ^ accShift w
def opMsu (s : State) (n w : Nat) : State :=
  s.opAcc n w fun acc a b => acc - macProduct (bits w 5 2) a b * 2 ^ accShift w
def opAccld (s : State) (n w : Nat) : State := s.opAcc n w fun _ a _ => sx32 a * 2 ^ accShift w
def opAccadd (s : State) (n w : Nat) : State := s.opAcc n w fun acc a _ => acc + sx32 a * 2 ^ accShift w

/-- ACCRD reads the accumulator as every instruction of four cycles ago or earlier left it (R330). -/
def opAccrd (s : State) (n w : Nat) : State :=
  s.updCore n fun c =>
    c.result 2 (bits w 19 5) (narrow32 (bitOf w 24) (signedOf 40 (c.accAt (bits w 7 2) 4) / 2 ^ bits w 0 5))

/-! Loads and stores (R316, R318, R328, R332). -/

/-- A loaded value of `size` bytes, extended to its registers. -/
def loadExt (signed : Bool) (size v : Nat) : Nat :=
  if size = 8 then v else if signed then unsignedOf 32 (signedOf (8 * size) v) else v % 2 ^ (8 * size)

/-- The destination registers of a load, one or a pair. -/
def MfpCore.loadDest (c : MfpCore) (w size : Nat) : List Nat :=
  let d := bits w 19 5
  if size = 8 then [c.phys d, c.phys (d + 1)] else [c.phys d]

/-- The address update of AM 1 and AM 2. -/
def MfpCore.addrUpdate (c : MfpCore) (w : Nat) : MfpCore :=
  match c.memUpdate w with
  | none => c
  | some v => c.result 1 (bits w 14 5) v

/-- A local load of a loaded value into its registers, after three cycles. -/
def MfpCore.loadResult (c : MfpCore) (w size v : Nat) : MfpCore :=
  let c := c.result 3 (bits w 19 5) (v % 2 ^ 32)
  if size = 8 then c.result 3 (bits w 19 5 + 1) (v / 2 ^ 32) else c

/-- The bytes of a local read: IMEM and DMEM as memory, the registers and aliases as words (R33); none is a bus error.
-/
def State.localRead (s : State) (n a size : Nat) : State × Option Nat :=
  if inImem a || inDmem a then (s, some (s.bytes (mfpKey n a) size))
  else if size = 8 then (s, none)
  else if inLocalAlias a then (s, some (s.mfpAliasRead n ((a - 0x00800000) / 4 * 4) / 2 ^ (8 * (a % 4)) % 2 ^ (8 * size)))
  else
    let r := s.mfpRegRead n (a / 4 * 4)
    (r.1, some (r.2 / 2 ^ (8 * (a % 4)) % 2 ^ (8 * size)))

/-- A local load. -/
def State.loadLocal (s : State) (n w a size : Nat) (signed : Bool) (e : Ecc) : State :=
  let r := s.localRead n a size
  let s := r.1
  let mem := inImem a || inDmem a
  match r.2 with
  | none => (s.updCore n fun c => c.loadResult w size 0).addImprecise n 9 a false 3
  | some v =>
    if mem && e = .uncorrectable then (s.updCore n fun c => c.loadResult w size 0).addImprecise n 5 a false 3
    else
      let s := if mem && e = .corrected then s.incSat (MFP.ECC_CNT.f n) else s
      let v := loadExt signed size v
      (s.updCore n fun c => c.loadResult w size v).dataComparators n false a size (some v) false

/-- A remote access is handed to its queue. -/
def State.pushRemote (s : State) (n : Nat) (k : RemoteKind) (a size data : Nat) (dest : List Nat) : State :=
  s.updCore n fun c =>
    { c with remotes := c.remotes ++
      [{ kind := k, addr := a, size := size, data := data, dest := dest, win := if inAperture a then s.apWindow n a else none }] }

/-- A load instruction. -/
def State.opLoad (s : State) (n w : Nat) (signed : Bool) (e : Ecc) : State :=
  let c := s.core n
  let a := c.memAddr w
  let size := memSize (bits w 25 6)
  let s := s.updCore n fun c => c.addrUpdate w
  if isLocal a then s.loadLocal n w a size signed e
  else (s.pushRemote n (.load signed) a size 0 (c.loadDest w size)).dataComparators n false a size none false

/-- A local write: registers take 32-bit writes alone (R33). -/
def State.localWrite (s : State) (n a size v : Nat) : State :=
  if inImem a || inDmem a then s.localStore n a size v
  else if size != 4 then s.addImprecise n 9 a true
  else if inLocalAlias a then s.mfpAliasWrite n (a - 0x00800000) v
  else s.mfpRegWrite n a v

/-- The value that a store writes. -/
def MfpCore.storeData (c : MfpCore) (w size : Nat) : Nat :=
  let d := bits w 19 5
  if size = 8 then c.get d + c.get (d + 1) * 2 ^ 32 else c.get d % 2 ^ (8 * size)

/-- A store instruction. -/
def State.opStore (s : State) (n w : Nat) : State :=
  let c := s.core n
  let a := c.memAddr w
  let size := memSize (bits w 25 6)
  let v := c.storeData w size
  let s := s.updCore n fun c => c.addrUpdate w
  let s := if isLocal a then s.localWrite n a size v else s.pushRemote n .store a size v []
  s.dataComparators n true a size (some v) false

def opLdw (e : Ecc) (s : State) (n w : Nat) : State := s.opLoad n w false e
def opLdh (e : Ecc) (s : State) (n w : Nat) : State := s.opLoad n w true e
def opLdhu (e : Ecc) (s : State) (n w : Nat) : State := s.opLoad n w false e
def opLdb (e : Ecc) (s : State) (n w : Nat) : State := s.opLoad n w true e
def opLdbu (e : Ecc) (s : State) (n w : Nat) : State := s.opLoad n w false e
def opLdd (e : Ecc) (s : State) (n w : Nat) : State := s.opLoad n w false e
def opStw (s : State) (n w : Nat) : State := s.opStore n w
def opSth (s : State) (n w : Nat) : State := s.opStore n w
def opStb (s : State) (n w : Nat) : State := s.opStore n w
def opStd (s : State) (n w : Nat) : State := s.opStore n w

/-! Locked sequences (R335). -/

/-- The key in `State.mem` of a byte of DMEM or SHM. -/
def lockKey (n a : Nat) : Nat := if inDmem a then mfpKey n a else shmKey (a - 0x04000000)

/-- LL loads the word and sets the reservation on its line. -/
def opLl (e : Ecc) (s : State) (n w : Nat) : State :=
  let c := s.core n
  let a := c.memAddr w
  let s := s.updCore n fun c => { c.addrUpdate w with res := some (lockKey n a / 64) }
  if inDmem a then s.loadLocal n w a 4 false e
  else (s.pushRemote n .ll a 4 0 (c.loadDest w 4)).dataComparators n false a 4 none false

/-- SC stores if the reservation covers its address; in every case it clears the reservation. One to SHM takes the
reservation with it, and the store is decided when it completes (log entry 50). -/
def opSc (s : State) (n w : Nat) : State :=
  let c := s.core n
  let a := c.memAddr w
  let v := c.storeData w 4
  let s := s.updCore n fun c => c.addrUpdate w
  if inDmem a then
    let ok := c.res == some (lockKey n a / 64)
    let s := if ok then s.localStore n a 4 v else s
    (s.updCore n fun c => { c.loadResult w 4 (b2n ok) with res := none }).dataComparators n true a 4 (some v) false
  else
    (s.updCore n fun d =>
      { d with
        res := none
        remotes := d.remotes ++
          [{ kind := .sc, addr := a, size := 4, data := v, dest := c.loadDest w 4, win := none, res := c.res }] }).dataComparators
      n true a 4 (some v) false

def opFence (s : State) (_ _ : Nat) : State := s
def opClrres (s : State) (n _ : Nat) : State := s.updCore n fun c => { c with res := none }

/-! Control flow (R326, R333, R334). -/

/-- What the loop at LE does where its bundle goes elsewhere: RB and LC move, from the next bundle on (log entry 51). -/
def MfpCore.leaveLe (c : MfpCore) : List (Nat × Nat) :=
  if c.atLe then (if c.rot then [(11, c.rb + 15)] else []) ++ [(8, c.lc - 1)] else []

/-- The next bundle is elsewhere, and none issues in the two cycles between. -/
def MfpCore.goTo (c : MfpCore) (t : Nat) : MfpCore := { c with target := some t, idle := 2, srNext := c.srNext ++ c.leaveLe }

/-- A branch that is taken clears LA. -/
def MfpCore.take (c : MfpCore) (t : Nat) : MfpCore := (c.goTo t).setStat 3 false

/-- The branch of slot 0, taken or not. -/
def State.opBranch (s : State) (n w : Nat) : State :=
  s.updCore n fun c =>
    match c.branchTo w with
    | none => c
    | some t => c.take t.toNat

def opBeq (s : State) (n w : Nat) : State := s.opBranch n w
def opBne (s : State) (n w : Nat) : State := s.opBranch n w
def opBlt (s : State) (n w : Nat) : State := s.opBranch n w
def opBge (s : State) (n w : Nat) : State := s.opBranch n w
def opJ (s : State) (n w : Nat) : State := s.opBranch n w

/-- The link of CALL and of JR with S = 1. -/
def State.opLink (s : State) (n : Nat) : State := s.updCore n fun c => c.result 1 1 (c.pc + 8)

def opCall (s : State) (n w : Nat) : State := (s.opBranch n w).opLink n
def opJr (s : State) (n w : Nat) : State := if bitOf w 24 then (s.opBranch n w).opLink n else s.opBranch n w

/-- LOOP (R334). -/
def opLoop (s : State) (n w : Nat) : State :=
  s.updCore n fun c =>
    ({ c with lc := max 1 (c.get (bits w 14 5)), ls := c.pc + 8, le := c.pc + 8 * bits w 0 14, looped := true }.setStat 3
      true).setStat 4 (bitOf w 24)

/-! SYS (R326, R339, R342). -/

/-- RETI and RETN go to the saved PC with the saved STAT, at the cost of a taken branch. -/
def opReti (s : State) (n _ : Nat) : State :=
  s.updCore n fun c => { c.goTo c.epc with stat := c.estat }
def opRetn (s : State) (n _ : Nat) : State :=
  s.updCore n fun c => { c.goTo c.npc with stat := c.nstat }
def opWait (s : State) (n _ : Nat) : State := s.updCore n fun c => { c with waiting := true }

/-- ISYNC makes later fetches see earlier stores to IMEM. -/
def opIsync (s : State) (n _ : Nat) : State :=
  (s.withTabs (s.tabs.filter fun e => e.1 / 2 ^ 32 != 22 * 2 ^ 16 + n)).updCore n fun c => { c with idle := 2 }

/-- TRAP is a precise exception: its bundle does not issue (R338). -/
def opTrap (s : State) (_ _ : Nat) : State := s
def opMfsr (s : State) (n w : Nat) : State := s.updCore n fun c => c.result 1 (bits w 19 5) (c.sr (bits w 9 5))
def opMtsr (s : State) (n w : Nat) : State :=
  s.updCore n fun c => { c with srNext := c.srNext ++ [(bits w 9 5, c.get (bits w 14 5))] }

/-! The commands. -/

def execMfpNop (m : MfpId) (e : BundleEcc) (s : State) : Out := done (s.mfpSlot m e 0x0 opNop)
def execMfpAdd (m : MfpId) (e : BundleEcc) (s : State) : Out := done (s.mfpSlot m e 0x1 opAdd)
def execMfpSub (m : MfpId) (e : BundleEcc) (s : State) : Out := done (s.mfpSlot m e 0x2 opSub)
def execMfpAnd (m : MfpId) (e : BundleEcc) (s : State) : Out := done (s.mfpSlot m e 0x3 opAnd)
def execMfpOr (m : MfpId) (e : BundleEcc) (s : State) : Out := done (s.mfpSlot m e 0x4 opOr)
def execMfpXor (m : MfpId) (e : BundleEcc) (s : State) : Out := done (s.mfpSlot m e 0x5 opXor)
def execMfpSll (m : MfpId) (e : BundleEcc) (s : State) : Out := done (s.mfpSlot m e 0x6 opSll)
def execMfpSrl (m : MfpId) (e : BundleEcc) (s : State) : Out := done (s.mfpSlot m e 0x7 opSrl)
def execMfpSra (m : MfpId) (e : BundleEcc) (s : State) : Out := done (s.mfpSlot m e 0x8 opSra)
def execMfpSlt (m : MfpId) (e : BundleEcc) (s : State) : Out := done (s.mfpSlot m e 0x9 opSlt)
def execMfpSltu (m : MfpId) (e : BundleEcc) (s : State) : Out := done (s.mfpSlot m e 0xA opSltu)
def execMfpMin (m : MfpId) (e : BundleEcc) (s : State) : Out := done (s.mfpSlot m e 0xB opMin)
def execMfpMax (m : MfpId) (e : BundleEcc) (s : State) : Out := done (s.mfpSlot m e 0xC opMax)
def execMfpAbs (m : MfpId) (e : BundleEcc) (s : State) : Out := done (s.mfpSlot m e 0xD opAbs)
def execMfpMul (m : MfpId) (e : BundleEcc) (s : State) : Out := done (s.mfpSlot m e 0xE opMul)
def execMfpMulq (m : MfpId) (e : BundleEcc) (s : State) : Out := done (s.mfpSlot m e 0xF opMulq)
def execMfpAddi (m : MfpId) (e : BundleEcc) (s : State) : Out := done (s.mfpSlot m e 0x10 opAddi)
def execMfpAndi (m : MfpId) (e : BundleEcc) (s : State) : Out := done (s.mfpSlot m e 0x11 opAndi)
def execMfpOri (m : MfpId) (e : BundleEcc) (s : State) : Out := done (s.mfpSlot m e 0x12 opOri)
def execMfpXori (m : MfpId) (e : BundleEcc) (s : State) : Out := done (s.mfpSlot m e 0x13 opXori)
def execMfpShi (m : MfpId) (e : BundleEcc) (s : State) : Out := done (s.mfpSlot m e 0x14 opShi)
def execMfpSlti (m : MfpId) (e : BundleEcc) (s : State) : Out := done (s.mfpSlot m e 0x15 opSlti)
def execMfpLui (m : MfpId) (e : BundleEcc) (s : State) : Out := done (s.mfpSlot m e 0x16 opLui)
def execMfpMaxs (m : MfpId) (e : BundleEcc) (s : State) : Out := done (s.mfpSlot m e 0x17 opMaxs)
def execMfpMins (m : MfpId) (e : BundleEcc) (s : State) : Out := done (s.mfpSlot m e 0x18 opMins)
def execMfpLdw (m : MfpId) (e : BundleEcc) (s : State) : Out := done (s.mfpSlot m e 0x20 (opLdw e.load))
def execMfpLdh (m : MfpId) (e : BundleEcc) (s : State) : Out := done (s.mfpSlot m e 0x21 (opLdh e.load))
def execMfpLdhu (m : MfpId) (e : BundleEcc) (s : State) : Out := done (s.mfpSlot m e 0x22 (opLdhu e.load))
def execMfpLdb (m : MfpId) (e : BundleEcc) (s : State) : Out := done (s.mfpSlot m e 0x23 (opLdb e.load))
def execMfpLdbu (m : MfpId) (e : BundleEcc) (s : State) : Out := done (s.mfpSlot m e 0x24 (opLdbu e.load))
def execMfpLdd (m : MfpId) (e : BundleEcc) (s : State) : Out := done (s.mfpSlot m e 0x25 (opLdd e.load))
def execMfpStw (m : MfpId) (e : BundleEcc) (s : State) : Out := done (s.mfpSlot m e 0x26 opStw)
def execMfpSth (m : MfpId) (e : BundleEcc) (s : State) : Out := done (s.mfpSlot m e 0x27 opSth)
def execMfpStb (m : MfpId) (e : BundleEcc) (s : State) : Out := done (s.mfpSlot m e 0x28 opStb)
def execMfpStd (m : MfpId) (e : BundleEcc) (s : State) : Out := done (s.mfpSlot m e 0x29 opStd)
def execMfpLl (m : MfpId) (e : BundleEcc) (s : State) : Out := done (s.mfpSlot m e 0x2A (opLl e.load))
def execMfpSc (m : MfpId) (e : BundleEcc) (s : State) : Out := done (s.mfpSlot m e 0x2B opSc)
def execMfpFence (m : MfpId) (e : BundleEcc) (s : State) : Out := done (s.mfpSlot m e 0x2C opFence)
def execMfpClrres (m : MfpId) (e : BundleEcc) (s : State) : Out := done (s.mfpSlot m e 0x2D opClrres)
def execMfpMac (m : MfpId) (e : BundleEcc) (s : State) : Out := done (s.mfpSlot m e 0x30 opMac)
def execMfpMsu (m : MfpId) (e : BundleEcc) (s : State) : Out := done (s.mfpSlot m e 0x31 opMsu)
def execMfpAccld (m : MfpId) (e : BundleEcc) (s : State) : Out := done (s.mfpSlot m e 0x32 opAccld)
def execMfpAccadd (m : MfpId) (e : BundleEcc) (s : State) : Out := done (s.mfpSlot m e 0x33 opAccadd)
def execMfpAccrd (m : MfpId) (e : BundleEcc) (s : State) : Out := done (s.mfpSlot m e 0x34 opAccrd)
def execMfpBeq (m : MfpId) (e : BundleEcc) (s : State) : Out := done (s.mfpSlot m e 0x38 opBeq)
def execMfpBne (m : MfpId) (e : BundleEcc) (s : State) : Out := done (s.mfpSlot m e 0x39 opBne)
def execMfpBlt (m : MfpId) (e : BundleEcc) (s : State) : Out := done (s.mfpSlot m e 0x3A opBlt)
def execMfpBge (m : MfpId) (e : BundleEcc) (s : State) : Out := done (s.mfpSlot m e 0x3B opBge)
def execMfpJ (m : MfpId) (e : BundleEcc) (s : State) : Out := done (s.mfpSlot m e 0x3C opJ)
def execMfpCall (m : MfpId) (e : BundleEcc) (s : State) : Out := done (s.mfpSlot m e 0x400 opCall)
def execMfpJr (m : MfpId) (e : BundleEcc) (s : State) : Out := done (s.mfpSlot m e 0x3D opJr)
def execMfpLoop (m : MfpId) (e : BundleEcc) (s : State) : Out := done (s.mfpSlot m e 0x3E opLoop)
def execMfpReti (m : MfpId) (e : BundleEcc) (s : State) : Out := done (s.mfpSlot m e 0x200 opReti)
def execMfpRetn (m : MfpId) (e : BundleEcc) (s : State) : Out := done (s.mfpSlot m e 0x201 opRetn)
def execMfpWait (m : MfpId) (e : BundleEcc) (s : State) : Out := done (s.mfpSlot m e 0x202 opWait)
def execMfpIsync (m : MfpId) (e : BundleEcc) (s : State) : Out := done (s.mfpSlot m e 0x203 opIsync)
def execMfpTrap (m : MfpId) (e : BundleEcc) (s : State) : Out := done (s.mfpSlot m e 0x204 opTrap)
def execMfpMfsr (m : MfpId) (e : BundleEcc) (s : State) : Out := done (s.mfpSlot m e 0x205 opMfsr)
def execMfpMtsr (m : MfpId) (e : BundleEcc) (s : State) : Out := done (s.mfpSlot m e 0x206 opMtsr)

/-- The instruction of a word, whatever it is, for STEP and FEED_GO. -/
def State.mfpAny (s : State) (n w : Nat) (e : Ecc) : State :=
  match mfpKind w with
  | 0x0 => opNop s n w
  | 0x1 => opAdd s n w
  | 0x2 => opSub s n w
  | 0x3 => opAnd s n w
  | 0x4 => opOr s n w
  | 0x5 => opXor s n w
  | 0x6 => opSll s n w
  | 0x7 => opSrl s n w
  | 0x8 => opSra s n w
  | 0x9 => opSlt s n w
  | 0xA => opSltu s n w
  | 0xB => opMin s n w
  | 0xC => opMax s n w
  | 0xD => opAbs s n w
  | 0xE => opMul s n w
  | 0xF => opMulq s n w
  | 0x10 => opAddi s n w
  | 0x11 => opAndi s n w
  | 0x12 => opOri s n w
  | 0x13 => opXori s n w
  | 0x14 => opShi s n w
  | 0x15 => opSlti s n w
  | 0x16 => opLui s n w
  | 0x17 => opMaxs s n w
  | 0x18 => opMins s n w
  | 0x20 => opLdw e s n w
  | 0x21 => opLdh e s n w
  | 0x22 => opLdhu e s n w
  | 0x23 => opLdb e s n w
  | 0x24 => opLdbu e s n w
  | 0x25 => opLdd e s n w
  | 0x26 => opStw s n w
  | 0x27 => opSth s n w
  | 0x28 => opStb s n w
  | 0x29 => opStd s n w
  | 0x2A => opLl e s n w
  | 0x2B => opSc s n w
  | 0x2C => opFence s n w
  | 0x2D => opClrres s n w
  | 0x30 => opMac s n w
  | 0x31 => opMsu s n w
  | 0x32 => opAccld s n w
  | 0x33 => opAccadd s n w
  | 0x34 => opAccrd s n w
  | 0x38 => opBeq s n w
  | 0x39 => opBne s n w
  | 0x3A => opBlt s n w
  | 0x3B => opBge s n w
  | 0x3C => opJ s n w
  | 0x400 => opCall s n w
  | 0x3D => opJr s n w
  | 0x3E => opLoop s n w
  | 0x200 => opReti s n w
  | 0x201 => opRetn s n w
  | 0x202 => opWait s n w
  | 0x203 => opIsync s n w
  | 0x204 => opTrap s n w
  | 0x205 => opMfsr s n w
  | 0x206 => opMtsr s n w
  | _ => s

/-! Interrupts and the end of WAIT (R337, R340 to R342). -/

/-- The cause code of the highest enabled pending interrupt: EVT, DB, WDW, TMR in that order (R340). -/
def irqCause (irq : Nat) : Nat :=
  if bitOf irq 0 then 12 else if bitOf irq 1 then 13 else if bitOf irq 3 then 14 else 15

/-- At a boundary that allows it, the first case of R340 that applies is taken: a precise exception of the next bundle,
an imprecise one, or the highest enabled interrupt. An NMI that is due comes first, by its own command. -/
def execInterruptEntry (m : MfpId) (e : BundleEcc) (s : State) : Out :=
  let c := s.core m
  done (if !s.mfpClocked m || c.slot != 0 || c.waiting || c.haltDue || s.nmiDue m then s
  else
    match s.preciseCause m e with
    | some (code, addr) => (s.mfpException m code addr false).stepEnd m
    | none =>
      if c.impreciseDue then (s.mfpImprecise m).stepEnd m
      else if s.irqDue m then s.updCore m fun c => c.enter (irqCause (s.mfpIrq m)) false
      else s)

def execNmiEntry (m : MfpId) (s : State) : Out :=
  let c := s.core m
  done (if !s.mfpClocked m || c.slot != 0 || c.waiting || c.haltDue || !s.nmiDue m then s
  else s.updCore m fun c => c.enterNmi)

def execMfpWaitEnd (m : MfpId) (s : State) : Out :=
  let c := s.core m
  done (if s.mfpClocked m && c.waiting && c.slot == 0 && (s.mfpIrq m != 0 || c.nmi) then
    s.updCore m fun c => { c with waiting := false }
  else s)

/-- A reservation still held 256 cycles after a maskable interrupt became pending is cleared (R337). -/
def execReservationTimeout (m : MfpId) (s : State) : Out :=
  done (if (s.core m).res.isSome && s.mfpIrq m != 0 && (s.core m).ie && !(s.core m).exl then
    s.updCore m fun c => { c with res := none }
  else s)

end Sys2Proof.Machine
end

