-- ==== Sys2Proof/Machine/Debug.lean ====
section
/-! DEFINITION. The debug ports (R529 to R546): sessions, authentication, levels, ownership, run control and the TAP.
Log entries 87 and 93. -/

namespace Sys2Proof.Machine

/-- The index of a port in the banked registers. -/
def portIdx : DbgPort → Nat
  | .j => 0
  | .s => 1

/-- The master of a port. -/
def portMaster : DbgPort → Master
  | .j => .dbgJ
  | .s => .dbgS

/-- The port's level. -/
def State.level (s : State) (p : DbgPort) : Nat := s.rd (DBG.LEVEL.f (portIdx p))

/-- An access outside the port's rights has no effect and is answered DENIED (R532). -/
def State.deny (s : State) (p : DbgPort) : State := s.setFlag (DBG.DENIED.f (portIdx p)) true

/-- Do `f` where the port holds `lvl`, and answer DENIED otherwise. -/
def State.atLevel (s : State) (p : DbgPort) (lvl : Nat) (f : State → State) : State :=
  if lvl ≤ s.level p then f (s.setFlag (DBG.DENIED.f (portIdx p)) false) else s.deny p

/-- A command of a port, which is a write of a register of the debug block: port S has it from an SLP session whose
stream 3 is served (R444, R536), and it waits as an access does (R19, R460). -/
def State.portWrite (s : State) (p : DbgPort) (a v : Nat) (f : State → State) : State :=
  if p = .s && (!s.flag ETH.SESS.f || s.safeOnly) then s else s.reach (.write (portMaster p) a v) .dbg f

/-! Ownership (R546). -/

/-- The other port owns the MFP. -/
def State.ownedByOther (s : State) (p : DbgPort) (n : Nat) : Bool :=
  s.rd (DBG.OWN.f n) != 0 && s.rd (DBG.OWN.f n) != portIdx p + 1

/-- Do `f` to an MFP that the port owns or that is free; a free one becomes the port's. -/
def State.owning (s : State) (p : DbgPort) (n : Nat) (f : State → State) : State :=
  if s.ownedByOther p n then s.deny p
  else f ((s.wr (DBG.OWN.f n) (portIdx p + 1)).setFlag (DBG.DENIED.f (portIdx p)) false)

/-- A run-control write: the level, the owner, and the MFP present. -/
def State.runControl (s : State) (p : DbgPort) (lvl n : Nat) (f : State → State) : State :=
  if !s.hasMfp n then s.absentHit (DBG.HALTED.f n).addr else s.atLevel p lvl fun s => s.owning p n f

/-! Halt, resume and step (R538 to R541). -/

/-- A halted core goes on at its PC; the bundle there issues without its execute comparators, and the watchdog reloads
unless it counted through the halt. -/
def State.goOn (s : State) (n : Nat) (step : Bool) : State :=
  let s := (s.setFlag (DBG.HALTED.f n) false).updCore n fun c => { c with stepping := step, skipExec := true }
  let s := (s.wr (DBG.M_HCAUSE_CAUSE.f n) 0).wr (DBG.M_HCAUSE_UNIT.f n) 0
  if s.flag (MFP.WDT_CTRL_RUNHALT.f n) then s else s.wdtReload n

/-- RESUME: ignored on a running MFP. -/
def State.resume (s : State) (n : Nat) : State := if s.flag (DBG.HALTED.f n) then s.goOn n false else s

/-- STEP: the core runs until its next bundle has issued, and halts again with cause STEP. -/
def State.stepMfp (s : State) (n : Nat) : State := if s.flag (DBG.HALTED.f n) then s.goOn n true else s

/-- HALT: ignored on a halted MFP, and on one in reset. -/
def State.haltMfp (s : State) (n : Nat) : State := if (s.core n).released then s.requestHalt n 1 0 else s

/-- The write of a run-control bit through a port; RESUME makes no owner, and needs none (R546). -/
def State.dbgHalt (s : State) (p : DbgPort) (n : Nat) : State := s.runControl p 2 n fun s => s.haltMfp n
def State.dbgStep (s : State) (p : DbgPort) (n : Nat) : State := s.runControl p 2 n fun s => s.stepMfp n
def State.dbgReset (s : State) (p : DbgPort) (n : Nat) : State :=
  s.runControl p 3 n fun s => if (s.core n).released then s.mfpReset n 3 else s
def State.dbgResume (s : State) (p : DbgPort) (n : Nat) : State :=
  if !s.hasMfp n then s.absentHit (DBG.HALTED.f n).addr
  else s.atLevel p 2 fun s => s.resume n

def execHalt (p : DbgPort) (m : MfpId) (s : State) : Out :=
  done (s.portWrite p (DBG.HALT.f m).addr (2 ^ 8) fun s => s.dbgHalt p m)
def execResume (p : DbgPort) (m : MfpId) (s : State) : Out :=
  done (s.portWrite p (DBG.RESUME.f m).addr (2 ^ 9) fun s => s.dbgResume p m)
def execStep (p : DbgPort) (m : MfpId) (s : State) : Out :=
  done (s.portWrite p (DBG.STEP.f m).addr (2 ^ 10) fun s => s.dbgStep p m)
def execDrst (p : DbgPort) (m : MfpId) (s : State) : Out :=
  done (s.portWrite p (DBG.DRST.f m).addr (2 ^ 12) fun s => s.dbgReset p m)

/-- The core takes a halt request at a boundary that allows it (R538). -/
def execHaltTaken (m : MfpId) (s : State) : Out :=
  let c := s.core m
  done (if c.released && c.slot = 0 then s.takeHalt m else s)

/-- A halt that a reservation has deferred for 256 cycles is forced: the reservation is cleared, and the halt is taken
at the next boundary that does not follow an NI bundle. -/
def execHaltForce (m : MfpId) (s : State) : Out :=
  let c := s.core m
  done (if c.haltReq.isSome && decide (256 ≤ c.haltFor) then s.updCore m fun c => { c with res := none } else s)

/-! Sessions (R530, R531). -/

/-- An MFP is given up: comparators off, no group, resumed where it was halted, free. -/
def State.giveUp (s : State) (n : Nat) : State :=
  let s := s.forUpTo 8 fun s k => s.wr (DBG.M_AC_CTL_KIND.f n k) 0
  let s := s.forUpTo 4 fun s j => s.setFlag (DBG.M_DW_CTL_ANY.f n j) false
  ((s.wr (DBG.M_HGRP.f n) 0).resume n).wr (DBG.OWN.f n) 0

/-- A port's session ends. -/
def State.dbgEnd (s : State) (p : DbgPort) : State :=
  let s := (s.wr (DBG.LEVEL.f (portIdx p)) 0).setFlag (DBG.SIDEFX.f (portIdx p)) false
  s.forUpTo 8 fun s n => if s.rd (DBG.OWN.f n) = portIdx p + 1 then s.giveUp n else s

/-- CHAL_GO: a fresh challenge. -/
def State.chalGo (s : State) (p : DbgPort) : State :=
  let c := Config.challenge s.free
  ((s.draw.setFlag (DBG.CHAL_VALID.f (portIdx p)) true).wr (DBG.CHAL_AT.f (portIdx p)) s.time).forUpTo 8 fun s w =>
    s.wr (DBG.CHAL.f (portIdx p) w) (c / 2 ^ (32 * w))

/-- The eight words of a challenge or response as one number. -/
def State.words8 (s : State) (f : Nat → Fld) : Nat :=
  (List.range 8).foldl (fun v w => v + s.rd (f w) * 2 ^ (32 * w)) 0

/-- The 44 bytes that a response authenticates: challenge, serial number, level and port. -/
def authMessage (chal serial lvl port : Nat) : List Nat :=
  ((List.range 32).map fun i => chal / 256 ^ i % 256) ++ ((List.range 8).map fun i => serial / 256 ^ i % 256) ++
    [lvl, port, 0, 0]

/-- The response that is expected, byte 0 in its lowest bits. -/
def authTag (chal serial lvl port : Nat) : Nat :=
  (hmacSha256 (beBytes 32 Config.dak) (authMessage chal serial lvl port)).foldr (fun b v => b + 256 * v) 0

/-- AUTH_GO: ignored without a valid challenge and during a lockout. -/
def State.authGo (s : State) (p : DbgPort) : State :=
  let i := portIdx p
  if !s.flag (DBG.CHAL_VALID.f i) || s.flag (DBG.LOCKOUT.f i) then s
  else
    let lvl := s.rd (DBG.AUTH_LEVEL.f i)
    let serial := s.rd DBG.SERIAL_LO.f + s.rd DBG.SERIAL_HI.f * 2 ^ 32
    let tag := authTag (s.words8 fun w => DBG.CHAL.f i w) serial lvl i
    let s := s.setFlag (DBG.CHAL_VALID.f i) false
    if s.words8 (fun w => DBG.RESP.f i w) = tag then s.wr (DBG.LEVEL.f i) lvl
    else (((s.wr (DBG.LEVEL.f i) 0).incSat DBG.AUTH_FAIL.f).setFlag (DBG.LOCKOUT.f i) true).wr (DBG.LOCK_AT.f i) s.time

/-- The flag word of a port, which is banked. -/
def dbgFlags : Nat := 0x14000000

def execChalGo (p : DbgPort) (s : State) : Out := done (s.portWrite p dbgFlags (2 ^ 8) fun s => s.chalGo p)
def execAuthGo (p : DbgPort) (s : State) : Out := done (s.portWrite p dbgFlags (2 ^ 9) fun s => s.authGo p)

/-- A lockout ends 1 s after it began. -/
def execLockoutEnd (p : DbgPort) (s : State) : Out :=
  done (if s.rd (DBG.LOCK_AT.f (portIdx p)) + 10 ^ 9 ≤ s.time then s.setFlag (DBG.LOCKOUT.f (portIdx p)) false else s)

/-- A challenge expires 60 s after it was drawn. -/
def execChallengeExpiry (p : DbgPort) (s : State) : Out :=
  done (if s.rd (DBG.CHAL_AT.f (portIdx p)) + 60 * 10 ^ 9 ≤ s.time then s.setFlag (DBG.CHAL_VALID.f (portIdx p)) false
  else s)

def execLogout (p : DbgPort) (s : State) : Out := done (s.portWrite p dbgFlags (2 ^ 10) fun s => s.dbgEnd p)

/-! The TAP (R533, R535). -/

/-- Test-Logic-Reset: port J's session ends and IDCODE is loaded. -/
def execTapReset (s : State) : Out := done ((s.dbgEnd .j).wr DBG.TAP_IR.f 1)

/-- The condition of EXTEST, CLAMP and HIGHZ. -/
def State.boundaryOk (s : State) : Bool :=
  s.level .j == 3 && !s.flag BST.RUN.f && (List.range 16).all fun q => s.rd (TWL.STATE_STATE.f q) == 0

/-- The instruction that acts: BYPASS in place of one that drives the balls while its condition does not hold. -/
def State.tapInstr (s : State) : Nat :=
  let c := s.rd DBG.TAP_IR.f
  if 3 ≤ c && c ≤ 5 && !s.boundaryOk then 0xFF else c

/-- What boundary scan drives on a scannable signal ball, in register order: its cell by EXTEST and CLAMP, high
impedance by HIGHZ, and high impedance wherever the option lacks its unit; none where the ball has its own function. -/
def State.ballDriven (s : State) (i : Nat) : Option (Option Bool) :=
  if (scanBalls[i]?).any s.ballAbsent then some none
  else match s.tapInstr with
  | 3 => some (some (s.tab DBG.cells 0 i != 0))
  | 4 => some (some (s.tab DBG.cells 0 i != 0))
  | 5 => some none
  | _ => none

/-- Values shifted into the boundary-scan register reach its cells at Update-DR. -/
def State.loadCells (s : State) (cells : List Bool) : State :=
  s.forUpTo (min cells.length scanCells) fun s i => s.setTab DBG.cells 0 i (b2n (cells.getD i false))

def execTapIdcode (s : State) : Out := done (s.wr DBG.TAP_IR.f 1)
def execTapSamplePreload (s : State) (cells : List Bool := []) : Out := done ((s.wr DBG.TAP_IR.f 2).loadCells cells)
def execTapExtest (s : State) (cells : List Bool := []) : Out :=
  let s := s.wr DBG.TAP_IR.f 3
  done (if s.boundaryOk then s.loadCells cells else s)
def execTapClamp (s : State) : Out := done (s.wr DBG.TAP_IR.f 4)
def execTapHighz (s : State) : Out := done (s.wr DBG.TAP_IR.f 5)
def execTapBypass (s : State) : Out := done (s.wr DBG.TAP_IR.f 0xFF)

/-- An access starts at Update-DR, with DBGACC selected; it is ignored while one is busy. -/
def State.tapAccess (s : State) (addr data : Nat) (wr : Bool) (next : Nat) : State :=
  if s.rd DBG.TAP_STAT.f = 1 then s
  else
    let s := (((s.wr DBG.TAP_IR.f 0x20).wr DBG.TAP_AT.f addr).setFlag DBG.TAP_WR.f wr).wr DBG.TAP_STAT.f 1
    (s.wr DBG.TAP_ADDR.f next).wr DBG.TAP_DATA.f data

def execDbgaccRead (addr : Word) (s : State) : Out :=
  done (s.tapAccess addr.toNat (s.rd DBG.TAP_DATA.f) false addr.toNat)
def execDbgaccWrite (addr data : Word) (s : State) : Out := done (s.tapAccess addr.toNat data.toNat true addr.toNat)
def execDbgaccReadInc (addr : Word) (s : State) : Out :=
  done (s.tapAccess addr.toNat (s.rd DBG.TAP_DATA.f) false (addr.toNat + 4))

/-! The register file of a halted MFP (R543). -/

/-- A word of the register file. -/
def State.regFileRead (s : State) (n w : Nat) : Nat :=
  let c := s.core n
  if w < 32 then (if w = 0 then 0 else c.x.get w 0)
  else if w < 36 then c.accAt (w - 32) 0 % 2 ^ 32
  else if w < 40 then c.accAt (w - 36) 0 / 2 ^ 32
  else if w = 40 then c.pc
  else if w < 48 then 0
  else if srnValid (w - 48) then c.sr (w - 48) else 0

/-- Set accumulator k, and what ACCRD sees of it. -/
def MfpCore.setAcc (c : MfpCore) (k v : Nat) : MfpCore := (List.range 5).foldl (fun c h => c.putAcc k h v) c

/-- Write a word of the register file. -/
def State.regFileWrite (s : State) (n w v : Nat) : State :=
  if w < 32 then s.updCore n fun c => c.putReg w v
  else if w < 36 then s.updCore n fun c => c.setAcc (w - 32) (c.accAt (w - 32) 0 / 2 ^ 32 * 2 ^ 32 + v)
  else if w < 40 then s.updCore n fun c => c.setAcc (w - 36) (c.accAt (w - 36) 0 % 2 ^ 32 + v % 256 * 2 ^ 32)
  else if w = 40 then (s.updCore n fun c => { c with pc := v }).wr (DBG.M_PC.f n) v
  else if 48 ≤ w && srnValid (w - 48) then s.updCore n fun c => c.putSr (w - 48) v
  else s

/-- The private copy of a port of a pointer field (R40). -/
def dbgPtr (p : DbgPort) (f : Fld) : Fld := { f with addr := f.addr + (portIdx p + 1) * 2 ^ 41 }

/-- An access to DBG_Mn_REG_IDATA: none for a bus error. -/
def State.regAccess (s : State) (p : DbgPort) (n : Nat) (v : Option Nat) : Option (State × Nat) :=
  let a := dbgPtr p (DBG.M_REG_IADDR_ADDR.f n)
  let w := s.rd a
  if !s.flag (DBG.HALTED.f n) || 72 ≤ w then none
  else
    let s' := if s.flag (dbgPtr p (DBG.M_REG_IADDR_INC.f n)) then s.wr a (w + 1) else s
    match v with
    | none => some (s', s.regFileRead n w)
    | some x => some (s'.regFileWrite n w x, 0)

/-- DBG_REG_ACCESS: a read at level 1, a write at level 2. A bus error has no effect. -/
def execDbgRegAccess (p : DbgPort) (m : MfpId) (v : Option Word) (s : State) : Out :=
  let a := (DBG.M_REG_IADDR_ADDR.f m).addr + 4
  let x : Access := match v with
    | some w => .write (portMaster p) a w.toNat
    | none => .read (portMaster p) a
  done (if p = .s && (!s.flag ETH.SESS.f || s.safeOnly) then s
  else s.reach x .dbg fun s =>
    if !s.hasMfp m then (s.absentHit a).answer 0
    else s.atLevel p (if v.isSome then 2 else 1) fun s =>
      match s.regAccess p m (v.map fun x => x.toNat) with
      | none => s
      | some r => if v.isSome then r.1 else r.1.answer r.2)

end Sys2Proof.Machine
end

