-- ==== Sys2Proof/Machine/SlpBase.lean ====
section
/-! DEFINITION. The parts of the host port that other blocks use (R430 to R441, R451 to R453): the link, the streams
with their acknowledgements and windows, the notice queue, and the end of a session. Log entries 66 and 67. -/

namespace Sys2Proof.Machine

/-! The link (R434, R454). -/

/-- The port receives, and it transmits: EN, block lock, and no PAUSE in force. -/
def State.rxOk (s : State) : Bool := s.flag ETH.EN.f && s.flag ETH.LINK.f
def State.txOk (s : State) : Bool := s.rxOk && !s.flag ETH.PAUSED.f

/-- A frame is transmitted. -/
def State.sent (s : State) : State := s.incSat ETH.TX_FRAMES.f

/-- A reply is transmitted, or waits while transmission is halted. -/
def State.reply (s : State) (r : EthReply) : State := if s.txOk then s.sent else s.withEthTx (s.ethTx ++ [r])

/-- Replies that waited are transmitted. -/
def State.flushReplies (s : State) : State :=
  if s.txOk then (s.ethTx.foldl (fun (s : State) _ => s.sent) s).withEthTx [] else s

/-! Streams (R436 to R441). -/

def State.waitOf (s : State) (n : Nat) : List SlpTx := s.slpWait.get n []
def State.setWait (s : State) (n : Nat) (l : List SlpTx) : State := s.withSlpWait (s.slpWait.set n l [])
def State.unackedOf (s : State) (n : Nat) : List SlpTx := s.slpUnacked.get n []
def State.setUnacked (s : State) (n : Nat) (l : List SlpTx) : State := s.withSlpUnacked (s.slpUnacked.set n l [])
def State.heldOf (s : State) (n : Nat) : List SlpHeld := s.slpHeld.get n []
def State.setHeld (s : State) (n : Nat) (l : List SlpHeld) : State := s.withSlpHeld (s.slpHeld.set n l [])

/-- `a - b` modulo 2^32. -/
def seqDist (a b : Nat) : Nat := (a + 2 ^ 32 - b % 2 ^ 32) % 2 ^ 32

/-- `a` lies before `b` in serial-number order. -/
def seqBefore (a b : Nat) : Bool := a != b && decide (seqDist b a < 2 ^ 31)

/-- The bytes that a flow receive port holds. -/
def State.rxUsed (s : State) (q : Nat) : Nat := ((s.rxMsgs.get q []).map fun m => m.len).foldl (· + ·) 0

/-- The room of a stream's receive buffer in frames of MAXPAY, from which WIN comes (R440): that of a flow port for a
flow stream, and that of the upload write queue for the uploads (R447). -/
def State.rxRoom (s : State) (n : Nat) : Nat :=
  let cap := if 4 ≤ n && n < 8 then (65536 - s.rxUsed (n - 4)) / s.rd ETH.MAXPAY.f
    else if n = 1 then (262144 - s.rd CAL.UPQ.f) / s.rd ETH.MAXPAY.f
    else Config.streamFrames n (s.rd ETH.MAXPAY.f)
  min 4096 (cap - ((s.heldOf n).map fun h => h.more + 1).foldl (· + ·) 0)

/-- A stream's frames are acknowledged, with its present WIN. -/
def State.advertise (s : State) (n : Nat) : State :=
  ((s.wr (ETH.OWED.f n) 0).wr (ETH.RX_WIN.f n) (s.rxRoom n)).wr (ETH.ADV_ACK.f n) (s.rd (ETH.RX_NEXT.f n))

/-- SACK of a stream: bit i for the frame ACK + 1 + i (R435). -/
def State.sackOf (s : State) (n : Nat) : Nat :=
  (List.range 32).foldl (fun v i =>
    if (s.heldOf n).any fun h => decide (seqDist (s.rd (ETH.RX_NEXT.f n) + 1 + i) h.seq ≤ h.more) then v + 2 ^ i else v) 0

/-- The six header words of a frame as it is sent (R435): LEN in bytes, and the acknowledgement that it carries. -/
def State.slpHeader (s : State) (n : Nat) (x : SlpTx) : List Nat :=
  [1 + n * 2 ^ 8 + x.typ * 2 ^ 16 + b2n x.first * 2 ^ 24 + b2n x.last * 2 ^ 25 + 2 ^ 26 + b2n (1 < x.sends) * 2 ^ 27,
    s.rd ETH.SESSION.f, x.seq, s.rd (ETH.RX_NEXT.f n), 4 * x.words.length + s.rxRoom n * 2 ^ 16, s.sackOf n]

/-- An acknowledgement frame is sent. -/
def State.sendAck (s : State) (n : Nat) : State := if s.txOk then (s.advertise n).sent else s

/-- A stream may send a new frame: a session, the transmitter, and the bounds of R441. -/
def State.mayNew (s : State) (n : Nat) : Bool :=
  s.flag ETH.SESS.f && s.txOk && decide ((s.unackedOf n).length < 4096) &&
    decide (seqDist (s.rd (ETH.TX_SEQ.f n)) (s.rd (ETH.PEER_ACK.f n)) < s.rd (ETH.PEER_WIN.f n))

/-- A new frame is sent: it takes the next SEQ, and acknowledges what is owed. -/
def State.sendNew (s : State) (n : Nat) (x : SlpTx) : State :=
  let y := { x with seq := s.rd (ETH.TX_SEQ.f n), sends := 1, rto := max 1 (s.rd ETH.RTO.f), sentAt := s.time }
  (((s.setUnacked n (s.unackedOf n ++ [y])).inc (ETH.TX_SEQ.f n)).sent).advertise n

/-- The frames that wait on a stream are sent while it may send. -/
def State.flushWait (s : State) (n : Nat) : Nat → State
  | 0 => s
  | k + 1 =>
    match s.waitOf n with
    | [] => s
    | x :: r => if s.mayNew n then ((s.setWait n r).sendNew n x).flushWait n k else s

/-- A message is cut into frames of `k` words. -/
def cutFrames (typ k : Nat) (rel : TxRelease) : Nat → Bool → List Nat → List SlpTx
  | 0, _, _ => []
  | f + 1, first, ws =>
    if ws.length ≤ k then [{ typ := typ, words := ws, first := first, last := true, rel := rel }]
    else { typ := typ, words := ws.take k, first := first, last := false, rel := .nothing } ::
      cutFrames typ k rel f false (ws.drop k)

/-- A message is handed to a stream, and sent as far as the stream may. -/
def State.slpMessage (s : State) (n typ : Nat) (ws : List Nat) : State :=
  let fs := cutFrames typ (max 1 (s.rd ETH.MAXPAY.f / 4)) .nothing (ws.length + 1) true ws
  (s.setWait n (s.waitOf n ++ fs)).flushWait n ((s.waitOf n).length + fs.length)

/-- A frame is sent again, and its timeout doubles, up to 64 ms. -/
def State.resend (s : State) (x : SlpTx) : State × SlpTx :=
  ((s.sent).incSat ETH.RETX.f,
    { x with sends := x.sends + 1, skips := 0, rto := min 64000 (2 * x.rto), sentAt := s.time })

/-! READ (R450). -/

/-- The lines of the next READ_DATA frame. -/
def State.readLines (s : State) : Nat :=
  min ((s.rd ETH.MAXPAY.f - 12) / 64) ((s.rd ETH.RD_END.f - s.rd ETH.RD_POS.f) / 64)

/-! Notices (R451, R452). -/

/-- The notice queue has room. -/
def State.noticeRoom (s : State) : Bool := decide (s.notices.length < 1024)

/-- A notice other than an event enters the queue, where it has room. -/
def State.notice (s : State) (kind count arg0 arg1 : Nat) : State :=
  if s.noticeRoom then
    s.withNotices (s.notices ++ [{ kind := kind, count := count, arg0 := arg0, arg1 := arg1, ts := s.time % 2 ^ 32 }])
  else s

/-- Events added to the COUNT of a queued entry, which saturates. -/
def Notice.plus (n : Notice) (c : Nat) : Notice := { n with count := min (n.count + c) (2 ^ 24 - 1) }

/-- A full queue takes events by adding them to the youngest EVENT entry of their source, or, if there is none, to the
youngest EVENT entry of all, whose ARG0 becomes all ones; none where the queue holds no EVENT entry (R452). The first
list is the queue with its youngest entry first. -/
def foldNotice (src c : Nat) (l : List Notice) : Option (List Notice) :=
  match l.findIdx? (fun n => n.kind == 0 && n.arg0 == src), l.findIdx? (fun n => n.kind == 0) with
  | some i, _ => some (l.modify i fun n => n.plus c)
  | none, some i => some (l.modify i fun n => { n.plus c with arg0 := 2 ^ 32 - 1 })
  | none, none => none

/-- The notice queue with an entry of the router's SLP destination in it: an entry of its own while there is room
(R496), else a part of another's COUNT (R452). -/
def State.noticeWith (s : State) (e : EvEntry) : Option (List Notice) :=
  if s.noticeRoom then some (s.notices ++ [{ kind := 0, count := e.count, arg0 := e.src, arg1 := 0, ts := e.ts % 2 ^ 32 }])
  else (foldNotice e.src e.count s.notices.reverse).map List.reverse

/-- The router's SLP destination hands its entries to the notice queue. -/
def State.noticeEvents (s : State) : Nat → State
  | 0 => s
  | k + 1 =>
    match s.evq.get 9 [] with
    | [] => s
    | e :: r =>
      match s.noticeWith e with
      | none => s
      | some l => State.noticeEvents ((s.withEvq (s.evq.set 9 r [])).withNotices l) k

/-- The entries of the re-upload list that SLP has taken and not discarded. -/
def State.reuploadTaken (s : State) : List (Nat × Nat) :=
  ((s.notices.filter fun n => n.kind == 1).map fun n => (n.arg0, n.arg1)) ++
    ((s.waitOf 2 ++ s.unackedOf 2).flatMap fun x => match x.rel with
      | .reupload l => l
      | _ => [])

/-- With PZ_SLP = 1, SLP takes the entries of the re-upload list for which the queue has room (R452). -/
def State.noticeReuploads (s : State) : State :=
  if s.flag ETH.PZ_SLP.f then
    (s.pzList.filter fun e => !s.reuploadTaken.contains e).foldl
      (fun s e => s.notice 1 0 e.1 (e.2 % 2 ^ 32)) s
  else s

/-- An object that this session created or sealed has reached READY: its OBJ_READY entry is made (R452). -/
def State.noticeObjects (s : State) : State :=
  s.slpObjs.foldl (fun s id =>
    match s.alloc? id with
    | none => s.withSlpObjs (s.slpObjs.filter fun x => x != id)
    | some a =>
      if a.st = 3 && s.noticeRoom then
        State.notice (s.withSlpObjs (s.slpObjs.filter fun x => x != id)) 3 0 id ((s.queryOut a).getD 7 0)
      else s) s

/-- Everything that waits for a place in the notice queue enters it. -/
def State.noticePump (s : State) : State := ((s.noticeEvents 1792).noticeReuploads).noticeObjects

/-! The end of a session (R439). -/

/-- The user code of a READ in `State.uses`. -/
def useRead : Nat := 3000

/-- The answers collected for a request. -/
def State.answers (s : State) (k : Nat) : List Nat := (List.range (2 * s.rd (ETH.ANS_N.f k))).map fun i => s.tab ETH.ans k i

/-- They are given up. -/
def State.clearAnswers (s : State) (k : Nat) : State :=
  (s.forUpTo (2 * s.rd (ETH.ANS_N.f k)) fun s i => s.setTab ETH.ans k i 0).wr (ETH.ANS_N.f k) 0

/-- The READ in progress ends. -/
def State.readStop (s : State) : State := ((s.setFlag ETH.RD_OPEN.f false).wr ETH.RD_CRED.f 0).dropUse useRead

/-- Notices and flow messages that were sent and not acknowledged go back to their source. -/
def State.takeBack (s : State) (n : Nat) : State :=
  (s.setWait n ((s.unackedOf n).map (fun x => { x with seq := 0, sends := 0, rto := 0, skips := 0, sentAt := 0 }) ++ s.waitOf n)).setUnacked
    n []

/-- The session ends: unacknowledged frames are discarded, their data stays with its source; a READ, a flash update and
port S's debug session end with it. -/
def State.sessEnd (s : State) : State :=
  if !s.flag ETH.SESS.f then s
  else
    let s := [2, 4, 5, 6, 7].foldl (fun s n => s.takeBack n) s
    let s := [0, 3, 8, 9, 10].foldl (fun s n => (s.setWait n []).setUnacked n []) s
    let s := ((((s.withSlpHeld []).withCtrlQ []).withDbgQ []).withSlpObjs [])
    let s := (s.clearAnswers 0).clearAnswers 1
    let s := (s.readStop.setFlag ETH.FL_OPEN.f false).dbgEnd .s
    (s.setFlag ETH.SESS.f false).wr ETH.SESSION.f 0

/-- A session opens (R438): every stream starts at SEQ 0 in both directions. The OPEN itself is SEQ 0 of stream 0. -/
def State.sessOpen (s : State) (p : SlpPeer) (maxpay : Nat) : State :=
  let id := Config.sessionId s.free % (2 ^ 32 - 1) + 1
  let s := ((s.draw.setFlag ETH.SESS.f true).wr ETH.SESSION.f id).wr ETH.MAXPAY.f maxpay
  let s := ((s.wr ETH.PEER_MAC.f p.mac.toNat).wr ETH.PEER_IP.f p.ip.toNat).wr ETH.PEER_PORT.f p.port.toNat
  let s := (s.setFlag ETH.PEER_V6.f p.v6).wr ETH.LAST_RX.f s.time
  let s := s.forUpTo 11 fun s n =>
    ((((s.wr (ETH.TX_SEQ.f n) 0).wr (ETH.RX_NEXT.f n) 0).wr (ETH.PEER_ACK.f n) 0).wr (ETH.PEER_WIN.f n) 4096).advertise n
  (s.wr (ETH.RX_NEXT.f 0) 1).wr (ETH.OWED.f 0) 1

end Sys2Proof.Machine
end

