-- ==== Sys2Proof/Machine/Background.lean ====
section
/-! DEFINITION. The background class (R16, R243): six jobs share it by weighted round robin, in lines of 64 bytes.
Accesses of the MFPs and reads of golden copies take no turn here, since their own commands complete them. Log entry
91. -/

namespace Sys2Proof.Machine

/-- The job that a turn belongs to. -/
inductive BgJob
  | aper
  | gold
  | migr
  | rekey
  | load
  | zero
  deriving DecidableEq, Repr

/-- The jobs in the order of their turns. -/
def bgJob (j : Nat) : BgJob := [BgJob.aper, .gold, .migr, .rekey, .load, .zero].getD j .aper

/-- The weight of job j: a 4-bit field of CAL_BG_W, with 0 as 1 (R243). -/
def State.bgWeight (s : State) (j : Nat) : Nat := max 1 (bits (s.rd CAL.BG_W.f) (4 * j) 4)

/-! LOAD: uploads, broadcast writes, host reads and scans. -/

/-- The first allocation in a state whose next line meets a condition. -/
def State.nextLine (s : State) (st : Nat) (ok : Alloc → Bool) : Option (Nat × Alloc) :=
  List.find? (fun e => e.2.st == st && ok e.2) s.dir

/-- The object whose scan can read its next line. -/
def State.scanNow (s : State) : Option (Nat × Alloc) := s.nextLine 2 fun a => !s.loadWaits a (64 * a.pos) 64

/-- One line of a scan: poison ends it, and so does the last line (R225, R241). -/
def State.scanTurn (s : State) (id : Nat) (a : Alloc) : State :=
  if a.pos + 1 < s.scanLines a then
    if s.allocPoison a (64 * a.pos) 64 then s.pageMark id (a.pos / 1024) else s.setAlloc id { a with pos := a.pos + 1 }
  else s.scanRest id a a.pos (s.scanLines a - a.pos)

/-- The host's READ can read a further line of its next frame (R450). -/
def State.readNow (s : State) : Bool :=
  s.flag ETH.RD_OPEN.f && decide (s.rd ETH.RD_CRED.f < s.readLines) &&
    (s.alloc? (s.rd ETH.RD_ID.f)).any fun a => !s.loadWaits a (s.rd ETH.RD_POS.f + 64 * s.rd ETH.RD_CRED.f) 64

/-- One line of the upload write queue is written, one line of a host read is read, or one line is scanned. -/
def State.loadTurn (s : State) : State :=
  if 0 < s.rd CAL.UPQ.f then s.wr CAL.UPQ.f (s.rd CAL.UPQ.f - 64)
  else if s.readNow then s.inc ETH.RD_CRED.f
  else
    match s.scanNow with
    | none => s
    | some (id, a) => s.scanTurn id a

/-! ZERO: zero-fills and bitmap clears. -/

/-- The allocation whose zero-fill can write its next line. -/
def State.zeroNow (s : State) : Option (Nat × Alloc) := s.nextLine 6 fun a => !s.storeWaits a (64 * a.pos) 64

/-- The site whose bitmap clear can write its next line. -/
def State.clearNow (s : State) : Option Nat :=
  (List.range 64).find? fun site =>
    s.clearRuns site && !((s.alloc? (s.rd (DMK.CLR_ID.f site))).any fun a => s.storeWaits a (64 * s.rd (DMK.CLR_POS.f site)) 64)

/-- One line of an allocation becomes zero; after the last the allocation is READY. -/
def State.zeroTurn (s : State) (id : Nat) (a : Alloc) : State :=
  (s.zeroLine a a.pos).setAlloc id
    (if 64 * (a.pos + 1) < a.size then { a with pos := a.pos + 1 } else { a with st := 3, pos := 0 })

/-- One line of a bitmap becomes zero; with the last BMAP_BUSY clears. -/
def State.clearTurn (s : State) (site : Nat) : State :=
  match s.alloc? (s.rd (DMK.CLR_ID.f site)) with
  | none => s.clearEnd site
  | some a =>
    if 64 * (s.rd (DMK.CLR_POS.f site) + 1) < a.size then
      (s.zeroLine a (s.rd (DMK.CLR_POS.f site))).inc (DMK.CLR_POS.f site)
    else s.clearEnd site

def State.fillTurn (s : State) : State :=
  match s.zeroNow, s.clearNow with
  | some (id, a), _ => s.zeroTurn id a
  | none, some site => s.clearTurn site
  | none, none => s

/-! MIGR and REKEY. -/

/-- The bytes a microsecond that RATE lets the copy of a channel move: its code × 0.1 GB/s, 0 as 1, codes above 256 as
256 (R252). -/
def State.migRate (s : State) (n : Nat) : Nat := min 256 (max 1 (s.rd (DDR.MIG_RATE.f n))) * 100

/-- The channel whose copy may move a line: RATE has let it. -/
def State.migNow (s : State) : Option Nat :=
  (List.range 12).find? fun n => s.copyRuns n && decide (64 ≤ s.rd (DDR.MIG_CR.f n))

/-- One line is copied, which costs two lines of the turns (R271). -/
def State.migTurn (s : State) : State :=
  match s.migNow with
  | none => s
  | some n => (s.wr (DDR.MIG_CR.f n) (s.rd (DDR.MIG_CR.f n) - 64)).copyLine n []

/-- The copies of a microsecond: what RATE left over of less than a line is kept. -/
def State.migCredit (s : State) (n : Nat) : State :=
  if s.copyRuns n then s.wr (DDR.MIG_CR.f n) (s.rd (DDR.MIG_CR.f n) % 64 + s.migRate n) else s.wr (DDR.MIG_CR.f n) 0

/-- One line of a walk: a page is read and written in 128 lines, with the last of which it stands under the new
generation. A failed node is rebuilt in one turn, before any walk goes on (R287, R292). -/
def State.rekeyTurn (s : State) : State :=
  if !s.badNodes.isEmpty then s.rebuildStep
  else if !s.flag ENC.RK_RUN.f then s.rekeyStart
  else if s.rd ENC.RK_DONE.f < 127 then s.inc ENC.RK_DONE.f
  else s.rekeyStep 0

/-! The turns. -/

/-- A job has a line to move. -/
def State.bgWork (s : State) : BgJob → Bool
  | .aper => false
  | .gold => false
  | .migr => s.migNow.isSome
  | .rekey => !s.badNodes.isEmpty || s.flag ENC.RK_RUN.f || s.rekeyNext.isSome
  | .load => 0 < s.rd CAL.UPQ.f || s.readNow || s.scanNow.isSome
  | .zero => s.zeroNow.isSome || s.clearNow.isSome

/-- One unit of a job, and the lines that it costs. -/
def State.bgTurn (s : State) : BgJob → State
  | .aper => s
  | .gold => s
  | .migr => s.migTurn
  | .rekey => s.rekeyTurn
  | .load => s.loadTurn
  | .zero => s.fillTurn

def BgJob.cost : BgJob → Nat
  | .migr => 2
  | _ => 1

/-- The job whose turn it is: the present one while lines of its turn are left and it has work, else the next with
work, with its weight. -/
def State.bgPick (s : State) : Option (Nat × Nat) :=
  let j := s.rd CAL.BG_JOB.f
  if 0 < s.rd CAL.BG_LEFT.f && s.bgWork (bgJob j) then some (j, s.rd CAL.BG_LEFT.f)
  else ((List.range 6).map fun i => (j + 1 + i) % 6).find? (fun k => s.bgWork (bgJob k)) |>.map fun k => (k, s.bgWeight k)

/-- The class moves up to `n` lines; the first argument bounds the turns. -/
def State.bgLines : Nat → Nat → State → State
  | 0, _, s => s
  | k + 1, n, s =>
    if n = 0 then s
    else
      match s.bgPick with
      | none => s
      | some (j, left) =>
        let c := (bgJob j).cost
        State.bgLines k (n - c) (((s.wr CAL.BG_JOB.f j).wr CAL.BG_LEFT.f (left - c)).bgTurn (bgJob j))

/-- The bytes that the class moves in a microsecond: its floor, which scales as the other shares do (R16, R221), and
with no burst admitted the vector share besides (R17). -/
def State.bgBytes (s : State) : Nat :=
  (if s.opt == .b then s.rd CAL.VBUDGET.f * 8 else s.rd CAL.VBUDGET.f * 35 / 4) + if s.runs.isEmpty then s.rd CAL.VBUDGET.f * 100 else 0

/-- What the background class does in a microsecond (log entry 91). -/
def State.bgTick (s : State) : State :=
  if s.memServes && s.calRuns then
    let s := s.forUpTo 12 State.migCredit
    let n := s.bgBytes / 64
    State.bgLines n n s
  else s

end Sys2Proof.Machine
end

