-- ==== Sys2Proof/Machine/Adc.lean ====
section
/-! DEFINITION. The measurement converters (R297 to R312). Log entries 11, 45 and 46. -/

namespace Sys2Proof.Machine

/-- The outputs in the FIFO of an ADC. -/
def State.adcQ (s : State) (m : Nat) : List Nat := s.adcFifo.get m []

def State.setAdcQ (s : State) (m : Nat) (q : List Nat) : State := s.withAdcFifo (s.adcFifo.set m q [])

/-- NSAMP + 1, the outputs that an entry delivers (R301). -/
def entryOutputs (e : Nat) : Nat := e % 4096 + 1

/-- AVG of an entry, codes above 8 treated as 8. -/
def entryAvg (e : Nat) : Nat := min 8 (bits e 12 4)

/-- RANGE of an entry. -/
def entryRange (e : Nat) : Nat := bits e 16 1

/-- INSEL and RANGE of an entry, as the last conversion is remembered; INSEL 3 is treated as 0. -/
def entryInput (e : Nat) : Nat := 8 + 2 * (bits e 17 2 % 3) + entryRange e

/-- MX_BUSY of the tile of an ADC. -/
def State.adcMxBusy (s : State) (m : Nat) : Bool := s.flag (VLV.MX_BUSY.f (m / 4))

/-! Delivery (R308, R309). -/

/-- LEN of the stream buffer, 0 treated as 1. -/
def State.strLen (s : State) (m : Nat) : Nat := max 1 (s.rd (ADC.STR_LEN.f m))

/-- The stream can take an output: the buffer is not full, and the MFP it names is present and its clock runs (R10). -/
def State.strRoom (s : State) (m : Nat) : Bool :=
  s.hasMfp (s.rd (ADC.CTRL_MFP.f m)) && s.bit CLK.LK_MFP.f (s.rd (ADC.CTRL_MFP.f m)) &&
    (s.rd (ADC.STR_WR.f m) + 2 ^ 32 - s.rd (ADC.STR_RD.f m)) % 2 ^ 32 != s.strLen m

/-- The stream takes outputs from the FIFO while it can. -/
def State.adcDrain (s : State) (m : Nat) : List Nat → State
  | [] => s.setAdcQ m []
  | v :: q =>
    if s.flag (ADC.STREAM.f m) && s.strRoom m then
      ((s.dmemPort (s.rd (ADC.CTRL_MFP.f m))
        (s.rd (ADC.STR_BASE.f m) + 4 * (s.rd (ADC.STR_WR.f m) % s.strLen m)) v).inc (ADC.STR_WR.f m)).adcDrain m q
    else s.setAdcQ m (v :: q)

/-- The stream drains, and HOLD shows whether the converter is held by a full FIFO. -/
def State.adcSettle (s : State) (m : Nat) : State :=
  let s := s.adcDrain m (s.adcQ m)
  let held := (s.adcQ m).length == 1024 && (s.flag (ADC.RUN.f m) || s.flag (ADC.URG_BUSY.f m))
  let s := if held then s.setFlag (ADC.GAP_MARK.f m) true else s
  s.setFlag (ADC.HOLD.f m) held

/-! The list (R303, R304). -/

/-- An entry of the list begins: it is read, and owes its outputs. -/
def State.adcEntry (s : State) (m e : Nat) : State :=
  let w := s.tab ADC.list m e
  ((s.wr (ADC.POS_ENTRY.f m) e).wr (ADC.CUR.f m) w).wr (ADC.LEFT.f m) (entryOutputs w)

/-- What passes before the first raw sample of an entry, in ns: the gap of 40 ns after a conversion with another INSEL
or RANGE, and the WAIT (R303). -/
def State.adcLead (s : State) (m e : Nat) : Nat :=
  (if s.rd (ADC.LAST.f m) = 0 || s.rd (ADC.LAST.f m) = entryInput e then 0 else 40) + entryWait e

/-- The list begins at entry 0. ADC_TS takes the time of its first raw sample, which WMX may put off until MX_BUSY
clears. -/
def State.adcBegin (s : State) (m : Nat) : State :=
  let s := ((s.setFlag (ADC.RUN.f m) true).setFlag (ADC.START_HELD.f m) false).setFlag (ADC.RES_MARK.f m) false
  let e := s.tab ADC.list m 0
  let ts := s.time + s.adcLead m e
  let s := ((s.wr (ADC.POS_PASS.f m) 0).wr (ADC.TS_LO.f m) ts).wr (ADC.TS_HI.f m) (ts / 2 ^ 32)
  let s := s.setFlag (ADC.TS_WAIT.f m) (bitOf e 19 && s.adcMxBusy m)
  (s.adcEntry m 0).adcSettle m

/-- START: ignored while RUN or CAL_BUSY is set, held while URG_BUSY is. -/
def State.adcStart (s : State) (m : Nat) : State :=
  if s.flag (ADC.RUN.f m) || s.flag (ADC.CAL_BUSY.f m) then s
  else if s.flag (ADC.URG_BUSY.f m) then s.setFlag (ADC.START_HELD.f m) true
  else s.adcBegin m

def execAdcStart (a : AdcId) (s : State) : Out := done (s.reach ((ADC.START.f a).sets 1) .adc fun s => s.adcStart a)

/-- A write of ADC_GSTART. -/
def State.adcGstart (s : State) (mask : Nat) : State :=
  s.forUpTo 16 fun s m => if bitOf mask m then s.adcStart m else s

def execAdcGstart (mask : BitVec 16) (s : State) : Out :=
  done (s.reach (.set 0x2C001800 mask.toNat (2 ^ 32 - 1)) .adc fun s => s.adcGstart mask.toNat)

/-- STOP: the list ends; a START held behind an urgent request stays. -/
def State.adcStop (s : State) (m : Nat) : State :=
  (((s.setFlag (ADC.RUN.f m) false).setFlag (ADC.RES_MARK.f m) false).setFlag (ADC.TS_WAIT.f m) false).adcSettle m

def execAdcStop (a : AdcId) (s : State) : Out := done (s.reach ((ADC.STOP.f a).sets 1) .adc fun s => s.adcStop a)

/-! Urgent requests (R306). -/

/-- URG_GO: ignored while URG_BUSY or CAL_BUSY is set. -/
def State.urgGo (s : State) (m : Nat) : State :=
  if s.flag (ADC.URG_BUSY.f m) || s.flag (ADC.CAL_BUSY.f m) then s.wr (ADC.STAT_URG.f m) 2
  else
    let w := s.rd (ADC.URG.f m)
    let s := if s.flag (ADC.RUN.f m) then s.setFlag (ADC.RES_MARK.f m) true else s
    (((s.setFlag (ADC.URG_BUSY.f m) true).wr (ADC.URG_CUR.f m) w).wr (ADC.URG_LEFT.f m) (entryOutputs w)).adcSettle m

def execUrgGo (a : AdcId) (s : State) : Out := done (s.reach ((ADC.URG_GO.f a).sets 1) .adc fun s => s.urgGo a)

/-! Outputs (R305, R307). -/

/-- One raw sample corrected, and whether it is marked OVR. -/
def correctSample (ofs : Int) (gain : Nat) (raw : Int) : Int × Bool :=
  let c := (raw * 16 - ofs) * gain / 2 ^ 19
  (min (max c (-8192)) 8191, decide (c < -8192) || decide (8191 < c) || raw == 8191 || raw == -8192)

/-- The output word of an entry from its raw samples. -/
def State.adcWord (s : State) (m e : Nat) (raws : List (BitVec 14)) (marks : Nat) : Nat :=
  let r := entryRange e
  let ofs := signedOf 16 (s.rd (if r = 0 then ADC.OFS0.f m else ADC.OFS1.f m))
  let gain := s.rd (if r = 0 then ADC.GAIN0.f m else ADC.GAIN1.f m)
  let cs := raws.map fun x => correctSample ofs gain x.toInt
  let sum : Int := cs.foldl (fun t c => t + c.1) 0
  unsignedOf 16 (sum / 2 ^ entryAvg e) + b2n (cs.any fun c => c.2) * 2 ^ 24 + marks

/-- An output enters the FIFO; GAP is taken with it. -/
def State.adcPush (s : State) (m v : Nat) : State :=
  let v := v + s.rd (ADC.GAP_MARK.f m) * 2 ^ 25
  (s.setFlag (ADC.GAP_MARK.f m) false).setAdcQ m (s.adcQ m ++ [v])

/-- The list goes on after an output: within the entry, to the next entry, round to entry 0, or it ends. -/
def State.adcAdvance (s : State) (m : Nat) : State :=
  let left := s.rd (ADC.LEFT.f m) - 1
  let e := s.rd (ADC.POS_ENTRY.f m)
  let s := s.wr (ADC.LEFT.f m) left
  if left != 0 then s
  else if e < s.rd (ADC.CTRL_LEN.f m) then s.adcEntry m (e + 1)
  else if s.flag (ADC.CONT.f m) then (s.inc (ADC.POS_PASS.f m)).adcEntry m 0
  else s.setFlag (ADC.RUN.f m) false

/-- The urgent request goes on after an output, or ends; then a held START begins the list. -/
def State.urgAdvance (s : State) (m : Nat) : State :=
  let left := s.rd (ADC.URG_LEFT.f m) - 1
  let s := s.wr (ADC.URG_LEFT.f m) left
  if left != 0 then s
  else
    let s := (s.setFlag (ADC.URG_BUSY.f m) false).wr (ADC.STAT_URG.f m) 1
    if s.flag (ADC.START_HELD.f m) then s.adcBegin m else s

/-- A mark of an output: the condition as it stands where it has not changed since the output before, else what the
samples met, which `met` says. -/
def State.adcMark (s : State) (m k : Nat) (now met : Bool) : Bool := if s.bit (ADC.CHG.f m) k then met else now

/-- The first raw sample of an entry waits for MX_BUSY to clear (WMX, R303). -/
def State.adcWaits (s : State) (m e left : Nat) : Bool :=
  bitOf e 19 && (left == entryOutputs e || s.flag (ADC.RES_MARK.f m)) && s.adcMxBusy m && !s.bit (ADC.CHG.f m) 0

/-- An output is made from its raw samples, unless the converter is held or converts nothing. -/
def State.adcOutput (s : State) (m : Nat) (raws : List (BitVec 14)) (settle nref : Bool) : State :=
  let urg := s.flag (ADC.URG_BUSY.f m)
  let e := s.rd (if urg then ADC.URG_CUR.f m else ADC.CUR.f m)
  if s.gated .adc || !s.bit CLK.LK.f 0 || s.flag (ADC.HOLD.f m) || !(urg || s.flag (ADC.RUN.f m)) ||
      raws.length != 2 ^ entryAvg e || s.adcWaits m e (s.rd (if urg then ADC.URG_LEFT.f m else ADC.LEFT.f m)) then s
  else
    let marks := b2n (s.adcMark m 0 (s.adcMxBusy m) settle) * 2 ^ 23 +
      b2n (s.adcMark m 1 (!s.flag (ADC.REF_RDY.f (m / 4))) nref) * 2 ^ 26
    let s := (s.wr (ADC.CHG.f m) 0).wr (ADC.LAST.f m) (entryInput e)
    if urg then ((s.adcPush m (s.adcWord m e raws marks + 2 ^ 22)).urgAdvance m).adcSettle m
    else
      let marks := marks + s.rd (ADC.POS_ENTRY.f m) * 2 ^ 16 + s.rd (ADC.RES_MARK.f m) * 2 ^ 27
      (((s.adcPush m (s.adcWord m e raws marks)).setFlag (ADC.RES_MARK.f m) false).adcAdvance m).adcSettle m

/-- The raw samples of an output are taken with the registers as they stand at this command; `settle` and `nref` say
what they met where MX_BUSY or REF_RDY has changed since the output before (log entry 45). -/
def execAdcOutput (a : AdcId) (raws : List (BitVec 14)) (settle : Bool) (nref : Bool) (s : State) : Out :=
  done (s.adcOutput a raws settle nref)

/-- What ADC_PORTm reads: the head output, all ones while there is none or the outputs go to the stream. -/
def State.adcPort (s : State) (m : Nat) : Nat :=
  if s.flag (ADC.STREAM.f m) then 0xFFFFFFFF
  else
    match s.adcQ m with
    | [] => 0xFFFFFFFF
    | v :: _ => v

/-- A consuming read of the port takes the head output. -/
def State.adcPortTake (s : State) (m : Nat) : State :=
  if s.flag (ADC.STREAM.f m) then s else (s.setAdcQ m (s.adcQ m).tail).adcSettle m

/-- A read of the port by a master. -/
def State.adcPortRead (s : State) (m : Nat) (who : Master) : State × Nat :=
  (if s.consumes who then s.adcPortTake m else s, s.adcPort m)

def execAdcPortRead (a : AdcId) (m : Master) (s : State) : Out :=
  done (s.reach (.read m (ADC.PORT.f a).addr) .adc fun s =>
    let r := s.adcPortRead a m
    r.1.answer r.2)

/-- A write of ADC_STR_RDm is taken between its value and ADC_STR_WRm, counted modulo 2^32. -/
def State.writeStrRd (s : State) (m v : Nat) : State :=
  let d := fun (x y : Nat) => (x + 2 ^ 32 - y) % 2 ^ 32
  let r := s.rd (ADC.STR_RD.f m)
  if d v r ≤ d (s.rd (ADC.STR_WR.f m)) r then (s.wr (ADC.STR_RD.f m) v).adcSettle m else s

def execAdcStrRd (a : AdcId) (v : Word) (s : State) : Out :=
  done (s.reach ((ADC.STR_RD.f a).sets v.toNat) .adc fun s => s.writeStrRd a v.toNat)

/-! Reference and self-calibration (R302, R311). -/

/-- REF_RDY of a tile changes. -/
def State.setRefRdy (s : State) (t : Nat) (b : Bool) : State :=
  if s.flag (ADC.REF_RDY.f t) == b then s
  else (s.setFlag (ADC.REF_RDY.f t) b).forUpTo 4 fun s j => s.setBit (ADC.CHG.f (4 * t + j)) 1 true

/-- A write of REF_EN of a tile. -/
def State.writeAdcRefEn (s : State) (t : Nat) (on : Bool) : State :=
  let s := s.setFlag (ADC.REF_EN.f t) on
  if on then s else s.setRefRdy t false

def execRefReady (t : Tile) (s : State) : Out :=
  done (if s.dieOn && s.flag (ADC.REF_EN.f t) then s.setRefRdy t true else s)

/-- CAL_GO: refused without a reference, or while the ADC is busy. -/
def State.calGo (s : State) (m : Nat) : State :=
  if !s.flag (ADC.REF_RDY.f (m / 4)) then s.wr (ADC.STAT_CAL.f m) 2
  else if s.flag (ADC.RUN.f m) || s.flag (ADC.URG_BUSY.f m) || s.flag (ADC.CAL_BUSY.f m) then s.wr (ADC.STAT_CAL.f m) 3
  else s.setFlag (ADC.CAL_BUSY.f m) true

def execCalGo (a : AdcId) (s : State) : Out := done (s.reach ((ADC.CAL_GO.f a).sets 1) .adc fun s => s.calGo a)

/-- An offset factor is acceptable. -/
def ofsOk (v : BitVec 16) : Bool := decide (v.toInt.natAbs ≤ 1024)

/-- A gain factor is acceptable. -/
def gainOk (v : BitVec 16) : Bool := decide (0x7999 ≤ v.toNat) && decide (v.toNat ≤ 0x8666)

/-- Self-calibration ends with the factors it has computed. -/
def State.adcCalEnd (s : State) (m : Nat) (ofs0 gain0 ofs1 gain1 : BitVec 16) : State :=
  if !s.flag (ADC.CAL_BUSY.f m) then s
  else
    let s := s.setFlag (ADC.CAL_BUSY.f m) false
    if ofsOk ofs0 && ofsOk ofs1 && gainOk gain0 && gainOk gain1 then
      ((((s.wr (ADC.OFS0.f m) ofs0.toNat).wr (ADC.GAIN0.f m) gain0.toNat).wr (ADC.OFS1.f m) ofs1.toNat).wr
        (ADC.GAIN1.f m) gain1.toNat).wr (ADC.STAT_CAL.f m) 1
    else s.wr (ADC.STAT_CAL.f m) 4

/-- The stream of an ADC goes on in time, once what held it has passed. -/
def State.adcTick (s : State) (m : Nat) : State :=
  if s.flag (ADC.STREAM.f m) && !(s.adcQ m).isEmpty then s.adcSettle m else s

def execAdcCalEnd (a : AdcId) (ofs0 : BitVec 16) (gain0 : BitVec 16) (ofs1 : BitVec 16) (gain1 : BitVec 16)
    (s : State) : Out := done (s.adcCalEnd a ofs0 gain0 ofs1 gain1)

end Sys2Proof.Machine
end

