-- ==== Sys2Proof/Machine/Image.lean ====
section
/-! DEFINITION. The Renrix stream (R378 to R380): its header, the keys and tags of its segments, and the form of its
records. Nothing here changes the state. Log entry 60. -/

namespace Sys2Proof.Machine

/-! The header (R378). -/

/-- KEYENV of a header, word 48 lowest. -/
def keyEnv (w : Nat → Nat) : Nat := (List.range 10).foldl (fun v i => v + w (48 + i) * 2 ^ (32 * i)) 0

/-- The image key IK that KEYENV wraps under KWK, none where the unwrap check fails (R379). -/
def imageIk (w : Nat → Nat) : Option Nat := kwUnwrap Config.kwk ((wordBytes (keyEnv w) 40).map BitVec.toNat)

/-- ENC and CHECK of a header. -/
def headerEnc (w : Nat → Nat) : Bool := bitOf (w 1) 8
def headerTag (w : Nat → Nat) : Bool := bitOf (w 1) 9

/-- The header's MAGIC, FMT, TARGET_ID and MAJOR fit this device, and CHECK = 1 stands with ENC = 1. -/
def headerFits (w : Nat → Nat) : Bool :=
  w 0 / 256 == 0x524E58 && w 1 % 256 == 1 && w 2 == SYS.ID.reset && w 3 % 256 == SYS.REV_MAJOR.reset &&
    !(headerTag w && !headerEnc w)

/-- The header names its key by an envelope that unwraps. -/
def keyUnwraps (w : Nat → Nat) : Bool := !headerEnc w || (imageIk w).isSome

/-- The bytes of words, low byte first. -/
def leBytes (l : List Nat) : List Nat := l.flatMap fun w => natBytes w 4

/-- Bytes 0 to 191 of a header, which are authenticated. -/
def headerAad (w : Nat → Nat) : List Nat := leBytes ((List.range 48).map w)

/-! AES-256-GCM over a segment (R379; SP 800-38D). -/

/-- s(i, j). -/
def segBlock (i j : Nat) : Nat := i % 2 ^ 32 * 2 ^ 96 + j % 256

/-- The key of segment `i` under the image key. -/
def segKey (ik i : Nat) : Nat := aes256 ik (segBlock i 1) * 2 ^ 128 + aes256 ik (segBlock i 2)

/-- The initial value: NONCE, word 8 lowest. -/
def segIv (w : Nat → Nat) : Nat := w 8 + w 9 * 2 ^ 32 + w 10 * 2 ^ 64

/-- Block `n` of the keystream, whose data begin at block 2. -/
def gcmBlock (k iv n : Nat) : Nat := aes256 k (iv % 2 ^ 96 * 2 ^ 32 + n % 2 ^ 32)

/-- Byte `p` of the keystream that covers the data. -/
def gcmByte (k iv p : Nat) : Nat := gcmBlock k iv (2 + p / 16) / 256 ^ (15 - p % 16) % 256

/-- Data under the keystream: encryption and decryption alike. -/
def gcmCrypt (k iv : Nat) (l : List Nat) : List Nat :=
  let ks := (List.range ((l.length + 15) / 16)).flatMap fun j => beBytes 16 (gcmBlock k iv (2 + j))
  xorBytes l ks

/-- Bytes as blocks of 16, the last filled with zeros. -/
def gcmBlocks (l : List Nat) : List Nat :=
  (List.range ((l.length + 15) / 16)).map fun j =>
    ofBe ((List.range 16).map fun i => l.getD (16 * j + i) 0)

/-- The tag over additional data and ciphertext. -/
def gcmTag (k iv : Nat) (aad ct : List Nat) : Nat :=
  ghash (aes256 k 0) (gcmBlocks aad ++ gcmBlocks ct ++ [8 * aad.length * 2 ^ 64 + 8 * ct.length]) ^^^ gcmBlock k iv 1

/-- The tag that segment `i` must carry: `prev` is the tag of the segment before it. -/
def segTag (w : Nat → Nat) (i prev : Nat) (ct : List Nat) : Nat :=
  gcmTag (segKey ((imageIk w).getD 0) i) (segIv w) (if i = 0 then headerAad w else beBytes 16 prev) ct

/-! Segments. -/

/-- Segments of a payload. -/
def segmentsOf (pay : Nat) : Nat := (pay + 65519) / 65520

/-- The bytes of a stream. -/
def streamBytes (pay : Nat) : Nat := 256 + pay + 16 * segmentsOf pay

/-- The payload bytes that segment `i` holds. -/
def segBytes (pay i : Nat) : Nat := min 65520 (pay - 65520 * i)

/-- The payload of segment `i` from its stored payload bytes. -/
def segPayload (w : Nat → Nat) (i : Nat) (ct : List Nat) : List Nat :=
  if headerEnc w then gcmCrypt (segKey ((imageIk w).getD 0) i) (segIv w) ct else ct

/-! Records (R380). -/

/-- The body of a record of this type may have this many bytes. -/
def recordLenOk (typ len : Nat) : Bool :=
  match typ with
  | 1 => len % 8 == 0
  | 2 => decide (8 ≤ len) && len % 4 == 0
  | 3 => decide (8 ≤ len) && len % 4 == 0
  | 4 => decide (8 ≤ len) && len % 4 == 0
  | 15 => len == 4
  | _ => false

/-- The count of a FRAMES record fits its length. -/
def frameCountOk (n len : Nat) : Bool := decide (1 ≤ n) && len == 8 + 384 * n

end Sys2Proof.Machine
end

