-- ==== Sys2Proof/Machine/Canvas.lean ====
section
/-! DEFINITION. The boundary of the Canvas fabric (R348 to R374): bays and their rings, engine ports, partial
reconfiguration, scrubbing and the power budget. Log entries 3, 59, 60, 61 and 62. -/

namespace Sys2Proof.Machine

/-! Resources and networks (R348, R350, R352). -/

/-- The resources of a region: six-input LUTs, flip-flops, block memories and arithmetic slices (R348). -/
structure FabricUnits where
  luts : Nat
  flipFlops : Nat
  memories : Nat
  slices : Nat
  deriving DecidableEq, Repr

/-- The resources of bay 0 to 15, and of the static region 16 (R348). -/
def regionUnits (r : Nat) : FabricUnits := if r < 16 then ⟨100000, 200000, 224, 336⟩ else ⟨320000, 640000, 512, 768⟩

/-- The network of the register-window clock: WNET, values above 47 as 1 (R352). -/
def State.windowNet (s : State) : Nat := if s.rd CNV.CTRL_WNET.f ≤ 47 then s.rd CNV.CTRL_WNET.f else 1

/-! Bays and the Selvage ring (R362 to R364). -/

/-- The ring of a bay is to be engaged. -/
def State.ringWanted (s : State) (b : Nat) : Bool :=
  s.flag (CNV.HOLD.f b) || s.flag (CNV.RST.f b) || s.rd (CNV.BAY_STAT_BSTATE.f b) != 1

/-- A write of HOLD = 0: the ring opens only in state LOADED, and a load's reset is released first. -/
def State.openBay (s : State) (b : Nat) : State :=
  if s.rd (CNV.BAY_STAT_BSTATE.f b) = 1 then (s.setFlag (CNV.HOLD.f b) false).setFlag (CNV.LOADRST.f b) false
  else s.setFlag (CNV.HOLD.f b) true

def execHold (b : Bay) (s : State) : Out := done (s.reach ((CNV.HOLD.f b).sets 1) .cnv fun s => s.setFlag (CNV.HOLD.f b) true)

def execRingEngaged (b : Bay) (s : State) : Out := done (if s.ringWanted b then s.setFlag (CNV.HELD.f b) true else s)

def execRingOpen (b : Bay) (s : State) : Out := done (s.reach ((CNV.HOLD.f b).sets 0) .cnv fun s => s.openBay b)

def execRingOpened (b : Bay) (s : State) : Out := done (if s.ringWanted b then s else s.setFlag (CNV.HELD.f b) false)

/-- A microsecond is enough for a ring to engage and to open (R363, R364). -/
def State.ringTick (s : State) (b : Nat) : State := s.setFlag (CNV.HELD.f b) (s.ringWanted b)

def execBayRst (b : Bay) (on : Bool) (s : State) : Out :=
  done (s.reach ((CNV.RST.f b).sets (b2n on)) .cnv fun s => s.setFlag (CNV.RST.f b) on)

/-- A load engages the ring of its bay, with the logic in reset (R369, R370). -/
def State.engageForLoad (s : State) (b : Nat) : State :=
  ((s.setFlag (CNV.HOLD.f b) true).setFlag (CNV.LOADRST.f b) true).wr (CNV.BAY_STAT_BSTATE.f b) 2

/-! Engine ports (R353, R357). -/

/-- A write of CNV_PORTn. -/
def State.writePort (s : State) (c v : Nat) : State :=
  let s := ((s.wr (CNV.PORT_TAPDST.f c) v).wr (CNV.PORT_ICONST.f c) (v / 2 ^ 16)).wr (CNV.PORT_INJSRC.f c) (v / 2 ^ 8)
  let idle := match s.ownerOf c with
    | none => true
    | some q => s.rd (TWL.STATE_STATE.f q) == 0
  let s := s.setFlag (CNV.PORT_INJ_PEND.f c) true
  if !idle then s
  else if s.rd (CNV.INJ_ACT.f c) = s.rd (CNV.PORT_INJSRC.f c) then s.setFlag (CNV.PORT_INJ_PEND.f c) false
  else s.injsrcApply c

def execCnvPort (c : Channel) (v : Word) (s : State) : Out :=
  done (s.reach (.set (0x38002000 + 4 * c) v.toNat (2 ^ 32 - 1)) .cnv fun s => s.writePort c v.toNat)

/-- The channel is fed by a column with SRC = 2 (R143). -/
def State.fedByInjection (s : State) (c : Nat) : Bool :=
  match s.ownerOf c with
  | none => false
  | some q => s.tab TWL.src q (s.rd (TWL.OWN_COL.f c)) % 4 == 2

/-- The ready signal of an injection port: at least eight places are free (R357). -/
def State.injReady (s : State) (c : Nat) : Bool := decide ((s.inj.get c []).length ≤ 56)

/-- The region that INJSRC names can present bytes: a region, and no bay whose ring is closed. -/
def State.injPresents (s : State) (c : Nat) : Bool := s.tapReaches (s.rd (CNV.INJ_ACT.f c))

/-- The region that INJSRC names presents bytes; the port takes them while it has room, or discards them. -/
def execInjectionPortInput (c : Channel) (bytes : List Byte) (s : State) : Out :=
  done (if !s.injPresents c || 8 < bytes.length || !s.fedByInjection c then s
  else
    s.withInj (s.inj.set c (s.inj.get c [] ++ (bytes.map fun b => b.toNat).take (64 - (s.inj.get c []).length)) []))

/-! Frames (R366, R367). -/

/-- Frames of types 0, 1 and 2 of a region: bays 0 to 15 and the static region 16. -/
def regionFrames (r : Nat) : Nat × Nat × Nat := if r < 16 then (12624, 5376, 0) else (19200, 12288, 512)

/-- Frames of a region. -/
def regionTotal (r : Nat) : Nat := if r < 16 then 18000 else 32000

/-- The frame number of a type and index in a region, where there is such a frame. -/
def frameNumber (r ty ix : Nat) : Option Nat :=
  let n := regionFrames r
  if 16 < r then none
  else if ty = 0 && decide (ix < n.1) then some ix
  else if ty = 1 && decide (ix < n.2.1) then some (n.1 + ix)
  else if ty = 2 && decide (ix < n.2.2) then some (n.1 + n.2.1 + ix)
  else none

/-- The region and frame number of a frame address. -/
def frameOf (a : Nat) : Option (Nat × Nat) := (frameNumber (bits a 27 5) (bits a 24 3) (bits a 0 24)).map fun f => (bits a 27 5, f)

/-- The key in `State.mem` of the first byte of a frame in the fabric. -/
def fabricKey (r f : Nat) : Nat := 2 ^ 47 + r * 2 ^ 24 + f * 384

/-- A frame is written to the fabric. -/
def State.fabricWrite (s : State) (r f v : Nat) : State := s.setBytes (fabricKey r f) 384 v

/-- The allocation ID of a region's golden copy. -/
def State.goldId (s : State) (r : Nat) : Nat := s.rd (if r < 16 then CNV.BAY_GOLD.f r else CNV.STATIC_GOLD.f)

/-- A region's golden copy, while it can be read and written. -/
def State.gold? (s : State) (r : Nat) : Option Alloc := (s.alloc? (s.goldId r)).filter fun a => a.kind == 6 && a.st == 3

/-- HALF of a region: the static region holds one half. -/
def State.halfOf (s : State) (r : Nat) : Nat := if r < 16 then s.rd (CNV.HALF.f r) else 0

/-- The byte of a golden copy at which frame f of half h begins. -/
def goldOffset (h f : Nat) : Nat := h * 2 ^ 23 + f * 384

/-- A frame is written to a golden copy; none where the write is refused or poisoned. -/
def State.goldWrite (s : State) (r h f v : Nat) : Option State :=
  match s.gold? r with
  | none => none
  | some a =>
    let t := s.allocWrite a (goldOffset h f) (wordBytes v 384)
    if t.allocPoison a (goldOffset h f) 384 then none else some t

/-- A frame of a golden copy; none where it returns poison or there is no copy. -/
def State.goldRead (s : State) (r h f : Nat) : Option Nat :=
  match s.gold? r with
  | none => none
  | some a => if s.allocPoison a (goldOffset h f) 384 then none else some (s.allocRead a (goldOffset h f) 384)

/-! Partial reconfiguration (R368 to R371). -/

/-- The failure of a load is captured, if the capture is empty. -/
def State.icfpCapture (s : State) (cause region : Nat) : State :=
  if s.flag CNV.ICFP_FULL.f then s
  else ((s.setFlag CNV.ICFP_FULL.f true).wr CNV.ICFP_CAP_CAUSE.f cause).wr CNV.ICFP_CAP_REGION.f region

/-- A table that a load fills: what its stream brings. -/
def icfpTab (e : Nat × Nat) : Bool := [25, 40, 41].contains (e.1 / 2 ^ 48)

/-- Whatever a load was doing ends. -/
def State.icfpReset (s : State) : State :=
  let s := (s.setFlag CNV.ICFP_BUSY.f false).wr CNV.ICFP_POS.f 0
  let s := ((s.setFlag CNV.ICFP_WRITING.f false).wr CNV.ICFP_BAD.f 0).wr CNV.ICFP_OUT.f 0
  let s := (((s.wr CNV.ICFP_N.f 0).wr CNV.ICFP_TAG.f 0).wr CNV.ICFP_REC.f 0).wr CNV.ICFP_END.f 0
  s.withTabs (s.tabs.filter fun e => !icfpTab e)

/-- The load fails: a bay that it has begun to write is INCOMPLETE, another is unchanged. -/
def State.icfpFail (s : State) (cause : Nat) : State :=
  let b := s.rd CNV.ICFP_REGION.f
  let s := (s.icfpCapture cause b).icfpReset.wr CNV.ICFP_SIG.f 2
  if s.rd (CNV.BAY_STAT_BSTATE.f b) = 2 then s.wr (CNV.BAY_STAT_BSTATE.f b) 3 else s

/-- Word `i` of the header of the load in progress. -/
def State.icfpHdr (s : State) (i : Nat) : Nat := s.tab CNV.hdr 0 i

/-- The load in progress has CHECK = 1. -/
def State.icfpTag (s : State) : Bool := headerTag s.icfpHdr

/-- The first word of a stream: refused, or a load begins. -/
def State.icfpStart (s : State) (w : Nat) : State :=
  if s.flag CNV.ICFP_BUSY.f || s.flag CFG.BUSY.f || 16 ≤ w % 32 then s.icfpCapture 3 (w % 32)
  else
    (((s.icfpReset.setFlag CNV.ICFP_BUSY.f true).wr CNV.ICFP_POS.f 1).wr CNV.ICFP_REGION.f w).setTab CNV.hdr 0 0 w

/-- The header is complete: its checks (R390). -/
def State.icfpHeader (s : State) : State :=
  let w := s.icfpHdr
  if headerFits w && keyUnwraps w && (headerTag w || !s.flag CFG.FUSE_AUTH_ONLY.f) then s else s.icfpFail 2

/-- A frame of a tag load is staged. -/
def State.icfpStage (s : State) (b f v : Nat) : State :=
  match s.goldWrite b (1 - s.halfOf b) f v with
  | none => s.icfpFail 5
  | some t => t.setTab CNV.staged 0 f 1

/-- The bay is held and LOADING. -/
def State.loadingBay (s : State) : State :=
  let b := s.rd CNV.ICFP_REGION.f
  if s.rd (CNV.BAY_STAT_BSTATE.f b) = 2 then s else s.engageForLoad b

/-- A CRC load that cannot end LOADED keeps the first cause. -/
def State.icfpRefuse (s : State) (cause : Nat) : State :=
  if s.rd CNV.ICFP_BAD.f = 0 then s.wr CNV.ICFP_BAD.f cause else s

/-- A frame of a CRC load is written to the fabric and to the half that is not in force. -/
def State.icfpDirect (s : State) (b f v : Nat) : State :=
  let s := s.loadingBay.fabricWrite b f v
  match s.goldWrite b (1 - s.halfOf b) f v with
  | none => s.icfpRefuse 5
  | some t => t

/-- A frame of the stream is complete. -/
def State.icfpFrame (s : State) (a v : Nat) : State :=
  let b := s.rd CNV.ICFP_REGION.f
  let at' := (frameOf a).filter fun p => p.1 == b
  match at', s.icfpTag with
  | none, true => s.icfpFail 1
  | none, false => s.loadingBay.icfpRefuse 1
  | some p, true => s.icfpStage b p.2 v
  | some p, false => s.icfpDirect b p.2 v

/-- PAY_LEN of the load in progress. -/
def State.icfpPay (s : State) : Nat := s.icfpHdr 5

/-- Payload words that segment `i` of the load holds. -/
def State.icfpSegWords (s : State) (i : Nat) : Nat := (segBytes s.icfpPay i + 3) / 4

/-- Words of the whole payload, and of all segments with their tags. -/
def State.icfpPayWords (s : State) : Nat := (s.icfpPay + 3) / 4
def State.icfpTotal (s : State) : Nat := s.icfpPayWords + 4 * segmentsOf s.icfpPay

/-- Payload word `i` of the load. -/
def State.icfpPayload (s : State) (i : Nat) : Nat := s.tab CNV.pay 0 i

/-- `n` payload words from word `i` on, as bytes. -/
def State.icfpBytes (s : State) (i n : Nat) : List Nat := leBytes ((List.range n).map fun k => s.icfpPayload (i + k))

/-- A record is malformed: the check of the stream fails (R371, cause 2). -/
def State.icfpMalformed (s : State) : State := if s.icfpTag then s.icfpFail 2 else s.wr CNV.ICFP_END.f 2

/-- The head of a record that begins at payload word `r` fits a partial stream: FRAMES, or END as the last (R380). -/
def State.icfpHeadOk (s : State) (r : Nat) : Bool :=
  let typ := s.icfpPayload r
  recordLenOk typ (s.icfpPayload (r + 1)) &&
    (typ == 2 || (typ == 15 && 4 * (r + 3) == s.icfpPay))

/-- The frame that payload word `n` completes: its address and its bits. -/
def State.icfpFrameAt (s : State) (n : Nat) : Option (Nat × Nat) :=
  let r := s.rd CNV.ICFP_REC.f
  let d := n - r - 4
  if s.icfpPayload r = 2 && r + 4 < n && d % 96 = 0 then
    some (s.icfpPayload (r + 2) + (d / 96 - 1), (List.range 96).foldl (fun v k => v + s.icfpPayload (n - 96 + k) * 2 ^ (32 * k)) 0)
  else none

/-- The record in progress ends at payload word `n`. -/
def State.icfpNextRecord (s : State) (n : Nat) : State :=
  let r := s.rd CNV.ICFP_REC.f
  if s.icfpPayload r = 2 && r + 2 + s.icfpPayload (r + 1) / 4 ≤ n && r + 2 < n then s.wr CNV.ICFP_REC.f n else s

/-- The first `n` payload words have been taken: the record in progress goes on (R380). -/
def State.icfpRecord (s : State) (n : Nat) : State :=
  let r := s.rd CNV.ICFP_REC.f
  if s.rd CNV.ICFP_END.f != 0 then s
  else if n = r + 2 then if s.icfpHeadOk r then s else s.icfpMalformed
  else if n = r + 3 && s.icfpPayload r = 15 then
    s.wr CNV.ICFP_END.f (if s.icfpPayload (r + 2) = crc32 (s.icfpBytes 0 (r + 2)) then 1 else 2)
  else if n = r + 4 && !frameCountOk (s.icfpPayload (r + 3)) (s.icfpPayload (r + 1)) then s.icfpMalformed
  else
    match s.icfpFrameAt n with
    | none => s
    | some x => (s.icfpFrame x.1 x.2).icfpNextRecord n

/-- The first payload bytes of the stored words of the segment in progress. -/
def State.segStored (s : State) (i : Nat) : List Nat :=
  (leBytes ((List.range (s.icfpSegWords i)).map fun k => s.tab CNV.seg 0 k)).take (segBytes s.icfpPay i)

/-- The tag that segment `i` carries: its bytes in the order of the stream. -/
def State.segCarried (s : State) (i : Nat) : Nat :=
  ofBe (leBytes ((List.range 4).map fun k => s.tab CNV.seg 0 (s.icfpSegWords i + k)))

/-- The tag of segment `i` verifies. -/
def State.segVerifies (s : State) (i : Nat) : Bool :=
  s.segCarried i == segTag s.icfpHdr i (s.rd CNV.ICFP_TAG.f) (s.segStored i)

/-- A segment has ended: its tag is checked, that of the last with the whole stream (R379, R381 step 4). -/
def State.icfpSegEnd (s : State) (i : Nat) : State :=
  if s.rd CNV.ICFP_N.f = s.icfpTotal then s
  else if s.icfpTag && !s.segVerifies i then s.icfpFail 2
  else s.wr CNV.ICFP_TAG.f (s.segCarried i)

/-- A payload word as the stream means it. -/
def State.icfpPlain (s : State) (i k w : Nat) : Nat :=
  if headerEnc s.icfpHdr then
    let key := segKey ((imageIk s.icfpHdr).getD 0) i
    w ^^^ (List.range 4).foldl (fun v b => v + gcmByte key (segIv s.icfpHdr) (4 * k + b) * 256 ^ b) 0
  else w

/-- A word of the segments, word `k` of segment `i`. -/
def State.icfpData (s : State) (w : Nat) : State :=
  let i := s.rd CNV.ICFP_N.f / 16384
  let k := s.rd CNV.ICFP_N.f % 16384
  let m := s.icfpSegWords i
  let t := (s.setTab CNV.seg 0 k w).inc CNV.ICFP_N.f
  if k < m then (t.setTab CNV.pay 0 (16380 * i + k) (s.icfpPlain i k w)).icfpRecord (16380 * i + k + 1)
  else if k = m + 3 then t.icfpSegEnd i
  else t

/-- The port takes no word: the next payload word would complete a frame whose write to the golden copy must wait
(R10, R286, R465). -/
def State.icfpWaits (s : State) : Bool :=
  let n := s.rd CNV.ICFP_N.f
  let r := s.rd CNV.ICFP_REC.f
  let p := 16380 * (n / 16384) + n % 16384 + 1
  s.icfpPayload r == 2 && decide (r + 4 < p) && (p - r - 4) % 96 == 0 &&
    (s.dramHeld ||
      ((frameOf (s.icfpPayload (r + 2) + ((p - r - 4) / 96 - 1))).any fun x =>
        (s.gold? x.1).any fun a => s.storeWaits a (goldOffset (1 - s.halfOf x.1) x.2) 384))

/-- The header of the load is complete. -/
def State.icfpPastHeader (s : State) : Bool := s.rd CNV.ICFP_POS.f == 64

/-- ICFP_R during a load: low from the end of the stream to the report of its outcome, and while a word must wait
(R368). -/
def State.icfpReady (s : State) : Bool :=
  !s.icfpPastHeader || (decide (s.rd CNV.ICFP_N.f < s.icfpTotal) && !s.icfpWaits)

/-- A word of the header or of the segments. -/
def State.icfpTake (s : State) (w : Nat) : State :=
  let i := s.rd CNV.ICFP_POS.f
  if !s.flag CNV.ICFP_BUSY.f || !s.icfpReady then s
  else if s.icfpPastHeader then s.icfpData w
  else
    let s := (s.setTab CNV.hdr 0 i w).wr CNV.ICFP_POS.f (i + 1)
    if i = 63 then s.icfpHeader else s

/-- ICFP_OK and ICFP_ERR are high for one cycle. -/
def State.icfpSigLow (s : State) : State := s.wr CNV.ICFP_SIG.f 0

/-- A cycle of the port, with a word where ICFP_V is set; `start` marks the first word of a stream. -/
def execIcfpWord (start : Bool) (w : Word) (valid : Bool) (s : State) : Out :=
  done (if !valid then s.icfpSigLow else if start then s.icfpSigLow.icfpStart w.toNat else s.icfpSigLow.icfpTake w.toNat)

/-- The whole stream has been taken, and its outcome is still to be reported. -/
def State.icfpEnded (s : State) : Bool :=
  s.flag CNV.ICFP_BUSY.f && s.icfpPastHeader && s.rd CNV.ICFP_OUT.f == 0 && decide (s.icfpTotal ≤ s.rd CNV.ICFP_N.f)

/-- The check of the stream is passed: the whole-stream tag verifies, or the CRC matches, with END the last record. -/
def State.icfpGood (s : State) : Bool :=
  s.rd CNV.ICFP_END.f == 1 && (!s.icfpTag || s.segVerifies (segmentsOf s.icfpPay - 1))

/-- The outcome of the check of the load of bay `b`: a tag that verifies engages the ring, one that does not ends the load; a CRC decides at
the end. -/
def execTagVerified (b : Bay) (s : State) : Out :=
  done (if !s.icfpEnded || s.rd CNV.ICFP_REGION.f != b.val then s
  else if !s.icfpTag then s.wr CNV.ICFP_OUT.f (if s.icfpGood then 1 else 2)
  else if s.icfpGood then
    ((s.wr CNV.ICFP_OUT.f 1).setFlag CNV.ICFP_WRITING.f true).engageForLoad (s.rd CNV.ICFP_REGION.f)
  else s.icfpFail 2)

/-- The frames that a tag load staged are written to the fabric; none where the staged half returns poison. -/
def State.copyStaged (s : State) (b : Nat) : List (Nat × Nat) → Option State
  | [] => some s
  | e :: r =>
    match s.goldRead b (1 - s.halfOf b) e.1 with
    | none => none
    | some v => (s.fabricWrite b e.1 v).copyStaged b r

/-- The load ends LOADED: HALF changes, and the bay stays held. -/
def State.icfpLoaded (s : State) : State :=
  let b := s.rd CNV.ICFP_REGION.f
  let s := s.loadingBay
  let s := s.setFlag (CNV.HALF.f b) (!s.flag (CNV.HALF.f b))
  ((s.wr (CNV.BAY_STAT_BSTATE.f b) 1).icfpReset.wr CNV.ICFP_SIG.f 1).pulse 1631

/-- The staged frames cannot be read yet (R10, R465). -/
def State.stagedWait (s : State) : Bool :=
  let b := s.rd CNV.ICFP_REGION.f
  s.dramHeld || ((s.listed CNV.staged 0).any fun e =>
    (s.gold? b).any fun a => s.loadWaits a (goldOffset (1 - s.halfOf b) e.1) 384)

def execPartialLoadEnd (s : State) : Out :=
  done (if s.rd CNV.ICFP_OUT.f = 0 || (s.icfpTag && s.stagedWait) then s
  else if s.icfpTag then
    match s.copyStaged (s.rd CNV.ICFP_REGION.f) (s.listed CNV.staged 0) with
    | none => s.icfpFail 5
    | some t => t.icfpLoaded
  else if s.rd CNV.ICFP_BAD.f != 0 then s.icfpFail (s.rd CNV.ICFP_BAD.f)
  else if s.rd CNV.ICFP_OUT.f = 1 then s.icfpLoaded
  else s.icfpFail 2)

/-- ICFP_ABORT: ignored without a load, and in tag mode once the frames are written. -/
def State.icfpAbort (s : State) : State :=
  if s.flag CNV.ICFP_BUSY.f && !s.flag CNV.ICFP_WRITING.f then s.icfpFail 4 else s

def execIcfpAbort (s : State) : Out := done (s.reach (CNV.ICFP_ABORT.f.sets 1) .cnv fun s => s.icfpAbort)

def State.icfpRel (s : State) : State :=
  ((s.setFlag CNV.ICFP_FULL.f false).wr CNV.ICFP_CAP_CAUSE.f 0).wr CNV.ICFP_CAP_REGION.f 0

def execIcfpRel (s : State) : Out := done (s.reach (CNV.ICFP_REL.f.sets 1) .cnv fun s => s.icfpRel)

def State.injRel (s : State) : State := ((s.setFlag CNV.INJ_FULL.f false).wr CNV.INJ_CAP_CH.f 0).wr CNV.INJ_CNT.f 0

def execInjRel (s : State) : Out := done (s.reach (CNV.INJ_REL.f.sets 1) .cnv fun s => s.injRel)

def State.upsetRel (s : State) : State :=
  ((s.setFlag CNV.UPSET_FULL.f false).wr CNV.UPSET_CAP.f 0).wr CNV.UPSET_KIND.f 0

def execUpsetRel (s : State) : Out := done (s.reach (CNV.UPSET_REL.f.sets 1) .cnv fun s => s.upsetRel)

/-! Scrubbing (R372, R373). -/

/-- The scrubber visits a region: not a bay that is EMPTY, LOADING or INCOMPLETE. -/
def State.scrubbed (s : State) (r : Nat) : Bool := decide (r = 16) || s.rd (CNV.BAY_STAT_BSTATE.f r) == 1

/-- A frame is captured, if the capture is empty. -/
def State.upsetCapture (s : State) (a kind : Nat) : State :=
  if s.flag CNV.UPSET_FULL.f then s
  else ((s.setFlag CNV.UPSET_FULL.f true).wr CNV.UPSET_CAP.f a).wr CNV.UPSET_KIND.f kind

/-- A frame with a multi-bit error: rewritten from the golden copy, or unrepairable where that returns poison. -/
def State.scrubMulti (s : State) (a r f : Nat) : State :=
  match s.goldRead r (s.halfOf r) f with
  | some v => (((s.fabricWrite r f v).incSat CNV.SCRUB_ME.f).upsetCapture a 0).pulse 1625
  | none =>
    let s := s.upsetCapture a 1
    if r = 16 then s else (s.engageForLoad r).wr (CNV.BAY_STAT_BSTATE.f r) 3

/-- The place of a frame in the order of scrubbing: the static region first, then bays 0 to 15, each in ascending order
(R372). -/
def scrubPlace (r f : Nat) : Nat := (if r = 16 then 0 else r + 1) * 32000 + f

/-- The region and the frame number at a place. -/
def scrubAt (p : Nat) : Nat × Nat := (if p < 32000 then 16 else p / 32000 - 1, p % 32000)

/-- The dynamic bit of a frame, in the half in force of its golden copy; a region without one has none (R367). -/
def State.dynamicBit (s : State) (r f : Nat) : Bool :=
  match s.gold? r with
  | none => false
  | some a =>
    let o := if r < 16 then s.halfOf r * 2 ^ 23 + 6912000 + f / 8 else 12288000 + f / 8
    s.allocPoison a o 1 || bitOf (s.allocRead a o 1) (f % 8)

/-- The scrubber reads a frame: of type 0 or 2, in a region that it visits, with its dynamic bit clear. -/
def State.scrubReads (s : State) (r f : Nat) : Bool :=
  decide (f < regionTotal r) && !(decide ((regionFrames r).1 ≤ f) && decide (f < (regionFrames r).1 + (regionFrames r).2.1)) &&
    s.scrubbed r && !s.dynamicBit r f

/-- Of `n` places from one on, some hold a frame that the scrubber reads. -/
def State.scrubAny (s : State) (p : Nat) : Nat → Bool
  | 0 => false
  | n + 1 => s.scrubReads (scrubAt p).1 (scrubAt p).2 || s.scrubAny (p + 1) n

/-- What the scrubber does with a frame. -/
def State.scrubDo (s : State) (a r f : Nat) : ScrubResult → State
  | .clean => s
  | .single => (s.incSat CNV.SCRUB_CE.f).pulse 1624
  | .multi => s.scrubMulti a r f

/-- The scrubber goes on after a place, or has completed a cycle. -/
def State.scrubGoOn (s : State) (p : Nat) : State :=
  if s.scrubAny (p + 1) (17 * 32000 - (p + 1)) then s.wr CNV.SCRUB_POS.f (p + 1)
  else (s.inc CNV.SCRUB_PASS.f).wr CNV.SCRUB_POS.f 0

/-- The golden copy cannot be read now, which a multi-bit error waits for. -/
def State.scrubWaits (s : State) (r f : Nat) (x : ScrubResult) : Bool :=
  x == .multi && (s.dramHeld || (s.gold? r).any fun a => s.loadWaits a (goldOffset (s.halfOf r) f) 384)

/-- The scrubber has read a frame: the next one in its order, while it runs. -/
def State.scrubFrame (s : State) (a : Nat) (x : ScrubResult) : State :=
  match frameOf a with
  | none => s
  | some (r, f) =>
    let p := scrubPlace r f
    if !s.flag CNV.SCRUB_EN.f || s.gated .cnv || !s.scrubReads r f || p < s.rd CNV.SCRUB_POS.f ||
        s.scrubAny (s.rd CNV.SCRUB_POS.f) (p - s.rd CNV.SCRUB_POS.f) || s.scrubWaits r f x then s
    else (s.scrubDo a r f x).scrubGoOn p

/-- The frame address has the region above TYPE, COL and MINOR (R366). -/
def execScrubFrame (region : BitVec 5) (frame : BitVec 27) (x : ScrubResult) (s : State) : Out :=
  done (s.scrubFrame (region.toNat * 2 ^ 27 + frame.toNat) x)

/-! The power budget (R374), in pW. -/

/-- What a Canvas design uses, each with its clock in MHz; toggle rates in thousandths. -/
structure FabricDesign where
  /-- LUTs, block-memory ports and arithmetic slices: number, MHz, toggle rate. -/
  luts : List (Nat × Nat × Nat)
  ports : List (Nat × Nat × Nat)
  slices : List (Nat × Nat × Nat)
  /-- Clocked flip-flops and networks: number, MHz. -/
  flipFlops : List (Nat × Nat)
  networks : List (Nat × Nat)
  /-- Channels whose TAPDST or INJSRC names a region. -/
  tapped : Nat
  deriving DecidableEq, Repr

/-- Σ of coefficient × f × α, the coefficient in pW per MHz. -/
def switched (k : Nat) (l : List (Nat × Nat × Nat)) : Nat := l.foldl (fun p x => p + x.1 * k * x.2.1 * x.2.2 / 1000) 0

/-- Σ of coefficient × f. -/
def clocked (k : Nat) (l : List (Nat × Nat)) : Nat := l.foldl (fun p x => p + x.1 * k * x.2) 0

/-- The estimate with the Max coefficients; the tap term counts every 16 channels begun. -/
def FabricDesign.power (d : FabricDesign) : Nat :=
  6 * 10 ^ 12 + switched 300000 d.luts + switched 15000000 d.ports + switched 5000000 d.slices + clocked 10000 d.flipFlops +
    clocked 15000000 d.networks + (d.tapped + 15) / 16 * (25 * 10 ^ 10)

/-- The channels whose TAPDST or INJSRC names a region. -/
def State.tappedChannels (s : State) : Nat :=
  ((List.range 128).filter fun c => s.rd (CNV.PORT_TAPDST.f c) ≤ 16 || s.rd (CNV.INJ_ACT.f c) ≤ 16).length

/-- The design keeps the budget of R29. -/
def FabricDesign.fits (d : FabricDesign) : Bool := decide (d.power ≤ 45 * 10 ^ 12)

end Sys2Proof.Machine
end

