-- ==== Sys2Proof/Machine/Line.lean ====
section
/-! DEFINITION. The line code of a Tweed lane (R400 to R402, R404, R406): blocks, scrambler, control blocks, messages as
blocks, columns, and what a receiver does with them. Nothing here reads the state. Log entry 92. -/

namespace Sys2Proof.Machine

/-- A block before scrambling: control or data, and its 64 payload bits, byte 0 lowest (R400). -/
structure LineBlock where
  ctl : Bool
  pay : Nat
  deriving DecidableEq, Repr

/-- The sync header of a block; 0b00 and 0b11 are invalid. -/
def LineBlock.head (b : LineBlock) : Nat := if b.ctl then 2 else 1

/-- A sync header is valid. -/
def headOk (h : Nat) : Bool := h == 1 || h == 2

/-! The self-synchronising scrambler x^58 + x^39 + 1 (R400). Its state is the last 58 bits on the lane, the oldest
lowest. -/

/-- 64 payload bits, bit 0 first: the scrambled bits and the new state. Bit n is the payload bit with the bits that lay
39 and 58 places before it; the first 39 bits need the state alone. -/
def scramble (st d : Nat) : Nat × Nat :=
  let low := (d ^^^ st ^^^ st / 2 ^ 19) % 2 ^ 39
  let mid := st / 2 ^ 39 + low * 2 ^ 19
  let high := (d / 2 ^ 39 ^^^ mid ^^^ mid / 2 ^ 19) % 2 ^ 25
  (low + high * 2 ^ 39, mid / 2 ^ 25 + high * 2 ^ 33)

/-- The payload bits of 64 bits received, and the new state. -/
def descramble (st r : Nat) : Nat × Nat :=
  let all := st + r * 2 ^ 58
  ((r ^^^ all / 2 ^ 19 ^^^ all) % 2 ^ 64, all / 2 ^ 64)

/-- The 66 bits of a block on a lane, the sync header first and not scrambled, and the new state of the lane. -/
def LineBlock.onLane (b : LineBlock) (st : Nat) : Nat × Nat :=
  let x := scramble st b.pay
  (b.head + x.1 * 4, x.2)

/-- The block that 66 bits on a lane spell, none for an invalid header, and the new state. -/
def blockOff (st v : Nat) : Option LineBlock × Nat :=
  let x := descramble st (v / 4 % 2 ^ 64)
  (if headOk (v % 4) then some { ctl := v % 4 == 2, pay := x.1 } else none, x.2)

/-! Control blocks (R401). -/

/-- The number that bytes spell, the lowest first. -/
def ofLe (l : List Nat) : Nat := l.foldr (fun b v => b % 256 + v * 256) 0

/-- A control block of a type with the bytes after it. -/
def ctlBlock (typ : Nat) (bytes : List Nat) : LineBlock := { ctl := true, pay := ofLe (typ :: bytes) }

def idleBlock : LineBlock := ctlBlock 0x1E []
def fillBlock : LineBlock := ctlBlock 0x2D []
/-- AM, with the lane number. -/
def amBlock (lane : Nat) : LineBlock := ctlBlock 0x33 [lane]
/-- START: CLASS, LEN in cells, SEQ, DIR. -/
def startBlock (cls len seq dir : Nat) : LineBlock := ctlBlock 0x55 ([cls, len] ++ natBytes seq 2 ++ [dir])
/-- END: the CRC-32. -/
def endBlock (crc : Nat) : LineBlock := ctlBlock 0x66 (natBytes crc 4)
/-- LINK: ACKSEQ, NAK, and the credits returned of both classes. -/
def linkBlock (ack : Nat) (nak : Bool) (ctl bcast : Nat) : LineBlock :=
  ctlBlock 0x78 (natBytes ack 2 ++ [if nak then 1 else 0] ++ natBytes ctl 2 ++ natBytes bcast 2)
/-- CAP: SYS_ID, MAJOR, the offer and the place (R404). -/
def capLine (sysId major offer place : Nat) : LineBlock := ctlBlock 0x4B (natBytes sysId 4 ++ [major, offer, place])

/-- A control block is of a type that is listed. -/
def LineBlock.known (b : LineBlock) : Bool := [0x1E, 0x2D, 0x33, 0x4B, 0x55, 0x66, 0x78].contains (b.pay % 256)

/-! Messages (R406). -/

/-- Bytes as data blocks of eight. -/
def dataBlocks (l : List Nat) : List LineBlock :=
  (List.range (l.length / 8)).map fun i => { ctl := false, pay := ofLe ((l.drop (8 * i)).take 8) }

/-- A message as blocks: START, LEN × 8 data blocks, END with the CRC over the START block and the payload, which is
filled with zeros to whole cells of 64 bytes. -/
def messageBlocks (cls seq dir : Nat) (bytes : List Nat) : List LineBlock :=
  let len := (bytes.length + 63) / 64
  let body := bytes ++ List.replicate (64 * len - bytes.length) 0
  let st := startBlock cls len seq dir
  st :: dataBlocks body ++ [endBlock (crc32 (natBytes st.pay 8 ++ body))]

/-- The CRC of a message that blocks spell is right: START, the data blocks that LEN asks for, END (R401, R408). -/
def messageOk (l : List LineBlock) : Bool :=
  match l with
  | [] => false
  | st :: r =>
    let n := 8 * (st.pay / 2 ^ 16 % 256)
    let body := (r.take n).flatMap fun b => natBytes b.pay 8
    st.ctl && st.pay % 256 == 0x55 && decide (1 ≤ n) && decide (n ≤ 512) && r.length == n + 1 &&
      (r.take n).all (fun b => !b.ctl) && r.drop n == [endBlock (crc32 (natBytes st.pay 8 ++ body))]

/-! Columns (R400, R402). A column is one block on every lane in use, in ascending lane order. -/

/-- Blocks dealt to `n` lanes, the last column filled with IDLE. The first argument bounds the columns. -/
def dealColumns : Nat → Nat → List LineBlock → List (List LineBlock)
  | 0, _, _ => []
  | _, _, [] => []
  | k + 1, n, l =>
    (l.take n ++ List.replicate (n - (l.take n).length) idleBlock) :: dealColumns k n (l.drop n)

/-- The transmitter of a port: the scrambler state of each lane, the last 66 bits that each lane has sent, and the
blocks per lane since the last FILL and the last AM column. -/
structure LineTx where
  scr : List Nat
  out : List Nat
  fill : Nat
  am : Nat
  deriving DecidableEq, Repr

/-- A lane sends a block. -/
def LineTx.sendLane (t : LineTx) (lane : Nat) (b : LineBlock) : LineTx :=
  let x := b.onLane (t.scr.getD lane 0)
  { t with scr := t.scr.set lane x.2, out := t.out.set lane x.1 }

/-- A column is sent on the lanes in use. -/
def LineTx.column (t : LineTx) (lanes : List Nat) (c : List LineBlock) : LineTx :=
  let t := (lanes.zip c).foldl (fun t x => t.sendLane x.1 x.2) t
  { t with fill := t.fill + 1, am := t.am + 1 }

/-- The columns that are due before the next message: FILL after 1,024 blocks per lane, AM after 4,096. -/
def LineTx.marks (t : LineTx) (lanes : List Nat) : LineTx :=
  let t := if 1024 ≤ t.fill then { t.column lanes (lanes.map fun _ => fillBlock) with fill := 0 } else t
  if 4096 ≤ t.am then { t.column lanes (lanes.map amBlock) with am := 0 } else t

/-- A message is sent; no other column lies within it. -/
def LineTx.message (t : LineTx) (lanes : List Nat) (l : List LineBlock) : LineTx :=
  (dealColumns l.length lanes.length l).foldl (fun t c => t.column lanes c) (t.marks lanes)

/-- `n` columns between messages: the columns that are due, else one block on every lane. -/
def LineTx.between (t : LineTx) (lanes : List Nat) (b : LineBlock) : Nat → LineTx
  | 0 => t
  | n + 1 =>
    let u := t.marks lanes
    (if u = t then t.column lanes (lanes.map fun _ => b) else u).between lanes b n

/-! The receiver (R402). -/

/-- A column of FILL blocks. -/
def isFill (c : List LineBlock) : Bool := c.all fun b => b == fillBlock

/-- One column leaves the elastic buffer: a FILL column at its head is sent twice while no more than `low` columns are
held, and deleted while at least `high` are. -/
def elasticRead (low high : Nat) : List (List LineBlock) → Option (List LineBlock) × List (List LineBlock)
  | [] => (none, [])
  | c :: r =>
    if isFill c && decide (r.length < low) then (some c, c :: r)
    else if isFill c && decide (high ≤ r.length + 1) then
      match r with
      | [] => (none, [])
      | d :: r' => (some d, r')
    else (some c, r)

/-- The blocks of a lane from its first alignment marker on. -/
def fromMarker (lane : Nat) (l : List LineBlock) : List LineBlock := l.dropWhile fun b => b != amBlock lane

/-- The lanes deskewed: every lane begins at its alignment marker, and equal places form columns. -/
def deskew (lanes : List (Nat × List LineBlock)) : List (List LineBlock) :=
  let l := lanes.map fun x => fromMarker x.1 x.2
  let n := l.foldl (fun m x => min m x.length) (l.headD []).length
  (List.range n).map fun i => l.map fun x => x.getD i idleBlock

/-- The output of the 8-tap decision-feedback equaliser for a sample, from the last eight decisions, the latest first.
-/
def equalised (taps decisions : List Int) (x : Int) : Int :=
  x - ((List.range 8).map fun k => taps.getD k 0 * decisions.getD k 0).foldl (· + ·) 0

/-- The window of a lane's last 64 headers, one bit for each, 1 for an invalid one, takes a header (R409). -/
def headWindow (w h : Nat) : Nat := (w * 2 + if headOk h then 0 else 1) % 2 ^ 64

/-- The set bits of a window. -/
def headsBad (w : Nat) : Nat := (List.range 64).foldl (fun n i => if bitOf w i then n + 1 else n) 0

/-- The windows that headers lead to, and whether one of them drops the lane: 32 of 64 invalid. -/
def headsTake : Nat → List Nat → Nat × Bool
  | w, [] => (w, false)
  | w, h :: r =>
    let v := headWindow w h
    if 32 ≤ headsBad v then (v, true) else headsTake v r

/-- The one-way latency of a hop from the four stamps of a TIME exchange in units of 0.25 ps, as a code of 10 ps: half
of the round trip less the time between arrival and answer (R415). -/
def hopLatency (t1 t2 t3 t4 : Nat) : Nat := ((t4 - t1) - (t3 - t2)) / 2 / 40

end Sys2Proof.Machine
end

