-- ==== Sys2Proof/Machine/Tweed.lean ====
section
/-! DEFINITION. Tweed links and cascading (R396 to R428): ports, messages, cascade membership and time, barriers, global
fail and stop, and the pattern broadcast. Log entries 63, 64, 65 and 92. -/

namespace Sys2Proof.Machine

/-! Messages and credits (R406 to R408). -/

/-- The message is of class BCAST. -/
def TwBody.isBcast : TwBody → Bool
  | .bcast .. => true
  | _ => false

/-- Cells of a message: one for CTL, and for BCAST its data with the object ID and byte offset before them. -/
def TwBody.cells : TwBody → Nat
  | .bcast _ _ len => (len + 8 + 63) / 64
  | _ => 1

/-- The messages of a port that wait to be sent or acknowledged. -/
def State.twQ (s : State) (w : Nat) : List TwMsg := s.twOut.get w []

def State.setTwQ (s : State) (w : Nat) (q : List TwMsg) : State := s.withTwOut (s.twOut.set w q [])

/-- CRED shows the credits of both classes. -/
def State.showCred (s : State) (w : Nat) : State := s.wr (TWD.P_CRED.f w) (s.rd (TWD.P_CCTL.f w) + s.rd (TWD.P_CBC.f w))

/-! The transmitter of a port (R400 to R402, R406). -/

/-- The lanes of a port in use, ascending. -/
def State.lanesUsed (s : State) (w : Nat) : List Nat := (List.range 4).filter fun l => s.bit (TWD.P_STAT_LANES.f w) l

/-- The transmitter of a port as it stands. -/
def State.lineTx (s : State) (w : Nat) : LineTx :=
  { scr := (List.range 4).map fun l => s.rd (TWD.P_SCR.f w l), out := (List.range 4).map fun l => s.rd (TWD.P_OUT.f w l),
    fill := s.rd (TWD.P_TXFILL.f w), am := s.rd (TWD.P_TXAM.f w) }

def State.setLineTx (s : State) (w : Nat) (t : LineTx) : State :=
  s.forUpTo 4 (fun s l => (s.wr (TWD.P_SCR.f w l) (t.scr.getD l 0)).wr (TWD.P_OUT.f w l) (t.out.getD l 0)) |>.wr
    (TWD.P_TXFILL.f w) t.fill |>.wr (TWD.P_TXAM.f w) t.am

/-- The number by which the cell of a CTL message is drawn: it tells the messages apart. -/
def TwBody.number : TwBody → Nat
  | .arrive n bad => 16 * (n + 256 * b2n bad)
  | .release n t => 1 + 16 * (n + 256 * t)
  | .ack n => 2 + 16 * n
  | .fail n => 3 + 16 * n
  | .withdraw n => 4 + 16 * n
  | .lost d => 5 + 16 * d
  | .probe d => 6 + 16 * d
  | .answer => 7
  | .gfsum on => 8 + 16 * b2n on
  | .gfail on => 9 + 16 * b2n on
  | .gstop => 10
  | .time t2 t3 => 11 + 16 * (t2 + 2 ^ 64 * t3)
  | .bcCreate id size key => 12 + 16 * (id + 2 ^ 32 * (size + 2 ^ 37 * key))
  | .bcCreated code => 13 + 16 * code
  | .bcast id off len => 14 + 16 * (id + 2 ^ 32 * (off + 2 ^ 37 * len))
  | .bcSeal id => 15 + 32 * id
  | .bcSealed code => 31 + 32 * code

/-- The bytes of a message: for BCAST the object ID and byte offset, then the data; for CTL its cell. -/
def State.twBytes (s : State) (b : TwBody) : List Nat :=
  match b with
  | .bcast id off len =>
    natBytes id 4 ++ natBytes off 4 ++
      match s.alloc? id with
      | none => List.replicate len 0
      | some a => (List.range len).map fun i => s.allocRead a (off + i) 1
  | b => natBytes (Config.ctlCell b.number) 64

/-- A message is sent on the lanes of its port: DIR is 0 towards the master. -/
def State.lineSend (s : State) (w seq : Nat) (b : TwBody) : State :=
  s.setLineTx w ((s.lineTx w).message (s.lanesUsed w)
    (messageBlocks (b2n b.isBcast) seq (b2n (!s.flag (TWD.UPSTREAM.f w))) (s.twBytes b)))

/-- The messages of a port that were sent and not acknowledged are sent again, in their order (R408). -/
def State.twReplay (s : State) (w : Nat) : State :=
  (s.twQ w).foldl (fun s m => match m.seq with
    | none => s
    | some q => s.lineSend w q m.body) s

/-- The highest rate that a port offers, and the CAP block that it sends (R404). -/
def State.capSent (s : State) (w : Nat) : LineBlock :=
  capLine SYS.ID.reset SYS.REV_MAJOR.reset (min 4 (s.rd (TWD.P_MAXR.f w)) + b2n (s.flag CFG.MASTER.f) * 8 + w * 16)
    (s.rd TWD.STAT_DEV.f + s.rd TWD.STAT_STATE.f * 32)

/-- The bits per microsecond of a lane at a rate code (R405). -/
def laneBits (r : Nat) : Nat := [2500, 8000, 16000, 25000].getD r 32000

/-- LINK returns the credits of what has been passed on, and acknowledges in order (R407, R408). -/
def State.sendLink (s : State) (w : Nat) : State :=
  let c := s.rd (TWD.P_RETC.f w)
  let b := s.rd (TWD.P_RETB.f w)
  if c = 0 && b = 0 then s
  else
    let l := linkBlock ((s.rd (TWD.P_RSEQ.f w) + 65535) % 65536) false c b
    ((s.setLineTx w ((s.lineTx w).column (s.lanesUsed w) (l :: (s.lanesUsed w).map fun _ => idleBlock))).wr
      (TWD.P_RETC.f w) 0).wr (TWD.P_RETB.f w) 0

/-- A microsecond on a port that is trained or being trained: a LINK block where credits are owed, then CAP blocks in
bring-up and else IDLE, with the FILL and AM columns that are due. The columns of messages are not taken off (log entry
92). -/
def State.lineTick (s : State) (w : Nat) : State :=
  let st := s.rd (TWD.P_STAT_PSTATE.f w)
  if st = 0 || st = 5 then s
  else
    let n := s.rd (TWD.P_BITS.f w) + laneBits (s.rd (TWD.P_STAT_RATE.f w))
    let s := (if st = 2 then s.sendLink w else s).wr (TWD.P_BITS.f w) (n % 66)
    s.setLineTx w ((s.lineTx w).between (if st = 1 then [0, 1, 2, 3] else s.lanesUsed w)
      (if st = 1 then s.capSent w else idleBlock) (n / 66))

/-! What a port has received (R407, R408). -/

/-- A message of class CTL has been received in order, and passed on. -/
def State.twGot (s : State) (w : Nat) : State := (s.inc (TWD.P_RSEQ.f w)).wr (TWD.P_RETC.f w) (s.rd (TWD.P_RETC.f w) + 1)

/-- The index of the message that may be sent next: the first unsent CTL message if it has a credit, else the first
unsent BCAST message if no CTL message waits and all its cells have credits. -/
def State.twNext (s : State) (w : Nat) : Option Nat :=
  let q := s.twQ w
  match q.findIdx? fun m => m.seq.isNone && !m.body.isBcast with
  | some i => if s.rd (TWD.P_CCTL.f w) = 0 then none else some i
  | none =>
    match q.findIdx? fun m => m.seq.isNone with
    | none => none
    | some i => if (q.map fun m => m.body.cells).getD i 0 ≤ s.rd (TWD.P_CBC.f w) then some i else none

/-- The message at an index is sent: it takes the next SEQ, and its cells take credits. -/
def State.twSendAt (s : State) (w i : Nat) : State :=
  let q := s.twQ w
  match q[i]? with
  | none => s
  | some m =>
    let s := s.setTwQ w (q.set i { m with seq := some (s.rd (TWD.P_SEQ.f w)) })
    let s := (s.lineSend w (s.rd (TWD.P_SEQ.f w)) m.body).inc (TWD.P_SEQ.f w)
    (if m.body.isBcast then s.wr (TWD.P_CBC.f w) (s.rd (TWD.P_CBC.f w) - m.body.cells)
    else s.wr (TWD.P_CCTL.f w) (s.rd (TWD.P_CCTL.f w) - 1)).showCred w

/-- A port that is UP sends what it can. -/
def State.twPump (s : State) (w : Nat) : Nat → State
  | 0 => s
  | n + 1 =>
    if s.rd (TWD.P_STAT_PSTATE.f w) = 2 then
      match s.twNext w with
      | none => s
      | some i => (s.twSendAt w i).twPump w n
    else s

/-- A message is given to a port that is UP or in RECOVER. -/
def State.twSend (s : State) (w : Nat) (b : TwBody) : State :=
  let st := s.rd (TWD.P_STAT_PSTATE.f w)
  if st = 2 || st = 3 then
    let q := s.twQ w ++ [{ body := b }]
    (s.setTwQ w q).twPump w q.length
  else s

/-- The upstream port. -/
def State.upstream (s : State) : Option Nat := (List.range 4).find? fun w => s.flag (TWD.UPSTREAM.f w)

/-- A message of the master has come by the upstream port; a message of device d to the master by the port that leads
there. -/
def State.gotDown (s : State) : State :=
  match s.upstream with
  | none => s
  | some w => s.twGot w

def State.gotUp (s : State) (d : Nat) : State := if d = 0 then s else s.twGot (s.rd (TWD.ROST_VIA.f d))

/-- A message towards the master. -/
def State.twSendUp (s : State) (b : TwBody) : State :=
  match s.upstream with
  | none => s
  | some w => s.twSend w b

/-- A message to device d, on the master. -/
def State.twSendTo (s : State) (d : Nat) (b : TwBody) : State := s.twSend (s.rd (TWD.ROST_VIA.f d)) b

/-- Device d is numbered and not lost, on the master. -/
def State.devJoined (s : State) (d : Nat) : Bool := s.flag (TWD.ROST_PRES.f d) && !s.flag (TWD.ROST_LOSTD.f d)

/-- A message to every JOINED device of a mask but the master itself. -/
def State.twSendMask (s : State) (mask : Nat) (b : TwBody) : State :=
  s.forUpTo 31 fun s i => if bitOf mask (i + 1) && s.devJoined (i + 1) then s.twSendTo (i + 1) b else s

/-- LINK: the acknowledged messages leave, credits return, and a NAK makes the others be sent again in their order. -/
def State.twLink (s : State) (w ack : Nat) (nak : Bool) (ctl bcast : Nat) : State :=
  let q := (s.twQ w).filter fun m => !(m.seq.any fun x => (ack + 2 ^ 16 - x) % 2 ^ 16 < 2 ^ 15)
  let s := (s.setTwQ w q).wr (TWD.P_CCTL.f w) (min 32 (s.rd (TWD.P_CCTL.f w) + ctl))
  let s := (s.wr (TWD.P_CBC.f w) (min 224 (s.rd (TWD.P_CBC.f w) + bcast))).showCred w
  let s := if nak then ((s.incSat (TWD.P_CRCE.f w)).pulse (1476 + 8 * w)).twReplay w else s
  s.twPump w q.length

def execLink (w : TwPort) (ack : BitVec 16) (nak : Bool) (ctl : BitVec 16) (bcast : BitVec 16) (s : State) : Out :=
  done (if s.rd (TWD.P_STAT_PSTATE.f w) = 2 then s.twLink w ack.toNat nak ctl.toNat bcast.toNat else s)

/-! Errors, cascade state and cascade time (R411, R414, R425). -/

/-- TWD_ERR_CAP takes an error, if it is empty. -/
def State.twdCapture (s : State) (kind port lane bar dev : Nat) : State :=
  if s.flag TWD.CAP_FULL.f then s
  else
    ((((((s.setFlag TWD.CAP_FULL.f true).wr TWD.ERR_CAP_KIND.f kind).wr TWD.ERR_CAP_PORT.f port).wr
      TWD.ERR_CAP_LANE.f lane).wr TWD.ERR_CAP_BAR.f bar).wr TWD.ERR_CAP_DEV.f dev)

def State.twdCapRel (s : State) : State :=
  ((((((s.setFlag TWD.CAP_FULL.f false).wr TWD.ERR_CAP_KIND.f 0).wr TWD.ERR_CAP_PORT.f 0).wr
    TWD.ERR_CAP_LANE.f 0).wr TWD.ERR_CAP_BAR.f 0).wr TWD.ERR_CAP_DEV.f 0)

def execTwdCapRel (s : State) : Out := done (s.reach (TWD.CAP_REL.f.sets 1) .twd fun s => s.twdCapRel)

/-- The cascade state, with the flags CASC and LOST that show it. -/
def State.setTwState (s : State) (st : Nat) : State :=
  ((s.wr TWD.STAT_STATE.f st).setFlag TWD.CASC.f (st == 3 || st == 5)).setFlag TWD.LOST.f
    (s.flag TWD.CASC_EN.f && (st == 1 || st == 4))

/-- TREF cycles since start. -/
def State.trefCycles (s : State) : Nat := s.time / 10

/-- CT, zero where the device does not keep it. -/
def State.cascadeTime (s : State) : Nat :=
  if s.inCascade then (s.trefCycles + s.rd TWD.CT_OFS.f) % 2 ^ 48 else 0

/-- CT becomes `v`. -/
def State.setCt (s : State) (v : Nat) : State := s.wr TWD.CT_OFS.f (v + 2 ^ 48 - s.trefCycles % 2 ^ 48)

/-! Barriers on this device (R417 to R419, R141). -/

/-- The sequencers that hold at barrier n. -/
def State.waitingAt (s : State) (n : Nat) : List Nat :=
  (List.range 16).filter fun q =>
    s.rd (TWL.STATE_STATE.f q) == 5 &&
      match s.run? q with
      | none => false
      | some r => r.line.any fun l => l.opnd % 256 == n

/-- TWD_BSEQ word n. -/
def State.bseq (s : State) (n : Nat) : Nat := s.tab TWD.bar 0 (256 + n) % 2 ^ 16

/-- This device's arrived sequencers, as word 512 + n reads. -/
def State.arrivedSeqs (s : State) (n : Nat) : Nat :=
  (s.waitingAt n).foldl (fun m q => if bitOf (s.bseq n) q then m + 2 ^ q else m) 0

/-- The barrier has failed for this device: every participating burst ends with SYNC_FAIL. -/
def State.barrierFailHere (s : State) (n : Nat) : State :=
  let s := (s.waitingAt n).foldl (fun s q => s.endRunHere q 4) s
  let s := (s.setTab TWD.barT 0 n 0).setTab TWD.barSent 0 n 0
  if s.bseq n = 0 then s else s.pulse 1510

/-! Barriers on the master. -/

/-- The devices that take part in barrier n. -/
def State.participants (s : State) (n : Nat) : Nat := s.tab TWD.bar 0 n

/-- The devices that have arrived. -/
def State.arrivedDevs (s : State) (n : Nat) : Nat := s.tab TWD.bar 0 (768 + n)

/-- The barrier is RELEASING on the master. -/
def State.releasing (s : State) (n : Nat) : Bool := s.tab TWD.barT 0 n != 0

/-- The barrier failed because of device d: FAIL goes to every participant. -/
def State.barrierFail (s : State) (n d : Nat) : State :=
  let s := (s.twdCapture 2 0 0 n d).twSendMask (s.participants n) (.fail n)
  let s := ((s.setTab TWD.bar 0 (768 + n) 0).setTab TWD.acks 0 n 0).setTab TWD.barNext 0 n 0
  s.barrierFailHere n

/-- The lead of a release in ns: REL_LEAD, or 2 µs, the largest path latency among the participants and 0.2 µs. -/
def State.releaseLead (s : State) (n : Nat) : Nat :=
  let lmax := (List.range 32).foldl
    (fun m d => if bitOf (s.participants n) d then max m (s.rd (TWD.ROST_LAT.f d)) else m) 0
  max (s.rd TWD.CTRL_REL_LEAD.f * 100) ((220000 + lmax + 99) / 100)

/-- RELEASE: T is the first CT boundary at or after now plus the lead. -/
def State.barrierRelease (s : State) (n : Nat) : State :=
  let t := (s.cascadeTime + (s.time % 10 + s.releaseLead n + 9) / 10) % 2 ^ 48
  (((s.setTab TWD.barT 0 n (t + 1)).setTab TWD.acks 0 n 1).setTab TWD.barRel 0 n s.time).twSendMask (s.participants n)
    (.release n t)

/-- The barrier is released once every participant has arrived. -/
def State.barrierCheck (s : State) (n : Nat) : State :=
  let p := s.participants n
  if p != 0 && !s.releasing n && (s.arrivedDevs n &&& p) == p then s.barrierRelease n else s

/-- An arrival of device d at the master. -/
def State.arriveAt (s : State) (n d : Nat) (bad : Bool) : State :=
  if bad || !bitOf (s.participants n) d then s.barrierFail n d
  else if s.releasing n then s.setTab TWD.barNext 0 n (putBit (s.tab TWD.barNext 0 n) d true)
  else (s.setTab TWD.bar 0 (768 + n) (putBit (s.arrivedDevs n) d true)).barrierCheck n

/-- A withdrawal of device d at the master. -/
def State.withdrawAt (s : State) (n d : Nat) : State :=
  if s.releasing n then s.setTab TWD.barNext 0 n (putBit (s.tab TWD.barNext 0 n) d false)
  else s.setTab TWD.bar 0 (768 + n) (putBit (s.arrivedDevs n) d false)

/-- This device is the master of a cascade. -/
def State.isMaster (s : State) : Bool := s.rd TWD.STAT_STATE.f == 5

/-- ARRIVE of this device. -/
def State.sendArrive (s : State) (n : Nat) (bad : Bool) : State :=
  if s.isMaster then s.arriveAt n 0 bad else s.twSendUp (.arrive n bad)

/-- WITHDRAW of this device. -/
def State.sendWithdraw (s : State) (n : Nat) : State :=
  if s.isMaster then s.withdrawAt n 0 else s.twSendUp (.withdraw n)

/-- The arrival of this device at barrier n follows its sequencers: sent when all of them hold, withdrawn when one no
longer does before RELEASE is received. -/
def State.barrierSync (s : State) (n : Nat) : State :=
  if !s.inCascade || s.bseq n = 0 then s
  else
    let all := s.arrivedSeqs n == s.bseq n
    let sent := s.tab TWD.barSent 0 n != 0
    if all && !sent then (s.setTab TWD.barSent 0 n 1).sendArrive n false
    else if !all && sent && s.tab TWD.barT 0 n = 0 then (s.setTab TWD.barSent 0 n 0).sendWithdraw n
    else s

/-- Every barrier of this device. -/
def State.barrierSyncAll (s : State) : State := s.forUpTo 256 fun s n => s.barrierSync n

/-- A sequencer has issued its SYNC vector: where its bit is clear in TWD_BSEQ, ARRIVE goes with the BAD flag. -/
def State.barrierArrived (s : State) (q : Nat) : State :=
  match (s.run? q).bind fun r => r.line with
  | none => s
  | some l =>
    if bitOf (s.bseq (l.opnd % 256)) q then s.barrierSync (l.opnd % 256) else s.sendArrive (l.opnd % 256) true

/-- SYNC (R141): the line's vector, and at its first the arrival at the barrier. -/
def execTwlSync (q : SeqId) (s : State) : Out :=
  let t := s.twlSync q
  done (if s.rd (TWL.STATE_STATE.f q) != 5 && t.rd (TWL.STATE_STATE.f q) == 5 then t.barrierArrived q else t)

def execArrive (n : Byte) (d : Fin 32) (bad : Bool) (s : State) : Out :=
  done (if s.isMaster then (s.gotUp d).barrierSyncAll.arriveAt n.toNat d bad else s)

/-- RELEASE at a participant: answered with ACK, but a barrier failed where T is past. -/
def execRelease (n : Byte) (t : BitVec 48) (s : State) : Out :=
  done (if s.rd TWD.STAT_STATE.f != 3 then s
  else
    let s := s.gotDown.barrierSyncAll
    if t.toNat < s.cascadeTime then (s.twdCapture 2 0 0 n.toNat (s.rd TWD.STAT_DEV.f)).barrierFailHere n.toNat
    else (s.setTab TWD.barT 0 n.toNat (t.toNat + 1)).twSendUp (.ack n.toNat))

def execAck (n : Byte) (d : Fin 32) (s : State) : Out :=
  done (if !s.isMaster then s
  else
    let s := s.gotUp d
    if s.releasing n.toNat then s.setTab TWD.acks 0 n.toNat (putBit (s.tab TWD.acks 0 n.toNat) d true) else s)

/-- At T: the next line of every participating sequencer begins, and the barrier is free for its next use. -/
def State.barrierStart (s : State) (n : Nat) : State :=
  let s := (s.waitingAt n).foldl (fun s q =>
    match (s.run? q).bind fun r => r.line with
    | none => s
    | some l => (s.goNext q l).wr (TWL.STATE_STATE.f q) 2) s
  let s := (s.setTab TWD.barT 0 n 0).setTab TWD.barSent 0 n 0
  let s := if s.bseq n = 0 then s else s.pulse 1509
  if s.isMaster then
    (((s.setTab TWD.bar 0 (768 + n) (s.tab TWD.barNext 0 n)).setTab TWD.barNext 0 n 0).setTab TWD.acks 0 n 0).barrierCheck n
  else s

/-- CT has reached T. -/
def State.startDue (s : State) (n : Nat) : Bool := s.releasing n && decide (s.tab TWD.barT 0 n ≤ s.cascadeTime + 1)

def execBarrierStart (n : Byte) (s : State) : Out := done (if s.startDue n.toNat then s.barrierStart n.toNat else s)

def execFail (n : Byte) (s : State) : Out :=
  done (if s.rd TWD.STAT_STATE.f = 3 then
    (s.gotDown.twdCapture 2 0 0 n.toNat (s.rd TWD.STAT_DEV.f)).barrierFailHere n.toNat
  else s)

def execWithdraw (n : Byte) (d : Fin 32) (s : State) : Out :=
  done (if s.isMaster then (s.gotUp d).withdrawAt n.toNat d else s)

/-! Global fail and stop (R422, R423). -/

/-- This device's fail contribution. -/
def State.failContribution (s : State) : Bool :=
  (List.range 16).any fun q => bitOf (s.rd TWD.GF_SEQ.f) q && s.rd (TWL.FAIL.f q) != 0

/-- A global stop as it reaches a device. -/
def State.stopGlobal (s : State) : State :=
  s.forUpTo 16 fun s q => if bitOf (s.rd TWD.GS_SEQ.f) q then s.stopSeq q else s

/-- The master's global stop. -/
def State.masterStop (s : State) : State := (s.twSendMask (2 ^ 32 - 1) .gstop).stopGlobal

/-- GFAIL follows the contributions of the JOINED devices, and its rise may start a global stop. -/
def State.gfailUpdate (s : State) : State :=
  let g := (List.range 32).any fun d => bitOf (s.rd TWD.CONTRIB.f) d && s.devJoined d
  if g = s.flag TWD.GFAIL.f then s
  else
    let s := (s.setFlag TWD.GFAIL.f g).twSendMask (2 ^ 32 - 1) (.gfail g)
    if g && s.flag TWD.CTRL_GF_STOP.f then s.masterStop else s

/-- A change of a device's contribution, on the master. -/
def State.contribution (s : State) (d : Nat) (on : Bool) : State := (s.setBit TWD.CONTRIB.f d on).gfailUpdate

/-- GFSUM at the master; at a member the master's GFAIL. -/
def execGfsum (d : Fin 32) (on : Bool) (s : State) : Out :=
  done (if s.isMaster then (s.gotUp d).contribution d on
  else if s.rd TWD.STAT_STATE.f = 3 then s.gotDown.setFlag TWD.GFAIL.f on else s)

/-- A write of 1 to GSTOP. -/
def State.gstop (s : State) : State :=
  if s.isMaster then s.masterStop else if s.rd TWD.STAT_STATE.f = 3 then s.twSendUp .gstop else s

def execGstop (s : State) : Out := done (s.reach (TWD.GSTOP.f.sets 1) .twd fun s => s.gstop)

/-- GSTOP from a member at the master, or from the master at a member, by port w. -/
def execGstopReceived (s : State) (w : TwPort := 0) : Out :=
  done (if s.isMaster then ((s.twGot w).pulse 1511).masterStop
  else if s.rd TWD.STAT_STATE.f = 3 then ((s.twGot w).pulse 1511).stopGlobal else s)

/-- What Tweed does by itself in a cascade: its contribution and its arrivals follow the sequencers. -/
def State.cascadeTick (s : State) : State :=
  if !s.inCascade then s
  else
    let s := s.barrierSyncAll
    let c := s.failContribution
    if c = s.flag TWD.MYC.f then s
    else
      let s := s.setFlag TWD.MYC.f c
      if s.isMaster then s.contribution 0 c else s.twSendUp (.gfsum c)

/-! Pattern broadcast (R420, R421). -/

/-- The user code of a broadcast in `State.uses`. -/
def useBroadcast : Nat := 2000

/-- The broadcast ends with a code. -/
def State.bcEnd (s : State) (code : Nat) : State :=
  ((((s.setFlag TWD.BC_BUSY.f false).wr TWD.BC_STAT_CODE.f code).wr TWD.BC_PH.f 0).wr TWD.BC_LIVE.f 0).dropUse useBroadcast

/-- The broadcast ends when every device of the mask has sealed the object or failed. -/
def State.bcCheck (s : State) : State :=
  let m := s.rd TWD.BC_MASK.f
  if (m &&& (s.rd TWD.BC_DONE.f ||| s.rd TWD.BC_FAILM.f)) != m then s
  else s.bcEnd (if (s.rd TWD.BC_FAILM.f &&& m) = 0 then 0 else 2)

/-- A device leaves the broadcast. -/
def State.bcFailed (s : State) (d : Nat) : State :=
  (((s.setBit TWD.BC_FAILM.f d true).setBit TWD.BC_LIVE.f d false).setBit TWD.BC_WAIT.f d false).bcCheck

/-- BC_GO. -/
def State.bcGo (s : State) : State :=
  let m := s.rd TWD.BC_MASK.f
  let id := s.rd TWD.BC_OBJ.f
  if !s.flag CFG.MASTER.f || s.flag TWD.BC_BUSY.f || !s.flag CAL.READY.f then s
  else
    match (s.alloc? id).filter fun a => a.kind == 0 && a.st == 3 with
    | none => s.wr TWD.BC_STAT_CODE.f 3
    | some a =>
      if bitOf m 0 || (List.range 32).any fun d => bitOf m d && !(s.isMaster && s.devJoined d) then s.wr TWD.BC_STAT_CODE.f 4
      else
        let s := ((s.setFlag TWD.BC_BUSY.f true).wr TWD.BC_STAT_CODE.f 1).wr TWD.BC_DONE.f 0
        let s := ((s.wr TWD.BC_FAILM.f 0).wr TWD.BC_LIVE.f m).wr TWD.BC_WAIT.f m
        let s := ((s.wr TWD.BC_PH.f 1).wr TWD.BC_OFF.f 0).addUse useBroadcast id
        (s.twSendMask m (.bcCreate id a.size a.key)).bcCheck

def execBcGo (s : State) : Out := done (s.reach (TWD.BC_GO.f.sets 1) .twd fun s => s.bcGo)

/-- The arguments of a command that a Tweed message carries. -/
def twArgs (id : Nat) (size key : Nat) : CalArgs := .msg (BitVec.ofNat 32 id) (BitVec.ofNat 37 size) 0 (BitVec.ofNat 4 key)

/-- An outcome of BC_CREATE at the master: a device that refuses leaves the broadcast. -/
def State.bcCreated (s : State) (d code : Nat) : State :=
  if s.rd TWD.BC_PH.f != 1 || !bitOf (s.rd TWD.BC_WAIT.f) d then s
  else
    let s := s.setBit TWD.BC_WAIT.f d false
    let s := if code = 0 then s else (s.twdCapture 6 0 0 0 d).bcFailed d
    if s.rd TWD.BC_PH.f = 1 && s.rd TWD.BC_WAIT.f = 0 then s.wr TWD.BC_PH.f 2 else s

def execBcCreate (x : BcCreate) (s : State) : Out :=
  done (match x with
    | .outcome d code => if s.isMaster then (s.gotUp d).bcCreated d code.toNat else s
    | .order id size key =>
      if s.rd TWD.STAT_STATE.f != 3 || !s.flag CAL.READY.f then s
      else
        let a := twArgs id.toNat size.toNat key.toNat
        let s := s.gotDown.create a (s.calCmd a)
        s.twSendUp (.bcCreated (s.rd CAL.X_CODE.f)))

/-- No BCAST message waits at a port. -/
def State.bcRoom (s : State) (w : Nat) : Bool := (s.twQ w).all fun m => !(m.seq.isNone && m.body.isBcast)

/-- The next BCAST message of the master, of up to 4,032 bytes of the object, once the one before it has been sent;
when the last has left every port, BC_SEAL follows (R420). -/
def State.bcSend (s : State) : State :=
  if s.rd TWD.BC_PH.f != 2 || s.dramHeld || !((List.range 4).all fun w => s.bcRoom w) then s
  else
    let id := s.rd TWD.BC_OBJ.f
    let off := s.rd TWD.BC_OFF.f
    match s.alloc? id with
    | none => s.bcEnd 3
    | some a =>
      if a.size ≤ off then
        ((s.wr TWD.BC_PH.f 3).wr TWD.BC_WAIT.f (s.rd TWD.BC_LIVE.f)).twSendMask (s.rd TWD.BC_LIVE.f) (.bcSeal id)
      else
        let n := min 4032 (a.size - off)
        if s.loadWaits a off n then s
        else if s.allocPoison a off n then (s.markPoison id a off n).bcEnd 5
        else (s.twSendMask (s.rd TWD.BC_LIVE.f) (.bcast id off n)).wr TWD.BC_OFF.f (off + n)

/-- A member seals the object of a broadcast and reports the outcome. -/
def State.bcSealHere (s : State) (id : Nat) : State :=
  let a := twArgs id 0 0
  let s := s.seal a (s.calCmd a)
  s.twSendUp (.bcSealed (s.rd CAL.X_CODE.f))

/-- The cells of received broadcast data. -/
def HeldWrite.cells (x : HeldWrite) : Nat := (TwBody.bcast x.id x.off x.data.length).cells

/-- The oldest broadcast data that a member has received can be passed on: Calico's upload write queue has room, no
line is held, and no port on which it goes on has a BCAST message waiting (R408, R421, R245). -/
def State.bcPasses (s : State) (x : HeldWrite) : Bool :=
  !s.dramHeld && s.uploadRoom x.data.length && !s.objWaits x.id x.off x.data.length &&
    (List.range 4).all fun w => s.flag (TWD.UPSTREAM.f w) || s.bcRoom w

/-- A member writes the data into its object and forwards the message on its downstream ports; its credits go back. -/
def State.bcWrite (s : State) (x : HeldWrite) : State :=
  let s := (s.objWrite x.id x.off x.data).getD s |>.uploaded x.data.length
  let s := s.forUpTo 4 fun s w =>
    if s.flag (TWD.UPSTREAM.f w) then s else s.twSend w (.bcast x.id x.off x.data.length)
  match s.upstream with
  | none => s
  | some w =>
    let n := min x.cells (s.rd (TWD.P_RBC.f w))
    (s.wr (TWD.P_RBC.f w) (s.rd (TWD.P_RBC.f w) - n)).wr (TWD.P_RETB.f w) (s.rd (TWD.P_RETB.f w) + n)

/-- What a member has received is passed on in order as far as it can be, and a BC_SEAL that waited for it follows. -/
def State.bcPass (s : State) : Nat → State
  | 0 => s
  | k + 1 =>
    match s.bcIn with
    | [] =>
      if s.rd TWD.BC_SEALQ.f = 0 then s
      else (s.wr TWD.BC_SEALQ.f 0).bcSealHere (s.rd TWD.BC_SEALQ.f - 1)
    | x :: r => if s.bcPasses x then ((s.withBcIn r).bcWrite x).bcPass k else s

/-- Everything that can be passed on. -/
def State.bcFlow (s : State) : State := s.bcPass (s.bcIn.length + 1)

/-- A BCAST message at a member: its cells hold credits until it is passed on; one for which the sender had no credits
cannot come. -/
def State.bcReceive (s : State) (id off : Nat) (data : List Byte) : State :=
  let x : HeldWrite := { id := id, off := off, data := data }
  match s.upstream with
  | none => (s.withBcIn (s.bcIn ++ [x])).bcFlow
  | some w =>
    if 224 < s.rd (TWD.P_RBC.f w) + x.cells then s
    else
      (((s.inc (TWD.P_RSEQ.f w)).wr (TWD.P_RBC.f w) (s.rd (TWD.P_RBC.f w) + x.cells)).withBcIn (s.bcIn ++ [x])).bcFlow

def execBcast (x : BcData) (s : State) : Out :=
  done (match x with
    | .send => s.bcSend
    | .message id off data => if s.rd TWD.STAT_STATE.f = 3 then s.bcReceive id.toNat off.toNat data else s)

/-- What Tweed does by itself in a microsecond: its lanes, the broadcast data that waited, and the cascade. -/
def State.twdTick (s : State) : State := (s.forUpTo 4 State.lineTick).bcFlow.cascadeTick

/-- An outcome of BC_SEAL at the master. -/
def State.bcSealed (s : State) (d code : Nat) : State :=
  if s.rd TWD.BC_PH.f != 3 || !bitOf (s.rd TWD.BC_WAIT.f) d then s
  else if code = 0 then ((s.setBit TWD.BC_WAIT.f d false).setBit TWD.BC_DONE.f d true).bcCheck
  else s.bcFailed d

def execBcSeal (x : BcSeal) (s : State) : Out :=
  done (match x with
    | .outcome d code => if s.isMaster then (s.gotUp d).bcSealed d code.toNat else s
    | .order id =>
      if s.rd TWD.STAT_STATE.f != 3 || !s.flag CAL.READY.f then s
      else (s.gotDown.wr TWD.BC_SEALQ.f (id.toNat + 1)).bcFlow)

/-! Lost devices (R412, R413). -/

/-- The master declares device d lost: its barriers in the course of gathering fail, it leaves the broadcast, and its
contribution no longer counts. -/
def State.declareLost (s : State) (d : Nat) : State :=
  if !s.devJoined d then s
  else
    let s := ((s.twdCapture 3 0 0 0 d).twSendTo d (.lost d)).setFlag (TWD.ROST_LOSTD.f d) true
    let s := s.forUpTo 256 fun s n =>
      if bitOf (s.participants n) d && !s.releasing n && s.arrivedDevs n != 0 then s.barrierFail n d else s
    let s := if s.flag TWD.BC_BUSY.f && bitOf (s.rd TWD.BC_LIVE.f) d then s.bcFailed d else s
    s.gfailUpdate

/-- 2 µs after RELEASE: the devices whose ACK is missing are lost, and the barrier fails. -/
def State.ackDeadline (s : State) (n : Nat) : State :=
  if !(s.isMaster && s.releasing n) then s
  else
    match (List.range 31).filter fun i => bitOf (s.participants n) (i + 1) && !bitOf (s.tab TWD.acks 0 n) (i + 1) with
    | [] => s
    | i :: r => ((i :: r).foldl (fun s i => s.declareLost (i + 1)) s).barrierFail n (i + 1)

/-- 2 µs have passed since RELEASE of barrier n was sent. -/
def State.ackDue (s : State) (n : Nat) : Bool := decide (s.tab TWD.barRel 0 n + 2000 ≤ s.time)

def execBarrierAckDeadline (n : Byte) (s : State) : Out := done (if s.ackDue n.toNat then s.ackDeadline n.toNat else s)

/-- The device loses its path to the master: bursts that hold at a barrier end with SYNC_FAIL (R141). -/
def State.losePath (s : State) (st : Nat) : State :=
  let s := s.forUpTo 16 fun s q => if s.rd (TWL.STATE_STATE.f q) = 5 then s.endRunHere q 4 else s
  let s := s.withTabs (s.tabs.filter fun e => !(e.1 / 2 ^ 48 == 29 || e.1 / 2 ^ 48 == 30))
  (s.setFlag TWD.GFAIL.f false).setTwState st

def execLost (s : State) : Out := done (if s.rd TWD.STAT_STATE.f = 3 then s.gotDown.losePath 4 else s)

def execProbeTimer (s : State) : Out :=
  done (if s.isMaster && s.flag TWD.CTRL_AUTOREJ.f then
    s.forUpTo 32 fun s d => if s.flag (TWD.ROST_LOSTD.f d) then s.twSendTo d (.probe d) else s
  else s)

/-- PROBE: at the master the answer of device d, which is JOINED again; at a lost member the probe, which it answers. -/
def execProbe (d : Fin 32) (s : State) : Out :=
  done (if s.isMaster then ((s.gotUp d).setFlag (TWD.ROST_LOSTD.f d) false).gfailUpdate
  else if s.rd TWD.STAT_STATE.f = 4 && s.rd TWD.STAT_DEV.f == d then (s.gotDown.setTwState 2).twSendUp .answer
  else s)

/-! Ports (R403 to R405, R409). -/

/-- Access to the registers of port w: W2 and W3 may be absent (R424). -/
def State.reachTw (s : State) (x : Access) (w : Nat) (f : State → State) : State :=
  s.reachUnit x .twd (s.hasTwp w) f

/-- PSTATE, with the flags UP and RECOV that show it. -/
def State.setPstate (s : State) (w st : Nat) : State :=
  ((s.wr (TWD.P_STAT_PSTATE.f w) st).setFlag (TWD.UP.f w) (st == 2)).setFlag (TWD.RECOV.f w) (st == 3)

/-- The port enters RECOVER (R409). -/
def State.enterRecover (s : State) (w : Nat) : State := (s.setPstate w 3).wr (TWD.P_RECOV_AT.f w) s.time

/-- The partner's cascade state, from byte 7 of its last CAP block. -/
def State.partnerState (s : State) (w : Nat) : Nat := bits (s.rd (TWD.P_PCAP.f w)) 29 3

/-- The partner of a port reaches the master. -/
def State.partnerReaches (s : State) (w : Nat) : Bool := s.partnerState w == 3 || s.partnerState w == 5

/-- A member's upstream port is lost: the lowest-numbered IDLE port that reaches the master takes its place (R399). -/
def State.upstreamLost (s : State) (w : Nat) : State :=
  let s := (s.setFlag (TWD.UPSTREAM.f w) false).losePath 4
  match (List.range 4).find? fun v =>
      s.rd (TWD.P_STAT_PSTATE.f v) == 4 && s.rd (TWD.P_STAT_LANES.f v) != 0 && s.partnerReaches v with
  | none => s
  | some v => (s.setPstate v 2).setFlag (TWD.UPSTREAM.f v) true

/-- A port goes DOWN: its messages are lost, and the devices beyond it. -/
def State.portDown (s : State) (w : Nat) : State :=
  let s := ((s.setPstate w 0).setFlag (TWD.DEGR.f w) false).setFlag (TWD.TRAIN.f w) false
  let s := ((s.wr (TWD.P_STAT_LANES.f w) 0).wr (TWD.P_DROPPED.f w) 0).setTwQ w []
  let s := ((s.wr (TWD.P_CCTL.f w) 0).wr (TWD.P_CBC.f w) 0).showCred w
  if s.isMaster then
    s.forUpTo 32 fun s d => if d != 0 && s.rd (TWD.ROST_VIA.f d) = w then s.declareLost d else s
  else if s.flag (TWD.UPSTREAM.f w) && s.flag TWD.CASC_EN.f then s.upstreamLost w
  else s

/-- Bring-up begins: every lane at 2.5 Gbit/s. -/
def State.bringUp (s : State) (w : Nat) : State :=
  ((((s.setPstate w 1).setFlag (TWD.TRAIN.f w) true).wr (TWD.P_STAT_RATE.f w) 0).wr (TWD.P_STAT_LANES.f w) 0).wr
    (TWD.P_MAXR.f w) (s.rd TWD.CTRL_MAXRATE.f)

def execPortBringUp (w : TwPort) (s : State) : Out :=
  done (if s.hasTwp w && s.flag (TWD.EN.f w) && !s.flag (TWD.PRBS_EN.f w) && s.rd (TWD.P_STAT_PSTATE.f w) == 0 &&
      s.bit CLK.LK_TW.f w then s.bringUp w else s)

/-- A CAP block: SYS_ID, MAJOR, byte 6 with the rate offered, the MASTER strap and the port, byte 7 with the device
number and the cascade state. -/
def State.capBlock (s : State) (w sysId major offer place : Nat) : State :=
  let s := s.wr (TWD.P_PCAP.f w) (sysId / 2 ^ 24 + major * 2 ^ 8 + offer * 2 ^ 16 + place * 2 ^ 24)
  let s := (s.wr (TWD.P_STAT_PPORT.f w) (offer / 16)).wr (TWD.P_STAT_PDEV.f w) place
  if s.rd (TWD.P_STAT_PSTATE.f w) = 4 && s.rd (TWD.P_STAT_LANES.f w) != 0 && !s.partnerReaches w then s.setPstate w 2
  else if s.rd (TWD.P_STAT_PSTATE.f w) != 1 then s
  else if sysId != SYS.ID.reset || major != SYS.REV_MAJOR.reset then
    (((s.setPstate w 4).setFlag (TWD.TRAIN.f w) false).wr (TWD.P_STAT_LANES.f w) 0).twdCapture 5 w 0 0 0
  else if bitOf offer 3 && s.flag CFG.MASTER.f then
    ((s.setPstate w 5).setFlag (TWD.TRAIN.f w) false).twdCapture 4 w 0 0 0
  else s

def execCap (w : TwPort) (sysId : Word) (major : Byte) (offer : Byte) (place : Byte) (s : State) : Out :=
  done (if s.hasTwp w then s.capBlock w sysId.toNat major.toNat offer.toNat place.toNat else s)

def execLaneGood (w : TwPort) (l : Fin 4) (s : State) : Out :=
  done (if s.rd (TWD.P_STAT_PSTATE.f w) = 1 && s.rd (TWD.P_STAT_RATE.f w) = 0 then s.setBit (TWD.P_STAT_LANES.f w) l true
  else s)

/-- The rate that the ladder aims at: the lower of the two offered. -/
def State.ladderTop (s : State) (w : Nat) : Nat :=
  min (min (s.rd (TWD.P_MAXR.f w)) (bits (s.rd (TWD.P_PCAP.f w)) 16 3)) 4

/-- DEGR shows fewer than four lanes in use. -/
def State.showDegr (s : State) (w : Nat) : State := s.setFlag (TWD.DEGR.f w) (s.rd (TWD.P_STAT_LANES.f w) != 15)

/-- The port enters UP, or IDLE where both partners already reach the master by other paths (R399). -/
def State.enterUp (s : State) (w : Nat) : State :=
  let s := (s.setFlag (TWD.TRAIN.f w) false).showDegr w
  let s := (((s.wr (TWD.P_CCTL.f w) 32).wr (TWD.P_CBC.f w) 224).wr (TWD.P_SEQ.f w) 0).showCred w
  let s := (((s.wr (TWD.P_RSEQ.f w) 0).wr (TWD.P_RETC.f w) 0).wr (TWD.P_RETB.f w) 0).wr (TWD.P_RBC.f w) 0
  s.setPstate w (if s.inCascade && s.partnerReaches w then 4 else 2)

/-- A step's test ends: the port climbs if every lane passes, and enters UP at the top of the ladder or, at the rate it
had, where a lane fails. -/
def State.rateStep (s : State) (w pass : Nat) : State :=
  let r := s.rd (TWD.P_STAT_RATE.f w)
  let lanes := s.rd (TWD.P_STAT_LANES.f w)
  if s.rd (TWD.P_STAT_PSTATE.f w) != 1 || lanes = 0 then s
  else if s.ladderTop w ≤ r || (lanes &&& pass) != lanes then s.enterUp w
  else
    let s := s.wr (TWD.P_STAT_RATE.f w) (r + 1)
    if s.ladderTop w ≤ r + 1 then s.enterUp w else s

/-- The lanes without a PRBS error in the test (R405). -/
def lanesPass (errs : List Word) : Nat := ((List.range 4).filter fun l => errs.getD l 0 == 0).foldl (fun m l => m + 2 ^ l) 0

def execRateStepEnd (w : TwPort) (errs : List Word) (s : State) : Out := done (s.rateStep w (lanesPass errs))

/-- A lane is dropped, and the port enters RECOVER. -/
def State.laneDrop (s : State) (w l : Nat) : State :=
  let st := s.rd (TWD.P_STAT_PSTATE.f w)
  if !(st == 2 || st == 3) || !s.bit (TWD.P_STAT_LANES.f w) l then s
  else
    let s := (s.setBit (TWD.P_STAT_LANES.f w) l false).setBit (TWD.P_DROPPED.f w) l true
    (((s.enterRecover w).wr (TWD.P_HEADS.f w l) 0).twdCapture 0 w l 0 0).pulse (1475 + 8 * w)

/-- Sync headers of a lane: the invalid ones count, and 32 of 64 consecutive ones drop the lane. -/
def State.headersSeen (s : State) (w l : Nat) (hs : List Nat) : State :=
  let x := headsTake (s.rd (TWD.P_HEADS.f w l)) hs
  let bad := (hs.filter fun h => !headOk h).length
  let s := (s.wr (TWD.P_HEADS.f w l) x.1).wr (TWD.P_SHE.f w l) (min (s.rd (TWD.P_SHE.f w l) + bad) (2 ^ 32 - 1))
  if x.2 then s.laneDrop w l else s

def execLaneDrop (w : TwPort) (l : Fin 4) (x : LaneFault) (s : State) : Out :=
  done (match x with
    | .headers hs => s.headersSeen w l (hs.map BitVec.toNat)
    | .reported => s.laneDrop w l)

/-- The lanes in use are deskewed: UP again, with the replay, while a dropped lane is retrained. -/
def State.recoverEnd (s : State) (w : Nat) : State :=
  if s.rd (TWD.P_STAT_PSTATE.f w) != 3 || s.rd (TWD.P_STAT_LANES.f w) = 0 then s
  else
    let s := ((s.setPstate w 2).showDegr w).setFlag (TWD.TRAIN.f w) (s.rd (TWD.P_DROPPED.f w) != 0)
    (s.twReplay w).twPump w (s.twQ w).length

def execRecoverEnd (w : TwPort) (s : State) : Out := done (s.recoverEnd w)

def execRecoverTimeout (w : TwPort) (s : State) : Out :=
  done (if s.rd (TWD.P_STAT_PSTATE.f w) = 3 &&
      (s.rd (TWD.P_STAT_LANES.f w) = 0 || s.rd (TWD.P_RECOV_AT.f w) + 100000 ≤ s.time) then
    (s.twdCapture 1 w 0 0 0).portDown w
  else s)

/-- A dropped lane has been retrained: RECOVER once more to add it. -/
def State.laneRetrained (s : State) (w l : Nat) : State :=
  if s.rd (TWD.P_STAT_PSTATE.f w) != 2 || !s.bit (TWD.P_DROPPED.f w) l then s
  else
    let s := (s.setBit (TWD.P_DROPPED.f w) l false).setBit (TWD.P_STAT_LANES.f w) l true
    ((s.enterRecover w).incSat (TWD.P_RETR.f w)).ledgerInc (0x2D0 + 4 * w + l)

def execLaneRetrainEnd (w : TwPort) (l : Fin 4) (s : State) : Out := done (s.laneRetrained w l)

/-- RETRAIN: the port goes DOWN, and bring-up starts again. -/
def State.twRetrain (s : State) (w : Nat) : State := if s.rd (TWD.P_STAT_PSTATE.f w) = 0 then s else s.portDown w

def execRetrain (w : TwPort) (s : State) : Out := done (s.reachTw ((TWD.RETRAIN.f w).sets 1) w fun s => s.twRetrain w)

/-- A write of PRBS_EN: 1 takes the port out of service and zeroes its counters. -/
def State.writePrbsEn (s : State) (w : Nat) (on : Bool) : State :=
  let s := s.setFlag (TWD.PRBS_EN.f w) on
  if on then (s.forUpTo 4 fun s l => s.wr (TWD.P_PRBS.f w l) 0).portDown w else s

/-- PRBS_EN is written; `errs` are the bit errors counted on each lane until then. -/
def State.prbsEffect (s : State) (w : Nat) (on : Bool) (errs : List Word) : State :=
  let s := if s.flag (TWD.PRBS_EN.f w) then
      s.forUpTo 4 fun s l => s.wr (TWD.P_PRBS.f w l) (min (s.rd (TWD.P_PRBS.f w l) + (errs.getD l 0).toNat) (2 ^ 32 - 1))
    else s
  s.writePrbsEn w on

def execPrbsEn (w : TwPort) (on : Bool) (errs : List Word) (s : State) : Out :=
  done (s.reachTw (.prbs w on errs) w fun s => s.prbsEffect w on errs)

/-! Joining a cascade (R397, R398, R411, R415). -/

/-- TIME with the upstream partner: the device answers with its stamps, takes its number and depth, its hop latency and
its CT, and is JOINED. The stamps are the partner's departure, the arrival here, the departure here, and the arrival at
the partner. -/
def State.timeExchange (s : State) (w dev depth ct path : Nat) (t1 t2 t3 t4 : Nat) : State :=
  if !s.flag TWD.CASC_EN.f || s.isMaster || s.flag CFG.MASTER.f || s.rd (TWD.P_STAT_PSTATE.f w) != 2 then s
  else
    let lat := hopLatency t1 t2 t3 t4
    let s := s.forUpTo 4 fun s v => s.setFlag (TWD.UPSTREAM.f v) (v == w)
    let s := ((s.wr (TWD.P_LAT.f w) lat).wr TWD.PATHLAT.f (path + lat)).wr TWD.STAT_DEV.f dev
    (((s.wr TWD.STAT_DEPTH.f depth).setCt ct).setTwState 3).twGot w |>.twSend w (.time t2 t3)

def execTimeCmd (w : TwPort) (dev : BitVec 5) (depth : BitVec 5) (ct : BitVec 48) (path : BitVec 20) (t1 : BitVec 64)
    (s : State) (t2 : BitVec 64 := 0) (t3 : BitVec 64 := 0) (t4 : BitVec 64 := 0) : Out :=
  done (s.timeExchange w dev.toNat depth.toNat ct.toNat path.toNat t1.toNat t2.toNat t3.toNat t4.toNat)

/-- The ports on the way to a device, from the master on, come before those to another in the order of numbering:
nearer devices first, then by the ports, ascending (R397). -/
def pathBefore : List TwPort → List TwPort → Bool
  | a, b =>
    if a.length != b.length then decide (a.length < b.length)
    else match (a.zip b).find? fun x => x.1 != x.2 with
      | none => false
      | some x => decide (x.1 < x.2)

/-- A device put among others in the order of numbering. -/
def insertReach (x : TwReach) : List TwReach → List TwReach
  | [] => [x]
  | y :: r => if pathBefore x.path y.path then x :: y :: r else y :: insertReach x r

/-- The devices that the master's UP ports reach, in the order of their numbers. -/
def State.numbered (s : State) (reach : List TwReach) : List TwReach :=
  (reach.filter fun r => (r.path.head?).any fun w => s.rd (TWD.P_STAT_PSTATE.f w) == 2).foldl (fun l x => insertReach x l) []

/-- The master port that leads to a device. -/
def reachVia (r : TwReach) : Nat := ((r.path.head?).map fun w => w.val).getD 0

/-- The roster word of device d. -/
def State.setRoster (s : State) (d : Nat) (pres : Bool) (depth via lat : Nat) : State :=
  ((((s.setFlag (TWD.ROST_PRES.f d) pres).setFlag (TWD.ROST_LOSTD.f d) false).wr (TWD.ROST_DEPTH.f d) depth).wr
    (TWD.ROST_VIA.f d) via).wr (TWD.ROST_LAT.f d) lat

/-- The master numbers the devices that its ports reach, at most 31 besides itself. -/
def State.numberAll (s : State) (reach : List TwReach) : State :=
  let reach := s.numbered reach
  let s := s.forUpTo 32 fun s d => s.setRoster d false 0 0 0
  let s := s.setRoster 0 true 0 0 0
  let s := (List.range (min 31 reach.length)).foldl (fun s i =>
    match reach[i]? with
    | none => s
    | some r => s.setRoster (i + 1) true r.path.length (reachVia r) r.lat.toNat) s
  let s := (s.wr TWD.STAT_NDEV.f (1 + min 31 reach.length)).wr TWD.STAT_DEV.f 0
  match reach[31]? with
  | none => s
  | some r => s.twdCapture 7 (reachVia r) 0 0 0

/-- The cascade forms anew: barriers, contributions and a broadcast of the old one are gone. -/
def State.cascadeClear (s : State) : State :=
  let s := s.withTabs (s.tabs.filter fun e =>
    !(decide (27 ≤ e.1 / 2 ^ 48) && decide (e.1 / 2 ^ 48 ≤ 30) || (e.1 / 2 ^ 48 == 26 && decide (512 ≤ e.1 % 2 ^ 32))))
  let s := ((s.wr TWD.CONTRIB.f 0).setFlag TWD.MYC.f false).setFlag TWD.GFAIL.f false
  if s.flag TWD.BC_BUSY.f then s.bcEnd 2 else s

/-- A write of CASC_EN. -/
def State.writeCascEn (s : State) (on : Bool) (reach : List TwReach) : State :=
  if on && s.flag TWD.CASC_EN.f then s
  else
    let s := (s.setFlag TWD.CASC_EN.f on).cascadeClear
    if !on then s.losePath 0
    else if s.flag CFG.MASTER.f then ((s.numberAll reach).setCt 0).setTwState 5
    else s.setTwState 1

def execCascEn (on : Bool) (reach : List TwReach) (s : State) : Out :=
  done (s.reach (.casc on reach) .twd fun s => s.writeCascEn on reach)

end Sys2Proof.Machine
end

