-- ==== Sys2Proof/Machine/Clocks.lean ====
section
/-! DEFINITION. The clocks (R459 to R474): loss and return of a reference, the switch of the islands, the PLL locks, the
frequency meter, and the peripheral clock enables. Log entries 8, 9 and 86. -/

namespace Sys2Proof.Machine

/-- A set of `n` bits, all set. -/
def allOnes (n : Nat) : Nat := 2 ^ n - 1

/-- The lock bits of the present units of the REFCLK islands are all set. -/
def State.refIslandsLocked (s : State) : Bool :=
  [0, 1, 3, 4].all (fun i => s.bit CLK.LK.f i) &&
    (List.range 8).all (fun n => !s.hasMfp n || s.bit CLK.LK_MFP.f n) &&
    (List.range 12).all (fun n => !s.hasDc n || s.bit CLK.LK_DC.f n)

/-- Every REFCLK island loses its lock. -/
def State.refUnlock (s : State) : State :=
  ((((s.setBit CLK.LK.f 0 false).setBit CLK.LK.f 1 false).setBit CLK.LK.f 3 false).setBit CLK.LK.f 4 false).wr
    CLK.LK_MFP.f 0 |>.wr CLK.LK_DC.f 0 |>.wr CLK.LK_TW.f 0

/-- CLK_LOSS_CAP holds the first loss. -/
def State.lossCapture (s : State) (r : Nat) : State :=
  if s.flag CLK.LOSS_FULL.f then s else (s.setFlag CLK.LOSS_FULL.f true).wr CLK.LOSS_CAP_REF.f r

/-- The monitor writes STOP to every sequencer (R466). -/
def State.stopAll (s : State) : State := s.forUpTo 16 fun s q => s.stopSeq q

/-- Fabric PLLs lose their lock. -/
def State.fabUnlock (s : State) (mask : Nat) : State :=
  s.forUpTo 8 fun s k => if bitOf mask k then s.setBit CLK.LK_FAB.f k false else s

/-- Channels that were forced safe leave that state for their IDLE state, where nothing else holds them (R465, R467). -/
def State.leaveAll (s : State) : State :=
  s.forUpTo 128 fun s c => if s.inSafe c then s else (s.leaveSafe c).applyIdle c

/-! The monitors (R463). -/

/-- The nominal count of a window. -/
def nominalCount (r : ClkRef) : Nat :=
  match r with
  | .refclk => 256
  | .tref => 256
  | .xtal32 => 1374

/-- A window passes: its count differs from the nominal one by no more than 3.1 %. -/
def windowPasses (r : ClkRef) (c : Nat) : Bool :=
  decide (1000 * (max c (nominalCount r) - min c (nominalCount r)) ≤ 31 * nominalCount r)

/-- The ns without an edge after which a reference is lost. -/
def silenceNs (r : ClkRef) : Nat := if r = .xtal32 then 60000 else 50

/-- What the monitor has seen is a loss. -/
def isLoss (r : ClkRef) (w : RefFault) : Bool :=
  match w with
  | .silent ns => decide (silenceNs r ≤ ns.toNat)
  | .window c => !windowPasses r c.toNat

/-! Loss of a reference. -/

/-- The islands go over to IOSC ÷ 4 (R466 steps 2 and 3). -/
def State.toIosc (s : State) : State := (s.setFlag CLK.FB_PEND.f true).setFlag CLK.RET_PEND.f false

/-- REFCLK is lost; `fab` are the fabric PLLs that the image references to it. -/
def execRefclkLoss (fab : Byte) (s : State) (why : RefFault := .silent 0xFFFFFFFF) : Out :=
  done (if s.flag CLK.REF_OK.f && isLoss .refclk why then
    let s := ((s.setFlag CLK.REF_OK.f false).lossCapture 0).stopAll
    let s := (s.refUnlock.fabUnlock fab.toNat).setFlag CLK.RET_PEND.f false
    if s.flag CLK.IOSC_OK.f then s.toIosc else s.setFlag CLK.WAITREF.f true
  else s)

/-- A run ends at once with CLOCK_LOSS; what its last vector has not placed is not placed (R149, R465). -/
def State.clockLoss (s : State) (q : Nat) : State :=
  if s.issuing q || s.rd (TWL.STATE_STATE.f q) == 1 then
    let s := s.endRunHere q 9
    match s.run? q with
    | none => s
    | some r => s.setRun q { r with flights := r.flights.dropLast }
  else s

/-- TREF is lost. -/
def execTrefLoss (fab : Byte) (s : State) (why : RefFault := .silent 0xFFFFFFFF) : Out :=
  done (if s.flag CLK.TREF_OK.f && isLoss .tref why then
    let s := ((s.setFlag CLK.TREF_OK.f false).lossCapture 1).setFlag VLV.TREF_SAFE.f true
    let s := ((s.forUpTo 16 fun s q => s.clockLoss q).setFlag TIM.CAL_DONE.f false).forUpTo 4 fun s t => s.tdrStop t
    let s := s.forUpTo 16 State.clearTaps
    let s := ((s.setBit CLK.LK.f 2 false).wr CLK.LK_TM.f 0).fabUnlock fab.toNat
    if !s.isMaster && 2 ≤ s.rd TWD.STAT_STATE.f then s.losePath 1 else s
  else s)

def execXtal32Loss (s : State) (why : RefFault := .silent 0xFFFFFFFF) : Out :=
  done (if s.flag CLK.XTAL_OK.f && isLoss .xtal32 why then
    (((s.setFlag CLK.XTAL_OK.f false).setFlag CLK.IOSC_OK.f false).lossCapture 2).setFlag LDG.RTC_DRIFT.f true
  else s)

/-- A reference is back. REFCLK ends a fallback or WAITREF once the PLLs have relocked (R467, R468). -/
def State.refBack (s : State) (r : ClkRef) : State :=
  match r with
  | .tref => s.setFlag CLK.TREF_OK.f true
  | .xtal32 => (s.setFlag CLK.XTAL_OK.f true).setFlag LDG.RTC_DRIFT.f false
  | .refclk =>
    if s.flag CLK.REF_OK.f then s
    else
      let s := s.setFlag CLK.REF_OK.f true
      if s.dramHeld then (s.refUnlock.setFlag CLK.FB_PEND.f false).setFlag CLK.RET_PEND.f true else s

/-- Sixteen consecutive windows of a reference have ended with these counts: it is restored if all of them pass. -/
def execReferenceRestored (r : ClkRef) (s : State) (counts : List Word := List.replicate 16 0) : Out :=
  done (if counts.length == 16 && counts.all fun c => windowPasses r c.toNat then s.refBack r else s)

/-- A window of 64 XTAL32 periods ends with a count of IOSC cycles (R464). IOSC proven under WAITREF starts the switch.
-/
def execIoscWindow (count : Word) (s : State) : Out :=
  done (if s.flag CLK.XTAL_OK.f then
    let ok := decide (781250 - 15625 ≤ count.toNat) && decide (count.toNat ≤ 781250 + 15625)
    let s := (s.wr CLK.IOSC_CNT.f count.toNat).setFlag CLK.IOSC_OK.f ok
    if ok && s.flag CLK.WAITREF.f && !s.flag CLK.RET_PEND.f then s.toIosc else s
  else s)

/-- Multiplexers have changed over; those that were forced within 10 ns are captured together (R470). -/
def execMuxSwitch (forced : List (BitVec 7)) (s : State) : Out :=
  done (match forced with
    | [] => s
    | c :: r =>
      if s.flag CLK.FORCED.f then s
      else (s.setFlag CLK.FORCED.f true).wr CLK.FORCED_CAP_CODE.f (r.foldl (fun m x => min m x.toNat) c.toNat))

/-! PLLs. -/

/-- The fallback is complete: the MFPs take their NMI, every rank goes to self-refresh, the links go down. -/
def State.enterFallback (s : State) : State :=
  let s := (s.setFlag CLK.FB_PEND.f false).setFlag CLK.FALLBACK.f true
  let s := s.forUpTo 8 fun s n => if s.hasMfp n then s.updCore n fun c => { c with nmi := true } else s
  let s := s.forUpTo 12 fun s n => if s.flag (DDR.UP.f n) then s.selfRefresh n else s
  let s := s.forUpTo 4 fun s w => if s.rd (TWD.P_STAT_PSTATE.f w) = 0 then s else s.portDown w
  let s := s.setFlag ETH.LINK.f false
  if s.flag CLK.WAITREF.f then (s.setFlag CLK.WAITREF.f false).leaveAll else s

/-- The return to REFCLK is complete. -/
def State.leaveFallback (s : State) : State :=
  let s := (s.setFlag CLK.RET_PEND.f false).setFlag CLK.FALLBACK.f false
  let s := s.forUpTo 12 fun s n => if s.flag (DDR.UP.f n) then s.wr (DDR.RSR.f n) 0 else s
  if s.flag CLK.WAITREF.f then (s.setFlag CLK.WAITREF.f false).leaveAll else s

/-- What follows when an island has locked. -/
def State.lockSettle (s : State) : State :=
  let s := if s.flag VLV.TREF_SAFE.f && s.flag CLK.TREF_OK.f && s.tmLocked then
    (s.setFlag VLV.TREF_SAFE.f false).leaveAll else s
  if !s.refIslandsLocked then s
  else if s.flag CLK.FB_PEND.f then s.enterFallback
  else if s.flag CLK.RET_PEND.f then s.leaveFallback
  else s

/-- The REFCLK islands have a clock: REFCLK, or IOSC in a fallback. -/
def State.refRuns (s : State) : Bool :=
  s.dieOn && (s.flag CLK.REF_OK.f || s.flag CLK.FB_PEND.f || s.flag CLK.FALLBACK.f)

/-- A PLL locks. It cannot without its reference; the Tweed PLLs lock from REFCLK alone. -/
def execPllLock (i : Island) (s : State) : Out :=
  let ref := fun (f : Fld) (b : Nat) => if s.refRuns then s.setBit f b true else s
  done (match i with
    | .cp => ref CLK.LK.f 0
    | .shm => ref CLK.LK.f 1
    | .seq => if s.flag CLK.TREF_OK.f then s.setBit CLK.LK.f 2 true else s
    | .mem => ref CLK.LK.f 3
    | .net => ref CLK.LK.f 4
    | .mfp n => if s.hasMfp n then ref CLK.LK_MFP.f n else s
    | .dc n => if s.hasDc n then ref CLK.LK_DC.f n else s
    | .tm t => if s.flag CLK.TREF_OK.f then s.setBit CLK.LK_TM.f t true else s
    | .tw w => if s.hasTwp w && s.flag CLK.REF_OK.f then s.setBit CLK.LK_TW.f w true else s
    | .fab k => s.setBit CLK.LK_FAB.f k true).lockSettle

/-- CLK_MFPn: the core is held while its PLL relocks (R461). A ratio above 15 leaves the device undefined (R462). -/
def State.writeMult (s : State) (n v : Nat) : State :=
  (s.wr (CLK.MFP_MULT.f n) v).setBit CLK.LK_MFP.f n false

def execClkMfp (m : MfpId) (v : Word) (s : State) : Out :=
  if s.openTo 12 .clk && s.hasMfp m && 15 < v.toNat % 32 then .fault .clockRatioUndefined
  else done (s.reachUnit ((CLK.MFP_MULT.f m).sets v.toNat) .clk (s.hasMfp m) fun s => s.writeMult m v.toNat)

/-! Frequency meter (R471). -/

/-- The clock of a code counts: it exists, its unit is present, and it is not stopped. -/
def State.clockRuns (s : State) (c : Nat) : Bool :=
  if c = 0 then s.flag CLK.REF_OK.f
  else if c = 1 then s.flag CLK.TREF_OK.f
  else if c = 2 then s.flag CLK.XTAL_OK.f
  else if c = 3 then true
  else if c = 4 then s.bit CLK.LK.f 0
  else if c = 5 then s.bit CLK.LK.f 2
  else if c = 6 then s.bit CLK.LK.f 3
  else if c = 7 then s.bit CLK.LK.f 1
  else if c < 0x10 then s.hasMfp (c - 8) && s.bit CLK.LK_MFP.f (c - 8)
  else if c < 0x1C then s.hasDc (c - 0x10) && s.bit CLK.LK_DC.f (c - 0x10)
  else if c = 0x1C then s.bit CLK.LK.f 4
  else if c < 0x21 then s.hasTwp (c - 0x1D)
  else if c < 0x25 then s.bit CLK.LK_TM.f (c - 0x21)
  else decide (0x30 ≤ c) && decide (c < 0x60)

/-- FM_GO starts a measurement, or starts it again. -/
def State.fmGo (s : State) : State := s.setFlag CLK.FM_BUSY.f true

def execFmGo (s : State) : Out := done (s.reach (CLK.FM_GO.f.sets 1) .clk State.fmGo)

/-- The frequency of the reference of the REFCLK islands, in units of 1/2048 Hz: REFCLK, or IOSC ÷ 4 (R459, R466). -/
def State.baseRate (s : State) (hz : ClkHz) : Nat :=
  if s.flag CLK.FB_PEND.f || s.flag CLK.FALLBACK.f then hz.iosc.toNat * 512 else hz.ref.toNat * 2048

/-- The frequency of the clock of a code in units of 1/2048 Hz, from the nominal clocks of R9 and MULT (R461); zero for
a clock that does not run. NET is 161.1328125 MHz, 825/512 of its reference. -/
def State.clockRate (s : State) (hz : ClkHz) (c : Nat) : Nat :=
  if !s.clockRuns c then 0
  else if c = 0 then hz.ref.toNat * 2048
  else if c = 1 then hz.tref.toNat * 2048
  else if c = 2 then hz.xtal.toNat * 2048
  else if c = 3 then hz.iosc.toNat * 2048
  else if c = 4 then 5 * s.baseRate hz
  else if c = 5 then hz.tref.toNat * 20480
  else if c = 6 then 10 * s.baseRate hz
  else if c = 7 then 6 * s.baseRate hz
  else if c < 0x10 then max 1 (s.rd (CLK.MFP_MULT.f (c - 8))) * s.baseRate hz
  else if c < 0x1C then 16 * s.baseRate hz
  else if c = 0x1C then s.baseRate hz * 825 / 512
  else hz.other.toNat * 2048

/-- The edges of MEAS in GATE cycles of REF, saturating. -/
def State.meterCount (s : State) (hz : ClkHz) : Nat :=
  min (2 ^ 32 - 1)
    (max 1 (s.rd CLK.FM_CFG_GATE.f) * s.clockRate hz (s.rd CLK.FM_CFG_MEAS.f) / s.clockRate hz (s.rd CLK.FM_CFG_REF.f))

/-- The gate ends with its count; a gate whose REF clock has stopped never ends. -/
def execFmEnd (hz : ClkHz) (s : State) : Out :=
  done (if s.flag CLK.FM_BUSY.f && s.clockRate hz (s.rd CLK.FM_CFG_REF.f) != 0 then
    ((s.setFlag CLK.FM_BUSY.f false).wr CLK.FM_CNT.f (s.meterCount hz)).pulse 1543
  else s)

def State.forcedRel (s : State) : State := (s.setFlag CLK.FORCED.f false).wr CLK.FORCED_CAP_CODE.f 0

def execForcedRel (s : State) : Out := done (s.reach (CLK.FORCED_REL.f.sets 1) .clk State.forcedRel)

def State.lossRel (s : State) : State := (s.setFlag CLK.LOSS_FULL.f false).wr CLK.LOSS_CAP_REF.f 0

def execLossRel (s : State) : Out := done (s.reach (CLK.LOSS_REL.f.sets 1) .clk State.lossRel)

/-! Clock enables (R472). -/

/-- The bits of CLK_EN that enable absent units: GNG, and DC8 to DC11. -/
def State.absentEn (s : State) : Nat := (if s.hasGng then 0 else 2 ^ 6) + if s.opt == .b then 2 ^ 19 + 2 ^ 20 + 2 ^ 21 + 2 ^ 22 else 0

/-- A converter whose clock stops: its list ends as with STOP, an urgent request is discarded. -/
def State.adcGate (s : State) (m : Nat) : State :=
  (((s.adcStop m).setFlag (ADC.URG_BUSY.f m) false).wr (ADC.URG_LEFT.f m) 0).setFlag (ADC.START_HELD.f m) false

/-- A write of CLK_EN. The 0 of TWL waits until every sequencer is IDLE; a 1 before that takes it back. -/
def State.writeClkEn (s : State) (v : Nat) : State :=
  let s := if v &&& s.absentEn = 0 then s else s.absentHit CLK.EN.f.addr
  let on := s.bit CLK.EN.f 5
  let adc := s.bit CLK.EN.f 9
  let s := s.wr CLK.EN.f (v - (v &&& s.absentEn))
  let s := if on && !bitOf v 5 then ((s.setBit CLK.EN.f 5 true).setFlag CLK.TWL_OFF.f true).twlOffSettle
    else s.setFlag CLK.TWL_OFF.f false
  if adc && !bitOf v 9 then s.forUpTo 16 fun s m => s.adcGate m else s

def execClkEn (v : Word) (s : State) : Out := done (s.reach (CLK.EN.f.sets v.toNat) .clk fun s => s.writeClkEn v.toNat)

end Sys2Proof.Machine
end

