-- ==== Sys2Proof/Machine/View.lean ====
section
/-! DEFINITION. The register fields that show a condition of other state: they are computed when they are read. Every
other field reads as it is stored. Log entry 52. -/

namespace Sys2Proof.Machine

/-- The 32 sites of half `h` for which `p` holds, as a word. -/
def siteMask (h : Nat) (p : Nat → Bool) : Nat :=
  (List.range 32).foldl (fun v i => if p (32 * h + i) then v + 2 ^ i else v) 0

/-- A burst of the site drops records, and its result is not posted (R187, R196). -/
def State.siteDrops (s : State) (site : Nat) : Bool :=
  s.runs.any fun e => e.2.bursts.any fun b => b.site == site && !b.posted && decide (0 < b.dropCnt)

/-- The ring is three quarters full or more (R195). -/
def State.ringHi (s : State) (site : Nat) : Bool :=
  decide (0 < s.ringSize site) && decide (3 * s.ringSize site ≤ 4 * s.ringFill site)

/-- SYS_CAP (R45). -/
def State.sysCap (s : State) : Nat :=
  match s.opt with
  | .a => 0x0FFFFFFF
  | .l => 0x0FFFFFFC
  | .b => 0x030F0FF3

/-- The fraction of the RTC in units of 1/32,768 s (R513). -/
def State.rtcFraction (s : State) : Nat := s.rd LDG.RTC_NS.f * 32768 / 1000000000

/-- A computed field, and its value for instance (i, j). -/
abbrev Shown := Lay × (State → Nat → Nat → Nat)

def shownSys : List Shown := [(SYS.CAP, fun s _ _ => s.sysCap)]

/-- The factory's capacitance of a channel (R86); DRV_SWING, PMU_SETTLED and PMU_COMPL follow the mode in force and the
loop (R58, R75); a level register reads its held value while one is held (R55). -/
def shownVlv : List Shown :=
  [(VLV.CH_CSELF, fun _ t k => Config.selfCapacitance (32 * t + k)),
    (VLV.DRV_SWING, fun s t k => b2n (s.swingLimited (32 * t + k))),
    (VLV.PMU_SETTLED, fun s t k => b2n (s.pmuSettled (32 * t + k))),
    (VLV.PMU_COMPL, fun s t k => b2n (s.pmuCompl (32 * t + k)))] ++
    allLevels.map fun l => (levelLay l, fun s t k => s.readLevel (32 * t + k) l)

/-- RAIL_ALM and TWARN follow the readings and their limits (R476, R478). -/
def shownPwr : List Shown :=
  [(PWR.RAIL_ALM, fun s _ _ => b2n s.anyAlarm), (PWR.TWARN, fun s _ _ => b2n ((List.range 12).any s.sensorWarns))]

def shownTim : List Shown := [(TIM.LAT, fun _ _ _ => Config.pipelineLatency)]

def shownTwl : List Shown :=
  [(TWL.BUSY, fun s n _ => b2n (s.rd (TWL.STATE_STATE.f n) != 0)),
    (TWL.SYNC_WAIT, fun s n _ => b2n (s.rd (TWL.STATE_STATE.f n) == 5)),
    (TWL.APG_WAIT, fun s n _ => b2n (s.rd (TWL.STATE_STATE.f n) == 6)),
    (TWL.DRAIN, fun s n _ => b2n (s.rd (TWL.STATE_STATE.f n) == 7)),
    (TWL.MLAT, fun s n _ => s.decisionNs n)]

def shownGng : List Shown :=
  [(GNG.REF_DUE, fun s n _ => b2n (1 ≤ s.rd (GNG.STATE_DEBT.f n))),
    (GNG.REF_LATE, fun s n _ => b2n (8 ≤ s.rd (GNG.STATE_DEBT.f n))),
    (GNG.TMR_RUN, fun s n _ => b2n (s.rd (GNG.TMR.f n) != 0))]

def shownDmk : List Shown :=
  [(DMK.RES_WAIT, fun s h _ => siteMask h fun i => (s.resultQ i).any fun e => !e.byPort),
    (DMK.RING_NE, fun s h _ => siteMask h fun i => s.ringFill i != 0),
    (DMK.DROP, fun s h _ => siteMask h fun i => s.siteDrops i),
    (DMK.RQ_FULL, fun s h _ => siteMask h fun i => decide (32 ≤ (s.resultQ i).length)),
    (DMK.CFG_ERR, fun s _ _ => (List.range 4).foldl (fun v k => if s.raCfgErr k then v + 2 ^ k else v) 0),
    (DMK.BMAP_BAD, fun s h _ => siteMask h fun i => s.bmapBad i),
    (DMK.RING_HI, fun s h _ => siteMask h fun i => s.ringHi i),
    (DMK.RING_BAD, fun s h _ => siteMask h fun i => s.ringBad i),
    (DMK.RING_SIZE, fun s n _ => s.ringSize n),
    (DMK.RP_D, fun s p w => s.headRecord (s.rd (DMK.RP_SEL_SITE.f p)) w),
    (DMK.RSP_D, fun s w _ => s.headResult (s.rd DMK.RSP_SEL_SITE.f) w)]

def shownCal : List Shown :=
  [(CAL.PZ_NE, fun s _ _ => b2n (!s.pzList.isEmpty)),
    (CAL.REKEY, fun s _ _ => s.rd ENC.RK_RUN.f),
    (CAL.MIGR, fun s _ _ => b2n ((List.range 12).any fun n => s.flag (DDR.MIG.f n))),
    (CAL.LOOK_LOW, fun s _ _ => b2n s.lookLow),
    (CAL.SQ_LOOK, fun s q _ => s.lookUs q),
    (CAL.VUSED, fun s _ _ => s.vused),
    (CAL.BUFUSED, fun s _ _ => s.bufused),
    (CAL.PAGES_FREE, fun s _ _ => s.pagesFree),
    (CAL.ALLOCS, fun s _ _ => s.allocCount),
    (CAL.PZ_OBJ, fun s _ _ => match s.pzList with
      | [] => 0
      | e :: _ => e.1),
    (CAL.PZ_PAGE, fun s _ _ => match s.pzList with
      | [] => 0
      | e :: _ => e.2)]

def shownDdr : List Shown :=
  [(DDR.CE_TH, fun s n _ => b2n (s.ceTh n)),
    (DDR.SR, fun s n _ => b2n (s.ddrSr n)),
    (DDR.QFULL, fun s n _ => b2n (s.ddrQfull n)),
    (DDR.DEBT, fun s n _ => b2n (s.ddrDebt n))]

def shownEnc : List Shown := [(ENC.RB_RUN, fun s _ _ => b2n (!s.badNodes.isEmpty))]

def shownAdc : List Shown :=
  [(ADC.FIFO_NE, fun s m _ => b2n (!(s.adcQ m).isEmpty)),
    (ADC.FIFO_HI, fun s m _ => b2n (768 ≤ (s.adcQ m).length)),
    (ADC.FIFO_FULL, fun s m _ => b2n (1024 ≤ (s.adcQ m).length)),
    (ADC.FILL, fun s m _ => (s.adcQ m).length),
    (ADC.PORT, fun s m _ => s.adcPort m)]

def shownCnv : List Shown :=
  [(CNV.SCRUB_RUN, fun s _ _ => b2n (s.flag CNV.SCRUB_EN.f && !s.gated .cnv))]

def shownTwd : List Shown :=
  [(TWD.CT_LO, fun s _ _ => s.cascadeTime % 2 ^ 32),
    (TWD.PRBS_ERR, fun s w _ => b2n ((List.range 4).any fun l => s.rd (TWD.P_PRBS.f w l) != 0))]

/-- The head message of a flow receive port (R453). -/
def State.rxHead (s : State) (q : Nat) : Option FlowMsg := (s.rxMsgs.get q []).head?

/-- The bytes free in a flow transmit port: messages hold their place until they are acknowledged (R453). -/
def State.txRoom (s : State) (q : Nat) : Nat :=
  let held := ((s.waitOf (4 + q) ++ s.unackedOf (4 + q)).map fun x => 4 * x.words.length).foldl (· + ·) 0
  65536 - 4 * (s.txBuf.get q []).length - held

def shownEth : List Shown :=
  [(ETH.SAFE_ONLY, fun s _ _ => b2n s.safeOnly),
    (ETH.RX_NE, fun s _ _ => (List.range 4).foldl (fun v q => if (s.rxHead q).isSome then v + 2 ^ q else v) 0),
    (ETH.RX_D, fun s q _ => match s.rxHead q with
      | none => 0
      | some m => m.words.headD 0),
    (ETH.RX_LEN, fun s q _ => match s.rxHead q with
      | none => 0
      | some m => m.len),
    (ETH.TX_ROOM, fun s q _ => s.txRoom q)]

/-- The head entry of a destination of the event router, as EVT_Mm_NEXT reads (R494). -/
def State.evHead (s : State) (d : Nat) : Option EvEntry := (s.evq.get d []).head?

def shownEvt : List Shown :=
  [(EVT.STORM, fun s _ _ => b2n ((s.listed EVT.src 0).any fun e => bitOf e.2 20)),
    (EVT.PEND, fun s _ _ => (List.range 10).foldl (fun v d => if (s.evHead d).isSome then v + 2 ^ d else v) 0),
    (EVT.TIME_LO, fun s _ _ => s.time % 2 ^ 32),
    (EVT.M_NEXT, fun s m _ => match s.evHead m with
      | none => 0xFFFFFFFF
      | some e => e.src + e.count * 2 ^ 16),
    (EVT.M_TS_LO, fun s m _ => match s.evHead m with
      | none => 0
      | some e => e.ts % 2 ^ 32),
    (EVT.M_TS_HI, fun s m _ => match s.evHead m with
      | none => 0
      | some e => e.ts / 2 ^ 32),
    (EVT.M_FILL, fun s m _ => (s.evq.get m []).length)]

def shownLdg : List Shown := [(LDG.RTC_LO, fun s _ _ => s.rd LDG.RTC_S.f % 2 ^ 32)]

/-- The computed fields of the block at a base address (bits 31:24 of the register address; 0x30 to 0x33 are DDR, ENC,
TWD and ETH). -/
def shownAt (a : Nat) : List Shown :=
  match a / 2 ^ 24 with
  | 0x10 => shownSys
  | 0x11 => if a / 2 ^ 20 % 16 = 0 then [] else shownPwr
  | 0x12 => shownEvt
  | 0x15 => shownLdg
  | 0x20 | 0x21 | 0x22 | 0x23 => shownVlv
  | 0x24 => shownTim
  | 0x28 => shownTwl
  | 0x29 => shownGng
  | 0x2A => shownDmk
  | 0x2B => shownCal
  | 0x2C => shownAdc
  | 0x30 => shownDdr
  | 0x31 => shownEnc
  | 0x32 => shownTwd
  | 0x33 => shownEth
  | 0x38 => shownCnv
  | _ => []

/-- A field as it reads. -/
def State.view (s : State) (f : Fld) : Nat :=
  match (shownAt f.addr).findSome? fun d => if d.1.lsb = f.lsb then (d.1.idx? f.addr).map fun x => d.2 s x.1 x.2 else none with
  | some v => v % 2 ^ f.width
  | none => s.rd f

def State.viewFlag (s : State) (f : Fld) : Bool := s.view f != 0

end Sys2Proof.Machine
end

