-- ==== Sys2Proof/Machine/Events.lean ====
section
/-! DEFINITION. The event router (R488 to R502) and PROT (R507): when each source is active, occurrences, entries, the
storm guard, and the filtered inputs. Log entries 79 and 80. -/

namespace Sys2Proof.Machine

/-! The conditions of the sources (R488). -/

/-- How the condition of a source stands: a level that the state shows, a pulse that a happening raises for 16 ns, a
condition outside the state, or never active. -/
inductive SourceCond
  | level (on : Bool)
  | pulsed
  | outside
  | never
  deriving DecidableEq, Repr

/-- R87: a source of a channel. -/
def State.channelSource (s : State) (n : Nat) : SourceCond :=
  let c := n / 8
  match n % 8 with
  | 0 => .level (s.flag (VLV.OC.ch c))
  | 1 => .level (s.flag (VLV.CLAMP_OVL.ch c))
  | 2 => .outside
  | 3 => .level (s.pmuSettled c)
  | 4 => .level (s.flag (VLV.LVL_RANGE.ch c))
  | 5 => .level (s.swingLimited c)
  | 6 =>
    if c % 32 < 16 then .outside
    else match c % 32 with
      | 16 => .level (s.flag (VLV.MX_DONE.f (c / 32)))
      | 17 => .level (s.flag (VLV.MX_ERR.f (c / 32)))
      | 18 => .level (s.flag (VLV.TRIP.f (c / 32)))
      | _ => .never
  | _ => .level (s.flag (VLV.SAFE.ch c))

/-- R151: a source of a sequencer. -/
def State.twillSource (s : State) (n : Nat) : SourceCond :=
  let q := n / 8
  match n % 8 with
  | 0 => .level (s.issuing q)
  | 1 => .level (s.viewFlag (TWL.DRAIN.f q))
  | 2 => .level (s.rd (TWL.FAIL.f q) != 0)
  | 3 => .level (s.rd (TWL.MTO.f q) != 0)
  | _ => .pulsed

/-- R180: a source of an APG. -/
def State.ginghamSource (s : State) (n : Nat) : SourceCond :=
  let g := n / 8
  match n % 8 with
  | 0 => .level (s.flag (GNG.RUN.f g))
  | 1 => .level (s.flag (GNG.ERR_FULL.f g))
  | 2 => .level (s.viewFlag (GNG.REF_DUE.f g))
  | 3 => .level (s.viewFlag (GNG.REF_LATE.f g))
  | 4 => .pulsed
  | _ => .never

/-- Any bit of the two words of a per-site flag field is set. -/
def State.anySite (s : State) (l : Lay) : Bool := s.viewFlag (l.f 0) || s.viewFlag (l.f 1)

/-- R213: a source of Damask. -/
def State.damaskSource (s : State) (n : Nat) : SourceCond :=
  if n < 4 then .level (s.bit DMK.DONE.f n)
  else if n < 8 then .level (s.bit DMK.QFULL.f (n - 4))
  else match n with
    | 8 => .level (s.anySite DMK.RES_WAIT)
    | 9 => .level (s.anySite DMK.RING_NE)
    | 10 => .level (s.anySite DMK.DROP)
    | 11 => .level (s.anySite DMK.RQ_FULL)
    | 12 => .level (s.anySite DMK.RING_HI)
    | 13 => .pulsed
    | 14 => .level (s.anySite DMK.BMAP_BAD)
    | 15 => .level (s.anySite DMK.RING_BAD)
    | _ => .never

/-- R246: a source of Calico. -/
def State.calicoSource (s : State) (n : Nat) : SourceCond :=
  if n < 16 then .pulsed
  else match n with
    | 16 => .level (s.viewFlag CAL.PZ_NE.f)
    | 17 => .level (s.flag CAL.PZ_OVF.f)
    | 18 => .level s.lookLow
    | 19 => .pulsed
    | 20 => .level (s.viewFlag CAL.REKEY.f)
    | 21 => .level (s.viewFlag CAL.MIGR.f)
    | 22 => .pulsed
    | 23 => .never
    | n => if n < 40 then .level (s.bit CAL.STARVE.f (n - 24)) else .never

/-- R273: a source of a DRAM channel. -/
def State.dramSource (s : State) (n : Nat) : SourceCond :=
  let d := n / 16
  match n % 16 with
  | 4 => .level (s.flag (DDR.CAP_FULL.f d))
  | 5 => .level (s.flag (DDR.HOT.f d))
  | 6 => .level (s.viewFlag (DDR.DEBT.f d))
  | 7 => .level (s.flag (DDR.SETUP.f d))
  | 8 => .level (s.flag (DDR.MIG.f d))
  | 9 => .level (s.flag (DDR.MIG_DONE.f d))
  | 11 => .level (s.viewFlag (DDR.CE_TH.f d))
  | 12 => .level (s.viewFlag (DDR.SR.f d))
  | 13 => .level (s.viewFlag (DDR.QFULL.f d))
  | 14 => .level (s.flag (DDR.REFUSED.f d))
  | 15 => .never
  | _ => .pulsed

/-- R428: a source of Tweed. -/
def State.tweedSource (s : State) (n : Nat) : SourceCond :=
  if n < 32 then
    let w := n / 8
    match n % 8 with
    | 0 => .level (s.flag (TWD.UP.f w))
    | 1 => .level (s.flag (TWD.DEGR.f w))
    | 2 => .level (s.flag (TWD.RECOV.f w))
    | 5 => .level (s.viewFlag (TWD.PRBS_ERR.f w))
    | 6 => .level (s.rd (TWD.P_STAT_PSTATE.f w) == 4 || s.rd (TWD.P_STAT_PSTATE.f w) == 5)
    | 7 => .never
    | _ => .pulsed
  else match n with
    | 32 => .level (s.flag TWD.CASC.f)
    | 33 => .level (s.flag TWD.LOST.f)
    | 34 => .level (s.flag TWD.GFAIL.f)
    | 35 => .level (s.flag TWD.BC_BUSY.f)
    | 36 => .level (s.flag TWD.CAP_FULL.f)
    | 37 => .pulsed
    | 38 => .pulsed
    | 39 => .pulsed
    | 40 => .level (s.flag CFG.MASTER.f && (List.range 32).any fun d => s.flag (TWD.ROST_LOSTD.f d))
    | _ => .never

/-- R486: a source of clocks and power. -/
def State.powerSource (s : State) (n : Nat) : SourceCond :=
  match n with
  | 0 => .level (!s.flag CLK.REF_OK.f)
  | 1 => .level (!s.flag CLK.TREF_OK.f)
  | 2 => .level (!s.flag CLK.XTAL_OK.f)
  | 3 => .level (!s.flag CLK.IOSC_OK.f)
  | 4 => .level (s.flag CLK.FALLBACK.f)
  | 5 => .level (s.flag CLK.WAITREF.f)
  | 6 => .level (s.flag CLK.FORCED.f)
  | 7 => .pulsed
  | 8 => .level s.anyAlarm
  | 9 => .level ((List.range 12).any s.sensorWarns)
  | 10 => .level (s.flag PWR.TCRIT_HIT.f)
  | 11 => .level (s.flag PWR.VBAT_LOW.f)
  | n =>
    if n < 24 then
      .level (s.sensorWarns (n - 12))
    else if n = 24 then .level (s.flag PWR.STBY_REFUSED.f) else .never

/-- R393: a source of the configuration controller. -/
def State.configSource (s : State) (n : Nat) : SourceCond :=
  match n with
  | 0 => .level (s.flag CFG.BUSY.f)
  | 1 => .level (s.flag CFG.FAIL_FULL.f)
  | 2 => .level (s.flag CFG.FALLBACK.f)
  | 3 => .level (s.flag CFG.SAFEHOLD.f)
  | 4 => .pulsed
  | _ => .never

/-- The latest self-test record says NOT_RUN, or none has been written (R518). -/
def State.bstNotRun (s : State) : Bool :=
  !s.flag LDG.BST_ANY.f || s.tab LDG.sram 0 (0x800 + 8 * s.rd LDG.BST_HEAD.f) % 4 == 2

/-- A happening of a pulsed source waits for its occurrence to be processed. -/
def State.pulsing (s : State) (n : Nat) : Bool := s.raised.any fun e => e.1 == n

/-- The timestamp of a source's occurrence: that of its first happening, or the present (R491). -/
def State.stampOf (s : State) (n : Nat) : Nat := ((s.raised.find? fun e => e.1 == n).map Prod.snd).getD s.time

/-- What happenings of a source are left once its occurrence is processed. -/
def State.unraise (s : State) (n : Nat) : State := s.withRaised (s.raised.filter fun e => e.1 != n)

/-- R489: a source of timing, SYS, the router, debug, ledger and self-test. The firing of an access comparator or data
watch makes EV1614 a pulse as well (R545). -/
def State.miscSource (s : State) (n : Nat) : SourceCond :=
  if n < 4 then .level (s.flag (TIM.ERR_FULL.f n))
  else match n with
    | 4 => .level (s.flag SYS.HIT.f)
    | 5 => .level (s.viewFlag EVT.STORM.f)
    | 6 => .level (((List.range 8).any fun m => s.flag (DBG.HALTED.f m)) || s.pulsing 1614)
    | _ => .level (s.flag LDG.FLUSH_ERR.f || !s.flag LDG.RTC_VALID.f || s.bstNotRun)

/-- R456: a source of the host port. -/
def State.hostSource (s : State) (n : Nat) : SourceCond :=
  if n < 4 then .level (bitOf (s.view ETH.RX_NE.f) n)
  else match n with
    | 4 => .level (s.flag ETH.SESS.f)
    | 5 => .level (s.flag ETH.LINK.f)
    | 6 => .level (s.flag ETH.PTP_LOCK.f)
    | _ => .level (decide (1 ≤ s.rd (DBG.LEVEL.f 1)))

/-- R361: a source of Canvas control. -/
def State.canvasSource (s : State) (n : Nat) : SourceCond :=
  match n with
  | 2 => .level (s.flag CNV.UPSET_FULL.f)
  | 3 => .level (s.flag CNV.ICFP_BUSY.f)
  | 4 => .level (s.flag CNV.ICFP_FULL.f)
  | 5 => .level ((List.range 16).any fun b => s.rd (CNV.BAY_STAT_BSTATE.f b) == 3)
  | 6 => .level (s.flag CNV.INJ_FULL.f)
  | _ => .pulsed

/-- The condition of each event source (R488). -/
def State.sourceCond (s : State) (n : Nat) : SourceCond :=
  if n < 1024 then s.channelSource n
  else if n < 1152 then s.twillSource (n - 1024)
  else if n < 1184 then s.ginghamSource (n - 1152)
  else if n < 1216 then s.damaskSource (n - 1184)
  else if n < 1280 then s.calicoSource (n - 1216)
  else if n < 1472 then s.dramSource (n - 1280)
  else if n < 1536 then s.tweedSource (n - 1472)
  else if n < 1600 then s.powerSource (n - 1536)
  else if n < 1608 then s.configSource (n - 1600)
  else if n < 1616 then s.miscSource (n - 1608)
  else if n < 1624 then s.hostSource (n - 1616)
  else if n < 1632 then s.canvasSource (n - 1624)
  else if n < 1640 && s.bit EVT.PINSEL.f (n - 1632) then .level (s.bit EVT.IN_LVL.f (n - 1632))
  else .outside

/-! Occurrences (R491 to R493). -/

/-- The route word of a source. -/
def State.route (s : State) (n : Nat) : Nat := s.tab EVT.src 0 n

/-- Set or clear SMASK (bit 20) or ACT (bit 21) of a source's route word. -/
def State.routeBit (s : State) (n i : Nat) (b : Bool) : State := s.setTab EVT.src 0 n (putBit (s.route n) i b)

/-- The entries of a destination with an occurrence of source `n` at `ts` folded in, in ascending order of timestamp and
then of source number. -/
def foldEntry (n ts : Nat) (l : List EvEntry) : List EvEntry :=
  if l.any fun e => e.src == n then
    l.map fun e => if e.src == n then { e with count := min (e.count + 1) 255 } else e
  else
    let before := fun (e : EvEntry) => decide (e.ts < ts) || (e.ts == ts && decide (e.src < n))
    l.filter before ++ { src := n, ts := ts, count := 1 } :: l.filter fun e => !before e

/-- The occurrence reaches the destinations that the route word names. -/
def State.deliver (s : State) (n ts : Nat) : State :=
  let w := s.route n
  (s.forUpTo 10 fun s d =>
    if bitOf w d then s.withEvq (s.evq.set d (foldEntry n ts (s.evq.get d [])) []) else s).noticeEvents 1792

/-- The storm guard masks a source, KIND 0 for its stuck time and 1 for its rate (R497). -/
def State.stormMask (s : State) (n kind : Nat) : State :=
  let s := s.routeBit n 20 true
  if s.flag EVT.STORM_FULL.f then s
  else ((s.setFlag EVT.STORM_FULL.f true).wr EVT.STORM_CAP_SRC.f n).wr EVT.STORM_CAP_KIND.f kind

/-- An unmasked source has one occurrence more within its window than RATE allows, that at `ts` included (R497). -/
def State.rateExceeded (s : State) (n ts : Nat) : Bool :=
  let k := bits (s.route n) 16 4
  k != 0 && decide (16 < ((s.occ.get n []).filter fun t => decide (ts - t ≤ 1000 * 2 ^ (k - 1))).length)

/-- An occurrence stamped `ts` of a source, unless it is masked: the storm guard counts, and the router delivers. -/
def State.routed (s : State) (n ts : Nat) : State :=
  if bitOf (s.route n) 20 then s
  else
    let s := s.withOcc (s.occ.put n ((ts :: s.occ.get n []).take 17))
    if s.rateExceeded n ts then s.stormMask n 1 else s.deliver n ts

/-- A source becomes active at `ts`: its stuck time begins, PROT acts at once (R507), and the router takes the
occurrence. -/
def State.occur (s : State) (n ts : Nat) : State :=
  let s := s.setTab EVT.since 0 n ts
  (if bitOf (s.route n) 10 then s.tripEvery else s).routed n ts

/-- Whether the condition of a source that is not active holds; an outside condition is the sender's word. -/
def State.condHolds (s : State) (n : Nat) : Bool :=
  match s.sourceCond n with
  | .level on => on
  | .pulsed => s.pulsing n
  | .outside =>
    if n < 1024 && n % 8 == 6 then s.cacEvent (n / 256) (n / 8 % 32)
    else if n < 1024 && n % 8 == 2 then s.pmuForces (n / 8)
    else true
  | .never => false

/-- What an outside condition shows in a register: PMU_COMPL (R75), and the level of a user event line (R360). -/
def State.showOutside (s : State) (n : Nat) (on : Bool) : State :=
  match s.sourceCond n with
  | .outside =>
    if n < 1024 then if n % 8 == 2 then s.setFlag (VLV.PMU_COMPL.ch (n / 8)) on else s
    else s.setBit CNV.LINES.f (n - 1632) on
  | _ => s

def execEventOccurrence (n : EvSource) (s : State) : Out :=
  done <|
    if bitOf (s.route n) 21 || !s.condHolds n then s
    else
      ((s.showOutside n true).unraise n |>.routeBit n 21 true).occur n (s.stampOf n)

/-- The source becomes inactive (R491): a level or an outside condition has ended, or the 16 ns of a pulse have, with
every happening that fell within them. -/
def execEventSourceInactive (n : EvSource) (s : State) : Out :=
  done <|
    if !bitOf (s.route n) 21 || s.sourceCond n == .level true && n.val != 1614 then s
    else
      let s := (s.showOutside n false).unraise n
      if n.val = 1614 && s.sourceCond n == .level true then s else s.routeBit n 21 false

/-! The storm guard (R497, R498). -/

/-- An unmasked source has stayed active for its stuck time. -/
def State.stuck (s : State) (n : Nat) : Bool :=
  let k := bits (s.route n) 12 4
  bitOf (s.route n) 21 && !bitOf (s.route n) 20 && k != 0 && decide (s.tab EVT.since 0 n + 1000 * 2 ^ (k - 1) ≤ s.time)

def execStuckTimeout (n : EvSource) (s : State) : Out := done (if s.stuck n then s.stormMask n 0 else s)

/-- A write of EVT_UNMASK: the stuck time and the rate window start again, and a masked source that is active occurs
once. PROT took its activity when it began. -/
def State.unmask (s : State) (n : Nat) : State :=
  if 1792 ≤ n then s
  else
    let masked := bitOf (s.route n) 20
    let s := (State.routeBit (s.withOcc (s.occ.del n)) n 20 false).setTab EVT.since 0 n s.time
    if masked && bitOf (s.route n) 21 then s.routed n s.time else s

def execEvtUnmask (n : BitVec 11) (s : State) : Out :=
  done (s.reach (EVT.UNMASK_SRC.f.sets n.toNat) .evt fun s => s.unmask n.toNat)

def State.stormRel (s : State) : State :=
  ((s.setFlag EVT.STORM_FULL.f false).wr EVT.STORM_CAP_SRC.f 0).wr EVT.STORM_CAP_KIND.f 0

def execStormRel (s : State) : Out := done (s.reach (EVT.STORM_REL.f.sets 1) .evt State.stormRel)

/-! Handing out (R494, R495). -/

/-- The head entry of a destination is consumed. -/
def State.evTake (s : State) (d : Nat) : State := s.withEvq (s.evq.set d (s.evq.get d []).tail [])

/-- A read of EVT_Mm_NEXT by a master. -/
def State.evtNext (s : State) (m : Nat) (q : Master) : State :=
  let v := s.view (EVT.M_NEXT.f m)
  (if s.consumes q then s.evTake m else s).answer v

def execEvtNext (m : MfpId) (q : Master) (s : State) : Out :=
  done (s.reachUnit (.read q (EVT.M_NEXT.f m).addr) .evt (s.hasMfp m) fun s => s.evtNext m q)

def execEvqTake (s : State) : Out := done (s.evTake 8)

/-! The filtered inputs (R499, R500). -/

/-- A filtered EVIN takes a level. A rising edge counts, and on EVIN0 it is a touchdown of every channel with DRV_EN
or PMU_EN (R515). -/
def State.evinLevel (s : State) (k : Nat) (on : Bool) : State :=
  let s := s.setBit EVT.IN_LVL.f k on
  if on && s.dieOn then
    let s := s.inc (EVT.IN_CNT.f k)
    if k = 0 then
      s.forUpTo 128 fun s c =>
        if s.flag (VLV.DRV_EN.ch c) || s.flag (VLV.PMU_EN.ch c) then s.ledgerInc (0x12 + 4 * c) else s
    else s
  else s

/-- A sample of EVIN ball k, inverted as INV says: the output takes a new level with the third consecutive sample of
it, and holds it for five samples. -/
def State.evinSample (s : State) (k : Nat) (ball : Bool) : State :=
  let x := ball != s.bit EVT.INV.f k
  let n := if x = s.bit EVT.IN_LVL.f k then 0 else min 3 (s.rd (EVT.IN_RUN.f k) + 1)
  let s := s.wr (EVT.IN_HOLD.f k) (s.rd (EVT.IN_HOLD.f k) - 1)
  if n = 3 && s.rd (EVT.IN_HOLD.f k) = 0 then
    ((s.wr (EVT.IN_RUN.f k) 0).wr (EVT.IN_HOLD.f k) 5).evinLevel k x
  else s.wr (EVT.IN_RUN.f k) n

/-- Samples of an EVIN ball, 1 ns apart. -/
def execEvinChange (k : Fin 8) (s : State) (samples : List Bool := []) : Out :=
  done (samples.foldl (fun s x => s.evinSample k x) s)

end Sys2Proof.Machine
end

