-- ==== Sys2Proof/Machine/Ledger.lean ====
section
/-! DEFINITION. The calendar, the ledger and its flushes, and the self-test with its records (R513 to R528).
Log entries 8, 75, 76, 77, 78 and 93. -/

namespace Sys2Proof.Machine

/-! Calendar (R513, R514). -/

/-- RTC_VALID is set: the first time with FIRST_ON zero, FIRST_ON takes the seconds (R515). -/
def State.rtcValid (s : State) : State :=
  let s := s.setFlag LDG.RTC_VALID.f true
  if s.tab LDG.sram 0 2 = 0 && s.tab LDG.sram 0 3 = 0 then
    (s.setTab LDG.sram 0 2 (s.rd LDG.RTC_S.f % 2 ^ 32)).setTab LDG.sram 0 3 (s.rd LDG.RTC_S.f / 2 ^ 32)
  else s

/-- The RTC takes whole seconds. -/
def State.rtcLoad (s : State) (sec : Nat) : State := (s.wr LDG.RTC_S.f sec).wr LDG.RTC_NS.f 0

def State.rtcSet (s : State) : State :=
  (s.rtcLoad (s.rd LDG.RTC_SET_LO.f + s.rd LDG.RTC_SET_HI.f * 2 ^ 32)).rtcValid

def execRtcSet (s : State) : Out := done (s.reach (LDG.RTC_SET.f.sets 1) .ldg State.rtcSet)

/-- The RTC at a PTP second (R514). -/
def State.ptpRtc (s : State) (ptp : Nat) : Nat :=
  unsignedOf 48 ((ptp : Int) - signedOf 16 (s.rd ETH.PTP_UTC.f) - 946684800)

/-- The RTC takes the value of a PTP second. -/
def State.rtcAlign (s : State) (ptp : Nat) : State :=
  let v := s.ptpRtc ptp
  if v = s.rd LDG.RTC_S.f then s.rtcLoad v else ((s.rtcLoad v).incSat LDG.RTC_ADJ.f).rtcValid

/-- An alignment at a PTP second boundary: with PTP_LOCK set, the first after it rose, and the first after each 60 s
from then. -/
def execRtcAlign (ptp : BitVec 48) (s : State) : Out :=
  done (if s.flag ETH.PTP_LOCK.f && decide (s.rd LDG.ALIGN_NEXT.f ≤ s.time) then
    (s.wr LDG.ALIGN_NEXT.f (s.rd LDG.ALIGN_NEXT.f + 60 * 10 ^ 9)).rtcAlign ptp.toNat
  else s)

/-- VBAT falls; without VAON the date is lost (R513). -/
def execVbatFall (s : State) : Out :=
  let s := s.setFlag PWR.VBAT_LOW.f true
  done (if s.flag PWR.VAON.f then s else s.setFlag LDG.RTC_VALID.f false)

/-- The RTC advances by `n` ns, from XTAL32 or, with the die powered, from IOSC; without a clock it stops (R513). -/
def State.rtcTick (s : State) (n : Nat) : State :=
  if s.flag CLK.XTAL_OK.f || s.dieOn then
    let ns := s.rd LDG.RTC_NS.f + n
    (s.wr LDG.RTC_S.f (s.rd LDG.RTC_S.f + ns / 1000000000)).wr LDG.RTC_NS.f (ns % 1000000000)
  else s.setFlag LDG.RTC_VALID.f false

/-! Counters (R515). -/

/-- The bin of a temperature reading in units of 0.125 degrees. -/
def thermBin (r : Int) : Nat := min 31 ((r + 160) / 40).toNat

/-- A minute passes: DRV_MIN of the channels that drive, and the highest reading of each sensor. -/
def execLedgerMinute (s : State) : Out :=
  let s := s.forUpTo 128 fun s c =>
    if s.flag (VLV.DRV_EN.ch c) && !s.inSafe c then s.ledgerInc (0x10 + 4 * c) else s
  done (s.forUpTo 12 fun s k =>
    match s.rd (LDG.TMAX.f k) with
    | 0 => s
    | m + 1 => (s.ledgerInc (0x300 + 32 * k + thermBin ((m : Int) - 2048))).wr (LDG.TMAX.f k) 0)

/-! Flushes (R516). -/

/-- The bytes over which the ledger's CRC runs: words 0 to 14 and 16 to 16,383. -/
def State.ledgerBytes (s : State) : List Nat :=
  ((List.range 16384).filter fun w => w != 15).flatMap fun w => natBytes (s.tab LDG.sram 0 w) 4

/-- A flush starts with a snapshot that carries the next SEQ and its CRC; with no valid directory it is abandoned. -/
def State.flushStart (s : State) : State :=
  if s.flag LDG.FLUSH_BUSY.f then s
  else if !s.flag CFG.DIR_OK.f then s.setFlag LDG.FLUSH_ERR.f true
  else
    let s := (s.setFlag LDG.FLUSHED.f true).wr LDG.FLUSH_AT.f s.time
    let s := s.setTab LDG.sram 0 1 (s.tab LDG.sram 0 1 + 1)
    (s.setTab LDG.sram 0 15 (crc32 s.ledgerBytes)).setFlag LDG.FLUSH_BUSY.f true

def execFlushGo (s : State) : Out := done (s.reach (LDG.FLUSH_GO.f.sets 1) .ldg State.flushStart)

/-- FLUSH_INT in ns: 0 as 1 minute, codes above 10 as 10 (R525). -/
def State.flushInterval (s : State) : Nat := min 10 (max 1 (s.rd LDG.CTRL_FLUSH_INT.f)) * 60 * 10 ^ 9

/-- FLUSH_INT minutes have passed since the last flush, or 60 s since a start without one. -/
def State.flushDue (s : State) : Bool :=
  if s.flag LDG.FLUSHED.f then decide (s.rd LDG.FLUSH_AT.f + s.flushInterval ≤ s.time) else decide (60 * 10 ^ 9 ≤ s.time)

/-- The interval of main power, or 60 s from a start, has passed; no flush runs in standby. -/
def execFlushInterval (s : State) : Out := done (if s.dieOn && s.flushDue then s.flushStart else s)

/-- A load reads flash (R376). -/
def State.loadReads (s : State) : Bool :=
  s.flag CFG.BUSY.f && decide (2 ≤ s.rd CFG.STATE_STEP.f) && decide (s.rd CFG.STATE_STEP.f ≤ 5)

/-- PS_EN_MAIN goes low at the end of a shutdown (R521): the next start is cold. -/
def State.shutdownEnd (s : State) : State :=
  ((s.setFlag LDG.FLUSH_OFF.f false).setFlag PWR.EN_MAIN.f false).setFlag PWR.COLD_NEXT.f true

/-- A flush ends, its block programmed or not. A load that reads flash keeps it waiting. -/
def execFlushEnd (ok : Bool) (s : State) : Out :=
  done (if s.flag LDG.FLUSH_BUSY.f && !s.loadReads then
    let s := (s.setFlag LDG.FLUSH_BUSY.f false).setFlag LDG.FLUSH_ERR.f (!ok)
    let s := if ok then s.inc LDG.FLUSH_BLK.f else s
    if s.flag LDG.FLUSH_OFF.f then s.shutdownEnd else s
  else s)

/-! The self-test (R518 to R523). -/

/-- The preconditions that fail, as WHY: bit 0 clocks, bit 1 rails, bit 2 temperature (R520). -/
def State.bstWhy (s : State) : Nat :=
  b2n (!s.flag CLK.REF_OK.f || !s.flag CLK.IOSC_OK.f || s.flag CLK.FALLBACK.f || s.flag CLK.WAITREF.f) +
    2 * b2n s.anyAlarm + 4 * b2n ((List.range 12).any s.sensorWarns)

/-- WHERE of a test: 0 shutdown, 1 start, 2 RESTART in a hold. -/
def State.bstWhere (s : State) : Nat :=
  match s.rd BST.WAIT.f with
  | 1 => 1
  | 3 => 2
  | _ => 0

/-- The eight words of a record are written to the slot after the latest (R518). -/
def State.bstRecord (s : State) (ws : List Nat) : State :=
  let i := if s.flag LDG.BST_ANY.f then (s.rd LDG.BST_HEAD.f + 1) % 16 else 0
  ((s.forUpTo 8 fun s w => s.setTab LDG.sram 0 (0x800 + 8 * i + w) (ws.getD w 0)).wr LDG.BST_HEAD.f i).setFlag
    LDG.BST_ANY.f true

/-- The RTC seconds as words 1 and 2 of a record. -/
def State.bstTime (s : State) : List Nat := [s.rd LDG.RTC_S.f % 2 ^ 32, s.rd LDG.RTC_S.f / 2 ^ 32]

/-- A NOT_RUN record. -/
def State.bstNoRun (s : State) (why : Nat) : State :=
  s.bstRecord ([2 + why * 16 + s.bstWhere * 256] ++ s.bstTime)

/-- The balls of the groups that BST_BSMASK enables, of the scannable ones (R551, R554). -/
def State.bstBalls (s : State) : Nat :=
  (List.range 11).foldl (fun n g => if s.groupTested g then n + groupSize g else n) 0

/-- The start goes on at step 2 of R381. -/
def State.startGoesOn (s : State) : State := s.wr CFG.STATE_STEP.f 2

/-- The device enters SAFEHOLD (R383, R392). -/
def State.safehold (s : State) : State :=
  ((s.setFlag CFG.SAFEHOLD.f true).setFlag CFG.BUSY.f false).wr CFG.STATE_STEP.f 11

/-- The channels that a test has used take their reset state: every register of a channel that software writes (R519).
-/
def State.channelsReset (s : State) : State :=
  let ls := VLV.layout.filter fun l => l.kind == .rw && l.n2 == 32
  { s with regs := s.regs.filter fun e => !ls.any fun l => l.owns e.1 }

/-- What follows a test, by what it was for: the flush of a shutdown, or the start (R521 to R523). `state` is the STATE
of its record. -/
def State.bstAct (s : State) (state : Nat) : State :=
  let w := s.rd BST.WAIT.f
  let s := if s.flag BST.RUN.f then s.channelsReset else s
  let s := (s.setFlag BST.RUN.f false).wr BST.WAIT.f 0
  if w = 2 then
    let s := (s.setFlag LDG.FLUSH_OFF.f true).flushStart
    if s.flag LDG.FLUSH_BUSY.f then s else s.shutdownEnd
  else if w = 1 then
    if state = 1 then (s.setFlag BST.HOLD.f true).safehold else s.startGoesOn
  else if w = 3 then
    if state = 0 then
      (((s.setFlag BST.HOLD.f false).setFlag CFG.SAFEHOLD.f false).setFlag CFG.BUSY.f true).startGoesOn
    else s
  else s

/-- A test starts for a purpose, where its preconditions hold; else it is recorded NOT_RUN. -/
def State.bstStart (s : State) (w : Nat) : State :=
  let s := (s.wr BST.WAIT.f w).setFlag VLV.OUT_HELD.f true
  if s.bstWhy = 0 then s.setFlag BST.RUN.f true else (s.bstNoRun s.bstWhy).bstAct 2

/-- A start-time test that waits begins once LOCK and its preconditions are met (R522). -/
def State.bstTryStart (s : State) : State :=
  if s.flag BST.TRYING.f && s.refIslandsLocked && s.bstWhy = 0 then (s.setFlag BST.TRYING.f false).bstStart 1 else s

/-- The preconditions are checked again while a test runs (R520). -/
def execBstPrecheck (s : State) : Out :=
  done (if s.flag BST.RUN.f && s.bstWhy != 0 then (s.bstNoRun s.bstWhy).bstAct 2 else s)

/-- The record of a complete test (R518). -/
def State.bstWords (s : State) (r : SelfTest) : List Nat :=
  [b2n (r.fails != 0) + s.bstWhere * 256] ++ s.bstTime ++
    [r.dur.toNat + r.covD2d.toNat * 2 ^ 16, 10000 + s.bstBalls * 10000 / 5184 * 2 ^ 16, r.fails.toNat,
      if r.fails = 0 then 0 else r.kind.toNat + r.item.toNat * 2 ^ 16]

/-- The test ends, complete or early. -/
def execSelfTestEnd (r : SelfTest) (s : State) : Out :=
  done (if s.flag BST.RUN.f then
    let s := s.forUpTo 4 fun s k => s.wr (BST.CHFAIL.f k) (r.channels.toNat / 2 ^ (32 * k))
    if r.early then (s.bstNoRun 8).bstAct 2
    else (s.bstRecord (s.bstWords r)).bstAct (b2n (r.fails != 0))
  else s)

/-- The start-time test could not begin within 10 s (R522). -/
def execBstStartTimeout (s : State) : Out :=
  done (if s.flag BST.TRYING.f then
    let s := (s.setFlag BST.TRYING.f false).wr BST.WAIT.f 1
    (s.bstNoRun (max 1 s.bstWhy)).bstAct 2
  else s)

end Sys2Proof.Machine
end

