-- ==== Sys2Proof/Machine/Start.lean ====
section
/-! DEFINITION. The three starts of the device (R387): what each keeps, and its first steps. Log entries 81 and 83. -/

namespace Sys2Proof.Machine

/-- What Chiffon, the balls and the monitors keep at every start: the calendar and ledger, the wake registers, straps
and fuses, and conditions outside the logic die. -/
def keptAlways : List Lay :=
  [LDG.RTC_VALID, LDG.RTC_DRIFT, LDG.RTC_S, LDG.RTC_NS, LDG.FRESH, LDG.VALID, LDG.FLUSH_ERR, LDG.CTRL_FLUSH_INT,
    LDG.FLUSH_BLK, LDG.BST_HEAD, LDG.BST_ANY, LDG.PWRUP, BST.HOLD, BST.CHFAIL,
    CFG.MASTER, CFG.FUSE_AUTH_ONLY,
    PWR.WAKEN_EN, PWR.ALARM_EN, PWR.WAKE_AT_LO, PWR.WAKE_AT_HI, PWR.WAKE_SRC, PWR.RET_OK, PWR.VBAT_LOW, PWR.EN_MAIN,
    PWR.VAON, PWR.COLD_NEXT,
    CLK.REF_OK, CLK.TREF_OK, CLK.XTAL_OK, CLK.IOSC_OK, EVT.IN_LVL, EVT.IN_RUN, EVT.IN_HOLD, VLV.EXT_IN,
    ETH.MAC_LO, ETH.MAC_HI, DBG.SERIAL_LO, DBG.SERIAL_HI, DBG.TAP_IR, DBG.TAP_ADDR, DBG.TAP_DATA, DBG.TAP_AT,
    DBG.TAP_WR, DBG.TAP_STAT, SYS.RDATA]

/-- What Chiffon keeps besides at a warm restart and a wake: the keys and their walk, the DRAM training results and
redirection, what Calico and the GOLDEN copies need, and what is known of the flash (R250, R272, R276, R388, R389). -/
def keptData : List Lay :=
  [ENC.KEY, ENC.GEN, ENC.KEYV, ENC.RKPEND, ENC.RK_RUN, ENC.RK_PTR, ENC.RK_STAT_KID, ENC.LEVELS, ENC.TENANT,
    DDR.FITTED, DDR.STAT_RANKS, DDR.STAT_RATE, DDR.STAT_RSIZE, DDR.STAT_RETR, DDR.USE, DDR.SPARE_ACT, DDR.SETUP,
    DDR.REDIR, DDR.MIG, DDR.MIG_PTR, DDR.MIG_DONE, DDR.RETIRING, DDR.RSR, DDR.LOST, DDR.TRAINED,
    ENC.MAJ_TOP, ENC.CTR_TOP, CAL.KEEP, CAL.SYS_PAGES, CAL.SYS_MD, CAL.PAGES_TOTAL, CAL.ROT, CAL.ROT_RANK, CNV.STATIC_GOLD, CNV.BAY_GOLD, CFG.DIR_OK, CFG.FL_ID,
    CFG.FL_SIZE]

/-- What a warm restart keeps besides: the clocks and readings of a die that stays powered, the trip latches, and
CFG_FAIL_CAP with the slot that CFG_NEXT names (R388, R392, R394). -/
def keptWarm : List Lay :=
  [CLK.LK, CLK.LK_MFP, CLK.LK_DC, CLK.LK_TM, CLK.LK_TW, CLK.LK_FAB, CLK.FALLBACK, CLK.WAITREF, CLK.FB_PEND,
    CLK.RET_PEND, CLK.LOSS_FULL, CLK.LOSS_CAP_REF, CLK.FORCED, CLK.FORCED_CAP_CODE,
    PWR.RAIL_V, PWR.RAIL_I, PWR.RAIL_P, PWR.SEEN, PWR.TEMP, LDG.TMAX,
    VLV.TRIP, VLV.LOCAL, VLV.SAFE_N_DRV, VLV.CAP_FULL, VLV.TRIP_CAP_CH, VLV.TRIP_CAP_CAUSE, VLV.TREF_SAFE,
    ETH.LINK, ETH.MOD_ABS, ETH.LOS, CFG.FAIL_FULL, CFG.FAIL_CAP_CAUSE, CFG.FAIL_CAP_SLOT, CFG.FAIL_CAP_SEG,
    CFG.NEXT_SLOT]

/-- What a wake keeps besides: the state of the bays, whose configuration memory Chiffon retains, and the slot in force
(R387, R389). -/
def keptWake : List Lay := [CNV.HALF, CNV.BAY_STAT_BSTATE, CFG.STATE_SLOT, CFG.FALLBACK]

/-- The fields that a start of kind `k` keeps: 0 cold, 1 warm, 2 wake. -/
def keptBy (k : Nat) : List Lay :=
  if k = 0 then keptAlways else if k = 1 then keptAlways ++ keptData ++ keptWarm else keptAlways ++ keptData ++ keptWake

/-- The tables that a start keeps: the ledger, the slot directory, and what belongs to DRAM (a cold start drops that
when it builds). -/
def keptTab (key : Nat) : Bool :=
  key / 2 ^ 48 == 10 || key / 2 ^ 48 == 34 || (16 ≤ key / 2 ^ 48 && key / 2 ^ 48 ≤ 20) ||
    key / 2 ^ 48 == 37 || key / 2 ^ 48 == 38

/-- The bytes of memory that a start of kind `k` keeps: DRAM, and at a wake the configuration memory of Canvas. -/
def keptByte (k key : Nat) : Bool :=
  decide (2 ^ 48 ≤ key) || (k == 2 && decide (2 ^ 47 ≤ key) && decide (key < 2 ^ 48))

/-- Everything on the logic die returns to its reset value, but for what the start keeps. -/
def State.resetDie (s : State) (k : Nat) : State :=
  { s with
    regs := s.regs.filter fun e => (keptBy k).any fun l => l.owns e.1
    tabs := s.tabs.filter fun e => keptTab e.1
    mem := s.mem.filter fun c => keptByte k c.1
    dir := [], dramQ := [], lineQ := [], bcIn := []
    runs := [], inj := [], fifos := [], updates := [], results := [], sessions := [], uses := [], cores := []
    adcFifo := [], evq := [], twOut := [], slpWait := [], slpUnacked := [], slpHeld := [], ctrlQ := [], dbgQ := [], notices := []
    slpObjs := [], rxMsgs := [], txBuf := [], ethTx := [], occ := [], raised := [], held := [], time := 0 }

/-- The place in the directory of the resume copy, a SYSTEM allocation that no ID names (R389). -/
def resumeId : Nat := 2 ^ 32

/-- The directory at a start: a cold one frees every allocation (R218); else its copy in DRAM is taken when the area is
valid again. -/
def State.startDir (s : State) (k : Nat) : State :=
  if k = 0 then ((s.withDir []).withPzList []).withBadNodes [] else s

/-- A start counts in the ledger (R515). -/
def State.countStart (s : State) (k : Nat) : State :=
  let s := s.ledgerInc (5 + k)
  if k = 0 && s.flag LDG.PWRUP.f then (s.ledgerInc 4).setFlag LDG.PWRUP.f false else s

/-- A start of kind `k` begins: the die is reset, and its sequence is in progress with the channels held and DONE driven
low. SAFE_N that is low already sets the latches of the tiles (R65). -/
def State.start (s : State) (k : Nat) : State :=
  let s := ((s.resetDie k).startDir k).safeNTrips
  ((s.wr CFG.STATE_START.f k).setFlag LDG.VALID.f true).countStart k

/-- A cold start from step 1 of R381: the stored self-test result decides (R522). -/
def State.coldStart (s : State) : State :=
  let s := ((s.start 0).wr CFG.STATE_STEP.f 1).setFlag PWR.COLD_NEXT.f false
  if s.bstNotRun then (s.setFlag BST.TRYING.f true).bstTryStart
  else if s.tab LDG.sram 0 (0x800 + 8 * s.rd LDG.BST_HEAD.f) % 4 = 1 then (s.setFlag BST.HOLD.f true).safehold
  else (s.setFlag BST.HOLD.f false).startGoesOn

/-- Every rank of the channels in service enters self-refresh. -/
def State.refreshSelf (s : State) : State :=
  s.forUpTo 12 fun s n => if s.flag (DDR.UP.f n) then s.selfRefresh n else s

/-- The encryption layer writes back its dirty entries and saves the root (R284). -/
def State.saveMeta (s : State) : State := if s.flag CAL.READY.f then s.metaFlush else s

/-- A warm restart (R388): the session ends, the metadata is saved, every rank enters self-refresh, and the load begins
at step 2. Metadata that cannot be saved makes the start a cold one (R284). -/
def State.warmStart (s : State) : State :=
  if s.dramHeld then s.sessEnd.coldStart else (s.sessEnd.saveMeta.refreshSelf.start 1).startGoesOn

/-- WARM: ignored while BUSY is set (R388); a hold by a FAILED record lets no restart pass (R523). -/
def State.warm (s : State) : State :=
  if s.flag CFG.BUSY.f || s.flag BST.HOLD.f then s else s.warmStart

def execWarm (s : State) : Out := done (s.reach (CFG.WARM.f.sets 1) .cfg State.warm)

def State.failRel (s : State) : State :=
  (((s.setFlag CFG.FAIL_FULL.f false).wr CFG.FAIL_CAP_CAUSE.f 0).wr CFG.FAIL_CAP_SLOT.f 0).wr CFG.FAIL_CAP_SEG.f 0

def execFailRel (s : State) : Out := done (s.reach (CFG.FAIL_REL.f.sets 1) .cfg State.failRel)

end Sys2Proof.Machine
end

