-- ==== Sys2Proof/Machine/Power.lean ====
section
/-! DEFINITION. Rails, temperature, standby, wake and shutdown (R475 to R485, R521, R560 to R562).
Log entries 75 and 85. -/

namespace Sys2Proof.Machine

/-! Rails (R475, R476). -/

/-- A change of a rail's average or thresholds; the first alarm that begins is captured. -/
def State.railChange (s : State) (k : Nat) (f : State → State) : State :=
  let t := f s
  if t.railAlarm k && !s.railAlarm k && !t.flag PWR.RAIL_FULL.f then
    ((t.setFlag PWR.RAIL_FULL.f true).wr PWR.RAIL_CAP_RAIL.f k).setFlag PWR.RAIL_CAP_OVER.f (t.railAbove k)
  else t

/-- A rail's average of 100 µs: V, I and P are shown. -/
def State.railSample (s : State) (k v i p : Nat) : State :=
  s.railChange k fun s =>
    (((s.wr (PWR.RAIL_V.f k) v).wr (PWR.RAIL_I.f k) i).wr (PWR.RAIL_P.f k) p).setBit PWR.SEEN.f k true

def execRailSample (k : Fin 20) (v : BitVec 16) (i : BitVec 16) (p : BitVec 24) (s : State) : Out :=
  done (s.railSample k v.toNat i.toNat p.toNat)

def State.railRel (s : State) : State :=
  ((s.setFlag PWR.RAIL_FULL.f false).wr PWR.RAIL_CAP_RAIL.f 0).wr PWR.RAIL_CAP_OVER.f 0

def execRailRel (s : State) : Out := done (s.reach (PWR.RAIL_REL.f.sets 1) .pwr State.railRel)

/-! Temperature (R477, R478). -/

/-- A reading of a sensor, and the highest of the minute for the ledger. -/
def State.tempStore (s : State) (k v : Nat) : State :=
  let s := s.wr (PWR.TEMP.f k) v
  s.wr (LDG.TMAX.f k) (max (s.rd (LDG.TMAX.f k)) (signedOf 12 v + 2049).toNat)

/-- Every sensor is read: the trip of sensors that have newly reached TCRIT, PWR_TCAP, and the tracking of the
tiles. -/
def State.sensorRead (s : State) (l : List (BitVec 12)) : State :=
  let s := s.forUpTo 12 fun s k =>
    match l[k]? with
    | none => s
    | some v => s.tempStore k v.toNat
  let s := s.forUpTo 4 fun s t => s.trkStatus t
  let fresh := (List.range 12).filter fun k => s.sensorCritical k && !s.bit PWR.SCRIT.f k
  let s := s.forUpTo 12 fun s k => s.setBit PWR.SCRIT.f k (s.sensorCritical k)
  match fresh with
  | [] => s
  | k :: _ =>
    let s := s.tripEvery.stopAll
    if s.flag PWR.TCRIT_HIT.f then s else (s.setFlag PWR.TCRIT_HIT.f true).wr PWR.TCAP_SENS.f k

def execSensorRead (temps : List (BitVec 12)) (s : State) : Out := done (if s.dieOn then s.sensorRead temps else s)

def State.tcritRel (s : State) : State := (s.setFlag PWR.TCRIT_HIT.f false).wr PWR.TCAP_SENS.f 0

def execTcritRel (s : State) : Out := done (s.reach (PWR.TCRIT_REL.f.sets 1) .pwr State.tcritRel)

/-! Standby (R479, R480). -/

/-- The sequencers stop, the channels take the hold of R69, what is not delivered is discarded, and the session ends. -/
def State.holdAll (s : State) : State :=
  let s := s.stopAll.setFlag VLV.OUT_HELD.f true
  let s := ((s.withFifos []).withUpdates []).withResults []
  s.sessEnd

/-- Entry begins. -/
def State.standbyBegin (s : State) : State :=
  let s := (s.setFlag PWR.STBY_PEND.f true).holdAll
  s.forUpTo 4 fun s w => if s.rd (TWD.P_STAT_PSTATE.f w) = 0 then s else s.portDown w

/-- A standby request is refused: FALLBACK or WAITREF is set. -/
def State.standbyRefused (s : State) : Bool := s.flag CLK.FALLBACK.f || s.flag CLK.WAITREF.f

/-- A standby request: refused, held while BUSY is set, or begun; `how` is 1 by STBY_GO and 2 by SLP. -/
def State.standbyRequest (s : State) (how : Nat) : State :=
  if s.flag PWR.STBY_PEND.f then s
  else if s.standbyRefused then s.setFlag PWR.STBY_REFUSED.f true
  else if s.flag CFG.BUSY.f then s.wr PWR.STBY_HELD.f how
  else s.standbyBegin

/-- A shutdown request: held while BUSY is set, else the channels are held and the self-test runs (R521). -/
def State.shutdownRequest (s : State) : State :=
  if s.flag CFG.BUSY.f then s.wr PWR.STBY_HELD.f 3 else s.holdAll.bstStart 2

/-- The request that a load held goes on when BUSY has cleared (R394). -/
def State.settleHeld (s : State) : State :=
  let h := s.rd PWR.STBY_HELD.f
  if h = 0 || s.flag CFG.BUSY.f then s
  else
    let s := s.wr PWR.STBY_HELD.f 0
    if h = 3 then s.shutdownRequest else s.standbyRequest h

def execStbyGo (s : State) : Out := done (s.reach (PWR.STBY_GO.f.sets 1) .pwr fun s => s.standbyRequest 1)

def execStbyRefRel (s : State) : Out :=
  done (s.reach (PWR.STBY_REF_REL.f.sets 1) .pwr fun s => s.setFlag PWR.STBY_REFUSED.f false)

/-- A wake source acts (R482): PS_EN_MAIN goes high. -/
def State.wakeBy (s : State) (src : Nat) : State :=
  ((s.wr PWR.WAKE_SRC.f src).setFlag PWR.EN_MAIN.f true).setFlag PWR.WAKING.f true

/-- A wake source: it acts in standby, and waits during entry. -/
def State.wakeSource (s : State) (src : Nat) : State :=
  if s.flag PWR.STBY.f then if s.flag PWR.WAKING.f then s else s.wakeBy src
  else if s.flag PWR.STBY_PEND.f && s.rd PWR.WAKE_PEND.f = 0 then s.wr PWR.WAKE_PEND.f src
  else s

/-- Entry ends: the metadata is written back, every rank is in self-refresh, the configuration memory is on its
retention supply, PS_EN_MAIN goes low and the logic die loses its state. Metadata that could not be written back makes
the next start cold (R284). -/
def State.standbyEnd (s : State) : State :=
  let lost := s.dramHeld
  let src := s.rd PWR.WAKE_PEND.f
  let s := ((s.saveMeta.refreshSelf.resetDie 2).setFlag PWR.STBY.f true).setFlag PWR.RET_OK.f true
  let s := (s.setFlag PWR.EN_MAIN.f false).setFlag PWR.COLD_NEXT.f lost
  if src = 0 then s else s.wakeBy src

def execStandbyEntryEnd (s : State) : Out := done (if s.flag PWR.STBY_PEND.f then s.standbyEnd else s)

def execWakeNFall (s : State) : Out := done (if s.flag PWR.WAKEN_EN.f then s.wakeSource 1 else s)

/-- The RTC stands in the second of PWR_WAKE_AT. -/
def State.atAlarm (s : State) : Bool :=
  s.rd LDG.RTC_S.f == s.rd PWR.WAKE_AT_LO.f + s.rd PWR.WAKE_AT_HI.f * 2 ^ 32

/-- The RTC reaches PWR_WAKE_AT. -/
def execRtcAlarm (s : State) : Out := done (if s.flag PWR.ALARM_EN.f && s.atAlarm then s.wakeSource 2 else s)

/-- The RTC advances by `n` ns, which is a wake source where it reaches PWR_WAKE_AT (R482). -/
def State.rtcPasses (s : State) (n : Nat) : State :=
  let t := s.rtcTick n
  if t.flag PWR.ALARM_EN.f && t.atAlarm && !s.atAlarm then t.wakeSource 2 else t

/-- A wake that cannot resume becomes a warm restart from the slot in force (R389). -/
def State.wakeWarm (s : State) : State :=
  let slot := s.rd CFG.STATE_SLOT.f
  ((s.start 1).wr CFG.NEXT_SLOT.f slot).startGoesOn

/-- The main rails are good: the wake resumes, or it becomes a warm restart or a cold start. -/
def State.wakeResume (s : State) : State :=
  if s.flag PWR.COLD_NEXT.f then s.coldStart
  else if !s.flag PWR.RET_OK.f then s.wakeWarm
  else (s.start 2).wr CFG.STATE_STEP.f 6

def execPsPgRise (s : State) : Out :=
  done (if s.flag PWR.STBY.f && s.flag PWR.WAKING.f then s.wakeResume else s)

def execRetentionSupplyLoss (s : State) : Out :=
  done (if s.flag PWR.STBY.f then s.setFlag PWR.RET_OK.f false else s)

/-! Losses of supply (R476, R560, R562). -/

/-- Outside standby the logic die is held in reset, and the next start is cold. The fall of PS_PG is expected during
standby entry too, and nothing follows from it there. -/
def execResetThresholdFall (s : State) (what : ResetFall := .rail) : Out :=
  done (if s.flag PWR.STBY.f || (what == .psPg && s.flag PWR.STBY_PEND.f) then s
  else ((s.resetDie 0).setFlag PWR.DIE_OFF.f true).setFlag PWR.COLD_NEXT.f true)

/-- What the loss of VAON leaves: the RTC, which runs on VBAT, straps, fuses and conditions outside. -/
def keptVbat : List Lay :=
  [LDG.RTC_VALID, LDG.RTC_DRIFT, LDG.RTC_S, LDG.RTC_NS, PWR.VBAT_LOW, CFG.MASTER, CFG.FUSE_AUTH_ONLY,
    CLK.REF_OK, CLK.TREF_OK, CLK.XTAL_OK, EVT.IN_LVL, EVT.IN_RUN, EVT.IN_HOLD, VLV.EXT_IN, ETH.MAC_LO, ETH.MAC_HI, DBG.SERIAL_LO,
    DBG.SERIAL_HI, SYS.RDATA]

/-- VAON falls: Chiffon is lost except for the RTC, and that too where VBAT does not keep it (R513). -/
def State.vaonLoss (s : State) : State :=
  let s := s.resetDie 0
  let s := { s with
    regs := s.regs.filter fun e => keptVbat.any fun l => l.owns e.1
    tabs := [], mem := [], dir := [], dirCopy := [], pzList := [], badNodes := [] }
  let s := (s.setFlag PWR.VAON.f false).setFlag PWR.EN_MAIN.f false
  if s.flag PWR.VBAT_LOW.f then s.setFlag LDG.RTC_VALID.f false else s

def execVaonLoss (s : State) : Out := done s.vaonLoss

/-- VAON has been in range for 2 ms after it came up. -/
def execVaonSettled (s : State) : Out :=
  done (if s.flag PWR.VAON.f then s else (s.setFlag PWR.VAON.f true).setFlag PWR.EN_MAIN.f true)

end Sys2Proof.Machine
end

