-- ==== Sys2Proof/Machine/Bus.lean ====
section
/-! DEFINITION. Accesses to control space (R30 to R42): which block answers an address, the effect of a write on each
field, the indirect pairs, and the reads that have an effect. The debug block is in DbgBus.lean.
Log entries 10, 57, 58 and 80. -/

namespace Sys2Proof.Machine

/-- What an access answers: a value, poison (a load through the aperture), or a bus error. -/
inductive BusAns
  | ok (v : Nat)
  | poison
  | busError
  deriving DecidableEq, Repr

/-! Addresses (R30, R31, R37). -/

/-- The block whose extent holds an address outside the local view, the user window and the aperture. Offsets 0xC00 to
0xFFF of the DDR flag page name no instance (n is 0 to 11): the spec does not say whose clock answers them, and they are
answered as the window they lie in, that of DC0 (DESIGN CHOICE, log entry 58). -/
def blkAt (a : Nat) : Option Blk :=
  let mib := a / 2 ^ 20 % 16
  let al := decide (a % 2 ^ 20 < 2 ^ 17)
  match a / 2 ^ 24 with
  | 0x10 => some .sys
  | 0x11 => if mib = 0 || (mib = 8 && al) then some .clk else if mib = 1 || (mib = 9 && al) then some .pwr else none
  | 0x12 => some .evt
  | 0x13 => some .cfg
  | 0x14 => some .dbg
  | 0x15 => if mib = 0 || (mib = 8 && al) then some .ldg else if mib = 1 || (mib = 9 && al) then some .bst else none
  | 0x20 => some (.vlv 0)
  | 0x21 => some (.vlv 1)
  | 0x22 => some (.vlv 2)
  | 0x23 => some (.vlv 3)
  | 0x24 | 0x25 | 0x26 | 0x27 => some .tim
  | 0x28 => some .twl
  | 0x29 => some .gng
  | 0x2A => some .dmk
  | 0x2B => some .cal
  | 0x2C => some .adc
  | 0x30 =>
    if 12 ≤ mib then none
    else if mib = 0 && a % 2 ^ 20 < 0xC00 then some (.ddr (a % 2 ^ 20 / 0x100))
    else some (.ddr mib)
  | 0x31 => some .enc
  | 0x32 => some .twd
  | 0x33 => some .eth
  | 0x38 | 0x39 | 0x3A | 0x3B => some .cnv
  | _ => none

/-- The register and the bit that an address names as a flag-page alias, if it is one. -/
def aliasAt (a : Nat) : Option (Nat × Nat) :=
  let off := a % 2 ^ 24
  let p := if a / 2 ^ 24 = 0x11 || a / 2 ^ 24 = 0x15 then off / 2 ^ 20 % 8 else 0
  let d := off - 0x800000 - p * 2 ^ 20
  if off < 0x800000 || 2 ≤ p || 2 ^ 17 ≤ d || [0x25, 0x26, 0x27, 0x39, 0x3A, 0x3B].contains (a / 2 ^ 24) then none
  else some (a / 2 ^ 24 * 2 ^ 24 + p * 2 ^ 20 + (aliasWord d).1, (aliasWord d).2)

/-- The registers of the block at an address. -/
def layoutAt (a : Nat) : List Lay :=
  match a / 2 ^ 24 with
  | 0x10 => SYS.layout
  | 0x11 => if a / 2 ^ 20 % 16 = 0 then CLK.layout else PWR.layout
  | 0x12 => EVT.layout
  | 0x13 => CFG.layout
  | 0x14 => DBG.layout
  | 0x15 => if a / 2 ^ 20 % 16 = 0 then LDG.layout else BST.layout
  | 0x20 | 0x21 | 0x22 | 0x23 => VLV.layout
  | 0x24 => TIM.layout
  | 0x28 => TWL.layout
  | 0x29 => GNG.layout
  | 0x2A => DMK.layout
  | 0x2B => CAL.layout
  | 0x2C => ADC.layout
  | 0x30 => DDR.layout
  | 0x31 => ENC.layout
  | 0x32 => TWD.layout
  | 0x33 => ETH.layout
  | 0x38 => CNV.layout
  | _ => []

/-! Absent units and fields (R42). -/

/-- Instance i of a register is present. -/
def instOk (l : Lay) (a : Nat) (ok : Nat → Bool) : Bool :=
  match l.idx? a with
  | some x => ok x.1
  | none => true

/-- A register belongs to a unit that the option code lacks: an MFP, a Tweed port, the repair units. -/
def State.unitAbsent (s : State) (a : Nat) : Bool :=
  match a / 2 ^ 24 with
  | 0x11 => !instOk CLK.MFP_MULT a s.hasMfp
  | 0x12 => !(instOk EVT.M_NEXT a s.hasMfp && instOk EVT.M_TS_LO a s.hasMfp && instOk EVT.M_TS_HI a s.hasMfp &&
      instOk EVT.M_FILL a s.hasMfp)
  | 0x14 =>
    (decide (0x14000010 ≤ a) && decide (a < 0x14000030) && !s.hasMfp ((a - 0x14000010) / 4)) ||
      (decide (0x14002000 ≤ a) && decide (a < 0x14002800) && !s.hasMfp ((a - 0x14002000) / 0x100)) ||
      (decide (0x14900000 ≤ a) && !s.hasMfp ((a - 0x14900000) / 0xE0000))
  | 0x2A => !s.hasRa && decide (0x2A003000 ≤ a) && decide (a < 0x2A003200)
  | 0x32 =>
    (decide (0x32000010 ≤ a) && decide (a < 0x32000020) && !s.hasTwp ((a - 0x32000010) / 4)) ||
      (decide (0x32001200 ≤ a) && decide (a < 0x32001300) && !s.hasTwp ((a - 0x32001200) / 0x40))
  | _ => false

/-- The fields of the repair units in words that the compare stage shares with them (R187). -/
def raFields : List Lay :=
  [DMK.BUSY, DMK.DONE, DMK.SRCH, DMK.QFULL, DMK.CFG_ERR, DMK.RA_EN, DMK.OPEN, DMK.CLOSE, DMK.ABORT]

/-- A field of a present register shows or controls an absent unit or feature: it reads zero, and storing a non-zero
value is an absent access. -/
def State.fieldAbsent (s : State) (l : Lay) : Bool :=
  (!s.hasGng && (l == TWL.APGSEL_APG || l == TWL.APGSEL_EN)) ||
    (!s.hasTenant && (l == ENC.CFG_TENANT || l == CAL.CMD_KEY)) || (!s.hasRa && raFields.contains l)

/-- A field that holds the number of an MFP: a value that names an absent one is not stored (R42, log entry 10). -/
def State.namesAbsent (s : State) (l : Lay) (x : Nat) : Bool := l == ADC.CTRL_MFP && !s.hasMfp x

/-! Writes (R34). -/

/-- What a write of a field does where it does more than store: for instance (i, j), `x` is the field's new value, or
for a WT field the bits written 1. -/
abbrev Act := Lay × (State → Nat → Nat → Nat → State)

/-- The indices of the bits set among the lowest `n`. -/
def setBits (n x : Nat) : List Nat := (List.range n).filter fun k => bitOf x k

/-- Do `f` for every bit set in `x`. -/
def State.eachBit (s : State) (n x : Nat) (f : State → Nat → State) : State := (setBits n x).foldl f s

/-- A field that is stored before something else is brought up to date. -/
def thenDo (l : Lay) (f : State → Nat → Nat → State) : Act := (l, fun s i j x => f (s.wr (l.f i j) x) i j)

def actsSys : List Act :=
  [(SYS.ABSENT_REL, fun s _ _ _ => ((s.setFlag SYS.HIT.f false).wr SYS.ABSENT_ADDR.f 0).wr SYS.ABSENT_CNT.f 0)]

def actsClk : List Act :=
  [(CLK.FM_GO, fun s _ _ _ => s.fmGo), (CLK.FORCED_REL, fun s _ _ _ => s.forcedRel),
    (CLK.LOSS_REL, fun s _ _ _ => s.lossRel), (CLK.EN, fun s _ _ x => s.writeClkEn x),
    (CLK.MFP_MULT, fun s n _ x => s.writeMult n x)]

/-- The thresholds of the rails from `k0`. -/
def actRails (k0 : Nat) (l : Lay) : Act := (l, fun s i j x => s.railChange (k0 + i) fun s => s.wr (l.f i j) x)

def actsPwr : List Act :=
  railLos.map (fun g => actRails g.1 g.2.2) ++ railHis.map (fun g => actRails g.1 g.2.2) ++ [(PWR.STBY_GO, fun s _ _ _ => s.standbyRequest 1), (PWR.TCRIT_REL, fun s _ _ _ => s.tcritRel),
    (PWR.RAIL_REL, fun s _ _ _ => s.railRel), (PWR.STBY_REF_REL, fun s _ _ _ => s.setFlag PWR.STBY_REFUSED.f false)]

def actsEvt : List Act :=
  [(EVT.STORM_REL, fun s _ _ _ => s.stormRel), (EVT.UNMASK_SRC, fun s _ _ x => s.unmask x)]

def actsCfg : List Act :=
  [(CFG.WARM, fun s _ _ _ => s.warm), (CFG.FAIL_REL, fun s _ _ _ => s.failRel)]

def actsLdg : List Act :=
  [(LDG.FLUSH_GO, fun s _ _ _ => s.flushStart), (LDG.RTC_SET, fun s _ _ _ => s.rtcSet)]

/-- A level register. -/
def actLevel (l : Level) : Act := (levelLay l, fun s t k x => s.writeLevel (32 * t + k) l x)

def actsVlv : List Act :=
  [(VLV.PROT_REL, fun s _ _ _ => s.protRel), (VLV.PROT_FORCE, fun s t _ _ => s.tripLocal t 0 2),
    (VLV.CAP_REL, fun s t _ _ => s.vlvCapRel t), (VLV.MX_COMMIT, fun s t _ _ => s.mxCommit t),
    (VLV.MX_ERR_REL, fun s t _ _ => s.mxErrRel t), (VLV.LVL_COMMIT, fun s t _ _ => s.lvlCommit t),
    (VLV.PROT_EN, fun s t k x => s.writeProtEn (32 * t + k) (x != 0)),
    (VLV.PMU_EN, fun s t k x => s.writePmuEn (32 * t + k) (x != 0)),
    thenDo VLV.CH_PROT_OCTH fun s t k => s.detectorJudge (32 * t + k) .overcurrent,
    thenDo VLV.CH_PROT_CLTH fun s t k => s.detectorJudge (32 * t + k) .clampOverload,
    (VLV.CH_PMU_MODE, fun s t k x =>
      s.writePmu (32 * t + k) (.ctl (BitVec.ofNat 2 x) (BitVec.ofNat 3 (s.rd (VLV.CH_PMU_RANGE.f t k))))),
    (VLV.CH_PMU_RANGE, fun s t k x =>
      s.writePmu (32 * t + k) (.ctl (BitVec.ofNat 2 (s.rd (VLV.CH_PMU_MODE.f t k))) (BitVec.ofNat 3 x))),
    (VLV.CH_PMU_FORCE, fun s t k x => s.writePmu (32 * t + k) (.force (BitVec.ofNat 16 x)))] ++ allLevels.map actLevel

def actsTim : List Act :=
  [(TIM.SQ_COMMIT, fun s _ _ _ => s.sqCommit), (TIM.TDR_START, fun s t _ _ => s.tdrStart t),
    (TIM.TDR_ABORT, fun s t _ _ => s.tdrAbort t), (TIM.ERR_REL, fun s t _ _ => s.timErrRel t),
    (TIM.T_COMMIT, fun s t _ _ => s.tCommit t), thenDo TIM.TRK_EN fun s t _ => s.trkStatus t,
    (TIM.PLANE, fun s _ _ x => s.writePlane x)]

def actsTwl : List Act :=
  [(TWL.STOP, fun s q _ _ => s.stopSeq q), (TWL.MAP_COMMIT, fun s q _ _ => s.mapCommit q),
    (TWL.MAP_ERR_REL, fun s q _ _ => s.mapErrRel q)]

def actsGng : List Act :=
  [(GNG.ERR_REL, fun s g _ _ => s.gngErrRel g), (GNG.REF_EN, fun s g _ x => s.writeRefEn g (x != 0)),
    (GNG.BGSEL, fun s g _ x => s.wr (GNG.BGSEL.f g) (x &&& 0x7F7F7F7F))]

def actsDmk : List Act :=
  [(DMK.RA_EN, fun s _ _ x => s.forUpTo 4 (fun s k => if bitOf x k then s else s.raAbort k) |>.wr DMK.RA_EN.f x),
    (DMK.OPEN, fun s _ _ x => s.eachBit 4 x fun s k => s.raOpen k),
    (DMK.CLOSE, fun s _ _ x => s.eachBit 4 x fun s k => s.raClose k),
    (DMK.ABORT, fun s _ _ x => s.eachBit 4 x fun s k => s.raAbort k),
    (DMK.SITE_CFG_BMAP_CLR, fun s n _ _ => s.bmapClear n),
    thenDo DMK.SITE_CFG_RES_PORT fun s n _ => s.purgeResults n,
    thenDo DMK.SITE_CFG_RES_SLP fun s n _ => s.purgeResults n,
    (DMK.RING_RD, fun s n _ x => s.writeRingRd n x)]

def actsCal : List Act :=
  [(CAL.CMD_GO, fun s _ _ _ => s.writeCmdGo), (CAL.PZ_NEXT, fun s _ _ _ => s.pzNext),
    (CAL.PZ_OVF_REL, fun s _ _ _ => s.setFlag CAL.PZ_OVF.f false),
    (CAL.POST, fun s _ _ x => s.eachBit 16 x fun s p => s.postPort p),
    (CAL.WDRAW, fun s _ _ x => s.eachBit 16 x fun s p => s.withdrawPort p),
    (CAL.COLL_REL, fun s _ _ x => s.eachBit 16 x fun s p => s.setBit CAL.COLL.f p false)] ++
    ([CAL.CMD_OP, CAL.CMD_KIND, CAL.CMD_KEY, CAL.CMD_ID, CAL.CMD_SIZE_LO, CAL.CMD_SIZE_HI].map fun l =>
      (l, fun s i j x => s.writeCmdReg (l.f i j) x)) ++
    [CAL.RQ_OBJ, CAL.RQ_SITE, CAL.RQ_CTX].map fun l => (l, fun s p j x => s.writeRq p (l.f p j) x)

def actsDdr : List Act :=
  [(DDR.RETIRE, fun s n _ _ => s.retire n (s.rd (DDR.RET_RANK.f n))), (DDR.CAP_REL, fun s n _ _ => s.ddrCapRel n)] ++
    [DDR.AUTO, DDR.RET_CFG_CETH, DDR.RET_CFG_UETH].map fun l => thenDo l fun s n _ => s.autoRetire n

def actsEnc : List Act :=
  [(ENC.KW_GO, fun s _ _ _ => s.writeKwGo), (ENC.CAP_REL, fun s _ _ _ => s.encCapRel),
    (ENC.RKREQ, fun s _ _ x => s.eachBit 16 x fun s k => s.rkreq k)] ++
    [ENC.KW_CMD_OP, ENC.KW_CMD_KID, ENC.KW_DATA].map fun l => (l, fun s i j x => s.writeKwReg (l.f i j) x)

def actsAdc : List Act :=
  [(ADC.START, fun s m _ _ => s.adcStart m), (ADC.STOP, fun s m _ _ => s.adcStop m),
    (ADC.URG_GO, fun s m _ _ => s.urgGo m), (ADC.CAL_GO, fun s m _ _ => s.calGo m),
    thenDo ADC.STREAM fun s m _ => s.adcSettle m, (ADC.REF_EN, fun s t _ x => s.writeAdcRefEn t (x != 0)),
    thenDo ADC.CTRL_MFP fun s m _ => s.adcSettle m, (ADC.URG, fun s m _ x => s.wr (ADC.URG.f m) (x % 2 ^ 28)),
    (ADC.STR_BASE, fun s m _ x => s.wr (ADC.STR_BASE.f m) (x / 4 * 4)),
    thenDo ADC.STR_LEN fun s m _ => s.adcSettle m, (ADC.STR_RD, fun s m _ x => s.writeStrRd m x)]

def actsTwd : List Act :=
  [(TWD.GSTOP, fun s _ _ _ => s.gstop), (TWD.BC_GO, fun s _ _ _ => s.bcGo),
    (TWD.CAP_REL, fun s _ _ _ => s.twdCapRel),
    (TWD.CASC_EN, fun s _ _ x => if (x != 0) == s.flag TWD.CASC_EN.f then s else s.writeCascEn (x != 0) []),
    thenDo TWD.EN fun s w _ => if s.flag (TWD.EN.f w) then s else s.portDown w,
    (TWD.RETRAIN, fun s w _ _ => s.twRetrain w),
    (TWD.PRBS_EN, fun s w _ x => if x = 0 && !s.flag (TWD.PRBS_EN.f w) then s else s.writePrbsEn w (x != 0))]

/-- A message of the words written to a transmit port is handed to its stream, up to 16 KiB, while a session is open
(R453). -/
def State.txSend (s : State) (q : Nat) : State :=
  let ws := s.txBuf.get q []
  if ws.isEmpty || 4096 < ws.length || !s.flag ETH.SESS.f then s
  else State.slpMessage (s.withTxBuf (s.txBuf.set q [] [])) (4 + q) 0xC0 ws

/-- RX_SKIP discards the head message of a receive port. -/
def State.rxSkip (s : State) (q : Nat) : State := s.withRxMsgs (s.rxMsgs.set q (s.rxMsgs.get q []).tail [])

/-- A read of ETH_RXq_D consumes a word of the head message, and with its last word the message. -/
def State.rxTake (s : State) (q : Nat) : State :=
  match s.rxMsgs.get q [] with
  | [] => s
  | m :: r =>
    s.withRxMsgs (s.rxMsgs.set q (if m.words.length ≤ 1 then r else { m with words := m.words.tail } :: r) [])

/-- A write of PTP_EN: without it the clock does not run, and follows no master. -/
def State.writePtpEn (s : State) (x : Nat) : State :=
  let s := s.wr ETH.PTP_EN.f x
  if x = 0 then ((s.setFlag ETH.PTP_LOCK.f false).wr ETH.PTP_CNT.f 0).wr ETH.PTP_BEST.f 0 else s

def actsEth : List Act :=
  [(ETH.SESS_END, fun s _ _ _ => s.sessEnd), (ETH.PTP_EN, fun s _ _ x => s.writePtpEn x), (ETH.TX_SEND, fun s _ _ x => s.eachBit 4 x fun s q => s.txSend q),
    (ETH.RX_SKIP, fun s _ _ x => s.eachBit 4 x fun s q => s.rxSkip q),
    (ETH.TX_D, fun s q _ x => s.withTxBuf (s.txBuf.set q (s.txBuf.get q [] ++ [x]) []))]

def actsCnv : List Act :=
  [(CNV.ICFP_ABORT, fun s _ _ _ => s.icfpAbort), (CNV.ICFP_REL, fun s _ _ _ => s.icfpRel),
    (CNV.INJ_REL, fun s _ _ _ => s.injRel), (CNV.UPSET_REL, fun s _ _ _ => s.upsetRel),
    (CNV.HOLD, fun s b _ x => if x = 0 then s.openBay b else s.setFlag (CNV.HOLD.f b) true)]

def actsAt (a : Nat) : List Act :=
  match a / 2 ^ 24 with
  | 0x10 => actsSys
  | 0x11 => if a / 2 ^ 20 % 16 = 0 then actsClk else actsPwr
  | 0x12 => actsEvt
  | 0x13 => actsCfg
  | 0x15 => if a / 2 ^ 20 % 16 = 0 then actsLdg else []
  | 0x20 | 0x21 | 0x22 | 0x23 => actsVlv
  | 0x24 => actsTim
  | 0x28 => actsTwl
  | 0x29 => actsGng
  | 0x2A => actsDmk
  | 0x2B => actsCal
  | 0x2C => actsAdc
  | 0x30 => actsDdr
  | 0x31 => actsEnc
  | 0x32 => actsTwd
  | 0x33 => actsEth
  | 0x38 => actsCnv
  | _ => []

/-- Store a value in a field, or do what its action says. -/
def State.actOn (s : State) (acts : List Act) (l : Lay) (i j x : Nat) : State :=
  match acts.find? fun c => c.1 == l with
  | some c => c.2 s i j x
  | none => if l.kind == .wt then s else s.wr (l.f i j) x

/-- The value of an RW field as a write through an alias keeps it: the enable of Twill that waits to go to 0 (R472) is
written as 0 still. -/
def State.stored (s : State) (l : Lay) (f : Fld) : Nat :=
  if l == CLK.EN && s.flag CLK.TWL_OFF.f then putBit (s.rd f) 5 false else s.rd f

/-- A write of the bits in `mask` of a word reaches instance (i, j) of a field. -/
def State.writeField (s : State) (acts : List Act) (l : Lay) (i j v mask : Nat) : State :=
  let f := l.f i j
  let m := bits mask f.lsb f.width
  let x := bits v f.lsb f.width &&& m
  if m = 0 || s.fieldAbsent l || s.namesAbsent l x then s
  else
    match l.kind with
    | .rw => s.actOn acts l i j ((s.stored l f - (s.stored l f &&& m)) + x)
    | .wo => s.actOn acts l i j x
    | .wt => if x = 0 then s else s.actOn acts l i j x
    | _ => s

/-- A write would store a bit that is not zero in a field of an absent unit or feature, or name an absent MFP (R42). -/
def State.writesAbsent (s : State) (a v mask : Nat) : Bool :=
  (layoutAt a).any fun l =>
    (l.idx? a).isSome && ((s.fieldAbsent l && l.kind != .ro && bits (v &&& mask) l.lsb l.width != 0) ||
      s.namesAbsent l (bits (v &&& mask) l.lsb l.width))

/-- A write of the bits in `mask` of the register at a word address; `a0` is the address written. -/
def State.writeWord (s : State) (acts : List Act) (a a0 v mask : Nat) : State :=
  let s := if s.writesAbsent a v mask then s.absentHit a0 else s
  (layoutAt a).foldl (fun s l =>
    match l.idx? a with
    | none => s
    | some x => s.writeField acts l x.1 x.2 v mask) s

/-! Indirect pairs (R39, R40). -/

/-- An indirect pair: its pointer, the size of its table in words, and the table. -/
structure Pair where
  inc : Lay
  addr : Lay
  size : Nat
  read : State → Nat → Nat → Nat
  write : State → Nat → Nat → Nat → State

/-- A write of a word of the route table of a tile (R82). -/
def State.writeMx (s : State) (t a v : Nat) : State := s.setTab VLV.mxShadow t a (v &&& 0xBF)

/-- The bits of absent MFPs among the lowest eight of a word. -/
def State.absentMfps (s : State) (v : Nat) : Nat :=
  (List.range 8).foldl (fun m k => if s.hasMfp k then m else m + 2 ^ k) 0 &&& v

/-- A write of a route word (R492): SMASK and ACT stay; a source that is active and is given PROT sets the latches
(R507); bits of absent MFPs are not stored. -/
def State.writeRoute (s : State) (n v : Nat) : State :=
  let bad := s.absentMfps v
  let old := s.route n
  let s := if bad = 0 then s else s.absentHit 0x12001014
  let s := s.setTab EVT.src 0 n (((v &&& 0xFF7FF) - bad) + (old &&& 0x300000))
  if bitOf v 10 && !bitOf old 10 && bitOf old 21 then s.tripEvery else s

/-- A write of a word of the ledger SRAM: only the user area takes it (R515). -/
def State.writeLedger (s : State) (a v : Nat) : State := if 0x3C00 ≤ a then s.setTab LDG.sram 0 a v else s

/-- A write of a word of the barrier table (R426). -/
def State.writeBar (s : State) (a v : Nat) : State :=
  if a < 256 then s.setTab TWD.bar 0 a v else if a < 512 then s.setTab TWD.bar 0 a (v % 2 ^ 16) else s

def pairs : List Pair :=
  [⟨VLV.MX_IADDR_INC, VLV.MX_IADDR_ADDR, 194, fun s t a => s.tab VLV.mxShadow t a, State.writeMx⟩,
    ⟨TIM.SQ_IADDR_INC, TIM.SQ_IADDR_ADDR, 1024, fun s _ a => s.sqRead a, fun s _ a v => s.writeSq a v⟩,
    ⟨TIM.T_IADDR_INC, TIM.T_IADDR_ADDR, 524288, State.tRead, State.writeT⟩,
    ⟨TWL.CMAP_IADDR_INC, TWL.CMAP_IADDR_ADDR, 1152, fun s q a => s.tab TWL.cmap q a, State.writeCmap⟩,
    ⟨GNG.IADDR_INC, GNG.IADDR_ADDR, 198696, State.readApg, State.writeApg⟩,
    ⟨DMK.CH_IADDR_INC, DMK.CH_IADDR_ADDR, 2048, fun s _ a => s.readDmkCh a, fun s _ a v => s.writeDmkCh a v⟩,
    ⟨DDR.SPD_IADDR_INC, DDR.SPD_IADDR_ADDR, 512, fun s n a => s.tab DDR.spd n a, fun s _ _ _ => s⟩,
    ⟨TWD.BAR_IADDR_INC, TWD.BAR_IADDR_ADDR, 1024, fun s _ a => s.tab TWD.bar 0 a, fun s _ a v => s.writeBar a v⟩,
    ⟨EVT.SRC_IADDR_INC, EVT.SRC_IADDR_ADDR, 1792, fun s _ a => s.route a, fun s _ a v => s.writeRoute a v⟩,
    ⟨LDG.IADDR_INC, LDG.IADDR_ADDR, 16384, fun s _ a => s.tab LDG.sram 0 a, fun s _ a v => s.writeLedger a v⟩]

/-- The pair, and its instance, whose pointer register lies at a word address. -/
def pairAt (a : Nat) : Option (Pair × Nat) := pairs.findSome? fun p => (p.addr.idx? a).map fun x => (p, x.1)

/-- The debug port of a master. -/
def masterPort : Master → Option DbgPort
  | .dbgJ => some .j
  | .dbgS => some .s
  | _ => none

/-- The pointer field that a master uses: each debug port has a copy of its own (R40). -/
def ptrFld (m : Master) (f : Fld) : Fld :=
  match masterPort m with
  | some p => dbgPtr p f
  | none => f

/-- A write of a pointer register. -/
def State.writePtr (s : State) (m : Master) (p : Pair) (i v : Nat) : State :=
  (s.wr (ptrFld m (p.addr.f i)) v).wr (ptrFld m (p.inc.f i)) (v / 2 ^ 31)

/-- An access to IDATA: a bus error beyond the table; else the table word, and then the pointer may go on. -/
def State.pairAccess (s : State) (m : Master) (p : Pair) (i : Nat) (v : Option Nat) : State × BusAns :=
  let a := s.rd (ptrFld m (p.addr.f i))
  if p.size ≤ a then (s, .busError)
  else
    let r := match v with
      | none => p.read s i a
      | some _ => 0
    let t := match v with
      | none => s
      | some x => p.write s i a x
    (if s.flag (ptrFld m (p.inc.f i)) then t.wr (ptrFld m (p.addr.f i)) (a + 1) else t, .ok r)

/-! Registers. -/

/-- A word of the list of an ADC (R300): its converter and entry. -/
def adcEntryAt (a : Nat) : Option (Nat × Nat) :=
  if 0x2C002000 ≤ a && a < 0x2C003000 then some ((a - 0x2C002000) / 0x100, (a - 0x2C002000) % 0x100 / 4) else none

/-- The write of a whole register by a master; none for a bus error. -/
def State.regWrite (s : State) (m : Master) (a v : Nat) : Option State :=
  match pairAt a, pairAt (a - 4), adcEntryAt a with
  | some (p, i), _, _ => some (s.writePtr m p i v)
  | none, some (p, i), _ =>
    let r := s.pairAccess m p i (some v)
    if r.2 = .busError then none else some r.1
  | none, none, some (n, e) => some (s.setTab ADC.list n e v)
  | none, none, none =>
    if a = 0x2C001800 then some (s.adcGstart (v % 2 ^ 16))
    else if a / 2 ^ 24 = 0x33 && (ETH.TX_D.idx? a).any fun x => s.txRoom x.1 < 4 then none
    else if a / 2 ^ 24 = 0x38 then
      match CNV.PORT_TAPDST.idx? a with
      | some x => some (s.writePort x.1 v)
      | none => some (s.writeWord (actsAt a) a a v (2 ^ 32 - 1))
    else some (s.writeWord (actsAt a) a a v (2 ^ 32 - 1))

/-- What a read of a register does beside answering: it latches the other half of a pair, or consumes. -/
def State.readEffect (s : State) (m : Master) (a : Nat) : State :=
  if a = EVT.TIME_LO.base then s.wr EVT.TIME_HI.f (s.time / 2 ^ 32)
  else if a = LDG.RTC_LO.base then
    (s.wr LDG.RTC_HI.f (s.rd LDG.RTC_S.f / 2 ^ 32)).wr LDG.RTC_SUB.f s.rtcFraction
  else if a = TWD.CT_LO.base then s.wr TWD.CT_HI.f (s.cascadeTime / 2 ^ 32)
  else
    let s := match DMK.RP_D.idx? a with
      | some x => s.ringDetect (s.rd (DMK.RP_SEL_SITE.f x.1))
      | none => s
    if !s.consumes m then s
    else
      match EVT.M_NEXT.idx? a, DMK.RP_D.idx? a, DMK.RSP_D.idx? a, ADC.PORT.idx? a, ETH.RX_D.idx? a with
      | some x, _, _, _, _ => s.evTake x.1
      | _, some x, _, _, _ => if x.2 = 7 then s.consumeRecord (s.rd (DMK.RP_SEL_SITE.f x.1)) else s
      | _, _, some x, _, _ => if x.1 = 15 then s.portTake (s.rd DMK.RSP_SEL_SITE.f) else s
      | _, _, _, some x, _ => s.adcPortTake x.1
      | _, _, _, _, some x => s.rxTake x.1
      | _, _, _, _, _ => s

/-- The word of a register as it reads: its RO and RW fields, but for those of absent features. -/
def State.regValue (s : State) (a : Nat) : Nat :=
  match adcEntryAt a with
  | some (n, e) => s.tab ADC.list n e
  | none => readFields ((layoutAt a).filter fun l => !s.fieldAbsent l) a s.view

/-- The read of a whole register by a master. -/
def State.regRead (s : State) (m : Master) (a : Nat) : State × BusAns :=
  match pairAt a, pairAt (a - 4) with
  | some (p, i), _ =>
    (s, .ok (s.rd (ptrFld m (p.addr.f i)) + s.rd (ptrFld m (p.inc.f i)) * 2 ^ 31))
  | none, some (p, i) => s.pairAccess m p i none
  | none, none => (s.readEffect m a, .ok (s.regValue a))

/-- The register that an address names, through an alias or by itself. -/
def regOf (a : Nat) : Nat :=
  match aliasAt a with
  | some x => x.1
  | none => a - a % 4

/-- An access to a block other than DBG: an absent block or unit first, then a gated one (R41, R42), then the register.
A read through an alias has no effect on the register. -/
def State.blockRead (s : State) (m : Master) (a : Nat) : State × BusAns :=
  match blkAt (regOf a) with
  | none => (s, .busError)
  | some b =>
    if s.absent b || s.unitAbsent (regOf a) then (s.absentHit a, .ok 0)
    else if s.gated b then (s, .busError)
    else
      match aliasAt a with
      | some x => (s, .ok (b2n (bitOf (s.regValue x.1) x.2)))
      | none => s.regRead m a

/-- A 32-bit write to a block other than DBG; none for a bus error. -/
def State.blockWrite (s : State) (m : Master) (a v : Nat) : Option State :=
  match blkAt (regOf a) with
  | none => none
  | some b =>
    if s.absent b || s.unitAbsent (regOf a) then some (s.absentHit a)
    else if s.gated b then none
    else
      match aliasAt a with
      | some x => some (s.writeWord (actsAt x.1) x.1 a (v % 2 * 2 ^ x.2) (2 ^ x.2))
      | none => s.regWrite m a v

/-! The Canvas user window (R47, R359). -/

/-- The bay whose window holds an address; none in the static part. -/
def windowBay (a : Nat) : Option Nat := if a < 0x3D000000 then none else some ((a - 0x3D000000) / 0x300000)

/-- The window answers: the bay is loaded and not held, and its design takes the access, which the spec leaves to it. -/
def State.windowAnswers (s : State) (a : Nat) : Bool :=
  s.dieOn && Config.userAnswers s.free &&
    match windowBay a with
    | none => true
    | some b => !s.flag (CNV.HELD.f b) && s.rd (CNV.BAY_STAT_BSTATE.f b) == 1

/-! The local view of an MFP (R315, R319). -/

/-- Shared memory and its registers. -/
def inShmRegs (a : Nat) : Bool := decide (0x04800000 ≤ a) && decide (a < 0x04800040)

/-- A read of its local view by an MFP. -/
def State.viewRead (s : State) (n a size : Nat) : State × BusAns :=
  if inShm a then (s, .ok (s.bytes (shmKey (a - 0x04000000)) size))
  else if inShmRegs a && !s.hasMfp (a % 0x20 / 4) then (s.absentHit a, if 4 < size then .busError else .ok 0)
  else if inShmRegs a then
    (s, if 4 < size then .busError
      else .ok (bits (readFields SHM.layout (a - a % 4) s.rd) (a % 4 * 8) (8 * size)))
  else if isLocal a then
    match s.localRead n a size with
    | (t, some v) => (t, .ok v)
    | (t, none) => (t, .busError)
  else (s, if 4 < size then .busError else .ok 0)

/-- A write of its local view by an MFP; none for a bus error. -/
def State.viewWrite (s : State) (n a size v : Nat) : Option State :=
  if inShm a then some ((s.setBytes (shmKey (a - 0x04000000)) size v).breakRes n (shmKey (a - 0x04000000)) size)
  else if inImem a || inDmem a || (isLocal a && size == 4) then some (s.localWrite n a size v)
  else if inShmRegs a && !s.hasMfp (a % 0x20 / 4) then some (s.absentHit a)
  else if size == 4 then some s
  else none

/-! The whole of control space, as a master other than a debug port reaches it. -/

/-- An address of the debug block's extent. -/
def inDbg (a : Nat) : Bool := a / 2 ^ 24 == 0x14

/-- DBG_SERIAL and DBG_IDCODE, which every master may read (R529). -/
def openDbg (a : Nat) : Bool := decide (0x14001004 ≤ a) && decide (a < 0x14001010)

/-- A read of control space by a master, through aperture window `w` where it reaches the aperture. -/
def State.ctlRead (s : State) (m : Master) (w : Option (Nat × Nat × Bool)) (a size : Nat) : State × BusAns :=
  if a % size != 0 || !(size == 1 || size == 2 || size == 4 || size == 8) then (s, .busError)
  else if 0x80000000 ≤ a then
    match s.apRead w size with
    | (t, none) => (t, .busError)
    | (t, some none) => (t, .poison)
    | (t, some (some v)) => (t, .ok v)
  else if a < 0x10000000 then
    match m with
    | .mfp n => s.viewRead n a size
    | _ => (s, .busError)
  else if 4 < size || (inDbg a && !openDbg a) then (s, .busError)
  else if 0x3C000000 ≤ a && a < 0x40000000 then
    (s.draw, if s.windowAnswers a then .ok ((Config.userRead s.free).toNat % 2 ^ (8 * size)) else .busError)
  else
    let r := s.blockRead m (a - a % 4)
    match r.2 with
    | .ok v => (r.1, .ok (bits v (a % 4 * 8) (8 * size)))
    | x => (r.1, x)

/-- A write of control space by a master. -/
def State.ctlWrite (s : State) (m : Master) (w : Option (Nat × Nat × Bool)) (a size v : Nat) : State × BusAns :=
  let fin := fun (r : Option State) => match r with
    | none => (s, BusAns.busError)
    | some t => (t, .ok 0)
  if a % size != 0 || !(size == 1 || size == 2 || size == 4 || size == 8) then (s, .busError)
  else if 0x80000000 ≤ a then fin (s.apWrite w size v)
  else if a < 0x10000000 then
    match m with
    | .mfp n => fin (s.viewWrite n a size v)
    | _ => (s, .busError)
  else if size != 4 || inDbg a then (s, .busError)
  else if 0x3C000000 ≤ a && a < 0x40000000 then (s.draw, if s.windowAnswers a then .ok 0 else .busError)
  else fin (s.blockWrite m a (v % 2 ^ 32))

/-! Held accesses (R10, R19, R460). -/

/-- The island that answers an address, beyond the interconnect's own, stands still: for shared memory and the aperture
it is SHM. -/
def State.farStill (s : State) (a : Nat) : Bool :=
  if 0x80000000 ≤ a || inShm a || inShmRegs a then !s.bit CLK.LK.f 1
  else
    match blkAt (regOf a) with
    | none => false
    | some b => !s.absent b && !s.unitAbsent (regOf a) && !s.gated b && !s.islandUp b

/-- The window through which a master's access reaches the aperture. -/
def State.windowOf (s : State) (m : Master) (a : Nat) : Option (Nat × Nat × Bool) :=
  match m with
  | .mfp n => s.apWindow n a
  | .dbgJ => s.apWindow (s.rd (DBG.AP_APMFP.f 0)) a
  | .dbgS => s.apWindow (s.rd (DBG.AP_APMFP.f 1)) a
  | _ => none

/-- An access through the aperture, or a read of a record port, waits for its line. -/
def State.lineStill (s : State) (x : Access) : Bool :=
  match x with
  | .write m a _ => decide (0x80000000 ≤ a) && s.apWaits (s.windowOf m a) 4 true
  | .read m a => (decide (0x80000000 ≤ a) && s.apWaits (s.windowOf m a) 4 false) || s.portWaits a
  | _ => false

/-- What answers an access stands still: its island, or the line of DRAM that it reaches. -/
def State.accessStill (s : State) (x : Access) : Bool := s.farStill x.addr || s.lineStill x

/-- The interconnect stands still for an access, or an earlier access of its master waits. An MFP reaches its local
view by itself. -/
def State.wayWaits (s : State) (x : Access) : Bool :=
  decide (0x10000000 ≤ x.addr) && (!s.bit CLK.LK.f 0 || !(s.heldIn x.queue).isEmpty)

/-- An access cannot be answered now. -/
def State.mustWait (s : State) (x : Access) : Bool := s.dieOn && (s.accessStill x || s.wayWaits x)

end Sys2Proof.Machine
end

