-- ==== Sys2Proof/Machine/Remote.lean ====
section
/-! DEFINITION. The completion of the remote accesses of a flow processor (R318, R332, R336), and a fed bundle (R542).
Log entries 7, 9, 50, 54 and 88. -/

namespace Sys2Proof.Machine

/-- The device is undefined once a present MFP's clock ratio is above 15 (R462). -/
def State.ratioBad (s : State) : Bool := (List.range 8).any fun n => decide (15 < s.rd (CLK.MFP_MULT.f n))

/-- Answer the state after register writes, unless one of them has left the device undefined. -/
def doneClk (s : State) : Out := if s.ratioBad then .fault .clockRatioUndefined else .next s

/-- The value of a load is written to its registers. -/
def MfpCore.remoteValue (c : MfpCore) (r : Remote) (v : Nat) : MfpCore :=
  match r.dest with
  | [d] => c.putReg d (v % 2 ^ 32)
  | [d, e] => (c.putReg d (v % 2 ^ 32)).putReg e (v / 2 ^ 32)
  | _ => c

/-- A remote load ends: its value, or zero and an imprecise exception. -/
def State.remoteLoad (s : State) (n : Nat) (r : Remote) (m : Master) (signed : Bool) : State :=
  let x := s.ctlRead m r.win r.addr r.size
  match x.2 with
  | .ok v =>
    let v := loadExt signed r.size v
    (x.1.updCore n fun c => c.remoteValue r v).dataComparators n false r.addr r.size (some v) true
  | .poison => (x.1.updCore n fun c => c.remoteValue r 0).addImprecise n 10 r.addr false
  | .busError => (x.1.updCore n fun c => c.remoteValue r 0).addImprecise n 9 r.addr false

/-- A remote store ends. -/
def State.remoteStore (s : State) (n : Nat) (r : Remote) (m : Master) : State :=
  let x := s.ctlWrite m r.win r.addr r.size r.data
  if x.2 = .busError then x.1.addImprecise n 9 r.addr true else x.1

/-- SC: the store is made if the reservation that it took along still covers its line. -/
def State.remoteSc (s : State) (n : Nat) (r : Remote) (m : Master) : State :=
  if r.res == some (lockKey n r.addr / 64) then (s.remoteStore n r m).updCore n fun c => c.remoteValue r 1
  else s.updCore n fun c => c.remoteValue r 0

/-- A remote access completes. -/
def State.remoteEnd (s : State) (n : Nat) (r : Remote) (m : Master) : State :=
  match r.kind with
  | .load signed => s.remoteLoad n r m signed
  | .ll => s.remoteLoad n r m false
  | .store => s.remoteStore n r m
  | .sc => s.remoteSc n r m

/-- Access k of the queues, where its turn has come: accesses of the ordered queue complete in program order (R318). -/
def MfpCore.turn (c : MfpCore) (k : Nat) : Option Remote :=
  match c.remotes[k]? with
  | none => none
  | some r => if inAperture r.addr || (c.remotes.take k).all (fun q => inAperture q.addr) then some r else none

/-- Access k of an MFP completes and leaves its queue. -/
def State.remoteStep (s : State) (m : MfpId) (k : Nat) (r : Remote) : State :=
  (s.updCore m fun c => { c with remotes := c.remotes.eraseIdx k }).remoteEnd m r (.mfp m)

/-- A remote access cannot be answered yet: its own island or one on its way stands still, or its line of DRAM waits
(R10, R286, R460). -/
def State.remoteWaits (s : State) (m : MfpId) (r : Remote) : Bool :=
  !s.bit CLK.LK_MFP.f m || (s.dieOn && (s.farStill r.addr || s.wayWaits (.read (.mfp m) r.addr))) ||
    s.apWaits r.win r.size (r.kind == .store || r.kind == .sc)

/-- Access k of an MFP that can complete now. -/
def State.remoteTurn (s : State) (m : MfpId) (k : Nat) : Option Remote :=
  ((s.core m).turn k).filter fun r => !s.remoteWaits m r

def execRemoteLoadReturn (m : MfpId) (k : Fin 24) (s : State) : Out :=
  match s.remoteTurn m k with
  | none => done s
  | some r => if r.kind = .store then done s else doneClk (s.remoteStep m k r)

/-- The store of access k ends with a bus error. -/
def State.storeFails (s : State) (m : MfpId) (r : Remote) : Bool :=
  decide ((s.ctlWrite (.mfp m) r.win r.addr r.size r.data).2 = .busError)

def execRemoteStoreError (m : MfpId) (k : Fin 24) (s : State) : Out :=
  match s.remoteTurn m k with
  | none => done s
  | some r => if r.kind = .store && s.storeFails m r then doneClk (s.remoteStep m k r) else done s

def execRemoteStoreDone (m : MfpId) (k : Fin 24) (s : State) : Out :=
  match s.remoteTurn m k with
  | none => done s
  | some r => if r.kind = .store && !s.storeFails m r then doneClk (s.remoteStep m k r) else done s

/-! Fed bundles (R542). -/

/-- Every remote access outstanding completes, in order. -/
def State.drainRemotes (s : State) (m : MfpId) : Nat → State
  | 0 => s
  | f + 1 =>
    match (s.core m).remotes with
    | [] => s
    | r :: _ => (s.remoteStep m 0 r).drainRemotes m f

/-- The instructions that a fed bundle may not hold. -/
def fedExcluded (w0 : Nat) : Bool :=
  let k := mfpKind (w0 % 2 ^ 31)
  (decide (0x38 ≤ k) && decide (k ≤ 0x3E)) || k == 0x400 || k == 0x200 || k == 0x201 || k == 0x202

/-- FEXC and the cause of a fed bundle. -/
def State.fedResult (s : State) (n cause : Nat) (bad : Bool) : State :=
  (s.setFlag (DBG.FEXC.f n) bad).wr (DBG.M_FSTAT_CAUSE.f n) cause

/-- The fed bundle executes: both slots, every result written and every access complete; the PC and the loop stay. An
access that fails is shown by FEXC and raises nothing. -/
def State.fedRun (s : State) (m : MfpId) (w0 w1 : Nat) : State :=
  let s := s.drainRemotes m 24
  let c := s.core m
  let s := ((s.mfpAny m (w0 % 2 ^ 31) .clean).mfpAny m w1 .clean).drainRemotes m 24
  let d := (s.core m).flush
  let d := d.srNext.foldl (fun c x => c.putSr x.1 x.2) d
  let s := s.setCore m
    { d with idle := 0, target := none, srNext := [], imprecise := c.imprecise }
  match d.imprecise.drop c.imprecise.length with
  | [] => s.fedResult m 0 false
  | i :: _ => s.fedResult m i.cause true

/-- FEED_GO on a halted MFP. -/
def State.feed (s : State) (m : MfpId) : State :=
  if !s.flag (DBG.HALTED.f m) then s
  else
    let w0 := s.rd (DBG.M_FEED_LO.f m)
    let w1 := s.rd (DBG.M_FEED_HI.f m)
    if fedExcluded w0 then s.fedResult m 2 true
    else
      match s.bundleCause m w0 w1 with
      | some (cause, _) => s.fedResult m cause true
      | none => s.fedRun m w0 w1

/-- FEED_GO through a port. -/
def State.dbgFeed (s : State) (p : DbgPort) (m : MfpId) : State := s.runControl p 2 m fun s => s.feed m

def execFeedGo (p : DbgPort) (m : MfpId) (s : State) : Out :=
  doneClk (s.portWrite p (DBG.FEED_GO.f m).addr (2 ^ 11) fun s => s.dbgFeed p m)

end Sys2Proof.Machine
end

