-- ==== Sys2Proof/Machine/DbgBus.lean ====
section
/-! DEFINITION. The debug block as its ports reach it (R529 to R548), the debug access master (R537), and the accesses
of every master to the whole of control space (R34, R40, R42). Log entry 58. -/

namespace Sys2Proof.Machine

/-! Rights (R532). -/

/-- The register lies within the rights of level 0: word 0x000 and the authentication registers. -/
def level0Reg (a : Nat) : Bool := a == 0x14000000 || (decide (0x14001000 ≤ a) && decide (a < 0x14001054))

/-- The level that an access needs. -/
def needLevel (a : Nat) (wr : Bool) : Nat := if level0Reg (regOf a) then 0 else if wr then 2 else 1

/-! The flag page (R547). -/

/-- A write of word 0x000: SIDEFX can be set at level 3 only. -/
def State.dbgWord0 (s : State) (p : DbgPort) (v mask : Nat) : State :=
  let x := v &&& mask
  if bitOf x 11 && s.level p < 3 then s.deny p
  else
    let s := if bitOf mask 11 then s.setFlag (DBG.SIDEFX.f (portIdx p)) (bitOf x 11) else s
    let s := if bitOf x 8 then s.chalGo p else s
    let s := if bitOf x 9 then s.authGo p else s
    if bitOf x 10 then s.dbgEnd p else s

/-- A write of the flag word of an MFP: one outside the port's rights has no effect at all. -/
def State.dbgMfpWord (s : State) (p : DbgPort) (m : MfpId) (v mask : Nat) : State :=
  let x := v &&& mask
  if (bitOf x 12 && s.level p < 3) || ((bitOf x 8 || bits x 10 3 != 0) && s.ownedByOther p m) then s.deny p
  else
    let s := if bitOf mask 13 then s.setFlag (DBG.STEPINT.f m) (bitOf x 13) else s
    let s := if bitOf x 8 then s.dbgHalt p m else s
    let s := if bitOf x 9 then s.dbgResume p m else s
    let s := if bitOf x 10 then s.dbgStep p m else s
    let s := if bitOf x 11 then s.dbgFeed p m else s
    if bitOf x 12 then s.dbgReset p m else s

/-! Registers (R548). -/

/-- The address in the layout of a register that each port has for itself. -/
def bankAddr (p : DbgPort) (a : Nat) : Nat :=
  if a = 0x14000000 || a = 0x14001000 || a = 0x14001054 || (0x14001010 ≤ a && a < 0x14001050) then
    a + portIdx p * 2 ^ 40
  else a

/-- A debug register as a port reads it. -/
def State.dbgValue (s : State) (p : DbgPort) (a : Nat) : Nat :=
  readFields DBG.layout (bankAddr p a) fun f =>
    match DBG.OTHER.idx? f.addr with
    | some x => if f.lsb = DBG.OTHER.lsb then b2n (s.ownedByOther p x.1) else s.rd f
    | none => s.rd f

/-- The MFP and offset of a register of the run-control block. -/
def mBlock (a : Nat) : Option (Fin 8 × Nat) :=
  if h : 0x14002000 ≤ a ∧ a < 0x14002800 then some (⟨(a - 0x14002000) / 0x100, by omega⟩, (a - 0x14002000) % 0x100) else none

/-- The MFP whose flag word lies at an address. -/
def mWord (a : Nat) : Option (Fin 8) :=
  if h : 0x14000010 ≤ a ∧ a < 0x14000030 then some ⟨(a - 0x14000010) / 4, by omega⟩ else none

/-- A write of DBG_Mn_HGRP: bits of absent MFPs are not stored, and set the capture (R42). -/
def State.writeHgrp (s : State) (m a v : Nat) : State :=
  let s := if s.absentMfps v = 0 then s else s.absentHit a
  s.wr (DBG.M_HGRP.f m) (v - s.absentMfps v)

/-- A write of DBG_AP: a value that names an absent MFP is not stored, and sets the capture (R42). -/
def State.writeAp (s : State) (p : DbgPort) (a v : Nat) : State :=
  if s.hasMfp (v % 8) then s.wr (DBG.AP_APMFP.f (portIdx p)) v else s.absentHit a

/-- A write of a register of the run-control block: a comparator, a halt group and the context have an owner (R546). -/
def State.dbgMWrite (s : State) (p : DbgPort) (m : MfpId) (off a v : Nat) : Option State :=
  if off = 0x1C then (s.regAccess p m (some v)).map fun r => r.1
  else if off = 0x18 then
    some ((s.wr (dbgPtr p (DBG.M_REG_IADDR_ADDR.f m)) v).wr (dbgPtr p (DBG.M_REG_IADDR_INC.f m)) (v / 2 ^ 31))
  else if off = 0x08 then some (s.owning p m fun s => s.writeHgrp m a v)
  else if 0x40 ≤ off then some (s.owning p m fun s => s.writeFields DBG.layout a v)
  else some (s.writeFields DBG.layout a v)

/-! The mirrors (R537). -/

/-- The MFP and offset of an address in a mirror. -/
def mirrorAt (a : Nat) : Option (Nat × Nat) :=
  if 0x14900000 ≤ a then some ((a - 0x14900000) / 0xE0000, (a - 0x14900000) % 0xE0000) else none

/-- A word read of a mirror: MFP_CYC_LO latches the port's own copy of the high word. -/
def State.mirrorRead (s : State) (p : DbgPort) (n off : Nat) : State × Nat :=
  if off < 0x40000 then (s, s.bytes (mfpKey n (0x01000000 + off)) 4)
  else if off < 0xC0000 then (s, s.bytes (mfpKey n (0x02000000 + (off - 0x40000))) 4)
  else if off = 0xC1014 then
    (s.wr (DBG.CYC_HI.f (portIdx p) n) (s.rd (MFP.CYC.f n) / 2 ^ 32), s.mfpRegWord n 0x1014)
  else if off = 0xC1018 then (s, s.rd (DBG.CYC_HI.f (portIdx p) n))
  else if off < 0xD0000 then (s, s.mfpRegWord n (off - 0xC0000))
  else (s, 0)

def State.mirrorWrite (s : State) (n off v : Nat) : State :=
  if off < 0x40000 then s.localStore n (0x01000000 + off) 4 v
  else if off < 0xC0000 then s.dmemPort n (off - 0x40000) v
  else if off < 0xD0000 then s.mfpRegWrite n (off - 0xC0000) v
  else s

/-! The block as a port reaches it. -/

/-- A word read of the debug block by a port. -/
def State.dbgRead (s : State) (p : DbgPort) (a : Nat) : State × BusAns :=
  match mirrorAt a, aliasAt a, mBlock a with
  | some (n, off), _, _ =>
    let r := s.mirrorRead p n off
    (r.1, .ok r.2)
  | none, some x, _ => (s, .ok (b2n (bitOf (s.dbgValue p x.1) x.2)))
  | none, none, some (m, off) =>
    if off = 0x1C then
      match s.regAccess p m none with
      | none => (s, .busError)
      | some r => (r.1, .ok r.2)
    else if off = 0x18 then
      (s, .ok (s.rd (dbgPtr p (DBG.M_REG_IADDR_ADDR.f m)) + s.rd (dbgPtr p (DBG.M_REG_IADDR_INC.f m)) * 2 ^ 31))
    else (s, .ok (s.dbgValue p a))
  | none, none, none => (s, .ok (s.dbgValue p a))

/-- A write of the bits in `mask` of a word of the debug block that is not in a mirror. -/
def State.dbgRegWrite (s : State) (p : DbgPort) (a v mask : Nat) : Option State :=
  match mWord a, mBlock a with
  | some m, _ => some (s.dbgMfpWord p m v mask)
  | none, some (m, off) => s.dbgMWrite p m off a v
  | none, none =>
    some (if a = 0x14000000 then s.dbgWord0 p v mask
    else if a = 0x14001054 then s.writeAp p a v
    else s.writeFields DBG.layout (bankAddr p a) v)

/-- A word write of the debug block by a port; none for a bus error. -/
def State.dbgWrite (s : State) (p : DbgPort) (a v : Nat) : Option State :=
  match mirrorAt a, aliasAt a with
  | some (n, off), _ => some (s.mirrorWrite n off v)
  | none, some x => s.dbgRegWrite p x.1 (v % 2 * 2 ^ x.2) (2 ^ x.2)
  | none, none => s.dbgRegWrite p a v (2 ^ 32 - 1)

/-- An access to the debug block by a port. -/
def State.dbgBlock (s : State) (p : DbgPort) (a size : Nat) (v : Option Nat) : State × BusAns :=
  if a % size != 0 || 4 < size || (v.isSome && size != 4) || s.gated .dbg then (s, .busError)
  else if s.unitAbsent (regOf a) then (s.absentHit a, .ok 0)
  else
    match v with
    | none =>
      let r := s.dbgRead p (a - a % 4)
      match r.2 with
      | .ok v => (r.1, .ok (bits v (a % 4 * 8) (8 * size)))
      | x => (r.1, x)
    | some v =>
      match s.dbgWrite p a v with
      | none => (s, .busError)
      | some t => (t, .ok 0)

/-- An access by the debug access master: DENIED outside the port's rights; aperture accesses use the windows of the
MFP in DBG_AP, and a load of poison there ends as a bus error. -/
def State.dbgAccess (s : State) (p : DbgPort) (a size : Nat) (v : Option Nat) : State × BusAns :=
  let s := s.setFlag (DBG.DENIED.f (portIdx p)) false
  if s.level p < needLevel a v.isSome then (s.deny p, .busError)
  else if inDbg a then s.dbgBlock p a size v
  else
    let w := s.apWindow (s.rd (DBG.AP_APMFP.f (portIdx p))) a
    match v with
    | none =>
      let r := s.ctlRead (portMaster p) w a size
      (r.1, if r.2 = .poison then .busError else r.2)
    | some v => s.ctlWrite (portMaster p) w a size v

/-! Every master. -/

/-- A read of control space by a master. -/
def State.busRead (s : State) (m : Master) (a size : Nat) : State × BusAns :=
  match m with
  | .dbgJ => s.dbgAccess .j a size none
  | .dbgS => s.dbgAccess .s a size none
  | .mfp n => s.ctlRead m (s.apWindow n a) a size
  | _ => s.ctlRead m none a size

/-- A write of control space by a master. -/
def State.busWrite (s : State) (m : Master) (a size v : Nat) : State × BusAns :=
  match m with
  | .dbgJ => s.dbgAccess .j a size (some v)
  | .dbgS => s.dbgAccess .s a size (some v)
  | .mfp n => s.ctlWrite m (s.apWindow n a) a size v
  | _ => s.ctlWrite m none a size v

/-! Turns of the interconnect and held accesses (R10, R19, R460). -/

/-- A read by a master, whose value it answers. -/
def State.readAnswer (s : State) (m : Master) (a : Nat) : State :=
  let r := s.busRead m a 4
  match r.2 with
  | .ok x => r.1.answer x
  | _ => r.1

/-- The effect of an access that names no master: nothing on a gated block, the capture on an absent one. -/
def State.setEffect (s : State) (a : Nat) (f : State → State) : State :=
  match blkAt (regOf a) with
  | none => s
  | some b => if s.absent b || s.unitAbsent (regOf a) then s.absentHit a else if s.gated b then s else f s

/-- An access is answered. -/
def State.serve (s : State) (x : Access) : State :=
  match x with
  | .write m a v =>
    let r := s.busWrite m a 4 v
    if m == .cfg && r.2 == .busError then r.1.setFlag CFG.PAIR_ERR.f true else r.1
  | .read m a => s.readAnswer m a
  | .set a v mask =>
    s.setEffect a fun s =>
      if mask = 2 ^ 32 - 1 then (s.regWrite .cfg a v).getD s else s.writeWord (actsAt a) a a v mask
  | .timing r v =>
    s.setEffect x.addr fun s =>
      match r with
      | .sq w => s.writeSq w v
      | .tile t a => s.writeT t a v
      | .plane => s.writePlane v
  | .casc on reach => s.setEffect x.addr fun s => s.writeCascEn on reach
  | .prbs w on errs => s.setEffect x.addr fun s => s.prbsEffect w on errs

/-- The turn of a master: its oldest held access is answered, if what answers it runs. -/
def State.serveOne (s : State) (k : Nat) : State :=
  match s.heldIn k with
  | [] => s
  | x :: r => if s.accessStill x then s else (s.withHeld (s.held.set k r [])).serve x

/-- A round of the interconnect: one access of every master (R19). -/
def State.serveTurn (s : State) : State := if s.bit CLK.LK.f 0 then s.forUpTo 13 State.serveOne else s

/-- The most accesses that a master has waiting. -/
def State.heldMost (s : State) : Nat := s.held.foldl (fun n e => max n e.2.length) 0

/-- Rounds until nothing that could be answered waits. -/
def State.serveHeld (s : State) : State := s.forUpTo s.heldMost fun s _ => s.serveTurn

/-- An access of a master: it waits, or it is answered. -/
def State.access (s : State) (x : Access) : State := if s.mustWait x then s.hold x else s.serve x

def execRegisterWrite (m : Master) (addr : Word) (v : Word) (s : State) : Out :=
  doneClk (s.access (.write m addr.toNat v.toNat))

def execAbsentRel (s : State) : Out :=
  done (s.reach (SYS.ABSENT_REL.f.sets 1) .sys fun s => s.writeWord actsSys SYS.HIT.f.addr SYS.HIT.f.addr 2 2)

/-- The address is an IDATA register, in front of which its pointer lies. -/
def isIdata (a : Nat) : Bool := (pairAt (a - 4)).isSome || (mBlock a).any fun x => x.2 == 0x1C

def execIndirectDataAccess (m : Master) (addr : Word) (v : Option Word) (s : State) : Out :=
  if !isIdata addr.toNat then done s
  else
    match v with
    | some x => doneClk (s.access (.write m addr.toNat x.toNat))
    | none => doneClk (s.access (.read m addr.toNat))

/-- The access that DBGACC has started. -/
def State.tapStarted (s : State) : Access :=
  if s.flag DBG.TAP_WR.f then .write .dbgJ (s.rd DBG.TAP_AT.f) (s.rd DBG.TAP_DATA.f) else .read .dbgJ (s.rd DBG.TAP_AT.f)

/-- The access that DBGACC has started completes, once nothing holds it: its status, and the data of a read. -/
def execDbgaccDone (s : State) : Out :=
  if s.rd DBG.TAP_STAT.f != 1 || s.mustWait s.tapStarted then done s
  else
    let wr := s.flag DBG.TAP_WR.f
    let r := s.dbgAccess .j (s.rd DBG.TAP_AT.f) 4 (if wr then some (s.rd DBG.TAP_DATA.f) else none)
    let t := r.1
    doneClk (if t.flag (DBG.DENIED.f 0) then t.wr DBG.TAP_STAT.f 3
    else
      match r.2 with
      | .ok v => (if wr then t else t.wr DBG.TAP_DATA.f v).wr DBG.TAP_STAT.f 0
      | _ => t.wr DBG.TAP_STAT.f 2)

end Sys2Proof.Machine
end

