-- ==== Sys2Proof/Machine/Load.lean ====
section
/-! DEFINITION. Loading a configuration image and the start-up order (R376 to R389), and the restore of the ledger at a
cold start (R517). Log entries 82, 83 and 84. -/

namespace Sys2Proof.Machine

/-! The cold start (R381, R517). -/

/-- The words of a block over which its CRC runs, and its CRC. -/
def blockVerifies (b : LedgerBlock) : Bool :=
  crc32 (((List.range 16384).filter fun w => w != 15).flatMap fun w => natBytes (b.words.getD w 0).toNat 4) ==
    (b.words.getD 15 0).toNat

/-- SEQ of a block. -/
def blockSeq (b : LedgerBlock) : Nat := (b.words.getD 1 0).toNat

/-- Of two verified blocks the one that is restored: the later in serial order, or in a tie the lower one. -/
def laterBlock (a b : LedgerBlock) : LedgerBlock :=
  if seqBefore (blockSeq a) (blockSeq b) then b
  else if seqBefore (blockSeq b) (blockSeq a) then a
  else if b.blk < a.blk then b else a

/-- The block that a restore takes. -/
def latestBlock (l : List LedgerBlock) : Option LedgerBlock :=
  match l.filter blockVerifies with
  | [] => none
  | b :: r => some (r.foldl laterBlock b)

/-- MAGIC of the ledger (R515). -/
def ledgerMagic : Nat := 0x4C444752

/-- The words of a restored block; with none, zeros. -/
def State.ledgerLoad (s : State) (w : Nat → Nat) : State := s.forUpTo 16384 fun s i => s.setTab LDG.sram 0 i (w i)

/-- The SRAM as it stands, the latest block that verifies, or a new ledger; `head` is the slot of the latest self-test
record of a restored block, if it holds any. -/
def State.ledgerRestore (s : State) (l : List LedgerBlock) (head : Option (Fin 16)) : State :=
  if s.tab LDG.sram 0 0 = ledgerMagic then s
  else
    match latestBlock l with
    | none =>
      let s := ((s.ledgerLoad fun _ => 0).setTab LDG.sram 0 0 ledgerMagic).setFlag LDG.FRESH.f true
      (s.wr LDG.BST_HEAD.f 0).setFlag LDG.BST_ANY.f false
    | some b =>
      let s := ((s.ledgerLoad fun i => (b.words.getD i 0).toNat).setFlag LDG.FRESH.f false).wr LDG.FLUSH_BLK.f b.blk
      match head with
      | none => (s.wr LDG.BST_HEAD.f 0).setFlag LDG.BST_ANY.f false
      | some h => (s.wr LDG.BST_HEAD.f h).setFlag LDG.BST_ANY.f true

/-- The straps and fuses are read. -/
def State.readFuses (s : State) (master authOnly : Bool) (mac serial : Nat) : State :=
  let s := (s.setFlag CFG.MASTER.f master).setFlag CFG.FUSE_AUTH_ONLY.f authOnly
  let s := (s.wr ETH.MAC_LO.f mac).wr ETH.MAC_HI.f (mac / 2 ^ 32)
  (s.wr DBG.SERIAL_LO.f serial).wr DBG.SERIAL_HI.f (serial / 2 ^ 32)

def execColdStart (master : Bool) (authOnly : Bool) (mac : BitVec 48) (serial : BitVec 64) (ledger : List LedgerBlock)
    (head : Option (Fin 16)) (s : State) : Out :=
  done (if s.flag PWR.VAON.f then
    ((s.readFuses master authOnly mac.toNat serial.toNat).setFlag PWR.EN_MAIN.f true).ledgerRestore ledger head |>.coldStart
  else s)

/-! Failure (R382). -/

/-- The failure is captured, if the capture is empty. -/
def State.cfgCapture (s : State) (cause slot seg : Nat) : State :=
  if s.flag CFG.FAIL_FULL.f then s
  else (((s.setFlag CFG.FAIL_FULL.f true).wr CFG.FAIL_CAP_CAUSE.f cause).wr CFG.FAIL_CAP_SLOT.f slot).wr
    CFG.FAIL_CAP_SEG.f seg

/-- The key of a byte of the fabric or of the IMEM or DMEM of an MFP. -/
def loadedByte (key : Nat) : Bool :=
  (decide (2 ^ 47 ≤ key) && decide (key < 2 ^ 48)) || (decide (2 ^ 46 ≤ key) && decide (key < 2 ^ 46 + 8 * 2 ^ 28))

/-- Configuration memory, IMEM and DMEM are cleared, and the staged pairs and all that the stream has brought
discarded. -/
def State.clearLoad (s : State) : State :=
  let s := { s with
    mem := s.mem.filter fun c => !loadedByte c.1
    tabs := s.tabs.filter fun e => !([31, 32, 33, 42].contains (e.1 / 2 ^ 48)) }
  ((s.wr CFG.POS.f 0).wr CFG.CRC.f 0xFFFFFFFF).wr CFG.SEGS.f 0 |>.wr CFG.PAIRS.f 0

/-- The load ends in SAFEHOLD: nothing is in force, the outputs and the MFPs are held, and DONE stays low. -/
def State.loadDead (s : State) : State :=
  let s := s.clearLoad.withCores []
  let s := s.forUpTo 16 fun s b => (s.wr (CNV.BAY_STAT_BSTATE.f b) 0).setFlag (CNV.HALF.f b) false
  let s := ((s.setFlag CNV.DRVRST.f true).setFlag CNV.FROZEN.f true).setFlag VLV.OUT_HELD.f true
  (((s.setFlag CFG.DONE_DRV.f true).setFlag CFG.DONE_IN.f false).wr CFG.STATE_SLOT.f 3).safehold.settleHeld

/-- The slot being tried; 3: none. -/
def State.slotTried (s : State) : Nat := s.rd (CFG.ORD.f (s.rd CFG.TRY.f))

/-- A failure at steps 2 to 5: the next slot is tried, if there is one. -/
def State.loadFail (s : State) (cause seg : Nat) : State :=
  let s := s.cfgCapture cause s.slotTried seg
  let k := s.rd CFG.TRY.f + 1
  if k < 3 && s.rd (CFG.ORD.f k) != 3 then (s.clearLoad.wr CFG.TRY.f k).wr CFG.STATE_STEP.f 3 else s.loadDead

/-- A failure at step 6 or later. -/
def State.loadStop (s : State) (cause : Nat) : State := (s.cfgCapture cause s.slotTried 0).loadDead

/-! The slot directory (R377). -/

/-- Two ranges of blocks, as (start, length), have no block in common. -/
def apart (a b : Nat × Nat) : Bool := a.2 == 0 || b.2 == 0 || decide (a.1 + a.2 ≤ b.1) || decide (b.1 + b.2 ≤ a.1)

/-- Every two ranges of a list are apart. -/
def allApart : List (Nat × Nat) → Bool
  | [] => true
  | a :: r => r.all (apart a) && allApart r

/-- The slots of a directory copy in the order in which they are tried. -/
def dirOrder (w : Nat → Nat) : List Nat := [bits (w 2) 0 2, bits (w 2) 2 2, bits (w 2) 4 2].take (bits (w 2) 6 2)

/-- The ranges of the flash that a directory copy names, and the two directory blocks. -/
def dirRanges (w : Nat → Nat) : List (Nat × Nat) := [(0, 1), (1, 1), (w 9, 64), (w 3, w 4), (w 5, w 6), (w 7, w 8)]

/-- A copy of the directory is valid; slot 3 names no slot. -/
def dirValid (w : Nat → Nat) : Bool :=
  w 0 == 0x52445852 && w 15 == crc32 ((List.range 15).flatMap fun i => natBytes (w i) 4) &&
    !(dirOrder w).isEmpty && !(dirOrder w).contains 3 && allApart (dirRanges w)

/-- The copy that is used. -/
def dirChoose (a b : Nat → Nat) : Option (Nat → Nat) :=
  match dirValid a, dirValid b with
  | true, true => some (if seqBefore (a 1) (b 1) then b else a)
  | true, false => some a
  | false, true => some b
  | false, false => none

/-- The slots that this start tries: directory order, or the slot that CFG_NEXT names and those after it in that order.
-/
def State.slotsToTry (s : State) (order : List Nat) : List Nat :=
  let n := s.rd CFG.NEXT_SLOT.f
  if s.rd CFG.STATE_START.f = 0 || n = 3 then order else n :: (order.dropWhile fun x => x != n).drop 1

/-- A word of a list read from flash. -/
def wordOf (l : List Word) (i : Nat) : Nat := (l.getD i 0).toNat

/-- Step 2: the flash answers, and a copy of the directory is chosen. -/
def State.readDirectory (s : State) (id mib : Nat) (a b : List Word) : State :=
  let s := (s.wr CFG.FL_ID.f id).wr CFG.FL_SIZE.f mib
  match dirChoose (wordOf a) (wordOf b) with
  | none => ((s.setFlag CFG.DIR_OK.f false).cfgCapture 1 3 0).loadDead
  | some w =>
    let s := (s.forUpTo 16 fun s i => s.setTab CFG.dirw 0 i (w i)).setFlag CFG.DIR_OK.f true
    let l := s.slotsToTry (dirOrder w)
    ((s.forUpTo 3 fun s i => s.wr (CFG.ORD.f i) (l.getD i 3)).wr CFG.TRY.f 0).wr CFG.STATE_STEP.f 3

/-! The header (R378, R381 step 3). -/

/-- The phases that a standalone device or a master carries out, from a header's ORDER. -/
def orderCodes (w : Nat → Nat) : List Nat := (List.range 4).map fun i => bits (w 6) (2 * i) 2

/-- ORDER holds each code exactly once. -/
def orderOk (w : Nat → Nat) : Bool := (List.range 4).all fun c => (orderCodes w).contains c

/-- The capacity of a slot in bytes. -/
def State.slotBytes (s : State) (k : Nat) : Nat := s.tab CFG.dirw 0 (4 + 2 * k) * 65536

/-- The check that a header fails, if any. A member ignores ORDER (R384). -/
def State.headerFault (s : State) (w : Nat → Nat) : Option Nat :=
  if !(headerFits w && w 0 % 32 == 31 && (orderOk w || !s.flag CFG.MASTER.f)) then some 2
  else if (w 4) &&& (s.sysCap ^^^ 0xFFFFFFFF) != 0 then some 3
  else if s.flag CFG.FUSE_AUTH_ONLY.f && !headerTag w then some 9
  else if s.slotBytes s.slotTried < streamBytes (w 5) then some 8
  else if !keyUnwraps w then some 4
  else none

/-- Step 3: the header of the slot being tried. -/
def State.readHeader (s : State) (w : Nat → Nat) : State :=
  match s.headerFault w with
  | some c => s.loadFail c 0
  | none => (s.forUpTo 64 fun s i => s.setTab CFG.hdr 0 i (w i)).wr CFG.STATE_STEP.f 4

/-! Segments and records (R379, R380). -/

/-- The header, PAY_LEN and CHECK of the image being loaded. -/
def State.imageHdr (s : State) (i : Nat) : Nat := s.tab CFG.hdr 0 i
def State.payLen (s : State) : Nat := s.imageHdr 5
def State.tagMode (s : State) : Bool := headerTag s.imageHdr

/-- The segment that the stream has reached. -/
def State.segAt (s : State) : Nat := s.rd CFG.POS.f / 65520

/-- Payload word `i`, and byte `i`, of the image. -/
def State.payWord (s : State) (i : Nat) : Nat := s.tab CFG.pay 0 i
def State.payByte (s : State) (i : Nat) : Nat := s.payWord (i / 4) / 256 ^ (i % 4) % 256

/-- The payload bytes that have arrived. -/
def State.arrived (s : State) : Nat := min s.payLen (65520 * s.rd CFG.SEGS.f)

/-- The payload of segment `i` is kept. -/
def State.keepPayload (s : State) (i : Nat) (l : List Nat) : State :=
  s.forUpTo ((l.length + 3) / 4) fun s k =>
    s.setTab CFG.pay 0 (16380 * i + k) ((List.range 4).foldl (fun v b => v + l.getD (4 * k + b) 0 * 256 ^ b) 0)

/-- A segment has been read, as it is stored: in tag mode its tag is checked (R379, R381 step 4). -/
def State.readSegment (s : State) (ws : List Word) : State :=
  let i := s.rd CFG.SEGS.f
  let n := segBytes s.payLen i
  let l := leBytes (ws.map BitVec.toNat)
  let tag := ofBe ((List.range 16).map fun k => l.getD (n + k) 0)
  if segmentsOf s.payLen ≤ i then s
  else if s.tagMode && tag != segTag s.imageHdr i (s.rd CFG.SEG_TAG.f) (l.take n) then s.loadFail 5 i
  else ((s.keepPayload i (segPayload s.imageHdr i (l.take n))).wr CFG.SEG_TAG.f tag).inc CFG.SEGS.f

/-- The record at the place that the stream has reached is malformed: its head, its length, or an MFP number above 7
(R380). -/
def State.recordBad (s : State) : Bool :=
  let p := s.rd CFG.POS.f
  let typ := s.payWord (p / 4)
  let len := s.payWord (p / 4 + 1)
  (decide (s.payLen < p + 8) && s.arrived == s.payLen) ||
    (decide (p + 8 ≤ s.arrived) && (!recordLenOk typ len || decide (s.payLen < p + 8 + len))) ||
    (decide (p + 16 ≤ s.arrived) && typ == 2 && !frameCountOk (s.payWord (p / 4 + 3)) len) ||
    (decide (p + 12 ≤ s.arrived) && (typ == 3 || typ == 4) && decide (7 < s.payWord (p / 4 + 2)))

def execSegmentRead (r : FlashRead) (s : State) : Out :=
  let step := s.rd CFG.STATE_STEP.f
  done (if !s.dieOn || !s.loadReads then s
  else
    match r with
    | .noAnswer => s.loadFail 8 s.segAt
    | .directory id mib a b => if step = 2 then s.readDirectory id.toNat mib.toNat a b else s
    | .header w => if step = 3 then s.readHeader (wordOf w) else s
    | .segment ws => if step = 4 then s.readSegment ws else s
    | .malformed => if step = 4 && s.recordBad then s.loadFail 7 s.segAt else s)

/-- The CRC-32 register after more bytes. -/
def crcFeed (c : Nat) (bs : List Nat) : Nat := bs.foldl (fun c b => (List.range 8).foldl (fun c _ => crcBit c) (c ^^^ b)) c

/-- The two words that begin a record. -/
def recordHead (typ len : Nat) : List Nat := natBytes typ 4 ++ natBytes len 4

/-- The payload from a place on, as far as it has arrived, begins with these bytes. -/
def State.paySpells (s : State) : Nat → List Nat → Bool
  | _, [] => true
  | p, b :: r => decide (p < s.arrived) && s.payByte p == b && s.paySpells (p + 1) r

/-- The next record of the payload is the one of these bytes, and the stream waits for it. -/
def State.recordNext (s : State) (bs : List Nat) : Bool :=
  s.dieOn && s.rd CFG.STATE_STEP.f == 4 && s.paySpells (s.rd CFG.POS.f) bs

/-- A record of the payload: `f` is its effect, none where it is malformed. -/
def State.takeRecord (s : State) (typ : Nat) (body : List Nat) (f : State → Option State) : State :=
  let bs := recordHead typ body.length ++ body
  if !s.recordNext bs then s
  else
    match f s with
    | none => s.loadFail 7 s.segAt
    | some t => (t.wr CFG.CRC.f (crcFeed (s.rd CFG.CRC.f) bs)).wr CFG.POS.f (s.rd CFG.POS.f + bs.length)

/-- The bytes of words. -/
def wordsBytes (l : List Word) : List Nat := leBytes (l.map BitVec.toNat)

/-- An address that a WRITE pair may name. -/
def pairAddrOk (a : Nat) : Bool :=
  a % 4 == 0 && decide (0x10000000 ≤ a) && decide (a < 0x80000000) && !(decide (0x3C000000 ≤ a) && decide (a < 0x40000000))

/-- A pair is staged. -/
def State.stagePair (s : State) (p : Word × Word) : State :=
  let n := s.rd CFG.PAIRS.f
  ((s.setTab CFG.staged 0 (2 * n) p.1.toNat).setTab CFG.staged 0 (2 * n + 1) p.2.toNat).wr CFG.PAIRS.f (n + 1)

def execWriteRecord (pairs : List (Word × Word)) (s : State) : Out :=
  done (s.takeRecord 1 (wordsBytes (pairs.flatMap fun p => [p.1, p.2])) fun s =>
    if pairs.all (fun p => pairAddrOk p.1.toNat) && decide (s.rd CFG.PAIRS.f + pairs.length ≤ 8192) then
      some (pairs.foldl State.stagePair s)
    else none)

/-- The frames of a FRAMES record, from one frame address on; none where one lies outside its region or has been
written. -/
def State.takeFrames (s : State) (a : Nat) : List (BitVec 3072) → Option State
  | [] => some s
  | d :: r =>
    match frameOf a with
    | none => none
    | some (g, f) =>
      if s.tab CFG.seen g f != 0 then none
      else ((s.fabricWrite g f d.toNat).setTab CFG.seen g f 1).takeFrames (a + 1) r

def execFrames (addr : BitVec 32) (frames : List (BitVec 3072)) (s : State) : Out :=
  done (s.takeRecord 2
    (natBytes addr.toNat 4 ++ natBytes frames.length 4 ++ frames.flatMap fun d => natBytes d.toNat 384) fun s =>
    if frames.isEmpty || 2 ^ 24 < bits addr.toNat 0 24 + frames.length then none else s.takeFrames addr.toNat frames)

/-- The data of an IMEM or DMEM record go to a memory of `size` bytes at `base`; that of an absent MFP is ignored. -/
def State.takeMfp (s : State) (m : MfpId) (base size al off : Nat) (data : List Word) : Option State :=
  if off % al != 0 || size < off + 4 * data.length then none
  else if !s.hasMfp m then some s
  else some (s.storeList (mfpKey m (base + off)) (data.flatMap fun w => wordBytes w.toNat 4))

def execImem (m : MfpId) (off : Word) (data : List Word) (s : State) : Out :=
  done (s.takeRecord 3 (natBytes m 4 ++ wordsBytes (off :: data)) fun s =>
    s.takeMfp m 0x01000000 0x40000 8 off.toNat data)

def execDmem (m : MfpId) (off : Word) (data : List Word) (s : State) : Out :=
  done (s.takeRecord 4 (natBytes m 4 ++ wordsBytes (off :: data)) fun s =>
    s.takeMfp m 0x02000000 0x80000 4 off.toNat data)

/-! The end of the stream (R381 steps 5 and 6). -/

/-- The image has written this region. -/
def State.regionSeen (s : State) (r : Nat) : Bool := !(s.listed CFG.seen r).isEmpty

/-- Every frame of the static region, and of each bay that the image writes, has been written. -/
def State.complete (s : State) : Bool :=
  (s.listed CFG.seen 16).length == regionTotal 16 &&
    (List.range 16).all fun b => !s.regionSeen b || (s.listed CFG.seen b).length == regionTotal b

/-- Pair `i` as an access of the configuration controller. -/
def State.pairAccessAt (s : State) (i : Nat) : Access :=
  .write .cfg (BitVec.ofNat 32 (s.tab CFG.staged 0 (2 * i))).toNat (s.tab CFG.staged 0 (2 * i + 1))

/-- The staged pairs from pair `i` on are applied in stream order, up to one that ends with a bus error: the state, and
whether none did. A pair whose island stands still waits in the controller's queue, and those after it behind it (R10).
-/
def State.applyPairs (s : State) (i : Nat) : Nat → State × Bool
  | 0 => (s, true)
  | n + 1 =>
    let x := s.pairAccessAt i
    if s.mustWait x then (s.hold x).applyPairs (i + 1) n
    else
      let r := s.busWrite .cfg (s.tab CFG.staged 0 (2 * i)) 4 (s.tab CFG.staged 0 (2 * i + 1))
      if r.2 = .busError then (r.1, false) else r.1.applyPairs (i + 1) n

/-- A pair that waited has ended with a bus error (R382). -/
def State.pairsFailed (s : State) : State :=
  if !s.flag CFG.PAIR_ERR.f then s
  else
    let t := s.setFlag CFG.PAIR_ERR.f false
    if s.flag CFG.BUSY.f && 6 ≤ s.rd CFG.STATE_STEP.f then t.loadStop 12 else t

/-- The rings at the start: a configured bay is open, another held. -/
def State.startBays (s : State) : State :=
  s.forUpTo 16 fun s b =>
    let closed := s.rd (CNV.BAY_STAT_BSTATE.f b) != 1
    (s.setFlag (CNV.HOLD.f b) closed).setFlag (CNV.HELD.f b) closed

/-- Step 6: the pairs are applied, and the SYSTEM area is awaited. -/
def State.applyImage (s : State) : State :=
  let s := s.forUpTo 16 fun s b => s.wr (CNV.BAY_STAT_BSTATE.f b) (b2n (s.regionSeen b))
  let r := (s.startBays.wr CFG.STATE_STEP.f 6).applyPairs 0 (s.rd CFG.PAIRS.f)
  if r.2 then r.1 else r.1.loadStop 12

/-- The END record, with its CRC word; in tag mode once the whole-stream tag has verified. -/
def State.endRecord (s : State) (crc : Nat) : State :=
  let sum := (crcFeed (s.rd CFG.CRC.f) (recordHead 0x0F 4)) ^^^ 0xFFFFFFFF
  if !s.recordNext (recordHead 0x0F 4 ++ natBytes crc 4) || (s.tagMode && s.rd CFG.SEGS.f < segmentsOf s.payLen) then s
  else
    let s := s.wr CFG.STATE_STEP.f 5
    if s.rd CFG.POS.f + 12 != s.payLen then s.loadFail 7 s.segAt
    else if !s.tagMode && crc != sum then s.loadFail 6 s.segAt
    else if !s.complete then s.loadFail 7 s.segAt
    else s.applyImage

def execEndRecord (crc : Word) (s : State) : Out := doneClk (s.endRecord crc.toNat)

/-! The resume copy (R389). -/

/-- The MFPs of the device, which are numbered from 0. -/
def State.mfpCount (s : State) : Nat := ((List.range 8).filter s.hasMfp).length

/-- The key of a byte of the IMEM and DMEM images, in the order in which the resume copy holds them. -/
def imageKey (i : Nat) : Nat :=
  let o := i % 0xC0000
  mfpKey (i / 0xC0000) (if o < 0x40000 then 0x01000000 + o else 0x02000000 + (o - 0x40000))

/-- The bytes of the resume copy: the header, the number of pairs, the pairs, and the images. -/
def State.resumeBytes (s : State) : List Byte :=
  ((List.range 64).flatMap fun i => wordBytes (s.tab CFG.hdr 0 i) 4) ++ wordBytes (s.rd CFG.PAIRS.f) 4 ++
    ((List.range (2 * s.rd CFG.PAIRS.f)).flatMap fun i => wordBytes (s.tab CFG.staged 0 i) 4) ++
    (List.range (s.mfpCount * 0xC0000)).map fun i => s.byte (imageKey i)

/-- The allocations of the previous configuration are deleted, and its resume copy freed. -/
def State.dropGold (s : State) : State :=
  let s := s.forUpTo 17 fun s r =>
    match s.alloc? (s.goldId r) with
    | none => s
    | some a => if a.kind = 6 then s.setAlloc (s.goldId r) { a with st := 5 } else s
  State.freeDeleted (s.withDir (s.dir.filter fun e => e.1 != resumeId))

/-- The configured frames of a region are read back into half 0 of its golden copy. -/
def State.goldFrames (s : State) (r : Nat) : List Nat → Option State
  | [] => some s
  | f :: l =>
    match s.goldWrite r 0 f (s.bytes (fabricKey r f) 384) with
    | none => none
    | some t => t.goldFrames r l

/-- A golden copy is created and named, and filled where the region is configured. -/
def State.newGold (s : State) (r : Nat) : Option State :=
  match s.freeId with
  | none => none
  | some id =>
    match s.draw.newAlloc id 6 3 { id := id, size := 2 ^ 24, kind := 6, key := 0 } with
    | none => none
    | some t =>
      let t := t.wr (if r < 16 then CNV.BAY_GOLD.f r else CNV.STATIC_GOLD.f) id
      t.goldFrames r ((s.listed CFG.seen r).map fun e => e.1)

/-- The golden copies of regions, one after another. -/
def State.newGolds (s : State) : List Nat → Option State
  | [] => some s
  | r :: l =>
    match s.newGold r with
    | none => none
    | some t => t.newGolds l

/-- The resume copy is stored. -/
def State.newResume (s : State) : Option State :=
  (s.newAlloc resumeId 7 3 { id := resumeId, size := s.resumeBytes.length, kind := 7, key := 0 }).bind fun t =>
    (t.alloc? resumeId).map fun a => t.allocWrite a 0 s.resumeBytes

/-- The start-up order begins: DONE is released. -/
def State.beginOrder (s : State) : State :=
  ((((s.setFlag CFG.DONE_DRV.f false).wr CFG.STATE_STEP.f 9).wr CFG.PHASE.f 0).setFlag CFG.DONE_SEEN.f false).wr CFG.PHASE_AT.f s.time

/-- Step 7: the golden and resume copies are complete, or could not be created. -/
def State.goldenBuild (s : State) : State :=
  ((s.dropGold.newGolds (16 :: List.range 16)).bind State.newResume).elim (s.dropGold.loadStop 10) fun t =>
    (t.forUpTo 16 fun s b => s.setFlag (CNV.HALF.f b) false).beginOrder

def execGoldenBuildEnd (s : State) : Out :=
  done (if s.dieOn && s.rd CFG.STATE_STEP.f = 7 && s.flag CFG.BUSY.f && !s.dramHeld then s.goldenBuild else s)

/-- The header and the pairs of the resume copy are taken. -/
def State.resumeHeader (s : State) (a : Alloc) : State :=
  let n := s.allocRead a 256 4
  let s := s.forUpTo 64 fun t i => t.setTab CFG.hdr 0 i (s.allocRead a (4 * i) 4)
  (s.forUpTo (2 * n) fun t i => t.setTab CFG.staged 0 i (s.allocRead a (260 + 4 * i) 4)).wr CFG.PAIRS.f n

/-- IMEM and DMEM are restored from the resume copy. -/
def State.resumeImages (s : State) (a : Alloc) : State :=
  let base := 260 + 8 * s.rd CFG.PAIRS.f
  s.forUpTo (s.mfpCount * 0xC0000) fun t i => t.setByte (imageKey i) (BitVec.ofNat 8 (s.allocRead a (base + i) 1))

/-- A wake resumes from the resume copy, or becomes a warm restart where it returns poison. -/
def State.wakeLoad (s : State) : State :=
  match s.alloc? resumeId with
  | none => s.wakeWarm
  | some a =>
    if s.allocPoison a 0 a.size then s.wakeWarm
    else
      let s := (s.resumeHeader a).startBays
      let r := s.applyPairs 0 (s.rd CFG.PAIRS.f)
      if r.2 then (r.1.resumeImages a).beginOrder else r.1.loadStop 12

/-- SYSTEM_AREA_BUILT, which step 6 awaits: the load goes on to step 7, or a wake resumes. -/
def State.systemAreaBuilt (s : State) : State :=
  if !s.dieOn || s.flag CAL.READY.f || s.rd CFG.STATE_STEP.f != 6 then s
  else
    let s := s.calicoReady
    if s.rd CFG.STATE_START.f = 2 then s.wakeLoad else s.wr CFG.STATE_STEP.f 7

def execSystemAreaBuilt (s : State) : Out := doneClk s.systemAreaBuilt

/-! The start-up order (R384 to R386). -/

/-- The codes of the phases in order: a member ignores ORDER. -/
def State.phases (s : State) : List Nat := if s.flag CFG.MASTER.f then orderCodes (s.tab CFG.hdr 0) else [0, 2, 3, 1]

/-- The start-up order is in progress. -/
def State.inOrder (s : State) : Bool := s.dieOn && s.rd CFG.STATE_STEP.f == 9 && s.flag CFG.BUSY.f

/-- The code of the next phase. -/
def State.nextPhase (s : State) : Nat := s.phases.getD (s.rd CFG.PHASE.f) 0

/-- STEPW in µs, which a member ignores, and LOCK_TO in ms, 0 as 1 (R378, R384). -/
def State.stepWait (s : State) : Nat := if s.flag CFG.MASTER.f then bits (s.tab CFG.hdr 0 6) 8 8 else 0
def State.lockLimit (s : State) : Nat := max 1 (bits (s.tab CFG.hdr 0 6) 16 16)

/-- The wait after the last phase is over. -/
def State.phaseWaited (s : State) : Bool := decide (s.rd CFG.PHASE_AT.f ≤ s.time)

/-- The next phase can be carried out: LOCK once every island is locked, another once DONE has read high. -/
def State.phaseReady (s : State) : Bool :=
  s.phaseWaited && s.rd CFG.PHASE.f < 4 && if s.nextPhase = 0 then s.refIslandsLocked else s.flag CFG.DONE_SEEN.f || s.flag CFG.DONE_IN.f

/-- The action of a phase. -/
def State.phaseAct (s : State) (c : Nat) : State :=
  match c with
  | 0 => s
  | 1 => (s.setFlag VLV.OUT_HELD.f false).leaveAll
  | 2 => (s.setFlag CNV.DRVRST.f false).forUpTo 8 fun s n =>
      if s.hasMfp n then s.updCore n fun c => { c with released := true, pc := c.vbase } else s
  | _ => s.setFlag CNV.FROZEN.f false

/-- The order has finished. -/
def State.orderEnd (s : State) : State :=
  let s := ((s.setFlag CFG.LOADED.f true).setFlag CFG.BUSY.f false).wr CFG.STATE_STEP.f 10
  let s := s.wr CFG.IMG_VER.f (s.tab CFG.hdr 0 7)
  let s := if s.rd CFG.STATE_START.f = 2 then s
    else (s.wr CFG.STATE_SLOT.f s.slotTried).setFlag CFG.FALLBACK.f (s.rd CFG.TRY.f != 0)
  let s := (s.setFlag CNV.SCRUB_EN.f (bitOf (s.tab CFG.hdr 0 1) 10)).wr CFG.LOAD_TIME.f (s.time / 1000)
  (s.pulse 1604).settleHeld

/-- The order ends once its four phases have been carried out and the wait after the last is over (R384, R386). -/
def State.orderSettle (s : State) : State := if s.inOrder && s.rd CFG.PHASE.f = 4 && s.phaseWaited then s.orderEnd else s

/-- The next phase is carried out. -/
def State.phase (s : State) : State :=
  let c := s.nextPhase
  let s := ((s.phaseAct c).inc CFG.PHASE.f).wr CFG.PHASE_AT.f (s.time + 1000 * s.stepWait)
  (if c = 0 then s else s.setFlag CFG.DONE_SEEN.f true).orderSettle

def execStartUpPhase (s : State) : Out := done (if s.inOrder && s.phaseReady then s.phase else s)

/-- DONE reads high: not while the device itself drives it low. -/
def execDoneRise (s : State) : Out := done (if s.flag CFG.DONE_DRV.f then s else s.setFlag CFG.DONE_IN.f true)

def execLockTimeout (s : State) : Out :=
  done (if s.inOrder && s.rd CFG.PHASE.f < 4 && s.nextPhase = 0 && !s.refIslandsLocked &&
      s.rd CFG.PHASE_AT.f + 1000000 * s.lockLimit ≤ s.time then s.loadStop 11
  else s)

/-- What a microsecond brings to a load: a pair that waited may have failed, and the order may end. -/
def State.loadTick (s : State) : State := s.pairsFailed.orderSettle

end Sys2Proof.Machine
end

