-- ==== Sys2Proof/Machine/Slp.lean ====
section
/-! DEFINITION. The host port: Ethernet, PTP, and the Stolron Link Protocol (R430 to R458), with the debug requests of
stream 3 (R536). Log entries 8, 66, 67, 68, 69, 70, 71, 72, 73 and 74. -/

namespace Sys2Proof.Machine

/-! Ethernet (R430 to R434). -/

/-- Transmission goes on: replies and frames that waited are sent. -/
def State.txResume (s : State) : State := s.flushReplies.forUpTo 11 fun s n => s.flushWait n (s.waitOf n).length

/-- The VLAN tag of a frame is as VLAN_EN asks. -/
def State.vlanOk (s : State) (vid : Option (BitVec 12)) : Bool :=
  match vid with
  | none => !s.flag ETH.VLAN_EN.f
  | some v => s.flag ETH.VLAN_EN.f && v.toNat == s.rd ETH.VLAN_VID.f

/-- A frame enters the receive buffer; PAUSE is sent at three quarters. -/
def State.macStore (s : State) (n : Nat) : State :=
  let s := s.wr ETH.RX_FILL.f (s.rd ETH.RX_FILL.f + n)
  if s.flag ETH.PAUSE_EN.f && 196608 ≤ s.rd ETH.RX_FILL.f && !s.flag ETH.TX_PAUSE.f then s.sent.setFlag ETH.TX_PAUSE.f true
  else s

/-- The receive buffer is emptied; PAUSE with quanta 0 is sent where the partner had been stopped. -/
def State.macDrain (s : State) : State :=
  let s := s.wr ETH.RX_FILL.f 0
  if s.flag ETH.TX_PAUSE.f then s.sent.setFlag ETH.TX_PAUSE.f false else s

/-- PAUSE halts transmission for its quanta of 512 bit times, 51.2 ns each, or ends a halt (R434). -/
def execPause (quanta : BitVec 16) (s : State) : Out :=
  done (if !s.rxOk || !s.flag ETH.PAUSE_EN.f then s
  else if quanta = 0 then (s.setFlag ETH.PAUSED.f false).txResume
  else (s.setFlag ETH.PAUSED.f true).wr ETH.PAUSE_END.f (s.time + (quanta.toNat * 512 + 9) / 10))

/-- The time that the PAUSE gave has run out. -/
def execPauseExpiry (s : State) : Out :=
  done (if s.flag ETH.PAUSED.f && decide (s.rd ETH.PAUSE_END.f ≤ s.time) then (s.setFlag ETH.PAUSED.f false).txResume
  else s)

def execLinkChange (link : Bool) (modAbs : Bool) (los : Bool) (s : State) : Out :=
  let s := ((s.setFlag ETH.LINK.f link).setFlag ETH.MOD_ABS.f modAbs).setFlag ETH.LOS.f los
  done (if link then s.txResume else s)

/-- ARP is answered for ETH_IPV4. -/
def execArp (ip : Word) (s : State) : Out :=
  done (if s.rxOk && ip.toNat == s.rd ETH.IPV4.f && s.rd ETH.IPV4.f != 0 then s.reply .arp else s)

/-- The link-local address: fe80::/64 with the modified EUI-64 identifier of the MAC address (R431). -/
def State.linkLocal (s : State) : Nat :=
  let m := s.rd ETH.MAC_LO.f + s.rd ETH.MAC_HI.f * 2 ^ 32
  0xFE80 * 2 ^ 112 + (m / 2 ^ 24 ^^^ 0x020000) * 2 ^ 40 + 0xFFFE * 2 ^ 24 + m % 2 ^ 24

/-- The global IPv6 address. -/
def State.globalIp (s : State) : Nat :=
  (List.range 4).foldl (fun v k => v * 2 ^ 32 + s.rd (ETH.IPV6.f k)) 0

/-- An IPv6 address is one of the device's. -/
def State.ownIp6 (s : State) (a : Nat) : Bool := a == s.linkLocal || (a == s.globalIp && a != 0)

def execNeighbourSolicitation (target : BitVec 128) (s : State) : Out :=
  done (if s.rxOk && s.ownIp6 target.toNat then s.reply .advertisement else s)

/-- Echo is answered for payloads of up to 1,472 bytes. -/
def execEcho (v6 : Bool) (dst : BitVec 128) (len : BitVec 14) (s : State) : Out :=
  let own := if v6 then s.ownIp6 dst.toNat else dst.toNat == s.rd ETH.IPV4.f && s.rd ETH.IPV4.f != 0
  done (if s.rxOk && own && len.toNat ≤ 1472 then s.reply .echo else s)

/-! Received frames (R430, R434 to R437). -/

/-- Word `i` of the bytes of an SLP frame, little-endian. -/
def slpWord (d : List Byte) (i : Nat) : Nat := ((d.drop (4 * i)).take 4).foldr (fun b v => b.toNat + 256 * v) 0

/-- The stream carries the TYPE from the host (R437): acknowledgement frames, the requests of stream 0 with those that
R442 does not list, and what each further stream carries in that direction. -/
def typeCarried (stream typ : Nat) : Bool :=
  typ == 0 ||
    match stream with
    | 0 => typ != 1 && decide (typ < 128)
    | 1 => typ == 0x70 || typ == 0x71
    | 3 => typ == 0xD0
    | 4 => typ == 0xC0
    | 5 => typ == 0xC0
    | 6 => typ == 0xC0
    | 7 => typ == 0xC0
    | _ => false

/-- An SLP frame's VER, reserved bits, STREAM, TYPE and LEN are as R435 and R437 have them, and LEN matches the
datagram. -/
def State.slpFrameOk (s : State) (d : List Byte) : Bool :=
  let w0 := slpWord d 0
  let w4 := slpWord d 4
  let len := bits w4 0 14
  decide (24 ≤ d.length) && bits w0 0 8 == 1 && bits w0 12 4 == 0 && bits w0 28 4 == 0 && bits w4 14 2 == 0 &&
    bits w4 29 3 == 0 && decide (bits w0 8 4 ≤ 10) && typeCarried (bits w0 8 4) (bits w0 16 8) && len % 4 == 0 &&
    decide (len ≤ if s.flag ETH.SESS.f then s.rd ETH.MAXPAY.f else 9088) && d.length == 24 + len

/-- What an IP packet carries is supported: echo, a solicitation over IPv6, PTP while its clock runs, and an SLP
datagram with a checksum. -/
def State.payloadOk (s : State) (v6 : Bool) (p : EthPayload) : Bool :=
  match p with
  | .echo len => decide (len.toNat ≤ 1472)
  | .solicitation => v6
  | .ptp => s.flag ETH.PTP_EN.f
  | .udp port sum d => port.toNat == s.rd ETH.SLP_PORT.f && sum && s.slpFrameOk d
  | .other => false

/-- The packet goes to groups in its standard. -/
def payloadToGroup (p : EthPayload) : Bool :=
  match p with
  | .solicitation => true
  | .ptp => true
  | _ => false

/-- A frame is for the device, and of a kind that R430 supports. -/
def State.bodyOk (s : State) (b : EthBody) : Bool :=
  match b with
  | .arp => true
  | .pause => true
  | .ip4 dst options fragment p =>
    !options && !fragment && ((dst.toNat == s.rd ETH.IPV4.f && dst != 0) || payloadToGroup p) && s.payloadOk false p
  | .ip6 dst extension p => !extension && (s.ownIp6 dst.toNat || payloadToGroup p) && s.payloadOk true p
  | .other => false

/-- Frames that go to groups. -/
def bodyToGroup (b : EthBody) : Bool :=
  match b with
  | .arp => true
  | .pause => true
  | .ip4 _ _ _ p => payloadToGroup p
  | .ip6 _ _ p => payloadToGroup p
  | .other => false

/-- The frame's destination is the device's MAC address, or a group address where its kind goes to groups. -/
def State.dstOk (s : State) (f : EthFrame) : Bool :=
  f.dst.toNat == s.rd ETH.MAC_LO.f + s.rd ETH.MAC_HI.f * 2 ^ 32 || (bodyToGroup f.body && f.dst.getLsbD 40)

/-- The MAC receives a frame: counted, and discarded or buffered. -/
def State.macFrame (s : State) (f : EthFrame) : State × Bool :=
  let s := s.incSat ETH.RX_FRAMES.f
  if !f.fcsOk then (s.incSat ETH.RX_FCS.f, false)
  else if !f.wellFormed || !s.dstOk f || !s.vlanOk f.vid || !s.bodyOk f.body ||
      9216 + (if f.vid.isSome then 4 else 0) < f.bytes.toNat ||
      262144 < s.rd ETH.RX_FILL.f + f.bytes.toNat then (s.incSat ETH.RX_DROP.f, false)
  else (s.macStore f.bytes.toNat, true)

/-- The SLP frame that a frame carries. -/
def slpIn (f : EthFrame) : Option (List Byte) :=
  match f.body with
  | .ip4 _ _ _ (.udp _ _ d) => some d
  | .ip6 _ _ (.udp _ _ d) => some d
  | _ => none

/-- The header of an SLP frame as it was sent. -/
def slpHdrOf (d : List Byte) : SlpHdr :=
  { session := BitVec.ofNat 32 (slpWord d 1), seq := BitVec.ofNat 32 (slpWord d 2), more := 0, wrongLen := false
    ack := if bitOf (slpWord d 0) 26 then some { ack := BitVec.ofNat 32 (slpWord d 3)
                                                 win := BitVec.ofNat 13 (bits (slpWord d 4) 16 13)
                                                 sack := BitVec.ofNat 32 (slpWord d 5) }
      else none }

/-- The TYPEs of the requests that R442 lists. -/
def requestTypes : List Nat := [0x10, 0x11, 0x12, 0x20, 0x21, 0x30, 0x40, 0x41, 0x50, 0x51, 0x52, 0x60]

/-- A request of a TYPE that R442 does not list, in one frame: its header, TYPE and TAG. -/
def unlistedRequest (f : EthFrame) : Option (SlpHdr × Byte × Word) :=
  match slpIn f with
  | none => none
  | some d =>
    let w0 := slpWord d 0
    let typ := bits w0 16 8
    if bits w0 8 4 = 0 && typ != 0 && !requestTypes.contains typ && bits w0 24 2 = 3 then
      some (slpHdrOf d, BitVec.ofNat 8 typ, BitVec.ofNat 32 (slpWord d 6))
    else none

/-! PTP (R433). -/

/-- The clock runs in a domain. -/
def State.ptpIn (s : State) (domain : Byte) : Bool :=
  s.rxOk && s.flag ETH.PTP_EN.f && domain.toNat == s.rd ETH.PTP_CFG_DOMAIN.f

/-- An Announce: a better data set names the new master, and that of the best master gives its currentUtcOffset. -/
def execAnnounce (domain : Byte) (ds : BitVec 127) (utc : BitVec 16) (s : State) : Out :=
  let best := s.rd ETH.PTP_BEST.f
  done (if !s.ptpIn domain then s
  else if best = 0 || ds.toNat + 1 < best then
    (((s.wr ETH.PTP_BEST.f (ds.toNat + 1)).wr ETH.PTP_UTC.f utc.toNat).wr ETH.PTP_CNT.f 0).setFlag ETH.PTP_LOCK.f false
  else if ds.toNat + 1 = best then s.wr ETH.PTP_UTC.f utc.toNat
  else s)

/-- An exchange with the best master measures the offset; 16 in succession within 1 µs set PTP_LOCK. -/
def execSyncMessage (domain : Byte) (ds : BitVec 127) (ofs : Word) (s : State) : Out :=
  done (if !s.ptpIn domain || ds.toNat + 1 != s.rd ETH.PTP_BEST.f then s
  else
    let s := s.wr ETH.PTP_OFS.f ofs.toNat
    let near := decide (signedOf 32 ofs.toNat ≤ 1000) && decide (-1000 ≤ signedOf 32 ofs.toNat)
    let n := if near then min 16 (s.rd ETH.PTP_CNT.f + 1) else 0
    let s := if n = 16 && !s.flag ETH.PTP_LOCK.f then s.wr LDG.ALIGN_NEXT.f s.time else s
    (s.wr ETH.PTP_CNT.f n).setFlag ETH.PTP_LOCK.f (n == 16))

/-! What an acknowledgement releases (R449 to R452). -/

/-- SLP takes the first result of a site that it has not taken. -/
def State.slpTake (s : State) (site : Nat) : State :=
  (s.setResultQ site
    (takeFirst (fun e => !e.bySlp) (fun e => { e with bySlp := true }) (s.resultQ site))).purgeResults site

/-- What a frame carried leaves its source. -/
def State.releaseOf (s : State) (r : TxRelease) : State :=
  match r with
  | .nothing => s
  | .results l => l.foldl (fun s site => s.slpTake site) s
  | .records site n => s.wr (DMK.RING_RD.f site) (s.rd (DMK.RING_RD.f site) + n)
  | .reupload l => s.withPzList (s.pzList.filter fun e => !l.contains e)

/-- The frame with a SEQ is shown as received by SACK. -/
def sacked (a : SlpAck) (seq : Nat) : Bool :=
  let d := seqDist seq (a.ack.toNat + 1)
  decide (d < 32) && a.sack.getLsbD d

/-- SACK shows a frame sent after one with a SEQ. -/
def sackedLater (a : SlpAck) (l : List SlpTx) (seq : Nat) : Bool :=
  l.any fun y => seqBefore seq y.seq && sacked a y.seq

/-- An unacknowledged frame counts an acknowledgement that shows later frames, and is sent again at the third. -/
def State.countSkips (s : State) (a : SlpAck) (l : List SlpTx) : List SlpTx → State × List SlpTx
  | [] => (s, [])
  | x :: r =>
    if sacked a x.seq || !sackedLater a l x.seq then
      let p := s.countSkips a l r
      (p.1, x :: p.2)
    else if x.skips < 2 || 16 ≤ x.sends then
      let p := s.countSkips a l r
      (p.1, { x with skips := x.skips + 1 } :: p.2)
    else
      let q := s.resend x
      let p := q.1.countSkips a l r
      (p.1, q.2 :: p.2)

/-- An acknowledgement of a stream (R440, R441): one that names frames not sent, or fewer than the last, is ignored. -/
def State.ackTake (s : State) (n : Nat) (a : SlpAck) : State :=
  let l := s.unackedOf n
  if l.length < seqDist a.ack.toNat (s.rd (ETH.PEER_ACK.f n)) then s
  else
    let s := (s.wr (ETH.PEER_ACK.f n) a.ack.toNat).wr (ETH.PEER_WIN.f n) a.win.toNat
    let out := l.filter fun x => seqBefore x.seq a.ack.toNat
    let kept := l.filter fun x => !seqBefore x.seq a.ack.toNat
    let s := out.foldl (fun s x => s.releaseOf x.rel) s
    let p := if s.txOk then s.countSkips a kept kept else (s, kept)
    (p.1.setUnacked n p.2).flushWait n (s.waitOf n).length

/-! Requests (R442 to R450). -/

/-- A response on stream 0. -/
def State.respond (s : State) (typ : Nat) (tag : Word) (gcode bcode : Nat) (data : List Nat) : State :=
  s.slpMessage 0 (typ + 0x80) ([tag.toNat, gcode + bcode * 256] ++ data)

/-- CFG_STATE as it reads. -/
def State.cfgState (s : State) : Nat := s.regValue CFG.STATE_STEP.base

/-- The eight words of the latest self-test record; with none written, NOT_RUN (R518). -/
def State.bstSummary (s : State) : List Nat :=
  if s.flag LDG.BST_ANY.f then
    (List.range 8).map fun w => s.tab LDG.sram 0 (0x800 + 8 * s.rd LDG.BST_HEAD.f + w)
  else [2, 0, 0, 0, 0, 0, 0, 0]

/-- A Calico command on the SLP path. -/
def State.slpCalRun (s : State) (op : Nat) (a : CalArgs) : State :=
  match op with
  | 1 => s.calDo a [] fun s c => s.create a c
  | 2 => s.calDo a [] fun s c => s.allocNew a c
  | 3 => s.calDo a [] fun s c => s.seal a c
  | 4 => s.calDo a [] fun s c => s.delete a c
  | 5 => s.calDo a [] fun s c => s.query a c
  | _ => s.calDo a [] fun s _ => s.calEnd a 9 []

/-- The CAL request: an object that it creates or seals is watched for READY (R452). -/
def State.reqCal (s : State) (tag cmd id lo hi : Word) : State :=
  if !s.flag CAL.READY.f then s.respond 0x20 tag 3 0 []
  else
    let c := cmd.toNat
    let a : CalArgs := .msg id (BitVec.ofNat 37 (lo.toNat + hi.toNat * 2 ^ 32)) (BitVec.ofNat 4 (c / 16)) (BitVec.ofNat 4 (c / 256))
    let s := s.slpCalRun (c % 16) a
    let s := if s.rd CAL.X_CODE.f = 0 && (c % 16 == 1 || c % 16 == 3) then
      s.withSlpObjs ((s.slpObjs.filter fun x => x != id.toNat) ++ [id.toNat]) else s
    s.respond 0x20 tag 0 (s.rd CAL.X_CODE.f) ((List.range 8).map fun k => s.rd (CAL.X_OUT.f k))

/-- The allocation that a READ may read (R450). -/
def State.readable (s : State) (id off len : Nat) : Option Alloc :=
  (s.alloc? id).filter fun a => [0, 1, 2, 4, 5].contains a.kind && (a.st == 3 || a.st == 5) && off % 64 == 0 &&
    len % 64 == 0 && decide (off + len ≤ a.size)

/-- The READ request. -/
def State.reqRead (s : State) (tag id : Word) (off : BitVec 64) (len : Word) : State :=
  if s.flag ETH.RD_OPEN.f then s.respond 0x21 tag 4 0 []
  else
    match s.readable id.toNat off.toNat len.toNat with
    | none => s.respond 0x21 tag 2 0 []
    | some a =>
      let s := ((s.setFlag ETH.RD_OPEN.f true).wr ETH.RD_TAG.f tag.toNat).wr ETH.RD_ID.f id.toNat
      let s := ((s.wr ETH.RD_POS.f off.toNat).wr ETH.RD_END.f (off.toNat + len.toNat)).wr ETH.RD_POIS.f 0
      ((s.setFlag ETH.RD_LIVE.f (a.st == 3)).addUse useRead id.toNat).respond 0x21 tag 0 0 []

/-- The KEY request. -/
def State.reqKey (s : State) (tag cmd : Word) (blob : BitVec 320) : State :=
  let op := cmd.toNat % 4
  let a : KwArgs := .msg (BitVec.ofNat 2 op) (BitVec.ofNat 4 (cmd.toNat / 256)) blob
  let s := match op with
    | 1 => s.kwDo a [1] fun s c => s.kwLoad a c
    | 2 => s.kwDo a [2] fun s c => s.kwErase a c
    | n => s.kwDo a [n] fun s _ => s.kwEnd a 7
  s.respond 0x30 tag 0 (s.rd CAL.X_CODE.f) []

/-- The FL_BEGIN request (R448); `ok` says whether the erase succeeds. -/
def State.reqFlBegin (s : State) (tag slot size : Word) (ok : Bool) : State :=
  if s.flag ETH.FL_OPEN.f then s.respond 0x40 tag 4 0 []
  else if !s.flag CFG.DIR_OK.f || 3 ≤ slot.toNat || s.slotBytes slot.toNat < size.toNat then s.respond 0x40 tag 0 1 []
  else if !ok then s.respond 0x40 tag 0 2 []
  else
    let s := ((s.setFlag ETH.FL_OPEN.f true).wr ETH.FL_SLOT.f slot.toNat).wr ETH.FL_SIZE.f size.toNat
    ((s.wr ETH.FL_POS.f 0).setFlag ETH.FL_BAD.f false).respond 0x40 tag 0 0 []

/-- The directory that a commit writes: SEQ one greater, and the new word 2. -/
def State.nextDir (s : State) (w2 : Nat) (i : Nat) : Nat :=
  if i = 1 then (s.tab CFG.dirw 0 1 + 1) % 2 ^ 32 else if i = 2 then w2 else s.tab CFG.dirw 0 i

/-- The directory in force becomes the one written. -/
def State.commitDir (s : State) (w2 : Nat) : State :=
  let crc := crc32 ((List.range 15).flatMap fun i => natBytes (s.nextDir w2 i) 4)
  s.forUpTo 16 fun t i => t.setTab CFG.dirw 0 i (if i = 15 then crc else s.nextDir w2 i)

/-- A new word 2 is valid under R377. -/
def orderWordOk (w2 : Nat) : Bool :=
  !(dirOrder fun _ => w2).isEmpty && !(dirOrder fun _ => w2).contains 3 && w2 / 256 == 0

/-- The FL_COMMIT request; `readback` is the CRC-32 of the written bytes, `ok` whether the directory is programmed. -/
def State.reqFlCommit (s : State) (tag crc dir2 readback : Word) (ok : Bool) : State :=
  if !s.flag ETH.FL_OPEN.f then s.respond 0x41 tag 0 4 []
  else
    let s := s.setFlag ETH.FL_OPEN.f false
    if s.flag ETH.FL_BAD.f then s.respond 0x41 tag 0 2 []
    else if crc != readback then s.respond 0x41 tag 0 3 []
    else if !orderWordOk dir2.toNat then s.respond 0x41 tag 0 5 []
    else if !ok then s.respond 0x41 tag 0 2 []
    else (s.commitDir dir2.toNat).respond 0x41 tag 0 0 []

/-- The RESTART request: a warm restart from a slot, or in a hold by a FAILED record the self-test again (R523). -/
def State.reqRestart (s : State) (tag slot : Word) : State :=
  if 4 ≤ slot.toNat then s.respond 0x50 tag 2 0 []
  else
    let s := s.respond 0x50 tag 0 0 []
    if s.flag BST.HOLD.f then (if s.flag BST.RUN.f then s else s.bstStart 3)
    else if s.flag CFG.BUSY.f then s
    else (s.wr CFG.NEXT_SLOT.f slot.toNat).warmStart

/-- The STANDBY request is checked before it is answered (R480). -/
def State.reqStandby (s : State) (tag : Word) : State :=
  if s.standbyRefused then (s.setFlag PWR.STBY_REFUSED.f true).respond 0x52 tag 3 0 []
  else (s.respond 0x52 tag 0 0 []).standbyRequest 2

/-- An entry of a CSR or debug request as an access. -/
def entryAccess (m : Master) (e : CsrEntry) : Access :=
  if e.write then .write m e.addr.toNat e.value.toNat else .read m e.addr.toNat

/-- One entry is an access, whose value and status join the answers. -/
def State.runEntry (s : State) (m : Master) (k : Nat) (e : CsrEntry) : State :=
  let x := if e.write then s.busWrite m e.addr.toNat 4 e.value.toNat else s.busRead m e.addr.toNat 4
  let denied := match m with
    | .dbgS => x.1.flag (DBG.DENIED.f 1)
    | _ => false
  let ans := match x.2 with
    | .ok v => (if e.write then 0 else v, 0)
    | _ => (0, if denied then 2 else 1)
  let i := 2 * x.1.rd (ETH.ANS_N.f k)
  ((x.1.setTab ETH.ans k i ans.1).setTab ETH.ans k (i + 1) ans.2).inc (ETH.ANS_N.f k)

/-- The entries are accesses in order, and between two of them every other master has a turn (R19). They stop at an
entry that must wait, and where an access ends the session: the state, and the entries left. -/
def State.runEntries (s : State) (m : Master) (k : Nat) : List CsrEntry → State × List CsrEntry
  | [] => (s, [])
  | e :: r =>
    if s.mustWait (entryAccess m e) then (s, e :: r)
    else
      let t := s.runEntry m k e
      if t.flag ETH.SESS.f then t.serveTurn.runEntries m k r else (t.clearAnswers k, [])

/-- The CSR request: answered when its last entry is, and kept at the head while an entry waits. An access of it that
ends the session leaves it without an answer. -/
def State.reqCsr (s : State) (tag : Word) (l : List CsrEntry) : State :=
  if 512 < l.length then s.respond 0x60 tag 2 0 []
  else
    let p := s.runEntries .slp 0 l
    if !p.1.flag ETH.SESS.f then p.1
    else
      match p.2 with
      | [] => (p.1.respond 0x60 tag 0 0 (p.1.answers 0)).clearAnswers 0
      | r => p.1.withCtrlQ (.csr tag r :: p.1.ctrlQ)

/-- TYPE and TAG of a request; none for what another stream carries. -/
def requestOf (m : SlpMsg) : Option (Nat × Word) :=
  match m with
  | .close tag => some (0x11, tag)
  | .status tag => some (0x12, tag)
  | .cal tag _ _ _ _ => some (0x20, tag)
  | .read tag _ _ _ => some (0x21, tag)
  | .key tag _ _ => some (0x30, tag)
  | .flBegin tag _ _ _ => some (0x40, tag)
  | .flCommit tag _ _ _ _ => some (0x41, tag)
  | .restart tag _ => some (0x50, tag)
  | .shutdown tag => some (0x51, tag)
  | .standby tag => some (0x52, tag)
  | .csr tag _ => some (0x60, tag)
  | .wrong typ tag => some (typ.toNat, tag)
  | .unknown typ tag => some (typ.toNat, tag)
  | .objData .. => none
  | .flData .. => none
  | .flow .. => none
  | .debug .. => none

/-- The requests that R444 lists. -/
def servedAlways (typ : Nat) : Bool := [0x10, 0x11, 0x12, 0x40, 0x41, 0x50].contains typ

/-- A request that is served is executed and answered. -/
def State.runRequest (s : State) (m : SlpMsg) : State :=
  match m with
  | .close tag => (s.respond 0x11 tag 0 0 []).sessEnd
  | .status tag =>
    s.respond 0x12 tag 0 0
      ([s.cfgState, s.regValue CFG.FAIL_CAP_CAUSE.base, s.rd CFG.IMG_VER.f] ++ s.bstSummary)
  | .cal tag cmd id lo hi => s.reqCal tag cmd id lo hi
  | .read tag id off len => s.reqRead tag id off len
  | .key tag cmd blob => s.reqKey tag cmd blob
  | .flBegin tag slot size ok => s.reqFlBegin tag slot size ok
  | .flCommit tag crc dir2 readback ok => s.reqFlCommit tag crc dir2 readback ok
  | .restart tag slot => s.reqRestart tag slot
  | .shutdown tag => (s.respond 0x51 tag 0 0 []).shutdownRequest
  | .standby tag => s.reqStandby tag
  | .csr tag l => s.reqCsr tag l
  | .wrong typ tag => s.respond typ.toNat tag 2 0 []
  | .unknown typ tag => s.respond (typ.toNat % 128) tag 1 0 []
  | .objData .. => s
  | .flData .. => s
  | .flow .. => s
  | .debug .. => s

/-- One request: unknown, not served in this state, or executed. -/
def State.request (s : State) (m : SlpMsg) : State :=
  match m, requestOf m with
  | .unknown .., _ => s.runRequest m
  | _, none => s
  | _, some (typ, tag) =>
    if s.safeOnly && !servedAlways typ then (s.clearAnswers 0).respond typ tag 3 0 [] else s.runRequest m

/-- The erase of FL_BEGIN waits for a load that reads its slot (R376), and a CSR request for its next entry. -/
def State.requestWaits (s : State) (m : SlpMsg) : Bool :=
  match m with
  | .flBegin _ slot _ _ => s.loadReads && s.slotTried == slot.toNat
  | .csr _ (e :: _) => s.mustWait (entryAccess .slp e)
  | _ => false

/-- The requests that have arrived are executed one at a time, each once the response before it is sent. -/
def State.ctrlRun (s : State) : Nat → State
  | 0 => s
  | k + 1 =>
    match s.ctrlQ with
    | [] => s
    | m :: r =>
      if !(s.waitOf 0).isEmpty || !s.mayNew 0 || s.requestWaits m then s
      else (State.request (s.withCtrlQ r) m).ctrlRun k

/-! Upload and flash data (R447, R448). -/

/-- Why an object refuses upload data, if it does. -/
def State.uploadFault (s : State) (id off n : Nat) : Option Nat :=
  match s.alloc? id with
  | none => some 2
  | some a =>
    if a.kind != 0 then some 9
    else if (a.st != 1 && a.st != 4) || a.allpois then some 3
    else if a.size < off + n then some 7
    else if a.accepts off n then none
    else if a.st = 4 && (pagePieces (n / 65536 + 2) off n).any fun x => !a.marked.contains x.1 then some 3
    else some 10

/-- Upload data is written, or refused with a notice; without a free page for a marked page the code is that of R224. -/
def State.upload (s : State) (id off : Nat) (bs : List Byte) : State :=
  match s.uploadFault id off bs.length with
  | some c => s.notice 2 c id (off % 2 ^ 32)
  | none =>
    match s.objWrite id off bs with
    | none => s.notice 2 4 id (off % 2 ^ 32)
    | some t => t.uploaded bs.length

/-- Upload data waits: DRAM is held, the upload write queue has no room for it, or a line that it writes waits (R245,
R447). -/
def State.uploadWaits (s : State) (id off n : Nat) : Bool :=
  s.dramHeld || ((s.uploadFault id off n).isNone && (!s.uploadRoom n || s.objWaits id off n))

/-- Flash data is programmed, or refused with a notice; `ok` says whether the flash programs it. -/
def State.flashData (s : State) (slot off n : Nat) (ok : Bool) : State :=
  if !s.flag ETH.FL_OPEN.f || slot != s.rd ETH.FL_SLOT.f then s.notice 2 4 slot off
  else if off != s.rd ETH.FL_POS.f then s.notice 2 0x0B slot off
  else if s.rd ETH.FL_SIZE.f < off + n then s.notice 2 1 slot off
  else (s.wr ETH.FL_POS.f (off + n)).setFlag ETH.FL_BAD.f (s.flag ETH.FL_BAD.f || !ok)

/-! Delivery (R438, R440). -/

/-- The debug requests that have arrived are executed in order, and each is answered on stream 3 when its last entry is
(R536). -/
def State.dbgRun (s : State) : Nat → State
  | 0 => s
  | k + 1 =>
    match s.dbgQ with
    | [] => s
    | (tag, l) :: q =>
      let p := (s.withDbgQ q).runEntries .dbgS 1 l
      if !p.1.flag ETH.SESS.f then p.1
      else
        match p.2 with
        | [] => ((p.1.slpMessage 3 0xD0 (tag.toNat :: p.1.answers 1)).clearAnswers 1).dbgRun k
        | r => p.1.withDbgQ ((tag, r) :: p.1.dbgQ)

/-- A message reaches its consumer. -/
def State.toConsumer (s : State) (m : SlpMsg) : State :=
  match m with
  | .objData id off data => if s.safeOnly then s else s.upload id.toNat off.toNat data
  | .flData slot off data ok => s.flashData slot.toNat off.toNat data.length ok
  | .flow q words =>
    if 4096 < words.length || words.isEmpty then s
    else
      s.withRxMsgs
        (s.rxMsgs.set q (s.rxMsgs.get q [] ++ [{ len := 4 * words.length, words := words.map fun w => w.toNat }]) [])
  | .debug tag l => (s.withDbgQ (s.dbgQ ++ [(tag, if 512 < l.length then [] else l)])).dbgRun (s.dbgQ.length + 1)
  | m => State.ctrlRun (s.withCtrlQ (s.ctrlQ ++ [m])) (s.ctrlQ.length + 1)

/-- A message cannot be delivered yet: upload data that waits. -/
def State.msgWaits (s : State) (m : SlpMsg) : Bool :=
  match m with
  | .objData id off data => !s.safeOnly && s.uploadWaits id.toNat off.toNat data.length
  | _ => false

/-- A message that is next in its stream is taken: ACK advances, and it is delivered. -/
def State.takeNext (s : State) (n more : Nat) (m : SlpMsg) : State :=
  let s := s.wr (ETH.RX_NEXT.f n) (s.rd (ETH.RX_NEXT.f n) + more + 1)
  (s.wr (ETH.OWED.f n) (min 31 (s.rd (ETH.OWED.f n) + more + 1))).toConsumer m

/-- Messages held behind a hole that is filled, or that had to wait, are taken in order. -/
def State.takeHeld (s : State) (n : Nat) : Nat → State
  | 0 => s
  | k + 1 =>
    match (s.heldOf n).find? fun h => h.seq == s.rd (ETH.RX_NEXT.f n) with
    | none => s
    | some h =>
      if s.msgWaits h.msg then s
      else ((s.setHeld n ((s.heldOf n).filter fun x => x.seq != h.seq)).takeNext n h.more h.msg).takeHeld n k

/-- Sixteen frames received in a session are acknowledged. -/
def State.ackFull (s : State) (n : Nat) : State :=
  if s.flag ETH.SESS.f && decide (16 ≤ s.rd (ETH.OWED.f n)) then s.sendAck n else s

/-- A message of the bound session arrives on a stream: taken, held, or discarded where it lies outside ACK to ACK +
WIN - 1 as last advertised (R440). -/
def State.arrive (s : State) (n : Nat) (h : SlpHdr) (m : SlpMsg) : State :=
  let seq := h.seq.toNat
  let adv := s.rd (ETH.ADV_ACK.f n)
  if seqBefore seq adv then s.sendAck n
  else if s.rd (ETH.RX_WIN.f n) ≤ seqDist seq adv + h.more.toNat then s
  else if seqBefore seq (s.rd (ETH.RX_NEXT.f n)) || (s.heldOf n).any (fun x => x.seq == seq) then s
  else
    let t := s.setHeld n (s.heldOf n ++ [{ seq := seq, more := h.more.toNat, msg := m }])
    (t.takeHeld n (t.heldOf n).length).ackFull n

/-- What a received message brings: RESET to a frame of no bound session, nothing on the streams that are not served,
and else its acknowledgement and its delivery. -/
def State.receive (s : State) (n : Nat) (h : SlpHdr) (m : SlpMsg) : State :=
  if !s.rxOk then s
  else if !s.flag ETH.SESS.f || h.session.toNat != s.rd ETH.SESSION.f then s.reply .reset
  else if s.safeOnly && 2 ≤ n then s
  else
    let s := s.wr ETH.LAST_RX.f s.time
    let s := match h.ack with
      | none => s
      | some a => s.ackTake n a
    let s := s.arrive n h m
    s.ctrlRun (s.ctrlQ.length + 1)

/-- A request whose payload has a wrong length for its TYPE. -/
def checked (h : SlpHdr) (m : SlpMsg) : SlpMsg :=
  match h.wrongLen, requestOf m with
  | true, some (typ, tag) => .wrong (BitVec.ofNat 8 typ) tag
  | _, _ => m

def execSlpClose (h : SlpHdr) (tag : Word) (s : State) : Out := done (s.receive 0 h (checked h (.close tag)))
def execSlpStatus (h : SlpHdr) (tag : Word) (s : State) : Out := done (s.receive 0 h (checked h (.status tag)))
def execSlpShutdown (h : SlpHdr) (tag : Word) (s : State) : Out := done (s.receive 0 h (checked h (.shutdown tag)))
def execSlpStandby (h : SlpHdr) (tag : Word) (s : State) : Out := done (s.receive 0 h (checked h (.standby tag)))

def execSlpCal (h : SlpHdr) (tag : Word) (cmd : Word) (id : Word) (sizeLo : Word) (sizeHi : Word) (s : State) : Out :=
  done (s.receive 0 h (checked h (.cal tag cmd id sizeLo sizeHi)))

def execSlpRead (h : SlpHdr) (tag : Word) (id : Word) (off : BitVec 64) (len : Word) (s : State) : Out :=
  done (s.receive 0 h (checked h (.read tag id off len)))

def execSlpKey (h : SlpHdr) (tag : Word) (cmd : Word) (blob : BitVec 320) (s : State) : Out :=
  done (s.receive 0 h (checked h (.key tag cmd blob)))

def execSlpFlBegin (h : SlpHdr) (tag : Word) (slot : Word) (size : Word) (ok : Bool) (s : State) : Out :=
  done (s.receive 0 h (checked h (.flBegin tag slot size ok)))

def execSlpFlData (h : SlpHdr) (slot : Word) (off : Word) (data : List Byte) (ok : Bool) (s : State) : Out :=
  done (s.receive 1 h (.flData slot off data ok))

def execSlpFlCommit (h : SlpHdr) (tag : Word) (crc : Word) (dir2 : Word) (readback : Word) (ok : Bool) (s : State) : Out :=
  done (s.receive 0 h (checked h (.flCommit tag crc dir2 readback ok)))

def execSlpRestart (h : SlpHdr) (tag : Word) (slot : Word) (s : State) : Out :=
  done (s.receive 0 h (checked h (.restart tag slot)))

def execSlpCsr (h : SlpHdr) (tag : Word) (entries : List CsrEntry) (s : State) : Out :=
  doneClk (s.receive 0 h (checked h (.csr tag entries)))

def execSlpObjData (h : SlpHdr) (id : Word) (off : BitVec 64) (data : List Byte) (s : State) : Out :=
  done (s.receive 1 h (.objData id off data))

def execSlpMsg (h : SlpHdr) (q : Fin 4) (words : List Word) (s : State) : Out :=
  done (s.receive (4 + q) h (.flow q words))

def execSlpDebugRequest (h : SlpHdr) (tag : Word) (entries : List CsrEntry) (s : State) : Out :=
  doneClk (s.receive 3 h (.debug tag (if h.wrongLen then [] else entries)))

/-- A frame at the MAC; one that carries a request of a TYPE that R442 does not list goes on to stream 0. -/
def execEthFrame (f : EthFrame) (s : State) : Out :=
  done (if !s.rxOk then s
  else
    let p := s.macFrame f
    match p.2, unlistedRequest f with
    | true, some (h, typ, tag) => p.1.receive 0 h (.unknown typ tag)
    | _, _ => p.1)

/-- An OPEN in no session (R438): refused while one is bound, or it opens one, ending that with FORCE. -/
def State.openRequest (s : State) (p : SlpPeer) (tag : Word) (maxpay : Nat) (force bad : Bool) : State :=
  if bad || maxpay % 64 != 0 || maxpay < 1024 || 9088 < maxpay then s.reply (.openRefused 2)
  else if s.flag ETH.SESS.f && !force then s.reply (.openRefused 4)
  else
    let s := s.sessEnd.sessOpen p maxpay
    s.respond 0x10 tag 0 0 [s.regValue SYS.ID.base, s.regValue SYS.REV_MAJOR.base, s.sysCap, s.cfgState]

def execSlpOpen (h : SlpHdr) (p : SlpPeer) (tag : Word) (maxpay : Word) (force : Bool) (s : State) : Out :=
  done (if !s.rxOk then s
  else if h.session = 0 then s.openRequest p tag maxpay.toNat force h.wrongLen
  else s.receive 0 h (.wrong 0x10 tag))

/-- An acknowledgement frame. -/
def execAcknowledgement (session : Word) (stream : Fin 11) (a : SlpAck) (s : State) : Out :=
  done (if !s.rxOk then s
  else if !s.flag ETH.SESS.f || session.toNat != s.rd ETH.SESSION.f then s.reply .reset
  else if s.safeOnly && 2 ≤ stream.val then s
  else
    let s := (s.wr ETH.LAST_RX.f s.time).ackTake stream a
    s.ctrlRun s.ctrlQ.length)

/-! Sending (R441, R449 to R452). -/

/-- The results of a site that frames in flight carry, and its records. -/
def State.resultsInFlight (s : State) (site : Nat) : Nat :=
  ((s.waitOf 8 ++ s.unackedOf 8).map fun x => match x.rel with
    | .results l => (l.filter fun y => y == site).length
    | _ => 0).foldl (· + ·) 0

def State.recordsInFlight (s : State) (site : Nat) : Nat :=
  ((s.waitOf 9 ++ s.unackedOf 9).map fun x => match x.rel with
    | .records y n => if y = site then n else 0
    | _ => 0).foldl (· + ·) 0

/-- SLP consumes the ring of a site. -/
def State.recSite (s : State) (site : Nat) : Bool :=
  if site < 32 then s.bit ETH.REC_SITES_LO.f site else s.bit ETH.REC_SITES_HI.f (site - 32)

/-- Every record that was in the site's ring when a result was posted has been acknowledged. -/
def State.recordsDone (s : State) (site : Nat) (e : ResultEntry) : Bool :=
  !s.recSite site || !seqBefore (s.rd (DMK.RING_RD.f site)) e.upto

/-- The results of a site that may be sent now, in order. -/
def State.siteResults (s : State) (site : Nat) : List (Nat × ResultEntry) :=
  if s.flag (DMK.SITE_CFG_RES_SLP.f site) then
    ((((s.resultQ site).filter fun e => !e.bySlp).drop (s.resultsInFlight site)).takeWhile (s.recordsDone site)).map
      fun e => (site, e)
  else []

/-- Put a result among others by the order of posting. -/
def insertPosted (x : Nat × ResultEntry) : List (Nat × ResultEntry) → List (Nat × ResultEntry)
  | [] => [x]
  | y :: r => if x.2.ord < y.2.ord then x :: y :: r else y :: insertPosted x r

/-- The results that may be sent now, in the order in which Damask posted them. -/
def State.resultsReady (s : State) : List (Nat × ResultEntry) :=
  ((List.range 64).flatMap s.siteResults).foldl (fun l x => insertPosted x l) []

/-- A RESULTS frame. -/
def State.resultsFrame (s : State) : Option (State × SlpTx) :=
  match s.resultsReady.take (s.rd ETH.MAXPAY.f / 64) with
  | [] => none
  | l => some (s, { typ := 0x80, words := l.flatMap fun x => x.2.words, first := true, last := true,
                    rel := .results (l.map fun x => x.1) })

/-- Records of a site's ring that are not in flight. -/
def State.recordsLeft (s : State) (site : Nat) : Nat :=
  if s.recSite site && (s.siteRing site).isSome then s.ringFill site - s.recordsInFlight site else 0

/-- A RECORDS frame of the lowest site with records that can be read; a poisoned line raises EV1197 (R198, R213). -/
def State.recordsFrame (s : State) : Option (State × SlpTx) :=
  match (List.range 64).find? fun site => s.recordsLeft site != 0 && !s.ringWaits site (s.recordsInFlight site) with
  | none => none
  | some site =>
    let n := min (s.recordsLeft site) ((s.rd ETH.MAXPAY.f - 4) / 32)
    let k := s.recordsInFlight site
    let ws := (List.range n).flatMap fun i => (List.range 8).map fun w => s.ringRecord site (k + i) w
    let bad := (List.range n).any fun i => bitOf (s.ringRecord site (k + i) 7) 16
    some (if bad then s.pulse 1197 else s,
      { typ := 0x90, words := site :: ws, first := true, last := true, rel := .records site n })

/-- The words of a notice. -/
def Notice.words (n : Notice) : List Nat := [n.kind + n.count % 2 ^ 24 * 256, n.arg0, n.arg1, n.ts]

/-- A NOTICE frame. -/
def State.noticeFrame (s : State) : Option (State × SlpTx) :=
  let s := s.noticePump
  let k := s.rd ETH.MAXPAY.f / 16
  match s.notices.take k with
  | [] => none
  | l => some (s.withNotices (s.notices.drop k),
      { typ := 0xB0, words := l.flatMap Notice.words, first := true, last := true,
        rel := .reupload ((l.filter fun n => n.kind == 1 && n.arg1 != 2 ^ 32 - 1).map fun n => (n.arg0, n.arg1)) })

/-- The words of a line of an allocation, zeros where it reads as poison. -/
def State.readLine (s : State) (a : Alloc) (off : Nat) : List Nat :=
  if s.allocPoison a off 64 then List.replicate 16 0 else (List.range 16).map fun i => s.allocRead a (off + 4 * i) 4

/-- A READ_DATA frame of the lines from RD_POS on, all of which LOAD turns have read. -/
def State.readData (s : State) (a : Alloc) : State × SlpTx :=
  let pos := s.rd ETH.RD_POS.f
  let n := s.readLines
  let bad := (List.range n).find? fun i => s.allocPoison a (pos + 64 * i) 64
  let t := match bad with
    | some i => if s.rd ETH.RD_POIS.f = 0 then s.wr ETH.RD_POIS.f (pos + 64 * i + 1) else s
    | none => s
  ((t.wr ETH.RD_POS.f (pos + 64 * n)).wr ETH.RD_CRED.f 0,
    { typ := 0xA0, words := [s.rd ETH.RD_TAG.f, pos % 2 ^ 32, pos / 2 ^ 32] ++
        ((List.range n).flatMap fun i => s.readLine a (pos + 64 * i)), first := true, last := true, rel := .nothing })

/-- READ_END. -/
def State.readFinish (s : State) (deleted : Bool) : State × SlpTx :=
  let p := s.rd ETH.RD_POIS.f
  let code := if deleted then 2 else if p = 0 then 0 else 1
  let o := if p = 0 then 2 ^ 64 - 1 else p - 1
  (s.readStop, { typ := 0xA1, words := [s.rd ETH.RD_TAG.f, code, o % 2 ^ 32, o / 2 ^ 32], first := true, last := true,
                 rel := .nothing })

/-- The next frame of the READ in progress. -/
def State.readFrame (s : State) : Option (State × SlpTx) :=
  if !s.flag ETH.RD_OPEN.f || s.dramHeld then none
  else
    match s.alloc? (s.rd ETH.RD_ID.f) with
    | none => some (s.readFinish true)
    | some a =>
      if s.rd ETH.RD_POS.f < s.rd ETH.RD_END.f then
        if s.rd ETH.RD_CRED.f < s.readLines then none else some (s.readData a)
      else some (s.readFinish (s.flag ETH.RD_LIVE.f && a.st == 5))

/-- The next frame that a source has for its stream. -/
def State.nextFrame (s : State) (n : Nat) : Option (State × SlpTx) :=
  match n with
  | 2 => s.noticeFrame
  | 8 => if s.dramHeld then none else s.resultsFrame
  | 9 => if s.dramHeld then none else s.recordsFrame
  | 10 => s.readFrame
  | _ => none

/-- The device sends on a stream: frames that wait, or else a new one from its source. -/
def State.sendOn (s : State) (n : Nat) : State :=
  let s := s.flushWait n (s.waitOf n).length
  if !(s.waitOf n).isEmpty || !s.mayNew n then s
  else
    match s.nextFrame n with
    | none => s
    | some p => p.1.sendNew n p.2

def execSlpSend (stream : Fin 11) (s : State) : Out :=
  done (s.sendOn stream |>.ctrlRun s.ctrlQ.length)

/-- A frame is unacknowledged at its timeout: sent again with the timeout doubled, up to 64 ms; after 16 sendings the
session ends (R439). -/
def State.retransmit (s : State) (n seq : Nat) : State :=
  match (s.unackedOf n).find? fun x => x.seq == seq with
  | none => s
  | some x =>
    if !s.txOk || s.time < x.sentAt + 1000 * x.rto then s
    else if 16 ≤ x.sends then s.sessEnd
    else
      let p := s.resend x
      p.1.setUnacked n ((s.unackedOf n).map fun y => if y.seq = seq then p.2 else y)

def execRetransmitTimeout (stream : Fin 11) (seq : Word) (s : State) : Out := done (s.retransmit stream seq.toNat)

/-- Received frames have waited 20 µs for their acknowledgement. -/
def execAckDelay (stream : Fin 11) (s : State) : Out :=
  done (if s.flag ETH.SESS.f && s.rd (ETH.OWED.f stream) != 0 then s.sendAck stream else s)

/-- No frame of the peer has come for ETH_SESS_TO ms (R439). -/
def State.sessionStale (s : State) : Bool := decide (s.rd ETH.LAST_RX.f + max 1 (s.rd ETH.SESS_TO.f) * 10 ^ 6 ≤ s.time)

def execSessionTimeout (s : State) : Out := done (if s.sessionStale then s.sessEnd else s)

def execSessEnd (s : State) : Out := done (s.reach (ETH.SESS_END.f.sets 1) .eth State.sessEnd)

/-- What waits in the host port goes on as far as it can: messages held, debug requests and requests. -/
def State.slpTick (s : State) : State :=
  let s := s.forUpTo 11 fun s n => (s.takeHeld n (s.heldOf n).length).ackFull n
  let s := s.dbgRun s.dbgQ.length
  s.ctrlRun s.ctrlQ.length

/-! Flow ports (R453). -/

def execTxSend (mask : BitVec 4) (s : State) : Out :=
  done (s.reach (ETH.TX_SEND.f.sets mask.toNat) .eth fun s => s.eachBit 4 mask.toNat fun s q => s.txSend q)

def execRxSkip (mask : BitVec 4) (s : State) : Out :=
  done (s.reach (ETH.RX_SKIP.f.sets mask.toNat) .eth fun s => s.eachBit 4 mask.toNat fun s q => s.rxSkip q)

/-- A read of ETH_RXq_D. -/
def execEthRxRead (q : Fin 4) (m : Master) (s : State) : Out :=
  done (s.reach (.read m (ETH.RX_D.f q).addr) .eth fun s =>
    let s := s.answer (s.regValue (ETH.RX_D.f q).addr)
    if s.consumes m then s.rxTake q else s)

end Sys2Proof.Machine
end

