-- ==== Sys2Proof/Machine/Dispatch.lean ====
section
/-! DEFINITION. One arm for every command. -/

namespace Sys2Proof.Machine

def exec (i : Instr) (s : State) : Host.Outcome State Fault Refusal :=
  match i with
  | .registerWrite m addr v => Sys2Proof.Machine.execRegisterWrite m addr v s
  | .absentRel => Sys2Proof.Machine.execAbsentRel s
  | .indirectDataAccess m addr v => Sys2Proof.Machine.execIndirectDataAccess m addr v s
  | .levelWrite ch lvl code => Sys2Proof.Machine.execLevelWrite ch lvl code s
  | .lvlCommit t => Sys2Proof.Machine.execLvlCommit t s
  | .protForce t => Sys2Proof.Machine.execProtForce t s
  | .protRel t => Sys2Proof.Machine.execProtRel t s
  | .releaseCheck => Sys2Proof.Machine.execReleaseCheck s
  | .vlvCapRel t => Sys2Proof.Machine.execVlvCapRel t s
  | .protEn ch on => Sys2Proof.Machine.execProtEn ch on s
  | .detectorInputChange ch d ua => Sys2Proof.Machine.execDetectorInputChange ch d ua s
  | .deglitchExpiry ch d ns => Sys2Proof.Machine.execDeglitchExpiry ch d s ns
  | .safeNFall => Sys2Proof.Machine.execSafeNFall s
  | .safeNRise => Sys2Proof.Machine.execSafeNRise s
  | .safeSettled ch => Sys2Proof.Machine.execSafeSettled ch s
  | .mxCommit t => Sys2Proof.Machine.execMxCommit t s
  | .mxCommitEnd t => Sys2Proof.Machine.execMxCommitEnd t s
  | .mxErrRel t => Sys2Proof.Machine.execMxErrRel t s
  | .vlvChPmu ch w => Sys2Proof.Machine.execVlvChPmu ch w s
  | .pmuSettle ch => Sys2Proof.Machine.execPmuSettle ch s
  | .timingWrite r v => Sys2Proof.Machine.execTimingWrite r v s
  | .sqCommit => Sys2Proof.Machine.execSqCommit s
  | .tCommit t => Sys2Proof.Machine.execTCommit t s
  | .timPlane v => Sys2Proof.Machine.execTimPlane v s
  | .timErrRel t => Sys2Proof.Machine.execTimErrRel t s
  | .tdrStart t => Sys2Proof.Machine.execTdrStart t s
  | .tdrAbort t => Sys2Proof.Machine.execTdrAbort t s
  | .tdrLaunch t obs => Sys2Proof.Machine.execTdrLaunch t obs s
  | .tdrEnd t => Sys2Proof.Machine.execTdrEnd t s
  | .calDone => Sys2Proof.Machine.execCalDone s
  | .recalibrationStep ch => Sys2Proof.Machine.execRecalibrationStep ch s
  | .recalibrationEnd ch => Sys2Proof.Machine.execRecalibrationEnd ch s
  | .mapCommit q => Sys2Proof.Machine.execMapCommit q s
  | .mapErrRel q => Sys2Proof.Machine.execMapErrRel q s
  | .cmdStop q => Sys2Proof.Machine.execCmdStop q s
  | .twlNop q => Sys2Proof.Machine.execTwlNop q s
  | .twlRpt q => Sys2Proof.Machine.execTwlRpt q s
  | .twlLdc q => Sys2Proof.Machine.execTwlLdc q s
  | .twlDjnz q => Sys2Proof.Machine.execTwlDjnz q s
  | .twlJmp q => Sys2Proof.Machine.execTwlJmp q s
  | .twlCall q => Sys2Proof.Machine.execTwlCall q s
  | .twlRet q => Sys2Proof.Machine.execTwlRet q s
  | .twlBrc q => Sys2Proof.Machine.execTwlBrc q s
  | .twlMatch q => Sys2Proof.Machine.execTwlMatch q s
  | .twlMatchTimeout q => Sys2Proof.Machine.execTwlMatchTimeout q s
  | .twlHof q => Sys2Proof.Machine.execTwlHof q s
  | .twlStop q => Sys2Proof.Machine.execTwlStop q s
  | .twlEvt q => Sys2Proof.Machine.execTwlEvt q s
  | .twlSync q => Sys2Proof.Machine.execTwlSync q s
  | .twlApg q => Sys2Proof.Machine.execTwlApg q s
  | .twlClrf q => Sys2Proof.Machine.execTwlClrf q s
  | .gngNext g => Sys2Proof.Machine.execGngNext g s
  | .gngJmp g => Sys2Proof.Machine.execGngJmp g s
  | .gngJw g => Sys2Proof.Machine.execGngJw g s
  | .gngJnw g => Sys2Proof.Machine.execGngJnw g s
  | .gngLdc g => Sys2Proof.Machine.execGngLdc g s
  | .gngDjnz g => Sys2Proof.Machine.execGngDjnz g s
  | .gngCall g => Sys2Proof.Machine.execGngCall g s
  | .gngRet g => Sys2Proof.Machine.execGngRet g s
  | .gngRpt g => Sys2Proof.Machine.execGngRpt g s
  | .gngWaitt g => Sys2Proof.Machine.execGngWaitt g s
  | .gngJref g => Sys2Proof.Machine.execGngJref g s
  | .gngEnd g => Sys2Proof.Machine.execGngEnd g s
  | .refInterval g => Sys2Proof.Machine.execRefInterval g s
  | .refEn g on => Sys2Proof.Machine.execRefEn g on s
  | .tmrZero g => Sys2Proof.Machine.execTmrZero g s
  | .gngErrRel g => Sys2Proof.Machine.execGngErrRel g s
  | .strobeResult q obs => Sys2Proof.Machine.execStrobeResult q obs s
  | .recordWrite site => Sys2Proof.Machine.execRecordWrite site s
  | .padTimeout site => Sys2Proof.Machine.execPadTimeout site s
  | .dmkRingRd site v => Sys2Proof.Machine.execDmkRingRd site v s
  | .recordPortRead p m => Sys2Proof.Machine.execRecordPortRead p m s
  | .resultPortRead m => Sys2Proof.Machine.execResultPortRead m s
  | .resultPost site => Sys2Proof.Machine.execResultPost site s
  | .bmapClr site => Sys2Proof.Machine.execBmapClr site s
  | .bmapClearEnd site => Sys2Proof.Machine.execBmapClearEnd site s
  | .bitmapLineWrite site bad => Sys2Proof.Machine.execBitmapLineWrite site bad s
  | .raOpen k => Sys2Proof.Machine.execRaOpen k s
  | .raClose k => Sys2Proof.Machine.execRaClose k s
  | .raCloseEffect k => Sys2Proof.Machine.execRaCloseEffect k s
  | .raAbort k => Sys2Proof.Machine.execRaAbort k s
  | .repairCell k poison => Sys2Proof.Machine.execRepairCell k poison s
  | .repairSearchEnd k bad => Sys2Proof.Machine.execRepairSearchEnd k s bad
  | .create a => Sys2Proof.Machine.execCreate a s
  | .alloc a => Sys2Proof.Machine.execAlloc a s
  | .seal a => Sys2Proof.Machine.execSeal a s
  | .delete a => Sys2Proof.Machine.execDelete a s
  | .query a => Sys2Proof.Machine.execQuery a s
  | .calCmdInvalid a => Sys2Proof.Machine.execCalCmdInvalid a s
  | .scanEnd id => Sys2Proof.Machine.execScanEnd id s
  | .zeroFillEnd id => Sys2Proof.Machine.execZeroFillEnd id s
  | .systemAreaBuilt => Sys2Proof.Machine.execSystemAreaBuilt s
  | .post p => Sys2Proof.Machine.execPost p s
  | .wdraw p => Sys2Proof.Machine.execWdraw p s
  | .collRel p => Sys2Proof.Machine.execCollRel p s
  | .admissionDecision => Sys2Proof.Machine.execAdmissionDecision s
  | .fillComplete q => Sys2Proof.Machine.execFillComplete q s
  | .lineDecode q => Sys2Proof.Machine.execLineDecode q s
  | .pzNext => Sys2Proof.Machine.execPzNext s
  | .pzOvfRel => Sys2Proof.Machine.execPzOvfRel s
  | .channelTrained dc r => Sys2Proof.Machine.execChannelTrained dc r s
  | .channelResumed dc failed => Sys2Proof.Machine.execChannelResumed dc failed s
  | .dramRequest pa write => Sys2Proof.Machine.execDramRequest pa write s
  | .dramReadDecode pa errs cache => Sys2Proof.Machine.execDramReadDecode pa errs cache s
  | .refab dc rank postpone => Sys2Proof.Machine.execRefab dc rank postpone s
  | .thermalPoll dc t0 t1 mr4 => Sys2Proof.Machine.execThermalPoll dc t0 t1 mr4 s
  | .idleSelfRefresh dc rank => Sys2Proof.Machine.execIdleSelfRefresh dc rank s
  | .retire dc => Sys2Proof.Machine.execRetire dc s
  | .redirectionSetupEnd dc good => Sys2Proof.Machine.execRedirectionSetupEnd dc good s
  | .migrationCopy dc errs => Sys2Proof.Machine.execMigrationCopy dc errs s
  | .ddrCapRel dc => Sys2Proof.Machine.execDdrCapRel dc s
  | .kwLoad a => Sys2Proof.Machine.execKwLoad a s
  | .kwErase a => Sys2Proof.Machine.execKwErase a s
  | .kwInvalid a => Sys2Proof.Machine.execKwInvalid a s
  | .encCapRel => Sys2Proof.Machine.execEncCapRel s
  | .rkreq k => Sys2Proof.Machine.execRkreq k s
  | .rekeyWalkStart => Sys2Proof.Machine.execRekeyWalkStart s
  | .rekeyPage bad => Sys2Proof.Machine.execRekeyPage s bad
  | .partialWrite id off data bad => Sys2Proof.Machine.execPartialWrite id off data s bad
  | .wholeLineWrite id line data bad => Sys2Proof.Machine.execWholeLineWrite id line data s bad
  | .nodeRebuild => Sys2Proof.Machine.execNodeRebuild s
  | .adcStart a => Sys2Proof.Machine.execAdcStart a s
  | .adcGstart mask => Sys2Proof.Machine.execAdcGstart mask s
  | .adcStop a => Sys2Proof.Machine.execAdcStop a s
  | .urgGo a => Sys2Proof.Machine.execUrgGo a s
  | .calGo a => Sys2Proof.Machine.execCalGo a s
  | .adcCalEnd a ofs0 gain0 ofs1 gain1 => Sys2Proof.Machine.execAdcCalEnd a ofs0 gain0 ofs1 gain1 s
  | .refReady t => Sys2Proof.Machine.execRefReady t s
  | .adcOutput a raws settle nref => Sys2Proof.Machine.execAdcOutput a raws settle nref s
  | .adcPortRead a m => Sys2Proof.Machine.execAdcPortRead a m s
  | .adcStrRd a v => Sys2Proof.Machine.execAdcStrRd a v s
  | .mfpNop m e => Sys2Proof.Machine.execMfpNop m e s
  | .mfpAdd m e => Sys2Proof.Machine.execMfpAdd m e s
  | .mfpSub m e => Sys2Proof.Machine.execMfpSub m e s
  | .mfpAnd m e => Sys2Proof.Machine.execMfpAnd m e s
  | .mfpOr m e => Sys2Proof.Machine.execMfpOr m e s
  | .mfpXor m e => Sys2Proof.Machine.execMfpXor m e s
  | .mfpSll m e => Sys2Proof.Machine.execMfpSll m e s
  | .mfpSrl m e => Sys2Proof.Machine.execMfpSrl m e s
  | .mfpSra m e => Sys2Proof.Machine.execMfpSra m e s
  | .mfpSlt m e => Sys2Proof.Machine.execMfpSlt m e s
  | .mfpSltu m e => Sys2Proof.Machine.execMfpSltu m e s
  | .mfpMin m e => Sys2Proof.Machine.execMfpMin m e s
  | .mfpMax m e => Sys2Proof.Machine.execMfpMax m e s
  | .mfpAbs m e => Sys2Proof.Machine.execMfpAbs m e s
  | .mfpMul m e => Sys2Proof.Machine.execMfpMul m e s
  | .mfpMulq m e => Sys2Proof.Machine.execMfpMulq m e s
  | .mfpAddi m e => Sys2Proof.Machine.execMfpAddi m e s
  | .mfpAndi m e => Sys2Proof.Machine.execMfpAndi m e s
  | .mfpOri m e => Sys2Proof.Machine.execMfpOri m e s
  | .mfpXori m e => Sys2Proof.Machine.execMfpXori m e s
  | .mfpShi m e => Sys2Proof.Machine.execMfpShi m e s
  | .mfpSlti m e => Sys2Proof.Machine.execMfpSlti m e s
  | .mfpLui m e => Sys2Proof.Machine.execMfpLui m e s
  | .mfpMaxs m e => Sys2Proof.Machine.execMfpMaxs m e s
  | .mfpMins m e => Sys2Proof.Machine.execMfpMins m e s
  | .mfpLdw m e => Sys2Proof.Machine.execMfpLdw m e s
  | .mfpLdh m e => Sys2Proof.Machine.execMfpLdh m e s
  | .mfpLdhu m e => Sys2Proof.Machine.execMfpLdhu m e s
  | .mfpLdb m e => Sys2Proof.Machine.execMfpLdb m e s
  | .mfpLdbu m e => Sys2Proof.Machine.execMfpLdbu m e s
  | .mfpLdd m e => Sys2Proof.Machine.execMfpLdd m e s
  | .mfpStw m e => Sys2Proof.Machine.execMfpStw m e s
  | .mfpSth m e => Sys2Proof.Machine.execMfpSth m e s
  | .mfpStb m e => Sys2Proof.Machine.execMfpStb m e s
  | .mfpStd m e => Sys2Proof.Machine.execMfpStd m e s
  | .mfpLl m e => Sys2Proof.Machine.execMfpLl m e s
  | .mfpSc m e => Sys2Proof.Machine.execMfpSc m e s
  | .mfpFence m e => Sys2Proof.Machine.execMfpFence m e s
  | .mfpClrres m e => Sys2Proof.Machine.execMfpClrres m e s
  | .mfpMac m e => Sys2Proof.Machine.execMfpMac m e s
  | .mfpMsu m e => Sys2Proof.Machine.execMfpMsu m e s
  | .mfpAccld m e => Sys2Proof.Machine.execMfpAccld m e s
  | .mfpAccadd m e => Sys2Proof.Machine.execMfpAccadd m e s
  | .mfpAccrd m e => Sys2Proof.Machine.execMfpAccrd m e s
  | .mfpBeq m e => Sys2Proof.Machine.execMfpBeq m e s
  | .mfpBne m e => Sys2Proof.Machine.execMfpBne m e s
  | .mfpBlt m e => Sys2Proof.Machine.execMfpBlt m e s
  | .mfpBge m e => Sys2Proof.Machine.execMfpBge m e s
  | .mfpJ m e => Sys2Proof.Machine.execMfpJ m e s
  | .mfpCall m e => Sys2Proof.Machine.execMfpCall m e s
  | .mfpJr m e => Sys2Proof.Machine.execMfpJr m e s
  | .mfpLoop m e => Sys2Proof.Machine.execMfpLoop m e s
  | .mfpReti m e => Sys2Proof.Machine.execMfpReti m e s
  | .mfpRetn m e => Sys2Proof.Machine.execMfpRetn m e s
  | .mfpWait m e => Sys2Proof.Machine.execMfpWait m e s
  | .mfpWaitEnd m => Sys2Proof.Machine.execMfpWaitEnd m s
  | .mfpIsync m e => Sys2Proof.Machine.execMfpIsync m e s
  | .mfpTrap m e => Sys2Proof.Machine.execMfpTrap m e s
  | .mfpMfsr m e => Sys2Proof.Machine.execMfpMfsr m e s
  | .mfpMtsr m e => Sys2Proof.Machine.execMfpMtsr m e s
  | .remoteLoadReturn m k => Sys2Proof.Machine.execRemoteLoadReturn m k s
  | .remoteStoreError m k => Sys2Proof.Machine.execRemoteStoreError m k s
  | .interruptEntry m e => Sys2Proof.Machine.execInterruptEntry m e s
  | .nmiEntry m => Sys2Proof.Machine.execNmiEntry m s
  | .reservationTimeout m => Sys2Proof.Machine.execReservationTimeout m s
  | .watchdogExpiry m => Sys2Proof.Machine.execWatchdogExpiry m s
  | .kick m => Sys2Proof.Machine.execKick m s
  | .mfpWdtCtrl m v => Sys2Proof.Machine.execMfpWdtCtrl m v s
  | .timerExpiry m => Sys2Proof.Machine.execTimerExpiry m s
  | .mfpTmrLoad m v => Sys2Proof.Machine.execMfpTmrLoad m v s
  | .tmrRel m => Sys2Proof.Machine.execTmrRel m s
  | .rstRel m => Sys2Proof.Machine.execRstRel m s
  | .ring m mask => Sys2Proof.Machine.execRing m mask s
  | .mfpDback m v => Sys2Proof.Machine.execMfpDback m v s
  | .mfpCtxid m v => Sys2Proof.Machine.execMfpCtxid m v s
  | .mfpApCtrl m w v => Sys2Proof.Machine.execMfpApCtrl m w v s
  | .hold b => Sys2Proof.Machine.execHold b s
  | .ringEngaged b => Sys2Proof.Machine.execRingEngaged b s
  | .ringOpen b => Sys2Proof.Machine.execRingOpen b s
  | .ringOpened b => Sys2Proof.Machine.execRingOpened b s
  | .bayRst b on => Sys2Proof.Machine.execBayRst b on s
  | .cnvPort c v => Sys2Proof.Machine.execCnvPort c v s
  | .icfpWord start w valid => Sys2Proof.Machine.execIcfpWord start w valid s
  | .tagVerified b => Sys2Proof.Machine.execTagVerified b s
  | .partialLoadEnd => Sys2Proof.Machine.execPartialLoadEnd s
  | .icfpAbort => Sys2Proof.Machine.execIcfpAbort s
  | .icfpRel => Sys2Proof.Machine.execIcfpRel s
  | .injRel => Sys2Proof.Machine.execInjRel s
  | .upsetRel => Sys2Proof.Machine.execUpsetRel s
  | .scrubFrame region frame x => Sys2Proof.Machine.execScrubFrame region frame x s
  | .coldStart master authOnly mac serial ledger head => Sys2Proof.Machine.execColdStart master authOnly mac serial ledger head s
  | .segmentRead r => Sys2Proof.Machine.execSegmentRead r s
  | .writeRecord pairs => Sys2Proof.Machine.execWriteRecord pairs s
  | .frames addr frames => Sys2Proof.Machine.execFrames addr frames s
  | .imem m off data => Sys2Proof.Machine.execImem m off data s
  | .dmem m off data => Sys2Proof.Machine.execDmem m off data s
  | .endRecord crc => Sys2Proof.Machine.execEndRecord crc s
  | .goldenBuildEnd => Sys2Proof.Machine.execGoldenBuildEnd s
  | .doneRise => Sys2Proof.Machine.execDoneRise s
  | .startUpPhase => Sys2Proof.Machine.execStartUpPhase s
  | .lockTimeout => Sys2Proof.Machine.execLockTimeout s
  | .warm => Sys2Proof.Machine.execWarm s
  | .failRel => Sys2Proof.Machine.execFailRel s
  | .portBringUp w => Sys2Proof.Machine.execPortBringUp w s
  | .cap w sysId major offer place => Sys2Proof.Machine.execCap w sysId major offer place s
  | .laneGood w l => Sys2Proof.Machine.execLaneGood w l s
  | .rateStepEnd w errs => Sys2Proof.Machine.execRateStepEnd w errs s
  | .link w ack nak ctl bcast => Sys2Proof.Machine.execLink w ack nak ctl bcast s
  | .laneDrop w l x => Sys2Proof.Machine.execLaneDrop w l x s
  | .recoverEnd w => Sys2Proof.Machine.execRecoverEnd w s
  | .recoverTimeout w => Sys2Proof.Machine.execRecoverTimeout w s
  | .laneRetrainEnd w l => Sys2Proof.Machine.execLaneRetrainEnd w l s
  | .timeCmd w dev depth ct path t1 t2 t3 t4 => Sys2Proof.Machine.execTimeCmd w dev depth ct path t1 s t2 t3 t4
  | .arrive n d bad => Sys2Proof.Machine.execArrive n d bad s
  | .release n t => Sys2Proof.Machine.execRelease n t s
  | .ack n d => Sys2Proof.Machine.execAck n d s
  | .barrierAckDeadline n => Sys2Proof.Machine.execBarrierAckDeadline n s
  | .barrierStart n => Sys2Proof.Machine.execBarrierStart n s
  | .fail n => Sys2Proof.Machine.execFail n s
  | .withdraw n d => Sys2Proof.Machine.execWithdraw n d s
  | .lost => Sys2Proof.Machine.execLost s
  | .probeTimer => Sys2Proof.Machine.execProbeTimer s
  | .probe d => Sys2Proof.Machine.execProbe d s
  | .gfsum d on => Sys2Proof.Machine.execGfsum d on s
  | .gstop => Sys2Proof.Machine.execGstop s
  | .gstopReceived w => Sys2Proof.Machine.execGstopReceived s w
  | .bcGo => Sys2Proof.Machine.execBcGo s
  | .bcCreate x => Sys2Proof.Machine.execBcCreate x s
  | .bcast x => Sys2Proof.Machine.execBcast x s
  | .bcSeal x => Sys2Proof.Machine.execBcSeal x s
  | .cascEn on reach => Sys2Proof.Machine.execCascEn on reach s
  | .retrain w => Sys2Proof.Machine.execRetrain w s
  | .prbsEn w on errs => Sys2Proof.Machine.execPrbsEn w on errs s
  | .twdCapRel => Sys2Proof.Machine.execTwdCapRel s
  | .ethFrame f => Sys2Proof.Machine.execEthFrame f s
  | .pause quanta => Sys2Proof.Machine.execPause quanta s
  | .arp ip => Sys2Proof.Machine.execArp ip s
  | .neighbourSolicitation target => Sys2Proof.Machine.execNeighbourSolicitation target s
  | .echo v6 dst len => Sys2Proof.Machine.execEcho v6 dst len s
  | .announce domain ds utc => Sys2Proof.Machine.execAnnounce domain ds utc s
  | .syncMessage domain ds ofs => Sys2Proof.Machine.execSyncMessage domain ds ofs s
  | .linkChange link modAbs los => Sys2Proof.Machine.execLinkChange link modAbs los s
  | .acknowledgement session stream a => Sys2Proof.Machine.execAcknowledgement session stream a s
  | .slpOpen h p tag maxpay force => Sys2Proof.Machine.execSlpOpen h p tag maxpay force s
  | .slpClose h tag => Sys2Proof.Machine.execSlpClose h tag s
  | .slpStatus h tag => Sys2Proof.Machine.execSlpStatus h tag s
  | .slpCal h tag cmd id sizeLo sizeHi => Sys2Proof.Machine.execSlpCal h tag cmd id sizeLo sizeHi s
  | .slpRead h tag id off len => Sys2Proof.Machine.execSlpRead h tag id off len s
  | .slpKey h tag cmd blob => Sys2Proof.Machine.execSlpKey h tag cmd blob s
  | .slpFlBegin h tag slot size ok => Sys2Proof.Machine.execSlpFlBegin h tag slot size ok s
  | .slpFlData h slot off data ok => Sys2Proof.Machine.execSlpFlData h slot off data ok s
  | .slpFlCommit h tag crc dir2 readback ok => Sys2Proof.Machine.execSlpFlCommit h tag crc dir2 readback ok s
  | .slpRestart h tag slot => Sys2Proof.Machine.execSlpRestart h tag slot s
  | .slpShutdown h tag => Sys2Proof.Machine.execSlpShutdown h tag s
  | .slpStandby h tag => Sys2Proof.Machine.execSlpStandby h tag s
  | .slpCsr h tag entries => Sys2Proof.Machine.execSlpCsr h tag entries s
  | .slpObjData h id off data => Sys2Proof.Machine.execSlpObjData h id off data s
  | .slpMsg h q words => Sys2Proof.Machine.execSlpMsg h q words s
  | .slpDebugRequest h tag entries => Sys2Proof.Machine.execSlpDebugRequest h tag entries s
  | .slpSend stream => Sys2Proof.Machine.execSlpSend stream s
  | .retransmitTimeout stream seq => Sys2Proof.Machine.execRetransmitTimeout stream seq s
  | .ackDelay stream => Sys2Proof.Machine.execAckDelay stream s
  | .sessionTimeout => Sys2Proof.Machine.execSessionTimeout s
  | .sessEnd => Sys2Proof.Machine.execSessEnd s
  | .txSend mask => Sys2Proof.Machine.execTxSend mask s
  | .rxSkip mask => Sys2Proof.Machine.execRxSkip mask s
  | .ethRxRead q m => Sys2Proof.Machine.execEthRxRead q m s
  | .refclkLoss fab why => Sys2Proof.Machine.execRefclkLoss fab s why
  | .trefLoss fab why => Sys2Proof.Machine.execTrefLoss fab s why
  | .xtal32Loss why => Sys2Proof.Machine.execXtal32Loss s why
  | .referenceRestored r counts => Sys2Proof.Machine.execReferenceRestored r s counts
  | .ioscWindow count => Sys2Proof.Machine.execIoscWindow count s
  | .muxSwitch forced => Sys2Proof.Machine.execMuxSwitch forced s
  | .pllLock isl => Sys2Proof.Machine.execPllLock isl s
  | .fmGo => Sys2Proof.Machine.execFmGo s
  | .fmEnd hz => Sys2Proof.Machine.execFmEnd hz s
  | .forcedRel => Sys2Proof.Machine.execForcedRel s
  | .lossRel => Sys2Proof.Machine.execLossRel s
  | .clkMfp m v => Sys2Proof.Machine.execClkMfp m v s
  | .clkEn v => Sys2Proof.Machine.execClkEn v s
  | .railSample k v amp p => Sys2Proof.Machine.execRailSample k v amp p s
  | .railRel => Sys2Proof.Machine.execRailRel s
  | .resetThresholdFall fall => Sys2Proof.Machine.execResetThresholdFall s fall
  | .sensorRead temps => Sys2Proof.Machine.execSensorRead temps s
  | .tcritRel => Sys2Proof.Machine.execTcritRel s
  | .stbyGo => Sys2Proof.Machine.execStbyGo s
  | .standbyEntryEnd => Sys2Proof.Machine.execStandbyEntryEnd s
  | .stbyRefRel => Sys2Proof.Machine.execStbyRefRel s
  | .wakeNFall => Sys2Proof.Machine.execWakeNFall s
  | .rtcAlarm => Sys2Proof.Machine.execRtcAlarm s
  | .psPgRise => Sys2Proof.Machine.execPsPgRise s
  | .vaonSettled => Sys2Proof.Machine.execVaonSettled s
  | .eventOccurrence n => Sys2Proof.Machine.execEventOccurrence n s
  | .stuckTimeout n => Sys2Proof.Machine.execStuckTimeout n s
  | .evtUnmask n => Sys2Proof.Machine.execEvtUnmask n s
  | .stormRel => Sys2Proof.Machine.execStormRel s
  | .evtNext m q => Sys2Proof.Machine.execEvtNext m q s
  | .evqTake => Sys2Proof.Machine.execEvqTake s
  | .evinChange k samples => Sys2Proof.Machine.execEvinChange k s samples
  | .rtcSet => Sys2Proof.Machine.execRtcSet s
  | .rtcAlign ptp => Sys2Proof.Machine.execRtcAlign ptp s
  | .ledgerMinute => Sys2Proof.Machine.execLedgerMinute s
  | .flushGo => Sys2Proof.Machine.execFlushGo s
  | .flushInterval => Sys2Proof.Machine.execFlushInterval s
  | .flushEnd ok => Sys2Proof.Machine.execFlushEnd ok s
  | .bstPrecheck => Sys2Proof.Machine.execBstPrecheck s
  | .selfTestEnd r => Sys2Proof.Machine.execSelfTestEnd r s
  | .chalGo p => Sys2Proof.Machine.execChalGo p s
  | .authGo p => Sys2Proof.Machine.execAuthGo p s
  | .lockoutEnd p => Sys2Proof.Machine.execLockoutEnd p s
  | .challengeExpiry p => Sys2Proof.Machine.execChallengeExpiry p s
  | .logout p => Sys2Proof.Machine.execLogout p s
  | .tapReset => Sys2Proof.Machine.execTapReset s
  | .tapIdcode => Sys2Proof.Machine.execTapIdcode s
  | .tapSamplePreload cells => Sys2Proof.Machine.execTapSamplePreload s cells
  | .tapExtest cells => Sys2Proof.Machine.execTapExtest s cells
  | .tapClamp => Sys2Proof.Machine.execTapClamp s
  | .tapHighz => Sys2Proof.Machine.execTapHighz s
  | .tapBypass => Sys2Proof.Machine.execTapBypass s
  | .dbgaccRead addr => Sys2Proof.Machine.execDbgaccRead addr s
  | .dbgaccWrite addr data => Sys2Proof.Machine.execDbgaccWrite addr data s
  | .dbgaccReadInc addr => Sys2Proof.Machine.execDbgaccReadInc addr s
  | .dbgaccDone => Sys2Proof.Machine.execDbgaccDone s
  | .halt p m => Sys2Proof.Machine.execHalt p m s
  | .haltTaken m => Sys2Proof.Machine.execHaltTaken m s
  | .haltForce m => Sys2Proof.Machine.execHaltForce m s
  | .resume p m => Sys2Proof.Machine.execResume p m s
  | .step p m => Sys2Proof.Machine.execStep p m s
  | .feedGo p m => Sys2Proof.Machine.execFeedGo p m s
  | .drst p m => Sys2Proof.Machine.execDrst p m s
  | .dbgRegAccess p m v => Sys2Proof.Machine.execDbgRegAccess p m v s
  | .injectionPortInput c bytes => Sys2Proof.Machine.execInjectionPortInput c bytes s
  | .remoteStoreDone m k => Sys2Proof.Machine.execRemoteStoreDone m k s
  | .eventSourceInactive n => Sys2Proof.Machine.execEventSourceInactive n s
  | .pauseExpiry => Sys2Proof.Machine.execPauseExpiry s
  | .vaonLoss => Sys2Proof.Machine.execVaonLoss s
  | .vbatFall => Sys2Proof.Machine.execVbatFall s
  | .retentionSupplyLoss => Sys2Proof.Machine.execRetentionSupplyLoss s
  | .bstStartTimeout => Sys2Proof.Machine.execBstStartTimeout s
  | .ceWindowAge dc rank n => Sys2Proof.Machine.execCeWindowAge dc rank n s

end Sys2Proof.Machine
end

