-- ==== Sys2Proof/Machine/Tick.lean ====
section
/-! DEFINITION. What time brings without a command: the step of an empty queue is one microsecond.
Log entries 2 and 35. -/

namespace Sys2Proof.Machine

/-- The watchdog of an MFP counts a microsecond, and at zero resets it (R343). -/
def State.wdtTick (s : State) (n : Nat) : State :=
  if !s.wdtCounts n then s
  else if s.rd (MFP.WDT_LEFT.f n) ≤ 1 then s.mfpReset n 1
  else s.wr (MFP.WDT_LEFT.f n) (s.rd (MFP.WDT_LEFT.f n) - 1)

/-- The timer of an APG counts a microsecond down, and stops at zero (R169). -/
def State.tmrTick (s : State) (g : Nat) : State :=
  if !s.bit CLK.LK.f 2 then s
  else if s.rd (GNG.TMR.f g) ≤ 1000 then s.tmrZero g
  else s.wr (GNG.TMR.f g) (s.rd (GNG.TMR.f g) - 1000)

/-- A run whose ending is due comes to its boundary (R147). -/
def State.runTick (s : State) (q : Nat) : State :=
  match s.run? q with
  | none => s
  | some r => if r.ending.isSome then s.settle q else s

/-- A round of the fetchers: each has a turn for its run (R237). -/
def State.fetchRound (s : State) : State :=
  s.forUpTo 16 fun s q =>
    match s.run? q with
    | none => s
    | some r => s.fetch q r.front

/-- What Calico and the encryption layer do in a microsecond: the commands that wait, held writes, the background
class, the fetchers, with five rounds of 1,024 lines, and a decision on the requests held (log entries 33, 35, 43 and
91). -/
def State.memTick (s : State) : State :=
  let s := s.calTick.kwTick.serveLines.bgTick
  (if s.runs.isEmpty then s else s.forUpTo 5 fun s _ => s.fetchRound).decideTick

/-- One microsecond later by the device timestamp, which is counted from REFCLK, or in fallback from IOSC (R490). -/
def State.later (s : State) : State := if s.refRuns then { s with time := s.time + 1000 } else s

/-- A microsecond on a die that has its supplies: time stamps, watchdogs, the cycle counters and timers of the MFPs,
the timers of the APGs, the endings of runs, DRAM queues and debts, Calico and the encryption layer, Tweed's own
messages, the host port's queues, register accesses that were held (R10), and a self-test or a held request that can
now begin. -/
def State.dieTick (s : State) : State :=
  let s := (((s.later.forUpTo 8 State.wdtTick).forUpTo 8 State.mfpTick).forUpTo 12 State.ddrTick).forUpTo 4 State.tmrTick
  let s := ((s.forUpTo 16 State.runTick).memTick).forUpTo 16 State.adcTick
  let s := (s.forUpTo 16 State.ringTick).icfpSigLow.twdTick.noticePump.flushReplies.macDrain
  s.slpTick.serveHeld.loadTick.bstTryStart.settleHeld

/-- A microsecond passes (log entry 2). -/
def State.tick (s : State) : State :=
  let s := s.rtcPasses 1000
  if s.dieOn then s.dieTick else s

end Sys2Proof.Machine
end

