-- ==== Sys2Proof/Safety.lean ====
section
/-! DEFINITION. The terms in which the statements speak: the parts of the state, what a command leaves unchanged, and
the canonical form of the state. -/

namespace Sys2Proof.Machine

/-- The parts of the state. -/
inductive Part
  | opt | regs | tabs | mem | runs | inj | fifos | updates | results | sessions | dir | dirCopy | dramQ | lineQ | bcIn
  | pzList | uses | badNodes | cores | adcFifo | evq | twOut | slpWait | slpUnacked | slpHeld | ctrlQ | dbgQ | notices
  | slpObjs | rxMsgs | txBuf | ethTx | occ | raised | held | time | free | pending
  deriving DecidableEq, Repr

/-- The part is the same in both states. -/
def Part.kept (p : Part) (s t : State) : Prop :=
  match p with
  | .opt => t.opt = s.opt
  | .regs => t.regs = s.regs
  | .tabs => t.tabs = s.tabs
  | .mem => t.mem = s.mem
  | .runs => t.runs = s.runs
  | .inj => t.inj = s.inj
  | .fifos => t.fifos = s.fifos
  | .updates => t.updates = s.updates
  | .results => t.results = s.results
  | .sessions => t.sessions = s.sessions
  | .dir => t.dir = s.dir
  | .dirCopy => t.dirCopy = s.dirCopy
  | .dramQ => t.dramQ = s.dramQ
  | .lineQ => t.lineQ = s.lineQ
  | .bcIn => t.bcIn = s.bcIn
  | .pzList => t.pzList = s.pzList
  | .uses => t.uses = s.uses
  | .badNodes => t.badNodes = s.badNodes
  | .cores => t.cores = s.cores
  | .adcFifo => t.adcFifo = s.adcFifo
  | .evq => t.evq = s.evq
  | .twOut => t.twOut = s.twOut
  | .slpWait => t.slpWait = s.slpWait
  | .slpUnacked => t.slpUnacked = s.slpUnacked
  | .slpHeld => t.slpHeld = s.slpHeld
  | .ctrlQ => t.ctrlQ = s.ctrlQ
  | .dbgQ => t.dbgQ = s.dbgQ
  | .notices => t.notices = s.notices
  | .slpObjs => t.slpObjs = s.slpObjs
  | .rxMsgs => t.rxMsgs = s.rxMsgs
  | .txBuf => t.txBuf = s.txBuf
  | .ethTx => t.ethTx = s.ethTx
  | .occ => t.occ = s.occ
  | .raised => t.raised = s.raised
  | .held => t.held = s.held
  | .time => t.time = s.time
  | .free => t.free = s.free
  | .pending => t.pending = s.pending

/-- `t` differs from `s` at most in the parts `ps`. -/
def Only (ps : List Part) (s t : State) : Prop := ∀ p, p ∉ ps → p.kept s t

/-- Every register field and every piece of hidden state whose key is not in `ks` holds in `t` what it holds in `s`. -/
def RegsBut (ks : List Nat) (s t : State) : Prop := ∀ k, k ∉ ks → ∀ d, t.regs.get k d = s.regs.get k d

/-- The same of the table words. -/
def TabsBut (ks : List Nat) (s t : State) : Prop := ∀ k, k ∉ ks → ∀ d, t.tabs.get k d = s.tabs.get k d

/-- `t` differs from `s` at most in the register fields `ks`. -/
def OnlyRegs (ks : List Nat) (s t : State) : Prop := Only [.regs] s t ∧ RegsBut ks s t

/-- The keys of instances 0 to n - 1 of fields. -/
def keys (n : Nat) (ls : List Lay) : List Nat := ls.flatMap fun l => (List.range n).map fun k => (l.f k).key

/-- The fields hold in `t` what they hold in `s`. -/
def Same (fs : List Fld) (s t : State) : Prop := ∀ f ∈ fs, t.rd f = s.rd f

/-- The canonical form of the state: every sparse map lists its keys strictly rising, and memory lists no byte that
reads as an unlisted one does. -/
structure State.Canon (s : State) : Prop where
  regs : SMap.sorted s.regs = true
  tabs : SMap.sorted s.tabs = true
  mem : Memory.wf s.mem
  runs : SMap.sorted s.runs = true
  inj : SMap.sorted s.inj = true
  fifos : SMap.sorted s.fifos = true
  updates : SMap.sorted s.updates = true
  results : SMap.sorted s.results = true
  sessions : SMap.sorted s.sessions = true
  dir : SMap.sorted s.dir = true
  dirCopy : SMap.sorted s.dirCopy = true
  dramQ : SMap.sorted s.dramQ = true
  cores : SMap.sorted s.cores = true
  adcFifo : SMap.sorted s.adcFifo = true
  evq : SMap.sorted s.evq = true
  twOut : SMap.sorted s.twOut = true
  slpWait : SMap.sorted s.slpWait = true
  slpUnacked : SMap.sorted s.slpUnacked = true
  slpHeld : SMap.sorted s.slpHeld = true
  rxMsgs : SMap.sorted s.rxMsgs = true
  txBuf : SMap.sorted s.txBuf = true
  occ : SMap.sorted s.occ = true
  held : SMap.sorted s.held = true

/-! Where a sequencer stands. -/

/-- The run `r` of sequencer `q` stands at a boundary with line `l` to issue, every result that is due being there. -/
structure AtLine (s : State) (q : Nat) (r : SeqRun) (l : TwlLine) : Prop where
  run : (s.settle q).run? q = some r
  issuing : (s.settle q).issuing q = true
  known : (s.settle q).awaiting q r = false
  decoded : r.need = none
  line : r.line = some l

/-- The registers of a sequencer that its instructions write, but for its state code and its counts. -/
def seqFlds (q : Nat) : List Fld :=
  [TWL.FAIL.f q, TWL.MTO.f q, TWL.DET.f q, TWL.STATE_SP.f q] ++ (List.range 8).map fun k => TWL.LC.f q k

/-- The instruction commands of a sequencer with their opcodes (R131). -/
def twlOps (q : SeqId) : List (Nat × Instr) :=
  [(0, .twlNop q), (1, .twlRpt q), (3, .twlLdc q), (4, .twlDjnz q), (5, .twlJmp q), (6, .twlCall q), (7, .twlRet q),
    (8, .twlBrc q), (9, .twlMatch q), (0xA, .twlHof q), (0xB, .twlStop q), (0xC, .twlEvt q), (0xD, .twlSync q),
    (0xE, .twlApg q), (0xF, .twlClrf q)]

/-- Sequencer `q` has issued one vector of run `r` and goes to the line at `w`, outside a MATCH; no burst has ended. -/
def WentTo (q w : Nat) (r : SeqRun) (t : State) : Prop :=
  ∃ r', t.run? q = some r' ∧ r'.need = some w ∧ r'.line = none ∧ r'.mtch = none ∧ r'.vcnt = r.vcnt + 1 ∧
    r'.bursts.map (fun b => b.ended) = r.bursts.map (fun b => b.ended)

/-- The run of sequencer `q` has ended: it drains, and every burst of `r` that had not ended ends with `code`. -/
def RunEnded (q code : Nat) (r : SeqRun) (t : State) : Prop :=
  t.rd (TWL.STATE_STATE.f q) = 7 ∧ ∃ r', t.run? q = some r' ∧ r'.line = none ∧ r'.need = none ∧
    r'.bursts.map (fun b => b.ended) = r.bursts.map (fun b => b.ended.or (some code))

/-- The run of sequencer `q` ends at its next boundary with `code` at `line`, unless an ending with a lower code comes
there; it has no line left. -/
def EndsNext (q code line : Nat) (t : State) : Prop :=
  ∃ r', t.run? q = some r' ∧ r'.ending = some (code, line) ∧ r'.line = none ∧ r'.need = none

/-! Where an APG stands. -/

/-- APG `g` works for sequencer `q` in state APG, whose run `r` stands at a boundary of its line `l`; the APG's next
instruction is `pc`. -/
structure AtApg (s : State) (g q : Nat) (r : SeqRun) (l : TwlLine) (pc : Nat) : Prop where
  find : ((List.range 16).find? fun q => s.apgOf q == some g && s.rd (TWL.STATE_STATE.f q) == 6) = some q
  run : (s.settle q).run? q = some r
  issuing : (s.settle q).issuing q = true
  known : (s.settle q).awaiting q r = false
  state : (s.settle q).rd (TWL.STATE_STATE.f q) = 6
  line : r.line = some l
  npc : (s.settle q).rd (GNG.NPC.f g) = pc

/-- The vector to issue is the last of an execution of instruction `pc` with flow operation `fop`, which R177 allows. -/
structure LastOf (s : State) (g q : Nat) (r : SeqRun) (l : TwlLine) (pc fop : Nat) : Prop extends AtApg s g q r l pc where
  inside : pc < 4096
  right : (s.settle q).apgCause g pc = none
  fop : (s.settle q).apgFop g pc = fop
  last : r.spanPos + 1 = (s.settle q).spanLen q

/-- The instruction commands of an APG with their flow operations (R161). -/
def gngOps (g : ApgId) : List (Nat × Instr) :=
  [(0, .gngNext g), (1, .gngJmp g), (2, .gngJw g), (3, .gngJnw g), (4, .gngLdc g), (5, .gngDjnz g), (6, .gngCall g),
    (7, .gngRet g), (8, .gngRpt g), (9, .gngWaitt g), (10, .gngJref g), (11, .gngEnd g)]

/-- The registers of an APG that its flow operations write, but for the next instruction. -/
def apgFlds (g : Nat) : List Fld :=
  [GNG.STATE_SP.f g, GNG.STATE_DEBT.f g, GNG.TMR.f g] ++ (List.range 8).map (fun k => GNG.LC.f g k) ++
    (List.range 8).map fun k => GNG.STK.f g k

/-! Commands of Calico. -/

/-- Calico executes a command with code `op` from the arguments `a`: READY being set, from the registers where OP holds
the code, and where a write of CMD_GO reaches it or has left CMD_BUSY set and its clocks run; or from a message. -/
def CalMay (a : CalArgs) (op : Nat) (s : State) : Prop :=
  s.flag CAL.READY.f = true ∧
    match a with
    | .regs => s.rd CAL.CMD_OP.f = op ∧ if s.flag CAL.CMD_BUSY.f then s.calRuns = true else s.openTo 12 .cal = true
    | .msg .. => True

/-- The field that takes a command's outcome. -/
def calCode : CalArgs → Fld
  | .regs => CAL.CMD_STAT_CODE.f
  | .msg .. => CAL.X_CODE.f

/-- The fields that take a command's output words. -/
def calOut (k : Nat) : CalArgs → Fld
  | .regs => CAL.CMD_OUT.f k
  | .msg .. => CAL.X_OUT.f k

/-- A command of Calico ends with an outcome other than Done: the event of its end, and nothing else changes. -/
def CalRefused (a : CalArgs) (code : Nat) (s t : State) : Prop :=
  t.rd (calCode a) = code ∧ t.raised = s.raised ++ [(1235, s.time)] ∧ Only [.regs, .raised] s t ∧
    RegsBut (CAL.CMD_BUSY.f.key :: (calCode a).key :: (List.range 8).map fun k => (calOut k a).key) s t

/-! Key commands. -/

/-- A key command with code `op` runs from the arguments `a`: from the registers where OP holds the code, and where a
write of KW_GO reaches it or has left KW_BUSY set and its clocks run; from a message that carries it. The key ID lies
within its field. -/
def KwMay (a : KwArgs) (op : Nat) (s : State) : Prop :=
  (s.kwCmd a).op = op ∧ (s.kwCmd a).kid < 16 ∧
    match a with
    | .regs => if s.flag ENC.KW_BUSY.f then s.encRuns = true else s.openTo 12 .enc = true
    | .msg .. => True

/-- The field that takes a key command's outcome. -/
def kwCode : KwArgs → Fld
  | .regs => ENC.KW_STAT_CODE.f
  | .msg .. => CAL.X_CODE.f

/-- A key command ends with `code`, and else changes at most its data words and the fields `ks`. -/
def KwEnds (a : KwArgs) (code : Nat) (ks : List Nat) (s t : State) : Prop :=
  t.rd (kwCode a) = code ∧ OnlyRegs (ENC.KW_BUSY.f.key :: (kwCode a).key :: keys 10 [ENC.KW_DATA] ++ ks) s t

/-! The flow processors. -/

/-- Where MFP m issues next, and its slot's word. -/
structure Issues (s : State) (m : MfpId) (e : BundleEcc) (kind w : Nat) : Prop where
  code : mfpKind w = kind
  may : ((s.core m).slot = 0 ∧ w = s.slotWord m 0 % 2 ^ 31 ∧ (s.mfpBoundary m e).2 = true) ∨
    ((s.core m).slot = 1 ∧ w = s.slotWord m 1 ∧ s.bit CLK.LK_MFP.f m = true ∧ (s.core m).stepping = false)

/-- The instruction that MFP m issued has done `f` to its core, and the bundle has gone on by a slot or ended; a
comparator may have asked for a halt, which may have waited a while. -/
def CoreDoes (s : State) (m : MfpId) (f : MfpCore → MfpCore) (t : State) : Prop :=
  let c := f (s.core m)
  t.core m = { (if (s.core m).slot = 0 then { c with slot := 1 } else c.endBundle (bitOf (s.slotWord m 0) 31)) with
    haltReq := (t.core m).haltReq, haltFor := (t.core m).haltFor }

/-- What an instruction of MFP m leaves as it was, but for the parts `ps` and the fields `ks`: the other cores, and
every register but the cycle count, the timer and what its zero records, the ECC count and what a comparator shows. -/
def CoreOnly (s : State) (m : MfpId) (ps : List Part) (ks : List Nat) (t : State) : Prop :=
  Only ([.cores, .regs, .raised] ++ ps) s t ∧
    RegsBut ([(MFP.CYC.f m).key, (MFP.TMR.f m).key, (MFP.TMR_CAP.f m).key, (MFP.TMR_MISS.f m).key, (MFP.ECC_CNT.f m).key,
      (DBG.DEFER.f m).key] ++ ks) s t ∧
    ∀ k, k ≠ m.val → t.core k = s.core k

/-- The operands ra and rb of a word, as the bundle reads them. -/
def MfpCore.ra (c : MfpCore) (w : Nat) : Nat := c.get (bits w 14 5)
def MfpCore.rb5 (c : MfpCore) (w : Nat) : Nat := c.get (bits w 9 5)

/-- The instructions with one result: their code, latency (R329) and value (R326, R327, R330). -/
def mfpResults (m : MfpId) (e : BundleEcc) : List (Nat × Nat × (MfpCore → Nat → Nat) × Instr) :=
  [(0x01, 1, fun c w => narrow32 (bitOf w 24) (sx32 (c.ra w) + sx32 (c.rb5 w)), .mfpAdd m e),
    (0x02, 1, fun c w => narrow32 (bitOf w 24) (sx32 (c.ra w) - sx32 (c.rb5 w)), .mfpSub m e),
    (0x03, 1, fun c w => c.ra w &&& c.rb5 w, .mfpAnd m e),
    (0x04, 1, fun c w => c.ra w ||| c.rb5 w, .mfpOr m e),
    (0x05, 1, fun c w => c.ra w ^^^ c.rb5 w, .mfpXor m e),
    (0x06, 1, fun c w => narrow32 (bitOf w 24) (sx32 (c.ra w) * 2 ^ (c.rb5 w % 32)), .mfpSll m e),
    (0x07, 1, fun c w => c.ra w / 2 ^ (c.rb5 w % 32), .mfpSrl m e),
    (0x08, 1, fun c w => unsignedOf 32 (sx32 (c.ra w) / 2 ^ (c.rb5 w % 32)), .mfpSra m e),
    (0x09, 1, fun c w => if sx32 (c.ra w) < sx32 (c.rb5 w) then 1 else 0, .mfpSlt m e),
    (0x0A, 1, fun c w => if c.ra w < c.rb5 w then 1 else 0, .mfpSltu m e),
    (0x0B, 1, fun c w => if sx32 (c.ra w) ≤ sx32 (c.rb5 w) then c.ra w else c.rb5 w, .mfpMin m e),
    (0x0C, 1, fun c w => if sx32 (c.ra w) ≤ sx32 (c.rb5 w) then c.rb5 w else c.ra w, .mfpMax m e),
    (0x0D, 1, fun c w => narrow32 (bitOf w 24) (max (sx32 (c.ra w)) (-sx32 (c.ra w))), .mfpAbs m e),
    (0x0E, 2, fun c w => narrow32 (bitOf w 24) (sx32 (c.ra w) * sx32 (c.rb5 w)), .mfpMul m e),
    (0x0F, 2, fun c w => narrow32 (bitOf w 24) (sx32 (c.ra w) * sx32 (c.rb5 w) / 2 ^ 31), .mfpMulq m e),
    (0x10, 1, fun c w => narrow32 (bitOf w 24) (sx32 (c.ra w) + signedOf 14 w), .mfpAddi m e),
    (0x11, 1, fun c w => c.ra w &&& w % 2 ^ 14, .mfpAndi m e),
    (0x12, 1, fun c w => c.ra w ||| w % 2 ^ 14, .mfpOri m e),
    (0x13, 1, fun c w => c.ra w ^^^ w % 2 ^ 14, .mfpXori m e),
    (0x14, 1, fun c w =>
      if bits w 5 2 = 0 then narrow32 (bitOf w 24) (sx32 (c.ra w) * 2 ^ (w % 32))
      else if bits w 5 2 = 1 then c.ra w / 2 ^ (w % 32)
      else unsignedOf 32 (sx32 (c.ra w) / 2 ^ (w % 32)), .mfpShi m e),
    (0x15, 1, fun c w => if sx32 (c.ra w) < signedOf 14 w then 1 else 0, .mfpSlti m e),
    (0x16, 1, fun _ w => w % 2 ^ 18 * 2 ^ 14, .mfpLui m e),
    (0x34, 2, fun c w => narrow32 (bitOf w 24) (signedOf 40 (c.accAt (bits w 7 2) 4) / 2 ^ (w % 32)), .mfpAccrd m e),
    (0x205, 1, fun c w => c.sr (bits w 9 5), .mfpMfsr m e)]

/-- The instructions that write an accumulator, and what they write. -/
def mfpAccs (m : MfpId) (e : BundleEcc) : List (Nat × (MfpCore → Nat → Int) × Instr) :=
  [(0x30, fun c w =>
      signedOf 40 (c.accAt (bits w 7 2) 0) + macProduct (bits w 5 2) (c.ra w) (c.rb5 w) * 2 ^ min 8 (w % 32), .mfpMac m e),
    (0x31, fun c w =>
      signedOf 40 (c.accAt (bits w 7 2) 0) - macProduct (bits w 5 2) (c.ra w) (c.rb5 w) * 2 ^ min 8 (w % 32), .mfpMsu m e),
    (0x32, fun c w => sx32 (c.ra w) * 2 ^ min 8 (w % 32), .mfpAccld m e),
    (0x33, fun c w => signedOf 40 (c.accAt (bits w 7 2) 0) + sx32 (c.ra w) * 2 ^ min 8 (w % 32), .mfpAccadd m e)]

/-- The core goes elsewhere, with two idle cycles; at LE of an active loop RB and LC move all the same (R334; log entry
51). -/
def MfpCore.leads (c : MfpCore) (t : Nat) : MfpCore :=
  { c with target := some t, idle := 2, srNext := c.srNext ++ (if c.la = true ∧ c.pc = c.le ∧ c.looped = false
      then (if c.rot then [(11, c.rb + 15)] else []) ++ [(8, c.lc - 1)] else []) }

/-- A branch or jump that is taken. -/
def MfpCore.goes (c : MfpCore) (t : Int) : MfpCore := { (c.leads t.toNat) with stat := putBit c.stat 3 false }

/-- The branches, and when they are taken. -/
def mfpBranches (m : MfpId) (e : BundleEcc) : List (Nat × (Nat → Nat → Bool) × Instr) :=
  [(0x38, fun a b => a == b, .mfpBeq m e), (0x39, fun a b => a != b, .mfpBne m e),
    (0x3A, fun a b => decide (sx32 a < sx32 b), .mfpBlt m e), (0x3B, fun a b => decide (sx32 b ≤ sx32 a), .mfpBge m e)]

/-- The instructions that change their core alone, without a result, and what they do with it. -/
def mfpFlows (m : MfpId) (e : BundleEcc) : List (Nat × (MfpCore → Nat → MfpCore) × Instr) :=
  [(0x00, fun c _ => c, .mfpNop m e),
    (0x2C, fun c _ => c, .mfpFence m e),
    (0x2D, fun c _ => { c with res := none }, .mfpClrres m e),
    (0x3C, fun c w => c.goes (w % 2 ^ 15 * 8 : Nat), .mfpJ m e),
    (0x400, fun c w => (c.goes (w % 2 ^ 15 * 8 : Nat)).result 1 1 (c.pc + 8), .mfpCall m e),
    (0x3D, fun c w => if bitOf w 24 then (c.goes (c.ra w)).result 1 1 (c.pc + 8) else c.goes (c.ra w), .mfpJr m e),
    (0x3E, fun c w =>
      ({ c with lc := max 1 (c.ra w), ls := c.pc + 8, le := c.pc + 8 * (w % 2 ^ 14), looped := true }.setStat 3
        true).setStat 4 (bitOf w 24), .mfpLoop m e),
    (0x200, fun c _ => { (c.leads c.epc) with stat := c.estat }, .mfpReti m e),
    (0x201, fun c _ => { (c.leads c.npc) with stat := c.nstat }, .mfpRetn m e),
    (0x202, fun c _ => { c with waiting := true }, .mfpWait m e),
    (0x206, fun c w => { c with srNext := c.srNext ++ [(bits w 9 5, c.ra w)] }, .mfpMtsr m e)]

/-- The loads, and which extend the sign. -/
def mfpLoads (m : MfpId) (e : BundleEcc) : List (Nat × Bool × Instr) :=
  [(0x20, false, .mfpLdw m e), (0x21, true, .mfpLdh m e), (0x22, false, .mfpLdhu m e), (0x23, true, .mfpLdb m e),
    (0x24, false, .mfpLdbu m e), (0x25, false, .mfpLdd m e)]

/-- The stores. -/
def mfpStores (m : MfpId) (e : BundleEcc) : List (Nat × Instr) :=
  [(0x26, .mfpStw m e), (0x27, .mfpSth m e), (0x28, .mfpStb m e), (0x29, .mfpStd m e)]

/-- A remote access that MFP m has handed to its queues. -/
def MfpCore.queued (c : MfpCore) (r : Remote) : MfpCore := { c with remotes := c.remotes ++ [r] }

/-- MFP m stands at the boundary before a bundle, and nothing of the debug unit and no NMI comes first. -/
structure AtBoundary (s : State) (m : MfpId) : Prop where
  here : s.hasMfp m = true
  released : (s.core m).released = true
  clocked : s.bit CLK.LK_MFP.f m = true
  running : s.flag (DBG.HALTED.f m) = false
  slot : (s.core m).slot = 0
  awake : (s.core m).waiting = false
  noHalt : (s.core m).haltDue = false
  noNmi : s.nmiDue m = false
  stepless : (s.core m).stepping = false

/-- Entry for cause `code` (R339): what it saves, and where it goes. -/
def Entered (c : MfpCore) (code : Nat) (st : Bool) (d : MfpCore) : Prop :=
  d.epc = c.pc ∧ d.estat = c.stat ∧ d.cause = code + (if st then 256 else 0) ∧ d.pc = (c.vbase + 32 * code) % 2 ^ 32 ∧
    d.ie = false ∧ d.exl = true ∧ d.la = false ∧ d.nmil = c.nmil ∧ d.rot = c.rot ∧ d.res = none ∧ d.x = c.flush.x ∧
    d.acc = c.flush.acc ∧ d.vbase = c.vbase ∧ d.npc = c.npc ∧ d.nstat = c.nstat ∧ d.lc = c.lc ∧ d.ls = c.ls ∧
    d.le = c.le ∧ d.rb = c.rb ∧ d.cb = c.cb ∧ d.remotes = c.remotes

/-- MFP m has been reset (R322, R343): the capture taken once, its core and registers at their reset values, the reset
counted, and a ring at every other MFP that is present. -/
def MfpWasReset (m : MfpId) (cause : Nat) (s t : State) : Prop :=
  t.flag (MFP.RST_FULL.f m) = true ∧
    (s.flag (MFP.RST_FULL.f m) = false → t.rd (MFP.RSTCAP_CAUSE.f m) = cause ∧
      t.rd (MFP.RSTPC.f m) = (s.core m).pc % 2 ^ 32) ∧
    (s.flag (MFP.RST_FULL.f m) = true → Same [MFP.RSTCAP_CAUSE.f m, MFP.RSTPC.f m] s t) ∧
    t.core m = { released := (s.core m).released, nmi := (s.core m).nmi,
                 remotes := (s.core m).remotes.filter fun r => r.kind == .store } ∧
    (∀ j, j ≠ m.val → t.core j = s.core j) ∧
    (∀ f ∈ mfpResetFields m, t.rd f = f.reset) ∧
    t.rd (SHM.RSTCNT.f m) = (s.rd (SHM.RSTCNT.f m) + 1) % 2 ^ 32 ∧
    ∀ j : MfpId, j ≠ m → s.hasMfp j = true → t.rd (MFP.DBCNT.f j) = (s.rd (MFP.DBCNT.f j) + 1) % 2 ^ 32

/-! Loads. -/

/-- `t` differs from `s` at most in the register fields `ks` and the table words `ws`. -/
def OnlyRegsTabs (ks ws : List Nat) (s t : State) : Prop := Only [.regs, .tabs] s t ∧ RegsBut ks s t ∧ TabsBut ws s t

/-- A failure of a partial load is captured, if the capture was empty. -/
def IcfpCaught (cause region : Nat) (s t : State) : Prop :=
  t.flag CNV.ICFP_FULL.f = true ∧
    (s.flag CNV.ICFP_FULL.f = false → t.rd CNV.ICFP_CAP_CAUSE.f = cause ∧ t.rd CNV.ICFP_CAP_REGION.f = region) ∧
    (s.flag CNV.ICFP_FULL.f = true → Same [CNV.ICFP_CAP_CAUSE.f, CNV.ICFP_CAP_REGION.f] s t)

/-- The load of bay b in progress is past its header and takes the next word, a payload word: word `k` of segment `i`.
-/
structure IcfpMay (s : State) (b : Nat) (i k : Nat) : Prop where
  busy : s.flag CNV.ICFP_BUSY.f = true
  bay : s.rd CNV.ICFP_REGION.f = b
  header : s.rd CNV.ICFP_POS.f = 64
  ready : s.icfpReady = true
  word : s.rd CNV.ICFP_N.f = 16384 * i + k
  inSeg : k < s.icfpSegWords i
  noEnd : s.rd CNV.ICFP_END.f = 0

/-- Payload word `k` of segment `i` is stored, as it stands in the stream and as it reads. -/
def State.icfpStored (s : State) (i k w : Nat) : State :=
  (((s.wr CNV.ICFP_SIG.f 0).setTab CNV.seg 0 k w).inc CNV.ICFP_N.f).setTab CNV.pay 0 (16380 * i + k) (s.icfpPlain i k w)

/-- What a partial load changes of its bay. -/
def bayFlds (b : Nat) : List Fld :=
  [CNV.BAY_STAT_BSTATE.f b, CNV.HOLD.f b, CNV.HALF.f b, CNV.LOADRST.f b, CNV.RST.f b, CNV.HELD.f b]

/-- A failure of the load is captured, if the capture was empty. -/
def CfgCaught (cause slot seg : Nat) (s t : State) : Prop :=
  t.flag CFG.FAIL_FULL.f = true ∧
    (s.flag CFG.FAIL_FULL.f = false → t.rd CFG.FAIL_CAP_CAUSE.f = cause ∧ t.rd CFG.FAIL_CAP_SLOT.f = slot % 4 ∧
      t.rd CFG.FAIL_CAP_SEG.f = seg % 2 ^ 24) ∧
    (s.flag CFG.FAIL_FULL.f = true → Same [CFG.FAIL_CAP_CAUSE.f, CFG.FAIL_CAP_SLOT.f, CFG.FAIL_CAP_SEG.f] s t)

/-- A failure at steps 2 to 5 (R382): captured, the fabric, IMEM and DMEM cleared, nothing staged, and the next slot
tried or, after the last, SAFEHOLD. -/
def LoadFailed (cause seg : Nat) (s t : State) : Prop :=
  CfgCaught cause (s.rd (CFG.ORD.f (s.rd CFG.TRY.f))) seg s t ∧ (∀ k, loadedByte k = true → t.byte k = 0) ∧
    (∀ k, loadedByte k = false → t.byte k = s.byte k) ∧ t.rd CFG.PAIRS.f = 0 ∧ t.rd CFG.POS.f = 0 ∧
    let n := s.rd CFG.TRY.f + 1
    if n < 3 ∧ s.rd (CFG.ORD.f n) ≠ 3 then t.rd CFG.STATE_STEP.f = 3 ∧ t.rd CFG.TRY.f = n
    else t.rd CFG.STATE_STEP.f = 11 ∧ t.flag CFG.SAFEHOLD.f = true ∧ t.flag CFG.BUSY.f = false ∧ t.cores = [] ∧
      t.flag VLV.OUT_HELD.f = true

/-! Tweed. -/

/-- TWD_ERR_CAP has taken an error, if it was empty. -/
def TwdCaught (kind port lane bar : Nat) (s t : State) : Prop :=
  t.flag TWD.CAP_FULL.f = true ∧
    (s.flag TWD.CAP_FULL.f = false → t.rd TWD.ERR_CAP_KIND.f = kind ∧ t.rd TWD.ERR_CAP_PORT.f = port ∧
      t.rd TWD.ERR_CAP_LANE.f = lane ∧ t.rd TWD.ERR_CAP_BAR.f = bar) ∧
    (s.flag TWD.CAP_FULL.f = true → Same [TWD.ERR_CAP_KIND.f, TWD.ERR_CAP_PORT.f, TWD.ERR_CAP_LANE.f,
      TWD.ERR_CAP_BAR.f, TWD.ERR_CAP_DEV.f] s t)

/-- The fields in which a port shows its state. -/
def portKeys (w : Nat) : List Nat :=
  [TWD.UP, TWD.DEGR, TWD.RECOV, TWD.TRAIN, TWD.P_STAT_RATE, TWD.P_STAT_LANES, TWD.P_STAT_PSTATE, TWD.P_CRED, TWD.P_CCTL,
    TWD.P_CBC, TWD.P_SEQ].map fun l => (l.f w).key

/-! The host port. -/

/-- A reply goes out, or waits while transmission is halted. -/
def Replied (r : EthReply) (s t : State) : Prop :=
  (s.txOk = true → t.rd ETH.TX_FRAMES.f = satInc 32 (s.rd ETH.TX_FRAMES.f) ∧ OnlyRegs [ETH.TX_FRAMES.f.key] s t) ∧
    (s.txOk = false → t.ethTx = s.ethTx ++ [r] ∧ Only [.ethTx] s t)

/-- The frames of stream n that are sent and not acknowledged, and those that wait, in order. -/
def State.txFrames (s : State) (n : Nat) : List (List Nat) := (s.unackedOf n ++ s.waitOf n).map fun x => x.words

/-- What waited for transmission has been sent as far as each stream may, in its order. -/
def Flushed (s t : State) : Prop :=
  (∀ n, t.txFrames n = s.txFrames n) ∧ (∀ n, n < 11 → t.waitOf n = [] ∨ t.mayNew n = false) ∧
    t.ethTx = (if t.txOk then [] else s.ethTx) ∧ Only [.regs, .slpWait, .slpUnacked, .ethTx] s t

/-- The frame with header h is the next of the bound session on stream n, within the window, on a stream that is
served; it carries no acknowledgement, and nothing is held behind it or waits to be executed. -/
structure SlpMay (s : State) (n : Nat) (h : SlpHdr) : Prop where
  rx : s.rxOk = true
  sess : s.flag ETH.SESS.f = true
  id : h.session.toNat = s.rd ETH.SESSION.f
  served : s.safeOnly = true → n < 2
  ack : h.ack = none
  next : h.seq.toNat = s.rd (ETH.RX_NEXT.f n)
  fresh : seqBefore h.seq.toNat (s.rd (ETH.ADV_ACK.f n)) = false
  room : seqDist h.seq.toNat (s.rd (ETH.ADV_ACK.f n)) + h.more.toNat < s.rd (ETH.RX_WIN.f n)
  held : s.heldOf n = []
  quiet : s.ctrlQ = []

/-- A message on stream n may be answered at once in one frame of 1,024 bytes. -/
structure MayAnswer (s : State) (n : Nat) : Prop where
  nothing : s.waitOf n = []
  may : s.mayNew n = true
  pay : 1024 ≤ s.rd ETH.MAXPAY.f

/-- A request that may be executed and answered at once; no other has collected answers. -/
structure RequestMay (s : State) (h : SlpHdr) : Prop extends SlpMay s 0 h, MayAnswer s 0 where
  noAnswers : s.rd (ETH.ANS_N.f 0) = 0

/-- The frame with header h is taken from stream n. -/
def State.slpTook (s : State) (n : Nat) (h : SlpHdr) : State :=
  ((s.wr ETH.LAST_RX.f s.time).wr (ETH.RX_NEXT.f n) (s.rd (ETH.RX_NEXT.f n) + h.more.toNat + 1)).wr (ETH.OWED.f n)
    (min 31 (s.rd (ETH.OWED.f n) + h.more.toNat + 1))

/-- One new frame has been sent on stream n, behind those that were not acknowledged. -/
def SentOn (n typ : Nat) (words : List Nat) (rel : TxRelease) (s t : State) : Prop :=
  t.waitOf n = [] ∧ t.rd (ETH.OWED.f n) = 0 ∧ t.rd ETH.TX_FRAMES.f = satInc 32 (s.rd ETH.TX_FRAMES.f) ∧
    t.rd (ETH.TX_SEQ.f n) = (s.rd (ETH.TX_SEQ.f n) + 1) % 2 ^ 32 ∧
    t.unackedOf n = s.unackedOf n ++ [{ typ := typ, words := words, first := true, last := true, rel := rel,
                                        seq := s.rd (ETH.TX_SEQ.f n), sends := 1, rto := max 1 (s.rd ETH.RTO.f)
                                        sentAt := s.time }]

/-- The response to a request: TAG, GCODE and BCODE, and the data. -/
def Answered (typ : Nat) (tag : Word) (g b : Nat) (data : List Nat) (s t : State) : Prop :=
  SentOn 0 (typ + 0x80) ([tag.toNat, g + b * 256] ++ data) .nothing s t

/-- Beside the parts ps and the fields ks, a request that came with header h changes only its place in stream 0. -/
def RequestOnly (h : SlpHdr) (ps : List Part) (ks : List Nat) (s t : State) : Prop :=
  t.rd (ETH.RX_NEXT.f 0) = (h.seq.toNat + h.more.toNat + 1) % 2 ^ 32 ∧
    Only ([.regs, .slpWait, .slpUnacked, .slpHeld] ++ ps) s t ∧
    RegsBut ([ETH.RX_NEXT.f.key, ETH.OWED.f.key, ETH.RX_WIN.f.key, ETH.ADV_ACK.f.key, ETH.LAST_RX.f.key, ETH.TX_SEQ.f.key,
      ETH.TX_FRAMES.f.key] ++ ks) s t ∧ (∀ n, t.heldOf n = s.heldOf n) ∧
    ∀ n, n ≠ 0 → t.waitOf n = s.waitOf n ∧ t.unackedOf n = s.unackedOf n

/-- A session is over (R439): what was not acknowledged is discarded, or stays with its source for the next session. -/
def SessionOver (s t : State) : Prop :=
  t.flag ETH.SESS.f = false ∧ t.rd ETH.SESSION.f = 0 ∧ t.flag ETH.RD_OPEN.f = false ∧ t.flag ETH.FL_OPEN.f = false ∧
    t.rd (DBG.LEVEL.f 1) = 0 ∧ t.slpHeld = [] ∧ t.ctrlQ = [] ∧ t.dbgQ = [] ∧ t.slpObjs = [] ∧
    (∀ n ∈ [0, 3, 8, 9, 10], t.waitOf n = [] ∧ t.unackedOf n = []) ∧
    (∀ n ∈ [2, 4, 5, 6, 7], t.unackedOf n = [] ∧ t.txFrames n = s.txFrames n) ∧
    (∀ m : MfpId, s.rd (DBG.OWN.f m) = 2 → t.rd (DBG.OWN.f m) = 0) ∧
    (∀ k, k / 2 ^ 48 ≠ ETH.ans.id → ∀ d, t.tabs.get k d = s.tabs.get k d) ∧
    Only [.regs, .tabs, .dir, .uses, .cores, .slpWait, .slpUnacked, .slpHeld, .ctrlQ, .dbgQ, .slpObjs] s t

/-- A notice has entered the queue, if there was room. -/
def Noticed (kind count arg0 arg1 : Nat) (s t : State) : Prop :=
  t.notices = if s.notices.length < 1024
    then s.notices ++ [{ kind := kind, count := count, arg0 := arg0, arg1 := arg1, ts := s.time % 2 ^ 32 }]
    else s.notices

/-- The frame with header h has been taken from stream n: the next SEQ, and the acknowledgement that it owes, sent at
the sixteenth frame. -/
def Took (n : Nat) (h : SlpHdr) (s t : State) : Prop :=
  t.rd (ETH.RX_NEXT.f n) = (h.seq.toNat + h.more.toNat + 1) % 2 ^ 32 ∧
    t.rd (ETH.OWED.f n) = (let o := min 31 (s.rd (ETH.OWED.f n) + h.more.toNat + 1)
      if 16 ≤ o ∧ s.txOk = true then 0 else o) ∧ ∀ k, t.heldOf k = s.heldOf k

/-- The keys of the fields that taking and acknowledging frames of stream n changes. -/
def rxKeys (n : Nat) : List Nat :=
  [(ETH.RX_NEXT.f n).key, (ETH.OWED.f n).key, (ETH.RX_WIN.f n).key, (ETH.ADV_ACK.f n).key, ETH.LAST_RX.f.key,
    ETH.TX_FRAMES.f.key]

/-! Clocks and power. -/

/-- STOP has been written to every sequencer (R147): every run drains, and every burst of it has ended. -/
def StopsEvery (s t : State) : Prop :=
  ∀ q : SeqId, s.run? q ≠ none → (s.issuing q = true ∨ s.rd (TWL.STATE_STATE.f q) = 1) →
    t.rd (TWL.STATE_STATE.f q) = 7 ∧ ∀ r, t.run? q = some r → ∀ b ∈ r.bursts, b.ended ≠ none

/-- CLK_LOSS_CAP holds the first loss after the last LOSS_REL. -/
def LossCaught (ref : Nat) (s t : State) : Prop :=
  t.flag CLK.LOSS_FULL.f = true ∧
    t.rd CLK.LOSS_CAP_REF.f = if s.flag CLK.LOSS_FULL.f then s.rd CLK.LOSS_CAP_REF.f else ref

/-- The lock bit of an island. -/
def lockBit : Island → Fld × Nat
  | .cp => (CLK.LK.f, 0)
  | .shm => (CLK.LK.f, 1)
  | .seq => (CLK.LK.f, 2)
  | .mem => (CLK.LK.f, 3)
  | .net => (CLK.LK.f, 4)
  | .mfp n => (CLK.LK_MFP.f, n)
  | .dc n => (CLK.LK_DC.f, n)
  | .tm t => (CLK.LK_TM.f, t)
  | .tw w => (CLK.LK_TW.f, w)
  | .fab k => (CLK.LK_FAB.f, k)

/-- An island's unit is present and its PLL has a reference. -/
def lockMay (i : Island) (s : State) : Prop :=
  match i with
  | .seq => s.flag CLK.TREF_OK.f = true
  | .tm _ => s.flag CLK.TREF_OK.f = true
  | .tw w => s.hasTwp w = true ∧ s.flag CLK.REF_OK.f = true
  | .fab _ => True
  | .mfp n => s.hasMfp n = true ∧ s.refRuns = true
  | .dc n => s.hasDc n = true ∧ s.refRuns = true
  | .cp => s.refRuns = true
  | .shm => s.refRuns = true
  | .mem => s.refRuns = true
  | .net => s.refRuns = true

/-- The absent-access capture holds the first absent access, and counts later ones (R42). -/
def AbsentCaught (a : Nat) (s t : State) : Prop :=
  t.flag SYS.HIT.f = true ∧
    (s.flag SYS.HIT.f = false → t.rd SYS.ABSENT_ADDR.f = a % 2 ^ 32) ∧
    (s.flag SYS.HIT.f = true → t.rd SYS.ABSENT_ADDR.f = s.rd SYS.ABSENT_ADDR.f ∧
      t.rd SYS.ABSENT_CNT.f = satInc SYS.ABSENT_CNT.width (s.rd SYS.ABSENT_CNT.f))

/-- What a start or a loss of supply leaves of the running machine: nothing. -/
def AllQuiet (t : State) : Prop :=
  t.runs = [] ∧ t.fifos = [] ∧ t.results = [] ∧ t.sessions = [] ∧ t.uses = [] ∧ t.cores = [] ∧ t.adcFifo = [] ∧
    t.evq = [] ∧ t.twOut = [] ∧ t.notices = [] ∧ t.rxMsgs = [] ∧ t.txBuf = [] ∧ t.flag ETH.SESS.f = false ∧ t.dramQ = [] ∧
    t.lineQ = [] ∧ t.bcIn = [] ∧ t.held = [] ∧ t.dbgQ = []

/-! Accesses to control space. -/

/-- The master may make an access that needs level `lvl` of a debug port (R532); no other master needs one. -/
def MasterMay (m : Master) (lvl : Nat) (s : State) : Prop := ∀ p, masterPort m = some p → lvl ≤ s.level p

/-- The field in which a debug port shows that its latest access was DENIED; none for another master. -/
def deniedKeys (m : Master) : List Nat := ((masterPort m).map fun p => (DBG.DENIED.f (portIdx p)).key).toList

/-- A register whose fields do no more than store what is written: not in the debug block, no pointer or IDATA register,
no list entry, and no field with an action of its own. -/
structure PlainReg (a : Nat) : Prop where
  word : a % 4 = 0
  above : 0x10000000 ≤ a
  below : a < 0x3C000000
  notDbg : inDbg a = false
  noAlias : aliasAt a = none
  noPtr : pairAt a = none
  noData : pairAt (a - 4) = none
  noEntry : adcEntryAt a = none
  noGstart : a ≠ 0x2C001800
  noPort : CNV.PORT_TAPDST.idx? a = none
  noAct : ∀ l ∈ layoutAt a, ∀ x, l.idx? a = some x → (actsAt a).find? (fun c => c.1 == l) = none

/-- The keys of the fields of the register at `a`. -/
def regKeys (a : Nat) : List Nat := (layoutAt a).filterMap fun l => (l.at? a).map fun f => f.key

/-- The block and unit that an access to `a` reaches are present and clocked. -/
structure Reached (s : State) (a : Nat) (b : Blk) : Prop where
  blk : blkAt (regOf a) = some b
  here : s.absent b = false
  unit : s.unitAbsent (regOf a) = false
  clocked : s.gated b = false

/-! The debug ports. -/

/-- The session of port `p` has ended (R530): its level and SIDEFX are zero, and every MFP that it owned is free, with
its comparators off, no group, and running. -/
def DbgEnded (p : DbgPort) (s t : State) : Prop :=
  t.rd (DBG.LEVEL.f (portIdx p)) = 0 ∧ t.flag (DBG.SIDEFX.f (portIdx p)) = false ∧
    (∀ m : MfpId,
      (s.rd (DBG.OWN.f m) = portIdx p + 1 → t.rd (DBG.OWN.f m) = 0 ∧ t.rd (DBG.M_HGRP.f m) = 0 ∧
        (∀ k, k < 8 → t.rd (DBG.M_AC_CTL_KIND.f m k) = 0) ∧ (∀ j, j < 4 → t.flag (DBG.M_DW_CTL_ANY.f m j) = false) ∧
        t.flag (DBG.HALTED.f m) = false ∧
        (s.flag (DBG.HALTED.f m) = true → t.core m = { s.core m with stepping := false, skipExec := true }) ∧
        (s.flag (DBG.HALTED.f m) = false → t.core m = s.core m)) ∧
      (s.rd (DBG.OWN.f m) ≠ portIdx p + 1 → t.core m = s.core m ∧
        Same ([DBG.OWN.f m, DBG.M_HGRP.f m, DBG.HALTED.f m, DBG.M_HCAUSE_CAUSE.f m, DBG.M_HCAUSE_UNIT.f m, MFP.WDT_LEFT.f m] ++
          (List.range 8).map (fun k => DBG.M_AC_CTL_KIND.f m k) ++ (List.range 4).map fun j => DBG.M_DW_CTL_ANY.f m j) s t)) ∧
    Only [.regs, .cores] s t ∧
    RegsBut ([(DBG.LEVEL.f (portIdx p)).key, (DBG.SIDEFX.f (portIdx p)).key] ++
      keys 8 [DBG.OWN, DBG.M_HGRP, DBG.HALTED, DBG.M_HCAUSE_CAUSE, DBG.M_HCAUSE_UNIT, MFP.WDT_LEFT] ++
      (List.range 8).flatMap fun m => (List.range 8).map (fun k => (DBG.M_AC_CTL_KIND.f m k).key) ++
        (List.range 4).map fun j => (DBG.M_DW_CTL_ANY.f m j).key) s t

/-- A command of port `p` reaches the debug block now: nothing that the port has issued before waits, and port S has a
session whose stream 3 is served (R444, R536). -/
structure PortOpen (s : State) (p : DbgPort) : Prop where
  turn : s.openTo (masterIdx (portMaster p)) .dbg = true
  session : p = .s → s.flag ETH.SESS.f = true ∧ s.safeOnly = false

/-- Port `p` may write a run-control bit of MFP m that needs level `lvl`: the MFP is present and the level is held
(R532). -/
structure RunMay (s : State) (p : DbgPort) (m : MfpId) (lvl : Nat) : Prop extends PortOpen s p where
  here : s.hasMfp m = true
  level : lvl ≤ s.level p

/-- `x` is a run-control command of a port for an MFP with the level it needs. -/
def RunOp (p : DbgPort) (m : MfpId) (x : Nat × Instr) : Prop :=
  x ∈ [(2, .halt p m), (2, .resume p m), (2, .step p m), (3, .drst p m), (2, .feedGo p m)]

/-- MFP m, which was halted, goes on (R541): not halted, no cause, the watchdog reloaded unless it counted on. -/
def WentOn (m : MfpId) (step : Bool) (s t : State) : Prop :=
  t.flag (DBG.HALTED.f m) = false ∧ t.rd (DBG.M_HCAUSE_CAUSE.f m) = 0 ∧ t.rd (DBG.M_HCAUSE_UNIT.f m) = 0 ∧
    t.core m = { s.core m with stepping := step, skipExec := true } ∧ (∀ k, k ≠ m.val → t.core k = s.core k) ∧
    t.rd (MFP.WDT_LEFT.f m) = (if s.flag (MFP.WDT_CTRL_RUNHALT.f m) then s.rd (MFP.WDT_LEFT.f m)
      else max 1 (s.rd (MFP.WDT_CTRL_PERIOD.f m)) % 2 ^ 24) ∧ Only [.regs, .cores] s t

/-! The ledger and the self-test. -/

/-- FIRST_ON takes the seconds once, with the first setting of RTC_VALID (R515). -/
def FirstOn (s t : State) : Prop :=
  if s.tab LDG.sram 0 2 = 0 ∧ s.tab LDG.sram 0 3 = 0
  then t.tab LDG.sram 0 2 = t.rd LDG.RTC_S.f % 2 ^ 32 ∧ t.tab LDG.sram 0 3 = t.rd LDG.RTC_S.f / 2 ^ 32
  else t.tab LDG.sram 0 2 = s.tab LDG.sram 0 2 ∧ t.tab LDG.sram 0 3 = s.tab LDG.sram 0 3

/-- A flush starts (R516): not beside another one; with no valid directory it is abandoned. -/
def FlushStarts (s t : State) : Prop :=
  (s.flag LDG.FLUSH_BUSY.f = true → t = s) ∧
    (s.flag LDG.FLUSH_BUSY.f = false → s.flag CFG.DIR_OK.f = false →
      t.flag LDG.FLUSH_ERR.f = true ∧ OnlyRegs [LDG.FLUSH_ERR.f.key] s t) ∧
    (s.flag LDG.FLUSH_BUSY.f = false → s.flag CFG.DIR_OK.f = true → t.flag LDG.FLUSH_BUSY.f = true ∧
      t.tab LDG.sram 0 1 = (s.tab LDG.sram 0 1 + 1) % 2 ^ 32 ∧ t.tab LDG.sram 0 15 = crc32 t.ledgerBytes ∧
      t.flag LDG.FLUSHED.f = true ∧ t.rd LDG.FLUSH_AT.f = s.time % 2 ^ 64 ∧
      OnlyRegsTabs [LDG.FLUSH_BUSY.f.key, LDG.FLUSHED.f.key, LDG.FLUSH_AT.f.key] [LDG.sram.key 0 1, LDG.sram.key 0 15] s t)

/-- WHERE of a self-test that was for `w`: 2 a shutdown, 1 a start, 3 a RESTART in a hold. -/
def bstPlace (w : Nat) : Nat := if w = 1 then 1 else if w = 3 then 2 else 0

/-- The registers of a channel that software writes. -/
def channelLays : List Lay :=
  [VLV.DRV_EN, VLV.LOAD_EN, VLV.CLAMP_EN, VLV.KELVIN, VLV.PMU_EN, VLV.LVL_STAGED, VLV.EXT_TH, VLV.PROT_EN, VLV.CH_VIH,
    VLV.CH_VIL, VLV.CH_VTT, VLV.CH_VOH, VLV.CH_VOL, VLV.CH_VCOM, VLV.CH_VCH, VLV.CH_VCL, VLV.CH_VSAFE, VLV.CH_LOAD_ISNK,
    VLV.CH_LOAD_ISRC, VLV.CH_PROT_OCTH, VLV.CH_PROT_CLTH, VLV.CH_PROT_FILT, VLV.CH_PROT_SAFE_MODE, VLV.CH_PMU_MODE,
    VLV.CH_PMU_RANGE, VLV.CH_PMU_FORCE]

/-- The fields that the end of a self-test may change; `ran`: the test had begun, so the channels are re-initialised. -/
def selfTestKeys (ran : Bool) : List Nat :=
  [BST.RUN.f.key, BST.WAIT.f.key, BST.HOLD.f.key, BST.TRYING.f.key, LDG.BST_HEAD.f.key, LDG.BST_ANY.f.key,
    LDG.FLUSH_OFF.f.key, LDG.FLUSH_BUSY.f.key, LDG.FLUSH_ERR.f.key, LDG.FLUSHED.f.key, LDG.FLUSH_AT.f.key,
    PWR.EN_MAIN.f.key, PWR.COLD_NEXT.f.key, CFG.SAFEHOLD.f.key, CFG.BUSY.f.key, CFG.STATE_STEP.f.key] ++
  keys 4 [BST.CHFAIL] ++
  (if ran then channelLays.flatMap fun l => (List.range 128).map fun c => (l.ch c).key else [])

/-- A self-test for `w` has ended with STATE `state`: its record is the latest, the channels of a test that had begun
take their reset state (R519), and what follows it has begun (R518, R521 to R523). -/
def SelfTested (w state : Nat) (words : List Nat) (s t : State) : Prop :=
  let i := if s.flag LDG.BST_ANY.f then (s.rd LDG.BST_HEAD.f + 1) % 16 else 0
  t.rd LDG.BST_HEAD.f = i ∧ t.flag LDG.BST_ANY.f = true ∧
    (∀ k, k < 8 → t.tab LDG.sram 0 (0x800 + 8 * i + k) = words.getD k 0 % 2 ^ 32) ∧
    t.flag BST.RUN.f = false ∧ t.rd BST.WAIT.f = 0 ∧ Only [.regs, .tabs] s t ∧
    (s.flag BST.RUN.f = true → ∀ l ∈ channelLays, ∀ c : Channel, t.rd (l.ch c) = l.reset) ∧
    RegsBut (selfTestKeys (s.flag BST.RUN.f)) s t ∧
    TabsBut ((List.range 8).map (fun k => LDG.sram.key 0 (0x800 + 8 * i + k)) ++
      (if w = 2 then [LDG.sram.key 0 1, LDG.sram.key 0 15] else [])) s t ∧
    (w = 2 → (t.flag LDG.FLUSH_OFF.f = true ∧ t.flag LDG.FLUSH_BUSY.f = true) ∨
      (t.flag PWR.EN_MAIN.f = false ∧ t.flag PWR.COLD_NEXT.f = true)) ∧
    (w = 1 → state = 1 → t.flag BST.HOLD.f = true ∧ t.flag CFG.SAFEHOLD.f = true ∧ t.rd CFG.STATE_STEP.f = 11) ∧
    (w = 1 → state ≠ 1 → t.rd CFG.STATE_STEP.f = 2 ∧ t.rd BST.HOLD.f = s.rd BST.HOLD.f) ∧
    (w = 3 → state = 0 → t.flag BST.HOLD.f = false ∧ t.flag CFG.SAFEHOLD.f = false ∧ t.flag CFG.BUSY.f = true ∧
      t.rd CFG.STATE_STEP.f = 2) ∧
    (w = 3 → state ≠ 0 → Same [BST.HOLD.f, CFG.SAFEHOLD.f, CFG.BUSY.f, CFG.STATE_STEP.f] s t)

end Sys2Proof.Machine
end

