-- ==== Sys2Proof/Footprint.lean ====
section
/-! DEFINITION. Which parts of the state a command may change, and the commands that may end in the clock-ratio fault.
-/

namespace Sys2Proof.Machine

/-- The parts of the state that a command may change: everything else is left as it was, whatever the operands. -/
def footprint : Instr → List Part
  | .releaseCheck .. | .detectorInputChange .. | .safeNRise .. | .safeSettled .. | .pmuSettle .. | .calDone ..
  | .recalibrationStep .. | .recalibrationEnd .. | .refInterval .. | .channelResumed .. | .refab .. | .thermalPoll ..
  | .idleSelfRefresh .. | .rekeyWalkStart .. | .adcCalEnd .. | .refReady .. | .kick .. | .mfpWdtCtrl ..
  | .timerExpiry .. | .mfpTmrLoad .. | .tmrRel .. | .rstRel .. | .ring .. | .mfpDback .. | .mfpCtxid ..
  | .ringEngaged .. | .ringOpened .. | .doneRise .. | .portBringUp .. | .cap .. | .laneGood .. | .rateStepEnd ..
  | .announce .. | .syncMessage .. | .ackDelay .. | .xtal32Loss .. | .referenceRestored .. | .ioscWindow ..
  | .muxSwitch .. | .railSample .. | .wakeNFall .. | .rtcAlarm .. | .vaonSettled .. | .flushEnd .. | .lockoutEnd ..
  | .challengeExpiry .. | .tapIdcode .. | .tapClamp .. | .tapHighz .. | .tapBypass .. | .dbgaccRead ..
  | .dbgaccWrite .. | .dbgaccReadInc .. | .vbatFall .. | .retentionSupplyLoss .. =>
    [.regs]
  | .injectionPortInput .. =>
    [.inj]
  | .mfpWaitEnd .. | .nmiEntry .. | .reservationTimeout .. | .haltForce .. =>
    [.cores]
  | .evqTake .. =>
    [.evq]
  | .mxCommitEnd .. | .tdrLaunch .. | .tdrEnd .. | .channelTrained .. | .tagVerified .. | .laneRetrainEnd ..
  | .ack .. | .withdraw .. | .stuckTimeout .. | .evinChange .. | .rtcAlign .. | .ledgerMinute .. | .flushInterval ..
  | .bstPrecheck .. | .selfTestEnd .. | .tapSamplePreload .. | .tapExtest .. | .bstStartTimeout .. =>
    [.regs, .tabs]
  | .raCloseEffect .. =>
    [.regs, .sessions]
  | .dramRequest .. =>
    [.regs, .dramQ]
  | .tapReset .. | .haltTaken .. =>
    [.regs, .cores]
  | .recoverEnd .. | .timeCmd .. | .probeTimer .. =>
    [.regs, .twOut]
  | .arp .. | .neighbourSolicitation .. | .echo .. =>
    [.regs, .ethTx]
  | .tmrZero .. | .laneDrop .. | .fmEnd .. | .ceWindowAge .. =>
    [.regs, .raised]
  | .absentRel .. | .protRel .. | .vlvCapRel .. | .mxErrRel .. | .vlvChPmu .. | .timPlane .. | .timErrRel ..
  | .tdrAbort .. | .mapErrRel .. | .refEn .. | .gngErrRel .. | .dmkRingRd .. | .bmapClr .. | .collRel ..
  | .pzOvfRel .. | .ddrCapRel .. | .kwLoad .. | .kwErase .. | .kwInvalid .. | .encCapRel .. | .rkreq .. | .calGo ..
  | .hold .. | .ringOpen .. | .bayRst .. | .icfpRel .. | .injRel .. | .upsetRel .. | .failRel .. | .twdCapRel ..
  | .fmGo .. | .forcedRel .. | .lossRel .. | .clkMfp .. | .railRel .. | .tcritRel .. | .stbyRefRel .. | .stormRel ..
  | .authGo .. =>
    [.regs, .held]
  | .deglitchExpiry .. | .safeNFall .. | .lost .. | .refclkLoss .. | .trefLoss .. | .sensorRead .. =>
    [.regs, .tabs, .runs]
  | .eventSourceInactive .. =>
    [.regs, .tabs, .raised]
  | .scrubFrame .. =>
    [.regs, .mem, .raised]
  | .repairCell .. =>
    [.runs, .sessions, .raised]
  | .link .. =>
    [.regs, .twOut, .raised]
  | .levelWrite .. | .lvlCommit .. | .mxCommit .. | .timingWrite .. | .sqCommit .. | .tCommit .. | .tdrStart ..
  | .mapCommit .. | .icfpAbort .. | .rtcSet .. | .flushGo .. =>
    [.regs, .tabs, .held]
  | .cnvPort .. =>
    [.regs, .inj, .held]
  | .resultPortRead .. =>
    [.regs, .results, .held]
  | .raOpen .. | .raClose .. =>
    [.regs, .sessions, .held]
  | .pzNext .. =>
    [.regs, .pzList, .held]
  | .logout .. | .halt .. | .resume .. | .step .. | .dbgRegAccess .. =>
    [.regs, .cores, .held]
  | .evtNext .. =>
    [.regs, .evq, .held]
  | .rxSkip .. | .ethRxRead .. =>
    [.regs, .rxMsgs, .held]
  | .recordPortRead .. | .query .. | .calCmdInvalid .. | .post .. | .wdraw .. | .retire .. =>
    [.regs, .raised, .held]
  | .chalGo .. =>
    [.regs, .held, .free]
  | .mfpApCtrl .. =>
    [.regs, .dir, .dirCopy, .uses]
  | .adcOutput .. =>
    [.regs, .mem, .cores, .adcFifo]
  | .probe .. | .gfsum .. =>
    [.regs, .tabs, .runs, .twOut]
  | .pause .. | .linkChange .. | .pauseExpiry .. =>
    [.regs, .slpWait, .slpUnacked, .ethTx]
  | .partialLoadEnd .. =>
    [.regs, .tabs, .mem, .raised]
  | .fail .. =>
    [.regs, .tabs, .runs, .raised]
  | .redirectionSetupEnd .. =>
    [.regs, .tabs, .dramQ, .raised]
  | .protForce .. | .protEn .. | .cmdStop .. =>
    [.regs, .tabs, .runs, .held]
  | .nodeRebuild .. =>
    [.regs, .tabs, .badNodes, .free]
  | .migrationCopy .. | .rekeyPage .. =>
    [.regs, .tabs, .raised, .free]
  | .interruptEntry .. | .watchdogExpiry .. =>
    [.regs, .dir, .dirCopy, .uses, .cores]
  | .admissionDecision .. =>
    [.regs, .runs, .inj, .sessions, .raised]
  | .arrive .. | .release .. | .barrierStart .. | .gstopReceived .. =>
    [.regs, .tabs, .runs, .twOut, .raised]
  | .adcStart .. | .adcGstart .. | .adcStop .. | .urgGo .. | .adcPortRead .. | .adcStrRd .. | .clkEn .. =>
    [.regs, .mem, .cores, .adcFifo, .held]
  | .gstop .. =>
    [.regs, .tabs, .runs, .twOut, .held]
  | .txSend .. =>
    [.regs, .slpWait, .slpUnacked, .txBuf, .held]
  | .delete .. =>
    [.regs, .dir, .dirCopy, .raised, .held]
  | .bmapClearEnd .. | .icfpWord .. =>
    [.regs, .tabs, .mem, .raised, .free]
  | .twlMatchTimeout .. =>
    [.regs, .tabs, .runs, .fifos, .updates, .sessions]
  | .mfpNop .. | .mfpAdd .. | .mfpSub .. | .mfpAnd .. | .mfpOr .. | .mfpXor .. | .mfpSll .. | .mfpSrl .. | .mfpSra ..
  | .mfpSlt .. | .mfpSltu .. | .mfpMin .. | .mfpMax .. | .mfpAbs .. | .mfpMul .. | .mfpMulq .. | .mfpAddi ..
  | .mfpAndi .. | .mfpOri .. | .mfpXori .. | .mfpShi .. | .mfpSlti .. | .mfpLui .. | .mfpMaxs .. | .mfpMins ..
  | .mfpLdw .. | .mfpLdh .. | .mfpLdhu .. | .mfpLdb .. | .mfpLdbu .. | .mfpLdd .. | .mfpLl .. | .mfpFence ..
  | .mfpClrres .. | .mfpMac .. | .mfpMsu .. | .mfpAccld .. | .mfpAccadd .. | .mfpAccrd .. | .mfpBeq .. | .mfpBne ..
  | .mfpBlt .. | .mfpBge .. | .mfpJ .. | .mfpCall .. | .mfpJr .. | .mfpLoop .. | .mfpReti .. | .mfpRetn ..
  | .mfpWait .. | .mfpTrap .. | .mfpMfsr .. | .mfpMtsr .. =>
    [.regs, .dir, .dirCopy, .uses, .cores, .raised]
  | .scanEnd .. =>
    [.regs, .dir, .dirCopy, .pzList, .notices, .raised]
  | .raAbort .. =>
    [.regs, .runs, .sessions, .dir, .dirCopy, .held]
  | .drst .. =>
    [.regs, .dir, .dirCopy, .uses, .cores, .held]
  | .bcGo .. =>
    [.regs, .dir, .dirCopy, .uses, .twOut, .held]
  | .evtUnmask .. =>
    [.regs, .tabs, .evq, .notices, .occ, .held]
  | .gngNext .. | .gngJmp .. | .gngJw .. | .gngJnw .. | .gngLdc .. | .gngDjnz .. | .gngCall .. | .gngRet ..
  | .gngRpt .. | .gngWaitt .. | .gngJref .. | .gngEnd .. =>
    [.regs, .tabs, .runs, .inj, .fifos, .updates, .sessions]
  | .mfpIsync .. =>
    [.regs, .tabs, .dir, .dirCopy, .uses, .cores, .raised]
  | .eventOccurrence .. =>
    [.regs, .tabs, .runs, .evq, .notices, .occ, .raised]
  | .cascEn .. =>
    [.regs, .tabs, .runs, .dir, .dirCopy, .uses, .held]
  | .seal .. =>
    [.regs, .dir, .dirCopy, .pzList, .notices, .raised, .held]
  | .strobeResult .. =>
    [.regs, .tabs, .runs, .fifos, .updates, .sessions, .free]
  | .zeroFillEnd .. =>
    [.regs, .tabs, .mem, .dir, .dirCopy, .raised, .free]
  | .create .. | .alloc .. =>
    [.regs, .tabs, .dir, .dirCopy, .raised, .held, .free]
  | .twlNop .. | .twlRpt .. | .twlLdc .. | .twlDjnz .. | .twlJmp .. | .twlCall .. | .twlRet .. | .twlBrc ..
  | .twlMatch .. | .twlHof .. | .twlStop .. | .twlEvt .. | .twlApg .. | .twlClrf .. =>
    [.regs, .tabs, .runs, .inj, .fifos, .updates, .sessions, .raised]
  | .mfpStw .. | .mfpSth .. | .mfpStb .. | .mfpStd .. | .mfpSc .. =>
    [.regs, .tabs, .mem, .dir, .dirCopy, .uses, .cores, .raised]
  | .recoverTimeout .. | .barrierAckDeadline .. =>
    [.regs, .tabs, .runs, .dir, .dirCopy, .uses, .twOut, .raised]
  | .recordWrite .. | .padTimeout .. | .bitmapLineWrite .. =>
    [.regs, .tabs, .mem, .runs, .fifos, .updates, .raised, .free]
  | .partialWrite .. | .wholeLineWrite .. =>
    [.regs, .tabs, .mem, .dir, .dirCopy, .lineQ, .raised, .free]
  | .bcCreate .. =>
    [.regs, .tabs, .dir, .dirCopy, .uses, .twOut, .raised, .free]
  | .resultPost .. =>
    [.regs, .tabs, .runs, .inj, .fifos, .updates, .results, .dir, .dirCopy]
  | .twlSync .. =>
    [.regs, .tabs, .runs, .inj, .fifos, .updates, .sessions, .twOut, .raised]
  | .pllLock .. =>
    [.regs, .tabs, .runs, .dir, .dirCopy, .uses, .cores, .twOut, .raised]
  | .retrain .. | .prbsEn .. =>
    [.regs, .tabs, .runs, .dir, .dirCopy, .uses, .twOut, .raised, .held]
  | .repairSearchEnd .. =>
    [.regs, .tabs, .mem, .runs, .sessions, .dir, .dirCopy, .raised, .free]
  | .fillComplete .. =>
    [.regs, .tabs, .runs, .dir, .dirCopy, .pzList, .notices, .raised, .free]
  | .dramReadDecode .. =>
    [.regs, .tabs, .dir, .dirCopy, .dramQ, .pzList, .badNodes, .notices, .raised, .free]
  | .retransmitTimeout .. | .sessionTimeout .. =>
    [.regs, .tabs, .dir, .dirCopy, .uses, .cores, .slpWait, .slpUnacked, .slpHeld, .ctrlQ, .dbgQ, .slpObjs]
  | .lineDecode .. =>
    [.regs, .tabs, .runs, .fifos, .updates, .sessions, .dir, .dirCopy, .pzList, .notices, .raised, .free]
  | .bcast .. | .bcSeal .. =>
    [.regs, .tabs, .mem, .dir, .dirCopy, .bcIn, .pzList, .uses, .twOut, .notices, .raised, .free]
  | .sessEnd .. =>
    [.regs, .tabs, .dir, .dirCopy, .uses, .cores, .slpWait, .slpUnacked, .slpHeld, .ctrlQ, .dbgQ, .slpObjs, .held]
  | .startUpPhase .. =>
    [.regs, .tabs, .runs, .fifos, .updates, .results, .dir, .dirCopy, .uses, .cores, .twOut, .slpWait, .slpUnacked,
    .slpHeld, .ctrlQ, .dbgQ, .slpObjs, .raised]
  | .segmentRead .. | .writeRecord .. | .frames .. | .imem .. | .dmem .. | .lockTimeout .. =>
    [.regs, .tabs, .mem, .runs, .fifos, .updates, .results, .dir, .dirCopy, .uses, .cores, .twOut, .slpWait,
    .slpUnacked, .slpHeld, .ctrlQ, .dbgQ, .slpObjs, .raised]
  | .stbyGo .. =>
    [.regs, .tabs, .runs, .fifos, .updates, .results, .dir, .dirCopy, .uses, .cores, .twOut, .slpWait, .slpUnacked,
    .slpHeld, .ctrlQ, .dbgQ, .slpObjs, .raised, .held]
  | .goldenBuildEnd .. =>
    [.regs, .tabs, .mem, .runs, .fifos, .updates, .results, .dir, .dirCopy, .uses, .cores, .twOut, .slpWait,
    .slpUnacked, .slpHeld, .ctrlQ, .dbgQ, .slpObjs, .raised, .free]
  | .resetThresholdFall .. | .standbyEntryEnd .. =>
    [.regs, .tabs, .mem, .runs, .inj, .fifos, .updates, .results, .sessions, .dir, .dramQ, .lineQ, .bcIn, .uses,
    .cores, .adcFifo, .evq, .twOut, .slpWait, .slpUnacked, .slpHeld, .ctrlQ, .dbgQ, .notices, .slpObjs, .rxMsgs,
    .txBuf, .ethTx, .occ, .raised, .held, .time]
  | .coldStart .. | .warm .. | .psPgRise .. | .vaonLoss .. =>
    [.regs, .tabs, .mem, .runs, .inj, .fifos, .updates, .results, .sessions, .dir, .dirCopy, .dramQ, .lineQ, .bcIn,
    .pzList, .uses, .badNodes, .cores, .adcFifo, .evq, .twOut, .slpWait, .slpUnacked, .slpHeld, .ctrlQ, .dbgQ,
    .notices, .slpObjs, .rxMsgs, .txBuf, .ethTx, .occ, .raised, .held, .time]
  | .registerWrite .. | .indirectDataAccess .. | .systemAreaBuilt .. | .remoteLoadReturn .. | .remoteStoreError ..
  | .endRecord .. | .ethFrame .. | .acknowledgement .. | .slpOpen .. | .slpClose .. | .slpStatus .. | .slpCal ..
  | .slpRead .. | .slpKey .. | .slpFlBegin .. | .slpFlData .. | .slpFlCommit .. | .slpRestart .. | .slpShutdown ..
  | .slpStandby .. | .slpCsr .. | .slpObjData .. | .slpMsg .. | .slpDebugRequest .. | .slpSend .. | .dbgaccDone ..
  | .feedGo .. | .remoteStoreDone .. =>
    [.regs, .tabs, .mem, .runs, .inj, .fifos, .updates, .results, .sessions, .dir, .dirCopy, .dramQ, .lineQ, .bcIn,
    .pzList, .uses, .badNodes, .cores, .adcFifo, .evq, .twOut, .slpWait, .slpUnacked, .slpHeld, .ctrlQ, .dbgQ,
    .notices, .slpObjs, .rxMsgs, .txBuf, .ethTx, .occ, .raised, .held, .time, .free]

/-- The commands that can set a processor clock, whose multiplier the device does not check (R462). -/
def mayStop : Instr → Bool
  | .registerWrite .. | .indirectDataAccess .. | .systemAreaBuilt .. | .remoteLoadReturn .. | .remoteStoreError ..
  | .endRecord .. | .slpCsr .. | .slpDebugRequest .. | .clkMfp .. | .dbgaccDone .. | .feedGo .. | .remoteStoreDone .. => true
  | _ => false

end Sys2Proof.Machine
end

