-- ==== Sys2Proof/Commands.lean ====
section
/-! DEFINITION. The commands that are one access to a register of the device. -/

namespace Sys2Proof.Machine

/-- The register access that a command is, the block that it reaches and whether the unit within it is present; none
for the other commands. A row of debug port S is one in a session whose stream 3 is served (R444, R536). -/
def rowAccess (c : Instr) (s : State) : Option (Access × Blk × Bool) :=
  match c with
  | .absentRel => some (SYS.ABSENT_REL.f.sets 1, .sys, true)
  | .levelWrite ch lvl code => some (((levelLay lvl).ch ch).sets code.toNat, .vlv (ch / 32), true)
  | .lvlCommit t => some ((VLV.LVL_COMMIT.f t).sets 1, .vlv t, true)
  | .protForce t => some ((VLV.PROT_FORCE.f t).sets 1, .vlv t, true)
  | .protRel t => some ((VLV.PROT_REL.f t).sets 1, .vlv t, true)
  | .vlvCapRel t => some ((VLV.CAP_REL.f t).sets 1, .vlv t, true)
  | .protEn ch on => some ((VLV.PROT_EN.ch ch).sets (b2n on), .vlv (ch / 32), true)
  | .mxCommit t => some ((VLV.MX_COMMIT.f t).sets 1, .vlv t, true)
  | .mxErrRel t => some ((VLV.MX_ERR_REL.f t).sets 1, .vlv t, true)
  | .vlvChPmu ch w => some (pmuAccess ch w, .vlv (ch / 32), true)
  | .timingWrite r v => some (.timing r v.toNat, .tim, true)
  | .sqCommit => some (TIM.SQ_COMMIT.f.sets 1, .tim, true)
  | .tCommit t => some ((TIM.T_COMMIT.f t).sets 1, .tim, true)
  | .timPlane v => some (.timing .plane v.toNat, .tim, true)
  | .timErrRel t => some ((TIM.ERR_REL.f t).sets 1, .tim, true)
  | .tdrStart t => some ((TIM.TDR_START.f t).sets 1, .tim, true)
  | .tdrAbort t => some ((TIM.TDR_ABORT.f t).sets 1, .tim, true)
  | .mapCommit q => some ((TWL.MAP_COMMIT.f q).sets 1, .twl, true)
  | .mapErrRel q => some ((TWL.MAP_ERR_REL.f q).sets 1, .twl, true)
  | .cmdStop q => some ((TWL.STOP.f q).sets 1, .twl, true)
  | .refEn g on => some ((GNG.REF_EN.f g).sets (b2n on), .gng, true)
  | .gngErrRel g => some ((GNG.ERR_REL.f g).sets 1, .gng, true)
  | .dmkRingRd site v => some ((DMK.RING_RD.f site).sets v.toNat, .dmk, true)
  | .resultPortRead m => some (.read m (DMK.RSP_D.f 15).addr, .dmk, true)
  | .bmapClr site => some ((DMK.SITE_CFG_BMAP_CLR.f site).sets 1, .dmk, true)
  | .raOpen k => some (DMK.OPEN.f.sets (2 ^ k.val), .dmk, s.hasRa)
  | .raClose k => some (DMK.CLOSE.f.sets (2 ^ k.val), .dmk, s.hasRa)
  | .raAbort k => some (DMK.ABORT.f.sets (2 ^ k.val), .dmk, s.hasRa)
  | .post p => some (CAL.POST.f.sets (2 ^ p.val), .cal, true)
  | .wdraw p => some (CAL.WDRAW.f.sets (2 ^ p.val), .cal, true)
  | .collRel p => some (CAL.COLL_REL.f.sets (2 ^ p.val), .cal, true)
  | .pzNext => some (CAL.PZ_NEXT.f.sets 1, .cal, true)
  | .pzOvfRel => some (CAL.PZ_OVF_REL.f.sets 1, .cal, true)
  | .retire dc => some ((DDR.RETIRE.f dc).sets 1, .ddr dc, true)
  | .ddrCapRel dc => some ((DDR.CAP_REL.f dc).sets 1, .ddr dc, true)
  | .encCapRel => some (ENC.CAP_REL.f.sets 1, .enc, true)
  | .rkreq k => some (ENC.RKREQ.f.sets (2 ^ k.val), .enc, true)
  | .adcStart a => some ((ADC.START.f a).sets 1, .adc, true)
  | .adcGstart mask => some (.set 0x2C001800 mask.toNat (2 ^ 32 - 1), .adc, true)
  | .adcStop a => some ((ADC.STOP.f a).sets 1, .adc, true)
  | .urgGo a => some ((ADC.URG_GO.f a).sets 1, .adc, true)
  | .calGo a => some ((ADC.CAL_GO.f a).sets 1, .adc, true)
  | .adcPortRead a m => some (.read m (ADC.PORT.f a).addr, .adc, true)
  | .adcStrRd a v => some ((ADC.STR_RD.f a).sets v.toNat, .adc, true)
  | .hold b => some ((CNV.HOLD.f b).sets 1, .cnv, true)
  | .ringOpen b => some ((CNV.HOLD.f b).sets 0, .cnv, true)
  | .bayRst b on => some ((CNV.RST.f b).sets (b2n on), .cnv, true)
  | .cnvPort c v => some (.set (0x38002000 + 4 * c) v.toNat (2 ^ 32 - 1), .cnv, true)
  | .icfpAbort => some (CNV.ICFP_ABORT.f.sets 1, .cnv, true)
  | .icfpRel => some (CNV.ICFP_REL.f.sets 1, .cnv, true)
  | .injRel => some (CNV.INJ_REL.f.sets 1, .cnv, true)
  | .upsetRel => some (CNV.UPSET_REL.f.sets 1, .cnv, true)
  | .warm => some (CFG.WARM.f.sets 1, .cfg, true)
  | .failRel => some (CFG.FAIL_REL.f.sets 1, .cfg, true)
  | .gstop => some (TWD.GSTOP.f.sets 1, .twd, true)
  | .bcGo => some (TWD.BC_GO.f.sets 1, .twd, true)
  | .cascEn on reach => some (.casc on reach, .twd, true)
  | .retrain w => some ((TWD.RETRAIN.f w).sets 1, .twd, s.hasTwp w)
  | .prbsEn w on errs => some (.prbs w on errs, .twd, s.hasTwp w)
  | .twdCapRel => some (TWD.CAP_REL.f.sets 1, .twd, true)
  | .sessEnd => some (ETH.SESS_END.f.sets 1, .eth, true)
  | .txSend mask => some (ETH.TX_SEND.f.sets mask.toNat, .eth, true)
  | .rxSkip mask => some (ETH.RX_SKIP.f.sets mask.toNat, .eth, true)
  | .ethRxRead q m => some (.read m (ETH.RX_D.f q).addr, .eth, true)
  | .fmGo => some (CLK.FM_GO.f.sets 1, .clk, true)
  | .forcedRel => some (CLK.FORCED_REL.f.sets 1, .clk, true)
  | .lossRel => some (CLK.LOSS_REL.f.sets 1, .clk, true)
  | .clkEn v => some (CLK.EN.f.sets v.toNat, .clk, true)
  | .railRel => some (PWR.RAIL_REL.f.sets 1, .pwr, true)
  | .tcritRel => some (PWR.TCRIT_REL.f.sets 1, .pwr, true)
  | .stbyGo => some (PWR.STBY_GO.f.sets 1, .pwr, true)
  | .stbyRefRel => some (PWR.STBY_REF_REL.f.sets 1, .pwr, true)
  | .evtUnmask n => some (EVT.UNMASK_SRC.f.sets n.toNat, .evt, true)
  | .stormRel => some (EVT.STORM_REL.f.sets 1, .evt, true)
  | .evtNext m q => some (.read q (EVT.M_NEXT.f m).addr, .evt, s.hasMfp m)
  | .rtcSet => some (LDG.RTC_SET.f.sets 1, .ldg, true)
  | .flushGo => some (LDG.FLUSH_GO.f.sets 1, .ldg, true)
  | .chalGo p =>
    if p = .s && (!s.flag ETH.SESS.f || s.safeOnly) then none
    else some (.write (portMaster p) dbgFlags (2 ^ 8), .dbg, true)
  | .authGo p =>
    if p = .s && (!s.flag ETH.SESS.f || s.safeOnly) then none
    else some (.write (portMaster p) dbgFlags (2 ^ 9), .dbg, true)
  | .logout p =>
    if p = .s && (!s.flag ETH.SESS.f || s.safeOnly) then none
    else some (.write (portMaster p) dbgFlags (2 ^ 10), .dbg, true)
  | .halt p m =>
    if p = .s && (!s.flag ETH.SESS.f || s.safeOnly) then none
    else some (.write (portMaster p) (DBG.HALT.f m).addr (2 ^ 8), .dbg, true)
  | .resume p m =>
    if p = .s && (!s.flag ETH.SESS.f || s.safeOnly) then none
    else some (.write (portMaster p) (DBG.RESUME.f m).addr (2 ^ 9), .dbg, true)
  | .step p m =>
    if p = .s && (!s.flag ETH.SESS.f || s.safeOnly) then none
    else some (.write (portMaster p) (DBG.STEP.f m).addr (2 ^ 10), .dbg, true)
  | .drst p m =>
    if p = .s && (!s.flag ETH.SESS.f || s.safeOnly) then none
    else some (.write (portMaster p) (DBG.DRST.f m).addr (2 ^ 12), .dbg, true)
  | .dbgRegAccess p m v =>
    if p = .s && (!s.flag ETH.SESS.f || s.safeOnly) then none
    else some (match v with
      | some w => .write (portMaster p) ((DBG.M_REG_IADDR_ADDR.f m).addr + 4) w.toNat
      | none => .read (portMaster p) ((DBG.M_REG_IADDR_ADDR.f m).addr + 4), .dbg, true)
  | _ => none

end Sys2Proof.Machine
end

