-- ==== Sys2Proof/Machine/Analogue.lean ====
section
/-! DEFINITION. The analogue quantities of a Velvet tile (R53 to R62, R72 to R80, R85, R298): the voltages and currents
that the registers and the routing in force give, from what stands outside the device. Voltages are in µV, PMU currents
in pA, load currents in µA. Nothing here changes the state; tolerances, settling and noise are left out. Log entry 90.
-/

namespace Sys2Proof.Machine

/-- What stands outside a tile, or in the history of its cells, at one instant: the voltage at each pin and at its
Kelvin input (none where that line is open), the current that each PMU carries, the sense inputs (2k the P leg, 2k + 1
the N leg of SNSk), the integral of INP − INN of each amplifier cell in µV · ns since its reset, what each filter cell
would give with its type and corner, and the output that each comparator cell gave last. -/
structure Outside where
  pin : Nat → Int
  kelvin : Nat → Option Int
  pmu : Nat → Int
  sns : Nat → Int
  integral : Nat → Int
  filtered : Nat → Int
  high : Nat → Bool

/-! Level DACs (R53, R54, R79). -/

/-- The voltage of a level code: −2.0 V + code × 100 µV. -/
def codeUv (code : Nat) : Int := (code : Int) * 100 - 2000000

/-- The voltage of a level in force. -/
def State.levelUv (s : State) (l : Level) (c : Nat) : Int := codeUv (s.levelCode l c)

/-- The code of auxiliary DAC k of a tile, held at 0xFDE8 above that. -/
def State.adacCode (s : State) (t k : Nat) : Nat := clampCode 0 0xFDE8 (s.rd (VLV.ADAC_CODE.f t k))

/-- The output of auxiliary DAC k: the threshold of a TDR run that uses it (R114), else high impedance with EN = 0. -/
def State.adacUv (s : State) (t k : Nat) : Option Int :=
  if s.flag (TIM.TDR_BUSY.f t) && s.rd (TIM.TDR_K.f t) == k && (s.tdrLowest t).isSome then
    some (codeUv (s.rd (TIM.TDR_DAC.f t)))
  else if s.flag (VLV.ADAC_EN.f t k) then some (codeUv (s.adacCode t k)) else none

/-! Driver, load and clamps (R57, R61, R62). -/

/-- The voltage that the driver puts behind its 50 Ω; none in the OFF state. -/
def State.driverUv (s : State) (c : Nat) : Option Int :=
  match s.driverOutput c with
  | .off _ => none
  | .volt code => some (codeUv code)

/-- A load current: code × 6 µA, codes above 4,000 giving 24 mA. -/
def loadUa (code : Nat) : Int := 6 * (min 4000 code : Nat)

/-- The current of the active load into the pin: it sinks ISNK from a pin above VCOM and sources ISRC into one below. -/
def State.loadCurrent (s : State) (c : Nat) (pin : Int) : Int :=
  if s.driverOutput c != .off true then 0
  else if s.levelUv .vcom c < pin then - loadUa (s.rd (VLV.CH_LOAD_ISNK.ch c))
  else if pin < s.levelUv .vcom c then loadUa (s.rd (VLV.CH_LOAD_ISRC.ch c))
  else 0

/-- The clamps act: with CLAMP_EN = 1, in every driver state and in the safe state, but for an unpowered or starved
tile and the high-impedance hold before the outputs are released (R62, R68, R69, R561). -/
def State.clampsAct (s : State) (c : Nat) : Bool := s.flag (VLV.CLAMP_EN.ch c) && !s.pinDead c

/-- The voltage to which the clamps limit a pin that stands at `pin` without them. -/
def State.clampedUv (s : State) (c : Nat) (pin : Int) : Int :=
  if s.clampsAct c then max (s.levelUv .vcl c) (min (s.levelUv .vch c) pin) else pin

/-! The PMU (R72 to R75). -/

/-- Full scale of a PMU range. -/
def fullScalePa (range : Nat) : Int :=
  match range with
  | 0 => 2000000
  | 1 => 20000000
  | 2 => 200000000
  | 3 => 2000000000
  | _ => 32000000000

/-- The voltage that FVMI forces. -/
def State.pmuForceUv (s : State) (c : Nat) : Int := codeUv (clampCode 0x2710 0xD6D8 (s.rd (VLV.CH_PMU_FORCE.ch c)))

/-- The current that FIMV forces, in units of 1 pA ÷ 32,768: the signed code × FS. -/
def State.pmuForceCurrent (s : State) (c : Nat) : Int :=
  signedOf 16 (s.rd (VLV.CH_PMU_FORCE.ch c)) * fullScalePa (s.pmuRange c)

/-- The voltage that the PMU regulates or measures: at the Kelvin sense input with KELVIN = 1, which an open line makes
the force side through the internal 10 kΩ path; else at the pin. -/
def State.pmuSenseUv (s : State) (c : Nat) (o : Outside) : Int :=
  if s.flag (VLV.KELVIN.ch c) && s.flag (VLV.PMU_EN.ch c) then (o.kelvin (c % 32)).getD (o.pin (c % 32))
  else o.pin (c % 32)

/-- The voltage at terminal CHc.PMU: 2.0 V × I ÷ FS in FVMI, and the measured voltage in FIMV, in MV, in the safe state
and with PMU_EN = 0. -/
def State.pmuTerminalUv (s : State) (c : Nat) (o : Outside) : Int :=
  match s.pmuTarget c with
  | .volt _ => 2000000 * o.pmu (c % 32) / fullScalePa (s.pmuRange c)
  | _ => s.pmuSenseUv c o

/-- The current at which FVMI is limited: 110 % of FS. -/
def State.pmuLimitPa (s : State) (c : Nat) : Int := fullScalePa (s.pmuRange c) * 11 / 10

/-- The voltages at which FIMV is limited: by the clamps where they act, else −1.5 V and +4.0 V. -/
def State.pmuLimitsUv (s : State) (c : Nat) : Int × Int :=
  if s.clampsAct c then (s.levelUv .vcl c, s.levelUv .vch c) else (-1500000, 4000000)

/-- A limit of the PMU acts: the condition that PMU_COMPL shows. -/
def State.pmuLimited (s : State) (c : Nat) (o : Outside) : Bool :=
  match s.pmuTarget c with
  | .volt _ => decide (s.pmuLimitPa c ≤ (o.pmu (c % 32)).natAbs)
  | .amp _ _ => decide (o.pin (c % 32) ≤ (s.pmuLimitsUv c).1) || decide ((s.pmuLimitsUv c).2 ≤ o.pin (c % 32))
  | .none => false

/-! The cells of the array (R77 to R80). -/

/-- G of amplifier cell k. -/
def State.cacGain (s : State) (t k : Nat) : Int := 2 ^ s.rd (VLV.CAC_GAIN.f t k)

/-- τ of amplifier cell k in ns: 1 µs × 4^TAU, codes 6 and 7 treated as 5. -/
def State.cacTauNs (s : State) (t k : Nat) : Int := 1000 * 4 ^ min 5 (s.rd (VLV.CAC_TAU.f t k))

/-- The comparator of amplifier cell k: high above, low below, and within its hysteresis, HYST × 5 mV wide about zero,
as it was (the spec gives the width alone; its place is DESIGN CHOICE, log entry 90). -/
def State.cacHigh (s : State) (t k : Nat) (d : Int) (was : Bool) : Bool :=
  if 2 * d.natAbs ≤ s.rd (VLV.CAC_HYST.f t k) * 5000 then was else decide (0 < d)

/-- The output of amplifier cell k for its inputs; none is high impedance. -/
def State.cacOutUv (s : State) (t k : Nat) (inp inn : Int) (o : Outside) : Option Int :=
  match s.rd (VLV.CAC_MODE.f t k) with
  | 1 => some inp
  | 2 => some (s.cacGain t k * inp)
  | 3 => some (s.cacGain t k * (inp - inn))
  | 4 => some (if s.flag (VLV.CAC_INT_RST.f t k) then 0 else - (o.integral k / s.cacTauNs t k))
  | 5 => some (if s.cacHigh t k (inp - inn) (o.high k) then 2500000 else 0)
  | _ => none

/-- The corner or centre frequency of filter cell k in Hz, codes above 1,000 treated as 1,000. -/
def State.scfHz (s : State) (t k : Nat) : Nat := 1000 * min 1000 (s.rd (VLV.SCF_FC.f t k))

/-- What a filter cell is (TYPE). -/
inductive Filter
  | bypass
  | lowPass (order : Nat)
  | bandPass
  deriving DecidableEq, Repr

def State.scfType (s : State) (t k : Nat) : Filter :=
  match s.rd (VLV.SCF_TYPE.f t k) with
  | 0 => .bypass
  | 1 => .lowPass 2
  | 2 => .lowPass 4
  | _ => .bandPass

/-- The output of filter cell k: high impedance with FC = 0, the input in bypass, else what the filter makes of its
input's history. -/
def State.scfOutUv (s : State) (t k : Nat) (inp : Int) (o : Outside) : Option Int :=
  if s.rd (VLV.SCF_FC.f t k) = 0 then none
  else if s.scfType t k = .bypass then some inp
  else some (o.filtered k)

/-- A leg of sense input k: high impedance with EN = 0, unchanged with DIV = 0, halved with DIV = 1. -/
def State.snsUv (s : State) (t k leg : Nat) (o : Outside) : Option Int :=
  if !s.flag (VLV.SNS_EN.f t k) then none
  else if s.flag (VLV.SNS_DIV.f t k) then some (o.sns (2 * k + leg) / 2)
  else some (o.sns (2 * k + leg))

/-! Nodes (R81, R85). -/

/-- The source terminal that the route table in force connects to a node. -/
def State.nodeSource (s : State) (t n : Nat) : Option Nat :=
  (List.range 194).find? fun k => isSource k && routeNode (s.tab VLV.mxRoute t k) == some n

/-- The source terminal whose node a sink terminal reads. -/
def State.sinkSource (s : State) (t k : Nat) : Option Nat :=
  (routeNode (s.tab VLV.mxRoute t k)).bind fun n => s.nodeSource t n

/-- The voltage of a source terminal, through at most `f` cells; none where nothing drives it. -/
def State.sourceUv (s : State) (t : Nat) (o : Outside) : Nat → Nat → Option Int
  | 0, _ => none
  | f + 1, k =>
    let sink := fun n => (s.sinkSource t n).bind fun j => s.sourceUv t o f j
    if k < 0x20 then some (o.pin k)
    else if k < 0x40 then some (s.pmuTerminalUv (32 * t + (k - 0x20)) o)
    else if 0x60 ≤ k && k < 0x90 then
      s.cacOutUv t ((k - 0x60) / 3) ((sink (k - 2)).getD 0) ((sink (k - 1)).getD 0) o
    else if 0x90 ≤ k && k < 0xA0 then (sink (k - 1)).bind fun v => s.scfOutUv t ((k - 0x90) / 2) v o
    else if 0xA0 ≤ k && k < 0xA8 then s.adacUv t (k - 0xA0)
    else if 0xA8 ≤ k && k < 0xB8 then s.snsUv t ((k - 0xA8) / 2) (k % 2) o
    else if k = 0xC0 then some 0
    else if k = 0xC1 then some 2500000
    else none

/-- The voltage that a sink terminal reads: no chain of cells passes 24 of them without a loop. -/
def State.terminalUv (s : State) (t k : Nat) (o : Outside) : Option Int :=
  (s.sinkSource t k).bind fun j => s.sourceUv t o 25 j

/-- A node is within the range in which the readings of its tile are guaranteed: −2.0 V to +4.5 V. -/
def nodeInRange (v : Int) : Bool := decide (-2000000 ≤ v) && decide (v ≤ 4500000)

/-! Converters (R298, R301). -/

/-- The code of a difference of µV: in units of 0.5 mV in range 0 and of 0.125 mV in range 1, truncated (log entry 90);
beyond full scale the end code of the range. -/
def rawCode (range : Nat) (uv : Int) : Int := max (-8192) (min 8191 (uv / (if range = 0 then 500 else 125)))

/-- The difference that converter j of a tile converts for an entry: that of its terminals, none of its inputs shorted,
or VREF against the tile's analogue ground. -/
def State.adcInputUv (s : State) (t j insel : Nat) (o : Outside) : Int :=
  match insel with
  | 1 => 0
  | 2 => 2500000
  | _ => ((s.terminalUv t (0xB8 + 2 * j) o).getD 0) - ((s.terminalUv t (0xB9 + 2 * j) o).getD 0)

/-- The raw sample of converter j of a tile for an entry word. -/
def State.adcRaw (s : State) (t j e : Nat) (o : Outside) : Int := rawCode (bits e 16 1) (s.adcInputUv t j (bits e 17 2) o)

/-! Comparators (R59). -/

/-- The CH threshold: VOH, or with EXT_TH = 1 what the node of CHc.XTH carries; none where that is undefined. -/
def State.chThresholdUv (s : State) (c : Nat) (o : Outside) : Option Int :=
  if s.flag (VLV.EXT_TH.ch c) then s.terminalUv (c / 32) (0x40 + c % 32) o else some (s.levelUv .voh c)

/-- The bits CH and CL of a strobe: CH above the CH threshold, none where that is undefined, and CL below VOL. -/
def State.compare (s : State) (c : Nat) (o : Outside) : Option Bool × Bool :=
  ((s.chThresholdUv c o).map fun v => decide (v < o.pin (c % 32)), decide (o.pin (c % 32) < s.levelUv .vol c))

end Sys2Proof.Machine
end

