-- ==== Sys2Proof/Certificates/Slice0/Obligations.lean ====
section
/-! DEFINITION. The statements about the model. -/

open Sys2Proof Sys2Proof.Machine

/-- With command c at the front of the queue, a step is exec of c on the state with the queue's rest. With an empty
queue a step is a microsecond: while the logic die is off (and no MULT is above 15) it answers a next state, in
which only the calendar may have gone on and what a wake at PWR_WAKE_AT sets: with XTAL32 the calendar has gone on
by 1,000 ns (modulo 2^48 seconds), and without it RTC_VALID is clear; in standby, reaching the second of PWR_WAKE_AT
with ALARM_EN = 1 drives PS_EN_MAIN high with source 2. With the die on it answers a next state with the same option
code and an empty queue, or ends in the clock-ratio fault, only where that state has a MULT above 15, as a write
that was held or staged may give it. (That a step of the empty queue is a microsecond is the model's choice, log
entry 2.) (R35, R482, R513) -/
def Obligations.StepTakesTheFrontOfTheQueue : Prop :=
  (∀ (c : Instr) (s : State), Machine.step { s with pending := c :: s.pending } = Machine.exec c s) ∧
  (∀ s : State, s.pending = [] → let t := s.tick
    t.pending = [] ∧ t.opt = s.opt ∧ (t.ratioBad = false → Machine.step s = .next t) ∧
    (t.ratioBad = true → Machine.step s = .fault .clockRatioUndefined) ∧
    (s.dieOn = false → t.ratioBad = s.ratioBad ∧
      OnlyRegs [LDG.RTC_S.f.key, LDG.RTC_NS.f.key, LDG.RTC_VALID.f.key, PWR.WAKE_SRC.f.key, PWR.EN_MAIN.f.key,
        PWR.WAKING.f.key, PWR.WAKE_PEND.f.key] s t ∧
      (s.flag CLK.XTAL_OK.f = true → t.flag LDG.RTC_VALID.f = s.flag LDG.RTC_VALID.f ∧
        t.rd LDG.RTC_S.f * 1000000000 + t.rd LDG.RTC_NS.f =
          (s.rd LDG.RTC_S.f * 1000000000 + s.rd LDG.RTC_NS.f + 1000) % (2 ^ 48 * 1000000000)) ∧
      (s.flag CLK.XTAL_OK.f = false → t.flag LDG.RTC_VALID.f = false ∧
        Same [LDG.RTC_S.f, LDG.RTC_NS.f, PWR.WAKE_SRC.f, PWR.EN_MAIN.f, PWR.WAKING.f, PWR.WAKE_PEND.f] s t) ∧
      (s.flag PWR.STBY.f = true → s.flag PWR.ALARM_EN.f = true → s.flag PWR.WAKING.f = false → s.atAlarm = false →
        t.rd LDG.RTC_S.f = s.rd PWR.WAKE_AT_LO.f + s.rd PWR.WAKE_AT_HI.f * 2 ^ 32 →
        t.flag PWR.EN_MAIN.f = true ∧ t.flag PWR.WAKING.f = true ∧ t.rd PWR.WAKE_SRC.f = 2)))

/-- Right after reset every register field holds its reset value: SYS_ID is 0x4D4B_9128, MAJOR is 1, every clock
enable is off, the state of every sequencer and of every ring is as its table gives it. Every table word holds the
reset value of its table, no burst runs, no allocation exists, every flow processor is held in reset, no command
waits, and the state is in canonical form. That every byte of memory reads zero, that the option code is ST9128-A,
and the reset values of the fields for which the spec gives none are the model's choices (log entries 3, 4 and 5).
(R30, R41, R43, R217, R314) -/
def Obligations.ResetState : Prop :=
  (∀ f : Fld, f.reset < 2 ^ f.width → State.reset.rd f = f.reset) ∧
  (∀ (b : Tab) (n i : Nat), b.reset < 2 ^ b.width → State.reset.tab b n i = b.reset) ∧
  (∀ a : Nat, State.reset.byte a = 0) ∧ State.reset.rd SYS.ID.f = 0x4D4B9128 ∧ State.reset.rd SYS.REV_MAJOR.f = 1 ∧
  State.reset.rd CLK.EN.f = 0 ∧ (∀ q : SeqId, State.reset.rd (TWL.STATE_STATE.f q) = 0 ∧ State.reset.run? q = none) ∧
  (∀ b : Blk, b.enBit ≠ none → State.reset.gated b = true) ∧
  State.reset.dir = [] ∧ (∀ m : MfpId, (State.reset.core m).released = false) ∧ State.reset.pending = [] ∧
  State.reset.opt = .a ∧ State.reset.Canon

/-- SYS_CAP reads 0x0FFF_FFFF on ST9128-A, 0x0FFF_FFFC on ST9128-L and 0x030F_0FF3 on ST9128-B, for every master but
a debug port (whose rights another statement gives) while the logic die is on: bits 27:24 are the Tweed ports
present, 23:16 the MFPs, 15:4 the DRAM channels, bit 3 tenant mode, bit 2 Express mode, bit 1 the repair units, bit
0 Gingham. EV1616 to EV1619 have the condition that RX_NE shows a message at port 0 to 3, EV1620 SESS, EV1621 LINK,
EV1622 PTP_LOCK, EV1623 that debug port S holds level 1 or more, and EV1615 that FLUSH_ERR is set, RTC_VALID is
clear, or the latest record is NOT_RUN (as it is when none has been written). While its condition holds such a
source becomes active and does not become inactive; while it does not hold, it becomes inactive and does not become
active. (R45, R456, R528) -/
def Obligations.CapabilitiesAndSourcesOfEvents : Prop :=
  (∀ s : State,
    let cap := s.view SYS.CAP.f
    cap = (match s.opt with | .a => 0x0FFFFFFF | .l => 0x0FFFFFFC | .b => 0x030F0FF3) ∧
    (∀ m : Master, s.dieOn = true → masterPort m = none → (s.busRead m 0x10001008 4).2 = .ok cap) ∧
    (∀ n : TwPort, s.hasTwp n = bitOf cap (24 + n)) ∧ (∀ n : MfpId, s.hasMfp n = bitOf cap (16 + n)) ∧
    (∀ n : DcId, s.hasDc n = bitOf cap (4 + n)) ∧ s.hasTenant = bitOf cap 3 ∧ s.hasExpress = bitOf cap 2 ∧
    s.hasRa = bitOf cap 1 ∧ s.hasGng = bitOf cap 0) ∧
  (∀ (s : State) (n : EvSource) (on : Prop),
    (n.val, on) ∈ [(1615, s.flag LDG.FLUSH_ERR.f = true ∨ s.flag LDG.RTC_VALID.f = false ∨ s.flag LDG.BST_ANY.f = false ∨
        s.tab LDG.sram 0 (0x800 + 8 * s.rd LDG.BST_HEAD.f) % 4 = 2),
      (1616, bitOf (s.view ETH.RX_NE.f) 0 = true), (1617, bitOf (s.view ETH.RX_NE.f) 1 = true),
      (1618, bitOf (s.view ETH.RX_NE.f) 2 = true), (1619, bitOf (s.view ETH.RX_NE.f) 3 = true),
      (1620, s.flag ETH.SESS.f = true), (1621, s.flag ETH.LINK.f = true), (1622, s.flag ETH.PTP_LOCK.f = true),
      (1623, 1 ≤ s.rd (DBG.LEVEL.f 1))] →
    let active := bitOf (s.route n) 21
    (on → active = false → ∃ t, Machine.exec (.eventOccurrence n) s = .next t ∧ bitOf (t.route n) 21 = true) ∧
    (on → Machine.exec (.eventSourceInactive n) s = .next s) ∧
    (¬on → active = true → ∃ t, Machine.exec (.eventSourceInactive n) s = .next t ∧ bitOf (t.route n) 21 = false) ∧
    (¬on → Machine.exec (.eventOccurrence n) s = .next s))

/-- Whatever the state and the operands, every command answers a next state, which differs from the state before at
most in the parts that the table footprint gives for that command; only a command that can write a processor clock
may end in the clock-ratio fault instead, for whose case R462 calls the behaviour of the device undefined. No
command changes the option code or the queue. Each command that is one register access (the table rowAccess) answers
a next state in every case in which it has not its effect: with the logic die off nothing changes; while the
interconnect's island stands still, or an earlier access of its master waits, it is held behind what waits there; on
an absent block or unit it fills or counts in SYS_ABSENT_HIT; on a gated block nothing changes; and it is held while
the island of its block stands still. Held accesses keep their order. (Which island answers a block is the model's
reading, log entry 89.) (R10, R19, R41, R42, R460, R462) -/
def Obligations.EveryCommandAnswers : Prop :=
  (∀ (c : Instr) (s : State),
    (∃ t, Machine.exec c s = .next t ∧ Only (footprint c) s t) ∨
    (mayStop c = true ∧ Machine.exec c s = .fault .clockRatioUndefined)) ∧
  (∀ c : Instr, Part.opt ∉ footprint c ∧ Part.pending ∉ footprint c) ∧
  (∀ (c : Instr) (s : State) (x : Access) (b : Blk) (here : Bool), rowAccess c s = some (x, b, here) →
    let way := s.bit CLK.LK.f 0 = true ∧ s.heldIn x.queue = []
    let present := s.absent b = false ∧ here = true
    (s.dieOn = false → Machine.exec c s = .next s) ∧
    (s.dieOn = true → (¬ way ∨ (present ∧ s.gated b = false ∧ s.islandUp b = false)) →
      ∃ t, Machine.exec c s = .next t ∧ t.heldIn x.queue = s.heldIn x.queue ++ [x] ∧
        (∀ k, k ≠ x.queue → t.heldIn k = s.heldIn k) ∧ Only [.held] s t) ∧
    (s.dieOn = true → way → ¬ present → ∃ t, Machine.exec c s = .next t ∧ AbsentCaught x.addr s t ∧
      OnlyRegs [SYS.HIT.f.key, SYS.ABSENT_ADDR.f.key, SYS.ABSENT_CNT.f.key] s t) ∧
    (s.dieOn = true → way → present → s.gated b = true → Machine.exec c s = .next s))

/-- For every state in canonical form (memory and every sparse table list their keys strictly rising, and memory
lists no byte that reads as an unlisted one does), whenever a step answers a next state, that state is in canonical
form too; it has the same option code, and its queue is the old one without its front. Memory read back after any
number of steps is therefore one definite list of bytes, and equal machines are equal data. (R30, R39, R215) -/
def Obligations.EveryStepKeepsTheCanonicalForm : Prop :=
  ∀ s t : State, s.Canon → Machine.step s = .next t →
    t.Canon ∧ t.opt = s.opt ∧ t.pending = s.pending.tail

/-- A write that its way, its block's island or its line of DRAM holds up waits behind its master's earlier ones. A
write of a register whose fields only store, by any master (a debug port at level 2) whose access reaches its block
and waits for nothing: every RW and WO field takes its bits and nothing else changes. A write through the alias of a
one-bit RW field that only stores puts bit 0 into it and changes nothing else. A write that is not aligned, or by a
master other than a debug port outside every block or to the debug block, ends with a bus error and changes nothing
(but that the configuration controller notes it); one to an absent block or unit only fills or counts in
SYS_ABSENT_HIT; one below the debug port's level is only DENIED. ABSENT_REL empties the capture.
INDIRECT_DATA_ACCESS at an address that is no IDATA register does nothing; with the pointer at or beyond the table
it changes no table and no pointer; for the ledger a read answers the word and a write stores it in the user area
alone; for the matrix a write stores NODE and EN in the shadow; then the master's pointer goes on by one if INC is
set. Hypothesis: no present MFP's MULT is above 15. (R10, R30, R32, R33, R34, R38, R39, R40, R42, R460, R515, R532)
-/
def Obligations.RegisterAndTableAccesses : Prop :=
  (∀ (m : Master) (a v : Word) (s : State), s.ratioBad = false → s.mustWait (.write m a.toNat v.toNat) = true →
    ∃ t, Machine.exec (.registerWrite m a v) s = .next t ∧
      t.heldIn (masterIdx m) = s.heldIn (masterIdx m) ++ [.write m a.toNat v.toNat] ∧
      (∀ k, k ≠ masterIdx m → t.heldIn k = s.heldIn k) ∧ Only [.held] s t) ∧
  (∀ (m : Master) (a v : Word) (b : Blk) (s : State), s.ratioBad = false →
    s.mustWait (.write m a.toNat v.toNat) = false →
    (PlainReg a.toNat → MasterMay m 2 s → Reached s a.toNat b → s.writesAbsent a.toNat v.toNat (2 ^ 32 - 1) = false →
      ∃ t, Machine.exec (.registerWrite m a v) s = .next t ∧
        (∀ l ∈ layoutAt a.toNat, ∀ x, l.idx? a.toNat = some x → (l.kind = .rw ∨ l.kind = .wo) → s.fieldAbsent l = false →
          t.rd (l.f x.1 x.2) = v.toNat / 2 ^ l.lsb % 2 ^ l.width) ∧
        OnlyRegs (deniedKeys m ++ regKeys a.toNat) s t) ∧
    (∀ r k l x, aliasAt a.toNat = some (r, k) → a.toNat % 4 = 0 → inDbg a.toNat = false →
      (actsAt r).find? (fun c => c.1 == l) = none → MasterMay m 2 s → Reached s a.toNat b → l ∈ layoutAt r →
      l.idx? r = some x → l.kind = .rw → l.lsb = k → l.width = 1 → s.fieldAbsent l = false →
      ∃ t, Machine.exec (.registerWrite m a v) s = .next t ∧ t.rd (l.f x.1 x.2) = v.toNat % 2 ∧
        OnlyRegs (deniedKeys m ++ [(l.f x.1 x.2).key]) s t) ∧
    ((a.toNat % 4 ≠ 0 ∨ 0x10000000 ≤ a.toNat ∧ a.toNat < 0x3C000000 ∧ (blkAt (regOf a.toNat) = none ∨ inDbg a.toNat = true)) →
      masterPort m = none →
      (m ≠ .cfg → Machine.exec (.registerWrite m a v) s = .next s) ∧
      (m = .cfg → ∃ t, Machine.exec (.registerWrite m a v) s = .next t ∧ t.flag CFG.PAIR_ERR.f = true ∧
        OnlyRegs [CFG.PAIR_ERR.f.key] s t)) ∧
    (a.toNat % 4 = 0 → s.dieOn = true → 0x10000000 ≤ a.toNat → a.toNat < 0x3C000000 → inDbg a.toNat = false → MasterMay m 2 s →
      blkAt (regOf a.toNat) = some b → (s.absent b = true ∨ s.unitAbsent (regOf a.toNat) = true) →
      ∃ t, Machine.exec (.registerWrite m a v) s = .next t ∧ AbsentCaught a.toNat s t ∧
        OnlyRegs (deniedKeys m ++ [SYS.HIT.f.key, SYS.ABSENT_ADDR.f.key, SYS.ABSENT_CNT.f.key]) s t) ∧
    (∀ p, masterPort m = some p → s.level p < needLevel a.toNat true →
      ∃ t, Machine.exec (.registerWrite m a v) s = .next t ∧ t.flag (DBG.DENIED.f (portIdx p)) = true ∧
        OnlyRegs (deniedKeys m) s t)) ∧
  (∀ s : State, s.openTo 12 .sys = true → (∃ t, Machine.exec .absentRel s = .next t ∧ t.flag SYS.HIT.f = false ∧
      t.rd SYS.ABSENT_ADDR.f = 0 ∧ t.rd SYS.ABSENT_CNT.f = 0 ∧
      OnlyRegs [SYS.HIT.f.key, SYS.ABSENT_ADDR.f.key, SYS.ABSENT_CNT.f.key] s t)) ∧
  (∀ (m : Master) (a : Word) (v : Option Word) (s : State), isIdata a.toNat = false →
    Machine.exec (.indirectDataAccess m a v) s = .next s) ∧
  (∀ (m : Master) (v : Option Word) (s : State), s.ratioBad = false → MasterMay m 2 s →
    let free := fun (a : Word) => s.mustWait (v.elim (.read m a.toNat) fun x => .write m a.toNat x.toNat) = false
    let step := fun (s t : State) (addr inc : Lay) (i : Nat) =>
      t.rd (ptrFld m (addr.f i)) = (s.rd (ptrFld m (addr.f i)) + if s.flag (ptrFld m (inc.f i)) then 1 else 0)
    (s.gated .ldg = false → free 0x15001034 →
      let w := s.rd (ptrFld m LDG.IADDR_ADDR.f)
      let ks := deniedKeys m ++ [(ptrFld m LDG.IADDR_ADDR.f).key]
      (16384 ≤ w → ∃ t, Machine.exec (.indirectDataAccess m 0x15001034 v) s = .next t ∧ OnlyRegs (deniedKeys m) s t) ∧
      (w < 16384 → v = none → ∃ t, Machine.exec (.indirectDataAccess m 0x15001034 v) s = .next t ∧
        t.rd SYS.RDATA.f = s.tab LDG.sram 0 w % 2 ^ 32 ∧ step s t LDG.IADDR_ADDR LDG.IADDR_INC 0 ∧
        OnlyRegs (SYS.RDATA.f.key :: ks) s t) ∧
      (∀ x, w < 16384 → v = some x → ∃ t, Machine.exec (.indirectDataAccess m 0x15001034 v) s = .next t ∧
        t.tab LDG.sram 0 w = (if 0x3C00 ≤ w then x.toNat else s.tab LDG.sram 0 w) ∧
        step s t LDG.IADDR_ADDR LDG.IADDR_INC 0 ∧ OnlyRegsTabs ks [LDG.sram.key 0 w] s t)) ∧
    (∀ n : Tile, s.gated (.vlv n) = false → free (BitVec.ofNat 32 (0x20001014 + n.val * 0x1000000)) →
      let w := s.rd (ptrFld m (VLV.MX_IADDR_ADDR.f n))
      let a : Word := BitVec.ofNat 32 (0x20001014 + n.val * 0x1000000)
      let ks := deniedKeys m ++ [(ptrFld m (VLV.MX_IADDR_ADDR.f n)).key]
      (194 ≤ w → ∃ t, Machine.exec (.indirectDataAccess m a v) s = .next t ∧ OnlyRegs (deniedKeys m) s t) ∧
      (w < 194 → v = none → ∃ t, Machine.exec (.indirectDataAccess m a v) s = .next t ∧
        t.rd SYS.RDATA.f = s.tab VLV.mxShadow n w % 2 ^ 32 ∧ step s t VLV.MX_IADDR_ADDR VLV.MX_IADDR_INC n ∧
        OnlyRegs (SYS.RDATA.f.key :: ks) s t) ∧
      (∀ x, w < 194 → v = some x → ∃ t, Machine.exec (.indirectDataAccess m a v) s = .next t ∧
        t.tab VLV.mxShadow n w = x.toNat &&& 0xBF ∧ step s t VLV.MX_IADDR_ADDR VLV.MX_IADDR_INC n ∧
        OnlyRegsTabs ks [VLV.mxShadow.key n w] s t)))

/-- Every enable of CLK_EN is 0 at reset. While the logic die is on, a block that has an enable is gated exactly
while its enable is 0, and SYS, CLK, PWR, EVT and DBG, which have none, are never gated. A read or a write of a
present block that is gated, by any master whose rights allow it, ends with a bus error and changes nothing (but
that a debug port's access is shown as not DENIED); so does a REGISTER_WRITE by any master but the configuration
controller, which notes the error for its load, once nothing holds it up. (R41) -/
def Obligations.GatedBlocksAnswerNothing : Prop :=
  State.reset.rd CLK.EN.f = 0 ∧
  (∀ (b : Blk) (s : State), s.dieOn = true →
    (∀ i, b.enBit = some i → s.gated b = !s.bit CLK.EN.f i) ∧
    (b ∈ [Blk.sys, .clk, .pwr, .evt, .dbg] → s.gated b = false)) ∧
  (∀ (m : Master) (a v : Word) (b : Blk) (s : State), blkAt (regOf a.toNat) = some b → s.absent b = false →
    s.unitAbsent (regOf a.toNat) = false → s.gated b = true → MasterMay m 2 s →
    (∀ size, (size = 1 ∨ size = 2 ∨ size = 4) → a.toNat % size = 0 → (s.busRead m a.toNat size).2 = .busError ∧
      OnlyRegs (deniedKeys m) s (s.busRead m a.toNat size).1) ∧
    (s.busWrite m a.toNat 4 v.toNat).2 = .busError ∧ OnlyRegs (deniedKeys m) s (s.busWrite m a.toNat 4 v.toNat).1 ∧
    (s.ratioBad = false → m ≠ .cfg → s.mustWait (.write m a.toNat v.toNat) = false →
      ∃ t, Machine.exec (.registerWrite m a v) s = .next t ∧ OnlyRegs (deniedKeys m) s t))

/-- In a tile whose registers are open to the access: with LVL_STAGED = 1 (and for every level but VSAFE) a level
write is held, reads back as written and changes nothing else; otherwise it takes effect at once, discards the held
value, reads as the level in force, and LVL_RANGE shows whether a level of the channel lies outside its range. A
level in force is the code held at the nearer end of its range, so always within it, and its voltage is -2.0 V +
code x 100 uV. The driver's VIH stands no further from VIL than the swing limit of the mode in force, and is VIH
itself exactly where DRV_SWING does not show. LVL_COMMIT puts every held value of the tile into its register, leaves
none held, and changes no register outside the levels and LVL_RANGE. A write of VLV_CH_PMU or of the force value
takes effect at once, and clears PMU_SETTLED exactly where it moves the loop's target. A loop that forces (PMU_EN =
1, not in the safe state, FVMI or FIMV, the tile powered) and has settled sets PMU_SETTLED and nothing else;
PMU_SETTLED and PMU_COMPL read 0 on a channel whose loop does not force. (That a staged code shows in LVL_RANGE only
from its commit is log entry 11.) (R53, R54, R55, R58, R68, R72, R75, R76) -/
def Obligations.LevelWritesAreStagedAndCommitted : Prop :=
  (∀ (ch : Channel) (l : Level) (code : BitVec 16) (s : State), s.openTo 12 (.vlv (ch / 32)) = true →
    ∃ t, Machine.exec (.levelWrite ch l code) s = .next t ∧
      ((s.flag (VLV.LVL_STAGED.ch ch) && staged l) = true → t.readLevel ch l = code.toNat ∧
        Only [.tabs] s t ∧ TabsBut [VLV.held.key ch (levelIdx l)] s t) ∧
      ((s.flag (VLV.LVL_STAGED.ch ch) && staged l) = false →
        t.rd ((levelLay l).ch ch) = code.toNat ∧
        t.readLevel ch l = max (levelLo l) (min (levelHi l) code.toNat) ∧
        t.flag (VLV.LVL_RANGE.ch ch) = t.levelBad ch ∧
        Only [.regs, .tabs] s t ∧ TabsBut [VLV.held.key ch (levelIdx l)] s t ∧
        RegsBut [((levelLay l).ch ch).key, (VLV.LVL_RANGE.ch ch).key] s t)) ∧
  (∀ (ch : Channel) (l : Level) (s : State),
    let code := s.rd ((levelLay l).ch ch)
    levelLo l ≤ s.levelCode l ch ∧ s.levelCode l ch ≤ levelHi l ∧
    (levelLo l ≤ code → code ≤ levelHi l → s.levelCode l ch = code) ∧
    s.levelUv l ch = -2000000 + 100 * (s.levelCode l ch : Int)) ∧
  (∀ (ch : Channel) (s : State),
    let vil := s.levelCode .vil ch
    s.driveHigh ch ≤ vil + s.swingLimit ch ∧ vil ≤ s.driveHigh ch + s.swingLimit ch ∧
    (s.view (VLV.DRV_SWING.ch ch) = 0 ↔ s.driveHigh ch = s.levelCode .vih ch) ∧
    (s.pmuForces ch = false → s.view (VLV.PMU_SETTLED.ch ch) = 0 ∧ s.view (VLV.PMU_COMPL.ch ch) = 0)) ∧
  (∀ (n : Tile) (s : State), s.openTo 12 (.vlv n) = true →
    ∃ t, Machine.exec (.lvlCommit n) s = .next t ∧
      (∀ k l, k < 32 → t.tab VLV.held (32 * n + k) (levelIdx l) = 0 ∧
        (s.tab VLV.held (32 * n + k) (levelIdx l) = 0 →
          t.rd ((levelLay l).ch (32 * n + k)) = s.rd ((levelLay l).ch (32 * n + k))) ∧
        (∀ v, s.tab VLV.held (32 * n + k) (levelIdx l) = v + 1 →
          t.rd ((levelLay l).ch (32 * n + k)) = v % 2 ^ 16)) ∧
      Only [.regs, .tabs] s t ∧
      (∀ f : Fld, (∀ k l, k < 32 → f.key ≠ ((levelLay l).ch (32 * n + k)).key) →
        (∀ k, k < 32 → f.key ≠ (VLV.LVL_RANGE.ch (32 * n + k)).key) →
        t.rd f = s.rd f)) ∧
  (∀ (ch : Channel) (w : PmuWrite) (s : State), s.openTo 12 (.vlv (ch / 32)) = true →
    ∃ t, Machine.exec (.vlvChPmu ch w) s = .next t ∧
      (match w with
        | .ctl m r => t.rd (VLV.CH_PMU_MODE.ch ch) = m.toNat ∧ t.rd (VLV.CH_PMU_RANGE.ch ch) = r.toNat
        | .force v => t.rd (VLV.CH_PMU_FORCE.ch ch) = v.toNat) ∧
      (t.pmuTarget ch = s.pmuTarget ch → t.flag (VLV.PMU_SETTLED.ch ch) = s.flag (VLV.PMU_SETTLED.ch ch)) ∧
      (t.pmuTarget ch ≠ s.pmuTarget ch → t.flag (VLV.PMU_SETTLED.ch ch) = false) ∧
      OnlyRegs [(VLV.CH_PMU_MODE.ch ch).key, (VLV.CH_PMU_RANGE.ch ch).key, (VLV.CH_PMU_FORCE.ch ch).key,
        (VLV.PMU_SETTLED.ch ch).key, (VLV.LVL_RANGE.ch ch).key] s t) ∧
  (∀ (ch : Channel) (s : State), s.dieOn = true → s.flag (VLV.PMU_EN.ch ch) = true → s.inSafe ch = false →
    s.rd (VLV.CH_PMU_MODE.ch ch) < 2 →
    ∃ t, Machine.exec (.pmuSettle ch) s = .next t ∧ t.flag (VLV.PMU_SETTLED.ch ch) = true ∧
      OnlyRegs [(VLV.PMU_SETTLED.ch ch).key] s t)

/-- PROT_FORCE in a tile whose registers are open to it, a detector whose filter time has passed with PROT_EN = 1,
and a write of PROT_EN from 0 to 1 on a channel with a filtered detector each set the latch of every tile and LOCAL
in every tile, and SAFE_N is driven low; the originating tile's empty VLV_TRIP_CAP takes the cause (2, 0 or 1; 0
where PROT_EN meets both detectors, the model's choice, log entry 12) and the other tiles' empty captures CAUSE 3.
SAFE_N falling sets EXT_IN in every tile; on a powered device it sets every latch with CAUSE 4 in every empty
capture, and does not drive SAFE_N. A full capture keeps what it holds. In a powered tile a detector's input is
active exactly while its current is above its threshold, and one that becomes inactive clears the filtered detector
at once. An input that has been active for a shorter time than the filter's changes nothing. With PROT_EN = 0 a
filtered detector shows and no latch is set. (R64, R65, R67) -/
def Obligations.TripSetsEveryLatch : Prop :=
  (∀ (n : Tile) (s : State), s.openTo 12 (.vlv n) = true →
    ∃ t, Machine.exec (.protForce n) s = .next t ∧
      (∀ k, k < 4 → t.flag (VLV.TRIP.f k) = true ∧ t.flag (VLV.LOCAL.f k) = true ∧
        t.flag (VLV.CAP_FULL.f k) = true ∧
        (s.flag (VLV.CAP_FULL.f k) = false → t.rd (VLV.TRIP_CAP_CAUSE.f k) = if k = n.val then 2 else 3) ∧
        (s.flag (VLV.CAP_FULL.f k) = true → t.rd (VLV.TRIP_CAP_CAUSE.f k) = s.rd (VLV.TRIP_CAP_CAUSE.f k) ∧
          t.rd (VLV.TRIP_CAP_CH.f k) = s.rd (VLV.TRIP_CAP_CH.f k))) ∧
      t.flag VLV.SAFE_N_DRV.f = true ∧ Only [.regs, .tabs, .runs] s t ∧
      RegsBut (VLV.SAFE_N_DRV.f.key :: keys 4 [VLV.TRIP, VLV.LOCAL, VLV.CAP_FULL, VLV.TRIP_CAP_CH,
        VLV.TRIP_CAP_CAUSE, TIM.TDR_UNF, TIM.TDR_ACT]) s t) ∧
  (∀ (ch : Channel) (d : Detector) (ns : Word) (s : State), ns.toNat < s.deglitchNs ch →
    Machine.exec (.deglitchExpiry ch d ns) s = .next s) ∧
  (∀ (ch : Channel) (d : Detector) (ns : Word) (s : State), s.dieOn = true → s.flag ((detectorIn d).f ch) = true →
    s.flag ((detectorLay d).ch ch) = false → (min 199 (s.rd (VLV.CH_PROT_FILT.ch ch)) + 1) * 10 ≤ ns.toNat →
    ∃ t, Machine.exec (.deglitchExpiry ch d ns) s = .next t ∧ t.flag ((detectorLay d).ch ch) = true ∧
      (s.flag (VLV.PROT_EN.ch ch) = false → OnlyRegs [((detectorLay d).ch ch).key] s t) ∧
      (s.flag (VLV.PROT_EN.ch ch) = true →
        (∀ k, k < 4 → t.flag (VLV.TRIP.f k) = true ∧ t.flag (VLV.LOCAL.f k) = true ∧
          (s.flag (VLV.CAP_FULL.f k) = false →
            t.rd (VLV.TRIP_CAP_CAUSE.f k) = (if k = ch.val / 32 then detectorCause d else 3) ∧
            (k = ch.val / 32 → t.rd (VLV.TRIP_CAP_CH.f k) = ch.val))) ∧
        t.flag VLV.SAFE_N_DRV.f = true ∧ Only [.regs, .tabs, .runs] s t)) ∧
  (∀ (ch : Channel) (s : State), s.openTo 12 (.vlv (ch / 32)) = true → s.flag (VLV.PROT_EN.ch ch) = false →
    ∃ t, Machine.exec (.protEn ch true) s = .next t ∧ t.flag (VLV.PROT_EN.ch ch) = true ∧
      (s.flag (VLV.OC.ch ch) = false → s.flag (VLV.CLAMP_OVL.ch ch) = false →
        OnlyRegs [(VLV.PROT_EN.ch ch).key] s t) ∧
      ((s.flag (VLV.OC.ch ch) || s.flag (VLV.CLAMP_OVL.ch ch)) = true →
        (∀ k, k < 4 → t.flag (VLV.TRIP.f k) = true ∧ t.flag (VLV.LOCAL.f k) = true ∧
          (s.flag (VLV.CAP_FULL.f k) = false → t.rd (VLV.TRIP_CAP_CAUSE.f k) =
            if k = ch.val / 32 then (if s.flag (VLV.OC.ch ch) then 0 else 1) else 3)) ∧
        t.flag VLV.SAFE_N_DRV.f = true)) ∧
  (∀ (ch : Channel) (s : State), s.openTo 12 (.vlv (ch / 32)) = true →
    ∃ t, Machine.exec (.protEn ch false) s = .next t ∧ t.flag (VLV.PROT_EN.ch ch) = false ∧
      OnlyRegs [(VLV.PROT_EN.ch ch).key] s t) ∧
  (∀ (ch : Channel) (d : Detector) (ua : Word) (s : State), s.dieOn = true →
    let th := match d with
      | .overcurrent => s.rd (VLV.CH_PROT_OCTH.ch ch)
      | .clampOverload => s.rd (VLV.CH_PROT_CLTH.ch ch)
    let limit := 4000 * max 1 (min 20 th)
    ∃ t, Machine.exec (.detectorInputChange ch d ua) s = .next t ∧
      t.flag ((detectorIn d).f ch) = decide (limit < ua.toNat) ∧
      t.flag ((detectorLay d).ch ch) = (s.flag ((detectorLay d).ch ch) && decide (limit < ua.toNat)) ∧
      OnlyRegs [((detectorUa d).f ch).key, ((detectorIn d).f ch).key, ((detectorLay d).ch ch).key] s t) ∧
  (∀ (s : State), ∃ t, Machine.exec .safeNFall s = .next t ∧
      (∀ k, k < 4 → t.flag (VLV.EXT_IN.f k) = true ∧ t.flag (VLV.LOCAL.f k) = s.flag (VLV.LOCAL.f k) ∧
        (s.dieOn = true → t.flag (VLV.TRIP.f k) = true ∧
          (s.flag (VLV.CAP_FULL.f k) = false → t.rd (VLV.TRIP_CAP_CAUSE.f k) = 4))) ∧
      (s.dieOn = false → OnlyRegs (keys 4 [VLV.EXT_IN]) s t) ∧
      t.flag VLV.SAFE_N_DRV.f = s.flag VLV.SAFE_N_DRV.f ∧ Only [.regs, .tabs, .runs] s t)

/-- PROT_REL in a tile whose registers are open to it stops driving SAFE_N and starts the wait, and does nothing
else. At the check 200 ns later, a local cause refuses the release: SAFE_N is driven again, LOCAL is set in every
tile and every latch stays as it is. Without one, SAFE_N low refuses it: LOCAL clears, REL_BLOCKED is set and every
latch stays. Otherwise TRIP and LOCAL clear in all four tiles; a channel that something else still holds safe
changes nothing, and one that nothing holds leaves its safe state: SAFE clears, and it keeps its safe output until
the next vector boundary exactly where a burst runs it. (A cause that came and went during the 200 ns has driven
SAFE_N anew; where the wait then ends by the second or third case, the drive stays as it stands until the next
release: the spec orders no such case, the model's choice, log entry 13.) SAFE_N rising clears EXT_IN and
REL_BLOCKED in every tile. A powered channel held safe whose driver has settled shows SAFE. CAP_REL empties its
tile's capture and touches no other. (R67, R70, R71) -/
def Obligations.TripReleaseFollowsItsSteps : Prop :=
  (∀ (n : Tile) (s : State), s.openTo 12 (.vlv n) = true →
    ∃ t, Machine.exec (.protRel n) s = .next t ∧ t.flag VLV.SAFE_N_DRV.f = false ∧ t.flag VLV.REL_WAIT.f = true ∧
      OnlyRegs [VLV.SAFE_N_DRV.f.key, VLV.REL_WAIT.f.key] s t) ∧
  (∀ (s : State), s.flag VLV.REL_WAIT.f = true →
    ∃ t, Machine.exec .releaseCheck s = .next t ∧ t.flag VLV.REL_WAIT.f = false ∧
      (s.localCause = true → t.flag VLV.SAFE_N_DRV.f = true ∧
        (∀ k, k < 4 → t.flag (VLV.LOCAL.f k) = true ∧ t.flag (VLV.TRIP.f k) = s.flag (VLV.TRIP.f k)) ∧
        OnlyRegs (VLV.REL_WAIT.f.key :: VLV.SAFE_N_DRV.f.key :: keys 4 [VLV.LOCAL]) s t) ∧
      (s.localCause = false → s.flag (VLV.EXT_IN.f 0) = true →
        (∀ k, k < 4 → t.flag (VLV.LOCAL.f k) = false ∧ t.flag (VLV.REL_BLOCKED.f k) = true ∧
          t.flag (VLV.TRIP.f k) = s.flag (VLV.TRIP.f k)) ∧
        OnlyRegs (VLV.REL_WAIT.f.key :: keys 4 [VLV.LOCAL, VLV.REL_BLOCKED]) s t) ∧
      (s.localCause = false → s.flag (VLV.EXT_IN.f 0) = false →
        (∀ k, k < 4 → t.flag (VLV.LOCAL.f k) = false ∧ t.flag (VLV.TRIP.f k) = false) ∧
        (∀ ch : Channel, t.inSafe ch = true → t.flag (VLV.SAFE.ch ch) = s.flag (VLV.SAFE.ch ch) ∧
          t.rd (VLV.AWAIT.f ch) = s.rd (VLV.AWAIT.f ch)) ∧
        (∀ ch : Channel, t.inSafe ch = false → t.flag (VLV.SAFE.ch ch) = false ∧
          t.rd (VLV.AWAIT.f ch) = if s.chanRunning ch then 1 else 0) ∧
        t.flag VLV.SAFE_N_DRV.f = s.flag VLV.SAFE_N_DRV.f ∧ Only [.regs] s t)) ∧
  (∀ (s : State), ∃ t, Machine.exec .safeNRise s = .next t ∧
      (∀ k, k < 4 → t.flag (VLV.EXT_IN.f k) = false ∧ t.flag (VLV.REL_BLOCKED.f k) = false) ∧
      OnlyRegs (keys 4 [VLV.EXT_IN, VLV.REL_BLOCKED]) s t) ∧
  (∀ (ch : Channel) (s : State), s.inSafe ch = true → s.dieOn = true →
    ∃ t, Machine.exec (.safeSettled ch) s = .next t ∧ t.flag (VLV.SAFE.ch ch) = true ∧
      OnlyRegs [(VLV.SAFE.ch ch).key] s t) ∧
  (∀ (n : Tile) (s : State), s.openTo 12 (.vlv n) = true →
    ∃ t, Machine.exec (.vlvCapRel n) s = .next t ∧ t.flag (VLV.CAP_FULL.f n) = false ∧
      t.rd (VLV.TRIP_CAP_CH.f n) = 0 ∧ t.rd (VLV.TRIP_CAP_CAUSE.f n) = 0 ∧
      OnlyRegs [(VLV.CAP_FULL.f n).key, (VLV.TRIP_CAP_CH.f n).key, (VLV.TRIP_CAP_CAUSE.f n).key] s t)

/-- In a tile whose registers are open to it, with no commit in progress: MX_COMMIT with a node that would carry two
sources switches nothing; MX_ERR is set, and an empty capture takes the first such node and its second source (that
such a commit leaves the activity of slot 6, c = 16, is the model's choice, log entry 14). Otherwise the route table
in force becomes the shadow table, for every terminal, and MX_BUSY is set. With a commit in progress, the commit is
held and MX_PEND set. When the settle ends, MX_BUSY clears, and a test list of the tile that waited for that goes
on; a held commit then runs against the shadow as it stands. A change of MX_BUSY touches nothing else but the state
of the tile's four converters. MX_ERR_REL empties the capture. (R82, R83, R84, R303, R307) -/
def Obligations.MatrixCommitSwitchesOrIsRefused : Prop :=
  let adcs := fun (n : Tile) => (List.range 4).flatMap fun j =>
    [ADC.CHG, ADC.TS_WAIT, ADC.TS_LO, ADC.TS_HI].map fun l => (l.f (4 * n + j)).key
  (∀ (n : Tile) (s : State), s.openTo 12 (.vlv n) = true → s.flag (VLV.MX_BUSY.f n) = false →
    ∃ t, Machine.exec (.mxCommit n) s = .next t ∧
      (∀ x, s.mxConflict n = some x → t.flag (VLV.MX_ERR.f n) = true ∧
        (s.flag (VLV.MX_ERR.f n) = false →
          t.rd (VLV.MX_ERR_CAP_NODE.f n) = x.1 % 64 ∧ t.rd (VLV.MX_ERR_CAP_TERM.f n) = x.2 % 256) ∧
        OnlyRegs [(VLV.MX_ERR.f n).key, (VLV.MX_ERR_CAP_NODE.f n).key, (VLV.MX_ERR_CAP_TERM.f n).key] s t) ∧
      (s.mxConflict n = none →
        (∀ k, k < 194 → t.tab VLV.mxRoute n k = s.tab VLV.mxShadow n k % 256) ∧
        t.flag (VLV.MX_BUSY.f n) = true ∧ Only [.regs, .tabs] s t ∧
        RegsBut ((VLV.MX_BUSY.f n).key :: (VLV.MX_DONE.f n).key :: adcs n) s t ∧
        TabsBut ((List.range 194).map fun k => VLV.mxRoute.key n k) s t)) ∧
  (∀ (n : Tile) (s : State), s.openTo 12 (.vlv n) = true → s.flag (VLV.MX_BUSY.f n) = true →
    ∃ t, Machine.exec (.mxCommit n) s = .next t ∧ t.flag (VLV.MX_PEND.f n) = true ∧
      OnlyRegs [(VLV.MX_PEND.f n).key] s t) ∧
  (∀ (n : Tile) (s : State), s.flag (VLV.MX_BUSY.f n) = true →
    ∃ t, Machine.exec (.mxCommitEnd n) s = .next t ∧
      (s.flag (VLV.MX_PEND.f n) = false → t.flag (VLV.MX_BUSY.f n) = false ∧
        (∀ j : Fin 4, t.flag (ADC.TS_WAIT.f (4 * n + j)) = false) ∧
        OnlyRegs ((VLV.MX_BUSY.f n).key :: (VLV.MX_DONE.f n).key :: adcs n) s t) ∧
      (s.flag (VLV.MX_PEND.f n) = true → s.mxConflict n = none →
        t.flag (VLV.MX_PEND.f n) = false ∧ t.flag (VLV.MX_BUSY.f n) = true ∧
        ∀ k, k < 194 → t.tab VLV.mxRoute n k = s.tab VLV.mxShadow n k % 256)) ∧
  (∀ (n : Tile) (s : State), s.openTo 12 (.vlv n) = true →
    ∃ t, Machine.exec (.mxErrRel n) s = .next t ∧ t.flag (VLV.MX_ERR.f n) = false ∧
      t.rd (VLV.MX_ERR_CAP_NODE.f n) = 0 ∧ t.rd (VLV.MX_ERR_CAP_TERM.f n) = 0 ∧
      OnlyRegs [(VLV.MX_ERR.f n).key, (VLV.MX_ERR_CAP_NODE.f n).key, (VLV.MX_ERR_CAP_TERM.f n).key] s t)

/-- While the registers of TIM are open to the access. An unstaged write of a period word takes effect at once on a
sequencer that issues no vectors, and on one that does it waits with the word in force unchanged; a staged one is
held, and the word in force is unchanged; SQ_PEND does not show where no staged write is held or waits. The same for
a writable word of a tile's table, by the channel it concerns: with nothing held the read gives the value written.
On an option without Express mode a write of EXPRESS = 1 or of a strobe position other than 0 stores no such bit and
fills or counts in SYS_ABSENT_HIT. TIM_PLANE reads what was written. SQ_COMMIT and T_COMMIT leave no write held, and
where no sequencer issues vectors they put every held period word into force. ERR_REL empties the capture of its
tile, which fills again at once with KIND 2 if a TD of the tile still exceeds PLANE. (Which states count as a
running burst is log entry 15.) (R42, R89, R95, R96, R105, R106, R110, R119) -/
def Obligations.TimingWritesTakeEffectAtBoundaries : Prop :=
  (∀ (w : Fin 1024) (v : Word) (s : State), s.openTo 12 .tim = true →
    let x := (v.toNat &&& 0x0FFFFFFF) + (if s.hasExpress then v.toNat &&& 0x80000000 else 0)
    let absent := s.hasExpress = false ∧ bitOf v.toNat 31 = true
    let hit := [SYS.HIT.f.key, SYS.ABSENT_ADDR.f.key, SYS.ABSENT_CNT.f.key]
    ∃ t, Machine.exec (.timingWrite (.sq w) v) s = .next t ∧ Only [.regs, .tabs] s t ∧
      RegsBut (TIM.SQ_PEND.f.key :: hit) s t ∧
      (absent → AbsentCaught 0x24001014 s t) ∧ (¬ absent → RegsBut [TIM.SQ_PEND.f.key] s t) ∧
      (s.flag TIM.SQ_STAGE.f = true → t.tab TIM.sqHeld 0 w = x + 1 ∧
        TabsBut [TIM.sqHeld.key 0 w] s t ∧ (SMap.sorted s.tabs = true → t.flag TIM.SQ_PEND.f = true)) ∧
      (s.flag TIM.SQ_STAGE.f = false → s.issuing (w / 64) = true →
        (s.tab TIM.sqHeld 0 w = 0 → t.sqRead w = x) ∧ TabsBut [TIM.sqCommitted.key 0 w] s t) ∧
      (s.flag TIM.SQ_STAGE.f = false → s.listed TIM.sqHeld 0 = [] → s.listed TIM.sqCommitted 0 = [] →
        SMap.sorted s.tabs = true → t.flag TIM.SQ_PEND.f = false) ∧
      (s.flag TIM.SQ_STAGE.f = false → s.issuing (w / 64) = false →
        t.tab TIM.sq 0 w = x ∧ t.tab TIM.sqCommitted 0 w = 0 ∧
        TabsBut [TIM.sq.key 0 w, TIM.sqCommitted.key 0 w] s t)) ∧
  (∀ (n : Tile) (a : Fin 524288) (m : Nat) (v : Word) (s : State), s.openTo 12 .tim = true →
    tWordMask (a % 0x4000) = some m → (a.val % 0x4000 = 0x2202 → s.hasExpress = true) →
    ∃ t, Machine.exec (.timingWrite (.tile n a) v) s = .next t ∧ Only [.regs, .tabs] s t ∧
      (s.flag (TIM.T_STAGE.f n) = true → t.tRead n a = (v.toNat &&& m) ∧ t.tCur n a = s.tCur n a) ∧
      (s.flag (TIM.T_STAGE.f n) = false → s.chanRunning (32 * n + a / 0x4000) = true →
        (s.tab TIM.tHeld n a = 0 → t.tRead n a = (v.toNat &&& m)) ∧ t.tCur n a = s.tCur n a) ∧
      (s.flag (TIM.T_STAGE.f n) = false → s.chanRunning (32 * n + a / 0x4000) = false →
        t.tCur n a = (v.toNat &&& m) ∧ t.tab TIM.tCommitted n a = 0)) ∧
  (∀ (n : Tile) (a : Fin 524288) (v : Word) (s : State), s.openTo 12 .tim = true → a.val % 0x4000 = 0x2202 →
    s.hasExpress = false →
    ∃ t, Machine.exec (.timingWrite (.tile n a) v) s = .next t ∧ t.tRead n a = 0 ∧
      (v.toNat % 128 = 0 → t = s) ∧
      (v.toNat % 128 ≠ 0 → AbsentCaught (0x24001104 + 0x20 * n) s t ∧
        OnlyRegs [SYS.HIT.f.key, SYS.ABSENT_ADDR.f.key, SYS.ABSENT_CNT.f.key] s t)) ∧
  (∀ (v : Word) (s : State), s.openTo 12 .tim = true →
    ∃ t, Machine.exec (.timingWrite .plane v) s = .next t ∧ t.rd TIM.PLANE.f = v.toNat % 2 ^ 15 ∧
      OnlyRegs (TIM.PLANE.f.key :: keys 4 [TIM.ERR_FULL, TIM.ERR_CAP_CH, TIM.ERR_CAP_KIND]) s t) ∧
  (∀ (v : BitVec 15) (s : State), s.openTo 12 .tim = true →
    ∃ t, Machine.exec (.timPlane v) s = .next t ∧ t.rd TIM.PLANE.f = v.toNat ∧
      OnlyRegs (TIM.PLANE.f.key :: keys 4 [TIM.ERR_FULL, TIM.ERR_CAP_CH, TIM.ERR_CAP_KIND]) s t) ∧
  (∀ (s : State), s.openTo 12 .tim = true → SMap.sorted s.tabs = true →
    ∃ t, Machine.exec .sqCommit s = .next t ∧ Only [.regs, .tabs] s t ∧ RegsBut [TIM.SQ_PEND.f.key] s t ∧
      (∀ w, w < 1024 → t.tab TIM.sqHeld 0 w = 0 ∧
        (∀ v, v < 2 ^ 32 → s.tab TIM.sqHeld 0 w = v + 1 → s.issuing (w / 64) = false → t.tab TIM.sq 0 w = v) ∧
        ((∀ e ∈ s.listed TIM.sqHeld 0, e.1 ≠ w) → t.tab TIM.sq 0 w = s.tab TIM.sq 0 w))) ∧
  (∀ (n : Tile) (s : State), s.openTo 12 .tim = true → SMap.sorted s.tabs = true →
    ∃ t, Machine.exec (.tCommit n) s = .next t ∧ Only [.regs, .tabs] s t ∧
      ∀ a, a < 524288 → t.tab TIM.tHeld n a = 0) ∧
  (∀ (n : Tile) (s : State), s.openTo 12 .tim = true →
    ∃ t, Machine.exec (.timErrRel n) s = .next t ∧
      ((∀ k, k < 32 → s.tdOf (32 * n + k) ≤ s.planeOf (32 * n + k)) → t.flag (TIM.ERR_FULL.f n) = false) ∧
      ((∃ k, k < 32 ∧ s.planeOf (32 * n + k) < s.tdOf (32 * n + k)) →
        t.flag (TIM.ERR_FULL.f n) = true ∧ t.rd (TIM.ERR_CAP_KIND.f n) = 2) ∧
      OnlyRegs [(TIM.ERR_FULL.f n).key, (TIM.ERR_CAP_CH.f n).key, (TIM.ERR_CAP_KIND.f n).key] s t)

/-- While the registers of TIM are open to the access and no run is in progress, TDR_START with a masked channel
that R113 names records KIND 3 with the first such channel in an empty capture and starts nothing (with no channel
masked and the trip latch set, where the spec names no channel, the tile's first, log entry 16); otherwise TDR_BUSY
is set, every masked channel's result reads VALID = 0 and else as before, and the threshold stands a quarter of the
lowest masked channel's step above its VIL (in whole codes, log entry 16). TDR_ABORT leaves no channel of the tile
unfinished or held. Of the 2^AVG launches of a search point all but the last only count. With the last, in the first
search, a time found is kept; none found finishes the channel with END 4; in the second and third, a time found
within 20 ns of the launch finishes it with END 1 or 2 and the distance of the two times as RT; where the third
finds none, END 3 and RT 0. At the end of a run TDR_BUSY clears, every finished channel reads VALID = 1, with LOAD a
channel outside a burst that ended with 1 or 2 takes half its RT as TD, and the auxiliary DAC of the run is again
what it was at the start. (R113, R114, R115, R116) -/
def Obligations.TdrRunsOrIsRefused : Prop :=
  (∀ (n : Tile) (s : State), s.openTo 12 .tim = true → s.flag (TIM.TDR_BUSY.f n) = false →
    ∃ t, Machine.exec (.tdrStart n) s = .next t ∧ Only [.regs, .tabs] s t ∧
      (∀ k, (s.tdrMasked n).find? (fun k => s.tdrOffends n k) = some k →
        OnlyRegs [(TIM.ERR_FULL.f n).key, (TIM.ERR_CAP_CH.f n).key, (TIM.ERR_CAP_KIND.f n).key] s t ∧
        (s.flag (TIM.ERR_FULL.f n) = false → t.rd (TIM.ERR_CAP_KIND.f n) = 3 ∧
          t.rd (TIM.ERR_CAP_CH.f n) = 32 * n.val + k)) ∧
      (s.tdrMasked n = [] → s.flag (VLV.TRIP.f n) = true →
        OnlyRegs [(TIM.ERR_FULL.f n).key, (TIM.ERR_CAP_CH.f n).key, (TIM.ERR_CAP_KIND.f n).key] s t) ∧
      ((∀ k ∈ s.tdrMasked n, s.tdrOffends n k = false) → (s.tdrMasked n ≠ [] ∨ s.flag (VLV.TRIP.f n) = false) →
        t.flag (TIM.TDR_BUSY.f n) = true ∧
        (∀ k ∈ s.tdrMasked n, t.chWord (32 * n + k) 0x2203 % 2 ^ 32 = s.chWord (32 * n + k) 0x2203 % 2 ^ 31) ∧
        (∀ k, (s.tdrMasked n).head? = some k → t.rd (TIM.TDR_DAC.f n) =
          (3 * s.levelCode .vil (32 * n + k) + s.levelCode .vih (32 * n + k)) / 4))) ∧
  (∀ (n : Tile) (s : State), s.openTo 12 .tim = true →
    ∃ t, Machine.exec (.tdrAbort n) s = .next t ∧ t.rd (TIM.TDR_UNF.f n) = 0 ∧
      (∀ k, k < 32 → t.tdrHolds (32 * n + k) = false) ∧
      OnlyRegs [(TIM.TDR_UNF.f n).key, (TIM.TDR_ACT.f n).key] s t) ∧
  (∀ (n : Tile) (obs : List (Fin 32 × TdrSample)) (s : State), s.flag (TIM.TDR_BUSY.f n) = true →
    s.rd (TIM.TDR_CNT.f n) + 1 < 2 ^ max 4 (min 12 (s.rd (TIM.TDR_CFG_AVG.f n))) →
    ∃ t, Machine.exec (.tdrLaunch n obs) s = .next t ∧ t.rd (TIM.TDR_CNT.f n) = s.rd (TIM.TDR_CNT.f n) + 1 ∧
      OnlyRegs [(TIM.TDR_CNT.f n).key] s t) ∧
  (∀ (n : Tile) (k : Fin 32) (x : TdrSample) (s : State), s.flag (TIM.TDR_BUSY.f n) = true →
    2 ^ max 4 (min 12 (s.rd (TIM.TDR_CFG_AVG.f n))) ≤ s.rd (TIM.TDR_CNT.f n) + 1 →
    s.bit (TIM.TDR_UNF.f n) k = true → s.bit (TIM.TDR_GOT.f n) k = false →
    ∃ t, Machine.exec (.tdrLaunch n [(k, x)]) s = .next t ∧ Only [.regs, .tabs] s t ∧
      let w := t.chWord (32 * n + k) 0x2203
      let t0 := s.rd (TIM.TDR_T0.f (32 * n + k))
      let phase := s.rd (TIM.TDR_PHASE.f n)
      (∀ v, x = .found v → phase = 1 → t.rd (TIM.TDR_T0.f (32 * n + k)) = v.toNat ∧ t.tabs = s.tabs) ∧
      (x = .exhausted → phase = 1 → t.bit (TIM.TDR_UNF.f n) k = false ∧ bits w 16 16 = 4) ∧
      (∀ v, x = .found v → (phase = 2 ∨ phase = 3) → t0 ≤ v.toNat → v.toNat ≤ t0 + 40000 →
        t.bit (TIM.TDR_UNF.f n) k = false ∧ w = v.toNat - t0 + (phase - 1) * 2 ^ 16) ∧
      (phase = 2 → (x = .exhausted ∨ ∃ v, x = .found v ∧ (v.toNat < t0 ∨ t0 + 40000 < v.toNat)) →
        t.bit (TIM.TDR_UNF.f n) k = true ∧ t.tabs = s.tabs) ∧
      (phase = 3 → x = .exhausted → t.bit (TIM.TDR_UNF.f n) k = false ∧ w = 3 * 2 ^ 16)) ∧
  (∀ (n : Tile) (s : State), s.flag (TIM.TDR_BUSY.f n) = true → s.rd (TIM.TDR_UNF.f n) = 0 →
    ∃ t, Machine.exec (.tdrEnd n) s = .next t ∧ t.flag (TIM.TDR_BUSY.f n) = false ∧ Only [.regs, .tabs] s t ∧
      t.rd (VLV.ADAC_CODE.f n (s.rd (TIM.TDR_K.f n))) = s.rd (TIM.TDR_SAVE.f n) % 2 ^ 16 ∧
      t.flag (VLV.ADAC_EN.f n (s.rd (TIM.TDR_K.f n))) = bitOf (s.rd (TIM.TDR_SAVE.f n)) 16 ∧
      ∀ k, k < 32 → s.chWord (32 * n + k) 0x2203 < 2 ^ 31 →
        bitOf (t.chWord (32 * n + k) 0x2203) 31 = s.bit (TIM.TDR_OK.f n) k ∧
        (s.bit (TIM.TDR_OK.f n) k = true → s.flag (TIM.TDR_CFG_LOAD.f n) = true → s.chanRunning (32 * n + k) = false →
          (bits (s.chWord (32 * n + k) 0x2203) 16 3 = 1 ∨ bits (s.chWord (32 * n + k) 0x2203) 16 3 = 2) →
          t.chWord (32 * n + k) 0x2201 = s.chWord (32 * n + k) 0x2203 % 2 ^ 16 / 2))

/-- With the tiles powered, TREF locked and the tiles' clocks locked to it, the end of the start-up calibration sets
CAL_DONE and takes every channel's tile temperature as that of its last calibration. A recalibration step begins
only where its channel is due, its sequencer issues no vectors, no TDR run holds it, and fewer than eight steps of
the tile are in progress; its end takes the tile's temperature as the new reference for that channel and no other,
and brings TRK_DUE and TRK_LATE of the tile up to date. A channel is due with TRK_EN of its tile while the
temperature stands 2 degrees or more from the reference. (R112, R117) -/
def Obligations.CalibrationAndTracking : Prop :=
  (∀ (s : State), s.dieOn = true → s.flag CLK.TREF_OK.f = true → s.bit CLK.LK.f 2 = true → s.rd CLK.LK_TM.f = 15 →
    ∃ t, Machine.exec .calDone s = .next t ∧ t.flag TIM.CAL_DONE.f = true ∧
      (∀ c, c < 128 → t.rd (TIM.CAL_TEMP.f c) = s.rd (PWR.TEMP.f (c / 32)) % 2 ^ 12) ∧
      OnlyRegs (TIM.CAL_DONE.f.key :: keys 128 [TIM.CAL_TEMP] ++ keys 4 [TIM.TRK_DUE, TIM.TRK_LATE]) s t) ∧
  (∀ (ch : Channel) (s : State), s.recalMayBegin ch = true ↔
    s.flag (TIM.TRK_EN.f (ch / 32)) = true ∧
    16 ≤ (signedOf 12 (s.rd (PWR.TEMP.f (ch / 32))) - signedOf 12 (s.rd (TIM.CAL_TEMP.f ch))).natAbs ∧
    s.chanRunning ch = false ∧ s.tdrHolds ch = false ∧ s.flag (TIM.RECAL.f ch) = false ∧
    ((List.range 32).filter fun k => s.flag (TIM.RECAL.f (ch / 32 * 32 + k))).length < 8) ∧
  (∀ (ch : Channel) (s : State), s.recalMayBegin ch = true →
    ∃ t, Machine.exec (.recalibrationStep ch) s = .next t ∧ t.flag (TIM.RECAL.f ch) = true ∧
      OnlyRegs [(TIM.RECAL.f ch).key] s t) ∧
  (∀ (ch : Channel) (s : State), s.recalMayBegin ch = false →
    Machine.exec (.recalibrationStep ch) s = .next s) ∧
  (∀ (ch : Channel) (s : State), s.flag (TIM.RECAL.f ch) = true →
    ∃ t, Machine.exec (.recalibrationEnd ch) s = .next t ∧ t.flag (TIM.RECAL.f ch) = false ∧
      t.rd (TIM.CAL_TEMP.f ch) = s.rd (PWR.TEMP.f (ch / 32)) % 2 ^ 12 ∧
      t.flag (TIM.TRK_DUE.f (ch / 32)) = (List.range 32).any (fun k => t.trkDue (32 * (ch / 32) + k)) ∧
      OnlyRegs [(TIM.RECAL.f ch).key, (TIM.CAL_TEMP.f ch).key, (TIM.TRK_DUE.f (ch / 32)).key,
        (TIM.TRK_LATE.f (ch / 32)).key] s t)

/-- For every instruction of Twill: where the sequencer stands at a fresh line of that opcode, the command issues
one vector with the line's pin bytes, whose cycle number is the count of vectors before it; TWL_LINE reads the
line's address. The vector is masked for every group where the line has CMASK = 1, and for none where it has not and
no MATCH is in progress. A line that breaks R131 still issues that vector, and the run then ends at the next
boundary with INSN_ERR, unless an ending with a lower code comes there. No other sequencer's run changes, and
nothing outside the registers, tables, runs and fail capture does. (R120, R127, R131, R132, R134) -/
def Obligations.EveryLineIssuesItsVector : Prop :=
  ∀ (q : SeqId) (x : Nat × Instr), x ∈ twlOps q → ∀ (s : State) (r : SeqRun) (l : TwlLine),
    AtLine s q r l → l.op = x.1 → r.fresh = true →
    ∃ t r' fl, Machine.exec x.2 s = .next t ∧ t.run? q = some r' ∧ r'.vcnt = r.vcnt + 1 ∧ r'.last = l.bytes ∧
      t.rd (TWL.LINE.f q) = l.addr % 2 ^ 32 ∧ r'.flights.getLast? = some fl ∧ fl.cyc = r.vcnt ∧
      (l.cmask = true → fl.maskGrp = 0xFF) ∧
      (l.cmask = false → x.1 ≠ 9 → r.mtch = none → fl.maskGrp = 0) ∧
      ((s.settle q).insnErr q r l = true → EndsNext q 5 (l.addr % 2 ^ 32) t) ∧
      (∀ p, p ≠ q.val → t.run? p = s.run? p) ∧
      Only [.regs, .tabs, .runs, .inj, .fifos, .sessions, .raised] s t

/-- Outside a MATCH, from a fresh line that R131 does not forbid: NOP, HOF, EVT and CLRF go to the next line; LDC
too, after LCk := N; DJNZ takes 1 from LCk modulo 2^32 and goes to its target, or to the next line where LCk becomes
0; JMP goes to its target; CALL pushes the next line's address and goes to its target; RET pops an address and goes
to it; STOP ends the run. HOF sets the halt-on-fail mode, EVT raises the event of its slot, stamped at the issue of
its vector, CLRF clears FAIL and MTO. RPT goes on when N vectors have been issued, N = 0 as 1. The loop counters,
the stack depth, FAIL, DET and MTO otherwise keep what the boundary left in them. (R131, R133, R139, R151) -/
def Obligations.LinesGoWhereTheySay : Prop :=
  (∀ (q : SeqId) (s : State) (r : SeqRun) (l : TwlLine), AtLine s q r l → r.fresh = true → r.mtch = none →
    (s.settle q).insnErr q r l = false →
    let u := s.settle q
    (l.op = 0 → ∃ t, Machine.exec (.twlNop q) s = .next t ∧ WentTo q l.next r t ∧ Same (seqFlds q) u t) ∧
    (l.op = 3 → ∃ t, Machine.exec (.twlLdc q) s = .next t ∧ WentTo q l.next r t ∧
      t.rd (TWL.LC.f q (l.opnd % 8)) = l.arg % 2 ^ 32 ∧
      Same ((seqFlds q).erase (TWL.LC.f q (l.opnd % 8))) u t) ∧
    (l.op = 4 → ∃ t, Machine.exec (.twlDjnz q) s = .next t ∧
      t.rd (TWL.LC.f q (l.opnd % 8)) = (u.rd (TWL.LC.f q (l.opnd % 8)) + (2 ^ 32 - 1)) % 2 ^ 32 ∧
      WentTo q (if t.rd (TWL.LC.f q (l.opnd % 8)) = 0 then l.next else l.arg) r t ∧
      Same ((seqFlds q).erase (TWL.LC.f q (l.opnd % 8))) u t) ∧
    (l.op = 5 → ∃ t, Machine.exec (.twlJmp q) s = .next t ∧ WentTo q l.arg r t ∧ Same (seqFlds q) u t) ∧
    (l.op = 6 → ∃ t, Machine.exec (.twlCall q) s = .next t ∧ WentTo q l.arg r t ∧
      (∀ r', t.run? q = some r' → r'.stack = l.next :: r.stack) ∧
      t.rd (TWL.STATE_SP.f q) = r.stack.length + 1 ∧ Same ((seqFlds q).erase (TWL.STATE_SP.f q)) u t) ∧
    (l.op = 7 → ∃ t w st, Machine.exec (.twlRet q) s = .next t ∧ r.stack = w :: st ∧ WentTo q w r t ∧
      (∀ r', t.run? q = some r' → r'.stack = st) ∧
      t.rd (TWL.STATE_SP.f q) = st.length % 2 ^ 5 ∧ Same ((seqFlds q).erase (TWL.STATE_SP.f q)) u t) ∧
    (l.op = 0xA → ∃ t, Machine.exec (.twlHof q) s = .next t ∧ WentTo q l.next r t ∧
      (∀ r', t.run? q = some r' → r'.hof = if l.opnd % 4 = 3 then 0 else l.opnd % 4) ∧ Same (seqFlds q) u t) ∧
    (l.op = 0xB → ∃ t, Machine.exec (.twlStop q) s = .next t ∧ RunEnded q 1 r t ∧ Same (seqFlds q) u t) ∧
    (l.op = 0xC → ∃ t, Machine.exec (.twlEvt q) s = .next t ∧ WentTo q l.next r t ∧
      (1024 + 8 * q.val + 4 + l.opnd % 4, s.time) ∈ t.raised ∧ Same (seqFlds q) u t) ∧
    (l.op = 0xF → ∃ t, Machine.exec (.twlClrf q) s = .next t ∧ WentTo q l.next r t ∧
      t.rd (TWL.FAIL.f q) = 0 ∧ t.rd (TWL.MTO.f q) = 0 ∧
      Same (((seqFlds q).erase (TWL.FAIL.f q)).erase (TWL.MTO.f q)) u t) ∧
    (l.op = 1 → ∃ t, Machine.exec (.twlRpt q) s = .next t ∧ Same (seqFlds q) u t ∧
      (l.arg ≤ 1 → WentTo q l.next r t) ∧
      (1 < l.arg → ∃ r', t.run? q = some r' ∧ r'.line = some l ∧ r'.fresh = false ∧ r'.left = l.arg - 1))) ∧
  (∀ (q : SeqId) (s : State) (r : SeqRun) (l : TwlLine), AtLine s q r l → r.fresh = false → r.mtch = none →
    l.op = 1 →
    ∃ t, Machine.exec (.twlRpt q) s = .next t ∧ Same (seqFlds q) (s.settle q) t ∧
      (r.left ≤ 1 → WentTo q l.next r t) ∧
      (1 < r.left → ∃ r', t.run? q = some r' ∧ r'.line = some l ∧ r'.left = r.left - 1 ∧ r'.vcnt = r.vcnt + 1))

/-- Outside a MATCH, from a fresh line that R131 does not forbid: BRC stays at its line and will repeat its vector,
masked, H times, in HOLD. SYNC waits in SYNC and repeats its vector masked in a cascade; goes to the next line where
CASC_EN = 0; and where the path to the master is lost the run ends at the next boundary with SYNC_FAIL. APG hands
over to the APG selected, in state APG, at Start with SP 0 and TMR 0. MATCH begins a loop of B lines and at most T
iterations (0 as 1), every vector masked, in state MATCH; a body of one line completes its first iteration at once.
In a MATCH, a line of the body that is not the last goes to the next line, and the last completes the iteration.
After T iterations the last vector is repeated masked in HOLD until every iteration is decided; a loop not satisfied
by then times out: the run goes to the line after the body, and MTO is set for exactly the undetached groups that
did not match. (R136, R137, R138, R141, R142) -/
def Obligations.LinesThatHoldOrLoop : Prop :=
  (∀ (q : SeqId) (s : State) (r : SeqRun) (l : TwlLine), AtLine s q r l → r.fresh = true → r.mtch = none →
    (s.settle q).insnErr q r l = false →
    let u := s.settle q
    (l.op = 8 → ∃ t r', Machine.exec (.twlBrc q) s = .next t ∧ t.run? q = some r' ∧ r'.line = some l ∧
      r'.fresh = false ∧ r'.left = t.holdCount q ∧ t.rd (TWL.STATE_STATE.f q) = 2 ∧ Same (seqFlds q) u t) ∧
    (l.op = 0xD → ∃ t, Machine.exec (.twlSync q) s = .next t ∧ Same (seqFlds q) u t ∧
      (s.inCascade = true → t.rd (TWL.STATE_STATE.f q) = 5 ∧ ∃ r', t.run? q = some r' ∧ r'.line = some l ∧ r'.fresh = false) ∧
      (s.inCascade = false → s.flag TWD.CASC_EN.f = false → WentTo q l.next r t) ∧
      (s.inCascade = false → s.flag TWD.CASC_EN.f = true → EndsNext q 4 (l.addr % 2 ^ 32) t)) ∧
    (∀ g, l.op = 0xE → u.apgOf q = some g → g < 4 → l.arg < 4096 → s.gated .gng = false →
      (s.wr (GNG.STATE_SP.f g) 0).apgCause g l.arg = none →
      ∃ t r', Machine.exec (.twlApg q) s = .next t ∧ t.run? q = some r' ∧ r'.line = some l ∧
        t.rd (TWL.STATE_STATE.f q) = 6 ∧ t.flag (GNG.RUN.f g) = true ∧ t.rd (GNG.STATE_PC.f g) = l.arg ∧
        t.rd (GNG.NPC.f g) = l.arg ∧ t.rd (GNG.STATE_SP.f g) = 0 ∧ t.rd (GNG.TMR.f g) = 0) ∧
    (l.op = 9 → ∃ t r' m, Machine.exec (.twlMatch q) s = .next t ∧ t.run? q = some r' ∧ r'.mtch = some m ∧
      m.line = l.addr ∧ m.body = l.opnd % 256 + 1 ∧ m.agg = bitOf l.opnd 8 ∧ m.limit = max 1 l.arg ∧
      m.matched = [] ∧ m.decided = 0 ∧ t.rd (TWL.STATE_STATE.f q) = 4 ∧ (∃ fl, r'.flights.getLast? = some fl ∧ fl.maskGrp = 0xFF) ∧
      (l.opnd % 256 = 0 → m.iter = 1 ∧ m.idx = 0 ∧ r'.need = none ∧ r'.line = none) ∧
      (l.opnd % 256 ≠ 0 → m.iter = 0 ∧ m.idx = 1 ∧ r'.need = some l.next))) ∧
  (∀ (q : SeqId) (s : State) (r : SeqRun) (l : TwlLine), AtLine s q r l → r.fresh = false →
    (l.op = 8 → ∃ t r', Machine.exec (.twlBrc q) s = .next t ∧ t.run? q = some r' ∧ r'.vcnt = r.vcnt + 1 ∧
      r'.left = r.left - 1 ∧ t.rd (TWL.STATE_STATE.f q) = 3 ∧ (∃ fl, r'.flights.getLast? = some fl ∧ fl.maskGrp = 0xFF)) ∧
    (l.op = 0xD → ∃ t r', Machine.exec (.twlSync q) s = .next t ∧ t.run? q = some r' ∧ r'.vcnt = r.vcnt + 1 ∧
      r'.line = some l ∧ (∃ fl, r'.flights.getLast? = some fl ∧ fl.maskGrp = 0xFF))) ∧
  (∀ (q : SeqId) (s : State) (r : SeqRun) (l : TwlLine) (m : MatchRun) (x : Nat × Instr),
    x ∈ [(0, Instr.twlNop q), (9, Instr.twlMatch q)] → AtLine s q r l → l.op = x.1 → r.fresh = true → r.mtch = some m →
    (s.settle q).insnErr q r l = false →
    ∃ t r' m', Machine.exec x.2 s = .next t ∧ t.run? q = some r' ∧ r'.mtch = some m' ∧
      (m.idx + 1 = m.body → m'.iter = m.iter + 1 ∧ m'.idx = 0 ∧ m'.after = l.next ∧ r'.need = none ∧ r'.line = none) ∧
      (m.idx + 1 ≠ m.body → m'.iter = m.iter ∧ m'.idx = m.idx + 1 ∧ r'.need = some l.next)) ∧
  (∀ (q : SeqId) (s : State) (r : SeqRun) (m : MatchRun), (s.settle q).run? q = some r → (s.settle q).issuing q = true →
    r.mtch = some m →
    ((s.settle q).awaiting q r = false → r.line = none → r.need = none → m.decided < m.iter →
      ∃ t r', Machine.exec (.twlMatch q) s = .next t ∧ t.run? q = some r' ∧ r'.vcnt = r.vcnt + 1 ∧
        r'.last = r.last ∧ r'.mtch = some m ∧ t.rd (TWL.STATE_STATE.f q) = 3 ∧
        (∃ fl, r'.flights.getLast? = some fl ∧ fl.maskGrp = 0xFF)) ∧
    (m.tail = true → m.sat = none → m.iter ≤ m.decided →
      ∃ t r', Machine.exec (.twlMatchTimeout q) s = .next t ∧ t.run? q = some r' ∧ r'.mtch = none ∧
        r'.need = some m.after ∧ t.rd (TWL.STATE_STATE.f q) = 2 ∧
        ∀ g ∈ r.liveGroups, g < 8 → t.bit (TWL.MTO.f q) g = !(m.matched.any fun y => y.1 == g)))

/-- STOP in a block whose registers are open to it ends a run that issues vectors, or that is BOUND, with CMD_STOP
and without a further vector, unless a halt on fail is due at the boundary; in IDLE and DRAIN it changes nothing. An
ending that is due comes at the next boundary, with its code and line, whatever vector is to be issued there, unless
a halt on fail is due. Where a sequencer needs a line, Calico's fetcher takes a turn, and then, by the first part of
the line that the buffer does not hold whole: a missing part leaves the line needed; a poisoned part ends the run at
the next boundary with POISON_STOP at that address, whatever its bytes spell; with all parts there, a line that
breaks R130 ends it with STREAM_ERR at that address, and one that decodes becomes the line to issue next. No vector
is issued and no other sequencer's run changes. (R130, R147, R148, R239, R240) -/
def Obligations.RunsStopAndLinesAreDecoded : Prop :=
  (∀ (q : SeqId) (s : State) (r : SeqRun), s.openTo 12 .twl = true → (s.haltDue q).run? q = some r →
    ((s.haltDue q).issuing q = true ∨ (s.haltDue q).rd (TWL.STATE_STATE.f q) = 1) →
    ∃ t, Machine.exec (.cmdStop q) s = .next t ∧ RunEnded q 3 r t ∧ (∀ r', t.run? q = some r' → r'.vcnt = r.vcnt) ∧
      ∀ p, p ≠ q.val → t.run? p = s.run? p) ∧
  (∀ (q : SeqId) (x : Nat × Instr), x ∈ twlOps q → ∀ (s : State) (r0 r : SeqRun) (code line : Nat),
    s.run? q = some r0 → s.awaiting q r0 = false → (s.haltDue q).run? q = some r → (s.haltDue q).issuing q = true →
    r.ending = some (code, line) →
    ∃ t r', Machine.exec x.2 s = .next t ∧ RunEnded q code r t ∧ t.run? q = some r' ∧ r'.vcnt = r.vcnt ∧
      ((∀ b ∈ r.bursts, b.ended = none) → ∀ b ∈ r'.bursts, b.endLine = line)) ∧
  (∀ (q : SeqId) (s : State), s.openTo 12 .twl = true →
    (s.rd (TWL.STATE_STATE.f q) = 0 ∨ s.rd (TWL.STATE_STATE.f q) = 7) → Machine.exec (.cmdStop q) s = .next s) ∧
  (∀ (q : SeqId) (s : State) (r0 r : SeqRun) (w : Nat), (s.settle q).run? q = some r0 → (s.settle q).issuing q = true →
    (s.settle q).awaiting q r0 = false → r0.need = some w → ((s.settle q).fetch q w).run? q = some r →
    let u := (s.settle q).fetch q w
    let held := u.buffered q (lineParts (u.bufByte q) r.hdr w)
    ∃ t, Machine.exec (.lineDecode q) s = .next t ∧ (∀ r', t.run? q = some r' → r'.vcnt = r0.vcnt) ∧
      (∀ p, p ≠ q.val → t.run? p = s.run? p) ∧
      (held = .missing → t = u ∧ r.need = some w) ∧
      (held = .poison → EndsNext q 0xA w t) ∧
      (held = .whole → decodeLine (u.bufByte q) r.hdr w r.flow r.prev = .bad → EndsNext q 6 w t) ∧
      (∀ l, held = .whole → decodeLine (u.bufByte q) r.hdr w r.flow r.prev = .line l →
        ∃ r', t.run? q = some r' ∧ r'.line = some l ∧ r'.fresh = true ∧ r'.need = none ∧ r'.prev = l.bytes))

/-- In a clocked block, a commit that no check of R122 refuses puts the whole held map in force: exactly the
channels of the entries in use of enabled groups name this sequencer as their owner, for each such entry with its
group and column where the channel stands in one entry, and channels of other sequencers keep theirs; the sites, the
enables, the column sources and the APG selection come into force. A commit that is refused changes nothing but the
capture, which takes KIND, CH and SEQ unless it is full (of several repeated channels the first entry that repeats
an earlier one, log entry 22). MAP_ERR_REL empties it. (R120, R122, R123) -/
def Obligations.MapCommitAppliesAllOrNothing : Prop :=
  (∀ (q : SeqId) (s : State), s.openTo 12 .twl = true → s.mapCheck q = none →
    ∃ t, Machine.exec (.mapCommit q) s = .next t ∧ Only [.regs, .tabs] s t ∧
      (∀ c, c < 128 → ((∃ e ∈ s.heldEntries q, e.2.2 = c) ↔ t.rd (TWL.OWNER.f c) = q.val + 1)) ∧
      (∀ c, c < 128 → s.rd (TWL.OWNER.f c) ≠ q.val + 1 → (∀ e ∈ s.heldEntries q, e.2.2 ≠ c) →
        t.rd (TWL.OWNER.f c) = s.rd (TWL.OWNER.f c)) ∧
      (∀ e ∈ s.heldEntries q, t.rd (TWL.OWN_GRP.f e.2.2) = e.1 ∧ t.rd (TWL.OWN_COL.f e.2.2) = e.2.1) ∧
      (∀ g, g < 8 → t.flag (TWL.GF_EN.f q g) = s.flag (TWL.GRP_EN.f q g) ∧
        t.rd (TWL.GF_SITE.f q g) = s.rd (TWL.GRP_SITE.f q g) % 2 ^ 6) ∧
      t.apgOf q = (if s.flag (TWL.APGSEL_EN.f q) then some (s.rd (TWL.APGSEL_APG.f q) % 4) else none) ∧
      (∀ j, j < 128 → t.tab TWL.src q j = s.tab TWL.cmap q (0x400 + j) % 2 ^ 15)) ∧
  (∀ (q : SeqId) (k c o : Nat) (s : State), s.openTo 12 .twl = true → s.mapCheck q = some (k, c, o) →
    ∃ t, Machine.exec (.mapCommit q) s = .next t ∧ t.flag (TWL.MAP_ERR.f q) = true ∧
      (s.flag (TWL.MAP_ERR.f q) = true → t = s) ∧
      (s.flag (TWL.MAP_ERR.f q) = false → t.rd (TWL.MAP_CAP_KIND.f q) = k % 8 ∧ t.rd (TWL.MAP_CAP_CH.f q) = c % 128 ∧
        t.rd (TWL.MAP_CAP_SEQ.f q) = o % 16) ∧
      OnlyRegs [(TWL.MAP_ERR.f q).key, (TWL.MAP_CAP_KIND.f q).key, (TWL.MAP_CAP_CH.f q).key, (TWL.MAP_CAP_SEQ.f q).key] s t) ∧
  (∀ (q : SeqId) (s : State), s.openTo 12 .twl = true →
    ∃ t, Machine.exec (.mapErrRel q) s = .next t ∧ t.flag (TWL.MAP_ERR.f q) = false ∧
      t.rd (TWL.MAP_CAP_CH.f q) = 0 ∧ t.rd (TWL.MAP_CAP_KIND.f q) = 0 ∧ t.rd (TWL.MAP_CAP_SEQ.f q) = 0 ∧
      OnlyRegs [(TWL.MAP_ERR.f q).key, (TWL.MAP_CAP_KIND.f q).key, (TWL.MAP_CAP_CH.f q).key, (TWL.MAP_CAP_SEQ.f q).key] s t)

/-- For every instruction of Gingham, where the APG stands at that instruction: one that fails a check of R177
issues no vector and ends the run with APG_ERR, an empty error capture taking the lowest cause and the instruction's
address. Otherwise the command issues the span's last vector, numbered by the run's count and tagged with the
execution's addresses and data word, GNG_STATE.PC shows the instruction, and no other sequencer's run changes. Where
the span has two vectors, the first is issued, tagged so, and the rest of the execution is as from the state that
this vector leaves. (R142, R154, R161, R162, R176, R177, R178) -/
def Obligations.EveryApgExecutionIssuesItsSpan : Prop :=
  ∀ (g : ApgId) (x : Nat × Instr), x ∈ gngOps g →
    (∀ (s : State) (q : SeqId) (r : SeqRun) (l : TwlLine) (pc k : Nat), AtApg s g q r l pc → pc < 4096 → r.spanPos = 0 →
      (s.settle q).apgCause g pc = some k →
      ∃ t, Machine.exec x.2 s = .next t ∧ RunEnded q 8 r t ∧ (∀ r', t.run? q = some r' → r'.vcnt = r.vcnt) ∧
        t.flag (GNG.ERR_FULL.f g) = true ∧ (s.flag (GNG.ERR_FULL.f g) = false →
          t.rd (GNG.ERR_CAP_CAUSE.f g) = k ∧ t.rd (GNG.ERR_CAP_PC.f g) = pc)) ∧
    (∀ (s : State) (q : SeqId) (r : SeqRun) (l : TwlLine) (pc : Nat), LastOf s g q r l pc x.1 →
      ∃ t r' fl, Machine.exec x.2 s = .next t ∧ t.run? q = some r' ∧ r'.vcnt = r.vcnt + 1 ∧
        r'.flights.getLast? = some fl ∧ fl.cyc = r.vcnt ∧ (l.cmask = true → fl.maskGrp = 0xFF) ∧
        (r.spanPos = 0 → fl.tag = some ((s.settle q).apgTag g pc)) ∧
        t.rd (GNG.STATE_PC.f g) = pc ∧ (∀ p, p ≠ q.val → t.run? p = s.run? p) ∧
        Only [.regs, .tabs, .runs, .inj, .fifos, .sessions, .raised] s t) ∧
    (∀ (s : State) (q : SeqId) (r : SeqRun) (l : TwlLine) (pc : Nat), AtApg s g q r l pc → pc < 4096 → r.spanPos = 0 →
      (s.settle q).spanLen q = 2 → (s.settle q).apgCause g pc = none → (s.settle q).apgFop g pc = x.1 →
      let u := s.apgOne q g x.1 always fun t _ _ => t
      ∃ r' fl, u.run? q = some r' ∧ r'.vcnt = r.vcnt + 1 ∧ r'.spanPos = 1 ∧ r'.flights.getLast? = some fl ∧
        fl.cyc = r.vcnt ∧ fl.tag = some ((s.settle q).apgTag g pc) ∧
        (LastOf u g q r' l pc x.1 → Machine.exec x.2 s = Machine.exec x.2 u))

/-- At the last vector of an execution R177 allows, with TOP 0: NEXT goes on to PC + 1; JMP to TARGET; JW and JNW to
TARGET if FU wrapped, or did not, in this execution's unit operations, else to PC + 1; LDC loads the counter; DJNZ
takes 1 from it modulo 2^32 and goes to TARGET unless it becomes zero; CALL pushes PC + 1 and goes to TARGET; RET
pops; RPT executes again until IMM executions are complete, 0 as 1, and afresh where the instruction that repeated
was not an RPT; WAITT repeats the span while TMR is not zero and goes to PC + 1 once it is; JREF, with debt, takes
one from it and calls TARGET, and goes to PC + 1 without; END ends the hand-over, and Twill goes to the next line.
Counters, stack, debt and TMR otherwise keep what they held. (R161, R162, R164, R179) -/
def Obligations.ApgFlowOperations : Prop :=
  ∀ (g : ApgId) (s : State) (q : SeqId) (r : SeqRun) (l : TwlLine) (pc fop : Nat), LastOf s g q r l pc fop →
    s.rd (GNG.STATE_SP.f g) ≤ 8 → bits (s.apgWord g pc 0) 22 2 = 0 →
    let tgt := bits (s.apgWord g pc 0) 10 12
    let imm := s.apgWord g pc 1
    let lc := GNG.LC.f g (bits (s.apgWord g pc 0) 6 3)
    let sp := s.rd (GNG.STATE_SP.f g)
    let w := fuFlag (bits (s.apgWord g pc 0) 4 2) ((s.settle q).unitOps g pc).2
    (fop = 0 → ∃ t, Machine.exec (.gngNext g) s = .next t ∧ t.rd (GNG.NPC.f g) = pc + 1 ∧ Same (apgFlds g) s t) ∧
    (fop = 1 → ∃ t, Machine.exec (.gngJmp g) s = .next t ∧ t.rd (GNG.NPC.f g) = tgt ∧ Same (apgFlds g) s t) ∧
    (fop = 2 → ∃ t, Machine.exec (.gngJw g) s = .next t ∧ t.rd (GNG.NPC.f g) = (if w then tgt else pc + 1) ∧
      Same (apgFlds g) s t) ∧
    (fop = 3 → ∃ t, Machine.exec (.gngJnw g) s = .next t ∧ t.rd (GNG.NPC.f g) = (if w then pc + 1 else tgt) ∧
      Same (apgFlds g) s t) ∧
    (fop = 4 → ∃ t, Machine.exec (.gngLdc g) s = .next t ∧ t.rd (GNG.NPC.f g) = pc + 1 ∧
      t.rd lc = imm % 2 ^ 32 ∧ Same ((apgFlds g).erase lc) s t) ∧
    (fop = 5 → ∃ t, Machine.exec (.gngDjnz g) s = .next t ∧ t.rd lc = (s.rd lc + (2 ^ 32 - 1)) % 2 ^ 32 ∧
      t.rd (GNG.NPC.f g) = (if t.rd lc = 0 then pc + 1 else tgt) ∧ Same ((apgFlds g).erase lc) s t) ∧
    (fop = 6 → ∃ t, Machine.exec (.gngCall g) s = .next t ∧ t.rd (GNG.NPC.f g) = tgt ∧
      t.rd (GNG.STK.f g sp) = pc + 1 ∧ t.rd (GNG.STATE_SP.f g) = sp + 1 ∧
      Same (((apgFlds g).erase (GNG.STATE_SP.f g)).erase (GNG.STK.f g sp)) s t) ∧
    (fop = 7 → ∃ t, Machine.exec (.gngRet g) s = .next t ∧ t.rd (GNG.STATE_SP.f g) = sp - 1 ∧
      t.rd (GNG.NPC.f g) = s.rd (GNG.STK.f g (sp - 1)) % 2 ^ 17 ∧
      Same ((apgFlds g).erase (GNG.STATE_SP.f g)) s t) ∧
    (fop = 8 → ∃ t, Machine.exec (.gngRpt g) s = .next t ∧ Same (apgFlds g) s t ∧
      let left := if r.spanPos = 0 ∧ s.rd (GNG.RPT_FOP.f g) ≠ 8 then 0 else s.rd (GNG.RPT_LEFT.f g)
      (left = 0 → imm ≤ 1 → t.rd (GNG.NPC.f g) = pc + 1 ∧ t.rd (GNG.RPT_LEFT.f g) = 0) ∧
      (left = 0 → 1 < imm → imm < 2 ^ 32 →
        t.rd (GNG.NPC.f g) = pc ∧ t.rd (GNG.RPT_LEFT.f g) = imm - 1) ∧
      (∀ n, left = n → 1 < n → n < 2 ^ 32 →
        t.rd (GNG.NPC.f g) = pc ∧ t.rd (GNG.RPT_LEFT.f g) = n - 1) ∧
      (left = 1 → t.rd (GNG.NPC.f g) = pc + 1 ∧ t.rd (GNG.RPT_LEFT.f g) = 0)) ∧
    (fop = 9 → ∃ t, Machine.exec (.gngWaitt g) s = .next t ∧ Same (apgFlds g) s t ∧
      t.rd (GNG.NPC.f g) = (if s.rd (GNG.TMR.f g) = 0 then pc + 1 else pc) ∧
      (s.rd (GNG.TMR.f g) ≠ 0 → Same [GNG.XCUR.f g, GNG.YCUR.f g, GNG.ZCUR.f g, GNG.DR.f g] s t)) ∧
    (fop = 10 → ∃ t, Machine.exec (.gngJref g) s = .next t ∧
      (s.rd (GNG.STATE_DEBT.f g) = 0 → t.rd (GNG.NPC.f g) = pc + 1 ∧ Same (apgFlds g) s t) ∧
      (0 < s.rd (GNG.STATE_DEBT.f g) → s.rd (GNG.STATE_DEBT.f g) ≤ 15 →
        t.rd (GNG.STATE_DEBT.f g) = s.rd (GNG.STATE_DEBT.f g) - 1 ∧
        t.rd (GNG.NPC.f g) = tgt ∧ t.rd (GNG.STK.f g sp) = pc + 1 ∧ t.rd (GNG.STATE_SP.f g) = sp + 1)) ∧
    (fop = 11 → ∃ t r', Machine.exec (.gngEnd g) s = .next t ∧ t.flag (GNG.RUN.f g) = false ∧
      t.rd (TWL.STATE_STATE.f q) = 2 ∧ t.run? q = some r' ∧ r'.need = some l.next ∧ r'.line = none ∧
      Same (apgFlds g) s t)

/-- At the last vector of a NEXT that R177 allows, with CHAIN = 0 and both units in range: X steps by INC and DEC,
wraps to the other end of its range, holds under HOLD, and takes B under LDB where B lies in the range; Y with INCL
steps where X wrapped in the same execution and holds where it did not; the values used are those before the step.
The end of a refresh interval adds one to the debt, which saturates at 15 and then counts REFLOST. A write of REF_EN
stores it; a 0 stops the counter and clears the debt. TMR's arrival at zero after a load raises slot 4 of the APG's
events, stamped at that time. ERR_REL empties the capture. (R163, R164, R168, R169, R177) -/
def Obligations.ApgUnitsRefreshAndTimer : Prop :=
  (∀ (g : ApgId) (s : State) (q : SeqId) (r : SeqRun) (l : TwlLine) (pc : Nat), LastOf s g q r l pc 0 →
    s.flag (GNG.CTRL_CHAIN.f g) = false →
    let x := s.rd (GNG.XCUR.f g)
    let y := s.rd (GNG.YCUR.f g)
    let lo := (s.unitRange g 0).1
    let hi := (s.unitRange g 0).2
    let ylo := (s.unitRange g 1).1
    let yhi := (s.unitRange g 1).2
    let op := bits (s.apgWord g pc 2) 0 4
    let wrapped := (op = 1 ∧ x = hi) ∨ (op = 2 ∧ x = lo)
    lo ≤ x → x ≤ hi → ylo ≤ y → y ≤ yhi →
    ∃ t, Machine.exec (.gngNext g) s = .next t ∧
      (op = 0 → t.rd (GNG.XCUR.f g) = x) ∧
      (op = 1 → t.rd (GNG.XCUR.f g) = if x = hi then lo else x + 1) ∧
      (op = 2 → t.rd (GNG.XCUR.f g) = if x = lo then hi else x - 1) ∧
      (op = 7 → lo ≤ s.rd (GNG.U_B.f g 0) % 2 ^ 24 → s.rd (GNG.U_B.f g 0) % 2 ^ 24 ≤ hi →
        t.rd (GNG.XCUR.f g) = s.rd (GNG.U_B.f g 0) % 2 ^ 24) ∧
      (op ≤ 2 → bits (s.apgWord g pc 2) 8 4 = 5 → wrapped →
        t.rd (GNG.YCUR.f g) = if y = yhi then ylo else y + 1) ∧
      (op ≤ 2 → bits (s.apgWord g pc 2) 8 4 = 5 → ¬ wrapped → t.rd (GNG.YCUR.f g) = y)) ∧
  (∀ (g : ApgId) (s : State), s.flag (GNG.REF_RUN.f g) = true →
    ∃ t, Machine.exec (.refInterval g) s = .next t ∧
      (s.rd (GNG.STATE_DEBT.f g) < 15 → t.rd (GNG.STATE_DEBT.f g) = s.rd (GNG.STATE_DEBT.f g) + 1 ∧
        t.rd (GNG.REFLOST.f g) = s.rd (GNG.REFLOST.f g)) ∧
      (s.rd (GNG.STATE_DEBT.f g) = 15 → t.rd (GNG.STATE_DEBT.f g) = 15 ∧
        t.rd (GNG.REFLOST.f g) = min (s.rd (GNG.REFLOST.f g) + 1) (2 ^ 32 - 1)) ∧
      OnlyRegs [(GNG.STATE_DEBT.f g).key, (GNG.REFLOST.f g).key, (GNG.REF_RUN.f g).key, (GNG.REF_CUR.f g).key] s t) ∧
  (∀ (g : ApgId) (on : Bool) (s : State), s.absent .gng = false → s.openTo 12 .gng = true →
    ∃ t, Machine.exec (.refEn g on) s = .next t ∧ t.flag (GNG.REF_EN.f g) = on ∧
      (on = false → t.flag (GNG.REF_RUN.f g) = false ∧ t.rd (GNG.STATE_DEBT.f g) = 0) ∧
      (on = true → t.rd (GNG.STATE_DEBT.f g) = s.rd (GNG.STATE_DEBT.f g)) ∧
      OnlyRegs [(GNG.REF_EN.f g).key, (GNG.STATE_DEBT.f g).key, (GNG.REF_RUN.f g).key, (GNG.REF_CUR.f g).key] s t) ∧
  (∀ (g : ApgId) (s : State), s.rd (GNG.TMR.f g) ≠ 0 →
    ∃ t, Machine.exec (.tmrZero g) s = .next t ∧ t.rd (GNG.TMR.f g) = 0 ∧
      t.raised = s.raised ++ [(1152 + 8 * g.val + 4, s.time)] ∧ Only [.regs, .raised] s t ∧ RegsBut [(GNG.TMR.f g).key] s t) ∧
  (∀ (g : ApgId) (s : State), s.absent .gng = false → s.openTo 12 .gng = true →
    ∃ t, Machine.exec (.gngErrRel g) s = .next t ∧ t.flag (GNG.ERR_FULL.f g) = false ∧
      t.rd (GNG.ERR_CAP_CAUSE.f g) = 0 ∧ t.rd (GNG.ERR_CAP_PC.f g) = 0 ∧
      OnlyRegs [(GNG.ERR_FULL.f g).key, (GNG.ERR_CAP_CAUSE.f g).key, (GNG.ERR_CAP_PC.f g).key] s t)

/-- Where the oldest vector in flight of a sequencer lies outside a MATCH, names a channel once, and no pair of that
channel's slots is a free value: a masked column leaves the channel's counter, first-fail cycle and signature as
they are; otherwise the signature takes in every live slot in order by the polynomial of R185, the counter rises by
one, saturating, exactly where some slot fails under the channel's CMODE, and the first-fail cycle takes the
vector's number where it held none. The vector leaves the flight of its sequencer, and no other run changes. (R134,
R181, R184, R185) -/
def Obligations.JudgedStrobesEnterTheChannelValues : Prop :=
  ∀ (q : SeqId) (obs : List (Channel × List (List (BitVec 2)))) (s : State) (r : SeqRun) (f : Flight)
    (fs : List Flight), s.run? q = some r → r.flights = f :: fs →
    ∃ t r', Machine.exec (.strobeResult q obs) s = .next t ∧ t.run? q = some r' ∧ r'.flights.length = fs.length ∧
      (∀ p, p ≠ q.val → t.run? p = s.run? p) ∧
      ∀ c ∈ f.cols, (∀ g, s.apgOf q = some g → g < 4) → (∀ d ∈ f.cols, d.ch < 128) → r.mtch = none → f.iter = 0 → (f.cols.map fun d => d.ch).Nodup →
        (∀ d ∈ f.cols, d.mode = none) →
        (s.slotPairs c.ch obs 0 c.slots).1 = s →
        let ps := (s.slotPairs c.ch obs 0 c.slots).2
        (f.masks f.maskGrp c = true → Same [DMK.FCNT.f c.ch, DMK.FFAIL.f c.ch, DMK.SIG.f c.ch] s t) ∧
        (f.masks f.maskGrp c = false →
          t.rd (DMK.SIG.f c.ch) = (c.slots.zip ps).foldl
            (fun v x => if x.1.isEmpty || s.rd (DMK.CMODE.f c.ch) == 3 then v
              else (v * 2 % 2 ^ 64 ^^^ v / 2 ^ 63 * 0x1B) ^^^ x.2) (s.rd (DMK.SIG.f c.ch)) % 2 ^ 64 ∧
          ((∃ k, k < c.slots.length ∧
              slotFails (s.rd (DMK.CMODE.f c.ch)) (c.slots.getD k .empty).exp (ps.getD k 0) = true) →
            t.rd (DMK.FCNT.f c.ch) = min (s.rd (DMK.FCNT.f c.ch) + 1) (2 ^ 32 - 1) ∧
            t.rd (DMK.FFAIL.f c.ch) = if s.rd (DMK.FFAIL.f c.ch) = 2 ^ 48 - 1 then f.cyc % 2 ^ 48
              else s.rd (DMK.FFAIL.f c.ch)) ∧
          ((∀ k, k < c.slots.length →
              slotFails (s.rd (DMK.CMODE.f c.ch)) (c.slots.getD k .empty).exp (ps.getD k 0) = false) →
            Same [DMK.FCNT.f c.ch, DMK.FFAIL.f c.ch] s t))

/-- Where all records of a FIFO go to a ring: with two of one ring at its head, room in the ring (in whole lines of
two records, log entry 27) and in the bitmap writer (log entry 29), the site's turn, and nothing that holds the
line's write, RECORD_WRITE takes both out, advances DMK_RING_WR by two, stores their 64 bytes at the ring's
position, and gives the turn on; PAD_TIMEOUT takes a record that stands alone and stores it with a pad. No other
byte of memory changes. A write of DMK_RING_RD takes effect exactly between RD and WR. A read of DMK_RPp_D7, whose
line does not wait, answers the head record's word 7 of the ring in force at the site, and consumes it where the
master consumes; a poisoned record answers POIS and raises EV1197 in either case; an empty ring answers all ones and
keeps RD. A result that may be posted joins the end of its site's queue with the words of R150, unless the queue
holds 32; when all results of the run are posted the sequencer returns to IDLE. A read of DMK_RSP_D15 answers the
head result's word 15, and takes it from the queue unless SLP still has to. (R25, R150, R189, R194, R195, R198,
R202, R203, R213) -/
def Obligations.RecordsAndResultsReachTheirConsumers : Prop :=
  (∀ (site : Site) (s : State) (a : Alloc) (r1 r2 : FailRec) (rest : List FailRec), s.fifo site = r1 :: r2 :: rest →
    (∀ x ∈ s.fifo site, x.ring = true) → r2.ringId = r1.ringId → s.alloc? r1.ringId = some a → s.lineHeld site a = false →
    s.ringFill site + 2 ≤ a.size / 64 * 2 → s.mergeRoom site [r1, r2] = true → s.recordTurn site = true →
    let pos := s.rd (DMK.RING_WR.f site) % (a.size / 64 * 2)
    ∃ t, Machine.exec (.recordWrite site) s = .next t ∧ t.fifo site = rest ∧
      (∀ k, k ≠ site.val → t.fifo k = s.fifo k) ∧ t.rd DMK.REC_TURN.f = (site + 1) % 64 ∧
      t.rd (DMK.RING_WR.f site) = (s.rd (DMK.RING_WR.f site) + 2) % 2 ^ 32 ∧
      (pos % 2 = 0 → r1.words.length = 8 → r2.words.length = 8 → ∀ i, i < 64 →
        t.byte (dramKey (a.pa (32 * pos + i))) = (recBytes r1.words ++ recBytes r2.words).getD i 0) ∧
      (r1.words.length = 8 → r2.words.length = 8 →
        ∀ k, (∀ i, i < 64 → k ≠ dramKey (a.pa (32 * pos + i))) → t.byte k = s.byte k)) ∧
  (∀ (site : Site) (s : State) (a : Alloc) (r : FailRec), s.fifo site = [r] →
    r.ring = true → s.alloc? r.ringId = some a → s.lineHeld site a = false → s.ringFill site + 2 ≤ a.size / 64 * 2 →
    s.mergeRoom site [r] = true →
    let pos := s.rd (DMK.RING_WR.f site) % (a.size / 64 * 2)
    let pad := [r.words.getD 0 0, r.words.getD 1 0 % 2 ^ 16 + 2 * 2 ^ 21, 0, 0, 0, 0, 0, r.words.getD 7 0 % 2 ^ 16]
    ∃ t, Machine.exec (.padTimeout site) s = .next t ∧ t.fifo site = [] ∧
      t.rd (DMK.RING_WR.f site) = (s.rd (DMK.RING_WR.f site) + 2) % 2 ^ 32 ∧
      (pos % 2 = 0 → r.words.length = 8 → ∀ i, i < 64 →
        t.byte (dramKey (a.pa (32 * pos + i))) = (recBytes r.words ++ recBytes pad).getD i 0)) ∧
  (∀ (site : Site) (v : Word) (s : State), s.openTo 12 .dmk = true →
    ∃ t, Machine.exec (.dmkRingRd site v) s = .next t ∧ OnlyRegs [(DMK.RING_RD.f site).key] s t ∧
      t.rd (DMK.RING_RD.f site) =
        if (v.toNat + 2 ^ 32 - s.rd (DMK.RING_RD.f site)) % 2 ^ 32 ≤ s.ringFill site then v.toNat
        else s.rd (DMK.RING_RD.f site)) ∧
  (∀ (p : Fin 4) (m : Master) (s : State), s.openTo (masterIdx m) .dmk = true →
    let site := s.rd (DMK.RP_SEL_SITE.f p)
    let here := s.runs.findSome? fun e => e.2.bursts.find? fun b => b.site == site
    let ring := s.ringAlloc ((here.map fun b => b.ringId).getD (s.rd (DMK.RING_ID.f site)))
    (s.ringWaits site 0 = true → ∃ t, Machine.exec (.recordPortRead p m) s = .next t ∧
      t.heldIn (masterIdx m) = [.read m (DMK.RP_D.f p 7).addr] ∧ Only [.held] s t) ∧
    (s.ringWaits site 0 = false → ∀ a, ring = some a → s.ringFill site ≠ 0 →
      let o := s.rd (DMK.RING_RD.f site) % (a.size / 64 * 2) * 32
      ∃ t, Machine.exec (.recordPortRead p m) s = .next t ∧
        t.rd SYS.RDATA.f = (if s.allocPoison a o 32 then 2 ^ 16 else s.allocRead a (o + 28) 4) ∧
        t.rd (DMK.RING_RD.f site) = (if s.consumes m then (s.rd (DMK.RING_RD.f site) + 1) % 2 ^ 32
          else s.rd (DMK.RING_RD.f site)) ∧
        t.raised = (if s.allocPoison a o 32 then s.raised ++ [(1197, s.time)] else s.raised) ∧
        Only [.regs, .raised] s t ∧ RegsBut [SYS.RDATA.f.key, (DMK.RING_RD.f site).key] s t) ∧
    ((ring = none ∨ s.ringFill site = 0) → s.ringWaits site 0 = false →
      ∃ t, Machine.exec (.recordPortRead p m) s = .next t ∧ t.rd SYS.RDATA.f = 2 ^ 32 - 1 ∧
        OnlyRegs [SYS.RDATA.f.key] s t)) ∧
  (∀ (site : Site) (s : State) (q : Nat) (r : SeqRun) (b : Burst), q < 16 →
    (s.passHead site).postable site = some (q, r, b) → s.run? q = some r → (s.resultQ site).length < 32 →
    s.flag (DMK.SITE_CFG_RES_PORT.f site) = true → (∀ e ∈ s.resultQ site, e.byPort = false) →
    ∃ t e, Machine.exec (.resultPost site) s = .next t ∧ t.resultQ site = s.resultQ site ++ [e] ∧
      e.words = b.result q r.obj r.tstart ∧ e.words.length = 16 ∧ e.words.getD 1 0 = r.obj ∧
      e.words.getD 2 0 = b.bseq ∧ e.words.getD 9 0 = b.failCnt ∧
      (∀ k, k ≠ site.val → t.resultQ k = s.resultQ k) ∧
      ((∀ x ∈ r.bursts, x.posted = true ∨ x.grp = b.grp) → t.run? q = none ∧ t.rd (TWL.STATE_STATE.f q) = 0 ∧
        t.rd (TWL.FAIL.f q) = 0 ∧ t.rd (TWL.DET.f q) = 0 ∧ t.rd (TWL.MTO.f q) = 0)) ∧
  (∀ (site : Site) (s : State), 32 ≤ (s.resultQ site).length →
    ∃ t, Machine.exec (.resultPost site) s = .next t ∧ t.results = s.results ∧ t.runs = s.runs) ∧
  (∀ (m : Master) (s : State), s.openTo (masterIdx m) .dmk = true →
    let site := s.rd DMK.RSP_SEL_SITE.f
    (s.portResult site = none → ∃ t, Machine.exec (.resultPortRead m) s = .next t ∧ t.rd SYS.RDATA.f = 2 ^ 32 - 1 ∧
      (s.consumes m = false → OnlyRegs [SYS.RDATA.f.key] s t)) ∧
    (∀ e rest, s.resultQ site = e :: rest → s.flag (DMK.SITE_CFG_RES_PORT.f site) = true →
      (∀ x ∈ e :: rest, x.byPort = false) →
      ∃ t, Machine.exec (.resultPortRead m) s = .next t ∧ t.rd SYS.RDATA.f = e.words.getD 15 0 % 2 ^ 32 ∧
        (s.consumes m = false → OnlyRegs [SYS.RDATA.f.key] s t) ∧
        (s.consumes m = true → Only [.regs, .results] s t ∧ RegsBut [SYS.RDATA.f.key] s t ∧
          t.resultQ site = if s.flag (DMK.SITE_CFG_RES_SLP.f site) && !e.bySlp then { e with byPort := true } :: rest
            else rest)))

/-- BMAP_CLR, the access reaching Damask, with a site's bitmap named by an allocation of kind BITMAP in READY or
DELETING and no clear pending sets BMAP_BUSY; otherwise it changes nothing. The fill ends with the sequencer IDLE,
every update written and nothing that holds its writes: every byte of the allocation from the first line not yet
filled on reads zero, BMAP_BUSY clears, and no byte outside DRAM changes. A line write that nothing holds sets the
bitmap's bit of each pending update of that line, and where every record of the FIFO goes to the ring no update of
that line stays pending; where the line read does not verify, the burst of the update has FPOIS and EV1197 is
raised. (R200, R201) -/
def Obligations.BitmapsAccumulateUntilTheyAreCleared : Prop :=
  (∀ (site : Site) (s : State), s.openTo 12 .dmk = true →
    (s.siteFlag DMK.BMAP_BUSY site = false → (s.bmapAlloc (s.rd (DMK.BMAP_ID.f site))).isSome = true →
      ∃ t, Machine.exec (.bmapClr site) s = .next t ∧ t.siteFlag DMK.BMAP_BUSY site = true ∧
        OnlyRegs [(siteBit DMK.BMAP_BUSY site).1.key, (DMK.CLR_ID.f site).key, (DMK.CLR_POS.f site).key] s t) ∧
    ((s.siteFlag DMK.BMAP_BUSY site = true ∨ s.bmapAlloc (s.rd (DMK.BMAP_ID.f site)) = none) →
      Machine.exec (.bmapClr site) s = .next s)) ∧
  (∀ (site : Site) (s : State) (a : Alloc), s.siteFlag DMK.BMAP_BUSY site = true → s.siteIdle site = true →
    s.updatesOf site = [] → s.alloc? (s.rd (DMK.CLR_ID.f site)) = some a → s.clearWaits site = false → a.size % 64 = 0 →
    a.size ≤ 65536 * a.pages.length →
    ∃ t, Machine.exec (.bmapClearEnd site) s = .next t ∧ t.siteFlag DMK.BMAP_BUSY site = false ∧
      (∀ off, 64 * s.rd (DMK.CLR_POS.f site) ≤ off → off < a.size → t.dramByte a (a.pa off) = 0) ∧
      (∀ k, k < 2 ^ 48 → t.byte k = s.byte k)) ∧
  (∀ (site : Site) (bad : Bool) (s : State) (u : BitmapUpdate) (us : List BitmapUpdate) (b : Nat) (bs : List Nat) (a : Alloc),
    (s.passHead site).updatesOf site = u :: us → u.bits = b :: bs → s.alloc? u.bmapId = some a →
    s.writeWaits a.key (a.pa (b / 512 * 64)) = false →
    ∃ t, Machine.exec (.bitmapLineWrite site bad) s = .next t ∧
      (∀ x ∈ u :: us, x.bmapId = u.bmapId → ∀ y ∈ x.bits, y / 512 = b / 512 →
        (t.dramByte a (a.pa (y / 8))).getLsbD (y % 8) = true) ∧
      ((∀ r ∈ s.fifo site, r.ring = true) →
        ∀ x ∈ t.updatesOf site, x.bmapId = u.bmapId → ∀ y ∈ x.bits, y / 512 ≠ b / 512) ∧
      ((bad || s.linePoison a.key (a.pa (b / 512 * 64))) = true → (1197, s.time) ∈ t.raised ∧
        (t.burst? u.seq u.grp).map (fun z => z.fpois) = (s.burst? u.seq u.grp).map fun _ => true))

/-- On an option with repair units, the access reaching Damask: OPEN with RA_EN set and BUSY and CFG_ERR clear opens
a session with empty blocks and queue, sets BUSY and clears DONE, QFULL and the summaries; otherwise it changes
nothing. CLOSE of a session that is not searching takes effect at once where no run feeds the unit or its runs have
drained, and is asked for otherwise; it then takes effect once they have. ABORT ends the session with DONE as it
was, and no run feeds the unit from then on. A cell that its block holds already changes no block; a poisoned work
area marks the DUT lost and raises EV1197. At the end of the search, the queue being empty and nothing holding the
output's writes, DONE is set, BUSY and SRCH clear and the session is over; a DUT that lost cells, or whose work area
read as poison in the search, has verdict INCOMPLETE (4), and one that no cell reached CLEAN (0). (R206, R207, R209,
R211) -/
def Obligations.RepairSessionsRunTheirCourse : Prop :=
  (∀ (k : RepairId) (s : State), s.openTo 12 .dmk = true → s.hasRa = true →
    ((s.bit DMK.RA_EN.f k = true ∧ s.bit DMK.BUSY.f k = false ∧ s.raCfgErr k = false) →
      ∃ t u, Machine.exec (.raOpen k) s = .next t ∧ t.sessions.find? k = some u ∧ u.queue = [] ∧ u.blocks = [] ∧
        u.closing = false ∧ u.searching = false ∧ u.seq = s.rd (DMK.RA_BIND_SEQ.f k) ∧
        u.gmask = s.rd (DMK.RA_BIND_GMASK.f k) ∧ t.bit DMK.BUSY.f k = true ∧ t.bit DMK.DONE.f k = false ∧
        t.bit DMK.QFULL.f k = false ∧ (∀ g, g < 8 → t.rd (DMK.RA_SUM_VERDICT.f k g) = 0 ∧ t.rd (DMK.RA_SUM_NBAD.f k g) = 0) ∧
        (∀ j, j ≠ k.val → t.sessions.find? j = s.sessions.find? j) ∧ Only [.regs, .sessions] s t) ∧
    ((s.bit DMK.RA_EN.f k = false ∨ s.bit DMK.BUSY.f k = true ∨ s.raCfgErr k = true) →
      Machine.exec (.raOpen k) s = .next s) ∧
    (∀ u, s.sessions.find? k = some u → u.searching = false →
      ∃ t, Machine.exec (.raClose k) s = .next t ∧
        (s.raDrained k = true → t.sessions.find? k = some { u with closing := true, searching := true } ∧
          t.bit DMK.SRCH.f k = true ∧ Only [.regs, .sessions] s t) ∧
        (s.raDrained k = false → t.sessions.find? k = some { u with closing := true } ∧ Only [.sessions] s t)) ∧
    (∀ u, s.sessions.find? k = some u →
      ∃ t, Machine.exec (.raAbort k) s = .next t ∧ t.sessions.find? k = none ∧ t.bit DMK.BUSY.f k = false ∧
        t.bit DMK.SRCH.f k = false ∧ t.bit DMK.DONE.f k = s.bit DMK.DONE.f k ∧
        (∀ e ∈ t.runs, bitOf e.2.raUnits k = false) ∧ Only [.regs, .sessions, .dir, .runs] s t)) ∧
  (∀ (k : RepairId) (s : State) (u : RaSession), s.sessions.find? k = some u →
    ((u.closing || (u.autoclose && u.fed)) = true → u.searching = false → s.raDrained k = true →
      ∃ t, Machine.exec (.raCloseEffect k) s = .next t ∧ t.bit DMK.SRCH.f k = true ∧
        t.sessions.find? k = some { u with closing := true, searching := true } ∧ Only [.regs, .sessions] s t) ∧
    (∀ c rest, u.queue = c :: rest →
      (∃ t u', Machine.exec (.repairCell k false) s = .next t ∧ t.sessions.find? k = some u' ∧ u'.queue = rest ∧
        u'.lost = u.lost ∧ Only [.sessions] s t ∧
        ((∃ b ∈ u.blocks, b.grp = c.grp ∧ b.block = c.block) →
          (∀ b ∈ u.blocks, b.grp = c.grp → b.block = c.block → (c.row, c.col) ∈ b.cells) → u'.blocks = u.blocks)) ∧
      (∃ t u', Machine.exec (.repairCell k true) s = .next t ∧ t.sessions.find? k = some u' ∧ u'.queue = rest ∧
        bitOf u'.lost c.grp = true ∧ u'.blocks = u.blocks ∧ t.raised = s.raised ++ [(1197, s.time)])) ∧
    (∀ out (bad : BitVec 8), u.searching = true → u.queue = [] → s.alloc? u.outId = some out →
      s.outWaits u out = false →
      ∃ t, Machine.exec (.repairSearchEnd k bad) s = .next t ∧ t.sessions.find? k = none ∧ t.bit DMK.DONE.f k = true ∧
        t.bit DMK.BUSY.f k = false ∧ t.bit DMK.SRCH.f k = false ∧
        ∀ g, g < 8 → bitOf u.gmask g = true →
          ((bitOf u.lost g || bad.getLsbD g) = true → t.rd (DMK.RA_SUM_VERDICT.f k g) = 4 ∧
            (bad.getLsbD g = true → (1197, s.time) ∈ t.raised)) ∧
          ((bitOf u.lost g || bad.getLsbD g) = false → (∀ b ∈ u.blocks, b.grp ≠ g) →
            t.rd (DMK.RA_SUM_VERDICT.f k g) = 0 ∧ t.rd (DMK.RA_SUM_NBAD.f k g) = 0)))

/-- Where Calico may execute a command: an outcome other than Done changes nothing but the outcome, the output
words, CMD_BUSY and the command's event. A write of CMD_GO sets CMD_BUSY. CREATE with an ID outside the object range
or in use answers 1, and ALLOC with KIND 0 or above 6 answers 9. Otherwise, with the checks of size, key, directory
and pages passed and pages to be found, the new allocation has the whole pages of its size, all free before and
distinct, and page tables in places free before; CREATE leaves it LOADING, ALLOC ZEROING under an ID of its own
range that named none, returned in OUT0; every other allocation is as before. SEAL puts an unmarked object in
LOADING with a good header into SCANNING; a header that reads as poison marks its page; DELETE frees an allocation
that nothing uses and makes another DELETING; each answers 2 for an unknown ID. QUERY returns state, kind, key and
size. A scan that nothing holds and that finds no poison in the lines it has left ends in READY; one that finds some
marks the first such page and ends in LOADING. A zero-fill that nothing holds ends in READY with every byte of the
lines it had left zero. (R215, R216, R217, R222, R223, R224, R225, R226, R241) -/
def Obligations.CalicoCommandsAnswerAndAct : Prop :=
  (∀ (a : CalArgs) (s : State), CalMay a 1 s →
    let c := s.calCmd a
    (c.kind = 0 → (c.id = 0 ∨ 2 ^ 31 ≤ c.id ∨ (s.alloc? c.id).isSome = true) →
      ∃ t, Machine.exec (.create a) s = .next t ∧ CalRefused a 1 s t) ∧
    (c.kind = 0 → c.id ≠ 0 → c.id < 2 ^ 31 → s.alloc? c.id = none → s.allocCheck c = none →
      (s.takePages s.usedPages (pagesOf c.size)).isSome = true →
      ∃ t x, Machine.exec (.create a) s = .next t ∧ t.rd (calCode a) = 0 ∧ t.alloc? c.id = some x ∧ x.kind = 0 ∧
        x.st = 1 ∧ x.size = pagesOf c.size * 65536 ∧ x.key = c.key ∧ x.pages.length = pagesOf c.size ∧
        x.pages.Nodup ∧ (∀ p ∈ x.pages, p ∉ s.usedPages) ∧ (∀ k ∈ x.slots, k ∉ s.usedSlots) ∧
        (∀ j, j ≠ c.id → t.alloc? j = s.alloc? j))) ∧
  (∀ (a : CalArgs) (s : State), CalMay a 2 s →
    let c := s.calCmd a
    ((c.kind = 0 ∨ 6 < c.kind) → ∃ t, Machine.exec (.alloc a) s = .next t ∧ CalRefused a 9 s t) ∧
    (∀ e, c.kind ≠ 0 → c.kind ≤ 6 → s.allocCheck c = some e →
      ∃ t, Machine.exec (.alloc a) s = .next t ∧ CalRefused a e s t) ∧
    (c.kind ≠ 0 → c.kind ≤ 6 → s.allocCheck c = none → s.freeId.isSome = true →
      (s.draw.takePages s.usedPages (pagesOf c.size)).isSome = true →
      ∃ t x id, Machine.exec (.alloc a) s = .next t ∧ t.rd (calCode a) = 0 ∧ t.rd (calOut 0 a) = id ∧
        2 ^ 31 ≤ id ∧ id < 2 ^ 32 - 1 ∧ s.alloc? id = none ∧ t.alloc? id = some x ∧ x.kind = c.kind ∧ x.st = 6 ∧
        x.size = pagesOf c.size * 65536 ∧ x.key = c.key ∧ x.pages.Nodup ∧ (∀ p ∈ x.pages, p ∉ s.usedPages) ∧
        (∀ k ∈ x.slots, k ∉ s.usedSlots) ∧ (∀ j, j ≠ id → t.alloc? j = s.alloc? j))) ∧
  (∀ (a : CalArgs) (s : State), CalMay a 3 s →
    let id := (s.calCmd a).id
    (s.alloc? id = none → ∃ t, Machine.exec (.seal a) s = .next t ∧ CalRefused a 2 s t) ∧
    (∀ x, s.alloc? id = some x → (x.kind ≠ 0 ∨ x.st ≠ 1 ∨ x.marked ≠ [] ∨ x.allpois = true) →
      ∃ t, Machine.exec (.seal a) s = .next t ∧ CalRefused a 3 s t) ∧
    (∀ x, s.alloc? id = some x → x.kind = 0 → x.st = 1 → x.marked = [] → x.allpois = false →
      (s.allocPoison x 0 64 = true → ∃ t y, Machine.exec (.seal a) s = .next t ∧ t.rd (calCode a) = 3 ∧
        t.alloc? id = some y ∧ y.st = 1 ∧ y.marked = [0]) ∧
      (s.allocPoison x 0 64 = false → s.headerBad x = true →
        ∃ t, Machine.exec (.seal a) s = .next t ∧ CalRefused a 6 s t) ∧
      (s.allocPoison x 0 64 = false → s.headerBad x = false →
        ∃ t, Machine.exec (.seal a) s = .next t ∧ t.rd (calCode a) = 0 ∧
          t.alloc? id = some { x with st := 2, pos := 0 } ∧ ∀ j, j ≠ id → t.alloc? j = s.alloc? j))) ∧
  (∀ (a : CalArgs) (s : State), CalMay a 4 s →
    let id := (s.calCmd a).id
    (s.alloc? id = none → ∃ t, Machine.exec (.delete a) s = .next t ∧ CalRefused a 2 s t) ∧
    (∀ x, s.alloc? id = some x → x.st = 5 → ∃ t, Machine.exec (.delete a) s = .next t ∧ CalRefused a 3 s t) ∧
    (∀ x, s.alloc? id = some x → x.st ≠ 5 → SMap.sorted s.dir = true →
      ∃ t, Machine.exec (.delete a) s = .next t ∧ t.rd (calCode a) = 0 ∧
        t.alloc? id = if s.allocUsed id then some { x with st := 5 } else none)) ∧
  (∀ (a : CalArgs) (s : State), CalMay a 5 s →
    let id := (s.calCmd a).id
    (s.alloc? id = none → ∃ t, Machine.exec (.query a) s = .next t ∧ CalRefused a 2 s t) ∧
    (∀ x, s.alloc? id = some x → ∃ t, Machine.exec (.query a) s = .next t ∧ t.rd (calCode a) = 0 ∧
      t.rd (calOut 0 a) = (x.st + x.kind * 16 + x.key * 256) % 2 ^ 32 ∧ t.rd (calOut 1 a) = x.size % 2 ^ 32 ∧
      t.rd (calOut 2 a) = x.size / 2 ^ 32 % 2 ^ 32 ∧ t.dir = s.dir)) ∧
  (∀ (a : CalArgs) (op : Nat) (s : State), (op = 0 ∨ 6 ≤ op ∧ op < 16) → CalMay a op s →
    ∃ t, Machine.exec (.calCmdInvalid a) s = .next t ∧ CalRefused a 9 s t) ∧
  (∀ (m : Master) (s : State), s.ratioBad = false → MasterMay m 2 s → Reached s CAL.CMD_GO.f.addr .cal →
    s.mustWait (.write m CAL.CMD_GO.f.addr (2 ^ CAL.CMD_GO.f.lsb)) = false → s.flag CAL.READY.f = true →
    ∃ t, Machine.exec (.registerWrite m (BitVec.ofNat 32 CAL.CMD_GO.f.addr) (BitVec.ofNat 32 (2 ^ CAL.CMD_GO.f.lsb))) s =
      .next t ∧ t.flag CAL.CMD_BUSY.f = true ∧ OnlyRegs (deniedKeys m ++ [CAL.CMD_BUSY.f.key]) s t) ∧
  (∀ (id : Word) (s : State) (x : Alloc), s.alloc? id.toNat = some x →
    (x.st = 2 → x.marked = [] → s.loadWaits x (64 * x.pos) (64 * (s.scanLines x - x.pos)) = false →
      (∀ l, x.pos ≤ l → l < s.scanLines x → s.linePoison x.key (x.pa (64 * l)) = false) →
      ∃ t y, Machine.exec (.scanEnd id) s = .next t ∧ t.alloc? id.toNat = some y ∧ y.st = 3 ∧
        y.stored = (s.objHeader x).stored ∧ y.pages = x.pages ∧ y.key = x.key ∧ Only [.dir] s t) ∧
    (∀ l, x.st = 2 → x.marked = [] → s.loadWaits x (64 * x.pos) (64 * (s.scanLines x - x.pos)) = false →
      x.pos ≤ l → l < s.scanLines x → s.linePoison x.key (x.pa (64 * l)) = true →
      (∀ k, x.pos ≤ k → k < l → s.linePoison x.key (x.pa (64 * k)) = false) →
      ∃ t y, Machine.exec (.scanEnd id) s = .next t ∧ t.alloc? id.toNat = some y ∧ y.st = 1 ∧ y.marked = [l / 1024]) ∧
    (x.st = 6 → x.size % 64 = 0 → x.size ≤ 65536 * x.pages.length →
      s.storeWaits x (64 * x.pos) (x.size - 64 * x.pos) = false →
      ∃ t, Machine.exec (.zeroFillEnd id) s = .next t ∧ t.alloc? id.toNat = some { x with st := 3, pos := 0 } ∧
        (∀ off, 64 * x.pos ≤ off → off < x.size → t.dramByte x (x.pa off) = 0) ∧ (∀ k, k < 2 ^ 48 → t.byte k = s.byte k)))

/-- POST on a free port, reaching a ready Calico, holds the request in its turn, or, where R231 refuses it, clears
HELD and shows LAST 2 and the reason, with the port's event; on a held port it sets COLL and nothing else, and so
does a write of OBJ, SITE or CTX of one. WDRAW withdraws a held request with LAST 3, and COLL_REL clears COLL. A
decision on the one request held, Calico's clocks running: refuses it where R231 now does, admits it where R233
holds, and otherwise changes nothing. Admission binds the sequencer, starts one burst for each enabled group with
its site's next number and the port's context, sets LAST 1, SEQ and BSEQ, clears HELD, and starts counters, flags,
stack and vector count at zero. The fill fetches the object; where something holds it up it goes on later; its end
ends a run whose header was read as poison with POISON_STOP and one of another width with WIDTH_ERR, and else lets
the ENTRY line issue next; the buffer then holds the header's bytes as the DRAM gives them. PZ_NEXT drops the head
of the re-upload list, PZ_OVF_REL clears PZ_OVF. (R219, R230, R231, R233, R234, R235, R236, R237) -/
def Obligations.RequestsAreHeldRefusedOrAdmitted : Prop :=
  (∀ (p : ReqPort) (s : State), s.openTo 12 .cal = true →
    (s.flag CAL.READY.f = true → s.bit CAL.HELD.f p = true →
      ∃ t, Machine.exec (.post p) s = .next t ∧ t.bit CAL.COLL.f p = true ∧ OnlyRegs [CAL.COLL.f.key] s t) ∧
    (s.flag CAL.READY.f = true → s.bit CAL.HELD.f p = false → s.refuseReason p = none →
      ∃ t, Machine.exec (.post p) s = .next t ∧ t.bit CAL.HELD.f p = true ∧
        t.rd (CAL.RQ_ORD.f p) = s.rd CAL.ORD.f % 2 ^ 48 ∧ t.rd CAL.ORD.f = (s.rd CAL.ORD.f + 1) % 2 ^ 48 ∧
        OnlyRegs [CAL.HELD.f.key, (CAL.RQ_ORD.f p).key, CAL.ORD.f.key, (CAL.RQ_T.f p).key] s t) ∧
    (∀ r, s.flag CAL.READY.f = true → s.bit CAL.HELD.f p = false → s.refuseReason p = some r →
      ∃ t, Machine.exec (.post p) s = .next t ∧ t.bit CAL.HELD.f p = false ∧ t.rd (CAL.RQ_STAT_LAST.f p) = 2 ∧
        t.rd (CAL.RQ_STAT_REASON.f p) = r ∧ t.raised = s.raised ++ [(1216 + p.val, s.time)] ∧ Only [.regs, .raised] s t) ∧
    (s.bit CAL.HELD.f p = true →
      ∃ t, Machine.exec (.wdraw p) s = .next t ∧ t.bit CAL.HELD.f p = false ∧ t.rd (CAL.RQ_STAT_LAST.f p) = 3 ∧
        t.raised = s.raised ++ [(1216 + p.val, s.time)] ∧ Only [.regs, .raised] s t ∧
        RegsBut [CAL.HELD.f.key, (CAL.RQ_STAT_LAST.f p).key] s t) ∧
    (s.bit CAL.HELD.f p = false → Machine.exec (.wdraw p) s = .next s) ∧
    (∃ t, Machine.exec (.collRel p) s = .next t ∧ t.bit CAL.COLL.f p = false ∧ OnlyRegs [CAL.COLL.f.key] s t)) ∧
  (∀ (p : ReqPort) (m : Master) (l : Lay) (v : Word) (s : State), l ∈ [CAL.RQ_OBJ, CAL.RQ_SITE, CAL.RQ_CTX] →
    s.ratioBad = false → MasterMay m 2 s → Reached s (l.f p).addr .cal → s.mustWait (.write m (l.f p).addr v.toNat) = false →
    s.bit CAL.HELD.f p = true →
    ∃ t, Machine.exec (.registerWrite m (BitVec.ofNat 32 (l.f p).addr) v) s = .next t ∧ t.bit CAL.COLL.f p = true ∧
      OnlyRegs (deniedKeys m ++ [CAL.COLL.f.key]) s t) ∧
  (∀ (s : State) (p : ReqPort), s.calRuns = true → s.flag CAL.READY.f = true → s.heldPorts = [p.val] →
    (∀ r, s.refuseReason p = some r →
      ∃ t, Machine.exec .admissionDecision s = .next t ∧ t.bit CAL.HELD.f p = false ∧
        t.rd (CAL.RQ_STAT_LAST.f p) = 2 ∧ t.rd (CAL.RQ_STAT_REASON.f p) = r ∧ t.runs = s.runs) ∧
    (∀ a q g, s.refuseReason p = none → s.rqObject p = some a → s.siteOwner (s.rd (CAL.RQ_SITE.f p)) = some (q, g) →
      (s.admits p q (s.demandOf q a) = false → Machine.exec .admissionDecision s = .next s) ∧
      (s.admits p q (s.demandOf q a) = true → (∀ x ∈ s.runSites q, x.2 < 64) → (∀ k, s.apgOf q = some k → k < 4) →
        ∃ t r, Machine.exec .admissionDecision s = .next t ∧ t.run? q = some r ∧
          (∀ k, k ≠ q → t.run? k = s.run? k) ∧ t.rd (TWL.STATE_STATE.f q) = 1 ∧ t.bit CAL.HELD.f p = false ∧
          t.rd (CAL.RQ_STAT_LAST.f p) = 1 ∧ t.rd (CAL.RQ_STAT_SEQ.f p) = q ∧
          t.rd (CAL.RQ_BSEQ.f p) = s.rd (CAL.BSEQ_NEXT.f (s.rd (CAL.RQ_SITE.f p))) % 2 ^ 32 ∧
          r.obj = s.rd (CAL.RQ_OBJ.f p) ∧ r.vcnt = 0 ∧ r.need = none ∧ r.line = none ∧ r.stack = [] ∧
          r.bursts.map (fun b => (b.grp, b.site)) = s.runSites q ∧
          (∀ b ∈ r.bursts, b.ended = none ∧ b.ctx = s.rd (CAL.RQ_CTX.f p) ∧ b.bseq = s.rd (CAL.BSEQ_NEXT.f b.site) ∧
            b.failCnt = 0) ∧
          t.rd (TWL.FAIL.f q) = 0 ∧ t.rd (TWL.DET.f q) = 0 ∧ t.rd (TWL.MTO.f q) = 0 ∧ t.rd (TWL.STATE_SP.f q) = 0 ∧
          (∀ k, k < 8 → t.rd (TWL.LC.f q k) = 0) ∧
          (∀ c, c < 128 → s.ownerOf c = some q → t.rd (DMK.FCNT.f c) = 0 ∧ t.rd (DMK.SIG.f c) = 0 ∧
            t.rd (DMK.FFAIL.f c) = 2 ^ 48 - 1)))) ∧
  (∀ (q : SeqId) (s : State) (r0 r : SeqRun), s.run? q = some r0 → s.rd (TWL.STATE_STATE.f q) = 1 →
    (s.fill q r0).run? q = some r →
    let u := s.fill q r0
    let h := ObjHeader.of (u.bufByte q)
    (∀ p, p ≠ q.val → u.run? p = s.run? p) ∧
    (r.filled = false → Machine.exec (.fillComplete q) s = .next u) ∧
    (r.filled = true → u.bufPois q 0 = true → ∃ t, Machine.exec (.fillComplete q) s = .next t ∧ RunEnded q 0xA r t) ∧
    (r.filled = true → u.bufPois q 0 = false → h.width ≠ s.rd (TWL.MAPW.f q) →
      ∃ t, Machine.exec (.fillComplete q) s = .next t ∧ RunEnded q 7 r t) ∧
    (r.filled = true → u.bufPois q 0 = false → h.width = s.rd (TWL.MAPW.f q) →
      ∃ t r', Machine.exec (.fillComplete q) s = .next t ∧ t.rd (TWL.STATE_STATE.f q) = 2 ∧ t.run? q = some r' ∧
        r'.need = some h.entry ∧ r'.hdr = h ∧ r'.vcnt = r0.vcnt) ∧
    (∀ a o, r.filled = true → r0.fetched = 0 → r0.asked = [] → s.alloc? r0.obj = some a → o < 64 →
      u.bufByte q o = (s.dramByte a (a.pa o)).toNat)) ∧
  (∀ (s : State), s.openTo 12 .cal = true →
    (∃ t, Machine.exec .pzNext s = .next t ∧ t.pzList = s.pzList.tail ∧ Only [.pzList] s t) ∧
    (∃ t, Machine.exec .pzOvfRel s = .next t ∧ t.flag CAL.PZ_OVF.f = false ∧ OnlyRegs [CAL.PZ_OVF.f.key] s t))

/-- At a cold start a powered channel that has not been brought up takes its SPD copy; with ranks fitted it shows
them and the highest rate common to all, and is UP exactly where every rank meets R249 (x4, sub-channels of 40 bits,
16 Gb dies, one or two high, tRFC1 of 350 ns at most, the lowest rate, a module type of R247, trained, all alike, at
most two to a slot), else REFUSED with the REASON and the ranks of the first condition that fails (of several the
lowest number, log entry 39). At a warm restart or a wake a channel that had been trained is UP with no rank in
self-refresh where its ranks pass the check, and refused with REASON 7, its contents lost, where one fails. A
request to a channel in service enters its subchannel's queue and ends the rank's self-refresh; with the queue full,
its rank being redirected, or a request to its line waiting in front, its requester is held. A refresh is owed once
more where it is postponed with fewer than four owed and requests queued, and else nothing is owed. A poll sets the
mode of each rank that receives commands: doubled at TLIM or when MR4 asks, with the debt twice what it owed; normal
below TLIM - 3 without MR4, owing half, rounded up. An idle rank without debt, no spare, enters self-refresh. (R247,
R248, R249, R250, R260, R261, R262, R263, R266, R270, R271) -/
def Obligations.DramChannelsServeAndRefresh : Prop :=
  (∀ (dc : DcId) (r : SpdReport) (s : State), s.chanAwaits dc = true → s.rd CFG.STATE_START.f = 0 →
    let slots := [r.slot0, r.slot1]
    let ranks := (spdList r).map Prod.snd
    let meets := (∀ x ∈ ranks, x.width = 4 ∧ x.sub = 40 ∧ x.gb = 16 ∧ x.high.toNat ≤ 2 ∧ x.trfc1.toNat ≤ 350 ∧
        x.rates.getLsbD 0 = true ∧ x.trained = true) ∧
      (∀ y, some y ∈ slots → y.ranks.length ≤ 2 ∧ (y.ranks ≠ [] → y.typ ≠ .other)) ∧
      (∀ x ∈ ranks, ∀ y ∈ ranks, x.high = 2 → y.high = 2)
    ∃ t, Machine.exec (.channelTrained dc r) s = .next t ∧ Only [.regs, .tabs] s t ∧
      (∀ w, w < 512 → t.tab DDR.spd dc w = ((slots.getD (w / 256) none).elim 0 fun y => y.spd.getD (w % 256) 0).toNat) ∧
      (ranks = [] → t.regs = s.regs) ∧
      (ranks ≠ [] → t.flag (DDR.FITTED.f dc) = true ∧ t.rd (DDR.STAT_RANKS.f dc) = rankMask ((spdList r).map Prod.fst) ∧
        t.rd (DDR.STAT_RATE.f dc) = (if ranks.all fun x => x.rates.getLsbD 2 then 3
          else if ranks.all fun x => x.rates.getLsbD 1 then 2 else if ranks.all fun x => x.rates.getLsbD 0 then 1 else 0) ∧
        (meets → t.flag (DDR.UP.f dc) = true ∧ t.flag (DDR.REFUSED.f dc) = false) ∧
        (¬ meets → ∃ x, spdRefusal r = some x ∧ t.flag (DDR.UP.f dc) = false ∧ t.flag (DDR.REFUSED.f dc) = true ∧
          t.rd (DDR.STAT_REASON.f dc) = x.1 ∧ t.rd (DDR.STAT_FAILRANK.f dc) = x.2))) ∧
  (∀ (dc : DcId) (failed : BitVec 4) (s : State), s.chanAwaits dc = true → s.rd CFG.STATE_START.f ≠ 0 →
    s.flag (DDR.TRAINED.f dc) = true →
    let bad := failed.toNat &&& s.rd (DDR.STAT_RANKS.f dc)
    ∃ t, Machine.exec (.channelResumed dc failed) s = .next t ∧
      (bad = 0 → t.flag (DDR.UP.f dc) = true ∧ t.rd (DDR.RSR.f dc) = 0 ∧
        OnlyRegs [(DDR.UP.f dc).key, (DDR.RSR.f dc).key] s t) ∧
      (bad ≠ 0 → t.flag (DDR.UP.f dc) = false ∧ t.flag (DDR.REFUSED.f dc) = true ∧ t.flag (DDR.LOST.f dc) = true ∧
        t.rd (DDR.STAT_REASON.f dc) = 7 ∧ t.rd (DDR.STAT_FAILRANK.f dc) = bad)) ∧
  (∀ (pa : BitVec 44) (write : Bool) (s : State), paChan pa.toNat < 12 → s.flag (DDR.UP.f (paChan pa.toNat)) = true →
    let n := paChan pa.toNat
    let u := pa.toNat / 64 % 2
    let x : DramReq := { pa := pa.toNat, write := write }
    let enters := (s.dramQueue n u).length < 64 ∧ ¬ (s.flag (DDR.SETUP.f n) = true ∧ s.rd (DDR.RETIRING.f n) = paRank pa.toNat) ∧
      ∀ y ∈ s.dramWaiting n u, y.pa / 64 ≠ pa.toNat / 64
    ∃ t, Machine.exec (.dramRequest pa write) s = .next t ∧ Only [.regs, .dramQ] s t ∧
      (enters → t.dramQueue n u = s.dramQueue n u ++ [x] ∧ t.dramWaiting n u = s.dramWaiting n u ∧
        t.bit (DDR.RSR.f n) (s.servingRank pa.toNat) = false ∧ RegsBut [(DDR.RSR.f n).key] s t) ∧
      (¬ enters → t.dramQueue n u = s.dramQueue n u ∧ t.dramWaiting n u = s.dramWaiting n u ++ [x] ∧ t.regs = s.regs)) ∧
  (∀ (dc : DcId) (rank : Fin 4) (postpone : Bool) (s : State), s.flag (DDR.UP.f dc) = true →
    bitOf (s.rd (DDR.STAT_RANKS.f dc)) rank = true → s.bit (DDR.RSR.f dc) rank = false → s.rankRetired dc rank = false →
    ∃ t, Machine.exec (.refab dc rank postpone) s = .next t ∧ OnlyRegs [(DDR.OWED.f dc rank).key] s t ∧
      t.rd (DDR.OWED.f dc rank) =
        if postpone = true ∧ s.rd (DDR.OWED.f dc rank) < 4 ∧ 0 < s.rankQueue dc rank then s.rd (DDR.OWED.f dc rank) + 1 else 0) ∧
  (∀ (dc : DcId) (t0 t1 : BitVec 8) (mr4 : BitVec 4) (s : State), s.flag (DDR.UP.f dc) = true →
    ∃ t, Machine.exec (.thermalPoll dc t0 t1 mr4) s = .next t ∧ Only [.regs] s t ∧
      t.flag (DDR.HOT.f dc) = (t.rd (DDR.DBL.f dc) != 0) ∧
      ∀ r, r < 4 → bitOf (s.rd (DDR.STAT_RANKS.f dc)) r = true → s.rankRetired dc r = false →
        let tmp := if r < 2 then t0.toInt else t1.toInt
        let lim : Int := s.rd (DDR.CFG_TLIM.f dc)
        (s.bit (DDR.DBL.f dc) r = false → (lim ≤ tmp ∨ mr4.getLsbD r = true) →
          t.bit (DDR.DBL.f dc) r = true ∧ t.rd (DDR.OWED.f dc r) = 0 ∧
          (s.rd (DDR.OWED.f dc r) ≤ 4 → t.rd (DDR.DEBT_N.f dc r) = 2 * s.rd (DDR.OWED.f dc r))) ∧
        (s.bit (DDR.DBL.f dc) r = false → tmp < lim → mr4.getLsbD r = false → t.bit (DDR.DBL.f dc) r = false) ∧
        (s.bit (DDR.DBL.f dc) r = true → tmp < lim - 3 → mr4.getLsbD r = false →
          t.bit (DDR.DBL.f dc) r = false ∧
          (s.rd (DDR.OWED.f dc r) ≤ 4 → t.rd (DDR.OWED.f dc r) = (s.rd (DDR.OWED.f dc r) + 1) / 2) ∧
          (s.rd (DDR.DEBT_N.f dc r) ≤ 8 → t.rd (DDR.DEBT_N.f dc r) = (s.rd (DDR.DEBT_N.f dc r) + 1) / 2)) ∧
        (s.bit (DDR.DBL.f dc) r = true → (lim - 3 ≤ tmp ∨ mr4.getLsbD r = true) → t.bit (DDR.DBL.f dc) r = true)) ∧
  (∀ (dc : DcId) (rank : Fin 4) (s : State), s.flag (DDR.UP.f dc) = true → s.flag (DDR.ISR_EN.f dc) = true →
    bitOf (s.rd (DDR.STAT_RANKS.f dc)) rank = true → s.rankQueue dc rank = 0 → s.rd (DDR.DEBT_N.f dc rank) = 0 →
    s.flag (DDR.SETUP.f dc) = false → s.rd (DDR.SPARE_ACT.f dc) ≠ 4 + rank.val → s.rankRetired dc rank = false →
    ∃ t, Machine.exec (.idleSelfRefresh dc rank) s = .next t ∧ t.bit (DDR.RSR.f dc) rank = true ∧
      OnlyRegs [(DDR.RSR.f dc).key] s t)

/-- A read by a channel in service that no queued write serves is decoded by the code of R257 over what differs from
the stored word. The reserved syndrome of a line stored poisoned raises the slot 3 event and fills an empty capture
with KIND 1, and no count changes; errors of one device count a corrected error with that device; anything else
counts an uncorrectable one, fills an empty capture with KIND 0, and stores the line poisoned. Without errors, a
line that verifies changes no count, capture, event or memory; a data line whose MAC does not fit counts in MAC_FAIL
and reads as poison from then on. RETIRE, reaching its channel, is refused with its event and no other change
without a free spare, for the spare, for an unfitted rank, and while SETUP or REDIR is set, and starts the set-up
otherwise. With the rank's queue drained, a good set-up sets REDIR and MIG at pointer 0, a bad one clears SETUP with
the event. The copy, its channel in service, moves the pointer by one line, keeps poison, and ends after the rank's
last. CAP_REL empties the capture; aging takes its count from the window. (R253, R257, R258, R259, R260, R269, R270,
R271, R272, R289) -/
def Obligations.DramReadsAndRankRetirement : Prop :=
  (∀ (pa : BitVec 44) (errs : CodeErrors) (cache : Option (BitVec 4)) (s : State), paChan pa.toNat < 12 →
    s.flag (DDR.UP.f (paChan pa.toNat)) = true → s.dramHeld = false →
    (takeRead pa.toNat (s.dramQueue (paChan pa.toNat) (pa.toNat / 64 % 2))).2 = false →
    let n := paChan pa.toNat
    let r := s.servingRank pa.toNat
    let line := pa.toNat / 64
    let a := s.allocAt pa.toNat
    let diff := if s.wide DDR.pois line = 1 then xorBytes (errBytes errs) rsReserved else errBytes errs
    ∃ t, Machine.exec (.dramReadDecode pa errs cache) s = .next t ∧ (∀ k, t.byte k = s.byte k) ∧
      (rsDecode diff = .reserved → (1280 + 16 * n + 3, s.time) ∈ t.raised ∧
        t.flag (DDR.CAP_FULL.f n) = true ∧ (s.flag (DDR.CAP_FULL.f n) = false →
          t.rd (DDR.ERR_CAP_HI_KIND.f n) = 1 ∧ t.rd (DDR.ERR_CAP_LO.f n) = pa.toNat % 2 ^ 32) ∧
        Same [DDR.CE_CNT.f n r, DDR.UE_CNT.f n r] s t) ∧
      (∀ d e, rsDecode diff = .device d e → (1280 + 16 * n, s.time) ∈ t.raised ∧
        t.rd (DDR.CE_CNT.f n r) = min (s.rd (DDR.CE_CNT.f n r) + 1) (2 ^ 32 - 1) ∧
        t.rd (DDR.CE_DEV_DEV.f n) = d % 2 ^ (DDR.CE_DEV_DEV.f n).width ∧ t.rd (DDR.CE_DEV_RANK.f n) = r ∧
        Same [DDR.UE_CNT.f n r] s t) ∧
      (rsDecode diff = .other → (1280 + 16 * n + 1, s.time) ∈ t.raised ∧
        t.rd (DDR.UE_CNT.f n r) = min (s.rd (DDR.UE_CNT.f n r) + 1) (2 ^ 32 - 1) ∧ t.flag (DDR.CAP_FULL.f n) = true ∧
        (s.flag (DDR.CAP_FULL.f n) = false → t.rd (DDR.ERR_CAP_HI_KIND.f n) = 0) ∧
        (s.metaAt pa.toNat = none → t.wide DDR.pois line = 1) ∧ Same [DDR.CE_CNT.f n r] s t) ∧
      (rsDecode diff = .clean → s.metaAt pa.toNat = none → cache = none → s.pathGood pa.toNat = true →
        (s.linePoison a.key pa.toNat = false → s.macMisses a pa.toNat (diff.take 64) = false →
          t.raised = s.raised ∧ t.dir = s.dir ∧ t.pzList = s.pzList ∧ (∀ l, t.wide DDR.pois l = s.wide DDR.pois l) ∧
          Same [DDR.CE_CNT.f n r, DDR.UE_CNT.f n r, DDR.CAP_FULL.f n, ENC.MAC_FAIL.f, ENC.CAP_FULL.f] s t) ∧
        (s.macMisses a pa.toNat (diff.take 64) = true →
          t.rd ENC.MAC_FAIL.f = min (s.rd ENC.MAC_FAIL.f + 1) (2 ^ ENC.MAC_FAIL.width - 1) ∧
          t.linePoison a.key pa.toNat = true ∧ t.flag ENC.CAP_FULL.f = true ∧
          (s.flag ENC.CAP_FULL.f = false → t.rd ENC.ERR_CAP_HI_KIND.f = 0)))) ∧
  (∀ (dc : DcId) (s : State), s.absent (.ddr dc) = false → s.openTo 12 (.ddr dc) = true →
    let r := s.rd (DDR.RET_RANK.f dc)
    let bad := s.rd (DDR.SPARE_ACT.f dc) < 4 ∨ s.rd (DDR.SPARE_ACT.f dc) % 4 = r ∨
      bitOf (s.rd (DDR.STAT_RANKS.f dc)) r = false ∨ s.flag (DDR.SETUP.f dc) = true ∨ s.flag (DDR.REDIR.f dc) = true
    (bad → ∃ t, Machine.exec (.retire dc) s = .next t ∧ t.raised = s.raised ++ [(1280 + 16 * dc.val + 10, s.time)] ∧
      Only [.raised] s t) ∧
    (¬ bad → r < 4 → ∃ t, Machine.exec (.retire dc) s = .next t ∧ t.flag (DDR.SETUP.f dc) = true ∧
      t.rd (DDR.RETIRING.f dc) = r ∧ t.rd (DDR.RSR.f dc) = 0 ∧
      OnlyRegs [(DDR.SETUP.f dc).key, (DDR.RETIRING.f dc).key, (DDR.RSR.f dc).key] s t) ∧
    (∃ t, Machine.exec (.ddrCapRel dc) s = .next t ∧ t.flag (DDR.CAP_FULL.f dc) = false ∧ t.rd (DDR.ERR_CAP_LO.f dc) = 0 ∧
      t.rd (DDR.ERR_CAP_HI_KIND.f dc) = 0 ∧ Only [.regs] s t)) ∧
  (∀ (dc : DcId) (s : State), s.flag (DDR.SETUP.f dc) = true → s.rankQueue dc (s.rd (DDR.RETIRING.f dc)) = 0 →
    (∃ t, Machine.exec (.redirectionSetupEnd dc true) s = .next t ∧ t.flag (DDR.SETUP.f dc) = false ∧
      t.flag (DDR.REDIR.f dc) = true ∧ t.flag (DDR.MIG.f dc) = true ∧ t.rd (DDR.MIG_PTR.f dc) = 0 ∧
      t.rd (DDR.STAT_RETR.f dc) = s.rd (DDR.RETIRING.f dc) % 4 ∧ Only [.regs, .tabs, .dramQ] s t) ∧
    (∃ t, Machine.exec (.redirectionSetupEnd dc false) s = .next t ∧ t.flag (DDR.SETUP.f dc) = false ∧
      t.raised = s.raised ++ [(1280 + 16 * dc.val + 10, s.time)] ∧ Only [.regs, .raised, .dramQ] s t ∧
      RegsBut [(DDR.SETUP.f dc).key, (DDR.RSR.f dc).key] s t)) ∧
  (∀ (dc : DcId) (errs : CodeErrors) (s : State), s.flag (DDR.MIG.f dc) = true → s.flag (DDR.UP.f dc) = true →
    s.dramHeld = false → s.rd (DDR.MIG_PTR.f dc) + 1 < 2 ^ 31 →
    let pa := rankLinePa dc (s.rd (DDR.STAT_RETR.f dc)) (s.rd (DDR.MIG_PTR.f dc))
    ∃ t, Machine.exec (.migrationCopy dc errs) s = .next t ∧ t.rd (DDR.MIG_PTR.f dc) = s.rd (DDR.MIG_PTR.f dc) + 1 ∧
      (rsDecode (s.readDiff pa errs) = .reserved ∨ rsDecode (s.readDiff pa errs) = .other → t.wide DDR.pois (pa / 64) = 1) ∧
      (rsDecode (s.readDiff pa errs) = .other → paChan pa = dc.val → s.flag (DDR.CAP_FULL.f dc) = false →
        t.rd (DDR.ERR_CAP_HI_KIND.f dc) = 3) ∧
      (s.rd (DDR.MIG_PTR.f dc) + 1 < s.rankLines dc → t.flag (DDR.MIG.f dc) = true) ∧
      (s.rankLines dc ≤ s.rd (DDR.MIG_PTR.f dc) + 1 →
        t.flag (DDR.MIG.f dc) = false ∧ t.flag (DDR.MIG_DONE.f dc) = true)) ∧
  (∀ (dc : DcId) (rank : Fin 4) (n : Word) (s : State),
    ∃ t, Machine.exec (.ceWindowAge dc rank n) s = .next t ∧
      (s.rd (DDR.CE_WIN.f dc rank) < 2 ^ 32 →
        t.rd (DDR.CE_WIN.f dc rank) = s.rd (DDR.CE_WIN.f dc rank) - n.toNat) ∧
      (s.flag (DDR.AUTO.f dc) = false → OnlyRegs [(DDR.CE_WIN.f dc rank).key, (DDR.AUTOD.f dc).key] s t))

/-- LOAD answers 1 for key ID 0 or outside tenant mode, 2 for a loaded one, 3 where the unwrap under the
key-wrapping key fails, 4 where an allocation has it, and else loads the key at generation 0; ERASE answers 1, 5 for
no key, 6 while it is busy, and else erases; OP 0 or 3 answers 7. RKREQ marks a loaded key. A walk takes the lowest
marked key with the next generation; each page it takes has every counter 0, lines that do not verify are rewritten
poisoned, and it ends with the last page. A write within one line that must wait is held; an object that does not
accept it refuses it; else it stores exactly its bytes. With a good path and a loaded key it raises the line's minor
counter by one, re-encrypting the page where that stands at 127, and the line is good; a partial write of a line
that does not verify, and every write whose path or key is bad, is stored poisoned with its event, the latter with
the counters as they were. A rebuild gives the pages beneath a failed node a major counter above all used, and their
lines read as poison. That a rebuilt counter line counts as a node of level 0, and that a line of a page whose path
fails keeps its counters, are the model's reading (log entries 42 and 44). (R278, R285, R286, R287, R290, R291,
R292, R295) -/
def Obligations.KeysCountersAndLineWrites : Prop :=
  (∀ (a : KwArgs) (s : State), KwMay a 1 s →
    let k := (s.kwCmd a).kid
    (s.kidBad k = true → ∃ t, Machine.exec (.kwLoad a) s = .next t ∧ KwEnds a 1 [] s t) ∧
    (s.kidBad k = false → s.keyLoaded k = true → ∃ t, Machine.exec (.kwLoad a) s = .next t ∧ KwEnds a 2 [] s t) ∧
    (s.kidBad k = false → s.keyLoaded k = false →
      (kwUnwrap Config.kwk (wordBytes (s.kwCmd a).blob 40 |>.map BitVec.toNat) = none → ∃ t, Machine.exec (.kwLoad a) s = .next t ∧ KwEnds a 3 [] s t) ∧
      (∀ v, kwUnwrap Config.kwk (wordBytes (s.kwCmd a).blob 40 |>.map BitVec.toNat) = some v →
        (s.keyInDir k = true → ∃ t, Machine.exec (.kwLoad a) s = .next t ∧ KwEnds a 4 [] s t) ∧
        (s.keyInDir k = false → ∃ t, Machine.exec (.kwLoad a) s = .next t ∧ t.keyLoaded k = true ∧
          t.rd (ENC.GEN.f k) = 0 ∧ t.rd (ENC.KEY.f k) = v % 2 ^ 256 ∧
          KwEnds a 0 [ENC.KEYV.f.key, (ENC.GEN.f k).key, (ENC.KEY.f k).key] s t)))) ∧
  (∀ (a : KwArgs) (s : State), KwMay a 2 s →
    let k := (s.kwCmd a).kid
    (s.kidBad k = true → ∃ t, Machine.exec (.kwErase a) s = .next t ∧ KwEnds a 1 [] s t) ∧
    (s.kidBad k = false → s.keyLoaded k = false → ∃ t, Machine.exec (.kwErase a) s = .next t ∧ KwEnds a 5 [] s t) ∧
    (s.kidBad k = false → s.keyLoaded k = true → s.keyBusy k = true →
      ∃ t, Machine.exec (.kwErase a) s = .next t ∧ KwEnds a 6 [] s t) ∧
    (s.kidBad k = false → s.keyLoaded k = true → s.keyBusy k = false →
      ∃ t, Machine.exec (.kwErase a) s = .next t ∧ t.keyLoaded k = false ∧
        KwEnds a 0 [ENC.KEYV.f.key, (ENC.KEY.f k).key] s t)) ∧
  (∀ (a : KwArgs) (op : Nat) (s : State), (op = 0 ∨ op = 3) → KwMay a op s →
    ∃ t, Machine.exec (.kwInvalid a) s = .next t ∧ KwEnds a 7 [] s t) ∧
  (∀ (k : Fin 16) (s : State), s.openTo 12 .enc = true →
    (s.keyLoaded k = true → ∃ t, Machine.exec (.rkreq k) s = .next t ∧ t.bit ENC.RKPEND.f k = true ∧
      OnlyRegs [ENC.RKPEND.f.key] s t) ∧
    (s.keyLoaded k = false → Machine.exec (.rkreq k) s = .next s) ∧
    (∃ t, Machine.exec .encCapRel s = .next t ∧ t.flag ENC.CAP_FULL.f = false ∧ t.rd ENC.ERR_CAP_LO.f = 0 ∧
      t.rd ENC.ERR_CAP_HI_KIND.f = 0 ∧ t.rd ENC.ERR_CAP_HI_LEVEL.f = 0 ∧ Only [.regs] s t)) ∧
  (∀ (s : State) (k : Nat), s.flag ENC.RK_RUN.f = false → s.badNodes = [] → s.memServes = true → s.rekeyNext = some k →
    ∃ t, Machine.exec .rekeyWalkStart s = .next t ∧ t.flag ENC.RK_RUN.f = true ∧ t.bit ENC.RKPEND.f k = false ∧
      t.rd (ENC.GEN.f k) = (s.rd (ENC.GEN.f k) + 1) % 2 ^ 16 ∧ t.rd ENC.RK_PTR.f = 0 ∧ t.rd ENC.RK_STAT_KID.f = k ∧
      OnlyRegs [ENC.RK_RUN.f.key, ENC.RKPEND.f.key, (ENC.GEN.f k).key, ENC.RK_PTR.f.key, ENC.RK_STAT_KID.f.key,
        ENC.RK_DONE.f.key] s t) ∧
  (∀ (bad : BitVec 64) (s : State),
    let w := fun (x : Nat) => s.walkPage (s.rd ENC.RK_STAT_KID.f) x
    (s.walkRuns = false → Machine.exec (.rekeyPage bad) s = .next s) ∧
    (s.walkRuns = true → w (s.rd ENC.RK_PTR.f) = none →
      ∃ t, Machine.exec (.rekeyPage bad) s = .next t ∧ t.flag ENC.RK_RUN.f = false ∧ OnlyRegs [ENC.RK_RUN.f.key] s t) ∧
    (∀ p, s.walkRuns = true → w (s.rd ENC.RK_PTR.f) = some p → p + 1 < 2 ^ 32 → s.cacheList.length + 256 ≤ 131072 →
      (∀ i, i < 64 → s.metaPa (15, s.macNo ((p * 64 + i) * 64)) / 4096 ≠ p) →
      ∃ t, Machine.exec (.rekeyPage bad) s = .next t ∧ t.rd ENC.RK_PTR.f = p + 1 ∧ t.wide ENC.major p = 0 ∧
        t.flag ENC.RK_RUN.f = (w (p + 1)).isSome ∧
        (∀ i, i < 64 →
          let pa := (p * 64 + i) * 64
          t.wide ENC.minor (p * 64 + i) = 0 ∧
          t.wide DDR.pois (p * 64 + i) =
            if s.flag (DDR.UP.f (paChan (p * 4096))) = true then
              (if bad.getLsbD i = true ∨ s.pathGood (p * 4096) = false ∨ s.lineDead pa = true ∨ s.macGood pa = false
                then 1 else s.wide DDR.pois (p * 64 + i))
            else if s.wide DDR.pois (p * 64 + i) = 1 then 1 else 2) ∧
        (∀ l, l < 2 ^ 38 → l / 64 ≠ p → t.wide ENC.minor l = s.wide ENC.minor l ∧ t.wide DDR.pois l = s.wide DDR.pois l) ∧
        Only [.regs, .tabs, .raised] s t)) ∧
  (∀ (id : Word) (off : BitVec 36) (data : List Byte) (bad : BitVec 64) (s : State) (a : Alloc), s.alloc? id.toNat = some a →
    off.toNat + data.length ≤ a.size → 0 < data.length → off.toNat % 64 + data.length ≤ 64 → data.length < 64 →
    a.pa off.toNat < 2 ^ 44 →
    let w : HeldWrite := ⟨id.toNat, off.toNat, data⟩
    let pa := a.pa off.toNat
    let line := pa / 64
    (s.lineWriteWaits w = true → ∃ t, Machine.exec (.partialWrite id off data bad) s = .next t ∧ t.lineQ = s.lineQ ++ [w] ∧
      Only [.lineQ] s t) ∧
    (s.lineWriteWaits w = false → a.kind = 0 → a.accepts off.toNat data.length = false →
      Machine.exec (.partialWrite id off data bad) s = .next s) ∧
    (s.lineWriteWaits w = false → (a.kind ≠ 0 ∨ (a.st = 1 ∧ a.allpois = false ∧ a.marked = [])) →
      ∃ t, Machine.exec (.partialWrite id off data bad) s = .next t ∧
        (∀ i, i < data.length → t.dramByte a (a.pa (off.toNat + i)) = data.getD i 0) ∧
        (∀ k, (∀ i, i < data.length → k ≠ dramKey (a.pa (off.toNat + i))) → t.byte k = s.byte k) ∧
        (s.flag (DDR.UP.f (paChan pa)) = true → s.pathGood pa = true → s.keyLoaded a.key = true →
          (s.wide ENC.minor line < 127 → t.wide ENC.minor line = s.wide ENC.minor line + 1) ∧
          (s.lineDead pa = false → s.macGood pa = true → bad.getLsbD (line % 64) = false → s.majorFull pa = false →
            t.lineDead pa = false ∧ (t.wide DDR.pois line = 0 ∨ t.wide DDR.pois line = 3)) ∧
          (s.lineDead pa = true ∨ s.macGood pa = false ∨ bad.getLsbD (line % 64) = true →
            t.wide DDR.pois line = 1 ∧ (1280 + 16 * paChan pa + 2, s.time) ∈ t.raised)) ∧
        (s.flag (DDR.UP.f (paChan pa)) = true → (s.pathGood pa = false ∨ s.keyLoaded a.key = false) →
          t.wide DDR.pois line = 1 ∧ t.wide ENC.minor line = s.wide ENC.minor line ∧
            (1280 + 16 * paChan pa + 2, s.time) ∈ t.raised))) ∧
  (∀ (id : Word) (line : BitVec 30) (data : BitVec 512) (bad : BitVec 64) (s : State) (a : Alloc),
    s.alloc? id.toNat = some a → line.toNat * 64 + 64 ≤ a.size →
    s.lineWriteWaits ⟨id.toNat, line.toNat * 64, wordBytes data.toNat 64⟩ = false →
    (a.kind ≠ 0 ∨ (a.st = 1 ∧ a.allpois = false ∧ a.marked = [])) → a.pa (line.toNat * 64) < 2 ^ 44 →
    let pa := a.pa (line.toNat * 64)
    let x := pa / 64
    ∃ t, Machine.exec (.wholeLineWrite id line data bad) s = .next t ∧
      (∀ i, i < 64 → t.dramByte a (a.pa (line.toNat * 64 + i)) = BitVec.ofNat 8 (data.toNat / 256 ^ i)) ∧
      (s.flag (DDR.UP.f (paChan pa)) = true → s.pathGood pa = true → s.keyLoaded a.key = true → s.majorFull pa = false →
        t.lineDead pa = false ∧ (t.wide DDR.pois x = 0 ∨ t.wide DDR.pois x = 3) ∧
        (s.wide ENC.minor x < 127 → t.wide ENC.minor x = s.wide ENC.minor x + 1) ∧
        (s.wide ENC.minor x = 127 → t.wide ENC.minor x = 1 ∧ t.wide ENC.major (x / 64) = s.wide ENC.major (x / 64) + 1))) ∧
  (∀ (s : State) (nd : Nat × Nat) (rest : List (Nat × Nat)), s.badNodes = nd :: rest → s.memServes = true →
    (∀ c ∈ s.subtree nd 0, s.ctrPage c < 2 ^ 32 ∧
      ∀ k, k ≤ nd.1 → ∀ i ∈ s.subtree nd k, s.metaPa (k, i) < 2 ^ 44 ∧ s.metaPa (k, i) / 4096 ≠ s.ctrPage c) →
    ∃ t, Machine.exec .nodeRebuild s = .next t ∧ nd ∉ t.badNodes ∧
      ∀ c ∈ s.subtree nd 0,
        let p := s.ctrPage c
        (s.rd ENC.MAJ_TOP.f + 1 < 2 ^ 64 → s.rd ENC.MAJ_TOP.f < t.wide ENC.major p) ∧
          ∀ i, i < 64 → t.wide ENC.minor (p * 64 + i) = 0 ∧
            t.wide DDR.pois (p * 64 + i) = if s.wide DDR.pois (p * 64 + i) = 1 then 1 else 2)

/-- With ADC reached and clocked: START on an idle ADC sets RUN at entry 0 with PASS 0 and the time of its first raw
sample, after the gap and the WAIT; behind an urgent request it is held, and with RUN or CAL_BUSY it changes
nothing. GSTART acts so on exactly the ADCs it names. STOP clears RUN and keeps outputs and urgent request. URG_GO
takes the urgent entry, or is ignored with URG 2. An output, from its raw samples corrected and averaged by R305,
enters the FIFO with its marks; then its entry goes on, the next begins, the list wraps with CONT or ends without;
an urgent request ends with URG 1. Where MX_BUSY or REF_RDY changed since the output before, what its samples met is
an operand, else the condition as it stands (log entry 45). The first sample of an entry with WMX waits for MX_BUSY.
A port read answers the head output and consumes it, or answers all ones, as it does while STREAM is set. STR_RD is
taken between itself and STR_WR. CAL_GO answers 2 without the reference, 3 while busy, and else sets CAL_BUSY;
acceptable factors are written with CAL 1, others give CAL 4. REF_RDY follows REF_EN. (R302, R303, R304, R305, R306,
R307, R308, R311) -/
def Obligations.ConvertersRunListsUrgentRequestsAndCalibration : Prop :=
  (∀ (a : AdcId) (s : State), s.openTo 12 .adc = true →
    (s.flag (ADC.RUN.f a) = false → s.flag (ADC.CAL_BUSY.f a) = false → s.flag (ADC.URG_BUSY.f a) = false →
      ∃ t, Machine.exec (.adcStart a) s = .next t ∧ t.flag (ADC.RUN.f a) = true ∧ t.rd (ADC.POS_ENTRY.f a) = 0 ∧
        t.rd (ADC.POS_PASS.f a) = 0 ∧ t.rd (ADC.TS_LO.f a) = (s.time + s.adcLead a (s.tab ADC.list a 0)) % 2 ^ 32 ∧
        t.rd (ADC.TS_HI.f a) = (s.time + s.adcLead a (s.tab ADC.list a 0)) / 2 ^ 32 % 2 ^ 32 ∧ t.rd (ADC.LEFT.f a) = s.tab ADC.list a 0 % 4096 + 1) ∧
    (s.flag (ADC.RUN.f a) = false → s.flag (ADC.CAL_BUSY.f a) = false → s.flag (ADC.URG_BUSY.f a) = true →
      ∃ t, Machine.exec (.adcStart a) s = .next t ∧ t.flag (ADC.START_HELD.f a) = true ∧
        OnlyRegs [(ADC.START_HELD.f a).key] s t) ∧
    ((s.flag (ADC.RUN.f a) = true ∨ s.flag (ADC.CAL_BUSY.f a) = true) → Machine.exec (.adcStart a) s = .next s) ∧
    (∃ t, Machine.exec (.adcStop a) s = .next t ∧ t.flag (ADC.RUN.f a) = false ∧
      t.flag (ADC.URG_BUSY.f a) = s.flag (ADC.URG_BUSY.f a) ∧ (s.flag (ADC.STREAM.f a) = false → t.adcQ a = s.adcQ a) ∧
      ∀ m, m < 16 → m ≠ a.val → t.flag (ADC.RUN.f m) = s.flag (ADC.RUN.f m) ∧ t.adcQ m = s.adcQ m) ∧
    ((s.flag (ADC.URG_BUSY.f a) = true ∨ s.flag (ADC.CAL_BUSY.f a) = true) →
      ∃ t, Machine.exec (.urgGo a) s = .next t ∧ t.rd (ADC.STAT_URG.f a) = 2 ∧ OnlyRegs [(ADC.STAT_URG.f a).key] s t) ∧
    (s.flag (ADC.URG_BUSY.f a) = false → s.flag (ADC.CAL_BUSY.f a) = false →
      ∃ t, Machine.exec (.urgGo a) s = .next t ∧ t.flag (ADC.URG_BUSY.f a) = true ∧
        t.flag (ADC.RUN.f a) = s.flag (ADC.RUN.f a) ∧ t.rd (ADC.URG_LEFT.f a) = s.rd (ADC.URG.f a) % 4096 + 1) ∧
    (∃ t, Machine.exec (.calGo a) s = .next t ∧
      (s.flag (ADC.REF_RDY.f (a / 4)) = false → t.rd (ADC.STAT_CAL.f a) = 2 ∧ OnlyRegs [(ADC.STAT_CAL.f a).key] s t) ∧
      (s.flag (ADC.REF_RDY.f (a / 4)) = true →
        ((s.flag (ADC.RUN.f a) || s.flag (ADC.URG_BUSY.f a) || s.flag (ADC.CAL_BUSY.f a)) = true →
          t.rd (ADC.STAT_CAL.f a) = 3 ∧ OnlyRegs [(ADC.STAT_CAL.f a).key] s t) ∧
        ((s.flag (ADC.RUN.f a) || s.flag (ADC.URG_BUSY.f a) || s.flag (ADC.CAL_BUSY.f a)) = false →
          t.flag (ADC.CAL_BUSY.f a) = true ∧ OnlyRegs [(ADC.CAL_BUSY.f a).key] s t)))) ∧
  (∀ (mask : BitVec 16) (s : State), s.openTo 12 .adc = true →
    ∃ t, Machine.exec (.adcGstart mask) s = .next t ∧ ∀ m, m < 16 →
      (bitOf mask.toNat m = true → s.flag (ADC.CAL_BUSY.f m) = false → s.flag (ADC.URG_BUSY.f m) = false →
        t.flag (ADC.RUN.f m) = true) ∧
      (bitOf mask.toNat m = false → t.flag (ADC.RUN.f m) = s.flag (ADC.RUN.f m) ∧ t.adcQ m = s.adcQ m)) ∧
  (∀ (a : AdcId) (o0 g0 o1 g1 : BitVec 16) (s : State), s.flag (ADC.CAL_BUSY.f a) = true →
    ∃ t, Machine.exec (.adcCalEnd a o0 g0 o1 g1) s = .next t ∧ t.flag (ADC.CAL_BUSY.f a) = false ∧
      ((∀ o ∈ [o0, o1], -1024 ≤ o.toInt ∧ o.toInt ≤ 1024) → (∀ g ∈ [g0, g1], 0x7999 ≤ g.toNat ∧ g.toNat ≤ 0x8666) →
        t.rd (ADC.STAT_CAL.f a) = 1 ∧ t.rd (ADC.OFS0.f a) = o0.toNat ∧ t.rd (ADC.GAIN0.f a) = g0.toNat ∧
        t.rd (ADC.OFS1.f a) = o1.toNat ∧ t.rd (ADC.GAIN1.f a) = g1.toNat) ∧
      (¬ ((∀ o ∈ [o0, o1], -1024 ≤ o.toInt ∧ o.toInt ≤ 1024) ∧ ∀ g ∈ [g0, g1], 0x7999 ≤ g.toNat ∧ g.toNat ≤ 0x8666) →
        t.rd (ADC.STAT_CAL.f a) = 4 ∧ OnlyRegs [(ADC.CAL_BUSY.f a).key, (ADC.STAT_CAL.f a).key] s t)) ∧
  (∀ (n : Tile) (s : State), s.dieOn = true →
    (s.flag (ADC.REF_EN.f n) = true →
      ∃ t, Machine.exec (.refReady n) s = .next t ∧ t.flag (ADC.REF_RDY.f n) = true ∧
        OnlyRegs ((ADC.REF_RDY.f n).key :: (List.range 4).map fun j => (ADC.CHG.f (4 * n + j)).key) s t) ∧
    (s.flag (ADC.REF_EN.f n) = false → Machine.exec (.refReady n) s = .next s)) ∧
  (∀ (a : AdcId) (raws : List (BitVec 14)) (settle nref : Bool) (s : State), s.gated .adc = false → s.bit CLK.LK.f 0 = true →
    s.flag (ADC.HOLD.f a) = false → s.flag (ADC.STREAM.f a) = false →
    let out := fun (e : Nat) =>
      let ofs := signedOf 16 (s.rd (if bits e 16 1 = 0 then ADC.OFS0.f a else ADC.OFS1.f a))
      let gain : Int := s.rd (if bits e 16 1 = 0 then ADC.GAIN0.f a else ADC.GAIN1.f a)
      let c := fun (x : BitVec 14) => (x.toInt * 16 - ofs) * gain / 2 ^ 19
      unsignedOf 16 (raws.foldl (fun v x => v + min (max (c x) (-8192)) 8191) 0 / 2 ^ min 8 (bits e 12 4)) +
        b2n (raws.any fun x => decide (c x < -8192 ∨ 8191 < c x ∨ x.toInt = 8191 ∨ x.toInt = -8192)) * 2 ^ 24 +
        b2n (if s.bit (ADC.CHG.f a) 0 = true then settle else s.flag (VLV.MX_BUSY.f (a / 4))) * 2 ^ 23 +
        b2n (if s.bit (ADC.CHG.f a) 1 = true then nref else !s.flag (ADC.REF_RDY.f (a / 4))) * 2 ^ 26 + s.rd (ADC.GAP_MARK.f a) * 2 ^ 25
    let waits := fun (e left : Nat) => bitOf e 19 = true ∧ (left = e % 4096 + 1 ∨ s.flag (ADC.RES_MARK.f a) = true) ∧
      s.flag (VLV.MX_BUSY.f (a / 4)) = true ∧ s.bit (ADC.CHG.f a) 0 = false
    ((s.flag (ADC.RUN.f a) = true ∨ s.flag (ADC.URG_BUSY.f a) = true) →
      (if s.flag (ADC.URG_BUSY.f a) = true then waits (s.rd (ADC.URG_CUR.f a)) (s.rd (ADC.URG_LEFT.f a))
        else waits (s.rd (ADC.CUR.f a)) (s.rd (ADC.LEFT.f a))) →
      Machine.exec (.adcOutput a raws settle nref) s = .next s) ∧
    (s.flag (ADC.RUN.f a) = true → s.flag (ADC.URG_BUSY.f a) = false → (s.adcQ a).length < 1024 →
      ¬ waits (s.rd (ADC.CUR.f a)) (s.rd (ADC.LEFT.f a)) →
      raws.length = 2 ^ min 8 (bits (s.rd (ADC.CUR.f a)) 12 4) →
      ∃ t, Machine.exec (.adcOutput a raws settle nref) s = .next t ∧
        t.adcQ a = s.adcQ a ++ [out (s.rd (ADC.CUR.f a)) + s.rd (ADC.POS_ENTRY.f a) * 2 ^ 16 +
          s.rd (ADC.RES_MARK.f a) * 2 ^ 27] ∧
        (1 < s.rd (ADC.LEFT.f a) → t.rd (ADC.POS_ENTRY.f a) = s.rd (ADC.POS_ENTRY.f a) ∧ t.flag (ADC.RUN.f a) = true) ∧
        (s.rd (ADC.LEFT.f a) ≤ 1 → s.rd (ADC.POS_ENTRY.f a) < s.rd (ADC.CTRL_LEN.f a) → s.rd (ADC.CTRL_LEN.f a) < 64 →
          t.rd (ADC.POS_ENTRY.f a) = s.rd (ADC.POS_ENTRY.f a) + 1 ∧ t.flag (ADC.RUN.f a) = true) ∧
        (s.rd (ADC.LEFT.f a) ≤ 1 → s.rd (ADC.CTRL_LEN.f a) ≤ s.rd (ADC.POS_ENTRY.f a) →
          t.flag (ADC.RUN.f a) = s.flag (ADC.CONT.f a) ∧ (s.flag (ADC.CONT.f a) = true → t.rd (ADC.POS_ENTRY.f a) = 0 ∧
            t.rd (ADC.POS_PASS.f a) = (s.rd (ADC.POS_PASS.f a) + 1) % 2 ^ 24))) ∧
    (s.flag (ADC.URG_BUSY.f a) = true → (s.adcQ a).length < 1024 →
      ¬ waits (s.rd (ADC.URG_CUR.f a)) (s.rd (ADC.URG_LEFT.f a)) →
      raws.length = 2 ^ min 8 (bits (s.rd (ADC.URG_CUR.f a)) 12 4) →
      ∃ t, Machine.exec (.adcOutput a raws settle nref) s = .next t ∧
        t.adcQ a = s.adcQ a ++ [out (s.rd (ADC.URG_CUR.f a)) + 2 ^ 22] ∧
        (s.rd (ADC.URG_LEFT.f a) ≤ 1 → t.flag (ADC.URG_BUSY.f a) = false ∧ t.rd (ADC.STAT_URG.f a) = 1 ∧
          (s.flag (ADC.START_HELD.f a) = true → t.flag (ADC.RUN.f a) = true)) ∧
        (1 < s.rd (ADC.URG_LEFT.f a) → t.flag (ADC.URG_BUSY.f a) = true))) ∧
  (∀ (a : AdcId) (m : Master) (s : State), s.openTo (masterIdx m) .adc = true →
    ∃ t, Machine.exec (.adcPortRead a m) s = .next t ∧
      (s.flag (ADC.STREAM.f a) = false → t.rd SYS.RDATA.f = (s.adcQ a).headD (2 ^ 32 - 1) % 2 ^ 32 ∧
        t.adcQ a = if s.consumes m then (s.adcQ a).tail else s.adcQ a) ∧
      (s.flag (ADC.STREAM.f a) = true → t.rd SYS.RDATA.f = 2 ^ 32 - 1 ∧ OnlyRegs [SYS.RDATA.f.key] s t)) ∧
  (∀ (a : AdcId) (v : Word) (s : State), s.openTo 12 .adc = true →
    ∃ t, Machine.exec (.adcStrRd a v) s = .next t ∧ t.rd (ADC.STR_RD.f a) =
      if (v.toNat + 2 ^ 32 - s.rd (ADC.STR_RD.f a)) % 2 ^ 32 ≤
          (s.rd (ADC.STR_WR.f a) + 2 ^ 32 - s.rd (ADC.STR_RD.f a)) % 2 ^ 32 then v.toNat
      else s.rd (ADC.STR_RD.f a))

/-- Where an instruction with a result issues next on a flow processor, in slot 0 at a boundary that lets it issue
or in slot 1, its result is put in flight for the physical register that rd names then, with the latency and the
value of the instruction table: wrapped, or saturated with S = 1. MAXS and MINS put both registers of the pair in
flight exactly where ra is greater or less than xd. No other core and no other part of the state changes, but the
cycle count, the timer and what its zero records, the ECC count and what a comparator shows. A result that is due is
written when a cycle passes, the later issued one standing, and the others come a cycle nearer. (R323, R324, R326,
R327, R329, R330, R331) -/
def Obligations.MfpResultsAreWhatTheTableSays : Prop :=
  (∀ (m : MfpId) (e : BundleEcc) (x : Nat × Nat × (MfpCore → Nat → Nat) × Instr), x ∈ mfpResults m e →
    ∀ (s : State) (w : Nat), Issues s m e x.1 w →
    ∃ t, Machine.exec x.2.2.2 s = .next t ∧ CoreOnly s m [] [] t ∧
      CoreDoes s m (fun c => { c with flight := c.flight ++
        [{ left := x.2.1, reg := c.phys (bits w 19 5), val := x.2.2.1 c w }] }) t) ∧
  (∀ (m : MfpId) (e : BundleEcc) (s : State) (w : Nat),
    let pair := fun (c : MfpCore) =>
      { c with flight := c.flight ++ [{ left := 1, reg := c.phys (bits w 19 5), val := c.ra w },
        { left := 1, reg := c.phys (bits w 19 5 + 1), val := c.rb5 w }] }
    (Issues s m e 0x17 w → ∃ t, Machine.exec (.mfpMaxs m e) s = .next t ∧ CoreOnly s m [] [] t ∧
      CoreDoes s m (fun c => if sx32 (c.ra w) > sx32 (c.get (bits w 19 5)) then pair c else c) t) ∧
    (Issues s m e 0x18 w → ∃ t, Machine.exec (.mfpMins m e) s = .next t ∧ CoreOnly s m [] [] t ∧
      CoreDoes s m (fun c => if sx32 (c.ra w) < sx32 (c.get (bits w 19 5)) then pair c else c) t)) ∧
  (∀ (c : MfpCore),
    c.cycle.flight = (c.flight.filter fun r => 1 < r.left).map (fun r => { r with left := r.left - 1 }) ∧
    (∀ (pre post : List MfpResult) (r : MfpResult), c.flight = pre ++ r :: post → r.left ≤ 1 → r.reg ≠ 0 →
      (∀ q ∈ post, q.left ≤ 1 → q.reg ≠ r.reg) → c.cycle.x.get r.reg 0 = r.val % 2 ^ 32) ∧
    (∀ p, (∀ q ∈ c.flight, q.left ≤ 1 → q.reg ≠ p) → c.cycle.x.get p 0 = c.x.get p 0) ∧ c.get 0 = 0)

/-- A load from IMEM or DMEM puts in flight, after three cycles, the little-endian bytes at its address, extended by
its instruction, and ra as the addressing mode says; an uncorrectable word gives zero and a MEMERR to come. A store
writes exactly the bytes of its size at its address; a store to IMEM leaves what a fetch sees. Any other address
hands the access to the queues with its destination registers. LL sets the reservation on its line and loads; SC on
DMEM stores and gives 1 where the reservation covers its line, gives 0 and stores nothing where it does not, and
clears it; SC on shared memory takes the reservation with it (log entry 50). ISYNC makes fetches see the stores.
(R315, R316, R317, R318, R326, R328, R335) -/
def Obligations.MfpLoadsAndStores : Prop :=
  (∀ (m : MfpId) (e : BundleEcc) (x : Nat × Bool × Instr), x ∈ mfpLoads m e →
    ∀ (s : State) (w : Nat), Issues s m e x.1 w →
    let a := (s.core m).memAddr w
    let z := memSize (bits w 25 6)
    ((inImem a = true ∨ inDmem a = true) →
      (e.load ≠ .uncorrectable → ∃ t, Machine.exec x.2.2 s = .next t ∧ CoreOnly s m [] [] t ∧
        CoreDoes s m (fun c => (c.addrUpdate w).loadResult w z (loadExt x.2.1 z (s.bytes (mfpKey m a) z))) t) ∧
      (e.load = .uncorrectable → ∃ t, Machine.exec x.2.2 s = .next t ∧ CoreOnly s m [] [] t ∧
        CoreDoes s m (fun c => { (c.addrUpdate w).loadResult w z 0 with
          imprecise := c.imprecise ++ [{ cause := 5, addr := a, st := false, left := 3 }] }) t)) ∧
    (isLocal a = false → ∃ t, Machine.exec x.2.2 s = .next t ∧ CoreOnly s m [] [] t ∧
      CoreDoes s m (fun c => (c.addrUpdate w).queued {
        kind := .load x.2.1, addr := a, size := z, data := 0
        dest := if z = 8 then [c.phys (bits w 19 5), c.phys (bits w 19 5 + 1)] else [c.phys (bits w 19 5)],
        win := if inAperture a then s.apWindow m a else none }) t)) ∧
  (∀ (m : MfpId) (e : BundleEcc) (x : Nat × Instr), x ∈ mfpStores m e →
    ∀ (s : State) (w : Nat), Issues s m e x.1 w →
    let a := (s.core m).memAddr w
    let z := memSize (bits w 25 6)
    let v := (s.core m).storeData w z
    ((inImem a = true ∨ inDmem a = true) → a % z = 0 →
      ∃ t, Machine.exec x.2 s = .next t ∧ CoreOnly s m [.mem, .tabs] [] t ∧ CoreDoes s m (fun c => c.addrUpdate w) t ∧
        (∀ i, i < z → t.byte (mfpKey m a + i) = BitVec.ofNat 8 (v / 256 ^ i)) ∧
        (∀ k, (k < mfpKey m a ∨ mfpKey m a + z ≤ k) → t.byte k = s.byte k) ∧
        (∀ off, off % 4 = 0 → off < 2 ^ 18 → t.fetchWord m off = s.fetchWord m off) ∧
        (inDmem a = true → t.tabs = s.tabs)) ∧
    (isLocal a = false → ∃ t, Machine.exec x.2 s = .next t ∧ CoreOnly s m [] [] t ∧
      CoreDoes s m (fun c => (c.addrUpdate w).queued {
        kind := .store, addr := a, size := z, data := v, dest := []
        win := if inAperture a then s.apWindow m a else none }) t)) ∧
  (∀ (m : MfpId) (e : BundleEcc) (s : State) (w : Nat), Issues s m e 0x2A w →
    let a := (s.core m).memAddr w
    (inDmem a = true → e.load ≠ .uncorrectable → ∃ t, Machine.exec (.mfpLl m e) s = .next t ∧ CoreOnly s m [] [] t ∧
      CoreDoes s m (fun c => { (c.addrUpdate w).loadResult w 4 (s.bytes (mfpKey m a) 4) with
        res := some (mfpKey m a / 64) }) t) ∧
    (inShm a = true → ∃ t, Machine.exec (.mfpLl m e) s = .next t ∧ CoreOnly s m [] [] t ∧
      CoreDoes s m (fun c => { (c.addrUpdate w).queued {
        kind := .ll, addr := a, size := 4, data := 0
        dest := [c.phys (bits w 19 5)], win := none } with
        res := some (shmKey (a - 0x04000000) / 64) }) t)) ∧
  (∀ (m : MfpId) (e : BundleEcc) (s : State) (w : Nat), Issues s m e 0x2B w →
    let a := (s.core m).memAddr w
    let v := (s.core m).storeData w 4
    (inDmem a = true →
      let ok := (s.core m).res == some (mfpKey m a / 64)
      ∃ t, Machine.exec (.mfpSc m e) s = .next t ∧ CoreOnly s m [.mem] [] t ∧
        CoreDoes s m (fun c => { (c.addrUpdate w).loadResult w 4 (if ok then 1 else 0) with res := none }) t ∧
        (∀ i, i < 4 → t.byte (mfpKey m a + i) = if ok then BitVec.ofNat 8 (v / 256 ^ i) else s.byte (mfpKey m a + i)) ∧
        ∀ k, (k < mfpKey m a ∨ mfpKey m a + 4 ≤ k) → t.byte k = s.byte k) ∧
    (inShm a = true → ∃ t, Machine.exec (.mfpSc m e) s = .next t ∧ CoreOnly s m [] [] t ∧
      CoreDoes s m (fun c => { (c.addrUpdate w).queued {
        kind := .sc, addr := a, size := 4, data := v
        dest := [c.phys (bits w 19 5)], win := none, res := c.res } with res := none }) t)) ∧
  (∀ (m : MfpId) (e : BundleEcc) (s : State) (w : Nat), Issues s m e 0x203 w →
    ∃ t, Machine.exec (.mfpIsync m e) s = .next t ∧ CoreOnly s m [.tabs] [] t ∧
      CoreDoes s m (fun c => { c with idle := 2 }) t ∧
      (∀ off, off < 2 ^ 18 → t.fetchWord m off = s.bytes (mfpKey m (0x01000000 + off)) 4) ∧
      ∀ k, k / 2 ^ 32 ≠ MFP.stale.id * 2 ^ 16 + m.val → ∀ d, t.tabs.get k d = s.tabs.get k d)

/-- MAC, MSU, ACCLD and ACCADD give the accumulator that the word names the value of the table, wrapped or saturated
in 40 bits, and leave the other three. A branch that is taken, J, CALL and JR clear LA, lead to their target and
cost two idle cycles, RB and LC moving all the same at LE of an active loop (log entry 51); one that is not taken
changes nothing. CALL and a linking JR give x1 the next bundle's address. LOOP sets LC, LS, LE, LA and ROT. RETI and
RETN restore STAT and lead to the saved PC. WAIT holds the core, CLRRES clears the reservation, MTSR takes effect
with the end of the bundle, FENCE and NOP do nothing more. A bundle leads to the target, or at LE of an active loop
to LS with one pass less, or to the bundle after it, LC and LA then 0 at LE; a rotating loop lowers RB. (R323, R326,
R327, R330, R333, R334, R339, R342) -/
def Obligations.MfpAccumulatesBranchesAndLoops : Prop :=
  (∀ (m : MfpId) (e : BundleEcc) (x : Nat × (MfpCore → Nat → Int) × Instr), x ∈ mfpAccs m e →
    ∀ (s : State) (w : Nat), Issues s m e x.1 w →
    ∃ t f, Machine.exec x.2.2 s = .next t ∧ CoreOnly s m [] [] t ∧ CoreDoes s m f t ∧
      let c := s.core m
      let v := x.2.1 c w
      (f c).accAt (bits w 7 2) 0 =
        unsignedOf 40 (if bitOf w 24 then min (max v (-2 ^ 39)) (2 ^ 39 - 1) else v) ∧
      (∀ k h, k < 4 → h < 8 → (k ≠ bits w 7 2 ∨ h ≠ 0) → (f c).accAt k h = c.accAt k h) ∧
      { f c with acc := [] } = { c with acc := [] }) ∧
  (∀ (m : MfpId) (e : BundleEcc) (x : Nat × (Nat → Nat → Bool) × Instr), x ∈ mfpBranches m e →
    ∀ (s : State) (w : Nat), Issues s m e x.1 w →
    ∃ t, Machine.exec x.2.2 s = .next t ∧ CoreOnly s m [] [] t ∧
      CoreDoes s m (fun c => if x.2.1 (c.get (bits w 19 5)) (c.ra w) then c.goes (c.pc + 8 * signedOf 14 w) else c) t) ∧
  (∀ (m : MfpId) (e : BundleEcc) (x : Nat × (MfpCore → Nat → MfpCore) × Instr), x ∈ mfpFlows m e →
    ∀ (s : State) (w : Nat), Issues s m e x.1 w →
    ∃ t, Machine.exec x.2.2 s = .next t ∧ CoreOnly s m [] [] t ∧ CoreDoes s m (fun c => x.2.1 c w) t) ∧
  (∀ (c : MfpCore) (ni : Bool), c.srNext = [] →
    let d := c.endBundle ni
    d.slot = 0 ∧ d.lastNi = ni ∧ d.niRun = (if ni then c.niRun + 1 + c.idle else 0) ∧
    (∀ t, c.target = some t → d.pc = t ∧ d.lc = c.lc ∧ d.rb = c.rb ∧ d.stat = c.stat) ∧
    (c.target = none → (c.la = false ∨ c.pc ≠ c.le) → d.pc = c.pc + 8 ∧ d.lc = c.lc ∧ d.rb = c.rb ∧ d.stat = c.stat) ∧
    (c.target = none → c.la = true → c.pc = c.le → c.looped = false →
      d.rb = (if c.rot then (c.rb + 15) % 16 else c.rb) ∧
      (1 < c.lc → d.pc = c.ls ∧ d.lc = c.lc - 1 ∧ d.stat = c.stat) ∧
      (c.lc ≤ 1 → d.pc = c.pc + 8 ∧ d.lc = 0 ∧ d.la = false))) ∧
  (∀ (c : MfpCore) (ni : Bool) (n v : Nat), c.srNext = [(n, v)] → srnValid n = true → v < 2 ^ 32 →
    (c.endBundle ni).sr n =
      if n = 0 ∨ n = 2 ∨ n = 7 then v % 32 else if n = 3 then v % 32 + v / 256 % 2 * 256
      else if n = 5 then v / 1024 * 1024 else if n = 11 then v % 16 else v)

/-- At a boundary of a flow processor with EXL = 0, TRAP and every other precise exception of the next bundle enter
with their code: EPC, ESTAT, CAUSE, PC = VBASE + 32 c, IE = 0, EXL = 1, LA = 0, the reservation gone and every local
result written; BADADDR is written where the cause has an address. With no precise exception the oldest imprecise
one whose access is complete enters, unless an NI bundle came before; then the highest of EVT, DB, WDW and TMR that
is due. A precise exception with EXL = 1 resets the MFP. The NMI saves NPC and NSTAT, sets NMIL, leaves EPC and EXL,
and goes to VBASE + 32. WAIT ends where an enabled bit or an NMI is pending. The limit of a locked sequence clears
the reservation. (R336, R337, R338, R339, R340, R341, R342, R343) -/
def Obligations.MfpTakesExceptionsInOrder : Prop :=
  (∀ (m : MfpId) (e : BundleEcc) (s : State), AtBoundary s m → (s.core m).exl = false →
    let aged := fun (l : List Imprecise) => l.map fun x => { x with left := x.left - 4 }
    (mfpKind (s.slotWord m 0 % 2 ^ 31) = 0x204 → s.preciseCause m e = some (11, none) →
      ∃ t, Machine.exec (.mfpTrap m e) s = .next t ∧ Entered (s.core m) 11 false (t.core m) ∧ Only [.cores] s t ∧
        ∀ k, k ≠ m.val → t.core k = s.core k) ∧
    (∀ code addr, s.preciseCause m e = some (code, addr) →
      ∃ t, Machine.exec (.interruptEntry m e) s = .next t ∧ Entered (s.core m) code false (t.core m) ∧
        (t.core m).badaddr = addr.getD (s.core m).badaddr ∧ (t.core m).imprecise = aged (s.core m).imprecise ∧
        Only [.cores] s t ∧ ∀ k, k ≠ m.val → t.core k = s.core k) ∧
    (∀ pre i post, s.preciseCause m e = none → (s.core m).imprecise = pre ++ i :: post → (∀ x ∈ pre, x.left ≠ 0) → i.left = 0 →
      (s.core m).lastNi = false →
      ∃ t, Machine.exec (.interruptEntry m e) s = .next t ∧ Entered (s.core m) i.cause i.st (t.core m) ∧
        (t.core m).badaddr = i.addr ∧ (t.core m).imprecise = aged (pre ++ post) ∧
        Only [.cores] s t ∧ ∀ k, k ≠ m.val → t.core k = s.core k) ∧
    (s.preciseCause m e = none → (∀ x ∈ (s.core m).imprecise, x.left ≠ 0) → s.irqDue m = true →
      let p := s.mfpIrq m
      ∃ t, Machine.exec (.interruptEntry m e) s = .next t ∧
        Entered (s.core m) (if bitOf p 0 then 12 else if bitOf p 1 then 13 else if bitOf p 3 then 14 else 15) false
          (t.core m) ∧
        Only [.cores] s t ∧ ∀ k, k ≠ m.val → t.core k = s.core k)) ∧
  (∀ (m : MfpId) (e : BundleEcc) (s : State) (code : Nat) (addr : Option Nat), AtBoundary s m →
    (s.core m).exl = true → s.preciseCause m e = some (code, addr) →
    ∃ t, Machine.exec (.interruptEntry m e) s = .next t ∧ MfpWasReset m 2 s t) ∧
  (∀ (m : MfpId) (s : State), s.mfpClocked m = true → (s.core m).slot = 0 →
    (s.core m).waiting = false → (s.core m).haltDue = false → s.nmiDue m = true →
    let c := s.core m
    ∃ t, Machine.exec (.nmiEntry m) s = .next t ∧ (t.core m).npc = c.pc ∧ (t.core m).nstat = c.stat ∧
      (t.core m).pc = (c.vbase + 32) % 2 ^ 32 ∧ (t.core m).nmil = true ∧ (t.core m).nmi = false ∧
      (t.core m).ie = c.ie ∧ (t.core m).exl = c.exl ∧ (t.core m).epc = c.epc ∧ (t.core m).estat = c.estat ∧
      (t.core m).res = none ∧ (t.core m).x = c.flush.x ∧ (t.core m).remotes = c.remotes ∧
      Only [.cores] s t ∧ ∀ k, k ≠ m.val → t.core k = s.core k) ∧
  (∀ (m : MfpId) (s : State), (s.core m).waiting = true → (s.core m).slot = 0 → s.mfpClocked m = true →
    ((s.mfpIrq m ≠ 0 ∨ (s.core m).nmi = true) → ∃ t, Machine.exec (.mfpWaitEnd m) s = .next t ∧
      t.core m = { s.core m with waiting := false } ∧ Only [.cores] s t ∧ ∀ k, k ≠ m.val → t.core k = s.core k) ∧
    (s.mfpIrq m = 0 → (s.core m).nmi = false → Machine.exec (.mfpWaitEnd m) s = .next s)) ∧
  (∀ (m : MfpId) (s : State), (s.core m).res.isSome = true → s.mfpIrq m ≠ 0 → (s.core m).ie = true →
    (s.core m).exl = false → ∃ t, Machine.exec (.reservationTimeout m) s = .next t ∧
      t.core m = { s.core m with res := none } ∧ Only [.cores] s t ∧ ∀ k, k ≠ m.val → t.core k = s.core k)

/-- Without a turn, or while an island on its way stands still or its line of DRAM waits, an access waits. An access
whose turn has come, to shared memory at its alignment: a load writes its destination registers with the bytes,
extended, and leaves its queue; a store writes exactly its bytes and clears the reservations of other MFPs on its
line alone; SC stores and gives 1 where the reservation that it took along still covers its line, else gives 0 and
stores nothing (that it takes the reservation along is the model's choice, log entry 50). A load through an aperture
window that maps nothing gives zero and a BUSERR to come with its address; a store through one changes no memory and
records a BUSERR with ST = 1. An access on the ordered queue has its turn where every access before it is an
aperture access. (R318, R319, R332, R335, R336) -/
def Obligations.RemoteAccessesOfMfpsEnd : Prop :=
  (∀ (m : MfpId) (k : Fin 24) (s : State), s.remoteTurn m k = none → Machine.exec (.remoteLoadReturn m k) s = .next s ∧
    Machine.exec (.remoteStoreDone m k) s = .next s ∧ Machine.exec (.remoteStoreError m k) s = .next s) ∧
  (∀ (m : MfpId) (k : Fin 24) (s : State) (r : Remote), s.remoteTurn m k = some r → s.ratioBad = false →
    let c := { s.core m with remotes := (s.core m).remotes.eraseIdx k }
    let key := shmKey (r.addr - 0x04000000)
    let here := inShm r.addr = true ∧ r.addr % r.size = 0 ∧ (r.size = 1 ∨ r.size = 2 ∨ r.size = 4 ∨ r.size = 8)
    let gone := inAperture r.addr = true ∧ r.win = none
    (∀ sg, (r.kind = .load sg ∨ (r.kind = .ll ∧ sg = false)) →
      (here → ∃ t, Machine.exec (.remoteLoadReturn m k) s = .next t ∧ CoreOnly s m [] [] t ∧
        t.core m = { c.remoteValue r (loadExt sg r.size (s.bytes key r.size)) with
          haltReq := (t.core m).haltReq, haltFor := (t.core m).haltFor }) ∧
      (gone → ∃ t, Machine.exec (.remoteLoadReturn m k) s = .next t ∧ Only [.cores] s t ∧
        t.core m = { c.remoteValue r 0 with
          imprecise := c.imprecise ++ [{ cause := 9, addr := r.addr, st := false }] } ∧
        ∀ j, j ≠ m.val → t.core j = s.core j)) ∧
    (r.kind = .store → here → ∃ t, Machine.exec (.remoteStoreDone m k) s = .next t ∧ Only [.cores, .mem] s t ∧
      t.core m = c ∧ (∀ i, i < r.size → t.byte (key + i) = BitVec.ofNat 8 (r.data / 256 ^ i)) ∧
      (∀ a, (a < key ∨ key + r.size ≤ a) → t.byte a = s.byte a) ∧
      ∀ j : MfpId, j ≠ m → t.core j = (s.core j).loseRes (key / 64) (key / 64)) ∧
    (r.kind = .store → gone → ∃ t, Machine.exec (.remoteStoreError m k) s = .next t ∧ Only [.cores] s t ∧
      t.core m = { c with imprecise := c.imprecise ++ [{ cause := 9, addr := r.addr, st := true }] } ∧
      ∀ j, j ≠ m.val → t.core j = s.core j) ∧
    (r.kind = .sc → here → r.size = 4 →
      (r.res = some (key / 64) → ∃ t, Machine.exec (.remoteLoadReturn m k) s = .next t ∧
        t.core m = c.remoteValue r 1 ∧ Only [.cores, .mem] s t ∧
        (∀ i, i < 4 → t.byte (key + i) = BitVec.ofNat 8 (r.data / 256 ^ i)) ∧
        (∀ a, (a < key ∨ key + 4 ≤ a) → t.byte a = s.byte a) ∧
        ∀ j : MfpId, j ≠ m → t.core j = (s.core j).loseRes (key / 64) (key / 64)) ∧
      (r.res ≠ some (key / 64) → ∃ t, Machine.exec (.remoteLoadReturn m k) s = .next t ∧
        t.core m = c.remoteValue r 0 ∧ Only [.cores] s t ∧ ∀ j, j ≠ m.val → t.core j = s.core j))) ∧
  (∀ (c : MfpCore) (lo hi : Nat), (∀ l, (c.loseRes lo hi).res = some l ↔ c.res = some l ∧ (l < lo ∨ hi < l)) ∧
    (c.loseRes lo hi).x = c.x ∧ (c.loseRes lo hi).remotes.map (fun r => (r.kind, r.addr, r.data)) =
      c.remotes.map fun r => (r.kind, r.addr, r.data)) ∧
  (∀ (c : MfpCore) (k : Nat) (r : Remote), c.remotes[k]? = some r →
    (c.turn k = some r ↔ inAperture r.addr = true ∨ ∀ q ∈ c.remotes.take k, inAperture q.addr = true))

/-- A kick reloads the watchdog from PERIOD, 0 as 1. A write of its control is stored and reloads it, unless LOCK is
set. Its expiry, while it counts, resets the MFP: the cause and the PC captured once, the core at its reset values,
the reset counted, and a ring at every other MFP present. A timer expiry reloads the count and fills the capture, or
counts a miss where it is full. A write of the load value starts the timer there. RING adds one to the doorbell
count of each MFP named and no other; naming an absent one fills the capture of absent units. MFP_CTXID is copied to
shared memory's register. Enabling an aperture window gives CODE 1 for a live allocation, 2 for an ID that names
none and 3 for one being zeroed or deleted; disabling gives 0. An absent MFP takes none of these. (R314, R320, R321,
R322, R343, R344, R345, R346) -/
def Obligations.MfpRegisterRows : Prop :=
  (∀ (m : MfpId) (s : State), s.hasMfp m = true →
    (∃ t, Machine.exec (.kick m) s = .next t ∧
      t.rd (MFP.WDT_LEFT.f m) = max 1 (s.rd (MFP.WDT_CTRL_PERIOD.f m)) % 2 ^ 24 ∧ OnlyRegs [(MFP.WDT_LEFT.f m).key] s t) ∧
    (∀ v : Word, (s.flag (MFP.WDT_CTRL_LOCK.f m) = true → Machine.exec (.mfpWdtCtrl m v) s = .next s) ∧
      (s.flag (MFP.WDT_CTRL_LOCK.f m) = false → ∃ t, Machine.exec (.mfpWdtCtrl m v) s = .next t ∧
        t.rd (MFP.WDT_CTRL_PERIOD.f m) = v.toNat % 2 ^ 24 ∧ t.rd (MFP.WDT_CTRL_EN.f m) = v.toNat / 2 ^ 24 % 2 ∧
        t.rd (MFP.WDT_CTRL_RUNHALT.f m) = v.toNat / 2 ^ 25 % 2 ∧ t.rd (MFP.WDT_CTRL_LOCK.f m) = v.toNat / 2 ^ 26 % 2 ∧
        t.rd (MFP.WDT_LEFT.f m) = max 1 (v.toNat % 2 ^ 24) ∧
        OnlyRegs [(MFP.WDT_CTRL_PERIOD.f m).key, (MFP.WDT_CTRL_EN.f m).key, (MFP.WDT_CTRL_RUNHALT.f m).key,
          (MFP.WDT_CTRL_LOCK.f m).key, (MFP.WDT_LEFT.f m).key] s t)) ∧
    (∀ v : Word, ∃ t, Machine.exec (.mfpTmrLoad m v) s = .next t ∧ t.rd (MFP.TMR_LOAD.f m) = v.toNat ∧
      t.rd (MFP.TMR.f m) = v.toNat ∧ OnlyRegs [(MFP.TMR_LOAD.f m).key, (MFP.TMR.f m).key] s t) ∧
    (∃ t, Machine.exec (.tmrRel m) s = .next t ∧ t.flag (MFP.TMR_CAP.f m) = false ∧ OnlyRegs [(MFP.TMR_CAP.f m).key] s t) ∧
    (∃ t, Machine.exec (.rstRel m) s = .next t ∧ t.flag (MFP.RST_FULL.f m) = false ∧ t.rd (MFP.RSTCAP_CAUSE.f m) = 0 ∧
      t.rd (MFP.RSTPC.f m) = 0 ∧
      OnlyRegs [(MFP.RST_FULL.f m).key, (MFP.RSTCAP_CAUSE.f m).key, (MFP.RSTPC.f m).key] s t) ∧
    (∀ mask : BitVec 8, ∃ t, Machine.exec (.ring m mask) s = .next t ∧ Only [.regs] s t ∧
      (∀ j : MfpId, t.rd (MFP.DBCNT.f j) =
        if bitOf mask.toNat j ∧ s.hasMfp j = true then (s.rd (MFP.DBCNT.f j) + 1) % 2 ^ 32 else s.rd (MFP.DBCNT.f j)) ∧
      (if ∃ j : MfpId, bitOf mask.toNat j = true ∧ s.hasMfp j = false then t.flag SYS.HIT.f = true
        else RegsBut (keys 8 [MFP.DBCNT]) s t)) ∧
    (∀ v : Word, ∃ t, Machine.exec (.mfpDback m v) s = .next t ∧ t.rd (MFP.DBACK.f m) = v.toNat ∧
      OnlyRegs [(MFP.DBACK.f m).key] s t) ∧
    (∀ v : Word, ∃ t, Machine.exec (.mfpCtxid m v) s = .next t ∧ t.rd (MFP.CTXID.f m) = v.toNat ∧
      t.rd (SHM.CTXID.f m) = v.toNat ∧ OnlyRegs [(MFP.CTXID.f m).key, (SHM.CTXID.f m).key] s t) ∧
    (∀ (w : Fin 8) (v : BitVec 2), ∃ t, Machine.exec (.mfpApCtrl m w v) s = .next t ∧
      (v.toNat % 2 = 0 → t.rd (MFP.AP_STAT_CODE.f m w) = 0) ∧
      (v.toNat % 2 = 1 → s.alloc? (s.rd (MFP.AP_ID.f m w)) = none → t.rd (MFP.AP_STAT_CODE.f m w) = 2) ∧
      (∀ a, v.toNat % 2 = 1 → s.alloc? (s.rd (MFP.AP_ID.f m w)) = some a →
        ((a.st = 5 ∨ a.st = 6) → t.rd (MFP.AP_STAT_CODE.f m w) = 3) ∧
        (a.st ≠ 5 → a.st ≠ 6 →
          t.rd (MFP.AP_STAT_CODE.f m w) = 1 ∧ (useAperture m w, s.rd (MFP.AP_ID.f m w)) ∈ t.uses)) ∧
      t.rd (MFP.AP_CTRL.f m w) = v.toNat)) ∧
  (∀ (m : MfpId) (s : State), s.hasMfp m = false → ∀ c ∈ [Instr.kick m, .tmrRel m, .rstRel m],
    Machine.exec c s = .next s) ∧
  (∀ (m : MfpId) (s : State),
    (s.wdtCounts m = true → ∃ t, Machine.exec (.watchdogExpiry m) s = .next t ∧ MfpWasReset m 1 s t) ∧
    (s.wdtCounts m = false → Machine.exec (.watchdogExpiry m) s = .next s) ∧
    (s.rd (MFP.TMR_LOAD.f m) ≠ 0 → s.rd (MFP.TMR_LOAD.f m) < 2 ^ 32 →
      ∃ t, Machine.exec (.timerExpiry m) s = .next t ∧ t.rd (MFP.TMR.f m) = s.rd (MFP.TMR_LOAD.f m) ∧
        t.flag (MFP.TMR_CAP.f m) = true ∧
        t.rd (MFP.TMR_MISS.f m) = min (2 ^ 32 - 1) (s.rd (MFP.TMR_MISS.f m) + b2n (s.flag (MFP.TMR_CAP.f m))) ∧
        OnlyRegs [(MFP.TMR.f m).key, (MFP.TMR_CAP.f m).key, (MFP.TMR_MISS.f m).key] s t))

/-- HOLD = 1 is stored, and with it, with RST, or out of LOADED the ring engages and HELD is set. HOLD = 0 opens
only in LOADED, and releases a load's reset; in another state HOLD reads 1. HELD clears only where nothing wants the
ring. CNV_PORTn stores its fields; a channel whose owner is IDLE, or that has none, takes INJSRC at once with its
FIFO emptied if the code is new, another keeps it pending. Bytes presented by the region that INJSRC names enter the
FIFO up to 64; a code that names no region, or a bay whose ring is engaged, takes none. The REL bits empty their
captures. The scrubber reads frames of types 0 and 2 of the static region and of LOADED bays whose dynamic bit is
clear, in its order, and after the last one counts a pass. It corrects a single-bit frame and counts it; a multi-bit
frame is rewritten from the half in force, counted and captured with KIND 0, or where that returns poison is
captured with KIND 1 and a bay becomes INCOMPLETE; while the golden copy cannot be read it waits. Every other frame
is left alone. (R351, R353, R357, R358, R362, R363, R364, R366, R372, R373) -/
def Obligations.BaysPortsAndScrubbing : Prop :=
  (∀ (b : Bay) (s : State), s.openTo 12 .cnv = true →
    (∃ t, Machine.exec (.hold b) s = .next t ∧ t.flag (CNV.HOLD.f b) = true ∧ OnlyRegs [(CNV.HOLD.f b).key] s t) ∧
    (s.rd (CNV.BAY_STAT_BSTATE.f b) = 1 → ∃ t, Machine.exec (.ringOpen b) s = .next t ∧
      t.flag (CNV.HOLD.f b) = false ∧ t.flag (CNV.LOADRST.f b) = false ∧
      OnlyRegs [(CNV.HOLD.f b).key, (CNV.LOADRST.f b).key] s t) ∧
    (s.rd (CNV.BAY_STAT_BSTATE.f b) ≠ 1 → ∃ t, Machine.exec (.ringOpen b) s = .next t ∧
      t.flag (CNV.HOLD.f b) = true ∧ OnlyRegs [(CNV.HOLD.f b).key] s t) ∧
    (∀ on, ∃ t, Machine.exec (.bayRst b on) s = .next t ∧ t.flag (CNV.RST.f b) = on ∧ OnlyRegs [(CNV.RST.f b).key] s t)) ∧
  (∀ (b : Bay) (s : State),
    let wanted := s.flag (CNV.HOLD.f b) = true ∨ s.flag (CNV.RST.f b) = true ∨ s.rd (CNV.BAY_STAT_BSTATE.f b) ≠ 1
    (wanted → (∃ t, Machine.exec (.ringEngaged b) s = .next t ∧ t.flag (CNV.HELD.f b) = true ∧
        OnlyRegs [(CNV.HELD.f b).key] s t) ∧ Machine.exec (.ringOpened b) s = .next s) ∧
    (¬wanted → (∃ t, Machine.exec (.ringOpened b) s = .next t ∧ t.flag (CNV.HELD.f b) = false ∧
        OnlyRegs [(CNV.HELD.f b).key] s t) ∧ Machine.exec (.ringEngaged b) s = .next s)) ∧
  (∀ (s : State), s.openTo 12 .cnv = true →
    (∃ t, Machine.exec .icfpRel s = .next t ∧ t.flag CNV.ICFP_FULL.f = false ∧ t.rd CNV.ICFP_CAP_CAUSE.f = 0 ∧
      t.rd CNV.ICFP_CAP_REGION.f = 0 ∧
      OnlyRegs [CNV.ICFP_FULL.f.key, CNV.ICFP_CAP_CAUSE.f.key, CNV.ICFP_CAP_REGION.f.key] s t) ∧
    (∃ t, Machine.exec .injRel s = .next t ∧ t.flag CNV.INJ_FULL.f = false ∧ t.rd CNV.INJ_CAP_CH.f = 0 ∧
      t.rd CNV.INJ_CNT.f = 0 ∧ OnlyRegs [CNV.INJ_FULL.f.key, CNV.INJ_CAP_CH.f.key, CNV.INJ_CNT.f.key] s t) ∧
    (∃ t, Machine.exec .upsetRel s = .next t ∧ t.flag CNV.UPSET_FULL.f = false ∧ t.rd CNV.UPSET_CAP.f = 0 ∧
      t.rd CNV.UPSET_KIND.f = 0 ∧ OnlyRegs [CNV.UPSET_FULL.f.key, CNV.UPSET_CAP.f.key, CNV.UPSET_KIND.f.key] s t)) ∧
  (∀ (c : Channel) (v : Word) (s : State), s.openTo 12 .cnv = true →
    let src := v.toNat / 2 ^ 8 % 32
    let idle := ∀ q, s.ownerOf c = some q → s.rd (TWL.STATE_STATE.f q) = 0
    ∃ t, Machine.exec (.cnvPort c v) s = .next t ∧ t.rd (CNV.PORT_TAPDST.f c) = v.toNat % 32 ∧
      t.rd (CNV.PORT_ICONST.f c) = v.toNat / 2 ^ 16 % 256 ∧ t.rd (CNV.PORT_INJSRC.f c) = src ∧
      (idle → t.flag (CNV.PORT_INJ_PEND.f c) = false ∧ t.rd (CNV.INJ_ACT.f c) = src ∧
        (s.rd (CNV.INJ_ACT.f c) = src → t.inj = s.inj) ∧ (s.rd (CNV.INJ_ACT.f c) ≠ src → t.inj.get c [] = [])) ∧
      (¬idle → t.flag (CNV.PORT_INJ_PEND.f c) = true ∧ t.rd (CNV.INJ_ACT.f c) = s.rd (CNV.INJ_ACT.f c) ∧ t.inj = s.inj) ∧
      (∀ j, j ≠ c.val → t.inj.get j [] = s.inj.get j []) ∧ Only [.regs, .inj] s t ∧
      RegsBut [(CNV.PORT_TAPDST.f c).key, (CNV.PORT_ICONST.f c).key, (CNV.PORT_INJSRC.f c).key,
        (CNV.PORT_INJ_PEND.f c).key, (CNV.INJ_ACT.f c).key] s t) ∧
  (∀ (c : Channel) (bytes : List Byte) (s : State),
    (s.tapReaches (s.rd (CNV.INJ_ACT.f c)) = false → Machine.exec (.injectionPortInput c bytes) s = .next s) ∧
    (∀ q, s.tapReaches (s.rd (CNV.INJ_ACT.f c)) = true → bytes.length ≤ 8 → s.ownerOf c = some q →
      s.tab TWL.src q (s.rd (TWL.OWN_COL.f c)) % 4 = 2 → (s.inj.get c []).length ≤ 64 →
      ∃ t, Machine.exec (.injectionPortInput c bytes) s = .next t ∧
        t.inj.get c [] = (s.inj.get c [] ++ bytes.map BitVec.toNat).take 64 ∧
        (∀ j, j ≠ c.val → t.inj.get j [] = s.inj.get j []) ∧ Only [.inj] s t)) ∧
  (∀ (g : BitVec 5) (n : BitVec 27) (x : ScrubResult) (s : State), frameOf (g.toNat * 2 ^ 27 + n.toNat) = none →
    Machine.exec (.scrubFrame g n x) s = .next s) ∧
  (∀ (g : BitVec 5) (n : BitVec 27) (s : State) (r f : Nat),
    let a := g.toNat * 2 ^ 27 + n.toNat
    frameOf a = some (r, f) →
    let p := scrubPlace r f
    let at' := fun (u : State) (q : Nat) => u.scrubReads (scrubAt q).1 (scrubAt q).2
    let visits := s.flag CNV.SCRUB_EN.f = true ∧ s.gated .cnv = false ∧ (r = 16 ∨ s.rd (CNV.BAY_STAT_BSTATE.f r) = 1) ∧
      bits a 24 3 ≠ 1 ∧ s.dynamicBit r f = false ∧ s.rd CNV.SCRUB_POS.f ≤ p ∧
      ∀ q, s.rd CNV.SCRUB_POS.f ≤ q → q < p → at' s q = false
    let goesOn := fun (t : State) =>
      ((∀ q, p < q → q < 544000 → at' t q = false) →
        t.rd CNV.SCRUB_PASS.f = (s.rd CNV.SCRUB_PASS.f + 1) % 2 ^ 32 ∧ t.rd CNV.SCRUB_POS.f = 0) ∧
      ((∃ q, p < q ∧ q < 544000 ∧ at' t q = true) → Same [CNV.SCRUB_PASS.f] s t ∧ t.rd CNV.SCRUB_POS.f = p + 1)
    let keys' := [CNV.SCRUB_PASS.f.key, CNV.SCRUB_POS.f.key]
    (¬ visits → ∀ x, Machine.exec (.scrubFrame g n x) s = .next s) ∧
    (visits →
      (∃ t, Machine.exec (.scrubFrame g n .clean) s = .next t ∧ goesOn t ∧ OnlyRegs keys' s t) ∧
      (∃ t, Machine.exec (.scrubFrame g n .single) s = .next t ∧ goesOn t ∧
        t.rd CNV.SCRUB_CE.f = min (s.rd CNV.SCRUB_CE.f + 1) (2 ^ 32 - 1) ∧ t.raised = s.raised ++ [(1624, s.time)] ∧
        Only [.regs, .raised] s t ∧ RegsBut (CNV.SCRUB_CE.f.key :: keys') s t) ∧
      (s.scrubWaits r f .multi = true → Machine.exec (.scrubFrame g n .multi) s = .next s) ∧
      (∀ v, s.scrubWaits r f .multi = false → s.goldRead r (s.halfOf r) f = some v →
        ∃ t, Machine.exec (.scrubFrame g n .multi) s = .next t ∧ goesOn t ∧
          (∀ i, i < 384 → t.byte (fabricKey r f + i) = BitVec.ofNat 8 (v / 256 ^ i)) ∧
          (∀ k, (k < fabricKey r f ∨ fabricKey r f + 384 ≤ k) → t.byte k = s.byte k) ∧
          t.rd CNV.SCRUB_ME.f = min (s.rd CNV.SCRUB_ME.f + 1) (2 ^ 32 - 1) ∧ t.flag CNV.UPSET_FULL.f = true ∧
          (s.flag CNV.UPSET_FULL.f = false → t.rd CNV.UPSET_CAP.f = a ∧ t.rd CNV.UPSET_KIND.f = 0) ∧
          t.raised = s.raised ++ [(1625, s.time)] ∧ Only [.regs, .mem, .raised] s t ∧
          RegsBut ([CNV.SCRUB_ME.f.key, CNV.UPSET_FULL.f.key, CNV.UPSET_CAP.f.key, CNV.UPSET_KIND.f.key] ++ keys') s t) ∧
      (s.scrubWaits r f .multi = false → s.goldRead r (s.halfOf r) f = none →
        ∃ t, Machine.exec (.scrubFrame g n .multi) s = .next t ∧ goesOn t ∧ t.flag CNV.UPSET_FULL.f = true ∧
          (s.flag CNV.UPSET_FULL.f = false → t.rd CNV.UPSET_CAP.f = a ∧ t.rd CNV.UPSET_KIND.f = 1) ∧
          (r < 16 → t.rd (CNV.BAY_STAT_BSTATE.f r) = 3 ∧ t.flag (CNV.HOLD.f r) = true ∧ t.flag (CNV.LOADRST.f r) = true) ∧
          (∀ j, j < 16 → j ≠ r → Same [CNV.BAY_STAT_BSTATE.f j, CNV.HOLD.f j, CNV.LOADRST.f j] s t) ∧ Only [.regs] s t)))

/-- A stream whose first word names no bay, or that begins during a load, is refused: its failure is captured with
cause 3 and the running load and every bay stand. Any other begins a load. With the header complete, a failed check
ends it with cause 2, the bay unchanged. A cycle without a valid word, or with one that the port cannot take, moves
nothing but ICFP_OK and ICFP_ERR. With the payload word that completes a frame: in tag mode a frame of the named bay
is staged in the other half and the fabric stands; another frame ends the load with cause 1, the bay unchanged, and
a golden copy that refuses it with cause 5; in CRC mode a frame engages the ring and is written to the fabric at
once. A record that does not fit ends a tag load with cause 2 and spoils a CRC load; END holds the CRC of what
stands before it. A segment's tag that does not verify ends a tag load with cause 2. With the whole stream taken and
its check passed, a tag load engages the ring with the logic in reset and BSTATE LOADING; its end copies the staged
frames, changes HALF and leaves the bay LOADED. The end of a CRC load leaves the bay LOADED where the check passed
and no frame was refused, else INCOMPLETE with HALF as it was. ICFP_ABORT ends a load with cause 4, unless the tag
has verified. That a CRC load goes on after a frame that it refused, and what a malformed record does, are the
model's reading (log entry 60). (R368, R369, R370, R371, R379, R380, R390, R394) -/
def Obligations.PartialLoadsOfABay : Prop :=
  (∀ (start : Bool) (w : Word) (s : State), ∃ t, Machine.exec (.icfpWord start w false) s = .next t ∧ t.rd CNV.ICFP_SIG.f = 0 ∧
    OnlyRegs [CNV.ICFP_SIG.f.key] s t) ∧
  (∀ (w : Word) (s : State),
    ((s.flag CNV.ICFP_BUSY.f = true ∨ s.flag CFG.BUSY.f = true ∨ 16 ≤ w.toNat % 32) →
      ∃ t, Machine.exec (.icfpWord true w) s = .next t ∧ IcfpCaught 3 (w.toNat % 32) s t ∧
        OnlyRegs [CNV.ICFP_FULL.f.key, CNV.ICFP_CAP_CAUSE.f.key, CNV.ICFP_CAP_REGION.f.key, CNV.ICFP_SIG.f.key] s t) ∧
    (s.flag CNV.ICFP_BUSY.f = false → s.flag CFG.BUSY.f = false → w.toNat % 32 < 16 →
      ∃ t, Machine.exec (.icfpWord true w) s = .next t ∧ t.flag CNV.ICFP_BUSY.f = true ∧ t.rd CNV.ICFP_POS.f = 1 ∧
        t.rd CNV.ICFP_REGION.f = w.toNat % 16 ∧ t.tab CNV.hdr 0 0 = w.toNat ∧
        Same (bayFlds (w.toNat % 16)) s t ∧ Only [.regs, .tabs] s t)) ∧
  (∀ (b : Bay) (w : Word) (s : State), s.flag CNV.ICFP_BUSY.f = true → s.rd CNV.ICFP_REGION.f = b →
    (∀ i, s.rd CNV.ICFP_POS.f = i → i < 63 → ∃ t, Machine.exec (.icfpWord false w) s = .next t ∧
      t.tab CNV.hdr 0 i = w.toNat ∧ t.rd CNV.ICFP_POS.f = i + 1 ∧
      OnlyRegsTabs [CNV.ICFP_POS.f.key, CNV.ICFP_SIG.f.key] [CNV.hdr.key 0 i] s t) ∧
    (s.rd CNV.ICFP_POS.f = 63 → s.rd (CNV.BAY_STAT_BSTATE.f b) ≠ 2 →
      let h := s.tab CNV.hdr 0
      let fits := headerFits h = true ∧ keyUnwraps h = true ∧ (bitOf (h 1) 9 = true ∨ s.flag CFG.FUSE_AUTH_ONLY.f = false)
      ∃ t, Machine.exec (.icfpWord false w) s = .next t ∧ Same (bayFlds b) s t ∧
        (fits → t.flag CNV.ICFP_BUSY.f = true ∧ t.rd CNV.ICFP_POS.f = 64) ∧
        (¬fits → t.flag CNV.ICFP_BUSY.f = false ∧ IcfpCaught 2 b s t)) ∧
    (s.icfpReady = false → ∃ t, Machine.exec (.icfpWord false w) s = .next t ∧ OnlyRegs [CNV.ICFP_SIG.f.key] s t)) ∧
  (∀ (b : Bay) (w : Word) (s : State) (i k : Nat), IcfpMay s b i k →
    let e := Machine.exec (.icfpWord false w) s
    let u := s.icfpStored i k w.toNat
    let n := 16380 * i + k + 1
    let r := s.rd CNV.ICFP_REC.f
    (∀ a v, u.icfpFrameAt n = some (a, v) →
      (s.icfpTag = true →
        (∀ f x, frameOf a = some (b.val, f) → u.goldWrite b (1 - u.halfOf b) f v = some x →
          ∃ t, e = .next t ∧ t.tab CNV.staged 0 f = 1 ∧ t.mem = x.mem ∧ Same (bayFlds b) x t ∧
            t.flag CNV.ICFP_BUSY.f = x.flag CNV.ICFP_BUSY.f ∧ ∀ k, k < 2 ^ 48 → t.byte k = s.byte k) ∧
        ((∀ f, frameOf a ≠ some (b.val, f)) → s.rd (CNV.BAY_STAT_BSTATE.f b) ≠ 2 →
          ∃ t, e = .next t ∧ t.flag CNV.ICFP_BUSY.f = false ∧ IcfpCaught 1 b s t ∧ Same (bayFlds b) s t ∧ t.mem = s.mem) ∧
        (∀ f, frameOf a = some (b.val, f) → u.goldWrite b (1 - u.halfOf b) f v = none → s.rd (CNV.BAY_STAT_BSTATE.f b) ≠ 2 →
          ∃ t, e = .next t ∧ t.flag CNV.ICFP_BUSY.f = false ∧ IcfpCaught 5 b s t ∧ Same (bayFlds b) s t ∧ t.mem = s.mem)) ∧
      (s.icfpTag = false →
        (∀ f, frameOf a = some (b.val, f) → ∃ t, e = .next t ∧ t.rd (CNV.BAY_STAT_BSTATE.f b) = 2 ∧
          (∀ i, i < 384 → t.byte (fabricKey b f + i) = BitVec.ofNat 8 (v / 256 ^ i)) ∧
          ∀ k, k < 2 ^ 48 → (k < fabricKey b f ∨ fabricKey b f + 384 ≤ k) → t.byte k = s.byte k) ∧
        ((∀ f, frameOf a ≠ some (b.val, f)) → ∃ t, e = .next t ∧ t.mem = s.mem ∧
          t.rd (CNV.BAY_STAT_BSTATE.f b) = 2 ∧ t.rd CNV.ICFP_BAD.f ≠ 0 ∧ t.flag CNV.ICFP_BUSY.f = true))) ∧
    (((n = r + 2 ∧ u.icfpHeadOk r = false) ∨
        (n = r + 4 ∧ u.icfpPayload r ≠ 15 ∧ frameCountOk (u.icfpPayload (r + 3)) (u.icfpPayload (r + 1)) = false)) →
      (s.icfpTag = true → s.rd (CNV.BAY_STAT_BSTATE.f b) ≠ 2 →
        ∃ t, e = .next t ∧ t.flag CNV.ICFP_BUSY.f = false ∧ IcfpCaught 2 b s t ∧ Same (bayFlds b) s t ∧ t.mem = s.mem) ∧
      (s.icfpTag = false → ∃ t, e = .next t ∧ t.rd CNV.ICFP_END.f = 2 ∧ Same (bayFlds b) s t ∧ Only [.regs, .tabs] s t)) ∧
    (n = r + 3 → u.icfpPayload r = 15 → ∃ t, e = .next t ∧ Only [.regs, .tabs] s t ∧ Same (bayFlds b) s t ∧
      t.rd CNV.ICFP_END.f = if u.icfpPayload (r + 2) = crc32 (u.icfpBytes 0 (r + 2)) then 1 else 2)) ∧
  (∀ (b : Bay) (w : Word) (s : State) (i : Nat), s.flag CNV.ICFP_BUSY.f = true → s.rd CNV.ICFP_REGION.f = b →
    s.rd CNV.ICFP_POS.f = 64 → s.icfpReady = true → s.icfpSegWords i + 3 < 16384 →
    s.rd CNV.ICFP_N.f = 16384 * i + s.icfpSegWords i + 3 → s.rd CNV.ICFP_N.f + 1 < s.icfpTotal →
    let u := s.setTab CNV.seg 0 (s.icfpSegWords i + 3) w.toNat
    ((s.icfpTag = false ∨ u.segVerifies i = true) → ∃ t, Machine.exec (.icfpWord false w) s = .next t ∧
      t.rd CNV.ICFP_TAG.f = u.segCarried i ∧ Same (bayFlds b) s t ∧ Only [.regs, .tabs] s t) ∧
    (s.icfpTag = true → u.segVerifies i = false → s.rd (CNV.BAY_STAT_BSTATE.f b) ≠ 2 →
      ∃ t, Machine.exec (.icfpWord false w) s = .next t ∧ t.flag CNV.ICFP_BUSY.f = false ∧ IcfpCaught 2 b s t ∧
        Same (bayFlds b) s t ∧ t.mem = s.mem)) ∧
  (∀ (b : Bay) (s : State), (s.icfpEnded = false ∨ s.rd CNV.ICFP_REGION.f ≠ b) → Machine.exec (.tagVerified b) s = .next s) ∧
  (∀ (b : Bay) (s : State), s.rd CNV.ICFP_REGION.f = b →
    (s.icfpEnded = true → s.icfpTag = true →
      (s.icfpGood = true → ∃ t, Machine.exec (.tagVerified b) s = .next t ∧ t.rd (CNV.BAY_STAT_BSTATE.f b) = 2 ∧
        t.flag (CNV.HOLD.f b) = true ∧ t.flag (CNV.LOADRST.f b) = true ∧ t.flag CNV.ICFP_WRITING.f = true ∧
        t.rd CNV.ICFP_OUT.f = 1 ∧ OnlyRegs [CNV.ICFP_OUT.f.key, CNV.ICFP_WRITING.f.key, (CNV.HOLD.f b).key,
          (CNV.LOADRST.f b).key, (CNV.BAY_STAT_BSTATE.f b).key] s t) ∧
      (s.icfpGood = false → s.rd (CNV.BAY_STAT_BSTATE.f b) ≠ 2 → ∃ t, Machine.exec (.tagVerified b) s = .next t ∧
        t.flag CNV.ICFP_BUSY.f = false ∧ IcfpCaught 2 b s t ∧ Same (bayFlds b) s t ∧ t.mem = s.mem)) ∧
    (s.icfpEnded = true → s.icfpTag = false → ∃ t, Machine.exec (.tagVerified b) s = .next t ∧
      t.rd CNV.ICFP_OUT.f = (if s.icfpGood = true then 1 else 2) ∧ OnlyRegs [CNV.ICFP_OUT.f.key] s t)) ∧
  (∀ (b : Bay) (s : State), s.rd CNV.ICFP_REGION.f = b →
    ((s.rd CNV.ICFP_OUT.f = 0 ∨ (s.icfpTag = true ∧ s.stagedWait = true)) → Machine.exec .partialLoadEnd s = .next s) ∧
    (s.rd CNV.ICFP_OUT.f ≠ 0 → s.icfpTag = true → s.stagedWait = false →
      (∀ u, s.copyStaged b (s.listed CNV.staged 0) = some u → ∃ t, Machine.exec .partialLoadEnd s = .next t ∧
        t.mem = u.mem ∧ t.rd (CNV.BAY_STAT_BSTATE.f b) = 1 ∧ t.flag (CNV.HALF.f b) = !s.flag (CNV.HALF.f b) ∧
        t.flag CNV.ICFP_BUSY.f = false ∧ t.rd CNV.ICFP_SIG.f = 1 ∧ (1631, s.time) ∈ t.raised) ∧
      (s.copyStaged b (s.listed CNV.staged 0) = none → s.rd (CNV.BAY_STAT_BSTATE.f b) = 2 →
        ∃ t, Machine.exec .partialLoadEnd s = .next t ∧ t.rd (CNV.BAY_STAT_BSTATE.f b) = 3 ∧ t.flag CNV.ICFP_BUSY.f = false ∧
          IcfpCaught 5 b s t ∧ Same [CNV.HALF.f b] s t)) ∧
    (s.rd CNV.ICFP_OUT.f = 1 → s.icfpTag = false → s.rd CNV.ICFP_BAD.f = 0 →
      ∃ t, Machine.exec .partialLoadEnd s = .next t ∧ t.rd (CNV.BAY_STAT_BSTATE.f b) = 1 ∧
        t.flag (CNV.HALF.f b) = !s.flag (CNV.HALF.f b) ∧ t.flag CNV.ICFP_BUSY.f = false ∧
        t.raised = s.raised ++ [(1631, s.time)] ∧ t.mem = s.mem) ∧
    (s.rd CNV.ICFP_OUT.f ≠ 0 → s.icfpTag = false → (s.rd CNV.ICFP_OUT.f = 2 ∨ s.rd CNV.ICFP_BAD.f ≠ 0) →
      s.rd (CNV.BAY_STAT_BSTATE.f b) = 2 →
      ∃ t, Machine.exec .partialLoadEnd s = .next t ∧ t.rd (CNV.BAY_STAT_BSTATE.f b) = 3 ∧ t.rd CNV.ICFP_SIG.f = 2 ∧
        Same [CNV.HALF.f b] s t ∧ t.flag CNV.ICFP_BUSY.f = false ∧ t.mem = s.mem ∧
        (s.rd CNV.ICFP_BAD.f < 8 → IcfpCaught (if s.rd CNV.ICFP_BAD.f = 0 then 2 else s.rd CNV.ICFP_BAD.f) b s t))) ∧
  (∀ (b : Bay) (s : State), s.openTo 12 .cnv = true → s.rd CNV.ICFP_REGION.f = b →
    ((s.flag CNV.ICFP_BUSY.f = false ∨ s.flag CNV.ICFP_WRITING.f = true) → Machine.exec .icfpAbort s = .next s) ∧
    (s.flag CNV.ICFP_BUSY.f = true → s.flag CNV.ICFP_WRITING.f = false →
      ∃ t, Machine.exec .icfpAbort s = .next t ∧ t.flag CNV.ICFP_BUSY.f = false ∧ IcfpCaught 4 b s t ∧ t.mem = s.mem ∧
        t.rd (CNV.BAY_STAT_BSTATE.f b) = if s.rd (CNV.BAY_STAT_BSTATE.f b) = 2 then 3 else s.rd (CNV.BAY_STAT_BSTATE.f b)))

/-- A cold start keeps DRAM bytes and nothing else of memory, drives DONE low, empties the directory of allocations,
and goes to step 2, waits at step 1 for the self-test of a NOT_RUN record, or ends in SAFEHOLD at a FAILED one. No
valid directory copy ends in SAFEHOLD with cause 1, a valid one leads to step 3; a header that passes leads to step
4. A segment whose tag does not verify in tag mode fails with cause 5; else its payload is kept, decrypted where the
header says so. A failure at steps 3 to 5 is captured, clears the fabric, IMEM and DMEM and goes to the next slot,
or after the last to SAFEHOLD. A record is taken only where the payload that has arrived spells it at the place
reached. A WRITE record only stages its pairs. FRAMES writes exactly its frames, once each. IMEM and DMEM write
exactly their bytes, those of an absent MFP none. A record that breaks R380 fails with cause 7. END fails with 7
beside PAY_LEN, 6 on a CRC mismatch, 7 on an incomplete region; else exactly the bays that the image wrote are
LOADED and open, the staged pairs are applied in order, and step 6 awaits; a pair that ends with a bus error fails
with cause 12. (R377, R378, R380, R381, R382, R387, R517, R522) -/
def Obligations.AnImageIsReadAndChecked : Prop :=
  (∀ (ma ao : Bool) (mac : BitVec 48) (ser : BitVec 64) (led : List LedgerBlock) (h : Option (Fin 16)) (s : State),
    (s.flag PWR.VAON.f = false → Machine.exec (.coldStart ma ao mac ser led h) s = .next s) ∧
    (s.flag PWR.VAON.f = true → ∃ t, Machine.exec (.coldStart ma ao mac ser led h) s = .next t ∧
      t.flag CFG.MASTER.f = ma ∧ t.flag CFG.FUSE_AUTH_ONLY.f = ao ∧ t.rd CFG.STATE_START.f = 0 ∧
      t.flag CFG.DONE_DRV.f = true ∧ t.flag PWR.EN_MAIN.f = true ∧ t.dir = [] ∧ t.cores = [] ∧ t.runs = [] ∧
      (∀ k, t.byte k = if 2 ^ 48 ≤ k then s.byte k else 0) ∧ t.opt = s.opt ∧ t.pending = s.pending ∧
      (t.bstNotRun = true → t.rd CFG.STATE_STEP.f = 1) ∧
      (t.bstNotRun = false → t.tab LDG.sram 0 (0x800 + 8 * t.rd LDG.BST_HEAD.f) % 4 = 1 →
        t.rd CFG.STATE_STEP.f = 11 ∧ t.flag CFG.SAFEHOLD.f = true) ∧
      (t.bstNotRun = false → t.tab LDG.sram 0 (0x800 + 8 * t.rd LDG.BST_HEAD.f) % 4 ≠ 1 →
        t.rd CFG.STATE_STEP.f = 2 ∧ t.flag CFG.SAFEHOLD.f = false) ∧
      (s.tab LDG.sram 0 0 ≠ ledgerMagic → (∀ b ∈ led, blockVerifies b = false) → t.flag LDG.FRESH.f = true))) ∧
  (∀ (s : State), s.dieOn = true → s.flag CFG.BUSY.f = true → s.rd PWR.STBY_HELD.f = 0 → s.rd CFG.TRY.f < 3 →
    let k := s.rd CFG.STATE_STEP.f
    (2 ≤ k → k ≤ 5 → ∃ t, Machine.exec (.segmentRead .noAnswer) s = .next t ∧ LoadFailed 8 s.segAt s t) ∧
    (k = 4 → s.recordBad = true → ∃ t, Machine.exec (.segmentRead .malformed) s = .next t ∧ LoadFailed 7 s.segAt s t) ∧
    (k = 4 → s.recordBad = false → Machine.exec (.segmentRead .malformed) s = .next s) ∧
    (∀ id mib a b, k = 2 → ∃ t, Machine.exec (.segmentRead (.directory id mib a b)) s = .next t ∧
      (dirChoose (wordOf a) (wordOf b) = none → t.flag CFG.SAFEHOLD.f = true ∧ CfgCaught 1 3 0 s t) ∧
      (∀ w, dirChoose (wordOf a) (wordOf b) = some w → t.rd CFG.STATE_STEP.f = 3 ∧ t.rd CFG.TRY.f = 0 ∧
        (∀ i, i < 16 → t.tab CFG.dirw 0 i = w i) ∧ t.mem = s.mem)) ∧
    (∀ l, k = 3 → ∃ t, Machine.exec (.segmentRead (.header l)) s = .next t ∧
      (∀ c, s.headerFault (wordOf l) = some c → LoadFailed c 0 s t) ∧
      (s.headerFault (wordOf l) = none → t.rd CFG.STATE_STEP.f = 4 ∧ (∀ i, i < 64 → t.tab CFG.hdr 0 i = wordOf l i) ∧
        t.mem = s.mem)) ∧
    (∀ ws : List Word, k = 4 →
      let i := s.rd CFG.SEGS.f
      let n := segBytes s.payLen i
      let l := leBytes (ws.map BitVec.toNat)
      let tag := ofBe ((List.range 16).map fun j => l.getD (n + j) 0)
      let bad := s.tagMode = true ∧ tag ≠ segTag s.imageHdr i (s.rd CFG.SEG_TAG.f) (l.take n)
      (segmentsOf s.payLen ≤ i → Machine.exec (.segmentRead (.segment ws)) s = .next s) ∧
      (i < segmentsOf s.payLen → bad → ∃ t, Machine.exec (.segmentRead (.segment ws)) s = .next t ∧ LoadFailed 5 i s t) ∧
      (i < segmentsOf s.payLen → i + 1 < 2 ^ 24 → ¬ bad → n ≤ 4 * ws.length →
        ∃ t, Machine.exec (.segmentRead (.segment ws)) s = .next t ∧
          t.rd CFG.SEGS.f = i + 1 ∧ t.rd CFG.SEG_TAG.f = tag ∧
          (∀ j, j < n → t.payByte (65520 * i + j) = (segPayload s.imageHdr i (l.take n)).getD j 0) ∧
          Only [.regs, .tabs] s t ∧ RegsBut [CFG.SEGS.f.key, CFG.SEG_TAG.f.key] s t))) ∧
  (∀ (s : State), s.rd PWR.STBY_HELD.f = 0 → s.rd CFG.TRY.f < 3 → s.payLen < 2 ^ 32 →
    let p := s.rd CFG.POS.f
    let next := fun (typ : Nat) (body : List Nat) => s.recordNext (recordHead typ body.length ++ body) = true
    (∀ pairs : List (Word × Word),
      let body := wordsBytes (pairs.flatMap fun x => [x.1, x.2])
      let fits := (∀ x ∈ pairs, pairAddrOk x.1.toNat = true) ∧ s.rd CFG.PAIRS.f + pairs.length ≤ 8192
      (¬ next 1 body → Machine.exec (.writeRecord pairs) s = .next s) ∧
      (next 1 body → fits →
        ∃ t, Machine.exec (.writeRecord pairs) s = .next t ∧ t.rd CFG.PAIRS.f = s.rd CFG.PAIRS.f + pairs.length ∧
          t.rd CFG.POS.f = p + 8 + 8 * pairs.length ∧
          (∀ i x, pairs[i]? = some x → t.tab CFG.staged 0 (2 * (s.rd CFG.PAIRS.f + i)) = x.1.toNat ∧
            t.tab CFG.staged 0 (2 * (s.rd CFG.PAIRS.f + i) + 1) = x.2.toNat) ∧
          Only [.regs, .tabs] s t ∧ RegsBut [CFG.PAIRS.f.key, CFG.POS.f.key, CFG.CRC.f.key] s t) ∧
      (next 1 body → ¬ fits → ∃ t, Machine.exec (.writeRecord pairs) s = .next t ∧ LoadFailed 7 s.segAt s t)) ∧
    (∀ (addr : BitVec 32) (fs : List (BitVec 3072)),
      let body := natBytes addr.toNat 4 ++ natBytes fs.length 4 ++ fs.flatMap fun d => natBytes d.toNat 384
      (¬ next 2 body → Machine.exec (.frames addr fs) s = .next s) ∧
      (next 2 body → (fs = [] ∨ 2 ^ 24 < bits addr.toNat 0 24 + fs.length ∨ frameOf addr.toNat = none) →
        ∃ t, Machine.exec (.frames addr fs) s = .next t ∧ LoadFailed 7 s.segAt s t) ∧
      ∀ g f : Nat, next 2 body → fs ≠ [] → bits addr.toNat 0 24 + fs.length ≤ 2 ^ 24 → frameOf addr.toNat = some (g, f) →
        (frameOf (addr.toNat + (fs.length - 1)) = some (g, f + (fs.length - 1)) →
          (∀ i, i < fs.length → s.tab CFG.seen g (f + i) = 0) →
          ∃ t, Machine.exec (.frames addr fs) s = .next t ∧ t.rd CFG.POS.f = p + 16 + 384 * fs.length ∧
            (∀ i d, fs[i]? = some d → t.tab CFG.seen g (f + i) = 1 ∧
              ∀ j, j < 384 → t.byte (fabricKey g (f + i) + j) = BitVec.ofNat 8 (d.toNat / 256 ^ j)) ∧
            (∀ k, (k < fabricKey g f ∨ fabricKey g (f + fs.length) ≤ k) → t.byte k = s.byte k) ∧
            Only [.regs, .tabs, .mem] s t) ∧
        (s.tab CFG.seen g f ≠ 0 → ∃ t, Machine.exec (.frames addr fs) s = .next t ∧ LoadFailed 7 s.segAt s t)) ∧
    (∀ x ∈ [(3, 0x01000000, 0x40000, 8, Instr.imem), (4, 0x02000000, 0x80000, 4, Instr.dmem)],
      ∀ (m : MfpId) (off : Word) (data : List Word),
      let body := natBytes m 4 ++ wordsBytes (off :: data)
      let e := Machine.exec (x.2.2.2.2 m off data) s
      (¬ next x.1 body → e = .next s) ∧
      (next x.1 body → off.toNat % x.2.2.2.1 = 0 → off.toNat + 4 * data.length ≤ x.2.2.1 →
        ∃ t, e = .next t ∧ t.rd CFG.POS.f = p + 16 + 4 * data.length ∧
          (s.hasMfp m = false → t.mem = s.mem) ∧
          (s.hasMfp m = true →
            (∀ i w, data[i]? = some w → t.bytes (mfpKey m (x.2.1 + off.toNat + 4 * i)) 4 = w.toNat) ∧
            ∀ k, (k < mfpKey m (x.2.1 + off.toNat) ∨ mfpKey m (x.2.1 + off.toNat) + 4 * data.length ≤ k) →
              t.byte k = s.byte k) ∧
          Only [.regs, .mem] s t) ∧
      (next x.1 body → (off.toNat % x.2.2.2.1 ≠ 0 ∨ x.2.2.1 < off.toNat + 4 * data.length) →
        ∃ t, e = .next t ∧ LoadFailed 7 s.segAt s t))) ∧
  (∀ (s : State) (crc : Word), s.rd PWR.STBY_HELD.f = 0 → s.rd CFG.TRY.f < 3 → s.ratioBad = false →
    let e := Machine.exec (.endRecord crc) s
    let ends := s.recordNext (recordHead 0x0F 4 ++ natBytes crc.toNat 4) = true ∧
      (s.tagMode = true → segmentsOf s.payLen ≤ s.rd CFG.SEGS.f)
    let sum := (crcFeed (s.rd CFG.CRC.f) (recordHead 0x0F 4)) ^^^ 0xFFFFFFFF
    let last := s.rd CFG.POS.f + 12 = s.payLen
    (¬ ends → e = .next s) ∧
    (ends → ¬ last → ∃ t, e = .next t ∧ LoadFailed 7 s.segAt s t) ∧
    (ends → last → s.tagMode = false → crc.toNat ≠ sum → ∃ t, e = .next t ∧ LoadFailed 6 s.segAt s t) ∧
    (ends → last → (s.tagMode = true ∨ crc.toNat = sum) → s.complete = false →
      ∃ t, e = .next t ∧ LoadFailed 7 s.segAt s t) ∧
    (ends → last → (s.tagMode = true ∨ crc.toNat = sum) → s.complete = true →
      ∃ u, u.rd CFG.STATE_STEP.f = 6 ∧ Only [.regs] s u ∧
        (∀ b : Bay, u.rd (CNV.BAY_STAT_BSTATE.f b) = (if s.regionSeen b then 1 else 0) ∧
          u.flag (CNV.HOLD.f b) = !s.regionSeen b ∧ u.flag (CNV.HELD.f b) = !s.regionSeen b) ∧
        let a := u.applyPairs 0 (s.rd CFG.PAIRS.f)
        (s.rd CFG.PAIRS.f = 0 → e = .next u) ∧
        (a.1.ratioBad = false → a.2 = true → e = .next a.1) ∧
        (a.1.ratioBad = false → a.2 = false → a.1.rd PWR.STBY_HELD.f = 0 →
          ∃ t, e = .next t ∧ t.flag CFG.SAFEHOLD.f = true ∧ t.rd CFG.STATE_STEP.f = 11 ∧
            CfgCaught 12 (a.1.rd (CFG.ORD.f (a.1.rd CFG.TRY.f))) 0 a.1 t)))

/-- At step 6 the SYSTEM area built sets READY and leads to step 7, with the directory of the copy in DRAM, without
what was being deleted, at a warm restart, and an empty one at a cold start; at a wake it resumes from the resume
copy and begins the order, or, where there is none or it returns poison, becomes a warm restart. Step 7 ends in the
order with DONE released and every HALF 0, or in SAFEHOLD with cause 10. A phase is carried out where the wait of
STEPW is over and it is ready: LOCK with every island locked, another with DONE high; OUTPUTS releases the outputs,
GSR the fabric and every MFP present at VBASE, WRITES the fabric's updates; after the fourth and its wait the order
sets LOADED, clears BUSY, and takes VERSION and SCRUB. A LOCK phase that has waited for LOCK_TO ends in SAFEHOLD
with cause 11. DONE reads high only while the device does not drive it. WARM is ignored while BUSY; else memory but
DRAM is cleared and step 2 begins, the restart counted. FAIL_REL empties the capture. That the wait after the last
phase comes before LOADED, and that a missing resume copy acts as a poisoned one, are the model's reading (log
entries 83 and 84). (R218, R381, R384, R385, R386, R387, R388, R389, R392) -/
def Obligations.TheStartGoesOnToLoaded : Prop :=
  (∀ (s : State), s.dieOn = true → s.rd CFG.STATE_STEP.f = 6 → s.flag CAL.READY.f = false → s.ratioBad = false →
    (s.rd CFG.STATE_START.f ≠ 2 → ∃ t, Machine.exec .systemAreaBuilt s = .next t ∧ t.flag CAL.READY.f = true ∧
      t.rd CFG.STATE_STEP.f = 7 ∧
      (s.flag CAL.KEEP.f = true → t.dir = s.dirCopy.filter (fun e => e.2.st != 5) ∧ t.mem = s.mem ∧
        ∀ k, k / 2 ^ 48 ≠ ENC.root.id → ∀ d, t.tabs.get k d = s.tabs.get k d) ∧
      (s.flag CAL.KEEP.f = false → t.dir = [] ∧ (∀ k, 2 ^ 48 ≤ k → t.byte k = 0) ∧ t.rd ENC.KEYV.f = 1)) ∧
    (s.rd CFG.STATE_START.f = 2 → s.flag CAL.KEEP.f = true →
      let u := s.calicoReady
      ((u.alloc? resumeId = none ∨ ∃ a, u.alloc? resumeId = some a ∧ u.allocPoison a 0 a.size = true) →
        ∃ t, Machine.exec .systemAreaBuilt s = .next t ∧ t.rd CFG.STATE_START.f = 1 ∧
          t.rd CFG.STATE_STEP.f = 2 ∧ t.rd CFG.NEXT_SLOT.f = s.rd CFG.STATE_SLOT.f % 4) ∧
      (∀ a, u.alloc? resumeId = some a → u.allocPoison a 0 a.size = false → u.allocRead a 256 4 = 0 →
        ∃ t, Machine.exec .systemAreaBuilt s = .next t ∧ t.rd CFG.STATE_STEP.f = 9 ∧ t.flag CFG.DONE_DRV.f = false ∧
          t.rd CFG.STATE_START.f = 2 ∧
          ∀ i, i < s.mfpCount * 0xC0000 → t.byte (imageKey i) = u.dramByte a (a.pa (260 + i))))) ∧
  (∀ (s : State), s.dieOn = true → s.rd CFG.STATE_STEP.f = 7 → s.flag CFG.BUSY.f = true → s.rd PWR.STBY_HELD.f = 0 →
    let r := (s.dropGold.newGolds (16 :: List.range 16)).bind State.newResume
    (s.dramHeld = true → Machine.exec .goldenBuildEnd s = .next s) ∧
    (s.dramHeld = false → r = none → ∃ t, Machine.exec .goldenBuildEnd s = .next t ∧ t.flag CFG.SAFEHOLD.f = true ∧
      t.rd CFG.STATE_STEP.f = 11 ∧ (s.flag CFG.FAIL_FULL.f = false → t.rd CFG.FAIL_CAP_CAUSE.f = 10)) ∧
    (∀ u, s.dramHeld = false → r = some u → ∃ t, Machine.exec .goldenBuildEnd s = .next t ∧ t.rd CFG.STATE_STEP.f = 9 ∧
      t.flag CFG.DONE_DRV.f = false ∧ t.rd CFG.PHASE.f = 0 ∧ t.dir = u.dir ∧ t.mem = u.mem ∧
      ∀ b : Bay, t.flag (CNV.HALF.f b) = false)) ∧
  (∀ (s : State), s.inOrder = true → s.rd PWR.STBY_HELD.f = 0 → s.time + 2 ^ 20 < 2 ^ 64 →
    let n := s.rd CFG.PHASE.f
    let c := s.phases.getD n 0
    let waited := s.rd CFG.PHASE_AT.f ≤ s.time
    let ready := n < 4 ∧ waited ∧ ((c = 0 ∧ s.refIslandsLocked = true) ∨
      (c ≠ 0 ∧ (s.flag CFG.DONE_SEEN.f = true ∨ s.flag CFG.DONE_IN.f = true)))
    (¬ready → Machine.exec .startUpPhase s = .next s) ∧
    (ready → ∃ t, Machine.exec .startUpPhase s = .next t ∧ t.rd CFG.PHASE.f = n + 1 ∧
      t.rd CFG.PHASE_AT.f = s.time + 1000 * s.stepWait ∧
      (c = 1 → t.flag VLV.OUT_HELD.f = false) ∧
      (c = 2 → t.flag CNV.DRVRST.f = false ∧ ∀ m : MfpId, s.hasMfp m = true → (t.core m).released = true ∧
        (t.core m).pc = (s.core m).vbase) ∧
      (c ≠ 2 → t.cores = s.cores) ∧ (c = 3 → t.flag CNV.FROZEN.f = false) ∧
      ((n ≠ 3 ∨ s.stepWait ≠ 0) → t.rd CFG.STATE_STEP.f = 9 ∧ t.flag CFG.BUSY.f = true) ∧
      (n = 3 → s.stepWait = 0 → t.flag CFG.LOADED.f = true ∧ t.flag CFG.BUSY.f = false ∧ t.rd CFG.STATE_STEP.f = 10 ∧
        t.rd CFG.IMG_VER.f = s.tab CFG.hdr 0 7 % 2 ^ 32 ∧ t.rd CFG.LOAD_TIME.f = s.time / 1000 % 2 ^ 32 ∧
        t.flag CNV.SCRUB_EN.f = bitOf (s.tab CFG.hdr 0 1) 10 ∧ (1604, s.time) ∈ t.raised)) ∧
    (n = 4 → waited → s.flag CFG.PAIR_ERR.f = false → s.loadTick.flag CFG.LOADED.f = true ∧ s.loadTick.flag CFG.BUSY.f = false) ∧
    (n < 4 → c = 0 → s.refIslandsLocked = false →
      (s.time < s.rd CFG.PHASE_AT.f + 1000000 * s.lockLimit → Machine.exec .lockTimeout s = .next s) ∧
      (s.rd CFG.PHASE_AT.f + 1000000 * s.lockLimit ≤ s.time →
        ∃ t, Machine.exec .lockTimeout s = .next t ∧ t.flag CFG.SAFEHOLD.f = true ∧
          t.rd CFG.STATE_STEP.f = 11 ∧ t.flag CFG.DONE_DRV.f = true ∧ t.cores = [] ∧
          (s.flag CFG.FAIL_FULL.f = false → t.rd CFG.FAIL_CAP_CAUSE.f = 11)))) ∧
  (∀ (s : State),
    (s.flag CFG.DONE_DRV.f = true → Machine.exec .doneRise s = .next s) ∧
    (s.flag CFG.DONE_DRV.f = false → ∃ t, Machine.exec .doneRise s = .next t ∧ t.flag CFG.DONE_IN.f = true ∧
      OnlyRegs [CFG.DONE_IN.f.key] s t)) ∧
  (∀ (s : State), s.openTo 12 .cfg = true →
    (s.flag CFG.BUSY.f = true → Machine.exec .warm s = .next s) ∧
    (s.flag CFG.BUSY.f = false → s.flag BST.HOLD.f = false → s.dramHeld = false →
      ∃ t, Machine.exec .warm s = .next t ∧ t.rd CFG.STATE_START.f = 1 ∧ t.rd CFG.STATE_STEP.f = 2 ∧
        t.flag CFG.BUSY.f = true ∧ t.flag CFG.LOADED.f = false ∧ t.flag CFG.DONE_DRV.f = true ∧ t.cores = [] ∧
        t.runs = [] ∧ t.flag ETH.SESS.f = false ∧ (∀ k, t.byte k = if 2 ^ 48 ≤ k then s.byte k else 0) ∧
        t.tab LDG.sram 0 6 = min (s.tab LDG.sram 0 6 + 1) (2 ^ 32 - 1) ∧
        Same [CFG.FAIL_FULL.f, CFG.FAIL_CAP_CAUSE.f, CFG.FAIL_CAP_SLOT.f, CFG.FAIL_CAP_SEG.f, CFG.NEXT_SLOT.f,
          ENC.KEYV.f] s t) ∧
    (∃ t, Machine.exec .failRel s = .next t ∧ t.flag CFG.FAIL_FULL.f = false ∧ t.rd CFG.FAIL_CAP_CAUSE.f = 0 ∧
      t.rd CFG.FAIL_CAP_SLOT.f = 0 ∧ t.rd CFG.FAIL_CAP_SEG.f = 0 ∧
      OnlyRegs [CFG.FAIL_FULL.f.key, CFG.FAIL_CAP_CAUSE.f.key, CFG.FAIL_CAP_SLOT.f.key, CFG.FAIL_CAP_SEG.f.key] s t))

/-- A present, enabled port whose PLL is locked begins bring-up at rate 0 with no lane, offering MAXRATE; an
incompatible partner sends it to IDLE with KIND 5, a second master to CONFLICT with KIND 4, and an IDLE port whose
partner no longer reaches the master comes UP. A good lane is counted at the lowest rate. The ladder climbs while no
lane in use shows an error, and the port enters UP, or IDLE where both partners reach the master, at its top or, at
the rate it had, on a failure, with all credits and its SEQ at 0. Invalid sync headers count, and 32 of 64
consecutive ones, or the partner's report, drop the lane: KIND 0, its event, and RECOVER with its messages kept. The
end of recovery leads to UP with DEGR below four lanes; 100 us of recovery, or no lane left, takes the port DOWN
with KIND 1, and not before. A retrained lane is added through RECOVER and counted. RETRAIN and PRBS_EN take the
port DOWN, and fill the absent-access capture where the port is absent. A LINK block removes exactly the
acknowledged messages and returns credits up to their bounds; a NAK is counted, with its event. That the devices'
blocks and reports come as commands is the model's choice (log entries 63 and 64). (R399, R403, R404, R405, R407,
R408, R409, R424, R425) -/
def Obligations.TweedPortsTrainRecoverAndGoDown : Prop :=
  (∀ (w : TwPort) (s : State),
    let may := s.hasTwp w = true ∧ s.flag (TWD.EN.f w) = true ∧ s.flag (TWD.PRBS_EN.f w) = false ∧
      s.rd (TWD.P_STAT_PSTATE.f w) = 0 ∧ s.bit CLK.LK_TW.f w = true
    (may → ∃ t, Machine.exec (.portBringUp w) s = .next t ∧ t.rd (TWD.P_STAT_PSTATE.f w) = 1 ∧
      t.flag (TWD.TRAIN.f w) = true ∧ t.rd (TWD.P_STAT_RATE.f w) = 0 ∧ t.rd (TWD.P_STAT_LANES.f w) = 0 ∧
      t.rd (TWD.P_MAXR.f w) = s.rd TWD.CTRL_MAXRATE.f % 8 ∧ OnlyRegs ((TWD.P_MAXR.f w).key :: portKeys w) s t) ∧
    (¬may → Machine.exec (.portBringUp w) s = .next s)) ∧
  (∀ (w : TwPort) (id : Word) (major offer place : Byte) (s : State),
    (s.hasTwp w = false → Machine.exec (.cap w id major offer place) s = .next s) ∧
    (s.hasTwp w = true →
      let other := id.toNat ≠ SYS.ID.reset ∨ major.toNat ≠ SYS.REV_MAJOR.reset
      let both := bitOf offer.toNat 3 = true ∧ s.flag CFG.MASTER.f = true
      let st := s.rd (TWD.P_STAT_PSTATE.f w)
      ∃ t, Machine.exec (.cap w id major offer place) s = .next t ∧ Only [.regs] s t ∧
        t.rd (TWD.P_STAT_PDEV.f w) = place.toNat % 32 ∧ t.rd (TWD.P_STAT_PPORT.f w) = offer.toNat / 16 % 4 ∧
        (st = 1 → other → t.rd (TWD.P_STAT_PSTATE.f w) = 4 ∧ t.rd (TWD.P_STAT_LANES.f w) = 0 ∧
          t.flag (TWD.TRAIN.f w) = false ∧ TwdCaught 5 w 0 0 s t) ∧
        (st = 1 → ¬other → both → t.rd (TWD.P_STAT_PSTATE.f w) = 5 ∧ t.flag (TWD.TRAIN.f w) = false ∧
          TwdCaught 4 w 0 0 s t) ∧
        (st = 4 → s.rd (TWD.P_STAT_LANES.f w) ≠ 0 →
          t.rd (TWD.P_STAT_PSTATE.f w) = if place.toNat / 32 = 3 ∨ place.toNat / 32 = 5 then 4 else 2) ∧
        ((st = 1 → ¬other ∧ ¬both) → (st = 4 → s.rd (TWD.P_STAT_LANES.f w) = 0) →
          OnlyRegs ([TWD.P_PCAP, TWD.P_STAT_PDEV, TWD.P_STAT_PPORT].map fun l => (l.f w).key) s t))) ∧
  (∀ (w : TwPort) (l : Fin 4) (s : State),
    (s.rd (TWD.P_STAT_PSTATE.f w) = 1 → s.rd (TWD.P_STAT_RATE.f w) = 0 →
      ∃ t, Machine.exec (.laneGood w l) s = .next t ∧ t.bit (TWD.P_STAT_LANES.f w) l = true ∧
        (∀ j : Fin 4, j ≠ l → t.bit (TWD.P_STAT_LANES.f w) j = s.bit (TWD.P_STAT_LANES.f w) j) ∧
        OnlyRegs [(TWD.P_STAT_LANES.f w).key] s t) ∧
    (s.rd (TWD.P_STAT_PSTATE.f w) ≠ 1 → Machine.exec (.laneGood w l) s = .next s)) ∧
  (∀ (w : TwPort) (errs : List Word) (s : State), s.rd (TWD.P_STAT_PSTATE.f w) = 1 → s.rd (TWD.P_STAT_LANES.f w) ≠ 0 →
    s.rd (TWD.P_STAT_LANES.f w) < 16 →
    let r := s.rd (TWD.P_STAT_RATE.f w)
    let top := min (min (s.rd (TWD.P_MAXR.f w)) (bits (s.rd (TWD.P_PCAP.f w)) 16 3)) 4
    let all := ∀ l : Fin 4, s.bit (TWD.P_STAT_LANES.f w) l = true → errs.getD l 0 = 0
    let got := [TWD.P_RSEQ, TWD.P_RETC, TWD.P_RETB, TWD.P_RBC]
    let up := fun (t : State) =>
      t.rd (TWD.P_STAT_PSTATE.f w) = (if s.inCascade = true ∧ s.partnerReaches w = true then 4 else 2) ∧
        t.flag (TWD.TRAIN.f w) = false ∧ t.rd (TWD.P_CRED.f w) = 256 ∧ t.rd (TWD.P_SEQ.f w) = 0 ∧
        (∀ l ∈ got, t.rd (l.f w) = 0) ∧ t.flag (TWD.DEGR.f w) = decide (s.rd (TWD.P_STAT_LANES.f w) ≠ 15)
    ∃ t, Machine.exec (.rateStepEnd w errs) s = .next t ∧ Same [TWD.P_STAT_LANES.f w] s t ∧
      OnlyRegs (portKeys w ++ got.map fun l => (l.f w).key) s t ∧
      (r < top → all → t.rd (TWD.P_STAT_RATE.f w) = r + 1 ∧ (top = r + 1 → up t) ∧
        (r + 1 < top → t.rd (TWD.P_STAT_PSTATE.f w) = 1)) ∧
      ((top ≤ r ∨ ¬all) → t.rd (TWD.P_STAT_RATE.f w) = r ∧ up t)) ∧
  (∀ (w : TwPort) (l : Fin 4) (s : State),
    let may := (s.rd (TWD.P_STAT_PSTATE.f w) = 2 ∨ s.rd (TWD.P_STAT_PSTATE.f w) = 3) ∧ s.bit (TWD.P_STAT_LANES.f w) l = true
    let dropped := fun (t : State) => t.rd (TWD.P_STAT_PSTATE.f w) = 3 ∧ t.bit (TWD.P_STAT_LANES.f w) l = false ∧
      t.bit (TWD.P_DROPPED.f w) l = true ∧ t.flag (TWD.RECOV.f w) = true ∧ t.flag (TWD.UP.f w) = false ∧
      t.rd (TWD.P_RECOV_AT.f w) = s.time % 2 ^ 64 ∧ TwdCaught 0 w l 0 s t ∧ t.twOut = s.twOut ∧
      t.raised = s.raised ++ [(1475 + 8 * w.val, s.time)] ∧ Only [.regs, .raised] s t
    (may → ∃ t, Machine.exec (.laneDrop w l .reported) s = .next t ∧ dropped t ∧ Same [TWD.P_SHE.f w l] s t) ∧
    (¬may → Machine.exec (.laneDrop w l .reported) s = .next s) ∧
    (∀ hs : List (BitVec 2),
      let x := headsTake (s.rd (TWD.P_HEADS.f w l)) (hs.map BitVec.toNat)
      ∃ t, Machine.exec (.laneDrop w l (.headers hs)) s = .next t ∧
        t.rd (TWD.P_SHE.f w l) =
          min (s.rd (TWD.P_SHE.f w l) + (hs.filter fun h => h == 0 || h == 3).length) (2 ^ 32 - 1) ∧
        (x.2 = true → may → dropped t) ∧
        ((x.2 = false ∨ ¬may) → OnlyRegs [(TWD.P_SHE.f w l).key, (TWD.P_HEADS.f w l).key] s t))) ∧
  (∀ (v : Nat) (hs : List (BitVec 2)), hs ≠ [] → (headsTake v (hs.map BitVec.toNat)).2 = false →
    headsBad (headsTake v (hs.map BitVec.toNat)).1 < 32) ∧
  (∀ (w : TwPort) (s : State),
    (s.rd (TWD.P_STAT_PSTATE.f w) = 3 → s.rd (TWD.P_STAT_LANES.f w) ≠ 0 →
      ∃ t, Machine.exec (.recoverEnd w) s = .next t ∧ t.rd (TWD.P_STAT_PSTATE.f w) = 2 ∧ t.flag (TWD.UP.f w) = true ∧
        t.flag (TWD.DEGR.f w) = decide (s.rd (TWD.P_STAT_LANES.f w) ≠ 15) ∧
        t.flag (TWD.TRAIN.f w) = decide (s.rd (TWD.P_DROPPED.f w) ≠ 0) ∧
        (t.twQ w).map (fun m => m.body) = (s.twQ w).map (fun m => m.body) ∧ Only [.regs, .twOut] s t) ∧
    (s.rd (TWD.P_STAT_PSTATE.f w) = 3 →
      let gone := s.rd (TWD.P_STAT_LANES.f w) = 0 ∨ s.rd (TWD.P_RECOV_AT.f w) + 100000 ≤ s.time
      (gone → ∃ t, Machine.exec (.recoverTimeout w) s = .next t ∧ t.rd (TWD.P_STAT_PSTATE.f w) = 0 ∧ t.twQ w = [] ∧
        t.rd (TWD.P_STAT_LANES.f w) = 0 ∧ TwdCaught 1 w 0 0 s t) ∧
      (¬gone → Machine.exec (.recoverTimeout w) s = .next s) ∧
      (s.rd (TWD.P_STAT_LANES.f w) = 0 → Machine.exec (.recoverEnd w) s = .next s)) ∧
    (s.rd (TWD.P_STAT_PSTATE.f w) ≠ 3 → Machine.exec (.recoverEnd w) s = .next s ∧
      Machine.exec (.recoverTimeout w) s = .next s) ∧
    (∀ l : Fin 4, s.rd (TWD.P_STAT_PSTATE.f w) = 2 → s.bit (TWD.P_DROPPED.f w) l = true →
      ∃ t, Machine.exec (.laneRetrainEnd w l) s = .next t ∧ t.rd (TWD.P_STAT_PSTATE.f w) = 3 ∧
        t.bit (TWD.P_STAT_LANES.f w) l = true ∧ t.bit (TWD.P_DROPPED.f w) l = false ∧
        t.rd (TWD.P_RECOV_AT.f w) = s.time % 2 ^ 64 ∧
        t.rd (TWD.P_RETR.f w) = min (s.rd (TWD.P_RETR.f w) + 1) (2 ^ 32 - 1) ∧
        t.tab LDG.sram 0 (0x2D0 + 4 * w + l) = min (s.tab LDG.sram 0 (0x2D0 + 4 * w + l) + 1) (2 ^ 32 - 1) ∧
        Only [.regs, .tabs] s t)) ∧
  (∀ (w : TwPort) (s : State), s.openTo 12 .twd = true →
    (s.hasTwp w = false → ∀ (on : Bool) (errs : List Word), ∀ c ∈ [Instr.retrain w, .prbsEn w on errs],
      ∃ t, Machine.exec c s = .next t ∧ AbsentCaught (0x32000010 + 4 * w) s t ∧ Only [.regs] s t) ∧
    (s.hasTwp w = true →
      (s.rd (TWD.P_STAT_PSTATE.f w) = 0 → Machine.exec (.retrain w) s = .next s) ∧
      (s.rd (TWD.P_STAT_PSTATE.f w) ≠ 0 → ∃ t, Machine.exec (.retrain w) s = .next t ∧
        t.rd (TWD.P_STAT_PSTATE.f w) = 0 ∧ t.twQ w = []) ∧
      (∀ errs, ∃ t, Machine.exec (.prbsEn w true errs) s = .next t ∧ t.flag (TWD.PRBS_EN.f w) = true ∧
        t.rd (TWD.P_STAT_PSTATE.f w) = 0 ∧ ∀ l : Fin 4, t.rd (TWD.P_PRBS.f w l) = 0) ∧
      (∀ errs, ∃ t, Machine.exec (.prbsEn w false errs) s = .next t ∧ t.flag (TWD.PRBS_EN.f w) = false ∧
        (∀ l : Fin 4, t.rd (TWD.P_PRBS.f w l) = if s.flag (TWD.PRBS_EN.f w) then
          min (s.rd (TWD.P_PRBS.f w l) + (errs.getD l 0).toNat) (2 ^ 32 - 1) else s.rd (TWD.P_PRBS.f w l)) ∧
        OnlyRegs ((TWD.PRBS_EN.f w).key :: (List.range 4).map fun l => (TWD.P_PRBS.f w l).key) s t)) ∧
    (∃ t, Machine.exec .twdCapRel s = .next t ∧ t.flag TWD.CAP_FULL.f = false ∧
      (∀ f ∈ [TWD.ERR_CAP_KIND.f, TWD.ERR_CAP_PORT.f, TWD.ERR_CAP_LANE.f, TWD.ERR_CAP_BAR.f, TWD.ERR_CAP_DEV.f],
        t.rd f = 0) ∧ Only [.regs] s t)) ∧
  (∀ (w : TwPort) (ack : BitVec 16) (nak : Bool) (ctl bcast : BitVec 16) (s : State),
    (s.rd (TWD.P_STAT_PSTATE.f w) ≠ 2 → Machine.exec (.link w ack nak ctl bcast) s = .next s) ∧
    (s.rd (TWD.P_STAT_PSTATE.f w) = 2 →
      let left := (s.twQ w).filter fun m => !(m.seq.any fun x => (ack.toNat + 2 ^ 16 - x) % 2 ^ 16 < 2 ^ 15)
      ∃ t, Machine.exec (.link w ack nak ctl bcast) s = .next t ∧ Only [.regs, .twOut, .raised] s t ∧
        (t.twQ w).map (fun m => m.body) = left.map (fun m => m.body) ∧
        (left = [] → t.rd (TWD.P_CRED.f w) =
          min 32 (s.rd (TWD.P_CCTL.f w) + ctl.toNat) + min 224 (s.rd (TWD.P_CBC.f w) + bcast.toNat)) ∧
        (nak = true → t.rd (TWD.P_CRCE.f w) = min (s.rd (TWD.P_CRCE.f w) + 1) (2 ^ 32 - 1) ∧
          t.raised = s.raised ++ [(1476 + 8 * w.val, s.time)]) ∧
        (nak = false → Same [TWD.P_CRCE.f w] s t ∧ t.raised = s.raised)))

/-- On the master an arrival of a participant is gathered; with the last one the barrier is RELEASING with T the
release lead ahead on a CT boundary; an arrival while it is RELEASING counts for the next use; a bad one, or one of
a device that takes no part, fails the barrier at once with KIND 2 and the device captured. A withdrawal takes the
arrival back. A member takes RELEASE with T to come and acknowledges it up its upstream port, but fails the barrier
where T is past. FAIL, and every failure, end each sequencer that holds at the barrier with SYNC_FAIL and free the
barrier. 2 us after RELEASE, and not before, each JOINED device whose ACK is missing is lost; with every ACK in
nothing happens. At T, and not before, each sequencer that holds goes on in RUN, and the master keeps the arrivals
of the next use. A message taken moves the next SEQ of its port and the credit that it returns, as the model keeps
them (log entry 92). (R141, R412, R417, R418, R419, R426) -/
def Obligations.BarriersGatherReleaseAndFail : Prop :=
  (∀ (n : Byte) (d : Fin 32) (bad : Bool) (s : State), s.isMaster = true →
    let u := (s.gotUp d).barrierSyncAll
    let p := u.participants n.toNat
    let arr := putBit (u.arrivedDevs n.toNat) d true
    ∃ t, Machine.exec (.arrive n d bad) s = .next t ∧
      ((bad = true ∨ bitOf p d = false) → t.tab TWD.barT 0 n.toNat = 0 ∧ t.arrivedDevs n.toNat = 0 ∧
        TwdCaught 2 0 0 n.toNat u t ∧ (u.flag TWD.CAP_FULL.f = false → t.rd TWD.ERR_CAP_DEV.f = d) ∧
        ∀ q r, q ∈ u.waitingAt n.toNat → u.run? q = some r → RunEnded q 4 r t) ∧
      (bad = false → bitOf p d = true → u.releasing n.toNat = true →
        bitOf (t.tab TWD.barNext 0 n.toNat) d = true ∧ t.runs = u.runs ∧ Only [.tabs] u t) ∧
      (bad = false → bitOf p d = true → u.releasing n.toNat = false → p < 2 ^ 32 → u.arrivedDevs n.toNat < 2 ^ 32 →
        t.arrivedDevs n.toNat = arr ∧ t.runs = u.runs ∧
        ((arr &&& p) ≠ p → t.tab TWD.barT 0 n.toNat = 0 ∧ t.twOut = u.twOut) ∧
        ((arr &&& p) = p → t.tab TWD.barT 0 n.toNat =
          (u.cascadeTime + (u.time % 10 + u.releaseLead n.toNat + 9) / 10) % 2 ^ 48 + 1 ∧
          t.tab TWD.barRel 0 n.toNat = u.time % 2 ^ 64))) ∧
  (∀ (n : Byte) (s : State),
    max (s.rd TWD.CTRL_REL_LEAD.f * 100) 2200 ≤ s.releaseLead n.toNat ∧
      ∀ d : Fin 32, bitOf (s.participants n.toNat) d = true →
        220000 + s.rd (TWD.ROST_LAT.f d) ≤ 100 * s.releaseLead n.toNat) ∧
  (∀ (n : Byte) (d : Fin 32) (bad : Bool) (s : State), s.isMaster = false →
    Machine.exec (.arrive n d bad) s = .next s ∧ Machine.exec (.withdraw n d) s = .next s) ∧
  (∀ (n : Byte) (T : BitVec 48) (s : State), s.rd TWD.STAT_STATE.f = 3 →
    let u := s.gotDown.barrierSyncAll
    ∃ t, Machine.exec (.release n T) s = .next t ∧
      (T.toNat < u.cascadeTime → t.tab TWD.barT 0 n.toNat = 0 ∧ TwdCaught 2 0 0 n.toNat u t ∧
        ∀ q r, q ∈ u.waitingAt n.toNat → u.run? q = some r → RunEnded q 4 r t) ∧
      (u.cascadeTime ≤ T.toNat → t.tab TWD.barT 0 n.toNat = T.toNat + 1 ∧ t.runs = u.runs ∧
        ∀ w : TwPort, u.upstream = some w.val → (u.rd (TWD.P_STAT_PSTATE.f w) = 2 ∨ u.rd (TWD.P_STAT_PSTATE.f w) = 3) →
          ((t.twQ w).map fun m => m.body) = ((u.twQ w).map fun m => m.body) ++ [.ack n.toNat])) ∧
  (∀ (n : Byte) (d : Fin 32) (s : State), s.isMaster = true →
    (s.releasing n.toNat = true → ∃ t, Machine.exec (.ack n d) s = .next t ∧ bitOf (t.tab TWD.acks 0 n.toNat) d = true ∧
      Only [.tabs] (s.gotUp d) t ∧ TabsBut [TWD.acks.key 0 n.toNat] s t) ∧
    (s.releasing n.toNat = false → Machine.exec (.ack n d) s = .next (s.gotUp d) ∧
      Machine.exec (.barrierAckDeadline n) s = .next s) ∧
    (∃ t, Machine.exec (.withdraw n d) s = .next t ∧ Only [.tabs] (s.gotUp d) t ∧
      (s.releasing n.toNat = true → bitOf (t.tab TWD.barNext 0 n.toNat) d = false ∧
        TabsBut [TWD.barNext.key 0 n.toNat] s t) ∧
      (s.releasing n.toNat = false → bitOf (t.arrivedDevs n.toNat) d = false ∧
        TabsBut [TWD.bar.key 0 (768 + n.toNat)] s t)) ∧
    (s.releasing n.toNat = true →
      let missing := fun (i : Nat) => 1 ≤ i ∧ i < 32 ∧ bitOf (s.participants n.toNat) i = true ∧
        bitOf (s.tab TWD.acks 0 n.toNat) i = false
      let due := s.tab TWD.barRel 0 n.toNat + 2000 ≤ s.time
      ((¬due ∨ ∀ i, ¬missing i) → Machine.exec (.barrierAckDeadline n) s = .next s) ∧
      (due → (∃ i, missing i) → ∃ t, Machine.exec (.barrierAckDeadline n) s = .next t ∧ t.tab TWD.barT 0 n.toNat = 0 ∧
        t.arrivedDevs n.toNat = 0 ∧ ∀ i, missing i → s.devJoined i = true → t.flag (TWD.ROST_LOSTD.f i) = true))) ∧
  (∀ (d : Fin 32) (s : State), OnlyRegs (keys 4 [TWD.P_RSEQ, TWD.P_RETC]) s s.gotDown ∧
    (d.val = 0 → s.gotUp d = s) ∧
    (d.val ≠ 0 → ∀ w : TwPort, s.rd (TWD.ROST_VIA.f d) = w → s.gotUp d = s.twGot w ∧
      (s.twGot w).rd (TWD.P_RSEQ.f w) = (s.rd (TWD.P_RSEQ.f w) + 1) % 2 ^ 16 ∧
      (s.twGot w).rd (TWD.P_RETC.f w) = (s.rd (TWD.P_RETC.f w) + 1) % 2 ^ 9)) ∧
  (∀ (n : Byte) (s : State),
    let due := s.tab TWD.barT 0 n.toNat ≤ s.cascadeTime + 1
    ((s.releasing n.toNat = false ∨ ¬due) → Machine.exec (.barrierStart n) s = .next s) ∧
    (s.releasing n.toNat = true → due → ∃ t, Machine.exec (.barrierStart n) s = .next t ∧
      (∀ q ∈ s.waitingAt n.toNat, t.rd (TWL.STATE_STATE.f q) = 2) ∧
      (∀ q, q < 16 → q ∉ s.waitingAt n.toNat → t.run? q = s.run? q ∧ Same [TWL.STATE_STATE.f q] s t) ∧
      (s.bseq n.toNat ≠ 0 → t.raised = s.raised ++ [(1509, s.time)]) ∧
      (s.isMaster = false → t.tab TWD.barT 0 n.toNat = 0 ∧ t.tab TWD.barSent 0 n.toNat = 0) ∧
      (s.isMaster = true → t.arrivedDevs n.toNat = s.tab TWD.barNext 0 n.toNat % 2 ^ 32 ∧
        t.tab TWD.barNext 0 n.toNat = 0)) ∧
    (s.rd TWD.STAT_STATE.f = 3 → ∃ t, Machine.exec (.fail n) s = .next t ∧ t.tab TWD.barT 0 n.toNat = 0 ∧
      t.tab TWD.barSent 0 n.toNat = 0 ∧ TwdCaught 2 0 0 n.toNat s t ∧
      ∀ q r, q ∈ s.waitingAt n.toNat → s.run? q = some r → RunEnded q 4 r t) ∧
    (s.rd TWD.STAT_STATE.f ≠ 3 → Machine.exec (.fail n) s = .next s))

/-- CASC_EN = 1 makes a master MASTER, numbers the devices that its UP ports reach, nearer ones first and then by
the ports on the way, up to 31, with their depth, port and latency, starts CT at 0, and captures KIND 7 where there
are more; it makes a member SEARCH with LOST set. CASC_EN = 0 ends in OFF. Either leaves no barrier, contribution,
GFAIL or broadcast of the cascade before. A TIME exchange gives a member with an UP port its number, depth, upstream
port and CT, with half the round trip less the stay as its hop latency and the sum as its path latency, makes it
JOINED, and answers the stamps. LOST moves a JOINED member to LOST, and each sequencer that holds at a barrier ends
with SYNC_FAIL. PROBE goes to each lost device whose port carries messages; its answer makes the device JOINED on
the master, and a lost member that is probed realigns. GFSUM sets the contribution, and GFAIL is set exactly while a
JOINED device contributes; a member takes GFAIL from the master. A stop reaches every running sequencer of
TWD_GS_SEQ on the master and on a receiving member, which raises its event; a member's write of GSTOP goes up to the
master. (R398, R411, R412, R413, R414, R415, R422, R423) -/
def Obligations.CascadesFormAlignLoseAndStop : Prop :=
  (∀ (reach : List TwReach) (s : State),
    let up := fun (x : TwReach) => ∃ w : TwPort, x.path.head? = some w ∧ s.rd (TWD.P_STAT_PSTATE.f w) = 2
    (∀ x, x ∈ s.numbered reach ↔ x ∈ reach ∧ up x) ∧
    (s.numbered reach).Pairwise fun x y => pathBefore y.path x.path = false) ∧
  (∀ (reach : List TwReach) (s : State), s.openTo 12 .twd = true →
    let nr := s.numbered reach
    let clear := fun (t : State) => (∀ n, n < 256 → t.releasing n = false ∧ t.arrivedDevs n = 0) ∧
      t.rd TWD.CONTRIB.f = 0 ∧ t.flag TWD.GFAIL.f = false ∧ t.flag TWD.BC_BUSY.f = false
    (s.flag TWD.CASC_EN.f = true → Machine.exec (.cascEn true reach) s = .next s) ∧
    (s.flag TWD.CASC_EN.f = false → ∃ t, Machine.exec (.cascEn true reach) s = .next t ∧ t.flag TWD.CASC_EN.f = true ∧ clear t ∧
      (s.flag CFG.MASTER.f = true → t.rd TWD.STAT_STATE.f = 5 ∧ t.flag TWD.CASC.f = true ∧ t.flag TWD.LOST.f = false ∧
        t.cascadeTime = 0 ∧ t.rd TWD.STAT_NDEV.f = 1 + min 31 nr.length ∧ t.flag (TWD.ROST_PRES.f 0) = true ∧
        (∀ i x, i < 31 → nr[i]? = some x → t.flag (TWD.ROST_PRES.f (i + 1)) = true ∧
          t.flag (TWD.ROST_LOSTD.f (i + 1)) = false ∧ t.rd (TWD.ROST_DEPTH.f (i + 1)) = x.path.length % 32 ∧
          t.rd (TWD.ROST_VIA.f (i + 1)) = reachVia x ∧ t.rd (TWD.ROST_LAT.f (i + 1)) = x.lat.toNat) ∧
        (∀ i, nr.length ≤ i → i < 31 → t.flag (TWD.ROST_PRES.f (i + 1)) = false) ∧
        (∀ x, nr[31]? = some x → TwdCaught 7 (reachVia x) 0 0 s t)) ∧
      (s.flag CFG.MASTER.f = false → t.rd TWD.STAT_STATE.f = 1 ∧ t.flag TWD.CASC.f = false ∧ t.flag TWD.LOST.f = true)) ∧
    (∃ t, Machine.exec (.cascEn false reach) s = .next t ∧ t.flag TWD.CASC_EN.f = false ∧ t.rd TWD.STAT_STATE.f = 0 ∧
      t.flag TWD.CASC.f = false ∧ t.flag TWD.LOST.f = false ∧ clear t ∧ t.cascadeTime = 0)) ∧
  (∀ (w : TwPort) (dev depth : BitVec 5) (ct : BitVec 48) (path : BitVec 20) (t1 t2 t3 t4 : BitVec 64) (s : State),
    let may := s.flag TWD.CASC_EN.f = true ∧ s.rd TWD.STAT_STATE.f ≠ 5 ∧ s.flag CFG.MASTER.f = false ∧
      s.rd (TWD.P_STAT_PSTATE.f w) = 2
    let lat := ((t4.toNat - t1.toNat) - (t3.toNat - t2.toNat)) / 80
    (¬may → Machine.exec (.timeCmd w dev depth ct path t1 t2 t3 t4) s = .next s) ∧
    (may → ∃ t, Machine.exec (.timeCmd w dev depth ct path t1 t2 t3 t4) s = .next t ∧ t.rd TWD.STAT_STATE.f = 3 ∧
      t.rd TWD.STAT_DEV.f = dev.toNat ∧ t.rd TWD.STAT_DEPTH.f = depth.toNat ∧ t.rd (TWD.P_LAT.f w) = lat % 2 ^ 16 ∧
      t.rd TWD.PATHLAT.f = (path.toNat + lat) % 2 ^ 20 ∧ t.cascadeTime = ct.toNat ∧
      (∀ v : TwPort, t.flag (TWD.UPSTREAM.f v) = decide (v = w)) ∧ t.flag TWD.CASC.f = true ∧
      t.flag TWD.LOST.f = false ∧
      ((t.twQ w).map fun m => m.body) = ((s.twQ w).map fun m => m.body) ++ [.time t2.toNat t3.toNat] ∧
      Only [.regs, .twOut] s t)) ∧
  (∀ (s : State),
    (s.rd TWD.STAT_STATE.f ≠ 3 → Machine.exec .lost s = .next s) ∧
    (s.rd TWD.STAT_STATE.f = 3 → ∃ t, Machine.exec .lost s = .next t ∧ t.rd TWD.STAT_STATE.f = 4 ∧
      t.flag TWD.CASC.f = false ∧ t.flag TWD.GFAIL.f = false ∧ t.cascadeTime = 0 ∧
      ∀ (q : SeqId) (r : SeqRun), s.run? q = some r → s.rd (TWL.STATE_STATE.f q) = 5 → RunEnded q 4 r t) ∧
    ((s.isMaster = false ∨ s.flag TWD.CTRL_AUTOREJ.f = false) → Machine.exec .probeTimer s = .next s) ∧
    (s.isMaster = true → s.flag TWD.CTRL_AUTOREJ.f = true → ∃ t, Machine.exec .probeTimer s = .next t ∧
      Only [.regs, .twOut] s t ∧
      ∀ d : Fin 32, s.flag (TWD.ROST_LOSTD.f d) = true →
        (s.rd (TWD.P_STAT_PSTATE.f (s.rd (TWD.ROST_VIA.f d))) = 2 ∨ s.rd (TWD.P_STAT_PSTATE.f (s.rd (TWD.ROST_VIA.f d))) = 3) →
        ∃ m ∈ t.twQ (s.rd (TWD.ROST_VIA.f d)), m.body = .probe d)) ∧
  (∀ (d : Fin 32) (s : State),
    (s.isMaster = true → ∃ t, Machine.exec (.probe d) s = .next t ∧ t.flag (TWD.ROST_LOSTD.f d) = false) ∧
    (s.rd TWD.STAT_STATE.f = 4 → s.rd TWD.STAT_DEV.f = d → ∃ t, Machine.exec (.probe d) s = .next t ∧
      t.rd TWD.STAT_STATE.f = 2 ∧ Only [.regs, .twOut] s t) ∧
    (s.rd TWD.STAT_STATE.f = 3 → Machine.exec (.probe d) s = .next s)) ∧
  (∀ (d : Fin 32) (on : Bool) (s : State),
    (s.isMaster = true → ∃ t, Machine.exec (.gfsum d on) s = .next t ∧ t.bit TWD.CONTRIB.f d = on ∧
      (t.flag TWD.GFAIL.f = true ↔ ∃ i : Fin 32, t.bit TWD.CONTRIB.f i = true ∧ t.devJoined i = true)) ∧
    (s.rd TWD.STAT_STATE.f = 3 → ∃ t, Machine.exec (.gfsum d on) s = .next t ∧ t.flag TWD.GFAIL.f = on ∧
      OnlyRegs (TWD.GFAIL.f.key :: keys 4 [TWD.P_RSEQ, TWD.P_RETC]) s t)) ∧
  (∀ (w : TwPort) (s : State) (q : SeqId) (r : SeqRun), bitOf (s.rd TWD.GS_SEQ.f) q = true →
    (s.haltDue q).run? q = some r → ((s.haltDue q).issuing q = true ∨ (s.haltDue q).rd (TWL.STATE_STATE.f q) = 1) →
    (∀ p : SeqId, p ≠ q → bitOf (s.rd TWD.GS_SEQ.f) p = false) →
    (s.isMaster = true → s.openTo 12 .twd = true → ∃ t, Machine.exec .gstop s = .next t ∧ RunEnded q 3 r t) ∧
    ((s.isMaster = true ∨ s.rd TWD.STAT_STATE.f = 3) →
      ∃ t, Machine.exec (.gstopReceived w) s = .next t ∧ RunEnded q 3 r t ∧ (1511, s.time) ∈ t.raised)) ∧
  (∀ (w : TwPort) (s : State), s.openTo 12 .twd = true →
    (s.rd TWD.STAT_STATE.f = 3 → s.upstream = some w.val →
      (s.rd (TWD.P_STAT_PSTATE.f w) = 2 ∨ s.rd (TWD.P_STAT_PSTATE.f w) = 3) →
      ∃ t, Machine.exec .gstop s = .next t ∧ Only [.regs, .twOut] s t ∧
        ((t.twQ w).map fun m => m.body) = ((s.twQ w).map fun m => m.body) ++ [.gstop]) ∧
    (s.rd TWD.STAT_STATE.f = 0 → Machine.exec .gstop s = .next s ∧ Machine.exec (.gstopReceived w) s = .next s))

/-- BC_GO is ignored on a member, while BC_BUSY is set and while Calico is not READY; else it answers 3 where the
object is not READY and 4 where the mask names device 0 or a device that is not JOINED, and otherwise sets BC_BUSY
with CODE 1 and both result masks clear. A member runs CREATE and SEAL with the outcome of Calico's commands, SEAL
once the data before it have been written. An outcome other than 0 of CREATE sets the device in TWD_BC_FAILM with
KIND 6; once all have answered, the data go out in messages of at most 4,032 bytes, one when every port has sent the
last and DRAM can be read, and BC_SEAL after them; poison ends the broadcast with CODE 5. A member with credits for
a message holds its cells until Calico takes the data and every downstream port has room; then, in order, it writes
the object at its offset, forwards the message and owes the credits. A SEAL outcome of 0 sets the device in
TWD_BC_DONE, another in TWD_BC_FAILM; the last one ends the broadcast with CODE 0 or 2 and BC_BUSY clear. That one
message of the master is on its way at a time is the model's choice (log entry 65). (R223, R225, R241, R420, R421)
-/
def Obligations.PatternBroadcastRuns : Prop :=
  (∀ (s : State), s.openTo 12 .twd = true →
    let m := s.rd TWD.BC_MASK.f
    let id := s.rd TWD.BC_OBJ.f
    ((s.flag CFG.MASTER.f = false ∨ s.flag TWD.BC_BUSY.f = true ∨ s.flag CAL.READY.f = false) →
      Machine.exec .bcGo s = .next s) ∧
    (s.flag CFG.MASTER.f = true → s.flag TWD.BC_BUSY.f = false → s.flag CAL.READY.f = true →
      ((∀ a, s.alloc? id = some a → a.kind ≠ 0 ∨ a.st ≠ 3) → ∃ t, Machine.exec .bcGo s = .next t ∧
        t.rd TWD.BC_STAT_CODE.f = 3 ∧ OnlyRegs [TWD.BC_STAT_CODE.f.key] s t) ∧
      (∀ a, s.alloc? id = some a → a.kind = 0 → a.st = 3 →
        let bad := bitOf m 0 = true ∨ ∃ d : Fin 32, bitOf m d = true ∧ (s.isMaster = false ∨ s.devJoined d = false)
        (bad → ∃ t, Machine.exec .bcGo s = .next t ∧ t.rd TWD.BC_STAT_CODE.f = 4 ∧
          OnlyRegs [TWD.BC_STAT_CODE.f.key] s t) ∧
        (¬bad → m ≠ 0 → m < 2 ^ 32 → ∃ t, Machine.exec .bcGo s = .next t ∧ t.rd TWD.BC_STAT_CODE.f = 1 ∧
          t.flag TWD.BC_BUSY.f = true ∧ t.rd TWD.BC_DONE.f = 0 ∧ t.rd TWD.BC_FAILM.f = 0 ∧ t.rd TWD.BC_WAIT.f = m ∧
          (useBroadcast, id) ∈ t.uses ∧ t.dir = s.dir ∧ t.mem = s.mem)))) ∧
  (∀ (id : Word) (size : BitVec 37) (key : BitVec 4) (s : State),
    (s.rd TWD.STAT_STATE.f ≠ 3 → Machine.exec (.bcCreate (.order id size key)) s = .next s ∧
      Machine.exec (.bcSeal (.order id)) s = .next s) ∧
    (s.rd TWD.STAT_STATE.f = 3 → s.flag CAL.READY.f = true →
      (∃ t u, Machine.exec (.bcCreate (.order id size key)) s = .next t ∧
        Machine.exec (.create (.msg id size 0 key)) s = .next u ∧ t.dir = u.dir ∧ t.rd CAL.X_CODE.f = u.rd CAL.X_CODE.f) ∧
      (s.bcIn = [] → ∃ t u, Machine.exec (.bcSeal (.order id)) s = .next t ∧
        Machine.exec (.seal (.msg id 0 0 0)) s = .next u ∧ t.dir = u.dir ∧ t.rd CAL.X_CODE.f = u.rd CAL.X_CODE.f ∧
        t.rd TWD.BC_SEALQ.f = 0) ∧
      (∀ x r, s.bcIn = x :: r → s.bcPasses x = false → ∃ t, Machine.exec (.bcSeal (.order id)) s = .next t ∧
        t.rd TWD.BC_SEALQ.f = id.toNat + 1 ∧ t.dir = s.dir ∧ Only [.regs] s t))) ∧
  (∀ (d : Fin 32) (code : Byte) (s : State), s.isMaster = true → s.rd TWD.BC_PH.f = 1 → bitOf (s.rd TWD.BC_WAIT.f) d = true →
    s.rd TWD.BC_WAIT.f < 2 ^ 32 →
    ∃ t, Machine.exec (.bcCreate (.outcome d code)) s = .next t ∧ t.bit TWD.BC_WAIT.f d = false ∧
      (code = 0 → Same [TWD.BC_FAILM.f, TWD.BC_STAT_CODE.f] s t ∧
        (s.rd TWD.BC_WAIT.f = 2 ^ d.val → t.rd TWD.BC_PH.f = 2) ∧ (s.rd TWD.BC_WAIT.f ≠ 2 ^ d.val → t.rd TWD.BC_PH.f = 1)) ∧
      (code ≠ 0 → t.bit TWD.BC_FAILM.f d = true ∧ TwdCaught 6 0 0 0 s t)) ∧
  (∀ (s : State), (s.rd TWD.BC_PH.f ≠ 2 ∨ s.dramHeld = true ∨ ∃ w : TwPort, s.bcRoom w = false) →
    Machine.exec (.bcast .send) s = .next s) ∧
  (∀ (s : State) (a : Alloc), s.alloc? (s.rd TWD.BC_OBJ.f) = some a → s.rd TWD.BC_PH.f = 2 → a.size < 2 ^ 36 →
    s.dramHeld = false → (∀ w : TwPort, s.bcRoom w = true) →
    let off := s.rd TWD.BC_OFF.f
    let n := min 4032 (a.size - off)
    (a.size ≤ off → ∃ t, Machine.exec (.bcast .send) s = .next t ∧ t.rd TWD.BC_PH.f = 3 ∧
      t.rd TWD.BC_WAIT.f = s.rd TWD.BC_LIVE.f % 2 ^ 32 ∧ t.dir = s.dir ∧ t.mem = s.mem ∧
      ∀ d : Fin 32, d.val ≠ 0 → bitOf (s.rd TWD.BC_LIVE.f) d = true → s.devJoined d = true →
        (s.rd (TWD.P_STAT_PSTATE.f (s.rd (TWD.ROST_VIA.f d))) = 2 ∨ s.rd (TWD.P_STAT_PSTATE.f (s.rd (TWD.ROST_VIA.f d))) = 3) →
        ∃ m ∈ t.twQ (s.rd (TWD.ROST_VIA.f d)), m.body = .bcSeal (s.rd TWD.BC_OBJ.f)) ∧
    (off < a.size → s.loadWaits a off n = true → Machine.exec (.bcast .send) s = .next s) ∧
    (off < a.size → s.loadWaits a off n = false → s.allocPoison a off n = true →
      ∃ t, Machine.exec (.bcast .send) s = .next t ∧
        t.rd TWD.BC_STAT_CODE.f = 5 ∧ t.flag TWD.BC_BUSY.f = false ∧ t.rd TWD.BC_PH.f = 0) ∧
    (off < a.size → s.loadWaits a off n = false → s.allocPoison a off n = false →
      ∃ t, Machine.exec (.bcast .send) s = .next t ∧
        t.rd TWD.BC_OFF.f = off + n ∧ t.dir = s.dir ∧ t.mem = s.mem ∧ t.rd TWD.BC_PH.f = 2 ∧
        ∀ d : Fin 32, d.val ≠ 0 → bitOf (s.rd TWD.BC_LIVE.f) d = true → s.devJoined d = true →
          (s.rd (TWD.P_STAT_PSTATE.f (s.rd (TWD.ROST_VIA.f d))) = 2 ∨ s.rd (TWD.P_STAT_PSTATE.f (s.rd (TWD.ROST_VIA.f d))) = 3) →
          ∃ m ∈ t.twQ (s.rd (TWD.ROST_VIA.f d)), m.body = .bcast (s.rd TWD.BC_OBJ.f) off n)) ∧
  (∀ (id : Word) (off : BitVec 36) (data : List Byte) (s : State),
    let x : HeldWrite := { id := id.toNat, off := off.toNat, data := data }
    let fits := ∀ w : TwPort, s.upstream = some w.val → s.rd (TWD.P_RBC.f w) + x.cells ≤ 224
    ((s.rd TWD.STAT_STATE.f ≠ 3 ∨ ¬fits) → Machine.exec (.bcast (.message id off data)) s = .next s) ∧
    (s.rd TWD.STAT_STATE.f = 3 → fits → ∃ t, Machine.exec (.bcast (.message id off data)) s = .next t ∧
      (∀ y r, s.bcIn ++ [x] = y :: r → s.bcPasses y = false → t.bcIn = s.bcIn ++ [x] ∧ t.mem = s.mem ∧ t.dir = s.dir ∧
        ∀ w : TwPort, s.upstream = some w.val → t.rd (TWD.P_RBC.f w) = s.rd (TWD.P_RBC.f w) + x.cells) ∧
      (s.bcIn = [] → s.bcPasses x = true → s.rd TWD.BC_SEALQ.f = 0 → t.bcIn = [] ∧
        (∀ u, s.objWrite id.toNat off.toNat data = some u → t.mem = u.mem ∧ t.dir = u.dir) ∧
        (s.objWrite id.toNat off.toNat data = none → t.mem = s.mem ∧ t.dir = s.dir) ∧
        (∀ w : TwPort, s.upstream = some w.val → t.rd (TWD.P_RBC.f w) = s.rd (TWD.P_RBC.f w) ∧
          t.rd (TWD.P_RETB.f w) = (s.rd (TWD.P_RETB.f w) + x.cells) % 2 ^ 9) ∧
        ∀ w : TwPort, s.flag (TWD.UPSTREAM.f w) = false →
          (s.rd (TWD.P_STAT_PSTATE.f w) = 2 ∨ s.rd (TWD.P_STAT_PSTATE.f w) = 3) →
          ((t.twQ w).map fun m => m.body) =
            ((s.twQ w).map fun m => m.body) ++ [.bcast id.toNat off.toNat data.length]))) ∧
  (∀ (d : Fin 32) (code : Byte) (s : State), s.isMaster = true → s.rd TWD.BC_PH.f = 3 → bitOf (s.rd TWD.BC_WAIT.f) d = true →
    s.rd TWD.BC_MASK.f < 2 ^ 32 → s.rd TWD.BC_DONE.f < 2 ^ 32 → s.rd TWD.BC_FAILM.f < 2 ^ 32 →
    s.flag TWD.BC_BUSY.f = true →
    let m := s.rd TWD.BC_MASK.f
    ∃ t, Machine.exec (.bcSeal (.outcome d code)) s = .next t ∧ t.bit TWD.BC_WAIT.f d = false ∧
      (code = 0 → t.bit TWD.BC_DONE.f d = true ∧ Same [TWD.BC_FAILM.f] s t) ∧
      (code ≠ 0 → t.bit TWD.BC_FAILM.f d = true ∧ Same [TWD.BC_DONE.f] s t) ∧
      (t.flag TWD.BC_BUSY.f = false ↔ (m &&& (t.rd TWD.BC_DONE.f ||| t.rd TWD.BC_FAILM.f)) = m) ∧
      ((m &&& (t.rd TWD.BC_DONE.f ||| t.rd TWD.BC_FAILM.f)) = m →
        t.rd TWD.BC_STAT_CODE.f = if (t.rd TWD.BC_FAILM.f &&& m) = 0 then 0 else 2))

/-- While EN and LINK hold, a frame is counted; a bad FCS is counted, and a frame that is foreign, malformed, of a
kind that is not supported (IPv4 options or fragments, IPv6 extension headers, an SLP datagram without its checksum,
VER or length), too long, wrongly tagged or finds 256 KiB full is counted as dropped; another is buffered, and PAUSE
is sent once the buffer holds three quarters. A request of a TYPE that R442 does not list is answered with GCODE 1.
PAUSE with quanta halts transmission for 51.2 ns each; their end, and not before, or quanta 0 sends what waited,
stream by stream in order. LINK_CHANGE shows block lock, MOD_ABS and LOS. ARP is answered for a non-zero ETH_IPV4, a
neighbour solicitation for the link-local address with the modified EUI-64 of the MAC address and for a non-zero
global address, an echo of up to 1,472 bytes for those. With PTP_EN, in DOMAIN, a better data set names a new master
and drops PTP_LOCK; a Sync of the best master gives the offset, and the sixteenth in succession within 1 us sets
PTP_LOCK. That data sets compare as one number, the length of a quantum and which frames go to groups are the
model's choices (log entries 68 and 73). Without the port nothing changes. (R430, R431, R433, R434, R454) -/
def Obligations.TheHostPortLinkAndAddresses : Prop :=
  (∀ (f : EthFrame) (s : State),
    let sum := s.rd ETH.RX_FILL.f + f.bytes.toNat
    let tag := (if f.vid.isSome then 4 else 0)
    let ok := f.wellFormed = true ∧ s.bodyOk f.body = true ∧
      (f.dst.toNat = s.rd ETH.MAC_LO.f + s.rd ETH.MAC_HI.f * 2 ^ 32 ∨ (bodyToGroup f.body = true ∧ f.dst.getLsbD 40 = true)) ∧
      (match f.vid with
        | none => s.flag ETH.VLAN_EN.f = false
        | some v => s.flag ETH.VLAN_EN.f = true ∧ v.toNat = s.rd ETH.VLAN_VID.f) ∧
      f.bytes.toNat ≤ 9216 + tag ∧ sum ≤ 262144
    (s.rxOk = false → Machine.exec (.ethFrame f) s = .next s) ∧
    (s.rxOk = true → (f.fcsOk = true → ok → unlistedRequest f = none) → ∃ t, Machine.exec (.ethFrame f) s = .next t ∧
      t.rd ETH.RX_FRAMES.f = satInc 32 (s.rd ETH.RX_FRAMES.f) ∧
      (f.fcsOk = false → t.rd ETH.RX_FCS.f = satInc 32 (s.rd ETH.RX_FCS.f) ∧
        OnlyRegs [ETH.RX_FRAMES.f.key, ETH.RX_FCS.f.key] s t) ∧
      (f.fcsOk = true → ¬ok → t.rd ETH.RX_DROP.f = satInc 32 (s.rd ETH.RX_DROP.f) ∧
        OnlyRegs [ETH.RX_FRAMES.f.key, ETH.RX_DROP.f.key] s t) ∧
      (f.fcsOk = true → ok → t.rd ETH.RX_FILL.f = sum ∧
        (s.flag ETH.PAUSE_EN.f = true → 196608 ≤ sum → t.flag ETH.TX_PAUSE.f = true) ∧
        OnlyRegs [ETH.RX_FRAMES.f.key, ETH.RX_FILL.f.key, ETH.TX_PAUSE.f.key, ETH.TX_FRAMES.f.key] s t)) ∧
    (∀ h typ tg, f.fcsOk = true → ok → unlistedRequest f = some (h, typ, tg) → RequestMay s h →
      ∃ t w, Machine.exec (.ethFrame f) s = .next t ∧ Answered (typ.toNat % 128) tg 1 0 [] w t ∧
        OnlyRegs [ETH.RX_FRAMES.f.key, ETH.RX_FILL.f.key, ETH.TX_PAUSE.f.key, ETH.TX_FRAMES.f.key] s w)) ∧
  (∀ (s : State) (d : Word) (d6 : BitVec 128) (o f : Bool) (p : EthPayload),
    (s.bodyOk (.ip4 d o f p) = true → o = false ∧ f = false ∧ (p = .solicitation → False) ∧
      (p ≠ .ptp → d.toNat = s.rd ETH.IPV4.f ∧ d ≠ 0)) ∧
    (s.bodyOk (.ip6 d6 o p) = true → o = false ∧ (p ≠ .ptp → p ≠ .solicitation → s.ownIp6 d6.toNat = true)) ∧
    s.bodyOk .other = false ∧ s.bodyOk .arp = true ∧ s.bodyOk .pause = true ∧
    (∀ v6, s.payloadOk v6 .other = false ∧ (s.payloadOk v6 .ptp = s.flag ETH.PTP_EN.f)) ∧
    (∀ (v6 c : Bool) (port : BitVec 16) (x : List Byte), s.payloadOk v6 (.udp port c x) = true →
      c = true ∧ port.toNat = s.rd ETH.SLP_PORT.f ∧ 24 ≤ x.length ∧ x.length % 4 = 0 ∧
      slpWord x 0 % 256 = 1 ∧ slpWord x 0 / 2 ^ 8 % 16 ≤ 10 ∧ x.length = 24 + slpWord x 4 % 2 ^ 14 ∧
      x.length ≤ 24 + (if s.flag ETH.SESS.f = true then s.rd ETH.MAXPAY.f else 9088))) ∧
  (∀ (q : BitVec 16) (s : State),
    (¬(s.rxOk = true ∧ s.flag ETH.PAUSE_EN.f = true) → Machine.exec (.pause q) s = .next s) ∧
    (s.rxOk = true → s.flag ETH.PAUSE_EN.f = true → ∃ t, Machine.exec (.pause q) s = .next t ∧
      t.flag ETH.PAUSED.f = decide (q ≠ 0) ∧
      (q ≠ 0 → t.rd ETH.PAUSE_END.f = (s.time + (q.toNat * 512 + 9) / 10) % 2 ^ 64 ∧
        OnlyRegs [ETH.PAUSED.f.key, ETH.PAUSE_END.f.key] s t) ∧ (q = 0 → Flushed s t))) ∧
  (∀ s : State, ((s.flag ETH.PAUSED.f = false ∨ s.time < s.rd ETH.PAUSE_END.f) → Machine.exec .pauseExpiry s = .next s) ∧
    (s.flag ETH.PAUSED.f = true → s.rd ETH.PAUSE_END.f ≤ s.time → ∃ t, Machine.exec .pauseExpiry s = .next t ∧ t.flag ETH.PAUSED.f = false ∧ Flushed s t)) ∧
  (∀ (l m o : Bool) (s : State), ∃ t, Machine.exec (.linkChange l m o) s = .next t ∧ t.flag ETH.LINK.f = l ∧
    t.flag ETH.MOD_ABS.f = m ∧ t.flag ETH.LOS.f = o ∧ (l = true → Flushed s t) ∧
    (l = false → OnlyRegs [ETH.LINK.f.key, ETH.MOD_ABS.f.key, ETH.LOS.f.key] s t)) ∧
  (∀ s : State,
    let mac := s.rd ETH.MAC_LO.f + s.rd ETH.MAC_HI.f * 2 ^ 32
    let own4 := fun a : Nat => a = s.rd ETH.IPV4.f ∧ a ≠ 0
    let own6 := fun a : Nat =>
      (a / 2 ^ 64 = 0xFE80 * 2 ^ 48 ∧ a / 2 ^ 40 % 2 ^ 24 = (mac / 2 ^ 24 ^^^ 0x020000) ∧ a / 2 ^ 24 % 2 ^ 16 = 0xFFFE ∧
        a % 2 ^ 24 = mac % 2 ^ 24) ∨ (a = s.globalIp ∧ a ≠ 0)
    s.rd ETH.MAC_LO.f < 2 ^ 32 → s.rd ETH.MAC_HI.f < 2 ^ 16 →
    (∀ ip : Word, (s.rxOk = true ∧ own4 ip.toNat → ∃ t, Machine.exec (.arp ip) s = .next t ∧ Replied .arp s t) ∧
      (¬(s.rxOk = true ∧ own4 ip.toNat) → Machine.exec (.arp ip) s = .next s)) ∧
    (∀ a : BitVec 128, (s.rxOk = true ∧ own6 a.toNat →
        ∃ t, Machine.exec (.neighbourSolicitation a) s = .next t ∧ Replied .advertisement s t) ∧
      (¬(s.rxOk = true ∧ own6 a.toNat) → Machine.exec (.neighbourSolicitation a) s = .next s)) ∧
    (∀ (v6 : Bool) (a : BitVec 128) (len : BitVec 14),
      let own := s.rxOk = true ∧ (if v6 then own6 a.toNat else own4 a.toNat) ∧ len.toNat ≤ 1472
      (own → ∃ t, Machine.exec (.echo v6 a len) s = .next t ∧ Replied .echo s t) ∧
      (¬own → Machine.exec (.echo v6 a len) s = .next s))) ∧
  (∀ (d : Byte) (ds : BitVec 127) (s : State),
    let runs := s.rxOk = true ∧ s.flag ETH.PTP_EN.f = true ∧ d.toNat = s.rd ETH.PTP_CFG_DOMAIN.f
    let best := s.rd ETH.PTP_BEST.f
    (∀ utc : BitVec 16,
      (¬runs → Machine.exec (.announce d ds utc) s = .next s) ∧
      (runs → ∃ t, Machine.exec (.announce d ds utc) s = .next t ∧
        (best = 0 ∨ ds.toNat + 1 < best → t.rd ETH.PTP_BEST.f = ds.toNat + 1 ∧ t.rd ETH.PTP_UTC.f = utc.toNat ∧
          t.flag ETH.PTP_LOCK.f = false) ∧
        (ds.toNat + 1 = best → t.rd ETH.PTP_UTC.f = utc.toNat ∧ OnlyRegs [ETH.PTP_UTC.f.key] s t) ∧
        (best ≠ 0 → best < ds.toNat + 1 → t = s) ∧
        OnlyRegs [ETH.PTP_BEST.f.key, ETH.PTP_UTC.f.key, ETH.PTP_CNT.f.key, ETH.PTP_LOCK.f.key] s t)) ∧
    (∀ ofs : Word, (¬(runs ∧ ds.toNat + 1 = best) → Machine.exec (.syncMessage d ds ofs) s = .next s) ∧
      (runs → ds.toNat + 1 = best → ∃ t, Machine.exec (.syncMessage d ds ofs) s = .next t ∧
        t.rd ETH.PTP_OFS.f = ofs.toNat ∧
        (ofs.toInt < -1000 ∨ 1000 < ofs.toInt → t.flag ETH.PTP_LOCK.f = false ∧ t.rd ETH.PTP_CNT.f = 0) ∧
        (-1000 ≤ ofs.toInt → ofs.toInt ≤ 1000 → t.rd ETH.PTP_CNT.f = min 16 (s.rd ETH.PTP_CNT.f + 1) ∧
          t.flag ETH.PTP_LOCK.f = decide (15 ≤ s.rd ETH.PTP_CNT.f) ∧
          (15 ≤ s.rd ETH.PTP_CNT.f → s.flag ETH.PTP_LOCK.f = false → t.rd LDG.ALIGN_NEXT.f = s.time % 2 ^ 64)) ∧
        OnlyRegs [LDG.ALIGN_NEXT.f.key, ETH.PTP_OFS.f.key, ETH.PTP_CNT.f.key, ETH.PTP_LOCK.f.key] s t)))

/-- An OPEN of session 0 with a bad MAXPAY or length is refused with GCODE 2, one without FORCE while a session is
bound with GCODE 4; another opens a session with a non-zero ID, the sender's addresses and MAXPAY, every stream at
SEQ 0 in both directions but for the OPEN itself and its response, which holds SYS_ID, SYS_REV, SYS_CAP and
CFG_STATE; one within a session gets GCODE 2. CLOSE, SESS_END and ETH_SESS_TO without a frame of the peer end it:
frames not acknowledged are discarded, notices and flow messages go back to their stream, an open READ, flash update
and debug session of port S end, with what its requests still had to do, and results, records, notices and received
messages stay. Every SLP message that does not carry the bound session, or that arrives while none is bound, is
answered with RESET and changes nothing else; without the link nothing happens. The session ID is a free value. What
a refused OPEN answers outside a session is the model's choice (log entry 72). (R438, R439, R442, R443) -/
def Obligations.SessionsOpenAndEnd : Prop :=
  (∀ (h : SlpHdr) (p : SlpPeer) (tag mp : Word) (force : Bool) (s : State), s.rxOk = true → h.session = 0 →
    let bad := h.wrongLen = true ∨ mp.toNat % 64 ≠ 0 ∨ mp.toNat < 1024 ∨ 9088 < mp.toNat
    (bad → ∃ t, Machine.exec (.slpOpen h p tag mp force) s = .next t ∧ Replied (.openRefused 2) s t) ∧
    (¬bad → s.flag ETH.SESS.f = true → force = false →
      ∃ t, Machine.exec (.slpOpen h p tag mp force) s = .next t ∧ Replied (.openRefused 4) s t) ∧
    (¬bad → (s.flag ETH.SESS.f = true → force = true) →
      (s.flag ETH.SESS.f = false → s.waitOf 0 = [] ∧ s.unackedOf 0 = []) →
      ∃ t, Machine.exec (.slpOpen h p tag mp force) s = .next t ∧ t.flag ETH.SESS.f = true ∧
        t.rd ETH.SESSION.f ≠ 0 ∧ t.rd ETH.SESSION.f = Config.sessionId s.free % (2 ^ 32 - 1) + 1 ∧ t.free = s.free + 1 ∧
        t.rd ETH.MAXPAY.f = mp.toNat ∧ t.rd ETH.PEER_MAC.f = p.mac.toNat ∧ t.rd ETH.PEER_IP.f = p.ip.toNat ∧
        t.rd ETH.PEER_PORT.f = p.port.toNat ∧ t.flag ETH.PEER_V6.f = p.v6 ∧
        t.txFrames 0 = [[tag.toNat, 0, s.regValue SYS.ID.base, s.regValue SYS.REV_MAJOR.base, s.sysCap, s.cfgState]] ∧
        (s.txOk = true → t.waitOf 0 = []) ∧
        (∀ n, n < 11 → t.rd (ETH.RX_NEXT.f n) = (if n = 0 then 1 else 0) ∧
          t.rd (ETH.TX_SEQ.f n) = (if n = 0 ∧ s.txOk = true then 1 else 0)) ∧
        t.results = s.results ∧ t.rxMsgs = s.rxMsgs ∧ t.notices = s.notices ∧ t.mem = s.mem ∧
        ∀ k, k / 2 ^ 48 ≠ ETH.ans.id → ∀ d, t.tabs.get k d = s.tabs.get k d)) ∧
  (∀ (h : SlpHdr) (p : SlpPeer) (tag mp : Word) (force : Bool) (s : State), RequestMay s h → h.session ≠ 0 →
    ∃ t, Machine.exec (.slpOpen h p tag mp force) s = .next t ∧ Answered 0x10 tag 2 0 [] s t ∧ RequestOnly h [] [] s t) ∧
  (∀ (h : SlpHdr) (tag : Word) (s : State), RequestMay s h → h.wrongLen = false →
    ∃ t, Machine.exec (.slpClose h tag) s = .next t ∧ SessionOver s t ∧
      t.rd ETH.TX_FRAMES.f = satInc 32 (s.rd ETH.TX_FRAMES.f)) ∧
  (∀ s : State,
    let stale := s.rd ETH.LAST_RX.f + max 1 (s.rd ETH.SESS_TO.f) * 10 ^ 6 ≤ s.time
    ((s.flag ETH.SESS.f = false ∨ ¬stale) → Machine.exec .sessionTimeout s = .next s) ∧
    (s.flag ETH.SESS.f = true → stale → ∃ t, Machine.exec .sessionTimeout s = .next t ∧ SessionOver s t) ∧
    (s.openTo 12 .eth = true → (s.flag ETH.SESS.f = false → Machine.exec .sessEnd s = .next s) ∧
      (s.flag ETH.SESS.f = true → ∃ t, Machine.exec .sessEnd s = .next t ∧ SessionOver s t))) ∧
  (∀ (h : SlpHdr) (tag a b c : Word) (x : BitVec 64) (l : List CsrEntry) (k : BitVec 320) (ok : Bool)
    (bs : List Byte) (ws : List Word) (q : Fin 4) (p : SlpPeer) (n : Fin 11) (y : SlpAck) (s : State),
    s.ratioBad = false →
    let rows : List Instr := [.slpClose h tag, .slpStatus h tag, .slpCal h tag a b c c, .slpRead h tag a x b,
      .slpKey h tag a k, .slpFlBegin h tag a b ok, .slpFlData h a b bs ok, .slpFlCommit h tag a b c ok,
      .slpRestart h tag a, .slpShutdown h tag, .slpStandby h tag, .slpCsr h tag l, .slpObjData h a x bs,
      .slpMsg h q ws, .slpDebugRequest h tag l, .acknowledgement h.session n y]
    (s.rxOk = false → ∀ r ∈ Instr.slpOpen h p tag a ok :: rows, Machine.exec r s = .next s) ∧
    (s.rxOk = true → (s.flag ETH.SESS.f = false ∨ h.session.toNat ≠ s.rd ETH.SESSION.f) →
      (∀ r ∈ rows, ∃ t, Machine.exec r s = .next t ∧ Replied .reset s t) ∧
      (h.session ≠ 0 → ∃ t, Machine.exec (.slpOpen h p tag a ok) s = .next t ∧ Replied .reset s t)) ∧
    (s.rxOk = true → s.flag ETH.SESS.f = true → h.session.toNat = s.rd ETH.SESSION.f → s.safeOnly = true →
      (∀ r ∈ [Instr.slpMsg h q ws, .slpDebugRequest h tag l], Machine.exec r s = .next s) ∧
      (2 ≤ n.val → Machine.exec (.acknowledgement h.session n y) s = .next s)))

/-- Let the next message of stream 0 be a request that may be executed and answered at once. Of a wrong length it is
answered with GCODE 2; in SAFE_ONLY any but CLOSE, STATUS, FL_BEGIN, FL_COMMIT and RESTART with GCODE 3, with no
effect. STATUS answers CFG_STATE, CFG_FAIL_CAP, CFG_IMG_VER and the self-test summary. CAL and KEY do what Calico's
and the key unit's command with these arguments does, and answer its outcome; CAL has GCODE 3 without READY, and an
object created or sealed is watched. READ opens a read within a readable allocation, else GCODE 2, or 4 beside an
open one. FL_BEGIN opens an update of a slot that is large enough, else BCODE 1, 2, or GCODE 4; FL_COMMIT ends it
and writes the directory on a CRC match and a valid word 2, else BCODE 4, 2, 3 or 5. RESTART is a warm restart with
CFG_NEXT := slot, nothing while BUSY, the self-test again in a hold by a FAILED record, GCODE 2 beyond slot 3.
SHUTDOWN holds all and begins the self-test, STANDBY begins entry; a load holds both, fallback refuses STANDBY. CSR
and debug requests run their entries in order, with a turn of the other masters between two, wait where an access
waits, and answer each value and status once the last is done; more than 512 get GCODE 2. An access that ends the
session leaves the rest undone and unanswered (the model's choice, log entry 71). (R377, R442, R443, R444, R445,
R446, R448, R450, R480, R521, R523, R536) -/
def Obligations.RequestsAreExecutedAndAnswered : Prop :=
  (∀ (h : SlpHdr) (tag : Word) (s : State), RequestMay s h → s.ratioBad = false →
    (∀ (a b c : Word) (x : BitVec 64) (l : List CsrEntry) (k : BitVec 320) (ok : Bool),
      let always : List (Nat × Instr) := [(0x11, .slpClose h tag), (0x12, .slpStatus h tag),
        (0x40, .slpFlBegin h tag a b ok), (0x41, .slpFlCommit h tag a b c ok), (0x50, .slpRestart h tag a)]
      let loaded : List (Nat × Instr) := [(0x20, .slpCal h tag a b c c), (0x21, .slpRead h tag a x b),
        (0x30, .slpKey h tag a k), (0x51, .slpShutdown h tag), (0x52, .slpStandby h tag), (0x60, .slpCsr h tag l)]
      (h.wrongLen = true → ∀ r ∈ always, ∃ t, Machine.exec r.2 s = .next t ∧ Answered r.1 tag 2 0 [] s t ∧
        RequestOnly h [] [] s t) ∧
      (h.wrongLen = true → ∀ r ∈ loaded, ∃ t, Machine.exec r.2 s = .next t ∧
        Answered r.1 tag (if s.safeOnly then 3 else 2) 0 [] s t ∧ RequestOnly h [] [] s t) ∧
      (s.safeOnly = true → ∀ r ∈ loaded, ∃ t, Machine.exec r.2 s = .next t ∧ Answered r.1 tag 3 0 [] s t ∧
        RequestOnly h [] [] s t)) ∧
    (h.wrongLen = false →
      (∃ t, Machine.exec (.slpStatus h tag) s = .next t ∧ Answered 0x12 tag 0 0
        ([s.cfgState, s.regValue CFG.FAIL_CAP_CAUSE.base, s.rd CFG.IMG_VER.f] ++
          (if s.flag LDG.BST_ANY.f then
            (List.range 8).map fun w => s.tab LDG.sram 0 (0x800 + 8 * s.rd LDG.BST_HEAD.f + w)
          else [2, 0, 0, 0, 0, 0, 0, 0])) s t ∧ RequestOnly h [] [] s t) ∧
      (∀ slot : Word,
        (4 ≤ slot.toNat → ∃ t, Machine.exec (.slpRestart h tag slot) s = .next t ∧ Answered 0x50 tag 2 0 [] s t ∧
          RequestOnly h [] [] s t) ∧
        (slot.toNat < 4 → s.flag BST.HOLD.f = false → s.flag CFG.BUSY.f = true →
          ∃ t, Machine.exec (.slpRestart h tag slot) s = .next t ∧ Answered 0x50 tag 0 0 [] s t ∧ RequestOnly h [] [] s t) ∧
        (slot.toNat < 4 → s.flag BST.HOLD.f = true → s.flag BST.RUN.f = false → s.bstWhy = 0 →
          ∃ t, Machine.exec (.slpRestart h tag slot) s = .next t ∧ Answered 0x50 tag 0 0 [] s t ∧
            t.flag BST.RUN.f = true ∧ t.rd BST.WAIT.f = 3) ∧
        (slot.toNat < 4 → s.flag BST.HOLD.f = false → s.flag CFG.BUSY.f = false → s.dramHeld = false →
          ∃ t, Machine.exec (.slpRestart h tag slot) s = .next t ∧ t.rd CFG.NEXT_SLOT.f = slot.toNat ∧
            t.rd CFG.STATE_START.f = 1 ∧ t.rd CFG.STATE_STEP.f = 2 ∧ t.flag CFG.LOADED.f = false ∧
            t.flag ETH.SESS.f = false ∧ t.cores = [])) ∧
      (∀ (slot size : Word) (ok : Bool), s.requestWaits (.flBegin tag slot size ok) = false →
        let opens := s.flag CFG.DIR_OK.f = true ∧ slot.toNat < 3 ∧
          size.toNat ≤ s.tab CFG.dirw 0 (4 + 2 * slot.toNat) * 65536
        ∃ t, Machine.exec (.slpFlBegin h tag slot size ok) s = .next t ∧
          RequestOnly h [] [ETH.FL_OPEN.f.key, ETH.FL_SLOT.f.key, ETH.FL_SIZE.f.key, ETH.FL_POS.f.key, ETH.FL_BAD.f.key] s t ∧
          (s.flag ETH.FL_OPEN.f = true → Answered 0x40 tag 4 0 [] s t ∧ RequestOnly h [] [] s t) ∧
          (s.flag ETH.FL_OPEN.f = false → ¬opens → Answered 0x40 tag 0 1 [] s t ∧ RequestOnly h [] [] s t) ∧
          (s.flag ETH.FL_OPEN.f = false → opens → ok = false → Answered 0x40 tag 0 2 [] s t ∧ RequestOnly h [] [] s t) ∧
          (s.flag ETH.FL_OPEN.f = false → opens → ok = true → Answered 0x40 tag 0 0 [] s t ∧
            t.flag ETH.FL_OPEN.f = true ∧ t.rd ETH.FL_SLOT.f = slot.toNat ∧ t.rd ETH.FL_SIZE.f = size.toNat ∧
            t.rd ETH.FL_POS.f = 0)) ∧
      (∀ (crc dir2 readback : Word) (ok : Bool),
        let valid := orderWordOk dir2.toNat = true
        let good := crc = readback ∧ valid ∧ ok = true
        ∃ t, Machine.exec (.slpFlCommit h tag crc dir2 readback ok) s = .next t ∧ t.flag ETH.FL_OPEN.f = false ∧
          RequestOnly h [.tabs] [ETH.FL_OPEN.f.key] s t ∧
          (s.flag ETH.FL_OPEN.f = false → Answered 0x41 tag 0 4 [] s t ∧ t.tabs = s.tabs) ∧
          (s.flag ETH.FL_OPEN.f = true → s.flag ETH.FL_BAD.f = true → Answered 0x41 tag 0 2 [] s t ∧ t.tabs = s.tabs) ∧
          (s.flag ETH.FL_OPEN.f = true → s.flag ETH.FL_BAD.f = false → ¬good → t.tabs = s.tabs ∧
            Answered 0x41 tag 0 (if crc ≠ readback then 3 else if orderWordOk dir2.toNat then 2 else 5) [] s t) ∧
          (s.flag ETH.FL_OPEN.f = true → s.flag ETH.FL_BAD.f = false → good → Answered 0x41 tag 0 0 [] s t ∧
            t.tab CFG.dirw 0 1 = (s.tab CFG.dirw 0 1 + 1) % 2 ^ 32 ∧ t.tab CFG.dirw 0 2 = dir2.toNat ∧
            (∀ i, i < 15 → i ≠ 1 → i ≠ 2 → t.tab CFG.dirw 0 i = s.tab CFG.dirw 0 i % 2 ^ 32) ∧
            t.tab CFG.dirw 0 15 = crc32 ((List.range 15).flatMap fun i => natBytes (t.tab CFG.dirw 0 i) 4))))) ∧
  (∀ (h : SlpHdr) (tag : Word) (s : State), RequestMay s h → h.wrongLen = false → s.safeOnly = false →
    (∀ (cmd id lo hi : Word),
      (s.flag CAL.READY.f = false → ∃ t, Machine.exec (.slpCal h tag cmd id lo hi) s = .next t ∧
        Answered 0x20 tag 3 0 [] s t ∧ RequestOnly h [] [] s t) ∧
      (s.flag CAL.READY.f = true →
        let k := cmd.toNat % 16
        let row := if k = 1 then Instr.create else if k = 2 then Instr.alloc else if k = 3 then Instr.seal
          else if k = 4 then Instr.delete else if k = 5 then Instr.query else Instr.calCmdInvalid
        ∃ t u, Machine.exec (.slpCal h tag cmd id lo hi) s = .next t ∧
          Machine.exec (row (.msg id (BitVec.ofNat 37 (lo.toNat + hi.toNat * 2 ^ 32)) (BitVec.ofNat 4 (cmd.toNat / 16))
            (BitVec.ofNat 4 (cmd.toNat / 256)))) (s.slpTook 0 h) = .next u ∧
          Answered 0x20 tag 0 (u.rd CAL.X_CODE.f) ((List.range 8).map fun k => u.rd (CAL.X_OUT.f k)) s t ∧
          t.dir = u.dir ∧ t.mem = u.mem ∧ t.tabs = u.tabs ∧ t.raised = u.raised ∧
          t.slpObjs = (if u.rd CAL.X_CODE.f = 0 ∧ (k = 1 ∨ k = 3)
            then (s.slpObjs.filter fun y => y != id.toNat) ++ [id.toNat] else s.slpObjs))) ∧
    (∀ (cmd : Word) (blob : BitVec 320),
      ∀ x ∈ [(0, Instr.kwInvalid), (1, Instr.kwLoad), (2, Instr.kwErase), (3, Instr.kwInvalid)], cmd.toNat % 4 = x.1 →
      ∃ t u, Machine.exec (.slpKey h tag cmd blob) s = .next t ∧
        Machine.exec (x.2 (.msg (BitVec.ofNat 2 x.1) (BitVec.ofNat 4 (cmd.toNat / 256)) blob)) (s.slpTook 0 h) = .next u ∧
        Answered 0x30 tag 0 (u.rd CAL.X_CODE.f) [] s t ∧ t.dir = u.dir ∧ t.mem = u.mem ∧ t.tabs = u.tabs ∧
        ∀ k, t.rd (ENC.KEY.f k) = u.rd (ENC.KEY.f k)) ∧
    (∀ (id : Word) (off : BitVec 64) (len : Word), ∃ t, Machine.exec (.slpRead h tag id off len) s = .next t ∧
      let ok := fun a : Alloc => a.kind ∈ [0, 1, 2, 4, 5] ∧ (a.st = 3 ∨ a.st = 5) ∧ off.toNat % 64 = 0 ∧
        len.toNat % 64 = 0 ∧ off.toNat + len.toNat ≤ a.size
      (s.flag ETH.RD_OPEN.f = true → Answered 0x21 tag 4 0 [] s t ∧ RequestOnly h [] [] s t) ∧
      (s.flag ETH.RD_OPEN.f = false → (∀ a, s.alloc? id.toNat = some a → ¬ok a) → Answered 0x21 tag 2 0 [] s t ∧
        RequestOnly h [] [] s t) ∧
      (∀ a, s.flag ETH.RD_OPEN.f = false → s.alloc? id.toNat = some a → ok a → a.size ≤ 2 ^ 36 →
        Answered 0x21 tag 0 0 [] s t ∧ t.flag ETH.RD_OPEN.f = true ∧ t.rd ETH.RD_TAG.f = tag.toNat ∧
        t.rd ETH.RD_ID.f = id.toNat ∧ t.rd ETH.RD_POS.f = off.toNat ∧ t.rd ETH.RD_END.f = off.toNat + len.toNat ∧
        (useRead, id.toNat) ∈ t.uses ∧ t.mem = s.mem ∧ t.dir = s.dir)) ∧
    (s.flag CFG.BUSY.f = true → ∃ t, Machine.exec (.slpShutdown h tag) s = .next t ∧ Answered 0x51 tag 0 0 [] s t ∧
      t.rd PWR.STBY_HELD.f = 3 ∧ RequestOnly h [] [PWR.STBY_HELD.f.key] s t) ∧
    (s.flag CFG.BUSY.f = false → ∃ t, Machine.exec (.slpShutdown h tag) s = .next t ∧ t.flag ETH.SESS.f = false ∧
      t.flag VLV.OUT_HELD.f = true ∧ t.fifos = [] ∧ t.results = [] ∧ t.mem = s.mem ∧
      ((t.flag BST.RUN.f = true ∧ t.rd BST.WAIT.f = 2) ∨ (t.flag LDG.FLUSH_OFF.f = true ∧ t.flag LDG.FLUSH_BUSY.f = true) ∨
        t.flag PWR.EN_MAIN.f = false)) ∧
    (s.standbyRefused = true → ∃ t, Machine.exec (.slpStandby h tag) s = .next t ∧ Answered 0x52 tag 3 0 [] s t ∧
      t.flag PWR.STBY_REFUSED.f = true ∧ RequestOnly h [] [PWR.STBY_REFUSED.f.key] s t) ∧
    (s.standbyRefused = false → s.flag PWR.STBY_PEND.f = false →
      ∃ t, Machine.exec (.slpStandby h tag) s = .next t ∧
      (s.flag CFG.BUSY.f = true → Answered 0x52 tag 0 0 [] s t ∧ t.rd PWR.STBY_HELD.f = 2 ∧
        RequestOnly h [] [PWR.STBY_HELD.f.key] s t) ∧
      (s.flag CFG.BUSY.f = false → t.flag PWR.STBY_PEND.f = true ∧ t.flag ETH.SESS.f = false ∧
        t.flag VLV.OUT_HELD.f = true ∧ t.fifos = [] ∧ t.results = [] ∧ t.mem = s.mem)) ∧
    (∀ l : List CsrEntry, 512 < l.length → s.ratioBad = false → ∃ t, Machine.exec (.slpCsr h tag l) s = .next t ∧
      Answered 0x60 tag 2 0 [] s t ∧ RequestOnly h [] [] s t) ∧
    (∀ l : List CsrEntry, l.length ≤ 512 →
      let p := (s.slpTook 0 h).runEntries .slp 0 l
      p.1.ratioBad = false →
      (p.1.flag ETH.SESS.f = false → ∃ t, Machine.exec (.slpCsr h tag l) s = .next t ∧ Only [.regs] p.1 t ∧ RegsBut [] p.1 t) ∧
      (p.1.flag ETH.SESS.f = true → p.1.heldOf 0 = [] → p.1.ctrlQ = [] →
        (p.2 = [] → MayAnswer p.1 0 → p.1.rd ETH.MAXPAY.f ≥ 8 + 4 * (p.1.answers 0).length →
          ∃ t, Machine.exec (.slpCsr h tag l) s = .next t ∧ Answered 0x60 tag 0 0 (p.1.answers 0) p.1 t ∧
            t.rd (ETH.ANS_N.f 0) = 0 ∧ t.mem = p.1.mem ∧ ∀ k, k / 2 ^ 48 ≠ ETH.ans.id → ∀ d, t.tabs.get k d = p.1.tabs.get k d) ∧
        (p.2 ≠ [] → ∃ t, Machine.exec (.slpCsr h tag l) s = .next t ∧ t.ctrlQ = [.csr tag p.2] ∧
          t.waitOf 0 = p.1.waitOf 0 ∧ t.unackedOf 0 = p.1.unackedOf 0 ∧ t.mem = p.1.mem ∧ t.tabs = p.1.tabs)))) ∧
  (∀ (k : Fin 2) (s : State) (a v : Word) (l : List CsrEntry),
    let m := if k.val = 0 then Master.slp else .dbgS
    let i := 2 * s.rd (ETH.ANS_N.f k)
    s.runEntries m k [] = (s, []) ∧
    (∀ e, s.mustWait (if e.write then .write m e.addr.toNat e.value.toNat else .read m e.addr.toNat) = true →
      s.runEntries m k (e :: l) = (s, e :: l)) ∧
    (∀ u, s.mustWait (.write m a.toNat v.toNat) = false → Machine.exec (.registerWrite m a v) s = .next u →
      u.rd (ETH.ANS_N.f k) = s.rd (ETH.ANS_N.f k) → u.flag ETH.SESS.f = true →
      ∃ w, s.runEntries m k (⟨true, a, v⟩ :: l) = w.serveTurn.runEntries m k l ∧ Only [.regs, .tabs] u w ∧
        RegsBut [(ETH.ANS_N.f k).key] u w ∧ TabsBut [ETH.ans.key k i, ETH.ans.key k (i + 1)] u w ∧
        w.rd (ETH.ANS_N.f k) = (s.rd (ETH.ANS_N.f k) + 1) % 2 ^ 10 ∧ w.tab ETH.ans k i = 0 ∧
        w.tab ETH.ans k (i + 1) = (match (s.busWrite m a.toNat 4 v.toNat).2 with
          | .ok _ => 0
          | _ => if k.val = 1 ∧ u.flag (DBG.DENIED.f 1) = true then 2 else 1)) ∧
    (∀ r, r = s.busRead m a.toNat 4 → s.mustWait (.read m a.toNat) = false →
      r.1.rd (ETH.ANS_N.f k) = s.rd (ETH.ANS_N.f k) → r.1.flag ETH.SESS.f = true →
      ∃ w, s.runEntries m k (⟨false, a, v⟩ :: l) = w.serveTurn.runEntries m k l ∧ Only [.regs, .tabs] r.1 w ∧
        RegsBut [(ETH.ANS_N.f k).key] r.1 w ∧ TabsBut [ETH.ans.key k i, ETH.ans.key k (i + 1)] r.1 w ∧
        (∀ x, r.2 = .ok x → w.tab ETH.ans k i = x % 2 ^ 32 ∧ w.tab ETH.ans k (i + 1) = 0) ∧
        ((∀ x, r.2 ≠ .ok x) → w.tab ETH.ans k i = 0 ∧
          w.tab ETH.ans k (i + 1) = if k.val = 1 ∧ r.1.flag (DBG.DENIED.f 1) = true then 2 else 1))) ∧
  (∀ (h : SlpHdr) (tag : Word) (l : List CsrEntry) (s : State), SlpMay s 3 h → s.dbgQ = [] → s.rd (ETH.ANS_N.f 1) = 0 →
    (h.wrongLen = true ∨ 512 < l.length → MayAnswer s 3 → s.ratioBad = false →
      ∃ t, Machine.exec (.slpDebugRequest h tag l) s = .next t ∧ SentOn 3 0xD0 [tag.toNat] .nothing s t ∧
        Only [.regs, .slpWait, .slpUnacked, .slpHeld] s t) ∧
    (h.wrongLen = false → l.length ≤ 512 →
    let p := (s.slpTook 3 h).runEntries .dbgS 1 l
    p.1.ratioBad = false → p.1.flag ETH.SESS.f = true → p.1.heldOf 3 = [] → p.1.ctrlQ = [] → p.1.dbgQ = [] →
    (p.2 = [] → MayAnswer p.1 3 → p.1.rd ETH.MAXPAY.f ≥ 4 + 4 * (p.1.answers 1).length →
      ∃ t, Machine.exec (.slpDebugRequest h tag l) s = .next t ∧ SentOn 3 0xD0 (tag.toNat :: p.1.answers 1) .nothing p.1 t ∧
        t.rd (ETH.ANS_N.f 1) = 0 ∧ t.mem = p.1.mem ∧ ∀ k, k / 2 ^ 48 ≠ ETH.ans.id → ∀ d, t.tabs.get k d = p.1.tabs.get k d) ∧
    (p.2 ≠ [] → ∃ t, Machine.exec (.slpDebugRequest h tag l) s = .next t ∧ t.dbgQ = [(tag, p.2)] ∧ t.mem = p.1.mem ∧
      t.waitOf 3 = p.1.waitOf 3 ∧ t.unackedOf 3 = p.1.unackedOf 3)))

/-- Of the bound session, a frame below the last ACK advertised is acknowledged again; one beyond the window, or
held already, is dropped; one ahead of a hole is held with nothing delivered; the next is delivered, and a frame
held behind it with it, in order. An ACK in a frame acts as an acknowledgement before it. OBJ_DATA waits while
Calico cannot take it, or is written or refused with a notice of code 2, 9, 3 or 7 (R447); FL_DATA goes on at the
offset it must have, or is refused with 4, 0x0B or 1; a flow message of 1 to 4,096 words enters its receive port.
The sixteenth frame owed, or 20 us, sends the acknowledgement. An acknowledgement that names frames never sent is
ignored (the model's choice, log entry 66); another frees the frames before it and takes what they carried: records
from the ring, results from the queue, pages from the re-upload list; SACK counts a frame, and the third count sends
it again. At its timeout, and not before, a frame is sent again; each sending again doubles its timeout, to at most
64 ms; after 16 sendings the session ends (log entry 66). (R225, R244, R439, R440, R441, R447, R448, R449, R452,
R453) -/
def Obligations.FramesAreTakenInOrderAndAcknowledged : Prop :=
  (∀ (h : SlpHdr) (tag : Word) (a b : Word) (x : BitVec 64) (bs : List Byte) (ok : Bool) (ws : List Word) (q : Fin 4)
    (s : State),
    s.rxOk = true → s.flag ETH.SESS.f = true → h.session.toNat = s.rd ETH.SESSION.f → s.safeOnly = false → s.ctrlQ = [] →
    ∀ r ∈ [(0, fun h => Instr.slpStatus h tag), (1, fun h => Instr.slpFlData h a b bs ok),
      (1, fun h => Instr.slpObjData h a x bs), (4 + q.val, fun h => Instr.slpMsg h q ws)],
    let n := r.1
    let adv := s.rd (ETH.ADV_ACK.f n)
    let low := seqBefore h.seq.toNat adv = true
    let beyond := s.rd (ETH.RX_WIN.f n) ≤ seqDist h.seq.toNat adv + h.more.toNat
    let had := seqBefore h.seq.toNat (s.rd (ETH.RX_NEXT.f n)) = true ∨ ∃ y ∈ s.heldOf n, y.seq = h.seq.toNat
    let keys := [(ETH.OWED.f n).key, (ETH.RX_WIN.f n).key, (ETH.ADV_ACK.f n).key, ETH.TX_FRAMES.f.key, ETH.LAST_RX.f.key]
    (h.ack = none → ∃ t, Machine.exec (r.2 h) s = .next t ∧ t.rd ETH.LAST_RX.f = s.time % 2 ^ 64 ∧
      (low → (s.txOk = false → OnlyRegs [ETH.LAST_RX.f.key] s t) ∧
        (s.txOk = true → t.rd (ETH.OWED.f n) = 0 ∧ t.rd ETH.TX_FRAMES.f = satInc 32 (s.rd ETH.TX_FRAMES.f) ∧
          OnlyRegs keys s t)) ∧
      (¬low → (beyond ∨ had) → OnlyRegs [ETH.LAST_RX.f.key] s t) ∧
      (¬low → ¬beyond → ¬had → h.seq.toNat ≠ s.rd (ETH.RX_NEXT.f n) →
        (∀ y ∈ s.heldOf n, y.seq ≠ s.rd (ETH.RX_NEXT.f n)) →
        (t.heldOf n).map (fun y => (y.seq, y.more)) =
          (s.heldOf n).map (fun y => (y.seq, y.more)) ++ [(h.seq.toNat, h.more.toNat)] ∧
        t.rd (ETH.RX_NEXT.f n) = s.rd (ETH.RX_NEXT.f n) ∧ Only [.regs, .slpHeld] s t ∧ RegsBut keys s t)) ∧
    (∀ k, h.ack = some k → s.Canon →
      let u := (s.wr ETH.LAST_RX.f s.time).ackTake n k
      u.rxOk = true → u.flag ETH.SESS.f = true → u.rd ETH.SESSION.f = s.rd ETH.SESSION.f → u.safeOnly = false →
      Machine.exec (r.2 h) s = Machine.exec (r.2 { h with ack := none }) u)) ∧
  (∀ (h : SlpHdr) (q : Fin 4) (w1 w2 : List Word) (s : State), SlpMay { s with slpHeld := [] } (4 + q) h →
    w1 ≠ [] → w1.length ≤ 4096 →
    (s.heldOf (4 + q) = [] → ∃ t, Machine.exec (.slpMsg h q w1) s = .next t ∧ Took (4 + q) h s t ∧
      t.rxMsgs.get q [] = s.rxMsgs.get q [] ++ [{ len := 4 * w1.length, words := w1.map fun w => w.toNat }] ∧
      (∀ p : Fin 4, p ≠ q → t.rxMsgs.get p [] = s.rxMsgs.get p []) ∧ Only [.regs, .rxMsgs, .slpHeld] s t ∧
      RegsBut (rxKeys (4 + q)) s t) ∧
    (w2 ≠ [] → w2.length ≤ 4096 →
      s.heldOf (4 + q) = [{ seq := (h.seq.toNat + h.more.toNat + 1) % 2 ^ 32, more := 0, msg := .flow q w2 }] →
      ∃ t, Machine.exec (.slpMsg h q w1) s = .next t ∧ t.heldOf (4 + q) = [] ∧
        t.rd (ETH.RX_NEXT.f (4 + q)) = (h.seq.toNat + h.more.toNat + 2) % 2 ^ 32 ∧
        t.rxMsgs.get q [] = s.rxMsgs.get q [] ++ [{ len := 4 * w1.length, words := w1.map fun w => w.toNat },
          { len := 4 * w2.length, words := w2.map fun w => w.toNat }] ∧
        Only [.regs, .rxMsgs, .slpHeld] s t)) ∧
  (∀ (h : SlpHdr) (q : Fin 4) (w : List Word) (s : State), SlpMay s (4 + q) h → (w = [] ∨ 4096 < w.length) →
    ∃ t, Machine.exec (.slpMsg h q w) s = .next t ∧ Took (4 + q) h s t ∧ Only [.regs, .slpHeld] s t ∧
      RegsBut (rxKeys (4 + q)) s t) ∧
  (∀ (h : SlpHdr) (slot off : Word) (data : List Byte) (ok : Bool) (s : State), SlpMay s 1 h →
    s.rd ETH.FL_SIZE.f < 2 ^ 32 → ∃ t, Machine.exec (.slpFlData h slot off data ok) s = .next t ∧ Took 1 h s t ∧
    let may := s.flag ETH.FL_OPEN.f = true ∧ slot.toNat = s.rd ETH.FL_SLOT.f
    let fits := off.toNat + data.length ≤ s.rd ETH.FL_SIZE.f
    (¬may → Noticed 2 4 slot.toNat off.toNat s t) ∧
    (may → off.toNat ≠ s.rd ETH.FL_POS.f → Noticed 2 0x0B slot.toNat off.toNat s t) ∧
    (may → off.toNat = s.rd ETH.FL_POS.f → ¬fits → Noticed 2 1 slot.toNat off.toNat s t) ∧
    (¬(may ∧ off.toNat = s.rd ETH.FL_POS.f ∧ fits) → Only [.regs, .notices, .slpHeld] s t ∧ RegsBut (rxKeys 1) s t) ∧
    (may → off.toNat = s.rd ETH.FL_POS.f → fits → t.rd ETH.FL_POS.f = off.toNat + data.length ∧
      t.flag ETH.FL_BAD.f = (s.flag ETH.FL_BAD.f || !ok) ∧
      Only [.regs, .slpHeld] s t ∧ RegsBut (ETH.FL_POS.f.key :: ETH.FL_BAD.f.key :: rxKeys 1) s t)) ∧
  (∀ (h : SlpHdr) (id : Word) (off : BitVec 64) (data : List Byte) (s : State),
    SlpMay s 1 h →
    let waits := s.safeOnly = false ∧ s.uploadWaits id.toNat off.toNat data.length = true
    (waits → ∃ t, Machine.exec (.slpObjData h id off data) s = .next t ∧
      t.heldOf 1 = [{ seq := h.seq.toNat, more := h.more.toNat, msg := .objData id off data }] ∧
      Only [.regs, .slpHeld] s t ∧ RegsBut ((ETH.RX_NEXT.f 1).key :: rxKeys 1) s t ∧ Same [ETH.RX_NEXT.f 1] s t) ∧
    (¬waits → ∃ t, Machine.exec (.slpObjData h id off data) s = .next t ∧ Took 1 h s t ∧
      let refused := fun c => Noticed 2 c id.toNat (off.toNat % 2 ^ 32) s t ∧ Only [.regs, .notices, .slpHeld] s t ∧
        RegsBut (rxKeys 1) s t
      let o := off.toNat
      (s.safeOnly = true → Only [.regs, .slpHeld] s t ∧ RegsBut (rxKeys 1) s t) ∧
      (s.safeOnly = false → s.alloc? id.toNat = none → refused 2) ∧
      (∀ a, s.safeOnly = false → s.alloc? id.toNat = some a →
        (a.kind ≠ 0 → refused 9) ∧
        (a.kind = 0 → ((a.st ≠ 1 ∧ a.st ≠ 4) ∨ a.allpois = true) → refused 3) ∧
        (a.kind = 0 → (a.st = 1 ∨ a.st = 4) → a.allpois = false → a.size < o + data.length → refused 7) ∧
        (a.kind = 0 → a.st = 1 → a.allpois = false → o + data.length ≤ a.size → a.marked = [] →
          o % 65536 + data.length ≤ 65536 → a.pages.getD (o / 65536) 0 < 2 ^ 28 →
          t.notices = s.notices ∧ t.dir = s.dir ∧
          t.rd CAL.UPQ.f = (s.rd CAL.UPQ.f + data.length) % 2 ^ CAL.UPQ.width ∧ ∀ i b, data[i]? = some b → t.dramByte a (a.pa (o + i)) = b) ∧
        (∀ u, s.safeOnly = false → s.uploadFault id.toNat o data.length = none → (s.slpTook 1 h).objWrite id.toNat o data = some u → t.mem = u.mem ∧ t.dir = u.dir ∧ t.tabs = u.tabs ∧
          t.notices = s.notices)))) ∧
  (∀ (n : Fin 11) (k : SlpAck) (id : Word) (s : State), s.rxOk = true → s.flag ETH.SESS.f = true →
    id.toNat = s.rd ETH.SESSION.f → (s.safeOnly = true → n.val < 2) → s.ctrlQ = [] → s.waitOf n = [] →
    let before := fun x : SlpTx => seqBefore x.seq k.ack.toNat
    let new := seqDist k.ack.toNat (s.rd (ETH.PEER_ACK.f n))
    ((s.unackedOf n).length < new → ∃ t, Machine.exec (.acknowledgement id n k) s = .next t ∧
      OnlyRegs [ETH.LAST_RX.f.key] s t) ∧
    (new ≤ (s.unackedOf n).length → ∃ t, Machine.exec (.acknowledgement id n k) s = .next t ∧
      t.rd (ETH.PEER_ACK.f n) = k.ack.toNat ∧ t.rd (ETH.PEER_WIN.f n) = k.win.toNat ∧
      (t.unackedOf n).map (fun x => (x.seq, x.words)) =
        ((s.unackedOf n).filter fun x => !before x).map (fun x => (x.seq, x.words)) ∧
      Only [.regs, .results, .pzList, .slpWait, .slpUnacked] s t ∧
      (∀ x, (s.unackedOf n).filter before = [x] →
        (∀ site m, x.rel = .records site m → site < 64 →
          t.rd (DMK.RING_RD.f site) = (s.rd (DMK.RING_RD.f site) + m) % 2 ^ 32 ∧ t.results = s.results) ∧
        (∀ site e r, x.rel = .results [site] → s.resultQ site = e :: r → (∀ y ∈ e :: r, y.bySlp = false) →
          s.flag (DMK.SITE_CFG_RES_SLP.f site) = true → s.flag (DMK.SITE_CFG_RES_PORT.f site) = false →
          site < 64 → t.resultQ site = r) ∧
        (∀ l, x.rel = .reupload l → t.pzList = s.pzList.filter fun y => !l.contains y) ∧
        (x.rel = .nothing → t.results = s.results ∧ t.pzList = s.pzList)) ∧
      (∀ x y, s.unackedOf n = [x, y] → x.seq = k.ack.toNat → y.seq = (x.seq + 1) % 2 ^ 32 → k.sack.getLsbD 0 = true →
        (x.skips < 2 → t.unackedOf n = [{ x with skips := x.skips + 1 }, y] ∨ s.txOk = false) ∧
        (2 ≤ x.skips → x.sends < 16 → s.txOk = true → t.unackedOf n = [{ x with sends := x.sends + 1, skips := 0, rto := min 64000 (2 * x.rto), sentAt := s.time }, y] ∧
          t.rd ETH.RETX.f = satInc 32 (s.rd ETH.RETX.f))))) ∧
  (∀ (n : Fin 11) (seq : Word) (s : State),
    ((∀ x ∈ s.unackedOf n, x.seq ≠ seq.toNat) → Machine.exec (.retransmitTimeout n seq) s = .next s) ∧
    (s.txOk = false → Machine.exec (.retransmitTimeout n seq) s = .next s) ∧
    (∀ x, (s.unackedOf n).filter (fun y => y.seq == seq.toNat) = [x] → s.time < x.sentAt + 1000 * x.rto →
      Machine.exec (.retransmitTimeout n seq) s = .next s) ∧
    (∀ x, (s.unackedOf n).filter (fun y => y.seq == seq.toNat) = [x] → s.txOk = true → x.sentAt + 1000 * x.rto ≤ s.time →
      ∃ t, Machine.exec (.retransmitTimeout n seq) s = .next t ∧
      (x.sends < 16 → t.unackedOf n = (s.unackedOf n).map (fun y => if y.seq = seq.toNat
          then { x with sends := x.sends + 1, skips := 0, rto := min 64000 (2 * x.rto), sentAt := s.time } else y) ∧
        t.rd ETH.RETX.f = satInc 32 (s.rd ETH.RETX.f) ∧ t.rd ETH.TX_FRAMES.f = satInc 32 (s.rd ETH.TX_FRAMES.f) ∧
        Only [.regs, .slpUnacked] s t ∧ RegsBut [ETH.RETX.f.key, ETH.TX_FRAMES.f.key] s t) ∧
      (16 ≤ x.sends → s.flag ETH.SESS.f = true → SessionOver s t)) ∧
    let owes := s.flag ETH.SESS.f = true ∧ s.rd (ETH.OWED.f n) ≠ 0 ∧ s.txOk = true
    (¬owes → Machine.exec (.ackDelay n) s = .next s) ∧
    (owes → ∃ t, Machine.exec (.ackDelay n) s = .next t ∧ t.rd (ETH.OWED.f n) = 0 ∧
      t.rd ETH.TX_FRAMES.f = satInc 32 (s.rd ETH.TX_FRAMES.f) ∧
      OnlyRegs [(ETH.OWED.f n).key, (ETH.RX_WIN.f n).key, (ETH.ADV_ACK.f n).key, ETH.TX_FRAMES.f.key] s t))

/-- A stream that may send new frames, with none waiting, sends one of its source: stream 8 the oldest results of
sites with RES_SLP whose records have all been acknowledged, in the order of posting; stream 9 the lowest site whose
next record can be read, and its next records, with EV1197 for a poisoned one; stream 2 notices in the layout of
R451, taken from the queue; stream 10 the next lines of the open READ once they have been read, a poisoned line as
zeros with its offset noted, and at its end READ_END. Sending takes nothing from Damask: results and records leave
at their acknowledgement. Otherwise nothing is sent. While the DRAM is held, streams 8 to 10 send nothing. TX_SEND
hands the words of every transmit port of its mask to the port's stream as one message and empties the port; RX_SKIP
discards the head message of every receive port of its mask; a read of ETH_RXq_D answers the next word of the head
message, 0 when there is none, and consumes it but for the debug master without SIDEFX, the last word with the
message. That a READ frame's lines are read ahead of it is the model's choice (log entry 69). (R441, R449, R450,
R451, R452, R453, R540) -/
def Obligations.StreamsSendFromTheirSources : Prop :=
  (∀ (n : Fin 11) (s : State), s.ctrlQ = [] → s.waitOf n = [] → s.mayNew n = true →
    (n.val ∉ [2, 8, 9, 10] → Machine.exec (.slpSend n) s = .next s) ∧
    (n.val = 8 → (s.dramHeld = true ∨ s.resultsReady.take (s.rd ETH.MAXPAY.f / 64) = []) →
      Machine.exec (.slpSend n) s = .next s) ∧
    (n.val = 8 → s.dramHeld = false → ∀ l, s.resultsReady.take (s.rd ETH.MAXPAY.f / 64) = l → l ≠ [] →
      ∃ t, Machine.exec (.slpSend n) s = .next t ∧
        SentOn 8 0x80 (l.flatMap fun x => x.2.words) (.results (l.map fun x => x.1)) s t ∧
        Only [.regs, .slpWait, .slpUnacked] s t) ∧
    (n.val = 9 → (s.dramHeld = true ∨ ∀ site, site < 64 → s.recordsLeft site = 0 ∨ s.ringWaits site (s.recordsInFlight site) = true) →
      Machine.exec (.slpSend n) s = .next s) ∧
    (∀ site, n.val = 9 → s.dramHeld = false → site < 64 → s.recordsLeft site ≠ 0 →
      s.ringWaits site (s.recordsInFlight site) = false →
      (∀ k, k < site → s.recordsLeft k = 0 ∨ s.ringWaits k (s.recordsInFlight k) = true) →
      let m := min (s.recordsLeft site) ((s.rd ETH.MAXPAY.f - 4) / 32)
      let k := s.recordsInFlight site
      ∃ t, Machine.exec (.slpSend n) s = .next t ∧
        SentOn 9 0x90 (site :: (List.range m).flatMap fun i => (List.range 8).map fun w => s.ringRecord site (k + i) w)
          (.records site m) s t ∧
        t.raised = s.raised ++ (if ∃ i, i < m ∧ bitOf (s.ringRecord site (k + i) 7) 16 = true then [(1197, s.time)] else []) ∧
        Only [.regs, .slpWait, .slpUnacked, .raised] s t) ∧
    (n.val = 2 →
      let k := s.rd ETH.MAXPAY.f / 16
      let u := s.noticePump
      (u.notices.take k = [] → Machine.exec (.slpSend n) s = .next s) ∧
      (u.notices.take k ≠ [] → u.waitOf 2 = [] →
        ∃ t rel, Machine.exec (.slpSend n) s = .next t ∧ t.notices = u.notices.drop k ∧
        SentOn 2 0xB0 ((u.notices.take k).flatMap fun x => [x.kind + x.count % 2 ^ 24 * 256, x.arg0, x.arg1, x.ts])
          rel u t ∧ Only [.regs, .slpWait, .slpUnacked, .notices] u t)) ∧
    (n.val = 10 → (s.dramHeld = true ∨ s.flag ETH.RD_OPEN.f = false) → Machine.exec (.slpSend n) s = .next s) ∧
    (n.val = 10 → s.dramHeld = false → s.flag ETH.RD_OPEN.f = true → s.alloc? (s.rd ETH.RD_ID.f) = none →
      ∃ t, Machine.exec (.slpSend n) s = .next t ∧ t.flag ETH.RD_OPEN.f = false ∧
        ∃ o, SentOn 10 0xA1 ([s.rd ETH.RD_TAG.f, 2] ++ o) .nothing s t) ∧
    (∀ a, n.val = 10 → s.dramHeld = false → s.flag ETH.RD_OPEN.f = true → s.alloc? (s.rd ETH.RD_ID.f) = some a →
      let pos := s.rd ETH.RD_POS.f
      let e := s.rd ETH.RD_END.f
      let lines := min ((s.rd ETH.MAXPAY.f - 12) / 64) ((e - pos) / 64)
      (pos < e → s.rd ETH.RD_CRED.f < lines → Machine.exec (.slpSend n) s = .next s) ∧
      (pos < e → e < 2 ^ 37 → lines ≤ s.rd ETH.RD_CRED.f → ∃ t, Machine.exec (.slpSend n) s = .next t ∧
        SentOn 10 0xA0 ([s.rd ETH.RD_TAG.f, pos % 2 ^ 32, pos / 2 ^ 32] ++ (List.range lines).flatMap fun i =>
          if s.allocPoison a (pos + 64 * i) 64 then List.replicate 16 0
          else (List.range 16).map fun j => s.allocRead a (pos + 64 * i + 4 * j) 4) .nothing s t ∧
        t.rd ETH.RD_POS.f = pos + 64 * lines ∧ t.rd ETH.RD_CRED.f = 0 ∧
        (s.rd ETH.RD_POIS.f = 0 → (∀ i, i < lines → s.allocPoison a (pos + 64 * i) 64 = false) → t.rd ETH.RD_POIS.f = 0) ∧
        (∀ i, s.rd ETH.RD_POIS.f = 0 → i < lines → s.allocPoison a (pos + 64 * i) 64 = true →
          (∀ j, j < i → s.allocPoison a (pos + 64 * j) 64 = false) → t.rd ETH.RD_POIS.f = pos + 64 * i + 1) ∧
        Only [.regs, .slpWait, .slpUnacked] s t) ∧
      (e ≤ pos → ∃ t, Machine.exec (.slpSend n) s = .next t ∧ t.flag ETH.RD_OPEN.f = false ∧
        SentOn 10 0xA1 (let p := s.rd ETH.RD_POIS.f
          let o := if p = 0 then 2 ^ 64 - 1 else p - 1
          [s.rd ETH.RD_TAG.f, if s.flag ETH.RD_LIVE.f = true ∧ a.st = 5 then 2 else if p = 0 then 0 else 1,
            o % 2 ^ 32, o / 2 ^ 32]) .nothing s t ∧
        Only [.regs, .dir, .uses, .slpWait, .slpUnacked] s t))) ∧
  (∀ s : State, (∀ y ∈ s.resultsReady, y.1 < 64 ∧ s.flag (DMK.SITE_CFG_RES_SLP.f y.1) = true ∧
      y.2 ∈ s.resultQ y.1 ∧ y.2.bySlp = false ∧ s.recordsDone y.1 y.2 = true) ∧
    s.resultsReady.Pairwise (fun a b => a.2.ord ≤ b.2.ord)) ∧
  (∀ (n : Fin 11) (s : State), s.ctrlQ = [] → s.mayNew n = false → Machine.exec (.slpSend n) s = .next s) ∧
  (∀ (mask : BitVec 4) (s : State), s.openTo 12 .eth = true →
    (∃ t, Machine.exec (.txSend mask) s = .next t ∧ Only [.regs, .slpWait, .slpUnacked, .txBuf] s t ∧
      ∀ q : Fin 4,
        let ws := s.txBuf.get q []
        let goes := mask.getLsbD q = true ∧ ws ≠ [] ∧ ws.length ≤ 4096 ∧ s.flag ETH.SESS.f = true
        (goes → t.txBuf.get q [] = [] ∧ (t.txFrames (4 + q)).flatten = (s.txFrames (4 + q)).flatten ++ ws ∧
          (t.waitOf (4 + q) = [] ∨ t.mayNew (4 + q) = false)) ∧
        (¬goes → t.txBuf.get q [] = ws ∧ t.txFrames (4 + q) = s.txFrames (4 + q))) ∧
    ∃ t, Machine.exec (.rxSkip mask) s = .next t ∧ Only [.rxMsgs] s t ∧ ∀ q : Fin 4,
      t.rxMsgs.get q [] = if mask.getLsbD q then (s.rxMsgs.get q []).tail else s.rxMsgs.get q []) ∧
  (∀ (q : Fin 4) (m : Master) (s : State), s.openTo (masterIdx m) .eth = true →
    ∃ t, Machine.exec (.ethRxRead q m) s = .next t ∧ OnlyRegs [SYS.RDATA.f.key] { s with
        rxMsgs := t.rxMsgs } t ∧ (∀ p : Fin 4, p ≠ q → t.rxMsgs.get p [] = s.rxMsgs.get p []) ∧
      (s.rxMsgs.get q [] = [] → t.rd SYS.RDATA.f = 0 ∧ t.rxMsgs.get q [] = []) ∧
      (∀ e w r l, s.rxMsgs.get q [] = e :: l → e.words = w :: r →
        t.rd SYS.RDATA.f = w % 2 ^ 32 ∧
        t.rxMsgs.get q [] = (if s.consumes m = false then e :: l else if r = [] then l else { e with words := r } :: l)))

/-- A reference is lost where no edge has come for 50 ns (XTAL32: 60 us), or a window's count is off by more than
3.1 %. The loss of REFCLK clears REF_OK, takes the capture, stops every sequencer, unlocks every REFCLK island, and
begins the switch to IOSC, or sets WAITREF while IOSC is not proven. The loss of TREF forces every channel safe,
ends every run with CLOCK_LOSS without its last vector, clears CAL_DONE and VLD of every tap, unlocks SEQ and the
TMn; a cascade member leaves its cascade. That of XTAL32 clears XTAL_OK and IOSC_OK and marks RTC drift. An IOSC
window of 781,250 cycles within 2 % proves IOSC, which ends the wait of WAITREF. Sixteen windows that pass restore a
reference; fewer, or one that fails, do not. REFCLK restored in fallback unlocks its islands for the return. A PLL
locks where its unit is present and its reference runs. When the REFCLK islands are locked, a pending fallback sets
FALLBACK, raises every present MFP's NMI, puts every rank of the channels in service in self-refresh, takes the
Tweed ports down and clears LINK; a pending return clears FALLBACK and wakes the ranks, without an NMI; both end
WAITREF. TREF back and the TMn and SEQ locked, the channels leave the safe state where nothing else holds them.
(R463, R464, R465, R466, R467, R468, R469, R460) -/
def Obligations.ReferencesAreLostAndRestored : Prop :=
  (∀ (why : RefFault) (fab : Byte) (s : State),
    let lost := match why with
      | .silent ns => 50 ≤ ns.toNat
      | .window c => 31 * 256 < 1000 * (max c.toNat 256 - min c.toNat 256)
    ((s.flag CLK.REF_OK.f = false ∨ ¬lost) → Machine.exec (.refclkLoss fab why) s = .next s) ∧
    (s.flag CLK.REF_OK.f = true → lost → ∃ t, Machine.exec (.refclkLoss fab why) s = .next t ∧ t.flag CLK.REF_OK.f = false ∧
      LossCaught 0 s t ∧ StopsEvery s t ∧
      (∀ i, i < 5 → t.bit CLK.LK.f i = (i == 2 && s.bit CLK.LK.f i)) ∧ t.rd CLK.LK_MFP.f = 0 ∧ t.rd CLK.LK_DC.f = 0 ∧
      t.rd CLK.LK_TW.f = 0 ∧ (∀ k : Fin 8, t.bit CLK.LK_FAB.f k = (s.bit CLK.LK_FAB.f k && !fab.getLsbD k)) ∧
      (s.flag CLK.IOSC_OK.f = true → t.flag CLK.FB_PEND.f = true ∧ t.flag CLK.WAITREF.f = s.flag CLK.WAITREF.f) ∧
      (s.flag CLK.IOSC_OK.f = false → t.flag CLK.WAITREF.f = true ∧ (∀ c, t.inSafe c = true)) ∧
      t.flag CLK.FALLBACK.f = s.flag CLK.FALLBACK.f ∧ t.rd CLK.LK_TM.f = s.rd CLK.LK_TM.f ∧
      t.flag CLK.TREF_OK.f = s.flag CLK.TREF_OK.f ∧ t.dramHeld = true ∧
      Only [.regs, .tabs, .runs, .fifos, .sessions] s t)) ∧
  (∀ (why : RefFault) (fab : Byte) (s : State),
    let lost := match why with
      | .silent ns => 50 ≤ ns.toNat
      | .window c => 31 * 256 < 1000 * (max c.toNat 256 - min c.toNat 256)
    ((s.flag CLK.TREF_OK.f = false ∨ ¬lost) → Machine.exec (.trefLoss fab why) s = .next s) ∧
    (s.flag CLK.TREF_OK.f = true → lost → ∃ t, Machine.exec (.trefLoss fab why) s = .next t ∧ t.flag CLK.TREF_OK.f = false ∧
      LossCaught 1 s t ∧ t.flag VLV.TREF_SAFE.f = true ∧ (∀ c, t.inSafe c = true) ∧ t.flag TIM.CAL_DONE.f = false ∧
      (∀ (q : SeqId) (r : SeqRun), s.run? q = some r → (s.issuing q = true ∨ s.rd (TWL.STATE_STATE.f q) = 1) →
        RunEnded q 9 r t ∧ ∀ r', t.run? q = some r' → r'.flights.length = r.flights.length - 1) ∧
      (∀ c : Channel, t.bit (CNV.TAP.f c) 0 = false) ∧ t.bit CLK.LK.f 2 = false ∧ t.rd CLK.LK_TM.f = 0 ∧
      (∀ k : Fin 8, t.bit CLK.LK_FAB.f k = (s.bit CLK.LK_FAB.f k && !fab.getLsbD k)) ∧
      (2 ≤ s.rd TWD.STAT_STATE.f → s.rd TWD.STAT_STATE.f ≠ 5 → t.rd TWD.STAT_STATE.f = 1) ∧
      Same [CLK.REF_OK.f, CLK.FALLBACK.f, CLK.WAITREF.f, CLK.FB_PEND.f, CLK.RET_PEND.f, VLV.SAFE_N_DRV.f] s t ∧
      Only [.regs, .tabs, .runs, .fifos, .sessions, .twOut] s t)) ∧
  (∀ (why : RefFault) (s : State),
    let lost := match why with
      | .silent ns => 60000 ≤ ns.toNat
      | .window c => 31 * 1374 < 1000 * (max c.toNat 1374 - min c.toNat 1374)
    ((s.flag CLK.XTAL_OK.f = false ∨ ¬lost) → Machine.exec (.xtal32Loss why) s = .next s) ∧
    (s.flag CLK.XTAL_OK.f = true → lost → ∃ t, Machine.exec (.xtal32Loss why) s = .next t ∧ t.flag CLK.XTAL_OK.f = false ∧
      t.flag CLK.IOSC_OK.f = false ∧ LossCaught 2 s t ∧ t.flag LDG.RTC_DRIFT.f = true ∧
      OnlyRegs [CLK.XTAL_OK.f.key, CLK.IOSC_OK.f.key, CLK.LOSS_FULL.f.key, CLK.LOSS_CAP_REF.f.key,
        LDG.RTC_DRIFT.f.key] s t)) ∧
  (∀ (counts : List Word) (s : State),
    let within := fun (n : Nat) => counts.length = 16 ∧ ∀ c ∈ counts, 1000 * (max c.toNat n - min c.toNat n) ≤ 31 * n
    (∀ x ∈ [(ClkRef.refclk, 256), (.tref, 256), (.xtal32, 1374)], ¬within x.2 →
      Machine.exec (.referenceRestored x.1 counts) s = .next s) ∧
    (within 256 → ∃ t, Machine.exec (.referenceRestored .tref counts) s = .next t ∧ t.flag CLK.TREF_OK.f = true ∧
      OnlyRegs [CLK.TREF_OK.f.key] s t) ∧
    (within 1374 → ∃ t, Machine.exec (.referenceRestored .xtal32 counts) s = .next t ∧ t.flag CLK.XTAL_OK.f = true ∧
      t.flag LDG.RTC_DRIFT.f = false ∧ OnlyRegs [CLK.XTAL_OK.f.key, LDG.RTC_DRIFT.f.key] s t) ∧
    (s.flag CLK.REF_OK.f = true → Machine.exec (.referenceRestored .refclk counts) s = .next s) ∧
    (within 256 → s.flag CLK.REF_OK.f = false → ∃ t, Machine.exec (.referenceRestored .refclk counts) s = .next t ∧
      t.flag CLK.REF_OK.f = true ∧ (s.dramHeld = false → OnlyRegs [CLK.REF_OK.f.key] s t) ∧
      (s.dramHeld = true → t.flag CLK.FB_PEND.f = false ∧ t.flag CLK.RET_PEND.f = true ∧ t.rd CLK.LK_MFP.f = 0 ∧
        t.rd CLK.LK_DC.f = 0 ∧ t.flag CLK.FALLBACK.f = s.flag CLK.FALLBACK.f ∧
        OnlyRegs [CLK.REF_OK.f.key, CLK.FB_PEND.f.key, CLK.RET_PEND.f.key, CLK.LK.f.key, CLK.LK_MFP.f.key,
          CLK.LK_DC.f.key, CLK.LK_TW.f.key] s t))) ∧
  (∀ (n : Word) (s : State), (s.flag CLK.XTAL_OK.f = false → Machine.exec (.ioscWindow n) s = .next s) ∧
    (s.flag CLK.XTAL_OK.f = true → ∃ t, Machine.exec (.ioscWindow n) s = .next t ∧ t.rd CLK.IOSC_CNT.f = n.toNat ∧
      t.flag CLK.IOSC_OK.f = decide (765625 ≤ n.toNat ∧ n.toNat ≤ 796875) ∧
      (t.flag CLK.IOSC_OK.f = true → s.flag CLK.WAITREF.f = true → s.flag CLK.RET_PEND.f = false →
        t.flag CLK.FB_PEND.f = true) ∧
      (¬(t.flag CLK.IOSC_OK.f = true ∧ s.flag CLK.WAITREF.f = true ∧ s.flag CLK.RET_PEND.f = false) →
        t.rd CLK.FB_PEND.f = s.rd CLK.FB_PEND.f ∧ t.rd CLK.RET_PEND.f = s.rd CLK.RET_PEND.f) ∧
      OnlyRegs [CLK.IOSC_CNT.f.key, CLK.IOSC_OK.f.key, CLK.FB_PEND.f.key, CLK.RET_PEND.f.key] s t)) ∧
  (∀ (i : Island) (s : State),
    (¬lockMay i s → s.flag VLV.TREF_SAFE.f = false → s.flag CLK.FB_PEND.f = false → s.flag CLK.RET_PEND.f = false →
      Machine.exec (.pllLock i) s = .next s) ∧
    (lockMay i s →
      let u := s.setBit (lockBit i).1 (lockBit i).2 true
      let free := s.flag VLV.TREF_SAFE.f = true ∧ s.flag CLK.TREF_OK.f = true ∧ u.tmLocked = true
      let fallsBack := u.refIslandsLocked = true ∧ s.flag CLK.FB_PEND.f = true
      let returns := u.refIslandsLocked = true ∧ s.flag CLK.FB_PEND.f = false ∧ s.flag CLK.RET_PEND.f = true
      ∃ t, Machine.exec (.pllLock i) s = .next t ∧ t.bit (lockBit i).1 (lockBit i).2 = true ∧
        (free → t.flag VLV.TREF_SAFE.f = false ∧ ∀ c : Channel, t.inSafe c = false → t.flag (VLV.SAFE.ch c) = false) ∧
        (¬free → t.flag VLV.TREF_SAFE.f = s.flag VLV.TREF_SAFE.f) ∧
        (fallsBack → t.flag CLK.FALLBACK.f = true ∧ t.flag CLK.FB_PEND.f = false ∧ t.flag CLK.WAITREF.f = false ∧
          (∀ m : MfpId, s.hasMfp m = true → (t.core m).nmi = true) ∧ (∀ w : TwPort, t.rd (TWD.P_STAT_PSTATE.f w) = 0) ∧
          t.flag ETH.LINK.f = false ∧
          ∀ n : DcId, s.flag (DDR.UP.f n) = true → t.rd (DDR.RSR.f n) = s.rd (DDR.STAT_RANKS.f n) % 16) ∧
        (returns → t.flag CLK.FALLBACK.f = false ∧ t.flag CLK.RET_PEND.f = false ∧ t.flag CLK.WAITREF.f = false ∧
          t.cores = s.cores ∧ ∀ n : DcId, s.flag (DDR.UP.f n) = true → t.rd (DDR.RSR.f n) = 0) ∧
        (¬free → ¬fallsBack → ¬returns → OnlyRegs [(lockBit i).1.key] s t)))

/-- A forced switch fills its capture once with the lowest code. FM_GO sets FM_BUSY; the end of the gate gives the
edges of MEAS in GATE cycles of REF, by the nominal clocks of R9 and MULT, 0 for a stopped clock, and never comes
while REF is stopped. The RELs empty their captures. CLK_MFP sets MULT and drops the lock of a present MFP; a
multiplier above 15 leaves the device undefined, where the model stops with a fault; an absent MFP is an absent
access. CLK_EN takes its bits but for absent units; the 0 of TWL waits until every sequencer is IDLE, the 0 of ADC
ends every list and urgent request. A rail sample shows V, I and P; a rail once averaged is in alarm outside LO to
HI, negative rails compared as signed, and the first alarm fills the capture. Sensors show their readings, and warn
from TWARN on; a sensor newly at TCRIT trips every tile, drives SAFE_N, stops every sequencer and fills PWR_TCAP
with the lowest; one already there does not act again. The writes are those of a block that is open to them. That a
rail is judged from its first average on, and the signed comparison, are the model's reading (log entry 85); that
the meter truncates is its choice (log entry 86). (R42, R461, R462, R470, R471, R472, R475, R476, R477, R478, R484)
-/
def Obligations.ClockRailAndTemperatureRegisters : Prop :=
  (∀ (l : List (BitVec 7)) (s : State),
    (l = [] ∨ s.flag CLK.FORCED.f = true → Machine.exec (.muxSwitch l) s = .next s) ∧
    (l ≠ [] → s.flag CLK.FORCED.f = false → ∃ t, Machine.exec (.muxSwitch l) s = .next t ∧ t.flag CLK.FORCED.f = true ∧
      (∃ c ∈ l, t.rd CLK.FORCED_CAP_CODE.f = c.toNat) ∧ (∀ c ∈ l, t.rd CLK.FORCED_CAP_CODE.f ≤ c.toNat) ∧
      OnlyRegs [CLK.FORCED.f.key, CLK.FORCED_CAP_CODE.f.key] s t)) ∧
  (∀ (hz : ClkHz) (m : MfpId) (v : Word) (s : State),
    (s.openTo 12 .clk = true →
      (∃ t, Machine.exec .fmGo s = .next t ∧ t.flag CLK.FM_BUSY.f = true ∧ OnlyRegs [CLK.FM_BUSY.f.key] s t) ∧
      (∃ t, Machine.exec .forcedRel s = .next t ∧ t.flag CLK.FORCED.f = false ∧ t.rd CLK.FORCED_CAP_CODE.f = 0 ∧
        OnlyRegs [CLK.FORCED.f.key, CLK.FORCED_CAP_CODE.f.key] s t) ∧
      (∃ t, Machine.exec .lossRel s = .next t ∧ t.flag CLK.LOSS_FULL.f = false ∧ t.rd CLK.LOSS_CAP_REF.f = 0 ∧
        OnlyRegs [CLK.LOSS_FULL.f.key, CLK.LOSS_CAP_REF.f.key] s t) ∧
      (s.hasMfp m = true → 15 < v.toNat % 32 → Machine.exec (.clkMfp m v) s = .fault .clockRatioUndefined) ∧
      (s.hasMfp m = true → v.toNat % 32 ≤ 15 → ∃ t, Machine.exec (.clkMfp m v) s = .next t ∧
        t.rd (CLK.MFP_MULT.f m) = v.toNat % 32 ∧
        (∀ k : MfpId, t.bit CLK.LK_MFP.f k = (k != m && s.bit CLK.LK_MFP.f k)) ∧
        OnlyRegs [(CLK.MFP_MULT.f m).key, CLK.LK_MFP.f.key] s t) ∧
      (s.hasMfp m = false → ∃ t, Machine.exec (.clkMfp m v) s = .next t ∧ AbsentCaught (0x11001000 + 4 * m) s t ∧
        OnlyRegs [SYS.HIT.f.key, SYS.ABSENT_ADDR.f.key, SYS.ABSENT_CNT.f.key] s t) ∧
      (∃ t, Machine.exec (.clkEn v) s = .next t ∧
        let want := (v.toNat - (v.toNat &&& s.absentEn)) % 2 ^ 29
        let off := s.bit CLK.EN.f 5 = true ∧ bitOf v.toNat 5 = false
        let idle := ∀ q : SeqId, s.rd (TWL.STATE_STATE.f q) = 0
        (¬off → t.rd CLK.EN.f = want ∧ t.flag CLK.TWL_OFF.f = false) ∧
        (off → idle → t.rd CLK.EN.f = want ∧ t.flag CLK.TWL_OFF.f = false) ∧
        (off → ¬idle → t.rd CLK.EN.f = want + 32 ∧ t.flag CLK.TWL_OFF.f = true) ∧
        (v.toNat &&& s.absentEn ≠ 0 → AbsentCaught 0x11000010 s t) ∧
        (v.toNat &&& s.absentEn = 0 → Same [SYS.HIT.f, SYS.ABSENT_ADDR.f, SYS.ABSENT_CNT.f] s t) ∧
        (s.bit CLK.EN.f 9 = true → bitOf v.toNat 9 = false → ∀ a : AdcId, t.flag (ADC.RUN.f a) = false ∧
          t.flag (ADC.URG_BUSY.f a) = false) ∧
        ((s.bit CLK.EN.f 9 = false ∨ bitOf v.toNat 9 = true) → OnlyRegs [CLK.EN.f.key, CLK.TWL_OFF.f.key, SYS.HIT.f.key,
          SYS.ABSENT_ADDR.f.key, SYS.ABSENT_CNT.f.key] s t))) ∧
    (let rate := s.clockRate hz
      let base := if s.flag CLK.FB_PEND.f ∨ s.flag CLK.FALLBACK.f then hz.iosc.toNat * 512 else hz.ref.toNat * 2048
      let runs := s.flag CLK.FM_BUSY.f = true ∧ rate (s.rd CLK.FM_CFG_REF.f) ≠ 0
      (∀ c, s.clockRuns c = false → rate c = 0) ∧
      (∀ x ∈ [(0, hz.ref.toNat * 2048), (1, hz.tref.toNat * 2048), (2, hz.xtal.toNat * 2048), (3, hz.iosc.toNat * 2048),
          (4, 5 * base), (5, hz.tref.toNat * 20480), (6, 10 * base), (7, 6 * base), (0x1C, base * 825 / 512)],
        s.clockRuns x.1 = true → rate x.1 = x.2) ∧
      (∀ n : MfpId, s.clockRuns (8 + n) = true → rate (8 + n) = max 1 (s.rd (CLK.MFP_MULT.f n)) * base) ∧
      (∀ n : DcId, s.clockRuns (16 + n) = true → rate (16 + n) = 16 * base) ∧
      (¬runs → Machine.exec (.fmEnd hz) s = .next s) ∧
      (runs → ∃ t, Machine.exec (.fmEnd hz) s = .next t ∧ t.flag CLK.FM_BUSY.f = false ∧
        t.rd CLK.FM_CNT.f = min (2 ^ 32 - 1)
          (max 1 (s.rd CLK.FM_CFG_GATE.f) * rate (s.rd CLK.FM_CFG_MEAS.f) / rate (s.rd CLK.FM_CFG_REF.f)) ∧
        t.raised = s.raised ++ [(1543, s.time)] ∧ Only [.regs, .raised] s t ∧
        RegsBut [CLK.FM_BUSY.f.key, CLK.FM_CNT.f.key] s t))) ∧
  (∀ (k : Fin 20) (v i : BitVec 16) (p : BitVec 24) (s : State), ∃ t, Machine.exec (.railSample k v i p) s = .next t ∧
    let mv := fun x : Nat => if 12 ≤ k.val ∧ k.val < 16 then signedOf 16 x else (x : Int)
    let under := mv v.toNat < mv (s.rd (railLo k))
    let above := mv (s.rd (railHi k)) < mv v.toNat
    t.rd (PWR.RAIL_V.f k) = v.toNat ∧ t.rd (PWR.RAIL_I.f k) = i.toNat ∧ t.rd (PWR.RAIL_P.f k) = p.toNat ∧
    t.railAlarm k = decide (under ∨ above) ∧ (∀ j : Fin 20, j ≠ k → t.railAlarm j = s.railAlarm j) ∧
    (t.anyAlarm = true ↔ ∃ j : Fin 20, t.railAlarm j = true) ∧
    ((under ∨ above) → s.railAlarm k = false → s.flag PWR.RAIL_FULL.f = false →
      t.flag PWR.RAIL_FULL.f = true ∧ t.rd PWR.RAIL_CAP_RAIL.f = k ∧ t.flag PWR.RAIL_CAP_OVER.f = decide above) ∧
    (¬((under ∨ above) ∧ s.railAlarm k = false ∧ s.flag PWR.RAIL_FULL.f = false) →
      Same [PWR.RAIL_FULL.f, PWR.RAIL_CAP_RAIL.f, PWR.RAIL_CAP_OVER.f] s t) ∧
    OnlyRegs [(PWR.RAIL_V.f k).key, (PWR.RAIL_I.f k).key, (PWR.RAIL_P.f k).key, PWR.SEEN.f.key,
      PWR.RAIL_FULL.f.key, PWR.RAIL_CAP_RAIL.f.key, PWR.RAIL_CAP_OVER.f.key] s t) ∧
  (∀ s : State, s.openTo 12 .pwr = true →
    (∃ t, Machine.exec .railRel s = .next t ∧ t.flag PWR.RAIL_FULL.f = false ∧ t.rd PWR.RAIL_CAP_RAIL.f = 0 ∧
      t.rd PWR.RAIL_CAP_OVER.f = 0 ∧
      OnlyRegs [PWR.RAIL_FULL.f.key, PWR.RAIL_CAP_RAIL.f.key, PWR.RAIL_CAP_OVER.f.key] s t) ∧
    ∃ t, Machine.exec .tcritRel s = .next t ∧ t.flag PWR.TCRIT_HIT.f = false ∧ t.rd PWR.TCAP_SENS.f = 0 ∧
      OnlyRegs [PWR.TCRIT_HIT.f.key, PWR.TCAP_SENS.f.key] s t) ∧
  (∀ (l : List (BitVec 12)) (s : State), (s.dieOn = false → Machine.exec (.sensorRead l) s = .next s) ∧
    (s.dieOn = true → ∃ t, Machine.exec (.sensorRead l) s = .next t ∧
      let temp := fun k : Nat => signedOf 12 (t.rd (PWR.TEMP.f k))
      let crit := fun k : Nat => signedOf 8 (s.rd PWR.TLIM_TCRIT.f) * 8 ≤ temp k
      (∀ (k : Nat) (v : BitVec 12), k < 12 → l[k]? = some v → t.rd (PWR.TEMP.f k) = v.toNat) ∧
      (∀ k, k < 12 → l[k]? = none → t.rd (PWR.TEMP.f k) = s.rd (PWR.TEMP.f k)) ∧
      (∀ k, k < 12 → t.sensorWarns k = decide (signedOf 8 (s.rd PWR.TLIM_TWARN.f) * 8 ≤ temp k)) ∧
      (∀ k, k < 12 → t.bit PWR.SCRIT.f k = decide (crit k)) ∧
      ((∀ k, k < 12 → crit k → s.bit PWR.SCRIT.f k = true) → OnlyRegs ([PWR.SCRIT.f.key] ++
        keys 12 [PWR.TEMP, LDG.TMAX] ++ keys 4 [TIM.TRK_DUE, TIM.TRK_LATE]) s t) ∧
      (∀ k, k < 12 → crit k → s.bit PWR.SCRIT.f k = false →
        (∀ j, j < k → crit j → s.bit PWR.SCRIT.f j = true) →
        StopsEvery s t ∧ t.flag VLV.SAFE_N_DRV.f = true ∧ t.flag PWR.TCRIT_HIT.f = true ∧
        t.rd PWR.TCAP_SENS.f = (if s.flag PWR.TCRIT_HIT.f then s.rd PWR.TCAP_SENS.f else k) ∧
        ∀ n, n < 4 → t.flag (VLV.TRIP.f n) = true ∧ t.flag (VLV.LOCAL.f n) = true)))

/-- STBY_GO, where the block is open to it, is refused in FALLBACK or WAITREF, which fills STBY_REFUSED, is held
while BUSY, and else begins entry: the sequencers stop, the channels take their hold, undelivered records and
results are discarded, the session ends and the Tweed ports go down. The end of entry drives PS_EN_MAIN low with the
die's state lost but DRAM, the copy of the directory there, and the configuration memory, and a wake source that
came meanwhile acts at once. WAKE_N, and the RTC alarm in the second of PWR_WAKE_AT, enabled, wake a device in
standby, wait during entry, and else do nothing. Main rails good, the wake goes on at step 6 of the load; without
RET_OK it is a warm restart from the slot in force; with metadata lost it is a cold start. RET_OK is lost only in
standby. A rail below its reset threshold outside standby, or PS_PG low outside standby and its entry, holds the die
in reset and makes the next start cold. VAON loss keeps only the RTC, and that not with VBAT low; VAON settled
drives PS_EN_MAIN high. That a fall of a rail during entry makes the next start cold is the model's choice (log
entry 85). (R389, R394, R439, R476, R479, R480, R482, R483, R521, R560, R562) -/
def Obligations.StandbyWakeAndSupplies : Prop :=
  (∀ s : State,
    (s.openTo 12 .pwr = true →
      (∃ t, Machine.exec .stbyRefRel s = .next t ∧ t.flag PWR.STBY_REFUSED.f = false ∧
        OnlyRegs [PWR.STBY_REFUSED.f.key] s t) ∧
      (s.flag PWR.STBY_PEND.f = true → Machine.exec .stbyGo s = .next s) ∧
      (s.flag PWR.STBY_PEND.f = false → ∃ t, Machine.exec .stbyGo s = .next t ∧
        let refused := s.flag CLK.FALLBACK.f = true ∨ s.flag CLK.WAITREF.f = true
        (refused → t.flag PWR.STBY_REFUSED.f = true ∧ OnlyRegs [PWR.STBY_REFUSED.f.key] s t) ∧
        (¬refused → s.flag CFG.BUSY.f = true → t.rd PWR.STBY_HELD.f = 1 ∧ OnlyRegs [PWR.STBY_HELD.f.key] s t) ∧
        (¬refused → s.flag CFG.BUSY.f = false → t.flag PWR.STBY_PEND.f = true ∧ StopsEvery s t ∧
          (∀ c, t.inSafe c = true) ∧ t.fifos = [] ∧ t.updates = [] ∧ t.results = [] ∧ t.flag ETH.SESS.f = false ∧
          (∀ w : TwPort, t.rd (TWD.P_STAT_PSTATE.f w) = 0) ∧ t.mem = s.mem ∧ t.evq = s.evq)))) ∧
  (∀ s : State,
    (s.flag PWR.STBY_PEND.f = false → Machine.exec .standbyEntryEnd s = .next s) ∧
    (s.flag PWR.STBY_PEND.f = true → s.rd PWR.WAKE_PEND.f < 4 →
      ∃ t, Machine.exec .standbyEntryEnd s = .next t ∧ t.flag PWR.STBY.f = true ∧ t.flag PWR.STBY_PEND.f = false ∧
      t.flag PWR.RET_OK.f = true ∧ t.flag PWR.COLD_NEXT.f = s.dramHeld ∧ AllQuiet t ∧ t.dir = [] ∧ t.dirCopy = s.dirCopy ∧
      (∀ k, t.byte k = if 2 ^ 47 ≤ k then s.byte k else 0) ∧
      t.flag PWR.EN_MAIN.f = decide (s.rd PWR.WAKE_PEND.f ≠ 0) ∧ t.flag PWR.WAKING.f = decide (s.rd PWR.WAKE_PEND.f ≠ 0) ∧
      (s.rd PWR.WAKE_PEND.f ≠ 0 → t.rd PWR.WAKE_SRC.f = s.rd PWR.WAKE_PEND.f) ∧
      (∀ n : DcId, s.flag (DDR.UP.f n) = true → t.rd (DDR.RSR.f n) = s.rd (DDR.STAT_RANKS.f n) % 16) ∧
      Same [LDG.RTC_S.f, LDG.RTC_NS.f, PWR.WAKEN_EN.f, PWR.ALARM_EN.f, PWR.WAKE_AT_LO.f, PWR.WAKE_AT_HI.f, ENC.KEYV.f,
        ENC.TENANT.f, CNV.STATIC_GOLD.f, CFG.STATE_SLOT.f] s t)) ∧
  (∀ s : State, ∀ x ∈ [(1, PWR.WAKEN_EN.f, Instr.wakeNFall), (2, PWR.ALARM_EN.f, Instr.rtcAlarm)],
    let at' := x.1 = 2 → s.rd LDG.RTC_S.f = s.rd PWR.WAKE_AT_LO.f + s.rd PWR.WAKE_AT_HI.f * 2 ^ 32
    let acts := s.flag x.2.1 = true ∧ at' ∧ s.flag PWR.STBY.f = true ∧ s.flag PWR.WAKING.f = false
    let waits := s.flag x.2.1 = true ∧ at' ∧ s.flag PWR.STBY.f = false ∧ s.flag PWR.STBY_PEND.f = true ∧
      s.rd PWR.WAKE_PEND.f = 0
    (acts → ∃ t, Machine.exec x.2.2 s = .next t ∧ t.rd PWR.WAKE_SRC.f = x.1 ∧ t.flag PWR.EN_MAIN.f = true ∧
      t.flag PWR.WAKING.f = true ∧ OnlyRegs [PWR.WAKE_SRC.f.key, PWR.EN_MAIN.f.key, PWR.WAKING.f.key] s t) ∧
    (waits → ∃ t, Machine.exec x.2.2 s = .next t ∧ t.rd PWR.WAKE_PEND.f = x.1 ∧ OnlyRegs [PWR.WAKE_PEND.f.key] s t) ∧
    (¬acts → ¬waits → Machine.exec x.2.2 s = .next s)) ∧
  (∀ s : State, ∃ t, Machine.exec .psPgRise s = .next t ∧
    let wakes := s.flag PWR.STBY.f = true ∧ s.flag PWR.WAKING.f = true
    (¬wakes → t = s) ∧
    (wakes → s.flag PWR.COLD_NEXT.f = true → t.rd CFG.STATE_START.f = 0 ∧ t.dir = [] ∧ t.flag PWR.COLD_NEXT.f = false ∧
      AllQuiet t) ∧
    (wakes → s.flag PWR.COLD_NEXT.f = false → s.flag PWR.RET_OK.f = false → t.rd CFG.STATE_START.f = 1 ∧
      t.rd CFG.STATE_STEP.f = 2 ∧ t.rd CFG.NEXT_SLOT.f = s.rd CFG.STATE_SLOT.f % 4 ∧ AllQuiet t ∧
      ∀ k, t.byte k = if 2 ^ 48 ≤ k then s.byte k else 0) ∧
    (wakes → s.flag PWR.COLD_NEXT.f = false → s.flag PWR.RET_OK.f = true → t.rd CFG.STATE_START.f = 2 ∧
      t.rd CFG.STATE_STEP.f = 6 ∧ AllQuiet t ∧ (∀ k, t.byte k = if 2 ^ 47 ≤ k then s.byte k else 0) ∧
      Same [ENC.KEYV.f, CNV.STATIC_GOLD.f, CFG.STATE_SLOT.f] s t)) ∧
  (∀ s : State,
    (s.flag PWR.STBY.f = false → Machine.exec .retentionSupplyLoss s = .next s) ∧
    (s.flag PWR.STBY.f = true → ∃ t, Machine.exec .retentionSupplyLoss s = .next t ∧ t.flag PWR.RET_OK.f = false ∧
      OnlyRegs [PWR.RET_OK.f.key] s t) ∧
    (s.flag PWR.STBY.f = true → ∀ x, Machine.exec (.resetThresholdFall x) s = .next s) ∧
    (s.flag PWR.STBY_PEND.f = true → Machine.exec (.resetThresholdFall .psPg) s = .next s) ∧
    (∀ x : ResetFall, s.flag PWR.STBY.f = false → (x = .psPg → s.flag PWR.STBY_PEND.f = false) →
      ∃ t, Machine.exec (.resetThresholdFall x) s = .next t ∧ t.dieOn = false ∧ t.flag PWR.COLD_NEXT.f = true ∧ AllQuiet t ∧
        (∀ k, t.byte k = if 2 ^ 48 ≤ k then s.byte k else 0) ∧ Same [LDG.RTC_S.f, LDG.RTC_NS.f, CFG.MASTER.f] s t) ∧
    (∃ t, Machine.exec .vaonLoss s = .next t ∧ t.flag PWR.VAON.f = false ∧ t.flag PWR.EN_MAIN.f = false ∧ AllQuiet t ∧
      t.mem = [] ∧ t.tabs = [] ∧ t.dir = [] ∧ Same [LDG.RTC_S.f, LDG.RTC_NS.f, CFG.MASTER.f] s t ∧
      t.flag LDG.RTC_VALID.f = (s.flag LDG.RTC_VALID.f && !s.flag PWR.VBAT_LOW.f)) ∧
    (s.flag PWR.VAON.f = true → Machine.exec .vaonSettled s = .next s) ∧
    (s.flag PWR.VAON.f = false → ∃ t, Machine.exec .vaonSettled s = .next t ∧ t.flag PWR.VAON.f = true ∧
      t.flag PWR.EN_MAIN.f = true ∧ OnlyRegs [PWR.VAON.f.key, PWR.EN_MAIN.f.key] s t))

/-- A source that is active, or whose condition does not hold, makes no occurrence. Another becomes active, stamped
with its first happening; with PROT it trips every tile, masked or not. Unmasked and within its RATE it is counted,
at each MFP and Canvas destination that its route word names, in the entry of its source, which keeps its place and
timestamp, up to 255, or entered with COUNT 1 in order of timestamp and source; other destinations keep theirs; SLP
hands it to the notice queue: an entry of its own with room, else a part of the COUNT of the youngest EVENT entry of
the source, or of any, whose ARG0 becomes all ones (log entry 67: which of R452 and R496 governs). The seventeenth
occurrence within the window ending at it masks the source, as the stuck time does, fills the capture once, and is
not delivered. A source becomes inactive when its condition has ended. UNMASK clears the mask, restarts the stuck
time and the window, and makes one occurrence of a masked active source. EVT_Mm_NEXT answers SRC and COUNT of the
head entry, or all ones, and consumes it but for the debug master without SIDEFX; of an absent MFP, 0. Canvas takes
its head entry. A sample of an EVIN, inverted as INV says, changes the level as the third in a row that differs, not
within five samples of a change; a rising edge counts, and on EVIN0 touches down every driven channel; samples act
one by one. The device timestamp is exact (the model's choice). (R491, R492, R493, R494, R495, R496, R497, R498,
R499, R500, R507, R515) -/
def Obligations.EventsAreRoutedAndGuarded : Prop :=
  (∀ (n : EvSource) (s : State),
    let w := s.route n
    let k := bits w 16 4
    let active := bitOf w 21 = true
    let masked := bitOf w 20 = true
    let ts := ((s.raised.find? fun e => e.1 == n.val).map Prod.snd).getD s.time
    let storm := k ≠ 0 ∧
      16 < (((ts :: s.occ.get n []).take 17).filter fun x => decide (ts - x ≤ 1000 * 2 ^ (k - 1))).length
    let shown := fun (t : State) (on : Bool) =>
      (n.val < 1024 → n.val % 8 = 2 → t.flag (VLV.PMU_COMPL.ch (n / 8)) = on) ∧
      (1632 ≤ n.val → s.sourceCond n = .outside → t.bit CNV.LINES.f (n - 1632) = on)
    let shows := [(VLV.PMU_COMPL.ch (n / 8)).key, CNV.LINES.f.key]
    (active ∨ s.condHolds n = false → Machine.exec (.eventOccurrence n) s = .next s) ∧
    (¬active → s.condHolds n = true → ∃ t, Machine.exec (.eventOccurrence n) s = .next t ∧
      bitOf (t.route n) 21 = true ∧ (∀ i, i < 20 → bitOf (t.route n) i = bitOf w i) ∧
      (∀ m : EvSource, m ≠ n → t.route m = s.route m) ∧ t.raised = s.raised.filter (fun e => e.1 != n.val) ∧
      t.tab EVT.since 0 n = ts ∧ shown t true ∧ Only [.regs, .tabs, .evq, .notices, .occ, .raised] s t ∧
      (bitOf w 10 = true → t.flag VLV.SAFE_N_DRV.f = true ∧
        ∀ i, i < 4 → t.flag (VLV.TRIP.f i) = true ∧ t.flag (VLV.LOCAL.f i) = true) ∧
      (bitOf w 10 = false → TabsBut [EVT.src.key 0 n, EVT.since.key 0 n] s t ∧
        RegsBut (shows ++ [EVT.STORM_FULL.f.key, EVT.STORM_CAP_SRC.f.key, EVT.STORM_CAP_KIND.f.key]) s t) ∧
      (masked ∨ storm → t.evq = s.evq ∧ t.notices = s.notices ∧ bitOf (t.route n) 20 = true) ∧
      (masked → t.occ = s.occ) ∧ (¬masked → t.occ.get n [] = (ts :: s.occ.get n []).take 17) ∧
      (¬masked → storm → t.flag EVT.STORM_FULL.f = true ∧ (s.flag EVT.STORM_FULL.f = false →
        t.rd EVT.STORM_CAP_SRC.f = n ∧ t.rd EVT.STORM_CAP_KIND.f = 1)) ∧
      (¬(¬masked ∧ storm ∧ s.flag EVT.STORM_FULL.f = false) →
        Same [EVT.STORM_FULL.f, EVT.STORM_CAP_SRC.f, EVT.STORM_CAP_KIND.f] s t) ∧
      (¬masked → ¬storm → bitOf (t.route n) 20 = false ∧
        (∀ d, d < 9 →
          let l := s.evq.get d []
          let l' := t.evq.get d []
          (bitOf w d = false → l' = l) ∧
          (bitOf w d = true → (∃ e ∈ l, e.src = n.val) →
            l' = l.map fun e => if e.src = n.val then { e with count := min (e.count + 1) 255 } else e) ∧
          (bitOf w d = true → (∀ e ∈ l, e.src ≠ n.val) →
            l'.Perm ({ src := n, ts := ts, count := 1 } :: l) ∧
            (l.Pairwise (fun a b => a.ts < b.ts ∨ (a.ts = b.ts ∧ a.src < b.src)) →
              l'.Pairwise (fun a b => a.ts < b.ts ∨ (a.ts = b.ts ∧ a.src < b.src))))) ∧
        (s.evq.get 9 [] = [] →
          (bitOf w 9 = false → t.notices = s.notices ∧ t.evq.get 9 [] = []) ∧
          (bitOf w 9 = true → s.notices.length < 1024 → t.evq.get 9 [] = [] ∧
            t.notices = s.notices ++ [{ kind := 0, count := 1, arg0 := n, arg1 := 0, ts := ts % 2 ^ 32 }]) ∧
          (bitOf w 9 = true → 1024 ≤ s.notices.length → ∀ a x b, s.notices = a ++ x :: b → x.kind = 0 → x.arg0 = n.val →
            (∀ y ∈ b, y.kind = 0 → y.arg0 ≠ n.val) → t.evq.get 9 [] = [] ∧
            t.notices = a ++ { x with count := min (x.count + 1) (2 ^ 24 - 1) } :: b) ∧
          (bitOf w 9 = true → 1024 ≤ s.notices.length → ∀ a x b, s.notices = a ++ x :: b → x.kind = 0 →
            (∀ y ∈ b, y.kind ≠ 0) → (∀ y ∈ s.notices, y.kind = 0 → y.arg0 ≠ n.val) → t.evq.get 9 [] = [] ∧
            t.notices = a ++ { x with count := min (x.count + 1) (2 ^ 24 - 1), arg0 := 2 ^ 32 - 1 } :: b) ∧
          (bitOf w 9 = true → 1024 ≤ s.notices.length → (∀ y ∈ s.notices, y.kind ≠ 0) → t.notices = s.notices ∧
            t.evq.get 9 [] = [{ src := n, ts := ts, count := 1 }])))) ∧
    (let done := active ∧ (s.sourceCond n ≠ .level true ∨ n.val = 1614)
     let halted := n.val = 1614 ∧ ∃ m : MfpId, s.flag (DBG.HALTED.f m) = true
     (¬done → Machine.exec (.eventSourceInactive n) s = .next s) ∧
     (done → ∃ t, Machine.exec (.eventSourceInactive n) s = .next t ∧ bitOf (t.route n) 21 = decide halted ∧
       (∀ i, i < 21 → bitOf (t.route n) i = bitOf w i) ∧ t.raised = s.raised.filter (fun e => e.1 != n.val) ∧
       shown t false ∧ Only [.regs, .tabs, .raised] s t ∧ RegsBut shows s t ∧ TabsBut [EVT.src.key 0 n] s t)) ∧
    (let j := bits w 12 4
     let sticks := active ∧ ¬masked ∧ j ≠ 0 ∧ s.tab EVT.since 0 n + 1000 * 2 ^ (j - 1) ≤ s.time
     (¬sticks → Machine.exec (.stuckTimeout n) s = .next s) ∧
     (sticks → ∃ t, Machine.exec (.stuckTimeout n) s = .next t ∧ bitOf (t.route n) 20 = true ∧
       (∀ i, i ≠ 20 → bitOf (t.route n) i = bitOf w i) ∧
       t.flag EVT.STORM_FULL.f = true ∧ (s.flag EVT.STORM_FULL.f = false → t.rd EVT.STORM_CAP_SRC.f = n ∧
         t.rd EVT.STORM_CAP_KIND.f = 0) ∧
       (s.flag EVT.STORM_FULL.f = true → t.regs = s.regs) ∧ Only [.regs, .tabs] s t ∧
       RegsBut [EVT.STORM_FULL.f.key, EVT.STORM_CAP_SRC.f.key, EVT.STORM_CAP_KIND.f.key] s t ∧
       TabsBut [EVT.src.key 0 n] s t)) ∧
    (s.openTo 12 .evt = true → ∃ t, Machine.exec (.evtUnmask (BitVec.ofNat 11 n)) s = .next t ∧
      bitOf (t.route n) 20 = false ∧ (∀ i, i ≠ 20 → bitOf (t.route n) i = bitOf w i) ∧ t.tab EVT.since 0 n = s.time ∧
      TabsBut [EVT.src.key 0 n, EVT.since.key 0 n] s t ∧
      (¬(masked ∧ active) → t.occ.get n [] = [] ∧ Only [.tabs, .occ] s t) ∧
      (masked → active → t.occ.get n [] = [s.time] ∧ Only [.tabs, .occ, .evq, .notices] s t ∧ ∀ d, d < 9 →
        (bitOf w d = false → t.evq.get d [] = s.evq.get d []) ∧
        (bitOf w d = true → (∃ e ∈ s.evq.get d [], e.src = n.val) → t.evq.get d [] =
          (s.evq.get d []).map fun e => if e.src = n.val then { e with count := min (e.count + 1) 255 } else e) ∧
        (bitOf w d = true → (∀ e ∈ s.evq.get d [], e.src ≠ n.val) →
          (t.evq.get d []).Perm ({ src := n, ts := s.time, count := 1 } :: s.evq.get d []))))) ∧
  (∀ (n : BitVec 11) (s : State), s.openTo 12 .evt = true → 1792 ≤ n.toNat →
    Machine.exec (.evtUnmask n) s = .next s) ∧
  (∀ s : State, s.openTo 12 .evt = true → ∃ t, Machine.exec .stormRel s = .next t ∧ t.flag EVT.STORM_FULL.f = false ∧
    t.rd EVT.STORM_CAP_SRC.f = 0 ∧ t.rd EVT.STORM_CAP_KIND.f = 0 ∧
    OnlyRegs [EVT.STORM_FULL.f.key, EVT.STORM_CAP_SRC.f.key, EVT.STORM_CAP_KIND.f.key] s t) ∧
  (∀ (m : MfpId) (q : Master) (s : State), s.openTo (masterIdx q) .evt = true →
    ∃ t, Machine.exec (.evtNext m q) s = .next t ∧ Only [.regs, .evq] s t ∧
      (s.hasMfp m = false → AbsentCaught (EVT.M_NEXT.f m).addr s t ∧ t.rd SYS.RDATA.f = 0 ∧ t.evq = s.evq) ∧
      (s.hasMfp m = true → s.evq.get m [] = [] → t.rd SYS.RDATA.f = 0xFFFFFFFF ∧
        OnlyRegs [SYS.RDATA.f.key] { s with evq := t.evq } t ∧ ∀ d, t.evq.get d [] = s.evq.get d []) ∧
      (∀ e l, s.hasMfp m = true → s.evq.get m [] = e :: l → e.src < 2048 → e.count < 256 →
        t.rd SYS.RDATA.f = e.src + e.count * 65536 ∧ t.evq.get m [] = (if s.consumes q then l else e :: l) ∧
        (∀ d, d ≠ m.val → t.evq.get d [] = s.evq.get d []) ∧ OnlyRegs [SYS.RDATA.f.key] { s with evq := t.evq } t)) ∧
  (∀ s : State, ∃ t, Machine.exec .evqTake s = .next t ∧ t.evq.get 8 [] = (s.evq.get 8 []).tail ∧
    (∀ d, d ≠ 8 → t.evq.get d [] = s.evq.get d []) ∧ Only [.evq] s t) ∧
  (∀ (k : Fin 8) (s : State), Machine.exec (.evinChange k []) s = .next s ∧ ∀ (ball : Bool) (l : List Bool),
    ∃ t, Machine.exec (.evinChange k [ball]) s = .next t ∧
    Machine.exec (.evinChange k (ball :: l)) s = Machine.exec (.evinChange k l) t ∧
    let level := ball != s.bit EVT.INV.f k
    let run := if level = s.bit EVT.IN_LVL.f k then 0 else min 3 (s.rd (EVT.IN_RUN.f k) + 1)
    let kept := (s.rd (EVT.IN_HOLD.f k) - 1) % 8
    let changes := run = 3 ∧ kept = 0
    let rises := changes ∧ level = true ∧ s.dieOn = true
    (∀ j : Fin 8, t.bit EVT.IN_LVL.f j = if j = k ∧ changes then level else s.bit EVT.IN_LVL.f j) ∧
    t.rd (EVT.IN_RUN.f k) = (if changes then 0 else run) ∧ t.rd (EVT.IN_HOLD.f k) = (if changes then 5 else kept) ∧
    (¬rises → t.rd (EVT.IN_CNT.f k) = s.rd (EVT.IN_CNT.f k)) ∧
    (rises → t.rd (EVT.IN_CNT.f k) = (s.rd (EVT.IN_CNT.f k) + 1) % 2 ^ 32) ∧ Only [.regs, .tabs] s t ∧
    RegsBut [EVT.IN_LVL.f.key, (EVT.IN_RUN.f k).key, (EVT.IN_HOLD.f k).key, (EVT.IN_CNT.f k).key] s t ∧
    (¬(rises ∧ k = 0) → t.tabs = s.tabs) ∧
    (rises → k = 0 → (∀ c : Channel, t.tab LDG.sram 0 (0x12 + 4 * c) =
      if s.flag (VLV.DRV_EN.ch c) = true ∨ s.flag (VLV.PMU_EN.ch c) = true
      then satInc 32 (s.tab LDG.sram 0 (0x12 + 4 * c)) else s.tab LDG.sram 0 (0x12 + 4 * c)) ∧
      TabsBut ((List.range 128).map fun c => LDG.sram.key 0 (0x12 + 4 * c)) s t))

/-- RTC_SET loads the seconds, clears the fraction and sets RTC_VALID; FIRST_ON takes the seconds once. With
PTP_LOCK an alignment, where one is due (60 s after the last; the first as ALIGN_NEXT says), loads ptp -
currentUtcOffset - 946,684,800 with fraction 0; one that changes the seconds is counted and sets RTC_VALID. The fall
of VBAT without VAON loses the date. Each minute, DRV_MIN of every channel that drives outside the safe state and
the bin of each sensor's highest reading go up by one, saturating (DRV_MIN is sampled at the minute, the model's
choice). A flush starts by FLUSH_GO, where the block is open to it, or the interval of main power once due
(FLUSH_INT minutes, 1 to 10, after the last, 60 s after a start without one), not beside another: it raises SEQ and
writes the CRC of the snapshot; without a valid directory FLUSH_ERR is set. At its end FLUSH_BLK names the next of
64 blocks, or FLUSH_ERR is set; a load that reads flash keeps it waiting; the flush of a shutdown drives PS_EN_MAIN
low. (R513, R514, R515, R516, R521) -/
def Obligations.CalendarLedgerAndFlushes : Prop :=
  (∀ s : State, s.openTo 12 .ldg = true →
    (∃ t, Machine.exec .rtcSet s = .next t ∧
      t.rd LDG.RTC_S.f = (s.rd LDG.RTC_SET_LO.f + s.rd LDG.RTC_SET_HI.f * 2 ^ 32) % 2 ^ 48 ∧ t.rd LDG.RTC_NS.f = 0 ∧
      t.flag LDG.RTC_VALID.f = true ∧ FirstOn s t ∧
      OnlyRegsTabs [LDG.RTC_S.f.key, LDG.RTC_NS.f.key, LDG.RTC_VALID.f.key] [LDG.sram.key 0 2, LDG.sram.key 0 3] s t)) ∧
  (∀ (ptp : BitVec 48) (s : State),
    let due := s.flag ETH.PTP_LOCK.f = true ∧ s.rd LDG.ALIGN_NEXT.f ≤ s.time
    (¬due → Machine.exec (.rtcAlign ptp) s = .next s) ∧
    (due → ∃ t, Machine.exec (.rtcAlign ptp) s = .next t ∧ t.rd LDG.RTC_NS.f = 0 ∧
      t.rd LDG.ALIGN_NEXT.f = (s.rd LDG.ALIGN_NEXT.f + 60 * 10 ^ 9) % 2 ^ 64 ∧
      (t.rd LDG.RTC_S.f : Int) = ((ptp.toNat : Int) - signedOf 16 (s.rd ETH.PTP_UTC.f) - 946684800) % 2 ^ 48 ∧
      (t.rd LDG.RTC_S.f = s.rd LDG.RTC_S.f → OnlyRegs [LDG.RTC_S.f.key, LDG.RTC_NS.f.key, LDG.ALIGN_NEXT.f.key] s t) ∧
      (t.rd LDG.RTC_S.f ≠ s.rd LDG.RTC_S.f → t.rd LDG.RTC_ADJ.f = satInc 32 (s.rd LDG.RTC_ADJ.f) ∧
        t.flag LDG.RTC_VALID.f = true ∧ FirstOn s t ∧
        OnlyRegsTabs [LDG.RTC_S.f.key, LDG.RTC_NS.f.key, LDG.RTC_ADJ.f.key, LDG.RTC_VALID.f.key,
          LDG.ALIGN_NEXT.f.key]
          [LDG.sram.key 0 2, LDG.sram.key 0 3] s t))) ∧
  (∀ s : State, ∃ t, Machine.exec .vbatFall s = .next t ∧ t.flag PWR.VBAT_LOW.f = true ∧
    t.flag LDG.RTC_VALID.f = (s.flag LDG.RTC_VALID.f && s.flag PWR.VAON.f) ∧
    OnlyRegs [PWR.VBAT_LOW.f.key, LDG.RTC_VALID.f.key] s t) ∧
  (∀ s : State, ∃ t, Machine.exec .ledgerMinute s = .next t ∧
    (∀ c : Channel, t.tab LDG.sram 0 (0x10 + 4 * c) =
      if s.flag (VLV.DRV_EN.ch c) = true ∧ s.inSafe c = false then satInc 32 (s.tab LDG.sram 0 (0x10 + 4 * c))
      else s.tab LDG.sram 0 (0x10 + 4 * c)) ∧
    (∀ (k : Fin 12) (b : Fin 32),
      let m : Int := (s.rd (LDG.TMAX.f k) : Int) - 2049
      let inBin := (-160 + 40 * (b.val : Int) ≤ m ∨ b = 0) ∧ (m < -120 + 40 * (b.val : Int) ∨ b = 31)
      t.tab LDG.sram 0 (0x300 + 32 * k + b) =
        if s.rd (LDG.TMAX.f k) ≠ 0 ∧ inBin then satInc 32 (s.tab LDG.sram 0 (0x300 + 32 * k + b))
        else s.tab LDG.sram 0 (0x300 + 32 * k + b)) ∧
    (∀ k : Fin 12, t.rd (LDG.TMAX.f k) = 0) ∧
    OnlyRegsTabs (keys 12 [LDG.TMAX]) ((List.range 128).map (fun c => LDG.sram.key 0 (0x10 + 4 * c)) ++
      (List.range 384).map fun x => LDG.sram.key 0 (0x300 + x)) s t) ∧
  (∀ s : State,
    let due := s.dieOn = true ∧ if s.flag LDG.FLUSHED.f = true
      then s.rd LDG.FLUSH_AT.f + min 10 (max 1 (s.rd LDG.CTRL_FLUSH_INT.f)) * 60 * 10 ^ 9 ≤ s.time
      else 60 * 10 ^ 9 ≤ s.time
    (∃ t, (s.openTo 12 .ldg = true → Machine.exec .flushGo s = .next t) ∧
      (due → Machine.exec .flushInterval s = .next t) ∧ FlushStarts s t) ∧
    (¬due → Machine.exec .flushInterval s = .next s)) ∧
  (∀ (ok : Bool) (s : State),
    let ends := s.flag LDG.FLUSH_BUSY.f = true ∧ s.loadReads = false
    (¬ends → Machine.exec (.flushEnd ok) s = .next s) ∧
    (ends → ∃ t, Machine.exec (.flushEnd ok) s = .next t ∧ t.flag LDG.FLUSH_BUSY.f = false ∧
      t.flag LDG.FLUSH_ERR.f = !ok ∧
      t.rd LDG.FLUSH_BLK.f = (if ok then (s.rd LDG.FLUSH_BLK.f + 1) % 64 else s.rd LDG.FLUSH_BLK.f) ∧
      (s.flag LDG.FLUSH_OFF.f = true → t.flag PWR.EN_MAIN.f = false ∧ t.flag PWR.COLD_NEXT.f = true) ∧
      (s.flag LDG.FLUSH_OFF.f = false → Same [PWR.EN_MAIN.f, PWR.COLD_NEXT.f] s t) ∧
      OnlyRegs [LDG.FLUSH_BUSY.f.key, LDG.FLUSH_ERR.f.key, LDG.FLUSH_BLK.f.key, LDG.FLUSH_OFF.f.key, PWR.EN_MAIN.f.key,
        PWR.COLD_NEXT.f.key] s t))

/-- While a self-test runs, a failing precondition (clocks, rails, temperature) stops it with a NOT_RUN record whose
WHY names it. Its end shows the failed channels, and records NOT_RUN with WHY 8 if the session or flash ended it
early, else CLEAN or FAILED with the time, the duration, the coverage of bumps, channels and balls, the items that
failed and the first of them. A start-time test that could not begin is recorded NOT_RUN with WHERE 1 and at least
the bit of the clocks (the model's choice). The record goes to the slot after the latest, and is the latest; a test
that had begun leaves the channels at their reset state; CHFAIL changes at such an end only. After the test of a
shutdown the ledger is flushed and PS_EN_MAIN driven low; at a start FAILED holds the device in SAFEHOLD with HOLD
set and another outcome goes on at step 2; in a RESTART under HOLD a pass clears HOLD and goes on at step 2,
anything else keeps the hold. Without a running test nothing happens. COV_DC is 100 % (the model's choice). (R518,
R519, R520, R521, R522, R523, R526, R554) -/
def Obligations.TheSelfTestIsRecordedAndActedOn : Prop :=
  (∀ s : State,
    let why := b2n (!s.flag CLK.REF_OK.f || !s.flag CLK.IOSC_OK.f || s.flag CLK.FALLBACK.f || s.flag CLK.WAITREF.f) +
      2 * b2n s.anyAlarm + 4 * b2n ((List.range 12).any s.sensorWarns)
    let w := s.rd BST.WAIT.f
    let time := [s.rd LDG.RTC_S.f % 2 ^ 32, s.rd LDG.RTC_S.f / 2 ^ 32]
    (¬(s.flag BST.RUN.f = true ∧ why ≠ 0) → Machine.exec .bstPrecheck s = .next s) ∧
    (s.flag BST.RUN.f = true → why ≠ 0 → ∃ t, Machine.exec .bstPrecheck s = .next t ∧
      SelfTested w 2 ([2 + why * 16 + bstPlace w * 256] ++ time) s t ∧ ∀ k, k < 4 → Same [BST.CHFAIL.f k] s t) ∧
    (s.flag BST.TRYING.f = false → Machine.exec .bstStartTimeout s = .next s) ∧
    (s.flag BST.TRYING.f = true → ∃ t, Machine.exec .bstStartTimeout s = .next t ∧ t.flag BST.TRYING.f = false ∧
      SelfTested 1 2 ([2 + max 1 why * 16 + 256] ++ time) s t ∧ ∀ k, k < 4 → Same [BST.CHFAIL.f k] s t) ∧
    (∀ r : SelfTest,
      (s.flag BST.RUN.f = false → Machine.exec (.selfTestEnd r) s = .next s) ∧
      (s.flag BST.RUN.f = true → ∃ t, Machine.exec (.selfTestEnd r) s = .next t ∧
        (∀ k, k < 4 → t.rd (BST.CHFAIL.f k) = r.channels.toNat / 2 ^ (32 * k) % 2 ^ 32) ∧
        (r.early = true → SelfTested w 2 ([2 + 8 * 16 + bstPlace w * 256] ++ time) s t) ∧
        (r.early = false →
          let balls := (List.range 5).foldl (fun n i => if s.bit BST.BSMASK.f (6 + i)
            then n + [1558, 1558, 56, 688, 360].getD i 0 else n) 0
          SelfTested w (if r.fails = 0 then 0 else 1)
            ([(if r.fails = 0 then 0 else 1) + bstPlace w * 256] ++ time ++
              [r.dur.toNat + r.covD2d.toNat * 2 ^ 16, 10000 + balls * 10000 / 5184 * 2 ^ 16, r.fails.toNat,
                if r.fails = 0 then 0 else r.kind.toNat + r.item.toNat * 2 ^ 16]) s t))))

/-- Port S acts in an SLP session whose stream 3 is served, else its commands do nothing. CHAL_GO puts a fresh
challenge in the port's CHAL and sets CHAL_VALID. AUTH_GO is ignored while CHAL_VALID is clear or LOCKOUT is set;
else it clears CHAL_VALID, and on the right response (HMAC-SHA-256 under the DAK, a free value, over challenge,
serial, level and port) the port takes the level it asked for; on another it falls to level 0, AUTH_FAIL counts and
LOCKOUT is set. A lockout ends after 1 s, a challenge after 60 s. LOGOUT ends the session: level and SIDEFX 0, each
owned MFP free, resumed, without comparators or group; the other port keeps its own. Test-Logic-Reset does so for
port J and loads IDCODE. IDCODE, SAMPLE/PRELOAD and BYPASS act always; EXTEST, CLAMP and HIGHZ, selected, act only
at level 3 with no self-test running and every sequencer IDLE, as BYPASS else: the scannable balls take their cells,
or high impedance, as does a ball whose unit is absent. Preload, and EXTEST where it acts, load the cells. DBGACC
accesses start at Update-DR unless one is busy; a read-increment adds 4 to ADDR. They end once nothing holds them:
status 3 below the level needed, with no effect, 2 on a bus error, and 0 with DATA; DBG_IDCODE is read at every
level. The challenge is a free value; cells come as operands (the model's choice, log entries 87 and 93). (R529,
R530, R531, R532, R533, R534, R535, R546) -/
def Obligations.DebugSessionsAndTheTap : Prop :=
  (∀ (p : DbgPort) (s : State),
    let i := portIdx p
    (p = .s → (s.flag ETH.SESS.f = false ∨ s.safeOnly = true) → ∀ c ∈ [Instr.chalGo p, .authGo p, .logout p],
      Machine.exec c s = .next s) ∧
    (PortOpen s p → ∃ t, Machine.exec (.chalGo p) s = .next t ∧ t.flag (DBG.CHAL_VALID.f i) = true ∧ t.free = s.free + 1 ∧
      (∀ w, w < 8 → t.rd (DBG.CHAL.f i w) = Config.challenge s.free / 2 ^ (32 * w) % 2 ^ 32) ∧
      t.rd (DBG.CHAL_AT.f i) = s.time % 2 ^ 64 ∧ Only [.regs, .free] s t ∧
      RegsBut ((DBG.CHAL_VALID.f i).key :: (DBG.CHAL_AT.f i).key :: (List.range 8).map fun w => (DBG.CHAL.f i w).key) s t) ∧
    (PortOpen s p → (s.flag (DBG.CHAL_VALID.f i) = false ∨ s.flag (DBG.LOCKOUT.f i) = true) → Machine.exec (.authGo p) s = .next s) ∧
    (PortOpen s p → s.flag (DBG.CHAL_VALID.f i) = true → s.flag (DBG.LOCKOUT.f i) = false →
      let chal := s.words8 fun w => DBG.CHAL.f i w
      let serial := s.rd DBG.SERIAL_LO.f + s.rd DBG.SERIAL_HI.f * 2 ^ 32
      let mac := hmacSha256 (beBytes 32 Config.dak) ((List.range 32).map (fun k => chal / 256 ^ k % 256) ++
        (List.range 8).map (fun k => serial / 256 ^ k % 256) ++ [s.rd (DBG.AUTH_LEVEL.f i), i, 0, 0])
      let tag := mac.foldr (fun b v => b + 256 * v) 0
      ∃ t, Machine.exec (.authGo p) s = .next t ∧ t.flag (DBG.CHAL_VALID.f i) = false ∧
        (s.words8 (fun w => DBG.RESP.f i w) = tag → t.rd (DBG.LEVEL.f i) = s.rd (DBG.AUTH_LEVEL.f i) % 4 ∧
          Same [DBG.AUTH_FAIL.f, DBG.LOCKOUT.f i, DBG.LOCK_AT.f i] s t) ∧
        (s.words8 (fun w => DBG.RESP.f i w) ≠ tag → t.rd (DBG.LEVEL.f i) = 0 ∧
          t.rd DBG.AUTH_FAIL.f = satInc 32 (s.rd DBG.AUTH_FAIL.f) ∧ t.flag (DBG.LOCKOUT.f i) = true ∧
          t.rd (DBG.LOCK_AT.f i) = s.time % 2 ^ 64) ∧
        OnlyRegs [(DBG.CHAL_VALID.f i).key, (DBG.LEVEL.f i).key, DBG.AUTH_FAIL.f.key, (DBG.LOCKOUT.f i).key,
          (DBG.LOCK_AT.f i).key] s t) ∧
    (¬s.rd (DBG.LOCK_AT.f i) + 10 ^ 9 ≤ s.time → Machine.exec (.lockoutEnd p) s = .next s) ∧
    (s.rd (DBG.LOCK_AT.f i) + 10 ^ 9 ≤ s.time → ∃ t, Machine.exec (.lockoutEnd p) s = .next t ∧ t.flag (DBG.LOCKOUT.f i) = false ∧
      OnlyRegs [(DBG.LOCKOUT.f i).key] s t) ∧
    (¬s.rd (DBG.CHAL_AT.f i) + 60 * 10 ^ 9 ≤ s.time → Machine.exec (.challengeExpiry p) s = .next s) ∧
    (s.rd (DBG.CHAL_AT.f i) + 60 * 10 ^ 9 ≤ s.time → ∃ t, Machine.exec (.challengeExpiry p) s = .next t ∧ t.flag (DBG.CHAL_VALID.f i) = false ∧
      OnlyRegs [(DBG.CHAL_VALID.f i).key] s t) ∧
    (PortOpen s p → ∃ t, Machine.exec (.logout p) s = .next t ∧ DbgEnded p s t)) ∧
  (∀ s : State, ∃ t u, Machine.exec .tapReset s = .next u ∧ DbgEnded .j s t ∧ u.rd DBG.TAP_IR.f = 1 ∧
    OnlyRegs [DBG.TAP_IR.f.key] t u) ∧
  (∀ s : State, ∀ x ∈ [(1, Instr.tapIdcode), (0xFF, .tapBypass)],
    ∃ t, Machine.exec x.2 s = .next t ∧ t.rd DBG.TAP_IR.f = x.1 ∧ t.tapInstr = x.1 ∧ OnlyRegs [DBG.TAP_IR.f.key] s t) ∧
  (∀ (cells : List Bool) (s : State),
    let may := s.rd (DBG.LEVEL.f 0) = 3 ∧ s.flag BST.RUN.f = false ∧ ∀ q : SeqId, s.rd (TWL.STATE_STATE.f q) = 0
    let loaded := fun t : State => (∀ i (h : i < cells.length), i < scanCells → t.tab DBG.cells 0 i = b2n cells[i]) ∧
      ∀ i, cells.length ≤ i → t.tab DBG.cells 0 i = s.tab DBG.cells 0 i
    let only := fun t : State => OnlyRegsTabs [DBG.TAP_IR.f.key] ((List.range scanCells).map fun i => DBG.cells.key 0 i) s t
    (∃ t, Machine.exec (.tapSamplePreload cells) s = .next t ∧ t.rd DBG.TAP_IR.f = 2 ∧ loaded t ∧ only t) ∧
    ∀ x ∈ [(3, Instr.tapExtest cells), (4, .tapClamp), (5, .tapHighz)],
      ∃ t, Machine.exec x.2 s = .next t ∧ only t ∧ t.rd DBG.TAP_IR.f = x.1 ∧
        (may → t.tapInstr = x.1) ∧ (¬may → t.tapInstr = 0xFF) ∧
        (may → x.1 = 3 → loaded t) ∧ (¬(may ∧ x.1 = 3) → t.tabs = s.tabs) ∧
        ∀ i b, scanBalls[i]? = some b → t.ballDriven i =
          if s.ballAbsent b = true then some none
          else if ¬may then none
          else if x.1 = 5 then some none
          else some (some (t.tab DBG.cells 0 i != 0))) ∧
  (∀ (a d : Word) (s : State),
    (∀ c ∈ [Instr.dbgaccRead a, .dbgaccWrite a d, .dbgaccReadInc a],
      (s.rd DBG.TAP_STAT.f = 1 → Machine.exec c s = .next s) ∧
      (s.rd DBG.TAP_STAT.f ≠ 1 → ∃ t, Machine.exec c s = .next t ∧ t.rd DBG.TAP_STAT.f = 1 ∧ t.rd DBG.TAP_IR.f = 0x20 ∧
        t.rd DBG.TAP_AT.f = a.toNat ∧ (t.flag DBG.TAP_WR.f = true ↔ c = .dbgaccWrite a d) ∧
        t.rd DBG.TAP_ADDR.f = (if c = .dbgaccReadInc a then (a.toNat + 4) % 2 ^ 32 else a.toNat) ∧
        t.rd DBG.TAP_DATA.f = (if c = .dbgaccWrite a d then d.toNat else s.rd DBG.TAP_DATA.f % 2 ^ 32) ∧
        OnlyRegs [DBG.TAP_STAT.f.key, DBG.TAP_IR.f.key, DBG.TAP_AT.f.key, DBG.TAP_WR.f.key, DBG.TAP_ADDR.f.key,
          DBG.TAP_DATA.f.key] s t))) ∧
  (∀ s : State,
    let wr := s.flag DBG.TAP_WR.f
    let a := s.rd DBG.TAP_AT.f
    let held := s.mustWait (if wr then .write .dbgJ a (s.rd DBG.TAP_DATA.f) else .read .dbgJ a)
    ((s.rd DBG.TAP_STAT.f ≠ 1 ∨ held = true) → Machine.exec .dbgaccDone s = .next s) ∧
    (s.rd DBG.TAP_STAT.f = 1 → held = false →
      (s.ratioBad = false → s.rd (DBG.LEVEL.f 0) < needLevel a wr → ∃ t, Machine.exec .dbgaccDone s = .next t ∧
        t.rd DBG.TAP_STAT.f = 3 ∧ t.flag (DBG.DENIED.f 0) = true ∧
        OnlyRegs [DBG.TAP_STAT.f.key, (DBG.DENIED.f 0).key] s t) ∧
      (s.ratioBad = false → wr = false → a = 0x1400100C → s.dieOn = true → ∃ t, Machine.exec .dbgaccDone s = .next t ∧
        t.rd DBG.TAP_STAT.f = 0 ∧ t.rd DBG.TAP_DATA.f = s.rd DBG.IDCODE.f % 2 ^ 32 ∧ t.flag (DBG.DENIED.f 0) = false ∧
        OnlyRegs [DBG.TAP_STAT.f.key, DBG.TAP_DATA.f.key, (DBG.DENIED.f 0).key] s t) ∧
      (let r := s.dbgAccess .j a 4 (if wr then some (s.rd DBG.TAP_DATA.f) else none)
       r.1.ratioBad = false → ∃ t, Machine.exec .dbgaccDone s = .next t ∧
        OnlyRegs [DBG.TAP_STAT.f.key, DBG.TAP_DATA.f.key] r.1 t ∧
        (r.1.flag (DBG.DENIED.f 0) = true → t.rd DBG.TAP_STAT.f = 3) ∧
        (r.1.flag (DBG.DENIED.f 0) = false → r.2 = .busError → t.rd DBG.TAP_STAT.f = 2) ∧
        (∀ v, r.1.flag (DBG.DENIED.f 0) = false → r.2 = .ok v → t.rd DBG.TAP_STAT.f = 0 ∧
          (wr = false → t.rd DBG.TAP_DATA.f = v % 2 ^ 32)))))

/-- Port S acts in an SLP session whose stream 3 is served. HALT, RESUME, STEP, DRST and FEED_GO of an absent MFP
fill the capture of absent units; below their level (3 for DRST, 2 else), or, but for RESUME, while the other port
owns the MFP, they are DENIED and do nothing else. Else HALT, STEP and DRST make the port the owner (so does
FEED_GO, whose bundle may end the session). HALT requests a halt of a released MFP that is not halted and has no
request; RESUME and STEP let a halted one go on, with the watchdog reloaded unless RUNHALT; DRST resets it with
cause 3 and it runs. They are ignored where they do not apply. A halt is taken at a boundary not after an NI bundle,
with no reservation or 256 cycles after the request: results in flight written, the reservation cleared, HALTED, PC
and cause shown, and a halt asked of the group; forcing it, 256 cycles after the request, clears the reservation.
FEED_GO does nothing to a running MFP; an excluded bundle, or one that would raise an exception, only sets FEXC and
its cause; a fed ADD beside a NOP writes its register and leaves the PC and the loop. (R532, R538, R539, R540, R541,
R542, R546) -/
def Obligations.RunControlOfTheProcessors : Prop :=
  (∀ (p : DbgPort) (m : MfpId) (s : State), ∀ x, RunOp p m x → (x.2 = .feedGo p m → s.ratioBad = false) →
    (p = .s → (s.flag ETH.SESS.f = false ∨ s.safeOnly = true) → Machine.exec x.2 s = .next s) ∧
    (PortOpen s p → s.hasMfp m = false → ∃ t, Machine.exec x.2 s = .next t ∧ AbsentCaught (DBG.HALTED.f m).addr s t ∧
      OnlyRegs [SYS.HIT.f.key, SYS.ABSENT_ADDR.f.key, SYS.ABSENT_CNT.f.key] s t) ∧
    (PortOpen s p → s.hasMfp m = true → (s.level p < x.1 ∨ (s.ownedByOther p m = true ∧ x.2 ≠ .resume p m)) → ∃ t, Machine.exec x.2 s = .next t ∧
      t.flag (DBG.DENIED.f (portIdx p)) = true ∧ OnlyRegs [(DBG.DENIED.f (portIdx p)).key] s t) ∧
    (RunMay s p m x.1 → (s.ownedByOther p m = false ∨ x.2 = .resume p m) → x.2 ≠ .feedGo p m → ∃ t, Machine.exec x.2 s = .next t ∧ t.flag (DBG.DENIED.f (portIdx p)) = false ∧
      t.rd (DBG.OWN.f m) = if x.2 = .resume p m then s.rd (DBG.OWN.f m) else portIdx p + 1)) ∧
  (∀ (p : DbgPort) (m : MfpId) (s : State),
    let dn := (DBG.DENIED.f (portIdx p)).key
    let own := (DBG.OWN.f m).key
    let wn := [(DBG.HALTED.f m).key, (DBG.M_HCAUSE_CAUSE.f m).key, (DBG.M_HCAUSE_UNIT.f m).key, (MFP.WDT_LEFT.f m).key]
    (RunMay s p m 2 → s.ownedByOther p m = false →
      ((s.core m).released = true → s.flag (DBG.HALTED.f m) = false → (s.core m).haltReq = none →
        ∃ t, Machine.exec (.halt p m) s = .next t ∧ t.core m = { s.core m with haltReq := some (1, 0), haltFor := 0 } ∧
          t.flag (DBG.DEFER.f m) = true ∧ (∀ k, k ≠ m.val → t.core k = s.core k) ∧ Only [.regs, .cores] s t ∧
          RegsBut [dn, own, (DBG.DEFER.f m).key] s t) ∧
      (((s.core m).released = false ∨ s.flag (DBG.HALTED.f m) = true ∨ (s.core m).haltReq ≠ none) →
        ∃ t, Machine.exec (.halt p m) s = .next t ∧ OnlyRegs [dn, own] s t) ∧
      (s.flag (DBG.HALTED.f m) = false → ∃ t, Machine.exec (.step p m) s = .next t ∧ OnlyRegs [dn, own] s t) ∧
      (s.flag (DBG.HALTED.f m) = true →
        ∃ t, Machine.exec (.step p m) s = .next t ∧ WentOn m true s t ∧ RegsBut (dn :: own :: wn) s t)) ∧
    (RunMay s p m 2 →
      (s.flag (DBG.HALTED.f m) = false → ∃ t, Machine.exec (.resume p m) s = .next t ∧ OnlyRegs [dn] s t) ∧
      (s.flag (DBG.HALTED.f m) = true →
        ∃ t, Machine.exec (.resume p m) s = .next t ∧ WentOn m false s t ∧ RegsBut (dn :: wn) s t)) ∧
    (RunMay s p m 3 → s.ownedByOther p m = false →
      ((s.core m).released = true → ∃ t, Machine.exec (.drst p m) s = .next t ∧ MfpWasReset m 3 s t ∧
        t.flag (DBG.HALTED.f m) = false) ∧
      ((s.core m).released = false → ∃ t, Machine.exec (.drst p m) s = .next t ∧ OnlyRegs [dn, own] s t))) ∧
  (∀ (m : MfpId) (s : State),
    let c := s.core m
    let may := c.released = true ∧ c.slot = 0 ∧ c.lastNi = false ∧ (c.res = none ∨ 256 ≤ c.haltFor)
    ((c.haltReq = none ∨ ¬may) → Machine.exec (.haltTaken m) s = .next s) ∧
    (∀ x, c.haltReq = some x → may → ∃ t, Machine.exec (.haltTaken m) s = .next t ∧
      t.flag (DBG.HALTED.f m) = true ∧ t.flag (DBG.DEFER.f m) = false ∧ t.rd (DBG.M_PC.f m) = c.pc % 2 ^ 32 ∧
      t.rd (DBG.M_HCAUSE_CAUSE.f m) = x.1 % 8 ∧ t.rd (DBG.M_HCAUSE_UNIT.f m) = x.2 % 16 ∧
      t.core m = { c.flush with haltReq := none, haltFor := 0, stepping := false, idle := 0, res := none } ∧
      (∀ k : MfpId, k ≠ m →
        let asked := s.bit (DBG.M_HGRP.f m) k = true ∧ s.hasMfp k = true ∧ (s.core k).released = true ∧
          s.flag (DBG.HALTED.f k) = false ∧ (s.core k).haltReq = none
        (asked → t.core k = { s.core k with haltReq := some (5, 0), haltFor := 0 } ∧ t.flag (DBG.DEFER.f k) = true) ∧
        (¬asked → t.core k = s.core k ∧ t.rd (DBG.DEFER.f k) = s.rd (DBG.DEFER.f k))) ∧ Only [.regs, .cores] s t ∧
      RegsBut ([(DBG.HALTED.f m).key, (DBG.M_PC.f m).key, (DBG.M_HCAUSE_CAUSE.f m).key, (DBG.M_HCAUSE_UNIT.f m).key] ++
        keys 8 [DBG.DEFER]) s t) ∧
    ((c.haltReq = none ∨ c.haltFor < 256) → Machine.exec (.haltForce m) s = .next s) ∧
    (c.haltReq ≠ none → 256 ≤ c.haltFor → ∃ t, Machine.exec (.haltForce m) s = .next t ∧ t.core m = { c with res := none } ∧
      Only [.cores] s t ∧ ∀ k, k ≠ m.val → t.core k = s.core k)) ∧
  (∀ (p : DbgPort) (m : MfpId) (s : State), RunMay s p m 2 → s.ownedByOther p m = false → s.ratioBad = false →
    let w0 := s.rd (DBG.M_FEED_LO.f m)
    let w1 := s.rd (DBG.M_FEED_HI.f m)
    let ks := [(DBG.DENIED.f (portIdx p)).key, (DBG.OWN.f m).key]
    let kf := ks ++ [(DBG.FEXC.f m).key, (DBG.M_FSTAT_CAUSE.f m).key]
    let c := s.core m
    (s.flag (DBG.HALTED.f m) = false → ∃ t, Machine.exec (.feedGo p m) s = .next t ∧ OnlyRegs ks s t) ∧
    (s.flag (DBG.HALTED.f m) = true →
      (fedExcluded w0 = true → ∃ t, Machine.exec (.feedGo p m) s = .next t ∧ t.flag (DBG.FEXC.f m) = true ∧
        t.rd (DBG.M_FSTAT_CAUSE.f m) = 2 ∧ OnlyRegs kf s t) ∧
      (∀ x, fedExcluded w0 = false → s.bundleCause m w0 w1 = some x → ∃ t, Machine.exec (.feedGo p m) s = .next t ∧
        t.flag (DBG.FEXC.f m) = true ∧ t.rd (DBG.M_FSTAT_CAUSE.f m) = x.1 % 32 ∧ OnlyRegs kf s t) ∧
      (s.bundleCause m w0 w1 = none → mfpKind (w0 % 2 ^ 31) = 1 → mfpKind w1 = 0 → c.remotes = [] → c.flight = [] →
        c.srNext = [] → ∃ t, Machine.exec (.feedGo p m) s = .next t ∧ t.flag (DBG.FEXC.f m) = false ∧
          t.rd (DBG.M_FSTAT_CAUSE.f m) = 0 ∧
          (∀ k, (t.core m).x.get k 0 = if k = c.phys (bits w0 19 5) ∧ k ≠ 0
            then narrow32 (bitOf w0 24) (sx32 (c.ra (w0 % 2 ^ 31)) + sx32 (c.rb5 (w0 % 2 ^ 31))) % 2 ^ 32
            else c.x.get k 0) ∧
          (t.core m).pc = c.pc ∧ (t.core m).stat = c.stat ∧ (t.core m).lc = c.lc ∧ (t.core m).ls = c.ls ∧
          (t.core m).le = c.le ∧ (t.core m).rb = c.rb ∧ (t.core m).imprecise = c.imprecise ∧
          (∀ k, k ≠ m.val → t.core k = s.core k) ∧ Only [.regs, .cores] s t ∧ RegsBut kf s t)))

/-- An access to DBG_Mn_REG_IDATA through a port (port S in an SLP session whose stream 3 is served) at level 1 for
a read and 2 for a write: below it the access is DENIED and does nothing else; while the MFP runs, or with the
pointer at 72 or more, it has no effect, and such a bus access while the MFP runs ends with a bus error. Else a read
returns the word at the pointer: words 0 to 31 the physical registers, 32 to 35 and 36 to 39 the low and high parts
of the accumulators, 40 the PC, 41 to 47 zero, 48 + SRN the special register, zero where none is assigned. A write
stores the word where the table lets it, and leaves every other word; word 0 keeps reading zero, word 40 is where
the core resumes and DBG_Mn_PC. Then the port's private pointer goes on by one if its INC is set. An absent MFP
fills the capture of absent units. (R543) -/
def Obligations.TheRegisterFileOfAHaltedProcessor : Prop :=
  ∀ (p : DbgPort) (m : MfpId) (s : State),
    let c := s.core m
    let pa := dbgPtr p (DBG.M_REG_IADDR_ADDR.f m)
    let inc := s.flag (dbgPtr p (DBG.M_REG_IADDR_INC.f m))
    let w := s.rd pa
    let dn := (DBG.DENIED.f (portIdx p)).key
    (p = .s → (s.flag ETH.SESS.f = false ∨ s.safeOnly = true) → ∀ v, Machine.exec (.dbgRegAccess p m v) s = .next s) ∧
    (PortOpen s p → s.hasMfp m = false → ∀ v, ∃ t, Machine.exec (.dbgRegAccess p m v) s = .next t ∧
      AbsentCaught (0x1400201C + 0x100 * m.val) s t ∧ t.rd SYS.RDATA.f = 0 ∧
      OnlyRegs [SYS.HIT.f.key, SYS.ABSENT_ADDR.f.key, SYS.ABSENT_CNT.f.key, SYS.RDATA.f.key] s t) ∧
    (PortOpen s p → s.hasMfp m = true →
      (∀ v, s.level p < (if v.isSome then 2 else 1) → ∃ t, Machine.exec (.dbgRegAccess p m v) s = .next t ∧
        t.flag (DBG.DENIED.f (portIdx p)) = true ∧ OnlyRegs [dn] s t) ∧
      (∀ v, (if v.isSome then 2 else 1) ≤ s.level p → (s.flag (DBG.HALTED.f m) = false ∨ 72 ≤ w) →
        ∃ t, Machine.exec (.dbgRegAccess p m v) s = .next t ∧ t.flag (DBG.DENIED.f (portIdx p)) = false ∧
          OnlyRegs [dn] s t) ∧
      (s.flag (DBG.HALTED.f m) = false →
        (1 ≤ s.level p → (s.busRead (portMaster p) (0x1400201C + 0x100 * m.val) 4).2 = .busError) ∧
        (∀ v, 2 ≤ s.level p → (s.busWrite (portMaster p) (0x1400201C + 0x100 * m.val) 4 v).2 = .busError)) ∧
      (s.flag (DBG.HALTED.f m) = true → w < 72 →
        (1 ≤ s.level p → ∃ t, Machine.exec (.dbgRegAccess p m none) s = .next t ∧
          t.rd SYS.RDATA.f = (if w = 0 then 0 else if w < 32 then c.x.get w 0
            else if w < 36 then c.accAt (w - 32) 0 % 2 ^ 32
            else if w < 40 then c.accAt (w - 36) 0 / 2 ^ 32
            else if w = 40 then c.pc
            else if w < 48 ∨ 60 ≤ w ∧ w < 64 then 0
            else c.sr (w - 48)) % 2 ^ 64 ∧
          t.rd pa = (if inc then w + 1 else w) ∧ OnlyRegs [dn, SYS.RDATA.f.key, pa.key] s t) ∧
        (∀ v : Word, 2 ≤ s.level p →
          ∃ t, Machine.exec (.dbgRegAccess p m (some v)) s = .next t ∧
            (∀ x, x < 72 → x ≠ w → t.regFileRead m x =
              if 32 ≤ w ∧ w < 36 ∧ x = w + 4 then s.regFileRead m x % 256 else s.regFileRead m x) ∧
            t.regFileRead m w = (if w = 0 then 0 else if w < 36 then v.toNat else if w < 40 then v.toNat % 256
              else if w = 40 then v.toNat else if w < 48 ∨ 60 ≤ w ∧ w < 64 then 0
              else ((s.core m).putSr (w - 48) v.toNat).sr (w - 48)) ∧
            (w = 40 → t.rd (DBG.M_PC.f m) = v.toNat) ∧ t.rd pa = (if inc then w + 1 else w) ∧
            (∀ k, k ≠ m.val → t.core k = s.core k) ∧ Only [.regs, .cores] s t ∧
            RegsBut [dn, pa.key, (DBG.M_PC.f m).key] s t)))
end

