-- ==== Sys2Proof/Laws/Exec.lean ====
section
/-! SUPPORT. What each arm of `exec` calls, so that no proof unfolds the whole of `exec`. -/

namespace Sys2Proof.Machine

variable {s : State}

theorem exec_registerWrite (m : Master) (addr : Word) (v : Word) : exec (.registerWrite m addr v) s = execRegisterWrite m addr v s := rfl
theorem exec_absentRel : exec (.absentRel) s = execAbsentRel s := rfl
theorem exec_indirectDataAccess (m : Master) (addr : Word) (v : Option Word) : exec (.indirectDataAccess m addr v) s = execIndirectDataAccess m addr v s := rfl
theorem exec_levelWrite (ch : Channel) (lvl : Level) (code : BitVec 16) : exec (.levelWrite ch lvl code) s = execLevelWrite ch lvl code s := rfl
theorem exec_lvlCommit (t : Tile) : exec (.lvlCommit t) s = execLvlCommit t s := rfl
theorem exec_protForce (t : Tile) : exec (.protForce t) s = execProtForce t s := rfl
theorem exec_protRel (t : Tile) : exec (.protRel t) s = execProtRel t s := rfl
theorem exec_releaseCheck : exec (.releaseCheck) s = execReleaseCheck s := rfl
theorem exec_vlvCapRel (t : Tile) : exec (.vlvCapRel t) s = execVlvCapRel t s := rfl
theorem exec_protEn (ch : Channel) (on : Bool) : exec (.protEn ch on) s = execProtEn ch on s := rfl
theorem exec_detectorInputChange (ch : Channel) (d : Detector) (ua : Word) : exec (.detectorInputChange ch d ua) s = execDetectorInputChange ch d ua s := rfl
theorem exec_deglitchExpiry (ch : Channel) (d : Detector) (ns : Word) : exec (.deglitchExpiry ch d ns) s = execDeglitchExpiry ch d s ns := rfl
theorem exec_safeNFall : exec (.safeNFall) s = execSafeNFall s := rfl
theorem exec_safeNRise : exec (.safeNRise) s = execSafeNRise s := rfl
theorem exec_safeSettled (ch : Channel) : exec (.safeSettled ch) s = execSafeSettled ch s := rfl
theorem exec_mxCommit (t : Tile) : exec (.mxCommit t) s = execMxCommit t s := rfl
theorem exec_mxCommitEnd (t : Tile) : exec (.mxCommitEnd t) s = execMxCommitEnd t s := rfl
theorem exec_mxErrRel (t : Tile) : exec (.mxErrRel t) s = execMxErrRel t s := rfl
theorem exec_vlvChPmu (ch : Channel) (w : PmuWrite) : exec (.vlvChPmu ch w) s = execVlvChPmu ch w s := rfl
theorem exec_pmuSettle (ch : Channel) : exec (.pmuSettle ch) s = execPmuSettle ch s := rfl
theorem exec_timingWrite (r : TimingReg) (v : Word) : exec (.timingWrite r v) s = execTimingWrite r v s := rfl
theorem exec_sqCommit : exec (.sqCommit) s = execSqCommit s := rfl
theorem exec_tCommit (t : Tile) : exec (.tCommit t) s = execTCommit t s := rfl
theorem exec_timPlane (v : BitVec 15) : exec (.timPlane v) s = execTimPlane v s := rfl
theorem exec_timErrRel (t : Tile) : exec (.timErrRel t) s = execTimErrRel t s := rfl
theorem exec_tdrStart (t : Tile) : exec (.tdrStart t) s = execTdrStart t s := rfl
theorem exec_tdrAbort (t : Tile) : exec (.tdrAbort t) s = execTdrAbort t s := rfl
theorem exec_tdrLaunch (t : Tile) (obs : List (Fin 32 × TdrSample)) : exec (.tdrLaunch t obs) s = execTdrLaunch t obs s := rfl
theorem exec_tdrEnd (t : Tile) : exec (.tdrEnd t) s = execTdrEnd t s := rfl
theorem exec_calDone : exec (.calDone) s = execCalDone s := rfl
theorem exec_recalibrationStep (ch : Channel) : exec (.recalibrationStep ch) s = execRecalibrationStep ch s := rfl
theorem exec_recalibrationEnd (ch : Channel) : exec (.recalibrationEnd ch) s = execRecalibrationEnd ch s := rfl
theorem exec_mapCommit (q : SeqId) : exec (.mapCommit q) s = execMapCommit q s := rfl
theorem exec_mapErrRel (q : SeqId) : exec (.mapErrRel q) s = execMapErrRel q s := rfl
theorem exec_cmdStop (q : SeqId) : exec (.cmdStop q) s = execCmdStop q s := rfl
theorem exec_twlNop (q : SeqId) : exec (.twlNop q) s = execTwlNop q s := rfl
theorem exec_twlRpt (q : SeqId) : exec (.twlRpt q) s = execTwlRpt q s := rfl
theorem exec_twlLdc (q : SeqId) : exec (.twlLdc q) s = execTwlLdc q s := rfl
theorem exec_twlDjnz (q : SeqId) : exec (.twlDjnz q) s = execTwlDjnz q s := rfl
theorem exec_twlJmp (q : SeqId) : exec (.twlJmp q) s = execTwlJmp q s := rfl
theorem exec_twlCall (q : SeqId) : exec (.twlCall q) s = execTwlCall q s := rfl
theorem exec_twlRet (q : SeqId) : exec (.twlRet q) s = execTwlRet q s := rfl
theorem exec_twlBrc (q : SeqId) : exec (.twlBrc q) s = execTwlBrc q s := rfl
theorem exec_twlMatch (q : SeqId) : exec (.twlMatch q) s = execTwlMatch q s := rfl
theorem exec_twlMatchTimeout (q : SeqId) : exec (.twlMatchTimeout q) s = execTwlMatchTimeout q s := rfl
theorem exec_twlHof (q : SeqId) : exec (.twlHof q) s = execTwlHof q s := rfl
theorem exec_twlStop (q : SeqId) : exec (.twlStop q) s = execTwlStop q s := rfl
theorem exec_twlEvt (q : SeqId) : exec (.twlEvt q) s = execTwlEvt q s := rfl
theorem exec_twlSync (q : SeqId) : exec (.twlSync q) s = execTwlSync q s := rfl
theorem exec_twlApg (q : SeqId) : exec (.twlApg q) s = execTwlApg q s := rfl
theorem exec_twlClrf (q : SeqId) : exec (.twlClrf q) s = execTwlClrf q s := rfl
theorem exec_gngNext (g : ApgId) : exec (.gngNext g) s = execGngNext g s := rfl
theorem exec_gngJmp (g : ApgId) : exec (.gngJmp g) s = execGngJmp g s := rfl
theorem exec_gngJw (g : ApgId) : exec (.gngJw g) s = execGngJw g s := rfl
theorem exec_gngJnw (g : ApgId) : exec (.gngJnw g) s = execGngJnw g s := rfl
theorem exec_gngLdc (g : ApgId) : exec (.gngLdc g) s = execGngLdc g s := rfl
theorem exec_gngDjnz (g : ApgId) : exec (.gngDjnz g) s = execGngDjnz g s := rfl
theorem exec_gngCall (g : ApgId) : exec (.gngCall g) s = execGngCall g s := rfl
theorem exec_gngRet (g : ApgId) : exec (.gngRet g) s = execGngRet g s := rfl
theorem exec_gngRpt (g : ApgId) : exec (.gngRpt g) s = execGngRpt g s := rfl
theorem exec_gngWaitt (g : ApgId) : exec (.gngWaitt g) s = execGngWaitt g s := rfl
theorem exec_gngJref (g : ApgId) : exec (.gngJref g) s = execGngJref g s := rfl
theorem exec_gngEnd (g : ApgId) : exec (.gngEnd g) s = execGngEnd g s := rfl
theorem exec_refInterval (g : ApgId) : exec (.refInterval g) s = execRefInterval g s := rfl
theorem exec_refEn (g : ApgId) (on : Bool) : exec (.refEn g on) s = execRefEn g on s := rfl
theorem exec_tmrZero (g : ApgId) : exec (.tmrZero g) s = execTmrZero g s := rfl
theorem exec_gngErrRel (g : ApgId) : exec (.gngErrRel g) s = execGngErrRel g s := rfl
theorem exec_strobeResult (q : SeqId) (obs : List (Channel × List (List (BitVec 2)))) : exec (.strobeResult q obs) s = execStrobeResult q obs s := rfl
theorem exec_recordWrite (site : Site) : exec (.recordWrite site) s = execRecordWrite site s := rfl
theorem exec_padTimeout (site : Site) : exec (.padTimeout site) s = execPadTimeout site s := rfl
theorem exec_dmkRingRd (site : Site) (v : Word) : exec (.dmkRingRd site v) s = execDmkRingRd site v s := rfl
theorem exec_recordPortRead (p : Fin 4) (m : Master) : exec (.recordPortRead p m) s = execRecordPortRead p m s := rfl
theorem exec_resultPortRead (m : Master) : exec (.resultPortRead m) s = execResultPortRead m s := rfl
theorem exec_resultPost (site : Site) : exec (.resultPost site) s = execResultPost site s := rfl
theorem exec_bmapClr (site : Site) : exec (.bmapClr site) s = execBmapClr site s := rfl
theorem exec_bmapClearEnd (site : Site) : exec (.bmapClearEnd site) s = execBmapClearEnd site s := rfl
theorem exec_bitmapLineWrite (site : Site) (bad : Bool) : exec (.bitmapLineWrite site bad) s = execBitmapLineWrite site bad s := rfl
theorem exec_raOpen (k : RepairId) : exec (.raOpen k) s = execRaOpen k s := rfl
theorem exec_raClose (k : RepairId) : exec (.raClose k) s = execRaClose k s := rfl
theorem exec_raCloseEffect (k : RepairId) : exec (.raCloseEffect k) s = execRaCloseEffect k s := rfl
theorem exec_raAbort (k : RepairId) : exec (.raAbort k) s = execRaAbort k s := rfl
theorem exec_repairCell (k : RepairId) (poison : Bool) : exec (.repairCell k poison) s = execRepairCell k poison s := rfl
theorem exec_repairSearchEnd (k : RepairId) (bad : BitVec 8) : exec (.repairSearchEnd k bad) s = execRepairSearchEnd k s bad := rfl
theorem exec_create (a : CalArgs) : exec (.create a) s = execCreate a s := rfl
theorem exec_alloc (a : CalArgs) : exec (.alloc a) s = execAlloc a s := rfl
theorem exec_seal (a : CalArgs) : exec (.seal a) s = execSeal a s := rfl
theorem exec_delete (a : CalArgs) : exec (.delete a) s = execDelete a s := rfl
theorem exec_query (a : CalArgs) : exec (.query a) s = execQuery a s := rfl
theorem exec_calCmdInvalid (a : CalArgs) : exec (.calCmdInvalid a) s = execCalCmdInvalid a s := rfl
theorem exec_scanEnd (id : Word) : exec (.scanEnd id) s = execScanEnd id s := rfl
theorem exec_zeroFillEnd (id : Word) : exec (.zeroFillEnd id) s = execZeroFillEnd id s := rfl
theorem exec_systemAreaBuilt : exec (.systemAreaBuilt) s = execSystemAreaBuilt s := rfl
theorem exec_post (p : ReqPort) : exec (.post p) s = execPost p s := rfl
theorem exec_wdraw (p : ReqPort) : exec (.wdraw p) s = execWdraw p s := rfl
theorem exec_collRel (p : ReqPort) : exec (.collRel p) s = execCollRel p s := rfl
theorem exec_admissionDecision : exec (.admissionDecision) s = execAdmissionDecision s := rfl
theorem exec_fillComplete (q : SeqId) : exec (.fillComplete q) s = execFillComplete q s := rfl
theorem exec_lineDecode (q : SeqId) : exec (.lineDecode q) s = execLineDecode q s := rfl
theorem exec_pzNext : exec (.pzNext) s = execPzNext s := rfl
theorem exec_pzOvfRel : exec (.pzOvfRel) s = execPzOvfRel s := rfl
theorem exec_channelTrained (dc : DcId) (r : SpdReport) : exec (.channelTrained dc r) s = execChannelTrained dc r s := rfl
theorem exec_channelResumed (dc : DcId) (failed : BitVec 4) : exec (.channelResumed dc failed) s = execChannelResumed dc failed s := rfl
theorem exec_dramRequest (pa : BitVec 44) (write : Bool) : exec (.dramRequest pa write) s = execDramRequest pa write s := rfl
theorem exec_dramReadDecode (pa : BitVec 44) (errs : CodeErrors) (cache : Option (BitVec 4)) : exec (.dramReadDecode pa errs cache) s = execDramReadDecode pa errs cache s := rfl
theorem exec_refab (dc : DcId) (rank : Fin 4) (postpone : Bool) : exec (.refab dc rank postpone) s = execRefab dc rank postpone s := rfl
theorem exec_thermalPoll (dc : DcId) (t0 : BitVec 8) (t1 : BitVec 8) (mr4 : BitVec 4) : exec (.thermalPoll dc t0 t1 mr4) s = execThermalPoll dc t0 t1 mr4 s := rfl
theorem exec_idleSelfRefresh (dc : DcId) (rank : Fin 4) : exec (.idleSelfRefresh dc rank) s = execIdleSelfRefresh dc rank s := rfl
theorem exec_retire (dc : DcId) : exec (.retire dc) s = execRetire dc s := rfl
theorem exec_redirectionSetupEnd (dc : DcId) (good : Bool) : exec (.redirectionSetupEnd dc good) s = execRedirectionSetupEnd dc good s := rfl
theorem exec_migrationCopy (dc : DcId) (errs : CodeErrors) : exec (.migrationCopy dc errs) s = execMigrationCopy dc errs s := rfl
theorem exec_ddrCapRel (dc : DcId) : exec (.ddrCapRel dc) s = execDdrCapRel dc s := rfl
theorem exec_kwLoad (a : KwArgs) : exec (.kwLoad a) s = execKwLoad a s := rfl
theorem exec_kwErase (a : KwArgs) : exec (.kwErase a) s = execKwErase a s := rfl
theorem exec_kwInvalid (a : KwArgs) : exec (.kwInvalid a) s = execKwInvalid a s := rfl
theorem exec_encCapRel : exec (.encCapRel) s = execEncCapRel s := rfl
theorem exec_rkreq (k : Fin 16) : exec (.rkreq k) s = execRkreq k s := rfl
theorem exec_rekeyWalkStart : exec (.rekeyWalkStart) s = execRekeyWalkStart s := rfl
theorem exec_rekeyPage (bad : BitVec 64) : exec (.rekeyPage bad) s = execRekeyPage s bad := rfl
theorem exec_partialWrite (id : Word) (off : BitVec 36) (data : List Byte) (bad : BitVec 64) : exec (.partialWrite id off data bad) s = execPartialWrite id off data s bad := rfl
theorem exec_wholeLineWrite (id : Word) (line : BitVec 30) (data : BitVec 512) (bad : BitVec 64) : exec (.wholeLineWrite id line data bad) s = execWholeLineWrite id line data s bad := rfl
theorem exec_nodeRebuild : exec (.nodeRebuild) s = execNodeRebuild s := rfl
theorem exec_adcStart (a : AdcId) : exec (.adcStart a) s = execAdcStart a s := rfl
theorem exec_adcGstart (mask : BitVec 16) : exec (.adcGstart mask) s = execAdcGstart mask s := rfl
theorem exec_adcStop (a : AdcId) : exec (.adcStop a) s = execAdcStop a s := rfl
theorem exec_urgGo (a : AdcId) : exec (.urgGo a) s = execUrgGo a s := rfl
theorem exec_calGo (a : AdcId) : exec (.calGo a) s = execCalGo a s := rfl
theorem exec_adcCalEnd (a : AdcId) (ofs0 : BitVec 16) (gain0 : BitVec 16) (ofs1 : BitVec 16) (gain1 : BitVec 16) : exec (.adcCalEnd a ofs0 gain0 ofs1 gain1) s = execAdcCalEnd a ofs0 gain0 ofs1 gain1 s := rfl
theorem exec_refReady (t : Tile) : exec (.refReady t) s = execRefReady t s := rfl
theorem exec_adcOutput (a : AdcId) (raws : List (BitVec 14)) (settle : Bool) (nref : Bool) : exec (.adcOutput a raws settle nref) s = execAdcOutput a raws settle nref s := rfl
theorem exec_adcPortRead (a : AdcId) (m : Master) : exec (.adcPortRead a m) s = execAdcPortRead a m s := rfl
theorem exec_adcStrRd (a : AdcId) (v : Word) : exec (.adcStrRd a v) s = execAdcStrRd a v s := rfl
theorem exec_mfpNop (m : MfpId) (e : BundleEcc) : exec (.mfpNop m e) s = execMfpNop m e s := rfl
theorem exec_mfpAdd (m : MfpId) (e : BundleEcc) : exec (.mfpAdd m e) s = execMfpAdd m e s := rfl
theorem exec_mfpSub (m : MfpId) (e : BundleEcc) : exec (.mfpSub m e) s = execMfpSub m e s := rfl
theorem exec_mfpAnd (m : MfpId) (e : BundleEcc) : exec (.mfpAnd m e) s = execMfpAnd m e s := rfl
theorem exec_mfpOr (m : MfpId) (e : BundleEcc) : exec (.mfpOr m e) s = execMfpOr m e s := rfl
theorem exec_mfpXor (m : MfpId) (e : BundleEcc) : exec (.mfpXor m e) s = execMfpXor m e s := rfl
theorem exec_mfpSll (m : MfpId) (e : BundleEcc) : exec (.mfpSll m e) s = execMfpSll m e s := rfl
theorem exec_mfpSrl (m : MfpId) (e : BundleEcc) : exec (.mfpSrl m e) s = execMfpSrl m e s := rfl
theorem exec_mfpSra (m : MfpId) (e : BundleEcc) : exec (.mfpSra m e) s = execMfpSra m e s := rfl
theorem exec_mfpSlt (m : MfpId) (e : BundleEcc) : exec (.mfpSlt m e) s = execMfpSlt m e s := rfl
theorem exec_mfpSltu (m : MfpId) (e : BundleEcc) : exec (.mfpSltu m e) s = execMfpSltu m e s := rfl
theorem exec_mfpMin (m : MfpId) (e : BundleEcc) : exec (.mfpMin m e) s = execMfpMin m e s := rfl
theorem exec_mfpMax (m : MfpId) (e : BundleEcc) : exec (.mfpMax m e) s = execMfpMax m e s := rfl
theorem exec_mfpAbs (m : MfpId) (e : BundleEcc) : exec (.mfpAbs m e) s = execMfpAbs m e s := rfl
theorem exec_mfpMul (m : MfpId) (e : BundleEcc) : exec (.mfpMul m e) s = execMfpMul m e s := rfl
theorem exec_mfpMulq (m : MfpId) (e : BundleEcc) : exec (.mfpMulq m e) s = execMfpMulq m e s := rfl
theorem exec_mfpAddi (m : MfpId) (e : BundleEcc) : exec (.mfpAddi m e) s = execMfpAddi m e s := rfl
theorem exec_mfpAndi (m : MfpId) (e : BundleEcc) : exec (.mfpAndi m e) s = execMfpAndi m e s := rfl
theorem exec_mfpOri (m : MfpId) (e : BundleEcc) : exec (.mfpOri m e) s = execMfpOri m e s := rfl
theorem exec_mfpXori (m : MfpId) (e : BundleEcc) : exec (.mfpXori m e) s = execMfpXori m e s := rfl
theorem exec_mfpShi (m : MfpId) (e : BundleEcc) : exec (.mfpShi m e) s = execMfpShi m e s := rfl
theorem exec_mfpSlti (m : MfpId) (e : BundleEcc) : exec (.mfpSlti m e) s = execMfpSlti m e s := rfl
theorem exec_mfpLui (m : MfpId) (e : BundleEcc) : exec (.mfpLui m e) s = execMfpLui m e s := rfl
theorem exec_mfpMaxs (m : MfpId) (e : BundleEcc) : exec (.mfpMaxs m e) s = execMfpMaxs m e s := rfl
theorem exec_mfpMins (m : MfpId) (e : BundleEcc) : exec (.mfpMins m e) s = execMfpMins m e s := rfl
theorem exec_mfpLdw (m : MfpId) (e : BundleEcc) : exec (.mfpLdw m e) s = execMfpLdw m e s := rfl
theorem exec_mfpLdh (m : MfpId) (e : BundleEcc) : exec (.mfpLdh m e) s = execMfpLdh m e s := rfl
theorem exec_mfpLdhu (m : MfpId) (e : BundleEcc) : exec (.mfpLdhu m e) s = execMfpLdhu m e s := rfl
theorem exec_mfpLdb (m : MfpId) (e : BundleEcc) : exec (.mfpLdb m e) s = execMfpLdb m e s := rfl
theorem exec_mfpLdbu (m : MfpId) (e : BundleEcc) : exec (.mfpLdbu m e) s = execMfpLdbu m e s := rfl
theorem exec_mfpLdd (m : MfpId) (e : BundleEcc) : exec (.mfpLdd m e) s = execMfpLdd m e s := rfl
theorem exec_mfpStw (m : MfpId) (e : BundleEcc) : exec (.mfpStw m e) s = execMfpStw m e s := rfl
theorem exec_mfpSth (m : MfpId) (e : BundleEcc) : exec (.mfpSth m e) s = execMfpSth m e s := rfl
theorem exec_mfpStb (m : MfpId) (e : BundleEcc) : exec (.mfpStb m e) s = execMfpStb m e s := rfl
theorem exec_mfpStd (m : MfpId) (e : BundleEcc) : exec (.mfpStd m e) s = execMfpStd m e s := rfl
theorem exec_mfpLl (m : MfpId) (e : BundleEcc) : exec (.mfpLl m e) s = execMfpLl m e s := rfl
theorem exec_mfpSc (m : MfpId) (e : BundleEcc) : exec (.mfpSc m e) s = execMfpSc m e s := rfl
theorem exec_mfpFence (m : MfpId) (e : BundleEcc) : exec (.mfpFence m e) s = execMfpFence m e s := rfl
theorem exec_mfpClrres (m : MfpId) (e : BundleEcc) : exec (.mfpClrres m e) s = execMfpClrres m e s := rfl
theorem exec_mfpMac (m : MfpId) (e : BundleEcc) : exec (.mfpMac m e) s = execMfpMac m e s := rfl
theorem exec_mfpMsu (m : MfpId) (e : BundleEcc) : exec (.mfpMsu m e) s = execMfpMsu m e s := rfl
theorem exec_mfpAccld (m : MfpId) (e : BundleEcc) : exec (.mfpAccld m e) s = execMfpAccld m e s := rfl
theorem exec_mfpAccadd (m : MfpId) (e : BundleEcc) : exec (.mfpAccadd m e) s = execMfpAccadd m e s := rfl
theorem exec_mfpAccrd (m : MfpId) (e : BundleEcc) : exec (.mfpAccrd m e) s = execMfpAccrd m e s := rfl
theorem exec_mfpBeq (m : MfpId) (e : BundleEcc) : exec (.mfpBeq m e) s = execMfpBeq m e s := rfl
theorem exec_mfpBne (m : MfpId) (e : BundleEcc) : exec (.mfpBne m e) s = execMfpBne m e s := rfl
theorem exec_mfpBlt (m : MfpId) (e : BundleEcc) : exec (.mfpBlt m e) s = execMfpBlt m e s := rfl
theorem exec_mfpBge (m : MfpId) (e : BundleEcc) : exec (.mfpBge m e) s = execMfpBge m e s := rfl
theorem exec_mfpJ (m : MfpId) (e : BundleEcc) : exec (.mfpJ m e) s = execMfpJ m e s := rfl
theorem exec_mfpCall (m : MfpId) (e : BundleEcc) : exec (.mfpCall m e) s = execMfpCall m e s := rfl
theorem exec_mfpJr (m : MfpId) (e : BundleEcc) : exec (.mfpJr m e) s = execMfpJr m e s := rfl
theorem exec_mfpLoop (m : MfpId) (e : BundleEcc) : exec (.mfpLoop m e) s = execMfpLoop m e s := rfl
theorem exec_mfpReti (m : MfpId) (e : BundleEcc) : exec (.mfpReti m e) s = execMfpReti m e s := rfl
theorem exec_mfpRetn (m : MfpId) (e : BundleEcc) : exec (.mfpRetn m e) s = execMfpRetn m e s := rfl
theorem exec_mfpWait (m : MfpId) (e : BundleEcc) : exec (.mfpWait m e) s = execMfpWait m e s := rfl
theorem exec_mfpWaitEnd (m : MfpId) : exec (.mfpWaitEnd m) s = execMfpWaitEnd m s := rfl
theorem exec_mfpIsync (m : MfpId) (e : BundleEcc) : exec (.mfpIsync m e) s = execMfpIsync m e s := rfl
theorem exec_mfpTrap (m : MfpId) (e : BundleEcc) : exec (.mfpTrap m e) s = execMfpTrap m e s := rfl
theorem exec_mfpMfsr (m : MfpId) (e : BundleEcc) : exec (.mfpMfsr m e) s = execMfpMfsr m e s := rfl
theorem exec_mfpMtsr (m : MfpId) (e : BundleEcc) : exec (.mfpMtsr m e) s = execMfpMtsr m e s := rfl
theorem exec_remoteLoadReturn (m : MfpId) (k : Fin 24) : exec (.remoteLoadReturn m k) s = execRemoteLoadReturn m k s := rfl
theorem exec_remoteStoreError (m : MfpId) (k : Fin 24) : exec (.remoteStoreError m k) s = execRemoteStoreError m k s := rfl
theorem exec_interruptEntry (m : MfpId) (e : BundleEcc) : exec (.interruptEntry m e) s = execInterruptEntry m e s := rfl
theorem exec_nmiEntry (m : MfpId) : exec (.nmiEntry m) s = execNmiEntry m s := rfl
theorem exec_reservationTimeout (m : MfpId) : exec (.reservationTimeout m) s = execReservationTimeout m s := rfl
theorem exec_watchdogExpiry (m : MfpId) : exec (.watchdogExpiry m) s = execWatchdogExpiry m s := rfl
theorem exec_kick (m : MfpId) : exec (.kick m) s = execKick m s := rfl
theorem exec_mfpWdtCtrl (m : MfpId) (v : Word) : exec (.mfpWdtCtrl m v) s = execMfpWdtCtrl m v s := rfl
theorem exec_timerExpiry (m : MfpId) : exec (.timerExpiry m) s = execTimerExpiry m s := rfl
theorem exec_mfpTmrLoad (m : MfpId) (v : Word) : exec (.mfpTmrLoad m v) s = execMfpTmrLoad m v s := rfl
theorem exec_tmrRel (m : MfpId) : exec (.tmrRel m) s = execTmrRel m s := rfl
theorem exec_rstRel (m : MfpId) : exec (.rstRel m) s = execRstRel m s := rfl
theorem exec_ring (m : MfpId) (mask : BitVec 8) : exec (.ring m mask) s = execRing m mask s := rfl
theorem exec_mfpDback (m : MfpId) (v : Word) : exec (.mfpDback m v) s = execMfpDback m v s := rfl
theorem exec_mfpCtxid (m : MfpId) (v : Word) : exec (.mfpCtxid m v) s = execMfpCtxid m v s := rfl
theorem exec_mfpApCtrl (m : MfpId) (w : Fin 8) (v : BitVec 2) : exec (.mfpApCtrl m w v) s = execMfpApCtrl m w v s := rfl
theorem exec_hold (b : Bay) : exec (.hold b) s = execHold b s := rfl
theorem exec_ringEngaged (b : Bay) : exec (.ringEngaged b) s = execRingEngaged b s := rfl
theorem exec_ringOpen (b : Bay) : exec (.ringOpen b) s = execRingOpen b s := rfl
theorem exec_ringOpened (b : Bay) : exec (.ringOpened b) s = execRingOpened b s := rfl
theorem exec_bayRst (b : Bay) (on : Bool) : exec (.bayRst b on) s = execBayRst b on s := rfl
theorem exec_cnvPort (c : Channel) (v : Word) : exec (.cnvPort c v) s = execCnvPort c v s := rfl
theorem exec_icfpWord (start : Bool) (w : Word) (valid : Bool) : exec (.icfpWord start w valid) s = execIcfpWord start w valid s := rfl
theorem exec_tagVerified (b : Bay) : exec (.tagVerified b) s = execTagVerified b s := rfl
theorem exec_partialLoadEnd : exec (.partialLoadEnd) s = execPartialLoadEnd s := rfl
theorem exec_icfpAbort : exec (.icfpAbort) s = execIcfpAbort s := rfl
theorem exec_icfpRel : exec (.icfpRel) s = execIcfpRel s := rfl
theorem exec_injRel : exec (.injRel) s = execInjRel s := rfl
theorem exec_upsetRel : exec (.upsetRel) s = execUpsetRel s := rfl
theorem exec_scrubFrame (region : BitVec 5) (frame : BitVec 27) (x : ScrubResult) : exec (.scrubFrame region frame x) s = execScrubFrame region frame x s := rfl
theorem exec_coldStart (master : Bool) (authOnly : Bool) (mac : BitVec 48) (serial : BitVec 64) (ledger : List LedgerBlock) (head : Option (Fin 16)) : exec (.coldStart master authOnly mac serial ledger head) s = execColdStart master authOnly mac serial ledger head s := rfl
theorem exec_segmentRead (r : FlashRead) : exec (.segmentRead r) s = execSegmentRead r s := rfl
theorem exec_writeRecord (pairs : List (Word × Word)) : exec (.writeRecord pairs) s = execWriteRecord pairs s := rfl
theorem exec_frames (addr : BitVec 32) (frames : List (BitVec 3072)) : exec (.frames addr frames) s = execFrames addr frames s := rfl
theorem exec_imem (m : MfpId) (off : Word) (data : List Word) : exec (.imem m off data) s = execImem m off data s := rfl
theorem exec_dmem (m : MfpId) (off : Word) (data : List Word) : exec (.dmem m off data) s = execDmem m off data s := rfl
theorem exec_endRecord (crc : Word) : exec (.endRecord crc) s = execEndRecord crc s := rfl
theorem exec_goldenBuildEnd : exec (.goldenBuildEnd) s = execGoldenBuildEnd s := rfl
theorem exec_doneRise : exec (.doneRise) s = execDoneRise s := rfl
theorem exec_startUpPhase : exec (.startUpPhase) s = execStartUpPhase s := rfl
theorem exec_lockTimeout : exec (.lockTimeout) s = execLockTimeout s := rfl
theorem exec_warm : exec (.warm) s = execWarm s := rfl
theorem exec_failRel : exec (.failRel) s = execFailRel s := rfl
theorem exec_portBringUp (w : TwPort) : exec (.portBringUp w) s = execPortBringUp w s := rfl
theorem exec_cap (w : TwPort) (sysId : Word) (major : Byte) (offer : Byte) (place : Byte) : exec (.cap w sysId major offer place) s = execCap w sysId major offer place s := rfl
theorem exec_laneGood (w : TwPort) (l : Fin 4) : exec (.laneGood w l) s = execLaneGood w l s := rfl
theorem exec_rateStepEnd (w : TwPort) (errs : List Word) : exec (.rateStepEnd w errs) s = execRateStepEnd w errs s := rfl
theorem exec_link (w : TwPort) (ack : BitVec 16) (nak : Bool) (ctl : BitVec 16) (bcast : BitVec 16) : exec (.link w ack nak ctl bcast) s = execLink w ack nak ctl bcast s := rfl
theorem exec_laneDrop (w : TwPort) (l : Fin 4) (x : LaneFault) : exec (.laneDrop w l x) s = execLaneDrop w l x s := rfl
theorem exec_recoverEnd (w : TwPort) : exec (.recoverEnd w) s = execRecoverEnd w s := rfl
theorem exec_recoverTimeout (w : TwPort) : exec (.recoverTimeout w) s = execRecoverTimeout w s := rfl
theorem exec_laneRetrainEnd (w : TwPort) (l : Fin 4) : exec (.laneRetrainEnd w l) s = execLaneRetrainEnd w l s := rfl
theorem exec_timeCmd (w : TwPort) (dev : BitVec 5) (depth : BitVec 5) (ct : BitVec 48) (path : BitVec 20) (t1 : BitVec 64) (t2 : BitVec 64) (t3 : BitVec 64) (t4 : BitVec 64) : exec (.timeCmd w dev depth ct path t1 t2 t3 t4) s = execTimeCmd w dev depth ct path t1 s t2 t3 t4 := rfl
theorem exec_arrive (n : Byte) (d : Fin 32) (bad : Bool) : exec (.arrive n d bad) s = execArrive n d bad s := rfl
theorem exec_release (n : Byte) (t : BitVec 48) : exec (.release n t) s = execRelease n t s := rfl
theorem exec_ack (n : Byte) (d : Fin 32) : exec (.ack n d) s = execAck n d s := rfl
theorem exec_barrierAckDeadline (n : Byte) : exec (.barrierAckDeadline n) s = execBarrierAckDeadline n s := rfl
theorem exec_barrierStart (n : Byte) : exec (.barrierStart n) s = execBarrierStart n s := rfl
theorem exec_fail (n : Byte) : exec (.fail n) s = execFail n s := rfl
theorem exec_withdraw (n : Byte) (d : Fin 32) : exec (.withdraw n d) s = execWithdraw n d s := rfl
theorem exec_lost : exec (.lost) s = execLost s := rfl
theorem exec_probeTimer : exec (.probeTimer) s = execProbeTimer s := rfl
theorem exec_probe (d : Fin 32) : exec (.probe d) s = execProbe d s := rfl
theorem exec_gfsum (d : Fin 32) (on : Bool) : exec (.gfsum d on) s = execGfsum d on s := rfl
theorem exec_gstop : exec (.gstop) s = execGstop s := rfl
theorem exec_gstopReceived (w : TwPort) : exec (.gstopReceived w) s = execGstopReceived s w := rfl
theorem exec_bcGo : exec (.bcGo) s = execBcGo s := rfl
theorem exec_bcCreate (x : BcCreate) : exec (.bcCreate x) s = execBcCreate x s := rfl
theorem exec_bcast (x : BcData) : exec (.bcast x) s = execBcast x s := rfl
theorem exec_bcSeal (x : BcSeal) : exec (.bcSeal x) s = execBcSeal x s := rfl
theorem exec_cascEn (on : Bool) (reach : List TwReach) : exec (.cascEn on reach) s = execCascEn on reach s := rfl
theorem exec_retrain (w : TwPort) : exec (.retrain w) s = execRetrain w s := rfl
theorem exec_prbsEn (w : TwPort) (on : Bool) (errs : List Word) : exec (.prbsEn w on errs) s = execPrbsEn w on errs s := rfl
theorem exec_twdCapRel : exec (.twdCapRel) s = execTwdCapRel s := rfl
theorem exec_ethFrame (f : EthFrame) : exec (.ethFrame f) s = execEthFrame f s := rfl
theorem exec_pause (quanta : BitVec 16) : exec (.pause quanta) s = execPause quanta s := rfl
theorem exec_arp (ip : Word) : exec (.arp ip) s = execArp ip s := rfl
theorem exec_neighbourSolicitation (target : BitVec 128) : exec (.neighbourSolicitation target) s = execNeighbourSolicitation target s := rfl
theorem exec_echo (v6 : Bool) (dst : BitVec 128) (len : BitVec 14) : exec (.echo v6 dst len) s = execEcho v6 dst len s := rfl
theorem exec_announce (domain : Byte) (ds : BitVec 127) (utc : BitVec 16) : exec (.announce domain ds utc) s = execAnnounce domain ds utc s := rfl
theorem exec_syncMessage (domain : Byte) (ds : BitVec 127) (ofs : Word) : exec (.syncMessage domain ds ofs) s = execSyncMessage domain ds ofs s := rfl
theorem exec_linkChange (link : Bool) (modAbs : Bool) (los : Bool) : exec (.linkChange link modAbs los) s = execLinkChange link modAbs los s := rfl
theorem exec_acknowledgement (session : Word) (stream : Fin 11) (a : SlpAck) : exec (.acknowledgement session stream a) s = execAcknowledgement session stream a s := rfl
theorem exec_slpOpen (h : SlpHdr) (p : SlpPeer) (tag : Word) (maxpay : Word) (force : Bool) : exec (.slpOpen h p tag maxpay force) s = execSlpOpen h p tag maxpay force s := rfl
theorem exec_slpClose (h : SlpHdr) (tag : Word) : exec (.slpClose h tag) s = execSlpClose h tag s := rfl
theorem exec_slpStatus (h : SlpHdr) (tag : Word) : exec (.slpStatus h tag) s = execSlpStatus h tag s := rfl
theorem exec_slpCal (h : SlpHdr) (tag : Word) (cmd : Word) (id : Word) (sizeLo : Word) (sizeHi : Word) : exec (.slpCal h tag cmd id sizeLo sizeHi) s = execSlpCal h tag cmd id sizeLo sizeHi s := rfl
theorem exec_slpRead (h : SlpHdr) (tag : Word) (id : Word) (off : BitVec 64) (len : Word) : exec (.slpRead h tag id off len) s = execSlpRead h tag id off len s := rfl
theorem exec_slpKey (h : SlpHdr) (tag : Word) (cmd : Word) (blob : BitVec 320) : exec (.slpKey h tag cmd blob) s = execSlpKey h tag cmd blob s := rfl
theorem exec_slpFlBegin (h : SlpHdr) (tag : Word) (slot : Word) (size : Word) (ok : Bool) : exec (.slpFlBegin h tag slot size ok) s = execSlpFlBegin h tag slot size ok s := rfl
theorem exec_slpFlData (h : SlpHdr) (slot : Word) (off : Word) (data : List Byte) (ok : Bool) : exec (.slpFlData h slot off data ok) s = execSlpFlData h slot off data ok s := rfl
theorem exec_slpFlCommit (h : SlpHdr) (tag : Word) (crc : Word) (dir2 : Word) (readback : Word) (ok : Bool) : exec (.slpFlCommit h tag crc dir2 readback ok) s = execSlpFlCommit h tag crc dir2 readback ok s := rfl
theorem exec_slpRestart (h : SlpHdr) (tag : Word) (slot : Word) : exec (.slpRestart h tag slot) s = execSlpRestart h tag slot s := rfl
theorem exec_slpShutdown (h : SlpHdr) (tag : Word) : exec (.slpShutdown h tag) s = execSlpShutdown h tag s := rfl
theorem exec_slpStandby (h : SlpHdr) (tag : Word) : exec (.slpStandby h tag) s = execSlpStandby h tag s := rfl
theorem exec_slpCsr (h : SlpHdr) (tag : Word) (entries : List CsrEntry) : exec (.slpCsr h tag entries) s = execSlpCsr h tag entries s := rfl
theorem exec_slpObjData (h : SlpHdr) (id : Word) (off : BitVec 64) (data : List Byte) : exec (.slpObjData h id off data) s = execSlpObjData h id off data s := rfl
theorem exec_slpMsg (h : SlpHdr) (q : Fin 4) (words : List Word) : exec (.slpMsg h q words) s = execSlpMsg h q words s := rfl
theorem exec_slpDebugRequest (h : SlpHdr) (tag : Word) (entries : List CsrEntry) : exec (.slpDebugRequest h tag entries) s = execSlpDebugRequest h tag entries s := rfl
theorem exec_slpSend (stream : Fin 11) : exec (.slpSend stream) s = execSlpSend stream s := rfl
theorem exec_retransmitTimeout (stream : Fin 11) (seq : Word) : exec (.retransmitTimeout stream seq) s = execRetransmitTimeout stream seq s := rfl
theorem exec_ackDelay (stream : Fin 11) : exec (.ackDelay stream) s = execAckDelay stream s := rfl
theorem exec_sessionTimeout : exec (.sessionTimeout) s = execSessionTimeout s := rfl
theorem exec_sessEnd : exec (.sessEnd) s = execSessEnd s := rfl
theorem exec_txSend (mask : BitVec 4) : exec (.txSend mask) s = execTxSend mask s := rfl
theorem exec_rxSkip (mask : BitVec 4) : exec (.rxSkip mask) s = execRxSkip mask s := rfl
theorem exec_ethRxRead (q : Fin 4) (m : Master) : exec (.ethRxRead q m) s = execEthRxRead q m s := rfl
theorem exec_refclkLoss (fab : Byte) (why : RefFault) : exec (.refclkLoss fab why) s = execRefclkLoss fab s why := rfl
theorem exec_trefLoss (fab : Byte) (why : RefFault) : exec (.trefLoss fab why) s = execTrefLoss fab s why := rfl
theorem exec_xtal32Loss (why : RefFault) : exec (.xtal32Loss why) s = execXtal32Loss s why := rfl
theorem exec_referenceRestored (r : ClkRef) (counts : List Word) : exec (.referenceRestored r counts) s = execReferenceRestored r s counts := rfl
theorem exec_ioscWindow (count : Word) : exec (.ioscWindow count) s = execIoscWindow count s := rfl
theorem exec_muxSwitch (forced : List (BitVec 7)) : exec (.muxSwitch forced) s = execMuxSwitch forced s := rfl
theorem exec_pllLock (isl : Island) : exec (.pllLock isl) s = execPllLock isl s := rfl
theorem exec_fmGo : exec (.fmGo) s = execFmGo s := rfl
theorem exec_fmEnd (hz : ClkHz) : exec (.fmEnd hz) s = execFmEnd hz s := rfl
theorem exec_forcedRel : exec (.forcedRel) s = execForcedRel s := rfl
theorem exec_lossRel : exec (.lossRel) s = execLossRel s := rfl
theorem exec_clkMfp (m : MfpId) (v : Word) : exec (.clkMfp m v) s = execClkMfp m v s := rfl
theorem exec_clkEn (v : Word) : exec (.clkEn v) s = execClkEn v s := rfl
theorem exec_railSample (k : Fin 20) (v : BitVec 16) (amp : BitVec 16) (p : BitVec 24) : exec (.railSample k v amp p) s = execRailSample k v amp p s := rfl
theorem exec_railRel : exec (.railRel) s = execRailRel s := rfl
theorem exec_resetThresholdFall (fall : ResetFall) : exec (.resetThresholdFall fall) s = execResetThresholdFall s fall := rfl
theorem exec_sensorRead (temps : List (BitVec 12)) : exec (.sensorRead temps) s = execSensorRead temps s := rfl
theorem exec_tcritRel : exec (.tcritRel) s = execTcritRel s := rfl
theorem exec_stbyGo : exec (.stbyGo) s = execStbyGo s := rfl
theorem exec_standbyEntryEnd : exec (.standbyEntryEnd) s = execStandbyEntryEnd s := rfl
theorem exec_stbyRefRel : exec (.stbyRefRel) s = execStbyRefRel s := rfl
theorem exec_wakeNFall : exec (.wakeNFall) s = execWakeNFall s := rfl
theorem exec_rtcAlarm : exec (.rtcAlarm) s = execRtcAlarm s := rfl
theorem exec_psPgRise : exec (.psPgRise) s = execPsPgRise s := rfl
theorem exec_vaonSettled : exec (.vaonSettled) s = execVaonSettled s := rfl
theorem exec_eventOccurrence (n : EvSource) : exec (.eventOccurrence n) s = execEventOccurrence n s := rfl
theorem exec_stuckTimeout (n : EvSource) : exec (.stuckTimeout n) s = execStuckTimeout n s := rfl
theorem exec_evtUnmask (n : BitVec 11) : exec (.evtUnmask n) s = execEvtUnmask n s := rfl
theorem exec_stormRel : exec (.stormRel) s = execStormRel s := rfl
theorem exec_evtNext (m : MfpId) (q : Master) : exec (.evtNext m q) s = execEvtNext m q s := rfl
theorem exec_evqTake : exec (.evqTake) s = execEvqTake s := rfl
theorem exec_evinChange (k : Fin 8) (samples : List Bool) : exec (.evinChange k samples) s = execEvinChange k s samples := rfl
theorem exec_rtcSet : exec (.rtcSet) s = execRtcSet s := rfl
theorem exec_rtcAlign (ptp : BitVec 48) : exec (.rtcAlign ptp) s = execRtcAlign ptp s := rfl
theorem exec_ledgerMinute : exec (.ledgerMinute) s = execLedgerMinute s := rfl
theorem exec_flushGo : exec (.flushGo) s = execFlushGo s := rfl
theorem exec_flushInterval : exec (.flushInterval) s = execFlushInterval s := rfl
theorem exec_flushEnd (ok : Bool) : exec (.flushEnd ok) s = execFlushEnd ok s := rfl
theorem exec_bstPrecheck : exec (.bstPrecheck) s = execBstPrecheck s := rfl
theorem exec_selfTestEnd (r : SelfTest) : exec (.selfTestEnd r) s = execSelfTestEnd r s := rfl
theorem exec_chalGo (p : DbgPort) : exec (.chalGo p) s = execChalGo p s := rfl
theorem exec_authGo (p : DbgPort) : exec (.authGo p) s = execAuthGo p s := rfl
theorem exec_lockoutEnd (p : DbgPort) : exec (.lockoutEnd p) s = execLockoutEnd p s := rfl
theorem exec_challengeExpiry (p : DbgPort) : exec (.challengeExpiry p) s = execChallengeExpiry p s := rfl
theorem exec_logout (p : DbgPort) : exec (.logout p) s = execLogout p s := rfl
theorem exec_tapReset : exec (.tapReset) s = execTapReset s := rfl
theorem exec_tapIdcode : exec (.tapIdcode) s = execTapIdcode s := rfl
theorem exec_tapSamplePreload (cells : List Bool) : exec (.tapSamplePreload cells) s = execTapSamplePreload s cells := rfl
theorem exec_tapExtest (cells : List Bool) : exec (.tapExtest cells) s = execTapExtest s cells := rfl
theorem exec_tapClamp : exec (.tapClamp) s = execTapClamp s := rfl
theorem exec_tapHighz : exec (.tapHighz) s = execTapHighz s := rfl
theorem exec_tapBypass : exec (.tapBypass) s = execTapBypass s := rfl
theorem exec_dbgaccRead (addr : Word) : exec (.dbgaccRead addr) s = execDbgaccRead addr s := rfl
theorem exec_dbgaccWrite (addr : Word) (data : Word) : exec (.dbgaccWrite addr data) s = execDbgaccWrite addr data s := rfl
theorem exec_dbgaccReadInc (addr : Word) : exec (.dbgaccReadInc addr) s = execDbgaccReadInc addr s := rfl
theorem exec_dbgaccDone : exec (.dbgaccDone) s = execDbgaccDone s := rfl
theorem exec_halt (p : DbgPort) (m : MfpId) : exec (.halt p m) s = execHalt p m s := rfl
theorem exec_haltTaken (m : MfpId) : exec (.haltTaken m) s = execHaltTaken m s := rfl
theorem exec_haltForce (m : MfpId) : exec (.haltForce m) s = execHaltForce m s := rfl
theorem exec_resume (p : DbgPort) (m : MfpId) : exec (.resume p m) s = execResume p m s := rfl
theorem exec_step (p : DbgPort) (m : MfpId) : exec (.step p m) s = execStep p m s := rfl
theorem exec_feedGo (p : DbgPort) (m : MfpId) : exec (.feedGo p m) s = execFeedGo p m s := rfl
theorem exec_drst (p : DbgPort) (m : MfpId) : exec (.drst p m) s = execDrst p m s := rfl
theorem exec_dbgRegAccess (p : DbgPort) (m : MfpId) (v : Option Word) : exec (.dbgRegAccess p m v) s = execDbgRegAccess p m v s := rfl
theorem exec_injectionPortInput (c : Channel) (bytes : List Byte) : exec (.injectionPortInput c bytes) s = execInjectionPortInput c bytes s := rfl
theorem exec_remoteStoreDone (m : MfpId) (k : Fin 24) : exec (.remoteStoreDone m k) s = execRemoteStoreDone m k s := rfl
theorem exec_eventSourceInactive (n : EvSource) : exec (.eventSourceInactive n) s = execEventSourceInactive n s := rfl
theorem exec_pauseExpiry : exec (.pauseExpiry) s = execPauseExpiry s := rfl
theorem exec_vaonLoss : exec (.vaonLoss) s = execVaonLoss s := rfl
theorem exec_vbatFall : exec (.vbatFall) s = execVbatFall s := rfl
theorem exec_retentionSupplyLoss : exec (.retentionSupplyLoss) s = execRetentionSupplyLoss s := rfl
theorem exec_bstStartTimeout : exec (.bstStartTimeout) s = execBstStartTimeout s := rfl
theorem exec_ceWindowAge (dc : DcId) (rank : Fin 4) (n : Word) : exec (.ceWindowAge dc rank n) s = execCeWindowAge dc rank n s := rfl

end Sys2Proof.Machine
end

