-- ==== Sys2Proof/Laws/State.lean ====
section
/-! SUPPORT. What the basic updates of the state leave unchanged, field by field, and what a read gives after a write:
of a sparse map, a register field, a table word and a byte. -/

namespace Sys2Proof.Machine

/-! One lemma per field per update. -/

@[simp] theorem State.wr_opt (s : State) (f : Fld) (v : Nat) : (s.wr f v).opt = s.opt := rfl
@[simp] theorem State.wr_tabs (s : State) (f : Fld) (v : Nat) : (s.wr f v).tabs = s.tabs := rfl
@[simp] theorem State.wr_mem (s : State) (f : Fld) (v : Nat) : (s.wr f v).mem = s.mem := rfl
@[simp] theorem State.wr_runs (s : State) (f : Fld) (v : Nat) : (s.wr f v).runs = s.runs := rfl
@[simp] theorem State.wr_inj (s : State) (f : Fld) (v : Nat) : (s.wr f v).inj = s.inj := rfl
@[simp] theorem State.wr_fifos (s : State) (f : Fld) (v : Nat) : (s.wr f v).fifos = s.fifos := rfl
@[simp] theorem State.wr_updates (s : State) (f : Fld) (v : Nat) : (s.wr f v).updates = s.updates := rfl
@[simp] theorem State.wr_results (s : State) (f : Fld) (v : Nat) : (s.wr f v).results = s.results := rfl
@[simp] theorem State.wr_sessions (s : State) (f : Fld) (v : Nat) : (s.wr f v).sessions = s.sessions := rfl
@[simp] theorem State.wr_dir (s : State) (f : Fld) (v : Nat) : (s.wr f v).dir = s.dir := rfl
@[simp] theorem State.wr_dirCopy (s : State) (f : Fld) (v : Nat) : (s.wr f v).dirCopy = s.dirCopy := rfl
@[simp] theorem State.wr_dramQ (s : State) (f : Fld) (v : Nat) : (s.wr f v).dramQ = s.dramQ := rfl
@[simp] theorem State.wr_lineQ (s : State) (f : Fld) (v : Nat) : (s.wr f v).lineQ = s.lineQ := rfl
@[simp] theorem State.wr_bcIn (s : State) (f : Fld) (v : Nat) : (s.wr f v).bcIn = s.bcIn := rfl
@[simp] theorem State.wr_pzList (s : State) (f : Fld) (v : Nat) : (s.wr f v).pzList = s.pzList := rfl
@[simp] theorem State.wr_uses (s : State) (f : Fld) (v : Nat) : (s.wr f v).uses = s.uses := rfl
@[simp] theorem State.wr_badNodes (s : State) (f : Fld) (v : Nat) : (s.wr f v).badNodes = s.badNodes := rfl
@[simp] theorem State.wr_cores (s : State) (f : Fld) (v : Nat) : (s.wr f v).cores = s.cores := rfl
@[simp] theorem State.wr_adcFifo (s : State) (f : Fld) (v : Nat) : (s.wr f v).adcFifo = s.adcFifo := rfl
@[simp] theorem State.wr_evq (s : State) (f : Fld) (v : Nat) : (s.wr f v).evq = s.evq := rfl
@[simp] theorem State.wr_twOut (s : State) (f : Fld) (v : Nat) : (s.wr f v).twOut = s.twOut := rfl
@[simp] theorem State.wr_slpWait (s : State) (f : Fld) (v : Nat) : (s.wr f v).slpWait = s.slpWait := rfl
@[simp] theorem State.wr_slpUnacked (s : State) (f : Fld) (v : Nat) : (s.wr f v).slpUnacked = s.slpUnacked := rfl
@[simp] theorem State.wr_slpHeld (s : State) (f : Fld) (v : Nat) : (s.wr f v).slpHeld = s.slpHeld := rfl
@[simp] theorem State.wr_ctrlQ (s : State) (f : Fld) (v : Nat) : (s.wr f v).ctrlQ = s.ctrlQ := rfl
@[simp] theorem State.wr_dbgQ (s : State) (f : Fld) (v : Nat) : (s.wr f v).dbgQ = s.dbgQ := rfl
@[simp] theorem State.wr_notices (s : State) (f : Fld) (v : Nat) : (s.wr f v).notices = s.notices := rfl
@[simp] theorem State.wr_slpObjs (s : State) (f : Fld) (v : Nat) : (s.wr f v).slpObjs = s.slpObjs := rfl
@[simp] theorem State.wr_rxMsgs (s : State) (f : Fld) (v : Nat) : (s.wr f v).rxMsgs = s.rxMsgs := rfl
@[simp] theorem State.wr_txBuf (s : State) (f : Fld) (v : Nat) : (s.wr f v).txBuf = s.txBuf := rfl
@[simp] theorem State.wr_ethTx (s : State) (f : Fld) (v : Nat) : (s.wr f v).ethTx = s.ethTx := rfl
@[simp] theorem State.wr_occ (s : State) (f : Fld) (v : Nat) : (s.wr f v).occ = s.occ := rfl
@[simp] theorem State.wr_raised (s : State) (f : Fld) (v : Nat) : (s.wr f v).raised = s.raised := rfl
@[simp] theorem State.wr_held (s : State) (f : Fld) (v : Nat) : (s.wr f v).held = s.held := rfl
@[simp] theorem State.wr_time (s : State) (f : Fld) (v : Nat) : (s.wr f v).time = s.time := rfl
@[simp] theorem State.wr_free (s : State) (f : Fld) (v : Nat) : (s.wr f v).free = s.free := rfl
@[simp] theorem State.wr_pending (s : State) (f : Fld) (v : Nat) : (s.wr f v).pending = s.pending := rfl

@[simp] theorem State.setTab_opt (s : State) (b : Tab) (n i v : Nat) : (s.setTab b n i v).opt = s.opt := rfl
@[simp] theorem State.setTab_regs (s : State) (b : Tab) (n i v : Nat) : (s.setTab b n i v).regs = s.regs := rfl
@[simp] theorem State.setTab_mem (s : State) (b : Tab) (n i v : Nat) : (s.setTab b n i v).mem = s.mem := rfl
@[simp] theorem State.setTab_runs (s : State) (b : Tab) (n i v : Nat) : (s.setTab b n i v).runs = s.runs := rfl
@[simp] theorem State.setTab_inj (s : State) (b : Tab) (n i v : Nat) : (s.setTab b n i v).inj = s.inj := rfl
@[simp] theorem State.setTab_fifos (s : State) (b : Tab) (n i v : Nat) : (s.setTab b n i v).fifos = s.fifos := rfl
@[simp] theorem State.setTab_updates (s : State) (b : Tab) (n i v : Nat) : (s.setTab b n i v).updates = s.updates := rfl
@[simp] theorem State.setTab_results (s : State) (b : Tab) (n i v : Nat) : (s.setTab b n i v).results = s.results := rfl
@[simp] theorem State.setTab_sessions (s : State) (b : Tab) (n i v : Nat) : (s.setTab b n i v).sessions = s.sessions := rfl
@[simp] theorem State.setTab_dir (s : State) (b : Tab) (n i v : Nat) : (s.setTab b n i v).dir = s.dir := rfl
@[simp] theorem State.setTab_dirCopy (s : State) (b : Tab) (n i v : Nat) : (s.setTab b n i v).dirCopy = s.dirCopy := rfl
@[simp] theorem State.setTab_dramQ (s : State) (b : Tab) (n i v : Nat) : (s.setTab b n i v).dramQ = s.dramQ := rfl
@[simp] theorem State.setTab_lineQ (s : State) (b : Tab) (n i v : Nat) : (s.setTab b n i v).lineQ = s.lineQ := rfl
@[simp] theorem State.setTab_bcIn (s : State) (b : Tab) (n i v : Nat) : (s.setTab b n i v).bcIn = s.bcIn := rfl
@[simp] theorem State.setTab_pzList (s : State) (b : Tab) (n i v : Nat) : (s.setTab b n i v).pzList = s.pzList := rfl
@[simp] theorem State.setTab_uses (s : State) (b : Tab) (n i v : Nat) : (s.setTab b n i v).uses = s.uses := rfl
@[simp] theorem State.setTab_badNodes (s : State) (b : Tab) (n i v : Nat) : (s.setTab b n i v).badNodes = s.badNodes := rfl
@[simp] theorem State.setTab_cores (s : State) (b : Tab) (n i v : Nat) : (s.setTab b n i v).cores = s.cores := rfl
@[simp] theorem State.setTab_adcFifo (s : State) (b : Tab) (n i v : Nat) : (s.setTab b n i v).adcFifo = s.adcFifo := rfl
@[simp] theorem State.setTab_evq (s : State) (b : Tab) (n i v : Nat) : (s.setTab b n i v).evq = s.evq := rfl
@[simp] theorem State.setTab_twOut (s : State) (b : Tab) (n i v : Nat) : (s.setTab b n i v).twOut = s.twOut := rfl
@[simp] theorem State.setTab_slpWait (s : State) (b : Tab) (n i v : Nat) : (s.setTab b n i v).slpWait = s.slpWait := rfl
@[simp] theorem State.setTab_slpUnacked (s : State) (b : Tab) (n i v : Nat) : (s.setTab b n i v).slpUnacked = s.slpUnacked := rfl
@[simp] theorem State.setTab_slpHeld (s : State) (b : Tab) (n i v : Nat) : (s.setTab b n i v).slpHeld = s.slpHeld := rfl
@[simp] theorem State.setTab_ctrlQ (s : State) (b : Tab) (n i v : Nat) : (s.setTab b n i v).ctrlQ = s.ctrlQ := rfl
@[simp] theorem State.setTab_dbgQ (s : State) (b : Tab) (n i v : Nat) : (s.setTab b n i v).dbgQ = s.dbgQ := rfl
@[simp] theorem State.setTab_notices (s : State) (b : Tab) (n i v : Nat) : (s.setTab b n i v).notices = s.notices := rfl
@[simp] theorem State.setTab_slpObjs (s : State) (b : Tab) (n i v : Nat) : (s.setTab b n i v).slpObjs = s.slpObjs := rfl
@[simp] theorem State.setTab_rxMsgs (s : State) (b : Tab) (n i v : Nat) : (s.setTab b n i v).rxMsgs = s.rxMsgs := rfl
@[simp] theorem State.setTab_txBuf (s : State) (b : Tab) (n i v : Nat) : (s.setTab b n i v).txBuf = s.txBuf := rfl
@[simp] theorem State.setTab_ethTx (s : State) (b : Tab) (n i v : Nat) : (s.setTab b n i v).ethTx = s.ethTx := rfl
@[simp] theorem State.setTab_occ (s : State) (b : Tab) (n i v : Nat) : (s.setTab b n i v).occ = s.occ := rfl
@[simp] theorem State.setTab_raised (s : State) (b : Tab) (n i v : Nat) : (s.setTab b n i v).raised = s.raised := rfl
@[simp] theorem State.setTab_held (s : State) (b : Tab) (n i v : Nat) : (s.setTab b n i v).held = s.held := rfl
@[simp] theorem State.setTab_time (s : State) (b : Tab) (n i v : Nat) : (s.setTab b n i v).time = s.time := rfl
@[simp] theorem State.setTab_free (s : State) (b : Tab) (n i v : Nat) : (s.setTab b n i v).free = s.free := rfl
@[simp] theorem State.setTab_pending (s : State) (b : Tab) (n i v : Nat) : (s.setTab b n i v).pending = s.pending := rfl

@[simp] theorem State.setByte_opt (s : State) (a : Nat) (b : Byte) : (s.setByte a b).opt = s.opt := rfl
@[simp] theorem State.setByte_regs (s : State) (a : Nat) (b : Byte) : (s.setByte a b).regs = s.regs := rfl
@[simp] theorem State.setByte_tabs (s : State) (a : Nat) (b : Byte) : (s.setByte a b).tabs = s.tabs := rfl
@[simp] theorem State.setByte_runs (s : State) (a : Nat) (b : Byte) : (s.setByte a b).runs = s.runs := rfl
@[simp] theorem State.setByte_inj (s : State) (a : Nat) (b : Byte) : (s.setByte a b).inj = s.inj := rfl
@[simp] theorem State.setByte_fifos (s : State) (a : Nat) (b : Byte) : (s.setByte a b).fifos = s.fifos := rfl
@[simp] theorem State.setByte_updates (s : State) (a : Nat) (b : Byte) : (s.setByte a b).updates = s.updates := rfl
@[simp] theorem State.setByte_results (s : State) (a : Nat) (b : Byte) : (s.setByte a b).results = s.results := rfl
@[simp] theorem State.setByte_sessions (s : State) (a : Nat) (b : Byte) : (s.setByte a b).sessions = s.sessions := rfl
@[simp] theorem State.setByte_dir (s : State) (a : Nat) (b : Byte) : (s.setByte a b).dir = s.dir := rfl
@[simp] theorem State.setByte_dirCopy (s : State) (a : Nat) (b : Byte) : (s.setByte a b).dirCopy = s.dirCopy := rfl
@[simp] theorem State.setByte_dramQ (s : State) (a : Nat) (b : Byte) : (s.setByte a b).dramQ = s.dramQ := rfl
@[simp] theorem State.setByte_lineQ (s : State) (a : Nat) (b : Byte) : (s.setByte a b).lineQ = s.lineQ := rfl
@[simp] theorem State.setByte_bcIn (s : State) (a : Nat) (b : Byte) : (s.setByte a b).bcIn = s.bcIn := rfl
@[simp] theorem State.setByte_pzList (s : State) (a : Nat) (b : Byte) : (s.setByte a b).pzList = s.pzList := rfl
@[simp] theorem State.setByte_uses (s : State) (a : Nat) (b : Byte) : (s.setByte a b).uses = s.uses := rfl
@[simp] theorem State.setByte_badNodes (s : State) (a : Nat) (b : Byte) : (s.setByte a b).badNodes = s.badNodes := rfl
@[simp] theorem State.setByte_cores (s : State) (a : Nat) (b : Byte) : (s.setByte a b).cores = s.cores := rfl
@[simp] theorem State.setByte_adcFifo (s : State) (a : Nat) (b : Byte) : (s.setByte a b).adcFifo = s.adcFifo := rfl
@[simp] theorem State.setByte_evq (s : State) (a : Nat) (b : Byte) : (s.setByte a b).evq = s.evq := rfl
@[simp] theorem State.setByte_twOut (s : State) (a : Nat) (b : Byte) : (s.setByte a b).twOut = s.twOut := rfl
@[simp] theorem State.setByte_slpWait (s : State) (a : Nat) (b : Byte) : (s.setByte a b).slpWait = s.slpWait := rfl
@[simp] theorem State.setByte_slpUnacked (s : State) (a : Nat) (b : Byte) : (s.setByte a b).slpUnacked = s.slpUnacked := rfl
@[simp] theorem State.setByte_slpHeld (s : State) (a : Nat) (b : Byte) : (s.setByte a b).slpHeld = s.slpHeld := rfl
@[simp] theorem State.setByte_ctrlQ (s : State) (a : Nat) (b : Byte) : (s.setByte a b).ctrlQ = s.ctrlQ := rfl
@[simp] theorem State.setByte_dbgQ (s : State) (a : Nat) (b : Byte) : (s.setByte a b).dbgQ = s.dbgQ := rfl
@[simp] theorem State.setByte_notices (s : State) (a : Nat) (b : Byte) : (s.setByte a b).notices = s.notices := rfl
@[simp] theorem State.setByte_slpObjs (s : State) (a : Nat) (b : Byte) : (s.setByte a b).slpObjs = s.slpObjs := rfl
@[simp] theorem State.setByte_rxMsgs (s : State) (a : Nat) (b : Byte) : (s.setByte a b).rxMsgs = s.rxMsgs := rfl
@[simp] theorem State.setByte_txBuf (s : State) (a : Nat) (b : Byte) : (s.setByte a b).txBuf = s.txBuf := rfl
@[simp] theorem State.setByte_ethTx (s : State) (a : Nat) (b : Byte) : (s.setByte a b).ethTx = s.ethTx := rfl
@[simp] theorem State.setByte_occ (s : State) (a : Nat) (b : Byte) : (s.setByte a b).occ = s.occ := rfl
@[simp] theorem State.setByte_raised (s : State) (a : Nat) (b : Byte) : (s.setByte a b).raised = s.raised := rfl
@[simp] theorem State.setByte_held (s : State) (a : Nat) (b : Byte) : (s.setByte a b).held = s.held := rfl
@[simp] theorem State.setByte_time (s : State) (a : Nat) (b : Byte) : (s.setByte a b).time = s.time := rfl
@[simp] theorem State.setByte_free (s : State) (a : Nat) (b : Byte) : (s.setByte a b).free = s.free := rfl
@[simp] theorem State.setByte_pending (s : State) (a : Nat) (b : Byte) : (s.setByte a b).pending = s.pending := rfl

@[simp] theorem State.draw_opt (s : State) : (s.draw).opt = s.opt := rfl
@[simp] theorem State.draw_regs (s : State) : (s.draw).regs = s.regs := rfl
@[simp] theorem State.draw_tabs (s : State) : (s.draw).tabs = s.tabs := rfl
@[simp] theorem State.draw_mem (s : State) : (s.draw).mem = s.mem := rfl
@[simp] theorem State.draw_runs (s : State) : (s.draw).runs = s.runs := rfl
@[simp] theorem State.draw_inj (s : State) : (s.draw).inj = s.inj := rfl
@[simp] theorem State.draw_fifos (s : State) : (s.draw).fifos = s.fifos := rfl
@[simp] theorem State.draw_updates (s : State) : (s.draw).updates = s.updates := rfl
@[simp] theorem State.draw_results (s : State) : (s.draw).results = s.results := rfl
@[simp] theorem State.draw_sessions (s : State) : (s.draw).sessions = s.sessions := rfl
@[simp] theorem State.draw_dir (s : State) : (s.draw).dir = s.dir := rfl
@[simp] theorem State.draw_dirCopy (s : State) : (s.draw).dirCopy = s.dirCopy := rfl
@[simp] theorem State.draw_dramQ (s : State) : (s.draw).dramQ = s.dramQ := rfl
@[simp] theorem State.draw_lineQ (s : State) : (s.draw).lineQ = s.lineQ := rfl
@[simp] theorem State.draw_bcIn (s : State) : (s.draw).bcIn = s.bcIn := rfl
@[simp] theorem State.draw_pzList (s : State) : (s.draw).pzList = s.pzList := rfl
@[simp] theorem State.draw_uses (s : State) : (s.draw).uses = s.uses := rfl
@[simp] theorem State.draw_badNodes (s : State) : (s.draw).badNodes = s.badNodes := rfl
@[simp] theorem State.draw_cores (s : State) : (s.draw).cores = s.cores := rfl
@[simp] theorem State.draw_adcFifo (s : State) : (s.draw).adcFifo = s.adcFifo := rfl
@[simp] theorem State.draw_evq (s : State) : (s.draw).evq = s.evq := rfl
@[simp] theorem State.draw_twOut (s : State) : (s.draw).twOut = s.twOut := rfl
@[simp] theorem State.draw_slpWait (s : State) : (s.draw).slpWait = s.slpWait := rfl
@[simp] theorem State.draw_slpUnacked (s : State) : (s.draw).slpUnacked = s.slpUnacked := rfl
@[simp] theorem State.draw_slpHeld (s : State) : (s.draw).slpHeld = s.slpHeld := rfl
@[simp] theorem State.draw_ctrlQ (s : State) : (s.draw).ctrlQ = s.ctrlQ := rfl
@[simp] theorem State.draw_dbgQ (s : State) : (s.draw).dbgQ = s.dbgQ := rfl
@[simp] theorem State.draw_notices (s : State) : (s.draw).notices = s.notices := rfl
@[simp] theorem State.draw_slpObjs (s : State) : (s.draw).slpObjs = s.slpObjs := rfl
@[simp] theorem State.draw_rxMsgs (s : State) : (s.draw).rxMsgs = s.rxMsgs := rfl
@[simp] theorem State.draw_txBuf (s : State) : (s.draw).txBuf = s.txBuf := rfl
@[simp] theorem State.draw_ethTx (s : State) : (s.draw).ethTx = s.ethTx := rfl
@[simp] theorem State.draw_occ (s : State) : (s.draw).occ = s.occ := rfl
@[simp] theorem State.draw_raised (s : State) : (s.draw).raised = s.raised := rfl
@[simp] theorem State.draw_held (s : State) : (s.draw).held = s.held := rfl
@[simp] theorem State.draw_time (s : State) : (s.draw).time = s.time := rfl
@[simp] theorem State.draw_pending (s : State) : (s.draw).pending = s.pending := rfl

@[simp] theorem State.pulse_opt (s : State) (n : Nat) : (s.pulse n).opt = s.opt := rfl
@[simp] theorem State.pulse_regs (s : State) (n : Nat) : (s.pulse n).regs = s.regs := rfl
@[simp] theorem State.pulse_tabs (s : State) (n : Nat) : (s.pulse n).tabs = s.tabs := rfl
@[simp] theorem State.pulse_mem (s : State) (n : Nat) : (s.pulse n).mem = s.mem := rfl
@[simp] theorem State.pulse_runs (s : State) (n : Nat) : (s.pulse n).runs = s.runs := rfl
@[simp] theorem State.pulse_inj (s : State) (n : Nat) : (s.pulse n).inj = s.inj := rfl
@[simp] theorem State.pulse_fifos (s : State) (n : Nat) : (s.pulse n).fifos = s.fifos := rfl
@[simp] theorem State.pulse_updates (s : State) (n : Nat) : (s.pulse n).updates = s.updates := rfl
@[simp] theorem State.pulse_results (s : State) (n : Nat) : (s.pulse n).results = s.results := rfl
@[simp] theorem State.pulse_sessions (s : State) (n : Nat) : (s.pulse n).sessions = s.sessions := rfl
@[simp] theorem State.pulse_dir (s : State) (n : Nat) : (s.pulse n).dir = s.dir := rfl
@[simp] theorem State.pulse_dirCopy (s : State) (n : Nat) : (s.pulse n).dirCopy = s.dirCopy := rfl
@[simp] theorem State.pulse_dramQ (s : State) (n : Nat) : (s.pulse n).dramQ = s.dramQ := rfl
@[simp] theorem State.pulse_lineQ (s : State) (n : Nat) : (s.pulse n).lineQ = s.lineQ := rfl
@[simp] theorem State.pulse_bcIn (s : State) (n : Nat) : (s.pulse n).bcIn = s.bcIn := rfl
@[simp] theorem State.pulse_pzList (s : State) (n : Nat) : (s.pulse n).pzList = s.pzList := rfl
@[simp] theorem State.pulse_uses (s : State) (n : Nat) : (s.pulse n).uses = s.uses := rfl
@[simp] theorem State.pulse_badNodes (s : State) (n : Nat) : (s.pulse n).badNodes = s.badNodes := rfl
@[simp] theorem State.pulse_cores (s : State) (n : Nat) : (s.pulse n).cores = s.cores := rfl
@[simp] theorem State.pulse_adcFifo (s : State) (n : Nat) : (s.pulse n).adcFifo = s.adcFifo := rfl
@[simp] theorem State.pulse_evq (s : State) (n : Nat) : (s.pulse n).evq = s.evq := rfl
@[simp] theorem State.pulse_twOut (s : State) (n : Nat) : (s.pulse n).twOut = s.twOut := rfl
@[simp] theorem State.pulse_slpWait (s : State) (n : Nat) : (s.pulse n).slpWait = s.slpWait := rfl
@[simp] theorem State.pulse_slpUnacked (s : State) (n : Nat) : (s.pulse n).slpUnacked = s.slpUnacked := rfl
@[simp] theorem State.pulse_slpHeld (s : State) (n : Nat) : (s.pulse n).slpHeld = s.slpHeld := rfl
@[simp] theorem State.pulse_ctrlQ (s : State) (n : Nat) : (s.pulse n).ctrlQ = s.ctrlQ := rfl
@[simp] theorem State.pulse_dbgQ (s : State) (n : Nat) : (s.pulse n).dbgQ = s.dbgQ := rfl
@[simp] theorem State.pulse_notices (s : State) (n : Nat) : (s.pulse n).notices = s.notices := rfl
@[simp] theorem State.pulse_slpObjs (s : State) (n : Nat) : (s.pulse n).slpObjs = s.slpObjs := rfl
@[simp] theorem State.pulse_rxMsgs (s : State) (n : Nat) : (s.pulse n).rxMsgs = s.rxMsgs := rfl
@[simp] theorem State.pulse_txBuf (s : State) (n : Nat) : (s.pulse n).txBuf = s.txBuf := rfl
@[simp] theorem State.pulse_ethTx (s : State) (n : Nat) : (s.pulse n).ethTx = s.ethTx := rfl
@[simp] theorem State.pulse_occ (s : State) (n : Nat) : (s.pulse n).occ = s.occ := rfl
@[simp] theorem State.pulse_held (s : State) (n : Nat) : (s.pulse n).held = s.held := rfl
@[simp] theorem State.pulse_time (s : State) (n : Nat) : (s.pulse n).time = s.time := rfl
@[simp] theorem State.pulse_free (s : State) (n : Nat) : (s.pulse n).free = s.free := rfl
@[simp] theorem State.pulse_pending (s : State) (n : Nat) : (s.pulse n).pending = s.pending := rfl

@[simp] theorem State.withTabs_tabs (s : State) (v : SMap Nat) : (s.withTabs v).tabs = v := rfl
@[simp] theorem State.withTabs_opt (s : State) (v : SMap Nat) : (s.withTabs v).opt = s.opt := rfl
@[simp] theorem State.withTabs_regs (s : State) (v : SMap Nat) : (s.withTabs v).regs = s.regs := rfl
@[simp] theorem State.withTabs_mem (s : State) (v : SMap Nat) : (s.withTabs v).mem = s.mem := rfl
@[simp] theorem State.withTabs_runs (s : State) (v : SMap Nat) : (s.withTabs v).runs = s.runs := rfl
@[simp] theorem State.withTabs_inj (s : State) (v : SMap Nat) : (s.withTabs v).inj = s.inj := rfl
@[simp] theorem State.withTabs_fifos (s : State) (v : SMap Nat) : (s.withTabs v).fifos = s.fifos := rfl
@[simp] theorem State.withTabs_updates (s : State) (v : SMap Nat) : (s.withTabs v).updates = s.updates := rfl
@[simp] theorem State.withTabs_results (s : State) (v : SMap Nat) : (s.withTabs v).results = s.results := rfl
@[simp] theorem State.withTabs_sessions (s : State) (v : SMap Nat) : (s.withTabs v).sessions = s.sessions := rfl
@[simp] theorem State.withTabs_dir (s : State) (v : SMap Nat) : (s.withTabs v).dir = s.dir := rfl
@[simp] theorem State.withTabs_dirCopy (s : State) (v : SMap Nat) : (s.withTabs v).dirCopy = s.dirCopy := rfl
@[simp] theorem State.withTabs_dramQ (s : State) (v : SMap Nat) : (s.withTabs v).dramQ = s.dramQ := rfl
@[simp] theorem State.withTabs_lineQ (s : State) (v : SMap Nat) : (s.withTabs v).lineQ = s.lineQ := rfl
@[simp] theorem State.withTabs_bcIn (s : State) (v : SMap Nat) : (s.withTabs v).bcIn = s.bcIn := rfl
@[simp] theorem State.withTabs_pzList (s : State) (v : SMap Nat) : (s.withTabs v).pzList = s.pzList := rfl
@[simp] theorem State.withTabs_uses (s : State) (v : SMap Nat) : (s.withTabs v).uses = s.uses := rfl
@[simp] theorem State.withTabs_badNodes (s : State) (v : SMap Nat) : (s.withTabs v).badNodes = s.badNodes := rfl
@[simp] theorem State.withTabs_cores (s : State) (v : SMap Nat) : (s.withTabs v).cores = s.cores := rfl
@[simp] theorem State.withTabs_adcFifo (s : State) (v : SMap Nat) : (s.withTabs v).adcFifo = s.adcFifo := rfl
@[simp] theorem State.withTabs_evq (s : State) (v : SMap Nat) : (s.withTabs v).evq = s.evq := rfl
@[simp] theorem State.withTabs_twOut (s : State) (v : SMap Nat) : (s.withTabs v).twOut = s.twOut := rfl
@[simp] theorem State.withTabs_slpWait (s : State) (v : SMap Nat) : (s.withTabs v).slpWait = s.slpWait := rfl
@[simp] theorem State.withTabs_slpUnacked (s : State) (v : SMap Nat) : (s.withTabs v).slpUnacked = s.slpUnacked := rfl
@[simp] theorem State.withTabs_slpHeld (s : State) (v : SMap Nat) : (s.withTabs v).slpHeld = s.slpHeld := rfl
@[simp] theorem State.withTabs_ctrlQ (s : State) (v : SMap Nat) : (s.withTabs v).ctrlQ = s.ctrlQ := rfl
@[simp] theorem State.withTabs_dbgQ (s : State) (v : SMap Nat) : (s.withTabs v).dbgQ = s.dbgQ := rfl
@[simp] theorem State.withTabs_notices (s : State) (v : SMap Nat) : (s.withTabs v).notices = s.notices := rfl
@[simp] theorem State.withTabs_slpObjs (s : State) (v : SMap Nat) : (s.withTabs v).slpObjs = s.slpObjs := rfl
@[simp] theorem State.withTabs_rxMsgs (s : State) (v : SMap Nat) : (s.withTabs v).rxMsgs = s.rxMsgs := rfl
@[simp] theorem State.withTabs_txBuf (s : State) (v : SMap Nat) : (s.withTabs v).txBuf = s.txBuf := rfl
@[simp] theorem State.withTabs_ethTx (s : State) (v : SMap Nat) : (s.withTabs v).ethTx = s.ethTx := rfl
@[simp] theorem State.withTabs_occ (s : State) (v : SMap Nat) : (s.withTabs v).occ = s.occ := rfl
@[simp] theorem State.withTabs_raised (s : State) (v : SMap Nat) : (s.withTabs v).raised = s.raised := rfl
@[simp] theorem State.withTabs_held (s : State) (v : SMap Nat) : (s.withTabs v).held = s.held := rfl
@[simp] theorem State.withTabs_time (s : State) (v : SMap Nat) : (s.withTabs v).time = s.time := rfl
@[simp] theorem State.withTabs_free (s : State) (v : SMap Nat) : (s.withTabs v).free = s.free := rfl
@[simp] theorem State.withTabs_pending (s : State) (v : SMap Nat) : (s.withTabs v).pending = s.pending := rfl

@[simp] theorem State.withMem_mem (s : State) (v : List Host.Cell) : (s.withMem v).mem = v := rfl
@[simp] theorem State.withMem_opt (s : State) (v : List Host.Cell) : (s.withMem v).opt = s.opt := rfl
@[simp] theorem State.withMem_regs (s : State) (v : List Host.Cell) : (s.withMem v).regs = s.regs := rfl
@[simp] theorem State.withMem_tabs (s : State) (v : List Host.Cell) : (s.withMem v).tabs = s.tabs := rfl
@[simp] theorem State.withMem_runs (s : State) (v : List Host.Cell) : (s.withMem v).runs = s.runs := rfl
@[simp] theorem State.withMem_inj (s : State) (v : List Host.Cell) : (s.withMem v).inj = s.inj := rfl
@[simp] theorem State.withMem_fifos (s : State) (v : List Host.Cell) : (s.withMem v).fifos = s.fifos := rfl
@[simp] theorem State.withMem_updates (s : State) (v : List Host.Cell) : (s.withMem v).updates = s.updates := rfl
@[simp] theorem State.withMem_results (s : State) (v : List Host.Cell) : (s.withMem v).results = s.results := rfl
@[simp] theorem State.withMem_sessions (s : State) (v : List Host.Cell) : (s.withMem v).sessions = s.sessions := rfl
@[simp] theorem State.withMem_dir (s : State) (v : List Host.Cell) : (s.withMem v).dir = s.dir := rfl
@[simp] theorem State.withMem_dirCopy (s : State) (v : List Host.Cell) : (s.withMem v).dirCopy = s.dirCopy := rfl
@[simp] theorem State.withMem_dramQ (s : State) (v : List Host.Cell) : (s.withMem v).dramQ = s.dramQ := rfl
@[simp] theorem State.withMem_lineQ (s : State) (v : List Host.Cell) : (s.withMem v).lineQ = s.lineQ := rfl
@[simp] theorem State.withMem_bcIn (s : State) (v : List Host.Cell) : (s.withMem v).bcIn = s.bcIn := rfl
@[simp] theorem State.withMem_pzList (s : State) (v : List Host.Cell) : (s.withMem v).pzList = s.pzList := rfl
@[simp] theorem State.withMem_uses (s : State) (v : List Host.Cell) : (s.withMem v).uses = s.uses := rfl
@[simp] theorem State.withMem_badNodes (s : State) (v : List Host.Cell) : (s.withMem v).badNodes = s.badNodes := rfl
@[simp] theorem State.withMem_cores (s : State) (v : List Host.Cell) : (s.withMem v).cores = s.cores := rfl
@[simp] theorem State.withMem_adcFifo (s : State) (v : List Host.Cell) : (s.withMem v).adcFifo = s.adcFifo := rfl
@[simp] theorem State.withMem_evq (s : State) (v : List Host.Cell) : (s.withMem v).evq = s.evq := rfl
@[simp] theorem State.withMem_twOut (s : State) (v : List Host.Cell) : (s.withMem v).twOut = s.twOut := rfl
@[simp] theorem State.withMem_slpWait (s : State) (v : List Host.Cell) : (s.withMem v).slpWait = s.slpWait := rfl
@[simp] theorem State.withMem_slpUnacked (s : State) (v : List Host.Cell) : (s.withMem v).slpUnacked = s.slpUnacked := rfl
@[simp] theorem State.withMem_slpHeld (s : State) (v : List Host.Cell) : (s.withMem v).slpHeld = s.slpHeld := rfl
@[simp] theorem State.withMem_ctrlQ (s : State) (v : List Host.Cell) : (s.withMem v).ctrlQ = s.ctrlQ := rfl
@[simp] theorem State.withMem_dbgQ (s : State) (v : List Host.Cell) : (s.withMem v).dbgQ = s.dbgQ := rfl
@[simp] theorem State.withMem_notices (s : State) (v : List Host.Cell) : (s.withMem v).notices = s.notices := rfl
@[simp] theorem State.withMem_slpObjs (s : State) (v : List Host.Cell) : (s.withMem v).slpObjs = s.slpObjs := rfl
@[simp] theorem State.withMem_rxMsgs (s : State) (v : List Host.Cell) : (s.withMem v).rxMsgs = s.rxMsgs := rfl
@[simp] theorem State.withMem_txBuf (s : State) (v : List Host.Cell) : (s.withMem v).txBuf = s.txBuf := rfl
@[simp] theorem State.withMem_ethTx (s : State) (v : List Host.Cell) : (s.withMem v).ethTx = s.ethTx := rfl
@[simp] theorem State.withMem_occ (s : State) (v : List Host.Cell) : (s.withMem v).occ = s.occ := rfl
@[simp] theorem State.withMem_raised (s : State) (v : List Host.Cell) : (s.withMem v).raised = s.raised := rfl
@[simp] theorem State.withMem_held (s : State) (v : List Host.Cell) : (s.withMem v).held = s.held := rfl
@[simp] theorem State.withMem_time (s : State) (v : List Host.Cell) : (s.withMem v).time = s.time := rfl
@[simp] theorem State.withMem_free (s : State) (v : List Host.Cell) : (s.withMem v).free = s.free := rfl
@[simp] theorem State.withMem_pending (s : State) (v : List Host.Cell) : (s.withMem v).pending = s.pending := rfl

@[simp] theorem State.withRuns_runs (s : State) (v : SMap SeqRun) : (s.withRuns v).runs = v := rfl
@[simp] theorem State.withRuns_opt (s : State) (v : SMap SeqRun) : (s.withRuns v).opt = s.opt := rfl
@[simp] theorem State.withRuns_regs (s : State) (v : SMap SeqRun) : (s.withRuns v).regs = s.regs := rfl
@[simp] theorem State.withRuns_tabs (s : State) (v : SMap SeqRun) : (s.withRuns v).tabs = s.tabs := rfl
@[simp] theorem State.withRuns_mem (s : State) (v : SMap SeqRun) : (s.withRuns v).mem = s.mem := rfl
@[simp] theorem State.withRuns_inj (s : State) (v : SMap SeqRun) : (s.withRuns v).inj = s.inj := rfl
@[simp] theorem State.withRuns_fifos (s : State) (v : SMap SeqRun) : (s.withRuns v).fifos = s.fifos := rfl
@[simp] theorem State.withRuns_updates (s : State) (v : SMap SeqRun) : (s.withRuns v).updates = s.updates := rfl
@[simp] theorem State.withRuns_results (s : State) (v : SMap SeqRun) : (s.withRuns v).results = s.results := rfl
@[simp] theorem State.withRuns_sessions (s : State) (v : SMap SeqRun) : (s.withRuns v).sessions = s.sessions := rfl
@[simp] theorem State.withRuns_dir (s : State) (v : SMap SeqRun) : (s.withRuns v).dir = s.dir := rfl
@[simp] theorem State.withRuns_dirCopy (s : State) (v : SMap SeqRun) : (s.withRuns v).dirCopy = s.dirCopy := rfl
@[simp] theorem State.withRuns_dramQ (s : State) (v : SMap SeqRun) : (s.withRuns v).dramQ = s.dramQ := rfl
@[simp] theorem State.withRuns_lineQ (s : State) (v : SMap SeqRun) : (s.withRuns v).lineQ = s.lineQ := rfl
@[simp] theorem State.withRuns_bcIn (s : State) (v : SMap SeqRun) : (s.withRuns v).bcIn = s.bcIn := rfl
@[simp] theorem State.withRuns_pzList (s : State) (v : SMap SeqRun) : (s.withRuns v).pzList = s.pzList := rfl
@[simp] theorem State.withRuns_uses (s : State) (v : SMap SeqRun) : (s.withRuns v).uses = s.uses := rfl
@[simp] theorem State.withRuns_badNodes (s : State) (v : SMap SeqRun) : (s.withRuns v).badNodes = s.badNodes := rfl
@[simp] theorem State.withRuns_cores (s : State) (v : SMap SeqRun) : (s.withRuns v).cores = s.cores := rfl
@[simp] theorem State.withRuns_adcFifo (s : State) (v : SMap SeqRun) : (s.withRuns v).adcFifo = s.adcFifo := rfl
@[simp] theorem State.withRuns_evq (s : State) (v : SMap SeqRun) : (s.withRuns v).evq = s.evq := rfl
@[simp] theorem State.withRuns_twOut (s : State) (v : SMap SeqRun) : (s.withRuns v).twOut = s.twOut := rfl
@[simp] theorem State.withRuns_slpWait (s : State) (v : SMap SeqRun) : (s.withRuns v).slpWait = s.slpWait := rfl
@[simp] theorem State.withRuns_slpUnacked (s : State) (v : SMap SeqRun) : (s.withRuns v).slpUnacked = s.slpUnacked := rfl
@[simp] theorem State.withRuns_slpHeld (s : State) (v : SMap SeqRun) : (s.withRuns v).slpHeld = s.slpHeld := rfl
@[simp] theorem State.withRuns_ctrlQ (s : State) (v : SMap SeqRun) : (s.withRuns v).ctrlQ = s.ctrlQ := rfl
@[simp] theorem State.withRuns_dbgQ (s : State) (v : SMap SeqRun) : (s.withRuns v).dbgQ = s.dbgQ := rfl
@[simp] theorem State.withRuns_notices (s : State) (v : SMap SeqRun) : (s.withRuns v).notices = s.notices := rfl
@[simp] theorem State.withRuns_slpObjs (s : State) (v : SMap SeqRun) : (s.withRuns v).slpObjs = s.slpObjs := rfl
@[simp] theorem State.withRuns_rxMsgs (s : State) (v : SMap SeqRun) : (s.withRuns v).rxMsgs = s.rxMsgs := rfl
@[simp] theorem State.withRuns_txBuf (s : State) (v : SMap SeqRun) : (s.withRuns v).txBuf = s.txBuf := rfl
@[simp] theorem State.withRuns_ethTx (s : State) (v : SMap SeqRun) : (s.withRuns v).ethTx = s.ethTx := rfl
@[simp] theorem State.withRuns_occ (s : State) (v : SMap SeqRun) : (s.withRuns v).occ = s.occ := rfl
@[simp] theorem State.withRuns_raised (s : State) (v : SMap SeqRun) : (s.withRuns v).raised = s.raised := rfl
@[simp] theorem State.withRuns_held (s : State) (v : SMap SeqRun) : (s.withRuns v).held = s.held := rfl
@[simp] theorem State.withRuns_time (s : State) (v : SMap SeqRun) : (s.withRuns v).time = s.time := rfl
@[simp] theorem State.withRuns_free (s : State) (v : SMap SeqRun) : (s.withRuns v).free = s.free := rfl
@[simp] theorem State.withRuns_pending (s : State) (v : SMap SeqRun) : (s.withRuns v).pending = s.pending := rfl

@[simp] theorem State.withInj_inj (s : State) (v : SMap (List Nat)) : (s.withInj v).inj = v := rfl
@[simp] theorem State.withInj_opt (s : State) (v : SMap (List Nat)) : (s.withInj v).opt = s.opt := rfl
@[simp] theorem State.withInj_regs (s : State) (v : SMap (List Nat)) : (s.withInj v).regs = s.regs := rfl
@[simp] theorem State.withInj_tabs (s : State) (v : SMap (List Nat)) : (s.withInj v).tabs = s.tabs := rfl
@[simp] theorem State.withInj_mem (s : State) (v : SMap (List Nat)) : (s.withInj v).mem = s.mem := rfl
@[simp] theorem State.withInj_runs (s : State) (v : SMap (List Nat)) : (s.withInj v).runs = s.runs := rfl
@[simp] theorem State.withInj_fifos (s : State) (v : SMap (List Nat)) : (s.withInj v).fifos = s.fifos := rfl
@[simp] theorem State.withInj_updates (s : State) (v : SMap (List Nat)) : (s.withInj v).updates = s.updates := rfl
@[simp] theorem State.withInj_results (s : State) (v : SMap (List Nat)) : (s.withInj v).results = s.results := rfl
@[simp] theorem State.withInj_sessions (s : State) (v : SMap (List Nat)) : (s.withInj v).sessions = s.sessions := rfl
@[simp] theorem State.withInj_dir (s : State) (v : SMap (List Nat)) : (s.withInj v).dir = s.dir := rfl
@[simp] theorem State.withInj_dirCopy (s : State) (v : SMap (List Nat)) : (s.withInj v).dirCopy = s.dirCopy := rfl
@[simp] theorem State.withInj_dramQ (s : State) (v : SMap (List Nat)) : (s.withInj v).dramQ = s.dramQ := rfl
@[simp] theorem State.withInj_lineQ (s : State) (v : SMap (List Nat)) : (s.withInj v).lineQ = s.lineQ := rfl
@[simp] theorem State.withInj_bcIn (s : State) (v : SMap (List Nat)) : (s.withInj v).bcIn = s.bcIn := rfl
@[simp] theorem State.withInj_pzList (s : State) (v : SMap (List Nat)) : (s.withInj v).pzList = s.pzList := rfl
@[simp] theorem State.withInj_uses (s : State) (v : SMap (List Nat)) : (s.withInj v).uses = s.uses := rfl
@[simp] theorem State.withInj_badNodes (s : State) (v : SMap (List Nat)) : (s.withInj v).badNodes = s.badNodes := rfl
@[simp] theorem State.withInj_cores (s : State) (v : SMap (List Nat)) : (s.withInj v).cores = s.cores := rfl
@[simp] theorem State.withInj_adcFifo (s : State) (v : SMap (List Nat)) : (s.withInj v).adcFifo = s.adcFifo := rfl
@[simp] theorem State.withInj_evq (s : State) (v : SMap (List Nat)) : (s.withInj v).evq = s.evq := rfl
@[simp] theorem State.withInj_twOut (s : State) (v : SMap (List Nat)) : (s.withInj v).twOut = s.twOut := rfl
@[simp] theorem State.withInj_slpWait (s : State) (v : SMap (List Nat)) : (s.withInj v).slpWait = s.slpWait := rfl
@[simp] theorem State.withInj_slpUnacked (s : State) (v : SMap (List Nat)) : (s.withInj v).slpUnacked = s.slpUnacked := rfl
@[simp] theorem State.withInj_slpHeld (s : State) (v : SMap (List Nat)) : (s.withInj v).slpHeld = s.slpHeld := rfl
@[simp] theorem State.withInj_ctrlQ (s : State) (v : SMap (List Nat)) : (s.withInj v).ctrlQ = s.ctrlQ := rfl
@[simp] theorem State.withInj_dbgQ (s : State) (v : SMap (List Nat)) : (s.withInj v).dbgQ = s.dbgQ := rfl
@[simp] theorem State.withInj_notices (s : State) (v : SMap (List Nat)) : (s.withInj v).notices = s.notices := rfl
@[simp] theorem State.withInj_slpObjs (s : State) (v : SMap (List Nat)) : (s.withInj v).slpObjs = s.slpObjs := rfl
@[simp] theorem State.withInj_rxMsgs (s : State) (v : SMap (List Nat)) : (s.withInj v).rxMsgs = s.rxMsgs := rfl
@[simp] theorem State.withInj_txBuf (s : State) (v : SMap (List Nat)) : (s.withInj v).txBuf = s.txBuf := rfl
@[simp] theorem State.withInj_ethTx (s : State) (v : SMap (List Nat)) : (s.withInj v).ethTx = s.ethTx := rfl
@[simp] theorem State.withInj_occ (s : State) (v : SMap (List Nat)) : (s.withInj v).occ = s.occ := rfl
@[simp] theorem State.withInj_raised (s : State) (v : SMap (List Nat)) : (s.withInj v).raised = s.raised := rfl
@[simp] theorem State.withInj_held (s : State) (v : SMap (List Nat)) : (s.withInj v).held = s.held := rfl
@[simp] theorem State.withInj_time (s : State) (v : SMap (List Nat)) : (s.withInj v).time = s.time := rfl
@[simp] theorem State.withInj_free (s : State) (v : SMap (List Nat)) : (s.withInj v).free = s.free := rfl
@[simp] theorem State.withInj_pending (s : State) (v : SMap (List Nat)) : (s.withInj v).pending = s.pending := rfl

@[simp] theorem State.withFifos_fifos (s : State) (v : SMap (List FailRec)) : (s.withFifos v).fifos = v := rfl
@[simp] theorem State.withFifos_opt (s : State) (v : SMap (List FailRec)) : (s.withFifos v).opt = s.opt := rfl
@[simp] theorem State.withFifos_regs (s : State) (v : SMap (List FailRec)) : (s.withFifos v).regs = s.regs := rfl
@[simp] theorem State.withFifos_tabs (s : State) (v : SMap (List FailRec)) : (s.withFifos v).tabs = s.tabs := rfl
@[simp] theorem State.withFifos_mem (s : State) (v : SMap (List FailRec)) : (s.withFifos v).mem = s.mem := rfl
@[simp] theorem State.withFifos_runs (s : State) (v : SMap (List FailRec)) : (s.withFifos v).runs = s.runs := rfl
@[simp] theorem State.withFifos_inj (s : State) (v : SMap (List FailRec)) : (s.withFifos v).inj = s.inj := rfl
@[simp] theorem State.withFifos_updates (s : State) (v : SMap (List FailRec)) : (s.withFifos v).updates = s.updates := rfl
@[simp] theorem State.withFifos_results (s : State) (v : SMap (List FailRec)) : (s.withFifos v).results = s.results := rfl
@[simp] theorem State.withFifos_sessions (s : State) (v : SMap (List FailRec)) : (s.withFifos v).sessions = s.sessions := rfl
@[simp] theorem State.withFifos_dir (s : State) (v : SMap (List FailRec)) : (s.withFifos v).dir = s.dir := rfl
@[simp] theorem State.withFifos_dirCopy (s : State) (v : SMap (List FailRec)) : (s.withFifos v).dirCopy = s.dirCopy := rfl
@[simp] theorem State.withFifos_dramQ (s : State) (v : SMap (List FailRec)) : (s.withFifos v).dramQ = s.dramQ := rfl
@[simp] theorem State.withFifos_lineQ (s : State) (v : SMap (List FailRec)) : (s.withFifos v).lineQ = s.lineQ := rfl
@[simp] theorem State.withFifos_bcIn (s : State) (v : SMap (List FailRec)) : (s.withFifos v).bcIn = s.bcIn := rfl
@[simp] theorem State.withFifos_pzList (s : State) (v : SMap (List FailRec)) : (s.withFifos v).pzList = s.pzList := rfl
@[simp] theorem State.withFifos_uses (s : State) (v : SMap (List FailRec)) : (s.withFifos v).uses = s.uses := rfl
@[simp] theorem State.withFifos_badNodes (s : State) (v : SMap (List FailRec)) : (s.withFifos v).badNodes = s.badNodes := rfl
@[simp] theorem State.withFifos_cores (s : State) (v : SMap (List FailRec)) : (s.withFifos v).cores = s.cores := rfl
@[simp] theorem State.withFifos_adcFifo (s : State) (v : SMap (List FailRec)) : (s.withFifos v).adcFifo = s.adcFifo := rfl
@[simp] theorem State.withFifos_evq (s : State) (v : SMap (List FailRec)) : (s.withFifos v).evq = s.evq := rfl
@[simp] theorem State.withFifos_twOut (s : State) (v : SMap (List FailRec)) : (s.withFifos v).twOut = s.twOut := rfl
@[simp] theorem State.withFifos_slpWait (s : State) (v : SMap (List FailRec)) : (s.withFifos v).slpWait = s.slpWait := rfl
@[simp] theorem State.withFifos_slpUnacked (s : State) (v : SMap (List FailRec)) : (s.withFifos v).slpUnacked = s.slpUnacked := rfl
@[simp] theorem State.withFifos_slpHeld (s : State) (v : SMap (List FailRec)) : (s.withFifos v).slpHeld = s.slpHeld := rfl
@[simp] theorem State.withFifos_ctrlQ (s : State) (v : SMap (List FailRec)) : (s.withFifos v).ctrlQ = s.ctrlQ := rfl
@[simp] theorem State.withFifos_dbgQ (s : State) (v : SMap (List FailRec)) : (s.withFifos v).dbgQ = s.dbgQ := rfl
@[simp] theorem State.withFifos_notices (s : State) (v : SMap (List FailRec)) : (s.withFifos v).notices = s.notices := rfl
@[simp] theorem State.withFifos_slpObjs (s : State) (v : SMap (List FailRec)) : (s.withFifos v).slpObjs = s.slpObjs := rfl
@[simp] theorem State.withFifos_rxMsgs (s : State) (v : SMap (List FailRec)) : (s.withFifos v).rxMsgs = s.rxMsgs := rfl
@[simp] theorem State.withFifos_txBuf (s : State) (v : SMap (List FailRec)) : (s.withFifos v).txBuf = s.txBuf := rfl
@[simp] theorem State.withFifos_ethTx (s : State) (v : SMap (List FailRec)) : (s.withFifos v).ethTx = s.ethTx := rfl
@[simp] theorem State.withFifos_occ (s : State) (v : SMap (List FailRec)) : (s.withFifos v).occ = s.occ := rfl
@[simp] theorem State.withFifos_raised (s : State) (v : SMap (List FailRec)) : (s.withFifos v).raised = s.raised := rfl
@[simp] theorem State.withFifos_held (s : State) (v : SMap (List FailRec)) : (s.withFifos v).held = s.held := rfl
@[simp] theorem State.withFifos_time (s : State) (v : SMap (List FailRec)) : (s.withFifos v).time = s.time := rfl
@[simp] theorem State.withFifos_free (s : State) (v : SMap (List FailRec)) : (s.withFifos v).free = s.free := rfl
@[simp] theorem State.withFifos_pending (s : State) (v : SMap (List FailRec)) : (s.withFifos v).pending = s.pending := rfl

@[simp] theorem State.withUpdates_updates (s : State) (v : SMap (List BitmapUpdate)) : (s.withUpdates v).updates = v := rfl
@[simp] theorem State.withUpdates_opt (s : State) (v : SMap (List BitmapUpdate)) : (s.withUpdates v).opt = s.opt := rfl
@[simp] theorem State.withUpdates_regs (s : State) (v : SMap (List BitmapUpdate)) : (s.withUpdates v).regs = s.regs := rfl
@[simp] theorem State.withUpdates_tabs (s : State) (v : SMap (List BitmapUpdate)) : (s.withUpdates v).tabs = s.tabs := rfl
@[simp] theorem State.withUpdates_mem (s : State) (v : SMap (List BitmapUpdate)) : (s.withUpdates v).mem = s.mem := rfl
@[simp] theorem State.withUpdates_runs (s : State) (v : SMap (List BitmapUpdate)) : (s.withUpdates v).runs = s.runs := rfl
@[simp] theorem State.withUpdates_inj (s : State) (v : SMap (List BitmapUpdate)) : (s.withUpdates v).inj = s.inj := rfl
@[simp] theorem State.withUpdates_fifos (s : State) (v : SMap (List BitmapUpdate)) : (s.withUpdates v).fifos = s.fifos := rfl
@[simp] theorem State.withUpdates_results (s : State) (v : SMap (List BitmapUpdate)) : (s.withUpdates v).results = s.results := rfl
@[simp] theorem State.withUpdates_sessions (s : State) (v : SMap (List BitmapUpdate)) : (s.withUpdates v).sessions = s.sessions := rfl
@[simp] theorem State.withUpdates_dir (s : State) (v : SMap (List BitmapUpdate)) : (s.withUpdates v).dir = s.dir := rfl
@[simp] theorem State.withUpdates_dirCopy (s : State) (v : SMap (List BitmapUpdate)) : (s.withUpdates v).dirCopy = s.dirCopy := rfl
@[simp] theorem State.withUpdates_dramQ (s : State) (v : SMap (List BitmapUpdate)) : (s.withUpdates v).dramQ = s.dramQ := rfl
@[simp] theorem State.withUpdates_lineQ (s : State) (v : SMap (List BitmapUpdate)) : (s.withUpdates v).lineQ = s.lineQ := rfl
@[simp] theorem State.withUpdates_bcIn (s : State) (v : SMap (List BitmapUpdate)) : (s.withUpdates v).bcIn = s.bcIn := rfl
@[simp] theorem State.withUpdates_pzList (s : State) (v : SMap (List BitmapUpdate)) : (s.withUpdates v).pzList = s.pzList := rfl
@[simp] theorem State.withUpdates_uses (s : State) (v : SMap (List BitmapUpdate)) : (s.withUpdates v).uses = s.uses := rfl
@[simp] theorem State.withUpdates_badNodes (s : State) (v : SMap (List BitmapUpdate)) : (s.withUpdates v).badNodes = s.badNodes := rfl
@[simp] theorem State.withUpdates_cores (s : State) (v : SMap (List BitmapUpdate)) : (s.withUpdates v).cores = s.cores := rfl
@[simp] theorem State.withUpdates_adcFifo (s : State) (v : SMap (List BitmapUpdate)) : (s.withUpdates v).adcFifo = s.adcFifo := rfl
@[simp] theorem State.withUpdates_evq (s : State) (v : SMap (List BitmapUpdate)) : (s.withUpdates v).evq = s.evq := rfl
@[simp] theorem State.withUpdates_twOut (s : State) (v : SMap (List BitmapUpdate)) : (s.withUpdates v).twOut = s.twOut := rfl
@[simp] theorem State.withUpdates_slpWait (s : State) (v : SMap (List BitmapUpdate)) : (s.withUpdates v).slpWait = s.slpWait := rfl
@[simp] theorem State.withUpdates_slpUnacked (s : State) (v : SMap (List BitmapUpdate)) : (s.withUpdates v).slpUnacked = s.slpUnacked := rfl
@[simp] theorem State.withUpdates_slpHeld (s : State) (v : SMap (List BitmapUpdate)) : (s.withUpdates v).slpHeld = s.slpHeld := rfl
@[simp] theorem State.withUpdates_ctrlQ (s : State) (v : SMap (List BitmapUpdate)) : (s.withUpdates v).ctrlQ = s.ctrlQ := rfl
@[simp] theorem State.withUpdates_dbgQ (s : State) (v : SMap (List BitmapUpdate)) : (s.withUpdates v).dbgQ = s.dbgQ := rfl
@[simp] theorem State.withUpdates_notices (s : State) (v : SMap (List BitmapUpdate)) : (s.withUpdates v).notices = s.notices := rfl
@[simp] theorem State.withUpdates_slpObjs (s : State) (v : SMap (List BitmapUpdate)) : (s.withUpdates v).slpObjs = s.slpObjs := rfl
@[simp] theorem State.withUpdates_rxMsgs (s : State) (v : SMap (List BitmapUpdate)) : (s.withUpdates v).rxMsgs = s.rxMsgs := rfl
@[simp] theorem State.withUpdates_txBuf (s : State) (v : SMap (List BitmapUpdate)) : (s.withUpdates v).txBuf = s.txBuf := rfl
@[simp] theorem State.withUpdates_ethTx (s : State) (v : SMap (List BitmapUpdate)) : (s.withUpdates v).ethTx = s.ethTx := rfl
@[simp] theorem State.withUpdates_occ (s : State) (v : SMap (List BitmapUpdate)) : (s.withUpdates v).occ = s.occ := rfl
@[simp] theorem State.withUpdates_raised (s : State) (v : SMap (List BitmapUpdate)) : (s.withUpdates v).raised = s.raised := rfl
@[simp] theorem State.withUpdates_held (s : State) (v : SMap (List BitmapUpdate)) : (s.withUpdates v).held = s.held := rfl
@[simp] theorem State.withUpdates_time (s : State) (v : SMap (List BitmapUpdate)) : (s.withUpdates v).time = s.time := rfl
@[simp] theorem State.withUpdates_free (s : State) (v : SMap (List BitmapUpdate)) : (s.withUpdates v).free = s.free := rfl
@[simp] theorem State.withUpdates_pending (s : State) (v : SMap (List BitmapUpdate)) : (s.withUpdates v).pending = s.pending := rfl

@[simp] theorem State.withResults_results (s : State) (v : SMap (List ResultEntry)) : (s.withResults v).results = v := rfl
@[simp] theorem State.withResults_opt (s : State) (v : SMap (List ResultEntry)) : (s.withResults v).opt = s.opt := rfl
@[simp] theorem State.withResults_regs (s : State) (v : SMap (List ResultEntry)) : (s.withResults v).regs = s.regs := rfl
@[simp] theorem State.withResults_tabs (s : State) (v : SMap (List ResultEntry)) : (s.withResults v).tabs = s.tabs := rfl
@[simp] theorem State.withResults_mem (s : State) (v : SMap (List ResultEntry)) : (s.withResults v).mem = s.mem := rfl
@[simp] theorem State.withResults_runs (s : State) (v : SMap (List ResultEntry)) : (s.withResults v).runs = s.runs := rfl
@[simp] theorem State.withResults_inj (s : State) (v : SMap (List ResultEntry)) : (s.withResults v).inj = s.inj := rfl
@[simp] theorem State.withResults_fifos (s : State) (v : SMap (List ResultEntry)) : (s.withResults v).fifos = s.fifos := rfl
@[simp] theorem State.withResults_updates (s : State) (v : SMap (List ResultEntry)) : (s.withResults v).updates = s.updates := rfl
@[simp] theorem State.withResults_sessions (s : State) (v : SMap (List ResultEntry)) : (s.withResults v).sessions = s.sessions := rfl
@[simp] theorem State.withResults_dir (s : State) (v : SMap (List ResultEntry)) : (s.withResults v).dir = s.dir := rfl
@[simp] theorem State.withResults_dirCopy (s : State) (v : SMap (List ResultEntry)) : (s.withResults v).dirCopy = s.dirCopy := rfl
@[simp] theorem State.withResults_dramQ (s : State) (v : SMap (List ResultEntry)) : (s.withResults v).dramQ = s.dramQ := rfl
@[simp] theorem State.withResults_lineQ (s : State) (v : SMap (List ResultEntry)) : (s.withResults v).lineQ = s.lineQ := rfl
@[simp] theorem State.withResults_bcIn (s : State) (v : SMap (List ResultEntry)) : (s.withResults v).bcIn = s.bcIn := rfl
@[simp] theorem State.withResults_pzList (s : State) (v : SMap (List ResultEntry)) : (s.withResults v).pzList = s.pzList := rfl
@[simp] theorem State.withResults_uses (s : State) (v : SMap (List ResultEntry)) : (s.withResults v).uses = s.uses := rfl
@[simp] theorem State.withResults_badNodes (s : State) (v : SMap (List ResultEntry)) : (s.withResults v).badNodes = s.badNodes := rfl
@[simp] theorem State.withResults_cores (s : State) (v : SMap (List ResultEntry)) : (s.withResults v).cores = s.cores := rfl
@[simp] theorem State.withResults_adcFifo (s : State) (v : SMap (List ResultEntry)) : (s.withResults v).adcFifo = s.adcFifo := rfl
@[simp] theorem State.withResults_evq (s : State) (v : SMap (List ResultEntry)) : (s.withResults v).evq = s.evq := rfl
@[simp] theorem State.withResults_twOut (s : State) (v : SMap (List ResultEntry)) : (s.withResults v).twOut = s.twOut := rfl
@[simp] theorem State.withResults_slpWait (s : State) (v : SMap (List ResultEntry)) : (s.withResults v).slpWait = s.slpWait := rfl
@[simp] theorem State.withResults_slpUnacked (s : State) (v : SMap (List ResultEntry)) : (s.withResults v).slpUnacked = s.slpUnacked := rfl
@[simp] theorem State.withResults_slpHeld (s : State) (v : SMap (List ResultEntry)) : (s.withResults v).slpHeld = s.slpHeld := rfl
@[simp] theorem State.withResults_ctrlQ (s : State) (v : SMap (List ResultEntry)) : (s.withResults v).ctrlQ = s.ctrlQ := rfl
@[simp] theorem State.withResults_dbgQ (s : State) (v : SMap (List ResultEntry)) : (s.withResults v).dbgQ = s.dbgQ := rfl
@[simp] theorem State.withResults_notices (s : State) (v : SMap (List ResultEntry)) : (s.withResults v).notices = s.notices := rfl
@[simp] theorem State.withResults_slpObjs (s : State) (v : SMap (List ResultEntry)) : (s.withResults v).slpObjs = s.slpObjs := rfl
@[simp] theorem State.withResults_rxMsgs (s : State) (v : SMap (List ResultEntry)) : (s.withResults v).rxMsgs = s.rxMsgs := rfl
@[simp] theorem State.withResults_txBuf (s : State) (v : SMap (List ResultEntry)) : (s.withResults v).txBuf = s.txBuf := rfl
@[simp] theorem State.withResults_ethTx (s : State) (v : SMap (List ResultEntry)) : (s.withResults v).ethTx = s.ethTx := rfl
@[simp] theorem State.withResults_occ (s : State) (v : SMap (List ResultEntry)) : (s.withResults v).occ = s.occ := rfl
@[simp] theorem State.withResults_raised (s : State) (v : SMap (List ResultEntry)) : (s.withResults v).raised = s.raised := rfl
@[simp] theorem State.withResults_held (s : State) (v : SMap (List ResultEntry)) : (s.withResults v).held = s.held := rfl
@[simp] theorem State.withResults_time (s : State) (v : SMap (List ResultEntry)) : (s.withResults v).time = s.time := rfl
@[simp] theorem State.withResults_free (s : State) (v : SMap (List ResultEntry)) : (s.withResults v).free = s.free := rfl
@[simp] theorem State.withResults_pending (s : State) (v : SMap (List ResultEntry)) : (s.withResults v).pending = s.pending := rfl

@[simp] theorem State.withSessions_sessions (s : State) (v : SMap RaSession) : (s.withSessions v).sessions = v := rfl
@[simp] theorem State.withSessions_opt (s : State) (v : SMap RaSession) : (s.withSessions v).opt = s.opt := rfl
@[simp] theorem State.withSessions_regs (s : State) (v : SMap RaSession) : (s.withSessions v).regs = s.regs := rfl
@[simp] theorem State.withSessions_tabs (s : State) (v : SMap RaSession) : (s.withSessions v).tabs = s.tabs := rfl
@[simp] theorem State.withSessions_mem (s : State) (v : SMap RaSession) : (s.withSessions v).mem = s.mem := rfl
@[simp] theorem State.withSessions_runs (s : State) (v : SMap RaSession) : (s.withSessions v).runs = s.runs := rfl
@[simp] theorem State.withSessions_inj (s : State) (v : SMap RaSession) : (s.withSessions v).inj = s.inj := rfl
@[simp] theorem State.withSessions_fifos (s : State) (v : SMap RaSession) : (s.withSessions v).fifos = s.fifos := rfl
@[simp] theorem State.withSessions_updates (s : State) (v : SMap RaSession) : (s.withSessions v).updates = s.updates := rfl
@[simp] theorem State.withSessions_results (s : State) (v : SMap RaSession) : (s.withSessions v).results = s.results := rfl
@[simp] theorem State.withSessions_dir (s : State) (v : SMap RaSession) : (s.withSessions v).dir = s.dir := rfl
@[simp] theorem State.withSessions_dirCopy (s : State) (v : SMap RaSession) : (s.withSessions v).dirCopy = s.dirCopy := rfl
@[simp] theorem State.withSessions_dramQ (s : State) (v : SMap RaSession) : (s.withSessions v).dramQ = s.dramQ := rfl
@[simp] theorem State.withSessions_lineQ (s : State) (v : SMap RaSession) : (s.withSessions v).lineQ = s.lineQ := rfl
@[simp] theorem State.withSessions_bcIn (s : State) (v : SMap RaSession) : (s.withSessions v).bcIn = s.bcIn := rfl
@[simp] theorem State.withSessions_pzList (s : State) (v : SMap RaSession) : (s.withSessions v).pzList = s.pzList := rfl
@[simp] theorem State.withSessions_uses (s : State) (v : SMap RaSession) : (s.withSessions v).uses = s.uses := rfl
@[simp] theorem State.withSessions_badNodes (s : State) (v : SMap RaSession) : (s.withSessions v).badNodes = s.badNodes := rfl
@[simp] theorem State.withSessions_cores (s : State) (v : SMap RaSession) : (s.withSessions v).cores = s.cores := rfl
@[simp] theorem State.withSessions_adcFifo (s : State) (v : SMap RaSession) : (s.withSessions v).adcFifo = s.adcFifo := rfl
@[simp] theorem State.withSessions_evq (s : State) (v : SMap RaSession) : (s.withSessions v).evq = s.evq := rfl
@[simp] theorem State.withSessions_twOut (s : State) (v : SMap RaSession) : (s.withSessions v).twOut = s.twOut := rfl
@[simp] theorem State.withSessions_slpWait (s : State) (v : SMap RaSession) : (s.withSessions v).slpWait = s.slpWait := rfl
@[simp] theorem State.withSessions_slpUnacked (s : State) (v : SMap RaSession) : (s.withSessions v).slpUnacked = s.slpUnacked := rfl
@[simp] theorem State.withSessions_slpHeld (s : State) (v : SMap RaSession) : (s.withSessions v).slpHeld = s.slpHeld := rfl
@[simp] theorem State.withSessions_ctrlQ (s : State) (v : SMap RaSession) : (s.withSessions v).ctrlQ = s.ctrlQ := rfl
@[simp] theorem State.withSessions_dbgQ (s : State) (v : SMap RaSession) : (s.withSessions v).dbgQ = s.dbgQ := rfl
@[simp] theorem State.withSessions_notices (s : State) (v : SMap RaSession) : (s.withSessions v).notices = s.notices := rfl
@[simp] theorem State.withSessions_slpObjs (s : State) (v : SMap RaSession) : (s.withSessions v).slpObjs = s.slpObjs := rfl
@[simp] theorem State.withSessions_rxMsgs (s : State) (v : SMap RaSession) : (s.withSessions v).rxMsgs = s.rxMsgs := rfl
@[simp] theorem State.withSessions_txBuf (s : State) (v : SMap RaSession) : (s.withSessions v).txBuf = s.txBuf := rfl
@[simp] theorem State.withSessions_ethTx (s : State) (v : SMap RaSession) : (s.withSessions v).ethTx = s.ethTx := rfl
@[simp] theorem State.withSessions_occ (s : State) (v : SMap RaSession) : (s.withSessions v).occ = s.occ := rfl
@[simp] theorem State.withSessions_raised (s : State) (v : SMap RaSession) : (s.withSessions v).raised = s.raised := rfl
@[simp] theorem State.withSessions_held (s : State) (v : SMap RaSession) : (s.withSessions v).held = s.held := rfl
@[simp] theorem State.withSessions_time (s : State) (v : SMap RaSession) : (s.withSessions v).time = s.time := rfl
@[simp] theorem State.withSessions_free (s : State) (v : SMap RaSession) : (s.withSessions v).free = s.free := rfl
@[simp] theorem State.withSessions_pending (s : State) (v : SMap RaSession) : (s.withSessions v).pending = s.pending := rfl

@[simp] theorem State.withDir_dir (s : State) (v : SMap Alloc) : (s.withDir v).dir = v := rfl
@[simp] theorem State.withDir_dirCopy (s : State) (v : SMap Alloc) : (s.withDir v).dirCopy = v := rfl
@[simp] theorem State.withDir_opt (s : State) (v : SMap Alloc) : (s.withDir v).opt = s.opt := rfl
@[simp] theorem State.withDir_regs (s : State) (v : SMap Alloc) : (s.withDir v).regs = s.regs := rfl
@[simp] theorem State.withDir_tabs (s : State) (v : SMap Alloc) : (s.withDir v).tabs = s.tabs := rfl
@[simp] theorem State.withDir_mem (s : State) (v : SMap Alloc) : (s.withDir v).mem = s.mem := rfl
@[simp] theorem State.withDir_runs (s : State) (v : SMap Alloc) : (s.withDir v).runs = s.runs := rfl
@[simp] theorem State.withDir_inj (s : State) (v : SMap Alloc) : (s.withDir v).inj = s.inj := rfl
@[simp] theorem State.withDir_fifos (s : State) (v : SMap Alloc) : (s.withDir v).fifos = s.fifos := rfl
@[simp] theorem State.withDir_updates (s : State) (v : SMap Alloc) : (s.withDir v).updates = s.updates := rfl
@[simp] theorem State.withDir_results (s : State) (v : SMap Alloc) : (s.withDir v).results = s.results := rfl
@[simp] theorem State.withDir_sessions (s : State) (v : SMap Alloc) : (s.withDir v).sessions = s.sessions := rfl
@[simp] theorem State.withDir_dramQ (s : State) (v : SMap Alloc) : (s.withDir v).dramQ = s.dramQ := rfl
@[simp] theorem State.withDir_lineQ (s : State) (v : SMap Alloc) : (s.withDir v).lineQ = s.lineQ := rfl
@[simp] theorem State.withDir_bcIn (s : State) (v : SMap Alloc) : (s.withDir v).bcIn = s.bcIn := rfl
@[simp] theorem State.withDir_pzList (s : State) (v : SMap Alloc) : (s.withDir v).pzList = s.pzList := rfl
@[simp] theorem State.withDir_uses (s : State) (v : SMap Alloc) : (s.withDir v).uses = s.uses := rfl
@[simp] theorem State.withDir_badNodes (s : State) (v : SMap Alloc) : (s.withDir v).badNodes = s.badNodes := rfl
@[simp] theorem State.withDir_cores (s : State) (v : SMap Alloc) : (s.withDir v).cores = s.cores := rfl
@[simp] theorem State.withDir_adcFifo (s : State) (v : SMap Alloc) : (s.withDir v).adcFifo = s.adcFifo := rfl
@[simp] theorem State.withDir_evq (s : State) (v : SMap Alloc) : (s.withDir v).evq = s.evq := rfl
@[simp] theorem State.withDir_twOut (s : State) (v : SMap Alloc) : (s.withDir v).twOut = s.twOut := rfl
@[simp] theorem State.withDir_slpWait (s : State) (v : SMap Alloc) : (s.withDir v).slpWait = s.slpWait := rfl
@[simp] theorem State.withDir_slpUnacked (s : State) (v : SMap Alloc) : (s.withDir v).slpUnacked = s.slpUnacked := rfl
@[simp] theorem State.withDir_slpHeld (s : State) (v : SMap Alloc) : (s.withDir v).slpHeld = s.slpHeld := rfl
@[simp] theorem State.withDir_ctrlQ (s : State) (v : SMap Alloc) : (s.withDir v).ctrlQ = s.ctrlQ := rfl
@[simp] theorem State.withDir_dbgQ (s : State) (v : SMap Alloc) : (s.withDir v).dbgQ = s.dbgQ := rfl
@[simp] theorem State.withDir_notices (s : State) (v : SMap Alloc) : (s.withDir v).notices = s.notices := rfl
@[simp] theorem State.withDir_slpObjs (s : State) (v : SMap Alloc) : (s.withDir v).slpObjs = s.slpObjs := rfl
@[simp] theorem State.withDir_rxMsgs (s : State) (v : SMap Alloc) : (s.withDir v).rxMsgs = s.rxMsgs := rfl
@[simp] theorem State.withDir_txBuf (s : State) (v : SMap Alloc) : (s.withDir v).txBuf = s.txBuf := rfl
@[simp] theorem State.withDir_ethTx (s : State) (v : SMap Alloc) : (s.withDir v).ethTx = s.ethTx := rfl
@[simp] theorem State.withDir_occ (s : State) (v : SMap Alloc) : (s.withDir v).occ = s.occ := rfl
@[simp] theorem State.withDir_raised (s : State) (v : SMap Alloc) : (s.withDir v).raised = s.raised := rfl
@[simp] theorem State.withDir_held (s : State) (v : SMap Alloc) : (s.withDir v).held = s.held := rfl
@[simp] theorem State.withDir_time (s : State) (v : SMap Alloc) : (s.withDir v).time = s.time := rfl
@[simp] theorem State.withDir_free (s : State) (v : SMap Alloc) : (s.withDir v).free = s.free := rfl
@[simp] theorem State.withDir_pending (s : State) (v : SMap Alloc) : (s.withDir v).pending = s.pending := rfl

@[simp] theorem State.withDramQ_dramQ (s : State) (v : SMap (List DramReq)) : (s.withDramQ v).dramQ = v := rfl
@[simp] theorem State.withDramQ_opt (s : State) (v : SMap (List DramReq)) : (s.withDramQ v).opt = s.opt := rfl
@[simp] theorem State.withDramQ_regs (s : State) (v : SMap (List DramReq)) : (s.withDramQ v).regs = s.regs := rfl
@[simp] theorem State.withDramQ_tabs (s : State) (v : SMap (List DramReq)) : (s.withDramQ v).tabs = s.tabs := rfl
@[simp] theorem State.withDramQ_mem (s : State) (v : SMap (List DramReq)) : (s.withDramQ v).mem = s.mem := rfl
@[simp] theorem State.withDramQ_runs (s : State) (v : SMap (List DramReq)) : (s.withDramQ v).runs = s.runs := rfl
@[simp] theorem State.withDramQ_inj (s : State) (v : SMap (List DramReq)) : (s.withDramQ v).inj = s.inj := rfl
@[simp] theorem State.withDramQ_fifos (s : State) (v : SMap (List DramReq)) : (s.withDramQ v).fifos = s.fifos := rfl
@[simp] theorem State.withDramQ_updates (s : State) (v : SMap (List DramReq)) : (s.withDramQ v).updates = s.updates := rfl
@[simp] theorem State.withDramQ_results (s : State) (v : SMap (List DramReq)) : (s.withDramQ v).results = s.results := rfl
@[simp] theorem State.withDramQ_sessions (s : State) (v : SMap (List DramReq)) : (s.withDramQ v).sessions = s.sessions := rfl
@[simp] theorem State.withDramQ_dir (s : State) (v : SMap (List DramReq)) : (s.withDramQ v).dir = s.dir := rfl
@[simp] theorem State.withDramQ_dirCopy (s : State) (v : SMap (List DramReq)) : (s.withDramQ v).dirCopy = s.dirCopy := rfl
@[simp] theorem State.withDramQ_lineQ (s : State) (v : SMap (List DramReq)) : (s.withDramQ v).lineQ = s.lineQ := rfl
@[simp] theorem State.withDramQ_bcIn (s : State) (v : SMap (List DramReq)) : (s.withDramQ v).bcIn = s.bcIn := rfl
@[simp] theorem State.withDramQ_pzList (s : State) (v : SMap (List DramReq)) : (s.withDramQ v).pzList = s.pzList := rfl
@[simp] theorem State.withDramQ_uses (s : State) (v : SMap (List DramReq)) : (s.withDramQ v).uses = s.uses := rfl
@[simp] theorem State.withDramQ_badNodes (s : State) (v : SMap (List DramReq)) : (s.withDramQ v).badNodes = s.badNodes := rfl
@[simp] theorem State.withDramQ_cores (s : State) (v : SMap (List DramReq)) : (s.withDramQ v).cores = s.cores := rfl
@[simp] theorem State.withDramQ_adcFifo (s : State) (v : SMap (List DramReq)) : (s.withDramQ v).adcFifo = s.adcFifo := rfl
@[simp] theorem State.withDramQ_evq (s : State) (v : SMap (List DramReq)) : (s.withDramQ v).evq = s.evq := rfl
@[simp] theorem State.withDramQ_twOut (s : State) (v : SMap (List DramReq)) : (s.withDramQ v).twOut = s.twOut := rfl
@[simp] theorem State.withDramQ_slpWait (s : State) (v : SMap (List DramReq)) : (s.withDramQ v).slpWait = s.slpWait := rfl
@[simp] theorem State.withDramQ_slpUnacked (s : State) (v : SMap (List DramReq)) : (s.withDramQ v).slpUnacked = s.slpUnacked := rfl
@[simp] theorem State.withDramQ_slpHeld (s : State) (v : SMap (List DramReq)) : (s.withDramQ v).slpHeld = s.slpHeld := rfl
@[simp] theorem State.withDramQ_ctrlQ (s : State) (v : SMap (List DramReq)) : (s.withDramQ v).ctrlQ = s.ctrlQ := rfl
@[simp] theorem State.withDramQ_dbgQ (s : State) (v : SMap (List DramReq)) : (s.withDramQ v).dbgQ = s.dbgQ := rfl
@[simp] theorem State.withDramQ_notices (s : State) (v : SMap (List DramReq)) : (s.withDramQ v).notices = s.notices := rfl
@[simp] theorem State.withDramQ_slpObjs (s : State) (v : SMap (List DramReq)) : (s.withDramQ v).slpObjs = s.slpObjs := rfl
@[simp] theorem State.withDramQ_rxMsgs (s : State) (v : SMap (List DramReq)) : (s.withDramQ v).rxMsgs = s.rxMsgs := rfl
@[simp] theorem State.withDramQ_txBuf (s : State) (v : SMap (List DramReq)) : (s.withDramQ v).txBuf = s.txBuf := rfl
@[simp] theorem State.withDramQ_ethTx (s : State) (v : SMap (List DramReq)) : (s.withDramQ v).ethTx = s.ethTx := rfl
@[simp] theorem State.withDramQ_occ (s : State) (v : SMap (List DramReq)) : (s.withDramQ v).occ = s.occ := rfl
@[simp] theorem State.withDramQ_raised (s : State) (v : SMap (List DramReq)) : (s.withDramQ v).raised = s.raised := rfl
@[simp] theorem State.withDramQ_held (s : State) (v : SMap (List DramReq)) : (s.withDramQ v).held = s.held := rfl
@[simp] theorem State.withDramQ_time (s : State) (v : SMap (List DramReq)) : (s.withDramQ v).time = s.time := rfl
@[simp] theorem State.withDramQ_free (s : State) (v : SMap (List DramReq)) : (s.withDramQ v).free = s.free := rfl
@[simp] theorem State.withDramQ_pending (s : State) (v : SMap (List DramReq)) : (s.withDramQ v).pending = s.pending := rfl

@[simp] theorem State.withLineQ_lineQ (s : State) (v : List HeldWrite) : (s.withLineQ v).lineQ = v := rfl
@[simp] theorem State.withLineQ_opt (s : State) (v : List HeldWrite) : (s.withLineQ v).opt = s.opt := rfl
@[simp] theorem State.withLineQ_regs (s : State) (v : List HeldWrite) : (s.withLineQ v).regs = s.regs := rfl
@[simp] theorem State.withLineQ_tabs (s : State) (v : List HeldWrite) : (s.withLineQ v).tabs = s.tabs := rfl
@[simp] theorem State.withLineQ_mem (s : State) (v : List HeldWrite) : (s.withLineQ v).mem = s.mem := rfl
@[simp] theorem State.withLineQ_runs (s : State) (v : List HeldWrite) : (s.withLineQ v).runs = s.runs := rfl
@[simp] theorem State.withLineQ_inj (s : State) (v : List HeldWrite) : (s.withLineQ v).inj = s.inj := rfl
@[simp] theorem State.withLineQ_fifos (s : State) (v : List HeldWrite) : (s.withLineQ v).fifos = s.fifos := rfl
@[simp] theorem State.withLineQ_updates (s : State) (v : List HeldWrite) : (s.withLineQ v).updates = s.updates := rfl
@[simp] theorem State.withLineQ_results (s : State) (v : List HeldWrite) : (s.withLineQ v).results = s.results := rfl
@[simp] theorem State.withLineQ_sessions (s : State) (v : List HeldWrite) : (s.withLineQ v).sessions = s.sessions := rfl
@[simp] theorem State.withLineQ_dir (s : State) (v : List HeldWrite) : (s.withLineQ v).dir = s.dir := rfl
@[simp] theorem State.withLineQ_dirCopy (s : State) (v : List HeldWrite) : (s.withLineQ v).dirCopy = s.dirCopy := rfl
@[simp] theorem State.withLineQ_dramQ (s : State) (v : List HeldWrite) : (s.withLineQ v).dramQ = s.dramQ := rfl
@[simp] theorem State.withLineQ_bcIn (s : State) (v : List HeldWrite) : (s.withLineQ v).bcIn = s.bcIn := rfl
@[simp] theorem State.withLineQ_pzList (s : State) (v : List HeldWrite) : (s.withLineQ v).pzList = s.pzList := rfl
@[simp] theorem State.withLineQ_uses (s : State) (v : List HeldWrite) : (s.withLineQ v).uses = s.uses := rfl
@[simp] theorem State.withLineQ_badNodes (s : State) (v : List HeldWrite) : (s.withLineQ v).badNodes = s.badNodes := rfl
@[simp] theorem State.withLineQ_cores (s : State) (v : List HeldWrite) : (s.withLineQ v).cores = s.cores := rfl
@[simp] theorem State.withLineQ_adcFifo (s : State) (v : List HeldWrite) : (s.withLineQ v).adcFifo = s.adcFifo := rfl
@[simp] theorem State.withLineQ_evq (s : State) (v : List HeldWrite) : (s.withLineQ v).evq = s.evq := rfl
@[simp] theorem State.withLineQ_twOut (s : State) (v : List HeldWrite) : (s.withLineQ v).twOut = s.twOut := rfl
@[simp] theorem State.withLineQ_slpWait (s : State) (v : List HeldWrite) : (s.withLineQ v).slpWait = s.slpWait := rfl
@[simp] theorem State.withLineQ_slpUnacked (s : State) (v : List HeldWrite) : (s.withLineQ v).slpUnacked = s.slpUnacked := rfl
@[simp] theorem State.withLineQ_slpHeld (s : State) (v : List HeldWrite) : (s.withLineQ v).slpHeld = s.slpHeld := rfl
@[simp] theorem State.withLineQ_ctrlQ (s : State) (v : List HeldWrite) : (s.withLineQ v).ctrlQ = s.ctrlQ := rfl
@[simp] theorem State.withLineQ_dbgQ (s : State) (v : List HeldWrite) : (s.withLineQ v).dbgQ = s.dbgQ := rfl
@[simp] theorem State.withLineQ_notices (s : State) (v : List HeldWrite) : (s.withLineQ v).notices = s.notices := rfl
@[simp] theorem State.withLineQ_slpObjs (s : State) (v : List HeldWrite) : (s.withLineQ v).slpObjs = s.slpObjs := rfl
@[simp] theorem State.withLineQ_rxMsgs (s : State) (v : List HeldWrite) : (s.withLineQ v).rxMsgs = s.rxMsgs := rfl
@[simp] theorem State.withLineQ_txBuf (s : State) (v : List HeldWrite) : (s.withLineQ v).txBuf = s.txBuf := rfl
@[simp] theorem State.withLineQ_ethTx (s : State) (v : List HeldWrite) : (s.withLineQ v).ethTx = s.ethTx := rfl
@[simp] theorem State.withLineQ_occ (s : State) (v : List HeldWrite) : (s.withLineQ v).occ = s.occ := rfl
@[simp] theorem State.withLineQ_raised (s : State) (v : List HeldWrite) : (s.withLineQ v).raised = s.raised := rfl
@[simp] theorem State.withLineQ_held (s : State) (v : List HeldWrite) : (s.withLineQ v).held = s.held := rfl
@[simp] theorem State.withLineQ_time (s : State) (v : List HeldWrite) : (s.withLineQ v).time = s.time := rfl
@[simp] theorem State.withLineQ_free (s : State) (v : List HeldWrite) : (s.withLineQ v).free = s.free := rfl
@[simp] theorem State.withLineQ_pending (s : State) (v : List HeldWrite) : (s.withLineQ v).pending = s.pending := rfl

@[simp] theorem State.withBcIn_bcIn (s : State) (v : List HeldWrite) : (s.withBcIn v).bcIn = v := rfl
@[simp] theorem State.withBcIn_opt (s : State) (v : List HeldWrite) : (s.withBcIn v).opt = s.opt := rfl
@[simp] theorem State.withBcIn_regs (s : State) (v : List HeldWrite) : (s.withBcIn v).regs = s.regs := rfl
@[simp] theorem State.withBcIn_tabs (s : State) (v : List HeldWrite) : (s.withBcIn v).tabs = s.tabs := rfl
@[simp] theorem State.withBcIn_mem (s : State) (v : List HeldWrite) : (s.withBcIn v).mem = s.mem := rfl
@[simp] theorem State.withBcIn_runs (s : State) (v : List HeldWrite) : (s.withBcIn v).runs = s.runs := rfl
@[simp] theorem State.withBcIn_inj (s : State) (v : List HeldWrite) : (s.withBcIn v).inj = s.inj := rfl
@[simp] theorem State.withBcIn_fifos (s : State) (v : List HeldWrite) : (s.withBcIn v).fifos = s.fifos := rfl
@[simp] theorem State.withBcIn_updates (s : State) (v : List HeldWrite) : (s.withBcIn v).updates = s.updates := rfl
@[simp] theorem State.withBcIn_results (s : State) (v : List HeldWrite) : (s.withBcIn v).results = s.results := rfl
@[simp] theorem State.withBcIn_sessions (s : State) (v : List HeldWrite) : (s.withBcIn v).sessions = s.sessions := rfl
@[simp] theorem State.withBcIn_dir (s : State) (v : List HeldWrite) : (s.withBcIn v).dir = s.dir := rfl
@[simp] theorem State.withBcIn_dirCopy (s : State) (v : List HeldWrite) : (s.withBcIn v).dirCopy = s.dirCopy := rfl
@[simp] theorem State.withBcIn_dramQ (s : State) (v : List HeldWrite) : (s.withBcIn v).dramQ = s.dramQ := rfl
@[simp] theorem State.withBcIn_lineQ (s : State) (v : List HeldWrite) : (s.withBcIn v).lineQ = s.lineQ := rfl
@[simp] theorem State.withBcIn_pzList (s : State) (v : List HeldWrite) : (s.withBcIn v).pzList = s.pzList := rfl
@[simp] theorem State.withBcIn_uses (s : State) (v : List HeldWrite) : (s.withBcIn v).uses = s.uses := rfl
@[simp] theorem State.withBcIn_badNodes (s : State) (v : List HeldWrite) : (s.withBcIn v).badNodes = s.badNodes := rfl
@[simp] theorem State.withBcIn_cores (s : State) (v : List HeldWrite) : (s.withBcIn v).cores = s.cores := rfl
@[simp] theorem State.withBcIn_adcFifo (s : State) (v : List HeldWrite) : (s.withBcIn v).adcFifo = s.adcFifo := rfl
@[simp] theorem State.withBcIn_evq (s : State) (v : List HeldWrite) : (s.withBcIn v).evq = s.evq := rfl
@[simp] theorem State.withBcIn_twOut (s : State) (v : List HeldWrite) : (s.withBcIn v).twOut = s.twOut := rfl
@[simp] theorem State.withBcIn_slpWait (s : State) (v : List HeldWrite) : (s.withBcIn v).slpWait = s.slpWait := rfl
@[simp] theorem State.withBcIn_slpUnacked (s : State) (v : List HeldWrite) : (s.withBcIn v).slpUnacked = s.slpUnacked := rfl
@[simp] theorem State.withBcIn_slpHeld (s : State) (v : List HeldWrite) : (s.withBcIn v).slpHeld = s.slpHeld := rfl
@[simp] theorem State.withBcIn_ctrlQ (s : State) (v : List HeldWrite) : (s.withBcIn v).ctrlQ = s.ctrlQ := rfl
@[simp] theorem State.withBcIn_dbgQ (s : State) (v : List HeldWrite) : (s.withBcIn v).dbgQ = s.dbgQ := rfl
@[simp] theorem State.withBcIn_notices (s : State) (v : List HeldWrite) : (s.withBcIn v).notices = s.notices := rfl
@[simp] theorem State.withBcIn_slpObjs (s : State) (v : List HeldWrite) : (s.withBcIn v).slpObjs = s.slpObjs := rfl
@[simp] theorem State.withBcIn_rxMsgs (s : State) (v : List HeldWrite) : (s.withBcIn v).rxMsgs = s.rxMsgs := rfl
@[simp] theorem State.withBcIn_txBuf (s : State) (v : List HeldWrite) : (s.withBcIn v).txBuf = s.txBuf := rfl
@[simp] theorem State.withBcIn_ethTx (s : State) (v : List HeldWrite) : (s.withBcIn v).ethTx = s.ethTx := rfl
@[simp] theorem State.withBcIn_occ (s : State) (v : List HeldWrite) : (s.withBcIn v).occ = s.occ := rfl
@[simp] theorem State.withBcIn_raised (s : State) (v : List HeldWrite) : (s.withBcIn v).raised = s.raised := rfl
@[simp] theorem State.withBcIn_held (s : State) (v : List HeldWrite) : (s.withBcIn v).held = s.held := rfl
@[simp] theorem State.withBcIn_time (s : State) (v : List HeldWrite) : (s.withBcIn v).time = s.time := rfl
@[simp] theorem State.withBcIn_free (s : State) (v : List HeldWrite) : (s.withBcIn v).free = s.free := rfl
@[simp] theorem State.withBcIn_pending (s : State) (v : List HeldWrite) : (s.withBcIn v).pending = s.pending := rfl

@[simp] theorem State.withPzList_pzList (s : State) (v : List (Nat × Nat)) : (s.withPzList v).pzList = v := rfl
@[simp] theorem State.withPzList_opt (s : State) (v : List (Nat × Nat)) : (s.withPzList v).opt = s.opt := rfl
@[simp] theorem State.withPzList_regs (s : State) (v : List (Nat × Nat)) : (s.withPzList v).regs = s.regs := rfl
@[simp] theorem State.withPzList_tabs (s : State) (v : List (Nat × Nat)) : (s.withPzList v).tabs = s.tabs := rfl
@[simp] theorem State.withPzList_mem (s : State) (v : List (Nat × Nat)) : (s.withPzList v).mem = s.mem := rfl
@[simp] theorem State.withPzList_runs (s : State) (v : List (Nat × Nat)) : (s.withPzList v).runs = s.runs := rfl
@[simp] theorem State.withPzList_inj (s : State) (v : List (Nat × Nat)) : (s.withPzList v).inj = s.inj := rfl
@[simp] theorem State.withPzList_fifos (s : State) (v : List (Nat × Nat)) : (s.withPzList v).fifos = s.fifos := rfl
@[simp] theorem State.withPzList_updates (s : State) (v : List (Nat × Nat)) : (s.withPzList v).updates = s.updates := rfl
@[simp] theorem State.withPzList_results (s : State) (v : List (Nat × Nat)) : (s.withPzList v).results = s.results := rfl
@[simp] theorem State.withPzList_sessions (s : State) (v : List (Nat × Nat)) : (s.withPzList v).sessions = s.sessions := rfl
@[simp] theorem State.withPzList_dir (s : State) (v : List (Nat × Nat)) : (s.withPzList v).dir = s.dir := rfl
@[simp] theorem State.withPzList_dirCopy (s : State) (v : List (Nat × Nat)) : (s.withPzList v).dirCopy = s.dirCopy := rfl
@[simp] theorem State.withPzList_dramQ (s : State) (v : List (Nat × Nat)) : (s.withPzList v).dramQ = s.dramQ := rfl
@[simp] theorem State.withPzList_lineQ (s : State) (v : List (Nat × Nat)) : (s.withPzList v).lineQ = s.lineQ := rfl
@[simp] theorem State.withPzList_bcIn (s : State) (v : List (Nat × Nat)) : (s.withPzList v).bcIn = s.bcIn := rfl
@[simp] theorem State.withPzList_uses (s : State) (v : List (Nat × Nat)) : (s.withPzList v).uses = s.uses := rfl
@[simp] theorem State.withPzList_badNodes (s : State) (v : List (Nat × Nat)) : (s.withPzList v).badNodes = s.badNodes := rfl
@[simp] theorem State.withPzList_cores (s : State) (v : List (Nat × Nat)) : (s.withPzList v).cores = s.cores := rfl
@[simp] theorem State.withPzList_adcFifo (s : State) (v : List (Nat × Nat)) : (s.withPzList v).adcFifo = s.adcFifo := rfl
@[simp] theorem State.withPzList_evq (s : State) (v : List (Nat × Nat)) : (s.withPzList v).evq = s.evq := rfl
@[simp] theorem State.withPzList_twOut (s : State) (v : List (Nat × Nat)) : (s.withPzList v).twOut = s.twOut := rfl
@[simp] theorem State.withPzList_slpWait (s : State) (v : List (Nat × Nat)) : (s.withPzList v).slpWait = s.slpWait := rfl
@[simp] theorem State.withPzList_slpUnacked (s : State) (v : List (Nat × Nat)) : (s.withPzList v).slpUnacked = s.slpUnacked := rfl
@[simp] theorem State.withPzList_slpHeld (s : State) (v : List (Nat × Nat)) : (s.withPzList v).slpHeld = s.slpHeld := rfl
@[simp] theorem State.withPzList_ctrlQ (s : State) (v : List (Nat × Nat)) : (s.withPzList v).ctrlQ = s.ctrlQ := rfl
@[simp] theorem State.withPzList_dbgQ (s : State) (v : List (Nat × Nat)) : (s.withPzList v).dbgQ = s.dbgQ := rfl
@[simp] theorem State.withPzList_notices (s : State) (v : List (Nat × Nat)) : (s.withPzList v).notices = s.notices := rfl
@[simp] theorem State.withPzList_slpObjs (s : State) (v : List (Nat × Nat)) : (s.withPzList v).slpObjs = s.slpObjs := rfl
@[simp] theorem State.withPzList_rxMsgs (s : State) (v : List (Nat × Nat)) : (s.withPzList v).rxMsgs = s.rxMsgs := rfl
@[simp] theorem State.withPzList_txBuf (s : State) (v : List (Nat × Nat)) : (s.withPzList v).txBuf = s.txBuf := rfl
@[simp] theorem State.withPzList_ethTx (s : State) (v : List (Nat × Nat)) : (s.withPzList v).ethTx = s.ethTx := rfl
@[simp] theorem State.withPzList_occ (s : State) (v : List (Nat × Nat)) : (s.withPzList v).occ = s.occ := rfl
@[simp] theorem State.withPzList_raised (s : State) (v : List (Nat × Nat)) : (s.withPzList v).raised = s.raised := rfl
@[simp] theorem State.withPzList_held (s : State) (v : List (Nat × Nat)) : (s.withPzList v).held = s.held := rfl
@[simp] theorem State.withPzList_time (s : State) (v : List (Nat × Nat)) : (s.withPzList v).time = s.time := rfl
@[simp] theorem State.withPzList_free (s : State) (v : List (Nat × Nat)) : (s.withPzList v).free = s.free := rfl
@[simp] theorem State.withPzList_pending (s : State) (v : List (Nat × Nat)) : (s.withPzList v).pending = s.pending := rfl

@[simp] theorem State.withUses_uses (s : State) (v : List (Nat × Nat)) : (s.withUses v).uses = v := rfl
@[simp] theorem State.withUses_opt (s : State) (v : List (Nat × Nat)) : (s.withUses v).opt = s.opt := rfl
@[simp] theorem State.withUses_regs (s : State) (v : List (Nat × Nat)) : (s.withUses v).regs = s.regs := rfl
@[simp] theorem State.withUses_tabs (s : State) (v : List (Nat × Nat)) : (s.withUses v).tabs = s.tabs := rfl
@[simp] theorem State.withUses_mem (s : State) (v : List (Nat × Nat)) : (s.withUses v).mem = s.mem := rfl
@[simp] theorem State.withUses_runs (s : State) (v : List (Nat × Nat)) : (s.withUses v).runs = s.runs := rfl
@[simp] theorem State.withUses_inj (s : State) (v : List (Nat × Nat)) : (s.withUses v).inj = s.inj := rfl
@[simp] theorem State.withUses_fifos (s : State) (v : List (Nat × Nat)) : (s.withUses v).fifos = s.fifos := rfl
@[simp] theorem State.withUses_updates (s : State) (v : List (Nat × Nat)) : (s.withUses v).updates = s.updates := rfl
@[simp] theorem State.withUses_results (s : State) (v : List (Nat × Nat)) : (s.withUses v).results = s.results := rfl
@[simp] theorem State.withUses_sessions (s : State) (v : List (Nat × Nat)) : (s.withUses v).sessions = s.sessions := rfl
@[simp] theorem State.withUses_dir (s : State) (v : List (Nat × Nat)) : (s.withUses v).dir = s.dir := rfl
@[simp] theorem State.withUses_dirCopy (s : State) (v : List (Nat × Nat)) : (s.withUses v).dirCopy = s.dirCopy := rfl
@[simp] theorem State.withUses_dramQ (s : State) (v : List (Nat × Nat)) : (s.withUses v).dramQ = s.dramQ := rfl
@[simp] theorem State.withUses_lineQ (s : State) (v : List (Nat × Nat)) : (s.withUses v).lineQ = s.lineQ := rfl
@[simp] theorem State.withUses_bcIn (s : State) (v : List (Nat × Nat)) : (s.withUses v).bcIn = s.bcIn := rfl
@[simp] theorem State.withUses_pzList (s : State) (v : List (Nat × Nat)) : (s.withUses v).pzList = s.pzList := rfl
@[simp] theorem State.withUses_badNodes (s : State) (v : List (Nat × Nat)) : (s.withUses v).badNodes = s.badNodes := rfl
@[simp] theorem State.withUses_cores (s : State) (v : List (Nat × Nat)) : (s.withUses v).cores = s.cores := rfl
@[simp] theorem State.withUses_adcFifo (s : State) (v : List (Nat × Nat)) : (s.withUses v).adcFifo = s.adcFifo := rfl
@[simp] theorem State.withUses_evq (s : State) (v : List (Nat × Nat)) : (s.withUses v).evq = s.evq := rfl
@[simp] theorem State.withUses_twOut (s : State) (v : List (Nat × Nat)) : (s.withUses v).twOut = s.twOut := rfl
@[simp] theorem State.withUses_slpWait (s : State) (v : List (Nat × Nat)) : (s.withUses v).slpWait = s.slpWait := rfl
@[simp] theorem State.withUses_slpUnacked (s : State) (v : List (Nat × Nat)) : (s.withUses v).slpUnacked = s.slpUnacked := rfl
@[simp] theorem State.withUses_slpHeld (s : State) (v : List (Nat × Nat)) : (s.withUses v).slpHeld = s.slpHeld := rfl
@[simp] theorem State.withUses_ctrlQ (s : State) (v : List (Nat × Nat)) : (s.withUses v).ctrlQ = s.ctrlQ := rfl
@[simp] theorem State.withUses_dbgQ (s : State) (v : List (Nat × Nat)) : (s.withUses v).dbgQ = s.dbgQ := rfl
@[simp] theorem State.withUses_notices (s : State) (v : List (Nat × Nat)) : (s.withUses v).notices = s.notices := rfl
@[simp] theorem State.withUses_slpObjs (s : State) (v : List (Nat × Nat)) : (s.withUses v).slpObjs = s.slpObjs := rfl
@[simp] theorem State.withUses_rxMsgs (s : State) (v : List (Nat × Nat)) : (s.withUses v).rxMsgs = s.rxMsgs := rfl
@[simp] theorem State.withUses_txBuf (s : State) (v : List (Nat × Nat)) : (s.withUses v).txBuf = s.txBuf := rfl
@[simp] theorem State.withUses_ethTx (s : State) (v : List (Nat × Nat)) : (s.withUses v).ethTx = s.ethTx := rfl
@[simp] theorem State.withUses_occ (s : State) (v : List (Nat × Nat)) : (s.withUses v).occ = s.occ := rfl
@[simp] theorem State.withUses_raised (s : State) (v : List (Nat × Nat)) : (s.withUses v).raised = s.raised := rfl
@[simp] theorem State.withUses_held (s : State) (v : List (Nat × Nat)) : (s.withUses v).held = s.held := rfl
@[simp] theorem State.withUses_time (s : State) (v : List (Nat × Nat)) : (s.withUses v).time = s.time := rfl
@[simp] theorem State.withUses_free (s : State) (v : List (Nat × Nat)) : (s.withUses v).free = s.free := rfl
@[simp] theorem State.withUses_pending (s : State) (v : List (Nat × Nat)) : (s.withUses v).pending = s.pending := rfl

@[simp] theorem State.withBadNodes_badNodes (s : State) (v : List (Nat × Nat)) : (s.withBadNodes v).badNodes = v := rfl
@[simp] theorem State.withBadNodes_opt (s : State) (v : List (Nat × Nat)) : (s.withBadNodes v).opt = s.opt := rfl
@[simp] theorem State.withBadNodes_regs (s : State) (v : List (Nat × Nat)) : (s.withBadNodes v).regs = s.regs := rfl
@[simp] theorem State.withBadNodes_tabs (s : State) (v : List (Nat × Nat)) : (s.withBadNodes v).tabs = s.tabs := rfl
@[simp] theorem State.withBadNodes_mem (s : State) (v : List (Nat × Nat)) : (s.withBadNodes v).mem = s.mem := rfl
@[simp] theorem State.withBadNodes_runs (s : State) (v : List (Nat × Nat)) : (s.withBadNodes v).runs = s.runs := rfl
@[simp] theorem State.withBadNodes_inj (s : State) (v : List (Nat × Nat)) : (s.withBadNodes v).inj = s.inj := rfl
@[simp] theorem State.withBadNodes_fifos (s : State) (v : List (Nat × Nat)) : (s.withBadNodes v).fifos = s.fifos := rfl
@[simp] theorem State.withBadNodes_updates (s : State) (v : List (Nat × Nat)) : (s.withBadNodes v).updates = s.updates := rfl
@[simp] theorem State.withBadNodes_results (s : State) (v : List (Nat × Nat)) : (s.withBadNodes v).results = s.results := rfl
@[simp] theorem State.withBadNodes_sessions (s : State) (v : List (Nat × Nat)) : (s.withBadNodes v).sessions = s.sessions := rfl
@[simp] theorem State.withBadNodes_dir (s : State) (v : List (Nat × Nat)) : (s.withBadNodes v).dir = s.dir := rfl
@[simp] theorem State.withBadNodes_dirCopy (s : State) (v : List (Nat × Nat)) : (s.withBadNodes v).dirCopy = s.dirCopy := rfl
@[simp] theorem State.withBadNodes_dramQ (s : State) (v : List (Nat × Nat)) : (s.withBadNodes v).dramQ = s.dramQ := rfl
@[simp] theorem State.withBadNodes_lineQ (s : State) (v : List (Nat × Nat)) : (s.withBadNodes v).lineQ = s.lineQ := rfl
@[simp] theorem State.withBadNodes_bcIn (s : State) (v : List (Nat × Nat)) : (s.withBadNodes v).bcIn = s.bcIn := rfl
@[simp] theorem State.withBadNodes_pzList (s : State) (v : List (Nat × Nat)) : (s.withBadNodes v).pzList = s.pzList := rfl
@[simp] theorem State.withBadNodes_uses (s : State) (v : List (Nat × Nat)) : (s.withBadNodes v).uses = s.uses := rfl
@[simp] theorem State.withBadNodes_cores (s : State) (v : List (Nat × Nat)) : (s.withBadNodes v).cores = s.cores := rfl
@[simp] theorem State.withBadNodes_adcFifo (s : State) (v : List (Nat × Nat)) : (s.withBadNodes v).adcFifo = s.adcFifo := rfl
@[simp] theorem State.withBadNodes_evq (s : State) (v : List (Nat × Nat)) : (s.withBadNodes v).evq = s.evq := rfl
@[simp] theorem State.withBadNodes_twOut (s : State) (v : List (Nat × Nat)) : (s.withBadNodes v).twOut = s.twOut := rfl
@[simp] theorem State.withBadNodes_slpWait (s : State) (v : List (Nat × Nat)) : (s.withBadNodes v).slpWait = s.slpWait := rfl
@[simp] theorem State.withBadNodes_slpUnacked (s : State) (v : List (Nat × Nat)) : (s.withBadNodes v).slpUnacked = s.slpUnacked := rfl
@[simp] theorem State.withBadNodes_slpHeld (s : State) (v : List (Nat × Nat)) : (s.withBadNodes v).slpHeld = s.slpHeld := rfl
@[simp] theorem State.withBadNodes_ctrlQ (s : State) (v : List (Nat × Nat)) : (s.withBadNodes v).ctrlQ = s.ctrlQ := rfl
@[simp] theorem State.withBadNodes_dbgQ (s : State) (v : List (Nat × Nat)) : (s.withBadNodes v).dbgQ = s.dbgQ := rfl
@[simp] theorem State.withBadNodes_notices (s : State) (v : List (Nat × Nat)) : (s.withBadNodes v).notices = s.notices := rfl
@[simp] theorem State.withBadNodes_slpObjs (s : State) (v : List (Nat × Nat)) : (s.withBadNodes v).slpObjs = s.slpObjs := rfl
@[simp] theorem State.withBadNodes_rxMsgs (s : State) (v : List (Nat × Nat)) : (s.withBadNodes v).rxMsgs = s.rxMsgs := rfl
@[simp] theorem State.withBadNodes_txBuf (s : State) (v : List (Nat × Nat)) : (s.withBadNodes v).txBuf = s.txBuf := rfl
@[simp] theorem State.withBadNodes_ethTx (s : State) (v : List (Nat × Nat)) : (s.withBadNodes v).ethTx = s.ethTx := rfl
@[simp] theorem State.withBadNodes_occ (s : State) (v : List (Nat × Nat)) : (s.withBadNodes v).occ = s.occ := rfl
@[simp] theorem State.withBadNodes_raised (s : State) (v : List (Nat × Nat)) : (s.withBadNodes v).raised = s.raised := rfl
@[simp] theorem State.withBadNodes_held (s : State) (v : List (Nat × Nat)) : (s.withBadNodes v).held = s.held := rfl
@[simp] theorem State.withBadNodes_time (s : State) (v : List (Nat × Nat)) : (s.withBadNodes v).time = s.time := rfl
@[simp] theorem State.withBadNodes_free (s : State) (v : List (Nat × Nat)) : (s.withBadNodes v).free = s.free := rfl
@[simp] theorem State.withBadNodes_pending (s : State) (v : List (Nat × Nat)) : (s.withBadNodes v).pending = s.pending := rfl

@[simp] theorem State.withCores_cores (s : State) (v : SMap MfpCore) : (s.withCores v).cores = v := rfl
@[simp] theorem State.withCores_opt (s : State) (v : SMap MfpCore) : (s.withCores v).opt = s.opt := rfl
@[simp] theorem State.withCores_regs (s : State) (v : SMap MfpCore) : (s.withCores v).regs = s.regs := rfl
@[simp] theorem State.withCores_tabs (s : State) (v : SMap MfpCore) : (s.withCores v).tabs = s.tabs := rfl
@[simp] theorem State.withCores_mem (s : State) (v : SMap MfpCore) : (s.withCores v).mem = s.mem := rfl
@[simp] theorem State.withCores_runs (s : State) (v : SMap MfpCore) : (s.withCores v).runs = s.runs := rfl
@[simp] theorem State.withCores_inj (s : State) (v : SMap MfpCore) : (s.withCores v).inj = s.inj := rfl
@[simp] theorem State.withCores_fifos (s : State) (v : SMap MfpCore) : (s.withCores v).fifos = s.fifos := rfl
@[simp] theorem State.withCores_updates (s : State) (v : SMap MfpCore) : (s.withCores v).updates = s.updates := rfl
@[simp] theorem State.withCores_results (s : State) (v : SMap MfpCore) : (s.withCores v).results = s.results := rfl
@[simp] theorem State.withCores_sessions (s : State) (v : SMap MfpCore) : (s.withCores v).sessions = s.sessions := rfl
@[simp] theorem State.withCores_dir (s : State) (v : SMap MfpCore) : (s.withCores v).dir = s.dir := rfl
@[simp] theorem State.withCores_dirCopy (s : State) (v : SMap MfpCore) : (s.withCores v).dirCopy = s.dirCopy := rfl
@[simp] theorem State.withCores_dramQ (s : State) (v : SMap MfpCore) : (s.withCores v).dramQ = s.dramQ := rfl
@[simp] theorem State.withCores_lineQ (s : State) (v : SMap MfpCore) : (s.withCores v).lineQ = s.lineQ := rfl
@[simp] theorem State.withCores_bcIn (s : State) (v : SMap MfpCore) : (s.withCores v).bcIn = s.bcIn := rfl
@[simp] theorem State.withCores_pzList (s : State) (v : SMap MfpCore) : (s.withCores v).pzList = s.pzList := rfl
@[simp] theorem State.withCores_uses (s : State) (v : SMap MfpCore) : (s.withCores v).uses = s.uses := rfl
@[simp] theorem State.withCores_badNodes (s : State) (v : SMap MfpCore) : (s.withCores v).badNodes = s.badNodes := rfl
@[simp] theorem State.withCores_adcFifo (s : State) (v : SMap MfpCore) : (s.withCores v).adcFifo = s.adcFifo := rfl
@[simp] theorem State.withCores_evq (s : State) (v : SMap MfpCore) : (s.withCores v).evq = s.evq := rfl
@[simp] theorem State.withCores_twOut (s : State) (v : SMap MfpCore) : (s.withCores v).twOut = s.twOut := rfl
@[simp] theorem State.withCores_slpWait (s : State) (v : SMap MfpCore) : (s.withCores v).slpWait = s.slpWait := rfl
@[simp] theorem State.withCores_slpUnacked (s : State) (v : SMap MfpCore) : (s.withCores v).slpUnacked = s.slpUnacked := rfl
@[simp] theorem State.withCores_slpHeld (s : State) (v : SMap MfpCore) : (s.withCores v).slpHeld = s.slpHeld := rfl
@[simp] theorem State.withCores_ctrlQ (s : State) (v : SMap MfpCore) : (s.withCores v).ctrlQ = s.ctrlQ := rfl
@[simp] theorem State.withCores_dbgQ (s : State) (v : SMap MfpCore) : (s.withCores v).dbgQ = s.dbgQ := rfl
@[simp] theorem State.withCores_notices (s : State) (v : SMap MfpCore) : (s.withCores v).notices = s.notices := rfl
@[simp] theorem State.withCores_slpObjs (s : State) (v : SMap MfpCore) : (s.withCores v).slpObjs = s.slpObjs := rfl
@[simp] theorem State.withCores_rxMsgs (s : State) (v : SMap MfpCore) : (s.withCores v).rxMsgs = s.rxMsgs := rfl
@[simp] theorem State.withCores_txBuf (s : State) (v : SMap MfpCore) : (s.withCores v).txBuf = s.txBuf := rfl
@[simp] theorem State.withCores_ethTx (s : State) (v : SMap MfpCore) : (s.withCores v).ethTx = s.ethTx := rfl
@[simp] theorem State.withCores_occ (s : State) (v : SMap MfpCore) : (s.withCores v).occ = s.occ := rfl
@[simp] theorem State.withCores_raised (s : State) (v : SMap MfpCore) : (s.withCores v).raised = s.raised := rfl
@[simp] theorem State.withCores_held (s : State) (v : SMap MfpCore) : (s.withCores v).held = s.held := rfl
@[simp] theorem State.withCores_time (s : State) (v : SMap MfpCore) : (s.withCores v).time = s.time := rfl
@[simp] theorem State.withCores_free (s : State) (v : SMap MfpCore) : (s.withCores v).free = s.free := rfl
@[simp] theorem State.withCores_pending (s : State) (v : SMap MfpCore) : (s.withCores v).pending = s.pending := rfl

@[simp] theorem State.withAdcFifo_adcFifo (s : State) (v : SMap (List Nat)) : (s.withAdcFifo v).adcFifo = v := rfl
@[simp] theorem State.withAdcFifo_opt (s : State) (v : SMap (List Nat)) : (s.withAdcFifo v).opt = s.opt := rfl
@[simp] theorem State.withAdcFifo_regs (s : State) (v : SMap (List Nat)) : (s.withAdcFifo v).regs = s.regs := rfl
@[simp] theorem State.withAdcFifo_tabs (s : State) (v : SMap (List Nat)) : (s.withAdcFifo v).tabs = s.tabs := rfl
@[simp] theorem State.withAdcFifo_mem (s : State) (v : SMap (List Nat)) : (s.withAdcFifo v).mem = s.mem := rfl
@[simp] theorem State.withAdcFifo_runs (s : State) (v : SMap (List Nat)) : (s.withAdcFifo v).runs = s.runs := rfl
@[simp] theorem State.withAdcFifo_inj (s : State) (v : SMap (List Nat)) : (s.withAdcFifo v).inj = s.inj := rfl
@[simp] theorem State.withAdcFifo_fifos (s : State) (v : SMap (List Nat)) : (s.withAdcFifo v).fifos = s.fifos := rfl
@[simp] theorem State.withAdcFifo_updates (s : State) (v : SMap (List Nat)) : (s.withAdcFifo v).updates = s.updates := rfl
@[simp] theorem State.withAdcFifo_results (s : State) (v : SMap (List Nat)) : (s.withAdcFifo v).results = s.results := rfl
@[simp] theorem State.withAdcFifo_sessions (s : State) (v : SMap (List Nat)) : (s.withAdcFifo v).sessions = s.sessions := rfl
@[simp] theorem State.withAdcFifo_dir (s : State) (v : SMap (List Nat)) : (s.withAdcFifo v).dir = s.dir := rfl
@[simp] theorem State.withAdcFifo_dirCopy (s : State) (v : SMap (List Nat)) : (s.withAdcFifo v).dirCopy = s.dirCopy := rfl
@[simp] theorem State.withAdcFifo_dramQ (s : State) (v : SMap (List Nat)) : (s.withAdcFifo v).dramQ = s.dramQ := rfl
@[simp] theorem State.withAdcFifo_lineQ (s : State) (v : SMap (List Nat)) : (s.withAdcFifo v).lineQ = s.lineQ := rfl
@[simp] theorem State.withAdcFifo_bcIn (s : State) (v : SMap (List Nat)) : (s.withAdcFifo v).bcIn = s.bcIn := rfl
@[simp] theorem State.withAdcFifo_pzList (s : State) (v : SMap (List Nat)) : (s.withAdcFifo v).pzList = s.pzList := rfl
@[simp] theorem State.withAdcFifo_uses (s : State) (v : SMap (List Nat)) : (s.withAdcFifo v).uses = s.uses := rfl
@[simp] theorem State.withAdcFifo_badNodes (s : State) (v : SMap (List Nat)) : (s.withAdcFifo v).badNodes = s.badNodes := rfl
@[simp] theorem State.withAdcFifo_cores (s : State) (v : SMap (List Nat)) : (s.withAdcFifo v).cores = s.cores := rfl
@[simp] theorem State.withAdcFifo_evq (s : State) (v : SMap (List Nat)) : (s.withAdcFifo v).evq = s.evq := rfl
@[simp] theorem State.withAdcFifo_twOut (s : State) (v : SMap (List Nat)) : (s.withAdcFifo v).twOut = s.twOut := rfl
@[simp] theorem State.withAdcFifo_slpWait (s : State) (v : SMap (List Nat)) : (s.withAdcFifo v).slpWait = s.slpWait := rfl
@[simp] theorem State.withAdcFifo_slpUnacked (s : State) (v : SMap (List Nat)) : (s.withAdcFifo v).slpUnacked = s.slpUnacked := rfl
@[simp] theorem State.withAdcFifo_slpHeld (s : State) (v : SMap (List Nat)) : (s.withAdcFifo v).slpHeld = s.slpHeld := rfl
@[simp] theorem State.withAdcFifo_ctrlQ (s : State) (v : SMap (List Nat)) : (s.withAdcFifo v).ctrlQ = s.ctrlQ := rfl
@[simp] theorem State.withAdcFifo_dbgQ (s : State) (v : SMap (List Nat)) : (s.withAdcFifo v).dbgQ = s.dbgQ := rfl
@[simp] theorem State.withAdcFifo_notices (s : State) (v : SMap (List Nat)) : (s.withAdcFifo v).notices = s.notices := rfl
@[simp] theorem State.withAdcFifo_slpObjs (s : State) (v : SMap (List Nat)) : (s.withAdcFifo v).slpObjs = s.slpObjs := rfl
@[simp] theorem State.withAdcFifo_rxMsgs (s : State) (v : SMap (List Nat)) : (s.withAdcFifo v).rxMsgs = s.rxMsgs := rfl
@[simp] theorem State.withAdcFifo_txBuf (s : State) (v : SMap (List Nat)) : (s.withAdcFifo v).txBuf = s.txBuf := rfl
@[simp] theorem State.withAdcFifo_ethTx (s : State) (v : SMap (List Nat)) : (s.withAdcFifo v).ethTx = s.ethTx := rfl
@[simp] theorem State.withAdcFifo_occ (s : State) (v : SMap (List Nat)) : (s.withAdcFifo v).occ = s.occ := rfl
@[simp] theorem State.withAdcFifo_raised (s : State) (v : SMap (List Nat)) : (s.withAdcFifo v).raised = s.raised := rfl
@[simp] theorem State.withAdcFifo_held (s : State) (v : SMap (List Nat)) : (s.withAdcFifo v).held = s.held := rfl
@[simp] theorem State.withAdcFifo_time (s : State) (v : SMap (List Nat)) : (s.withAdcFifo v).time = s.time := rfl
@[simp] theorem State.withAdcFifo_free (s : State) (v : SMap (List Nat)) : (s.withAdcFifo v).free = s.free := rfl
@[simp] theorem State.withAdcFifo_pending (s : State) (v : SMap (List Nat)) : (s.withAdcFifo v).pending = s.pending := rfl

@[simp] theorem State.withEvq_evq (s : State) (v : SMap (List EvEntry)) : (s.withEvq v).evq = v := rfl
@[simp] theorem State.withEvq_opt (s : State) (v : SMap (List EvEntry)) : (s.withEvq v).opt = s.opt := rfl
@[simp] theorem State.withEvq_regs (s : State) (v : SMap (List EvEntry)) : (s.withEvq v).regs = s.regs := rfl
@[simp] theorem State.withEvq_tabs (s : State) (v : SMap (List EvEntry)) : (s.withEvq v).tabs = s.tabs := rfl
@[simp] theorem State.withEvq_mem (s : State) (v : SMap (List EvEntry)) : (s.withEvq v).mem = s.mem := rfl
@[simp] theorem State.withEvq_runs (s : State) (v : SMap (List EvEntry)) : (s.withEvq v).runs = s.runs := rfl
@[simp] theorem State.withEvq_inj (s : State) (v : SMap (List EvEntry)) : (s.withEvq v).inj = s.inj := rfl
@[simp] theorem State.withEvq_fifos (s : State) (v : SMap (List EvEntry)) : (s.withEvq v).fifos = s.fifos := rfl
@[simp] theorem State.withEvq_updates (s : State) (v : SMap (List EvEntry)) : (s.withEvq v).updates = s.updates := rfl
@[simp] theorem State.withEvq_results (s : State) (v : SMap (List EvEntry)) : (s.withEvq v).results = s.results := rfl
@[simp] theorem State.withEvq_sessions (s : State) (v : SMap (List EvEntry)) : (s.withEvq v).sessions = s.sessions := rfl
@[simp] theorem State.withEvq_dir (s : State) (v : SMap (List EvEntry)) : (s.withEvq v).dir = s.dir := rfl
@[simp] theorem State.withEvq_dirCopy (s : State) (v : SMap (List EvEntry)) : (s.withEvq v).dirCopy = s.dirCopy := rfl
@[simp] theorem State.withEvq_dramQ (s : State) (v : SMap (List EvEntry)) : (s.withEvq v).dramQ = s.dramQ := rfl
@[simp] theorem State.withEvq_lineQ (s : State) (v : SMap (List EvEntry)) : (s.withEvq v).lineQ = s.lineQ := rfl
@[simp] theorem State.withEvq_bcIn (s : State) (v : SMap (List EvEntry)) : (s.withEvq v).bcIn = s.bcIn := rfl
@[simp] theorem State.withEvq_pzList (s : State) (v : SMap (List EvEntry)) : (s.withEvq v).pzList = s.pzList := rfl
@[simp] theorem State.withEvq_uses (s : State) (v : SMap (List EvEntry)) : (s.withEvq v).uses = s.uses := rfl
@[simp] theorem State.withEvq_badNodes (s : State) (v : SMap (List EvEntry)) : (s.withEvq v).badNodes = s.badNodes := rfl
@[simp] theorem State.withEvq_cores (s : State) (v : SMap (List EvEntry)) : (s.withEvq v).cores = s.cores := rfl
@[simp] theorem State.withEvq_adcFifo (s : State) (v : SMap (List EvEntry)) : (s.withEvq v).adcFifo = s.adcFifo := rfl
@[simp] theorem State.withEvq_twOut (s : State) (v : SMap (List EvEntry)) : (s.withEvq v).twOut = s.twOut := rfl
@[simp] theorem State.withEvq_slpWait (s : State) (v : SMap (List EvEntry)) : (s.withEvq v).slpWait = s.slpWait := rfl
@[simp] theorem State.withEvq_slpUnacked (s : State) (v : SMap (List EvEntry)) : (s.withEvq v).slpUnacked = s.slpUnacked := rfl
@[simp] theorem State.withEvq_slpHeld (s : State) (v : SMap (List EvEntry)) : (s.withEvq v).slpHeld = s.slpHeld := rfl
@[simp] theorem State.withEvq_ctrlQ (s : State) (v : SMap (List EvEntry)) : (s.withEvq v).ctrlQ = s.ctrlQ := rfl
@[simp] theorem State.withEvq_dbgQ (s : State) (v : SMap (List EvEntry)) : (s.withEvq v).dbgQ = s.dbgQ := rfl
@[simp] theorem State.withEvq_notices (s : State) (v : SMap (List EvEntry)) : (s.withEvq v).notices = s.notices := rfl
@[simp] theorem State.withEvq_slpObjs (s : State) (v : SMap (List EvEntry)) : (s.withEvq v).slpObjs = s.slpObjs := rfl
@[simp] theorem State.withEvq_rxMsgs (s : State) (v : SMap (List EvEntry)) : (s.withEvq v).rxMsgs = s.rxMsgs := rfl
@[simp] theorem State.withEvq_txBuf (s : State) (v : SMap (List EvEntry)) : (s.withEvq v).txBuf = s.txBuf := rfl
@[simp] theorem State.withEvq_ethTx (s : State) (v : SMap (List EvEntry)) : (s.withEvq v).ethTx = s.ethTx := rfl
@[simp] theorem State.withEvq_occ (s : State) (v : SMap (List EvEntry)) : (s.withEvq v).occ = s.occ := rfl
@[simp] theorem State.withEvq_raised (s : State) (v : SMap (List EvEntry)) : (s.withEvq v).raised = s.raised := rfl
@[simp] theorem State.withEvq_held (s : State) (v : SMap (List EvEntry)) : (s.withEvq v).held = s.held := rfl
@[simp] theorem State.withEvq_time (s : State) (v : SMap (List EvEntry)) : (s.withEvq v).time = s.time := rfl
@[simp] theorem State.withEvq_free (s : State) (v : SMap (List EvEntry)) : (s.withEvq v).free = s.free := rfl
@[simp] theorem State.withEvq_pending (s : State) (v : SMap (List EvEntry)) : (s.withEvq v).pending = s.pending := rfl

@[simp] theorem State.withTwOut_twOut (s : State) (v : SMap (List TwMsg)) : (s.withTwOut v).twOut = v := rfl
@[simp] theorem State.withTwOut_opt (s : State) (v : SMap (List TwMsg)) : (s.withTwOut v).opt = s.opt := rfl
@[simp] theorem State.withTwOut_regs (s : State) (v : SMap (List TwMsg)) : (s.withTwOut v).regs = s.regs := rfl
@[simp] theorem State.withTwOut_tabs (s : State) (v : SMap (List TwMsg)) : (s.withTwOut v).tabs = s.tabs := rfl
@[simp] theorem State.withTwOut_mem (s : State) (v : SMap (List TwMsg)) : (s.withTwOut v).mem = s.mem := rfl
@[simp] theorem State.withTwOut_runs (s : State) (v : SMap (List TwMsg)) : (s.withTwOut v).runs = s.runs := rfl
@[simp] theorem State.withTwOut_inj (s : State) (v : SMap (List TwMsg)) : (s.withTwOut v).inj = s.inj := rfl
@[simp] theorem State.withTwOut_fifos (s : State) (v : SMap (List TwMsg)) : (s.withTwOut v).fifos = s.fifos := rfl
@[simp] theorem State.withTwOut_updates (s : State) (v : SMap (List TwMsg)) : (s.withTwOut v).updates = s.updates := rfl
@[simp] theorem State.withTwOut_results (s : State) (v : SMap (List TwMsg)) : (s.withTwOut v).results = s.results := rfl
@[simp] theorem State.withTwOut_sessions (s : State) (v : SMap (List TwMsg)) : (s.withTwOut v).sessions = s.sessions := rfl
@[simp] theorem State.withTwOut_dir (s : State) (v : SMap (List TwMsg)) : (s.withTwOut v).dir = s.dir := rfl
@[simp] theorem State.withTwOut_dirCopy (s : State) (v : SMap (List TwMsg)) : (s.withTwOut v).dirCopy = s.dirCopy := rfl
@[simp] theorem State.withTwOut_dramQ (s : State) (v : SMap (List TwMsg)) : (s.withTwOut v).dramQ = s.dramQ := rfl
@[simp] theorem State.withTwOut_lineQ (s : State) (v : SMap (List TwMsg)) : (s.withTwOut v).lineQ = s.lineQ := rfl
@[simp] theorem State.withTwOut_bcIn (s : State) (v : SMap (List TwMsg)) : (s.withTwOut v).bcIn = s.bcIn := rfl
@[simp] theorem State.withTwOut_pzList (s : State) (v : SMap (List TwMsg)) : (s.withTwOut v).pzList = s.pzList := rfl
@[simp] theorem State.withTwOut_uses (s : State) (v : SMap (List TwMsg)) : (s.withTwOut v).uses = s.uses := rfl
@[simp] theorem State.withTwOut_badNodes (s : State) (v : SMap (List TwMsg)) : (s.withTwOut v).badNodes = s.badNodes := rfl
@[simp] theorem State.withTwOut_cores (s : State) (v : SMap (List TwMsg)) : (s.withTwOut v).cores = s.cores := rfl
@[simp] theorem State.withTwOut_adcFifo (s : State) (v : SMap (List TwMsg)) : (s.withTwOut v).adcFifo = s.adcFifo := rfl
@[simp] theorem State.withTwOut_evq (s : State) (v : SMap (List TwMsg)) : (s.withTwOut v).evq = s.evq := rfl
@[simp] theorem State.withTwOut_slpWait (s : State) (v : SMap (List TwMsg)) : (s.withTwOut v).slpWait = s.slpWait := rfl
@[simp] theorem State.withTwOut_slpUnacked (s : State) (v : SMap (List TwMsg)) : (s.withTwOut v).slpUnacked = s.slpUnacked := rfl
@[simp] theorem State.withTwOut_slpHeld (s : State) (v : SMap (List TwMsg)) : (s.withTwOut v).slpHeld = s.slpHeld := rfl
@[simp] theorem State.withTwOut_ctrlQ (s : State) (v : SMap (List TwMsg)) : (s.withTwOut v).ctrlQ = s.ctrlQ := rfl
@[simp] theorem State.withTwOut_dbgQ (s : State) (v : SMap (List TwMsg)) : (s.withTwOut v).dbgQ = s.dbgQ := rfl
@[simp] theorem State.withTwOut_notices (s : State) (v : SMap (List TwMsg)) : (s.withTwOut v).notices = s.notices := rfl
@[simp] theorem State.withTwOut_slpObjs (s : State) (v : SMap (List TwMsg)) : (s.withTwOut v).slpObjs = s.slpObjs := rfl
@[simp] theorem State.withTwOut_rxMsgs (s : State) (v : SMap (List TwMsg)) : (s.withTwOut v).rxMsgs = s.rxMsgs := rfl
@[simp] theorem State.withTwOut_txBuf (s : State) (v : SMap (List TwMsg)) : (s.withTwOut v).txBuf = s.txBuf := rfl
@[simp] theorem State.withTwOut_ethTx (s : State) (v : SMap (List TwMsg)) : (s.withTwOut v).ethTx = s.ethTx := rfl
@[simp] theorem State.withTwOut_occ (s : State) (v : SMap (List TwMsg)) : (s.withTwOut v).occ = s.occ := rfl
@[simp] theorem State.withTwOut_raised (s : State) (v : SMap (List TwMsg)) : (s.withTwOut v).raised = s.raised := rfl
@[simp] theorem State.withTwOut_held (s : State) (v : SMap (List TwMsg)) : (s.withTwOut v).held = s.held := rfl
@[simp] theorem State.withTwOut_time (s : State) (v : SMap (List TwMsg)) : (s.withTwOut v).time = s.time := rfl
@[simp] theorem State.withTwOut_free (s : State) (v : SMap (List TwMsg)) : (s.withTwOut v).free = s.free := rfl
@[simp] theorem State.withTwOut_pending (s : State) (v : SMap (List TwMsg)) : (s.withTwOut v).pending = s.pending := rfl

@[simp] theorem State.withSlpWait_slpWait (s : State) (v : SMap (List SlpTx)) : (s.withSlpWait v).slpWait = v := rfl
@[simp] theorem State.withSlpWait_opt (s : State) (v : SMap (List SlpTx)) : (s.withSlpWait v).opt = s.opt := rfl
@[simp] theorem State.withSlpWait_regs (s : State) (v : SMap (List SlpTx)) : (s.withSlpWait v).regs = s.regs := rfl
@[simp] theorem State.withSlpWait_tabs (s : State) (v : SMap (List SlpTx)) : (s.withSlpWait v).tabs = s.tabs := rfl
@[simp] theorem State.withSlpWait_mem (s : State) (v : SMap (List SlpTx)) : (s.withSlpWait v).mem = s.mem := rfl
@[simp] theorem State.withSlpWait_runs (s : State) (v : SMap (List SlpTx)) : (s.withSlpWait v).runs = s.runs := rfl
@[simp] theorem State.withSlpWait_inj (s : State) (v : SMap (List SlpTx)) : (s.withSlpWait v).inj = s.inj := rfl
@[simp] theorem State.withSlpWait_fifos (s : State) (v : SMap (List SlpTx)) : (s.withSlpWait v).fifos = s.fifos := rfl
@[simp] theorem State.withSlpWait_updates (s : State) (v : SMap (List SlpTx)) : (s.withSlpWait v).updates = s.updates := rfl
@[simp] theorem State.withSlpWait_results (s : State) (v : SMap (List SlpTx)) : (s.withSlpWait v).results = s.results := rfl
@[simp] theorem State.withSlpWait_sessions (s : State) (v : SMap (List SlpTx)) : (s.withSlpWait v).sessions = s.sessions := rfl
@[simp] theorem State.withSlpWait_dir (s : State) (v : SMap (List SlpTx)) : (s.withSlpWait v).dir = s.dir := rfl
@[simp] theorem State.withSlpWait_dirCopy (s : State) (v : SMap (List SlpTx)) : (s.withSlpWait v).dirCopy = s.dirCopy := rfl
@[simp] theorem State.withSlpWait_dramQ (s : State) (v : SMap (List SlpTx)) : (s.withSlpWait v).dramQ = s.dramQ := rfl
@[simp] theorem State.withSlpWait_lineQ (s : State) (v : SMap (List SlpTx)) : (s.withSlpWait v).lineQ = s.lineQ := rfl
@[simp] theorem State.withSlpWait_bcIn (s : State) (v : SMap (List SlpTx)) : (s.withSlpWait v).bcIn = s.bcIn := rfl
@[simp] theorem State.withSlpWait_pzList (s : State) (v : SMap (List SlpTx)) : (s.withSlpWait v).pzList = s.pzList := rfl
@[simp] theorem State.withSlpWait_uses (s : State) (v : SMap (List SlpTx)) : (s.withSlpWait v).uses = s.uses := rfl
@[simp] theorem State.withSlpWait_badNodes (s : State) (v : SMap (List SlpTx)) : (s.withSlpWait v).badNodes = s.badNodes := rfl
@[simp] theorem State.withSlpWait_cores (s : State) (v : SMap (List SlpTx)) : (s.withSlpWait v).cores = s.cores := rfl
@[simp] theorem State.withSlpWait_adcFifo (s : State) (v : SMap (List SlpTx)) : (s.withSlpWait v).adcFifo = s.adcFifo := rfl
@[simp] theorem State.withSlpWait_evq (s : State) (v : SMap (List SlpTx)) : (s.withSlpWait v).evq = s.evq := rfl
@[simp] theorem State.withSlpWait_twOut (s : State) (v : SMap (List SlpTx)) : (s.withSlpWait v).twOut = s.twOut := rfl
@[simp] theorem State.withSlpWait_slpUnacked (s : State) (v : SMap (List SlpTx)) : (s.withSlpWait v).slpUnacked = s.slpUnacked := rfl
@[simp] theorem State.withSlpWait_slpHeld (s : State) (v : SMap (List SlpTx)) : (s.withSlpWait v).slpHeld = s.slpHeld := rfl
@[simp] theorem State.withSlpWait_ctrlQ (s : State) (v : SMap (List SlpTx)) : (s.withSlpWait v).ctrlQ = s.ctrlQ := rfl
@[simp] theorem State.withSlpWait_dbgQ (s : State) (v : SMap (List SlpTx)) : (s.withSlpWait v).dbgQ = s.dbgQ := rfl
@[simp] theorem State.withSlpWait_notices (s : State) (v : SMap (List SlpTx)) : (s.withSlpWait v).notices = s.notices := rfl
@[simp] theorem State.withSlpWait_slpObjs (s : State) (v : SMap (List SlpTx)) : (s.withSlpWait v).slpObjs = s.slpObjs := rfl
@[simp] theorem State.withSlpWait_rxMsgs (s : State) (v : SMap (List SlpTx)) : (s.withSlpWait v).rxMsgs = s.rxMsgs := rfl
@[simp] theorem State.withSlpWait_txBuf (s : State) (v : SMap (List SlpTx)) : (s.withSlpWait v).txBuf = s.txBuf := rfl
@[simp] theorem State.withSlpWait_ethTx (s : State) (v : SMap (List SlpTx)) : (s.withSlpWait v).ethTx = s.ethTx := rfl
@[simp] theorem State.withSlpWait_occ (s : State) (v : SMap (List SlpTx)) : (s.withSlpWait v).occ = s.occ := rfl
@[simp] theorem State.withSlpWait_raised (s : State) (v : SMap (List SlpTx)) : (s.withSlpWait v).raised = s.raised := rfl
@[simp] theorem State.withSlpWait_held (s : State) (v : SMap (List SlpTx)) : (s.withSlpWait v).held = s.held := rfl
@[simp] theorem State.withSlpWait_time (s : State) (v : SMap (List SlpTx)) : (s.withSlpWait v).time = s.time := rfl
@[simp] theorem State.withSlpWait_free (s : State) (v : SMap (List SlpTx)) : (s.withSlpWait v).free = s.free := rfl
@[simp] theorem State.withSlpWait_pending (s : State) (v : SMap (List SlpTx)) : (s.withSlpWait v).pending = s.pending := rfl

@[simp] theorem State.withSlpUnacked_slpUnacked (s : State) (v : SMap (List SlpTx)) : (s.withSlpUnacked v).slpUnacked = v := rfl
@[simp] theorem State.withSlpUnacked_opt (s : State) (v : SMap (List SlpTx)) : (s.withSlpUnacked v).opt = s.opt := rfl
@[simp] theorem State.withSlpUnacked_regs (s : State) (v : SMap (List SlpTx)) : (s.withSlpUnacked v).regs = s.regs := rfl
@[simp] theorem State.withSlpUnacked_tabs (s : State) (v : SMap (List SlpTx)) : (s.withSlpUnacked v).tabs = s.tabs := rfl
@[simp] theorem State.withSlpUnacked_mem (s : State) (v : SMap (List SlpTx)) : (s.withSlpUnacked v).mem = s.mem := rfl
@[simp] theorem State.withSlpUnacked_runs (s : State) (v : SMap (List SlpTx)) : (s.withSlpUnacked v).runs = s.runs := rfl
@[simp] theorem State.withSlpUnacked_inj (s : State) (v : SMap (List SlpTx)) : (s.withSlpUnacked v).inj = s.inj := rfl
@[simp] theorem State.withSlpUnacked_fifos (s : State) (v : SMap (List SlpTx)) : (s.withSlpUnacked v).fifos = s.fifos := rfl
@[simp] theorem State.withSlpUnacked_updates (s : State) (v : SMap (List SlpTx)) : (s.withSlpUnacked v).updates = s.updates := rfl
@[simp] theorem State.withSlpUnacked_results (s : State) (v : SMap (List SlpTx)) : (s.withSlpUnacked v).results = s.results := rfl
@[simp] theorem State.withSlpUnacked_sessions (s : State) (v : SMap (List SlpTx)) : (s.withSlpUnacked v).sessions = s.sessions := rfl
@[simp] theorem State.withSlpUnacked_dir (s : State) (v : SMap (List SlpTx)) : (s.withSlpUnacked v).dir = s.dir := rfl
@[simp] theorem State.withSlpUnacked_dirCopy (s : State) (v : SMap (List SlpTx)) : (s.withSlpUnacked v).dirCopy = s.dirCopy := rfl
@[simp] theorem State.withSlpUnacked_dramQ (s : State) (v : SMap (List SlpTx)) : (s.withSlpUnacked v).dramQ = s.dramQ := rfl
@[simp] theorem State.withSlpUnacked_lineQ (s : State) (v : SMap (List SlpTx)) : (s.withSlpUnacked v).lineQ = s.lineQ := rfl
@[simp] theorem State.withSlpUnacked_bcIn (s : State) (v : SMap (List SlpTx)) : (s.withSlpUnacked v).bcIn = s.bcIn := rfl
@[simp] theorem State.withSlpUnacked_pzList (s : State) (v : SMap (List SlpTx)) : (s.withSlpUnacked v).pzList = s.pzList := rfl
@[simp] theorem State.withSlpUnacked_uses (s : State) (v : SMap (List SlpTx)) : (s.withSlpUnacked v).uses = s.uses := rfl
@[simp] theorem State.withSlpUnacked_badNodes (s : State) (v : SMap (List SlpTx)) : (s.withSlpUnacked v).badNodes = s.badNodes := rfl
@[simp] theorem State.withSlpUnacked_cores (s : State) (v : SMap (List SlpTx)) : (s.withSlpUnacked v).cores = s.cores := rfl
@[simp] theorem State.withSlpUnacked_adcFifo (s : State) (v : SMap (List SlpTx)) : (s.withSlpUnacked v).adcFifo = s.adcFifo := rfl
@[simp] theorem State.withSlpUnacked_evq (s : State) (v : SMap (List SlpTx)) : (s.withSlpUnacked v).evq = s.evq := rfl
@[simp] theorem State.withSlpUnacked_twOut (s : State) (v : SMap (List SlpTx)) : (s.withSlpUnacked v).twOut = s.twOut := rfl
@[simp] theorem State.withSlpUnacked_slpWait (s : State) (v : SMap (List SlpTx)) : (s.withSlpUnacked v).slpWait = s.slpWait := rfl
@[simp] theorem State.withSlpUnacked_slpHeld (s : State) (v : SMap (List SlpTx)) : (s.withSlpUnacked v).slpHeld = s.slpHeld := rfl
@[simp] theorem State.withSlpUnacked_ctrlQ (s : State) (v : SMap (List SlpTx)) : (s.withSlpUnacked v).ctrlQ = s.ctrlQ := rfl
@[simp] theorem State.withSlpUnacked_dbgQ (s : State) (v : SMap (List SlpTx)) : (s.withSlpUnacked v).dbgQ = s.dbgQ := rfl
@[simp] theorem State.withSlpUnacked_notices (s : State) (v : SMap (List SlpTx)) : (s.withSlpUnacked v).notices = s.notices := rfl
@[simp] theorem State.withSlpUnacked_slpObjs (s : State) (v : SMap (List SlpTx)) : (s.withSlpUnacked v).slpObjs = s.slpObjs := rfl
@[simp] theorem State.withSlpUnacked_rxMsgs (s : State) (v : SMap (List SlpTx)) : (s.withSlpUnacked v).rxMsgs = s.rxMsgs := rfl
@[simp] theorem State.withSlpUnacked_txBuf (s : State) (v : SMap (List SlpTx)) : (s.withSlpUnacked v).txBuf = s.txBuf := rfl
@[simp] theorem State.withSlpUnacked_ethTx (s : State) (v : SMap (List SlpTx)) : (s.withSlpUnacked v).ethTx = s.ethTx := rfl
@[simp] theorem State.withSlpUnacked_occ (s : State) (v : SMap (List SlpTx)) : (s.withSlpUnacked v).occ = s.occ := rfl
@[simp] theorem State.withSlpUnacked_raised (s : State) (v : SMap (List SlpTx)) : (s.withSlpUnacked v).raised = s.raised := rfl
@[simp] theorem State.withSlpUnacked_held (s : State) (v : SMap (List SlpTx)) : (s.withSlpUnacked v).held = s.held := rfl
@[simp] theorem State.withSlpUnacked_time (s : State) (v : SMap (List SlpTx)) : (s.withSlpUnacked v).time = s.time := rfl
@[simp] theorem State.withSlpUnacked_free (s : State) (v : SMap (List SlpTx)) : (s.withSlpUnacked v).free = s.free := rfl
@[simp] theorem State.withSlpUnacked_pending (s : State) (v : SMap (List SlpTx)) : (s.withSlpUnacked v).pending = s.pending := rfl

@[simp] theorem State.withSlpHeld_slpHeld (s : State) (v : SMap (List SlpHeld)) : (s.withSlpHeld v).slpHeld = v := rfl
@[simp] theorem State.withSlpHeld_opt (s : State) (v : SMap (List SlpHeld)) : (s.withSlpHeld v).opt = s.opt := rfl
@[simp] theorem State.withSlpHeld_regs (s : State) (v : SMap (List SlpHeld)) : (s.withSlpHeld v).regs = s.regs := rfl
@[simp] theorem State.withSlpHeld_tabs (s : State) (v : SMap (List SlpHeld)) : (s.withSlpHeld v).tabs = s.tabs := rfl
@[simp] theorem State.withSlpHeld_mem (s : State) (v : SMap (List SlpHeld)) : (s.withSlpHeld v).mem = s.mem := rfl
@[simp] theorem State.withSlpHeld_runs (s : State) (v : SMap (List SlpHeld)) : (s.withSlpHeld v).runs = s.runs := rfl
@[simp] theorem State.withSlpHeld_inj (s : State) (v : SMap (List SlpHeld)) : (s.withSlpHeld v).inj = s.inj := rfl
@[simp] theorem State.withSlpHeld_fifos (s : State) (v : SMap (List SlpHeld)) : (s.withSlpHeld v).fifos = s.fifos := rfl
@[simp] theorem State.withSlpHeld_updates (s : State) (v : SMap (List SlpHeld)) : (s.withSlpHeld v).updates = s.updates := rfl
@[simp] theorem State.withSlpHeld_results (s : State) (v : SMap (List SlpHeld)) : (s.withSlpHeld v).results = s.results := rfl
@[simp] theorem State.withSlpHeld_sessions (s : State) (v : SMap (List SlpHeld)) : (s.withSlpHeld v).sessions = s.sessions := rfl
@[simp] theorem State.withSlpHeld_dir (s : State) (v : SMap (List SlpHeld)) : (s.withSlpHeld v).dir = s.dir := rfl
@[simp] theorem State.withSlpHeld_dirCopy (s : State) (v : SMap (List SlpHeld)) : (s.withSlpHeld v).dirCopy = s.dirCopy := rfl
@[simp] theorem State.withSlpHeld_dramQ (s : State) (v : SMap (List SlpHeld)) : (s.withSlpHeld v).dramQ = s.dramQ := rfl
@[simp] theorem State.withSlpHeld_lineQ (s : State) (v : SMap (List SlpHeld)) : (s.withSlpHeld v).lineQ = s.lineQ := rfl
@[simp] theorem State.withSlpHeld_bcIn (s : State) (v : SMap (List SlpHeld)) : (s.withSlpHeld v).bcIn = s.bcIn := rfl
@[simp] theorem State.withSlpHeld_pzList (s : State) (v : SMap (List SlpHeld)) : (s.withSlpHeld v).pzList = s.pzList := rfl
@[simp] theorem State.withSlpHeld_uses (s : State) (v : SMap (List SlpHeld)) : (s.withSlpHeld v).uses = s.uses := rfl
@[simp] theorem State.withSlpHeld_badNodes (s : State) (v : SMap (List SlpHeld)) : (s.withSlpHeld v).badNodes = s.badNodes := rfl
@[simp] theorem State.withSlpHeld_cores (s : State) (v : SMap (List SlpHeld)) : (s.withSlpHeld v).cores = s.cores := rfl
@[simp] theorem State.withSlpHeld_adcFifo (s : State) (v : SMap (List SlpHeld)) : (s.withSlpHeld v).adcFifo = s.adcFifo := rfl
@[simp] theorem State.withSlpHeld_evq (s : State) (v : SMap (List SlpHeld)) : (s.withSlpHeld v).evq = s.evq := rfl
@[simp] theorem State.withSlpHeld_twOut (s : State) (v : SMap (List SlpHeld)) : (s.withSlpHeld v).twOut = s.twOut := rfl
@[simp] theorem State.withSlpHeld_slpWait (s : State) (v : SMap (List SlpHeld)) : (s.withSlpHeld v).slpWait = s.slpWait := rfl
@[simp] theorem State.withSlpHeld_slpUnacked (s : State) (v : SMap (List SlpHeld)) : (s.withSlpHeld v).slpUnacked = s.slpUnacked := rfl
@[simp] theorem State.withSlpHeld_ctrlQ (s : State) (v : SMap (List SlpHeld)) : (s.withSlpHeld v).ctrlQ = s.ctrlQ := rfl
@[simp] theorem State.withSlpHeld_dbgQ (s : State) (v : SMap (List SlpHeld)) : (s.withSlpHeld v).dbgQ = s.dbgQ := rfl
@[simp] theorem State.withSlpHeld_notices (s : State) (v : SMap (List SlpHeld)) : (s.withSlpHeld v).notices = s.notices := rfl
@[simp] theorem State.withSlpHeld_slpObjs (s : State) (v : SMap (List SlpHeld)) : (s.withSlpHeld v).slpObjs = s.slpObjs := rfl
@[simp] theorem State.withSlpHeld_rxMsgs (s : State) (v : SMap (List SlpHeld)) : (s.withSlpHeld v).rxMsgs = s.rxMsgs := rfl
@[simp] theorem State.withSlpHeld_txBuf (s : State) (v : SMap (List SlpHeld)) : (s.withSlpHeld v).txBuf = s.txBuf := rfl
@[simp] theorem State.withSlpHeld_ethTx (s : State) (v : SMap (List SlpHeld)) : (s.withSlpHeld v).ethTx = s.ethTx := rfl
@[simp] theorem State.withSlpHeld_occ (s : State) (v : SMap (List SlpHeld)) : (s.withSlpHeld v).occ = s.occ := rfl
@[simp] theorem State.withSlpHeld_raised (s : State) (v : SMap (List SlpHeld)) : (s.withSlpHeld v).raised = s.raised := rfl
@[simp] theorem State.withSlpHeld_held (s : State) (v : SMap (List SlpHeld)) : (s.withSlpHeld v).held = s.held := rfl
@[simp] theorem State.withSlpHeld_time (s : State) (v : SMap (List SlpHeld)) : (s.withSlpHeld v).time = s.time := rfl
@[simp] theorem State.withSlpHeld_free (s : State) (v : SMap (List SlpHeld)) : (s.withSlpHeld v).free = s.free := rfl
@[simp] theorem State.withSlpHeld_pending (s : State) (v : SMap (List SlpHeld)) : (s.withSlpHeld v).pending = s.pending := rfl

@[simp] theorem State.withCtrlQ_ctrlQ (s : State) (v : List SlpMsg) : (s.withCtrlQ v).ctrlQ = v := rfl
@[simp] theorem State.withCtrlQ_opt (s : State) (v : List SlpMsg) : (s.withCtrlQ v).opt = s.opt := rfl
@[simp] theorem State.withCtrlQ_regs (s : State) (v : List SlpMsg) : (s.withCtrlQ v).regs = s.regs := rfl
@[simp] theorem State.withCtrlQ_tabs (s : State) (v : List SlpMsg) : (s.withCtrlQ v).tabs = s.tabs := rfl
@[simp] theorem State.withCtrlQ_mem (s : State) (v : List SlpMsg) : (s.withCtrlQ v).mem = s.mem := rfl
@[simp] theorem State.withCtrlQ_runs (s : State) (v : List SlpMsg) : (s.withCtrlQ v).runs = s.runs := rfl
@[simp] theorem State.withCtrlQ_inj (s : State) (v : List SlpMsg) : (s.withCtrlQ v).inj = s.inj := rfl
@[simp] theorem State.withCtrlQ_fifos (s : State) (v : List SlpMsg) : (s.withCtrlQ v).fifos = s.fifos := rfl
@[simp] theorem State.withCtrlQ_updates (s : State) (v : List SlpMsg) : (s.withCtrlQ v).updates = s.updates := rfl
@[simp] theorem State.withCtrlQ_results (s : State) (v : List SlpMsg) : (s.withCtrlQ v).results = s.results := rfl
@[simp] theorem State.withCtrlQ_sessions (s : State) (v : List SlpMsg) : (s.withCtrlQ v).sessions = s.sessions := rfl
@[simp] theorem State.withCtrlQ_dir (s : State) (v : List SlpMsg) : (s.withCtrlQ v).dir = s.dir := rfl
@[simp] theorem State.withCtrlQ_dirCopy (s : State) (v : List SlpMsg) : (s.withCtrlQ v).dirCopy = s.dirCopy := rfl
@[simp] theorem State.withCtrlQ_dramQ (s : State) (v : List SlpMsg) : (s.withCtrlQ v).dramQ = s.dramQ := rfl
@[simp] theorem State.withCtrlQ_lineQ (s : State) (v : List SlpMsg) : (s.withCtrlQ v).lineQ = s.lineQ := rfl
@[simp] theorem State.withCtrlQ_bcIn (s : State) (v : List SlpMsg) : (s.withCtrlQ v).bcIn = s.bcIn := rfl
@[simp] theorem State.withCtrlQ_pzList (s : State) (v : List SlpMsg) : (s.withCtrlQ v).pzList = s.pzList := rfl
@[simp] theorem State.withCtrlQ_uses (s : State) (v : List SlpMsg) : (s.withCtrlQ v).uses = s.uses := rfl
@[simp] theorem State.withCtrlQ_badNodes (s : State) (v : List SlpMsg) : (s.withCtrlQ v).badNodes = s.badNodes := rfl
@[simp] theorem State.withCtrlQ_cores (s : State) (v : List SlpMsg) : (s.withCtrlQ v).cores = s.cores := rfl
@[simp] theorem State.withCtrlQ_adcFifo (s : State) (v : List SlpMsg) : (s.withCtrlQ v).adcFifo = s.adcFifo := rfl
@[simp] theorem State.withCtrlQ_evq (s : State) (v : List SlpMsg) : (s.withCtrlQ v).evq = s.evq := rfl
@[simp] theorem State.withCtrlQ_twOut (s : State) (v : List SlpMsg) : (s.withCtrlQ v).twOut = s.twOut := rfl
@[simp] theorem State.withCtrlQ_slpWait (s : State) (v : List SlpMsg) : (s.withCtrlQ v).slpWait = s.slpWait := rfl
@[simp] theorem State.withCtrlQ_slpUnacked (s : State) (v : List SlpMsg) : (s.withCtrlQ v).slpUnacked = s.slpUnacked := rfl
@[simp] theorem State.withCtrlQ_slpHeld (s : State) (v : List SlpMsg) : (s.withCtrlQ v).slpHeld = s.slpHeld := rfl
@[simp] theorem State.withCtrlQ_dbgQ (s : State) (v : List SlpMsg) : (s.withCtrlQ v).dbgQ = s.dbgQ := rfl
@[simp] theorem State.withCtrlQ_notices (s : State) (v : List SlpMsg) : (s.withCtrlQ v).notices = s.notices := rfl
@[simp] theorem State.withCtrlQ_slpObjs (s : State) (v : List SlpMsg) : (s.withCtrlQ v).slpObjs = s.slpObjs := rfl
@[simp] theorem State.withCtrlQ_rxMsgs (s : State) (v : List SlpMsg) : (s.withCtrlQ v).rxMsgs = s.rxMsgs := rfl
@[simp] theorem State.withCtrlQ_txBuf (s : State) (v : List SlpMsg) : (s.withCtrlQ v).txBuf = s.txBuf := rfl
@[simp] theorem State.withCtrlQ_ethTx (s : State) (v : List SlpMsg) : (s.withCtrlQ v).ethTx = s.ethTx := rfl
@[simp] theorem State.withCtrlQ_occ (s : State) (v : List SlpMsg) : (s.withCtrlQ v).occ = s.occ := rfl
@[simp] theorem State.withCtrlQ_raised (s : State) (v : List SlpMsg) : (s.withCtrlQ v).raised = s.raised := rfl
@[simp] theorem State.withCtrlQ_held (s : State) (v : List SlpMsg) : (s.withCtrlQ v).held = s.held := rfl
@[simp] theorem State.withCtrlQ_time (s : State) (v : List SlpMsg) : (s.withCtrlQ v).time = s.time := rfl
@[simp] theorem State.withCtrlQ_free (s : State) (v : List SlpMsg) : (s.withCtrlQ v).free = s.free := rfl
@[simp] theorem State.withCtrlQ_pending (s : State) (v : List SlpMsg) : (s.withCtrlQ v).pending = s.pending := rfl

@[simp] theorem State.withDbgQ_dbgQ (s : State) (v : List (Word × List CsrEntry)) : (s.withDbgQ v).dbgQ = v := rfl
@[simp] theorem State.withDbgQ_opt (s : State) (v : List (Word × List CsrEntry)) : (s.withDbgQ v).opt = s.opt := rfl
@[simp] theorem State.withDbgQ_regs (s : State) (v : List (Word × List CsrEntry)) : (s.withDbgQ v).regs = s.regs := rfl
@[simp] theorem State.withDbgQ_tabs (s : State) (v : List (Word × List CsrEntry)) : (s.withDbgQ v).tabs = s.tabs := rfl
@[simp] theorem State.withDbgQ_mem (s : State) (v : List (Word × List CsrEntry)) : (s.withDbgQ v).mem = s.mem := rfl
@[simp] theorem State.withDbgQ_runs (s : State) (v : List (Word × List CsrEntry)) : (s.withDbgQ v).runs = s.runs := rfl
@[simp] theorem State.withDbgQ_inj (s : State) (v : List (Word × List CsrEntry)) : (s.withDbgQ v).inj = s.inj := rfl
@[simp] theorem State.withDbgQ_fifos (s : State) (v : List (Word × List CsrEntry)) : (s.withDbgQ v).fifos = s.fifos := rfl
@[simp] theorem State.withDbgQ_updates (s : State) (v : List (Word × List CsrEntry)) : (s.withDbgQ v).updates = s.updates := rfl
@[simp] theorem State.withDbgQ_results (s : State) (v : List (Word × List CsrEntry)) : (s.withDbgQ v).results = s.results := rfl
@[simp] theorem State.withDbgQ_sessions (s : State) (v : List (Word × List CsrEntry)) : (s.withDbgQ v).sessions = s.sessions := rfl
@[simp] theorem State.withDbgQ_dir (s : State) (v : List (Word × List CsrEntry)) : (s.withDbgQ v).dir = s.dir := rfl
@[simp] theorem State.withDbgQ_dirCopy (s : State) (v : List (Word × List CsrEntry)) : (s.withDbgQ v).dirCopy = s.dirCopy := rfl
@[simp] theorem State.withDbgQ_dramQ (s : State) (v : List (Word × List CsrEntry)) : (s.withDbgQ v).dramQ = s.dramQ := rfl
@[simp] theorem State.withDbgQ_lineQ (s : State) (v : List (Word × List CsrEntry)) : (s.withDbgQ v).lineQ = s.lineQ := rfl
@[simp] theorem State.withDbgQ_bcIn (s : State) (v : List (Word × List CsrEntry)) : (s.withDbgQ v).bcIn = s.bcIn := rfl
@[simp] theorem State.withDbgQ_pzList (s : State) (v : List (Word × List CsrEntry)) : (s.withDbgQ v).pzList = s.pzList := rfl
@[simp] theorem State.withDbgQ_uses (s : State) (v : List (Word × List CsrEntry)) : (s.withDbgQ v).uses = s.uses := rfl
@[simp] theorem State.withDbgQ_badNodes (s : State) (v : List (Word × List CsrEntry)) : (s.withDbgQ v).badNodes = s.badNodes := rfl
@[simp] theorem State.withDbgQ_cores (s : State) (v : List (Word × List CsrEntry)) : (s.withDbgQ v).cores = s.cores := rfl
@[simp] theorem State.withDbgQ_adcFifo (s : State) (v : List (Word × List CsrEntry)) : (s.withDbgQ v).adcFifo = s.adcFifo := rfl
@[simp] theorem State.withDbgQ_evq (s : State) (v : List (Word × List CsrEntry)) : (s.withDbgQ v).evq = s.evq := rfl
@[simp] theorem State.withDbgQ_twOut (s : State) (v : List (Word × List CsrEntry)) : (s.withDbgQ v).twOut = s.twOut := rfl
@[simp] theorem State.withDbgQ_slpWait (s : State) (v : List (Word × List CsrEntry)) : (s.withDbgQ v).slpWait = s.slpWait := rfl
@[simp] theorem State.withDbgQ_slpUnacked (s : State) (v : List (Word × List CsrEntry)) : (s.withDbgQ v).slpUnacked = s.slpUnacked := rfl
@[simp] theorem State.withDbgQ_slpHeld (s : State) (v : List (Word × List CsrEntry)) : (s.withDbgQ v).slpHeld = s.slpHeld := rfl
@[simp] theorem State.withDbgQ_ctrlQ (s : State) (v : List (Word × List CsrEntry)) : (s.withDbgQ v).ctrlQ = s.ctrlQ := rfl
@[simp] theorem State.withDbgQ_notices (s : State) (v : List (Word × List CsrEntry)) : (s.withDbgQ v).notices = s.notices := rfl
@[simp] theorem State.withDbgQ_slpObjs (s : State) (v : List (Word × List CsrEntry)) : (s.withDbgQ v).slpObjs = s.slpObjs := rfl
@[simp] theorem State.withDbgQ_rxMsgs (s : State) (v : List (Word × List CsrEntry)) : (s.withDbgQ v).rxMsgs = s.rxMsgs := rfl
@[simp] theorem State.withDbgQ_txBuf (s : State) (v : List (Word × List CsrEntry)) : (s.withDbgQ v).txBuf = s.txBuf := rfl
@[simp] theorem State.withDbgQ_ethTx (s : State) (v : List (Word × List CsrEntry)) : (s.withDbgQ v).ethTx = s.ethTx := rfl
@[simp] theorem State.withDbgQ_occ (s : State) (v : List (Word × List CsrEntry)) : (s.withDbgQ v).occ = s.occ := rfl
@[simp] theorem State.withDbgQ_raised (s : State) (v : List (Word × List CsrEntry)) : (s.withDbgQ v).raised = s.raised := rfl
@[simp] theorem State.withDbgQ_held (s : State) (v : List (Word × List CsrEntry)) : (s.withDbgQ v).held = s.held := rfl
@[simp] theorem State.withDbgQ_time (s : State) (v : List (Word × List CsrEntry)) : (s.withDbgQ v).time = s.time := rfl
@[simp] theorem State.withDbgQ_free (s : State) (v : List (Word × List CsrEntry)) : (s.withDbgQ v).free = s.free := rfl
@[simp] theorem State.withDbgQ_pending (s : State) (v : List (Word × List CsrEntry)) : (s.withDbgQ v).pending = s.pending := rfl

@[simp] theorem State.withNotices_notices (s : State) (v : List Notice) : (s.withNotices v).notices = v := rfl
@[simp] theorem State.withNotices_opt (s : State) (v : List Notice) : (s.withNotices v).opt = s.opt := rfl
@[simp] theorem State.withNotices_regs (s : State) (v : List Notice) : (s.withNotices v).regs = s.regs := rfl
@[simp] theorem State.withNotices_tabs (s : State) (v : List Notice) : (s.withNotices v).tabs = s.tabs := rfl
@[simp] theorem State.withNotices_mem (s : State) (v : List Notice) : (s.withNotices v).mem = s.mem := rfl
@[simp] theorem State.withNotices_runs (s : State) (v : List Notice) : (s.withNotices v).runs = s.runs := rfl
@[simp] theorem State.withNotices_inj (s : State) (v : List Notice) : (s.withNotices v).inj = s.inj := rfl
@[simp] theorem State.withNotices_fifos (s : State) (v : List Notice) : (s.withNotices v).fifos = s.fifos := rfl
@[simp] theorem State.withNotices_updates (s : State) (v : List Notice) : (s.withNotices v).updates = s.updates := rfl
@[simp] theorem State.withNotices_results (s : State) (v : List Notice) : (s.withNotices v).results = s.results := rfl
@[simp] theorem State.withNotices_sessions (s : State) (v : List Notice) : (s.withNotices v).sessions = s.sessions := rfl
@[simp] theorem State.withNotices_dir (s : State) (v : List Notice) : (s.withNotices v).dir = s.dir := rfl
@[simp] theorem State.withNotices_dirCopy (s : State) (v : List Notice) : (s.withNotices v).dirCopy = s.dirCopy := rfl
@[simp] theorem State.withNotices_dramQ (s : State) (v : List Notice) : (s.withNotices v).dramQ = s.dramQ := rfl
@[simp] theorem State.withNotices_lineQ (s : State) (v : List Notice) : (s.withNotices v).lineQ = s.lineQ := rfl
@[simp] theorem State.withNotices_bcIn (s : State) (v : List Notice) : (s.withNotices v).bcIn = s.bcIn := rfl
@[simp] theorem State.withNotices_pzList (s : State) (v : List Notice) : (s.withNotices v).pzList = s.pzList := rfl
@[simp] theorem State.withNotices_uses (s : State) (v : List Notice) : (s.withNotices v).uses = s.uses := rfl
@[simp] theorem State.withNotices_badNodes (s : State) (v : List Notice) : (s.withNotices v).badNodes = s.badNodes := rfl
@[simp] theorem State.withNotices_cores (s : State) (v : List Notice) : (s.withNotices v).cores = s.cores := rfl
@[simp] theorem State.withNotices_adcFifo (s : State) (v : List Notice) : (s.withNotices v).adcFifo = s.adcFifo := rfl
@[simp] theorem State.withNotices_evq (s : State) (v : List Notice) : (s.withNotices v).evq = s.evq := rfl
@[simp] theorem State.withNotices_twOut (s : State) (v : List Notice) : (s.withNotices v).twOut = s.twOut := rfl
@[simp] theorem State.withNotices_slpWait (s : State) (v : List Notice) : (s.withNotices v).slpWait = s.slpWait := rfl
@[simp] theorem State.withNotices_slpUnacked (s : State) (v : List Notice) : (s.withNotices v).slpUnacked = s.slpUnacked := rfl
@[simp] theorem State.withNotices_slpHeld (s : State) (v : List Notice) : (s.withNotices v).slpHeld = s.slpHeld := rfl
@[simp] theorem State.withNotices_ctrlQ (s : State) (v : List Notice) : (s.withNotices v).ctrlQ = s.ctrlQ := rfl
@[simp] theorem State.withNotices_dbgQ (s : State) (v : List Notice) : (s.withNotices v).dbgQ = s.dbgQ := rfl
@[simp] theorem State.withNotices_slpObjs (s : State) (v : List Notice) : (s.withNotices v).slpObjs = s.slpObjs := rfl
@[simp] theorem State.withNotices_rxMsgs (s : State) (v : List Notice) : (s.withNotices v).rxMsgs = s.rxMsgs := rfl
@[simp] theorem State.withNotices_txBuf (s : State) (v : List Notice) : (s.withNotices v).txBuf = s.txBuf := rfl
@[simp] theorem State.withNotices_ethTx (s : State) (v : List Notice) : (s.withNotices v).ethTx = s.ethTx := rfl
@[simp] theorem State.withNotices_occ (s : State) (v : List Notice) : (s.withNotices v).occ = s.occ := rfl
@[simp] theorem State.withNotices_raised (s : State) (v : List Notice) : (s.withNotices v).raised = s.raised := rfl
@[simp] theorem State.withNotices_held (s : State) (v : List Notice) : (s.withNotices v).held = s.held := rfl
@[simp] theorem State.withNotices_time (s : State) (v : List Notice) : (s.withNotices v).time = s.time := rfl
@[simp] theorem State.withNotices_free (s : State) (v : List Notice) : (s.withNotices v).free = s.free := rfl
@[simp] theorem State.withNotices_pending (s : State) (v : List Notice) : (s.withNotices v).pending = s.pending := rfl

@[simp] theorem State.withSlpObjs_slpObjs (s : State) (v : List Nat) : (s.withSlpObjs v).slpObjs = v := rfl
@[simp] theorem State.withSlpObjs_opt (s : State) (v : List Nat) : (s.withSlpObjs v).opt = s.opt := rfl
@[simp] theorem State.withSlpObjs_regs (s : State) (v : List Nat) : (s.withSlpObjs v).regs = s.regs := rfl
@[simp] theorem State.withSlpObjs_tabs (s : State) (v : List Nat) : (s.withSlpObjs v).tabs = s.tabs := rfl
@[simp] theorem State.withSlpObjs_mem (s : State) (v : List Nat) : (s.withSlpObjs v).mem = s.mem := rfl
@[simp] theorem State.withSlpObjs_runs (s : State) (v : List Nat) : (s.withSlpObjs v).runs = s.runs := rfl
@[simp] theorem State.withSlpObjs_inj (s : State) (v : List Nat) : (s.withSlpObjs v).inj = s.inj := rfl
@[simp] theorem State.withSlpObjs_fifos (s : State) (v : List Nat) : (s.withSlpObjs v).fifos = s.fifos := rfl
@[simp] theorem State.withSlpObjs_updates (s : State) (v : List Nat) : (s.withSlpObjs v).updates = s.updates := rfl
@[simp] theorem State.withSlpObjs_results (s : State) (v : List Nat) : (s.withSlpObjs v).results = s.results := rfl
@[simp] theorem State.withSlpObjs_sessions (s : State) (v : List Nat) : (s.withSlpObjs v).sessions = s.sessions := rfl
@[simp] theorem State.withSlpObjs_dir (s : State) (v : List Nat) : (s.withSlpObjs v).dir = s.dir := rfl
@[simp] theorem State.withSlpObjs_dirCopy (s : State) (v : List Nat) : (s.withSlpObjs v).dirCopy = s.dirCopy := rfl
@[simp] theorem State.withSlpObjs_dramQ (s : State) (v : List Nat) : (s.withSlpObjs v).dramQ = s.dramQ := rfl
@[simp] theorem State.withSlpObjs_lineQ (s : State) (v : List Nat) : (s.withSlpObjs v).lineQ = s.lineQ := rfl
@[simp] theorem State.withSlpObjs_bcIn (s : State) (v : List Nat) : (s.withSlpObjs v).bcIn = s.bcIn := rfl
@[simp] theorem State.withSlpObjs_pzList (s : State) (v : List Nat) : (s.withSlpObjs v).pzList = s.pzList := rfl
@[simp] theorem State.withSlpObjs_uses (s : State) (v : List Nat) : (s.withSlpObjs v).uses = s.uses := rfl
@[simp] theorem State.withSlpObjs_badNodes (s : State) (v : List Nat) : (s.withSlpObjs v).badNodes = s.badNodes := rfl
@[simp] theorem State.withSlpObjs_cores (s : State) (v : List Nat) : (s.withSlpObjs v).cores = s.cores := rfl
@[simp] theorem State.withSlpObjs_adcFifo (s : State) (v : List Nat) : (s.withSlpObjs v).adcFifo = s.adcFifo := rfl
@[simp] theorem State.withSlpObjs_evq (s : State) (v : List Nat) : (s.withSlpObjs v).evq = s.evq := rfl
@[simp] theorem State.withSlpObjs_twOut (s : State) (v : List Nat) : (s.withSlpObjs v).twOut = s.twOut := rfl
@[simp] theorem State.withSlpObjs_slpWait (s : State) (v : List Nat) : (s.withSlpObjs v).slpWait = s.slpWait := rfl
@[simp] theorem State.withSlpObjs_slpUnacked (s : State) (v : List Nat) : (s.withSlpObjs v).slpUnacked = s.slpUnacked := rfl
@[simp] theorem State.withSlpObjs_slpHeld (s : State) (v : List Nat) : (s.withSlpObjs v).slpHeld = s.slpHeld := rfl
@[simp] theorem State.withSlpObjs_ctrlQ (s : State) (v : List Nat) : (s.withSlpObjs v).ctrlQ = s.ctrlQ := rfl
@[simp] theorem State.withSlpObjs_dbgQ (s : State) (v : List Nat) : (s.withSlpObjs v).dbgQ = s.dbgQ := rfl
@[simp] theorem State.withSlpObjs_notices (s : State) (v : List Nat) : (s.withSlpObjs v).notices = s.notices := rfl
@[simp] theorem State.withSlpObjs_rxMsgs (s : State) (v : List Nat) : (s.withSlpObjs v).rxMsgs = s.rxMsgs := rfl
@[simp] theorem State.withSlpObjs_txBuf (s : State) (v : List Nat) : (s.withSlpObjs v).txBuf = s.txBuf := rfl
@[simp] theorem State.withSlpObjs_ethTx (s : State) (v : List Nat) : (s.withSlpObjs v).ethTx = s.ethTx := rfl
@[simp] theorem State.withSlpObjs_occ (s : State) (v : List Nat) : (s.withSlpObjs v).occ = s.occ := rfl
@[simp] theorem State.withSlpObjs_raised (s : State) (v : List Nat) : (s.withSlpObjs v).raised = s.raised := rfl
@[simp] theorem State.withSlpObjs_held (s : State) (v : List Nat) : (s.withSlpObjs v).held = s.held := rfl
@[simp] theorem State.withSlpObjs_time (s : State) (v : List Nat) : (s.withSlpObjs v).time = s.time := rfl
@[simp] theorem State.withSlpObjs_free (s : State) (v : List Nat) : (s.withSlpObjs v).free = s.free := rfl
@[simp] theorem State.withSlpObjs_pending (s : State) (v : List Nat) : (s.withSlpObjs v).pending = s.pending := rfl

@[simp] theorem State.withRxMsgs_rxMsgs (s : State) (v : SMap (List FlowMsg)) : (s.withRxMsgs v).rxMsgs = v := rfl
@[simp] theorem State.withRxMsgs_opt (s : State) (v : SMap (List FlowMsg)) : (s.withRxMsgs v).opt = s.opt := rfl
@[simp] theorem State.withRxMsgs_regs (s : State) (v : SMap (List FlowMsg)) : (s.withRxMsgs v).regs = s.regs := rfl
@[simp] theorem State.withRxMsgs_tabs (s : State) (v : SMap (List FlowMsg)) : (s.withRxMsgs v).tabs = s.tabs := rfl
@[simp] theorem State.withRxMsgs_mem (s : State) (v : SMap (List FlowMsg)) : (s.withRxMsgs v).mem = s.mem := rfl
@[simp] theorem State.withRxMsgs_runs (s : State) (v : SMap (List FlowMsg)) : (s.withRxMsgs v).runs = s.runs := rfl
@[simp] theorem State.withRxMsgs_inj (s : State) (v : SMap (List FlowMsg)) : (s.withRxMsgs v).inj = s.inj := rfl
@[simp] theorem State.withRxMsgs_fifos (s : State) (v : SMap (List FlowMsg)) : (s.withRxMsgs v).fifos = s.fifos := rfl
@[simp] theorem State.withRxMsgs_updates (s : State) (v : SMap (List FlowMsg)) : (s.withRxMsgs v).updates = s.updates := rfl
@[simp] theorem State.withRxMsgs_results (s : State) (v : SMap (List FlowMsg)) : (s.withRxMsgs v).results = s.results := rfl
@[simp] theorem State.withRxMsgs_sessions (s : State) (v : SMap (List FlowMsg)) : (s.withRxMsgs v).sessions = s.sessions := rfl
@[simp] theorem State.withRxMsgs_dir (s : State) (v : SMap (List FlowMsg)) : (s.withRxMsgs v).dir = s.dir := rfl
@[simp] theorem State.withRxMsgs_dirCopy (s : State) (v : SMap (List FlowMsg)) : (s.withRxMsgs v).dirCopy = s.dirCopy := rfl
@[simp] theorem State.withRxMsgs_dramQ (s : State) (v : SMap (List FlowMsg)) : (s.withRxMsgs v).dramQ = s.dramQ := rfl
@[simp] theorem State.withRxMsgs_lineQ (s : State) (v : SMap (List FlowMsg)) : (s.withRxMsgs v).lineQ = s.lineQ := rfl
@[simp] theorem State.withRxMsgs_bcIn (s : State) (v : SMap (List FlowMsg)) : (s.withRxMsgs v).bcIn = s.bcIn := rfl
@[simp] theorem State.withRxMsgs_pzList (s : State) (v : SMap (List FlowMsg)) : (s.withRxMsgs v).pzList = s.pzList := rfl
@[simp] theorem State.withRxMsgs_uses (s : State) (v : SMap (List FlowMsg)) : (s.withRxMsgs v).uses = s.uses := rfl
@[simp] theorem State.withRxMsgs_badNodes (s : State) (v : SMap (List FlowMsg)) : (s.withRxMsgs v).badNodes = s.badNodes := rfl
@[simp] theorem State.withRxMsgs_cores (s : State) (v : SMap (List FlowMsg)) : (s.withRxMsgs v).cores = s.cores := rfl
@[simp] theorem State.withRxMsgs_adcFifo (s : State) (v : SMap (List FlowMsg)) : (s.withRxMsgs v).adcFifo = s.adcFifo := rfl
@[simp] theorem State.withRxMsgs_evq (s : State) (v : SMap (List FlowMsg)) : (s.withRxMsgs v).evq = s.evq := rfl
@[simp] theorem State.withRxMsgs_twOut (s : State) (v : SMap (List FlowMsg)) : (s.withRxMsgs v).twOut = s.twOut := rfl
@[simp] theorem State.withRxMsgs_slpWait (s : State) (v : SMap (List FlowMsg)) : (s.withRxMsgs v).slpWait = s.slpWait := rfl
@[simp] theorem State.withRxMsgs_slpUnacked (s : State) (v : SMap (List FlowMsg)) : (s.withRxMsgs v).slpUnacked = s.slpUnacked := rfl
@[simp] theorem State.withRxMsgs_slpHeld (s : State) (v : SMap (List FlowMsg)) : (s.withRxMsgs v).slpHeld = s.slpHeld := rfl
@[simp] theorem State.withRxMsgs_ctrlQ (s : State) (v : SMap (List FlowMsg)) : (s.withRxMsgs v).ctrlQ = s.ctrlQ := rfl
@[simp] theorem State.withRxMsgs_dbgQ (s : State) (v : SMap (List FlowMsg)) : (s.withRxMsgs v).dbgQ = s.dbgQ := rfl
@[simp] theorem State.withRxMsgs_notices (s : State) (v : SMap (List FlowMsg)) : (s.withRxMsgs v).notices = s.notices := rfl
@[simp] theorem State.withRxMsgs_slpObjs (s : State) (v : SMap (List FlowMsg)) : (s.withRxMsgs v).slpObjs = s.slpObjs := rfl
@[simp] theorem State.withRxMsgs_txBuf (s : State) (v : SMap (List FlowMsg)) : (s.withRxMsgs v).txBuf = s.txBuf := rfl
@[simp] theorem State.withRxMsgs_ethTx (s : State) (v : SMap (List FlowMsg)) : (s.withRxMsgs v).ethTx = s.ethTx := rfl
@[simp] theorem State.withRxMsgs_occ (s : State) (v : SMap (List FlowMsg)) : (s.withRxMsgs v).occ = s.occ := rfl
@[simp] theorem State.withRxMsgs_raised (s : State) (v : SMap (List FlowMsg)) : (s.withRxMsgs v).raised = s.raised := rfl
@[simp] theorem State.withRxMsgs_held (s : State) (v : SMap (List FlowMsg)) : (s.withRxMsgs v).held = s.held := rfl
@[simp] theorem State.withRxMsgs_time (s : State) (v : SMap (List FlowMsg)) : (s.withRxMsgs v).time = s.time := rfl
@[simp] theorem State.withRxMsgs_free (s : State) (v : SMap (List FlowMsg)) : (s.withRxMsgs v).free = s.free := rfl
@[simp] theorem State.withRxMsgs_pending (s : State) (v : SMap (List FlowMsg)) : (s.withRxMsgs v).pending = s.pending := rfl

@[simp] theorem State.withTxBuf_txBuf (s : State) (v : SMap (List Nat)) : (s.withTxBuf v).txBuf = v := rfl
@[simp] theorem State.withTxBuf_opt (s : State) (v : SMap (List Nat)) : (s.withTxBuf v).opt = s.opt := rfl
@[simp] theorem State.withTxBuf_regs (s : State) (v : SMap (List Nat)) : (s.withTxBuf v).regs = s.regs := rfl
@[simp] theorem State.withTxBuf_tabs (s : State) (v : SMap (List Nat)) : (s.withTxBuf v).tabs = s.tabs := rfl
@[simp] theorem State.withTxBuf_mem (s : State) (v : SMap (List Nat)) : (s.withTxBuf v).mem = s.mem := rfl
@[simp] theorem State.withTxBuf_runs (s : State) (v : SMap (List Nat)) : (s.withTxBuf v).runs = s.runs := rfl
@[simp] theorem State.withTxBuf_inj (s : State) (v : SMap (List Nat)) : (s.withTxBuf v).inj = s.inj := rfl
@[simp] theorem State.withTxBuf_fifos (s : State) (v : SMap (List Nat)) : (s.withTxBuf v).fifos = s.fifos := rfl
@[simp] theorem State.withTxBuf_updates (s : State) (v : SMap (List Nat)) : (s.withTxBuf v).updates = s.updates := rfl
@[simp] theorem State.withTxBuf_results (s : State) (v : SMap (List Nat)) : (s.withTxBuf v).results = s.results := rfl
@[simp] theorem State.withTxBuf_sessions (s : State) (v : SMap (List Nat)) : (s.withTxBuf v).sessions = s.sessions := rfl
@[simp] theorem State.withTxBuf_dir (s : State) (v : SMap (List Nat)) : (s.withTxBuf v).dir = s.dir := rfl
@[simp] theorem State.withTxBuf_dirCopy (s : State) (v : SMap (List Nat)) : (s.withTxBuf v).dirCopy = s.dirCopy := rfl
@[simp] theorem State.withTxBuf_dramQ (s : State) (v : SMap (List Nat)) : (s.withTxBuf v).dramQ = s.dramQ := rfl
@[simp] theorem State.withTxBuf_lineQ (s : State) (v : SMap (List Nat)) : (s.withTxBuf v).lineQ = s.lineQ := rfl
@[simp] theorem State.withTxBuf_bcIn (s : State) (v : SMap (List Nat)) : (s.withTxBuf v).bcIn = s.bcIn := rfl
@[simp] theorem State.withTxBuf_pzList (s : State) (v : SMap (List Nat)) : (s.withTxBuf v).pzList = s.pzList := rfl
@[simp] theorem State.withTxBuf_uses (s : State) (v : SMap (List Nat)) : (s.withTxBuf v).uses = s.uses := rfl
@[simp] theorem State.withTxBuf_badNodes (s : State) (v : SMap (List Nat)) : (s.withTxBuf v).badNodes = s.badNodes := rfl
@[simp] theorem State.withTxBuf_cores (s : State) (v : SMap (List Nat)) : (s.withTxBuf v).cores = s.cores := rfl
@[simp] theorem State.withTxBuf_adcFifo (s : State) (v : SMap (List Nat)) : (s.withTxBuf v).adcFifo = s.adcFifo := rfl
@[simp] theorem State.withTxBuf_evq (s : State) (v : SMap (List Nat)) : (s.withTxBuf v).evq = s.evq := rfl
@[simp] theorem State.withTxBuf_twOut (s : State) (v : SMap (List Nat)) : (s.withTxBuf v).twOut = s.twOut := rfl
@[simp] theorem State.withTxBuf_slpWait (s : State) (v : SMap (List Nat)) : (s.withTxBuf v).slpWait = s.slpWait := rfl
@[simp] theorem State.withTxBuf_slpUnacked (s : State) (v : SMap (List Nat)) : (s.withTxBuf v).slpUnacked = s.slpUnacked := rfl
@[simp] theorem State.withTxBuf_slpHeld (s : State) (v : SMap (List Nat)) : (s.withTxBuf v).slpHeld = s.slpHeld := rfl
@[simp] theorem State.withTxBuf_ctrlQ (s : State) (v : SMap (List Nat)) : (s.withTxBuf v).ctrlQ = s.ctrlQ := rfl
@[simp] theorem State.withTxBuf_dbgQ (s : State) (v : SMap (List Nat)) : (s.withTxBuf v).dbgQ = s.dbgQ := rfl
@[simp] theorem State.withTxBuf_notices (s : State) (v : SMap (List Nat)) : (s.withTxBuf v).notices = s.notices := rfl
@[simp] theorem State.withTxBuf_slpObjs (s : State) (v : SMap (List Nat)) : (s.withTxBuf v).slpObjs = s.slpObjs := rfl
@[simp] theorem State.withTxBuf_rxMsgs (s : State) (v : SMap (List Nat)) : (s.withTxBuf v).rxMsgs = s.rxMsgs := rfl
@[simp] theorem State.withTxBuf_ethTx (s : State) (v : SMap (List Nat)) : (s.withTxBuf v).ethTx = s.ethTx := rfl
@[simp] theorem State.withTxBuf_occ (s : State) (v : SMap (List Nat)) : (s.withTxBuf v).occ = s.occ := rfl
@[simp] theorem State.withTxBuf_raised (s : State) (v : SMap (List Nat)) : (s.withTxBuf v).raised = s.raised := rfl
@[simp] theorem State.withTxBuf_held (s : State) (v : SMap (List Nat)) : (s.withTxBuf v).held = s.held := rfl
@[simp] theorem State.withTxBuf_time (s : State) (v : SMap (List Nat)) : (s.withTxBuf v).time = s.time := rfl
@[simp] theorem State.withTxBuf_free (s : State) (v : SMap (List Nat)) : (s.withTxBuf v).free = s.free := rfl
@[simp] theorem State.withTxBuf_pending (s : State) (v : SMap (List Nat)) : (s.withTxBuf v).pending = s.pending := rfl

@[simp] theorem State.withEthTx_ethTx (s : State) (v : List EthReply) : (s.withEthTx v).ethTx = v := rfl
@[simp] theorem State.withEthTx_opt (s : State) (v : List EthReply) : (s.withEthTx v).opt = s.opt := rfl
@[simp] theorem State.withEthTx_regs (s : State) (v : List EthReply) : (s.withEthTx v).regs = s.regs := rfl
@[simp] theorem State.withEthTx_tabs (s : State) (v : List EthReply) : (s.withEthTx v).tabs = s.tabs := rfl
@[simp] theorem State.withEthTx_mem (s : State) (v : List EthReply) : (s.withEthTx v).mem = s.mem := rfl
@[simp] theorem State.withEthTx_runs (s : State) (v : List EthReply) : (s.withEthTx v).runs = s.runs := rfl
@[simp] theorem State.withEthTx_inj (s : State) (v : List EthReply) : (s.withEthTx v).inj = s.inj := rfl
@[simp] theorem State.withEthTx_fifos (s : State) (v : List EthReply) : (s.withEthTx v).fifos = s.fifos := rfl
@[simp] theorem State.withEthTx_updates (s : State) (v : List EthReply) : (s.withEthTx v).updates = s.updates := rfl
@[simp] theorem State.withEthTx_results (s : State) (v : List EthReply) : (s.withEthTx v).results = s.results := rfl
@[simp] theorem State.withEthTx_sessions (s : State) (v : List EthReply) : (s.withEthTx v).sessions = s.sessions := rfl
@[simp] theorem State.withEthTx_dir (s : State) (v : List EthReply) : (s.withEthTx v).dir = s.dir := rfl
@[simp] theorem State.withEthTx_dirCopy (s : State) (v : List EthReply) : (s.withEthTx v).dirCopy = s.dirCopy := rfl
@[simp] theorem State.withEthTx_dramQ (s : State) (v : List EthReply) : (s.withEthTx v).dramQ = s.dramQ := rfl
@[simp] theorem State.withEthTx_lineQ (s : State) (v : List EthReply) : (s.withEthTx v).lineQ = s.lineQ := rfl
@[simp] theorem State.withEthTx_bcIn (s : State) (v : List EthReply) : (s.withEthTx v).bcIn = s.bcIn := rfl
@[simp] theorem State.withEthTx_pzList (s : State) (v : List EthReply) : (s.withEthTx v).pzList = s.pzList := rfl
@[simp] theorem State.withEthTx_uses (s : State) (v : List EthReply) : (s.withEthTx v).uses = s.uses := rfl
@[simp] theorem State.withEthTx_badNodes (s : State) (v : List EthReply) : (s.withEthTx v).badNodes = s.badNodes := rfl
@[simp] theorem State.withEthTx_cores (s : State) (v : List EthReply) : (s.withEthTx v).cores = s.cores := rfl
@[simp] theorem State.withEthTx_adcFifo (s : State) (v : List EthReply) : (s.withEthTx v).adcFifo = s.adcFifo := rfl
@[simp] theorem State.withEthTx_evq (s : State) (v : List EthReply) : (s.withEthTx v).evq = s.evq := rfl
@[simp] theorem State.withEthTx_twOut (s : State) (v : List EthReply) : (s.withEthTx v).twOut = s.twOut := rfl
@[simp] theorem State.withEthTx_slpWait (s : State) (v : List EthReply) : (s.withEthTx v).slpWait = s.slpWait := rfl
@[simp] theorem State.withEthTx_slpUnacked (s : State) (v : List EthReply) : (s.withEthTx v).slpUnacked = s.slpUnacked := rfl
@[simp] theorem State.withEthTx_slpHeld (s : State) (v : List EthReply) : (s.withEthTx v).slpHeld = s.slpHeld := rfl
@[simp] theorem State.withEthTx_ctrlQ (s : State) (v : List EthReply) : (s.withEthTx v).ctrlQ = s.ctrlQ := rfl
@[simp] theorem State.withEthTx_dbgQ (s : State) (v : List EthReply) : (s.withEthTx v).dbgQ = s.dbgQ := rfl
@[simp] theorem State.withEthTx_notices (s : State) (v : List EthReply) : (s.withEthTx v).notices = s.notices := rfl
@[simp] theorem State.withEthTx_slpObjs (s : State) (v : List EthReply) : (s.withEthTx v).slpObjs = s.slpObjs := rfl
@[simp] theorem State.withEthTx_rxMsgs (s : State) (v : List EthReply) : (s.withEthTx v).rxMsgs = s.rxMsgs := rfl
@[simp] theorem State.withEthTx_txBuf (s : State) (v : List EthReply) : (s.withEthTx v).txBuf = s.txBuf := rfl
@[simp] theorem State.withEthTx_occ (s : State) (v : List EthReply) : (s.withEthTx v).occ = s.occ := rfl
@[simp] theorem State.withEthTx_raised (s : State) (v : List EthReply) : (s.withEthTx v).raised = s.raised := rfl
@[simp] theorem State.withEthTx_held (s : State) (v : List EthReply) : (s.withEthTx v).held = s.held := rfl
@[simp] theorem State.withEthTx_time (s : State) (v : List EthReply) : (s.withEthTx v).time = s.time := rfl
@[simp] theorem State.withEthTx_free (s : State) (v : List EthReply) : (s.withEthTx v).free = s.free := rfl
@[simp] theorem State.withEthTx_pending (s : State) (v : List EthReply) : (s.withEthTx v).pending = s.pending := rfl

@[simp] theorem State.withOcc_occ (s : State) (v : SMap (List Nat)) : (s.withOcc v).occ = v := rfl
@[simp] theorem State.withOcc_opt (s : State) (v : SMap (List Nat)) : (s.withOcc v).opt = s.opt := rfl
@[simp] theorem State.withOcc_regs (s : State) (v : SMap (List Nat)) : (s.withOcc v).regs = s.regs := rfl
@[simp] theorem State.withOcc_tabs (s : State) (v : SMap (List Nat)) : (s.withOcc v).tabs = s.tabs := rfl
@[simp] theorem State.withOcc_mem (s : State) (v : SMap (List Nat)) : (s.withOcc v).mem = s.mem := rfl
@[simp] theorem State.withOcc_runs (s : State) (v : SMap (List Nat)) : (s.withOcc v).runs = s.runs := rfl
@[simp] theorem State.withOcc_inj (s : State) (v : SMap (List Nat)) : (s.withOcc v).inj = s.inj := rfl
@[simp] theorem State.withOcc_fifos (s : State) (v : SMap (List Nat)) : (s.withOcc v).fifos = s.fifos := rfl
@[simp] theorem State.withOcc_updates (s : State) (v : SMap (List Nat)) : (s.withOcc v).updates = s.updates := rfl
@[simp] theorem State.withOcc_results (s : State) (v : SMap (List Nat)) : (s.withOcc v).results = s.results := rfl
@[simp] theorem State.withOcc_sessions (s : State) (v : SMap (List Nat)) : (s.withOcc v).sessions = s.sessions := rfl
@[simp] theorem State.withOcc_dir (s : State) (v : SMap (List Nat)) : (s.withOcc v).dir = s.dir := rfl
@[simp] theorem State.withOcc_dirCopy (s : State) (v : SMap (List Nat)) : (s.withOcc v).dirCopy = s.dirCopy := rfl
@[simp] theorem State.withOcc_dramQ (s : State) (v : SMap (List Nat)) : (s.withOcc v).dramQ = s.dramQ := rfl
@[simp] theorem State.withOcc_lineQ (s : State) (v : SMap (List Nat)) : (s.withOcc v).lineQ = s.lineQ := rfl
@[simp] theorem State.withOcc_bcIn (s : State) (v : SMap (List Nat)) : (s.withOcc v).bcIn = s.bcIn := rfl
@[simp] theorem State.withOcc_pzList (s : State) (v : SMap (List Nat)) : (s.withOcc v).pzList = s.pzList := rfl
@[simp] theorem State.withOcc_uses (s : State) (v : SMap (List Nat)) : (s.withOcc v).uses = s.uses := rfl
@[simp] theorem State.withOcc_badNodes (s : State) (v : SMap (List Nat)) : (s.withOcc v).badNodes = s.badNodes := rfl
@[simp] theorem State.withOcc_cores (s : State) (v : SMap (List Nat)) : (s.withOcc v).cores = s.cores := rfl
@[simp] theorem State.withOcc_adcFifo (s : State) (v : SMap (List Nat)) : (s.withOcc v).adcFifo = s.adcFifo := rfl
@[simp] theorem State.withOcc_evq (s : State) (v : SMap (List Nat)) : (s.withOcc v).evq = s.evq := rfl
@[simp] theorem State.withOcc_twOut (s : State) (v : SMap (List Nat)) : (s.withOcc v).twOut = s.twOut := rfl
@[simp] theorem State.withOcc_slpWait (s : State) (v : SMap (List Nat)) : (s.withOcc v).slpWait = s.slpWait := rfl
@[simp] theorem State.withOcc_slpUnacked (s : State) (v : SMap (List Nat)) : (s.withOcc v).slpUnacked = s.slpUnacked := rfl
@[simp] theorem State.withOcc_slpHeld (s : State) (v : SMap (List Nat)) : (s.withOcc v).slpHeld = s.slpHeld := rfl
@[simp] theorem State.withOcc_ctrlQ (s : State) (v : SMap (List Nat)) : (s.withOcc v).ctrlQ = s.ctrlQ := rfl
@[simp] theorem State.withOcc_dbgQ (s : State) (v : SMap (List Nat)) : (s.withOcc v).dbgQ = s.dbgQ := rfl
@[simp] theorem State.withOcc_notices (s : State) (v : SMap (List Nat)) : (s.withOcc v).notices = s.notices := rfl
@[simp] theorem State.withOcc_slpObjs (s : State) (v : SMap (List Nat)) : (s.withOcc v).slpObjs = s.slpObjs := rfl
@[simp] theorem State.withOcc_rxMsgs (s : State) (v : SMap (List Nat)) : (s.withOcc v).rxMsgs = s.rxMsgs := rfl
@[simp] theorem State.withOcc_txBuf (s : State) (v : SMap (List Nat)) : (s.withOcc v).txBuf = s.txBuf := rfl
@[simp] theorem State.withOcc_ethTx (s : State) (v : SMap (List Nat)) : (s.withOcc v).ethTx = s.ethTx := rfl
@[simp] theorem State.withOcc_raised (s : State) (v : SMap (List Nat)) : (s.withOcc v).raised = s.raised := rfl
@[simp] theorem State.withOcc_held (s : State) (v : SMap (List Nat)) : (s.withOcc v).held = s.held := rfl
@[simp] theorem State.withOcc_time (s : State) (v : SMap (List Nat)) : (s.withOcc v).time = s.time := rfl
@[simp] theorem State.withOcc_free (s : State) (v : SMap (List Nat)) : (s.withOcc v).free = s.free := rfl
@[simp] theorem State.withOcc_pending (s : State) (v : SMap (List Nat)) : (s.withOcc v).pending = s.pending := rfl

@[simp] theorem State.withRaised_raised (s : State) (v : List (Nat × Nat)) : (s.withRaised v).raised = v := rfl
@[simp] theorem State.withRaised_opt (s : State) (v : List (Nat × Nat)) : (s.withRaised v).opt = s.opt := rfl
@[simp] theorem State.withRaised_regs (s : State) (v : List (Nat × Nat)) : (s.withRaised v).regs = s.regs := rfl
@[simp] theorem State.withRaised_tabs (s : State) (v : List (Nat × Nat)) : (s.withRaised v).tabs = s.tabs := rfl
@[simp] theorem State.withRaised_mem (s : State) (v : List (Nat × Nat)) : (s.withRaised v).mem = s.mem := rfl
@[simp] theorem State.withRaised_runs (s : State) (v : List (Nat × Nat)) : (s.withRaised v).runs = s.runs := rfl
@[simp] theorem State.withRaised_inj (s : State) (v : List (Nat × Nat)) : (s.withRaised v).inj = s.inj := rfl
@[simp] theorem State.withRaised_fifos (s : State) (v : List (Nat × Nat)) : (s.withRaised v).fifos = s.fifos := rfl
@[simp] theorem State.withRaised_updates (s : State) (v : List (Nat × Nat)) : (s.withRaised v).updates = s.updates := rfl
@[simp] theorem State.withRaised_results (s : State) (v : List (Nat × Nat)) : (s.withRaised v).results = s.results := rfl
@[simp] theorem State.withRaised_sessions (s : State) (v : List (Nat × Nat)) : (s.withRaised v).sessions = s.sessions := rfl
@[simp] theorem State.withRaised_dir (s : State) (v : List (Nat × Nat)) : (s.withRaised v).dir = s.dir := rfl
@[simp] theorem State.withRaised_dirCopy (s : State) (v : List (Nat × Nat)) : (s.withRaised v).dirCopy = s.dirCopy := rfl
@[simp] theorem State.withRaised_dramQ (s : State) (v : List (Nat × Nat)) : (s.withRaised v).dramQ = s.dramQ := rfl
@[simp] theorem State.withRaised_lineQ (s : State) (v : List (Nat × Nat)) : (s.withRaised v).lineQ = s.lineQ := rfl
@[simp] theorem State.withRaised_bcIn (s : State) (v : List (Nat × Nat)) : (s.withRaised v).bcIn = s.bcIn := rfl
@[simp] theorem State.withRaised_pzList (s : State) (v : List (Nat × Nat)) : (s.withRaised v).pzList = s.pzList := rfl
@[simp] theorem State.withRaised_uses (s : State) (v : List (Nat × Nat)) : (s.withRaised v).uses = s.uses := rfl
@[simp] theorem State.withRaised_badNodes (s : State) (v : List (Nat × Nat)) : (s.withRaised v).badNodes = s.badNodes := rfl
@[simp] theorem State.withRaised_cores (s : State) (v : List (Nat × Nat)) : (s.withRaised v).cores = s.cores := rfl
@[simp] theorem State.withRaised_adcFifo (s : State) (v : List (Nat × Nat)) : (s.withRaised v).adcFifo = s.adcFifo := rfl
@[simp] theorem State.withRaised_evq (s : State) (v : List (Nat × Nat)) : (s.withRaised v).evq = s.evq := rfl
@[simp] theorem State.withRaised_twOut (s : State) (v : List (Nat × Nat)) : (s.withRaised v).twOut = s.twOut := rfl
@[simp] theorem State.withRaised_slpWait (s : State) (v : List (Nat × Nat)) : (s.withRaised v).slpWait = s.slpWait := rfl
@[simp] theorem State.withRaised_slpUnacked (s : State) (v : List (Nat × Nat)) : (s.withRaised v).slpUnacked = s.slpUnacked := rfl
@[simp] theorem State.withRaised_slpHeld (s : State) (v : List (Nat × Nat)) : (s.withRaised v).slpHeld = s.slpHeld := rfl
@[simp] theorem State.withRaised_ctrlQ (s : State) (v : List (Nat × Nat)) : (s.withRaised v).ctrlQ = s.ctrlQ := rfl
@[simp] theorem State.withRaised_dbgQ (s : State) (v : List (Nat × Nat)) : (s.withRaised v).dbgQ = s.dbgQ := rfl
@[simp] theorem State.withRaised_notices (s : State) (v : List (Nat × Nat)) : (s.withRaised v).notices = s.notices := rfl
@[simp] theorem State.withRaised_slpObjs (s : State) (v : List (Nat × Nat)) : (s.withRaised v).slpObjs = s.slpObjs := rfl
@[simp] theorem State.withRaised_rxMsgs (s : State) (v : List (Nat × Nat)) : (s.withRaised v).rxMsgs = s.rxMsgs := rfl
@[simp] theorem State.withRaised_txBuf (s : State) (v : List (Nat × Nat)) : (s.withRaised v).txBuf = s.txBuf := rfl
@[simp] theorem State.withRaised_ethTx (s : State) (v : List (Nat × Nat)) : (s.withRaised v).ethTx = s.ethTx := rfl
@[simp] theorem State.withRaised_occ (s : State) (v : List (Nat × Nat)) : (s.withRaised v).occ = s.occ := rfl
@[simp] theorem State.withRaised_held (s : State) (v : List (Nat × Nat)) : (s.withRaised v).held = s.held := rfl
@[simp] theorem State.withRaised_time (s : State) (v : List (Nat × Nat)) : (s.withRaised v).time = s.time := rfl
@[simp] theorem State.withRaised_free (s : State) (v : List (Nat × Nat)) : (s.withRaised v).free = s.free := rfl
@[simp] theorem State.withRaised_pending (s : State) (v : List (Nat × Nat)) : (s.withRaised v).pending = s.pending := rfl

@[simp] theorem State.withHeld_held (s : State) (v : SMap (List Access)) : (s.withHeld v).held = v := rfl
@[simp] theorem State.withHeld_opt (s : State) (v : SMap (List Access)) : (s.withHeld v).opt = s.opt := rfl
@[simp] theorem State.withHeld_regs (s : State) (v : SMap (List Access)) : (s.withHeld v).regs = s.regs := rfl
@[simp] theorem State.withHeld_tabs (s : State) (v : SMap (List Access)) : (s.withHeld v).tabs = s.tabs := rfl
@[simp] theorem State.withHeld_mem (s : State) (v : SMap (List Access)) : (s.withHeld v).mem = s.mem := rfl
@[simp] theorem State.withHeld_runs (s : State) (v : SMap (List Access)) : (s.withHeld v).runs = s.runs := rfl
@[simp] theorem State.withHeld_inj (s : State) (v : SMap (List Access)) : (s.withHeld v).inj = s.inj := rfl
@[simp] theorem State.withHeld_fifos (s : State) (v : SMap (List Access)) : (s.withHeld v).fifos = s.fifos := rfl
@[simp] theorem State.withHeld_updates (s : State) (v : SMap (List Access)) : (s.withHeld v).updates = s.updates := rfl
@[simp] theorem State.withHeld_results (s : State) (v : SMap (List Access)) : (s.withHeld v).results = s.results := rfl
@[simp] theorem State.withHeld_sessions (s : State) (v : SMap (List Access)) : (s.withHeld v).sessions = s.sessions := rfl
@[simp] theorem State.withHeld_dir (s : State) (v : SMap (List Access)) : (s.withHeld v).dir = s.dir := rfl
@[simp] theorem State.withHeld_dirCopy (s : State) (v : SMap (List Access)) : (s.withHeld v).dirCopy = s.dirCopy := rfl
@[simp] theorem State.withHeld_dramQ (s : State) (v : SMap (List Access)) : (s.withHeld v).dramQ = s.dramQ := rfl
@[simp] theorem State.withHeld_lineQ (s : State) (v : SMap (List Access)) : (s.withHeld v).lineQ = s.lineQ := rfl
@[simp] theorem State.withHeld_bcIn (s : State) (v : SMap (List Access)) : (s.withHeld v).bcIn = s.bcIn := rfl
@[simp] theorem State.withHeld_pzList (s : State) (v : SMap (List Access)) : (s.withHeld v).pzList = s.pzList := rfl
@[simp] theorem State.withHeld_uses (s : State) (v : SMap (List Access)) : (s.withHeld v).uses = s.uses := rfl
@[simp] theorem State.withHeld_badNodes (s : State) (v : SMap (List Access)) : (s.withHeld v).badNodes = s.badNodes := rfl
@[simp] theorem State.withHeld_cores (s : State) (v : SMap (List Access)) : (s.withHeld v).cores = s.cores := rfl
@[simp] theorem State.withHeld_adcFifo (s : State) (v : SMap (List Access)) : (s.withHeld v).adcFifo = s.adcFifo := rfl
@[simp] theorem State.withHeld_evq (s : State) (v : SMap (List Access)) : (s.withHeld v).evq = s.evq := rfl
@[simp] theorem State.withHeld_twOut (s : State) (v : SMap (List Access)) : (s.withHeld v).twOut = s.twOut := rfl
@[simp] theorem State.withHeld_slpWait (s : State) (v : SMap (List Access)) : (s.withHeld v).slpWait = s.slpWait := rfl
@[simp] theorem State.withHeld_slpUnacked (s : State) (v : SMap (List Access)) : (s.withHeld v).slpUnacked = s.slpUnacked := rfl
@[simp] theorem State.withHeld_slpHeld (s : State) (v : SMap (List Access)) : (s.withHeld v).slpHeld = s.slpHeld := rfl
@[simp] theorem State.withHeld_ctrlQ (s : State) (v : SMap (List Access)) : (s.withHeld v).ctrlQ = s.ctrlQ := rfl
@[simp] theorem State.withHeld_dbgQ (s : State) (v : SMap (List Access)) : (s.withHeld v).dbgQ = s.dbgQ := rfl
@[simp] theorem State.withHeld_notices (s : State) (v : SMap (List Access)) : (s.withHeld v).notices = s.notices := rfl
@[simp] theorem State.withHeld_slpObjs (s : State) (v : SMap (List Access)) : (s.withHeld v).slpObjs = s.slpObjs := rfl
@[simp] theorem State.withHeld_rxMsgs (s : State) (v : SMap (List Access)) : (s.withHeld v).rxMsgs = s.rxMsgs := rfl
@[simp] theorem State.withHeld_txBuf (s : State) (v : SMap (List Access)) : (s.withHeld v).txBuf = s.txBuf := rfl
@[simp] theorem State.withHeld_ethTx (s : State) (v : SMap (List Access)) : (s.withHeld v).ethTx = s.ethTx := rfl
@[simp] theorem State.withHeld_occ (s : State) (v : SMap (List Access)) : (s.withHeld v).occ = s.occ := rfl
@[simp] theorem State.withHeld_raised (s : State) (v : SMap (List Access)) : (s.withHeld v).raised = s.raised := rfl
@[simp] theorem State.withHeld_time (s : State) (v : SMap (List Access)) : (s.withHeld v).time = s.time := rfl
@[simp] theorem State.withHeld_free (s : State) (v : SMap (List Access)) : (s.withHeld v).free = s.free := rfl
@[simp] theorem State.withHeld_pending (s : State) (v : SMap (List Access)) : (s.withHeld v).pending = s.pending := rfl

@[simp] theorem State.draw_free (s : State) : s.draw.free = s.free + 1 := rfl
@[simp] theorem State.pulse_raised (s : State) (n : Nat) : (s.pulse n).raised = s.raised ++ [(n, s.time)] := rfl
theorem State.setFlag_eq (s : State) (f : Fld) (b : Bool) : s.setFlag f b = s.wr f (b2n b) := rfl
theorem State.setBit_eq (s : State) (f : Fld) (i : Nat) (b : Bool) : s.setBit f i b = s.wr f (putBit (s.rd f) i b) := rfl
theorem State.inc_eq (s : State) (f : Fld) : s.inc f = s.wr f (s.rd f + 1) := rfl
theorem State.incSat_eq (s : State) (f : Fld) : s.incSat f = s.wr f (satInc f.width (s.rd f)) := rfl

/-! Sparse maps. -/

namespace SMap

variable {α : Type}

@[simp] theorem get_put_same (m : SMap α) (k : Nat) (v d : α) : (put m k v).get k d = v := by
  induction m with
  | nil => simp [put, get]
  | cons e r ih =>
    unfold put
    split
    · simp [get]
    · split
      · simp [get]
      · simp only [get]
        rw [if_neg (fun h => by simp_all), ih]

theorem get_put_ne (m : SMap α) {k j : Nat} (v d : α) (h : k ≠ j) : (put m k v).get j d = m.get j d := by
  induction m with
  | nil => simp [put, get, h]
  | cons e r ih =>
    unfold put
    split
    · simp [get, h]
    · split
      · next hk => subst hk; simp [get, h]
      · simp only [get, ih]

theorem get_del_same (m : SMap α) (k : Nat) (d : α) : (del m k).get k d = d := by
  induction m with
  | nil => simp [del, get]
  | cons e r ih =>
    unfold del
    split
    · exact ih
    · next h => simp [get, h, ih]

theorem get_del_ne (m : SMap α) {k j : Nat} (d : α) (h : k ≠ j) : (del m k).get j d = m.get j d := by
  induction m with
  | nil => simp [del]
  | cons e r ih =>
    unfold del
    split
    · next hk => simp [get, hk, h, ih]
    · simp only [get, ih]

variable [DecidableEq α]

@[simp] theorem get_set_same (m : SMap α) (k : Nat) (v d : α) : (set m k v d).get k d = v := by
  unfold set
  split
  · next h => rw [get_del_same, h]
  · exact get_put_same m k v d

theorem get_set_ne (m : SMap α) {k j : Nat} (v d e : α) (h : k ≠ j) : (set m k v d).get j e = m.get j e := by
  unfold set
  split
  · exact get_del_ne m e h
  · exact get_put_ne m v e h

end SMap

/-! Register fields, tables and bytes. -/

@[simp] theorem State.rd_wr_same (s : State) (f : Fld) (v : Nat) : (s.wr f v).rd f = v % 2 ^ f.width := by
  simp [State.rd, State.wr]

theorem State.rd_wr_ne (s : State) {f g : Fld} (v : Nat) (h : f.key ≠ g.key) : (s.wr f v).rd g = s.rd g := by
  simp [State.rd, State.wr, SMap.get_set_ne _ _ _ _ h]

@[simp] theorem State.rd_setTab (s : State) (b : Tab) (n i v : Nat) (f : Fld) : (s.setTab b n i v).rd f = s.rd f := rfl
@[simp] theorem State.rd_setByte (s : State) (a : Nat) (b : Byte) (f : Fld) : (s.setByte a b).rd f = s.rd f := rfl
@[simp] theorem State.rd_draw (s : State) (f : Fld) : s.draw.rd f = s.rd f := rfl
@[simp] theorem State.rd_pulse (s : State) (n : Nat) (f : Fld) : (s.pulse n).rd f = s.rd f := rfl
@[simp] theorem State.tab_wr (s : State) (f : Fld) (v : Nat) (b : Tab) (n i : Nat) : (s.wr f v).tab b n i = s.tab b n i := rfl
@[simp] theorem State.byte_wr (s : State) (f : Fld) (v a : Nat) : (s.wr f v).byte a = s.byte a := rfl

@[simp] theorem State.tab_setTab_same (s : State) (b : Tab) (n i v : Nat) :
    (s.setTab b n i v).tab b n i = v % 2 ^ b.width := by
  simp [State.tab, State.setTab]

theorem State.tab_setTab_ne (s : State) {b c : Tab} {n i m j : Nat} (v : Nat) (h : b.key n i ≠ c.key m j) :
    (s.setTab b n i v).tab c m j = s.tab c m j := by
  simp [State.tab, State.setTab, SMap.get_set_ne _ _ _ _ h]

@[simp] theorem State.byte_setByte_same (s : State) (a : Nat) (b : Byte) : (s.setByte a b).byte a = b := by
  simp [State.byte, State.setByte]

theorem State.byte_setByte_ne (s : State) {a c : Nat} (b : Byte) (h : a ≠ c) : (s.setByte a b).byte c = s.byte c := by
  simp [State.byte, State.setByte, SMap.get_set_ne _ _ _ _ h]

@[simp] theorem State.flag_setFlag_same (s : State) (f : Fld) (b : Bool) (h : f.width = 1) :
    (s.setFlag f b).flag f = b := by
  cases b <;> simp [State.flag, State.setFlag, b2n, h]

theorem State.flag_wr_ne (s : State) {f g : Fld} (v : Nat) (h : f.key ≠ g.key) : (s.wr f v).flag g = s.flag g := by
  simp [State.flag, State.rd_wr_ne s v h]

end Sys2Proof.Machine
end

