-- ==== Sys2Proof/Laws/Frame.lean ====
section
/-! SUPPORT. How the frame predicates of Safety.lean compose with the basic updates. -/

namespace Sys2Proof.Machine

variable {s t u : State} {ks : List Nat} {ps : List Part}

theorem Only.refl (ps : List Part) (s : State) : Only ps s s := fun p _ => by cases p <;> rfl

theorem Only.trans (h : Only ps s t) (h' : Only ps t u) : Only ps s u := fun p hp => by
  have a := h p hp
  have b := h' p hp
  cases p <;> exact Eq.trans b a

theorem RegsBut.refl (ks : List Nat) (s : State) : RegsBut ks s s := fun _ _ _ => rfl

theorem RegsBut.trans (h : RegsBut ks s t) (h' : RegsBut ks t u) : RegsBut ks s u :=
  fun k hk d => (h' k hk d).trans (h k hk d)

theorem RegsBut.of_eq (h : t.regs = s.regs) : RegsBut ks s t := fun k _ d => by rw [h]

theorem TabsBut.refl (ks : List Nat) (s : State) : TabsBut ks s s := fun _ _ _ => rfl

theorem TabsBut.trans (h : TabsBut ks s t) (h' : TabsBut ks t u) : TabsBut ks s u :=
  fun k hk d => (h' k hk d).trans (h k hk d)

theorem TabsBut.of_eq (h : t.tabs = s.tabs) : TabsBut ks s t := fun k _ d => by rw [h]

theorem RegsBut.wr {f : Fld} {v : Nat} (h : RegsBut ks s t) (hk : f.key ∈ ks) : RegsBut ks s (t.wr f v) :=
  fun k hn d => by
    rw [← h k hn d]
    exact SMap.get_set_ne _ _ _ _ (fun e => hn (e ▸ hk))

theorem TabsBut.setTab {b : Tab} {n i v : Nat} (h : TabsBut ks s t) (hk : b.key n i ∈ ks) :
    TabsBut ks s (t.setTab b n i v) :=
  fun k hn d => by
    rw [← h k hn d]
    exact SMap.get_set_ne _ _ _ _ (fun e => hn (e ▸ hk))

theorem Only.wr {f : Fld} {v : Nat} (h : Only ps s t) (hp : Part.regs ∈ ps) : Only ps s (t.wr f v) := fun p hn => by
  have a := h p hn
  cases p <;> first | exact a | exact absurd hp hn

theorem Only.setTab {b : Tab} {n i v : Nat} (h : Only ps s t) (hp : Part.tabs ∈ ps) :
    Only ps s (t.setTab b n i v) := fun p hn => by
  have a := h p hn
  cases p <;> first | exact a | exact absurd hp hn

theorem OnlyRegs.refl (ks : List Nat) (s : State) : OnlyRegs ks s s := ⟨Only.refl _ s, RegsBut.refl ks s⟩

theorem OnlyRegs.trans (h : OnlyRegs ks s t) (h' : OnlyRegs ks t u) : OnlyRegs ks s u :=
  ⟨h.1.trans h'.1, h.2.trans h'.2⟩

theorem OnlyRegs.wr {f : Fld} {v : Nat} (h : OnlyRegs ks s t) (hk : f.key ∈ ks) : OnlyRegs ks s (t.wr f v) :=
  ⟨h.1.wr (List.mem_singleton.2 rfl), h.2.wr hk⟩

theorem OnlyRegs.setFlag {f : Fld} {b : Bool} (h : OnlyRegs ks s t) (hk : f.key ∈ ks) :
    OnlyRegs ks s (t.setFlag f b) := h.wr hk

theorem OnlyRegs.foldl {α : Type} {l : List α} {f : State → α → State} (h : OnlyRegs ks s t)
    (hf : ∀ t a, a ∈ l → OnlyRegs ks s t → OnlyRegs ks s (f t a)) : OnlyRegs ks s (l.foldl f t) := by
  induction l generalizing t with
  | nil => exact h
  | cons a r ih =>
    exact ih (hf t a List.mem_cons_self h) fun t b hb ht => hf t b (List.mem_cons_of_mem _ hb) ht

theorem OnlyRegs.forUpTo {n : Nat} {f : State → Nat → State} (h : OnlyRegs ks s t)
    (hf : ∀ t k, k < n → OnlyRegs ks s t → OnlyRegs ks s (f t k)) : OnlyRegs ks s (t.forUpTo n f) :=
  h.foldl fun t k hk ht => hf t k (List.mem_range.1 hk) ht

theorem mem_keys {n k : Nat} {l : Lay} {ls : List Lay} (hl : l ∈ ls) (hk : k < n) : (l.f k).key ∈ keys n ls :=
  List.mem_flatMap.2 ⟨l, hl, List.mem_map.2 ⟨k, List.mem_range.2 hk, rfl⟩⟩

theorem OnlyRegs.mono {ks' : List Nat} (h : OnlyRegs ks s t) (hk : ∀ k ∈ ks, k ∈ ks') : OnlyRegs ks' s t :=
  ⟨h.1, fun k hn => h.2 k fun hm => hn (hk k hm)⟩

theorem RegsBut.rd {f : Fld} (h : RegsBut ks s t) (hk : f.key ∉ ks) : t.rd f = s.rd f :=
  congrArg (· % 2 ^ f.width) (h f.key hk f.reset)

theorem OnlyRegs.rd {f : Fld} (h : OnlyRegs ks s t) (hk : f.key ∉ ks) : t.rd f = s.rd f := h.2.rd hk

/-- What holds at first, and after step k where it held before it, holds after a loop. -/
theorem State.forUpTo_ind {n : Nat} {f : State → Nat → State} (P : Nat → State → Prop) (h0 : P 0 s)
    (hs : ∀ k t, k < n → P k t → P (k + 1) (f t k)) : P n (s.forUpTo n f) := by
  unfold State.forUpTo
  induction n with
  | zero => exact h0
  | succ n ih =>
    rw [List.range_succ, List.foldl_append]
    exact hs n _ (Nat.lt_succ_self n) (ih fun k t hk => hs k t (Nat.lt_succ_of_lt hk))

/-- A loop that sets the same field of every instance. -/
theorem State.rd_forUpTo_wr {n k : Nat} {l : Lay} {v : State → Nat → Nat} (hk : k < n)
    (hd : ∀ i j, i < n → j < n → i ≠ j → (l.f i).key ≠ (l.f j).key) :
    ∃ u, (s.forUpTo n fun s i => s.wr (l.f i) (v s i)).rd (l.f k) = v u k % 2 ^ l.width := by
  suffices h : ∀ m, m ≤ n → k < m → ∃ u, (s.forUpTo m fun s i => s.wr (l.f i) (v s i)).rd (l.f k) = v u k % 2 ^ l.width from
    h n (Nat.le_refl n) hk
  intro m
  induction m with
  | zero => intro _ h; exact absurd h (Nat.not_lt_zero k)
  | succ m ih =>
    intro hm hkm
    unfold State.forUpTo
    rw [List.range_succ, List.foldl_append]
    by_cases h : k = m
    · subst h
      exact ⟨_, State.rd_wr_same _ _ _⟩
    · obtain ⟨u, hu⟩ := ih (by omega) (by omega)
      refine ⟨u, ?_⟩
      rw [← hu]
      exact State.rd_wr_ne _ _ (hd m k (by omega) hk (by omega))

end Sys2Proof.Machine
end

