-- ==== Sys2Proof/Laws/KeepsBase.lean ====
section
/-! SUPPORT. Once for each: what the named operations keep: the parts of the
state they may change, and that the canonical form of the state survives them. -/

namespace Sys2Proof.Machine
namespace SMap

theorem sorted_cons {α : Type} (k : Nat) (v : α) (m : SMap α) :
    sorted ((k, v) :: m) = true ↔ (∀ e ∈ m, k < e.1) ∧ sorted m = true := by
  induction m generalizing k v with
  | nil => simp [sorted]
  | cons e r ih =>
    obtain ⟨k', v'⟩ := e
    simp only [sorted, Bool.and_eq_true, decide_eq_true_eq, List.forall_mem_cons]
    constructor
    · rintro ⟨h, hs⟩
      exact ⟨⟨h, fun e he => Nat.lt_trans h (((ih k' v').1 hs).1 e he)⟩, hs⟩
    · rintro ⟨⟨h, _⟩, hs⟩
      exact ⟨h, hs⟩

theorem mem_put {α : Type} {m : SMap α} {k : Nat} {v : α} {e : Nat × α} (h : e ∈ put m k v) :
    e = (k, v) ∨ e ∈ m := by
  induction m with
  | nil => simpa [put] using h
  | cons x r ih =>
    obtain ⟨k', v'⟩ := x
    unfold put at h
    split at h
    · simpa using h
    · split at h
      · rcases List.mem_cons.1 h with h | h
        · exact .inl h
        · exact .inr (List.mem_cons_of_mem _ h)
      · rcases List.mem_cons.1 h with h | h
        · exact .inr (h ▸ List.mem_cons_self)
        · rcases ih h with h | h
          · exact .inl h
          · exact .inr (List.mem_cons_of_mem _ h)

theorem mem_del {α : Type} {m : SMap α} {k : Nat} {e : Nat × α} (h : e ∈ del m k) : e ∈ m := by
  induction m with
  | nil => simpa [del] using h
  | cons x r ih =>
    obtain ⟨k', v'⟩ := x
    unfold del at h
    split at h
    · exact List.mem_cons_of_mem _ (ih h)
    · rcases List.mem_cons.1 h with h | h
      · exact h ▸ List.mem_cons_self
      · exact List.mem_cons_of_mem _ (ih h)

theorem sorted_put {α : Type} {m : SMap α} (k : Nat) (v : α) (h : sorted m = true) : sorted (put m k v) = true := by
  induction m with
  | nil => rfl
  | cons x r ih =>
    obtain ⟨k', v'⟩ := x
    have hh := (sorted_cons k' v' r).1 h
    unfold put
    split
    · rename_i hk
      refine (sorted_cons _ _ _).2 ⟨fun e he => ?_, h⟩
      rcases List.mem_cons.1 he with rfl | he
      · exact hk
      · exact Nat.lt_trans hk (hh.1 e he)
    · split
      · rename_i hk
        subst hk
        exact (sorted_cons _ _ _).2 hh
      · rename_i h1 h2
        refine (sorted_cons _ _ _).2 ⟨fun e he => ?_, ih hh.2⟩
        rcases mem_put he with rfl | he
        · simp only; omega
        · exact hh.1 e he

theorem sorted_del {α : Type} {m : SMap α} (k : Nat) (h : sorted m = true) : sorted (del m k) = true := by
  induction m with
  | nil => rfl
  | cons x r ih =>
    obtain ⟨k', v'⟩ := x
    have hh := (sorted_cons k' v' r).1 h
    unfold del
    split
    · exact ih hh.2
    · exact (sorted_cons _ _ _).2 ⟨fun e he => hh.1 e (mem_del he), ih hh.2⟩

theorem sorted_set {α : Type} [DecidableEq α] {m : SMap α} (k : Nat) (v d : α) (h : sorted m = true) :
    sorted (set m k v d) = true := by
  unfold set
  split
  · exact sorted_del k h
  · exact sorted_put k v h

theorem sorted_nil {α : Type} : sorted ([] : SMap α) = true := rfl

theorem sorted_filter {α : Type} {m : SMap α} (p : Nat × α → Bool) (h : sorted m = true) :
    sorted (m.filter p) = true := by
  induction m with
  | nil => rfl
  | cons x r ih =>
    obtain ⟨k', v'⟩ := x
    have hh := (sorted_cons k' v' r).1 h
    rw [List.filter_cons]
    split
    · exact (sorted_cons _ _ _).2 ⟨fun e he => hh.1 e (List.mem_filter.1 he).1, ih hh.2⟩
    · exact ih hh.2

theorem sorted_map {α β : Type} {m : SMap α} (f : Nat × α → β) (h : sorted m = true) :
    sorted (m.map fun e => (e.1, f e)) = true := by
  induction m with
  | nil => rfl
  | cons x r ih =>
    obtain ⟨k', v'⟩ := x
    have hh := (sorted_cons k' v' r).1 h
    refine (sorted_cons _ _ _).2 ⟨fun e he => ?_, ih hh.2⟩
    obtain ⟨y, hy, rfl⟩ := List.mem_map.1 he
    exact hh.1 y hy

end SMap

theorem Memory.wf_set {m : List Host.Cell} (a : Nat) (b : Byte) (h : Memory.wf m) : Memory.wf (SMap.set m a b 0) := by
  refine ⟨SMap.sorted_set a b 0 h.1, List.all_eq_true.2 fun c hc => ?_⟩
  have h2 := List.all_eq_true.1 h.2
  unfold SMap.set at hc
  split at hc
  · exact h2 c (SMap.mem_del hc)
  · rename_i hb
    rcases SMap.mem_put hc with rfl | hc
    · simpa using hb
    · exact h2 c hc

theorem Memory.wf_filter {m : List Host.Cell} (p : Host.Cell → Bool) (h : Memory.wf m) : Memory.wf (m.filter p) :=
  ⟨SMap.sorted_filter p h.1, List.all_eq_true.2 fun c hc => List.all_eq_true.1 h.2 c (List.mem_filter.1 hc).1⟩

/-! Which parts an operation may change, as the bits of a number: bit `p.idx` for part `p`. -/

/-- The place of a part among the parts. -/
def Part.idx : Part → Nat
  | .opt => 0
  | .regs => 1
  | .tabs => 2
  | .mem => 3
  | .runs => 4
  | .inj => 5
  | .fifos => 6
  | .updates => 7
  | .results => 8
  | .sessions => 9
  | .dir => 10
  | .dirCopy => 11
  | .dramQ => 12
  | .lineQ => 13
  | .bcIn => 14
  | .pzList => 15
  | .uses => 16
  | .badNodes => 17
  | .cores => 18
  | .adcFifo => 19
  | .evq => 20
  | .twOut => 21
  | .slpWait => 22
  | .slpUnacked => 23
  | .slpHeld => 24
  | .ctrlQ => 25
  | .dbgQ => 26
  | .notices => 27
  | .slpObjs => 28
  | .rxMsgs => 29
  | .txBuf => 30
  | .ethTx => 31
  | .occ => 32
  | .raised => 33
  | .held => 34
  | .time => 35
  | .free => 36
  | .pending => 37

/-- `t` differs from `s` at most in the parts of `ft`, and is in canonical form if `s` is. -/
structure Keeps (ft : Nat) (s t : State) : Prop where
  kept : ∀ p : Part, ft.testBit p.idx = false → p.kept s t
  canon : s.Canon → t.Canon

/-- The same of an outcome: of its next state, if there is one. -/
def KeepsOut (ft : Nat) (s : State) : Out → Prop
  | .next t => Keeps ft s t
  | .fault _ => True
  | .refused _ => True

/-- The same of an optional state. -/
def KeepsOpt (ft : Nat) (s : State) : Option State → Prop
  | some t => Keeps ft s t
  | none => True

/-- The same of an optional state with an answer. -/
def KeepsOptP {α : Type} (ft : Nat) (s : State) : Option (State × α) → Prop
  | some t => Keeps ft s t.1
  | none => True

variable {ft : Nat} {s₀ s t : State}

/-- The parts of a part of `ft` are parts of `ft`. -/
theorem Foot.sub {a b : Nat} (h : b &&& ft = b) (hab : a &&& b = a) : a &&& ft = a := by
  rw [← hab, Nat.and_assoc, h]

theorem Foot.bit {a : Nat} (h : a &&& ft = a) {i : Nat} (ha : a.testBit i = true) : ft.testBit i = true := by
  have := congrArg (Nat.testBit · i) h
  simp only [Nat.testBit_and, ha, Bool.true_and] at this
  exact this

theorem Keeps.refl (s : State) : Keeps ft s s := ⟨fun p _ => by cases p <;> rfl, id⟩

theorem Part.kept_trans {p : Part} {r : State} (h : p.kept r s) (h' : p.kept s t) : p.kept r t := by
  cases p <;> exact Eq.trans h' h

/-- One part more may change. -/
theorem Keeps.step (h : Keeps ft s₀ s) (q : Part) (hq : ft.testBit q.idx = true) (hk : ∀ p, p ≠ q → p.kept s t)
    (hc : s.Canon → t.Canon) : Keeps ft s₀ t :=
  ⟨fun p hp => Part.kept_trans (h.kept p hp) (hk p fun e => by rw [e, hq] at hp; cases hp), fun c => hc (h.canon c)⟩

/-- Several parts at once may change. -/
theorem Keeps.upd (h : Keeps ft s₀ s) (hk : ∀ p : Part, ft.testBit p.idx = false → p.kept s t)
    (hc : s.Canon → t.Canon) : Keeps ft s₀ t :=
  ⟨fun p hp => Part.kept_trans (h.kept p hp) (hk p hp), fun c => hc (h.canon c)⟩

theorem Foot.not {P : Prop} {a i : Nat} (hp : a &&& ft = a) (ha : a.testBit i = true) (h : ft.testBit i = false) : P
    := by
  rw [Foot.bit hp ha] at h; cases h

theorem Keeps.trans {r : State} (h : Keeps ft r s) (h' : Keeps ft s t) : Keeps ft r t :=
  ⟨fun p hp => Part.kept_trans (h.kept p hp) (h'.kept p hp), fun c => h'.canon (h.canon c)⟩

theorem Keeps.ite {c : Prop} [Decidable c] (h : Keeps ft s₀ s) (h' : Keeps ft s₀ t) :
    Keeps ft s₀ (if c then s else t) := by
  split <;> assumption

theorem KeepsOut.done (h : Keeps ft s₀ s) : KeepsOut ft s₀ (done s) := h

theorem KeepsOut.next (h : Keeps ft s₀ s) : KeepsOut ft s₀ (.next s) := h

theorem KeepsOpt.none : KeepsOpt ft s₀ none := trivial

theorem KeepsOpt.some (h : Keeps ft s₀ s) : KeepsOpt ft s₀ (some s) := h

theorem KeepsOptP.none {α : Type} : KeepsOptP (α := α) ft s₀ none := trivial

theorem KeepsOptP.some {α : Type} {p : State × α} (h : Keeps ft s₀ p.1) : KeepsOptP ft s₀ (some p) := h

theorem Keeps.of_fst {α : Type} {p : State × α} {a : α} (e : p = (s, a)) (h : Keeps ft s₀ p.1) : Keeps ft s₀ s := by
  subst e; exact h

theorem Keeps.of_some {p : Option State} (e : p = some s) (h : KeepsOpt ft s₀ p) : Keeps ft s₀ s := by
  subst e; exact h

theorem Keeps.of_someP {α : Type} {p : Option (State × α)} {a : α} (e : p = some (s, a)) (h : KeepsOptP ft s₀ p) :
    Keeps ft s₀ s := by
  subst e; exact h

theorem Keeps.getD {p : Option State} (h : KeepsOpt ft s₀ p) (h' : Keeps ft s₀ s) : Keeps ft s₀ (p.getD s) := by
  cases p <;> assumption

theorem Keeps.foldl {α : Type} {l : List α} {f : State → α → State} (h : Keeps ft s₀ s)
    (hf : ∀ s a, Keeps ft s₀ s → Keeps ft s₀ (f s a)) : Keeps ft s₀ (l.foldl f s) := by
  induction l generalizing s with
  | nil => exact h
  | cons a r ih => exact ih (hf s a h)

theorem Keeps.foldlP {α β : Type} {l : List α} {f : State × β → α → State × β} {p : State × β} (h : Keeps ft s₀ p.1)
    (hf : ∀ s b a, Keeps ft s₀ s → Keeps ft s₀ (f (s, b) a).1) : Keeps ft s₀ (l.foldl f p).1 := by
  induction l generalizing p with
  | nil => exact h
  | cons a r ih => exact ih (hf p.1 p.2 a h)

theorem State.forUpTo_keeps {n : Nat} {f : State → Nat → State} (h : Keeps ft s₀ s)
    (hf : ∀ s a, Keeps ft s₀ s → Keeps ft s₀ (f s a)) : Keeps ft s₀ (s.forUpTo n f) := Keeps.foldl h hf

theorem Memory.wf_nil : Memory.wf [] := ⟨rfl, rfl⟩

/-! The named operations. -/

theorem State.wr_keeps (f : Fld) (v : Nat) (hp : 2 &&& ft = 2) (h : Keeps ft s₀ s) :
    Keeps ft s₀ (s.wr f v) :=
  h.step .regs (Foot.bit hp (by decide)) (fun p hp => by cases p <;> first | rfl | exact absurd rfl hp)
    (fun c => ⟨SMap.sorted_set _ _ _ c.regs, c.tabs, c.mem, c.runs, c.inj, c.fifos, c.updates, c.results, c.sessions, c.dir, c.dirCopy, c.dramQ, c.cores, c.adcFifo, c.evq, c.twOut, c.slpWait, c.slpUnacked, c.slpHeld, c.rxMsgs, c.txBuf, c.occ, c.held⟩)

theorem State.setTab_keeps (b : Tab) (n i v : Nat) (hp : 4 &&& ft = 4) (h : Keeps ft s₀ s) :
    Keeps ft s₀ (s.setTab b n i v) :=
  h.step .tabs (Foot.bit hp (by decide)) (fun p hp => by cases p <;> first | rfl | exact absurd rfl hp)
    (fun c => ⟨c.regs, SMap.sorted_set _ _ _ c.tabs, c.mem, c.runs, c.inj, c.fifos, c.updates, c.results, c.sessions, c.dir, c.dirCopy, c.dramQ, c.cores, c.adcFifo, c.evq, c.twOut, c.slpWait, c.slpUnacked, c.slpHeld, c.rxMsgs, c.txBuf, c.occ, c.held⟩)

theorem State.setByte_keeps (a : Nat) (b : Byte) (hp : 8 &&& ft = 8) (h : Keeps ft s₀ s) :
    Keeps ft s₀ (s.setByte a b) :=
  h.step .mem (Foot.bit hp (by decide)) (fun p hp => by cases p <;> first | rfl | exact absurd rfl hp)
    (fun c => ⟨c.regs, c.tabs, Memory.wf_set _ _ c.mem, c.runs, c.inj, c.fifos, c.updates, c.results, c.sessions, c.dir, c.dirCopy, c.dramQ, c.cores, c.adcFifo, c.evq, c.twOut, c.slpWait, c.slpUnacked, c.slpHeld, c.rxMsgs, c.txBuf, c.occ, c.held⟩)

theorem State.draw_keeps  (hp : 68719476736 &&& ft = 68719476736) (h : Keeps ft s₀ s) :
    Keeps ft s₀ (s.draw) :=
  h.step .free (Foot.bit hp (by decide)) (fun p hp => by cases p <;> first | rfl | exact absurd rfl hp)
    (fun c => ⟨c.regs, c.tabs, c.mem, c.runs, c.inj, c.fifos, c.updates, c.results, c.sessions, c.dir, c.dirCopy, c.dramQ, c.cores, c.adcFifo, c.evq, c.twOut, c.slpWait, c.slpUnacked, c.slpHeld, c.rxMsgs, c.txBuf, c.occ, c.held⟩)

theorem State.pulse_keeps (n : Nat) (hp : 8589934592 &&& ft = 8589934592) (h : Keeps ft s₀ s) :
    Keeps ft s₀ (s.pulse n) :=
  h.step .raised (Foot.bit hp (by decide)) (fun p hp => by cases p <;> first | rfl | exact absurd rfl hp)
    (fun c => ⟨c.regs, c.tabs, c.mem, c.runs, c.inj, c.fifos, c.updates, c.results, c.sessions, c.dir, c.dirCopy, c.dramQ, c.cores, c.adcFifo, c.evq, c.twOut, c.slpWait, c.slpUnacked, c.slpHeld, c.rxMsgs, c.txBuf, c.occ, c.held⟩)

theorem State.withTabs_keeps {v : SMap Nat} (hp : 4 &&& ft = 4) (h : Keeps ft s₀ s)
    (hv : SMap.sorted s.tabs = true → SMap.sorted v = true) :
    Keeps ft s₀ (s.withTabs v) :=
  h.step .tabs (Foot.bit hp (by decide)) (fun p hp => by cases p <;> first | rfl | exact absurd rfl hp)
    (fun c => ⟨c.regs, hv c.tabs, c.mem, c.runs, c.inj, c.fifos, c.updates, c.results, c.sessions, c.dir, c.dirCopy, c.dramQ, c.cores, c.adcFifo, c.evq, c.twOut, c.slpWait, c.slpUnacked, c.slpHeld, c.rxMsgs, c.txBuf, c.occ, c.held⟩)

theorem State.withMem_keeps {v : List Host.Cell} (hp : 8 &&& ft = 8) (h : Keeps ft s₀ s)
    (hv : Memory.wf s.mem → Memory.wf v) :
    Keeps ft s₀ (s.withMem v) :=
  h.step .mem (Foot.bit hp (by decide)) (fun p hp => by cases p <;> first | rfl | exact absurd rfl hp)
    (fun c => ⟨c.regs, c.tabs, hv c.mem, c.runs, c.inj, c.fifos, c.updates, c.results, c.sessions, c.dir, c.dirCopy, c.dramQ, c.cores, c.adcFifo, c.evq, c.twOut, c.slpWait, c.slpUnacked, c.slpHeld, c.rxMsgs, c.txBuf, c.occ, c.held⟩)

theorem State.withRuns_keeps {v : SMap SeqRun} (hp : 16 &&& ft = 16) (h : Keeps ft s₀ s)
    (hv : SMap.sorted s.runs = true → SMap.sorted v = true) :
    Keeps ft s₀ (s.withRuns v) :=
  h.step .runs (Foot.bit hp (by decide)) (fun p hp => by cases p <;> first | rfl | exact absurd rfl hp)
    (fun c => ⟨c.regs, c.tabs, c.mem, hv c.runs, c.inj, c.fifos, c.updates, c.results, c.sessions, c.dir, c.dirCopy, c.dramQ, c.cores, c.adcFifo, c.evq, c.twOut, c.slpWait, c.slpUnacked, c.slpHeld, c.rxMsgs, c.txBuf, c.occ, c.held⟩)

theorem State.withInj_keeps {v : SMap (List Nat)} (hp : 32 &&& ft = 32) (h : Keeps ft s₀ s)
    (hv : SMap.sorted s.inj = true → SMap.sorted v = true) :
    Keeps ft s₀ (s.withInj v) :=
  h.step .inj (Foot.bit hp (by decide)) (fun p hp => by cases p <;> first | rfl | exact absurd rfl hp)
    (fun c => ⟨c.regs, c.tabs, c.mem, c.runs, hv c.inj, c.fifos, c.updates, c.results, c.sessions, c.dir, c.dirCopy, c.dramQ, c.cores, c.adcFifo, c.evq, c.twOut, c.slpWait, c.slpUnacked, c.slpHeld, c.rxMsgs, c.txBuf, c.occ, c.held⟩)

theorem State.withFifos_keeps {v : SMap (List FailRec)} (hp : 64 &&& ft = 64) (h : Keeps ft s₀ s)
    (hv : SMap.sorted s.fifos = true → SMap.sorted v = true) :
    Keeps ft s₀ (s.withFifos v) :=
  h.step .fifos (Foot.bit hp (by decide)) (fun p hp => by cases p <;> first | rfl | exact absurd rfl hp)
    (fun c => ⟨c.regs, c.tabs, c.mem, c.runs, c.inj, hv c.fifos, c.updates, c.results, c.sessions, c.dir, c.dirCopy, c.dramQ, c.cores, c.adcFifo, c.evq, c.twOut, c.slpWait, c.slpUnacked, c.slpHeld, c.rxMsgs, c.txBuf, c.occ, c.held⟩)

theorem State.withUpdates_keeps {v : SMap (List BitmapUpdate)} (hp : 128 &&& ft = 128) (h : Keeps ft s₀ s)
    (hv : SMap.sorted s.updates = true → SMap.sorted v = true) :
    Keeps ft s₀ (s.withUpdates v) :=
  h.step .updates (Foot.bit hp (by decide)) (fun p hp => by cases p <;> first | rfl | exact absurd rfl hp)
    (fun c => ⟨c.regs, c.tabs, c.mem, c.runs, c.inj, c.fifos, hv c.updates, c.results, c.sessions, c.dir, c.dirCopy, c.dramQ, c.cores, c.adcFifo, c.evq, c.twOut, c.slpWait, c.slpUnacked, c.slpHeld, c.rxMsgs, c.txBuf, c.occ, c.held⟩)

theorem State.withResults_keeps {v : SMap (List ResultEntry)} (hp : 256 &&& ft = 256) (h : Keeps ft s₀ s)
    (hv : SMap.sorted s.results = true → SMap.sorted v = true) :
    Keeps ft s₀ (s.withResults v) :=
  h.step .results (Foot.bit hp (by decide)) (fun p hp => by cases p <;> first | rfl | exact absurd rfl hp)
    (fun c => ⟨c.regs, c.tabs, c.mem, c.runs, c.inj, c.fifos, c.updates, hv c.results, c.sessions, c.dir, c.dirCopy, c.dramQ, c.cores, c.adcFifo, c.evq, c.twOut, c.slpWait, c.slpUnacked, c.slpHeld, c.rxMsgs, c.txBuf, c.occ, c.held⟩)

theorem State.withSessions_keeps {v : SMap RaSession} (hp : 512 &&& ft = 512) (h : Keeps ft s₀ s)
    (hv : SMap.sorted s.sessions = true → SMap.sorted v = true) :
    Keeps ft s₀ (s.withSessions v) :=
  h.step .sessions (Foot.bit hp (by decide)) (fun p hp => by cases p <;> first | rfl | exact absurd rfl hp)
    (fun c => ⟨c.regs, c.tabs, c.mem, c.runs, c.inj, c.fifos, c.updates, c.results, hv c.sessions, c.dir, c.dirCopy, c.dramQ, c.cores, c.adcFifo, c.evq, c.twOut, c.slpWait, c.slpUnacked, c.slpHeld, c.rxMsgs, c.txBuf, c.occ, c.held⟩)

theorem State.withDir_keeps {v : SMap Alloc} (hp : 3072 &&& ft = 3072) (h : Keeps ft s₀ s)
    (hv : SMap.sorted s.dir = true → SMap.sorted v = true) : Keeps ft s₀ (s.withDir v) :=
  h.upd (fun p => by cases p <;> first | exact fun _ => rfl | exact Foot.not hp (by decide)) fun c =>
    { c with dir := hv c.dir, dirCopy := hv c.dir }

theorem State.withDir_canon {v : SMap Alloc} (hp : 3072 &&& ft = 3072) (h : Keeps ft s₀ s)
    (hv : s₀.Canon → SMap.sorted v = true) : Keeps ft s₀ (s.withDir v) :=
  ⟨fun p hq => Part.kept_trans (h.kept p hq)
      ((by cases p <;> first | exact fun _ => rfl | exact Foot.not hp (by decide) : ft.testBit p.idx = false → _) hq),
    fun c => { h.canon c with dir := hv c, dirCopy := hv c }⟩

theorem State.withDramQ_keeps {v : SMap (List DramReq)} (hp : 4096 &&& ft = 4096) (h : Keeps ft s₀ s)
    (hv : SMap.sorted s.dramQ = true → SMap.sorted v = true) :
    Keeps ft s₀ (s.withDramQ v) :=
  h.step .dramQ (Foot.bit hp (by decide)) (fun p hp => by cases p <;> first | rfl | exact absurd rfl hp)
    (fun c => ⟨c.regs, c.tabs, c.mem, c.runs, c.inj, c.fifos, c.updates, c.results, c.sessions, c.dir, c.dirCopy, hv c.dramQ, c.cores, c.adcFifo, c.evq, c.twOut, c.slpWait, c.slpUnacked, c.slpHeld, c.rxMsgs, c.txBuf, c.occ, c.held⟩)

theorem State.withLineQ_keeps (v : List HeldWrite) (hp : 8192 &&& ft = 8192) (h : Keeps ft s₀ s) :
    Keeps ft s₀ (s.withLineQ v) :=
  h.step .lineQ (Foot.bit hp (by decide)) (fun p hp => by cases p <;> first | rfl | exact absurd rfl hp)
    (fun c => ⟨c.regs, c.tabs, c.mem, c.runs, c.inj, c.fifos, c.updates, c.results, c.sessions, c.dir, c.dirCopy, c.dramQ, c.cores, c.adcFifo, c.evq, c.twOut, c.slpWait, c.slpUnacked, c.slpHeld, c.rxMsgs, c.txBuf, c.occ, c.held⟩)

theorem State.withBcIn_keeps (v : List HeldWrite) (hp : 16384 &&& ft = 16384) (h : Keeps ft s₀ s) :
    Keeps ft s₀ (s.withBcIn v) :=
  h.step .bcIn (Foot.bit hp (by decide)) (fun p hp => by cases p <;> first | rfl | exact absurd rfl hp)
    (fun c => ⟨c.regs, c.tabs, c.mem, c.runs, c.inj, c.fifos, c.updates, c.results, c.sessions, c.dir, c.dirCopy, c.dramQ, c.cores, c.adcFifo, c.evq, c.twOut, c.slpWait, c.slpUnacked, c.slpHeld, c.rxMsgs, c.txBuf, c.occ, c.held⟩)

theorem State.withDbgQ_keeps (v : List (Word × List CsrEntry)) (hp : 67108864 &&& ft = 67108864) (h : Keeps ft s₀ s) :
    Keeps ft s₀ (s.withDbgQ v) :=
  h.step .dbgQ (Foot.bit hp (by decide)) (fun p hp => by cases p <;> first | rfl | exact absurd rfl hp)
    (fun c => ⟨c.regs, c.tabs, c.mem, c.runs, c.inj, c.fifos, c.updates, c.results, c.sessions, c.dir, c.dirCopy, c.dramQ, c.cores, c.adcFifo, c.evq, c.twOut, c.slpWait, c.slpUnacked, c.slpHeld, c.rxMsgs, c.txBuf, c.occ, c.held⟩)

theorem State.withHeld_keeps {v : SMap (List Access)} (hp : 17179869184 &&& ft = 17179869184) (h : Keeps ft s₀ s)
    (hv : SMap.sorted s.held = true → SMap.sorted v = true) :
    Keeps ft s₀ (s.withHeld v) :=
  h.step .held (Foot.bit hp (by decide)) (fun p hp => by cases p <;> first | rfl | exact absurd rfl hp)
    (fun c => ⟨c.regs, c.tabs, c.mem, c.runs, c.inj, c.fifos, c.updates, c.results, c.sessions, c.dir, c.dirCopy, c.dramQ, c.cores, c.adcFifo, c.evq, c.twOut, c.slpWait, c.slpUnacked, c.slpHeld, c.rxMsgs, c.txBuf, c.occ, hv c.held⟩)

theorem State.withPzList_keeps (v : List (Nat × Nat)) (hp : 32768 &&& ft = 32768) (h : Keeps ft s₀ s) :
    Keeps ft s₀ (s.withPzList v) :=
  h.step .pzList (Foot.bit hp (by decide)) (fun p hp => by cases p <;> first | rfl | exact absurd rfl hp)
    (fun c => ⟨c.regs, c.tabs, c.mem, c.runs, c.inj, c.fifos, c.updates, c.results, c.sessions, c.dir, c.dirCopy, c.dramQ, c.cores, c.adcFifo, c.evq, c.twOut, c.slpWait, c.slpUnacked, c.slpHeld, c.rxMsgs, c.txBuf, c.occ, c.held⟩)

theorem State.withUses_keeps (v : List (Nat × Nat)) (hp : 65536 &&& ft = 65536) (h : Keeps ft s₀ s) :
    Keeps ft s₀ (s.withUses v) :=
  h.step .uses (Foot.bit hp (by decide)) (fun p hp => by cases p <;> first | rfl | exact absurd rfl hp)
    (fun c => ⟨c.regs, c.tabs, c.mem, c.runs, c.inj, c.fifos, c.updates, c.results, c.sessions, c.dir, c.dirCopy, c.dramQ, c.cores, c.adcFifo, c.evq, c.twOut, c.slpWait, c.slpUnacked, c.slpHeld, c.rxMsgs, c.txBuf, c.occ, c.held⟩)

theorem State.withBadNodes_keeps (v : List (Nat × Nat)) (hp : 131072 &&& ft = 131072) (h : Keeps ft s₀ s) :
    Keeps ft s₀ (s.withBadNodes v) :=
  h.step .badNodes (Foot.bit hp (by decide)) (fun p hp => by cases p <;> first | rfl | exact absurd rfl hp)
    (fun c => ⟨c.regs, c.tabs, c.mem, c.runs, c.inj, c.fifos, c.updates, c.results, c.sessions, c.dir, c.dirCopy, c.dramQ, c.cores, c.adcFifo, c.evq, c.twOut, c.slpWait, c.slpUnacked, c.slpHeld, c.rxMsgs, c.txBuf, c.occ, c.held⟩)

theorem State.withCores_keeps {v : SMap MfpCore} (hp : 262144 &&& ft = 262144) (h : Keeps ft s₀ s)
    (hv : SMap.sorted s.cores = true → SMap.sorted v = true) :
    Keeps ft s₀ (s.withCores v) :=
  h.step .cores (Foot.bit hp (by decide)) (fun p hp => by cases p <;> first | rfl | exact absurd rfl hp)
    (fun c => ⟨c.regs, c.tabs, c.mem, c.runs, c.inj, c.fifos, c.updates, c.results, c.sessions, c.dir, c.dirCopy, c.dramQ, hv c.cores, c.adcFifo, c.evq, c.twOut, c.slpWait, c.slpUnacked, c.slpHeld, c.rxMsgs, c.txBuf, c.occ, c.held⟩)

theorem State.withAdcFifo_keeps {v : SMap (List Nat)} (hp : 524288 &&& ft = 524288) (h : Keeps ft s₀ s)
    (hv : SMap.sorted s.adcFifo = true → SMap.sorted v = true) :
    Keeps ft s₀ (s.withAdcFifo v) :=
  h.step .adcFifo (Foot.bit hp (by decide)) (fun p hp => by cases p <;> first | rfl | exact absurd rfl hp)
    (fun c => ⟨c.regs, c.tabs, c.mem, c.runs, c.inj, c.fifos, c.updates, c.results, c.sessions, c.dir, c.dirCopy, c.dramQ, c.cores, hv c.adcFifo, c.evq, c.twOut, c.slpWait, c.slpUnacked, c.slpHeld, c.rxMsgs, c.txBuf, c.occ, c.held⟩)

theorem State.withEvq_keeps {v : SMap (List EvEntry)} (hp : 1048576 &&& ft = 1048576) (h : Keeps ft s₀ s)
    (hv : SMap.sorted s.evq = true → SMap.sorted v = true) :
    Keeps ft s₀ (s.withEvq v) :=
  h.step .evq (Foot.bit hp (by decide)) (fun p hp => by cases p <;> first | rfl | exact absurd rfl hp)
    (fun c => ⟨c.regs, c.tabs, c.mem, c.runs, c.inj, c.fifos, c.updates, c.results, c.sessions, c.dir, c.dirCopy, c.dramQ, c.cores, c.adcFifo, hv c.evq, c.twOut, c.slpWait, c.slpUnacked, c.slpHeld, c.rxMsgs, c.txBuf, c.occ, c.held⟩)

theorem State.withTwOut_keeps {v : SMap (List TwMsg)} (hp : 2097152 &&& ft = 2097152) (h : Keeps ft s₀ s)
    (hv : SMap.sorted s.twOut = true → SMap.sorted v = true) :
    Keeps ft s₀ (s.withTwOut v) :=
  h.step .twOut (Foot.bit hp (by decide)) (fun p hp => by cases p <;> first | rfl | exact absurd rfl hp)
    (fun c => ⟨c.regs, c.tabs, c.mem, c.runs, c.inj, c.fifos, c.updates, c.results, c.sessions, c.dir, c.dirCopy, c.dramQ, c.cores, c.adcFifo, c.evq, hv c.twOut, c.slpWait, c.slpUnacked, c.slpHeld, c.rxMsgs, c.txBuf, c.occ, c.held⟩)

theorem State.withSlpWait_keeps {v : SMap (List SlpTx)} (hp : 4194304 &&& ft = 4194304) (h : Keeps ft s₀ s)
    (hv : SMap.sorted s.slpWait = true → SMap.sorted v = true) :
    Keeps ft s₀ (s.withSlpWait v) :=
  h.step .slpWait (Foot.bit hp (by decide)) (fun p hp => by cases p <;> first | rfl | exact absurd rfl hp)
    (fun c => ⟨c.regs, c.tabs, c.mem, c.runs, c.inj, c.fifos, c.updates, c.results, c.sessions, c.dir, c.dirCopy, c.dramQ, c.cores, c.adcFifo, c.evq, c.twOut, hv c.slpWait, c.slpUnacked, c.slpHeld, c.rxMsgs, c.txBuf, c.occ, c.held⟩)

theorem State.withSlpUnacked_keeps {v : SMap (List SlpTx)} (hp : 8388608 &&& ft = 8388608) (h : Keeps ft s₀ s)
    (hv : SMap.sorted s.slpUnacked = true → SMap.sorted v = true) :
    Keeps ft s₀ (s.withSlpUnacked v) :=
  h.step .slpUnacked (Foot.bit hp (by decide)) (fun p hp => by cases p <;> first | rfl | exact absurd rfl hp)
    (fun c => ⟨c.regs, c.tabs, c.mem, c.runs, c.inj, c.fifos, c.updates, c.results, c.sessions, c.dir, c.dirCopy, c.dramQ, c.cores, c.adcFifo, c.evq, c.twOut, c.slpWait, hv c.slpUnacked, c.slpHeld, c.rxMsgs, c.txBuf, c.occ, c.held⟩)

theorem State.withSlpHeld_keeps {v : SMap (List SlpHeld)} (hp : 16777216 &&& ft = 16777216) (h : Keeps ft s₀ s)
    (hv : SMap.sorted s.slpHeld = true → SMap.sorted v = true) :
    Keeps ft s₀ (s.withSlpHeld v) :=
  h.step .slpHeld (Foot.bit hp (by decide)) (fun p hp => by cases p <;> first | rfl | exact absurd rfl hp)
    (fun c => ⟨c.regs, c.tabs, c.mem, c.runs, c.inj, c.fifos, c.updates, c.results, c.sessions, c.dir, c.dirCopy, c.dramQ, c.cores, c.adcFifo, c.evq, c.twOut, c.slpWait, c.slpUnacked, hv c.slpHeld, c.rxMsgs, c.txBuf, c.occ, c.held⟩)

theorem State.withCtrlQ_keeps (v : List SlpMsg) (hp : 33554432 &&& ft = 33554432) (h : Keeps ft s₀ s) :
    Keeps ft s₀ (s.withCtrlQ v) :=
  h.step .ctrlQ (Foot.bit hp (by decide)) (fun p hp => by cases p <;> first | rfl | exact absurd rfl hp)
    (fun c => ⟨c.regs, c.tabs, c.mem, c.runs, c.inj, c.fifos, c.updates, c.results, c.sessions, c.dir, c.dirCopy, c.dramQ, c.cores, c.adcFifo, c.evq, c.twOut, c.slpWait, c.slpUnacked, c.slpHeld, c.rxMsgs, c.txBuf, c.occ, c.held⟩)

theorem State.withNotices_keeps (v : List Notice) (hp : 134217728 &&& ft = 134217728) (h : Keeps ft s₀ s) :
    Keeps ft s₀ (s.withNotices v) :=
  h.step .notices (Foot.bit hp (by decide)) (fun p hp => by cases p <;> first | rfl | exact absurd rfl hp)
    (fun c => ⟨c.regs, c.tabs, c.mem, c.runs, c.inj, c.fifos, c.updates, c.results, c.sessions, c.dir, c.dirCopy, c.dramQ, c.cores, c.adcFifo, c.evq, c.twOut, c.slpWait, c.slpUnacked, c.slpHeld, c.rxMsgs, c.txBuf, c.occ, c.held⟩)

theorem State.withSlpObjs_keeps (v : List Nat) (hp : 268435456 &&& ft = 268435456) (h : Keeps ft s₀ s) :
    Keeps ft s₀ (s.withSlpObjs v) :=
  h.step .slpObjs (Foot.bit hp (by decide)) (fun p hp => by cases p <;> first | rfl | exact absurd rfl hp)
    (fun c => ⟨c.regs, c.tabs, c.mem, c.runs, c.inj, c.fifos, c.updates, c.results, c.sessions, c.dir, c.dirCopy, c.dramQ, c.cores, c.adcFifo, c.evq, c.twOut, c.slpWait, c.slpUnacked, c.slpHeld, c.rxMsgs, c.txBuf, c.occ, c.held⟩)

theorem State.withRxMsgs_keeps {v : SMap (List FlowMsg)} (hp : 536870912 &&& ft = 536870912) (h : Keeps ft s₀ s)
    (hv : SMap.sorted s.rxMsgs = true → SMap.sorted v = true) :
    Keeps ft s₀ (s.withRxMsgs v) :=
  h.step .rxMsgs (Foot.bit hp (by decide)) (fun p hp => by cases p <;> first | rfl | exact absurd rfl hp)
    (fun c => ⟨c.regs, c.tabs, c.mem, c.runs, c.inj, c.fifos, c.updates, c.results, c.sessions, c.dir, c.dirCopy, c.dramQ, c.cores, c.adcFifo, c.evq, c.twOut, c.slpWait, c.slpUnacked, c.slpHeld, hv c.rxMsgs, c.txBuf, c.occ, c.held⟩)

theorem State.withTxBuf_keeps {v : SMap (List Nat)} (hp : 1073741824 &&& ft = 1073741824) (h : Keeps ft s₀ s)
    (hv : SMap.sorted s.txBuf = true → SMap.sorted v = true) :
    Keeps ft s₀ (s.withTxBuf v) :=
  h.step .txBuf (Foot.bit hp (by decide)) (fun p hp => by cases p <;> first | rfl | exact absurd rfl hp)
    (fun c => ⟨c.regs, c.tabs, c.mem, c.runs, c.inj, c.fifos, c.updates, c.results, c.sessions, c.dir, c.dirCopy, c.dramQ, c.cores, c.adcFifo, c.evq, c.twOut, c.slpWait, c.slpUnacked, c.slpHeld, c.rxMsgs, hv c.txBuf, c.occ, c.held⟩)

theorem State.withEthTx_keeps (v : List EthReply) (hp : 2147483648 &&& ft = 2147483648) (h : Keeps ft s₀ s) :
    Keeps ft s₀ (s.withEthTx v) :=
  h.step .ethTx (Foot.bit hp (by decide)) (fun p hp => by cases p <;> first | rfl | exact absurd rfl hp)
    (fun c => ⟨c.regs, c.tabs, c.mem, c.runs, c.inj, c.fifos, c.updates, c.results, c.sessions, c.dir, c.dirCopy, c.dramQ, c.cores, c.adcFifo, c.evq, c.twOut, c.slpWait, c.slpUnacked, c.slpHeld, c.rxMsgs, c.txBuf, c.occ, c.held⟩)

theorem State.withOcc_keeps {v : SMap (List Nat)} (hp : 4294967296 &&& ft = 4294967296) (h : Keeps ft s₀ s)
    (hv : SMap.sorted s.occ = true → SMap.sorted v = true) :
    Keeps ft s₀ (s.withOcc v) :=
  h.step .occ (Foot.bit hp (by decide)) (fun p hp => by cases p <;> first | rfl | exact absurd rfl hp)
    (fun c => ⟨c.regs, c.tabs, c.mem, c.runs, c.inj, c.fifos, c.updates, c.results, c.sessions, c.dir, c.dirCopy, c.dramQ, c.cores, c.adcFifo, c.evq, c.twOut, c.slpWait, c.slpUnacked, c.slpHeld, c.rxMsgs, c.txBuf, hv c.occ, c.held⟩)

theorem State.withRaised_keeps (v : List (Nat × Nat)) (hp : 8589934592 &&& ft = 8589934592) (h : Keeps ft s₀ s) :
    Keeps ft s₀ (s.withRaised v) :=
  h.step .raised (Foot.bit hp (by decide)) (fun p hp => by cases p <;> first | rfl | exact absurd rfl hp)
    (fun c => ⟨c.regs, c.tabs, c.mem, c.runs, c.inj, c.fifos, c.updates, c.results, c.sessions, c.dir, c.dirCopy, c.dramQ, c.cores, c.adcFifo, c.evq, c.twOut, c.slpWait, c.slpUnacked, c.slpHeld, c.rxMsgs, c.txBuf, c.occ, c.held⟩)

theorem State.setBytes_keeps (a n v : Nat) (hp : 8 &&& ft = 8) (h : Keeps ft s₀ s) : Keeps ft s₀ (s.setBytes a n v) :=
    by
  induction n generalizing s a v with
  | zero => exact h
  | succ n ih => exact ih _ _ (State.setByte_keeps _ _ hp h)

theorem State.storeList_keeps (a : Nat) (l : List Byte) (hp : 8 &&& ft = 8) (h : Keeps ft s₀ s) :
    Keeps ft s₀ (s.storeList a l) := by
  induction l generalizing s a with
  | nil => exact h
  | cons b r ih => exact ih _ (State.setByte_keeps _ _ hp h)

end Sys2Proof.Machine
end

