-- ==== Sys2Proof/Laws/KeepsOps.lean ====
section
/-! SUPPORT. Once for each: what the operations of Machine/Ops.lean keep: the parts of the
state they may change, and that the canonical form of the state survives them. -/

namespace Sys2Proof.Machine

theorem State.inc_keeps {ft : Nat} {s₀ s : State} (f : Fld) (hp : 2 &&& ft = 2) (h : Keeps ft s₀ s) :
    Keeps ft s₀ (State.inc s f) := by
  delta State.inc
  repeat' first
      | with_reducible assumption | exact Foot.sub hp rfl | intro _ | with_reducible apply State.wr_keeps
      | dsimp only | split

theorem State.incSat_keeps {ft : Nat} {s₀ s : State} (f : Fld) (hp : 2 &&& ft = 2) (h : Keeps ft s₀ s) :
    Keeps ft s₀ (State.incSat s f) := by
  delta State.incSat
  repeat' first
      | with_reducible assumption | exact Foot.sub hp rfl | intro _ | with_reducible apply State.wr_keeps
      | dsimp only | split

theorem State.setBit_keeps {ft : Nat} {s₀ s : State} (f : Fld) (i : Nat) (b : Bool) (hp : 2 &&& ft = 2)
    (h : Keeps ft s₀ s) :
    Keeps ft s₀ (State.setBit s f i b) := by
  delta State.setBit
  repeat' first
      | with_reducible assumption | exact Foot.sub hp rfl | intro _ | with_reducible apply State.wr_keeps
      | dsimp only | split

theorem State.setFlag_keeps {ft : Nat} {s₀ s : State} (f : Fld) (b : Bool) (hp : 2 &&& ft = 2) (h : Keeps ft s₀ s) :
    Keeps ft s₀ (State.setFlag s f b) := by
  delta State.setFlag
  repeat' first
      | with_reducible assumption | exact Foot.sub hp rfl | intro _ | with_reducible apply State.wr_keeps
      | dsimp only | split
end Sys2Proof.Machine
end

