-- ==== Sys2Proof/Laws/KeepsTables.lean ====
section
/-! SUPPORT. Once for each: what the operations of Machine/Tables.lean keep: the parts of the
state they may change, and that the canonical form of the state survives them. -/

namespace Sys2Proof.Machine

theorem State.setWide_keeps {ft : Nat} {s₀ s : State} (t : Tab) (i : Nat) (v : Nat) (hp : 4 &&& ft = 4)
    (h : Keeps ft s₀ s) :
    Keeps ft s₀ (State.setWide s t i v) := by
  delta State.setWide
  repeat' first
      | with_reducible assumption | exact Foot.sub hp rfl | intro _ | with_reducible apply State.setTab_keeps
      | dsimp only | split
end Sys2Proof.Machine
end

