-- ==== Sys2Proof/Laws/KeepsCommon.lean ====
section
/-! SUPPORT. Once for each: what the operations of Machine/Common.lean keep: the parts of the
state they may change, and that the canonical form of the state survives them. -/

namespace Sys2Proof.Machine

theorem State.absentHit_keeps {ft : Nat} {s₀ s : State} (a : Nat) (hp : 2 &&& ft = 2) (h : Keeps ft s₀ s) :
    Keeps ft s₀ (State.absentHit s a) := by
  delta State.absentHit
  repeat' first
      | with_reducible assumption | exact Foot.sub hp rfl | intro _ | with_reducible apply State.incSat_keeps
      | with_reducible apply State.wr_keeps | with_reducible apply State.setFlag_keeps
      | with_reducible apply Keeps.ite | dsimp only | split

theorem State.answer_keeps {ft : Nat} {s₀ s : State} (v : Nat) (hp : 2 &&& ft = 2) (h : Keeps ft s₀ s) :
    Keeps ft s₀ (State.answer s v) := by
  delta State.answer
  repeat' first
      | with_reducible assumption | exact Foot.sub hp rfl | intro _ | with_reducible apply State.wr_keeps
      | dsimp only | split

theorem State.absentUnit_keeps {ft : Nat} {s₀ s : State} (x : Access) (hp : 2 &&& ft = 2) (h : Keeps ft s₀ s) :
    Keeps ft s₀ (State.absentUnit s x) := by
  delta State.absentUnit
  repeat' first
      | with_reducible assumption | exact Foot.sub hp rfl | intro _ | with_reducible apply State.answer_keeps
      | with_reducible apply State.absentHit_keeps | dsimp only | split

theorem State.hold_keeps {ft : Nat} {s₀ s : State} (x : Access) (hp : 17179869184 &&& ft = 17179869184)
    (h : Keeps ft s₀ s) :
    Keeps ft s₀ (State.hold s x) := by
  delta State.hold
  repeat' first
      | with_reducible assumption | exact Foot.sub hp rfl | with_reducible exact id
      | with_reducible exact SMap.sorted_set _ _ _ | with_reducible exact SMap.sorted_put _ _
      | with_reducible exact SMap.sorted_del _ | with_reducible exact SMap.sorted_filter _
      | with_reducible exact Memory.wf_filter _ | with_reducible exact fun _ => SMap.sorted_nil
      | with_reducible exact fun _ => Memory.wf_nil | intro _ | with_reducible apply State.withHeld_keeps
      | dsimp only | split

theorem State.ledgerAdd_keeps {ft : Nat} {s₀ s : State} (w : Nat) (n : Nat) (hp : 4 &&& ft = 4) (h : Keeps ft s₀ s) :
    Keeps ft s₀ (State.ledgerAdd s w n) := by
  delta State.ledgerAdd
  repeat' first
      | with_reducible assumption | exact Foot.sub hp rfl | intro _ | with_reducible apply State.setTab_keeps
      | dsimp only | split

theorem State.ledgerInc_keeps {ft : Nat} {s₀ s : State} (w : Nat) (hp : 4 &&& ft = 4) (h : Keeps ft s₀ s) :
    Keeps ft s₀ (State.ledgerInc s w) := by
  delta State.ledgerInc
  repeat' first
      | with_reducible assumption | exact Foot.sub hp rfl | intro _ | with_reducible apply State.setTab_keeps
      | dsimp only | split

theorem State.reachUnit_keeps {ft : Nat} {s₀ s : State} (x : Access) (b : Blk) (present : Bool) (f : State → State)
    (hp : 17179869186 &&& ft = 17179869186) (h : Keeps ft s₀ s) (h_f : ∀ s , Keeps ft s₀ s → Keeps ft s₀ (f s)) :
    Keeps ft s₀ (State.reachUnit s x b present f) := by
  delta State.reachUnit
  repeat' first
      | with_reducible assumption | exact Foot.sub hp rfl | intro _ | with_reducible apply State.hold_keeps
      | with_reducible apply State.absentUnit_keeps | with_reducible apply h_f | with_reducible apply Keeps.ite
      | dsimp only | split

theorem State.reach_keeps {ft : Nat} {s₀ s : State} (x : Access) (b : Blk) (f : State → State)
    (hp : 17179869186 &&& ft = 17179869186) (h : Keeps ft s₀ s) (h_f : ∀ s , Keeps ft s₀ s → Keeps ft s₀ (f s)) :
    Keeps ft s₀ (State.reach s x b f) := by
  delta State.reach
  repeat' first
      | with_reducible assumption | exact Foot.sub hp rfl | intro _ | with_reducible apply State.reachUnit_keeps
      | with_reducible apply h_f | dsimp only | split

theorem State.writeFields_keeps {ft : Nat} {s₀ s : State} (ls : List Lay) (a : Nat) (v : Nat) (hp : 2 &&& ft = 2)
    (h : Keeps ft s₀ s) :
    Keeps ft s₀ (State.writeFields s ls a v) := by
  delta State.writeFields
  repeat' first
      | with_reducible assumption | exact Foot.sub hp rfl | intro _ | with_reducible apply State.wr_keeps
      | with_reducible apply Keeps.ite | with_reducible apply Keeps.foldl | dsimp only | split
end Sys2Proof.Machine
end

