-- ==== Sys2Proof/Laws/KeepsVelvet.lean ====
section
/-! SUPPORT. Once for each: what the operations of Machine/Velvet.lean keep: the parts of the
state they may change, and that the canonical form of the state survives them. -/

namespace Sys2Proof.Machine

theorem State.applyHeld_keeps {ft : Nat} {s₀ s : State} (c : Nat) (l : Level) (hp : 6 &&& ft = 6) (h : Keeps ft s₀ s) :
    Keeps ft s₀ (State.applyHeld s c l) := by
  delta State.applyHeld
  repeat' first
      | with_reducible assumption | exact Foot.sub hp rfl | intro _ | with_reducible apply State.wr_keeps
      | with_reducible apply State.setTab_keeps | dsimp only | split

theorem State.detectorJudge_keeps {ft : Nat} {s₀ s : State} (c : Nat) (d : Detector) (hp : 2 &&& ft = 2)
    (h : Keeps ft s₀ s) :
    Keeps ft s₀ (State.detectorJudge s c d) := by
  delta State.detectorJudge
  repeat' first
      | with_reducible assumption | exact Foot.sub hp rfl | intro _ | with_reducible apply State.setFlag_keeps
      | with_reducible apply Keeps.ite | dsimp only | split

theorem State.tripMarks_keeps {ft : Nat} {s₀ s : State} (hp : 16 &&& ft = 16) (h : Keeps ft s₀ s) :
    Keeps ft s₀ (State.tripMarks s) := State.withRuns_keeps (Foot.sub hp rfl) h (SMap.sorted_map _)

theorem State.tdrStop_keeps {ft : Nat} {s₀ s : State} (t : Nat) (hp : 2 &&& ft = 2) (h : Keeps ft s₀ s) :
    Keeps ft s₀ (State.tdrStop s t) := by
  delta State.tdrStop
  repeat' first
      | with_reducible assumption | exact Foot.sub hp rfl | intro _ | with_reducible apply State.wr_keeps
      | dsimp only | split

theorem State.tripCapture_keeps {ft : Nat} {s₀ s : State} (t : Nat) (ch : Nat) (cause : Nat) (hp : 2 &&& ft = 2)
    (h : Keeps ft s₀ s) :
    Keeps ft s₀ (State.tripCapture s t ch cause) := by
  delta State.tripCapture
  repeat' first
      | with_reducible assumption | exact Foot.sub hp rfl | intro _ | with_reducible apply State.wr_keeps
      | with_reducible apply State.setFlag_keeps | with_reducible apply Keeps.ite | dsimp only | split

theorem State.latchSet_keeps {ft : Nat} {s₀ s : State} (t : Nat) (ch : Nat) (cause : Nat) (hp : 22 &&& ft = 22)
    (h : Keeps ft s₀ s) :
    Keeps ft s₀ (State.latchSet s t ch cause) := by
  delta State.latchSet
  repeat' first
      | with_reducible assumption | exact Foot.sub hp rfl | intro _ | with_reducible apply State.tripMarks_keeps
      | with_reducible apply State.tdrStop_keeps | with_reducible apply State.tripCapture_keeps
      | with_reducible apply State.ledgerInc_keeps | with_reducible apply State.setFlag_keeps
      | with_reducible apply Keeps.ite | dsimp only | split

theorem State.tripLocal_keeps {ft : Nat} {s₀ s : State} (t : Nat) (ch : Nat) (cause : Nat) (hp : 22 &&& ft = 22)
    (h : Keeps ft s₀ s) :
    Keeps ft s₀ (State.tripLocal s t ch cause) := by
  delta State.tripLocal
  repeat' first
      | with_reducible assumption | exact Foot.sub hp rfl | intro _ | with_reducible apply State.latchSet_keeps
      | with_reducible apply State.forUpTo_keeps | with_reducible apply State.setFlag_keeps
      | with_reducible apply Keeps.ite | dsimp only | split

theorem State.detectorTrip_keeps {ft : Nat} {s₀ s : State} (c : Nat) (d : Detector) (hp : 22 &&& ft = 22)
    (h : Keeps ft s₀ s) :
    Keeps ft s₀ (State.detectorTrip s c d) := by
  delta State.detectorTrip
  repeat' first
      | with_reducible assumption | exact Foot.sub hp rfl | intro _ | with_reducible apply State.tripLocal_keeps
      | with_reducible apply State.ledgerInc_keeps | with_reducible apply Keeps.ite | dsimp only | split

theorem State.leaveSafe_keeps {ft : Nat} {s₀ s : State} (c : Nat) (hp : 2 &&& ft = 2) (h : Keeps ft s₀ s) :
    Keeps ft s₀ (State.leaveSafe s c) := by
  delta State.leaveSafe
  repeat' first
      | with_reducible assumption | exact Foot.sub hp rfl | intro _ | with_reducible apply State.wr_keeps
      | with_reducible apply State.setFlag_keeps | with_reducible apply Keeps.ite | dsimp only | split

theorem State.levelStatus_keeps {ft : Nat} {s₀ s : State} (c : Nat) (hp : 2 &&& ft = 2) (h : Keeps ft s₀ s) :
    Keeps ft s₀ (State.levelStatus s c) := by
  delta State.levelStatus
  repeat' first
      | with_reducible assumption | exact Foot.sub hp rfl | intro _ | with_reducible apply State.setFlag_keeps
      | dsimp only | split

theorem State.lvlCommit_keeps {ft : Nat} {s₀ s : State} (t : Nat) (hp : 6 &&& ft = 6) (h : Keeps ft s₀ s) :
    Keeps ft s₀ (State.lvlCommit s t) := by
  delta State.lvlCommit
  repeat' first
      | with_reducible assumption | exact Foot.sub hp rfl | intro _ | with_reducible apply State.forUpTo_keeps
      | with_reducible apply State.levelStatus_keeps | with_reducible apply State.applyHeld_keeps
      | with_reducible apply Keeps.foldl | dsimp only | split

theorem State.setMxBusy_keeps {ft : Nat} {s₀ s : State} (t : Nat) (b : Bool) (hp : 2 &&& ft = 2) (h : Keeps ft s₀ s) :
    Keeps ft s₀ (State.setMxBusy s t b) := by
  delta State.setMxBusy
  repeat' first
      | with_reducible assumption | exact Foot.sub hp rfl | intro _ | with_reducible apply State.forUpTo_keeps
      | with_reducible apply State.setFlag_keeps | with_reducible apply State.setBit_keeps
      | with_reducible apply State.wr_keeps | with_reducible apply Keeps.ite | dsimp only | split

theorem State.mxRun_keeps {ft : Nat} {s₀ s : State} (t : Nat) (hp : 6 &&& ft = 6) (h : Keeps ft s₀ s) :
    Keeps ft s₀ (State.mxRun s t) := by
  delta State.mxRun
  repeat' first
      | with_reducible assumption | exact Foot.sub hp rfl | intro _ | with_reducible apply State.wr_keeps
      | with_reducible apply State.setFlag_keeps | with_reducible apply State.forUpTo_keeps
      | with_reducible apply State.setTab_keeps | with_reducible apply State.setMxBusy_keeps
      | with_reducible apply Keeps.ite | dsimp only | split

theorem State.mxCommit_keeps {ft : Nat} {s₀ s : State} (t : Nat) (hp : 6 &&& ft = 6) (h : Keeps ft s₀ s) :
    Keeps ft s₀ (State.mxCommit s t) := by
  delta State.mxCommit
  repeat' first
      | with_reducible assumption | exact Foot.sub hp rfl | intro _ | with_reducible apply State.setFlag_keeps
      | with_reducible apply State.mxRun_keeps | with_reducible apply Keeps.ite | dsimp only | split

theorem State.mxErrRel_keeps {ft : Nat} {s₀ s : State} (t : Nat) (hp : 2 &&& ft = 2) (h : Keeps ft s₀ s) :
    Keeps ft s₀ (State.mxErrRel s t) := by
  delta State.mxErrRel
  repeat' first
      | with_reducible assumption | exact Foot.sub hp rfl | intro _ | with_reducible apply State.wr_keeps
      | with_reducible apply State.setFlag_keeps | dsimp only | split

theorem State.protRel_keeps {ft : Nat} {s₀ s : State}  (hp : 2 &&& ft = 2) (h : Keeps ft s₀ s) :
    Keeps ft s₀ (State.protRel s) := by
  delta State.protRel
  repeat' first
      | with_reducible assumption | exact Foot.sub hp rfl | intro _ | with_reducible apply State.setFlag_keeps
      | dsimp only | split

theorem State.releaseCheck_keeps {ft : Nat} {s₀ s : State}  (hp : 2 &&& ft = 2) (h : Keeps ft s₀ s) :
    Keeps ft s₀ (State.releaseCheck s) := by
  delta State.releaseCheck
  repeat' first
      | with_reducible assumption | exact Foot.sub hp rfl | intro _ | with_reducible apply State.forUpTo_keeps
      | with_reducible apply State.setFlag_keeps | with_reducible apply State.leaveSafe_keeps
      | with_reducible apply Keeps.ite | dsimp only | split

theorem State.safeNTrips_keeps {ft : Nat} {s₀ s : State}  (hp : 22 &&& ft = 22) (h : Keeps ft s₀ s) :
    Keeps ft s₀ (State.safeNTrips s) := by
  delta State.safeNTrips
  repeat' first
      | with_reducible assumption | exact Foot.sub hp rfl | intro _ | with_reducible apply State.forUpTo_keeps
      | with_reducible apply State.latchSet_keeps | with_reducible apply Keeps.ite | dsimp only | split

theorem State.tripEvery_keeps {ft : Nat} {s₀ s : State}  (hp : 22 &&& ft = 22) (h : Keeps ft s₀ s) :
    Keeps ft s₀ (State.tripEvery s) := by
  delta State.tripEvery
  repeat' first
      | with_reducible assumption | exact Foot.sub hp rfl | intro _ | with_reducible apply State.setFlag_keeps
      | with_reducible apply State.forUpTo_keeps | with_reducible apply State.latchSet_keeps | dsimp only | split

theorem State.vlvCapRel_keeps {ft : Nat} {s₀ s : State} (t : Nat) (hp : 2 &&& ft = 2) (h : Keeps ft s₀ s) :
    Keeps ft s₀ (State.vlvCapRel s t) := by
  delta State.vlvCapRel
  repeat' first
      | with_reducible assumption | exact Foot.sub hp rfl | intro _ | with_reducible apply State.wr_keeps
      | with_reducible apply State.setFlag_keeps | dsimp only | split

theorem State.writeLevel_keeps {ft : Nat} {s₀ s : State} (c : Nat) (l : Level) (code : Nat) (hp : 6 &&& ft = 6)
    (h : Keeps ft s₀ s) :
    Keeps ft s₀ (State.writeLevel s c l code) := by
  delta State.writeLevel
  repeat' first
      | with_reducible assumption | exact Foot.sub hp rfl | intro _ | with_reducible apply State.setTab_keeps
      | with_reducible apply State.levelStatus_keeps | with_reducible apply State.wr_keeps
      | with_reducible apply Keeps.ite | dsimp only | split

theorem State.writePmu_keeps {ft : Nat} {s₀ s : State} (c : Nat) (w : PmuWrite) (hp : 2 &&& ft = 2)
    (h : Keeps ft s₀ s) :
    Keeps ft s₀ (State.writePmu s c w) := by
  delta State.writePmu
  repeat' first
      | with_reducible assumption | exact Foot.sub hp rfl | intro _ | with_reducible apply State.wr_keeps
      | with_reducible apply State.levelStatus_keeps | with_reducible apply State.setFlag_keeps
      | with_reducible apply Keeps.ite | dsimp only | split

theorem State.writePmuEn_keeps {ft : Nat} {s₀ s : State} (c : Nat) (on : Bool) (hp : 2 &&& ft = 2)
    (h : Keeps ft s₀ s) :
    Keeps ft s₀ (State.writePmuEn s c on) := by
  delta State.writePmuEn
  repeat' first
      | with_reducible assumption | exact Foot.sub hp rfl | intro _ | with_reducible apply State.setFlag_keeps
      | with_reducible apply Keeps.ite | dsimp only | split

theorem State.writeProtEn_keeps {ft : Nat} {s₀ s : State} (c : Nat) (on : Bool) (hp : 22 &&& ft = 22)
    (h : Keeps ft s₀ s) :
    Keeps ft s₀ (State.writeProtEn s c on) := by
  delta State.writeProtEn
  repeat' first
      | with_reducible assumption | exact Foot.sub hp rfl | intro _ | with_reducible apply State.setFlag_keeps
      | with_reducible apply State.detectorTrip_keeps | with_reducible apply Keeps.ite | dsimp only | split

theorem execDeglitchExpiry_keeps {ft : Nat} {s₀ s : State} (ch : Channel) (d : Detector) (ns : Word)
    (hp : 22 &&& ft = 22) (h : Keeps ft s₀ s) :
    KeepsOut ft s₀ (execDeglitchExpiry ch d s ns) := by
  delta execDeglitchExpiry
  repeat' first
      | with_reducible assumption | exact Foot.sub hp rfl | intro _ | with_reducible apply State.setFlag_keeps
      | with_reducible apply State.detectorTrip_keeps | with_reducible apply Keeps.ite
      | with_reducible apply KeepsOut.done | with_reducible apply KeepsOut.next | exact trivial | dsimp only | split

theorem execDetectorInputChange_keeps {ft : Nat} {s₀ s : State} (ch : Channel) (d : Detector) (ua : Word)
    (hp : 2 &&& ft = 2) (h : Keeps ft s₀ s) :
    KeepsOut ft s₀ (execDetectorInputChange ch d ua s) := by
  delta execDetectorInputChange
  repeat' first
      | with_reducible assumption | exact Foot.sub hp rfl | intro _ | with_reducible apply State.detectorJudge_keeps
      | with_reducible apply State.wr_keeps | with_reducible apply Keeps.ite | with_reducible apply KeepsOut.done
      | with_reducible apply KeepsOut.next | exact trivial | dsimp only | split

theorem execLevelWrite_keeps {ft : Nat} {s₀ s : State} (ch : Channel) (lvl : Level) (code : BitVec 16)
    (hp : 17179869190 &&& ft = 17179869190) (h : Keeps ft s₀ s) :
    KeepsOut ft s₀ (execLevelWrite ch lvl code s) := by
  delta execLevelWrite
  repeat' first
      | with_reducible assumption | exact Foot.sub hp rfl | intro _ | with_reducible apply State.reach_keeps
      | with_reducible apply State.writeLevel_keeps | with_reducible apply KeepsOut.done
      | with_reducible apply KeepsOut.next | exact trivial | dsimp only | split

theorem execLvlCommit_keeps {ft : Nat} {s₀ s : State} (t : Tile) (hp : 17179869190 &&& ft = 17179869190)
    (h : Keeps ft s₀ s) :
    KeepsOut ft s₀ (execLvlCommit t s) := by
  delta execLvlCommit
  repeat' first
      | with_reducible assumption | exact Foot.sub hp rfl | intro _ | with_reducible apply State.reach_keeps
      | with_reducible apply State.lvlCommit_keeps | with_reducible apply KeepsOut.done
      | with_reducible apply KeepsOut.next | exact trivial | dsimp only | split

theorem execMxCommit_keeps {ft : Nat} {s₀ s : State} (t : Tile) (hp : 17179869190 &&& ft = 17179869190)
    (h : Keeps ft s₀ s) :
    KeepsOut ft s₀ (execMxCommit t s) := by
  delta execMxCommit
  repeat' first
      | with_reducible assumption | exact Foot.sub hp rfl | intro _ | with_reducible apply State.reach_keeps
      | with_reducible apply State.mxCommit_keeps | with_reducible apply KeepsOut.done
      | with_reducible apply KeepsOut.next | exact trivial | dsimp only | split

theorem execMxCommitEnd_keeps {ft : Nat} {s₀ s : State} (t : Tile) (hp : 6 &&& ft = 6) (h : Keeps ft s₀ s) :
    KeepsOut ft s₀ (execMxCommitEnd t s) := by
  delta execMxCommitEnd
  repeat' first
      | with_reducible assumption | exact Foot.sub hp rfl | intro _ | with_reducible apply State.setFlag_keeps
      | with_reducible apply State.setMxBusy_keeps | with_reducible apply State.mxRun_keeps
      | with_reducible apply Keeps.ite | with_reducible apply KeepsOut.done | with_reducible apply KeepsOut.next
      | exact trivial | dsimp only | split

theorem execMxErrRel_keeps {ft : Nat} {s₀ s : State} (t : Tile) (hp : 17179869186 &&& ft = 17179869186)
    (h : Keeps ft s₀ s) :
    KeepsOut ft s₀ (execMxErrRel t s) := by
  delta execMxErrRel
  repeat' first
      | with_reducible assumption | exact Foot.sub hp rfl | intro _ | with_reducible apply State.reach_keeps
      | with_reducible apply State.mxErrRel_keeps | with_reducible apply KeepsOut.done
      | with_reducible apply KeepsOut.next | exact trivial | dsimp only | split

theorem execPmuSettle_keeps {ft : Nat} {s₀ s : State} (ch : Channel) (hp : 2 &&& ft = 2) (h : Keeps ft s₀ s) :
    KeepsOut ft s₀ (execPmuSettle ch s) := by
  delta execPmuSettle
  repeat' first
      | with_reducible assumption | exact Foot.sub hp rfl | intro _ | with_reducible apply State.setFlag_keeps
      | with_reducible apply Keeps.ite | with_reducible apply KeepsOut.done | with_reducible apply KeepsOut.next
      | exact trivial | dsimp only | split

theorem execProtEn_keeps {ft : Nat} {s₀ s : State} (ch : Channel) (on : Bool) (hp : 17179869206 &&& ft = 17179869206)
    (h : Keeps ft s₀ s) :
    KeepsOut ft s₀ (execProtEn ch on s) := by
  delta execProtEn
  repeat' first
      | with_reducible assumption | exact Foot.sub hp rfl | intro _ | with_reducible apply State.reach_keeps
      | with_reducible apply State.writeProtEn_keeps | with_reducible apply KeepsOut.done
      | with_reducible apply KeepsOut.next | exact trivial | dsimp only | split

theorem execProtForce_keeps {ft : Nat} {s₀ s : State} (t : Tile) (hp : 17179869206 &&& ft = 17179869206)
    (h : Keeps ft s₀ s) :
    KeepsOut ft s₀ (execProtForce t s) := by
  delta execProtForce
  repeat' first
      | with_reducible assumption | exact Foot.sub hp rfl | intro _ | with_reducible apply State.reach_keeps
      | with_reducible apply State.tripLocal_keeps | with_reducible apply KeepsOut.done
      | with_reducible apply KeepsOut.next | exact trivial | dsimp only | split

theorem execProtRel_keeps {ft : Nat} {s₀ s : State} (t : Tile) (hp : 17179869186 &&& ft = 17179869186)
    (h : Keeps ft s₀ s) :
    KeepsOut ft s₀ (execProtRel t s) := by
  delta execProtRel
  repeat' first
      | with_reducible assumption | exact Foot.sub hp rfl | intro _ | with_reducible apply State.reach_keeps
      | with_reducible apply State.protRel_keeps | with_reducible apply KeepsOut.done
      | with_reducible apply KeepsOut.next | exact trivial | dsimp only | split

theorem execReleaseCheck_keeps {ft : Nat} {s₀ s : State}  (hp : 2 &&& ft = 2) (h : Keeps ft s₀ s) :
    KeepsOut ft s₀ (execReleaseCheck s) := by
  delta execReleaseCheck
  repeat' first
      | with_reducible assumption | exact Foot.sub hp rfl | intro _ | with_reducible apply State.releaseCheck_keeps
      | with_reducible apply State.setFlag_keeps | with_reducible apply Keeps.ite
      | with_reducible apply KeepsOut.done | with_reducible apply KeepsOut.next | exact trivial | dsimp only | split

theorem execSafeNFall_keeps {ft : Nat} {s₀ s : State}  (hp : 22 &&& ft = 22) (h : Keeps ft s₀ s) :
    KeepsOut ft s₀ (execSafeNFall s) := by
  delta execSafeNFall
  repeat' first
      | with_reducible assumption | exact Foot.sub hp rfl | intro _ | with_reducible apply State.safeNTrips_keeps
      | with_reducible apply State.forUpTo_keeps | with_reducible apply State.setFlag_keeps
      | with_reducible apply KeepsOut.done | with_reducible apply KeepsOut.next | exact trivial | dsimp only | split

theorem execSafeNRise_keeps {ft : Nat} {s₀ s : State}  (hp : 2 &&& ft = 2) (h : Keeps ft s₀ s) :
    KeepsOut ft s₀ (execSafeNRise s) := by
  delta execSafeNRise
  repeat' first
      | with_reducible assumption | exact Foot.sub hp rfl | intro _ | with_reducible apply State.forUpTo_keeps
      | with_reducible apply State.setFlag_keeps | with_reducible apply KeepsOut.done
      | with_reducible apply KeepsOut.next | exact trivial | dsimp only | split

theorem execSafeSettled_keeps {ft : Nat} {s₀ s : State} (ch : Channel) (hp : 2 &&& ft = 2) (h : Keeps ft s₀ s) :
    KeepsOut ft s₀ (execSafeSettled ch s) := by
  delta execSafeSettled
  repeat' first
      | with_reducible assumption | exact Foot.sub hp rfl | intro _ | with_reducible apply State.setFlag_keeps
      | with_reducible apply Keeps.ite | with_reducible apply KeepsOut.done | with_reducible apply KeepsOut.next
      | exact trivial | dsimp only | split

theorem execVlvCapRel_keeps {ft : Nat} {s₀ s : State} (t : Tile) (hp : 17179869186 &&& ft = 17179869186)
    (h : Keeps ft s₀ s) :
    KeepsOut ft s₀ (execVlvCapRel t s) := by
  delta execVlvCapRel
  repeat' first
      | with_reducible assumption | exact Foot.sub hp rfl | intro _ | with_reducible apply State.reach_keeps
      | with_reducible apply State.vlvCapRel_keeps | with_reducible apply KeepsOut.done
      | with_reducible apply KeepsOut.next | exact trivial | dsimp only | split

theorem execVlvChPmu_keeps {ft : Nat} {s₀ s : State} (ch : Channel) (w : PmuWrite)
    (hp : 17179869186 &&& ft = 17179869186) (h : Keeps ft s₀ s) :
    KeepsOut ft s₀ (execVlvChPmu ch w s) := by
  delta execVlvChPmu
  repeat' first
      | with_reducible assumption | exact Foot.sub hp rfl | intro _ | with_reducible apply State.reach_keeps
      | with_reducible apply State.writePmu_keeps | with_reducible apply KeepsOut.done
      | with_reducible apply KeepsOut.next | exact trivial | dsimp only | split
end Sys2Proof.Machine
end

