-- ==== Sys2Proof/Laws/KeepsTiming.lean ====
section
/-! SUPPORT. Once for each: what the operations of Machine/Timing.lean keep: the parts of the
state they may change, and that the canonical form of the state survives them. -/

namespace Sys2Proof.Machine

theorem State.timErr_keeps {ft : Nat} {s₀ s : State} (c : Nat) (kind : Nat) (hp : 2 &&& ft = 2) (h : Keeps ft s₀ s) :
    Keeps ft s₀ (State.timErr s c kind) := by
  delta State.timErr
  repeat' first
      | with_reducible assumption | exact Foot.sub hp rfl | intro _ | with_reducible apply State.wr_keeps
      | with_reducible apply State.setFlag_keeps | with_reducible apply Keeps.ite | dsimp only | split

theorem State.applyEdge_keeps {ft : Nat} {s₀ s : State} (c : Nat) (t : Nat) (sel : Nat) (hp : 2 &&& ft = 2)
    (h : Keeps ft s₀ s) :
    Keeps ft s₀ (State.applyEdge s c t sel) := by
  delta State.applyEdge
  repeat' first
      | with_reducible assumption | exact Foot.sub hp rfl | intro _ | with_reducible apply State.wr_keeps
      | with_reducible apply State.timErr_keeps | with_reducible apply Keeps.ite | dsimp only | split

theorem State.applyIdle_keeps {ft : Nat} {s₀ s : State} (c : Nat) (hp : 2 &&& ft = 2) (h : Keeps ft s₀ s) :
    Keeps ft s₀ (State.applyIdle s c) := by
  delta State.applyIdle
  repeat' first
      | with_reducible assumption | exact Foot.sub hp rfl | intro _ | with_reducible apply State.wr_keeps
      | dsimp only | split

theorem State.checkTd_keeps {ft : Nat} {s₀ s : State} (t : Nat) (hp : 2 &&& ft = 2) (h : Keeps ft s₀ s) :
    Keeps ft s₀ (State.checkTd s t) := by
  delta State.checkTd
  repeat' first
      | with_reducible assumption | exact Foot.sub hp rfl | intro _ | with_reducible apply State.timErr_keeps
      | dsimp only | split

theorem State.driveByte_keeps {ft : Nat} {s₀ s : State} (q : Nat) (k : Nat) (c : Nat) (b : Nat) (hp : 2 &&& ft = 2)
    (h : Keeps ft s₀ s) :
    Keeps ft s₀ (State.driveByte s q k c b) := by
  delta State.driveByte
  repeat' first
      | with_reducible assumption | exact Foot.sub hp rfl | intro _ | with_reducible apply State.forUpTo_keeps
      | with_reducible apply State.wr_keeps | with_reducible apply State.timErr_keeps
      | with_reducible apply State.applyEdge_keeps | with_reducible apply Keeps.ite
      | with_reducible apply Keeps.foldl | dsimp only | split

theorem State.setTCur_keeps {ft : Nat} {s₀ s : State} (t : Nat) (a : Nat) (v : Nat) (hp : 4 &&& ft = 4)
    (h : Keeps ft s₀ s) :
    Keeps ft s₀ (State.setTCur s t a v) := by
  delta State.setTCur
  repeat' first
      | with_reducible assumption | exact Foot.sub hp rfl | intro _ | with_reducible apply State.setTab_keeps
      | with_reducible apply Keeps.ite | dsimp only | split

theorem State.setChWord_keeps {ft : Nat} {s₀ s : State} (c : Nat) (w : Nat) (v : Nat) (hp : 4 &&& ft = 4)
    (h : Keeps ft s₀ s) :
    Keeps ft s₀ (State.setChWord s c w v) := by
  delta State.setChWord
  repeat' first
      | with_reducible assumption | exact Foot.sub hp rfl | intro _ | with_reducible apply State.setTCur_keeps
      | dsimp only | split

theorem State.sqPend_keeps {ft : Nat} {s₀ s : State}  (hp : 2 &&& ft = 2) (h : Keeps ft s₀ s) :
    Keeps ft s₀ (State.sqPend s) := by
  delta State.sqPend
  repeat' first
      | with_reducible assumption | exact Foot.sub hp rfl | intro _ | with_reducible apply State.setFlag_keeps
      | dsimp only | split

theorem State.sqWriteNow_keeps {ft : Nat} {s₀ s : State} (w : Nat) (v : Nat) (staged : Bool) (hp : 4 &&& ft = 4)
    (h : Keeps ft s₀ s) :
    Keeps ft s₀ (State.sqWriteNow s w v staged) := by
  delta State.sqWriteNow
  repeat' first
      | with_reducible assumption | exact Foot.sub hp rfl | intro _ | with_reducible apply State.setTab_keeps
      | with_reducible apply Keeps.ite | dsimp only | split

theorem State.sqCommit_keeps {ft : Nat} {s₀ s : State}  (hp : 6 &&& ft = 6) (h : Keeps ft s₀ s) :
    Keeps ft s₀ (State.sqCommit s) := by
  delta State.sqCommit
  repeat' first
      | with_reducible assumption | exact Foot.sub hp rfl | intro _ | with_reducible apply State.sqPend_keeps
      | with_reducible apply State.sqWriteNow_keeps | with_reducible apply State.setTab_keeps
      | with_reducible apply Keeps.foldl | dsimp only | split

theorem State.tPend_keeps {ft : Nat} {s₀ s : State} (t : Nat) (hp : 2 &&& ft = 2) (h : Keeps ft s₀ s) :
    Keeps ft s₀ (State.tPend s t) := by
  delta State.tPend
  repeat' first
      | with_reducible assumption | exact Foot.sub hp rfl | intro _ | with_reducible apply State.setFlag_keeps
      | dsimp only | split

theorem State.tEffect_keeps {ft : Nat} {s₀ s : State} (t : Nat) (a : Nat) (v : Nat) (hp : 6 &&& ft = 6)
    (h : Keeps ft s₀ s) :
    Keeps ft s₀ (State.tEffect s t a v) := by
  delta State.tEffect
  repeat' first
      | with_reducible assumption | exact Foot.sub hp rfl | intro _ | with_reducible apply State.setTCur_keeps
      | with_reducible apply State.checkTd_keeps | with_reducible apply State.applyIdle_keeps
      | with_reducible apply Keeps.ite | dsimp only | split

theorem State.tWriteNow_keeps {ft : Nat} {s₀ s : State} (t : Nat) (a : Nat) (v : Nat) (staged : Bool)
    (hp : 6 &&& ft = 6) (h : Keeps ft s₀ s) :
    Keeps ft s₀ (State.tWriteNow s t a v staged) := by
  delta State.tWriteNow
  repeat' first
      | with_reducible assumption | exact Foot.sub hp rfl | intro _ | with_reducible apply State.setTab_keeps
      | with_reducible apply State.tEffect_keeps | with_reducible apply Keeps.ite | dsimp only | split

theorem State.tCommit_keeps {ft : Nat} {s₀ s : State} (t : Nat) (hp : 6 &&& ft = 6) (h : Keeps ft s₀ s) :
    Keeps ft s₀ (State.tCommit s t) := by
  delta State.tCommit
  repeat' first
      | with_reducible assumption | exact Foot.sub hp rfl | intro _ | with_reducible apply State.tPend_keeps
      | with_reducible apply State.tWriteNow_keeps | with_reducible apply State.setTab_keeps
      | with_reducible apply Keeps.foldl | dsimp only | split

theorem State.tdrAbort_keeps {ft : Nat} {s₀ s : State} (t : Nat) (hp : 2 &&& ft = 2) (h : Keeps ft s₀ s) :
    Keeps ft s₀ (State.tdrAbort s t) := by
  delta State.tdrAbort
  repeat' first
      | with_reducible assumption | exact Foot.sub hp rfl | intro _ | with_reducible apply State.tdrStop_keeps
      | dsimp only | split

theorem State.tdrSetDac_keeps {ft : Nat} {s₀ s : State} (t : Nat) (phase : Nat) (hp : 2 &&& ft = 2)
    (h : Keeps ft s₀ s) :
    Keeps ft s₀ (State.tdrSetDac s t phase) := by
  delta State.tdrSetDac
  repeat' first
      | with_reducible assumption | exact Foot.sub hp rfl | intro _ | with_reducible apply State.wr_keeps
      | dsimp only | split

theorem State.tdrAdvance_keeps {ft : Nat} {s₀ s : State} (t : Nat) (hp : 2 &&& ft = 2) (h : Keeps ft s₀ s) :
    Keeps ft s₀ (State.tdrAdvance s t) := by
  delta State.tdrAdvance
  repeat' first
      | with_reducible assumption | exact Foot.sub hp rfl | intro _ | with_reducible apply State.tdrSetDac_keeps
      | with_reducible apply State.wr_keeps | with_reducible apply Keeps.ite | dsimp only | split

theorem State.tdrReport_keeps {ft : Nat} {s₀ s : State} (t : Nat) (k : Nat) (hp : 6 &&& ft = 6) (h : Keeps ft s₀ s) :
    Keeps ft s₀ (State.tdrReport s t k) := by
  delta State.tdrReport
  repeat' first
      | with_reducible assumption | exact Foot.sub hp rfl | intro _ | with_reducible apply State.setChWord_keeps
      | with_reducible apply State.tWriteNow_keeps | with_reducible apply Keeps.ite | dsimp only | split

theorem State.tdrRestore_keeps {ft : Nat} {s₀ s : State} (t : Nat) (hp : 2 &&& ft = 2) (h : Keeps ft s₀ s) :
    Keeps ft s₀ (State.tdrRestore s t) := by
  delta State.tdrRestore
  repeat' first
      | with_reducible assumption | exact Foot.sub hp rfl | intro _ | with_reducible apply State.wr_keeps
      | with_reducible apply State.setFlag_keeps | dsimp only | split

theorem State.tdrEnd_keeps {ft : Nat} {s₀ s : State} (t : Nat) (hp : 6 &&& ft = 6) (h : Keeps ft s₀ s) :
    Keeps ft s₀ (State.tdrEnd s t) := by
  delta State.tdrEnd
  repeat' first
      | with_reducible assumption | exact Foot.sub hp rfl | intro _ | with_reducible apply State.forUpTo_keeps
      | with_reducible apply State.tdrReport_keeps | with_reducible apply State.setFlag_keeps
      | with_reducible apply State.tdrRestore_keeps | with_reducible apply State.wr_keeps
      | with_reducible apply Keeps.ite | dsimp only | split

theorem State.tdrFinish_keeps {ft : Nat} {s₀ s : State} (t : Nat) (k : Nat) (fin : Nat) (rt : Nat) (hp : 6 &&& ft = 6)
    (h : Keeps ft s₀ s) :
    Keeps ft s₀ (State.tdrFinish s t k fin rt) := by
  delta State.tdrFinish
  repeat' first
      | with_reducible assumption | exact Foot.sub hp rfl | intro _ | with_reducible apply State.setChWord_keeps
      | with_reducible apply State.setBit_keeps | dsimp only | split

theorem State.tdrSample_keeps {ft : Nat} {s₀ s : State} (t : Nat) (k : Nat) (x : TdrSample) (hp : 6 &&& ft = 6)
    (h : Keeps ft s₀ s) : Keeps ft s₀ (State.tdrSample s t k x) := by
  have hw : ∀ s v, Keeps ft s₀ s → Keeps ft s₀ ((s.wr (TIM.TDR_T0.f (32 * t + k)) v).setBit (TIM.TDR_GOT.f t) k true) :=
    fun s v h => State.setBit_keeps _ _ _ (Foot.sub hp rfl) (State.wr_keeps _ _ (Foot.sub hp rfl) h)
  have hg : Keeps ft s₀ (s.setBit (TIM.TDR_GOT.f t) k true) := State.setBit_keeps _ _ _ (Foot.sub hp rfl) h
  have hf : ∀ a b, Keeps ft s₀ (s.tdrFinish t k a b) := fun a b => State.tdrFinish_keeps _ _ _ _ (Foot.sub hp rfl) h
  unfold State.tdrSample
  refine Keeps.ite h ?_
  have hd : ∀ (n : Nat) (x : TdrSample), Keeps ft s₀ (match n, x with
    | _, .searching => s
    | 1, .found v => (s.wr (TIM.TDR_T0.f (32 * t + k)) v.toNat).setBit (TIM.TDR_GOT.f t) k true
    | 1, .exhausted => s.tdrFinish t k 4 (s.chWord (32 * t + k) 0x2203)
    | 2, .found v => s.tdrFinish t k 1 (v.toNat - s.rd (TIM.TDR_T0.f (32 * t + k)))
    | 2, .exhausted => s.setBit (TIM.TDR_GOT.f t) k true
    | 3, .found v => s.tdrFinish t k 2 (v.toNat - s.rd (TIM.TDR_T0.f (32 * t + k)))
    | 3, .exhausted => s.tdrFinish t k 3 0
    | _, _ => s) := by
    intro n x
    cases x with
    | searching => rcases n with _ | _ | _ | _ | n <;> exact h
    | found v =>
      rcases n with _ | _ | _ | _ | n
      · exact h
      · exact hw _ _ h
      · exact hf _ _
      · exact hf _ _
      · exact h
    | exhausted =>
      rcases n with _ | _ | _ | _ | n
      · exact h
      · exact hf _ _
      · exact hg
      · exact hf _ _
      · exact h
  exact hd _ _

theorem State.tdrLaunch_keeps {ft : Nat} {s₀ s : State} (t : Nat) (obs : List (Fin 32 × TdrSample))
    (hp : 6 &&& ft = 6) (h : Keeps ft s₀ s) :
    Keeps ft s₀ (State.tdrLaunch s t obs) := by
  delta State.tdrLaunch
  repeat' first
      | with_reducible assumption | exact Foot.sub hp rfl | intro _ | with_reducible apply State.wr_keeps
      | with_reducible apply State.tdrSample_keeps | with_reducible apply State.tdrAdvance_keeps
      | with_reducible apply Keeps.ite | with_reducible apply Keeps.foldl | dsimp only | split

theorem State.tdrRelease_keeps {ft : Nat} {s₀ s : State} (c : Nat) (hp : 2 &&& ft = 2) (h : Keeps ft s₀ s) :
    Keeps ft s₀ (State.tdrRelease s c) := by
  delta State.tdrRelease
  repeat' first
      | with_reducible assumption | exact Foot.sub hp rfl | intro _ | with_reducible apply State.setBit_keeps
      | dsimp only | split

theorem State.tdrStart_keeps {ft : Nat} {s₀ s : State} (t : Nat) (hp : 6 &&& ft = 6) (h : Keeps ft s₀ s) :
    Keeps ft s₀ (State.tdrStart s t) := by
  delta State.tdrStart
  repeat' first
      | with_reducible assumption | exact Foot.sub hp rfl | intro _ | with_reducible apply State.timErr_keeps
      | with_reducible apply State.setChWord_keeps | with_reducible apply State.wr_keeps
      | with_reducible apply State.setFlag_keeps | with_reducible apply State.tdrSetDac_keeps
      | with_reducible apply Keeps.ite | with_reducible apply Keeps.foldl | dsimp only | split

theorem State.timErrRel_keeps {ft : Nat} {s₀ s : State} (t : Nat) (hp : 2 &&& ft = 2) (h : Keeps ft s₀ s) :
    Keeps ft s₀ (State.timErrRel s t) := by
  delta State.timErrRel
  repeat' first
      | with_reducible assumption | exact Foot.sub hp rfl | intro _ | with_reducible apply State.checkTd_keeps
      | with_reducible apply State.wr_keeps | with_reducible apply State.setFlag_keeps | dsimp only | split

theorem State.timingApply_keeps {ft : Nat} {s₀ s : State} (q : Nat) (hp : 6 &&& ft = 6) (h : Keeps ft s₀ s) :
    Keeps ft s₀ (State.timingApply s q) := by
  delta State.timingApply
  repeat' first
      | with_reducible assumption | exact Foot.sub hp rfl | intro _ | with_reducible apply State.setTab_keeps
      | with_reducible apply State.wr_keeps | with_reducible apply State.forUpTo_keeps
      | with_reducible apply State.tPend_keeps | with_reducible apply State.tEffect_keeps
      | with_reducible apply State.sqPend_keeps | with_reducible apply State.checkTd_keeps
      | with_reducible apply Keeps.ite | with_reducible apply Keeps.foldl | dsimp only | split

theorem State.timingStart_keeps {ft : Nat} {s₀ s : State} (q : Nat) (hp : 2 &&& ft = 2) (h : Keeps ft s₀ s) :
    Keeps ft s₀ (State.timingStart s q) := by
  delta State.timingStart
  repeat' first
      | with_reducible assumption | exact Foot.sub hp rfl | intro _ | with_reducible apply State.wr_keeps
      | with_reducible apply State.setFlag_keeps | with_reducible apply State.tdrRelease_keeps
      | with_reducible apply Keeps.foldl | dsimp only | split

theorem State.trkStatus_keeps {ft : Nat} {s₀ s : State} (t : Nat) (hp : 2 &&& ft = 2) (h : Keeps ft s₀ s) :
    Keeps ft s₀ (State.trkStatus s t) := by
  delta State.trkStatus
  repeat' first
      | with_reducible assumption | exact Foot.sub hp rfl | intro _ | with_reducible apply State.setFlag_keeps
      | dsimp only | split

theorem State.writePlane_keeps {ft : Nat} {s₀ s : State} (v : Nat) (hp : 2 &&& ft = 2) (h : Keeps ft s₀ s) :
    Keeps ft s₀ (State.writePlane s v) := by
  delta State.writePlane
  repeat' first
      | with_reducible assumption | exact Foot.sub hp rfl | intro _ | with_reducible apply State.forUpTo_keeps
      | with_reducible apply State.wr_keeps | with_reducible apply State.checkTd_keeps | dsimp only | split

theorem State.writeSq_keeps {ft : Nat} {s₀ s : State} (w : Nat) (v : Nat) (hp : 6 &&& ft = 6) (h : Keeps ft s₀ s) :
    Keeps ft s₀ (State.writeSq s w v) := by
  delta State.writeSq
  repeat' first
      | with_reducible assumption | exact Foot.sub hp rfl | intro _ | with_reducible apply State.absentHit_keeps
      | with_reducible apply State.sqPend_keeps | with_reducible apply State.setTab_keeps
      | with_reducible apply State.sqWriteNow_keeps | with_reducible apply Keeps.ite | dsimp only | split

theorem State.writeT_keeps {ft : Nat} {s₀ s : State} (t : Nat) (a : Nat) (v : Nat) (hp : 6 &&& ft = 6)
    (h : Keeps ft s₀ s) :
    Keeps ft s₀ (State.writeT s t a v) := by
  delta State.writeT
  repeat' first
      | with_reducible assumption | exact Foot.sub hp rfl | intro _ | with_reducible apply State.absentHit_keeps
      | with_reducible apply State.tPend_keeps | with_reducible apply State.setTab_keeps
      | with_reducible apply State.tWriteNow_keeps | with_reducible apply Keeps.ite | dsimp only | split

theorem execCalDone_keeps {ft : Nat} {s₀ s : State}  (hp : 2 &&& ft = 2) (h : Keeps ft s₀ s) :
    KeepsOut ft s₀ (execCalDone s) := by
  delta execCalDone
  repeat' first
      | with_reducible assumption | exact Foot.sub hp rfl | intro _ | with_reducible apply State.forUpTo_keeps
      | with_reducible apply State.wr_keeps | with_reducible apply State.setFlag_keeps
      | with_reducible apply State.trkStatus_keeps | with_reducible apply Keeps.ite
      | with_reducible apply KeepsOut.done | with_reducible apply KeepsOut.next | exact trivial | dsimp only | split

theorem execRecalibrationEnd_keeps {ft : Nat} {s₀ s : State} (ch : Channel) (hp : 2 &&& ft = 2) (h : Keeps ft s₀ s) :
    KeepsOut ft s₀ (execRecalibrationEnd ch s) := by
  delta execRecalibrationEnd
  repeat' first
      | with_reducible assumption | exact Foot.sub hp rfl | intro _ | with_reducible apply State.trkStatus_keeps
      | with_reducible apply State.wr_keeps | with_reducible apply State.setFlag_keeps
      | with_reducible apply Keeps.ite | with_reducible apply KeepsOut.done | with_reducible apply KeepsOut.next
      | exact trivial | dsimp only | split

theorem execRecalibrationStep_keeps {ft : Nat} {s₀ s : State} (ch : Channel) (hp : 2 &&& ft = 2) (h : Keeps ft s₀ s) :
    KeepsOut ft s₀ (execRecalibrationStep ch s) := by
  delta execRecalibrationStep
  repeat' first
      | with_reducible assumption | exact Foot.sub hp rfl | intro _ | with_reducible apply State.setFlag_keeps
      | with_reducible apply Keeps.ite | with_reducible apply KeepsOut.done | with_reducible apply KeepsOut.next
      | exact trivial | dsimp only | split

theorem execSqCommit_keeps {ft : Nat} {s₀ s : State}  (hp : 17179869190 &&& ft = 17179869190) (h : Keeps ft s₀ s) :
    KeepsOut ft s₀ (execSqCommit s) := by
  delta execSqCommit
  repeat' first
      | with_reducible assumption | exact Foot.sub hp rfl | intro _ | with_reducible apply State.reach_keeps
      | with_reducible apply State.sqCommit_keeps | with_reducible apply KeepsOut.done
      | with_reducible apply KeepsOut.next | exact trivial | dsimp only | split

theorem execTCommit_keeps {ft : Nat} {s₀ s : State} (t : Tile) (hp : 17179869190 &&& ft = 17179869190)
    (h : Keeps ft s₀ s) :
    KeepsOut ft s₀ (execTCommit t s) := by
  delta execTCommit
  repeat' first
      | with_reducible assumption | exact Foot.sub hp rfl | intro _ | with_reducible apply State.reach_keeps
      | with_reducible apply State.tCommit_keeps | with_reducible apply KeepsOut.done
      | with_reducible apply KeepsOut.next | exact trivial | dsimp only | split

theorem execTdrAbort_keeps {ft : Nat} {s₀ s : State} (t : Tile) (hp : 17179869186 &&& ft = 17179869186)
    (h : Keeps ft s₀ s) :
    KeepsOut ft s₀ (execTdrAbort t s) := by
  delta execTdrAbort
  repeat' first
      | with_reducible assumption | exact Foot.sub hp rfl | intro _ | with_reducible apply State.reach_keeps
      | with_reducible apply State.tdrAbort_keeps | with_reducible apply KeepsOut.done
      | with_reducible apply KeepsOut.next | exact trivial | dsimp only | split

theorem execTdrEnd_keeps {ft : Nat} {s₀ s : State} (t : Tile) (hp : 6 &&& ft = 6) (h : Keeps ft s₀ s) :
    KeepsOut ft s₀ (execTdrEnd t s) := by
  delta execTdrEnd
  repeat' first
      | with_reducible assumption | exact Foot.sub hp rfl | intro _ | with_reducible apply State.tdrEnd_keeps
      | with_reducible apply Keeps.ite | with_reducible apply KeepsOut.done | with_reducible apply KeepsOut.next
      | exact trivial | dsimp only | split

theorem execTdrLaunch_keeps {ft : Nat} {s₀ s : State} (t : Tile) (obs : List (Fin 32 × TdrSample)) (hp : 6 &&& ft = 6)
    (h : Keeps ft s₀ s) :
    KeepsOut ft s₀ (execTdrLaunch t obs s) := by
  delta execTdrLaunch
  repeat' first
      | with_reducible assumption | exact Foot.sub hp rfl | intro _ | with_reducible apply State.tdrLaunch_keeps
      | with_reducible apply Keeps.ite | with_reducible apply KeepsOut.done | with_reducible apply KeepsOut.next
      | exact trivial | dsimp only | split

theorem execTdrStart_keeps {ft : Nat} {s₀ s : State} (t : Tile) (hp : 17179869190 &&& ft = 17179869190)
    (h : Keeps ft s₀ s) :
    KeepsOut ft s₀ (execTdrStart t s) := by
  delta execTdrStart
  repeat' first
      | with_reducible assumption | exact Foot.sub hp rfl | intro _ | with_reducible apply State.reach_keeps
      | with_reducible apply State.tdrStart_keeps | with_reducible apply KeepsOut.done
      | with_reducible apply KeepsOut.next | exact trivial | dsimp only | split

theorem execTimErrRel_keeps {ft : Nat} {s₀ s : State} (t : Tile) (hp : 17179869186 &&& ft = 17179869186)
    (h : Keeps ft s₀ s) :
    KeepsOut ft s₀ (execTimErrRel t s) := by
  delta execTimErrRel
  repeat' first
      | with_reducible assumption | exact Foot.sub hp rfl | intro _ | with_reducible apply State.reach_keeps
      | with_reducible apply State.timErrRel_keeps | with_reducible apply KeepsOut.done
      | with_reducible apply KeepsOut.next | exact trivial | dsimp only | split

theorem execTimPlane_keeps {ft : Nat} {s₀ s : State} (v : BitVec 15) (hp : 17179869186 &&& ft = 17179869186)
    (h : Keeps ft s₀ s) :
    KeepsOut ft s₀ (execTimPlane v s) := by
  delta execTimPlane
  repeat' first
      | with_reducible assumption | exact Foot.sub hp rfl | intro _ | with_reducible apply State.reach_keeps
      | with_reducible apply State.writePlane_keeps | with_reducible apply KeepsOut.done
      | with_reducible apply KeepsOut.next | exact trivial | dsimp only | split

theorem execTimingWrite_keeps {ft : Nat} {s₀ s : State} (r : TimingReg) (v : Word)
    (hp : 17179869190 &&& ft = 17179869190) (h : Keeps ft s₀ s) :
    KeepsOut ft s₀ (execTimingWrite r v s) := by
  delta execTimingWrite
  repeat' first
      | with_reducible assumption | exact Foot.sub hp rfl | intro _ | with_reducible apply State.reach_keeps
      | with_reducible apply State.writeSq_keeps | with_reducible apply State.writeT_keeps
      | with_reducible apply State.writePlane_keeps | with_reducible apply KeepsOut.done
      | with_reducible apply KeepsOut.next | exact trivial | dsimp only | split
end Sys2Proof.Machine
end

