-- ==== Sys2Proof/Laws/KeepsTree.lean ====
section
/-! SUPPORT. Once for each: what the operations of Machine/Tree.lean keep: the parts of the
state they may change, and that the canonical form of the state survives them. -/

namespace Sys2Proof.Machine

theorem State.bumpParent_keeps {ft : Nat} {s₀ s : State} (x : Nat × Nat) (hp : 6 &&& ft = 6) (h : Keeps ft s₀ s) :
    Keeps ft s₀ (State.bumpParent s x) := by
  delta State.bumpParent
  repeat' first
      | with_reducible assumption | exact Foot.sub hp rfl | intro _ | with_reducible apply State.wr_keeps
      | with_reducible apply State.setWide_keeps | with_reducible apply Keeps.ite | dsimp only | split

theorem State.cacheIn_keeps {ft : Nat} {s₀ s : State} (x : Nat × Nat) (dirty : Bool) (hp : 4 &&& ft = 4)
    (h : Keeps ft s₀ s) :
    Keeps ft s₀ (State.cacheIn s x dirty) := by
  delta State.cacheIn
  repeat' first
      | with_reducible assumption | exact Foot.sub hp rfl | intro _ | with_reducible apply State.setWide_keeps
      | with_reducible apply Keeps.ite | dsimp only | split

theorem State.cachePath_keeps {ft : Nat} {s₀ s : State} (n : Nat) (x : Nat × Nat) (hp : 4 &&& ft = 4)
    (h : Keeps ft s₀ s) :
    Keeps ft s₀ (State.cachePath s n x) := by
  induction n generalizing s x with
  | zero => exact h
  | succ n ih =>
    unfold State.cachePath
    exact Keeps.ite h (ih _ (State.cacheIn_keeps _ _ (Foot.sub hp rfl) h))

theorem State.storeGood_keeps {ft : Nat} {s₀ s : State} (pa : Nat) (hp : 4 &&& ft = 4) (h : Keeps ft s₀ s) :
    Keeps ft s₀ (State.storeGood s pa) := by
  delta State.storeGood
  repeat' first
      | with_reducible assumption | exact Foot.sub hp rfl | intro _ | with_reducible apply State.setWide_keeps
      | with_reducible apply Keeps.ite | dsimp only | split

theorem State.writeBack_keeps {ft : Nat} {s₀ s : State} (x : Nat × Nat) (hp : 6 &&& ft = 6) (h : Keeps ft s₀ s) :
    Keeps ft s₀ (State.writeBack s x) := by
  delta State.writeBack
  repeat' first
      | with_reducible assumption | exact Foot.sub hp rfl | intro _ | with_reducible apply State.setWide_keeps
      | with_reducible apply State.storeGood_keeps | with_reducible apply State.bumpParent_keeps
      | with_reducible apply State.cacheIn_keeps | with_reducible apply Keeps.ite | dsimp only | split

theorem State.cacheTrim_keeps {ft : Nat} {s₀ s : State} (x0 : Nat) (hp : 68719476742 &&& ft = 68719476742)
    (h : Keeps ft s₀ s) :
    Keeps ft s₀ (State.cacheTrim s x0) := by
  induction x0 generalizing s  with
  | zero => first | exact h | trivial
  | succ k ih =>
    unfold State.cacheTrim
    repeat' first
        | with_reducible assumption | exact Foot.sub hp rfl | intro _ | with_reducible apply ih
        | with_reducible apply State.writeBack_keeps | with_reducible apply State.draw_keeps
        | with_reducible apply State.setWide_keeps | dsimp only | split

theorem State.cacheLine_keeps {ft : Nat} {s₀ s : State} (pa : Nat) (write : Bool)
    (hp : 68719476742 &&& ft = 68719476742) (h : Keeps ft s₀ s) :
    Keeps ft s₀ (State.cacheLine s pa write) := by
  delta State.cacheLine
  repeat' first
      | with_reducible assumption | exact Foot.sub hp rfl | intro _ | with_reducible apply State.cachePath_keeps
      | with_reducible apply State.cacheIn_keeps | with_reducible apply State.cacheTrim_keeps | dsimp only | split

theorem State.metaFlush_keeps {ft : Nat} {s₀ s : State}  (hp : 6 &&& ft = 6) (h : Keeps ft s₀ s) :
    Keeps ft s₀ (State.metaFlush s) := by
  delta State.metaFlush
  repeat' first
      | with_reducible assumption | exact Foot.sub hp rfl | intro _ | with_reducible apply State.writeBack_keeps
      | with_reducible apply State.forUpTo_keeps | with_reducible apply State.setWide_keeps
      | with_reducible apply Keeps.foldl | dsimp only | split

theorem State.rootRestore_keeps {ft : Nat} {s₀ s : State}  (hp : 4 &&& ft = 4) (h : Keeps ft s₀ s) :
    Keeps ft s₀ (State.rootRestore s) := by
  delta State.rootRestore
  repeat' first
      | with_reducible assumption | exact Foot.sub hp rfl | intro _ | with_reducible apply State.forUpTo_keeps
      | with_reducible apply State.setWide_keeps | dsimp only | split
end Sys2Proof.Machine
end

