-- ==== Sys2Proof/Laws/KeepsCalBase.lean ====
section
/-! SUPPORT. Once for each: what the operations of Machine/CalBase.lean keep: the parts of the
state they may change, and that the canonical form of the state survives them. -/

namespace Sys2Proof.Machine

theorem State.addUse_keeps {ft : Nat} {s₀ s : State} (u : Nat) (id : Nat) (hp : 65536 &&& ft = 65536)
    (h : Keeps ft s₀ s) :
    Keeps ft s₀ (State.addUse s u id) := by
  delta State.addUse
  repeat' first
      | with_reducible assumption | exact Foot.sub hp rfl | with_reducible exact id
      | with_reducible exact SMap.sorted_set _ _ _ | with_reducible exact SMap.sorted_put _ _
      | with_reducible exact SMap.sorted_del _ | with_reducible exact SMap.sorted_filter _
      | with_reducible exact Memory.wf_filter _ | with_reducible exact fun _ => SMap.sorted_nil
      | with_reducible exact fun _ => Memory.wf_nil | intro _ | with_reducible apply State.withUses_keeps
      | dsimp only | split

theorem State.setDramByte_keeps {ft : Nat} {s₀ s : State} (pa : Nat) (b : Byte) (hp : 12 &&& ft = 12)
    (h : Keeps ft s₀ s) :
    Keeps ft s₀ (State.setDramByte s pa b) := by
  delta State.setDramByte
  repeat' first
      | with_reducible assumption | exact Foot.sub hp rfl | intro _ | with_reducible apply State.setWide_keeps
      | with_reducible apply State.setByte_keeps | dsimp only | split

theorem State.allocStore_keeps {ft : Nat} {s₀ s : State} (a : Alloc) (off : Nat) (x0 : List Byte)
    (hp : 12 &&& ft = 12) (h : Keeps ft s₀ s) :
    Keeps ft s₀ (State.allocStore s a off x0) := by
  induction x0 generalizing s a off with
  | nil => first | exact h | trivial
  | cons a r ih =>
    unfold State.allocStore
    repeat' first
        | with_reducible assumption | exact Foot.sub hp rfl | intro _ | with_reducible apply ih
        | with_reducible apply State.setDramByte_keeps | dsimp only | split

theorem State.encCapture_keeps {ft : Nat} {s₀ s : State} (pa : Nat) (key : Nat) (kind : Nat) (lvl : Nat)
    (hp : 2 &&& ft = 2) (h : Keeps ft s₀ s) :
    Keeps ft s₀ (State.encCapture s pa key kind lvl) := by
  delta State.encCapture
  repeat' first
      | with_reducible assumption | exact Foot.sub hp rfl | intro _ | with_reducible apply State.wr_keeps
      | with_reducible apply State.setFlag_keeps | with_reducible apply Keeps.ite | dsimp only | split

theorem State.ddrCapture_keeps {ft : Nat} {s₀ s : State} (pa : Nat) (key : Nat) (kind : Nat) (hp : 2 &&& ft = 2)
    (h : Keeps ft s₀ s) :
    Keeps ft s₀ (State.ddrCapture s pa key kind) := by
  delta State.ddrCapture
  repeat' first
      | with_reducible assumption | exact Foot.sub hp rfl | intro _ | with_reducible apply State.wr_keeps
      | with_reducible apply State.setFlag_keeps | with_reducible apply Keeps.ite | dsimp only | split

theorem State.storeMark_keeps {ft : Nat} {s₀ s : State} (key : Nat) (pa : Nat) (hp : 8589934598 &&& ft = 8589934598)
    (h : Keeps ft s₀ s) :
    Keeps ft s₀ (State.storeMark s key pa) := by
  delta State.storeMark
  repeat' first
      | with_reducible assumption | exact Foot.sub hp rfl | intro _ | with_reducible apply State.pulse_keeps
      | with_reducible apply State.ddrCapture_keeps | with_reducible apply State.setWide_keeps | dsimp only | split

theorem State.storePoison_keeps {ft : Nat} {s₀ s : State} (key : Nat) (pa : Nat) (kind : Nat)
    (hp : 8589934598 &&& ft = 8589934598) (h : Keeps ft s₀ s) :
    Keeps ft s₀ (State.storePoison s key pa kind) := by
  delta State.storePoison
  repeat' first
      | with_reducible assumption | exact Foot.sub hp rfl | intro _ | with_reducible apply State.encCapture_keeps
      | with_reducible apply State.storeMark_keeps | dsimp only | split

theorem State.loseMacs_keeps {ft : Nat} {s₀ s : State} (pa : Nat) (hp : 4 &&& ft = 4) (h : Keeps ft s₀ s) :
    Keeps ft s₀ (State.loseMacs s pa) := by
  delta State.loseMacs
  repeat' first
      | with_reducible assumption | exact Foot.sub hp rfl | intro _ | with_reducible apply State.forUpTo_keeps
      | with_reducible apply State.setWide_keeps | with_reducible apply Keeps.ite | dsimp only | split

theorem State.macFails_keeps {ft : Nat} {s₀ s : State} (key : Nat) (pa : Nat) (hp : 2 &&& ft = 2) (h : Keeps ft s₀ s) :
    Keeps ft s₀ (State.macFails s key pa) := by
  delta State.macFails
  repeat' first
      | with_reducible assumption | exact Foot.sub hp rfl | intro _ | with_reducible apply State.encCapture_keeps
      | with_reducible apply State.incSat_keeps | dsimp only | split

theorem State.rewriteBad_keeps {ft : Nat} {s₀ s : State} (key : Nat) (pa : Nat) (hp : 8589934598 &&& ft = 8589934598)
    (h : Keeps ft s₀ s) :
    Keeps ft s₀ (State.rewriteBad s key pa) := by
  delta State.rewriteBad
  repeat' first
      | with_reducible assumption | exact Foot.sub hp rfl | intro _ | with_reducible apply State.pulse_keeps
      | with_reducible apply State.ddrCapture_keeps | with_reducible apply State.macFails_keeps
      | with_reducible apply State.storeMark_keeps | with_reducible apply Keeps.ite | dsimp only | split

theorem State.rewriteLines_keeps {ft : Nat} {s₀ s : State} (key : Nat) (p : Nat) (bad : Nat)
    (hp : 77309411334 &&& ft = 77309411334) (h : Keeps ft s₀ s) :
    Keeps ft s₀ (State.rewriteLines s key p bad) := by
  delta State.rewriteLines
  repeat' first
      | with_reducible assumption | exact Foot.sub hp rfl | intro _ | with_reducible apply State.forUpTo_keeps
      | with_reducible apply State.setWide_keeps | with_reducible apply State.rewriteBad_keeps
      | with_reducible apply State.cacheLine_keeps | with_reducible apply Keeps.ite | dsimp only | split

theorem State.pageReencrypt_keeps {ft : Nat} {s₀ s : State} (key : Nat) (pa : Nat) (bad : Nat)
    (hp : 77309411334 &&& ft = 77309411334) (h : Keeps ft s₀ s) :
    Keeps ft s₀ (State.pageReencrypt s key pa bad) := by
  delta State.pageReencrypt
  repeat' first
      | with_reducible assumption | exact Foot.sub hp rfl | intro _ | with_reducible apply State.wr_keeps
      | with_reducible apply State.setWide_keeps | with_reducible apply State.rewriteLines_keeps
      | with_reducible apply State.setBit_keeps | with_reducible apply Keeps.ite | dsimp only | split

theorem State.lineWritten_keeps {ft : Nat} {s₀ s : State} (key : Nat) (pa : Nat) (whole : Bool) (bad : optParam Nat 0)
    (hp : 77309411334 &&& ft = 77309411334) (h : Keeps ft s₀ s) :
    Keeps ft s₀ (State.lineWritten s key pa whole bad) := by
  delta State.lineWritten
  repeat' first
      | with_reducible assumption | exact Foot.sub hp rfl | intro _ | with_reducible apply State.storePoison_keeps
      | with_reducible apply State.loseMacs_keeps | with_reducible apply State.pageReencrypt_keeps
      | with_reducible apply State.cacheLine_keeps | with_reducible apply State.setWide_keeps
      | with_reducible apply State.storeGood_keeps | with_reducible apply Keeps.ite | dsimp only | split

theorem State.allocWrite_keeps {ft : Nat} {s₀ s : State} (a : Alloc) (off : Nat) (bs : List Byte)
    (bad : optParam Nat 0) (hp : 77309411342 &&& ft = 77309411342) (h : Keeps ft s₀ s) :
    Keeps ft s₀ (State.allocWrite s a off bs bad) := by
  delta State.allocWrite
  repeat' first
      | with_reducible assumption | exact Foot.sub hp rfl | intro _ | with_reducible apply State.allocStore_keeps
      | with_reducible apply State.lineWritten_keeps | with_reducible apply Keeps.foldl | dsimp only | split

theorem State.allpoisNotice_keeps {ft : Nat} {s₀ s : State} (id : Nat) (a : Alloc) (hp : 134217728 &&& ft = 134217728)
    (h : Keeps ft s₀ s) :
    Keeps ft s₀ (State.allpoisNotice s id a) := by
  delta State.allpoisNotice
  repeat' first
      | with_reducible assumption | exact Foot.sub hp rfl | with_reducible exact id
      | with_reducible exact SMap.sorted_set _ _ _ | with_reducible exact SMap.sorted_put _ _
      | with_reducible exact SMap.sorted_del _ | with_reducible exact SMap.sorted_filter _
      | with_reducible exact Memory.wf_filter _ | with_reducible exact fun _ => SMap.sorted_nil
      | with_reducible exact fun _ => Memory.wf_nil | intro _ | with_reducible apply State.withNotices_keeps
      | with_reducible apply Keeps.ite | dsimp only | split

theorem State.freeDeleted_keeps {ft : Nat} {s₀ s : State}  (hp : 3072 &&& ft = 3072) (h : Keeps ft s₀ s) :
    Keeps ft s₀ (State.freeDeleted s) := by
  delta State.freeDeleted
  repeat' first
      | with_reducible assumption | exact Foot.sub hp rfl | with_reducible exact id
      | with_reducible exact SMap.sorted_set _ _ _ | with_reducible exact SMap.sorted_put _ _
      | with_reducible exact SMap.sorted_del _ | with_reducible exact SMap.sorted_filter _
      | with_reducible exact Memory.wf_filter _ | with_reducible exact fun _ => SMap.sorted_nil
      | with_reducible exact fun _ => Memory.wf_nil | intro _ | with_reducible apply State.withDir_keeps
      | with_reducible apply Keeps.ite | dsimp only | split

theorem State.dropUse_keeps {ft : Nat} {s₀ s : State} (u : Nat) (hp : 68608 &&& ft = 68608) (h : Keeps ft s₀ s) :
    Keeps ft s₀ (State.dropUse s u) := by
  delta State.dropUse
  repeat' first
      | with_reducible assumption | exact Foot.sub hp rfl | with_reducible exact id
      | with_reducible exact SMap.sorted_set _ _ _ | with_reducible exact SMap.sorted_put _ _
      | with_reducible exact SMap.sorted_del _ | with_reducible exact SMap.sorted_filter _
      | with_reducible exact Memory.wf_filter _ | with_reducible exact fun _ => SMap.sorted_nil
      | with_reducible exact fun _ => Memory.wf_nil | intro _ | with_reducible apply State.freeDeleted_keeps
      | with_reducible apply State.withUses_keeps | dsimp only | split

theorem State.setAlloc_keeps {ft : Nat} {s₀ s : State} (id : Nat) (a : Alloc) (hp : 3072 &&& ft = 3072)
    (h : Keeps ft s₀ s) :
    Keeps ft s₀ (State.setAlloc s id a) := by
  delta State.setAlloc
  repeat' first
      | with_reducible assumption | exact Foot.sub hp rfl | with_reducible exact id
      | with_reducible exact SMap.sorted_set _ _ _ | with_reducible exact SMap.sorted_put _ _
      | with_reducible exact SMap.sorted_del _ | with_reducible exact SMap.sorted_filter _
      | with_reducible exact Memory.wf_filter _ | with_reducible exact fun _ => SMap.sorted_nil
      | with_reducible exact fun _ => Memory.wf_nil | intro _ | with_reducible apply State.withDir_keeps | dsimp only
      | split

theorem State.pageMark_keeps {ft : Nat} {s₀ s : State} (id : Nat) (page : Nat) (hp : 8724188162 &&& ft = 8724188162)
    (h : Keeps ft s₀ s) :
    Keeps ft s₀ (State.pageMark s id page) := by
  delta State.pageMark
  repeat' first
      | with_reducible assumption | exact Foot.sub hp rfl | with_reducible exact id
      | with_reducible exact SMap.sorted_set _ _ _ | with_reducible exact SMap.sorted_put _ _
      | with_reducible exact SMap.sorted_del _ | with_reducible exact SMap.sorted_filter _
      | with_reducible exact Memory.wf_filter _ | with_reducible exact fun _ => SMap.sorted_nil
      | with_reducible exact fun _ => Memory.wf_nil | intro _ | with_reducible apply State.pulse_keeps
      | with_reducible apply State.setAlloc_keeps | with_reducible apply State.withPzList_keeps
      | with_reducible apply State.allpoisNotice_keeps | with_reducible apply State.setFlag_keeps
      | with_reducible apply Keeps.ite | dsimp only | split

theorem State.markPoison_keeps {ft : Nat} {s₀ s : State} (id : Nat) (a : Alloc) (off : Nat) (n : Nat)
    (hp : 8724188162 &&& ft = 8724188162) (h : Keeps ft s₀ s) :
    Keeps ft s₀ (State.markPoison s id a off n) := by
  delta State.markPoison
  repeat' first
      | with_reducible assumption | exact Foot.sub hp rfl | intro _ | with_reducible apply State.pageMark_keeps
      | with_reducible apply Keeps.ite | with_reducible apply Keeps.foldl | dsimp only | split

theorem State.readBad_keeps {ft : Nat} {s₀ s : State} (key : Nat) (pa : Nat) (bad : Bool) (hp : 6 &&& ft = 6)
    (h : Keeps ft s₀ s) :
    Keeps ft s₀ (State.readBad s key pa bad) := by
  delta State.readBad
  repeat' first
      | with_reducible assumption | exact Foot.sub hp rfl | intro _ | with_reducible apply State.macFails_keeps
      | with_reducible apply State.setWide_keeps | with_reducible apply Keeps.ite | dsimp only | split

theorem State.tablePoison_keeps {ft : Nat} {s₀ s : State} (slot : Nat) (hp : 8724155392 &&& ft = 8724155392)
    (h : Keeps ft s₀ s) :
    Keeps ft s₀ (State.tablePoison s slot) := by
  delta State.tablePoison
  repeat' first
      | with_reducible assumption | exact Foot.sub hp rfl | intro _ | with_reducible apply State.pulse_keeps
      | with_reducible apply State.setAlloc_keeps | with_reducible apply State.allpoisNotice_keeps
      | with_reducible apply Keeps.ite | with_reducible apply Keeps.foldl | dsimp only | split

theorem State.zeroLine_keeps {ft : Nat} {s₀ s : State} (a : Alloc) (i : Nat) (hp : 77309411342 &&& ft = 77309411342)
    (h : Keeps ft s₀ s) :
    Keeps ft s₀ (State.zeroLine s a i) := by
  delta State.zeroLine
  repeat' first
      | with_reducible assumption | exact Foot.sub hp rfl | with_reducible exact id
      | with_reducible exact SMap.sorted_set _ _ _ | with_reducible exact SMap.sorted_put _ _
      | with_reducible exact SMap.sorted_del _ | with_reducible exact SMap.sorted_filter _
      | with_reducible exact Memory.wf_filter _ | with_reducible exact fun _ => SMap.sorted_nil
      | with_reducible exact fun _ => Memory.wf_nil | intro _ | with_reducible apply State.withMem_keeps
      | with_reducible apply State.lineWritten_keeps | with_reducible apply State.setWide_keeps | dsimp only | split

theorem State.zeroFrom_keeps {ft : Nat} {s₀ s : State} (a : Alloc) (pos : Nat) (hp : 77309411342 &&& ft = 77309411342)
    (h : Keeps ft s₀ s) :
    Keeps ft s₀ (State.zeroFrom s a pos) := by
  delta State.zeroFrom
  repeat' first
      | with_reducible assumption | exact Foot.sub hp rfl | intro _ | with_reducible apply State.zeroLine_keeps
      | with_reducible apply Keeps.foldl | dsimp only | split
end Sys2Proof.Machine
end

