-- ==== Sys2Proof/Laws/KeepsStream.lean ====
section
/-! SUPPORT. Once for each: what the operations of Machine/Stream.lean keep: the parts of the
state they may change, and that the canonical form of the state survives them. -/

namespace Sys2Proof.Machine

theorem State.askReads_keeps {ft : Nat} {s₀ s : State} (q : Nat) (w : Nat) (hp : 16 &&& ft = 16) (h : Keeps ft s₀ s) :
    Keeps ft s₀ (State.askReads s q w) := by
  delta State.askReads
  repeat' first
      | with_reducible assumption | exact Foot.sub hp rfl | with_reducible exact id
      | with_reducible exact SMap.sorted_set _ _ _ | with_reducible exact SMap.sorted_put _ _
      | with_reducible exact SMap.sorted_del _ | with_reducible exact SMap.sorted_filter _
      | with_reducible exact Memory.wf_filter _ | with_reducible exact fun _ => SMap.sorted_nil
      | with_reducible exact fun _ => Memory.wf_nil | intro _ | with_reducible apply State.withRuns_keeps
      | dsimp only | split

theorem State.dropBuf_keeps {ft : Nat} {s₀ s : State} (q : Nat) (hp : 4 &&& ft = 4) (h : Keeps ft s₀ s) :
    Keeps ft s₀ (State.dropBuf s q) := by
  delta State.dropBuf
  repeat' first
      | with_reducible assumption | exact Foot.sub hp rfl | with_reducible exact id
      | with_reducible exact SMap.sorted_set _ _ _ | with_reducible exact SMap.sorted_put _ _
      | with_reducible exact SMap.sorted_del _ | with_reducible exact SMap.sorted_filter _
      | with_reducible exact Memory.wf_filter _ | with_reducible exact fun _ => SMap.sorted_nil
      | with_reducible exact fun _ => Memory.wf_nil | intro _ | with_reducible apply State.withTabs_keeps
      | dsimp only | split

theorem State.dropLines_keeps {ft : Nat} {s₀ s : State} (q : Nat) (r : SeqRun) (hp : 4 &&& ft = 4)
    (h : Keeps ft s₀ s) :
    Keeps ft s₀ (State.dropLines s q r) := by
  delta State.dropLines
  repeat' first
      | with_reducible assumption | exact Foot.sub hp rfl | with_reducible exact id
      | with_reducible exact SMap.sorted_set _ _ _ | with_reducible exact SMap.sorted_put _ _
      | with_reducible exact SMap.sorted_del _ | with_reducible exact SMap.sorted_filter _
      | with_reducible exact Memory.wf_filter _ | with_reducible exact fun _ => SMap.sorted_nil
      | with_reducible exact fun _ => Memory.wf_nil | intro _ | with_reducible apply State.withTabs_keeps
      | with_reducible apply Keeps.ite | dsimp only | split

theorem State.translate_keeps {ft : Nat} {s₀ s : State} (a : Alloc) (p : Nat) (hp : 8724155392 &&& ft = 8724155392)
    (h : Keeps ft s₀ s) :
    Keeps ft s₀ (State.translate s a p) := by
  delta State.translate
  repeat' first
      | with_reducible assumption | exact Foot.sub hp rfl | intro _ | with_reducible apply State.tablePoison_keeps
      | with_reducible apply Keeps.ite | dsimp only | split

theorem State.fetchLine_keeps {ft : Nat} {s₀ s : State} (q : Nat) (id : Nat) (i : Nat)
    (hp : 77443664902 &&& ft = 77443664902) (h : Keeps ft s₀ s) :
    Keeps ft s₀ (State.fetchLine s q id i) := by
  delta State.fetchLine
  repeat' first
      | with_reducible assumption | exact Foot.sub hp rfl | intro _ | with_reducible apply State.setTab_keeps
      | with_reducible apply State.cacheLine_keeps | with_reducible apply State.pageMark_keeps
      | with_reducible apply Keeps.ite | dsimp only | split

theorem State.takeReads_keeps {ft : Nat} {s₀ s : State} (q : Nat) (hp : 77443664918 &&& ft = 77443664918)
    (h : Keeps ft s₀ s) :
    Keeps ft s₀ (State.takeReads s q) := by
  delta State.takeReads
  repeat' first
      | with_reducible assumption | exact Foot.sub hp rfl | with_reducible exact id
      | with_reducible exact SMap.sorted_set _ _ _ | with_reducible exact SMap.sorted_put _ _
      | with_reducible exact SMap.sorted_del _ | with_reducible exact SMap.sorted_filter _
      | with_reducible exact Memory.wf_filter _ | with_reducible exact fun _ => SMap.sorted_nil
      | with_reducible exact fun _ => Memory.wf_nil | intro _ | with_reducible apply State.translate_keeps
      | with_reducible apply State.fetchLine_keeps | with_reducible apply State.withRuns_keeps
      | with_reducible apply Keeps.foldl | dsimp only | split

theorem State.fetch_keeps {ft : Nat} {s₀ s : State} (q : Nat) (w : Nat) (hp : 77443664918 &&& ft = 77443664918)
    (h : Keeps ft s₀ s) :
    Keeps ft s₀ (State.fetch s q w) := by
  delta State.fetch
  repeat' first
      | with_reducible assumption | exact Foot.sub hp rfl | intro _ | with_reducible apply State.askReads_keeps
      | with_reducible apply State.dropLines_keeps | with_reducible apply State.takeReads_keeps | dsimp only | split

theorem State.fetchAll_keeps {ft : Nat} {s₀ s : State} (q : Nat) (w : Nat) (x0 : Nat)
    (hp : 77443664918 &&& ft = 77443664918) (h : Keeps ft s₀ s) :
    Keeps ft s₀ (State.fetchAll s q w x0) := by
  induction x0 generalizing s q w with
  | zero => first | exact h | trivial
  | succ k ih =>
    unfold State.fetchAll
    repeat' first
        | with_reducible assumption | exact Foot.sub hp rfl | intro _ | with_reducible apply ih
        | with_reducible apply State.fetch_keeps | dsimp only | split
end Sys2Proof.Machine
end

