-- ==== Sys2Proof/Laws/KeepsCompare.lean ====
section
/-! SUPPORT. Once for each: what the operations of Machine/Compare.lean keep: the parts of the
state they may change, and that the canonical form of the state survives them. -/

namespace Sys2Proof.Machine

theorem State.setFifo_keeps {ft : Nat} {s₀ s : State} (site : Nat) (l : List FailRec) (hp : 64 &&& ft = 64)
    (h : Keeps ft s₀ s) :
    Keeps ft s₀ (State.setFifo s site l) := by
  delta State.setFifo
  repeat' first
      | with_reducible assumption | exact Foot.sub hp rfl | with_reducible exact id
      | with_reducible exact SMap.sorted_set _ _ _ | with_reducible exact SMap.sorted_put _ _
      | with_reducible exact SMap.sorted_del _ | with_reducible exact SMap.sorted_filter _
      | with_reducible exact Memory.wf_filter _ | with_reducible exact fun _ => SMap.sorted_nil
      | with_reducible exact fun _ => Memory.wf_nil | intro _ | with_reducible apply State.withFifos_keeps
      | dsimp only | split

theorem State.setUpdates_keeps {ft : Nat} {s₀ s : State} (site : Nat) (l : List BitmapUpdate) (hp : 128 &&& ft = 128)
    (h : Keeps ft s₀ s) :
    Keeps ft s₀ (State.setUpdates s site l) := by
  delta State.setUpdates
  repeat' first
      | with_reducible assumption | exact Foot.sub hp rfl | with_reducible exact id
      | with_reducible exact SMap.sorted_set _ _ _ | with_reducible exact SMap.sorted_put _ _
      | with_reducible exact SMap.sorted_del _ | with_reducible exact SMap.sorted_filter _
      | with_reducible exact Memory.wf_filter _ | with_reducible exact fun _ => SMap.sorted_nil
      | with_reducible exact fun _ => Memory.wf_nil | intro _ | with_reducible apply State.withUpdates_keeps
      | dsimp only | split

theorem State.recordOut_keeps {ft : Nat} {s₀ s : State} (site : Nat) (r : FailRec) (hp : 128 &&& ft = 128)
    (h : Keeps ft s₀ s) :
    Keeps ft s₀ (State.recordOut s site r) := by
  delta State.recordOut
  repeat' first
      | with_reducible assumption | exact Foot.sub hp rfl | intro _ | with_reducible apply State.setUpdates_keeps
      | with_reducible apply Keeps.ite | dsimp only | split

theorem State.passRecords_keeps {ft : Nat} {s₀ s : State} (site : Nat) (l : List FailRec) (hp : 192 &&& ft = 192)
    (h : Keeps ft s₀ s) : Keeps ft s₀ (State.passRecords s site l) := by
  induction l generalizing s with
  | nil => exact State.setFifo_keeps _ _ (Foot.sub hp rfl) h
  | cons r rest ih =>
    unfold State.passRecords
    exact Keeps.ite (State.setFifo_keeps _ _ (Foot.sub hp rfl) h) (ih (State.recordOut_keeps _ _ (Foot.sub hp rfl) h))

theorem State.passHead_keeps {ft : Nat} {s₀ s : State} (site : Nat) (hp : 192 &&& ft = 192) (h : Keeps ft s₀ s) :
    Keeps ft s₀ (State.passHead s site) := by
  delta State.passHead
  repeat' first
      | with_reducible assumption | exact Foot.sub hp rfl | intro _ | with_reducible apply State.passRecords_keeps
      | dsimp only | split

theorem State.setRun_keeps {ft : Nat} {s₀ s : State} (q : Nat) (r : SeqRun) (hp : 16 &&& ft = 16) (h : Keeps ft s₀ s) :
    Keeps ft s₀ (State.setRun s q r) := by
  delta State.setRun
  repeat' first
      | with_reducible assumption | exact Foot.sub hp rfl | with_reducible exact id
      | with_reducible exact SMap.sorted_set _ _ _ | with_reducible exact SMap.sorted_put _ _
      | with_reducible exact SMap.sorted_del _ | with_reducible exact SMap.sorted_filter _
      | with_reducible exact Memory.wf_filter _ | with_reducible exact fun _ => SMap.sorted_nil
      | with_reducible exact fun _ => Memory.wf_nil | intro _ | with_reducible apply State.withRuns_keeps
      | dsimp only | split

theorem State.updBurst_keeps {ft : Nat} {s₀ s : State} (q : Nat) (g : Nat) (f : Burst → Burst) (hp : 16 &&& ft = 16)
    (h : Keeps ft s₀ s) :
    Keeps ft s₀ (State.updBurst s q g f) := by
  delta State.updBurst
  repeat' first
      | with_reducible assumption | exact Foot.sub hp rfl | intro _ | with_reducible apply State.setRun_keeps
      | with_reducible apply h_f | dsimp only | split

theorem State.enterRecord_keeps {ft : Nat} {s₀ s : State} (q : Nat) (b : Burst) (r : FailRec) (hp : 208 &&& ft = 208)
    (h : Keeps ft s₀ s) :
    Keeps ft s₀ (State.enterRecord s q b r) := by
  delta State.enterRecord
  repeat' first
      | with_reducible assumption | exact Foot.sub hp rfl | intro _ | with_reducible apply State.passHead_keeps
      | with_reducible apply State.updBurst_keeps | with_reducible apply State.setFifo_keeps
      | with_reducible apply Keeps.ite | dsimp only | split

theorem State.judgeColumn_keeps {ft : Nat} {s₀ s : State} (f : Flight) (mg : Nat) (c : FlightCol) (ps : List Nat)
    (hp : 2 &&& ft = 2) (h : Keeps ft s₀ s) :
    Keeps ft s₀ (State.judgeColumn s f mg c ps) := by
  delta State.judgeColumn
  repeat' first
      | with_reducible assumption | exact Foot.sub hp rfl | intro _ | with_reducible apply State.wr_keeps
      | with_reducible apply State.incSat_keeps | with_reducible apply Keeps.ite | with_reducible apply Keeps.foldl
      | dsimp only | split

theorem State.recordsOf_keeps {ft : Nat} {s₀ s : State} (f : Flight) (mg : Nat) (q : Nat) (g : Nat)
    (cs : List (FlightCol × List Nat)) (hp : 208 &&& ft = 208) (h : Keeps ft s₀ s) :
    Keeps ft s₀ (State.recordsOf s f mg q g cs) := by
  delta State.recordsOf
  repeat' first
      | with_reducible assumption | exact Foot.sub hp rfl | intro _ | with_reducible apply State.forUpTo_keeps
      | with_reducible apply State.enterRecord_keeps | dsimp only | split

theorem State.raArrive_keeps {ft : Nat} {s₀ s : State} (k : Nat) (g : Nat) (t : ApgTag) (idx : Nat)
    (hp : 514 &&& ft = 514) (h : Keeps ft s₀ s) :
    Keeps ft s₀ (State.raArrive s k g t idx) := by
  delta State.raArrive
  repeat' first
      | with_reducible assumption | exact Foot.sub hp rfl | with_reducible exact id
      | with_reducible exact SMap.sorted_set _ _ _ | with_reducible exact SMap.sorted_put _ _
      | with_reducible exact SMap.sorted_del _ | with_reducible exact SMap.sorted_filter _
      | with_reducible exact Memory.wf_filter _ | with_reducible exact fun _ => SMap.sorted_nil
      | with_reducible exact fun _ => Memory.wf_nil | intro _ | with_reducible apply State.withSessions_keeps
      | with_reducible apply State.setBit_keeps | with_reducible apply Keeps.ite | dsimp only | split

theorem State.raFeed_keeps {ft : Nat} {s₀ s : State} (f : Flight) (mg : Nat) (q : Nat)
    (cs : List (FlightCol × List Nat)) (hp : 514 &&& ft = 514) (h : Keeps ft s₀ s) :
    Keeps ft s₀ (State.raFeed s f mg q cs) := by
  delta State.raFeed
  repeat' first
      | with_reducible assumption | exact Foot.sub hp rfl | intro _ | with_reducible apply State.forUpTo_keeps
      | with_reducible apply State.raArrive_keeps | with_reducible apply Keeps.ite | with_reducible apply Keeps.foldl
      | dsimp only | split

theorem State.judge_keeps {ft : Nat} {s₀ s : State} (q : Nat) (f : Flight) (mg : Nat) (ps : List (List Nat))
    (hp : 722 &&& ft = 722) (h : Keeps ft s₀ s) : Keeps ft s₀ (State.judge s q f mg ps) := by
  unfold State.judge
  extract_lets cs fm
  refine State.raFeed_keeps _ _ _ _ (Foot.sub hp rfl) (State.forUpTo_keeps (State.forUpTo_keeps (Keeps.foldl h ?_) ?_) ?_)
  · intro s x h; exact State.judgeColumn_keeps _ _ _ _ (Foot.sub hp rfl) h
  · intro s g h; exact Keeps.ite (State.updBurst_keeps _ _ _ (Foot.sub hp rfl) h) h
  · intro s g h; exact Keeps.ite (State.recordsOf_keeps _ _ _ _ _ (Foot.sub hp rfl) h) h
end Sys2Proof.Machine
end

