-- ==== Sys2Proof/Laws/KeepsVector.lean ====
section
/-! SUPPORT. Once for each: what the operations of Machine/Vector.lean keep: the parts of the
state they may change, and that the canonical form of the state survives them. -/

namespace Sys2Proof.Machine

theorem State.apgStop_keeps {ft : Nat} {s₀ s : State} (q : Nat) (hp : 2 &&& ft = 2) (h : Keeps ft s₀ s) :
    Keeps ft s₀ (State.apgStop s q) := by
  delta State.apgStop
  repeat' first
      | with_reducible assumption | exact Foot.sub hp rfl | intro _ | with_reducible apply State.wr_keeps
      | with_reducible apply State.setFlag_keeps | dsimp only | split

theorem State.clearTaps_keeps {ft : Nat} {s₀ s : State} (q : Nat) (hp : 2 &&& ft = 2) (h : Keeps ft s₀ s) :
    Keeps ft s₀ (State.clearTaps s q) := by
  delta State.clearTaps
  repeat' first
      | with_reducible assumption | exact Foot.sub hp rfl | intro _ | with_reducible apply State.wr_keeps
      | with_reducible apply Keeps.foldl | dsimp only | split

theorem State.injUnderflow_keeps {ft : Nat} {s₀ s : State} (c : Nat) (hp : 2 &&& ft = 2) (h : Keeps ft s₀ s) :
    Keeps ft s₀ (State.injUnderflow s c) := by
  delta State.injUnderflow
  repeat' first
      | with_reducible assumption | exact Foot.sub hp rfl | intro _ | with_reducible apply State.incSat_keeps
      | with_reducible apply State.wr_keeps | with_reducible apply State.setFlag_keeps
      | with_reducible apply Keeps.ite | dsimp only | split

theorem State.injByte_keeps {ft : Nat} {s₀ s : State} (c : Nat) (hp : 34 &&& ft = 34) (h : Keeps ft s₀ s) :
    Keeps ft s₀ (State.injByte s c).1 := by
  delta State.injByte
  repeat' first
      | with_reducible assumption | exact Foot.sub hp rfl | with_reducible exact id
      | with_reducible exact SMap.sorted_set _ _ _ | with_reducible exact SMap.sorted_put _ _
      | with_reducible exact SMap.sorted_del _ | with_reducible exact SMap.sorted_filter _
      | with_reducible exact Memory.wf_filter _ | with_reducible exact fun _ => SMap.sorted_nil
      | with_reducible exact fun _ => Memory.wf_nil | intro _ | with_reducible apply State.withInj_keeps
      | with_reducible apply State.injUnderflow_keeps | with_reducible apply Keeps.ite | dsimp only | split

theorem State.columnByte_keeps {ft : Nat} {s₀ s : State} (q : Nat) (c : Nat) (j : Nat) (v : VectorSpec)
    (lane : Option (Nat → LaneOut)) (hp : 34 &&& ft = 34) (h : Keeps ft s₀ s) :
    Keeps ft s₀ (State.columnByte s q c j v lane).1 := by
  delta State.columnByte
  repeat' first
      | with_reducible assumption | exact Foot.sub hp rfl | intro _ | with_reducible apply State.injByte_keeps
      | with_reducible apply h_lane | with_reducible refine Keeps.of_fst (by assumption) ?_ | dsimp only | split

theorem State.detachGroup_keeps {ft : Nat} {s₀ s : State} (q : Nat) (g : Nat) (hp : 18 &&& ft = 18)
    (h : Keeps ft s₀ s) :
    Keeps ft s₀ (State.detachGroup s q g) := by
  delta State.detachGroup
  repeat' first
      | with_reducible assumption | exact Foot.sub hp rfl | intro _ | with_reducible apply State.setBit_keeps
      | with_reducible apply State.updBurst_keeps | with_reducible apply State.applyIdle_keeps
      | with_reducible apply Keeps.foldl | dsimp only | split

theorem State.setFails_keeps {ft : Nat} {s₀ s : State} (q : Nat) (m : Nat) (hp : 2 &&& ft = 2) (h : Keeps ft s₀ s) :
    Keeps ft s₀ (State.setFails s q m) := by
  delta State.setFails
  repeat' first
      | with_reducible assumption | exact Foot.sub hp rfl | intro _ | with_reducible apply State.setBit_keeps
      | with_reducible apply Keeps.ite | with_reducible apply Keeps.foldl | dsimp only | split

theorem State.endRun_keeps {ft : Nat} {s₀ s : State} (q : Nat) (code : Nat) (line : Nat) (hp : 22 &&& ft = 22)
    (h : Keeps ft s₀ s) :
    Keeps ft s₀ (State.endRun s q code line) := by
  delta State.endRun
  repeat' first
      | with_reducible assumption | exact Foot.sub hp rfl | intro _ | with_reducible apply State.setFails_keeps
      | with_reducible apply State.apgStop_keeps | with_reducible apply State.setRun_keeps
      | with_reducible apply State.wr_keeps | with_reducible apply State.setBit_keeps
      | with_reducible apply State.timingApply_keeps | with_reducible apply State.applyIdle_keeps
      | with_reducible apply Keeps.ite | with_reducible apply Keeps.foldl | dsimp only | split

theorem State.endDue_keeps {ft : Nat} {s₀ s : State} (q : Nat) (hp : 22 &&& ft = 22) (h : Keeps ft s₀ s) :
    Keeps ft s₀ (State.endDue s q) := by
  delta State.endDue
  repeat' first
      | with_reducible assumption | exact Foot.sub hp rfl | intro _ | with_reducible apply State.endRun_keeps
      | dsimp only | split

theorem State.endRunHere_keeps {ft : Nat} {s₀ s : State} (q : Nat) (code : Nat) (hp : 22 &&& ft = 22)
    (h : Keeps ft s₀ s) :
    Keeps ft s₀ (State.endRunHere s q code) := by
  delta State.endRunHere
  repeat' first
      | with_reducible assumption | exact Foot.sub hp rfl | intro _ | with_reducible apply State.endRun_keeps
      | dsimp only | split

theorem State.endSoon_keeps {ft : Nat} {s₀ s : State} (q : Nat) (code : Nat) (line : Nat) (hp : 16 &&& ft = 16)
    (h : Keeps ft s₀ s) :
    Keeps ft s₀ (State.endSoon s q code line) := by
  delta State.endSoon
  repeat' first
      | with_reducible assumption | exact Foot.sub hp rfl | intro _ | with_reducible apply State.setRun_keeps
      | with_reducible apply Keeps.ite | dsimp only | split

theorem State.endSoonHere_keeps {ft : Nat} {s₀ s : State} (q : Nat) (code : Nat) (hp : 16 &&& ft = 16)
    (h : Keeps ft s₀ s) :
    Keeps ft s₀ (State.endSoonHere s q code) := by
  delta State.endSoonHere
  repeat' first
      | with_reducible assumption | exact Foot.sub hp rfl | intro _ | with_reducible apply State.endSoon_keeps
      | dsimp only | split

theorem State.pushArrival_keeps {ft : Nat} {s₀ s : State} (q : Nat) (a : Arrival) (hp : 16 &&& ft = 16)
    (h : Keeps ft s₀ s) :
    Keeps ft s₀ (State.pushArrival s q a) := by
  delta State.pushArrival
  repeat' first
      | with_reducible assumption | exact Foot.sub hp rfl | intro _ | with_reducible apply State.setRun_keeps
      | dsimp only | split

theorem State.flushHeld_keeps {ft : Nat} {s₀ s : State} (q : Nat) (m : MatchRun) (live : List Nat)
    (x0 : List HeldVector) (hp : 722 &&& ft = 722) (h : Keeps ft s₀ s) :
    Keeps ft s₀ (State.flushHeld s q m live x0) := by
  induction x0 generalizing s q m live with
  | nil => first | exact h | trivial
  | cons a r ih =>
    unfold State.flushHeld
    repeat' first
        | with_reducible assumption | exact Foot.sub hp rfl | intro _ | with_reducible apply ih
        | with_reducible apply State.judge_keeps | with_reducible apply State.pushArrival_keeps | dsimp only | split

theorem State.haltOnFail_keeps {ft : Nat} {s₀ s : State} (q : Nat) (hp : 22 &&& ft = 22) (h : Keeps ft s₀ s) :
    Keeps ft s₀ (State.haltOnFail s q) := by
  delta State.haltOnFail
  repeat' first
      | with_reducible assumption | exact Foot.sub hp rfl | intro _ | with_reducible apply State.endRunHere_keeps
      | with_reducible apply State.detachGroup_keeps | with_reducible apply Keeps.ite
      | with_reducible apply Keeps.foldl | dsimp only | split

theorem State.injsrcApply_keeps {ft : Nat} {s₀ s : State} (c : Nat) (hp : 34 &&& ft = 34) (h : Keeps ft s₀ s) :
    Keeps ft s₀ (State.injsrcApply s c) := by
  delta State.injsrcApply
  repeat' first
      | with_reducible assumption | exact Foot.sub hp rfl | with_reducible exact id
      | with_reducible exact SMap.sorted_set _ _ _ | with_reducible exact SMap.sorted_put _ _
      | with_reducible exact SMap.sorted_del _ | with_reducible exact SMap.sorted_filter _
      | with_reducible exact Memory.wf_filter _ | with_reducible exact fun _ => SMap.sorted_nil
      | with_reducible exact fun _ => Memory.wf_nil | intro _ | with_reducible apply State.wr_keeps
      | with_reducible apply State.setFlag_keeps | with_reducible apply State.withInj_keeps
      | with_reducible apply Keeps.ite | dsimp only | split

theorem State.issueColumn_keeps {ft : Nat} {s₀ s : State} (q : Nat) (k : Nat) (v : VectorSpec)
    (lane : Option (Nat → LaneOut)) (c : Nat) (hp : 34 &&& ft = 34) (h : Keeps ft s₀ s) :
    Keeps ft s₀ (State.issueColumn s q k v lane c).1 := by
  delta State.issueColumn
  repeat' first
      | with_reducible assumption | exact Foot.sub hp rfl | intro _ | with_reducible apply State.columnByte_keeps
      | with_reducible apply State.wr_keeps | with_reducible apply State.driveByte_keeps
      | with_reducible apply h_lane | with_reducible apply Keeps.ite
      | with_reducible refine Keeps.of_fst (by assumption) ?_ | dsimp only | split

theorem State.issueColumns_keeps {ft : Nat} {s₀ s : State} (q : Nat) (k : Nat) (v : VectorSpec)
    (lane : Option (Nat → LaneOut)) (x0 : List Nat) (hp : 34 &&& ft = 34) (h : Keeps ft s₀ s) :
    Keeps ft s₀ (State.issueColumns s q k v lane x0).1 := by
  induction x0 generalizing s q k v lane with
  | nil => first | exact h | trivial
  | cons a r ih =>
    unfold State.issueColumns
    repeat' first
        | with_reducible assumption | exact Foot.sub hp rfl | intro _ | with_reducible apply ih
        | with_reducible apply State.issueColumn_keeps | with_reducible apply h_lane
        | with_reducible refine Keeps.of_fst (by assumption) ?_ | dsimp only | split

theorem State.refreshStart_keeps {ft : Nat} {s₀ s : State} (g : Nat) (hp : 2 &&& ft = 2) (h : Keeps ft s₀ s) :
    Keeps ft s₀ (State.refreshStart s g) := by
  delta State.refreshStart
  repeat' first
      | with_reducible assumption | exact Foot.sub hp rfl | intro _ | with_reducible apply State.wr_keeps
      | with_reducible apply State.setFlag_keeps | dsimp only | split

theorem State.vectorZero_keeps {ft : Nat} {s₀ s : State} (q : Nat) (r : SeqRun) (hp : 2 &&& ft = 2)
    (h : Keeps ft s₀ s) :
    Keeps ft s₀ (State.vectorZero s q r) := by
  delta State.vectorZero
  repeat' first
      | with_reducible assumption | exact Foot.sub hp rfl | intro _ | with_reducible apply State.wr_keeps
      | with_reducible apply State.refreshStart_keeps | with_reducible apply Keeps.ite | dsimp only | split

theorem State.setVcnt_keeps {ft : Nat} {s₀ s : State} (q : Nat) (n : Nat) (hp : 2 &&& ft = 2) (h : Keeps ft s₀ s) :
    Keeps ft s₀ (State.setVcnt s q n) := by
  delta State.setVcnt
  repeat' first
      | with_reducible assumption | exact Foot.sub hp rfl | intro _ | with_reducible apply State.wr_keeps
      | dsimp only | split

theorem State.issueVector_keeps {ft : Nat} {s₀ s : State} (q : Nat) (r : SeqRun) (v : VectorSpec)
    (lane : Option (Nat → LaneOut)) (hp : 50 &&& ft = 50) (h : Keeps ft s₀ s) :
    Keeps ft s₀ (State.issueVector s q r v lane) := by
  delta State.issueVector
  repeat' first
      | with_reducible assumption | exact Foot.sub hp rfl | intro _ | with_reducible apply State.vectorZero_keeps
      | with_reducible apply State.issueColumns_keeps | with_reducible apply State.setVcnt_keeps
      | with_reducible apply State.setRun_keeps | with_reducible apply h_lane | with_reducible apply Keeps.ite
      | with_reducible refine Keeps.of_fst (by assumption) ?_ | dsimp only | split

theorem State.takeArrival_keeps {ft : Nat} {s₀ s : State} (q : Nat) (a : Arrival) (hp : 18 &&& ft = 18)
    (h : Keeps ft s₀ s) :
    Keeps ft s₀ (State.takeArrival s q a) := by
  delta State.takeArrival
  repeat' first
      | with_reducible assumption | exact Foot.sub hp rfl | intro _ | with_reducible apply State.setRun_keeps
      | with_reducible apply State.setFails_keeps | dsimp only | split

theorem State.takeArrivals_keeps {ft : Nat} {s₀ s : State} (q : Nat) (hp : 18 &&& ft = 18) (h : Keeps ft s₀ s) :
    Keeps ft s₀ (State.takeArrivals s q) := by
  delta State.takeArrivals
  repeat' first
      | with_reducible assumption | exact Foot.sub hp rfl | intro _ | with_reducible apply State.setRun_keeps
      | with_reducible apply State.takeArrival_keeps | with_reducible apply Keeps.foldl | dsimp only | split

theorem State.matchFinish_keeps {ft : Nat} {s₀ s : State} (q : Nat) (hp : 722 &&& ft = 722) (h : Keeps ft s₀ s) :
    Keeps ft s₀ (State.matchFinish s q) := by
  delta State.matchFinish
  repeat' first
      | with_reducible assumption | exact Foot.sub hp rfl | intro _ | with_reducible apply State.setBit_keeps
      | with_reducible apply State.setRun_keeps | with_reducible apply State.wr_keeps
      | with_reducible apply State.takeArrivals_keeps | with_reducible apply State.flushHeld_keeps
      | with_reducible apply Keeps.ite | with_reducible apply Keeps.foldl | dsimp only | split

theorem State.twlOffSettle_keeps {ft : Nat} {s₀ s : State}  (hp : 2 &&& ft = 2) (h : Keeps ft s₀ s) :
    Keeps ft s₀ (State.twlOffSettle s) := by
  delta State.twlOffSettle
  repeat' first
      | with_reducible assumption | exact Foot.sub hp rfl | intro _ | with_reducible apply State.setBit_keeps
      | with_reducible apply State.setFlag_keeps | with_reducible apply Keeps.ite | dsimp only | split

theorem State.release_keeps {ft : Nat} {s₀ s : State} (q : Nat) (hp : 3126 &&& ft = 3126) (h : Keeps ft s₀ s) :
    Keeps ft s₀ (State.release s q) := by
  delta State.release
  repeat' first
      | with_reducible assumption | exact Foot.sub hp rfl | with_reducible exact id
      | with_reducible exact SMap.sorted_set _ _ _ | with_reducible exact SMap.sorted_put _ _
      | with_reducible exact SMap.sorted_del _ | with_reducible exact SMap.sorted_filter _
      | with_reducible exact Memory.wf_filter _ | with_reducible exact fun _ => SMap.sorted_nil
      | with_reducible exact fun _ => Memory.wf_nil | intro _ | with_reducible apply State.dropBuf_keeps
      | with_reducible apply State.withRuns_keeps | with_reducible apply State.wr_keeps
      | with_reducible apply State.twlOffSettle_keeps | with_reducible apply State.freeDeleted_keeps
      | with_reducible apply State.injsrcApply_keeps | with_reducible apply State.clearTaps_keeps
      | with_reducible apply Keeps.foldl | dsimp only | split
end Sys2Proof.Machine
end

