-- ==== Sys2Proof/Laws/KeepsTwill.lean ====
section
/-! SUPPORT. Once for each: what the operations of Machine/Twill.lean keep: the parts of the
state they may change, and that the canonical form of the state survives them. -/

namespace Sys2Proof.Machine

theorem State.lineTset_keeps {ft : Nat} {s₀ s : State} (q : Nat) (r : SeqRun) (l : TwlLine) (hp : 2 &&& ft = 2)
    (h : Keeps ft s₀ s) :
    Keeps ft s₀ (State.lineTset s q r l) := by
  delta State.lineTset
  repeat' first
      | with_reducible assumption | exact Foot.sub hp rfl | intro _ | with_reducible apply State.timErr_keeps
      | with_reducible apply State.wr_keeps | with_reducible apply Keeps.ite | dsimp only | split

theorem State.lineVector_keeps {ft : Nat} {s₀ s : State} (q : Nat) (l : TwlLine) (masked : Bool) (iter : Nat)
    (iterEnd : Bool) (hp : 50 &&& ft = 50) (h : Keeps ft s₀ s) :
    Keeps ft s₀ (State.lineVector s q l masked iter iterEnd) := by
  delta State.lineVector
  repeat' first
      | with_reducible assumption | exact Foot.sub hp rfl | intro _ | with_reducible apply State.issueVector_keeps
      | with_reducible apply State.wr_keeps | dsimp only | split

theorem State.mapRun_keeps {ft : Nat} {s₀ s : State} (q : Nat) (f : SeqRun → SeqRun) (hp : 16 &&& ft = 16)
    (h : Keeps ft s₀ s) :
    Keeps ft s₀ (State.mapRun s q f) := by
  delta State.mapRun
  repeat' first
      | with_reducible assumption | exact Foot.sub hp rfl | intro _ | with_reducible apply State.setRun_keeps
      | with_reducible apply h_f | dsimp only | split

theorem State.firstVector_keeps {ft : Nat} {s₀ s : State} (q : Nat) (r : SeqRun) (l : TwlLine) (n : Nat)
    (hp : 8589934642 &&& ft = 8589934642) (h : Keeps ft s₀ s) :
    Keeps ft s₀ (State.firstVector s q r l n) := by
  delta State.firstVector
  repeat' first
      | with_reducible assumption | exact Foot.sub hp rfl | intro _ | with_reducible apply State.lineTset_keeps
      | with_reducible apply State.pulse_keeps | with_reducible apply State.wr_keeps
      | with_reducible apply State.lineVector_keeps | with_reducible apply State.mapRun_keeps
      | with_reducible apply Keeps.ite | dsimp only | split

theorem State.goLine_keeps {ft : Nat} {s₀ s : State} (q : Nat) (w : Nat) (flow : Bool) (hp : 16 &&& ft = 16)
    (h : Keeps ft s₀ s) :
    Keeps ft s₀ (State.goLine s q w flow) := by
  delta State.goLine
  repeat' first
      | with_reducible assumption | exact Foot.sub hp rfl | intro _ | with_reducible apply State.mapRun_keeps
      | dsimp only | split

theorem State.goNext_keeps {ft : Nat} {s₀ s : State} (q : Nat) (l : TwlLine) (hp : 16 &&& ft = 16)
    (h : Keeps ft s₀ s) :
    Keeps ft s₀ (State.goNext s q l) := by
  delta State.goNext
  repeat' first
      | with_reducible assumption | exact Foot.sub hp rfl | intro _ | with_reducible apply State.mapRun_keeps
      | dsimp only | split

theorem State.haltDue_keeps {ft : Nat} {s₀ s : State} (q : Nat) (hp : 22 &&& ft = 22) (h : Keeps ft s₀ s) :
    Keeps ft s₀ (State.haltDue s q) := by
  delta State.haltDue
  repeat' first
      | with_reducible assumption | exact Foot.sub hp rfl | intro _ | with_reducible apply State.haltOnFail_keeps
      | with_reducible apply State.takeArrivals_keeps | with_reducible apply Keeps.ite | dsimp only | split

theorem State.lineFound_keeps {ft : Nat} {s₀ s : State} (q : Nat) (r : SeqRun) (w : Nat) (x0 : Decoded)
    (hp : 77443664918 &&& ft = 77443664918) (h : Keeps ft s₀ s) :
    Keeps ft s₀ (State.lineFound s q r w x0) := by
  delta State.lineFound
  repeat' first
      | with_reducible assumption | exact Foot.sub hp rfl | intro _ | with_reducible apply State.endSoon_keeps
      | with_reducible apply State.fetch_keeps | with_reducible apply State.setRun_keeps
      | with_reducible apply State.setBit_keeps | dsimp only | split

theorem State.lineDecode_keeps {ft : Nat} {s₀ s : State} (q : Nat) (r : SeqRun) (w : Nat)
    (hp : 77443664918 &&& ft = 77443664918) (h : Keeps ft s₀ s) :
    Keeps ft s₀ (State.lineDecode s q r w) := by
  delta State.lineDecode
  repeat' first
      | with_reducible assumption | exact Foot.sub hp rfl | intro _ | with_reducible apply State.endSoon_keeps
      | with_reducible apply State.lineFound_keeps | dsimp only | split

theorem State.mapApply_keeps {ft : Nat} {s₀ s : State} (q : Nat) (hp : 6 &&& ft = 6) (h : Keeps ft s₀ s) :
    Keeps ft s₀ (State.mapApply s q) := by
  delta State.mapApply
  repeat' first
      | with_reducible assumption | exact Foot.sub hp rfl | intro _ | with_reducible apply State.wr_keeps
      | with_reducible apply State.forUpTo_keeps | with_reducible apply State.setFlag_keeps
      | with_reducible apply State.setTab_keeps | with_reducible apply Keeps.ite | with_reducible apply Keeps.foldl
      | dsimp only | split

theorem State.mapRefuse_keeps {ft : Nat} {s₀ s : State} (q : Nat) (kind : Nat) (ch : Nat) (other : Nat)
    (hp : 2 &&& ft = 2) (h : Keeps ft s₀ s) :
    Keeps ft s₀ (State.mapRefuse s q kind ch other) := by
  delta State.mapRefuse
  repeat' first
      | with_reducible assumption | exact Foot.sub hp rfl | intro _ | with_reducible apply State.wr_keeps
      | with_reducible apply State.setFlag_keeps | with_reducible apply Keeps.ite | dsimp only | split

theorem State.mapCommit_keeps {ft : Nat} {s₀ s : State} (q : Nat) (hp : 6 &&& ft = 6) (h : Keeps ft s₀ s) :
    Keeps ft s₀ (State.mapCommit s q) := by
  delta State.mapCommit
  repeat' first
      | with_reducible assumption | exact Foot.sub hp rfl | intro _ | with_reducible apply State.mapRefuse_keeps
      | with_reducible apply State.mapApply_keeps | dsimp only | split

theorem State.mapErrRel_keeps {ft : Nat} {s₀ s : State} (q : Nat) (hp : 2 &&& ft = 2) (h : Keeps ft s₀ s) :
    Keeps ft s₀ (State.mapErrRel s q) := by
  delta State.mapErrRel
  repeat' first
      | with_reducible assumption | exact Foot.sub hp rfl | intro _ | with_reducible apply State.wr_keeps
      | with_reducible apply State.setFlag_keeps | dsimp only | split

theorem State.matchTail_keeps {ft : Nat} {s₀ s : State} (q : Nat) (r : SeqRun) (m : MatchRun) (hp : 50 &&& ft = 50)
    (h : Keeps ft s₀ s) :
    Keeps ft s₀ (State.matchTail s q r m) := by
  delta State.matchTail
  repeat' first
      | with_reducible assumption | exact Foot.sub hp rfl | intro _ | with_reducible apply State.issueVector_keeps
      | with_reducible apply State.wr_keeps | with_reducible apply Keeps.ite | dsimp only | split

theorem State.resolve_keeps {ft : Nat} {s₀ s : State} (q : Nat) (hp : 722 &&& ft = 722) (h : Keeps ft s₀ s) :
    Keeps ft s₀ (State.resolve s q) := by
  delta State.resolve
  repeat' first
      | with_reducible assumption | exact Foot.sub hp rfl | intro _ | with_reducible apply State.matchFinish_keeps
      | with_reducible apply State.setRun_keeps | with_reducible apply State.wr_keeps
      | with_reducible apply Keeps.ite | dsimp only | split

theorem State.rptNext_keeps {ft : Nat} {s₀ s : State} (q : Nat) (l : TwlLine) (hp : 16 &&& ft = 16)
    (h : Keeps ft s₀ s) :
    Keeps ft s₀ (State.rptNext s q l) := by
  delta State.rptNext
  repeat' first
      | with_reducible assumption | exact Foot.sub hp rfl | intro _ | with_reducible apply State.goNext_keeps
      | with_reducible apply Keeps.ite | dsimp only | split

theorem State.setLc_keeps {ft : Nat} {s₀ s : State} (q : Nat) (k : Nat) (v : Nat) (hp : 2 &&& ft = 2)
    (h : Keeps ft s₀ s) :
    Keeps ft s₀ (State.setLc s q k v) := by
  delta State.setLc
  repeat' first
      | with_reducible assumption | exact Foot.sub hp rfl | intro _ | with_reducible apply State.wr_keeps
      | dsimp only | split

theorem State.setStack_keeps {ft : Nat} {s₀ s : State} (q : Nat) (st : List Nat) (hp : 18 &&& ft = 18)
    (h : Keeps ft s₀ s) :
    Keeps ft s₀ (State.setStack s q st) := by
  delta State.setStack
  repeat' first
      | with_reducible assumption | exact Foot.sub hp rfl | intro _ | with_reducible apply State.wr_keeps
      | with_reducible apply State.mapRun_keeps | dsimp only | split

theorem State.settle_keeps {ft : Nat} {s₀ s : State} (q : Nat) (hp : 726 &&& ft = 726) (h : Keeps ft s₀ s) :
    Keeps ft s₀ (State.settle s q) := by
  delta State.settle
  repeat' first
      | with_reducible assumption | exact Foot.sub hp rfl | intro _ | with_reducible apply State.haltOnFail_keeps
      | with_reducible apply State.takeArrivals_keeps | with_reducible apply State.endDue_keeps
      | with_reducible apply State.resolve_keeps | with_reducible apply State.timingApply_keeps
      | with_reducible apply Keeps.ite | dsimp only | split

theorem State.starveRepeat_keeps {ft : Nat} {s₀ s : State} (q : Nat) (r : SeqRun) (hp : 50 &&& ft = 50)
    (h : Keeps ft s₀ s) :
    Keeps ft s₀ (State.starveRepeat s q r) := by
  delta State.starveRepeat
  repeat' first
      | with_reducible assumption | exact Foot.sub hp rfl | intro _ | with_reducible apply State.issueVector_keeps
      | with_reducible apply State.incSat_keeps | with_reducible apply State.setBit_keeps
      | with_reducible apply Keeps.ite | dsimp only | split

theorem State.stopSeq_keeps {ft : Nat} {s₀ s : State} (q : Nat) (hp : 22 &&& ft = 22) (h : Keeps ft s₀ s) :
    Keeps ft s₀ (State.stopSeq s q) := by
  delta State.stopSeq
  repeat' first
      | with_reducible assumption | exact Foot.sub hp rfl | intro _ | with_reducible apply State.haltDue_keeps
      | with_reducible apply State.endRunHere_keeps | with_reducible apply Keeps.ite | dsimp only | split

theorem State.twlAt_keeps {ft : Nat} {s₀ s : State} (q : Nat) (op : Nat) (first : State → SeqRun → TwlLine → State)
    (again : State → SeqRun → TwlLine → State) (hp : 8589934642 &&& ft = 8589934642) (h : Keeps ft s₀ s)
    (h_first : ∀ s a0 a1, Keeps ft s₀ s → Keeps ft s₀ (first s a0 a1))
    (h_again : ∀ s a0 a1, Keeps ft s₀ s → Keeps ft s₀ (again s a0 a1)) :
    Keeps ft s₀ (State.twlAt s q op first again) := by
  delta State.twlAt
  repeat' first
      | with_reducible assumption | exact Foot.sub hp rfl | intro _ | with_reducible apply State.starveRepeat_keeps
      | with_reducible apply State.endSoonHere_keeps | with_reducible apply State.firstVector_keeps
      | with_reducible apply h_first | with_reducible apply h_again | with_reducible apply Keeps.ite | dsimp only
      | split

theorem State.twl_keeps {ft : Nat} {s₀ s : State} (q : Nat) (op : Nat) (first : State → SeqRun → TwlLine → State)
    (again : State → SeqRun → TwlLine → State) (hp : 8589935350 &&& ft = 8589935350) (h : Keeps ft s₀ s)
    (h_first : ∀ s a0 a1, Keeps ft s₀ s → Keeps ft s₀ (first s a0 a1))
    (h_again : ∀ s a0 a1, Keeps ft s₀ s → Keeps ft s₀ (again s a0 a1)) :
    Keeps ft s₀ (State.twl s q op first again) := by
  delta State.twl
  repeat' first
      | with_reducible assumption | exact Foot.sub hp rfl | intro _ | with_reducible apply State.twlAt_keeps
      | with_reducible apply State.settle_keeps | with_reducible apply h_first | with_reducible apply h_again
      | dsimp only | split

theorem noRepeat_keeps {ft : Nat} {s₀ s : State} (x0 : SeqRun) (x1 : TwlLine) (h : Keeps ft s₀ s) :
    Keeps ft s₀ (noRepeat s x0 x1) := by
  delta noRepeat
  repeat' first | with_reducible assumption | exact Foot.sub hp rfl | intro _ | dsimp only | split

theorem State.twlOnce_keeps {ft : Nat} {s₀ s : State} (q : Nat) (op : Nat) (act : State → SeqRun → TwlLine → State)
    (hp : 8589935350 &&& ft = 8589935350) (h : Keeps ft s₀ s)
    (h_act : ∀ s a0 a1, Keeps ft s₀ s → Keeps ft s₀ (act s a0 a1)) :
    Keeps ft s₀ (State.twlOnce s q op act) := by
  delta State.twlOnce
  repeat' first
      | with_reducible assumption | exact Foot.sub hp rfl | intro _ | with_reducible apply State.twl_keeps
      | with_reducible apply State.firstVector_keeps | with_reducible apply noRepeat_keeps
      | with_reducible apply h_act | dsimp only | split

theorem State.twlSync_keeps {ft : Nat} {s₀ s : State} (q : Nat) (hp : 8589935350 &&& ft = 8589935350)
    (h : Keeps ft s₀ s) :
    Keeps ft s₀ (State.twlSync s q) := by
  delta State.twlSync
  repeat' first
      | with_reducible assumption | exact Foot.sub hp rfl | intro _ | with_reducible apply State.twl_keeps
      | with_reducible apply State.firstVector_keeps | with_reducible apply State.wr_keeps
      | with_reducible apply State.endSoonHere_keeps | with_reducible apply State.goNext_keeps
      | with_reducible apply State.lineVector_keeps | with_reducible apply Keeps.ite | dsimp only | split

theorem State.writeCmap_keeps {ft : Nat} {s₀ s : State} (q : Nat) (w : Nat) (v : Nat) (hp : 6 &&& ft = 6)
    (h : Keeps ft s₀ s) :
    Keeps ft s₀ (State.writeCmap s q w v) := by
  delta State.writeCmap
  repeat' first
      | with_reducible assumption | exact Foot.sub hp rfl | intro _ | with_reducible apply State.setTab_keeps
      | with_reducible apply State.absentHit_keeps | with_reducible apply Keeps.ite | dsimp only | split

theorem execCmdStop_keeps {ft : Nat} {s₀ s : State} (q : SeqId) (hp : 17179869206 &&& ft = 17179869206)
    (h : Keeps ft s₀ s) :
    KeepsOut ft s₀ (execCmdStop q s) := by
  delta execCmdStop
  repeat' first
      | with_reducible assumption | exact Foot.sub hp rfl | intro _ | with_reducible apply State.reach_keeps
      | with_reducible apply State.stopSeq_keeps | with_reducible apply KeepsOut.done
      | with_reducible apply KeepsOut.next | exact trivial | dsimp only | split

theorem execLineDecode_keeps {ft : Nat} {s₀ s : State} (q : SeqId) (hp : 77443665622 &&& ft = 77443665622)
    (h : Keeps ft s₀ s) :
    KeepsOut ft s₀ (execLineDecode q s) := by
  delta execLineDecode
  repeat' first
      | with_reducible assumption | exact Foot.sub hp rfl | intro _ | with_reducible apply State.settle_keeps
      | with_reducible apply State.fetch_keeps | with_reducible apply State.lineDecode_keeps
      | with_reducible apply Keeps.ite | with_reducible apply KeepsOut.done | with_reducible apply KeepsOut.next
      | exact trivial | dsimp only | split

theorem execMapCommit_keeps {ft : Nat} {s₀ s : State} (q : SeqId) (hp : 17179869190 &&& ft = 17179869190)
    (h : Keeps ft s₀ s) :
    KeepsOut ft s₀ (execMapCommit q s) := by
  delta execMapCommit
  repeat' first
      | with_reducible assumption | exact Foot.sub hp rfl | intro _ | with_reducible apply State.reach_keeps
      | with_reducible apply State.mapCommit_keeps | with_reducible apply KeepsOut.done
      | with_reducible apply KeepsOut.next | exact trivial | dsimp only | split

theorem execMapErrRel_keeps {ft : Nat} {s₀ s : State} (q : SeqId) (hp : 17179869186 &&& ft = 17179869186)
    (h : Keeps ft s₀ s) :
    KeepsOut ft s₀ (execMapErrRel q s) := by
  delta execMapErrRel
  repeat' first
      | with_reducible assumption | exact Foot.sub hp rfl | intro _ | with_reducible apply State.reach_keeps
      | with_reducible apply State.mapErrRel_keeps | with_reducible apply KeepsOut.done
      | with_reducible apply KeepsOut.next | exact trivial | dsimp only | split

theorem execTwlBrc_keeps {ft : Nat} {s₀ s : State} (q : SeqId) (hp : 8589935350 &&& ft = 8589935350)
    (h : Keeps ft s₀ s) :
    KeepsOut ft s₀ (execTwlBrc q s) := by
  delta execTwlBrc
  repeat' first
      | with_reducible assumption | exact Foot.sub hp rfl | intro _ | with_reducible apply State.twl_keeps
      | with_reducible apply State.firstVector_keeps | with_reducible apply State.mapRun_keeps
      | with_reducible apply State.lineVector_keeps | with_reducible apply State.wr_keeps
      | with_reducible apply KeepsOut.done | with_reducible apply KeepsOut.next | exact trivial | dsimp only | split

theorem execTwlCall_keeps {ft : Nat} {s₀ s : State} (q : SeqId) (hp : 8589935350 &&& ft = 8589935350)
    (h : Keeps ft s₀ s) :
    KeepsOut ft s₀ (execTwlCall q s) := by
  delta execTwlCall
  repeat' first
      | with_reducible assumption | exact Foot.sub hp rfl | intro _ | with_reducible apply State.twlOnce_keeps
      | with_reducible apply State.goLine_keeps | with_reducible apply State.setStack_keeps
      | with_reducible apply KeepsOut.done | with_reducible apply KeepsOut.next | exact trivial | dsimp only | split

theorem execTwlClrf_keeps {ft : Nat} {s₀ s : State} (q : SeqId) (hp : 8589935350 &&& ft = 8589935350)
    (h : Keeps ft s₀ s) :
    KeepsOut ft s₀ (execTwlClrf q s) := by
  delta execTwlClrf
  repeat' first
      | with_reducible assumption | exact Foot.sub hp rfl | intro _ | with_reducible apply State.twlOnce_keeps
      | with_reducible apply State.goNext_keeps | with_reducible apply State.wr_keeps
      | with_reducible apply KeepsOut.done | with_reducible apply KeepsOut.next | exact trivial | dsimp only | split

theorem execTwlDjnz_keeps {ft : Nat} {s₀ s : State} (q : SeqId) (hp : 8589935350 &&& ft = 8589935350)
    (h : Keeps ft s₀ s) :
    KeepsOut ft s₀ (execTwlDjnz q s) := by
  delta execTwlDjnz
  repeat' first
      | with_reducible assumption | exact Foot.sub hp rfl | intro _ | with_reducible apply State.twlOnce_keeps
      | with_reducible apply State.setLc_keeps | with_reducible apply State.goNext_keeps
      | with_reducible apply State.goLine_keeps | with_reducible apply Keeps.ite | with_reducible apply KeepsOut.done
      | with_reducible apply KeepsOut.next | exact trivial | dsimp only | split

theorem execTwlEvt_keeps {ft : Nat} {s₀ s : State} (q : SeqId) (hp : 8589935350 &&& ft = 8589935350)
    (h : Keeps ft s₀ s) :
    KeepsOut ft s₀ (execTwlEvt q s) := by
  delta execTwlEvt
  repeat' first
      | with_reducible assumption | exact Foot.sub hp rfl | intro _ | with_reducible apply State.twlOnce_keeps
      | with_reducible apply State.goNext_keeps | with_reducible apply KeepsOut.done
      | with_reducible apply KeepsOut.next | exact trivial | dsimp only | split

theorem execTwlHof_keeps {ft : Nat} {s₀ s : State} (q : SeqId) (hp : 8589935350 &&& ft = 8589935350)
    (h : Keeps ft s₀ s) :
    KeepsOut ft s₀ (execTwlHof q s) := by
  delta execTwlHof
  repeat' first
      | with_reducible assumption | exact Foot.sub hp rfl | intro _ | with_reducible apply State.twlOnce_keeps
      | with_reducible apply State.goNext_keeps | with_reducible apply State.mapRun_keeps
      | with_reducible apply KeepsOut.done | with_reducible apply KeepsOut.next | exact trivial | dsimp only | split

theorem execTwlJmp_keeps {ft : Nat} {s₀ s : State} (q : SeqId) (hp : 8589935350 &&& ft = 8589935350)
    (h : Keeps ft s₀ s) :
    KeepsOut ft s₀ (execTwlJmp q s) := by
  delta execTwlJmp
  repeat' first
      | with_reducible assumption | exact Foot.sub hp rfl | intro _ | with_reducible apply State.twlOnce_keeps
      | with_reducible apply State.goLine_keeps | with_reducible apply KeepsOut.done
      | with_reducible apply KeepsOut.next | exact trivial | dsimp only | split

theorem execTwlLdc_keeps {ft : Nat} {s₀ s : State} (q : SeqId) (hp : 8589935350 &&& ft = 8589935350)
    (h : Keeps ft s₀ s) :
    KeepsOut ft s₀ (execTwlLdc q s) := by
  delta execTwlLdc
  repeat' first
      | with_reducible assumption | exact Foot.sub hp rfl | intro _ | with_reducible apply State.twlOnce_keeps
      | with_reducible apply State.goNext_keeps | with_reducible apply State.setLc_keeps
      | with_reducible apply KeepsOut.done | with_reducible apply KeepsOut.next | exact trivial | dsimp only | split

theorem execTwlMatch_keeps {ft : Nat} {s₀ s : State} (q : SeqId) (hp : 8589935350 &&& ft = 8589935350)
    (h : Keeps ft s₀ s) :
    KeepsOut ft s₀ (execTwlMatch q s) := by
  delta execTwlMatch
  repeat' first
      | with_reducible assumption | exact Foot.sub hp rfl | intro _ | with_reducible apply State.settle_keeps
      | with_reducible apply State.matchTail_keeps | with_reducible apply State.twlAt_keeps
      | with_reducible apply State.goNext_keeps | with_reducible apply State.firstVector_keeps
      | with_reducible apply State.setRun_keeps | with_reducible apply noRepeat_keeps
      | with_reducible apply Keeps.ite | with_reducible apply KeepsOut.done | with_reducible apply KeepsOut.next
      | exact trivial | dsimp only | split

theorem execTwlMatchTimeout_keeps {ft : Nat} {s₀ s : State} (q : SeqId) (hp : 726 &&& ft = 726) (h : Keeps ft s₀ s) :
    KeepsOut ft s₀ (execTwlMatchTimeout q s) := by
  delta execTwlMatchTimeout
  repeat' first
      | with_reducible assumption | exact Foot.sub hp rfl | intro _ | with_reducible apply State.settle_keeps
      | with_reducible apply State.matchFinish_keeps | with_reducible apply Keeps.ite
      | with_reducible apply KeepsOut.done | with_reducible apply KeepsOut.next | exact trivial | dsimp only | split

theorem execTwlNop_keeps {ft : Nat} {s₀ s : State} (q : SeqId) (hp : 8589935350 &&& ft = 8589935350)
    (h : Keeps ft s₀ s) :
    KeepsOut ft s₀ (execTwlNop q s) := by
  delta execTwlNop
  repeat' first
      | with_reducible assumption | exact Foot.sub hp rfl | intro _ | with_reducible apply State.twlOnce_keeps
      | with_reducible apply State.goNext_keeps | with_reducible apply KeepsOut.done
      | with_reducible apply KeepsOut.next | exact trivial | dsimp only | split

theorem execTwlRet_keeps {ft : Nat} {s₀ s : State} (q : SeqId) (hp : 8589935350 &&& ft = 8589935350)
    (h : Keeps ft s₀ s) :
    KeepsOut ft s₀ (execTwlRet q s) := by
  delta execTwlRet
  repeat' first
      | with_reducible assumption | exact Foot.sub hp rfl | intro _ | with_reducible apply State.twlOnce_keeps
      | with_reducible apply State.goLine_keeps | with_reducible apply State.setStack_keeps
      | with_reducible apply KeepsOut.done | with_reducible apply KeepsOut.next | exact trivial | dsimp only | split

theorem execTwlRpt_keeps {ft : Nat} {s₀ s : State} (q : SeqId) (hp : 8589935350 &&& ft = 8589935350)
    (h : Keeps ft s₀ s) :
    KeepsOut ft s₀ (execTwlRpt q s) := by
  delta execTwlRpt
  repeat' first
      | with_reducible assumption | exact Foot.sub hp rfl | intro _ | with_reducible apply State.twl_keeps
      | with_reducible apply State.rptNext_keeps | with_reducible apply State.firstVector_keeps
      | with_reducible apply State.mapRun_keeps | with_reducible apply State.lineVector_keeps
      | with_reducible apply KeepsOut.done | with_reducible apply KeepsOut.next | exact trivial | dsimp only | split

theorem execTwlStop_keeps {ft : Nat} {s₀ s : State} (q : SeqId) (hp : 8589935350 &&& ft = 8589935350)
    (h : Keeps ft s₀ s) :
    KeepsOut ft s₀ (execTwlStop q s) := by
  delta execTwlStop
  repeat' first
      | with_reducible assumption | exact Foot.sub hp rfl | intro _ | with_reducible apply State.twlOnce_keeps
      | with_reducible apply State.endRunHere_keeps | with_reducible apply KeepsOut.done
      | with_reducible apply KeepsOut.next | exact trivial | dsimp only | split
end Sys2Proof.Machine
end

