-- ==== Sys2Proof/Laws/KeepsGingham.lean ====
section
/-! SUPPORT. Once for each: what the operations of Machine/Gingham.lean keep: the parts of the
state they may change, and that the canonical form of the state survives them. -/

namespace Sys2Proof.Machine

theorem State.apgAssign_keeps {ft : Nat} {s₀ s : State} (g : Nat) (hp : 2 &&& ft = 2) (h : Keeps ft s₀ s) :
    Keeps ft s₀ (State.apgAssign s g) := by
  delta State.apgAssign
  repeat' first
      | with_reducible assumption | exact Foot.sub hp rfl | intro _ | with_reducible apply State.wr_keeps
      | with_reducible apply State.forUpTo_keeps | with_reducible apply State.setFlag_keeps | dsimp only | split

theorem State.gngErr_keeps {ft : Nat} {s₀ s : State} (g : Nat) (cause : Nat) (pc : Nat) (hp : 2 &&& ft = 2)
    (h : Keeps ft s₀ s) :
    Keeps ft s₀ (State.gngErr s g cause pc) := by
  delta State.gngErr
  repeat' first
      | with_reducible assumption | exact Foot.sub hp rfl | intro _ | with_reducible apply State.wr_keeps
      | with_reducible apply State.setFlag_keeps | with_reducible apply Keeps.ite | dsimp only | split

theorem State.apgErr_keeps {ft : Nat} {s₀ s : State} (q : Nat) (g : Nat) (cause : Nat) (pc : Nat)
    (hp : 18 &&& ft = 18) (h : Keeps ft s₀ s) :
    Keeps ft s₀ (State.apgErr s q g cause pc) := by
  delta State.apgErr
  repeat' first
      | with_reducible assumption | exact Foot.sub hp rfl | intro _ | with_reducible apply State.endSoonHere_keeps
      | with_reducible apply State.setFlag_keeps | with_reducible apply State.gngErr_keeps | dsimp only | split

theorem State.apgCheck_keeps {ft : Nat} {s₀ s : State} (q : Nat) (g : Nat) (hp : 18 &&& ft = 18) (h : Keeps ft s₀ s) :
    Keeps ft s₀ (State.apgCheck s q g) := by
  delta State.apgCheck
  repeat' first
      | with_reducible assumption | exact Foot.sub hp rfl | intro _ | with_reducible apply State.apgErr_keeps
      | with_reducible apply Keeps.ite | dsimp only | split

theorem State.apgRepeat_keeps {ft : Nat} {s₀ s : State} (g : Nat) (fop : Nat) (hp : 2 &&& ft = 2) (h : Keeps ft s₀ s) :
    Keeps ft s₀ (State.apgRepeat s g fop) := by
  delta State.apgRepeat
  repeat' first
      | with_reducible assumption | exact Foot.sub hp rfl | intro _ | with_reducible apply State.wr_keeps
      | with_reducible apply Keeps.ite | dsimp only | split

theorem State.apgTop_keeps {ft : Nat} {s₀ s : State} (g : Nat) (pc : Nat) (hp : 2 &&& ft = 2) (h : Keeps ft s₀ s) :
    Keeps ft s₀ (State.apgTop s g pc) := by
  delta State.apgTop
  repeat' first
      | with_reducible assumption | exact Foot.sub hp rfl | intro _ | with_reducible apply State.wr_keeps
      | with_reducible apply State.refreshStart_keeps | with_reducible apply Keeps.ite | dsimp only | split

theorem State.apgBegin_keeps {ft : Nat} {s₀ s : State} (q : Nat) (g : Nat) (fop : Nat) (hp : 22 &&& ft = 22)
    (h : Keeps ft s₀ s) :
    Keeps ft s₀ (State.apgBegin s q g fop) := by
  delta State.apgBegin
  repeat' first
      | with_reducible assumption | exact Foot.sub hp rfl | intro _ | with_reducible apply State.endDue_keeps
      | with_reducible apply State.apgCheck_keeps | with_reducible apply State.apgRepeat_keeps
      | with_reducible apply State.apgTop_keeps | with_reducible apply Keeps.ite | dsimp only | split

theorem State.apgGo_keeps {ft : Nat} {s₀ s : State} (q : Nat) (g : Nat) (pc : Nat) (hp : 18 &&& ft = 18)
    (h : Keeps ft s₀ s) :
    Keeps ft s₀ (State.apgGo s q g pc) := by
  delta State.apgGo
  repeat' first
      | with_reducible assumption | exact Foot.sub hp rfl | intro _ | with_reducible apply State.apgCheck_keeps
      | with_reducible apply State.wr_keeps | dsimp only | split

theorem State.apgCall_keeps {ft : Nat} {s₀ s : State} (q : Nat) (g : Nat) (pc : Nat) (hp : 18 &&& ft = 18)
    (h : Keeps ft s₀ s) :
    Keeps ft s₀ (State.apgCall s q g pc) := by
  delta State.apgCall
  repeat' first
      | with_reducible assumption | exact Foot.sub hp rfl | intro _ | with_reducible apply State.apgGo_keeps
      | with_reducible apply State.wr_keeps | dsimp only | split

theorem State.apgDrop_keeps {ft : Nat} {s₀ s : State} (g : Nat) (pc : Nat) (word : Nat) (hp : 2 &&& ft = 2)
    (h : Keeps ft s₀ s) :
    Keeps ft s₀ (State.apgDrop s g pc word) := by
  delta State.apgDrop
  repeat' first
      | with_reducible assumption | exact Foot.sub hp rfl | intro _ | with_reducible apply State.wr_keeps
      | dsimp only | split

theorem State.apgVector_keeps {ft : Nat} {s₀ s : State} (q : Nat) (g : Nat) (pc : Nat) (r : SeqRun) (l : TwlLine)
    (t : ApgTag) (hp : 50 &&& ft = 50) (h : Keeps ft s₀ s) :
    Keeps ft s₀ (State.apgVector s q g pc r l t) := by
  delta State.apgVector
  repeat' first
      | with_reducible assumption | exact Foot.sub hp rfl | intro _ | with_reducible apply State.issueVector_keeps
      | with_reducible apply State.wr_keeps | with_reducible apply State.mapRun_keeps
      | with_reducible apply Keeps.ite | dsimp only | split

theorem State.setUnit_keeps {ft : Nat} {s₀ s : State} (g : Nat) (u : Nat) (v : Nat) (hp : 2 &&& ft = 2)
    (h : Keeps ft s₀ s) :
    Keeps ft s₀ (State.setUnit s g u v) := by
  delta State.setUnit
  repeat' first
      | with_reducible assumption | exact Foot.sub hp rfl | intro _ | with_reducible apply State.wr_keeps
      | dsimp only | split

theorem State.unitOp_keeps {ft : Nat} {s₀ s : State} (o : State) (g : Nat) (u : Nat) (code : Nat) (st : Nat)
    (low : Option Bool) (hp : 2 &&& ft = 2) (h : Keeps ft s₀ s) :
    Keeps ft s₀ (State.unitOp s o g u code st low).1 := by
  delta State.unitOp
  repeat' first
      | with_reducible assumption | exact Foot.sub hp rfl | intro _ | with_reducible apply State.wr_keeps
      | with_reducible apply State.setUnit_keeps | with_reducible apply Keeps.ite | dsimp only | split

theorem State.unitOps_keeps {ft : Nat} {s₀ s : State} (g : Nat) (pc : Nat) (hp : 2 &&& ft = 2) (h : Keeps ft s₀ s) :
    Keeps ft s₀ (State.unitOps s g pc).1 := by
  delta State.unitOps
  repeat' first
      | with_reducible assumption | exact Foot.sub hp rfl | intro _ | with_reducible apply State.unitOp_keeps
      | with_reducible apply Keeps.ite | with_reducible refine Keeps.of_fst (by assumption) ?_ | dsimp only | split

theorem State.apgStep3_keeps {ft : Nat} {s₀ s : State} (g : Nat) (pc : Nat) (word : Nat) (hp : 2 &&& ft = 2)
    (h : Keeps ft s₀ s) :
    Keeps ft s₀ (State.apgStep3 s g pc word).1 := by
  delta State.apgStep3
  repeat' first
      | with_reducible assumption | exact Foot.sub hp rfl | intro _ | with_reducible apply State.unitOps_keeps
      | with_reducible apply State.apgDrop_keeps | with_reducible refine Keeps.of_fst (by assumption) ?_ | dsimp only
      | split

theorem State.apgOne_keeps {ft : Nat} {s₀ s : State} (q : Nat) (g : Nat) (fop : Nat) (step3 : State → Bool)
    (flow : ApgFlow) (hp : 758 &&& ft = 758) (h : Keeps ft s₀ s)
    (h_flow : ∀ s a b, Keeps ft s₀ s → Keeps ft s₀ (flow s a b)) :
    Keeps ft s₀ (State.apgOne s q g fop step3 flow) := by
  delta State.apgOne
  repeat' first
      | with_reducible assumption | exact Foot.sub hp rfl | intro _ | with_reducible apply State.settle_keeps
      | with_reducible apply State.apgBegin_keeps | with_reducible apply State.apgVector_keeps
      | with_reducible apply State.mapRun_keeps | with_reducible apply State.apgStep3_keeps
      | with_reducible apply State.wr_keeps | with_reducible apply h_flow | with_reducible apply Keeps.ite
      | with_reducible apply Keeps.getD | with_reducible apply KeepsOpt.some | exact KeepsOpt.none
      | with_reducible refine Keeps.of_fst (by assumption) ?_ | dsimp only | split

theorem State.apgExec_keeps {ft : Nat} {s₀ s : State} (g : Nat) (fop : Nat) (step3 : State → Bool)
    (flow : Nat → ApgFlow) (hp : 758 &&& ft = 758) (h : Keeps ft s₀ s)
    (h_flow : ∀ q s a b, Keeps ft s₀ s → Keeps ft s₀ (flow q s a b)) :
    Keeps ft s₀ (State.apgExec s g fop step3 flow) := by
  delta State.apgExec
  repeat' first
      | with_reducible assumption | exact Foot.sub hp rfl | intro _ | with_reducible apply State.apgOne_keeps
      | with_reducible apply h_flow | with_reducible apply Keeps.ite | dsimp only | split

theorem State.apgJumpIf_keeps {ft : Nat} {s₀ s : State} (q : Nat) (g : Nat) (pc : Nat) (c : Bool)
    (hp : 18 &&& ft = 18) (h : Keeps ft s₀ s) :
    Keeps ft s₀ (State.apgJumpIf s q g pc c) := by
  delta State.apgJumpIf
  repeat' first
      | with_reducible assumption | exact Foot.sub hp rfl | intro _ | with_reducible apply State.apgGo_keeps
      | with_reducible apply Keeps.ite | dsimp only | split

theorem State.gngErrRel_keeps {ft : Nat} {s₀ s : State} (g : Nat) (hp : 2 &&& ft = 2) (h : Keeps ft s₀ s) :
    Keeps ft s₀ (State.gngErrRel s g) := by
  delta State.gngErrRel
  repeat' first
      | with_reducible assumption | exact Foot.sub hp rfl | intro _ | with_reducible apply State.wr_keeps
      | with_reducible apply State.setFlag_keeps | dsimp only | split

theorem State.handOver_keeps {ft : Nat} {s₀ s : State} (q : Nat) (g : Nat) (start : Nat) (hp : 18 &&& ft = 18)
    (h : Keeps ft s₀ s) :
    Keeps ft s₀ (State.handOver s q g start) := by
  delta State.handOver
  repeat' first
      | with_reducible assumption | exact Foot.sub hp rfl | intro _ | with_reducible apply State.apgErr_keeps
      | with_reducible apply State.wr_keeps | with_reducible apply State.setFlag_keeps
      | with_reducible apply State.apgCheck_keeps | with_reducible apply State.mapRun_keeps
      | with_reducible apply Keeps.ite | dsimp only | split

theorem State.tmrZero_keeps {ft : Nat} {s₀ s : State} (g : Nat) (hp : 8589934594 &&& ft = 8589934594)
    (h : Keeps ft s₀ s) :
    Keeps ft s₀ (State.tmrZero s g) := by
  delta State.tmrZero
  repeat' first
      | with_reducible assumption | exact Foot.sub hp rfl | intro _ | with_reducible apply State.pulse_keeps
      | with_reducible apply State.wr_keeps | with_reducible apply Keeps.ite | dsimp only | split

theorem State.writeApg_keeps {ft : Nat} {s₀ s : State} (g : Nat) (a : Nat) (v : Nat) (hp : 6 &&& ft = 6)
    (h : Keeps ft s₀ s) :
    Keeps ft s₀ (State.writeApg s g a v) := by
  delta State.writeApg
  repeat' first
      | with_reducible assumption | exact Foot.sub hp rfl | intro _ | with_reducible apply State.wr_keeps
      | with_reducible apply State.setTab_keeps | with_reducible apply Keeps.ite | dsimp only | split

theorem State.writeRefEn_keeps {ft : Nat} {s₀ s : State} (g : Nat) (on : Bool) (hp : 2 &&& ft = 2)
    (h : Keeps ft s₀ s) :
    Keeps ft s₀ (State.writeRefEn s g on) := by
  delta State.writeRefEn
  repeat' first
      | with_reducible assumption | exact Foot.sub hp rfl | intro _ | with_reducible apply State.setFlag_keeps
      | with_reducible apply State.wr_keeps | with_reducible apply State.refreshStart_keeps
      | with_reducible apply Keeps.ite | dsimp only | split

theorem execGngCall_keeps {ft : Nat} {s₀ s : State} (g : ApgId) (hp : 758 &&& ft = 758) (h : Keeps ft s₀ s) :
    KeepsOut ft s₀ (execGngCall g s) := by
  delta execGngCall
  repeat' first
      | with_reducible assumption | exact Foot.sub hp rfl | intro _ | with_reducible apply State.apgExec_keeps
      | with_reducible apply State.apgCall_keeps | with_reducible apply KeepsOut.done
      | with_reducible apply KeepsOut.next | exact trivial | dsimp only | split

theorem execGngDjnz_keeps {ft : Nat} {s₀ s : State} (g : ApgId) (hp : 758 &&& ft = 758) (h : Keeps ft s₀ s) :
    KeepsOut ft s₀ (execGngDjnz g s) := by
  delta execGngDjnz
  repeat' first
      | with_reducible assumption | exact Foot.sub hp rfl | intro _ | with_reducible apply State.apgExec_keeps
      | with_reducible apply State.apgGo_keeps | with_reducible apply State.wr_keeps | with_reducible apply Keeps.ite
      | with_reducible apply KeepsOut.done | with_reducible apply KeepsOut.next | exact trivial | dsimp only | split

theorem execGngEnd_keeps {ft : Nat} {s₀ s : State} (g : ApgId) (hp : 758 &&& ft = 758) (h : Keeps ft s₀ s) :
    KeepsOut ft s₀ (execGngEnd g s) := by
  delta execGngEnd
  repeat' first
      | with_reducible assumption | exact Foot.sub hp rfl | intro _ | with_reducible apply State.apgExec_keeps
      | with_reducible apply State.mapRun_keeps | with_reducible apply State.wr_keeps
      | with_reducible apply State.setFlag_keeps | with_reducible apply KeepsOut.done
      | with_reducible apply KeepsOut.next | exact trivial | dsimp only | split

theorem execGngErrRel_keeps {ft : Nat} {s₀ s : State} (g : ApgId) (hp : 17179869186 &&& ft = 17179869186)
    (h : Keeps ft s₀ s) :
    KeepsOut ft s₀ (execGngErrRel g s) := by
  delta execGngErrRel
  repeat' first
      | with_reducible assumption | exact Foot.sub hp rfl | intro _ | with_reducible apply State.reach_keeps
      | with_reducible apply State.gngErrRel_keeps | with_reducible apply KeepsOut.done
      | with_reducible apply KeepsOut.next | exact trivial | dsimp only | split

theorem execGngJmp_keeps {ft : Nat} {s₀ s : State} (g : ApgId) (hp : 758 &&& ft = 758) (h : Keeps ft s₀ s) :
    KeepsOut ft s₀ (execGngJmp g s) := by
  delta execGngJmp
  repeat' first
      | with_reducible assumption | exact Foot.sub hp rfl | intro _ | with_reducible apply State.apgExec_keeps
      | with_reducible apply State.apgGo_keeps | with_reducible apply KeepsOut.done
      | with_reducible apply KeepsOut.next | exact trivial | dsimp only | split

theorem execGngJnw_keeps {ft : Nat} {s₀ s : State} (g : ApgId) (hp : 758 &&& ft = 758) (h : Keeps ft s₀ s) :
    KeepsOut ft s₀ (execGngJnw g s) := by
  delta execGngJnw
  repeat' first
      | with_reducible assumption | exact Foot.sub hp rfl | intro _ | with_reducible apply State.apgExec_keeps
      | with_reducible apply State.apgJumpIf_keeps | with_reducible apply KeepsOut.done
      | with_reducible apply KeepsOut.next | exact trivial | dsimp only | split

theorem execGngJref_keeps {ft : Nat} {s₀ s : State} (g : ApgId) (hp : 758 &&& ft = 758) (h : Keeps ft s₀ s) :
    KeepsOut ft s₀ (execGngJref g s) := by
  delta execGngJref
  repeat' first
      | with_reducible assumption | exact Foot.sub hp rfl | intro _ | with_reducible apply State.apgExec_keeps
      | with_reducible apply State.apgGo_keeps | with_reducible apply State.apgCall_keeps
      | with_reducible apply State.wr_keeps | with_reducible apply Keeps.ite | with_reducible apply KeepsOut.done
      | with_reducible apply KeepsOut.next | exact trivial | dsimp only | split

theorem execGngJw_keeps {ft : Nat} {s₀ s : State} (g : ApgId) (hp : 758 &&& ft = 758) (h : Keeps ft s₀ s) :
    KeepsOut ft s₀ (execGngJw g s) := by
  delta execGngJw
  repeat' first
      | with_reducible assumption | exact Foot.sub hp rfl | intro _ | with_reducible apply State.apgExec_keeps
      | with_reducible apply State.apgJumpIf_keeps | with_reducible apply KeepsOut.done
      | with_reducible apply KeepsOut.next | exact trivial | dsimp only | split

theorem execGngLdc_keeps {ft : Nat} {s₀ s : State} (g : ApgId) (hp : 758 &&& ft = 758) (h : Keeps ft s₀ s) :
    KeepsOut ft s₀ (execGngLdc g s) := by
  delta execGngLdc
  repeat' first
      | with_reducible assumption | exact Foot.sub hp rfl | intro _ | with_reducible apply State.apgExec_keeps
      | with_reducible apply State.apgGo_keeps | with_reducible apply State.wr_keeps
      | with_reducible apply KeepsOut.done | with_reducible apply KeepsOut.next | exact trivial | dsimp only | split

theorem execGngNext_keeps {ft : Nat} {s₀ s : State} (g : ApgId) (hp : 758 &&& ft = 758) (h : Keeps ft s₀ s) :
    KeepsOut ft s₀ (execGngNext g s) := by
  delta execGngNext
  repeat' first
      | with_reducible assumption | exact Foot.sub hp rfl | intro _ | with_reducible apply State.apgExec_keeps
      | with_reducible apply State.apgGo_keeps | with_reducible apply KeepsOut.done
      | with_reducible apply KeepsOut.next | exact trivial | dsimp only | split

theorem execGngRet_keeps {ft : Nat} {s₀ s : State} (g : ApgId) (hp : 758 &&& ft = 758) (h : Keeps ft s₀ s) :
    KeepsOut ft s₀ (execGngRet g s) := by
  delta execGngRet
  repeat' first
      | with_reducible assumption | exact Foot.sub hp rfl | intro _ | with_reducible apply State.apgExec_keeps
      | with_reducible apply State.apgGo_keeps | with_reducible apply State.wr_keeps
      | with_reducible apply KeepsOut.done | with_reducible apply KeepsOut.next | exact trivial | dsimp only | split

theorem execGngRpt_keeps {ft : Nat} {s₀ s : State} (g : ApgId) (hp : 758 &&& ft = 758) (h : Keeps ft s₀ s) :
    KeepsOut ft s₀ (execGngRpt g s) := by
  delta execGngRpt
  repeat' first
      | with_reducible assumption | exact Foot.sub hp rfl | intro _ | with_reducible apply State.apgExec_keeps
      | with_reducible apply State.wr_keeps | with_reducible apply State.apgGo_keeps | with_reducible apply Keeps.ite
      | with_reducible apply KeepsOut.done | with_reducible apply KeepsOut.next | exact trivial | dsimp only | split

theorem execGngWaitt_keeps {ft : Nat} {s₀ s : State} (g : ApgId) (hp : 758 &&& ft = 758) (h : Keeps ft s₀ s) :
    KeepsOut ft s₀ (execGngWaitt g s) := by
  delta execGngWaitt
  repeat' first
      | with_reducible assumption | exact Foot.sub hp rfl | intro _ | with_reducible apply State.apgExec_keeps
      | with_reducible apply State.apgGo_keeps | with_reducible apply State.wr_keeps
      | with_reducible apply KeepsOut.done | with_reducible apply KeepsOut.next | exact trivial | dsimp only | split

theorem execRefEn_keeps {ft : Nat} {s₀ s : State} (g : ApgId) (on : Bool) (hp : 17179869186 &&& ft = 17179869186)
    (h : Keeps ft s₀ s) :
    KeepsOut ft s₀ (execRefEn g on s) := by
  delta execRefEn
  repeat' first
      | with_reducible assumption | exact Foot.sub hp rfl | intro _ | with_reducible apply State.reach_keeps
      | with_reducible apply State.writeRefEn_keeps | with_reducible apply KeepsOut.done
      | with_reducible apply KeepsOut.next | exact trivial | dsimp only | split

theorem execRefInterval_keeps {ft : Nat} {s₀ s : State} (g : ApgId) (hp : 2 &&& ft = 2) (h : Keeps ft s₀ s) :
    KeepsOut ft s₀ (execRefInterval g s) := by
  delta execRefInterval
  repeat' first
      | with_reducible assumption | exact Foot.sub hp rfl | intro _ | with_reducible apply State.refreshStart_keeps
      | with_reducible apply State.wr_keeps | with_reducible apply State.incSat_keeps
      | with_reducible apply Keeps.ite | with_reducible apply KeepsOut.done | with_reducible apply KeepsOut.next
      | exact trivial | dsimp only | split

theorem execTmrZero_keeps {ft : Nat} {s₀ s : State} (g : ApgId) (hp : 8589934594 &&& ft = 8589934594)
    (h : Keeps ft s₀ s) :
    KeepsOut ft s₀ (execTmrZero g s) := by
  delta execTmrZero
  repeat' first
      | with_reducible assumption | exact Foot.sub hp rfl | intro _ | with_reducible apply State.tmrZero_keeps
      | with_reducible apply KeepsOut.done | with_reducible apply KeepsOut.next | exact trivial | dsimp only | split

theorem execTwlApg_keeps {ft : Nat} {s₀ s : State} (q : SeqId) (hp : 8589935350 &&& ft = 8589935350)
    (h : Keeps ft s₀ s) :
    KeepsOut ft s₀ (execTwlApg q s) := by
  delta execTwlApg
  repeat' first
      | with_reducible assumption | exact Foot.sub hp rfl | intro _ | with_reducible apply State.twlOnce_keeps
      | with_reducible apply State.handOver_keeps | with_reducible apply KeepsOut.done
      | with_reducible apply KeepsOut.next | exact trivial | dsimp only | split
end Sys2Proof.Machine
end

