-- ==== Sys2Proof/Laws/KeepsDamask.lean ====
section
/-! SUPPORT. Once for each: what the operations of Machine/Damask.lean keep: the parts of the
state they may change, and that the canonical form of the state survives them. -/

namespace Sys2Proof.Machine

theorem State.setSiteFlag_keeps {ft : Nat} {s₀ s : State} (l : Lay) (site : Nat) (b : Bool) (hp : 2 &&& ft = 2)
    (h : Keeps ft s₀ s) :
    Keeps ft s₀ (State.setSiteFlag s l site b) := by
  delta State.setSiteFlag
  repeat' first
      | with_reducible assumption | exact Foot.sub hp rfl | intro _ | with_reducible apply State.setBit_keeps
      | dsimp only | split

theorem State.bmapClear_keeps {ft : Nat} {s₀ s : State} (site : Nat) (hp : 2 &&& ft = 2) (h : Keeps ft s₀ s) :
    Keeps ft s₀ (State.bmapClear s site) := by
  delta State.bmapClear
  repeat' first
      | with_reducible assumption | exact Foot.sub hp rfl | intro _ | with_reducible apply State.wr_keeps
      | with_reducible apply State.setSiteFlag_keeps | with_reducible apply Keeps.ite | dsimp only | split

theorem State.clearEnd_keeps {ft : Nat} {s₀ s : State} (site : Nat) (hp : 77309411342 &&& ft = 77309411342)
    (h : Keeps ft s₀ s) :
    Keeps ft s₀ (State.clearEnd s site) := by
  delta State.clearEnd
  repeat' first
      | with_reducible assumption | exact Foot.sub hp rfl | intro _ | with_reducible apply State.setSiteFlag_keeps
      | with_reducible apply State.zeroFrom_keeps | dsimp only | split

theorem State.consumeRecord_keeps {ft : Nat} {s₀ s : State} (site : Nat) (hp : 2 &&& ft = 2) (h : Keeps ft s₀ s) :
    Keeps ft s₀ (State.consumeRecord s site) := by
  delta State.consumeRecord
  repeat' first
      | with_reducible assumption | exact Foot.sub hp rfl | intro _ | with_reducible apply State.inc_keeps
      | with_reducible apply Keeps.ite | dsimp only | split

theorem State.countWritten_keeps {ft : Nat} {s₀ s : State} (r : FailRec) (hp : 16 &&& ft = 16) (h : Keeps ft s₀ s) :
    Keeps ft s₀ (State.countWritten s r) := by
  delta State.countWritten
  repeat' first
      | with_reducible assumption | exact Foot.sub hp rfl | intro _ | with_reducible apply State.updBurst_keeps
      | with_reducible apply Keeps.ite | dsimp only | split

theorem State.fpoison_keeps {ft : Nat} {s₀ s : State} (us : List BitmapUpdate) (hp : 16 &&& ft = 16)
    (h : Keeps ft s₀ s) :
    Keeps ft s₀ (State.fpoison s us) := by
  delta State.fpoison
  repeat' first
      | with_reducible assumption | exact Foot.sub hp rfl | intro _ | with_reducible apply State.updBurst_keeps
      | with_reducible apply Keeps.foldl | dsimp only | split

theorem State.judgeMatch_keeps {ft : Nat} {s₀ s : State} (q : Nat) (f : Flight) (ps : List (List Nat))
    (hp : 16 &&& ft = 16) (h : Keeps ft s₀ s) :
    Keeps ft s₀ (State.judgeMatch s q f ps) := by
  delta State.judgeMatch
  repeat' first
      | with_reducible assumption | exact Foot.sub hp rfl | intro _ | with_reducible apply State.mapRun_keeps
      | with_reducible apply State.pushArrival_keeps | with_reducible apply Keeps.ite | dsimp only | split

theorem State.judgePlain_keeps {ft : Nat} {s₀ s : State} (q : Nat) (f : Flight) (ps : List (List Nat))
    (hp : 722 &&& ft = 722) (h : Keeps ft s₀ s) :
    Keeps ft s₀ (State.judgePlain s q f ps) := by
  delta State.judgePlain
  repeat' first
      | with_reducible assumption | exact Foot.sub hp rfl | intro _ | with_reducible apply State.judge_keeps
      | with_reducible apply State.pushArrival_keeps | with_reducible apply State.setFails_keeps
      | with_reducible apply Keeps.ite | dsimp only | split

theorem State.setResultQ_keeps {ft : Nat} {s₀ s : State} (site : Nat) (l : List ResultEntry) (hp : 256 &&& ft = 256)
    (h : Keeps ft s₀ s) :
    Keeps ft s₀ (State.setResultQ s site l) := by
  delta State.setResultQ
  repeat' first
      | with_reducible assumption | exact Foot.sub hp rfl | with_reducible exact id
      | with_reducible exact SMap.sorted_set _ _ _ | with_reducible exact SMap.sorted_put _ _
      | with_reducible exact SMap.sorted_del _ | with_reducible exact SMap.sorted_filter _
      | with_reducible exact Memory.wf_filter _ | with_reducible exact fun _ => SMap.sorted_nil
      | with_reducible exact fun _ => Memory.wf_nil | intro _ | with_reducible apply State.withResults_keeps
      | dsimp only | split

theorem State.purgeResults_keeps {ft : Nat} {s₀ s : State} (site : Nat) (hp : 256 &&& ft = 256) (h : Keeps ft s₀ s) :
    Keeps ft s₀ (State.purgeResults s site) := by
  delta State.purgeResults
  repeat' first
      | with_reducible assumption | exact Foot.sub hp rfl | intro _ | with_reducible apply State.setResultQ_keeps
      | dsimp only | split

theorem State.portTake_keeps {ft : Nat} {s₀ s : State} (site : Nat) (hp : 256 &&& ft = 256) (h : Keeps ft s₀ s) :
    Keeps ft s₀ (State.portTake s site) := by
  delta State.portTake
  repeat' first
      | with_reducible assumption | exact Foot.sub hp rfl | intro _ | with_reducible apply State.purgeResults_keeps
      | with_reducible apply State.setResultQ_keeps | with_reducible apply Keeps.ite | dsimp only | split

theorem State.raUnfeed_keeps {ft : Nat} {s₀ s : State} (k : Nat) (hp : 16 &&& ft = 16) (h : Keeps ft s₀ s) :
    Keeps ft s₀ (State.raUnfeed s k) := State.withRuns_keeps (Foot.sub hp rfl) h (SMap.sorted_map _)

theorem State.raEnd_keeps {ft : Nat} {s₀ s : State} (k : Nat) (hp : 530 &&& ft = 530) (h : Keeps ft s₀ s) :
    Keeps ft s₀ (State.raEnd s k) := by
  delta State.raEnd
  repeat' first
      | with_reducible assumption | exact Foot.sub hp rfl | with_reducible exact id
      | with_reducible exact SMap.sorted_set _ _ _ | with_reducible exact SMap.sorted_put _ _
      | with_reducible exact SMap.sorted_del _ | with_reducible exact SMap.sorted_filter _
      | with_reducible exact Memory.wf_filter _ | with_reducible exact fun _ => SMap.sorted_nil
      | with_reducible exact fun _ => Memory.wf_nil | intro _ | with_reducible apply State.setBit_keeps
      | with_reducible apply State.raUnfeed_keeps | with_reducible apply State.withSessions_keeps | dsimp only
      | split

theorem State.raAbort_keeps {ft : Nat} {s₀ s : State} (k : Nat) (hp : 3602 &&& ft = 3602) (h : Keeps ft s₀ s) :
    Keeps ft s₀ (State.raAbort s k) := by
  delta State.raAbort
  repeat' first
      | with_reducible assumption | exact Foot.sub hp rfl | intro _ | with_reducible apply State.freeDeleted_keeps
      | with_reducible apply State.raEnd_keeps | dsimp only | split

theorem State.setSession_keeps {ft : Nat} {s₀ s : State} (k : Nat) (u : RaSession) (hp : 512 &&& ft = 512)
    (h : Keeps ft s₀ s) :
    Keeps ft s₀ (State.setSession s k u) := by
  delta State.setSession
  repeat' first
      | with_reducible assumption | exact Foot.sub hp rfl | with_reducible exact id
      | with_reducible exact SMap.sorted_set _ _ _ | with_reducible exact SMap.sorted_put _ _
      | with_reducible exact SMap.sorted_del _ | with_reducible exact SMap.sorted_filter _
      | with_reducible exact Memory.wf_filter _ | with_reducible exact fun _ => SMap.sorted_nil
      | with_reducible exact fun _ => Memory.wf_nil | intro _ | with_reducible apply State.withSessions_keeps
      | dsimp only | split

theorem State.raSearch_keeps {ft : Nat} {s₀ s : State} (k : Nat) (u : RaSession) (hp : 514 &&& ft = 514)
    (h : Keeps ft s₀ s) :
    Keeps ft s₀ (State.raSearch s k u) := by
  delta State.raSearch
  repeat' first
      | with_reducible assumption | exact Foot.sub hp rfl | intro _ | with_reducible apply State.setBit_keeps
      | with_reducible apply State.setSession_keeps | dsimp only | split

theorem State.raClose_keeps {ft : Nat} {s₀ s : State} (k : Nat) (hp : 514 &&& ft = 514) (h : Keeps ft s₀ s) :
    Keeps ft s₀ (State.raClose s k) := by
  delta State.raClose
  repeat' first
      | with_reducible assumption | exact Foot.sub hp rfl | intro _ | with_reducible apply State.raSearch_keeps
      | with_reducible apply State.setSession_keeps | with_reducible apply Keeps.ite | dsimp only | split

theorem State.raDut_keeps {ft : Nat} {s₀ s : State} (k : Nat) (g : Nat) (u : RaSession) (out : Alloc)
    (hp : 77309411342 &&& ft = 77309411342) (h : Keeps ft s₀ s) :
    Keeps ft s₀ (State.raDut s k g u out) := by
  delta State.raDut
  repeat' first
      | with_reducible assumption | exact Foot.sub hp rfl | intro _ | with_reducible apply State.forUpTo_keeps
      | with_reducible apply State.allocWrite_keeps | with_reducible apply State.wr_keeps
      | with_reducible apply Keeps.foldl | dsimp only | split

theorem State.raPoison_keeps {ft : Nat} {s₀ s : State} (k : Nat) (q : Nat) (g : Nat) (hp : 16 &&& ft = 16)
    (h : Keeps ft s₀ s) :
    Keeps ft s₀ (State.raPoison s k q g) := by
  delta State.raPoison
  repeat' first
      | with_reducible assumption | exact Foot.sub hp rfl | intro _ | with_reducible apply State.updBurst_keeps
      | with_reducible apply Keeps.ite | dsimp only | split

theorem State.raLose_keeps {ft : Nat} {s₀ s : State} (k : Nat) (u : RaSession) (m : Nat)
    (hp : 8589935120 &&& ft = 8589935120) (h : Keeps ft s₀ s) :
    Keeps ft s₀ (State.raLose s k u m) := by
  delta State.raLose
  repeat' first
      | with_reducible assumption | exact Foot.sub hp rfl | intro _ | with_reducible apply State.setSession_keeps
      | with_reducible apply State.forUpTo_keeps | with_reducible apply State.pulse_keeps
      | with_reducible apply State.raPoison_keeps | with_reducible apply Keeps.ite | dsimp only | split

theorem State.raOpen_keeps {ft : Nat} {s₀ s : State} (k : Nat) (hp : 514 &&& ft = 514) (h : Keeps ft s₀ s) :
    Keeps ft s₀ (State.raOpen s k) := by
  delta State.raOpen
  repeat' first
      | with_reducible assumption | exact Foot.sub hp rfl | intro _ | with_reducible apply State.setBit_keeps
      | with_reducible apply State.forUpTo_keeps | with_reducible apply State.wr_keeps
      | with_reducible apply State.setSession_keeps | with_reducible apply Keeps.ite | dsimp only | split

theorem State.reachRa_keeps {ft : Nat} {s₀ s : State} (w : Lay) (k : Nat) (f : State → State)
    (hp : 17179869186 &&& ft = 17179869186) (h : Keeps ft s₀ s) (h_f : ∀ s , Keeps ft s₀ s → Keeps ft s₀ (f s)) :
    Keeps ft s₀ (State.reachRa s w k f) := by
  delta State.reachRa
  repeat' first
      | with_reducible assumption | exact Foot.sub hp rfl | intro _ | with_reducible apply State.reachUnit_keeps
      | with_reducible apply h_f | dsimp only | split

theorem State.recordServed_keeps {ft : Nat} {s₀ s : State} (site : Nat) (hp : 2 &&& ft = 2) (h : Keeps ft s₀ s) :
    Keeps ft s₀ (State.recordServed s site) := by
  delta State.recordServed
  repeat' first
      | with_reducible assumption | exact Foot.sub hp rfl | intro _ | with_reducible apply State.wr_keeps
      | dsimp only | split

theorem State.ringDetect_keeps {ft : Nat} {s₀ s : State} (site : Nat) (hp : 8589934592 &&& ft = 8589934592)
    (h : Keeps ft s₀ s) :
    Keeps ft s₀ (State.ringDetect s site) := by
  delta State.ringDetect
  repeat' first
      | with_reducible assumption | exact Foot.sub hp rfl | intro _ | with_reducible apply State.pulse_keeps
      | with_reducible apply Keeps.ite | dsimp only | split

theorem State.setBitmapBit_keeps {ft : Nat} {s₀ s : State} (a : Alloc) (b : Nat) (hp : 12 &&& ft = 12)
    (h : Keeps ft s₀ s) :
    Keeps ft s₀ (State.setBitmapBit s a b) := by
  delta State.setBitmapBit
  repeat' first
      | with_reducible assumption | exact Foot.sub hp rfl | intro _ | with_reducible apply State.setDramByte_keeps
      | dsimp only | split

theorem State.setSeqTap_keeps {ft : Nat} {s₀ s : State} (q : Nat) (lane : Nat) (f : Flight) (hp : 2 &&& ft = 2)
    (h : Keeps ft s₀ s) :
    Keeps ft s₀ (State.setSeqTap s q lane f) := by
  delta State.setSeqTap
  repeat' first
      | with_reducible assumption | exact Foot.sub hp rfl | intro _ | with_reducible apply State.wr_keeps
      | with_reducible apply Keeps.ite | dsimp only | split

theorem State.setTap_keeps {ft : Nat} {s₀ s : State} (lane : Nat) (f : Flight) (c : FlightCol) (ps : List Nat)
    (hp : 2 &&& ft = 2) (h : Keeps ft s₀ s) :
    Keeps ft s₀ (State.setTap s lane f c ps) := by
  delta State.setTap
  repeat' first
      | with_reducible assumption | exact Foot.sub hp rfl | intro _ | with_reducible apply State.wr_keeps
      | with_reducible apply Keeps.ite | dsimp only | split

theorem State.setTaps_keeps {ft : Nat} {s₀ s : State} (q : Nat) (f : Flight) (ps : List (List Nat))
    (hp : 2 &&& ft = 2) (h : Keeps ft s₀ s) :
    Keeps ft s₀ (State.setTaps s q f ps) := by
  delta State.setTaps
  repeat' first
      | with_reducible assumption | exact Foot.sub hp rfl | intro _ | with_reducible apply State.wr_keeps
      | with_reducible apply State.setSeqTap_keeps | with_reducible apply State.setTap_keeps
      | with_reducible apply Keeps.ite | with_reducible apply Keeps.foldl | dsimp only | split

theorem State.slotPair_keeps {ft : Nat} {s₀ s : State} (c : Nat) (x : Slot) (xs : List Nat)
    (hp : 68719476736 &&& ft = 68719476736) (h : Keeps ft s₀ s) :
    Keeps ft s₀ (State.slotPair s c x xs).1 := by
  delta State.slotPair
  repeat' first
      | with_reducible assumption | exact Foot.sub hp rfl | intro _ | with_reducible apply State.draw_keeps
      | with_reducible apply Keeps.ite | dsimp only | split

theorem State.slotPairs_keeps {ft : Nat} {s₀ s : State} (c : Nat) (obs : List ChannelSamples) (x0 : Nat)
    (x1 : List Slot) (hp : 68719476736 &&& ft = 68719476736) (h : Keeps ft s₀ s) :
    Keeps ft s₀ (State.slotPairs s c obs x0 x1).1 := by
  induction x1 generalizing s c obs x0 with
  | nil => first | exact h | trivial
  | cons a r ih =>
    unfold State.slotPairs
    repeat' first
        | with_reducible assumption | exact Foot.sub hp rfl | intro _ | with_reducible apply ih
        | with_reducible apply State.slotPair_keeps | with_reducible refine Keeps.of_fst (by assumption) ?_
        | dsimp only | split

theorem State.vectorPairs_keeps {ft : Nat} {s₀ s : State} (obs : List ChannelSamples) (x0 : List FlightCol)
    (hp : 68719476736 &&& ft = 68719476736) (h : Keeps ft s₀ s) :
    Keeps ft s₀ (State.vectorPairs s obs x0).1 := by
  induction x0 generalizing s obs with
  | nil => first | exact h | trivial
  | cons a r ih =>
    unfold State.vectorPairs
    repeat' first
        | with_reducible assumption | exact Foot.sub hp rfl | intro _ | with_reducible apply ih
        | with_reducible apply State.slotPairs_keeps | with_reducible refine Keeps.of_fst (by assumption) ?_
        | dsimp only | split

theorem State.writeDmkCh_keeps {ft : Nat} {s₀ s : State} (a : Nat) (v : Nat) (hp : 2 &&& ft = 2) (h : Keeps ft s₀ s) :
    Keeps ft s₀ (State.writeDmkCh s a v) := by
  delta State.writeDmkCh
  repeat' first
      | with_reducible assumption | exact Foot.sub hp rfl | intro _ | with_reducible apply State.wr_keeps
      | with_reducible apply Keeps.ite | dsimp only | split

theorem State.writeLine_keeps {ft : Nat} {s₀ s : State} (site : Nat) (a : Alloc) (w1 : List Nat) (w2 : List Nat)
    (hp : 77309411342 &&& ft = 77309411342) (h : Keeps ft s₀ s) :
    Keeps ft s₀ (State.writeLine s site a w1 w2) := by
  delta State.writeLine
  repeat' first
      | with_reducible assumption | exact Foot.sub hp rfl | intro _ | with_reducible apply State.wr_keeps
      | with_reducible apply State.allocWrite_keeps | dsimp only | split

theorem State.writeRingRd_keeps {ft : Nat} {s₀ s : State} (site : Nat) (v : Nat) (hp : 2 &&& ft = 2)
    (h : Keeps ft s₀ s) :
    Keeps ft s₀ (State.writeRingRd s site v) := by
  delta State.writeRingRd
  repeat' first
      | with_reducible assumption | exact Foot.sub hp rfl | intro _ | with_reducible apply State.wr_keeps
      | with_reducible apply Keeps.ite | dsimp only | split

theorem execBitmapLineWrite_keeps {ft : Nat} {s₀ s : State} (site : Site) (bad : Bool)
    (hp : 77309411550 &&& ft = 77309411550) (h : Keeps ft s₀ s) :
    KeepsOut ft s₀ (execBitmapLineWrite site bad s) := by
  delta execBitmapLineWrite
  repeat' first
      | with_reducible assumption | exact Foot.sub hp rfl | intro _ | with_reducible apply State.passHead_keeps
      | with_reducible apply State.setBitmapBit_keeps | with_reducible apply State.setUpdates_keeps
      | with_reducible apply State.lineWritten_keeps | with_reducible apply State.readBad_keeps
      | with_reducible apply State.pulse_keeps | with_reducible apply State.fpoison_keeps
      | with_reducible apply Keeps.ite | with_reducible apply Keeps.foldl | with_reducible apply KeepsOut.done
      | with_reducible apply KeepsOut.next | exact trivial | dsimp only | split

theorem execBmapClearEnd_keeps {ft : Nat} {s₀ s : State} (site : Site) (hp : 77309411342 &&& ft = 77309411342)
    (h : Keeps ft s₀ s) :
    KeepsOut ft s₀ (execBmapClearEnd site s) := by
  delta execBmapClearEnd
  repeat' first
      | with_reducible assumption | exact Foot.sub hp rfl | intro _ | with_reducible apply State.clearEnd_keeps
      | with_reducible apply Keeps.ite | with_reducible apply KeepsOut.done | with_reducible apply KeepsOut.next
      | exact trivial | dsimp only | split

theorem execBmapClr_keeps {ft : Nat} {s₀ s : State} (site : Site) (hp : 17179869186 &&& ft = 17179869186)
    (h : Keeps ft s₀ s) :
    KeepsOut ft s₀ (execBmapClr site s) := by
  delta execBmapClr
  repeat' first
      | with_reducible assumption | exact Foot.sub hp rfl | intro _ | with_reducible apply State.reach_keeps
      | with_reducible apply State.bmapClear_keeps | with_reducible apply KeepsOut.done
      | with_reducible apply KeepsOut.next | exact trivial | dsimp only | split

theorem execDmkRingRd_keeps {ft : Nat} {s₀ s : State} (site : Site) (v : Word) (hp : 17179869186 &&& ft = 17179869186)
    (h : Keeps ft s₀ s) :
    KeepsOut ft s₀ (execDmkRingRd site v s) := by
  delta execDmkRingRd
  repeat' first
      | with_reducible assumption | exact Foot.sub hp rfl | intro _ | with_reducible apply State.reach_keeps
      | with_reducible apply State.writeRingRd_keeps | with_reducible apply KeepsOut.done
      | with_reducible apply KeepsOut.next | exact trivial | dsimp only | split

theorem execPadTimeout_keeps {ft : Nat} {s₀ s : State} (site : Site) (hp : 77309411550 &&& ft = 77309411550)
    (h : Keeps ft s₀ s) :
    KeepsOut ft s₀ (execPadTimeout site s) := by
  delta execPadTimeout
  repeat' first
      | with_reducible assumption | exact Foot.sub hp rfl | intro _ | with_reducible apply State.passHead_keeps
      | with_reducible apply State.recordOut_keeps | with_reducible apply State.countWritten_keeps
      | with_reducible apply State.recordServed_keeps | with_reducible apply State.setFifo_keeps
      | with_reducible apply State.writeLine_keeps | with_reducible apply Keeps.ite
      | with_reducible apply KeepsOut.done | with_reducible apply KeepsOut.next | exact trivial | dsimp only | split

theorem execRaAbort_keeps {ft : Nat} {s₀ s : State} (k : RepairId) (hp : 17179872786 &&& ft = 17179872786)
    (h : Keeps ft s₀ s) :
    KeepsOut ft s₀ (execRaAbort k s) := by
  delta execRaAbort
  repeat' first
      | with_reducible assumption | exact Foot.sub hp rfl | intro _ | with_reducible apply State.reachRa_keeps
      | with_reducible apply State.raAbort_keeps | with_reducible apply KeepsOut.done
      | with_reducible apply KeepsOut.next | exact trivial | dsimp only | split

theorem execRaClose_keeps {ft : Nat} {s₀ s : State} (k : RepairId) (hp : 17179869698 &&& ft = 17179869698)
    (h : Keeps ft s₀ s) :
    KeepsOut ft s₀ (execRaClose k s) := by
  delta execRaClose
  repeat' first
      | with_reducible assumption | exact Foot.sub hp rfl | intro _ | with_reducible apply State.reachRa_keeps
      | with_reducible apply State.raClose_keeps | with_reducible apply KeepsOut.done
      | with_reducible apply KeepsOut.next | exact trivial | dsimp only | split

theorem execRaCloseEffect_keeps {ft : Nat} {s₀ s : State} (k : RepairId) (hp : 514 &&& ft = 514) (h : Keeps ft s₀ s) :
    KeepsOut ft s₀ (execRaCloseEffect k s) := by
  delta execRaCloseEffect
  repeat' first
      | with_reducible assumption | exact Foot.sub hp rfl | intro _ | with_reducible apply State.raSearch_keeps
      | with_reducible apply Keeps.ite | with_reducible apply KeepsOut.done | with_reducible apply KeepsOut.next
      | exact trivial | dsimp only | split

theorem execRaOpen_keeps {ft : Nat} {s₀ s : State} (k : RepairId) (hp : 17179869698 &&& ft = 17179869698)
    (h : Keeps ft s₀ s) :
    KeepsOut ft s₀ (execRaOpen k s) := by
  delta execRaOpen
  repeat' first
      | with_reducible assumption | exact Foot.sub hp rfl | intro _ | with_reducible apply State.reachRa_keeps
      | with_reducible apply State.raOpen_keeps | with_reducible apply KeepsOut.done
      | with_reducible apply KeepsOut.next | exact trivial | dsimp only | split

theorem execRecordPortRead_keeps {ft : Nat} {s₀ s : State} (p : Fin 4) (m : Master)
    (hp : 25769803778 &&& ft = 25769803778) (h : Keeps ft s₀ s) :
    KeepsOut ft s₀ (execRecordPortRead p m s) := by
  delta execRecordPortRead
  repeat' first
      | with_reducible assumption | exact Foot.sub hp rfl | intro _ | with_reducible apply State.hold_keeps
      | with_reducible apply State.reach_keeps | with_reducible apply State.ringDetect_keeps
      | with_reducible apply State.answer_keeps | with_reducible apply State.consumeRecord_keeps
      | with_reducible apply Keeps.ite | with_reducible apply KeepsOut.done | with_reducible apply KeepsOut.next
      | exact trivial | dsimp only | split

theorem execRecordWrite_keeps {ft : Nat} {s₀ s : State} (site : Site) (hp : 77309411550 &&& ft = 77309411550)
    (h : Keeps ft s₀ s) :
    KeepsOut ft s₀ (execRecordWrite site s) := by
  delta execRecordWrite
  repeat' first
      | with_reducible assumption | exact Foot.sub hp rfl | intro _ | with_reducible apply State.passHead_keeps
      | with_reducible apply State.recordServed_keeps | with_reducible apply State.setFifo_keeps
      | with_reducible apply State.writeLine_keeps | with_reducible apply State.recordOut_keeps
      | with_reducible apply State.countWritten_keeps | with_reducible apply Keeps.ite
      | with_reducible apply KeepsOut.done | with_reducible apply KeepsOut.next | exact trivial | dsimp only | split

theorem execRepairCell_keeps {ft : Nat} {s₀ s : State} (k : RepairId) (poison : Bool)
    (hp : 8589935120 &&& ft = 8589935120) (h : Keeps ft s₀ s) :
    KeepsOut ft s₀ (execRepairCell k poison s) := by
  delta execRepairCell
  repeat' first
      | with_reducible assumption | exact Foot.sub hp rfl | intro _ | with_reducible apply State.raLose_keeps
      | with_reducible apply State.setSession_keeps | with_reducible apply Keeps.ite
      | with_reducible apply KeepsOut.done | with_reducible apply KeepsOut.next | exact trivial | dsimp only | split

theorem execRepairSearchEnd_keeps {ft : Nat} {s₀ s : State} (k : RepairId) (bad : BitVec 8)
    (hp : 77309414942 &&& ft = 77309414942) (h : Keeps ft s₀ s) :
    KeepsOut ft s₀ (execRepairSearchEnd k s bad) := by
  delta execRepairSearchEnd
  repeat' first
      | with_reducible assumption | exact Foot.sub hp rfl | intro _ | with_reducible apply State.raLose_keeps
      | with_reducible apply State.forUpTo_keeps | with_reducible apply State.raDut_keeps
      | with_reducible apply State.freeDeleted_keeps | with_reducible apply State.raEnd_keeps
      | with_reducible apply State.setBit_keeps | with_reducible apply Keeps.ite | with_reducible apply KeepsOut.done
      | with_reducible apply KeepsOut.next | exact trivial | dsimp only | split

theorem execResultPortRead_keeps {ft : Nat} {s₀ s : State} (m : Master) (hp : 17179869442 &&& ft = 17179869442)
    (h : Keeps ft s₀ s) :
    KeepsOut ft s₀ (execResultPortRead m s) := by
  delta execResultPortRead
  repeat' first
      | with_reducible assumption | exact Foot.sub hp rfl | intro _ | with_reducible apply State.reach_keeps
      | with_reducible apply State.answer_keeps | with_reducible apply State.portTake_keeps
      | with_reducible apply Keeps.ite | with_reducible apply KeepsOut.done | with_reducible apply KeepsOut.next
      | exact trivial | dsimp only | split

theorem execResultPost_keeps {ft : Nat} {s₀ s : State} (site : Site) (hp : 3574 &&& ft = 3574) (h : Keeps ft s₀ s) :
    KeepsOut ft s₀ (execResultPost site s) := by
  delta execResultPost
  repeat' first
      | with_reducible assumption | exact Foot.sub hp rfl | intro _ | with_reducible apply State.passHead_keeps
      | with_reducible apply State.purgeResults_keeps | with_reducible apply State.inc_keeps
      | with_reducible apply State.setResultQ_keeps | with_reducible apply State.updBurst_keeps
      | with_reducible apply State.release_keeps | with_reducible apply Keeps.ite
      | with_reducible apply KeepsOut.done | with_reducible apply KeepsOut.next | exact trivial | dsimp only | split

theorem execStrobeResult_keeps {ft : Nat} {s₀ s : State} (q : SeqId) (obs : List ChannelSamples)
    (hp : 68719477462 &&& ft = 68719477462) (h : Keeps ft s₀ s) :
    KeepsOut ft s₀ (execStrobeResult q obs s) := by
  delta execStrobeResult
  repeat' first
      | with_reducible assumption | exact Foot.sub hp rfl | intro _ | with_reducible apply State.setRun_keeps
      | with_reducible apply State.vectorPairs_keeps | with_reducible apply State.judgeMatch_keeps
      | with_reducible apply State.judgePlain_keeps | with_reducible apply State.settle_keeps
      | with_reducible apply State.setTaps_keeps | with_reducible apply Keeps.ite
      | with_reducible apply KeepsOut.done | with_reducible apply KeepsOut.next | exact trivial
      | with_reducible refine Keeps.of_fst (by assumption) ?_ | dsimp only | split
end Sys2Proof.Machine
end

