-- ==== Sys2Proof/Laws/KeepsPages.lean ====
section
/-! SUPPORT. Once for each: what the operations of Machine/Pages.lean keep: the parts of the
state they may change, and that the canonical form of the state survives them. -/

namespace Sys2Proof.Machine

theorem State.warmBuild_keeps {ft : Nat} {s₀ s : State} (hp : 3076 &&& ft = 3076) (h : Keeps ft s₀ s) :
    Keeps ft s₀ (State.warmBuild s) :=
  State.withDir_canon (Foot.sub hp rfl) (State.rootRestore_keeps (Foot.sub hp rfl) h)
    fun c => SMap.sorted_filter _ (h.canon c).dirCopy

theorem State.dropPages_keeps {ft : Nat} {s₀ s : State} (hp : 166924 &&& ft = 166924) (h : Keeps ft s₀ s) :
    Keeps ft s₀ (State.dropPages s) :=
  h.upd (fun p => by cases p <;> first | exact fun _ => rfl | exact Foot.not hp (by decide)) fun c =>
    { c with dir := rfl, dirCopy := rfl, tabs := SMap.sorted_filter _ c.tabs, mem := Memory.wf_filter _ c.mem }

theorem State.coldBuild_keeps {ft : Nat} {s₀ s : State}  (hp : 68719643662 &&& ft = 68719643662) (h : Keeps ft s₀ s) :
    Keeps ft s₀ (State.coldBuild s) := by
  delta State.coldBuild
  repeat' first
      | with_reducible assumption | exact Foot.sub hp rfl | intro _ | with_reducible apply State.forUpTo_keeps
      | with_reducible apply State.wr_keeps | with_reducible apply State.setFlag_keeps
      | with_reducible apply State.dropPages_keeps | with_reducible apply State.draw_keeps
      | with_reducible apply Keeps.ite | dsimp only | split

theorem State.calicoReady_keeps {ft : Nat} {s₀ s : State} (hp : 68719643662 &&& ft = 68719643662)
    (h : Keeps ft s₀ s) :
    Keeps ft s₀ (State.calicoReady s) := by
  delta State.calicoReady
  repeat' first
      | with_reducible assumption | exact Foot.sub hp rfl | intro _ | with_reducible apply State.warmBuild_keeps
      | with_reducible apply State.coldBuild_keeps | with_reducible apply State.setFlag_keeps
      | with_reducible apply State.wr_keeps | with_reducible apply Keeps.ite | dsimp only | split

theorem State.clearPage_keeps {ft : Nat} {s₀ s : State} (pg : Nat) (hp : 4 &&& ft = 4) (h : Keeps ft s₀ s) :
    Keeps ft s₀ (State.clearPage s pg) := by
  delta State.clearPage
  repeat' first
      | with_reducible assumption | exact Foot.sub hp rfl | with_reducible exact id
      | with_reducible exact SMap.sorted_set _ _ _ | with_reducible exact SMap.sorted_put _ _
      | with_reducible exact SMap.sorted_del _ | with_reducible exact SMap.sorted_filter _
      | with_reducible exact Memory.wf_filter _ | with_reducible exact fun _ => SMap.sorted_nil
      | with_reducible exact fun _ => Memory.wf_nil | intro _ | with_reducible apply State.withTabs_keeps
      | dsimp only | split

theorem State.takePage_keeps {ft : Nat} {s₀ s : State} (used : List Nat) (hp : 68719476742 &&& ft = 68719476742)
    (h : Keeps ft s₀ s) :
    KeepsOptP ft s₀ (State.takePage s used) := by
  delta State.takePage
  repeat' first
      | with_reducible assumption | exact Foot.sub hp rfl | intro _ | with_reducible apply State.wr_keeps
      | with_reducible apply State.clearPage_keeps | with_reducible apply State.draw_keeps
      | with_reducible apply KeepsOptP.some | exact KeepsOptP.none | dsimp only | split

theorem State.movePage_keeps {ft : Nat} {s₀ s : State} (id : Nat) (a : Alloc) (pg : Nat)
    (hp : 68719479814 &&& ft = 68719479814) (h : Keeps ft s₀ s) :
    KeepsOpt ft s₀ (State.movePage s id a pg) := by
  delta State.movePage
  repeat' first
      | with_reducible assumption | exact Foot.sub hp rfl | intro _ | with_reducible apply State.takePage_keeps
      | with_reducible apply State.setAlloc_keeps | with_reducible apply KeepsOpt.some | exact KeepsOpt.none
      | with_reducible refine Keeps.of_someP (by assumption) ?_ | dsimp only | split

theorem State.writePiece_keeps {ft : Nat} {s₀ s : State} (id : Nat) (x : Nat × Nat × Nat) (bs : List Byte) (bad : Nat)
    (hp : 77309414414 &&& ft = 77309414414) (h : Keeps ft s₀ s) :
    KeepsOpt ft s₀ (State.writePiece s id x bs bad) := by
  delta State.writePiece
  repeat' first
      | with_reducible assumption | exact Foot.sub hp rfl | intro _ | with_reducible apply State.movePage_keeps
      | with_reducible apply State.setAlloc_keeps | with_reducible apply State.allocWrite_keeps
      | with_reducible apply Keeps.ite | with_reducible apply KeepsOpt.some | exact KeepsOpt.none
      | with_reducible refine Keeps.of_some (by assumption) ?_ | dsimp only | split

theorem State.writePieces_keeps {ft : Nat} {s₀ s : State} (id : Nat) (bad : Nat) (x0 : List (Nat × Nat × Nat))
    (x1 : List Byte) (hp : 77309414414 &&& ft = 77309414414) (h : Keeps ft s₀ s) :
    KeepsOpt ft s₀ (State.writePieces s id bad x0 x1) := by
  induction x0 generalizing s id bad x1 with
  | nil => first | exact h | trivial
  | cons a r ih =>
    unfold State.writePieces
    repeat' first
        | with_reducible assumption | exact Foot.sub hp rfl | intro _ | with_reducible apply ih
        | with_reducible apply State.writePiece_keeps | with_reducible apply KeepsOpt.some | exact KeepsOpt.none
        | with_reducible refine Keeps.of_some (by assumption) ?_ | dsimp only | split

theorem State.objWrite_keeps {ft : Nat} {s₀ s : State} (id : Nat) (off : Nat) (bs : List Byte) (bad : optParam Nat 0)
    (hp : 77309414414 &&& ft = 77309414414) (h : Keeps ft s₀ s) :
    KeepsOpt ft s₀ (State.objWrite s id off bs bad) := by
  delta State.objWrite
  repeat' first
      | with_reducible assumption | exact Foot.sub hp rfl | intro _ | with_reducible apply State.writePieces_keeps
      | with_reducible apply Keeps.ite | with_reducible apply KeepsOpt.some | exact KeepsOpt.none
      | with_reducible refine Keeps.of_some (by assumption) ?_ | dsimp only | split

theorem State.takePages_keeps {ft : Nat} {s₀ s : State} (used : List Nat) (x0 : Nat)
    (hp : 68719476742 &&& ft = 68719476742) (h : Keeps ft s₀ s) :
    KeepsOptP ft s₀ (State.takePages s used x0) := by
  induction x0 generalizing s used with
  | zero => first | exact h | trivial
  | succ k ih =>
    unfold State.takePages
    repeat' first
        | with_reducible assumption | exact Foot.sub hp rfl | intro _ | with_reducible apply ih
        | with_reducible apply State.takePage_keeps | with_reducible apply KeepsOptP.some | exact KeepsOptP.none
        | with_reducible refine Keeps.of_someP (by assumption) ?_ | dsimp only | split

theorem State.uploaded_keeps {ft : Nat} {s₀ s : State} (n : Nat) (hp : 2 &&& ft = 2) (h : Keeps ft s₀ s) :
    Keeps ft s₀ (State.uploaded s n) := by
  delta State.uploaded
  repeat' first
      | with_reducible assumption | exact Foot.sub hp rfl | intro _ | with_reducible apply State.wr_keeps
      | dsimp only | split
end Sys2Proof.Machine
end

