-- ==== Sys2Proof/Laws/KeepsCalico.lean ====
section
/-! SUPPORT. Once for each: what the operations of Machine/Calico.lean keep: the parts of the
state they may change, and that the canonical form of the state survives them. -/

namespace Sys2Proof.Machine

theorem State.startChannels_keeps {ft : Nat} {s₀ s : State} (q : Nat) (hp : 34 &&& ft = 34) (h : Keeps ft s₀ s) :
    Keeps ft s₀ (State.startChannels s q) := by
  refine Keeps.foldl h fun s c h => State.withInj_keeps (Foot.sub hp rfl) ?_ (SMap.sorted_del _)
  exact State.wr_keeps _ _ (Foot.sub hp rfl) (State.wr_keeps _ _ (Foot.sub hp rfl) (State.wr_keeps _ _ (Foot.sub hp rfl) h))

theorem State.startSeq_keeps {ft : Nat} {s₀ s : State} (q : Nat) (obj : Nat) (tset0 : Nat) (hp : 2 &&& ft = 2)
    (h : Keeps ft s₀ s) :
    Keeps ft s₀ (State.startSeq s q obj tset0) := by
  delta State.startSeq
  repeat' first
      | with_reducible assumption | exact Foot.sub hp rfl | intro _ | with_reducible apply State.setVcnt_keeps
      | with_reducible apply State.wr_keeps | with_reducible apply State.forUpTo_keeps | dsimp only | split

theorem State.feedUnits_keeps {ft : Nat} {s₀ s : State} (units : Nat) (hp : 512 &&& ft = 512) (h : Keeps ft s₀ s) :
    Keeps ft s₀ (State.feedUnits s units) := by
  refine State.withSessions_keeps (Foot.sub hp rfl) h fun c => ?_
  have e : (fun e : Nat × RaSession => if bitOf units e.1 then (e.1, { e.2 with fed := true }) else e) =
      fun e => (e.1, if bitOf units e.1 then { e.2 with fed := true } else e.2) := by
    funext e; split <;> rfl
  rw [e]
  exact SMap.sorted_map _ c

theorem State.admitRun_keeps {ft : Nat} {s₀ s : State} (p : Nat) (q : Nat) (obj : Nat) (a : Alloc) (x : Demand)
    (hp : 8589935154 &&& ft = 8589935154) (h : Keeps ft s₀ s) :
    Keeps ft s₀ (State.admitRun s p q obj a x) := by
  delta State.admitRun
  repeat' first
      | with_reducible assumption | exact Foot.sub hp rfl | intro _ | with_reducible apply State.wr_keeps
      | with_reducible apply State.inc_keeps | with_reducible apply State.startChannels_keeps
      | with_reducible apply State.startSeq_keeps | with_reducible apply State.apgAssign_keeps
      | with_reducible apply State.setRun_keeps | with_reducible apply State.feedUnits_keeps
      | with_reducible apply State.setBit_keeps | with_reducible apply State.pulse_keeps
      | with_reducible apply Keeps.foldl | dsimp only | split

theorem State.calEnd_keeps {ft : Nat} {s₀ s : State} (a : CalArgs) (code : Nat) (outs : List Nat)
    (hp : 8589934594 &&& ft = 8589934594) (h : Keeps ft s₀ s) :
    Keeps ft s₀ (State.calEnd s a code outs) := by
  delta State.calEnd
  repeat' first
      | with_reducible assumption | exact Foot.sub hp rfl | intro _ | with_reducible apply State.pulse_keeps
      | with_reducible apply State.wr_keeps | with_reducible apply State.forUpTo_keeps | dsimp only | split

theorem State.newAlloc_keeps {ft : Nat} {s₀ s : State} (id kind st : Nat) (c : CalCmd)
    (hp : 68719479814 &&& ft = 68719479814) (h : Keeps ft s₀ s) : KeepsOpt ft s₀ (State.newAlloc s id kind st c) := by
  have ht := State.takePages_keeps s.usedPages (pagesOf c.size) (Foot.sub hp rfl) h
  unfold State.newAlloc
  dsimp only
  cases e : s.takePages s.usedPages (pagesOf c.size) with
  | none => exact trivial
  | some x =>
    rw [e] at ht
    exact State.setAlloc_keeps _ _ (Foot.sub hp rfl) (State.draw_keeps (Foot.sub hp rfl) ht)

theorem State.allocNew_keeps {ft : Nat} {s₀ s : State} (a : CalArgs) (c : CalCmd)
    (hp : 77309414406 &&& ft = 77309414406)
    (h : Keeps ft s₀ s) : Keeps ft s₀ (State.allocNew s a c) := by
  have he : ∀ e r s, Keeps ft s₀ s → Keeps ft s₀ (State.calEnd s a e r) :=
    fun e r s h => State.calEnd_keeps a e r (Foot.sub hp rfl) h
  delta State.allocNew
  refine Keeps.ite (he _ _ _ h) ?_
  split
  · exact he _ _ _ h
  · split
    · exact he _ _ _ h
    · rename_i id _
      have hn := State.newAlloc_keeps id c.kind 6 c (Foot.sub hp rfl) (State.draw_keeps (Foot.sub hp rfl) h)
      cases e : s.draw.newAlloc id c.kind 6 c with
      | none => exact he _ _ _ h
      | some t => rw [e] at hn; exact he _ _ _ hn

theorem State.calDo_keeps {ft : Nat} {s₀ s : State} (a : CalArgs) (ops : List Nat) (f : State → CalCmd → State)
    (hp : 2 &&& ft = 2) (h : Keeps ft s₀ s) (h_f : ∀ s a0, Keeps ft s₀ s → Keeps ft s₀ (f s a0)) :
    Keeps ft s₀ (State.calDo s a ops f) := by
  delta State.calDo
  repeat' first
      | with_reducible assumption | exact Foot.sub hp rfl | intro _ | with_reducible apply State.setFlag_keeps
      | with_reducible apply h_f | with_reducible apply Keeps.ite | dsimp only | split

theorem State.create_keeps {ft : Nat} {s₀ s : State} (a : CalArgs) (c : CalCmd) (hp : 77309414406 &&& ft = 77309414406)
    (h : Keeps ft s₀ s) : Keeps ft s₀ (State.create s a c) := by
  have he : ∀ e r s, Keeps ft s₀ s → Keeps ft s₀ (State.calEnd s a e r) :=
    fun e r s h => State.calEnd_keeps a e r (Foot.sub hp rfl) h
  delta State.create
  refine Keeps.ite (he _ _ _ h) (Keeps.ite (he _ _ _ h) ?_)
  split
  · exact he _ _ _ h
  · have hn := State.newAlloc_keeps c.id 0 1 c (Foot.sub hp rfl) h
    cases e : s.newAlloc c.id 0 1 c with
    | none => exact he _ _ _ h
    | some t => rw [e] at hn; exact he _ _ _ hn

theorem State.seal_keeps {ft : Nat} {s₀ s : State} (x : CalArgs) (c : CalCmd) (hp : 8724188162 &&& ft = 8724188162)
    (h : Keeps ft s₀ s) :
    Keeps ft s₀ (State.seal s x c) := by
  delta State.seal
  repeat' first
      | with_reducible assumption | exact Foot.sub hp rfl | intro _ | with_reducible apply State.calEnd_keeps
      | with_reducible apply State.pageMark_keeps | with_reducible apply State.setAlloc_keeps
      | with_reducible apply Keeps.ite | dsimp only | split

theorem State.delete_keeps {ft : Nat} {s₀ s : State} (x : CalArgs) (c : CalCmd) (hp : 8589937666 &&& ft = 8589937666)
    (h : Keeps ft s₀ s) :
    Keeps ft s₀ (State.delete s x c) := by
  delta State.delete
  repeat' first
      | with_reducible assumption | exact Foot.sub hp rfl | intro _ | with_reducible apply State.calEnd_keeps
      | with_reducible apply State.freeDeleted_keeps | with_reducible apply State.setAlloc_keeps
      | with_reducible apply Keeps.ite | dsimp only | split

theorem State.query_keeps {ft : Nat} {s₀ s : State} (x : CalArgs) (c : CalCmd) (hp : 8589934594 &&& ft = 8589934594)
    (h : Keeps ft s₀ s) :
    Keeps ft s₀ (State.query s x c) := by
  delta State.query
  repeat' first
      | with_reducible assumption | exact Foot.sub hp rfl | intro _ | with_reducible apply State.calEnd_keeps
      | dsimp only | split

theorem State.calGoCmd_keeps {ft : Nat} {s₀ s : State}  (hp : 77443664902 &&& ft = 77443664902) (h : Keeps ft s₀ s) :
    Keeps ft s₀ (State.calGoCmd s) := by
  delta State.calGoCmd
  repeat' first
      | with_reducible assumption | exact Foot.sub hp rfl | intro _ | with_reducible apply State.calDo_keeps
      | with_reducible apply State.create_keeps | with_reducible apply State.allocNew_keeps
      | with_reducible apply State.seal_keeps | with_reducible apply State.delete_keeps
      | with_reducible apply State.query_keeps | with_reducible apply State.calEnd_keeps | dsimp only | split

theorem State.calRun_keeps {ft : Nat} {s₀ s : State} (a : CalArgs) (ops : List Nat) (f : State → CalCmd → State)
    (hp : 17179869186 &&& ft = 17179869186) (h : Keeps ft s₀ s) (h_f : ∀ s a0, Keeps ft s₀ s → Keeps ft s₀ (f s a0)) :
    Keeps ft s₀ (State.calRun s a ops f) := by
  delta State.calRun
  repeat' first
      | with_reducible assumption | exact Foot.sub hp rfl | intro _ | with_reducible apply State.calDo_keeps
      | with_reducible apply State.reach_keeps | with_reducible apply h_f | with_reducible apply Keeps.ite
      | dsimp only | split

theorem State.calTick_keeps {ft : Nat} {s₀ s : State}  (hp : 77443664902 &&& ft = 77443664902) (h : Keeps ft s₀ s) :
    Keeps ft s₀ (State.calTick s) := by
  delta State.calTick
  repeat' first
      | with_reducible assumption | exact Foot.sub hp rfl | intro _ | with_reducible apply State.calGoCmd_keeps
      | with_reducible apply Keeps.ite | dsimp only | split

theorem State.requestRefuse_keeps {ft : Nat} {s₀ s : State} (p : Nat) (reason : Nat)
    (hp : 8589934594 &&& ft = 8589934594) (h : Keeps ft s₀ s) :
    Keeps ft s₀ (State.requestRefuse s p reason) := by
  delta State.requestRefuse
  repeat' first
      | with_reducible assumption | exact Foot.sub hp rfl | intro _ | with_reducible apply State.pulse_keeps
      | with_reducible apply State.wr_keeps | with_reducible apply State.setBit_keeps | dsimp only | split

theorem State.recheckPort_keeps {ft : Nat} {s₀ s : State} (p : Nat) (hp : 8589934594 &&& ft = 8589934594)
    (h : Keeps ft s₀ s) :
    Keeps ft s₀ (State.recheckPort s p) := by
  delta State.recheckPort
  repeat' first
      | with_reducible assumption | exact Foot.sub hp rfl | intro _ | with_reducible apply State.requestRefuse_keeps
      | dsimp only | split

theorem State.decidePort_keeps {ft : Nat} {s₀ s : State} (p : Nat) (hp : 8589935154 &&& ft = 8589935154)
    (h : Keeps ft s₀ s) :
    Keeps ft s₀ (State.decidePort s p) := by
  delta State.decidePort
  repeat' first
      | with_reducible assumption | exact Foot.sub hp rfl | intro _ | with_reducible apply State.admitRun_keeps
      | with_reducible apply Keeps.ite | dsimp only | split

theorem State.decideAll_keeps {ft : Nat} {s₀ s : State}  (hp : 8589935154 &&& ft = 8589935154) (h : Keeps ft s₀ s) :
    Keeps ft s₀ (State.decideAll s) := by
  delta State.decideAll
  repeat' first
      | with_reducible assumption | exact Foot.sub hp rfl | intro _ | with_reducible apply State.recheckPort_keeps
      | with_reducible apply State.decidePort_keeps | with_reducible apply Keeps.foldl | dsimp only | split

theorem State.decideTick_keeps {ft : Nat} {s₀ s : State}  (hp : 8589935154 &&& ft = 8589935154) (h : Keeps ft s₀ s) :
    Keeps ft s₀ (State.decideTick s) := by
  delta State.decideTick
  repeat' first
      | with_reducible assumption | exact Foot.sub hp rfl | intro _ | with_reducible apply State.decideAll_keeps
      | with_reducible apply Keeps.ite | dsimp only | split

theorem State.fill_keeps {ft : Nat} {s₀ s : State} (q : Nat) (r : SeqRun) (hp : 77443664918 &&& ft = 77443664918)
    (h : Keeps ft s₀ s) :
    Keeps ft s₀ (State.fill s q r) := by
  delta State.fill
  repeat' first
      | with_reducible assumption | exact Foot.sub hp rfl | intro _ | with_reducible apply State.fetchAll_keeps
      | dsimp only | split

theorem State.fillComplete_keeps {ft : Nat} {s₀ s : State} (q : Nat) (r : SeqRun) (hp : 22 &&& ft = 22)
    (h : Keeps ft s₀ s) :
    Keeps ft s₀ (State.fillComplete s q r) := by
  delta State.fillComplete
  repeat' first
      | with_reducible assumption | exact Foot.sub hp rfl | intro _ | with_reducible apply State.endRun_keeps
      | with_reducible apply State.wr_keeps | with_reducible apply State.mapRun_keeps
      | with_reducible apply State.timingStart_keeps | with_reducible apply Keeps.ite | dsimp only | split

theorem State.postPort_keeps {ft : Nat} {s₀ s : State} (p : Nat) (hp : 8589934594 &&& ft = 8589934594)
    (h : Keeps ft s₀ s) :
    Keeps ft s₀ (State.postPort s p) := by
  delta State.postPort
  repeat' first
      | with_reducible assumption | exact Foot.sub hp rfl | intro _ | with_reducible apply State.setBit_keeps
      | with_reducible apply State.wr_keeps | with_reducible apply State.inc_keeps
      | with_reducible apply State.requestRefuse_keeps | with_reducible apply Keeps.ite | dsimp only | split

theorem State.pzNext_keeps {ft : Nat} {s₀ s : State}  (hp : 32768 &&& ft = 32768) (h : Keeps ft s₀ s) :
    Keeps ft s₀ (State.pzNext s) := by
  delta State.pzNext
  repeat' first
      | with_reducible assumption | exact Foot.sub hp rfl | with_reducible exact id
      | with_reducible exact SMap.sorted_set _ _ _ | with_reducible exact SMap.sorted_put _ _
      | with_reducible exact SMap.sorted_del _ | with_reducible exact SMap.sorted_filter _
      | with_reducible exact Memory.wf_filter _ | with_reducible exact fun _ => SMap.sorted_nil
      | with_reducible exact fun _ => Memory.wf_nil | intro _ | with_reducible apply State.withPzList_keeps
      | dsimp only | split

theorem State.scanRest_keeps {ft : Nat} {s₀ s : State} (id : Nat) (a : Alloc) (i : Nat) (n : Nat)
    (hp : 8724188162 &&& ft = 8724188162) (h : Keeps ft s₀ s) :
    Keeps ft s₀ (State.scanRest s id a i n) := by
  delta State.scanRest
  repeat' first
      | with_reducible assumption | exact Foot.sub hp rfl | intro _ | with_reducible apply State.pageMark_keeps
      | with_reducible apply State.setAlloc_keeps | dsimp only | split

theorem State.withdrawPort_keeps {ft : Nat} {s₀ s : State} (p : Nat) (hp : 8589934594 &&& ft = 8589934594)
    (h : Keeps ft s₀ s) :
    Keeps ft s₀ (State.withdrawPort s p) := by
  delta State.withdrawPort
  repeat' first
      | with_reducible assumption | exact Foot.sub hp rfl | intro _ | with_reducible apply State.pulse_keeps
      | with_reducible apply State.wr_keeps | with_reducible apply State.setBit_keeps
      | with_reducible apply Keeps.ite | dsimp only | split

theorem State.writeCmdGo_keeps {ft : Nat} {s₀ s : State}  (hp : 2 &&& ft = 2) (h : Keeps ft s₀ s) :
    Keeps ft s₀ (State.writeCmdGo s) := by
  delta State.writeCmdGo
  repeat' first
      | with_reducible assumption | exact Foot.sub hp rfl | intro _ | with_reducible apply State.setFlag_keeps
      | with_reducible apply Keeps.ite | dsimp only | split

theorem State.writeCmdReg_keeps {ft : Nat} {s₀ s : State} (f : Fld) (x : Nat) (hp : 2 &&& ft = 2) (h : Keeps ft s₀ s) :
    Keeps ft s₀ (State.writeCmdReg s f x) := by
  delta State.writeCmdReg
  repeat' first
      | with_reducible assumption | exact Foot.sub hp rfl | intro _ | with_reducible apply State.wr_keeps
      | with_reducible apply Keeps.ite | dsimp only | split

theorem State.writeRq_keeps {ft : Nat} {s₀ s : State} (p : Nat) (f : Fld) (x : Nat) (hp : 2 &&& ft = 2)
    (h : Keeps ft s₀ s) :
    Keeps ft s₀ (State.writeRq s p f x) := by
  delta State.writeRq
  repeat' first
      | with_reducible assumption | exact Foot.sub hp rfl | intro _ | with_reducible apply State.setBit_keeps
      | with_reducible apply State.wr_keeps | with_reducible apply Keeps.ite | dsimp only | split

theorem execAdmissionDecision_keeps {ft : Nat} {s₀ s : State} (hp : 8589935154 &&& ft = 8589935154)
    (h : Keeps ft s₀ s) :
    KeepsOut ft s₀ (execAdmissionDecision s) := by
  delta execAdmissionDecision
  repeat' first
      | with_reducible assumption | exact Foot.sub hp rfl | intro _ | with_reducible apply State.decideAll_keeps
      | with_reducible apply Keeps.ite | with_reducible apply KeepsOut.done | with_reducible apply KeepsOut.next
      | exact trivial | dsimp only | split

theorem execAlloc_keeps {ft : Nat} {s₀ s : State} (a : CalArgs) (hp : 94489283590 &&& ft = 94489283590)
    (h : Keeps ft s₀ s) :
    KeepsOut ft s₀ (execAlloc a s) := by
  delta execAlloc
  repeat' first
      | with_reducible assumption | exact Foot.sub hp rfl | intro _ | with_reducible apply State.calRun_keeps
      | with_reducible apply State.allocNew_keeps | with_reducible apply KeepsOut.done
      | with_reducible apply KeepsOut.next | exact trivial | dsimp only | split

theorem execCalCmdInvalid_keeps {ft : Nat} {s₀ s : State} (a : CalArgs) (hp : 25769803778 &&& ft = 25769803778)
    (h : Keeps ft s₀ s) :
    KeepsOut ft s₀ (execCalCmdInvalid a s) := by
  delta execCalCmdInvalid
  repeat' first
      | with_reducible assumption | exact Foot.sub hp rfl | intro _ | with_reducible apply State.calRun_keeps
      | with_reducible apply State.calEnd_keeps | with_reducible apply KeepsOut.done
      | with_reducible apply KeepsOut.next | exact trivial | dsimp only | split

theorem execCollRel_keeps {ft : Nat} {s₀ s : State} (p : ReqPort) (hp : 17179869186 &&& ft = 17179869186)
    (h : Keeps ft s₀ s) :
    KeepsOut ft s₀ (execCollRel p s) := by
  delta execCollRel
  repeat' first
      | with_reducible assumption | exact Foot.sub hp rfl | intro _ | with_reducible apply State.reach_keeps
      | with_reducible apply State.setBit_keeps | with_reducible apply KeepsOut.done
      | with_reducible apply KeepsOut.next | exact trivial | dsimp only | split

theorem execCreate_keeps {ft : Nat} {s₀ s : State} (a : CalArgs) (hp : 94489283590 &&& ft = 94489283590)
    (h : Keeps ft s₀ s) :
    KeepsOut ft s₀ (execCreate a s) := by
  delta execCreate
  repeat' first
      | with_reducible assumption | exact Foot.sub hp rfl | intro _ | with_reducible apply State.calRun_keeps
      | with_reducible apply State.create_keeps | with_reducible apply KeepsOut.done
      | with_reducible apply KeepsOut.next | exact trivial | dsimp only | split

theorem execDelete_keeps {ft : Nat} {s₀ s : State} (a : CalArgs) (hp : 25769806850 &&& ft = 25769806850)
    (h : Keeps ft s₀ s) :
    KeepsOut ft s₀ (execDelete a s) := by
  delta execDelete
  repeat' first
      | with_reducible assumption | exact Foot.sub hp rfl | intro _ | with_reducible apply State.calRun_keeps
      | with_reducible apply State.delete_keeps | with_reducible apply KeepsOut.done
      | with_reducible apply KeepsOut.next | exact trivial | dsimp only | split

theorem execFillComplete_keeps {ft : Nat} {s₀ s : State} (q : SeqId) (hp : 77443664918 &&& ft = 77443664918)
    (h : Keeps ft s₀ s) :
    KeepsOut ft s₀ (execFillComplete q s) := by
  delta execFillComplete
  repeat' first
      | with_reducible assumption | exact Foot.sub hp rfl | intro _ | with_reducible apply State.fill_keeps
      | with_reducible apply State.fillComplete_keeps | with_reducible apply Keeps.ite
      | with_reducible apply KeepsOut.done | with_reducible apply KeepsOut.next | exact trivial | dsimp only | split

theorem execPost_keeps {ft : Nat} {s₀ s : State} (p : ReqPort) (hp : 25769803778 &&& ft = 25769803778)
    (h : Keeps ft s₀ s) :
    KeepsOut ft s₀ (execPost p s) := by
  delta execPost
  repeat' first
      | with_reducible assumption | exact Foot.sub hp rfl | intro _ | with_reducible apply State.reach_keeps
      | with_reducible apply State.postPort_keeps | with_reducible apply KeepsOut.done
      | with_reducible apply KeepsOut.next | exact trivial | dsimp only | split

theorem execPzNext_keeps {ft : Nat} {s₀ s : State}  (hp : 17179901954 &&& ft = 17179901954) (h : Keeps ft s₀ s) :
    KeepsOut ft s₀ (execPzNext s) := by
  delta execPzNext
  repeat' first
      | with_reducible assumption | exact Foot.sub hp rfl | intro _ | with_reducible apply State.reach_keeps
      | with_reducible apply State.pzNext_keeps | with_reducible apply KeepsOut.done
      | with_reducible apply KeepsOut.next | exact trivial | dsimp only | split

theorem execPzOvfRel_keeps {ft : Nat} {s₀ s : State}  (hp : 17179869186 &&& ft = 17179869186) (h : Keeps ft s₀ s) :
    KeepsOut ft s₀ (execPzOvfRel s) := by
  delta execPzOvfRel
  repeat' first
      | with_reducible assumption | exact Foot.sub hp rfl | intro _ | with_reducible apply State.reach_keeps
      | with_reducible apply State.setFlag_keeps | with_reducible apply KeepsOut.done
      | with_reducible apply KeepsOut.next | exact trivial | dsimp only | split

theorem execQuery_keeps {ft : Nat} {s₀ s : State} (a : CalArgs) (hp : 25769803778 &&& ft = 25769803778)
    (h : Keeps ft s₀ s) :
    KeepsOut ft s₀ (execQuery a s) := by
  delta execQuery
  repeat' first
      | with_reducible assumption | exact Foot.sub hp rfl | intro _ | with_reducible apply State.calRun_keeps
      | with_reducible apply State.query_keeps | with_reducible apply KeepsOut.done
      | with_reducible apply KeepsOut.next | exact trivial | dsimp only | split

theorem execScanEnd_keeps {ft : Nat} {s₀ s : State} (id : Word) (hp : 8724188162 &&& ft = 8724188162)
    (h : Keeps ft s₀ s) :
    KeepsOut ft s₀ (execScanEnd id s) := by
  delta execScanEnd
  repeat' first
      | with_reducible assumption | exact Foot.sub hp rfl | intro _ | with_reducible apply State.scanRest_keeps
      | with_reducible apply Keeps.ite | with_reducible apply KeepsOut.done | with_reducible apply KeepsOut.next
      | exact trivial | dsimp only | split

theorem execSeal_keeps {ft : Nat} {s₀ s : State} (a : CalArgs) (hp : 25904057346 &&& ft = 25904057346)
    (h : Keeps ft s₀ s) :
    KeepsOut ft s₀ (execSeal a s) := by
  delta execSeal
  repeat' first
      | with_reducible assumption | exact Foot.sub hp rfl | intro _ | with_reducible apply State.calRun_keeps
      | with_reducible apply State.seal_keeps | with_reducible apply KeepsOut.done
      | with_reducible apply KeepsOut.next | exact trivial | dsimp only | split

theorem execWdraw_keeps {ft : Nat} {s₀ s : State} (p : ReqPort) (hp : 25769803778 &&& ft = 25769803778)
    (h : Keeps ft s₀ s) :
    KeepsOut ft s₀ (execWdraw p s) := by
  delta execWdraw
  repeat' first
      | with_reducible assumption | exact Foot.sub hp rfl | with_reducible exact id
      | with_reducible exact SMap.sorted_set _ _ _ | with_reducible exact SMap.sorted_put _ _
      | with_reducible exact SMap.sorted_del _ | with_reducible exact SMap.sorted_filter _
      | with_reducible exact Memory.wf_filter _ | with_reducible exact fun _ => SMap.sorted_nil
      | with_reducible exact fun _ => Memory.wf_nil | intro _ | with_reducible apply State.reach_keeps
      | with_reducible apply State.withdrawPort_keeps | with_reducible apply KeepsOut.done
      | with_reducible apply KeepsOut.next | exact trivial | dsimp only | split

theorem execZeroFillEnd_keeps {ft : Nat} {s₀ s : State} (id : Word) (hp : 77309414414 &&& ft = 77309414414)
    (h : Keeps ft s₀ s) :
    KeepsOut ft s₀ (execZeroFillEnd id s) := by
  delta execZeroFillEnd
  repeat' first
      | with_reducible assumption | exact Foot.sub hp rfl | intro _ | with_reducible apply State.setAlloc_keeps
      | with_reducible apply State.zeroFrom_keeps | with_reducible apply Keeps.ite
      | with_reducible apply KeepsOut.done | with_reducible apply KeepsOut.next | exact trivial | dsimp only | split
end Sys2Proof.Machine
end

