-- ==== Sys2Proof/Laws/KeepsDram.lean ====
section
/-! SUPPORT. Once for each: what the operations of Machine/Dram.lean keep: the parts of the
state they may change, and that the canonical form of the state survives them. -/

namespace Sys2Proof.Machine

theorem State.activate_keeps {ft : Nat} {s₀ s : State} (n : Nat) (r : Nat) (pa : Nat)
    (hp : 68719476740 &&& ft = 68719476740) (h : Keeps ft s₀ s) :
    Keeps ft s₀ (State.activate s n r pa) := by
  delta State.activate
  repeat' first
      | with_reducible assumption | exact Foot.sub hp rfl | intro _ | with_reducible apply State.setTab_keeps
      | with_reducible apply State.draw_keeps | with_reducible apply Keeps.ite | dsimp only | split

theorem State.payDebt_keeps {ft : Nat} {s₀ s : State} (n : Nat) (r : Nat) (hp : 2 &&& ft = 2) (h : Keeps ft s₀ s) :
    Keeps ft s₀ (State.payDebt s n r) := by
  delta State.payDebt
  repeat' first
      | with_reducible assumption | exact Foot.sub hp rfl | intro _ | with_reducible apply State.wr_keeps
      | dsimp only | split

theorem State.accessRank_keeps {ft : Nat} {s₀ s : State} (n : Nat) (r : Nat) (pa : Nat)
    (hp : 68719476742 &&& ft = 68719476742) (h : Keeps ft s₀ s) :
    Keeps ft s₀ (State.accessRank s n r pa) := by
  delta State.accessRank
  repeat' first
      | with_reducible assumption | exact Foot.sub hp rfl | intro _ | with_reducible apply State.activate_keeps
      | with_reducible apply State.payDebt_keeps | with_reducible apply State.setBit_keeps | dsimp only | split

theorem State.retire_keeps {ft : Nat} {s₀ s : State} (n : Nat) (r : Nat) (hp : 8589934594 &&& ft = 8589934594)
    (h : Keeps ft s₀ s) :
    Keeps ft s₀ (State.retire s n r) := by
  delta State.retire
  repeat' first
      | with_reducible assumption | exact Foot.sub hp rfl | intro _ | with_reducible apply State.pulse_keeps
      | with_reducible apply State.wr_keeps | with_reducible apply State.setFlag_keeps
      | with_reducible apply Keeps.ite | dsimp only | split

theorem State.autoRetire_keeps {ft : Nat} {s₀ s : State} (n : Nat) (hp : 8589934594 &&& ft = 8589934594)
    (h : Keeps ft s₀ s) :
    Keeps ft s₀ (State.autoRetire s n) := by
  delta State.autoRetire
  repeat' first
      | with_reducible assumption | exact Foot.sub hp rfl | intro _ | with_reducible apply State.forUpTo_keeps
      | with_reducible apply State.wr_keeps | with_reducible apply State.retire_keeps
      | with_reducible apply Keeps.ite | dsimp only | split

theorem State.nodeFails_keeps {ft : Nat} {s₀ s : State} (x : Nat × Nat) (hp : 131078 &&& ft = 131078)
    (h : Keeps ft s₀ s) :
    Keeps ft s₀ (State.nodeFails s x) := by
  delta State.nodeFails
  repeat' first
      | with_reducible assumption | exact Foot.sub hp rfl | with_reducible exact id
      | with_reducible exact SMap.sorted_set _ _ _ | with_reducible exact SMap.sorted_put _ _
      | with_reducible exact SMap.sorted_del _ | with_reducible exact SMap.sorted_filter _
      | with_reducible exact Memory.wf_filter _ | with_reducible exact fun _ => SMap.sorted_nil
      | with_reducible exact fun _ => Memory.wf_nil | intro _ | with_reducible apply State.setBit_keeps
      | with_reducible apply State.setWide_keeps | with_reducible apply State.withBadNodes_keeps
      | with_reducible apply Keeps.ite | with_reducible apply Keeps.foldl | dsimp only | split

theorem State.cacheFails_keeps {ft : Nat} {s₀ s : State} (pa : Nat) (x0 : Option (BitVec 4))
    (hp : 131078 &&& ft = 131078) (h : Keeps ft s₀ s) :
    Keeps ft s₀ (State.cacheFails s pa x0) := by
  delta State.cacheFails
  repeat' first
      | with_reducible assumption | exact Foot.sub hp rfl | intro _ | with_reducible apply State.nodeFails_keeps
      | with_reducible apply State.encCapture_keeps | with_reducible apply Keeps.ite | dsimp only | split

theorem State.correctedError_keeps {ft : Nat} {s₀ s : State} (pa : Nat) (r : Nat) (dev : Nat)
    (hp : 8589934598 &&& ft = 8589934598) (h : Keeps ft s₀ s) :
    Keeps ft s₀ (State.correctedError s pa r dev) := by
  delta State.correctedError
  repeat' first
      | with_reducible assumption | exact Foot.sub hp rfl | intro _ | with_reducible apply State.wr_keeps
      | with_reducible apply State.incSat_keeps | with_reducible apply State.ledgerInc_keeps
      | with_reducible apply State.autoRetire_keeps | with_reducible apply State.pulse_keeps | dsimp only | split

theorem State.uncorrectable_keeps {ft : Nat} {s₀ s : State} (key : Nat) (pa : Nat) (r : Nat) (kind : Nat)
    (hp : 77309411334 &&& ft = 77309411334) (h : Keeps ft s₀ s) :
    Keeps ft s₀ (State.uncorrectable s key pa r kind) := by
  delta State.uncorrectable
  repeat' first
      | with_reducible assumption | exact Foot.sub hp rfl | intro _ | with_reducible apply State.activate_keeps
      | with_reducible apply State.setWide_keeps | with_reducible apply State.ddrCapture_keeps
      | with_reducible apply State.incSat_keeps | with_reducible apply State.autoRetire_keeps
      | with_reducible apply State.pulse_keeps | with_reducible apply State.ledgerInc_keeps | dsimp only | split

theorem State.decodeRead_keeps {ft : Nat} {s₀ s : State} (key : Nat) (pa : Nat) (r : Nat) (kind : Nat)
    (errs : CodeErrors) (hp : 77309411334 &&& ft = 77309411334) (h : Keeps ft s₀ s) :
    Keeps ft s₀ (State.decodeRead s key pa r kind errs).1 := by
  delta State.decodeRead
  repeat' first
      | with_reducible assumption | exact Foot.sub hp rfl | intro _ | with_reducible apply State.correctedError_keeps
      | with_reducible apply State.activate_keeps | with_reducible apply State.pulse_keeps
      | with_reducible apply State.ddrCapture_keeps | with_reducible apply State.uncorrectable_keeps
      | with_reducible apply Keeps.ite | dsimp only | split

theorem State.copyLine_keeps {ft : Nat} {s₀ s : State} (n : Nat) (errs : CodeErrors)
    (hp : 77309411334 &&& ft = 77309411334) (h : Keeps ft s₀ s) :
    Keeps ft s₀ (State.copyLine s n errs) := by
  delta State.copyLine
  repeat' first
      | with_reducible assumption | exact Foot.sub hp rfl | intro _ | with_reducible apply State.decodeRead_keeps
      | with_reducible apply State.accessRank_keeps | with_reducible apply State.setWide_keeps
      | with_reducible apply State.wr_keeps | with_reducible apply State.setFlag_keeps
      | with_reducible apply Keeps.ite | with_reducible refine Keeps.of_fst (by assumption) ?_ | dsimp only | split

theorem State.ddrCapRel_keeps {ft : Nat} {s₀ s : State} (n : Nat) (hp : 2 &&& ft = 2) (h : Keeps ft s₀ s) :
    Keeps ft s₀ (State.ddrCapRel s n) := by
  delta State.ddrCapRel
  repeat' first
      | with_reducible assumption | exact Foot.sub hp rfl | intro _ | with_reducible apply State.wr_keeps
      | with_reducible apply State.setFlag_keeps | dsimp only | split

theorem State.issueWrite_keeps {ft : Nat} {s₀ s : State} (x : DramReq) (hp : 68719476742 &&& ft = 68719476742)
    (h : Keeps ft s₀ s) :
    Keeps ft s₀ (State.issueWrite s x) := by
  delta State.issueWrite
  repeat' first
      | with_reducible assumption | exact Foot.sub hp rfl | intro _ | with_reducible apply State.accessRank_keeps
      | dsimp only | split

theorem State.setDramQueue_keeps {ft : Nat} {s₀ s : State} (n : Nat) (u : Nat) (l : List DramReq)
    (hp : 4096 &&& ft = 4096) (h : Keeps ft s₀ s) :
    Keeps ft s₀ (State.setDramQueue s n u l) := by
  delta State.setDramQueue
  repeat' first
      | with_reducible assumption | exact Foot.sub hp rfl | with_reducible exact id
      | with_reducible exact SMap.sorted_set _ _ _ | with_reducible exact SMap.sorted_put _ _
      | with_reducible exact SMap.sorted_del _ | with_reducible exact SMap.sorted_filter _
      | with_reducible exact Memory.wf_filter _ | with_reducible exact fun _ => SMap.sorted_nil
      | with_reducible exact fun _ => Memory.wf_nil | intro _ | with_reducible apply State.withDramQ_keeps
      | dsimp only | split

theorem State.dramEnter_keeps {ft : Nat} {s₀ s : State} (x : DramReq) (hp : 4098 &&& ft = 4098) (h : Keeps ft s₀ s) :
    Keeps ft s₀ (State.dramEnter s x) := by
  delta State.dramEnter
  repeat' first
      | with_reducible assumption | exact Foot.sub hp rfl | intro _ | with_reducible apply State.setDramQueue_keeps
      | with_reducible apply State.setBit_keeps | dsimp only | split

theorem State.setDramWaiting_keeps {ft : Nat} {s₀ s : State} (n : Nat) (u : Nat) (l : List DramReq)
    (hp : 4096 &&& ft = 4096) (h : Keeps ft s₀ s) :
    Keeps ft s₀ (State.setDramWaiting s n u l) := by
  delta State.setDramWaiting
  repeat' first
      | with_reducible assumption | exact Foot.sub hp rfl | with_reducible exact id
      | with_reducible exact SMap.sorted_set _ _ _ | with_reducible exact SMap.sorted_put _ _
      | with_reducible exact SMap.sorted_del _ | with_reducible exact SMap.sorted_filter _
      | with_reducible exact Memory.wf_filter _ | with_reducible exact fun _ => SMap.sorted_nil
      | with_reducible exact fun _ => Memory.wf_nil | intro _ | with_reducible apply State.withDramQ_keeps
      | dsimp only | split

theorem State.dramAdmit_keeps {ft : Nat} {s₀ s : State} (n : Nat) (u : Nat) (hp : 4098 &&& ft = 4098)
    (h : Keeps ft s₀ s) :
    Keeps ft s₀ (State.dramAdmit s n u) := by
  delta State.dramAdmit
  repeat' first
      | with_reducible assumption | exact Foot.sub hp rfl | intro _ | with_reducible apply State.dramEnter_keeps
      | with_reducible apply State.setDramWaiting_keeps | with_reducible apply Keeps.ite
      | with_reducible apply Keeps.foldl | dsimp only | split

theorem State.subTick_keeps {ft : Nat} {s₀ s : State} (n : Nat) (u : Nat) (hp : 68719480838 &&& ft = 68719480838)
    (h : Keeps ft s₀ s) :
    Keeps ft s₀ (State.subTick s n u) := by
  delta State.subTick
  repeat' first
      | with_reducible assumption | exact Foot.sub hp rfl | intro _ | with_reducible apply State.issueWrite_keeps
      | with_reducible apply State.dramAdmit_keeps | with_reducible apply State.setDramQueue_keeps
      | with_reducible apply Keeps.foldl | dsimp only | split

theorem State.ddrTick_keeps {ft : Nat} {s₀ s : State} (n : Nat) (hp : 68719480838 &&& ft = 68719480838)
    (h : Keeps ft s₀ s) :
    Keeps ft s₀ (State.ddrTick s n) := by
  delta State.ddrTick
  repeat' first
      | with_reducible assumption | exact Foot.sub hp rfl | intro _ | with_reducible apply State.subTick_keeps
      | with_reducible apply State.payDebt_keeps | with_reducible apply Keeps.ite | with_reducible apply Keeps.foldl
      | dsimp only | split

theorem State.loadSpd_keeps {ft : Nat} {s₀ s : State} (n : Nat) (r : SpdReport) (hp : 4 &&& ft = 4)
    (h : Keeps ft s₀ s) :
    Keeps ft s₀ (State.loadSpd s n r) := by
  delta State.loadSpd
  repeat' first
      | with_reducible assumption | exact Foot.sub hp rfl | intro _ | with_reducible apply State.forUpTo_keeps
      | with_reducible apply State.setTab_keeps | with_reducible apply Keeps.ite | dsimp only | split

theorem State.markLine_keeps {ft : Nat} {s₀ s : State} (pa : Nat) (hp : 8724188162 &&& ft = 8724188162)
    (h : Keeps ft s₀ s) :
    Keeps ft s₀ (State.markLine s pa) := by
  delta State.markLine
  repeat' first
      | with_reducible assumption | exact Foot.sub hp rfl | intro _ | with_reducible apply State.tablePoison_keeps
      | with_reducible apply State.pageMark_keeps | with_reducible apply Keeps.ite | dsimp only | split

theorem State.metaFails_keeps {ft : Nat} {s₀ s : State} (pa : Nat) (x : Nat × Nat) (hit : Nat → Bool)
    (hp : 131078 &&& ft = 131078) (h : Keeps ft s₀ s) :
    Keeps ft s₀ (State.metaFails s pa x hit) := by
  delta State.metaFails
  repeat' first
      | with_reducible assumption | exact Foot.sub hp rfl | intro _ | with_reducible apply State.setWide_keeps
      | with_reducible apply State.storeGood_keeps | with_reducible apply State.nodeFails_keeps
      | with_reducible apply State.encCapture_keeps | with_reducible apply Keeps.ite
      | with_reducible apply Keeps.foldl | dsimp only | split | with_reducible apply Keeps.foldlP

theorem State.metaWrong_keeps {ft : Nat} {s₀ s : State} (pa : Nat) (x : Nat × Nat) (wrong : List Nat)
    (hp : 131078 &&& ft = 131078) (h : Keeps ft s₀ s) :
    Keeps ft s₀ (State.metaWrong s pa x wrong) := by
  delta State.metaWrong
  repeat' first
      | with_reducible assumption | exact Foot.sub hp rfl | intro _ | with_reducible apply State.metaFails_keeps
      | with_reducible apply Keeps.ite | dsimp only | split

theorem State.rankMode_keeps {ft : Nat} {s₀ s : State} (n : Nat) (r : Nat) (hot : Bool) (cool : Bool)
    (hp : 2 &&& ft = 2) (h : Keeps ft s₀ s) :
    Keeps ft s₀ (State.rankMode s n r hot cool) := by
  delta State.rankMode
  repeat' first
      | with_reducible assumption | exact Foot.sub hp rfl | intro _ | with_reducible apply State.wr_keeps
      | with_reducible apply State.setBit_keeps | with_reducible apply Keeps.ite | dsimp only | split

theorem State.verifyLine_keeps {ft : Nat} {s₀ s : State} (a : Alloc) (pa : Nat) (wrong : List Nat)
    (cache : Option (BitVec 4)) (hp : 68719607814 &&& ft = 68719607814) (h : Keeps ft s₀ s) :
    Keeps ft s₀ (State.verifyLine s a pa wrong cache) := by
  delta State.verifyLine
  repeat' first
      | with_reducible assumption | exact Foot.sub hp rfl | intro _ | with_reducible apply State.cacheFails_keeps
      | with_reducible apply State.setWide_keeps | with_reducible apply State.macFails_keeps
      | with_reducible apply State.cacheLine_keeps | with_reducible apply Keeps.ite | dsimp only | split

theorem State.readChecked_keeps {ft : Nat} {s₀ s : State} (pa : Nat) (o : ReadOut) (cache : Option (BitVec 4))
    (hp : 68719607814 &&& ft = 68719607814) (h : Keeps ft s₀ s) :
    Keeps ft s₀ (State.readChecked s pa o cache) := by
  delta State.readChecked
  repeat' first
      | with_reducible assumption | exact Foot.sub hp rfl | intro _ | with_reducible apply State.metaFails_keeps
      | with_reducible apply State.metaWrong_keeps | with_reducible apply State.verifyLine_keeps
      | with_reducible apply Keeps.ite | dsimp only | split

theorem State.refuseChannel_keeps {ft : Nat} {s₀ s : State} (n : Nat) (reason : Nat) (ranks : Nat) (hp : 2 &&& ft = 2)
    (h : Keeps ft s₀ s) :
    Keeps ft s₀ (State.refuseChannel s n reason ranks) := by
  delta State.refuseChannel
  repeat' first
      | with_reducible assumption | exact Foot.sub hp rfl | intro _ | with_reducible apply State.wr_keeps
      | with_reducible apply State.setFlag_keeps | dsimp only | split

theorem State.selfRefresh_keeps {ft : Nat} {s₀ s : State} (n : Nat) (hp : 2 &&& ft = 2) (h : Keeps ft s₀ s) :
    Keeps ft s₀ (State.selfRefresh s n) := by
  delta State.selfRefresh
  repeat' first
      | with_reducible assumption | exact Foot.sub hp rfl | intro _ | with_reducible apply State.wr_keeps
      | dsimp only | split

theorem State.showSpd_keeps {ft : Nat} {s₀ s : State} (n : Nat) (r : SpdReport) (hp : 2 &&& ft = 2)
    (h : Keeps ft s₀ s) :
    Keeps ft s₀ (State.showSpd s n r) := by
  delta State.showSpd
  repeat' first
      | with_reducible assumption | exact Foot.sub hp rfl | intro _ | with_reducible apply State.wr_keeps
      | with_reducible apply State.setFlag_keeps | dsimp only | split

theorem execCeWindowAge_keeps {ft : Nat} {s₀ s : State} (dc : DcId) (rank : Fin 4) (n : Word)
    (hp : 8589934594 &&& ft = 8589934594) (h : Keeps ft s₀ s) :
    KeepsOut ft s₀ (execCeWindowAge dc rank n s) := by
  delta execCeWindowAge
  repeat' first
      | with_reducible assumption | exact Foot.sub hp rfl | intro _ | with_reducible apply State.autoRetire_keeps
      | with_reducible apply State.wr_keeps | with_reducible apply KeepsOut.done | with_reducible apply KeepsOut.next
      | exact trivial | dsimp only | split

theorem execChannelResumed_keeps {ft : Nat} {s₀ s : State} (dc : DcId) (failed : BitVec 4) (hp : 2 &&& ft = 2)
    (h : Keeps ft s₀ s) :
    KeepsOut ft s₀ (execChannelResumed dc failed s) := by
  delta execChannelResumed
  repeat' first
      | with_reducible assumption | exact Foot.sub hp rfl | intro _ | with_reducible apply State.wr_keeps
      | with_reducible apply State.setFlag_keeps | with_reducible apply State.refuseChannel_keeps
      | with_reducible apply Keeps.ite | with_reducible apply KeepsOut.done | with_reducible apply KeepsOut.next
      | exact trivial | dsimp only | split

theorem execChannelTrained_keeps {ft : Nat} {s₀ s : State} (dc : DcId) (r : SpdReport) (hp : 6 &&& ft = 6)
    (h : Keeps ft s₀ s) :
    KeepsOut ft s₀ (execChannelTrained dc r s) := by
  delta execChannelTrained
  repeat' first
      | with_reducible assumption | exact Foot.sub hp rfl | intro _ | with_reducible apply State.loadSpd_keeps
      | with_reducible apply State.showSpd_keeps | with_reducible apply State.refuseChannel_keeps
      | with_reducible apply State.setFlag_keeps | with_reducible apply Keeps.ite
      | with_reducible apply KeepsOut.done | with_reducible apply KeepsOut.next | exact trivial | dsimp only | split

theorem execDdrCapRel_keeps {ft : Nat} {s₀ s : State} (dc : DcId) (hp : 17179869186 &&& ft = 17179869186)
    (h : Keeps ft s₀ s) :
    KeepsOut ft s₀ (execDdrCapRel dc s) := by
  delta execDdrCapRel
  repeat' first
      | with_reducible assumption | exact Foot.sub hp rfl | intro _ | with_reducible apply State.reach_keeps
      | with_reducible apply State.ddrCapRel_keeps | with_reducible apply KeepsOut.done
      | with_reducible apply KeepsOut.next | exact trivial | dsimp only | split

theorem execDramReadDecode_keeps {ft : Nat} {s₀ s : State} (pa : BitVec 44) (errs : CodeErrors)
    (cache : Option (BitVec 4)) (hp : 77443800070 &&& ft = 77443800070) (h : Keeps ft s₀ s) :
    KeepsOut ft s₀ (execDramReadDecode pa errs cache s) := by
  delta execDramReadDecode
  repeat' first
      | with_reducible assumption | exact Foot.sub hp rfl | intro _ | with_reducible apply State.dramAdmit_keeps
      | with_reducible apply State.setDramQueue_keeps | with_reducible apply State.decodeRead_keeps
      | with_reducible apply State.accessRank_keeps | with_reducible apply State.readChecked_keeps
      | with_reducible apply State.markLine_keeps | with_reducible apply Keeps.ite
      | with_reducible apply KeepsOut.done | with_reducible apply KeepsOut.next | exact trivial
      | with_reducible refine Keeps.of_fst (by assumption) ?_ | dsimp only | split

theorem execDramRequest_keeps {ft : Nat} {s₀ s : State} (pa : BitVec 44) (write : Bool) (hp : 4098 &&& ft = 4098)
    (h : Keeps ft s₀ s) :
    KeepsOut ft s₀ (execDramRequest pa write s) := by
  delta execDramRequest
  repeat' first
      | with_reducible assumption | exact Foot.sub hp rfl | intro _ | with_reducible apply State.dramEnter_keeps
      | with_reducible apply State.setDramWaiting_keeps | with_reducible apply Keeps.ite
      | with_reducible apply KeepsOut.done | with_reducible apply KeepsOut.next | exact trivial | dsimp only | split

theorem execIdleSelfRefresh_keeps {ft : Nat} {s₀ s : State} (dc : DcId) (rank : Fin 4) (hp : 2 &&& ft = 2)
    (h : Keeps ft s₀ s) :
    KeepsOut ft s₀ (execIdleSelfRefresh dc rank s) := by
  delta execIdleSelfRefresh
  repeat' first
      | with_reducible assumption | exact Foot.sub hp rfl | intro _ | with_reducible apply State.setBit_keeps
      | with_reducible apply Keeps.ite | with_reducible apply KeepsOut.done | with_reducible apply KeepsOut.next
      | exact trivial | dsimp only | split

theorem execMigrationCopy_keeps {ft : Nat} {s₀ s : State} (dc : DcId) (errs : CodeErrors)
    (hp : 77309411334 &&& ft = 77309411334) (h : Keeps ft s₀ s) :
    KeepsOut ft s₀ (execMigrationCopy dc errs s) := by
  delta execMigrationCopy
  repeat' first
      | with_reducible assumption | exact Foot.sub hp rfl | intro _ | with_reducible apply State.copyLine_keeps
      | with_reducible apply Keeps.ite | with_reducible apply KeepsOut.done | with_reducible apply KeepsOut.next
      | exact trivial | dsimp only | split

theorem execRedirectionSetupEnd_keeps {ft : Nat} {s₀ s : State} (dc : DcId) (good : Bool)
    (hp : 8589938694 &&& ft = 8589938694) (h : Keeps ft s₀ s) :
    KeepsOut ft s₀ (execRedirectionSetupEnd dc good s) := by
  delta execRedirectionSetupEnd
  repeat' first
      | with_reducible assumption | exact Foot.sub hp rfl | intro _ | with_reducible apply State.setFlag_keeps
      | with_reducible apply State.ledgerInc_keeps | with_reducible apply State.wr_keeps
      | with_reducible apply State.pulse_keeps | with_reducible apply State.dramAdmit_keeps
      | with_reducible apply Keeps.ite | with_reducible apply KeepsOut.done | with_reducible apply KeepsOut.next
      | exact trivial | dsimp only | split

theorem execRefab_keeps {ft : Nat} {s₀ s : State} (dc : DcId) (rank : Fin 4) (postpone : Bool) (hp : 2 &&& ft = 2)
    (h : Keeps ft s₀ s) :
    KeepsOut ft s₀ (execRefab dc rank postpone s) := by
  delta execRefab
  repeat' first
      | with_reducible assumption | exact Foot.sub hp rfl | intro _ | with_reducible apply State.wr_keeps
      | with_reducible apply Keeps.ite | with_reducible apply KeepsOut.done | with_reducible apply KeepsOut.next
      | exact trivial | dsimp only | split

theorem execRetire_keeps {ft : Nat} {s₀ s : State} (dc : DcId) (hp : 25769803778 &&& ft = 25769803778)
    (h : Keeps ft s₀ s) :
    KeepsOut ft s₀ (execRetire dc s) := by
  delta execRetire
  repeat' first
      | with_reducible assumption | exact Foot.sub hp rfl | intro _ | with_reducible apply State.reach_keeps
      | with_reducible apply State.retire_keeps | with_reducible apply KeepsOut.done
      | with_reducible apply KeepsOut.next | exact trivial | dsimp only | split

theorem execThermalPoll_keeps {ft : Nat} {s₀ s : State} (dc : DcId) (t0 : BitVec 8) (t1 : BitVec 8) (mr4 : BitVec 4)
    (hp : 2 &&& ft = 2) (h : Keeps ft s₀ s) :
    KeepsOut ft s₀ (execThermalPoll dc t0 t1 mr4 s) := by
  delta execThermalPoll
  repeat' first
      | with_reducible assumption | exact Foot.sub hp rfl | intro _ | with_reducible apply State.rankMode_keeps
      | with_reducible apply State.setFlag_keeps | with_reducible apply State.wr_keeps
      | with_reducible apply Keeps.ite | with_reducible apply Keeps.foldl | with_reducible apply KeepsOut.done
      | with_reducible apply KeepsOut.next | exact trivial | dsimp only | split
end Sys2Proof.Machine
end

