-- ==== Sys2Proof/Laws/KeepsCrypt.lean ====
section
/-! SUPPORT. Once for each: what the operations of Machine/Crypt.lean keep: the parts of the
state they may change, and that the canonical form of the state survives them. -/

namespace Sys2Proof.Machine

theorem State.encCapRel_keeps {ft : Nat} {s₀ s : State}  (hp : 2 &&& ft = 2) (h : Keeps ft s₀ s) :
    Keeps ft s₀ (State.encCapRel s) := by
  delta State.encCapRel
  repeat' first
      | with_reducible assumption | exact Foot.sub hp rfl | intro _ | with_reducible apply State.wr_keeps
      | with_reducible apply State.setFlag_keeps | dsimp only | split

theorem State.kwDo_keeps {ft : Nat} {s₀ s : State} (a : KwArgs) (ops : List Nat) (f : State → KwCmd → State)
    (hp : 2 &&& ft = 2) (h : Keeps ft s₀ s) (h_f : ∀ s a0, Keeps ft s₀ s → Keeps ft s₀ (f s a0)) :
    Keeps ft s₀ (State.kwDo s a ops f) := by
  delta State.kwDo
  repeat' first
      | with_reducible assumption | exact Foot.sub hp rfl | intro _ | with_reducible apply State.setFlag_keeps
      | with_reducible apply h_f | with_reducible apply Keeps.ite | dsimp only | split

theorem State.kwEnd_keeps {ft : Nat} {s₀ s : State} (a : KwArgs) (code : Nat) (hp : 2 &&& ft = 2) (h : Keeps ft s₀ s) :
    Keeps ft s₀ (State.kwEnd s a code) := by
  delta State.kwEnd
  repeat' first
      | with_reducible assumption | exact Foot.sub hp rfl | intro _ | with_reducible apply State.wr_keeps
      | with_reducible apply State.forUpTo_keeps | dsimp only | split

theorem State.kwErase_keeps {ft : Nat} {s₀ s : State} (a : KwArgs) (c : KwCmd) (hp : 2 &&& ft = 2)
    (h : Keeps ft s₀ s) :
    Keeps ft s₀ (State.kwErase s a c) := by
  delta State.kwErase
  repeat' first
      | with_reducible assumption | exact Foot.sub hp rfl | intro _ | with_reducible apply State.kwEnd_keeps
      | with_reducible apply State.wr_keeps | with_reducible apply State.setBit_keeps
      | with_reducible apply Keeps.ite | dsimp only | split

theorem State.kwLoad_keeps {ft : Nat} {s₀ s : State} (a : KwArgs) (c : KwCmd) (hp : 2 &&& ft = 2) (h : Keeps ft s₀ s) :
    Keeps ft s₀ (State.kwLoad s a c) := by
  delta State.kwLoad
  repeat' first
      | with_reducible assumption | exact Foot.sub hp rfl | intro _ | with_reducible apply State.kwEnd_keeps
      | with_reducible apply State.wr_keeps | with_reducible apply State.setBit_keeps
      | with_reducible apply Keeps.ite | dsimp only | split

theorem State.kwRegs_keeps {ft : Nat} {s₀ s : State}  (hp : 2 &&& ft = 2) (h : Keeps ft s₀ s) :
    Keeps ft s₀ (State.kwRegs s) := by
  delta State.kwRegs
  repeat' first
      | with_reducible assumption | exact Foot.sub hp rfl | intro _ | with_reducible apply State.kwDo_keeps
      | with_reducible apply State.kwLoad_keeps | with_reducible apply State.kwErase_keeps
      | with_reducible apply State.kwEnd_keeps | dsimp only | split

theorem State.kwRun_keeps {ft : Nat} {s₀ s : State} (a : KwArgs) (ops : List Nat) (f : State → KwCmd → State)
    (hp : 17179869186 &&& ft = 17179869186) (h : Keeps ft s₀ s) (h_f : ∀ s a0, Keeps ft s₀ s → Keeps ft s₀ (f s a0)) :
    Keeps ft s₀ (State.kwRun s a ops f) := by
  delta State.kwRun
  repeat' first
      | with_reducible assumption | exact Foot.sub hp rfl | intro _ | with_reducible apply State.kwDo_keeps
      | with_reducible apply State.reach_keeps | with_reducible apply h_f | with_reducible apply Keeps.ite
      | dsimp only | split

theorem State.kwTick_keeps {ft : Nat} {s₀ s : State}  (hp : 2 &&& ft = 2) (h : Keeps ft s₀ s) :
    Keeps ft s₀ (State.kwTick s) := by
  delta State.kwTick
  repeat' first
      | with_reducible assumption | exact Foot.sub hp rfl | intro _ | with_reducible apply State.kwRegs_keeps
      | with_reducible apply Keeps.ite | dsimp only | split

theorem State.lineApply_keeps {ft : Nat} {s₀ s : State} (w : HeldWrite) (bad : Nat)
    (hp : 77309414414 &&& ft = 77309414414) (h : Keeps ft s₀ s) :
    Keeps ft s₀ (State.lineApply s w bad) := by
  delta State.lineApply
  repeat' first
      | with_reducible assumption | exact Foot.sub hp rfl | intro _ | with_reducible apply State.readBad_keeps
      | with_reducible apply State.objWrite_keeps | with_reducible apply State.allocWrite_keeps
      | with_reducible apply Keeps.ite | with_reducible apply Keeps.getD | with_reducible apply KeepsOpt.some
      | exact KeepsOpt.none | with_reducible refine Keeps.of_some (by assumption) ?_ | dsimp only | split

theorem State.lineWrite_keeps {ft : Nat} {s₀ s : State} (w : HeldWrite) (bad : Nat)
    (hp : 77309422606 &&& ft = 77309422606) (h : Keeps ft s₀ s) :
    Keeps ft s₀ (State.lineWrite s w bad) := by
  delta State.lineWrite
  repeat' first
      | with_reducible assumption | exact Foot.sub hp rfl | with_reducible exact id
      | with_reducible exact SMap.sorted_set _ _ _ | with_reducible exact SMap.sorted_put _ _
      | with_reducible exact SMap.sorted_del _ | with_reducible exact SMap.sorted_filter _
      | with_reducible exact Memory.wf_filter _ | with_reducible exact fun _ => SMap.sorted_nil
      | with_reducible exact fun _ => Memory.wf_nil | intro _ | with_reducible apply State.withLineQ_keeps
      | with_reducible apply State.lineApply_keeps | with_reducible apply Keeps.ite | dsimp only | split

theorem State.missPage_keeps {ft : Nat} {s₀ s : State} (p : Nat) (hp : 4 &&& ft = 4) (h : Keeps ft s₀ s) :
    Keeps ft s₀ (State.missPage s p) := by
  delta State.missPage
  repeat' first
      | with_reducible assumption | exact Foot.sub hp rfl | intro _ | with_reducible apply State.forUpTo_keeps
      | with_reducible apply State.setWide_keeps | with_reducible apply Keeps.ite | dsimp only | split

theorem State.rebuildCtr_keeps {ft : Nat} {s₀ s : State} (x : Nat × Nat) (hp : 68719476742 &&& ft = 68719476742)
    (h : Keeps ft s₀ s) :
    Keeps ft s₀ (State.rebuildCtr s x) := by
  delta State.rebuildCtr
  repeat' first
      | with_reducible assumption | exact Foot.sub hp rfl | intro _ | with_reducible apply State.setWide_keeps
      | with_reducible apply State.wr_keeps | with_reducible apply State.draw_keeps | dsimp only | split

theorem State.rebuildPage_keeps {ft : Nat} {s₀ s : State} (p : Nat) (hp : 68719476742 &&& ft = 68719476742)
    (h : Keeps ft s₀ s) :
    Keeps ft s₀ (State.rebuildPage s p) := by
  delta State.rebuildPage
  repeat' first
      | with_reducible assumption | exact Foot.sub hp rfl | intro _ | with_reducible apply State.forUpTo_keeps
      | with_reducible apply State.wr_keeps | with_reducible apply State.setWide_keeps
      | with_reducible apply State.draw_keeps | with_reducible apply Keeps.ite | dsimp only | split

theorem State.rebuildLine_keeps {ft : Nat} {s₀ s : State} (x : Nat × Nat) (hp : 4 &&& ft = 4) (h : Keeps ft s₀ s) :
    Keeps ft s₀ (State.rebuildLine s x) := by
  delta State.rebuildLine
  repeat' first
      | with_reducible assumption | exact Foot.sub hp rfl | intro _ | with_reducible apply State.cacheIn_keeps
      | with_reducible apply State.storeGood_keeps | dsimp only | split

theorem State.rebuild_keeps {ft : Nat} {s₀ s : State} (nd : Nat × Nat) (hp : 68719476742 &&& ft = 68719476742)
    (h : Keeps ft s₀ s) :
    Keeps ft s₀ (State.rebuild s nd) := by
  delta State.rebuild
  repeat' first
      | with_reducible assumption | exact Foot.sub hp rfl | intro _ | with_reducible apply State.rebuildCtr_keeps
      | with_reducible apply State.rebuildPage_keeps | with_reducible apply State.rebuildLine_keeps
      | with_reducible apply Keeps.foldl | dsimp only | split | with_reducible apply Keeps.foldlP

theorem State.rebuildStep_keeps {ft : Nat} {s₀ s : State} (hp : 68719607814 &&& ft = 68719607814)
    (h : Keeps ft s₀ s) :
    Keeps ft s₀ (State.rebuildStep s) := by
  delta State.rebuildStep
  repeat' first
      | with_reducible assumption | exact Foot.sub hp rfl | with_reducible exact id
      | with_reducible exact SMap.sorted_set _ _ _ | with_reducible exact SMap.sorted_put _ _
      | with_reducible exact SMap.sorted_del _ | with_reducible exact SMap.sorted_filter _
      | with_reducible exact Memory.wf_filter _ | with_reducible exact fun _ => SMap.sorted_nil
      | with_reducible exact fun _ => Memory.wf_nil | intro _ | with_reducible apply State.rebuild_keeps
      | with_reducible apply State.withBadNodes_keeps | dsimp only | split

theorem State.rekeyLines_keeps {ft : Nat} {s₀ s : State} (key : Nat) (p : Nat) (bad : Nat)
    (hp : 77309411334 &&& ft = 77309411334) (h : Keeps ft s₀ s) :
    Keeps ft s₀ (State.rekeyLines s key p bad) := by
  delta State.rekeyLines
  repeat' first
      | with_reducible assumption | exact Foot.sub hp rfl | intro _ | with_reducible apply State.setWide_keeps
      | with_reducible apply State.rewriteLines_keeps | with_reducible apply State.missPage_keeps
      | with_reducible apply Keeps.ite | dsimp only | split

theorem State.rekeyStart_keeps {ft : Nat} {s₀ s : State}  (hp : 2 &&& ft = 2) (h : Keeps ft s₀ s) :
    Keeps ft s₀ (State.rekeyStart s) := by
  delta State.rekeyStart
  repeat' first
      | with_reducible assumption | exact Foot.sub hp rfl | intro _ | with_reducible apply State.setFlag_keeps
      | with_reducible apply State.wr_keeps | with_reducible apply State.inc_keeps
      | with_reducible apply State.setBit_keeps | dsimp only | split

theorem State.rekeyStep_keeps {ft : Nat} {s₀ s : State} (bad : Nat) (hp : 77309411334 &&& ft = 77309411334)
    (h : Keeps ft s₀ s) :
    Keeps ft s₀ (State.rekeyStep s bad) := by
  delta State.rekeyStep
  repeat' first
      | with_reducible assumption | exact Foot.sub hp rfl | intro _ | with_reducible apply State.setFlag_keeps
      | with_reducible apply State.wr_keeps | with_reducible apply State.rekeyLines_keeps
      | with_reducible apply Keeps.ite | dsimp only | split

theorem State.rkreq_keeps {ft : Nat} {s₀ s : State} (k : Nat) (hp : 2 &&& ft = 2) (h : Keeps ft s₀ s) :
    Keeps ft s₀ (State.rkreq s k) := by
  delta State.rkreq
  repeat' first
      | with_reducible assumption | exact Foot.sub hp rfl | intro _ | with_reducible apply State.setBit_keeps
      | with_reducible apply Keeps.ite | dsimp only | split

theorem State.serveLines_keeps {ft : Nat} {s₀ s : State}  (hp : 77309422606 &&& ft = 77309422606) (h : Keeps ft s₀ s) :
    Keeps ft s₀ (State.serveLines s) := by
  delta State.serveLines
  repeat' first
      | with_reducible assumption | exact Foot.sub hp rfl | with_reducible exact id
      | with_reducible exact SMap.sorted_set _ _ _ | with_reducible exact SMap.sorted_put _ _
      | with_reducible exact SMap.sorted_del _ | with_reducible exact SMap.sorted_filter _
      | with_reducible exact Memory.wf_filter _ | with_reducible exact fun _ => SMap.sorted_nil
      | with_reducible exact fun _ => Memory.wf_nil | intro _ | with_reducible apply State.lineWrite_keeps
      | with_reducible apply State.withLineQ_keeps | with_reducible apply Keeps.foldl | dsimp only | split

theorem State.writeKwGo_keeps {ft : Nat} {s₀ s : State}  (hp : 2 &&& ft = 2) (h : Keeps ft s₀ s) :
    Keeps ft s₀ (State.writeKwGo s) := by
  delta State.writeKwGo
  repeat' first
      | with_reducible assumption | exact Foot.sub hp rfl | intro _ | with_reducible apply State.setFlag_keeps
      | dsimp only | split

theorem State.writeKwReg_keeps {ft : Nat} {s₀ s : State} (f : Fld) (x : Nat) (hp : 2 &&& ft = 2) (h : Keeps ft s₀ s) :
    Keeps ft s₀ (State.writeKwReg s f x) := by
  delta State.writeKwReg
  repeat' first
      | with_reducible assumption | exact Foot.sub hp rfl | intro _ | with_reducible apply State.wr_keeps
      | with_reducible apply Keeps.ite | dsimp only | split

theorem execEncCapRel_keeps {ft : Nat} {s₀ s : State}  (hp : 17179869186 &&& ft = 17179869186) (h : Keeps ft s₀ s) :
    KeepsOut ft s₀ (execEncCapRel s) := by
  delta execEncCapRel
  repeat' first
      | with_reducible assumption | exact Foot.sub hp rfl | intro _ | with_reducible apply State.reach_keeps
      | with_reducible apply State.encCapRel_keeps | with_reducible apply KeepsOut.done
      | with_reducible apply KeepsOut.next | exact trivial | dsimp only | split

theorem execKwErase_keeps {ft : Nat} {s₀ s : State} (a : KwArgs) (hp : 17179869186 &&& ft = 17179869186)
    (h : Keeps ft s₀ s) :
    KeepsOut ft s₀ (execKwErase a s) := by
  delta execKwErase
  repeat' first
      | with_reducible assumption | exact Foot.sub hp rfl | intro _ | with_reducible apply State.kwRun_keeps
      | with_reducible apply State.kwErase_keeps | with_reducible apply KeepsOut.done
      | with_reducible apply KeepsOut.next | exact trivial | dsimp only | split

theorem execKwInvalid_keeps {ft : Nat} {s₀ s : State} (a : KwArgs) (hp : 17179869186 &&& ft = 17179869186)
    (h : Keeps ft s₀ s) :
    KeepsOut ft s₀ (execKwInvalid a s) := by
  delta execKwInvalid
  repeat' first
      | with_reducible assumption | exact Foot.sub hp rfl | intro _ | with_reducible apply State.kwRun_keeps
      | with_reducible apply State.kwEnd_keeps | with_reducible apply KeepsOut.done
      | with_reducible apply KeepsOut.next | exact trivial | dsimp only | split

theorem execKwLoad_keeps {ft : Nat} {s₀ s : State} (a : KwArgs) (hp : 17179869186 &&& ft = 17179869186)
    (h : Keeps ft s₀ s) :
    KeepsOut ft s₀ (execKwLoad a s) := by
  delta execKwLoad
  repeat' first
      | with_reducible assumption | exact Foot.sub hp rfl | intro _ | with_reducible apply State.kwRun_keeps
      | with_reducible apply State.kwLoad_keeps | with_reducible apply KeepsOut.done
      | with_reducible apply KeepsOut.next | exact trivial | dsimp only | split

theorem execNodeRebuild_keeps {ft : Nat} {s₀ s : State}  (hp : 68719607814 &&& ft = 68719607814) (h : Keeps ft s₀ s) :
    KeepsOut ft s₀ (execNodeRebuild s) := by
  delta execNodeRebuild
  repeat' first
      | with_reducible assumption | exact Foot.sub hp rfl | intro _ | with_reducible apply State.rebuildStep_keeps
      | with_reducible apply Keeps.ite | with_reducible apply KeepsOut.done | with_reducible apply KeepsOut.next
      | exact trivial | dsimp only | split

theorem execPartialWrite_keeps {ft : Nat} {s₀ s : State} (id : Word) (off : BitVec 36) (data : List Byte)
    (bad : BitVec 64) (hp : 77309422606 &&& ft = 77309422606) (h : Keeps ft s₀ s) :
    KeepsOut ft s₀ (execPartialWrite id off data s bad) := by
  delta execPartialWrite
  repeat' first
      | with_reducible assumption | exact Foot.sub hp rfl | intro _ | with_reducible apply State.lineWrite_keeps
      | with_reducible apply Keeps.ite | with_reducible apply KeepsOut.done | with_reducible apply KeepsOut.next
      | exact trivial | dsimp only | split

theorem execRekeyPage_keeps {ft : Nat} {s₀ s : State} (bad : BitVec 64) (hp : 77309411334 &&& ft = 77309411334)
    (h : Keeps ft s₀ s) :
    KeepsOut ft s₀ (execRekeyPage s bad) := by
  delta execRekeyPage
  repeat' first
      | with_reducible assumption | exact Foot.sub hp rfl | intro _ | with_reducible apply State.rekeyStep_keeps
      | with_reducible apply Keeps.ite | with_reducible apply KeepsOut.done | with_reducible apply KeepsOut.next
      | exact trivial | dsimp only | split

theorem execRekeyWalkStart_keeps {ft : Nat} {s₀ s : State}  (hp : 2 &&& ft = 2) (h : Keeps ft s₀ s) :
    KeepsOut ft s₀ (execRekeyWalkStart s) := by
  delta execRekeyWalkStart
  repeat' first
      | with_reducible assumption | exact Foot.sub hp rfl | intro _ | with_reducible apply State.rekeyStart_keeps
      | with_reducible apply Keeps.ite | with_reducible apply KeepsOut.done | with_reducible apply KeepsOut.next
      | exact trivial | dsimp only | split

theorem execRkreq_keeps {ft : Nat} {s₀ s : State} (k : Fin 16) (hp : 17179869186 &&& ft = 17179869186)
    (h : Keeps ft s₀ s) :
    KeepsOut ft s₀ (execRkreq k s) := by
  delta execRkreq
  repeat' first
      | with_reducible assumption | exact Foot.sub hp rfl | intro _ | with_reducible apply State.reach_keeps
      | with_reducible apply State.rkreq_keeps | with_reducible apply KeepsOut.done
      | with_reducible apply KeepsOut.next | exact trivial | dsimp only | split

theorem execWholeLineWrite_keeps {ft : Nat} {s₀ s : State} (id : Word) (line : BitVec 30) (data : BitVec 512)
    (bad : BitVec 64) (hp : 77309422606 &&& ft = 77309422606) (h : Keeps ft s₀ s) :
    KeepsOut ft s₀ (execWholeLineWrite id line data s bad) := by
  delta execWholeLineWrite
  repeat' first
      | with_reducible assumption | exact Foot.sub hp rfl | intro _ | with_reducible apply State.lineWrite_keeps
      | with_reducible apply KeepsOut.done | with_reducible apply KeepsOut.next | exact trivial | dsimp only | split
end Sys2Proof.Machine
end

