-- ==== Sys2Proof/Laws/KeepsMfp.lean ====
section
/-! SUPPORT. Once for each: what the operations of Machine/Mfp.lean keep: the parts of the
state they may change, and that the canonical form of the state survives them. -/

namespace Sys2Proof.Machine

theorem State.apRead_keeps {ft : Nat} {s₀ s : State} (w : Option (Nat × Nat × Bool)) (size : Nat)
    (hp : 8724188162 &&& ft = 8724188162) (h : Keeps ft s₀ s) :
    Keeps ft s₀ (State.apRead s w size).1 := by
  delta State.apRead
  repeat' first
      | with_reducible assumption | exact Foot.sub hp rfl | intro _ | with_reducible apply State.markPoison_keeps
      | with_reducible apply Keeps.ite | dsimp only | split

theorem State.apWrite_keeps {ft : Nat} {s₀ s : State} (w : Option (Nat × Nat × Bool)) (size : Nat) (v : Nat)
    (hp : 77309414414 &&& ft = 77309414414) (h : Keeps ft s₀ s) :
    KeepsOpt ft s₀ (State.apWrite s w size v) := by
  delta State.apWrite
  repeat' first
      | with_reducible assumption | exact Foot.sub hp rfl | intro _ | with_reducible apply State.objWrite_keeps
      | with_reducible apply State.allocWrite_keeps | with_reducible apply Keeps.ite
      | with_reducible apply KeepsOpt.some | exact KeepsOpt.none
      | with_reducible refine Keeps.of_some (by assumption) ?_ | dsimp only | split

theorem State.setCore_keeps {ft : Nat} {s₀ s : State} (n : Nat) (c : MfpCore) (hp : 262144 &&& ft = 262144)
    (h : Keeps ft s₀ s) :
    Keeps ft s₀ (State.setCore s n c) := by
  delta State.setCore
  repeat' first
      | with_reducible assumption | exact Foot.sub hp rfl | with_reducible exact id
      | with_reducible exact SMap.sorted_set _ _ _ | with_reducible exact SMap.sorted_put _ _
      | with_reducible exact SMap.sorted_del _ | with_reducible exact SMap.sorted_filter _
      | with_reducible exact Memory.wf_filter _ | with_reducible exact fun _ => SMap.sorted_nil
      | with_reducible exact fun _ => Memory.wf_nil | intro _ | with_reducible apply State.withCores_keeps
      | dsimp only | split

theorem State.updCore_keeps {ft : Nat} {s₀ s : State} (n : Nat) (f : MfpCore → MfpCore) (hp : 262144 &&& ft = 262144)
    (h : Keeps ft s₀ s) :
    Keeps ft s₀ (State.updCore s n f) := by
  delta State.updCore
  repeat' first
      | with_reducible assumption | exact Foot.sub hp rfl | intro _ | with_reducible apply State.setCore_keeps
      | with_reducible apply h_f | dsimp only | split

theorem State.breakRes_keeps {ft : Nat} {s₀ s : State} (n : Nat) (key : Nat) (len : Nat) (hp : 262144 &&& ft = 262144)
    (h : Keeps ft s₀ s) :
    Keeps ft s₀ (State.breakRes s n key len) := by
  delta State.breakRes
  repeat' first
      | with_reducible assumption | exact Foot.sub hp rfl | intro _ | with_reducible apply State.forUpTo_keeps
      | with_reducible apply State.updCore_keeps | with_reducible apply Keeps.ite | dsimp only | split

theorem State.dmemPort_keeps {ft : Nat} {s₀ s : State} (n : Nat) (off : Nat) (v : Nat) (hp : 262152 &&& ft = 262152)
    (h : Keeps ft s₀ s) :
    Keeps ft s₀ (State.dmemPort s n off v) := by
  delta State.dmemPort
  repeat' first
      | with_reducible assumption | exact Foot.sub hp rfl | intro _ | with_reducible apply State.breakRes_keeps
      | with_reducible apply State.setBytes_keeps | dsimp only | split

theorem State.staleWord_keeps {ft : Nat} {s₀ s : State} (n : Nat) (w : Nat) (hp : 4 &&& ft = 4) (h : Keeps ft s₀ s) :
    Keeps ft s₀ (State.staleWord s n w) := by
  delta State.staleWord
  repeat' first
      | with_reducible assumption | exact Foot.sub hp rfl | intro _ | with_reducible apply State.setTab_keeps
      | with_reducible apply Keeps.ite | dsimp only | split

theorem State.localStore_keeps {ft : Nat} {s₀ s : State} (n : Nat) (a : Nat) (k : Nat) (v : Nat) (hp : 12 &&& ft = 12)
    (h : Keeps ft s₀ s) :
    Keeps ft s₀ (State.localStore s n a k v) := by
  delta State.localStore
  repeat' first
      | with_reducible assumption | exact Foot.sub hp rfl | intro _ | with_reducible apply State.staleWord_keeps
      | with_reducible apply State.setBytes_keeps | with_reducible apply Keeps.ite | dsimp only | split

theorem State.wdtReload_keeps {ft : Nat} {s₀ s : State} (n : Nat) (hp : 2 &&& ft = 2) (h : Keeps ft s₀ s) :
    Keeps ft s₀ (State.wdtReload s n) := by
  delta State.wdtReload
  repeat' first
      | with_reducible assumption | exact Foot.sub hp rfl | intro _ | with_reducible apply State.wr_keeps
      | dsimp only | split

theorem State.rstRelease_keeps {ft : Nat} {s₀ s : State} (n : Nat) (hp : 2 &&& ft = 2) (h : Keeps ft s₀ s) :
    Keeps ft s₀ (State.rstRelease s n) := by
  delta State.rstRelease
  repeat' first
      | with_reducible assumption | exact Foot.sub hp rfl | intro _ | with_reducible apply State.wr_keeps
      | with_reducible apply State.setFlag_keeps | dsimp only | split

theorem State.mfpTriggers_keeps {ft : Nat} {s₀ s : State} (n : Nat) (v : Nat) (hp : 2 &&& ft = 2) (h : Keeps ft s₀ s) :
    Keeps ft s₀ (State.mfpTriggers s n v) := by
  delta State.mfpTriggers
  repeat' first
      | with_reducible assumption | exact Foot.sub hp rfl | intro _ | with_reducible apply State.wdtReload_keeps
      | with_reducible apply State.setFlag_keeps | with_reducible apply State.rstRelease_keeps
      | with_reducible apply Keeps.ite | dsimp only | split

theorem State.ringDoorbells_keeps {ft : Nat} {s₀ s : State} (n : Nat) (mask : Nat) (hp : 2 &&& ft = 2)
    (h : Keeps ft s₀ s) :
    Keeps ft s₀ (State.ringDoorbells s n mask) := by
  delta State.ringDoorbells
  repeat' first
      | with_reducible assumption | exact Foot.sub hp rfl | intro _ | with_reducible apply State.absentHit_keeps
      | with_reducible apply State.forUpTo_keeps | with_reducible apply State.inc_keeps
      | with_reducible apply Keeps.ite | dsimp only | split

theorem State.writeCtxid_keeps {ft : Nat} {s₀ s : State} (n : Nat) (v : Nat) (hp : 2 &&& ft = 2) (h : Keeps ft s₀ s) :
    Keeps ft s₀ (State.writeCtxid s n v) := by
  delta State.writeCtxid
  repeat' first
      | with_reducible assumption | exact Foot.sub hp rfl | intro _ | with_reducible apply State.wr_keeps
      | dsimp only | split

theorem State.writeWdt_keeps {ft : Nat} {s₀ s : State} (n : Nat) (v : Nat) (hp : 2 &&& ft = 2) (h : Keeps ft s₀ s) :
    Keeps ft s₀ (State.writeWdt s n v) := by
  delta State.writeWdt
  repeat' first
      | with_reducible assumption | exact Foot.sub hp rfl | intro _ | with_reducible apply State.wdtReload_keeps
      | with_reducible apply State.writeFields_keeps | with_reducible apply Keeps.ite | dsimp only | split

theorem State.writeTmrLoad_keeps {ft : Nat} {s₀ s : State} (n : Nat) (v : Nat) (hp : 2 &&& ft = 2)
    (h : Keeps ft s₀ s) :
    Keeps ft s₀ (State.writeTmrLoad s n v) := by
  delta State.writeTmrLoad
  repeat' first
      | with_reducible assumption | exact Foot.sub hp rfl | intro _ | with_reducible apply State.wr_keeps
      | dsimp only | split

theorem State.writeApCtrl_keeps {ft : Nat} {s₀ s : State} (n : Nat) (w : Nat) (v : Nat) (hp : 68610 &&& ft = 68610)
    (h : Keeps ft s₀ s) :
    Keeps ft s₀ (State.writeApCtrl s n w v) := by
  delta State.writeApCtrl
  repeat' first
      | with_reducible assumption | exact Foot.sub hp rfl | intro _ | with_reducible apply State.dropUse_keeps
      | with_reducible apply State.wr_keeps | with_reducible apply State.addUse_keeps
      | with_reducible apply Keeps.ite | dsimp only | split

theorem State.mfpRegWrite_keeps {ft : Nat} {s₀ s : State} (n : Nat) (off : Nat) (v : Nat) (hp : 68610 &&& ft = 68610)
    (h : Keeps ft s₀ s) :
    Keeps ft s₀ (State.mfpRegWrite s n off v) := by
  delta State.mfpRegWrite
  repeat' first
      | with_reducible assumption | exact Foot.sub hp rfl | intro _ | with_reducible apply State.mfpTriggers_keeps
      | with_reducible apply State.ringDoorbells_keeps | with_reducible apply State.writeCtxid_keeps
      | with_reducible apply State.writeWdt_keeps | with_reducible apply State.writeTmrLoad_keeps
      | with_reducible apply State.writeApCtrl_keeps | with_reducible apply State.writeFields_keeps
      | with_reducible apply Keeps.ite | dsimp only | split

theorem State.mfpAliasWrite_keeps {ft : Nat} {s₀ s : State} (n : Nat) (off : Nat) (v : Nat)
    (hp : 68610 &&& ft = 68610) (h : Keeps ft s₀ s) :
    Keeps ft s₀ (State.mfpAliasWrite s n off v) := by
  delta State.mfpAliasWrite
  repeat' first
      | with_reducible assumption | exact Foot.sub hp rfl | intro _ | with_reducible apply State.setBit_keeps
      | with_reducible apply State.mfpRegWrite_keeps | with_reducible apply Keeps.ite | dsimp only | split

theorem State.resetField_keeps {ft : Nat} {s₀ s : State} (f : Fld) (hp : 2 &&& ft = 2) (h : Keeps ft s₀ s) :
    Keeps ft s₀ (State.resetField s f) := by
  delta State.resetField
  repeat' first
      | with_reducible assumption | exact Foot.sub hp rfl | intro _ | with_reducible apply State.wr_keeps
      | dsimp only | split

theorem State.mfpClear_keeps {ft : Nat} {s₀ s : State} (n : Nat) (hp : 330754 &&& ft = 330754) (h : Keeps ft s₀ s) :
    Keeps ft s₀ (State.mfpClear s n) := by
  delta State.mfpClear
  repeat' first
      | with_reducible assumption | exact Foot.sub hp rfl | intro _ | with_reducible apply State.resetField_keeps
      | with_reducible apply State.forUpTo_keeps | with_reducible apply State.wr_keeps
      | with_reducible apply State.dropUse_keeps | with_reducible apply State.setCore_keeps
      | with_reducible apply Keeps.foldl | dsimp only | split

theorem State.mfpRegRead_keeps {ft : Nat} {s₀ s : State} (n : Nat) (off : Nat) (hp : 2 &&& ft = 2)
    (h : Keeps ft s₀ s) :
    Keeps ft s₀ (State.mfpRegRead s n off).1 := by
  delta State.mfpRegRead
  repeat' first
      | with_reducible assumption | exact Foot.sub hp rfl | intro _ | with_reducible apply State.wr_keeps
      | with_reducible apply Keeps.ite | dsimp only | split

theorem State.mfpReset_keeps {ft : Nat} {s₀ s : State} (n : Nat) (cause : Nat) (hp : 330754 &&& ft = 330754)
    (h : Keeps ft s₀ s) :
    Keeps ft s₀ (State.mfpReset s n cause) := by
  delta State.mfpReset
  repeat' first
      | with_reducible assumption | exact Foot.sub hp rfl | intro _ | with_reducible apply State.wr_keeps
      | with_reducible apply State.setFlag_keeps | with_reducible apply State.forUpTo_keeps
      | with_reducible apply State.inc_keeps | with_reducible apply State.mfpClear_keeps
      | with_reducible apply Keeps.ite | dsimp only | split

theorem State.tmrExpire_keeps {ft : Nat} {s₀ s : State} (n : Nat) (e : Nat) (hp : 2 &&& ft = 2) (h : Keeps ft s₀ s) :
    Keeps ft s₀ (State.tmrExpire s n e) := by
  delta State.tmrExpire
  repeat' first
      | with_reducible assumption | exact Foot.sub hp rfl | intro _ | with_reducible apply State.setFlag_keeps
      | with_reducible apply State.wr_keeps | dsimp only | split

theorem State.tmrPass_keeps {ft : Nat} {s₀ s : State} (n : Nat) (k : Nat) (hp : 2 &&& ft = 2) (h : Keeps ft s₀ s) :
    Keeps ft s₀ (State.tmrPass s n k) := by
  delta State.tmrPass
  repeat' first
      | with_reducible assumption | exact Foot.sub hp rfl | intro _ | with_reducible apply State.wr_keeps
      | with_reducible apply State.tmrExpire_keeps | with_reducible apply Keeps.ite | dsimp only | split

theorem State.mfpTime_keeps {ft : Nat} {s₀ s : State} (n : Nat) (k : Nat) (hp : 262146 &&& ft = 262146)
    (h : Keeps ft s₀ s) :
    Keeps ft s₀ (State.mfpTime s n k) := by
  delta State.mfpTime
  repeat' first
      | with_reducible assumption | exact Foot.sub hp rfl | intro _ | with_reducible apply State.updCore_keeps
      | with_reducible apply State.tmrPass_keeps | with_reducible apply State.wr_keeps
      | with_reducible apply Keeps.ite | dsimp only | split

theorem State.mfpTick_keeps {ft : Nat} {s₀ s : State} (n : Nat) (hp : 262146 &&& ft = 262146) (h : Keeps ft s₀ s) :
    Keeps ft s₀ (State.mfpTick s n) := by
  delta State.mfpTick
  repeat' first
      | with_reducible assumption | exact Foot.sub hp rfl | intro _ | with_reducible apply State.mfpTime_keeps
      | with_reducible apply Keeps.ite | dsimp only | split

theorem State.onMfp_keeps {ft : Nat} {s₀ s : State} (n : Nat) (f : State → State) (h : Keeps ft s₀ s)
    (h_f : ∀ s , Keeps ft s₀ s → Keeps ft s₀ (f s)) :
    Keeps ft s₀ (State.onMfp s n f) := by
  delta State.onMfp
  repeat' first
      | with_reducible assumption | exact Foot.sub hp rfl | intro _ | with_reducible apply h_f
      | with_reducible apply Keeps.ite | dsimp only | split

theorem execKick_keeps {ft : Nat} {s₀ s : State} (m : MfpId) (hp : 2 &&& ft = 2) (h : Keeps ft s₀ s) :
    KeepsOut ft s₀ (execKick m s) := by
  delta execKick
  repeat' first
      | with_reducible assumption | exact Foot.sub hp rfl | intro _ | with_reducible apply State.onMfp_keeps
      | with_reducible apply State.wdtReload_keeps | with_reducible apply KeepsOut.done
      | with_reducible apply KeepsOut.next | exact trivial | dsimp only | split

theorem execMfpApCtrl_keeps {ft : Nat} {s₀ s : State} (m : MfpId) (w : Fin 8) (v : BitVec 2)
    (hp : 68610 &&& ft = 68610) (h : Keeps ft s₀ s) :
    KeepsOut ft s₀ (execMfpApCtrl m w v s) := by
  delta execMfpApCtrl
  repeat' first
      | with_reducible assumption | exact Foot.sub hp rfl | intro _ | with_reducible apply State.onMfp_keeps
      | with_reducible apply State.writeApCtrl_keeps | with_reducible apply KeepsOut.done
      | with_reducible apply KeepsOut.next | exact trivial | dsimp only | split

theorem execMfpCtxid_keeps {ft : Nat} {s₀ s : State} (m : MfpId) (v : Word) (hp : 2 &&& ft = 2) (h : Keeps ft s₀ s) :
    KeepsOut ft s₀ (execMfpCtxid m v s) := by
  delta execMfpCtxid
  repeat' first
      | with_reducible assumption | exact Foot.sub hp rfl | intro _ | with_reducible apply State.onMfp_keeps
      | with_reducible apply State.writeCtxid_keeps | with_reducible apply KeepsOut.done
      | with_reducible apply KeepsOut.next | exact trivial | dsimp only | split

theorem execMfpDback_keeps {ft : Nat} {s₀ s : State} (m : MfpId) (v : Word) (hp : 2 &&& ft = 2) (h : Keeps ft s₀ s) :
    KeepsOut ft s₀ (execMfpDback m v s) := by
  delta execMfpDback
  repeat' first
      | with_reducible assumption | exact Foot.sub hp rfl | intro _ | with_reducible apply State.onMfp_keeps
      | with_reducible apply State.wr_keeps | with_reducible apply KeepsOut.done | with_reducible apply KeepsOut.next
      | exact trivial | dsimp only | split

theorem execMfpTmrLoad_keeps {ft : Nat} {s₀ s : State} (m : MfpId) (v : Word) (hp : 2 &&& ft = 2) (h : Keeps ft s₀ s) :
    KeepsOut ft s₀ (execMfpTmrLoad m v s) := by
  delta execMfpTmrLoad
  repeat' first
      | with_reducible assumption | exact Foot.sub hp rfl | intro _ | with_reducible apply State.onMfp_keeps
      | with_reducible apply State.writeTmrLoad_keeps | with_reducible apply KeepsOut.done
      | with_reducible apply KeepsOut.next | exact trivial | dsimp only | split

theorem execMfpWdtCtrl_keeps {ft : Nat} {s₀ s : State} (m : MfpId) (v : Word) (hp : 2 &&& ft = 2) (h : Keeps ft s₀ s) :
    KeepsOut ft s₀ (execMfpWdtCtrl m v s) := by
  delta execMfpWdtCtrl
  repeat' first
      | with_reducible assumption | exact Foot.sub hp rfl | intro _ | with_reducible apply State.onMfp_keeps
      | with_reducible apply State.writeWdt_keeps | with_reducible apply KeepsOut.done
      | with_reducible apply KeepsOut.next | exact trivial | dsimp only | split

theorem execRing_keeps {ft : Nat} {s₀ s : State} (m : MfpId) (mask : BitVec 8) (hp : 2 &&& ft = 2)
    (h : Keeps ft s₀ s) :
    KeepsOut ft s₀ (execRing m mask s) := by
  delta execRing
  repeat' first
      | with_reducible assumption | exact Foot.sub hp rfl | intro _ | with_reducible apply State.onMfp_keeps
      | with_reducible apply State.ringDoorbells_keeps | with_reducible apply KeepsOut.done
      | with_reducible apply KeepsOut.next | exact trivial | dsimp only | split

theorem execRstRel_keeps {ft : Nat} {s₀ s : State} (m : MfpId) (hp : 2 &&& ft = 2) (h : Keeps ft s₀ s) :
    KeepsOut ft s₀ (execRstRel m s) := by
  delta execRstRel
  repeat' first
      | with_reducible assumption | exact Foot.sub hp rfl | intro _ | with_reducible apply State.onMfp_keeps
      | with_reducible apply State.rstRelease_keeps | with_reducible apply KeepsOut.done
      | with_reducible apply KeepsOut.next | exact trivial | dsimp only | split

theorem execTimerExpiry_keeps {ft : Nat} {s₀ s : State} (m : MfpId) (hp : 2 &&& ft = 2) (h : Keeps ft s₀ s) :
    KeepsOut ft s₀ (execTimerExpiry m s) := by
  delta execTimerExpiry
  repeat' first
      | with_reducible assumption | exact Foot.sub hp rfl | intro _ | with_reducible apply State.tmrPass_keeps
      | with_reducible apply KeepsOut.done | with_reducible apply KeepsOut.next | exact trivial | dsimp only | split

theorem execTmrRel_keeps {ft : Nat} {s₀ s : State} (m : MfpId) (hp : 2 &&& ft = 2) (h : Keeps ft s₀ s) :
    KeepsOut ft s₀ (execTmrRel m s) := by
  delta execTmrRel
  repeat' first
      | with_reducible assumption | exact Foot.sub hp rfl | intro _ | with_reducible apply State.onMfp_keeps
      | with_reducible apply State.setFlag_keeps | with_reducible apply KeepsOut.done
      | with_reducible apply KeepsOut.next | exact trivial | dsimp only | split

theorem execWatchdogExpiry_keeps {ft : Nat} {s₀ s : State} (m : MfpId) (hp : 330754 &&& ft = 330754)
    (h : Keeps ft s₀ s) :
    KeepsOut ft s₀ (execWatchdogExpiry m s) := by
  delta execWatchdogExpiry
  repeat' first
      | with_reducible assumption | exact Foot.sub hp rfl | intro _ | with_reducible apply State.mfpReset_keeps
      | with_reducible apply Keeps.ite | with_reducible apply KeepsOut.done | with_reducible apply KeepsOut.next
      | exact trivial | dsimp only | split
end Sys2Proof.Machine
end

