-- ==== Sys2Proof/Laws/KeepsMfpIssue.lean ====
section
/-! SUPPORT. Once for each: what the operations of Machine/MfpIssue.lean keep: the parts of the
state they may change, and that the canonical form of the state survives them. -/

namespace Sys2Proof.Machine

theorem State.addImprecise_keeps {ft : Nat} {s₀ s : State} (n : Nat) (cause : Nat) (addr : Nat) (st : Bool)
    (left : optParam Nat 0) (hp : 262144 &&& ft = 262144) (h : Keeps ft s₀ s) :
    Keeps ft s₀ (State.addImprecise s n cause addr st left) := by
  delta State.addImprecise
  repeat' first
      | with_reducible assumption | exact Foot.sub hp rfl | intro _ | with_reducible apply State.updCore_keeps
      | dsimp only | split

theorem State.requestHalt_keeps {ft : Nat} {s₀ s : State} (n : Nat) (cause : Nat) (unit : Nat)
    (hp : 262146 &&& ft = 262146) (h : Keeps ft s₀ s) :
    Keeps ft s₀ (State.requestHalt s n cause unit) := by
  delta State.requestHalt
  repeat' first
      | with_reducible assumption | exact Foot.sub hp rfl | intro _ | with_reducible apply State.setFlag_keeps
      | with_reducible apply State.updCore_keeps | with_reducible apply Keeps.ite | dsimp only | split

theorem State.comparatorFire_keeps {ft : Nat} {s₀ s : State} (n : Nat) (cause : Nat) (unit : Nat) (act : Nat)
    (hp : 8590196738 &&& ft = 8590196738) (h : Keeps ft s₀ s) :
    Keeps ft s₀ (State.comparatorFire s n cause unit act) := by
  delta State.comparatorFire
  repeat' first
      | with_reducible assumption | exact Foot.sub hp rfl | intro _ | with_reducible apply State.pulse_keeps
      | with_reducible apply State.requestHalt_keeps | with_reducible apply Keeps.ite | dsimp only | split

theorem State.dataComparators_keeps {ft : Nat} {s₀ s : State} (n : Nat) (store : Bool) (a : Nat) (size : Nat)
    (v : Option Nat) (linked : Bool) (hp : 8590196738 &&& ft = 8590196738) (h : Keeps ft s₀ s) :
    Keeps ft s₀ (State.dataComparators s n store a size v linked) := by
  delta State.dataComparators
  repeat' first
      | with_reducible assumption | exact Foot.sub hp rfl | intro _ | with_reducible apply State.forUpTo_keeps
      | with_reducible apply State.comparatorFire_keeps | with_reducible apply Keeps.ite | dsimp only | split

theorem State.haltNow_keeps {ft : Nat} {s₀ s : State} (n : Nat) (cause : Nat) (unit : Nat)
    (hp : 262146 &&& ft = 262146) (h : Keeps ft s₀ s) :
    Keeps ft s₀ (State.haltNow s n cause unit) := by
  delta State.haltNow
  repeat' first
      | with_reducible assumption | exact Foot.sub hp rfl | intro _ | with_reducible apply State.updCore_keeps
      | with_reducible apply State.setFlag_keeps | with_reducible apply State.wr_keeps
      | with_reducible apply State.forUpTo_keeps | with_reducible apply State.requestHalt_keeps
      | with_reducible apply Keeps.ite | dsimp only | split

theorem State.takeHalt_keeps {ft : Nat} {s₀ s : State} (n : Nat) (hp : 262146 &&& ft = 262146) (h : Keeps ft s₀ s) :
    Keeps ft s₀ (State.takeHalt s n) := by
  delta State.takeHalt
  repeat' first
      | with_reducible assumption | exact Foot.sub hp rfl | intro _ | with_reducible apply State.haltNow_keeps
      | with_reducible apply Keeps.ite | dsimp only | split

theorem State.stepEnd_keeps {ft : Nat} {s₀ s : State} (n : Nat) (hp : 262146 &&& ft = 262146) (h : Keeps ft s₀ s) :
    Keeps ft s₀ (State.stepEnd s n) := by
  delta State.stepEnd
  repeat' first
      | with_reducible assumption | exact Foot.sub hp rfl | intro _ | with_reducible apply State.takeHalt_keeps
      | with_reducible apply State.requestHalt_keeps | with_reducible apply State.updCore_keeps
      | with_reducible apply Keeps.ite | dsimp only | split

theorem State.endBundle_keeps {ft : Nat} {s₀ s : State} (n : Nat) (ni : Bool) (hp : 262146 &&& ft = 262146)
    (h : Keeps ft s₀ s) :
    Keeps ft s₀ (State.endBundle s n ni) := by
  delta State.endBundle
  repeat' first
      | with_reducible assumption | exact Foot.sub hp rfl | intro _ | with_reducible apply State.stepEnd_keeps
      | with_reducible apply State.mfpTime_keeps | with_reducible apply State.updCore_keeps | dsimp only | split

theorem State.execComparators_keeps {ft : Nat} {s₀ s : State} (n : Nat) (hp : 8590196738 &&& ft = 8590196738)
    (h : Keeps ft s₀ s) :
    Keeps ft s₀ (State.execComparators s n) := by
  delta State.execComparators
  repeat' first
      | with_reducible assumption | exact Foot.sub hp rfl | intro _ | with_reducible apply State.forUpTo_keeps
      | with_reducible apply State.comparatorFire_keeps | with_reducible apply Keeps.ite | dsimp only | split

theorem State.mfpException_keeps {ft : Nat} {s₀ s : State} (n : Nat) (cause : Nat) (addr : Option Nat) (st : Bool)
    (hp : 330754 &&& ft = 330754) (h : Keeps ft s₀ s) :
    Keeps ft s₀ (State.mfpException s n cause addr st) := by
  delta State.mfpException
  repeat' first
      | with_reducible assumption | exact Foot.sub hp rfl | intro _ | with_reducible apply State.mfpReset_keeps
      | with_reducible apply State.updCore_keeps | with_reducible apply Keeps.ite | dsimp only | split

theorem State.mfpImprecise_keeps {ft : Nat} {s₀ s : State} (n : Nat) (hp : 330754 &&& ft = 330754)
    (h : Keeps ft s₀ s) :
    Keeps ft s₀ (State.mfpImprecise s n) := by
  delta State.mfpImprecise
  repeat' first
      | with_reducible assumption | exact Foot.sub hp rfl | intro _ | with_reducible apply State.mfpException_keeps
      | with_reducible apply State.updCore_keeps | dsimp only | split

theorem State.mfpBoundary_keeps {ft : Nat} {s₀ s : State} (n : Nat) (e : BundleEcc)
    (hp : 8590265346 &&& ft = 8590265346) (h : Keeps ft s₀ s) :
    Keeps ft s₀ (State.mfpBoundary s n e).1 := by
  delta State.mfpBoundary
  repeat' first
      | with_reducible assumption | exact Foot.sub hp rfl | intro _ | with_reducible apply State.stepEnd_keeps
      | with_reducible apply State.mfpException_keeps | with_reducible apply State.mfpImprecise_keeps
      | with_reducible apply State.execComparators_keeps | with_reducible apply State.incSat_keeps
      | with_reducible apply Keeps.ite | dsimp only | split

theorem State.mfpSlot_keeps {ft : Nat} {s₀ s : State} (n : Nat) (e : BundleEcc) (kind : Nat)
    (act : State → Nat → Nat → State) (hp : 8590265346 &&& ft = 8590265346) (h : Keeps ft s₀ s)
    (h_act : ∀ s a0 a1, Keeps ft s₀ s → Keeps ft s₀ (act s a0 a1)) :
    Keeps ft s₀ (State.mfpSlot s n e kind act) := by
  delta State.mfpSlot
  repeat' first
      | with_reducible assumption | exact Foot.sub hp rfl | intro _ | with_reducible apply State.mfpBoundary_keeps
      | with_reducible apply State.updCore_keeps | with_reducible apply State.endBundle_keeps
      | with_reducible apply h_act | with_reducible apply Keeps.ite
      | with_reducible refine Keeps.of_fst (by assumption) ?_ | dsimp only | split
end Sys2Proof.Machine
end

