-- ==== Sys2Proof/Laws/KeepsMfpOps.lean ====
section
/-! SUPPORT. Once for each: what the operations of Machine/MfpOps.lean keep: the parts of the
state they may change, and that the canonical form of the state survives them. -/

namespace Sys2Proof.Machine

theorem State.localRead_keeps {ft : Nat} {s₀ s : State} (n : Nat) (a : Nat) (size : Nat) (hp : 2 &&& ft = 2)
    (h : Keeps ft s₀ s) :
    Keeps ft s₀ (State.localRead s n a size).1 := by
  delta State.localRead
  repeat' first
      | with_reducible assumption | exact Foot.sub hp rfl | intro _ | with_reducible apply State.mfpRegRead_keeps
      | with_reducible apply Keeps.ite | with_reducible refine Keeps.of_fst (by assumption) ?_ | dsimp only | split

theorem State.loadLocal_keeps {ft : Nat} {s₀ s : State} (n : Nat) (w : Nat) (a : Nat) (size : Nat) (signed : Bool)
    (e : Ecc) (hp : 8590196738 &&& ft = 8590196738) (h : Keeps ft s₀ s) :
    Keeps ft s₀ (State.loadLocal s n w a size signed e) := by
  delta State.loadLocal
  repeat' first
      | with_reducible assumption | exact Foot.sub hp rfl | intro _ | with_reducible apply State.localRead_keeps
      | with_reducible apply State.addImprecise_keeps | with_reducible apply State.updCore_keeps
      | with_reducible apply State.incSat_keeps | with_reducible apply State.dataComparators_keeps
      | with_reducible apply Keeps.ite | with_reducible refine Keeps.of_fst (by assumption) ?_ | dsimp only | split

theorem State.localWrite_keeps {ft : Nat} {s₀ s : State} (n : Nat) (a : Nat) (size : Nat) (v : Nat)
    (hp : 330766 &&& ft = 330766) (h : Keeps ft s₀ s) :
    Keeps ft s₀ (State.localWrite s n a size v) := by
  delta State.localWrite
  repeat' first
      | with_reducible assumption | exact Foot.sub hp rfl | intro _ | with_reducible apply State.localStore_keeps
      | with_reducible apply State.addImprecise_keeps | with_reducible apply State.mfpAliasWrite_keeps
      | with_reducible apply State.mfpRegWrite_keeps | with_reducible apply Keeps.ite | dsimp only | split

theorem opNop_keeps {ft : Nat} {s₀ s : State} (x0 : Nat) (x1 : Nat) (h : Keeps ft s₀ s) :
    Keeps ft s₀ (opNop s x0 x1) := by
  delta opNop
  repeat' first | with_reducible assumption | exact Foot.sub hp rfl | intro _ | dsimp only | split

theorem State.opR_keeps {ft : Nat} {s₀ s : State} (n : Nat) (w : Nat) (lat : Nat) (f : Nat → Nat → Nat)
    (hp : 262144 &&& ft = 262144) (h : Keeps ft s₀ s) :
    Keeps ft s₀ (State.opR s n w lat f) := by
  delta State.opR
  repeat' first
      | with_reducible assumption | exact Foot.sub hp rfl | intro _ | with_reducible apply State.updCore_keeps
      | with_reducible apply h_f | dsimp only | split

theorem State.opRs_keeps {ft : Nat} {s₀ s : State} (n : Nat) (w : Nat) (lat : Nat) (f : Int → Int → Int)
    (hp : 262144 &&& ft = 262144) (h : Keeps ft s₀ s) :
    Keeps ft s₀ (State.opRs s n w lat f) := by
  delta State.opRs
  repeat' first
      | with_reducible assumption | exact Foot.sub hp rfl | intro _ | with_reducible apply State.opR_keeps
      | with_reducible apply h_f | dsimp only | split

theorem opAdd_keeps {ft : Nat} {s₀ s : State} (n : Nat) (w : Nat) (hp : 262144 &&& ft = 262144) (h : Keeps ft s₀ s) :
    Keeps ft s₀ (opAdd s n w) := by
  delta opAdd
  repeat' first
      | with_reducible assumption | exact Foot.sub hp rfl | intro _ | with_reducible apply State.opRs_keeps
      | dsimp only | split

theorem opSub_keeps {ft : Nat} {s₀ s : State} (n : Nat) (w : Nat) (hp : 262144 &&& ft = 262144) (h : Keeps ft s₀ s) :
    Keeps ft s₀ (opSub s n w) := by
  delta opSub
  repeat' first
      | with_reducible assumption | exact Foot.sub hp rfl | intro _ | with_reducible apply State.opRs_keeps
      | dsimp only | split

theorem opAnd_keeps {ft : Nat} {s₀ s : State} (n : Nat) (w : Nat) (hp : 262144 &&& ft = 262144) (h : Keeps ft s₀ s) :
    Keeps ft s₀ (opAnd s n w) := by
  delta opAnd
  repeat' first
      | with_reducible assumption | exact Foot.sub hp rfl | intro _ | with_reducible apply State.opR_keeps
      | dsimp only | split

theorem opOr_keeps {ft : Nat} {s₀ s : State} (n : Nat) (w : Nat) (hp : 262144 &&& ft = 262144) (h : Keeps ft s₀ s) :
    Keeps ft s₀ (opOr s n w) := by
  delta opOr
  repeat' first
      | with_reducible assumption | exact Foot.sub hp rfl | intro _ | with_reducible apply State.opR_keeps
      | dsimp only | split

theorem opXor_keeps {ft : Nat} {s₀ s : State} (n : Nat) (w : Nat) (hp : 262144 &&& ft = 262144) (h : Keeps ft s₀ s) :
    Keeps ft s₀ (opXor s n w) := by
  delta opXor
  repeat' first
      | with_reducible assumption | exact Foot.sub hp rfl | intro _ | with_reducible apply State.opR_keeps
      | dsimp only | split

theorem opSll_keeps {ft : Nat} {s₀ s : State} (n : Nat) (w : Nat) (hp : 262144 &&& ft = 262144) (h : Keeps ft s₀ s) :
    Keeps ft s₀ (opSll s n w) := by
  delta opSll
  repeat' first
      | with_reducible assumption | exact Foot.sub hp rfl | intro _ | with_reducible apply State.opR_keeps
      | dsimp only | split

theorem opSrl_keeps {ft : Nat} {s₀ s : State} (n : Nat) (w : Nat) (hp : 262144 &&& ft = 262144) (h : Keeps ft s₀ s) :
    Keeps ft s₀ (opSrl s n w) := by
  delta opSrl
  repeat' first
      | with_reducible assumption | exact Foot.sub hp rfl | intro _ | with_reducible apply State.opR_keeps
      | dsimp only | split

theorem opSra_keeps {ft : Nat} {s₀ s : State} (n : Nat) (w : Nat) (hp : 262144 &&& ft = 262144) (h : Keeps ft s₀ s) :
    Keeps ft s₀ (opSra s n w) := by
  delta opSra
  repeat' first
      | with_reducible assumption | exact Foot.sub hp rfl | intro _ | with_reducible apply State.opR_keeps
      | dsimp only | split

theorem opSlt_keeps {ft : Nat} {s₀ s : State} (n : Nat) (w : Nat) (hp : 262144 &&& ft = 262144) (h : Keeps ft s₀ s) :
    Keeps ft s₀ (opSlt s n w) := by
  delta opSlt
  repeat' first
      | with_reducible assumption | exact Foot.sub hp rfl | intro _ | with_reducible apply State.opR_keeps
      | dsimp only | split

theorem opSltu_keeps {ft : Nat} {s₀ s : State} (n : Nat) (w : Nat) (hp : 262144 &&& ft = 262144) (h : Keeps ft s₀ s) :
    Keeps ft s₀ (opSltu s n w) := by
  delta opSltu
  repeat' first
      | with_reducible assumption | exact Foot.sub hp rfl | intro _ | with_reducible apply State.opR_keeps
      | dsimp only | split

theorem opMin_keeps {ft : Nat} {s₀ s : State} (n : Nat) (w : Nat) (hp : 262144 &&& ft = 262144) (h : Keeps ft s₀ s) :
    Keeps ft s₀ (opMin s n w) := by
  delta opMin
  repeat' first
      | with_reducible assumption | exact Foot.sub hp rfl | intro _ | with_reducible apply State.opR_keeps
      | with_reducible apply Keeps.ite | dsimp only | split

theorem opMax_keeps {ft : Nat} {s₀ s : State} (n : Nat) (w : Nat) (hp : 262144 &&& ft = 262144) (h : Keeps ft s₀ s) :
    Keeps ft s₀ (opMax s n w) := by
  delta opMax
  repeat' first
      | with_reducible assumption | exact Foot.sub hp rfl | intro _ | with_reducible apply State.opR_keeps
      | with_reducible apply Keeps.ite | dsimp only | split

theorem opAbs_keeps {ft : Nat} {s₀ s : State} (n : Nat) (w : Nat) (hp : 262144 &&& ft = 262144) (h : Keeps ft s₀ s) :
    Keeps ft s₀ (opAbs s n w) := by
  delta opAbs
  repeat' first
      | with_reducible assumption | exact Foot.sub hp rfl | intro _ | with_reducible apply State.opRs_keeps
      | dsimp only | split

theorem opMul_keeps {ft : Nat} {s₀ s : State} (n : Nat) (w : Nat) (hp : 262144 &&& ft = 262144) (h : Keeps ft s₀ s) :
    Keeps ft s₀ (opMul s n w) := by
  delta opMul
  repeat' first
      | with_reducible assumption | exact Foot.sub hp rfl | intro _ | with_reducible apply State.opRs_keeps
      | dsimp only | split

theorem opMulq_keeps {ft : Nat} {s₀ s : State} (n : Nat) (w : Nat) (hp : 262144 &&& ft = 262144) (h : Keeps ft s₀ s) :
    Keeps ft s₀ (opMulq s n w) := by
  delta opMulq
  repeat' first
      | with_reducible assumption | exact Foot.sub hp rfl | intro _ | with_reducible apply State.opRs_keeps
      | dsimp only | split

theorem State.opI_keeps {ft : Nat} {s₀ s : State} (n : Nat) (w : Nat) (f : Nat → Nat) (hp : 262144 &&& ft = 262144)
    (h : Keeps ft s₀ s) :
    Keeps ft s₀ (State.opI s n w f) := by
  delta State.opI
  repeat' first
      | with_reducible assumption | exact Foot.sub hp rfl | intro _ | with_reducible apply State.updCore_keeps
      | with_reducible apply h_f | dsimp only | split

theorem opAddi_keeps {ft : Nat} {s₀ s : State} (n : Nat) (w : Nat) (hp : 262144 &&& ft = 262144) (h : Keeps ft s₀ s) :
    Keeps ft s₀ (opAddi s n w) := by
  delta opAddi
  repeat' first
      | with_reducible assumption | exact Foot.sub hp rfl | intro _ | with_reducible apply State.opI_keeps
      | dsimp only | split

theorem opAndi_keeps {ft : Nat} {s₀ s : State} (n : Nat) (w : Nat) (hp : 262144 &&& ft = 262144) (h : Keeps ft s₀ s) :
    Keeps ft s₀ (opAndi s n w) := by
  delta opAndi
  repeat' first
      | with_reducible assumption | exact Foot.sub hp rfl | intro _ | with_reducible apply State.opI_keeps
      | dsimp only | split

theorem opOri_keeps {ft : Nat} {s₀ s : State} (n : Nat) (w : Nat) (hp : 262144 &&& ft = 262144) (h : Keeps ft s₀ s) :
    Keeps ft s₀ (opOri s n w) := by
  delta opOri
  repeat' first
      | with_reducible assumption | exact Foot.sub hp rfl | intro _ | with_reducible apply State.opI_keeps
      | dsimp only | split

theorem opXori_keeps {ft : Nat} {s₀ s : State} (n : Nat) (w : Nat) (hp : 262144 &&& ft = 262144) (h : Keeps ft s₀ s) :
    Keeps ft s₀ (opXori s n w) := by
  delta opXori
  repeat' first
      | with_reducible assumption | exact Foot.sub hp rfl | intro _ | with_reducible apply State.opI_keeps
      | dsimp only | split

theorem opShi_keeps {ft : Nat} {s₀ s : State} (n : Nat) (w : Nat) (hp : 262144 &&& ft = 262144) (h : Keeps ft s₀ s) :
    Keeps ft s₀ (opShi s n w) := by
  delta opShi
  repeat' first
      | with_reducible assumption | exact Foot.sub hp rfl | intro _ | with_reducible apply State.opI_keeps
      | dsimp only | split

theorem opSlti_keeps {ft : Nat} {s₀ s : State} (n : Nat) (w : Nat) (hp : 262144 &&& ft = 262144) (h : Keeps ft s₀ s) :
    Keeps ft s₀ (opSlti s n w) := by
  delta opSlti
  repeat' first
      | with_reducible assumption | exact Foot.sub hp rfl | intro _ | with_reducible apply State.opI_keeps
      | dsimp only | split

theorem opLui_keeps {ft : Nat} {s₀ s : State} (n : Nat) (w : Nat) (hp : 262144 &&& ft = 262144) (h : Keeps ft s₀ s) :
    Keeps ft s₀ (opLui s n w) := by
  delta opLui
  repeat' first
      | with_reducible assumption | exact Foot.sub hp rfl | intro _ | with_reducible apply State.updCore_keeps
      | dsimp only | split

theorem State.opPair_keeps {ft : Nat} {s₀ s : State} (n : Nat) (w : Nat) (better : Int → Int → Bool)
    (hp : 262144 &&& ft = 262144) (h : Keeps ft s₀ s) :
    Keeps ft s₀ (State.opPair s n w better) := by
  delta State.opPair
  repeat' first
      | with_reducible assumption | exact Foot.sub hp rfl | intro _ | with_reducible apply State.updCore_keeps
      | with_reducible apply Keeps.ite | dsimp only | split

theorem opMaxs_keeps {ft : Nat} {s₀ s : State} (n : Nat) (w : Nat) (hp : 262144 &&& ft = 262144) (h : Keeps ft s₀ s) :
    Keeps ft s₀ (opMaxs s n w) := by
  delta opMaxs
  repeat' first
      | with_reducible assumption | exact Foot.sub hp rfl | intro _ | with_reducible apply State.opPair_keeps
      | dsimp only | split

theorem opMins_keeps {ft : Nat} {s₀ s : State} (n : Nat) (w : Nat) (hp : 262144 &&& ft = 262144) (h : Keeps ft s₀ s) :
    Keeps ft s₀ (opMins s n w) := by
  delta opMins
  repeat' first
      | with_reducible assumption | exact Foot.sub hp rfl | intro _ | with_reducible apply State.opPair_keeps
      | dsimp only | split

theorem State.pushRemote_keeps {ft : Nat} {s₀ s : State} (n : Nat) (k : RemoteKind) (a : Nat) (size : Nat)
    (data : Nat) (dest : List Nat) (hp : 262144 &&& ft = 262144) (h : Keeps ft s₀ s) :
    Keeps ft s₀ (State.pushRemote s n k a size data dest) := by
  delta State.pushRemote
  repeat' first
      | with_reducible assumption | exact Foot.sub hp rfl | intro _ | with_reducible apply State.updCore_keeps
      | with_reducible apply Keeps.ite | dsimp only | split

theorem State.opLoad_keeps {ft : Nat} {s₀ s : State} (n : Nat) (w : Nat) (signed : Bool) (e : Ecc)
    (hp : 8590196738 &&& ft = 8590196738) (h : Keeps ft s₀ s) :
    Keeps ft s₀ (State.opLoad s n w signed e) := by
  delta State.opLoad
  repeat' first
      | with_reducible assumption | exact Foot.sub hp rfl | intro _ | with_reducible apply State.updCore_keeps
      | with_reducible apply State.loadLocal_keeps | with_reducible apply State.dataComparators_keeps
      | with_reducible apply State.pushRemote_keeps | with_reducible apply Keeps.ite | dsimp only | split

theorem opLdw_keeps {ft : Nat} {s₀ s : State} (e : Ecc) (n : Nat) (w : Nat) (hp : 8590196738 &&& ft = 8590196738)
    (h : Keeps ft s₀ s) :
    Keeps ft s₀ (opLdw e s n w) := by
  delta opLdw
  repeat' first
      | with_reducible assumption | exact Foot.sub hp rfl | intro _ | with_reducible apply State.opLoad_keeps
      | dsimp only | split

theorem opLdh_keeps {ft : Nat} {s₀ s : State} (e : Ecc) (n : Nat) (w : Nat) (hp : 8590196738 &&& ft = 8590196738)
    (h : Keeps ft s₀ s) :
    Keeps ft s₀ (opLdh e s n w) := by
  delta opLdh
  repeat' first
      | with_reducible assumption | exact Foot.sub hp rfl | intro _ | with_reducible apply State.opLoad_keeps
      | dsimp only | split

theorem opLdhu_keeps {ft : Nat} {s₀ s : State} (e : Ecc) (n : Nat) (w : Nat) (hp : 8590196738 &&& ft = 8590196738)
    (h : Keeps ft s₀ s) :
    Keeps ft s₀ (opLdhu e s n w) := by
  delta opLdhu
  repeat' first
      | with_reducible assumption | exact Foot.sub hp rfl | intro _ | with_reducible apply State.opLoad_keeps
      | dsimp only | split

theorem opLdb_keeps {ft : Nat} {s₀ s : State} (e : Ecc) (n : Nat) (w : Nat) (hp : 8590196738 &&& ft = 8590196738)
    (h : Keeps ft s₀ s) :
    Keeps ft s₀ (opLdb e s n w) := by
  delta opLdb
  repeat' first
      | with_reducible assumption | exact Foot.sub hp rfl | intro _ | with_reducible apply State.opLoad_keeps
      | dsimp only | split

theorem opLdbu_keeps {ft : Nat} {s₀ s : State} (e : Ecc) (n : Nat) (w : Nat) (hp : 8590196738 &&& ft = 8590196738)
    (h : Keeps ft s₀ s) :
    Keeps ft s₀ (opLdbu e s n w) := by
  delta opLdbu
  repeat' first
      | with_reducible assumption | exact Foot.sub hp rfl | intro _ | with_reducible apply State.opLoad_keeps
      | dsimp only | split

theorem opLdd_keeps {ft : Nat} {s₀ s : State} (e : Ecc) (n : Nat) (w : Nat) (hp : 8590196738 &&& ft = 8590196738)
    (h : Keeps ft s₀ s) :
    Keeps ft s₀ (opLdd e s n w) := by
  delta opLdd
  repeat' first
      | with_reducible assumption | exact Foot.sub hp rfl | intro _ | with_reducible apply State.opLoad_keeps
      | dsimp only | split

theorem State.opStore_keeps {ft : Nat} {s₀ s : State} (n : Nat) (w : Nat) (hp : 8590265358 &&& ft = 8590265358)
    (h : Keeps ft s₀ s) :
    Keeps ft s₀ (State.opStore s n w) := by
  delta State.opStore
  repeat' first
      | with_reducible assumption | exact Foot.sub hp rfl | intro _ | with_reducible apply State.updCore_keeps
      | with_reducible apply State.localWrite_keeps | with_reducible apply State.pushRemote_keeps
      | with_reducible apply State.dataComparators_keeps | with_reducible apply Keeps.ite | dsimp only | split

theorem opStw_keeps {ft : Nat} {s₀ s : State} (n : Nat) (w : Nat) (hp : 8590265358 &&& ft = 8590265358)
    (h : Keeps ft s₀ s) :
    Keeps ft s₀ (opStw s n w) := by
  delta opStw
  repeat' first
      | with_reducible assumption | exact Foot.sub hp rfl | intro _ | with_reducible apply State.opStore_keeps
      | dsimp only | split

theorem opSth_keeps {ft : Nat} {s₀ s : State} (n : Nat) (w : Nat) (hp : 8590265358 &&& ft = 8590265358)
    (h : Keeps ft s₀ s) :
    Keeps ft s₀ (opSth s n w) := by
  delta opSth
  repeat' first
      | with_reducible assumption | exact Foot.sub hp rfl | intro _ | with_reducible apply State.opStore_keeps
      | dsimp only | split

theorem opStb_keeps {ft : Nat} {s₀ s : State} (n : Nat) (w : Nat) (hp : 8590265358 &&& ft = 8590265358)
    (h : Keeps ft s₀ s) :
    Keeps ft s₀ (opStb s n w) := by
  delta opStb
  repeat' first
      | with_reducible assumption | exact Foot.sub hp rfl | intro _ | with_reducible apply State.opStore_keeps
      | dsimp only | split

theorem opStd_keeps {ft : Nat} {s₀ s : State} (n : Nat) (w : Nat) (hp : 8590265358 &&& ft = 8590265358)
    (h : Keeps ft s₀ s) :
    Keeps ft s₀ (opStd s n w) := by
  delta opStd
  repeat' first
      | with_reducible assumption | exact Foot.sub hp rfl | intro _ | with_reducible apply State.opStore_keeps
      | dsimp only | split

theorem opLl_keeps {ft : Nat} {s₀ s : State} (e : Ecc) (n : Nat) (w : Nat) (hp : 8590196738 &&& ft = 8590196738)
    (h : Keeps ft s₀ s) :
    Keeps ft s₀ (opLl e s n w) := by
  delta opLl
  repeat' first
      | with_reducible assumption | exact Foot.sub hp rfl | intro _ | with_reducible apply State.updCore_keeps
      | with_reducible apply State.loadLocal_keeps | with_reducible apply State.dataComparators_keeps
      | with_reducible apply State.pushRemote_keeps | with_reducible apply Keeps.ite | dsimp only | split

theorem opSc_keeps {ft : Nat} {s₀ s : State} (n : Nat) (w : Nat) (hp : 8590196750 &&& ft = 8590196750)
    (h : Keeps ft s₀ s) :
    Keeps ft s₀ (opSc s n w) := by
  delta opSc
  repeat' first
      | with_reducible assumption | exact Foot.sub hp rfl | intro _ | with_reducible apply State.updCore_keeps
      | with_reducible apply State.localStore_keeps | with_reducible apply State.dataComparators_keeps
      | with_reducible apply Keeps.ite | dsimp only | split

theorem opFence_keeps {ft : Nat} {s₀ s : State} (x0 : Nat) (x1 : Nat) (h : Keeps ft s₀ s) :
    Keeps ft s₀ (opFence s x0 x1) := by
  delta opFence
  repeat' first | with_reducible assumption | exact Foot.sub hp rfl | intro _ | dsimp only | split

theorem opClrres_keeps {ft : Nat} {s₀ s : State} (n : Nat) (x0 : Nat) (hp : 262144 &&& ft = 262144)
    (h : Keeps ft s₀ s) :
    Keeps ft s₀ (opClrres s n x0) := by
  delta opClrres
  repeat' first
      | with_reducible assumption | exact Foot.sub hp rfl | intro _ | with_reducible apply State.updCore_keeps
      | dsimp only | split

theorem State.opAcc_keeps {ft : Nat} {s₀ s : State} (n : Nat) (w : Nat) (f : Int → Nat → Nat → Int)
    (hp : 262144 &&& ft = 262144) (h : Keeps ft s₀ s) :
    Keeps ft s₀ (State.opAcc s n w f) := by
  delta State.opAcc
  repeat' first
      | with_reducible assumption | exact Foot.sub hp rfl | intro _ | with_reducible apply State.updCore_keeps
      | with_reducible apply h_f | dsimp only | split

theorem opMac_keeps {ft : Nat} {s₀ s : State} (n : Nat) (w : Nat) (hp : 262144 &&& ft = 262144) (h : Keeps ft s₀ s) :
    Keeps ft s₀ (opMac s n w) := by
  delta opMac
  repeat' first
      | with_reducible assumption | exact Foot.sub hp rfl | intro _ | with_reducible apply State.opAcc_keeps
      | dsimp only | split

theorem opMsu_keeps {ft : Nat} {s₀ s : State} (n : Nat) (w : Nat) (hp : 262144 &&& ft = 262144) (h : Keeps ft s₀ s) :
    Keeps ft s₀ (opMsu s n w) := by
  delta opMsu
  repeat' first
      | with_reducible assumption | exact Foot.sub hp rfl | intro _ | with_reducible apply State.opAcc_keeps
      | dsimp only | split

theorem opAccld_keeps {ft : Nat} {s₀ s : State} (n : Nat) (w : Nat) (hp : 262144 &&& ft = 262144) (h : Keeps ft s₀ s) :
    Keeps ft s₀ (opAccld s n w) := by
  delta opAccld
  repeat' first
      | with_reducible assumption | exact Foot.sub hp rfl | intro _ | with_reducible apply State.opAcc_keeps
      | dsimp only | split

theorem opAccadd_keeps {ft : Nat} {s₀ s : State} (n : Nat) (w : Nat) (hp : 262144 &&& ft = 262144)
    (h : Keeps ft s₀ s) :
    Keeps ft s₀ (opAccadd s n w) := by
  delta opAccadd
  repeat' first
      | with_reducible assumption | exact Foot.sub hp rfl | intro _ | with_reducible apply State.opAcc_keeps
      | dsimp only | split

theorem opAccrd_keeps {ft : Nat} {s₀ s : State} (n : Nat) (w : Nat) (hp : 262144 &&& ft = 262144) (h : Keeps ft s₀ s) :
    Keeps ft s₀ (opAccrd s n w) := by
  delta opAccrd
  repeat' first
      | with_reducible assumption | exact Foot.sub hp rfl | intro _ | with_reducible apply State.updCore_keeps
      | dsimp only | split

theorem State.opBranch_keeps {ft : Nat} {s₀ s : State} (n : Nat) (w : Nat) (hp : 262144 &&& ft = 262144)
    (h : Keeps ft s₀ s) :
    Keeps ft s₀ (State.opBranch s n w) := by
  delta State.opBranch
  repeat' first
      | with_reducible assumption | exact Foot.sub hp rfl | intro _ | with_reducible apply State.updCore_keeps
      | dsimp only | split

theorem opBeq_keeps {ft : Nat} {s₀ s : State} (n : Nat) (w : Nat) (hp : 262144 &&& ft = 262144) (h : Keeps ft s₀ s) :
    Keeps ft s₀ (opBeq s n w) := by
  delta opBeq
  repeat' first
      | with_reducible assumption | exact Foot.sub hp rfl | intro _ | with_reducible apply State.opBranch_keeps
      | dsimp only | split

theorem opBne_keeps {ft : Nat} {s₀ s : State} (n : Nat) (w : Nat) (hp : 262144 &&& ft = 262144) (h : Keeps ft s₀ s) :
    Keeps ft s₀ (opBne s n w) := by
  delta opBne
  repeat' first
      | with_reducible assumption | exact Foot.sub hp rfl | intro _ | with_reducible apply State.opBranch_keeps
      | dsimp only | split

theorem opBlt_keeps {ft : Nat} {s₀ s : State} (n : Nat) (w : Nat) (hp : 262144 &&& ft = 262144) (h : Keeps ft s₀ s) :
    Keeps ft s₀ (opBlt s n w) := by
  delta opBlt
  repeat' first
      | with_reducible assumption | exact Foot.sub hp rfl | intro _ | with_reducible apply State.opBranch_keeps
      | dsimp only | split

theorem opBge_keeps {ft : Nat} {s₀ s : State} (n : Nat) (w : Nat) (hp : 262144 &&& ft = 262144) (h : Keeps ft s₀ s) :
    Keeps ft s₀ (opBge s n w) := by
  delta opBge
  repeat' first
      | with_reducible assumption | exact Foot.sub hp rfl | intro _ | with_reducible apply State.opBranch_keeps
      | dsimp only | split

theorem opJ_keeps {ft : Nat} {s₀ s : State} (n : Nat) (w : Nat) (hp : 262144 &&& ft = 262144) (h : Keeps ft s₀ s) :
    Keeps ft s₀ (opJ s n w) := by
  delta opJ
  repeat' first
      | with_reducible assumption | exact Foot.sub hp rfl | intro _ | with_reducible apply State.opBranch_keeps
      | dsimp only | split

theorem State.opLink_keeps {ft : Nat} {s₀ s : State} (n : Nat) (hp : 262144 &&& ft = 262144) (h : Keeps ft s₀ s) :
    Keeps ft s₀ (State.opLink s n) := by
  delta State.opLink
  repeat' first
      | with_reducible assumption | exact Foot.sub hp rfl | intro _ | with_reducible apply State.updCore_keeps
      | dsimp only | split

theorem opCall_keeps {ft : Nat} {s₀ s : State} (n : Nat) (w : Nat) (hp : 262144 &&& ft = 262144) (h : Keeps ft s₀ s) :
    Keeps ft s₀ (opCall s n w) := by
  delta opCall
  repeat' first
      | with_reducible assumption | exact Foot.sub hp rfl | intro _ | with_reducible apply State.opLink_keeps
      | with_reducible apply State.opBranch_keeps | dsimp only | split

theorem opJr_keeps {ft : Nat} {s₀ s : State} (n : Nat) (w : Nat) (hp : 262144 &&& ft = 262144) (h : Keeps ft s₀ s) :
    Keeps ft s₀ (opJr s n w) := by
  delta opJr
  repeat' first
      | with_reducible assumption | exact Foot.sub hp rfl | intro _ | with_reducible apply State.opLink_keeps
      | with_reducible apply State.opBranch_keeps | with_reducible apply Keeps.ite | dsimp only | split

theorem opLoop_keeps {ft : Nat} {s₀ s : State} (n : Nat) (w : Nat) (hp : 262144 &&& ft = 262144) (h : Keeps ft s₀ s) :
    Keeps ft s₀ (opLoop s n w) := by
  delta opLoop
  repeat' first
      | with_reducible assumption | exact Foot.sub hp rfl | intro _ | with_reducible apply State.updCore_keeps
      | dsimp only | split

theorem opReti_keeps {ft : Nat} {s₀ s : State} (n : Nat) (x0 : Nat) (hp : 262144 &&& ft = 262144) (h : Keeps ft s₀ s) :
    Keeps ft s₀ (opReti s n x0) := by
  delta opReti
  repeat' first
      | with_reducible assumption | exact Foot.sub hp rfl | intro _ | with_reducible apply State.updCore_keeps
      | dsimp only | split

theorem opRetn_keeps {ft : Nat} {s₀ s : State} (n : Nat) (x0 : Nat) (hp : 262144 &&& ft = 262144) (h : Keeps ft s₀ s) :
    Keeps ft s₀ (opRetn s n x0) := by
  delta opRetn
  repeat' first
      | with_reducible assumption | exact Foot.sub hp rfl | intro _ | with_reducible apply State.updCore_keeps
      | dsimp only | split

theorem opWait_keeps {ft : Nat} {s₀ s : State} (n : Nat) (x0 : Nat) (hp : 262144 &&& ft = 262144) (h : Keeps ft s₀ s) :
    Keeps ft s₀ (opWait s n x0) := by
  delta opWait
  repeat' first
      | with_reducible assumption | exact Foot.sub hp rfl | intro _ | with_reducible apply State.updCore_keeps
      | dsimp only | split

theorem opIsync_keeps {ft : Nat} {s₀ s : State} (n : Nat) (x0 : Nat) (hp : 262148 &&& ft = 262148)
    (h : Keeps ft s₀ s) :
    Keeps ft s₀ (opIsync s n x0) := by
  delta opIsync
  repeat' first
      | with_reducible assumption | exact Foot.sub hp rfl | with_reducible exact id
      | with_reducible exact SMap.sorted_set _ _ _ | with_reducible exact SMap.sorted_put _ _
      | with_reducible exact SMap.sorted_del _ | with_reducible exact SMap.sorted_filter _
      | with_reducible exact Memory.wf_filter _ | with_reducible exact fun _ => SMap.sorted_nil
      | with_reducible exact fun _ => Memory.wf_nil | intro _ | with_reducible apply State.updCore_keeps
      | with_reducible apply State.withTabs_keeps | dsimp only | split

theorem opTrap_keeps {ft : Nat} {s₀ s : State} (x0 : Nat) (x1 : Nat) (h : Keeps ft s₀ s) :
    Keeps ft s₀ (opTrap s x0 x1) := by
  delta opTrap
  repeat' first | with_reducible assumption | exact Foot.sub hp rfl | intro _ | dsimp only | split

theorem opMfsr_keeps {ft : Nat} {s₀ s : State} (n : Nat) (w : Nat) (hp : 262144 &&& ft = 262144) (h : Keeps ft s₀ s) :
    Keeps ft s₀ (opMfsr s n w) := by
  delta opMfsr
  repeat' first
      | with_reducible assumption | exact Foot.sub hp rfl | intro _ | with_reducible apply State.updCore_keeps
      | dsimp only | split

theorem opMtsr_keeps {ft : Nat} {s₀ s : State} (n : Nat) (w : Nat) (hp : 262144 &&& ft = 262144) (h : Keeps ft s₀ s) :
    Keeps ft s₀ (opMtsr s n w) := by
  delta opMtsr
  repeat' first
      | with_reducible assumption | exact Foot.sub hp rfl | intro _ | with_reducible apply State.updCore_keeps
      | dsimp only | split

theorem State.mfpAny_keeps {ft : Nat} {s₀ s : State} (n : Nat) (w : Nat) (e : Ecc)
    (hp : 8590265358 &&& ft = 8590265358) (h : Keeps ft s₀ s) :
    Keeps ft s₀ (State.mfpAny s n w e) := by
  delta State.mfpAny
  repeat' first
      | with_reducible assumption | exact Foot.sub hp rfl | intro _ | with_reducible apply opNop_keeps
      | with_reducible apply opAdd_keeps | with_reducible apply opSub_keeps | with_reducible apply opAnd_keeps
      | with_reducible apply opOr_keeps | with_reducible apply opXor_keeps | with_reducible apply opSll_keeps
      | with_reducible apply opSrl_keeps | with_reducible apply opSra_keeps | with_reducible apply opSlt_keeps
      | with_reducible apply opSltu_keeps | with_reducible apply opMin_keeps | with_reducible apply opMax_keeps
      | with_reducible apply opAbs_keeps | with_reducible apply opMul_keeps | with_reducible apply opMulq_keeps
      | with_reducible apply opAddi_keeps | with_reducible apply opAndi_keeps | with_reducible apply opOri_keeps
      | with_reducible apply opXori_keeps | with_reducible apply opShi_keeps | with_reducible apply opSlti_keeps
      | with_reducible apply opLui_keeps | with_reducible apply opMaxs_keeps | with_reducible apply opMins_keeps
      | with_reducible apply opLdw_keeps | with_reducible apply opLdh_keeps | with_reducible apply opLdhu_keeps
      | with_reducible apply opLdb_keeps | with_reducible apply opLdbu_keeps | with_reducible apply opLdd_keeps
      | with_reducible apply opStw_keeps | with_reducible apply opSth_keeps | with_reducible apply opStb_keeps
      | with_reducible apply opStd_keeps | with_reducible apply opLl_keeps | with_reducible apply opSc_keeps
      | with_reducible apply opFence_keeps | with_reducible apply opClrres_keeps | with_reducible apply opMac_keeps
      | with_reducible apply opMsu_keeps | with_reducible apply opAccld_keeps | with_reducible apply opAccadd_keeps
      | with_reducible apply opAccrd_keeps | with_reducible apply opBeq_keeps | with_reducible apply opBne_keeps
      | with_reducible apply opBlt_keeps | with_reducible apply opBge_keeps | with_reducible apply opJ_keeps
      | with_reducible apply opCall_keeps | with_reducible apply opJr_keeps | with_reducible apply opLoop_keeps
      | with_reducible apply opReti_keeps | with_reducible apply opRetn_keeps | with_reducible apply opWait_keeps
      | with_reducible apply opIsync_keeps | with_reducible apply opTrap_keeps | with_reducible apply opMfsr_keeps
      | with_reducible apply opMtsr_keeps | dsimp only | split

theorem execInterruptEntry_keeps {ft : Nat} {s₀ s : State} (m : MfpId) (e : BundleEcc) (hp : 330754 &&& ft = 330754)
    (h : Keeps ft s₀ s) :
    KeepsOut ft s₀ (execInterruptEntry m e s) := by
  delta execInterruptEntry
  repeat' first
      | with_reducible assumption | exact Foot.sub hp rfl | intro _ | with_reducible apply State.stepEnd_keeps
      | with_reducible apply State.mfpException_keeps | with_reducible apply State.mfpImprecise_keeps
      | with_reducible apply State.updCore_keeps | with_reducible apply Keeps.ite
      | with_reducible apply KeepsOut.done | with_reducible apply KeepsOut.next | exact trivial | dsimp only | split

theorem execMfpAbs_keeps {ft : Nat} {s₀ s : State} (m : MfpId) (e : BundleEcc) (hp : 8590265346 &&& ft = 8590265346)
    (h : Keeps ft s₀ s) :
    KeepsOut ft s₀ (execMfpAbs m e s) := by
  delta execMfpAbs
  repeat' first
      | with_reducible assumption | exact Foot.sub hp rfl | intro _ | with_reducible apply State.mfpSlot_keeps
      | with_reducible apply opAbs_keeps | with_reducible apply KeepsOut.done | with_reducible apply KeepsOut.next
      | exact trivial | dsimp only | split

theorem execMfpAccadd_keeps {ft : Nat} {s₀ s : State} (m : MfpId) (e : BundleEcc)
    (hp : 8590265346 &&& ft = 8590265346) (h : Keeps ft s₀ s) :
    KeepsOut ft s₀ (execMfpAccadd m e s) := by
  delta execMfpAccadd
  repeat' first
      | with_reducible assumption | exact Foot.sub hp rfl | intro _ | with_reducible apply State.mfpSlot_keeps
      | with_reducible apply opAccadd_keeps | with_reducible apply KeepsOut.done | with_reducible apply KeepsOut.next
      | exact trivial | dsimp only | split

theorem execMfpAccld_keeps {ft : Nat} {s₀ s : State} (m : MfpId) (e : BundleEcc) (hp : 8590265346 &&& ft = 8590265346)
    (h : Keeps ft s₀ s) :
    KeepsOut ft s₀ (execMfpAccld m e s) := by
  delta execMfpAccld
  repeat' first
      | with_reducible assumption | exact Foot.sub hp rfl | intro _ | with_reducible apply State.mfpSlot_keeps
      | with_reducible apply opAccld_keeps | with_reducible apply KeepsOut.done | with_reducible apply KeepsOut.next
      | exact trivial | dsimp only | split

theorem execMfpAccrd_keeps {ft : Nat} {s₀ s : State} (m : MfpId) (e : BundleEcc) (hp : 8590265346 &&& ft = 8590265346)
    (h : Keeps ft s₀ s) :
    KeepsOut ft s₀ (execMfpAccrd m e s) := by
  delta execMfpAccrd
  repeat' first
      | with_reducible assumption | exact Foot.sub hp rfl | intro _ | with_reducible apply State.mfpSlot_keeps
      | with_reducible apply opAccrd_keeps | with_reducible apply KeepsOut.done | with_reducible apply KeepsOut.next
      | exact trivial | dsimp only | split

theorem execMfpAdd_keeps {ft : Nat} {s₀ s : State} (m : MfpId) (e : BundleEcc) (hp : 8590265346 &&& ft = 8590265346)
    (h : Keeps ft s₀ s) :
    KeepsOut ft s₀ (execMfpAdd m e s) := by
  delta execMfpAdd
  repeat' first
      | with_reducible assumption | exact Foot.sub hp rfl | intro _ | with_reducible apply State.mfpSlot_keeps
      | with_reducible apply opAdd_keeps | with_reducible apply KeepsOut.done | with_reducible apply KeepsOut.next
      | exact trivial | dsimp only | split

theorem execMfpAddi_keeps {ft : Nat} {s₀ s : State} (m : MfpId) (e : BundleEcc) (hp : 8590265346 &&& ft = 8590265346)
    (h : Keeps ft s₀ s) :
    KeepsOut ft s₀ (execMfpAddi m e s) := by
  delta execMfpAddi
  repeat' first
      | with_reducible assumption | exact Foot.sub hp rfl | intro _ | with_reducible apply State.mfpSlot_keeps
      | with_reducible apply opAddi_keeps | with_reducible apply KeepsOut.done | with_reducible apply KeepsOut.next
      | exact trivial | dsimp only | split

theorem execMfpAnd_keeps {ft : Nat} {s₀ s : State} (m : MfpId) (e : BundleEcc) (hp : 8590265346 &&& ft = 8590265346)
    (h : Keeps ft s₀ s) :
    KeepsOut ft s₀ (execMfpAnd m e s) := by
  delta execMfpAnd
  repeat' first
      | with_reducible assumption | exact Foot.sub hp rfl | intro _ | with_reducible apply State.mfpSlot_keeps
      | with_reducible apply opAnd_keeps | with_reducible apply KeepsOut.done | with_reducible apply KeepsOut.next
      | exact trivial | dsimp only | split

theorem execMfpAndi_keeps {ft : Nat} {s₀ s : State} (m : MfpId) (e : BundleEcc) (hp : 8590265346 &&& ft = 8590265346)
    (h : Keeps ft s₀ s) :
    KeepsOut ft s₀ (execMfpAndi m e s) := by
  delta execMfpAndi
  repeat' first
      | with_reducible assumption | exact Foot.sub hp rfl | intro _ | with_reducible apply State.mfpSlot_keeps
      | with_reducible apply opAndi_keeps | with_reducible apply KeepsOut.done | with_reducible apply KeepsOut.next
      | exact trivial | dsimp only | split

theorem execMfpBeq_keeps {ft : Nat} {s₀ s : State} (m : MfpId) (e : BundleEcc) (hp : 8590265346 &&& ft = 8590265346)
    (h : Keeps ft s₀ s) :
    KeepsOut ft s₀ (execMfpBeq m e s) := by
  delta execMfpBeq
  repeat' first
      | with_reducible assumption | exact Foot.sub hp rfl | intro _ | with_reducible apply State.mfpSlot_keeps
      | with_reducible apply opBeq_keeps | with_reducible apply KeepsOut.done | with_reducible apply KeepsOut.next
      | exact trivial | dsimp only | split

theorem execMfpBge_keeps {ft : Nat} {s₀ s : State} (m : MfpId) (e : BundleEcc) (hp : 8590265346 &&& ft = 8590265346)
    (h : Keeps ft s₀ s) :
    KeepsOut ft s₀ (execMfpBge m e s) := by
  delta execMfpBge
  repeat' first
      | with_reducible assumption | exact Foot.sub hp rfl | intro _ | with_reducible apply State.mfpSlot_keeps
      | with_reducible apply opBge_keeps | with_reducible apply KeepsOut.done | with_reducible apply KeepsOut.next
      | exact trivial | dsimp only | split

theorem execMfpBlt_keeps {ft : Nat} {s₀ s : State} (m : MfpId) (e : BundleEcc) (hp : 8590265346 &&& ft = 8590265346)
    (h : Keeps ft s₀ s) :
    KeepsOut ft s₀ (execMfpBlt m e s) := by
  delta execMfpBlt
  repeat' first
      | with_reducible assumption | exact Foot.sub hp rfl | intro _ | with_reducible apply State.mfpSlot_keeps
      | with_reducible apply opBlt_keeps | with_reducible apply KeepsOut.done | with_reducible apply KeepsOut.next
      | exact trivial | dsimp only | split

theorem execMfpBne_keeps {ft : Nat} {s₀ s : State} (m : MfpId) (e : BundleEcc) (hp : 8590265346 &&& ft = 8590265346)
    (h : Keeps ft s₀ s) :
    KeepsOut ft s₀ (execMfpBne m e s) := by
  delta execMfpBne
  repeat' first
      | with_reducible assumption | exact Foot.sub hp rfl | intro _ | with_reducible apply State.mfpSlot_keeps
      | with_reducible apply opBne_keeps | with_reducible apply KeepsOut.done | with_reducible apply KeepsOut.next
      | exact trivial | dsimp only | split

theorem execMfpCall_keeps {ft : Nat} {s₀ s : State} (m : MfpId) (e : BundleEcc) (hp : 8590265346 &&& ft = 8590265346)
    (h : Keeps ft s₀ s) :
    KeepsOut ft s₀ (execMfpCall m e s) := by
  delta execMfpCall
  repeat' first
      | with_reducible assumption | exact Foot.sub hp rfl | intro _ | with_reducible apply State.mfpSlot_keeps
      | with_reducible apply opCall_keeps | with_reducible apply KeepsOut.done | with_reducible apply KeepsOut.next
      | exact trivial | dsimp only | split

theorem execMfpClrres_keeps {ft : Nat} {s₀ s : State} (m : MfpId) (e : BundleEcc)
    (hp : 8590265346 &&& ft = 8590265346) (h : Keeps ft s₀ s) :
    KeepsOut ft s₀ (execMfpClrres m e s) := by
  delta execMfpClrres
  repeat' first
      | with_reducible assumption | exact Foot.sub hp rfl | intro _ | with_reducible apply State.mfpSlot_keeps
      | with_reducible apply opClrres_keeps | with_reducible apply KeepsOut.done | with_reducible apply KeepsOut.next
      | exact trivial | dsimp only | split

theorem execMfpFence_keeps {ft : Nat} {s₀ s : State} (m : MfpId) (e : BundleEcc) (hp : 8590265346 &&& ft = 8590265346)
    (h : Keeps ft s₀ s) :
    KeepsOut ft s₀ (execMfpFence m e s) := by
  delta execMfpFence
  repeat' first
      | with_reducible assumption | exact Foot.sub hp rfl | intro _ | with_reducible apply State.mfpSlot_keeps
      | with_reducible apply opFence_keeps | with_reducible apply KeepsOut.done | with_reducible apply KeepsOut.next
      | exact trivial | dsimp only | split

theorem execMfpIsync_keeps {ft : Nat} {s₀ s : State} (m : MfpId) (e : BundleEcc) (hp : 8590265350 &&& ft = 8590265350)
    (h : Keeps ft s₀ s) :
    KeepsOut ft s₀ (execMfpIsync m e s) := by
  delta execMfpIsync
  repeat' first
      | with_reducible assumption | exact Foot.sub hp rfl | intro _ | with_reducible apply State.mfpSlot_keeps
      | with_reducible apply opIsync_keeps | with_reducible apply KeepsOut.done | with_reducible apply KeepsOut.next
      | exact trivial | dsimp only | split

theorem execMfpJ_keeps {ft : Nat} {s₀ s : State} (m : MfpId) (e : BundleEcc) (hp : 8590265346 &&& ft = 8590265346)
    (h : Keeps ft s₀ s) :
    KeepsOut ft s₀ (execMfpJ m e s) := by
  delta execMfpJ
  repeat' first
      | with_reducible assumption | exact Foot.sub hp rfl | intro _ | with_reducible apply State.mfpSlot_keeps
      | with_reducible apply opJ_keeps | with_reducible apply KeepsOut.done | with_reducible apply KeepsOut.next
      | exact trivial | dsimp only | split

theorem execMfpJr_keeps {ft : Nat} {s₀ s : State} (m : MfpId) (e : BundleEcc) (hp : 8590265346 &&& ft = 8590265346)
    (h : Keeps ft s₀ s) :
    KeepsOut ft s₀ (execMfpJr m e s) := by
  delta execMfpJr
  repeat' first
      | with_reducible assumption | exact Foot.sub hp rfl | intro _ | with_reducible apply State.mfpSlot_keeps
      | with_reducible apply opJr_keeps | with_reducible apply KeepsOut.done | with_reducible apply KeepsOut.next
      | exact trivial | dsimp only | split

theorem execMfpLdb_keeps {ft : Nat} {s₀ s : State} (m : MfpId) (e : BundleEcc) (hp : 8590265346 &&& ft = 8590265346)
    (h : Keeps ft s₀ s) :
    KeepsOut ft s₀ (execMfpLdb m e s) := by
  delta execMfpLdb
  repeat' first
      | with_reducible assumption | exact Foot.sub hp rfl | intro _ | with_reducible apply State.mfpSlot_keeps
      | with_reducible apply opLdb_keeps | with_reducible apply KeepsOut.done | with_reducible apply KeepsOut.next
      | exact trivial | dsimp only | split

theorem execMfpLdbu_keeps {ft : Nat} {s₀ s : State} (m : MfpId) (e : BundleEcc) (hp : 8590265346 &&& ft = 8590265346)
    (h : Keeps ft s₀ s) :
    KeepsOut ft s₀ (execMfpLdbu m e s) := by
  delta execMfpLdbu
  repeat' first
      | with_reducible assumption | exact Foot.sub hp rfl | intro _ | with_reducible apply State.mfpSlot_keeps
      | with_reducible apply opLdbu_keeps | with_reducible apply KeepsOut.done | with_reducible apply KeepsOut.next
      | exact trivial | dsimp only | split

theorem execMfpLdd_keeps {ft : Nat} {s₀ s : State} (m : MfpId) (e : BundleEcc) (hp : 8590265346 &&& ft = 8590265346)
    (h : Keeps ft s₀ s) :
    KeepsOut ft s₀ (execMfpLdd m e s) := by
  delta execMfpLdd
  repeat' first
      | with_reducible assumption | exact Foot.sub hp rfl | intro _ | with_reducible apply State.mfpSlot_keeps
      | with_reducible apply opLdd_keeps | with_reducible apply KeepsOut.done | with_reducible apply KeepsOut.next
      | exact trivial | dsimp only | split

theorem execMfpLdh_keeps {ft : Nat} {s₀ s : State} (m : MfpId) (e : BundleEcc) (hp : 8590265346 &&& ft = 8590265346)
    (h : Keeps ft s₀ s) :
    KeepsOut ft s₀ (execMfpLdh m e s) := by
  delta execMfpLdh
  repeat' first
      | with_reducible assumption | exact Foot.sub hp rfl | intro _ | with_reducible apply State.mfpSlot_keeps
      | with_reducible apply opLdh_keeps | with_reducible apply KeepsOut.done | with_reducible apply KeepsOut.next
      | exact trivial | dsimp only | split

theorem execMfpLdhu_keeps {ft : Nat} {s₀ s : State} (m : MfpId) (e : BundleEcc) (hp : 8590265346 &&& ft = 8590265346)
    (h : Keeps ft s₀ s) :
    KeepsOut ft s₀ (execMfpLdhu m e s) := by
  delta execMfpLdhu
  repeat' first
      | with_reducible assumption | exact Foot.sub hp rfl | intro _ | with_reducible apply State.mfpSlot_keeps
      | with_reducible apply opLdhu_keeps | with_reducible apply KeepsOut.done | with_reducible apply KeepsOut.next
      | exact trivial | dsimp only | split

theorem execMfpLdw_keeps {ft : Nat} {s₀ s : State} (m : MfpId) (e : BundleEcc) (hp : 8590265346 &&& ft = 8590265346)
    (h : Keeps ft s₀ s) :
    KeepsOut ft s₀ (execMfpLdw m e s) := by
  delta execMfpLdw
  repeat' first
      | with_reducible assumption | exact Foot.sub hp rfl | intro _ | with_reducible apply State.mfpSlot_keeps
      | with_reducible apply opLdw_keeps | with_reducible apply KeepsOut.done | with_reducible apply KeepsOut.next
      | exact trivial | dsimp only | split

theorem execMfpLl_keeps {ft : Nat} {s₀ s : State} (m : MfpId) (e : BundleEcc) (hp : 8590265346 &&& ft = 8590265346)
    (h : Keeps ft s₀ s) :
    KeepsOut ft s₀ (execMfpLl m e s) := by
  delta execMfpLl
  repeat' first
      | with_reducible assumption | exact Foot.sub hp rfl | intro _ | with_reducible apply State.mfpSlot_keeps
      | with_reducible apply opLl_keeps | with_reducible apply KeepsOut.done | with_reducible apply KeepsOut.next
      | exact trivial | dsimp only | split

theorem execMfpLoop_keeps {ft : Nat} {s₀ s : State} (m : MfpId) (e : BundleEcc) (hp : 8590265346 &&& ft = 8590265346)
    (h : Keeps ft s₀ s) :
    KeepsOut ft s₀ (execMfpLoop m e s) := by
  delta execMfpLoop
  repeat' first
      | with_reducible assumption | exact Foot.sub hp rfl | intro _ | with_reducible apply State.mfpSlot_keeps
      | with_reducible apply opLoop_keeps | with_reducible apply KeepsOut.done | with_reducible apply KeepsOut.next
      | exact trivial | dsimp only | split

theorem execMfpLui_keeps {ft : Nat} {s₀ s : State} (m : MfpId) (e : BundleEcc) (hp : 8590265346 &&& ft = 8590265346)
    (h : Keeps ft s₀ s) :
    KeepsOut ft s₀ (execMfpLui m e s) := by
  delta execMfpLui
  repeat' first
      | with_reducible assumption | exact Foot.sub hp rfl | intro _ | with_reducible apply State.mfpSlot_keeps
      | with_reducible apply opLui_keeps | with_reducible apply KeepsOut.done | with_reducible apply KeepsOut.next
      | exact trivial | dsimp only | split

theorem execMfpMac_keeps {ft : Nat} {s₀ s : State} (m : MfpId) (e : BundleEcc) (hp : 8590265346 &&& ft = 8590265346)
    (h : Keeps ft s₀ s) :
    KeepsOut ft s₀ (execMfpMac m e s) := by
  delta execMfpMac
  repeat' first
      | with_reducible assumption | exact Foot.sub hp rfl | intro _ | with_reducible apply State.mfpSlot_keeps
      | with_reducible apply opMac_keeps | with_reducible apply KeepsOut.done | with_reducible apply KeepsOut.next
      | exact trivial | dsimp only | split

theorem execMfpMax_keeps {ft : Nat} {s₀ s : State} (m : MfpId) (e : BundleEcc) (hp : 8590265346 &&& ft = 8590265346)
    (h : Keeps ft s₀ s) :
    KeepsOut ft s₀ (execMfpMax m e s) := by
  delta execMfpMax
  repeat' first
      | with_reducible assumption | exact Foot.sub hp rfl | intro _ | with_reducible apply State.mfpSlot_keeps
      | with_reducible apply opMax_keeps | with_reducible apply KeepsOut.done | with_reducible apply KeepsOut.next
      | exact trivial | dsimp only | split

theorem execMfpMaxs_keeps {ft : Nat} {s₀ s : State} (m : MfpId) (e : BundleEcc) (hp : 8590265346 &&& ft = 8590265346)
    (h : Keeps ft s₀ s) :
    KeepsOut ft s₀ (execMfpMaxs m e s) := by
  delta execMfpMaxs
  repeat' first
      | with_reducible assumption | exact Foot.sub hp rfl | intro _ | with_reducible apply State.mfpSlot_keeps
      | with_reducible apply opMaxs_keeps | with_reducible apply KeepsOut.done | with_reducible apply KeepsOut.next
      | exact trivial | dsimp only | split

theorem execMfpMfsr_keeps {ft : Nat} {s₀ s : State} (m : MfpId) (e : BundleEcc) (hp : 8590265346 &&& ft = 8590265346)
    (h : Keeps ft s₀ s) :
    KeepsOut ft s₀ (execMfpMfsr m e s) := by
  delta execMfpMfsr
  repeat' first
      | with_reducible assumption | exact Foot.sub hp rfl | intro _ | with_reducible apply State.mfpSlot_keeps
      | with_reducible apply opMfsr_keeps | with_reducible apply KeepsOut.done | with_reducible apply KeepsOut.next
      | exact trivial | dsimp only | split

theorem execMfpMin_keeps {ft : Nat} {s₀ s : State} (m : MfpId) (e : BundleEcc) (hp : 8590265346 &&& ft = 8590265346)
    (h : Keeps ft s₀ s) :
    KeepsOut ft s₀ (execMfpMin m e s) := by
  delta execMfpMin
  repeat' first
      | with_reducible assumption | exact Foot.sub hp rfl | intro _ | with_reducible apply State.mfpSlot_keeps
      | with_reducible apply opMin_keeps | with_reducible apply KeepsOut.done | with_reducible apply KeepsOut.next
      | exact trivial | dsimp only | split

theorem execMfpMins_keeps {ft : Nat} {s₀ s : State} (m : MfpId) (e : BundleEcc) (hp : 8590265346 &&& ft = 8590265346)
    (h : Keeps ft s₀ s) :
    KeepsOut ft s₀ (execMfpMins m e s) := by
  delta execMfpMins
  repeat' first
      | with_reducible assumption | exact Foot.sub hp rfl | intro _ | with_reducible apply State.mfpSlot_keeps
      | with_reducible apply opMins_keeps | with_reducible apply KeepsOut.done | with_reducible apply KeepsOut.next
      | exact trivial | dsimp only | split

theorem execMfpMsu_keeps {ft : Nat} {s₀ s : State} (m : MfpId) (e : BundleEcc) (hp : 8590265346 &&& ft = 8590265346)
    (h : Keeps ft s₀ s) :
    KeepsOut ft s₀ (execMfpMsu m e s) := by
  delta execMfpMsu
  repeat' first
      | with_reducible assumption | exact Foot.sub hp rfl | intro _ | with_reducible apply State.mfpSlot_keeps
      | with_reducible apply opMsu_keeps | with_reducible apply KeepsOut.done | with_reducible apply KeepsOut.next
      | exact trivial | dsimp only | split

theorem execMfpMtsr_keeps {ft : Nat} {s₀ s : State} (m : MfpId) (e : BundleEcc) (hp : 8590265346 &&& ft = 8590265346)
    (h : Keeps ft s₀ s) :
    KeepsOut ft s₀ (execMfpMtsr m e s) := by
  delta execMfpMtsr
  repeat' first
      | with_reducible assumption | exact Foot.sub hp rfl | intro _ | with_reducible apply State.mfpSlot_keeps
      | with_reducible apply opMtsr_keeps | with_reducible apply KeepsOut.done | with_reducible apply KeepsOut.next
      | exact trivial | dsimp only | split

theorem execMfpMul_keeps {ft : Nat} {s₀ s : State} (m : MfpId) (e : BundleEcc) (hp : 8590265346 &&& ft = 8590265346)
    (h : Keeps ft s₀ s) :
    KeepsOut ft s₀ (execMfpMul m e s) := by
  delta execMfpMul
  repeat' first
      | with_reducible assumption | exact Foot.sub hp rfl | intro _ | with_reducible apply State.mfpSlot_keeps
      | with_reducible apply opMul_keeps | with_reducible apply KeepsOut.done | with_reducible apply KeepsOut.next
      | exact trivial | dsimp only | split

theorem execMfpMulq_keeps {ft : Nat} {s₀ s : State} (m : MfpId) (e : BundleEcc) (hp : 8590265346 &&& ft = 8590265346)
    (h : Keeps ft s₀ s) :
    KeepsOut ft s₀ (execMfpMulq m e s) := by
  delta execMfpMulq
  repeat' first
      | with_reducible assumption | exact Foot.sub hp rfl | intro _ | with_reducible apply State.mfpSlot_keeps
      | with_reducible apply opMulq_keeps | with_reducible apply KeepsOut.done | with_reducible apply KeepsOut.next
      | exact trivial | dsimp only | split

theorem execMfpNop_keeps {ft : Nat} {s₀ s : State} (m : MfpId) (e : BundleEcc) (hp : 8590265346 &&& ft = 8590265346)
    (h : Keeps ft s₀ s) :
    KeepsOut ft s₀ (execMfpNop m e s) := by
  delta execMfpNop
  repeat' first
      | with_reducible assumption | exact Foot.sub hp rfl | intro _ | with_reducible apply State.mfpSlot_keeps
      | with_reducible apply opNop_keeps | with_reducible apply KeepsOut.done | with_reducible apply KeepsOut.next
      | exact trivial | dsimp only | split

theorem execMfpOr_keeps {ft : Nat} {s₀ s : State} (m : MfpId) (e : BundleEcc) (hp : 8590265346 &&& ft = 8590265346)
    (h : Keeps ft s₀ s) :
    KeepsOut ft s₀ (execMfpOr m e s) := by
  delta execMfpOr
  repeat' first
      | with_reducible assumption | exact Foot.sub hp rfl | intro _ | with_reducible apply State.mfpSlot_keeps
      | with_reducible apply opOr_keeps | with_reducible apply KeepsOut.done | with_reducible apply KeepsOut.next
      | exact trivial | dsimp only | split

theorem execMfpOri_keeps {ft : Nat} {s₀ s : State} (m : MfpId) (e : BundleEcc) (hp : 8590265346 &&& ft = 8590265346)
    (h : Keeps ft s₀ s) :
    KeepsOut ft s₀ (execMfpOri m e s) := by
  delta execMfpOri
  repeat' first
      | with_reducible assumption | exact Foot.sub hp rfl | intro _ | with_reducible apply State.mfpSlot_keeps
      | with_reducible apply opOri_keeps | with_reducible apply KeepsOut.done | with_reducible apply KeepsOut.next
      | exact trivial | dsimp only | split

theorem execMfpReti_keeps {ft : Nat} {s₀ s : State} (m : MfpId) (e : BundleEcc) (hp : 8590265346 &&& ft = 8590265346)
    (h : Keeps ft s₀ s) :
    KeepsOut ft s₀ (execMfpReti m e s) := by
  delta execMfpReti
  repeat' first
      | with_reducible assumption | exact Foot.sub hp rfl | intro _ | with_reducible apply State.mfpSlot_keeps
      | with_reducible apply opReti_keeps | with_reducible apply KeepsOut.done | with_reducible apply KeepsOut.next
      | exact trivial | dsimp only | split

theorem execMfpRetn_keeps {ft : Nat} {s₀ s : State} (m : MfpId) (e : BundleEcc) (hp : 8590265346 &&& ft = 8590265346)
    (h : Keeps ft s₀ s) :
    KeepsOut ft s₀ (execMfpRetn m e s) := by
  delta execMfpRetn
  repeat' first
      | with_reducible assumption | exact Foot.sub hp rfl | intro _ | with_reducible apply State.mfpSlot_keeps
      | with_reducible apply opRetn_keeps | with_reducible apply KeepsOut.done | with_reducible apply KeepsOut.next
      | exact trivial | dsimp only | split

theorem execMfpSc_keeps {ft : Nat} {s₀ s : State} (m : MfpId) (e : BundleEcc) (hp : 8590265358 &&& ft = 8590265358)
    (h : Keeps ft s₀ s) :
    KeepsOut ft s₀ (execMfpSc m e s) := by
  delta execMfpSc
  repeat' first
      | with_reducible assumption | exact Foot.sub hp rfl | intro _ | with_reducible apply State.mfpSlot_keeps
      | with_reducible apply opSc_keeps | with_reducible apply KeepsOut.done | with_reducible apply KeepsOut.next
      | exact trivial | dsimp only | split

theorem execMfpShi_keeps {ft : Nat} {s₀ s : State} (m : MfpId) (e : BundleEcc) (hp : 8590265346 &&& ft = 8590265346)
    (h : Keeps ft s₀ s) :
    KeepsOut ft s₀ (execMfpShi m e s) := by
  delta execMfpShi
  repeat' first
      | with_reducible assumption | exact Foot.sub hp rfl | intro _ | with_reducible apply State.mfpSlot_keeps
      | with_reducible apply opShi_keeps | with_reducible apply KeepsOut.done | with_reducible apply KeepsOut.next
      | exact trivial | dsimp only | split

theorem execMfpSll_keeps {ft : Nat} {s₀ s : State} (m : MfpId) (e : BundleEcc) (hp : 8590265346 &&& ft = 8590265346)
    (h : Keeps ft s₀ s) :
    KeepsOut ft s₀ (execMfpSll m e s) := by
  delta execMfpSll
  repeat' first
      | with_reducible assumption | exact Foot.sub hp rfl | intro _ | with_reducible apply State.mfpSlot_keeps
      | with_reducible apply opSll_keeps | with_reducible apply KeepsOut.done | with_reducible apply KeepsOut.next
      | exact trivial | dsimp only | split

theorem execMfpSlt_keeps {ft : Nat} {s₀ s : State} (m : MfpId) (e : BundleEcc) (hp : 8590265346 &&& ft = 8590265346)
    (h : Keeps ft s₀ s) :
    KeepsOut ft s₀ (execMfpSlt m e s) := by
  delta execMfpSlt
  repeat' first
      | with_reducible assumption | exact Foot.sub hp rfl | intro _ | with_reducible apply State.mfpSlot_keeps
      | with_reducible apply opSlt_keeps | with_reducible apply KeepsOut.done | with_reducible apply KeepsOut.next
      | exact trivial | dsimp only | split

theorem execMfpSlti_keeps {ft : Nat} {s₀ s : State} (m : MfpId) (e : BundleEcc) (hp : 8590265346 &&& ft = 8590265346)
    (h : Keeps ft s₀ s) :
    KeepsOut ft s₀ (execMfpSlti m e s) := by
  delta execMfpSlti
  repeat' first
      | with_reducible assumption | exact Foot.sub hp rfl | intro _ | with_reducible apply State.mfpSlot_keeps
      | with_reducible apply opSlti_keeps | with_reducible apply KeepsOut.done | with_reducible apply KeepsOut.next
      | exact trivial | dsimp only | split

theorem execMfpSltu_keeps {ft : Nat} {s₀ s : State} (m : MfpId) (e : BundleEcc) (hp : 8590265346 &&& ft = 8590265346)
    (h : Keeps ft s₀ s) :
    KeepsOut ft s₀ (execMfpSltu m e s) := by
  delta execMfpSltu
  repeat' first
      | with_reducible assumption | exact Foot.sub hp rfl | intro _ | with_reducible apply State.mfpSlot_keeps
      | with_reducible apply opSltu_keeps | with_reducible apply KeepsOut.done | with_reducible apply KeepsOut.next
      | exact trivial | dsimp only | split

theorem execMfpSra_keeps {ft : Nat} {s₀ s : State} (m : MfpId) (e : BundleEcc) (hp : 8590265346 &&& ft = 8590265346)
    (h : Keeps ft s₀ s) :
    KeepsOut ft s₀ (execMfpSra m e s) := by
  delta execMfpSra
  repeat' first
      | with_reducible assumption | exact Foot.sub hp rfl | intro _ | with_reducible apply State.mfpSlot_keeps
      | with_reducible apply opSra_keeps | with_reducible apply KeepsOut.done | with_reducible apply KeepsOut.next
      | exact trivial | dsimp only | split

theorem execMfpSrl_keeps {ft : Nat} {s₀ s : State} (m : MfpId) (e : BundleEcc) (hp : 8590265346 &&& ft = 8590265346)
    (h : Keeps ft s₀ s) :
    KeepsOut ft s₀ (execMfpSrl m e s) := by
  delta execMfpSrl
  repeat' first
      | with_reducible assumption | exact Foot.sub hp rfl | intro _ | with_reducible apply State.mfpSlot_keeps
      | with_reducible apply opSrl_keeps | with_reducible apply KeepsOut.done | with_reducible apply KeepsOut.next
      | exact trivial | dsimp only | split

theorem execMfpStb_keeps {ft : Nat} {s₀ s : State} (m : MfpId) (e : BundleEcc) (hp : 8590265358 &&& ft = 8590265358)
    (h : Keeps ft s₀ s) :
    KeepsOut ft s₀ (execMfpStb m e s) := by
  delta execMfpStb
  repeat' first
      | with_reducible assumption | exact Foot.sub hp rfl | intro _ | with_reducible apply State.mfpSlot_keeps
      | with_reducible apply opStb_keeps | with_reducible apply KeepsOut.done | with_reducible apply KeepsOut.next
      | exact trivial | dsimp only | split

theorem execMfpStd_keeps {ft : Nat} {s₀ s : State} (m : MfpId) (e : BundleEcc) (hp : 8590265358 &&& ft = 8590265358)
    (h : Keeps ft s₀ s) :
    KeepsOut ft s₀ (execMfpStd m e s) := by
  delta execMfpStd
  repeat' first
      | with_reducible assumption | exact Foot.sub hp rfl | intro _ | with_reducible apply State.mfpSlot_keeps
      | with_reducible apply opStd_keeps | with_reducible apply KeepsOut.done | with_reducible apply KeepsOut.next
      | exact trivial | dsimp only | split

theorem execMfpSth_keeps {ft : Nat} {s₀ s : State} (m : MfpId) (e : BundleEcc) (hp : 8590265358 &&& ft = 8590265358)
    (h : Keeps ft s₀ s) :
    KeepsOut ft s₀ (execMfpSth m e s) := by
  delta execMfpSth
  repeat' first
      | with_reducible assumption | exact Foot.sub hp rfl | intro _ | with_reducible apply State.mfpSlot_keeps
      | with_reducible apply opSth_keeps | with_reducible apply KeepsOut.done | with_reducible apply KeepsOut.next
      | exact trivial | dsimp only | split

theorem execMfpStw_keeps {ft : Nat} {s₀ s : State} (m : MfpId) (e : BundleEcc) (hp : 8590265358 &&& ft = 8590265358)
    (h : Keeps ft s₀ s) :
    KeepsOut ft s₀ (execMfpStw m e s) := by
  delta execMfpStw
  repeat' first
      | with_reducible assumption | exact Foot.sub hp rfl | intro _ | with_reducible apply State.mfpSlot_keeps
      | with_reducible apply opStw_keeps | with_reducible apply KeepsOut.done | with_reducible apply KeepsOut.next
      | exact trivial | dsimp only | split

theorem execMfpSub_keeps {ft : Nat} {s₀ s : State} (m : MfpId) (e : BundleEcc) (hp : 8590265346 &&& ft = 8590265346)
    (h : Keeps ft s₀ s) :
    KeepsOut ft s₀ (execMfpSub m e s) := by
  delta execMfpSub
  repeat' first
      | with_reducible assumption | exact Foot.sub hp rfl | intro _ | with_reducible apply State.mfpSlot_keeps
      | with_reducible apply opSub_keeps | with_reducible apply KeepsOut.done | with_reducible apply KeepsOut.next
      | exact trivial | dsimp only | split

theorem execMfpTrap_keeps {ft : Nat} {s₀ s : State} (m : MfpId) (e : BundleEcc) (hp : 8590265346 &&& ft = 8590265346)
    (h : Keeps ft s₀ s) :
    KeepsOut ft s₀ (execMfpTrap m e s) := by
  delta execMfpTrap
  repeat' first
      | with_reducible assumption | exact Foot.sub hp rfl | intro _ | with_reducible apply State.mfpSlot_keeps
      | with_reducible apply opTrap_keeps | with_reducible apply KeepsOut.done | with_reducible apply KeepsOut.next
      | exact trivial | dsimp only | split

theorem execMfpWait_keeps {ft : Nat} {s₀ s : State} (m : MfpId) (e : BundleEcc) (hp : 8590265346 &&& ft = 8590265346)
    (h : Keeps ft s₀ s) :
    KeepsOut ft s₀ (execMfpWait m e s) := by
  delta execMfpWait
  repeat' first
      | with_reducible assumption | exact Foot.sub hp rfl | intro _ | with_reducible apply State.mfpSlot_keeps
      | with_reducible apply opWait_keeps | with_reducible apply KeepsOut.done | with_reducible apply KeepsOut.next
      | exact trivial | dsimp only | split

theorem execMfpWaitEnd_keeps {ft : Nat} {s₀ s : State} (m : MfpId) (hp : 262144 &&& ft = 262144) (h : Keeps ft s₀ s) :
    KeepsOut ft s₀ (execMfpWaitEnd m s) := by
  delta execMfpWaitEnd
  repeat' first
      | with_reducible assumption | exact Foot.sub hp rfl | intro _ | with_reducible apply State.updCore_keeps
      | with_reducible apply Keeps.ite | with_reducible apply KeepsOut.done | with_reducible apply KeepsOut.next
      | exact trivial | dsimp only | split

theorem execMfpXor_keeps {ft : Nat} {s₀ s : State} (m : MfpId) (e : BundleEcc) (hp : 8590265346 &&& ft = 8590265346)
    (h : Keeps ft s₀ s) :
    KeepsOut ft s₀ (execMfpXor m e s) := by
  delta execMfpXor
  repeat' first
      | with_reducible assumption | exact Foot.sub hp rfl | intro _ | with_reducible apply State.mfpSlot_keeps
      | with_reducible apply opXor_keeps | with_reducible apply KeepsOut.done | with_reducible apply KeepsOut.next
      | exact trivial | dsimp only | split

theorem execMfpXori_keeps {ft : Nat} {s₀ s : State} (m : MfpId) (e : BundleEcc) (hp : 8590265346 &&& ft = 8590265346)
    (h : Keeps ft s₀ s) :
    KeepsOut ft s₀ (execMfpXori m e s) := by
  delta execMfpXori
  repeat' first
      | with_reducible assumption | exact Foot.sub hp rfl | intro _ | with_reducible apply State.mfpSlot_keeps
      | with_reducible apply opXori_keeps | with_reducible apply KeepsOut.done | with_reducible apply KeepsOut.next
      | exact trivial | dsimp only | split

theorem execNmiEntry_keeps {ft : Nat} {s₀ s : State} (m : MfpId) (hp : 262144 &&& ft = 262144) (h : Keeps ft s₀ s) :
    KeepsOut ft s₀ (execNmiEntry m s) := by
  delta execNmiEntry
  repeat' first
      | with_reducible assumption | exact Foot.sub hp rfl | intro _ | with_reducible apply State.updCore_keeps
      | with_reducible apply Keeps.ite | with_reducible apply KeepsOut.done | with_reducible apply KeepsOut.next
      | exact trivial | dsimp only | split

theorem execReservationTimeout_keeps {ft : Nat} {s₀ s : State} (m : MfpId) (hp : 262144 &&& ft = 262144)
    (h : Keeps ft s₀ s) :
    KeepsOut ft s₀ (execReservationTimeout m s) := by
  delta execReservationTimeout
  repeat' first
      | with_reducible assumption | exact Foot.sub hp rfl | intro _ | with_reducible apply State.updCore_keeps
      | with_reducible apply Keeps.ite | with_reducible apply KeepsOut.done | with_reducible apply KeepsOut.next
      | exact trivial | dsimp only | split
end Sys2Proof.Machine
end

