-- ==== Sys2Proof/Laws/KeepsAdc.lean ====
section
/-! SUPPORT. Once for each: what the operations of Machine/Adc.lean keep: the parts of the
state they may change, and that the canonical form of the state survives them. -/

namespace Sys2Proof.Machine

theorem State.adcEntry_keeps {ft : Nat} {s₀ s : State} (m : Nat) (e : Nat) (hp : 2 &&& ft = 2) (h : Keeps ft s₀ s) :
    Keeps ft s₀ (State.adcEntry s m e) := by
  delta State.adcEntry
  repeat' first
      | with_reducible assumption | exact Foot.sub hp rfl | intro _ | with_reducible apply State.wr_keeps
      | dsimp only | split

theorem State.adcAdvance_keeps {ft : Nat} {s₀ s : State} (m : Nat) (hp : 2 &&& ft = 2) (h : Keeps ft s₀ s) :
    Keeps ft s₀ (State.adcAdvance s m) := by
  delta State.adcAdvance
  repeat' first
      | with_reducible assumption | exact Foot.sub hp rfl | intro _ | with_reducible apply State.wr_keeps
      | with_reducible apply State.adcEntry_keeps | with_reducible apply State.inc_keeps
      | with_reducible apply State.setFlag_keeps | with_reducible apply Keeps.ite | dsimp only | split

theorem State.setAdcQ_keeps {ft : Nat} {s₀ s : State} (m : Nat) (q : List Nat) (hp : 524288 &&& ft = 524288)
    (h : Keeps ft s₀ s) :
    Keeps ft s₀ (State.setAdcQ s m q) := by
  delta State.setAdcQ
  repeat' first
      | with_reducible assumption | exact Foot.sub hp rfl | with_reducible exact id
      | with_reducible exact SMap.sorted_set _ _ _ | with_reducible exact SMap.sorted_put _ _
      | with_reducible exact SMap.sorted_del _ | with_reducible exact SMap.sorted_filter _
      | with_reducible exact Memory.wf_filter _ | with_reducible exact fun _ => SMap.sorted_nil
      | with_reducible exact fun _ => Memory.wf_nil | intro _ | with_reducible apply State.withAdcFifo_keeps
      | dsimp only | split

theorem State.adcDrain_keeps {ft : Nat} {s₀ s : State} (m : Nat) (q : List Nat) (hp : 786442 &&& ft = 786442)
    (h : Keeps ft s₀ s) : Keeps ft s₀ (State.adcDrain s m q) := by
  induction q generalizing s with
  | nil => exact State.setAdcQ_keeps _ _ (Foot.sub hp rfl) h
  | cons v q ih =>
    unfold State.adcDrain
    exact Keeps.ite (ih (State.inc_keeps _ (Foot.sub hp rfl) (State.dmemPort_keeps _ _ _ (Foot.sub hp rfl) h)))
      (State.setAdcQ_keeps _ _ (Foot.sub hp rfl) h)

theorem State.adcSettle_keeps {ft : Nat} {s₀ s : State} (m : Nat) (hp : 786442 &&& ft = 786442) (h : Keeps ft s₀ s) :
    Keeps ft s₀ (State.adcSettle s m) := by
  delta State.adcSettle
  repeat' first
      | with_reducible assumption | exact Foot.sub hp rfl | intro _ | with_reducible apply State.adcDrain_keeps
      | with_reducible apply State.setFlag_keeps | with_reducible apply Keeps.ite | dsimp only | split

theorem State.adcBegin_keeps {ft : Nat} {s₀ s : State} (m : Nat) (hp : 786442 &&& ft = 786442) (h : Keeps ft s₀ s) :
    Keeps ft s₀ (State.adcBegin s m) := by
  delta State.adcBegin
  repeat' first
      | with_reducible assumption | exact Foot.sub hp rfl | intro _ | with_reducible apply State.setFlag_keeps
      | with_reducible apply State.wr_keeps | with_reducible apply State.adcSettle_keeps
      | with_reducible apply State.adcEntry_keeps | dsimp only | split

theorem State.adcCalEnd_keeps {ft : Nat} {s₀ s : State} (m : Nat) (ofs0 : BitVec 16) (gain0 : BitVec 16)
    (ofs1 : BitVec 16) (gain1 : BitVec 16) (hp : 2 &&& ft = 2) (h : Keeps ft s₀ s) :
    Keeps ft s₀ (State.adcCalEnd s m ofs0 gain0 ofs1 gain1) := by
  delta State.adcCalEnd
  repeat' first
      | with_reducible assumption | exact Foot.sub hp rfl | intro _ | with_reducible apply State.setFlag_keeps
      | with_reducible apply State.wr_keeps | with_reducible apply Keeps.ite | dsimp only | split

theorem State.adcStart_keeps {ft : Nat} {s₀ s : State} (m : Nat) (hp : 786442 &&& ft = 786442) (h : Keeps ft s₀ s) :
    Keeps ft s₀ (State.adcStart s m) := by
  delta State.adcStart
  repeat' first
      | with_reducible assumption | exact Foot.sub hp rfl | intro _ | with_reducible apply State.setFlag_keeps
      | with_reducible apply State.adcBegin_keeps | with_reducible apply Keeps.ite | dsimp only | split

theorem State.adcGstart_keeps {ft : Nat} {s₀ s : State} (mask : Nat) (hp : 786442 &&& ft = 786442)
    (h : Keeps ft s₀ s) :
    Keeps ft s₀ (State.adcGstart s mask) := by
  delta State.adcGstart
  repeat' first
      | with_reducible assumption | exact Foot.sub hp rfl | intro _ | with_reducible apply State.forUpTo_keeps
      | with_reducible apply State.adcStart_keeps | with_reducible apply Keeps.ite | dsimp only | split

theorem State.urgAdvance_keeps {ft : Nat} {s₀ s : State} (m : Nat) (hp : 786442 &&& ft = 786442) (h : Keeps ft s₀ s) :
    Keeps ft s₀ (State.urgAdvance s m) := by
  delta State.urgAdvance
  repeat' first
      | with_reducible assumption | exact Foot.sub hp rfl | intro _ | with_reducible apply State.wr_keeps
      | with_reducible apply State.setFlag_keeps | with_reducible apply State.adcBegin_keeps
      | with_reducible apply Keeps.ite | dsimp only | split

theorem State.adcPush_keeps {ft : Nat} {s₀ s : State} (m : Nat) (v : Nat) (hp : 524290 &&& ft = 524290)
    (h : Keeps ft s₀ s) :
    Keeps ft s₀ (State.adcPush s m v) := by
  delta State.adcPush
  repeat' first
      | with_reducible assumption | exact Foot.sub hp rfl | intro _ | with_reducible apply State.setAdcQ_keeps
      | with_reducible apply State.setFlag_keeps | dsimp only | split

theorem State.adcOutput_keeps {ft : Nat} {s₀ s : State} (m : Nat) (raws : List (BitVec 14)) (settle : Bool)
    (nref : Bool) (hp : 786442 &&& ft = 786442) (h : Keeps ft s₀ s) :
    Keeps ft s₀ (State.adcOutput s m raws settle nref) := by
  delta State.adcOutput
  repeat' first
      | with_reducible assumption | exact Foot.sub hp rfl | intro _ | with_reducible apply State.wr_keeps
      | with_reducible apply State.adcSettle_keeps | with_reducible apply State.urgAdvance_keeps
      | with_reducible apply State.adcPush_keeps | with_reducible apply State.adcAdvance_keeps
      | with_reducible apply State.setFlag_keeps | with_reducible apply Keeps.ite | dsimp only | split

theorem State.adcPortTake_keeps {ft : Nat} {s₀ s : State} (m : Nat) (hp : 786442 &&& ft = 786442) (h : Keeps ft s₀ s) :
    Keeps ft s₀ (State.adcPortTake s m) := by
  delta State.adcPortTake
  repeat' first
      | with_reducible assumption | exact Foot.sub hp rfl | intro _ | with_reducible apply State.adcSettle_keeps
      | with_reducible apply State.setAdcQ_keeps | with_reducible apply Keeps.ite | dsimp only | split

theorem State.adcPortRead_keeps {ft : Nat} {s₀ s : State} (m : Nat) (who : Master) (hp : 786442 &&& ft = 786442)
    (h : Keeps ft s₀ s) :
    Keeps ft s₀ (State.adcPortRead s m who).1 := by
  delta State.adcPortRead
  repeat' first
      | with_reducible assumption | exact Foot.sub hp rfl | intro _ | with_reducible apply State.adcPortTake_keeps
      | with_reducible apply Keeps.ite | dsimp only | split

theorem State.adcStop_keeps {ft : Nat} {s₀ s : State} (m : Nat) (hp : 786442 &&& ft = 786442) (h : Keeps ft s₀ s) :
    Keeps ft s₀ (State.adcStop s m) := by
  delta State.adcStop
  repeat' first
      | with_reducible assumption | exact Foot.sub hp rfl | intro _ | with_reducible apply State.adcSettle_keeps
      | with_reducible apply State.setFlag_keeps | dsimp only | split

theorem State.adcTick_keeps {ft : Nat} {s₀ s : State} (m : Nat) (hp : 786442 &&& ft = 786442) (h : Keeps ft s₀ s) :
    Keeps ft s₀ (State.adcTick s m) := by
  delta State.adcTick
  repeat' first
      | with_reducible assumption | exact Foot.sub hp rfl | intro _ | with_reducible apply State.adcSettle_keeps
      | with_reducible apply Keeps.ite | dsimp only | split

theorem State.calGo_keeps {ft : Nat} {s₀ s : State} (m : Nat) (hp : 2 &&& ft = 2) (h : Keeps ft s₀ s) :
    Keeps ft s₀ (State.calGo s m) := by
  delta State.calGo
  repeat' first
      | with_reducible assumption | exact Foot.sub hp rfl | intro _ | with_reducible apply State.wr_keeps
      | with_reducible apply State.setFlag_keeps | with_reducible apply Keeps.ite | dsimp only | split

theorem State.setRefRdy_keeps {ft : Nat} {s₀ s : State} (t : Nat) (b : Bool) (hp : 2 &&& ft = 2) (h : Keeps ft s₀ s) :
    Keeps ft s₀ (State.setRefRdy s t b) := by
  delta State.setRefRdy
  repeat' first
      | with_reducible assumption | exact Foot.sub hp rfl | intro _ | with_reducible apply State.forUpTo_keeps
      | with_reducible apply State.setFlag_keeps | with_reducible apply State.setBit_keeps
      | with_reducible apply Keeps.ite | dsimp only | split

theorem State.urgGo_keeps {ft : Nat} {s₀ s : State} (m : Nat) (hp : 786442 &&& ft = 786442) (h : Keeps ft s₀ s) :
    Keeps ft s₀ (State.urgGo s m) := by
  delta State.urgGo
  repeat' first
      | with_reducible assumption | exact Foot.sub hp rfl | intro _ | with_reducible apply State.wr_keeps
      | with_reducible apply State.setFlag_keeps | with_reducible apply State.adcSettle_keeps
      | with_reducible apply Keeps.ite | dsimp only | split

theorem State.writeAdcRefEn_keeps {ft : Nat} {s₀ s : State} (t : Nat) (on : Bool) (hp : 2 &&& ft = 2)
    (h : Keeps ft s₀ s) :
    Keeps ft s₀ (State.writeAdcRefEn s t on) := by
  delta State.writeAdcRefEn
  repeat' first
      | with_reducible assumption | exact Foot.sub hp rfl | intro _ | with_reducible apply State.setFlag_keeps
      | with_reducible apply State.setRefRdy_keeps | with_reducible apply Keeps.ite | dsimp only | split

theorem State.writeStrRd_keeps {ft : Nat} {s₀ s : State} (m : Nat) (v : Nat) (hp : 786442 &&& ft = 786442)
    (h : Keeps ft s₀ s) :
    Keeps ft s₀ (State.writeStrRd s m v) := by
  delta State.writeStrRd
  repeat' first
      | with_reducible assumption | exact Foot.sub hp rfl | intro _ | with_reducible apply State.adcSettle_keeps
      | with_reducible apply State.wr_keeps | with_reducible apply Keeps.ite | dsimp only | split

theorem execAdcCalEnd_keeps {ft : Nat} {s₀ s : State} (a : AdcId) (ofs0 : BitVec 16) (gain0 : BitVec 16)
    (ofs1 : BitVec 16) (gain1 : BitVec 16) (hp : 2 &&& ft = 2) (h : Keeps ft s₀ s) :
    KeepsOut ft s₀ (execAdcCalEnd a ofs0 gain0 ofs1 gain1 s) := by
  delta execAdcCalEnd
  repeat' first
      | with_reducible assumption | exact Foot.sub hp rfl | intro _ | with_reducible apply State.adcCalEnd_keeps
      | with_reducible apply KeepsOut.done | with_reducible apply KeepsOut.next | exact trivial | dsimp only | split

theorem execAdcGstart_keeps {ft : Nat} {s₀ s : State} (mask : BitVec 16) (hp : 17180655626 &&& ft = 17180655626)
    (h : Keeps ft s₀ s) :
    KeepsOut ft s₀ (execAdcGstart mask s) := by
  delta execAdcGstart
  repeat' first
      | with_reducible assumption | exact Foot.sub hp rfl | intro _ | with_reducible apply State.reach_keeps
      | with_reducible apply State.adcGstart_keeps | with_reducible apply KeepsOut.done
      | with_reducible apply KeepsOut.next | exact trivial | dsimp only | split

theorem execAdcOutput_keeps {ft : Nat} {s₀ s : State} (a : AdcId) (raws : List (BitVec 14)) (settle : Bool)
    (nref : Bool) (hp : 786442 &&& ft = 786442) (h : Keeps ft s₀ s) :
    KeepsOut ft s₀ (execAdcOutput a raws settle nref s) := by
  delta execAdcOutput
  repeat' first
      | with_reducible assumption | exact Foot.sub hp rfl | intro _ | with_reducible apply State.adcOutput_keeps
      | with_reducible apply KeepsOut.done | with_reducible apply KeepsOut.next | exact trivial | dsimp only | split

theorem execAdcPortRead_keeps {ft : Nat} {s₀ s : State} (a : AdcId) (m : Master)
    (hp : 17180655626 &&& ft = 17180655626) (h : Keeps ft s₀ s) :
    KeepsOut ft s₀ (execAdcPortRead a m s) := by
  delta execAdcPortRead
  repeat' first
      | with_reducible assumption | exact Foot.sub hp rfl | intro _ | with_reducible apply State.reach_keeps
      | with_reducible apply State.adcPortRead_keeps | with_reducible apply State.answer_keeps
      | with_reducible apply KeepsOut.done | with_reducible apply KeepsOut.next | exact trivial
      | with_reducible refine Keeps.of_fst (by assumption) ?_ | dsimp only | split

theorem execAdcStart_keeps {ft : Nat} {s₀ s : State} (a : AdcId) (hp : 17180655626 &&& ft = 17180655626)
    (h : Keeps ft s₀ s) :
    KeepsOut ft s₀ (execAdcStart a s) := by
  delta execAdcStart
  repeat' first
      | with_reducible assumption | exact Foot.sub hp rfl | intro _ | with_reducible apply State.reach_keeps
      | with_reducible apply State.adcStart_keeps | with_reducible apply KeepsOut.done
      | with_reducible apply KeepsOut.next | exact trivial | dsimp only | split

theorem execAdcStop_keeps {ft : Nat} {s₀ s : State} (a : AdcId) (hp : 17180655626 &&& ft = 17180655626)
    (h : Keeps ft s₀ s) :
    KeepsOut ft s₀ (execAdcStop a s) := by
  delta execAdcStop
  repeat' first
      | with_reducible assumption | exact Foot.sub hp rfl | intro _ | with_reducible apply State.reach_keeps
      | with_reducible apply State.adcStop_keeps | with_reducible apply KeepsOut.done
      | with_reducible apply KeepsOut.next | exact trivial | dsimp only | split

theorem execAdcStrRd_keeps {ft : Nat} {s₀ s : State} (a : AdcId) (v : Word) (hp : 17180655626 &&& ft = 17180655626)
    (h : Keeps ft s₀ s) :
    KeepsOut ft s₀ (execAdcStrRd a v s) := by
  delta execAdcStrRd
  repeat' first
      | with_reducible assumption | exact Foot.sub hp rfl | intro _ | with_reducible apply State.reach_keeps
      | with_reducible apply State.writeStrRd_keeps | with_reducible apply KeepsOut.done
      | with_reducible apply KeepsOut.next | exact trivial | dsimp only | split

theorem execCalGo_keeps {ft : Nat} {s₀ s : State} (a : AdcId) (hp : 17179869186 &&& ft = 17179869186)
    (h : Keeps ft s₀ s) :
    KeepsOut ft s₀ (execCalGo a s) := by
  delta execCalGo
  repeat' first
      | with_reducible assumption | exact Foot.sub hp rfl | intro _ | with_reducible apply State.reach_keeps
      | with_reducible apply State.calGo_keeps | with_reducible apply KeepsOut.done
      | with_reducible apply KeepsOut.next | exact trivial | dsimp only | split

theorem execRefReady_keeps {ft : Nat} {s₀ s : State} (t : Tile) (hp : 2 &&& ft = 2) (h : Keeps ft s₀ s) :
    KeepsOut ft s₀ (execRefReady t s) := by
  delta execRefReady
  repeat' first
      | with_reducible assumption | exact Foot.sub hp rfl | intro _ | with_reducible apply State.setRefRdy_keeps
      | with_reducible apply Keeps.ite | with_reducible apply KeepsOut.done | with_reducible apply KeepsOut.next
      | exact trivial | dsimp only | split

theorem execUrgGo_keeps {ft : Nat} {s₀ s : State} (a : AdcId) (hp : 17180655626 &&& ft = 17180655626)
    (h : Keeps ft s₀ s) :
    KeepsOut ft s₀ (execUrgGo a s) := by
  delta execUrgGo
  repeat' first
      | with_reducible assumption | exact Foot.sub hp rfl | intro _ | with_reducible apply State.reach_keeps
      | with_reducible apply State.urgGo_keeps | with_reducible apply KeepsOut.done
      | with_reducible apply KeepsOut.next | exact trivial | dsimp only | split
end Sys2Proof.Machine
end

