-- ==== Sys2Proof/Laws/KeepsCanvas.lean ====
section
/-! SUPPORT. Once for each: what the operations of Machine/Canvas.lean keep: the parts of the
state they may change, and that the canonical form of the state survives them. -/

namespace Sys2Proof.Machine

theorem State.fabricWrite_keeps {ft : Nat} {s₀ s : State} (r : Nat) (f : Nat) (v : Nat) (hp : 8 &&& ft = 8)
    (h : Keeps ft s₀ s) :
    Keeps ft s₀ (State.fabricWrite s r f v) := by
  delta State.fabricWrite
  repeat' first
      | with_reducible assumption | exact Foot.sub hp rfl | intro _ | with_reducible apply State.setBytes_keeps
      | dsimp only | split

theorem State.copyStaged_keeps {ft : Nat} {s₀ s : State} (b : Nat) (x0 : List (Nat × Nat)) (hp : 8 &&& ft = 8)
    (h : Keeps ft s₀ s) :
    KeepsOpt ft s₀ (State.copyStaged s b x0) := by
  induction x0 generalizing s b with
  | nil => first | exact h | trivial
  | cons a r ih =>
    unfold State.copyStaged
    repeat' first
        | with_reducible assumption | exact Foot.sub hp rfl | intro _ | with_reducible apply ih
        | with_reducible apply State.fabricWrite_keeps | with_reducible apply KeepsOpt.some | exact KeepsOpt.none
        | dsimp only | split

theorem State.engageForLoad_keeps {ft : Nat} {s₀ s : State} (b : Nat) (hp : 2 &&& ft = 2) (h : Keeps ft s₀ s) :
    Keeps ft s₀ (State.engageForLoad s b) := by
  delta State.engageForLoad
  repeat' first
      | with_reducible assumption | exact Foot.sub hp rfl | intro _ | with_reducible apply State.wr_keeps
      | with_reducible apply State.setFlag_keeps | dsimp only | split

theorem State.goldWrite_keeps {ft : Nat} {s₀ s : State} (r : Nat) (yh : Nat) (f : Nat) (v : Nat)
    (hp : 77309411342 &&& ft = 77309411342) (h : Keeps ft s₀ s) :
    KeepsOpt ft s₀ (State.goldWrite s r yh f v) := by
  delta State.goldWrite
  repeat' first
      | with_reducible assumption | exact Foot.sub hp rfl | intro _ | with_reducible apply State.allocWrite_keeps
      | with_reducible apply Keeps.ite | with_reducible apply KeepsOpt.some | exact KeepsOpt.none | dsimp only
      | split

theorem State.icfpReset_keeps {ft : Nat} {s₀ s : State}  (hp : 6 &&& ft = 6) (h : Keeps ft s₀ s) :
    Keeps ft s₀ (State.icfpReset s) := by
  delta State.icfpReset
  repeat' first
      | with_reducible assumption | exact Foot.sub hp rfl | with_reducible exact id
      | with_reducible exact SMap.sorted_set _ _ _ | with_reducible exact SMap.sorted_put _ _
      | with_reducible exact SMap.sorted_del _ | with_reducible exact SMap.sorted_filter _
      | with_reducible exact Memory.wf_filter _ | with_reducible exact fun _ => SMap.sorted_nil
      | with_reducible exact fun _ => Memory.wf_nil | intro _ | with_reducible apply State.wr_keeps
      | with_reducible apply State.setFlag_keeps | with_reducible apply State.withTabs_keeps | dsimp only | split

theorem State.icfpCapture_keeps {ft : Nat} {s₀ s : State} (cause : Nat) (region : Nat) (hp : 2 &&& ft = 2)
    (h : Keeps ft s₀ s) :
    Keeps ft s₀ (State.icfpCapture s cause region) := by
  delta State.icfpCapture
  repeat' first
      | with_reducible assumption | exact Foot.sub hp rfl | intro _ | with_reducible apply State.wr_keeps
      | with_reducible apply State.setFlag_keeps | with_reducible apply Keeps.ite | dsimp only | split

theorem State.icfpFail_keeps {ft : Nat} {s₀ s : State} (cause : Nat) (hp : 6 &&& ft = 6) (h : Keeps ft s₀ s) :
    Keeps ft s₀ (State.icfpFail s cause) := by
  delta State.icfpFail
  repeat' first
      | with_reducible assumption | exact Foot.sub hp rfl | intro _ | with_reducible apply State.wr_keeps
      | with_reducible apply State.icfpReset_keeps | with_reducible apply State.icfpCapture_keeps
      | with_reducible apply Keeps.ite | dsimp only | split

theorem State.icfpAbort_keeps {ft : Nat} {s₀ s : State}  (hp : 6 &&& ft = 6) (h : Keeps ft s₀ s) :
    Keeps ft s₀ (State.icfpAbort s) := by
  delta State.icfpAbort
  repeat' first
      | with_reducible assumption | exact Foot.sub hp rfl | intro _ | with_reducible apply State.icfpFail_keeps
      | with_reducible apply Keeps.ite | dsimp only | split

theorem State.icfpMalformed_keeps {ft : Nat} {s₀ s : State}  (hp : 6 &&& ft = 6) (h : Keeps ft s₀ s) :
    Keeps ft s₀ (State.icfpMalformed s) := by
  delta State.icfpMalformed
  repeat' first
      | with_reducible assumption | exact Foot.sub hp rfl | intro _ | with_reducible apply State.icfpFail_keeps
      | with_reducible apply State.wr_keeps | with_reducible apply Keeps.ite | dsimp only | split

theorem State.icfpNextRecord_keeps {ft : Nat} {s₀ s : State} (n : Nat) (hp : 2 &&& ft = 2) (h : Keeps ft s₀ s) :
    Keeps ft s₀ (State.icfpNextRecord s n) := by
  delta State.icfpNextRecord
  repeat' first
      | with_reducible assumption | exact Foot.sub hp rfl | intro _ | with_reducible apply State.wr_keeps
      | with_reducible apply Keeps.ite | dsimp only | split

theorem State.icfpRefuse_keeps {ft : Nat} {s₀ s : State} (cause : Nat) (hp : 2 &&& ft = 2) (h : Keeps ft s₀ s) :
    Keeps ft s₀ (State.icfpRefuse s cause) := by
  delta State.icfpRefuse
  repeat' first
      | with_reducible assumption | exact Foot.sub hp rfl | intro _ | with_reducible apply State.wr_keeps
      | with_reducible apply Keeps.ite | dsimp only | split

theorem State.loadingBay_keeps {ft : Nat} {s₀ s : State}  (hp : 2 &&& ft = 2) (h : Keeps ft s₀ s) :
    Keeps ft s₀ (State.loadingBay s) := by
  delta State.loadingBay
  repeat' first
      | with_reducible assumption | exact Foot.sub hp rfl | intro _ | with_reducible apply State.engageForLoad_keeps
      | with_reducible apply Keeps.ite | dsimp only | split

theorem State.icfpStage_keeps {ft : Nat} {s₀ s : State} (b : Nat) (f : Nat) (v : Nat)
    (hp : 77309411342 &&& ft = 77309411342) (h : Keeps ft s₀ s) :
    Keeps ft s₀ (State.icfpStage s b f v) := by
  delta State.icfpStage
  repeat' first
      | with_reducible assumption | exact Foot.sub hp rfl | intro _ | with_reducible apply State.goldWrite_keeps
      | with_reducible apply State.icfpFail_keeps | with_reducible apply State.setTab_keeps
      | with_reducible refine Keeps.of_some (by assumption) ?_ | dsimp only | split

theorem State.icfpDirect_keeps {ft : Nat} {s₀ s : State} (b : Nat) (f : Nat) (v : Nat)
    (hp : 77309411342 &&& ft = 77309411342) (h : Keeps ft s₀ s) :
    Keeps ft s₀ (State.icfpDirect s b f v) := by
  delta State.icfpDirect
  repeat' first
      | with_reducible assumption | exact Foot.sub hp rfl | intro _ | with_reducible apply State.fabricWrite_keeps
      | with_reducible apply State.loadingBay_keeps | with_reducible apply State.goldWrite_keeps
      | with_reducible apply State.icfpRefuse_keeps | with_reducible refine Keeps.of_some (by assumption) ?_
      | dsimp only | split

theorem State.icfpFrame_keeps {ft : Nat} {s₀ s : State} (a : Nat) (v : Nat) (hp : 77309411342 &&& ft = 77309411342)
    (h : Keeps ft s₀ s) :
    Keeps ft s₀ (State.icfpFrame s a v) := by
  delta State.icfpFrame
  repeat' first
      | with_reducible assumption | exact Foot.sub hp rfl | intro _ | with_reducible apply State.icfpFail_keeps
      | with_reducible apply State.icfpRefuse_keeps | with_reducible apply State.loadingBay_keeps
      | with_reducible apply State.icfpStage_keeps | with_reducible apply State.icfpDirect_keeps | dsimp only | split

theorem State.icfpRecord_keeps {ft : Nat} {s₀ s : State} (n : Nat) (hp : 77309411342 &&& ft = 77309411342)
    (h : Keeps ft s₀ s) :
    Keeps ft s₀ (State.icfpRecord s n) := by
  delta State.icfpRecord
  repeat' first
      | with_reducible assumption | exact Foot.sub hp rfl | intro _ | with_reducible apply State.icfpMalformed_keeps
      | with_reducible apply State.wr_keeps | with_reducible apply State.icfpNextRecord_keeps
      | with_reducible apply State.icfpFrame_keeps | with_reducible apply Keeps.ite | dsimp only | split

theorem State.icfpSegEnd_keeps {ft : Nat} {s₀ s : State} (i : Nat) (hp : 6 &&& ft = 6) (h : Keeps ft s₀ s) :
    Keeps ft s₀ (State.icfpSegEnd s i) := by
  delta State.icfpSegEnd
  repeat' first
      | with_reducible assumption | exact Foot.sub hp rfl | intro _ | with_reducible apply State.icfpFail_keeps
      | with_reducible apply State.wr_keeps | with_reducible apply Keeps.ite | dsimp only | split

theorem State.icfpData_keeps {ft : Nat} {s₀ s : State} (w : Nat) (hp : 77309411342 &&& ft = 77309411342)
    (h : Keeps ft s₀ s) :
    Keeps ft s₀ (State.icfpData s w) := by
  delta State.icfpData
  repeat' first
      | with_reducible assumption | exact Foot.sub hp rfl | intro _ | with_reducible apply State.inc_keeps
      | with_reducible apply State.setTab_keeps | with_reducible apply State.icfpRecord_keeps
      | with_reducible apply State.icfpSegEnd_keeps | with_reducible apply Keeps.ite | dsimp only | split

theorem State.icfpHeader_keeps {ft : Nat} {s₀ s : State}  (hp : 6 &&& ft = 6) (h : Keeps ft s₀ s) :
    Keeps ft s₀ (State.icfpHeader s) := by
  delta State.icfpHeader
  repeat' first
      | with_reducible assumption | exact Foot.sub hp rfl | intro _ | with_reducible apply State.icfpFail_keeps
      | with_reducible apply Keeps.ite | dsimp only | split

theorem State.icfpLoaded_keeps {ft : Nat} {s₀ s : State}  (hp : 8589934598 &&& ft = 8589934598) (h : Keeps ft s₀ s) :
    Keeps ft s₀ (State.icfpLoaded s) := by
  delta State.icfpLoaded
  repeat' first
      | with_reducible assumption | exact Foot.sub hp rfl | intro _ | with_reducible apply State.loadingBay_keeps
      | with_reducible apply State.setFlag_keeps | with_reducible apply State.pulse_keeps
      | with_reducible apply State.wr_keeps | with_reducible apply State.icfpReset_keeps | dsimp only | split

theorem State.icfpRel_keeps {ft : Nat} {s₀ s : State}  (hp : 2 &&& ft = 2) (h : Keeps ft s₀ s) :
    Keeps ft s₀ (State.icfpRel s) := by
  delta State.icfpRel
  repeat' first
      | with_reducible assumption | exact Foot.sub hp rfl | intro _ | with_reducible apply State.wr_keeps
      | with_reducible apply State.setFlag_keeps | dsimp only | split

theorem State.icfpSigLow_keeps {ft : Nat} {s₀ s : State}  (hp : 2 &&& ft = 2) (h : Keeps ft s₀ s) :
    Keeps ft s₀ (State.icfpSigLow s) := by
  delta State.icfpSigLow
  repeat' first
      | with_reducible assumption | exact Foot.sub hp rfl | intro _ | with_reducible apply State.wr_keeps
      | dsimp only | split

theorem State.icfpStart_keeps {ft : Nat} {s₀ s : State} (w : Nat) (hp : 6 &&& ft = 6) (h : Keeps ft s₀ s) :
    Keeps ft s₀ (State.icfpStart s w) := by
  delta State.icfpStart
  repeat' first
      | with_reducible assumption | exact Foot.sub hp rfl | intro _ | with_reducible apply State.icfpCapture_keeps
      | with_reducible apply State.setTab_keeps | with_reducible apply State.wr_keeps
      | with_reducible apply State.setFlag_keeps | with_reducible apply State.icfpReset_keeps
      | with_reducible apply Keeps.ite | dsimp only | split

theorem State.icfpTake_keeps {ft : Nat} {s₀ s : State} (w : Nat) (hp : 77309411342 &&& ft = 77309411342)
    (h : Keeps ft s₀ s) :
    Keeps ft s₀ (State.icfpTake s w) := by
  delta State.icfpTake
  repeat' first
      | with_reducible assumption | exact Foot.sub hp rfl | intro _ | with_reducible apply State.icfpData_keeps
      | with_reducible apply State.wr_keeps | with_reducible apply State.setTab_keeps
      | with_reducible apply State.icfpHeader_keeps | with_reducible apply Keeps.ite | dsimp only | split

theorem State.injRel_keeps {ft : Nat} {s₀ s : State}  (hp : 2 &&& ft = 2) (h : Keeps ft s₀ s) :
    Keeps ft s₀ (State.injRel s) := by
  delta State.injRel
  repeat' first
      | with_reducible assumption | exact Foot.sub hp rfl | intro _ | with_reducible apply State.wr_keeps
      | with_reducible apply State.setFlag_keeps | dsimp only | split

theorem State.openBay_keeps {ft : Nat} {s₀ s : State} (b : Nat) (hp : 2 &&& ft = 2) (h : Keeps ft s₀ s) :
    Keeps ft s₀ (State.openBay s b) := by
  delta State.openBay
  repeat' first
      | with_reducible assumption | exact Foot.sub hp rfl | intro _ | with_reducible apply State.setFlag_keeps
      | with_reducible apply Keeps.ite | dsimp only | split

theorem State.ringTick_keeps {ft : Nat} {s₀ s : State} (b : Nat) (hp : 2 &&& ft = 2) (h : Keeps ft s₀ s) :
    Keeps ft s₀ (State.ringTick s b) := by
  delta State.ringTick
  repeat' first
      | with_reducible assumption | exact Foot.sub hp rfl | intro _ | with_reducible apply State.setFlag_keeps
      | dsimp only | split

theorem State.upsetCapture_keeps {ft : Nat} {s₀ s : State} (a : Nat) (kind : Nat) (hp : 2 &&& ft = 2)
    (h : Keeps ft s₀ s) :
    Keeps ft s₀ (State.upsetCapture s a kind) := by
  delta State.upsetCapture
  repeat' first
      | with_reducible assumption | exact Foot.sub hp rfl | intro _ | with_reducible apply State.wr_keeps
      | with_reducible apply State.setFlag_keeps | with_reducible apply Keeps.ite | dsimp only | split

theorem State.scrubMulti_keeps {ft : Nat} {s₀ s : State} (a : Nat) (r : Nat) (f : Nat)
    (hp : 8589934602 &&& ft = 8589934602) (h : Keeps ft s₀ s) :
    Keeps ft s₀ (State.scrubMulti s a r f) := by
  delta State.scrubMulti
  repeat' first
      | with_reducible assumption | exact Foot.sub hp rfl | intro _ | with_reducible apply State.pulse_keeps
      | with_reducible apply State.upsetCapture_keeps | with_reducible apply State.incSat_keeps
      | with_reducible apply State.fabricWrite_keeps | with_reducible apply State.wr_keeps
      | with_reducible apply State.engageForLoad_keeps | with_reducible apply Keeps.ite | dsimp only | split

theorem State.scrubDo_keeps {ft : Nat} {s₀ s : State} (a : Nat) (r : Nat) (f : Nat) (x0 : ScrubResult)
    (hp : 8589934602 &&& ft = 8589934602) (h : Keeps ft s₀ s) :
    Keeps ft s₀ (State.scrubDo s a r f x0) := by
  delta State.scrubDo
  repeat' first
      | with_reducible assumption | exact Foot.sub hp rfl | intro _ | with_reducible apply State.pulse_keeps
      | with_reducible apply State.incSat_keeps | with_reducible apply State.scrubMulti_keeps | dsimp only | split

theorem State.scrubGoOn_keeps {ft : Nat} {s₀ s : State} (p : Nat) (hp : 2 &&& ft = 2) (h : Keeps ft s₀ s) :
    Keeps ft s₀ (State.scrubGoOn s p) := by
  delta State.scrubGoOn
  repeat' first
      | with_reducible assumption | exact Foot.sub hp rfl | intro _ | with_reducible apply State.wr_keeps
      | with_reducible apply State.inc_keeps | with_reducible apply Keeps.ite | dsimp only | split

theorem State.scrubFrame_keeps {ft : Nat} {s₀ s : State} (a : Nat) (x : ScrubResult)
    (hp : 8589934602 &&& ft = 8589934602) (h : Keeps ft s₀ s) :
    Keeps ft s₀ (State.scrubFrame s a x) := by
  delta State.scrubFrame
  repeat' first
      | with_reducible assumption | exact Foot.sub hp rfl | intro _ | with_reducible apply State.scrubGoOn_keeps
      | with_reducible apply State.scrubDo_keeps | with_reducible apply Keeps.ite | dsimp only | split

theorem State.upsetRel_keeps {ft : Nat} {s₀ s : State}  (hp : 2 &&& ft = 2) (h : Keeps ft s₀ s) :
    Keeps ft s₀ (State.upsetRel s) := by
  delta State.upsetRel
  repeat' first
      | with_reducible assumption | exact Foot.sub hp rfl | intro _ | with_reducible apply State.wr_keeps
      | with_reducible apply State.setFlag_keeps | dsimp only | split

theorem State.writePort_keeps {ft : Nat} {s₀ s : State} (c : Nat) (v : Nat) (hp : 34 &&& ft = 34) (h : Keeps ft s₀ s) :
    Keeps ft s₀ (State.writePort s c v) := by
  delta State.writePort
  repeat' first
      | with_reducible assumption | exact Foot.sub hp rfl | intro _ | with_reducible apply State.wr_keeps
      | with_reducible apply State.setFlag_keeps | with_reducible apply State.injsrcApply_keeps
      | with_reducible apply Keeps.ite | dsimp only | split

theorem execBayRst_keeps {ft : Nat} {s₀ s : State} (b : Bay) (on : Bool) (hp : 17179869186 &&& ft = 17179869186)
    (h : Keeps ft s₀ s) :
    KeepsOut ft s₀ (execBayRst b on s) := by
  delta execBayRst
  repeat' first
      | with_reducible assumption | exact Foot.sub hp rfl | intro _ | with_reducible apply State.reach_keeps
      | with_reducible apply State.setFlag_keeps | with_reducible apply KeepsOut.done
      | with_reducible apply KeepsOut.next | exact trivial | dsimp only | split

theorem execCnvPort_keeps {ft : Nat} {s₀ s : State} (c : Channel) (v : Word) (hp : 17179869218 &&& ft = 17179869218)
    (h : Keeps ft s₀ s) :
    KeepsOut ft s₀ (execCnvPort c v s) := by
  delta execCnvPort
  repeat' first
      | with_reducible assumption | exact Foot.sub hp rfl | intro _ | with_reducible apply State.reach_keeps
      | with_reducible apply State.writePort_keeps | with_reducible apply KeepsOut.done
      | with_reducible apply KeepsOut.next | exact trivial | dsimp only | split

theorem execHold_keeps {ft : Nat} {s₀ s : State} (b : Bay) (hp : 17179869186 &&& ft = 17179869186)
    (h : Keeps ft s₀ s) :
    KeepsOut ft s₀ (execHold b s) := by
  delta execHold
  repeat' first
      | with_reducible assumption | exact Foot.sub hp rfl | intro _ | with_reducible apply State.reach_keeps
      | with_reducible apply State.setFlag_keeps | with_reducible apply KeepsOut.done
      | with_reducible apply KeepsOut.next | exact trivial | dsimp only | split

theorem execIcfpAbort_keeps {ft : Nat} {s₀ s : State}  (hp : 17179869190 &&& ft = 17179869190) (h : Keeps ft s₀ s) :
    KeepsOut ft s₀ (execIcfpAbort s) := by
  delta execIcfpAbort
  repeat' first
      | with_reducible assumption | exact Foot.sub hp rfl | intro _ | with_reducible apply State.reach_keeps
      | with_reducible apply State.icfpAbort_keeps | with_reducible apply KeepsOut.done
      | with_reducible apply KeepsOut.next | exact trivial | dsimp only | split

theorem execIcfpRel_keeps {ft : Nat} {s₀ s : State}  (hp : 17179869186 &&& ft = 17179869186) (h : Keeps ft s₀ s) :
    KeepsOut ft s₀ (execIcfpRel s) := by
  delta execIcfpRel
  repeat' first
      | with_reducible assumption | exact Foot.sub hp rfl | intro _ | with_reducible apply State.reach_keeps
      | with_reducible apply State.icfpRel_keeps | with_reducible apply KeepsOut.done
      | with_reducible apply KeepsOut.next | exact trivial | dsimp only | split

theorem execIcfpWord_keeps {ft : Nat} {s₀ s : State} (start : Bool) (w : Word) (valid : Bool) (hp : 77309411342 &&& ft = 77309411342)
    (h : Keeps ft s₀ s) :
    KeepsOut ft s₀ (execIcfpWord start w valid s) := by
  delta execIcfpWord
  repeat' first
      | with_reducible assumption | exact Foot.sub hp rfl | intro _ | with_reducible apply State.icfpStart_keeps
      | with_reducible apply State.icfpSigLow_keeps | with_reducible apply State.icfpTake_keeps
      | with_reducible apply Keeps.ite | with_reducible apply KeepsOut.done | with_reducible apply KeepsOut.next
      | exact trivial | dsimp only | split

theorem execInjRel_keeps {ft : Nat} {s₀ s : State}  (hp : 17179869186 &&& ft = 17179869186) (h : Keeps ft s₀ s) :
    KeepsOut ft s₀ (execInjRel s) := by
  delta execInjRel
  repeat' first
      | with_reducible assumption | exact Foot.sub hp rfl | intro _ | with_reducible apply State.reach_keeps
      | with_reducible apply State.injRel_keeps | with_reducible apply KeepsOut.done
      | with_reducible apply KeepsOut.next | exact trivial | dsimp only | split

theorem execInjectionPortInput_keeps {ft : Nat} {s₀ s : State} (c : Channel) (bytes : List Byte) (hp : 32 &&& ft = 32)
    (h : Keeps ft s₀ s) :
    KeepsOut ft s₀ (execInjectionPortInput c bytes s) := by
  delta execInjectionPortInput
  repeat' first
      | with_reducible assumption | exact Foot.sub hp rfl | with_reducible exact id
      | with_reducible exact SMap.sorted_set _ _ _ | with_reducible exact SMap.sorted_put _ _
      | with_reducible exact SMap.sorted_del _ | with_reducible exact SMap.sorted_filter _
      | with_reducible exact Memory.wf_filter _ | with_reducible exact fun _ => SMap.sorted_nil
      | with_reducible exact fun _ => Memory.wf_nil | intro _ | with_reducible apply State.withInj_keeps
      | with_reducible apply Keeps.ite | with_reducible apply KeepsOut.done | with_reducible apply KeepsOut.next
      | exact trivial | dsimp only | split

theorem execPartialLoadEnd_keeps {ft : Nat} {s₀ s : State}  (hp : 8589934606 &&& ft = 8589934606) (h : Keeps ft s₀ s) :
    KeepsOut ft s₀ (execPartialLoadEnd s) := by
  delta execPartialLoadEnd
  repeat' first
      | with_reducible assumption | exact Foot.sub hp rfl | intro _ | with_reducible apply State.copyStaged_keeps
      | with_reducible apply State.icfpFail_keeps | with_reducible apply State.icfpLoaded_keeps
      | with_reducible apply Keeps.ite | with_reducible apply KeepsOut.done | with_reducible apply KeepsOut.next
      | exact trivial | with_reducible refine Keeps.of_some (by assumption) ?_ | dsimp only | split

theorem execRingEngaged_keeps {ft : Nat} {s₀ s : State} (b : Bay) (hp : 2 &&& ft = 2) (h : Keeps ft s₀ s) :
    KeepsOut ft s₀ (execRingEngaged b s) := by
  delta execRingEngaged
  repeat' first
      | with_reducible assumption | exact Foot.sub hp rfl | intro _ | with_reducible apply State.setFlag_keeps
      | with_reducible apply Keeps.ite | with_reducible apply KeepsOut.done | with_reducible apply KeepsOut.next
      | exact trivial | dsimp only | split

theorem execRingOpen_keeps {ft : Nat} {s₀ s : State} (b : Bay) (hp : 17179869186 &&& ft = 17179869186)
    (h : Keeps ft s₀ s) :
    KeepsOut ft s₀ (execRingOpen b s) := by
  delta execRingOpen
  repeat' first
      | with_reducible assumption | exact Foot.sub hp rfl | intro _ | with_reducible apply State.reach_keeps
      | with_reducible apply State.openBay_keeps | with_reducible apply KeepsOut.done
      | with_reducible apply KeepsOut.next | exact trivial | dsimp only | split

theorem execRingOpened_keeps {ft : Nat} {s₀ s : State} (b : Bay) (hp : 2 &&& ft = 2) (h : Keeps ft s₀ s) :
    KeepsOut ft s₀ (execRingOpened b s) := by
  delta execRingOpened
  repeat' first
      | with_reducible assumption | exact Foot.sub hp rfl | intro _ | with_reducible apply State.setFlag_keeps
      | with_reducible apply Keeps.ite | with_reducible apply KeepsOut.done | with_reducible apply KeepsOut.next
      | exact trivial | dsimp only | split

theorem execScrubFrame_keeps {ft : Nat} {s₀ s : State} (region : BitVec 5) (frame : BitVec 27) (x : ScrubResult)
    (hp : 8589934602 &&& ft = 8589934602) (h : Keeps ft s₀ s) :
    KeepsOut ft s₀ (execScrubFrame region frame x s) := by
  delta execScrubFrame
  repeat' first
      | with_reducible assumption | exact Foot.sub hp rfl | intro _ | with_reducible apply State.scrubFrame_keeps
      | with_reducible apply KeepsOut.done | with_reducible apply KeepsOut.next | exact trivial | dsimp only | split

theorem execTagVerified_keeps {ft : Nat} {s₀ s : State} (b : Bay) (hp : 6 &&& ft = 6) (h : Keeps ft s₀ s) :
    KeepsOut ft s₀ (execTagVerified b s) := by
  delta execTagVerified
  repeat' first
      | with_reducible assumption | exact Foot.sub hp rfl | intro _ | with_reducible apply State.wr_keeps
      | with_reducible apply State.engageForLoad_keeps | with_reducible apply State.setFlag_keeps
      | with_reducible apply State.icfpFail_keeps | with_reducible apply Keeps.ite
      | with_reducible apply KeepsOut.done | with_reducible apply KeepsOut.next | exact trivial | dsimp only | split

theorem execUpsetRel_keeps {ft : Nat} {s₀ s : State}  (hp : 17179869186 &&& ft = 17179869186) (h : Keeps ft s₀ s) :
    KeepsOut ft s₀ (execUpsetRel s) := by
  delta execUpsetRel
  repeat' first
      | with_reducible assumption | exact Foot.sub hp rfl | intro _ | with_reducible apply State.reach_keeps
      | with_reducible apply State.upsetRel_keeps | with_reducible apply KeepsOut.done
      | with_reducible apply KeepsOut.next | exact trivial | dsimp only | split
end Sys2Proof.Machine
end

