-- ==== Sys2Proof/Laws/KeepsTweed.lean ====
section
/-! SUPPORT. Once for each: what the operations of Machine/Tweed.lean keep: the parts of the
state they may change, and that the canonical form of the state survives them. -/

namespace Sys2Proof.Machine

theorem State.setTwQ_keeps {ft : Nat} {s₀ s : State} (w : Nat) (q : List TwMsg) (hp : 2097152 &&& ft = 2097152)
    (h : Keeps ft s₀ s) :
    Keeps ft s₀ (State.setTwQ s w q) := by
  delta State.setTwQ
  repeat' first
      | with_reducible assumption | exact Foot.sub hp rfl | with_reducible exact id
      | with_reducible exact SMap.sorted_set _ _ _ | with_reducible exact SMap.sorted_put _ _
      | with_reducible exact SMap.sorted_del _ | with_reducible exact SMap.sorted_filter _
      | with_reducible exact Memory.wf_filter _ | with_reducible exact fun _ => SMap.sorted_nil
      | with_reducible exact fun _ => Memory.wf_nil | intro _ | with_reducible apply State.withTwOut_keeps
      | dsimp only | split

theorem State.setLineTx_keeps {ft : Nat} {s₀ s : State} (w : Nat) (t : LineTx) (hp : 2 &&& ft = 2)
    (h : Keeps ft s₀ s) :
    Keeps ft s₀ (State.setLineTx s w t) := by
  delta State.setLineTx
  repeat' first
      | with_reducible assumption | exact Foot.sub hp rfl | intro _ | with_reducible apply State.wr_keeps
      | with_reducible apply State.forUpTo_keeps | dsimp only | split

theorem State.lineSend_keeps {ft : Nat} {s₀ s : State} (w : Nat) (seq : Nat) (b : TwBody) (hp : 2 &&& ft = 2)
    (h : Keeps ft s₀ s) :
    Keeps ft s₀ (State.lineSend s w seq b) := by
  delta State.lineSend
  repeat' first
      | with_reducible assumption | exact Foot.sub hp rfl | intro _ | with_reducible apply State.setLineTx_keeps
      | dsimp only | split

theorem State.showCred_keeps {ft : Nat} {s₀ s : State} (w : Nat) (hp : 2 &&& ft = 2) (h : Keeps ft s₀ s) :
    Keeps ft s₀ (State.showCred s w) := by
  delta State.showCred
  repeat' first
      | with_reducible assumption | exact Foot.sub hp rfl | intro _ | with_reducible apply State.wr_keeps
      | dsimp only | split

theorem State.twSendAt_keeps {ft : Nat} {s₀ s : State} (w : Nat) (i : Nat) (hp : 2097154 &&& ft = 2097154)
    (h : Keeps ft s₀ s) :
    Keeps ft s₀ (State.twSendAt s w i) := by
  delta State.twSendAt
  repeat' first
      | with_reducible assumption | exact Foot.sub hp rfl | intro _ | with_reducible apply State.setTwQ_keeps
      | with_reducible apply State.inc_keeps | with_reducible apply State.lineSend_keeps
      | with_reducible apply State.showCred_keeps | with_reducible apply State.wr_keeps
      | with_reducible apply Keeps.ite | dsimp only | split

theorem State.twPump_keeps {ft : Nat} {s₀ s : State} (w : Nat) (x0 : Nat) (hp : 2097154 &&& ft = 2097154)
    (h : Keeps ft s₀ s) :
    Keeps ft s₀ (State.twPump s w x0) := by
  induction x0 generalizing s w with
  | zero => first | exact h | trivial
  | succ k ih =>
    unfold State.twPump
    repeat' first
        | with_reducible assumption | exact Foot.sub hp rfl | intro _ | with_reducible apply ih
        | with_reducible apply State.twSendAt_keeps | dsimp only | split

theorem State.twSend_keeps {ft : Nat} {s₀ s : State} (w : Nat) (b : TwBody) (hp : 2097154 &&& ft = 2097154)
    (h : Keeps ft s₀ s) :
    Keeps ft s₀ (State.twSend s w b) := by
  delta State.twSend
  repeat' first
      | with_reducible assumption | exact Foot.sub hp rfl | intro _ | with_reducible apply State.twPump_keeps
      | with_reducible apply State.setTwQ_keeps | with_reducible apply Keeps.ite | dsimp only | split

theorem State.twSendTo_keeps {ft : Nat} {s₀ s : State} (d : Nat) (b : TwBody) (hp : 2097154 &&& ft = 2097154)
    (h : Keeps ft s₀ s) :
    Keeps ft s₀ (State.twSendTo s d b) := by
  delta State.twSendTo
  repeat' first
      | with_reducible assumption | exact Foot.sub hp rfl | intro _ | with_reducible apply State.twSend_keeps
      | dsimp only | split

theorem State.twSendMask_keeps {ft : Nat} {s₀ s : State} (mask : Nat) (b : TwBody) (hp : 2097154 &&& ft = 2097154)
    (h : Keeps ft s₀ s) :
    Keeps ft s₀ (State.twSendMask s mask b) := by
  delta State.twSendMask
  repeat' first
      | with_reducible assumption | exact Foot.sub hp rfl | intro _ | with_reducible apply State.forUpTo_keeps
      | with_reducible apply State.twSendTo_keeps | with_reducible apply Keeps.ite | dsimp only | split

theorem State.twdCapture_keeps {ft : Nat} {s₀ s : State} (kind : Nat) (port : Nat) (lane : Nat) (bar : Nat)
    (dev : Nat) (hp : 2 &&& ft = 2) (h : Keeps ft s₀ s) :
    Keeps ft s₀ (State.twdCapture s kind port lane bar dev) := by
  delta State.twdCapture
  repeat' first
      | with_reducible assumption | exact Foot.sub hp rfl | intro _ | with_reducible apply State.wr_keeps
      | with_reducible apply State.setFlag_keeps | with_reducible apply Keeps.ite | dsimp only | split

theorem State.barrierFailHere_keeps {ft : Nat} {s₀ s : State} (n : Nat) (hp : 8589934614 &&& ft = 8589934614)
    (h : Keeps ft s₀ s) :
    Keeps ft s₀ (State.barrierFailHere s n) := by
  delta State.barrierFailHere
  repeat' first
      | with_reducible assumption | exact Foot.sub hp rfl | intro _ | with_reducible apply State.endRunHere_keeps
      | with_reducible apply State.setTab_keeps | with_reducible apply State.pulse_keeps
      | with_reducible apply Keeps.ite | with_reducible apply Keeps.foldl | dsimp only | split

theorem State.barrierFail_keeps {ft : Nat} {s₀ s : State} (n : Nat) (d : Nat) (hp : 8592031766 &&& ft = 8592031766)
    (h : Keeps ft s₀ s) :
    Keeps ft s₀ (State.barrierFail s n d) := by
  delta State.barrierFail
  repeat' first
      | with_reducible assumption | exact Foot.sub hp rfl | intro _ | with_reducible apply State.twSendMask_keeps
      | with_reducible apply State.twdCapture_keeps | with_reducible apply State.setTab_keeps
      | with_reducible apply State.barrierFailHere_keeps | dsimp only | split

theorem State.bcEnd_keeps {ft : Nat} {s₀ s : State} (code : Nat) (hp : 68610 &&& ft = 68610) (h : Keeps ft s₀ s) :
    Keeps ft s₀ (State.bcEnd s code) := by
  delta State.bcEnd
  repeat' first
      | with_reducible assumption | exact Foot.sub hp rfl | intro _ | with_reducible apply State.dropUse_keeps
      | with_reducible apply State.wr_keeps | with_reducible apply State.setFlag_keeps | dsimp only | split

theorem State.bcCheck_keeps {ft : Nat} {s₀ s : State}  (hp : 68610 &&& ft = 68610) (h : Keeps ft s₀ s) :
    Keeps ft s₀ (State.bcCheck s) := by
  delta State.bcCheck
  repeat' first
      | with_reducible assumption | exact Foot.sub hp rfl | intro _ | with_reducible apply State.bcEnd_keeps
      | with_reducible apply Keeps.ite | dsimp only | split

theorem State.bcFailed_keeps {ft : Nat} {s₀ s : State} (d : Nat) (hp : 68610 &&& ft = 68610) (h : Keeps ft s₀ s) :
    Keeps ft s₀ (State.bcFailed s d) := by
  delta State.bcFailed
  repeat' first
      | with_reducible assumption | exact Foot.sub hp rfl | intro _ | with_reducible apply State.bcCheck_keeps
      | with_reducible apply State.setBit_keeps | dsimp only | split

theorem State.stopGlobal_keeps {ft : Nat} {s₀ s : State}  (hp : 22 &&& ft = 22) (h : Keeps ft s₀ s) :
    Keeps ft s₀ (State.stopGlobal s) := by
  delta State.stopGlobal
  repeat' first
      | with_reducible assumption | exact Foot.sub hp rfl | intro _ | with_reducible apply State.forUpTo_keeps
      | with_reducible apply State.stopSeq_keeps | with_reducible apply Keeps.ite | dsimp only | split

theorem State.masterStop_keeps {ft : Nat} {s₀ s : State}  (hp : 2097174 &&& ft = 2097174) (h : Keeps ft s₀ s) :
    Keeps ft s₀ (State.masterStop s) := by
  delta State.masterStop
  repeat' first
      | with_reducible assumption | exact Foot.sub hp rfl | intro _ | with_reducible apply State.stopGlobal_keeps
      | with_reducible apply State.twSendMask_keeps | dsimp only | split

theorem State.gfailUpdate_keeps {ft : Nat} {s₀ s : State}  (hp : 2097174 &&& ft = 2097174) (h : Keeps ft s₀ s) :
    Keeps ft s₀ (State.gfailUpdate s) := by
  delta State.gfailUpdate
  repeat' first
      | with_reducible assumption | exact Foot.sub hp rfl | intro _ | with_reducible apply State.twSendMask_keeps
      | with_reducible apply State.setFlag_keeps | with_reducible apply State.masterStop_keeps
      | with_reducible apply Keeps.ite | dsimp only | split

theorem State.declareLost_keeps {ft : Nat} {s₀ s : State} (d : Nat) (hp : 8592100374 &&& ft = 8592100374)
    (h : Keeps ft s₀ s) :
    Keeps ft s₀ (State.declareLost s d) := by
  delta State.declareLost
  repeat' first
      | with_reducible assumption | exact Foot.sub hp rfl | intro _ | with_reducible apply State.setFlag_keeps
      | with_reducible apply State.twSendTo_keeps | with_reducible apply State.twdCapture_keeps
      | with_reducible apply State.forUpTo_keeps | with_reducible apply State.barrierFail_keeps
      | with_reducible apply State.bcFailed_keeps | with_reducible apply State.gfailUpdate_keeps
      | with_reducible apply Keeps.ite | dsimp only | split

theorem State.ackDeadline_keeps {ft : Nat} {s₀ s : State} (n : Nat) (hp : 8592100374 &&& ft = 8592100374)
    (h : Keeps ft s₀ s) :
    Keeps ft s₀ (State.ackDeadline s n) := by
  delta State.ackDeadline
  repeat' first
      | with_reducible assumption | exact Foot.sub hp rfl | intro _ | with_reducible apply State.barrierFail_keeps
      | with_reducible apply State.declareLost_keeps | with_reducible apply Keeps.ite
      | with_reducible apply Keeps.foldl | dsimp only | split

theorem State.barrierRelease_keeps {ft : Nat} {s₀ s : State} (n : Nat) (hp : 2097158 &&& ft = 2097158)
    (h : Keeps ft s₀ s) :
    Keeps ft s₀ (State.barrierRelease s n) := by
  delta State.barrierRelease
  repeat' first
      | with_reducible assumption | exact Foot.sub hp rfl | intro _ | with_reducible apply State.twSendMask_keeps
      | with_reducible apply State.setTab_keeps | dsimp only | split

theorem State.barrierCheck_keeps {ft : Nat} {s₀ s : State} (n : Nat) (hp : 2097158 &&& ft = 2097158)
    (h : Keeps ft s₀ s) :
    Keeps ft s₀ (State.barrierCheck s n) := by
  delta State.barrierCheck
  repeat' first
      | with_reducible assumption | exact Foot.sub hp rfl | intro _ | with_reducible apply State.barrierRelease_keeps
      | with_reducible apply Keeps.ite | dsimp only | split

theorem State.arriveAt_keeps {ft : Nat} {s₀ s : State} (n : Nat) (d : Nat) (bad : Bool)
    (hp : 8592031766 &&& ft = 8592031766) (h : Keeps ft s₀ s) :
    Keeps ft s₀ (State.arriveAt s n d bad) := by
  delta State.arriveAt
  repeat' first
      | with_reducible assumption | exact Foot.sub hp rfl | intro _ | with_reducible apply State.barrierFail_keeps
      | with_reducible apply State.setTab_keeps | with_reducible apply State.barrierCheck_keeps
      | with_reducible apply Keeps.ite | dsimp only | split

theorem State.twSendUp_keeps {ft : Nat} {s₀ s : State} (b : TwBody) (hp : 2097154 &&& ft = 2097154)
    (h : Keeps ft s₀ s) :
    Keeps ft s₀ (State.twSendUp s b) := by
  delta State.twSendUp
  repeat' first
      | with_reducible assumption | exact Foot.sub hp rfl | intro _ | with_reducible apply State.twSend_keeps
      | dsimp only | split

theorem State.sendArrive_keeps {ft : Nat} {s₀ s : State} (n : Nat) (bad : Bool) (hp : 8592031766 &&& ft = 8592031766)
    (h : Keeps ft s₀ s) :
    Keeps ft s₀ (State.sendArrive s n bad) := by
  delta State.sendArrive
  repeat' first
      | with_reducible assumption | exact Foot.sub hp rfl | intro _ | with_reducible apply State.arriveAt_keeps
      | with_reducible apply State.twSendUp_keeps | with_reducible apply Keeps.ite | dsimp only | split

theorem State.withdrawAt_keeps {ft : Nat} {s₀ s : State} (n : Nat) (d : Nat) (hp : 4 &&& ft = 4) (h : Keeps ft s₀ s) :
    Keeps ft s₀ (State.withdrawAt s n d) := by
  delta State.withdrawAt
  repeat' first
      | with_reducible assumption | exact Foot.sub hp rfl | intro _ | with_reducible apply State.setTab_keeps
      | with_reducible apply Keeps.ite | dsimp only | split

theorem State.sendWithdraw_keeps {ft : Nat} {s₀ s : State} (n : Nat) (hp : 2097158 &&& ft = 2097158)
    (h : Keeps ft s₀ s) :
    Keeps ft s₀ (State.sendWithdraw s n) := by
  delta State.sendWithdraw
  repeat' first
      | with_reducible assumption | exact Foot.sub hp rfl | with_reducible exact id
      | with_reducible exact SMap.sorted_set _ _ _ | with_reducible exact SMap.sorted_put _ _
      | with_reducible exact SMap.sorted_del _ | with_reducible exact SMap.sorted_filter _
      | with_reducible exact Memory.wf_filter _ | with_reducible exact fun _ => SMap.sorted_nil
      | with_reducible exact fun _ => Memory.wf_nil | intro _ | with_reducible apply State.withdrawAt_keeps
      | with_reducible apply State.twSendUp_keeps | with_reducible apply Keeps.ite | dsimp only | split

theorem State.barrierSync_keeps {ft : Nat} {s₀ s : State} (n : Nat) (hp : 8592031766 &&& ft = 8592031766)
    (h : Keeps ft s₀ s) :
    Keeps ft s₀ (State.barrierSync s n) := by
  delta State.barrierSync
  repeat' first
      | with_reducible assumption | exact Foot.sub hp rfl | intro _ | with_reducible apply State.sendArrive_keeps
      | with_reducible apply State.setTab_keeps | with_reducible apply State.sendWithdraw_keeps
      | with_reducible apply Keeps.ite | dsimp only | split

theorem State.barrierArrived_keeps {ft : Nat} {s₀ s : State} (q : Nat) (hp : 8592031766 &&& ft = 8592031766)
    (h : Keeps ft s₀ s) :
    Keeps ft s₀ (State.barrierArrived s q) := by
  delta State.barrierArrived
  repeat' first
      | with_reducible assumption | exact Foot.sub hp rfl | intro _ | with_reducible apply State.barrierSync_keeps
      | with_reducible apply State.sendArrive_keeps | with_reducible apply Keeps.ite | dsimp only | split

theorem State.barrierStart_keeps {ft : Nat} {s₀ s : State} (n : Nat) (hp : 8592031766 &&& ft = 8592031766)
    (h : Keeps ft s₀ s) :
    Keeps ft s₀ (State.barrierStart s n) := by
  delta State.barrierStart
  repeat' first
      | with_reducible assumption | exact Foot.sub hp rfl | intro _ | with_reducible apply State.wr_keeps
      | with_reducible apply State.goNext_keeps | with_reducible apply State.setTab_keeps
      | with_reducible apply State.pulse_keeps | with_reducible apply State.barrierCheck_keeps
      | with_reducible apply Keeps.ite | with_reducible apply Keeps.foldl | dsimp only | split

theorem State.barrierSyncAll_keeps {ft : Nat} {s₀ s : State} (hp : 8592031766 &&& ft = 8592031766)
    (h : Keeps ft s₀ s) :
    Keeps ft s₀ (State.barrierSyncAll s) := by
  delta State.barrierSyncAll
  repeat' first
      | with_reducible assumption | exact Foot.sub hp rfl | intro _ | with_reducible apply State.forUpTo_keeps
      | with_reducible apply State.barrierSync_keeps | dsimp only | split

theorem State.bcCreated_keeps {ft : Nat} {s₀ s : State} (d : Nat) (code : Nat) (hp : 68610 &&& ft = 68610)
    (h : Keeps ft s₀ s) :
    Keeps ft s₀ (State.bcCreated s d code) := by
  delta State.bcCreated
  repeat' first
      | with_reducible assumption | exact Foot.sub hp rfl | intro _ | with_reducible apply State.setBit_keeps
      | with_reducible apply State.bcFailed_keeps | with_reducible apply State.twdCapture_keeps
      | with_reducible apply State.wr_keeps | with_reducible apply Keeps.ite | dsimp only | split

theorem State.bcSealHere_keeps {ft : Nat} {s₀ s : State} (id : Nat) (hp : 8726285314 &&& ft = 8726285314)
    (h : Keeps ft s₀ s) :
    Keeps ft s₀ (State.bcSealHere s id) := by
  delta State.bcSealHere
  repeat' first
      | with_reducible assumption | exact Foot.sub hp rfl | intro _ | with_reducible apply State.seal_keeps
      | with_reducible apply State.twSendUp_keeps | dsimp only | split

theorem State.bcWrite_keeps {ft : Nat} {s₀ s : State} (x : HeldWrite) (hp : 77311511566 &&& ft = 77311511566)
    (h : Keeps ft s₀ s) :
    Keeps ft s₀ (State.bcWrite s x) := by
  delta State.bcWrite
  repeat' first
      | with_reducible assumption | exact Foot.sub hp rfl | intro _ | with_reducible apply State.uploaded_keeps
      | with_reducible apply State.objWrite_keeps | with_reducible apply State.forUpTo_keeps
      | with_reducible apply State.twSend_keeps | with_reducible apply State.wr_keeps
      | with_reducible apply Keeps.ite | with_reducible apply Keeps.getD | with_reducible apply KeepsOpt.some
      | exact KeepsOpt.none | with_reducible refine Keeps.of_some (by assumption) ?_ | dsimp only | split

theorem State.bcPass_keeps {ft : Nat} {s₀ s : State} (x0 : Nat) (hp : 77445778446 &&& ft = 77445778446)
    (h : Keeps ft s₀ s) :
    Keeps ft s₀ (State.bcPass s x0) := by
  induction x0 generalizing s  with
  | zero => first | exact h | trivial
  | succ k ih =>
    unfold State.bcPass
    repeat' first
        | with_reducible assumption | exact Foot.sub hp rfl | with_reducible exact id
        | with_reducible exact SMap.sorted_set _ _ _ | with_reducible exact SMap.sorted_put _ _
        | with_reducible exact SMap.sorted_del _ | with_reducible exact SMap.sorted_filter _
        | with_reducible exact Memory.wf_filter _ | with_reducible exact fun _ => SMap.sorted_nil
        | with_reducible exact fun _ => Memory.wf_nil | intro _ | with_reducible apply ih
        | with_reducible apply State.bcSealHere_keeps | with_reducible apply State.wr_keeps
        | with_reducible apply State.bcWrite_keeps | with_reducible apply State.withBcIn_keeps | dsimp only | split

theorem State.bcFlow_keeps {ft : Nat} {s₀ s : State}  (hp : 77445778446 &&& ft = 77445778446) (h : Keeps ft s₀ s) :
    Keeps ft s₀ (State.bcFlow s) := by
  delta State.bcFlow
  repeat' first
      | with_reducible assumption | exact Foot.sub hp rfl | intro _ | with_reducible apply State.bcPass_keeps
      | dsimp only | split

theorem State.bcGo_keeps {ft : Nat} {s₀ s : State}  (hp : 2165762 &&& ft = 2165762) (h : Keeps ft s₀ s) :
    Keeps ft s₀ (State.bcGo s) := by
  delta State.bcGo
  repeat' first
      | with_reducible assumption | exact Foot.sub hp rfl | intro _ | with_reducible apply State.wr_keeps
      | with_reducible apply State.setFlag_keeps | with_reducible apply State.addUse_keeps
      | with_reducible apply State.bcCheck_keeps | with_reducible apply State.twSendMask_keeps
      | with_reducible apply Keeps.ite | dsimp only | split

theorem State.bcReceive_keeps {ft : Nat} {s₀ s : State} (id : Nat) (off : Nat) (data : List Byte)
    (hp : 77445778446 &&& ft = 77445778446) (h : Keeps ft s₀ s) :
    Keeps ft s₀ (State.bcReceive s id off data) := by
  delta State.bcReceive
  repeat' first
      | with_reducible assumption | exact Foot.sub hp rfl | with_reducible exact id
      | with_reducible exact SMap.sorted_set _ _ _ | with_reducible exact SMap.sorted_put _ _
      | with_reducible exact SMap.sorted_del _ | with_reducible exact SMap.sorted_filter _
      | with_reducible exact Memory.wf_filter _ | with_reducible exact fun _ => SMap.sorted_nil
      | with_reducible exact fun _ => Memory.wf_nil | intro _ | with_reducible apply State.bcFlow_keeps
      | with_reducible apply State.withBcIn_keeps | with_reducible apply State.wr_keeps
      | with_reducible apply State.inc_keeps | with_reducible apply Keeps.ite | dsimp only | split

theorem State.bcSealed_keeps {ft : Nat} {s₀ s : State} (d : Nat) (code : Nat) (hp : 68610 &&& ft = 68610)
    (h : Keeps ft s₀ s) :
    Keeps ft s₀ (State.bcSealed s d code) := by
  delta State.bcSealed
  repeat' first
      | with_reducible assumption | exact Foot.sub hp rfl | intro _ | with_reducible apply State.bcCheck_keeps
      | with_reducible apply State.setBit_keeps | with_reducible apply State.bcFailed_keeps
      | with_reducible apply Keeps.ite | dsimp only | split

theorem State.bcSend_keeps {ft : Nat} {s₀ s : State}  (hp : 8726350850 &&& ft = 8726350850) (h : Keeps ft s₀ s) :
    Keeps ft s₀ (State.bcSend s) := by
  delta State.bcSend
  repeat' first
      | with_reducible assumption | exact Foot.sub hp rfl | intro _ | with_reducible apply State.bcEnd_keeps
      | with_reducible apply State.twSendMask_keeps | with_reducible apply State.wr_keeps
      | with_reducible apply State.markPoison_keeps | with_reducible apply Keeps.ite | dsimp only | split

theorem State.setPstate_keeps {ft : Nat} {s₀ s : State} (w : Nat) (st : Nat) (hp : 2 &&& ft = 2) (h : Keeps ft s₀ s) :
    Keeps ft s₀ (State.setPstate s w st) := by
  delta State.setPstate
  repeat' first
      | with_reducible assumption | exact Foot.sub hp rfl | intro _ | with_reducible apply State.setFlag_keeps
      | with_reducible apply State.wr_keeps | dsimp only | split

theorem State.bringUp_keeps {ft : Nat} {s₀ s : State} (w : Nat) (hp : 2 &&& ft = 2) (h : Keeps ft s₀ s) :
    Keeps ft s₀ (State.bringUp s w) := by
  delta State.bringUp
  repeat' first
      | with_reducible assumption | exact Foot.sub hp rfl | intro _ | with_reducible apply State.wr_keeps
      | with_reducible apply State.setFlag_keeps | with_reducible apply State.setPstate_keeps | dsimp only | split

theorem State.capBlock_keeps {ft : Nat} {s₀ s : State} (w : Nat) (sysId : Nat) (major : Nat) (offer : Nat)
    (place : Nat) (hp : 2 &&& ft = 2) (h : Keeps ft s₀ s) :
    Keeps ft s₀ (State.capBlock s w sysId major offer place) := by
  delta State.capBlock
  repeat' first
      | with_reducible assumption | exact Foot.sub hp rfl | intro _ | with_reducible apply State.wr_keeps
      | with_reducible apply State.setPstate_keeps | with_reducible apply State.twdCapture_keeps
      | with_reducible apply State.setFlag_keeps | with_reducible apply Keeps.ite | dsimp only | split

theorem State.cascadeClear_keeps {ft : Nat} {s₀ s : State}  (hp : 68614 &&& ft = 68614) (h : Keeps ft s₀ s) :
    Keeps ft s₀ (State.cascadeClear s) := by
  delta State.cascadeClear
  repeat' first
      | with_reducible assumption | exact Foot.sub hp rfl | with_reducible exact id
      | with_reducible exact SMap.sorted_set _ _ _ | with_reducible exact SMap.sorted_put _ _
      | with_reducible exact SMap.sorted_del _ | with_reducible exact SMap.sorted_filter _
      | with_reducible exact Memory.wf_filter _ | with_reducible exact fun _ => SMap.sorted_nil
      | with_reducible exact fun _ => Memory.wf_nil | intro _ | with_reducible apply State.withTabs_keeps
      | with_reducible apply State.setFlag_keeps | with_reducible apply State.wr_keeps
      | with_reducible apply State.bcEnd_keeps | with_reducible apply Keeps.ite | dsimp only | split

theorem State.contribution_keeps {ft : Nat} {s₀ s : State} (d : Nat) (on : Bool) (hp : 2097174 &&& ft = 2097174)
    (h : Keeps ft s₀ s) :
    Keeps ft s₀ (State.contribution s d on) := by
  delta State.contribution
  repeat' first
      | with_reducible assumption | exact Foot.sub hp rfl | intro _ | with_reducible apply State.gfailUpdate_keeps
      | with_reducible apply State.setBit_keeps | dsimp only | split

theorem State.cascadeTick_keeps {ft : Nat} {s₀ s : State}  (hp : 8592031766 &&& ft = 8592031766) (h : Keeps ft s₀ s) :
    Keeps ft s₀ (State.cascadeTick s) := by
  delta State.cascadeTick
  repeat' first
      | with_reducible assumption | exact Foot.sub hp rfl | intro _ | with_reducible apply State.barrierSyncAll_keeps
      | with_reducible apply State.setFlag_keeps | with_reducible apply State.contribution_keeps
      | with_reducible apply State.twSendUp_keeps | with_reducible apply Keeps.ite | dsimp only | split

theorem State.enterRecover_keeps {ft : Nat} {s₀ s : State} (w : Nat) (hp : 2 &&& ft = 2) (h : Keeps ft s₀ s) :
    Keeps ft s₀ (State.enterRecover s w) := by
  delta State.enterRecover
  repeat' first
      | with_reducible assumption | exact Foot.sub hp rfl | intro _ | with_reducible apply State.wr_keeps
      | with_reducible apply State.setPstate_keeps | dsimp only | split

theorem State.showDegr_keeps {ft : Nat} {s₀ s : State} (w : Nat) (hp : 2 &&& ft = 2) (h : Keeps ft s₀ s) :
    Keeps ft s₀ (State.showDegr s w) := by
  delta State.showDegr
  repeat' first
      | with_reducible assumption | exact Foot.sub hp rfl | intro _ | with_reducible apply State.setFlag_keeps
      | dsimp only | split

theorem State.enterUp_keeps {ft : Nat} {s₀ s : State} (w : Nat) (hp : 2 &&& ft = 2) (h : Keeps ft s₀ s) :
    Keeps ft s₀ (State.enterUp s w) := by
  delta State.enterUp
  repeat' first
      | with_reducible assumption | exact Foot.sub hp rfl | intro _ | with_reducible apply State.showDegr_keeps
      | with_reducible apply State.setFlag_keeps | with_reducible apply State.showCred_keeps
      | with_reducible apply State.wr_keeps | with_reducible apply State.setPstate_keeps
      | with_reducible apply Keeps.ite | dsimp only | split

theorem State.twGot_keeps {ft : Nat} {s₀ s : State} (w : Nat) (hp : 2 &&& ft = 2) (h : Keeps ft s₀ s) :
    Keeps ft s₀ (State.twGot s w) := by
  delta State.twGot
  repeat' first
      | with_reducible assumption | exact Foot.sub hp rfl | intro _ | with_reducible apply State.wr_keeps
      | with_reducible apply State.inc_keeps | dsimp only | split

theorem State.gotDown_keeps {ft : Nat} {s₀ s : State}  (hp : 2 &&& ft = 2) (h : Keeps ft s₀ s) :
    Keeps ft s₀ (State.gotDown s) := by
  delta State.gotDown
  repeat' first
      | with_reducible assumption | exact Foot.sub hp rfl | intro _ | with_reducible apply State.twGot_keeps
      | dsimp only | split

theorem State.gotUp_keeps {ft : Nat} {s₀ s : State} (d : Nat) (hp : 2 &&& ft = 2) (h : Keeps ft s₀ s) :
    Keeps ft s₀ (State.gotUp s d) := by
  delta State.gotUp
  repeat' first
      | with_reducible assumption | exact Foot.sub hp rfl | intro _ | with_reducible apply State.twGot_keeps
      | with_reducible apply Keeps.ite | dsimp only | split

theorem State.gstop_keeps {ft : Nat} {s₀ s : State}  (hp : 2097174 &&& ft = 2097174) (h : Keeps ft s₀ s) :
    Keeps ft s₀ (State.gstop s) := by
  delta State.gstop
  repeat' first
      | with_reducible assumption | exact Foot.sub hp rfl | intro _ | with_reducible apply State.masterStop_keeps
      | with_reducible apply State.twSendUp_keeps | with_reducible apply Keeps.ite | dsimp only | split

theorem State.laneDrop_keeps {ft : Nat} {s₀ s : State} (w : Nat) (l : Nat) (hp : 8589934594 &&& ft = 8589934594)
    (h : Keeps ft s₀ s) :
    Keeps ft s₀ (State.laneDrop s w l) := by
  delta State.laneDrop
  repeat' first
      | with_reducible assumption | exact Foot.sub hp rfl | intro _ | with_reducible apply State.setBit_keeps
      | with_reducible apply State.pulse_keeps | with_reducible apply State.twdCapture_keeps
      | with_reducible apply State.wr_keeps | with_reducible apply State.enterRecover_keeps
      | with_reducible apply Keeps.ite | dsimp only | split

theorem State.headersSeen_keeps {ft : Nat} {s₀ s : State} (w : Nat) (l : Nat) (hs : List Nat)
    (hp : 8589934594 &&& ft = 8589934594) (h : Keeps ft s₀ s) :
    Keeps ft s₀ (State.headersSeen s w l hs) := by
  delta State.headersSeen
  repeat' first
      | with_reducible assumption | exact Foot.sub hp rfl | intro _ | with_reducible apply State.wr_keeps
      | with_reducible apply State.laneDrop_keeps | with_reducible apply Keeps.ite | dsimp only | split

theorem State.laneRetrained_keeps {ft : Nat} {s₀ s : State} (w : Nat) (l : Nat) (hp : 6 &&& ft = 6)
    (h : Keeps ft s₀ s) :
    Keeps ft s₀ (State.laneRetrained s w l) := by
  delta State.laneRetrained
  repeat' first
      | with_reducible assumption | exact Foot.sub hp rfl | intro _ | with_reducible apply State.setBit_keeps
      | with_reducible apply State.ledgerInc_keeps | with_reducible apply State.incSat_keeps
      | with_reducible apply State.enterRecover_keeps | with_reducible apply Keeps.ite | dsimp only | split

theorem State.sendLink_keeps {ft : Nat} {s₀ s : State} (w : Nat) (hp : 2 &&& ft = 2) (h : Keeps ft s₀ s) :
    Keeps ft s₀ (State.sendLink s w) := by
  delta State.sendLink
  repeat' first
      | with_reducible assumption | exact Foot.sub hp rfl | intro _ | with_reducible apply State.wr_keeps
      | with_reducible apply State.setLineTx_keeps | with_reducible apply Keeps.ite | dsimp only | split

theorem State.lineTick_keeps {ft : Nat} {s₀ s : State} (w : Nat) (hp : 2 &&& ft = 2) (h : Keeps ft s₀ s) :
    Keeps ft s₀ (State.lineTick s w) := by
  delta State.lineTick
  repeat' first
      | with_reducible assumption | exact Foot.sub hp rfl | intro _ | with_reducible apply State.wr_keeps
      | with_reducible apply State.sendLink_keeps | with_reducible apply State.setLineTx_keeps
      | with_reducible apply Keeps.ite | dsimp only | split

theorem State.setTwState_keeps {ft : Nat} {s₀ s : State} (st : Nat) (hp : 2 &&& ft = 2) (h : Keeps ft s₀ s) :
    Keeps ft s₀ (State.setTwState s st) := by
  delta State.setTwState
  repeat' first
      | with_reducible assumption | exact Foot.sub hp rfl | intro _ | with_reducible apply State.setFlag_keeps
      | with_reducible apply State.wr_keeps | dsimp only | split

theorem State.losePath_keeps {ft : Nat} {s₀ s : State} (st : Nat) (hp : 22 &&& ft = 22) (h : Keeps ft s₀ s) :
    Keeps ft s₀ (State.losePath s st) := by
  delta State.losePath
  repeat' first
      | with_reducible assumption | exact Foot.sub hp rfl | with_reducible exact id
      | with_reducible exact SMap.sorted_set _ _ _ | with_reducible exact SMap.sorted_put _ _
      | with_reducible exact SMap.sorted_del _ | with_reducible exact SMap.sorted_filter _
      | with_reducible exact Memory.wf_filter _ | with_reducible exact fun _ => SMap.sorted_nil
      | with_reducible exact fun _ => Memory.wf_nil | intro _ | with_reducible apply State.forUpTo_keeps
      | with_reducible apply State.endRunHere_keeps | with_reducible apply State.withTabs_keeps
      | with_reducible apply State.setTwState_keeps | with_reducible apply State.setFlag_keeps
      | with_reducible apply Keeps.ite | dsimp only | split

theorem State.setRoster_keeps {ft : Nat} {s₀ s : State} (d : Nat) (pres : Bool) (depth : Nat) (via : Nat) (lat : Nat)
    (hp : 2 &&& ft = 2) (h : Keeps ft s₀ s) :
    Keeps ft s₀ (State.setRoster s d pres depth via lat) := by
  delta State.setRoster
  repeat' first
      | with_reducible assumption | exact Foot.sub hp rfl | intro _ | with_reducible apply State.wr_keeps
      | with_reducible apply State.setFlag_keeps | dsimp only | split

theorem State.numberAll_keeps {ft : Nat} {s₀ s : State} (reach : List TwReach) (hp : 2 &&& ft = 2)
    (h : Keeps ft s₀ s) :
    Keeps ft s₀ (State.numberAll s reach) := by
  delta State.numberAll
  repeat' first
      | with_reducible assumption | exact Foot.sub hp rfl | intro _ | with_reducible apply State.forUpTo_keeps
      | with_reducible apply State.setRoster_keeps | with_reducible apply State.wr_keeps
      | with_reducible apply State.twdCapture_keeps | with_reducible apply Keeps.foldl | dsimp only | split

theorem State.upstreamLost_keeps {ft : Nat} {s₀ s : State} (w : Nat) (hp : 22 &&& ft = 22) (h : Keeps ft s₀ s) :
    Keeps ft s₀ (State.upstreamLost s w) := by
  delta State.upstreamLost
  repeat' first
      | with_reducible assumption | exact Foot.sub hp rfl | intro _ | with_reducible apply State.losePath_keeps
      | with_reducible apply State.setFlag_keeps | with_reducible apply State.setPstate_keeps | dsimp only | split

theorem State.portDown_keeps {ft : Nat} {s₀ s : State} (w : Nat) (hp : 8592100374 &&& ft = 8592100374)
    (h : Keeps ft s₀ s) :
    Keeps ft s₀ (State.portDown s w) := by
  delta State.portDown
  repeat' first
      | with_reducible assumption | exact Foot.sub hp rfl | intro _ | with_reducible apply State.setFlag_keeps
      | with_reducible apply State.setPstate_keeps | with_reducible apply State.setTwQ_keeps
      | with_reducible apply State.wr_keeps | with_reducible apply State.showCred_keeps
      | with_reducible apply State.forUpTo_keeps | with_reducible apply State.declareLost_keeps
      | with_reducible apply State.upstreamLost_keeps | with_reducible apply Keeps.ite | dsimp only | split

theorem State.writePrbsEn_keeps {ft : Nat} {s₀ s : State} (w : Nat) (on : Bool) (hp : 8592100374 &&& ft = 8592100374)
    (h : Keeps ft s₀ s) :
    Keeps ft s₀ (State.writePrbsEn s w on) := by
  delta State.writePrbsEn
  repeat' first
      | with_reducible assumption | exact Foot.sub hp rfl | intro _ | with_reducible apply State.setFlag_keeps
      | with_reducible apply State.portDown_keeps | with_reducible apply State.forUpTo_keeps
      | with_reducible apply State.wr_keeps | with_reducible apply Keeps.ite | dsimp only | split

theorem State.prbsEffect_keeps {ft : Nat} {s₀ s : State} (w : Nat) (on : Bool) (errs : List Word)
    (hp : 8592100374 &&& ft = 8592100374) (h : Keeps ft s₀ s) :
    Keeps ft s₀ (State.prbsEffect s w on errs) := by
  delta State.prbsEffect
  repeat' first
      | with_reducible assumption | exact Foot.sub hp rfl | intro _ | with_reducible apply State.forUpTo_keeps
      | with_reducible apply State.wr_keeps | with_reducible apply State.writePrbsEn_keeps
      | with_reducible apply Keeps.ite | dsimp only | split

theorem State.rateStep_keeps {ft : Nat} {s₀ s : State} (w : Nat) (pass : Nat) (hp : 2 &&& ft = 2) (h : Keeps ft s₀ s) :
    Keeps ft s₀ (State.rateStep s w pass) := by
  delta State.rateStep
  repeat' first
      | with_reducible assumption | exact Foot.sub hp rfl | intro _ | with_reducible apply State.enterUp_keeps
      | with_reducible apply State.wr_keeps | with_reducible apply Keeps.ite | dsimp only | split

theorem State.reachTw_keeps {ft : Nat} {s₀ s : State} (x : Access) (w : Nat) (f : State → State)
    (hp : 17179869186 &&& ft = 17179869186) (h : Keeps ft s₀ s) (h_f : ∀ s , Keeps ft s₀ s → Keeps ft s₀ (f s)) :
    Keeps ft s₀ (State.reachTw s x w f) := by
  delta State.reachTw
  repeat' first
      | with_reducible assumption | exact Foot.sub hp rfl | intro _ | with_reducible apply State.reachUnit_keeps
      | with_reducible apply h_f | dsimp only | split

theorem State.twReplay_keeps {ft : Nat} {s₀ s : State} (w : Nat) (hp : 2 &&& ft = 2) (h : Keeps ft s₀ s) :
    Keeps ft s₀ (State.twReplay s w) := by
  delta State.twReplay
  repeat' first
      | with_reducible assumption | exact Foot.sub hp rfl | intro _ | with_reducible apply State.lineSend_keeps
      | with_reducible apply Keeps.foldl | dsimp only | split

theorem State.recoverEnd_keeps {ft : Nat} {s₀ s : State} (w : Nat) (hp : 2097154 &&& ft = 2097154)
    (h : Keeps ft s₀ s) :
    Keeps ft s₀ (State.recoverEnd s w) := by
  delta State.recoverEnd
  repeat' first
      | with_reducible assumption | exact Foot.sub hp rfl | intro _ | with_reducible apply State.setFlag_keeps
      | with_reducible apply State.showDegr_keeps | with_reducible apply State.setPstate_keeps
      | with_reducible apply State.twPump_keeps | with_reducible apply State.twReplay_keeps
      | with_reducible apply Keeps.ite | dsimp only | split

theorem State.setCt_keeps {ft : Nat} {s₀ s : State} (v : Nat) (hp : 2 &&& ft = 2) (h : Keeps ft s₀ s) :
    Keeps ft s₀ (State.setCt s v) := by
  delta State.setCt
  repeat' first
      | with_reducible assumption | exact Foot.sub hp rfl | intro _ | with_reducible apply State.wr_keeps
      | dsimp only | split

theorem State.timeExchange_keeps {ft : Nat} {s₀ s : State} (w : Nat) (dev : Nat) (depth : Nat) (ct : Nat) (path : Nat)
    (t1 : Nat) (t2 : Nat) (t3 : Nat) (t4 : Nat) (hp : 2097154 &&& ft = 2097154) (h : Keeps ft s₀ s) :
    Keeps ft s₀ (State.timeExchange s w dev depth ct path t1 t2 t3 t4) := by
  delta State.timeExchange
  repeat' first
      | with_reducible assumption | exact Foot.sub hp rfl | intro _ | with_reducible apply State.forUpTo_keeps
      | with_reducible apply State.setFlag_keeps | with_reducible apply State.wr_keeps
      | with_reducible apply State.twSend_keeps | with_reducible apply State.twGot_keeps
      | with_reducible apply State.setTwState_keeps | with_reducible apply State.setCt_keeps
      | with_reducible apply Keeps.ite | dsimp only | split

theorem State.twLink_keeps {ft : Nat} {s₀ s : State} (w : Nat) (ack : Nat) (nak : Bool) (ctl : Nat) (bcast : Nat)
    (hp : 8592031746 &&& ft = 8592031746) (h : Keeps ft s₀ s) :
    Keeps ft s₀ (State.twLink s w ack nak ctl bcast) := by
  delta State.twLink
  repeat' first
      | with_reducible assumption | exact Foot.sub hp rfl | intro _ | with_reducible apply State.wr_keeps
      | with_reducible apply State.setTwQ_keeps | with_reducible apply State.showCred_keeps
      | with_reducible apply State.twReplay_keeps | with_reducible apply State.pulse_keeps
      | with_reducible apply State.incSat_keeps | with_reducible apply State.twPump_keeps
      | with_reducible apply Keeps.ite | dsimp only | split

theorem State.twRetrain_keeps {ft : Nat} {s₀ s : State} (w : Nat) (hp : 8592100374 &&& ft = 8592100374)
    (h : Keeps ft s₀ s) :
    Keeps ft s₀ (State.twRetrain s w) := by
  delta State.twRetrain
  repeat' first
      | with_reducible assumption | exact Foot.sub hp rfl | intro _ | with_reducible apply State.portDown_keeps
      | with_reducible apply Keeps.ite | dsimp only | split

theorem State.twdCapRel_keeps {ft : Nat} {s₀ s : State}  (hp : 2 &&& ft = 2) (h : Keeps ft s₀ s) :
    Keeps ft s₀ (State.twdCapRel s) := by
  delta State.twdCapRel
  repeat' first
      | with_reducible assumption | exact Foot.sub hp rfl | intro _ | with_reducible apply State.wr_keeps
      | with_reducible apply State.setFlag_keeps | dsimp only | split

theorem State.twdTick_keeps {ft : Nat} {s₀ s : State}  (hp : 77445778462 &&& ft = 77445778462) (h : Keeps ft s₀ s) :
    Keeps ft s₀ (State.twdTick s) := by
  delta State.twdTick
  repeat' first
      | with_reducible assumption | exact Foot.sub hp rfl | intro _ | with_reducible apply State.cascadeTick_keeps
      | with_reducible apply State.bcFlow_keeps | with_reducible apply State.forUpTo_keeps
      | with_reducible apply State.lineTick_keeps | dsimp only | split

theorem State.writeCascEn_keeps {ft : Nat} {s₀ s : State} (on : Bool) (reach : List TwReach)
    (hp : 68630 &&& ft = 68630) (h : Keeps ft s₀ s) :
    Keeps ft s₀ (State.writeCascEn s on reach) := by
  delta State.writeCascEn
  repeat' first
      | with_reducible assumption | exact Foot.sub hp rfl | intro _ | with_reducible apply State.cascadeClear_keeps
      | with_reducible apply State.setFlag_keeps | with_reducible apply State.losePath_keeps
      | with_reducible apply State.setTwState_keeps | with_reducible apply State.setCt_keeps
      | with_reducible apply State.numberAll_keeps | with_reducible apply Keeps.ite | dsimp only | split

theorem execAck_keeps {ft : Nat} {s₀ s : State} (n : Byte) (d : Fin 32) (hp : 6 &&& ft = 6) (h : Keeps ft s₀ s) :
    KeepsOut ft s₀ (execAck n d s) := by
  delta execAck
  repeat' first
      | with_reducible assumption | exact Foot.sub hp rfl | intro _ | with_reducible apply State.gotUp_keeps
      | with_reducible apply State.setTab_keeps | with_reducible apply Keeps.ite | with_reducible apply KeepsOut.done
      | with_reducible apply KeepsOut.next | exact trivial | dsimp only | split

theorem execArrive_keeps {ft : Nat} {s₀ s : State} (n : Byte) (d : Fin 32) (bad : Bool)
    (hp : 8592031766 &&& ft = 8592031766) (h : Keeps ft s₀ s) :
    KeepsOut ft s₀ (execArrive n d bad s) := by
  delta execArrive
  repeat' first
      | with_reducible assumption | exact Foot.sub hp rfl | intro _ | with_reducible apply State.arriveAt_keeps
      | with_reducible apply State.barrierSyncAll_keeps | with_reducible apply State.gotUp_keeps
      | with_reducible apply Keeps.ite | with_reducible apply KeepsOut.done | with_reducible apply KeepsOut.next
      | exact trivial | dsimp only | split

theorem execBarrierAckDeadline_keeps {ft : Nat} {s₀ s : State} (n : Byte) (hp : 8592100374 &&& ft = 8592100374)
    (h : Keeps ft s₀ s) :
    KeepsOut ft s₀ (execBarrierAckDeadline n s) := by
  delta execBarrierAckDeadline
  repeat' first
      | with_reducible assumption | exact Foot.sub hp rfl | intro _ | with_reducible apply State.ackDeadline_keeps
      | with_reducible apply Keeps.ite | with_reducible apply KeepsOut.done | with_reducible apply KeepsOut.next
      | exact trivial | dsimp only | split

theorem execBarrierStart_keeps {ft : Nat} {s₀ s : State} (n : Byte) (hp : 8592031766 &&& ft = 8592031766)
    (h : Keeps ft s₀ s) :
    KeepsOut ft s₀ (execBarrierStart n s) := by
  delta execBarrierStart
  repeat' first
      | with_reducible assumption | exact Foot.sub hp rfl | intro _ | with_reducible apply State.barrierStart_keeps
      | with_reducible apply Keeps.ite | with_reducible apply KeepsOut.done | with_reducible apply KeepsOut.next
      | exact trivial | dsimp only | split

theorem execBcCreate_keeps {ft : Nat} {s₀ s : State} (x : BcCreate) (hp : 77311577094 &&& ft = 77311577094)
    (h : Keeps ft s₀ s) :
    KeepsOut ft s₀ (execBcCreate x s) := by
  delta execBcCreate
  repeat' first
      | with_reducible assumption | exact Foot.sub hp rfl | intro _ | with_reducible apply State.bcCreated_keeps
      | with_reducible apply State.gotUp_keeps | with_reducible apply State.create_keeps
      | with_reducible apply State.gotDown_keeps | with_reducible apply State.twSendUp_keeps
      | with_reducible apply Keeps.ite | with_reducible apply KeepsOut.done | with_reducible apply KeepsOut.next
      | exact trivial | dsimp only | split

theorem execBcGo_keeps {ft : Nat} {s₀ s : State}  (hp : 17182034946 &&& ft = 17182034946) (h : Keeps ft s₀ s) :
    KeepsOut ft s₀ (execBcGo s) := by
  delta execBcGo
  repeat' first
      | with_reducible assumption | exact Foot.sub hp rfl | intro _ | with_reducible apply State.reach_keeps
      | with_reducible apply State.bcGo_keeps | with_reducible apply KeepsOut.done
      | with_reducible apply KeepsOut.next | exact trivial | dsimp only | split

theorem execBcSeal_keeps {ft : Nat} {s₀ s : State} (x : BcSeal) (hp : 77445843982 &&& ft = 77445843982)
    (h : Keeps ft s₀ s) :
    KeepsOut ft s₀ (execBcSeal x s) := by
  delta execBcSeal
  repeat' first
      | with_reducible assumption | exact Foot.sub hp rfl | intro _ | with_reducible apply State.bcSealed_keeps
      | with_reducible apply State.gotUp_keeps | with_reducible apply State.bcFlow_keeps
      | with_reducible apply State.wr_keeps | with_reducible apply State.gotDown_keeps
      | with_reducible apply Keeps.ite | with_reducible apply KeepsOut.done | with_reducible apply KeepsOut.next
      | exact trivial | dsimp only | split

theorem execBcast_keeps {ft : Nat} {s₀ s : State} (x : BcData) (hp : 77445843982 &&& ft = 77445843982)
    (h : Keeps ft s₀ s) :
    KeepsOut ft s₀ (execBcast x s) := by
  delta execBcast
  repeat' first
      | with_reducible assumption | exact Foot.sub hp rfl | intro _ | with_reducible apply State.bcSend_keeps
      | with_reducible apply State.bcReceive_keeps | with_reducible apply Keeps.ite
      | with_reducible apply KeepsOut.done | with_reducible apply KeepsOut.next | exact trivial | dsimp only | split

theorem execCap_keeps {ft : Nat} {s₀ s : State} (w : TwPort) (sysId : Word) (major : Byte) (offer : Byte)
    (place : Byte) (hp : 2 &&& ft = 2) (h : Keeps ft s₀ s) :
    KeepsOut ft s₀ (execCap w sysId major offer place s) := by
  delta execCap
  repeat' first
      | with_reducible assumption | exact Foot.sub hp rfl | intro _ | with_reducible apply State.capBlock_keeps
      | with_reducible apply Keeps.ite | with_reducible apply KeepsOut.done | with_reducible apply KeepsOut.next
      | exact trivial | dsimp only | split

theorem execCascEn_keeps {ft : Nat} {s₀ s : State} (on : Bool) (reach : List TwReach)
    (hp : 17179937814 &&& ft = 17179937814) (h : Keeps ft s₀ s) :
    KeepsOut ft s₀ (execCascEn on reach s) := by
  delta execCascEn
  repeat' first
      | with_reducible assumption | exact Foot.sub hp rfl | intro _ | with_reducible apply State.reach_keeps
      | with_reducible apply State.writeCascEn_keeps | with_reducible apply KeepsOut.done
      | with_reducible apply KeepsOut.next | exact trivial | dsimp only | split

theorem execFail_keeps {ft : Nat} {s₀ s : State} (n : Byte) (hp : 8589934614 &&& ft = 8589934614) (h : Keeps ft s₀ s) :
    KeepsOut ft s₀ (execFail n s) := by
  delta execFail
  repeat' first
      | with_reducible assumption | exact Foot.sub hp rfl | intro _
      | with_reducible apply State.barrierFailHere_keeps | with_reducible apply State.twdCapture_keeps
      | with_reducible apply State.gotDown_keeps | with_reducible apply Keeps.ite
      | with_reducible apply KeepsOut.done | with_reducible apply KeepsOut.next | exact trivial | dsimp only | split

theorem execGfsum_keeps {ft : Nat} {s₀ s : State} (d : Fin 32) (on : Bool) (hp : 2097174 &&& ft = 2097174)
    (h : Keeps ft s₀ s) :
    KeepsOut ft s₀ (execGfsum d on s) := by
  delta execGfsum
  repeat' first
      | with_reducible assumption | exact Foot.sub hp rfl | intro _ | with_reducible apply State.contribution_keeps
      | with_reducible apply State.gotUp_keeps | with_reducible apply State.setFlag_keeps
      | with_reducible apply State.gotDown_keeps | with_reducible apply Keeps.ite
      | with_reducible apply KeepsOut.done | with_reducible apply KeepsOut.next | exact trivial | dsimp only | split

theorem execGstop_keeps {ft : Nat} {s₀ s : State}  (hp : 17181966358 &&& ft = 17181966358) (h : Keeps ft s₀ s) :
    KeepsOut ft s₀ (execGstop s) := by
  delta execGstop
  repeat' first
      | with_reducible assumption | exact Foot.sub hp rfl | intro _ | with_reducible apply State.reach_keeps
      | with_reducible apply State.gstop_keeps | with_reducible apply KeepsOut.done
      | with_reducible apply KeepsOut.next | exact trivial | dsimp only | split

theorem execGstopReceived_keeps {ft : Nat} {s₀ s : State} (w : TwPort) (hp : 8592031766 &&& ft = 8592031766)
    (h : Keeps ft s₀ s) :
    KeepsOut ft s₀ (execGstopReceived s w) := by
  delta execGstopReceived
  repeat' first
      | with_reducible assumption | exact Foot.sub hp rfl | intro _ | with_reducible apply State.masterStop_keeps
      | with_reducible apply State.pulse_keeps | with_reducible apply State.twGot_keeps
      | with_reducible apply State.stopGlobal_keeps | with_reducible apply Keeps.ite
      | with_reducible apply KeepsOut.done | with_reducible apply KeepsOut.next | exact trivial | dsimp only | split

theorem execLaneDrop_keeps {ft : Nat} {s₀ s : State} (w : TwPort) (l : Fin 4) (x : LaneFault)
    (hp : 8589934594 &&& ft = 8589934594) (h : Keeps ft s₀ s) :
    KeepsOut ft s₀ (execLaneDrop w l x s) := by
  delta execLaneDrop
  repeat' first
      | with_reducible assumption | exact Foot.sub hp rfl | intro _ | with_reducible apply State.headersSeen_keeps
      | with_reducible apply State.laneDrop_keeps | with_reducible apply KeepsOut.done
      | with_reducible apply KeepsOut.next | exact trivial | dsimp only | split

theorem execLaneGood_keeps {ft : Nat} {s₀ s : State} (w : TwPort) (l : Fin 4) (hp : 2 &&& ft = 2) (h : Keeps ft s₀ s) :
    KeepsOut ft s₀ (execLaneGood w l s) := by
  delta execLaneGood
  repeat' first
      | with_reducible assumption | exact Foot.sub hp rfl | intro _ | with_reducible apply State.setBit_keeps
      | with_reducible apply Keeps.ite | with_reducible apply KeepsOut.done | with_reducible apply KeepsOut.next
      | exact trivial | dsimp only | split

theorem execLaneRetrainEnd_keeps {ft : Nat} {s₀ s : State} (w : TwPort) (l : Fin 4) (hp : 6 &&& ft = 6)
    (h : Keeps ft s₀ s) :
    KeepsOut ft s₀ (execLaneRetrainEnd w l s) := by
  delta execLaneRetrainEnd
  repeat' first
      | with_reducible assumption | exact Foot.sub hp rfl | intro _ | with_reducible apply State.laneRetrained_keeps
      | with_reducible apply KeepsOut.done | with_reducible apply KeepsOut.next | exact trivial | dsimp only | split

theorem execLink_keeps {ft : Nat} {s₀ s : State} (w : TwPort) (ack : BitVec 16) (nak : Bool) (ctl : BitVec 16)
    (bcast : BitVec 16) (hp : 8592031746 &&& ft = 8592031746) (h : Keeps ft s₀ s) :
    KeepsOut ft s₀ (execLink w ack nak ctl bcast s) := by
  delta execLink
  repeat' first
      | with_reducible assumption | exact Foot.sub hp rfl | intro _ | with_reducible apply State.twLink_keeps
      | with_reducible apply Keeps.ite | with_reducible apply KeepsOut.done | with_reducible apply KeepsOut.next
      | exact trivial | dsimp only | split

theorem execLost_keeps {ft : Nat} {s₀ s : State}  (hp : 22 &&& ft = 22) (h : Keeps ft s₀ s) :
    KeepsOut ft s₀ (execLost s) := by
  delta execLost
  repeat' first
      | with_reducible assumption | exact Foot.sub hp rfl | intro _ | with_reducible apply State.losePath_keeps
      | with_reducible apply State.gotDown_keeps | with_reducible apply Keeps.ite
      | with_reducible apply KeepsOut.done | with_reducible apply KeepsOut.next | exact trivial | dsimp only | split

theorem execPortBringUp_keeps {ft : Nat} {s₀ s : State} (w : TwPort) (hp : 2 &&& ft = 2) (h : Keeps ft s₀ s) :
    KeepsOut ft s₀ (execPortBringUp w s) := by
  delta execPortBringUp
  repeat' first
      | with_reducible assumption | exact Foot.sub hp rfl | intro _ | with_reducible apply State.bringUp_keeps
      | with_reducible apply Keeps.ite | with_reducible apply KeepsOut.done | with_reducible apply KeepsOut.next
      | exact trivial | dsimp only | split

theorem execPrbsEn_keeps {ft : Nat} {s₀ s : State} (w : TwPort) (on : Bool) (errs : List Word)
    (hp : 25771969558 &&& ft = 25771969558) (h : Keeps ft s₀ s) :
    KeepsOut ft s₀ (execPrbsEn w on errs s) := by
  delta execPrbsEn
  repeat' first
      | with_reducible assumption | exact Foot.sub hp rfl | intro _ | with_reducible apply State.reachTw_keeps
      | with_reducible apply State.prbsEffect_keeps | with_reducible apply KeepsOut.done
      | with_reducible apply KeepsOut.next | exact trivial | dsimp only | split

theorem execProbe_keeps {ft : Nat} {s₀ s : State} (d : Fin 32) (hp : 2097174 &&& ft = 2097174) (h : Keeps ft s₀ s) :
    KeepsOut ft s₀ (execProbe d s) := by
  delta execProbe
  repeat' first
      | with_reducible assumption | exact Foot.sub hp rfl | intro _ | with_reducible apply State.gfailUpdate_keeps
      | with_reducible apply State.setFlag_keeps | with_reducible apply State.gotUp_keeps
      | with_reducible apply State.twSendUp_keeps | with_reducible apply State.setTwState_keeps
      | with_reducible apply State.gotDown_keeps | with_reducible apply Keeps.ite
      | with_reducible apply KeepsOut.done | with_reducible apply KeepsOut.next | exact trivial | dsimp only | split

theorem execProbeTimer_keeps {ft : Nat} {s₀ s : State}  (hp : 2097154 &&& ft = 2097154) (h : Keeps ft s₀ s) :
    KeepsOut ft s₀ (execProbeTimer s) := by
  delta execProbeTimer
  repeat' first
      | with_reducible assumption | exact Foot.sub hp rfl | intro _ | with_reducible apply State.forUpTo_keeps
      | with_reducible apply State.twSendTo_keeps | with_reducible apply Keeps.ite
      | with_reducible apply KeepsOut.done | with_reducible apply KeepsOut.next | exact trivial | dsimp only | split

theorem execRateStepEnd_keeps {ft : Nat} {s₀ s : State} (w : TwPort) (errs : List Word) (hp : 2 &&& ft = 2)
    (h : Keeps ft s₀ s) :
    KeepsOut ft s₀ (execRateStepEnd w errs s) := by
  delta execRateStepEnd
  repeat' first
      | with_reducible assumption | exact Foot.sub hp rfl | intro _ | with_reducible apply State.rateStep_keeps
      | with_reducible apply KeepsOut.done | with_reducible apply KeepsOut.next | exact trivial | dsimp only | split

theorem execRecoverEnd_keeps {ft : Nat} {s₀ s : State} (w : TwPort) (hp : 2097154 &&& ft = 2097154)
    (h : Keeps ft s₀ s) :
    KeepsOut ft s₀ (execRecoverEnd w s) := by
  delta execRecoverEnd
  repeat' first
      | with_reducible assumption | exact Foot.sub hp rfl | intro _ | with_reducible apply State.recoverEnd_keeps
      | with_reducible apply KeepsOut.done | with_reducible apply KeepsOut.next | exact trivial | dsimp only | split

theorem execRecoverTimeout_keeps {ft : Nat} {s₀ s : State} (w : TwPort) (hp : 8592100374 &&& ft = 8592100374)
    (h : Keeps ft s₀ s) :
    KeepsOut ft s₀ (execRecoverTimeout w s) := by
  delta execRecoverTimeout
  repeat' first
      | with_reducible assumption | exact Foot.sub hp rfl | intro _ | with_reducible apply State.portDown_keeps
      | with_reducible apply State.twdCapture_keeps | with_reducible apply Keeps.ite
      | with_reducible apply KeepsOut.done | with_reducible apply KeepsOut.next | exact trivial | dsimp only | split

theorem execRelease_keeps {ft : Nat} {s₀ s : State} (n : Byte) (t : BitVec 48) (hp : 8592031766 &&& ft = 8592031766)
    (h : Keeps ft s₀ s) :
    KeepsOut ft s₀ (execRelease n t s) := by
  delta execRelease
  repeat' first
      | with_reducible assumption | exact Foot.sub hp rfl | intro _ | with_reducible apply State.barrierSyncAll_keeps
      | with_reducible apply State.gotDown_keeps | with_reducible apply State.barrierFailHere_keeps
      | with_reducible apply State.twdCapture_keeps | with_reducible apply State.twSendUp_keeps
      | with_reducible apply State.setTab_keeps | with_reducible apply Keeps.ite | with_reducible apply KeepsOut.done
      | with_reducible apply KeepsOut.next | exact trivial | dsimp only | split

theorem execRetrain_keeps {ft : Nat} {s₀ s : State} (w : TwPort) (hp : 25771969558 &&& ft = 25771969558)
    (h : Keeps ft s₀ s) :
    KeepsOut ft s₀ (execRetrain w s) := by
  delta execRetrain
  repeat' first
      | with_reducible assumption | exact Foot.sub hp rfl | intro _ | with_reducible apply State.reachTw_keeps
      | with_reducible apply State.twRetrain_keeps | with_reducible apply KeepsOut.done
      | with_reducible apply KeepsOut.next | exact trivial | dsimp only | split

theorem execTimeCmd_keeps {ft : Nat} {s₀ s : State} (w : TwPort) (dev : BitVec 5) (depth : BitVec 5) (ct : BitVec 48)
    (path : BitVec 20) (t1 : BitVec 64) (t2 : BitVec 64) (t3 : BitVec 64) (t4 : BitVec 64)
    (hp : 2097154 &&& ft = 2097154) (h : Keeps ft s₀ s) :
    KeepsOut ft s₀ (execTimeCmd w dev depth ct path t1 s t2 t3 t4) := by
  delta execTimeCmd
  repeat' first
      | with_reducible assumption | exact Foot.sub hp rfl | intro _ | with_reducible apply State.timeExchange_keeps
      | with_reducible apply KeepsOut.done | with_reducible apply KeepsOut.next | exact trivial | dsimp only | split

theorem execTwdCapRel_keeps {ft : Nat} {s₀ s : State}  (hp : 17179869186 &&& ft = 17179869186) (h : Keeps ft s₀ s) :
    KeepsOut ft s₀ (execTwdCapRel s) := by
  delta execTwdCapRel
  repeat' first
      | with_reducible assumption | exact Foot.sub hp rfl | intro _ | with_reducible apply State.reach_keeps
      | with_reducible apply State.twdCapRel_keeps | with_reducible apply KeepsOut.done
      | with_reducible apply KeepsOut.next | exact trivial | dsimp only | split

theorem execTwlSync_keeps {ft : Nat} {s₀ s : State} (q : SeqId) (hp : 8592032502 &&& ft = 8592032502)
    (h : Keeps ft s₀ s) :
    KeepsOut ft s₀ (execTwlSync q s) := by
  delta execTwlSync
  repeat' first
      | with_reducible assumption | exact Foot.sub hp rfl | intro _ | with_reducible apply State.twlSync_keeps
      | with_reducible apply State.barrierArrived_keeps | with_reducible apply Keeps.ite
      | with_reducible apply KeepsOut.done | with_reducible apply KeepsOut.next | exact trivial | dsimp only | split

theorem execWithdraw_keeps {ft : Nat} {s₀ s : State} (n : Byte) (d : Fin 32) (hp : 6 &&& ft = 6) (h : Keeps ft s₀ s) :
    KeepsOut ft s₀ (execWithdraw n d s) := by
  delta execWithdraw
  repeat' first
      | with_reducible assumption | exact Foot.sub hp rfl | with_reducible exact id
      | with_reducible exact SMap.sorted_set _ _ _ | with_reducible exact SMap.sorted_put _ _
      | with_reducible exact SMap.sorted_del _ | with_reducible exact SMap.sorted_filter _
      | with_reducible exact Memory.wf_filter _ | with_reducible exact fun _ => SMap.sorted_nil
      | with_reducible exact fun _ => Memory.wf_nil | intro _ | with_reducible apply State.withdrawAt_keeps
      | with_reducible apply State.gotUp_keeps | with_reducible apply Keeps.ite | with_reducible apply KeepsOut.done
      | with_reducible apply KeepsOut.next | exact trivial | dsimp only | split
end Sys2Proof.Machine
end

