-- ==== Sys2Proof/Laws/KeepsClocks.lean ====
section
/-! SUPPORT. Once for each: what the operations of Machine/Clocks.lean keep: the parts of the
state they may change, and that the canonical form of the state survives them. -/

namespace Sys2Proof.Machine

theorem State.adcGate_keeps {ft : Nat} {s₀ s : State} (m : Nat) (hp : 786442 &&& ft = 786442) (h : Keeps ft s₀ s) :
    Keeps ft s₀ (State.adcGate s m) := by
  delta State.adcGate
  repeat' first
      | with_reducible assumption | exact Foot.sub hp rfl | intro _ | with_reducible apply State.setFlag_keeps
      | with_reducible apply State.wr_keeps | with_reducible apply State.adcStop_keeps | dsimp only | split

theorem State.clockLoss_keeps {ft : Nat} {s₀ s : State} (q : Nat) (hp : 22 &&& ft = 22) (h : Keeps ft s₀ s) :
    Keeps ft s₀ (State.clockLoss s q) := by
  delta State.clockLoss
  repeat' first
      | with_reducible assumption | exact Foot.sub hp rfl | intro _ | with_reducible apply State.endRunHere_keeps
      | with_reducible apply State.setRun_keeps | with_reducible apply Keeps.ite | dsimp only | split

theorem State.leaveAll_keeps {ft : Nat} {s₀ s : State}  (hp : 2 &&& ft = 2) (h : Keeps ft s₀ s) :
    Keeps ft s₀ (State.leaveAll s) := by
  delta State.leaveAll
  repeat' first
      | with_reducible assumption | exact Foot.sub hp rfl | intro _ | with_reducible apply State.forUpTo_keeps
      | with_reducible apply State.applyIdle_keeps | with_reducible apply State.leaveSafe_keeps
      | with_reducible apply Keeps.ite | dsimp only | split

theorem State.enterFallback_keeps {ft : Nat} {s₀ s : State} (hp : 8592362518 &&& ft = 8592362518)
    (h : Keeps ft s₀ s) :
    Keeps ft s₀ (State.enterFallback s) := by
  delta State.enterFallback
  repeat' first
      | with_reducible assumption | exact Foot.sub hp rfl | intro _ | with_reducible apply State.setFlag_keeps
      | with_reducible apply State.forUpTo_keeps | with_reducible apply State.updCore_keeps
      | with_reducible apply State.selfRefresh_keeps | with_reducible apply State.portDown_keeps
      | with_reducible apply State.leaveAll_keeps | with_reducible apply Keeps.ite | dsimp only | split

theorem State.fabUnlock_keeps {ft : Nat} {s₀ s : State} (mask : Nat) (hp : 2 &&& ft = 2) (h : Keeps ft s₀ s) :
    Keeps ft s₀ (State.fabUnlock s mask) := by
  delta State.fabUnlock
  repeat' first
      | with_reducible assumption | exact Foot.sub hp rfl | intro _ | with_reducible apply State.forUpTo_keeps
      | with_reducible apply State.setBit_keeps | with_reducible apply Keeps.ite | dsimp only | split

theorem State.fmGo_keeps {ft : Nat} {s₀ s : State}  (hp : 2 &&& ft = 2) (h : Keeps ft s₀ s) :
    Keeps ft s₀ (State.fmGo s) := by
  delta State.fmGo
  repeat' first
      | with_reducible assumption | exact Foot.sub hp rfl | intro _ | with_reducible apply State.setFlag_keeps
      | dsimp only | split

theorem State.forcedRel_keeps {ft : Nat} {s₀ s : State}  (hp : 2 &&& ft = 2) (h : Keeps ft s₀ s) :
    Keeps ft s₀ (State.forcedRel s) := by
  delta State.forcedRel
  repeat' first
      | with_reducible assumption | exact Foot.sub hp rfl | intro _ | with_reducible apply State.wr_keeps
      | with_reducible apply State.setFlag_keeps | dsimp only | split

theorem State.leaveFallback_keeps {ft : Nat} {s₀ s : State}  (hp : 2 &&& ft = 2) (h : Keeps ft s₀ s) :
    Keeps ft s₀ (State.leaveFallback s) := by
  delta State.leaveFallback
  repeat' first
      | with_reducible assumption | exact Foot.sub hp rfl | intro _ | with_reducible apply State.setFlag_keeps
      | with_reducible apply State.forUpTo_keeps | with_reducible apply State.wr_keeps
      | with_reducible apply State.leaveAll_keeps | with_reducible apply Keeps.ite | dsimp only | split

theorem State.lockSettle_keeps {ft : Nat} {s₀ s : State}  (hp : 8592362518 &&& ft = 8592362518) (h : Keeps ft s₀ s) :
    Keeps ft s₀ (State.lockSettle s) := by
  delta State.lockSettle
  repeat' first
      | with_reducible assumption | exact Foot.sub hp rfl | intro _ | with_reducible apply State.leaveAll_keeps
      | with_reducible apply State.setFlag_keeps | with_reducible apply State.enterFallback_keeps
      | with_reducible apply State.leaveFallback_keeps | with_reducible apply Keeps.ite | dsimp only | split

theorem State.lossCapture_keeps {ft : Nat} {s₀ s : State} (r : Nat) (hp : 2 &&& ft = 2) (h : Keeps ft s₀ s) :
    Keeps ft s₀ (State.lossCapture s r) := by
  delta State.lossCapture
  repeat' first
      | with_reducible assumption | exact Foot.sub hp rfl | intro _ | with_reducible apply State.wr_keeps
      | with_reducible apply State.setFlag_keeps | with_reducible apply Keeps.ite | dsimp only | split

theorem State.lossRel_keeps {ft : Nat} {s₀ s : State}  (hp : 2 &&& ft = 2) (h : Keeps ft s₀ s) :
    Keeps ft s₀ (State.lossRel s) := by
  delta State.lossRel
  repeat' first
      | with_reducible assumption | exact Foot.sub hp rfl | intro _ | with_reducible apply State.wr_keeps
      | with_reducible apply State.setFlag_keeps | dsimp only | split

theorem State.refUnlock_keeps {ft : Nat} {s₀ s : State}  (hp : 2 &&& ft = 2) (h : Keeps ft s₀ s) :
    Keeps ft s₀ (State.refUnlock s) := by
  delta State.refUnlock
  repeat' first
      | with_reducible assumption | exact Foot.sub hp rfl | intro _ | with_reducible apply State.wr_keeps
      | with_reducible apply State.setBit_keeps | dsimp only | split

theorem State.refBack_keeps {ft : Nat} {s₀ s : State} (r : ClkRef) (hp : 2 &&& ft = 2) (h : Keeps ft s₀ s) :
    Keeps ft s₀ (State.refBack s r) := by
  delta State.refBack
  repeat' first
      | with_reducible assumption | exact Foot.sub hp rfl | intro _ | with_reducible apply State.setFlag_keeps
      | with_reducible apply State.refUnlock_keeps | with_reducible apply Keeps.ite | dsimp only | split

theorem State.stopAll_keeps {ft : Nat} {s₀ s : State}  (hp : 22 &&& ft = 22) (h : Keeps ft s₀ s) :
    Keeps ft s₀ (State.stopAll s) := by
  delta State.stopAll
  repeat' first
      | with_reducible assumption | exact Foot.sub hp rfl | intro _ | with_reducible apply State.forUpTo_keeps
      | with_reducible apply State.stopSeq_keeps | dsimp only | split

theorem State.toIosc_keeps {ft : Nat} {s₀ s : State}  (hp : 2 &&& ft = 2) (h : Keeps ft s₀ s) :
    Keeps ft s₀ (State.toIosc s) := by
  delta State.toIosc
  repeat' first
      | with_reducible assumption | exact Foot.sub hp rfl | intro _ | with_reducible apply State.setFlag_keeps
      | dsimp only | split

theorem State.writeClkEn_keeps {ft : Nat} {s₀ s : State} (v : Nat) (hp : 786442 &&& ft = 786442) (h : Keeps ft s₀ s) :
    Keeps ft s₀ (State.writeClkEn s v) := by
  delta State.writeClkEn
  repeat' first
      | with_reducible assumption | exact Foot.sub hp rfl | intro _ | with_reducible apply State.absentHit_keeps
      | with_reducible apply State.wr_keeps | with_reducible apply State.twlOffSettle_keeps
      | with_reducible apply State.setFlag_keeps | with_reducible apply State.setBit_keeps
      | with_reducible apply State.forUpTo_keeps | with_reducible apply State.adcGate_keeps
      | with_reducible apply Keeps.ite | dsimp only | split

theorem State.writeMult_keeps {ft : Nat} {s₀ s : State} (n : Nat) (v : Nat) (hp : 2 &&& ft = 2) (h : Keeps ft s₀ s) :
    Keeps ft s₀ (State.writeMult s n v) := by
  delta State.writeMult
  repeat' first
      | with_reducible assumption | exact Foot.sub hp rfl | intro _ | with_reducible apply State.setBit_keeps
      | with_reducible apply State.wr_keeps | dsimp only | split

theorem execClkEn_keeps {ft : Nat} {s₀ s : State} (v : Word) (hp : 17180655626 &&& ft = 17180655626)
    (h : Keeps ft s₀ s) :
    KeepsOut ft s₀ (execClkEn v s) := by
  delta execClkEn
  repeat' first
      | with_reducible assumption | exact Foot.sub hp rfl | intro _ | with_reducible apply State.reach_keeps
      | with_reducible apply State.writeClkEn_keeps | with_reducible apply KeepsOut.done
      | with_reducible apply KeepsOut.next | exact trivial | dsimp only | split

theorem execClkMfp_keeps {ft : Nat} {s₀ s : State} (m : MfpId) (v : Word) (hp : 17179869186 &&& ft = 17179869186)
    (h : Keeps ft s₀ s) :
    KeepsOut ft s₀ (execClkMfp m v s) := by
  delta execClkMfp
  repeat' first
      | with_reducible assumption | exact Foot.sub hp rfl | intro _ | with_reducible apply State.reachUnit_keeps
      | with_reducible apply State.writeMult_keeps | with_reducible apply Keeps.ite
      | with_reducible apply KeepsOut.done | with_reducible apply KeepsOut.next | exact trivial | dsimp only | split

theorem execFmEnd_keeps {ft : Nat} {s₀ s : State} (hz : ClkHz) (hp : 8589934594 &&& ft = 8589934594)
    (h : Keeps ft s₀ s) :
    KeepsOut ft s₀ (execFmEnd hz s) := by
  delta execFmEnd
  repeat' first
      | with_reducible assumption | exact Foot.sub hp rfl | intro _ | with_reducible apply State.pulse_keeps
      | with_reducible apply State.wr_keeps | with_reducible apply State.setFlag_keeps
      | with_reducible apply Keeps.ite | with_reducible apply KeepsOut.done | with_reducible apply KeepsOut.next
      | exact trivial | dsimp only | split

theorem execFmGo_keeps {ft : Nat} {s₀ s : State}  (hp : 17179869186 &&& ft = 17179869186) (h : Keeps ft s₀ s) :
    KeepsOut ft s₀ (execFmGo s) := by
  delta execFmGo
  repeat' first
      | with_reducible assumption | exact Foot.sub hp rfl | intro _ | with_reducible apply State.reach_keeps
      | with_reducible apply State.fmGo_keeps | with_reducible apply KeepsOut.done
      | with_reducible apply KeepsOut.next | exact trivial | dsimp only | split

theorem execForcedRel_keeps {ft : Nat} {s₀ s : State}  (hp : 17179869186 &&& ft = 17179869186) (h : Keeps ft s₀ s) :
    KeepsOut ft s₀ (execForcedRel s) := by
  delta execForcedRel
  repeat' first
      | with_reducible assumption | exact Foot.sub hp rfl | intro _ | with_reducible apply State.reach_keeps
      | with_reducible apply State.forcedRel_keeps | with_reducible apply KeepsOut.done
      | with_reducible apply KeepsOut.next | exact trivial | dsimp only | split

theorem execIoscWindow_keeps {ft : Nat} {s₀ s : State} (count : Word) (hp : 2 &&& ft = 2) (h : Keeps ft s₀ s) :
    KeepsOut ft s₀ (execIoscWindow count s) := by
  delta execIoscWindow
  repeat' first
      | with_reducible assumption | exact Foot.sub hp rfl | intro _ | with_reducible apply State.setFlag_keeps
      | with_reducible apply State.wr_keeps | with_reducible apply State.toIosc_keeps
      | with_reducible apply Keeps.ite | with_reducible apply KeepsOut.done | with_reducible apply KeepsOut.next
      | exact trivial | dsimp only | split

theorem execLossRel_keeps {ft : Nat} {s₀ s : State}  (hp : 17179869186 &&& ft = 17179869186) (h : Keeps ft s₀ s) :
    KeepsOut ft s₀ (execLossRel s) := by
  delta execLossRel
  repeat' first
      | with_reducible assumption | exact Foot.sub hp rfl | intro _ | with_reducible apply State.reach_keeps
      | with_reducible apply State.lossRel_keeps | with_reducible apply KeepsOut.done
      | with_reducible apply KeepsOut.next | exact trivial | dsimp only | split

theorem execMuxSwitch_keeps {ft : Nat} {s₀ s : State} (forced : List (BitVec 7)) (hp : 2 &&& ft = 2)
    (h : Keeps ft s₀ s) :
    KeepsOut ft s₀ (execMuxSwitch forced s) := by
  delta execMuxSwitch
  repeat' first
      | with_reducible assumption | exact Foot.sub hp rfl | intro _ | with_reducible apply State.wr_keeps
      | with_reducible apply State.setFlag_keeps | with_reducible apply Keeps.ite | with_reducible apply Keeps.foldl
      | with_reducible apply KeepsOut.done | with_reducible apply KeepsOut.next | exact trivial | dsimp only | split

theorem execPllLock_keeps {ft : Nat} {s₀ s : State} (i : Island) (hp : 8592362518 &&& ft = 8592362518)
    (h : Keeps ft s₀ s) :
    KeepsOut ft s₀ (execPllLock i s) := by
  delta execPllLock
  repeat' first
      | with_reducible assumption | exact Foot.sub hp rfl | intro _ | with_reducible apply State.setBit_keeps
      | with_reducible apply State.lockSettle_keeps | with_reducible apply Keeps.ite
      | with_reducible apply KeepsOut.done | with_reducible apply KeepsOut.next | exact trivial | dsimp only | split

theorem execRefclkLoss_keeps {ft : Nat} {s₀ s : State} (why : RefFault) (fab : Byte) (hp : 22 &&& ft = 22)
    (h : Keeps ft s₀ s) :
    KeepsOut ft s₀ (execRefclkLoss fab s why) := by
  delta execRefclkLoss
  repeat' first
      | with_reducible assumption | exact Foot.sub hp rfl | intro _ | with_reducible apply State.stopAll_keeps
      | with_reducible apply State.lossCapture_keeps | with_reducible apply State.setFlag_keeps
      | with_reducible apply State.fabUnlock_keeps | with_reducible apply State.refUnlock_keeps
      | with_reducible apply State.toIosc_keeps | with_reducible apply Keeps.ite | with_reducible apply KeepsOut.done
      | with_reducible apply KeepsOut.next | exact trivial | dsimp only | split

theorem execReferenceRestored_keeps {ft : Nat} {s₀ s : State} (r : ClkRef) (counts : List Word) (hp : 2 &&& ft = 2)
    (h : Keeps ft s₀ s) :
    KeepsOut ft s₀ (execReferenceRestored r s counts) := by
  delta execReferenceRestored
  repeat' first
      | with_reducible assumption | exact Foot.sub hp rfl | intro _ | with_reducible apply State.refBack_keeps
      | with_reducible apply Keeps.ite | with_reducible apply KeepsOut.done | with_reducible apply KeepsOut.next
      | exact trivial | dsimp only | split

theorem execTrefLoss_keeps {ft : Nat} {s₀ s : State} (why : RefFault) (fab : Byte) (hp : 22 &&& ft = 22)
    (h : Keeps ft s₀ s) :
    KeepsOut ft s₀ (execTrefLoss fab s why) := by
  delta execTrefLoss
  repeat' first
      | with_reducible assumption | exact Foot.sub hp rfl | intro _ | with_reducible apply State.setFlag_keeps
      | with_reducible apply State.lossCapture_keeps | with_reducible apply State.forUpTo_keeps
      | with_reducible apply State.clockLoss_keeps | with_reducible apply State.tdrStop_keeps
      | with_reducible apply State.clearTaps_keeps | with_reducible apply State.fabUnlock_keeps
      | with_reducible apply State.wr_keeps | with_reducible apply State.setBit_keeps
      | with_reducible apply State.losePath_keeps | with_reducible apply Keeps.ite
      | with_reducible apply KeepsOut.done | with_reducible apply KeepsOut.next | exact trivial | dsimp only | split

theorem execXtal32Loss_keeps {ft : Nat} {s₀ s : State} (why : RefFault) (hp : 2 &&& ft = 2) (h : Keeps ft s₀ s) :
    KeepsOut ft s₀ (execXtal32Loss s why) := by
  delta execXtal32Loss
  repeat' first
      | with_reducible assumption | exact Foot.sub hp rfl | intro _ | with_reducible apply State.setFlag_keeps
      | with_reducible apply State.lossCapture_keeps | with_reducible apply Keeps.ite
      | with_reducible apply KeepsOut.done | with_reducible apply KeepsOut.next | exact trivial | dsimp only | split
end Sys2Proof.Machine
end

