-- ==== Sys2Proof/Laws/KeepsDebug.lean ====
section
/-! SUPPORT. Once for each: what the operations of Machine/Debug.lean keep: the parts of the
state they may change, and that the canonical form of the state survives them. -/

namespace Sys2Proof.Machine

theorem State.deny_keeps {ft : Nat} {s₀ s : State} (p : DbgPort) (hp : 2 &&& ft = 2) (h : Keeps ft s₀ s) :
    Keeps ft s₀ (State.deny s p) := by
  delta State.deny
  repeat' first
      | with_reducible assumption | exact Foot.sub hp rfl | intro _ | with_reducible apply State.setFlag_keeps
      | dsimp only | split

theorem State.atLevel_keeps {ft : Nat} {s₀ s : State} (p : DbgPort) (lvl : Nat) (f : State → State)
    (hp : 2 &&& ft = 2) (h : Keeps ft s₀ s) (h_f : ∀ s , Keeps ft s₀ s → Keeps ft s₀ (f s)) :
    Keeps ft s₀ (State.atLevel s p lvl f) := by
  delta State.atLevel
  repeat' first
      | with_reducible assumption | exact Foot.sub hp rfl | intro _ | with_reducible apply State.setFlag_keeps
      | with_reducible apply State.deny_keeps | with_reducible apply h_f | with_reducible apply Keeps.ite
      | dsimp only | split

theorem State.authGo_keeps {ft : Nat} {s₀ s : State} (p : DbgPort) (hp : 2 &&& ft = 2) (h : Keeps ft s₀ s) :
    Keeps ft s₀ (State.authGo s p) := by
  delta State.authGo
  repeat' first
      | with_reducible assumption | exact Foot.sub hp rfl | intro _ | with_reducible apply State.setFlag_keeps
      | with_reducible apply State.wr_keeps | with_reducible apply State.incSat_keeps
      | with_reducible apply Keeps.ite | dsimp only | split

theorem State.chalGo_keeps {ft : Nat} {s₀ s : State} (p : DbgPort) (hp : 68719476738 &&& ft = 68719476738)
    (h : Keeps ft s₀ s) :
    Keeps ft s₀ (State.chalGo s p) := by
  delta State.chalGo
  repeat' first
      | with_reducible assumption | exact Foot.sub hp rfl | intro _ | with_reducible apply State.forUpTo_keeps
      | with_reducible apply State.wr_keeps | with_reducible apply State.setFlag_keeps
      | with_reducible apply State.draw_keeps | dsimp only | split

theorem State.goOn_keeps {ft : Nat} {s₀ s : State} (n : Nat) (step : Bool) (hp : 262146 &&& ft = 262146)
    (h : Keeps ft s₀ s) :
    Keeps ft s₀ (State.goOn s n step) := by
  delta State.goOn
  repeat' first
      | with_reducible assumption | exact Foot.sub hp rfl | intro _ | with_reducible apply State.updCore_keeps
      | with_reducible apply State.setFlag_keeps | with_reducible apply State.wr_keeps
      | with_reducible apply State.wdtReload_keeps | with_reducible apply Keeps.ite | dsimp only | split

theorem State.resume_keeps {ft : Nat} {s₀ s : State} (n : Nat) (hp : 262146 &&& ft = 262146) (h : Keeps ft s₀ s) :
    Keeps ft s₀ (State.resume s n) := by
  delta State.resume
  repeat' first
      | with_reducible assumption | exact Foot.sub hp rfl | intro _ | with_reducible apply State.goOn_keeps
      | with_reducible apply Keeps.ite | dsimp only | split

theorem State.giveUp_keeps {ft : Nat} {s₀ s : State} (n : Nat) (hp : 262146 &&& ft = 262146) (h : Keeps ft s₀ s) :
    Keeps ft s₀ (State.giveUp s n) := by
  delta State.giveUp
  repeat' first
      | with_reducible assumption | exact Foot.sub hp rfl | intro _ | with_reducible apply State.forUpTo_keeps
      | with_reducible apply State.wr_keeps | with_reducible apply State.setFlag_keeps
      | with_reducible apply State.resume_keeps | dsimp only | split

theorem State.dbgEnd_keeps {ft : Nat} {s₀ s : State} (p : DbgPort) (hp : 262146 &&& ft = 262146) (h : Keeps ft s₀ s) :
    Keeps ft s₀ (State.dbgEnd s p) := by
  delta State.dbgEnd
  repeat' first
      | with_reducible assumption | exact Foot.sub hp rfl | intro _ | with_reducible apply State.setFlag_keeps
      | with_reducible apply State.wr_keeps | with_reducible apply State.forUpTo_keeps
      | with_reducible apply State.giveUp_keeps | with_reducible apply Keeps.ite | dsimp only | split

theorem State.owning_keeps {ft : Nat} {s₀ s : State} (p : DbgPort) (n : Nat) (f : State → State) (hp : 2 &&& ft = 2)
    (h : Keeps ft s₀ s) (h_f : ∀ s , Keeps ft s₀ s → Keeps ft s₀ (f s)) :
    Keeps ft s₀ (State.owning s p n f) := by
  delta State.owning
  repeat' first
      | with_reducible assumption | exact Foot.sub hp rfl | intro _ | with_reducible apply State.deny_keeps
      | with_reducible apply State.setFlag_keeps | with_reducible apply State.wr_keeps | with_reducible apply h_f
      | with_reducible apply Keeps.ite | dsimp only | split

theorem State.runControl_keeps {ft : Nat} {s₀ s : State} (p : DbgPort) (lvl : Nat) (n : Nat) (f : State → State)
    (hp : 2 &&& ft = 2) (h : Keeps ft s₀ s) (h_f : ∀ s , Keeps ft s₀ s → Keeps ft s₀ (f s)) :
    Keeps ft s₀ (State.runControl s p lvl n f) := by
  delta State.runControl
  repeat' first
      | with_reducible assumption | exact Foot.sub hp rfl | intro _ | with_reducible apply State.absentHit_keeps
      | with_reducible apply State.atLevel_keeps | with_reducible apply State.owning_keeps | with_reducible apply h_f
      | with_reducible apply Keeps.ite | dsimp only | split

theorem State.haltMfp_keeps {ft : Nat} {s₀ s : State} (n : Nat) (hp : 262146 &&& ft = 262146) (h : Keeps ft s₀ s) :
    Keeps ft s₀ (State.haltMfp s n) := by
  delta State.haltMfp
  repeat' first
      | with_reducible assumption | exact Foot.sub hp rfl | intro _ | with_reducible apply State.requestHalt_keeps
      | with_reducible apply Keeps.ite | dsimp only | split

theorem State.dbgHalt_keeps {ft : Nat} {s₀ s : State} (p : DbgPort) (n : Nat) (hp : 262146 &&& ft = 262146)
    (h : Keeps ft s₀ s) :
    Keeps ft s₀ (State.dbgHalt s p n) := by
  delta State.dbgHalt
  repeat' first
      | with_reducible assumption | exact Foot.sub hp rfl | intro _ | with_reducible apply State.runControl_keeps
      | with_reducible apply State.haltMfp_keeps | dsimp only | split

theorem State.dbgReset_keeps {ft : Nat} {s₀ s : State} (p : DbgPort) (n : Nat) (hp : 330754 &&& ft = 330754)
    (h : Keeps ft s₀ s) :
    Keeps ft s₀ (State.dbgReset s p n) := by
  delta State.dbgReset
  repeat' first
      | with_reducible assumption | exact Foot.sub hp rfl | intro _ | with_reducible apply State.runControl_keeps
      | with_reducible apply State.mfpReset_keeps | with_reducible apply Keeps.ite | dsimp only | split

theorem State.dbgResume_keeps {ft : Nat} {s₀ s : State} (p : DbgPort) (n : Nat) (hp : 262146 &&& ft = 262146)
    (h : Keeps ft s₀ s) :
    Keeps ft s₀ (State.dbgResume s p n) := by
  delta State.dbgResume
  repeat' first
      | with_reducible assumption | exact Foot.sub hp rfl | intro _ | with_reducible apply State.absentHit_keeps
      | with_reducible apply State.atLevel_keeps | with_reducible apply State.resume_keeps
      | with_reducible apply Keeps.ite | dsimp only | split

theorem State.stepMfp_keeps {ft : Nat} {s₀ s : State} (n : Nat) (hp : 262146 &&& ft = 262146) (h : Keeps ft s₀ s) :
    Keeps ft s₀ (State.stepMfp s n) := by
  delta State.stepMfp
  repeat' first
      | with_reducible assumption | exact Foot.sub hp rfl | intro _ | with_reducible apply State.goOn_keeps
      | with_reducible apply Keeps.ite | dsimp only | split

theorem State.dbgStep_keeps {ft : Nat} {s₀ s : State} (p : DbgPort) (n : Nat) (hp : 262146 &&& ft = 262146)
    (h : Keeps ft s₀ s) :
    Keeps ft s₀ (State.dbgStep s p n) := by
  delta State.dbgStep
  repeat' first
      | with_reducible assumption | exact Foot.sub hp rfl | intro _ | with_reducible apply State.runControl_keeps
      | with_reducible apply State.stepMfp_keeps | dsimp only | split

theorem State.loadCells_keeps {ft : Nat} {s₀ s : State} (cells : List Bool) (hp : 4 &&& ft = 4) (h : Keeps ft s₀ s) :
    Keeps ft s₀ (State.loadCells s cells) := by
  delta State.loadCells
  repeat' first
      | with_reducible assumption | exact Foot.sub hp rfl | intro _ | with_reducible apply State.forUpTo_keeps
      | with_reducible apply State.setTab_keeps | dsimp only | split

theorem State.portWrite_keeps {ft : Nat} {s₀ s : State} (p : DbgPort) (a : Nat) (v : Nat) (f : State → State)
    (hp : 17179869186 &&& ft = 17179869186) (h : Keeps ft s₀ s) (h_f : ∀ s , Keeps ft s₀ s → Keeps ft s₀ (f s)) :
    Keeps ft s₀ (State.portWrite s p a v f) := by
  delta State.portWrite
  repeat' first
      | with_reducible assumption | exact Foot.sub hp rfl | intro _ | with_reducible apply State.reach_keeps
      | with_reducible apply h_f | with_reducible apply Keeps.ite | dsimp only | split

theorem State.regFileWrite_keeps {ft : Nat} {s₀ s : State} (n : Nat) (w : Nat) (v : Nat) (hp : 262146 &&& ft = 262146)
    (h : Keeps ft s₀ s) :
    Keeps ft s₀ (State.regFileWrite s n w v) := by
  delta State.regFileWrite
  repeat' first
      | with_reducible assumption | exact Foot.sub hp rfl | intro _ | with_reducible apply State.updCore_keeps
      | with_reducible apply State.wr_keeps | with_reducible apply Keeps.ite | dsimp only | split

theorem State.regAccess_keeps {ft : Nat} {s₀ s : State} (p : DbgPort) (n : Nat) (v : Option Nat)
    (hp : 262146 &&& ft = 262146) (h : Keeps ft s₀ s) :
    KeepsOptP ft s₀ (State.regAccess s p n v) := by
  delta State.regAccess
  repeat' first
      | with_reducible assumption | exact Foot.sub hp rfl | intro _ | with_reducible apply State.wr_keeps
      | with_reducible apply State.regFileWrite_keeps | with_reducible apply Keeps.ite
      | with_reducible apply KeepsOptP.some | exact KeepsOptP.none | dsimp only | split

theorem State.tapAccess_keeps {ft : Nat} {s₀ s : State} (addr : Nat) (data : Nat) (wr : Bool) (next : Nat)
    (hp : 2 &&& ft = 2) (h : Keeps ft s₀ s) :
    Keeps ft s₀ (State.tapAccess s addr data wr next) := by
  delta State.tapAccess
  repeat' first
      | with_reducible assumption | exact Foot.sub hp rfl | intro _ | with_reducible apply State.wr_keeps
      | with_reducible apply State.setFlag_keeps | with_reducible apply Keeps.ite | dsimp only | split

theorem execAuthGo_keeps {ft : Nat} {s₀ s : State} (p : DbgPort) (hp : 17179869186 &&& ft = 17179869186)
    (h : Keeps ft s₀ s) :
    KeepsOut ft s₀ (execAuthGo p s) := by
  delta execAuthGo
  repeat' first
      | with_reducible assumption | exact Foot.sub hp rfl | intro _ | with_reducible apply State.portWrite_keeps
      | with_reducible apply State.authGo_keeps | with_reducible apply KeepsOut.done
      | with_reducible apply KeepsOut.next | exact trivial | dsimp only | split

theorem execChalGo_keeps {ft : Nat} {s₀ s : State} (p : DbgPort) (hp : 85899345922 &&& ft = 85899345922)
    (h : Keeps ft s₀ s) :
    KeepsOut ft s₀ (execChalGo p s) := by
  delta execChalGo
  repeat' first
      | with_reducible assumption | exact Foot.sub hp rfl | intro _ | with_reducible apply State.portWrite_keeps
      | with_reducible apply State.chalGo_keeps | with_reducible apply KeepsOut.done
      | with_reducible apply KeepsOut.next | exact trivial | dsimp only | split

theorem execChallengeExpiry_keeps {ft : Nat} {s₀ s : State} (p : DbgPort) (hp : 2 &&& ft = 2) (h : Keeps ft s₀ s) :
    KeepsOut ft s₀ (execChallengeExpiry p s) := by
  delta execChallengeExpiry
  repeat' first
      | with_reducible assumption | exact Foot.sub hp rfl | intro _ | with_reducible apply State.setFlag_keeps
      | with_reducible apply Keeps.ite | with_reducible apply KeepsOut.done | with_reducible apply KeepsOut.next
      | exact trivial | dsimp only | split

theorem execDbgRegAccess_keeps {ft : Nat} {s₀ s : State} (p : DbgPort) (m : MfpId) (v : Option Word)
    (hp : 17180131330 &&& ft = 17180131330) (h : Keeps ft s₀ s) :
    KeepsOut ft s₀ (execDbgRegAccess p m v s) := by
  delta execDbgRegAccess
  repeat' first
      | with_reducible assumption | exact Foot.sub hp rfl | intro _ | with_reducible apply State.reach_keeps
      | with_reducible apply State.answer_keeps | with_reducible apply State.absentHit_keeps
      | with_reducible apply State.atLevel_keeps | with_reducible apply State.regAccess_keeps
      | with_reducible apply Keeps.ite | with_reducible apply KeepsOut.done | with_reducible apply KeepsOut.next
      | exact trivial | with_reducible refine Keeps.of_someP (by assumption) ?_ | dsimp only | split

theorem execDbgaccRead_keeps {ft : Nat} {s₀ s : State} (addr : Word) (hp : 2 &&& ft = 2) (h : Keeps ft s₀ s) :
    KeepsOut ft s₀ (execDbgaccRead addr s) := by
  delta execDbgaccRead
  repeat' first
      | with_reducible assumption | exact Foot.sub hp rfl | intro _ | with_reducible apply State.tapAccess_keeps
      | with_reducible apply KeepsOut.done | with_reducible apply KeepsOut.next | exact trivial | dsimp only | split

theorem execDbgaccReadInc_keeps {ft : Nat} {s₀ s : State} (addr : Word) (hp : 2 &&& ft = 2) (h : Keeps ft s₀ s) :
    KeepsOut ft s₀ (execDbgaccReadInc addr s) := by
  delta execDbgaccReadInc
  repeat' first
      | with_reducible assumption | exact Foot.sub hp rfl | intro _ | with_reducible apply State.tapAccess_keeps
      | with_reducible apply KeepsOut.done | with_reducible apply KeepsOut.next | exact trivial | dsimp only | split

theorem execDbgaccWrite_keeps {ft : Nat} {s₀ s : State} (addr : Word) (data : Word) (hp : 2 &&& ft = 2)
    (h : Keeps ft s₀ s) :
    KeepsOut ft s₀ (execDbgaccWrite addr data s) := by
  delta execDbgaccWrite
  repeat' first
      | with_reducible assumption | exact Foot.sub hp rfl | intro _ | with_reducible apply State.tapAccess_keeps
      | with_reducible apply KeepsOut.done | with_reducible apply KeepsOut.next | exact trivial | dsimp only | split

theorem execDrst_keeps {ft : Nat} {s₀ s : State} (p : DbgPort) (m : MfpId) (hp : 17180199938 &&& ft = 17180199938)
    (h : Keeps ft s₀ s) :
    KeepsOut ft s₀ (execDrst p m s) := by
  delta execDrst
  repeat' first
      | with_reducible assumption | exact Foot.sub hp rfl | intro _ | with_reducible apply State.portWrite_keeps
      | with_reducible apply State.dbgReset_keeps | with_reducible apply KeepsOut.done
      | with_reducible apply KeepsOut.next | exact trivial | dsimp only | split

theorem execHalt_keeps {ft : Nat} {s₀ s : State} (p : DbgPort) (m : MfpId) (hp : 17180131330 &&& ft = 17180131330)
    (h : Keeps ft s₀ s) :
    KeepsOut ft s₀ (execHalt p m s) := by
  delta execHalt
  repeat' first
      | with_reducible assumption | exact Foot.sub hp rfl | intro _ | with_reducible apply State.portWrite_keeps
      | with_reducible apply State.dbgHalt_keeps | with_reducible apply KeepsOut.done
      | with_reducible apply KeepsOut.next | exact trivial | dsimp only | split

theorem execHaltForce_keeps {ft : Nat} {s₀ s : State} (m : MfpId) (hp : 262144 &&& ft = 262144) (h : Keeps ft s₀ s) :
    KeepsOut ft s₀ (execHaltForce m s) := by
  delta execHaltForce
  repeat' first
      | with_reducible assumption | exact Foot.sub hp rfl | intro _ | with_reducible apply State.updCore_keeps
      | with_reducible apply Keeps.ite | with_reducible apply KeepsOut.done | with_reducible apply KeepsOut.next
      | exact trivial | dsimp only | split

theorem execHaltTaken_keeps {ft : Nat} {s₀ s : State} (m : MfpId) (hp : 262146 &&& ft = 262146) (h : Keeps ft s₀ s) :
    KeepsOut ft s₀ (execHaltTaken m s) := by
  delta execHaltTaken
  repeat' first
      | with_reducible assumption | exact Foot.sub hp rfl | intro _ | with_reducible apply State.takeHalt_keeps
      | with_reducible apply Keeps.ite | with_reducible apply KeepsOut.done | with_reducible apply KeepsOut.next
      | exact trivial | dsimp only | split

theorem execLockoutEnd_keeps {ft : Nat} {s₀ s : State} (p : DbgPort) (hp : 2 &&& ft = 2) (h : Keeps ft s₀ s) :
    KeepsOut ft s₀ (execLockoutEnd p s) := by
  delta execLockoutEnd
  repeat' first
      | with_reducible assumption | exact Foot.sub hp rfl | intro _ | with_reducible apply State.setFlag_keeps
      | with_reducible apply Keeps.ite | with_reducible apply KeepsOut.done | with_reducible apply KeepsOut.next
      | exact trivial | dsimp only | split

theorem execLogout_keeps {ft : Nat} {s₀ s : State} (p : DbgPort) (hp : 17180131330 &&& ft = 17180131330)
    (h : Keeps ft s₀ s) :
    KeepsOut ft s₀ (execLogout p s) := by
  delta execLogout
  repeat' first
      | with_reducible assumption | exact Foot.sub hp rfl | intro _ | with_reducible apply State.portWrite_keeps
      | with_reducible apply State.dbgEnd_keeps | with_reducible apply KeepsOut.done
      | with_reducible apply KeepsOut.next | exact trivial | dsimp only | split

theorem execResume_keeps {ft : Nat} {s₀ s : State} (p : DbgPort) (m : MfpId) (hp : 17180131330 &&& ft = 17180131330)
    (h : Keeps ft s₀ s) :
    KeepsOut ft s₀ (execResume p m s) := by
  delta execResume
  repeat' first
      | with_reducible assumption | exact Foot.sub hp rfl | intro _ | with_reducible apply State.portWrite_keeps
      | with_reducible apply State.dbgResume_keeps | with_reducible apply KeepsOut.done
      | with_reducible apply KeepsOut.next | exact trivial | dsimp only | split

theorem execStep_keeps {ft : Nat} {s₀ s : State} (p : DbgPort) (m : MfpId) (hp : 17180131330 &&& ft = 17180131330)
    (h : Keeps ft s₀ s) :
    KeepsOut ft s₀ (execStep p m s) := by
  delta execStep
  repeat' first
      | with_reducible assumption | exact Foot.sub hp rfl | intro _ | with_reducible apply State.portWrite_keeps
      | with_reducible apply State.dbgStep_keeps | with_reducible apply KeepsOut.done
      | with_reducible apply KeepsOut.next | exact trivial | dsimp only | split

theorem execTapBypass_keeps {ft : Nat} {s₀ s : State}  (hp : 2 &&& ft = 2) (h : Keeps ft s₀ s) :
    KeepsOut ft s₀ (execTapBypass s) := by
  delta execTapBypass
  repeat' first
      | with_reducible assumption | exact Foot.sub hp rfl | intro _ | with_reducible apply State.wr_keeps
      | with_reducible apply KeepsOut.done | with_reducible apply KeepsOut.next | exact trivial | dsimp only | split

theorem execTapClamp_keeps {ft : Nat} {s₀ s : State}  (hp : 2 &&& ft = 2) (h : Keeps ft s₀ s) :
    KeepsOut ft s₀ (execTapClamp s) := by
  delta execTapClamp
  repeat' first
      | with_reducible assumption | exact Foot.sub hp rfl | intro _ | with_reducible apply State.wr_keeps
      | with_reducible apply KeepsOut.done | with_reducible apply KeepsOut.next | exact trivial | dsimp only | split

theorem execTapExtest_keeps {ft : Nat} {s₀ s : State} (cells : List Bool) (hp : 6 &&& ft = 6) (h : Keeps ft s₀ s) :
    KeepsOut ft s₀ (execTapExtest s cells) := by
  delta execTapExtest
  repeat' first
      | with_reducible assumption | exact Foot.sub hp rfl | intro _ | with_reducible apply State.wr_keeps
      | with_reducible apply State.loadCells_keeps | with_reducible apply Keeps.ite
      | with_reducible apply KeepsOut.done | with_reducible apply KeepsOut.next | exact trivial | dsimp only | split

theorem execTapHighz_keeps {ft : Nat} {s₀ s : State}  (hp : 2 &&& ft = 2) (h : Keeps ft s₀ s) :
    KeepsOut ft s₀ (execTapHighz s) := by
  delta execTapHighz
  repeat' first
      | with_reducible assumption | exact Foot.sub hp rfl | intro _ | with_reducible apply State.wr_keeps
      | with_reducible apply KeepsOut.done | with_reducible apply KeepsOut.next | exact trivial | dsimp only | split

theorem execTapIdcode_keeps {ft : Nat} {s₀ s : State}  (hp : 2 &&& ft = 2) (h : Keeps ft s₀ s) :
    KeepsOut ft s₀ (execTapIdcode s) := by
  delta execTapIdcode
  repeat' first
      | with_reducible assumption | exact Foot.sub hp rfl | intro _ | with_reducible apply State.wr_keeps
      | with_reducible apply KeepsOut.done | with_reducible apply KeepsOut.next | exact trivial | dsimp only | split

theorem execTapReset_keeps {ft : Nat} {s₀ s : State}  (hp : 262146 &&& ft = 262146) (h : Keeps ft s₀ s) :
    KeepsOut ft s₀ (execTapReset s) := by
  delta execTapReset
  repeat' first
      | with_reducible assumption | exact Foot.sub hp rfl | intro _ | with_reducible apply State.wr_keeps
      | with_reducible apply State.dbgEnd_keeps | with_reducible apply KeepsOut.done
      | with_reducible apply KeepsOut.next | exact trivial | dsimp only | split

theorem execTapSamplePreload_keeps {ft : Nat} {s₀ s : State} (cells : List Bool) (hp : 6 &&& ft = 6)
    (h : Keeps ft s₀ s) :
    KeepsOut ft s₀ (execTapSamplePreload s cells) := by
  delta execTapSamplePreload
  repeat' first
      | with_reducible assumption | exact Foot.sub hp rfl | intro _ | with_reducible apply State.loadCells_keeps
      | with_reducible apply State.wr_keeps | with_reducible apply KeepsOut.done | with_reducible apply KeepsOut.next
      | exact trivial | dsimp only | split
end Sys2Proof.Machine
end

