-- ==== Sys2Proof/Laws/KeepsSlpBase.lean ====
section
/-! SUPPORT. Once for each: what the operations of Machine/SlpBase.lean keep: the parts of the
state they may change, and that the canonical form of the state survives them. -/

namespace Sys2Proof.Machine

theorem State.advertise_keeps {ft : Nat} {s₀ s : State} (n : Nat) (hp : 2 &&& ft = 2) (h : Keeps ft s₀ s) :
    Keeps ft s₀ (State.advertise s n) := by
  delta State.advertise
  repeat' first
      | with_reducible assumption | exact Foot.sub hp rfl | intro _ | with_reducible apply State.wr_keeps
      | dsimp only | split

theorem State.clearAnswers_keeps {ft : Nat} {s₀ s : State} (k : Nat) (hp : 6 &&& ft = 6) (h : Keeps ft s₀ s) :
    Keeps ft s₀ (State.clearAnswers s k) := by
  delta State.clearAnswers
  repeat' first
      | with_reducible assumption | exact Foot.sub hp rfl | intro _ | with_reducible apply State.wr_keeps
      | with_reducible apply State.forUpTo_keeps | with_reducible apply State.setTab_keeps | dsimp only | split

theorem State.sent_keeps {ft : Nat} {s₀ s : State}  (hp : 2 &&& ft = 2) (h : Keeps ft s₀ s) :
    Keeps ft s₀ (State.sent s) := by
  delta State.sent
  repeat' first
      | with_reducible assumption | exact Foot.sub hp rfl | intro _ | with_reducible apply State.incSat_keeps
      | dsimp only | split

theorem State.flushReplies_keeps {ft : Nat} {s₀ s : State}  (hp : 2147483650 &&& ft = 2147483650) (h : Keeps ft s₀ s) :
    Keeps ft s₀ (State.flushReplies s) := by
  delta State.flushReplies
  repeat' first
      | with_reducible assumption | exact Foot.sub hp rfl | with_reducible exact id
      | with_reducible exact SMap.sorted_set _ _ _ | with_reducible exact SMap.sorted_put _ _
      | with_reducible exact SMap.sorted_del _ | with_reducible exact SMap.sorted_filter _
      | with_reducible exact Memory.wf_filter _ | with_reducible exact fun _ => SMap.sorted_nil
      | with_reducible exact fun _ => Memory.wf_nil | intro _ | with_reducible apply State.withEthTx_keeps
      | with_reducible apply State.sent_keeps | with_reducible apply Keeps.ite | with_reducible apply Keeps.foldl
      | dsimp only | split

theorem State.setUnacked_keeps {ft : Nat} {s₀ s : State} (n : Nat) (l : List SlpTx) (hp : 8388608 &&& ft = 8388608)
    (h : Keeps ft s₀ s) :
    Keeps ft s₀ (State.setUnacked s n l) := by
  delta State.setUnacked
  repeat' first
      | with_reducible assumption | exact Foot.sub hp rfl | with_reducible exact id
      | with_reducible exact SMap.sorted_set _ _ _ | with_reducible exact SMap.sorted_put _ _
      | with_reducible exact SMap.sorted_del _ | with_reducible exact SMap.sorted_filter _
      | with_reducible exact Memory.wf_filter _ | with_reducible exact fun _ => SMap.sorted_nil
      | with_reducible exact fun _ => Memory.wf_nil | intro _ | with_reducible apply State.withSlpUnacked_keeps
      | dsimp only | split

theorem State.sendNew_keeps {ft : Nat} {s₀ s : State} (n : Nat) (x : SlpTx) (hp : 8388610 &&& ft = 8388610)
    (h : Keeps ft s₀ s) :
    Keeps ft s₀ (State.sendNew s n x) := by
  delta State.sendNew
  repeat' first
      | with_reducible assumption | exact Foot.sub hp rfl | intro _ | with_reducible apply State.advertise_keeps
      | with_reducible apply State.sent_keeps | with_reducible apply State.inc_keeps
      | with_reducible apply State.setUnacked_keeps | dsimp only | split

theorem State.setWait_keeps {ft : Nat} {s₀ s : State} (n : Nat) (l : List SlpTx) (hp : 4194304 &&& ft = 4194304)
    (h : Keeps ft s₀ s) :
    Keeps ft s₀ (State.setWait s n l) := by
  delta State.setWait
  repeat' first
      | with_reducible assumption | exact Foot.sub hp rfl | with_reducible exact id
      | with_reducible exact SMap.sorted_set _ _ _ | with_reducible exact SMap.sorted_put _ _
      | with_reducible exact SMap.sorted_del _ | with_reducible exact SMap.sorted_filter _
      | with_reducible exact Memory.wf_filter _ | with_reducible exact fun _ => SMap.sorted_nil
      | with_reducible exact fun _ => Memory.wf_nil | intro _ | with_reducible apply State.withSlpWait_keeps
      | dsimp only | split

theorem State.flushWait_keeps {ft : Nat} {s₀ s : State} (n : Nat) (x0 : Nat) (hp : 12582914 &&& ft = 12582914)
    (h : Keeps ft s₀ s) :
    Keeps ft s₀ (State.flushWait s n x0) := by
  induction x0 generalizing s n with
  | zero => first | exact h | trivial
  | succ k ih =>
    unfold State.flushWait
    repeat' first
        | with_reducible assumption | exact Foot.sub hp rfl | intro _ | with_reducible apply ih
        | with_reducible apply State.sendNew_keeps | with_reducible apply State.setWait_keeps | dsimp only | split

theorem State.notice_keeps {ft : Nat} {s₀ s : State} (kind : Nat) (count : Nat) (arg0 : Nat) (arg1 : Nat)
    (hp : 134217728 &&& ft = 134217728) (h : Keeps ft s₀ s) :
    Keeps ft s₀ (State.notice s kind count arg0 arg1) := by
  delta State.notice
  repeat' first
      | with_reducible assumption | exact Foot.sub hp rfl | with_reducible exact id
      | with_reducible exact SMap.sorted_set _ _ _ | with_reducible exact SMap.sorted_put _ _
      | with_reducible exact SMap.sorted_del _ | with_reducible exact SMap.sorted_filter _
      | with_reducible exact Memory.wf_filter _ | with_reducible exact fun _ => SMap.sorted_nil
      | with_reducible exact fun _ => Memory.wf_nil | intro _ | with_reducible apply State.withNotices_keeps
      | with_reducible apply Keeps.ite | dsimp only | split

theorem State.noticeEvents_keeps {ft : Nat} {s₀ s : State} (x0 : Nat) (hp : 135266304 &&& ft = 135266304)
    (h : Keeps ft s₀ s) :
    Keeps ft s₀ (State.noticeEvents s x0) := by
  induction x0 generalizing s  with
  | zero => first | exact h | trivial
  | succ k ih =>
    unfold State.noticeEvents
    repeat' first
        | with_reducible assumption | exact Foot.sub hp rfl | with_reducible exact id
        | with_reducible exact SMap.sorted_set _ _ _ | with_reducible exact SMap.sorted_put _ _
        | with_reducible exact SMap.sorted_del _ | with_reducible exact SMap.sorted_filter _
        | with_reducible exact Memory.wf_filter _ | with_reducible exact fun _ => SMap.sorted_nil
        | with_reducible exact fun _ => Memory.wf_nil | intro _ | with_reducible apply ih
        | with_reducible apply State.withNotices_keeps | with_reducible apply State.withEvq_keeps | dsimp only
        | split

theorem State.noticeObjects_keeps {ft : Nat} {s₀ s : State}  (hp : 402653184 &&& ft = 402653184) (h : Keeps ft s₀ s) :
    Keeps ft s₀ (State.noticeObjects s) := by
  delta State.noticeObjects
  repeat' first
      | with_reducible assumption | exact Foot.sub hp rfl | with_reducible exact id
      | with_reducible exact SMap.sorted_set _ _ _ | with_reducible exact SMap.sorted_put _ _
      | with_reducible exact SMap.sorted_del _ | with_reducible exact SMap.sorted_filter _
      | with_reducible exact Memory.wf_filter _ | with_reducible exact fun _ => SMap.sorted_nil
      | with_reducible exact fun _ => Memory.wf_nil | intro _ | with_reducible apply State.withSlpObjs_keeps
      | with_reducible apply State.notice_keeps | with_reducible apply Keeps.ite | with_reducible apply Keeps.foldl
      | dsimp only | split

theorem State.noticeReuploads_keeps {ft : Nat} {s₀ s : State} (hp : 134217728 &&& ft = 134217728)
    (h : Keeps ft s₀ s) :
    Keeps ft s₀ (State.noticeReuploads s) := by
  delta State.noticeReuploads
  repeat' first
      | with_reducible assumption | exact Foot.sub hp rfl | intro _ | with_reducible apply State.notice_keeps
      | with_reducible apply Keeps.ite | with_reducible apply Keeps.foldl | dsimp only | split

theorem State.noticePump_keeps {ft : Nat} {s₀ s : State}  (hp : 403701760 &&& ft = 403701760) (h : Keeps ft s₀ s) :
    Keeps ft s₀ (State.noticePump s) := by
  delta State.noticePump
  repeat' first
      | with_reducible assumption | exact Foot.sub hp rfl | intro _ | with_reducible apply State.noticeObjects_keeps
      | with_reducible apply State.noticeReuploads_keeps | with_reducible apply State.noticeEvents_keeps | dsimp only
      | split

theorem State.readStop_keeps {ft : Nat} {s₀ s : State}  (hp : 68610 &&& ft = 68610) (h : Keeps ft s₀ s) :
    Keeps ft s₀ (State.readStop s) := by
  delta State.readStop
  repeat' first
      | with_reducible assumption | exact Foot.sub hp rfl | intro _ | with_reducible apply State.dropUse_keeps
      | with_reducible apply State.wr_keeps | with_reducible apply State.setFlag_keeps | dsimp only | split

theorem State.reply_keeps {ft : Nat} {s₀ s : State} (r : EthReply) (hp : 2147483650 &&& ft = 2147483650)
    (h : Keeps ft s₀ s) :
    Keeps ft s₀ (State.reply s r) := by
  delta State.reply
  repeat' first
      | with_reducible assumption | exact Foot.sub hp rfl | with_reducible exact id
      | with_reducible exact SMap.sorted_set _ _ _ | with_reducible exact SMap.sorted_put _ _
      | with_reducible exact SMap.sorted_del _ | with_reducible exact SMap.sorted_filter _
      | with_reducible exact Memory.wf_filter _ | with_reducible exact fun _ => SMap.sorted_nil
      | with_reducible exact fun _ => Memory.wf_nil | intro _ | with_reducible apply State.sent_keeps
      | with_reducible apply State.withEthTx_keeps | with_reducible apply Keeps.ite | dsimp only | split

theorem State.resend_keeps {ft : Nat} {s₀ s : State} (x : SlpTx) (hp : 2 &&& ft = 2) (h : Keeps ft s₀ s) :
    Keeps ft s₀ (State.resend s x).1 := by
  delta State.resend
  repeat' first
      | with_reducible assumption | exact Foot.sub hp rfl | intro _ | with_reducible apply State.incSat_keeps
      | with_reducible apply State.sent_keeps | dsimp only | split

theorem State.sendAck_keeps {ft : Nat} {s₀ s : State} (n : Nat) (hp : 2 &&& ft = 2) (h : Keeps ft s₀ s) :
    Keeps ft s₀ (State.sendAck s n) := by
  delta State.sendAck
  repeat' first
      | with_reducible assumption | exact Foot.sub hp rfl | intro _ | with_reducible apply State.sent_keeps
      | with_reducible apply State.advertise_keeps | with_reducible apply Keeps.ite | dsimp only | split

theorem State.takeBack_keeps {ft : Nat} {s₀ s : State} (n : Nat) (hp : 12582912 &&& ft = 12582912)
    (h : Keeps ft s₀ s) :
    Keeps ft s₀ (State.takeBack s n) := by
  delta State.takeBack
  repeat' first
      | with_reducible assumption | exact Foot.sub hp rfl | intro _ | with_reducible apply State.setUnacked_keeps
      | with_reducible apply State.setWait_keeps | dsimp only | split

theorem State.sessEnd_keeps {ft : Nat} {s₀ s : State}  (hp : 398789638 &&& ft = 398789638) (h : Keeps ft s₀ s) :
    Keeps ft s₀ (State.sessEnd s) := by
  delta State.sessEnd
  repeat' first
      | with_reducible assumption | exact Foot.sub hp rfl | with_reducible exact id
      | with_reducible exact SMap.sorted_set _ _ _ | with_reducible exact SMap.sorted_put _ _
      | with_reducible exact SMap.sorted_del _ | with_reducible exact SMap.sorted_filter _
      | with_reducible exact Memory.wf_filter _ | with_reducible exact fun _ => SMap.sorted_nil
      | with_reducible exact fun _ => Memory.wf_nil | intro _ | with_reducible apply State.takeBack_keeps
      | with_reducible apply State.setUnacked_keeps | with_reducible apply State.setWait_keeps
      | with_reducible apply State.withSlpObjs_keeps | with_reducible apply State.withDbgQ_keeps
      | with_reducible apply State.withCtrlQ_keeps | with_reducible apply State.withSlpHeld_keeps
      | with_reducible apply State.clearAnswers_keeps | with_reducible apply State.dbgEnd_keeps
      | with_reducible apply State.setFlag_keeps | with_reducible apply State.readStop_keeps
      | with_reducible apply State.wr_keeps | with_reducible apply Keeps.ite | with_reducible apply Keeps.foldl
      | dsimp only | split

theorem State.sessOpen_keeps {ft : Nat} {s₀ s : State} (p : SlpPeer) (maxpay : Nat)
    (hp : 68719476738 &&& ft = 68719476738) (h : Keeps ft s₀ s) :
    Keeps ft s₀ (State.sessOpen s p maxpay) := by
  delta State.sessOpen
  repeat' first
      | with_reducible assumption | exact Foot.sub hp rfl | intro _ | with_reducible apply State.wr_keeps
      | with_reducible apply State.setFlag_keeps | with_reducible apply State.draw_keeps
      | with_reducible apply State.forUpTo_keeps | with_reducible apply State.advertise_keeps | dsimp only | split

theorem State.setHeld_keeps {ft : Nat} {s₀ s : State} (n : Nat) (l : List SlpHeld) (hp : 16777216 &&& ft = 16777216)
    (h : Keeps ft s₀ s) :
    Keeps ft s₀ (State.setHeld s n l) := by
  delta State.setHeld
  repeat' first
      | with_reducible assumption | exact Foot.sub hp rfl | with_reducible exact id
      | with_reducible exact SMap.sorted_set _ _ _ | with_reducible exact SMap.sorted_put _ _
      | with_reducible exact SMap.sorted_del _ | with_reducible exact SMap.sorted_filter _
      | with_reducible exact Memory.wf_filter _ | with_reducible exact fun _ => SMap.sorted_nil
      | with_reducible exact fun _ => Memory.wf_nil | intro _ | with_reducible apply State.withSlpHeld_keeps
      | dsimp only | split

theorem State.slpMessage_keeps {ft : Nat} {s₀ s : State} (n : Nat) (typ : Nat) (ws : List Nat)
    (hp : 12582914 &&& ft = 12582914) (h : Keeps ft s₀ s) :
    Keeps ft s₀ (State.slpMessage s n typ ws) := by
  delta State.slpMessage
  repeat' first
      | with_reducible assumption | exact Foot.sub hp rfl | intro _ | with_reducible apply State.flushWait_keeps
      | with_reducible apply State.setWait_keeps | dsimp only | split
end Sys2Proof.Machine
end

