-- ==== Sys2Proof/Laws/KeepsEvents.lean ====
section
/-! SUPPORT. Once for each: what the operations of Machine/Events.lean keep: the parts of the
state they may change, and that the canonical form of the state survives them. -/

namespace Sys2Proof.Machine

theorem State.deliver_keeps {ft : Nat} {s₀ s : State} (n : Nat) (ts : Nat) (hp : 135266304 &&& ft = 135266304)
    (h : Keeps ft s₀ s) :
    Keeps ft s₀ (State.deliver s n ts) := by
  delta State.deliver
  repeat' first
      | with_reducible assumption | exact Foot.sub hp rfl | with_reducible exact id
      | with_reducible exact SMap.sorted_set _ _ _ | with_reducible exact SMap.sorted_put _ _
      | with_reducible exact SMap.sorted_del _ | with_reducible exact SMap.sorted_filter _
      | with_reducible exact Memory.wf_filter _ | with_reducible exact fun _ => SMap.sorted_nil
      | with_reducible exact fun _ => Memory.wf_nil | intro _ | with_reducible apply State.noticeEvents_keeps
      | with_reducible apply State.forUpTo_keeps | with_reducible apply State.withEvq_keeps
      | with_reducible apply Keeps.ite | dsimp only | split

theorem State.evTake_keeps {ft : Nat} {s₀ s : State} (d : Nat) (hp : 1048576 &&& ft = 1048576) (h : Keeps ft s₀ s) :
    Keeps ft s₀ (State.evTake s d) := by
  delta State.evTake
  repeat' first
      | with_reducible assumption | exact Foot.sub hp rfl | with_reducible exact id
      | with_reducible exact SMap.sorted_set _ _ _ | with_reducible exact SMap.sorted_put _ _
      | with_reducible exact SMap.sorted_del _ | with_reducible exact SMap.sorted_filter _
      | with_reducible exact Memory.wf_filter _ | with_reducible exact fun _ => SMap.sorted_nil
      | with_reducible exact fun _ => Memory.wf_nil | intro _ | with_reducible apply State.withEvq_keeps | dsimp only
      | split

theorem State.evinLevel_keeps {ft : Nat} {s₀ s : State} (k : Nat) (on : Bool) (hp : 6 &&& ft = 6) (h : Keeps ft s₀ s) :
    Keeps ft s₀ (State.evinLevel s k on) := by
  delta State.evinLevel
  repeat' first
      | with_reducible assumption | exact Foot.sub hp rfl | intro _ | with_reducible apply State.setBit_keeps
      | with_reducible apply State.inc_keeps | with_reducible apply State.forUpTo_keeps
      | with_reducible apply State.ledgerInc_keeps | with_reducible apply Keeps.ite | dsimp only | split

theorem State.evinSample_keeps {ft : Nat} {s₀ s : State} (k : Nat) (ball : Bool) (hp : 6 &&& ft = 6)
    (h : Keeps ft s₀ s) :
    Keeps ft s₀ (State.evinSample s k ball) := by
  delta State.evinSample
  repeat' first
      | with_reducible assumption | exact Foot.sub hp rfl | intro _ | with_reducible apply State.wr_keeps
      | with_reducible apply State.evinLevel_keeps | with_reducible apply Keeps.ite | dsimp only | split

theorem State.evtNext_keeps {ft : Nat} {s₀ s : State} (m : Nat) (q : Master) (hp : 1048578 &&& ft = 1048578)
    (h : Keeps ft s₀ s) :
    Keeps ft s₀ (State.evtNext s m q) := by
  delta State.evtNext
  repeat' first
      | with_reducible assumption | exact Foot.sub hp rfl | intro _ | with_reducible apply State.answer_keeps
      | with_reducible apply State.evTake_keeps | with_reducible apply Keeps.ite | dsimp only | split

theorem State.routeBit_keeps {ft : Nat} {s₀ s : State} (n : Nat) (i : Nat) (b : Bool) (hp : 4 &&& ft = 4)
    (h : Keeps ft s₀ s) :
    Keeps ft s₀ (State.routeBit s n i b) := by
  delta State.routeBit
  repeat' first
      | with_reducible assumption | exact Foot.sub hp rfl | intro _ | with_reducible apply State.setTab_keeps
      | dsimp only | split

theorem State.stormMask_keeps {ft : Nat} {s₀ s : State} (n : Nat) (kind : Nat) (hp : 6 &&& ft = 6)
    (h : Keeps ft s₀ s) :
    Keeps ft s₀ (State.stormMask s n kind) := by
  delta State.stormMask
  repeat' first
      | with_reducible assumption | exact Foot.sub hp rfl | intro _ | with_reducible apply State.routeBit_keeps
      | with_reducible apply State.wr_keeps | with_reducible apply State.setFlag_keeps
      | with_reducible apply Keeps.ite | dsimp only | split

theorem State.routed_keeps {ft : Nat} {s₀ s : State} (n : Nat) (ts : Nat) (hp : 4430233606 &&& ft = 4430233606)
    (h : Keeps ft s₀ s) :
    Keeps ft s₀ (State.routed s n ts) := by
  delta State.routed
  repeat' first
      | with_reducible assumption | exact Foot.sub hp rfl | with_reducible exact id
      | with_reducible exact SMap.sorted_set _ _ _ | with_reducible exact SMap.sorted_put _ _
      | with_reducible exact SMap.sorted_del _ | with_reducible exact SMap.sorted_filter _
      | with_reducible exact Memory.wf_filter _ | with_reducible exact fun _ => SMap.sorted_nil
      | with_reducible exact fun _ => Memory.wf_nil | intro _ | with_reducible apply State.withOcc_keeps
      | with_reducible apply State.stormMask_keeps | with_reducible apply State.deliver_keeps
      | with_reducible apply Keeps.ite | dsimp only | split

theorem State.occur_keeps {ft : Nat} {s₀ s : State} (n : Nat) (ts : Nat) (hp : 4430233622 &&& ft = 4430233622)
    (h : Keeps ft s₀ s) :
    Keeps ft s₀ (State.occur s n ts) := by
  delta State.occur
  repeat' first
      | with_reducible assumption | exact Foot.sub hp rfl | intro _ | with_reducible apply State.setTab_keeps
      | with_reducible apply State.routed_keeps | with_reducible apply State.tripEvery_keeps
      | with_reducible apply Keeps.ite | dsimp only | split

theorem State.showOutside_keeps {ft : Nat} {s₀ s : State} (n : Nat) (on : Bool) (hp : 2 &&& ft = 2)
    (h : Keeps ft s₀ s) :
    Keeps ft s₀ (State.showOutside s n on) := by
  delta State.showOutside
  repeat' first
      | with_reducible assumption | exact Foot.sub hp rfl | intro _ | with_reducible apply State.setFlag_keeps
      | with_reducible apply State.setBit_keeps | with_reducible apply Keeps.ite | dsimp only | split

theorem State.stormRel_keeps {ft : Nat} {s₀ s : State}  (hp : 2 &&& ft = 2) (h : Keeps ft s₀ s) :
    Keeps ft s₀ (State.stormRel s) := by
  delta State.stormRel
  repeat' first
      | with_reducible assumption | exact Foot.sub hp rfl | intro _ | with_reducible apply State.wr_keeps
      | with_reducible apply State.setFlag_keeps | dsimp only | split

theorem State.unmask_keeps {ft : Nat} {s₀ s : State} (n : Nat) (hp : 4430233606 &&& ft = 4430233606)
    (h : Keeps ft s₀ s) :
    Keeps ft s₀ (State.unmask s n) := by
  delta State.unmask
  repeat' first
      | with_reducible assumption | exact Foot.sub hp rfl | with_reducible exact id
      | with_reducible exact SMap.sorted_set _ _ _ | with_reducible exact SMap.sorted_put _ _
      | with_reducible exact SMap.sorted_del _ | with_reducible exact SMap.sorted_filter _
      | with_reducible exact Memory.wf_filter _ | with_reducible exact fun _ => SMap.sorted_nil
      | with_reducible exact fun _ => Memory.wf_nil | intro _ | with_reducible apply State.setTab_keeps
      | with_reducible apply State.routeBit_keeps | with_reducible apply State.withOcc_keeps
      | with_reducible apply State.routed_keeps | with_reducible apply Keeps.ite | dsimp only | split

theorem State.unraise_keeps {ft : Nat} {s₀ s : State} (n : Nat) (hp : 8589934592 &&& ft = 8589934592)
    (h : Keeps ft s₀ s) :
    Keeps ft s₀ (State.unraise s n) := by
  delta State.unraise
  repeat' first
      | with_reducible assumption | exact Foot.sub hp rfl | with_reducible exact id
      | with_reducible exact SMap.sorted_set _ _ _ | with_reducible exact SMap.sorted_put _ _
      | with_reducible exact SMap.sorted_del _ | with_reducible exact SMap.sorted_filter _
      | with_reducible exact Memory.wf_filter _ | with_reducible exact fun _ => SMap.sorted_nil
      | with_reducible exact fun _ => Memory.wf_nil | intro _ | with_reducible apply State.withRaised_keeps
      | dsimp only | split

theorem execEventOccurrence_keeps {ft : Nat} {s₀ s : State} (n : EvSource) (hp : 13020168214 &&& ft = 13020168214)
    (h : Keeps ft s₀ s) :
    KeepsOut ft s₀ (execEventOccurrence n s) := by
  delta execEventOccurrence
  repeat' first
      | with_reducible assumption | exact Foot.sub hp rfl | intro _ | with_reducible apply State.occur_keeps
      | with_reducible apply State.routeBit_keeps | with_reducible apply State.unraise_keeps
      | with_reducible apply State.showOutside_keeps | with_reducible apply Keeps.ite
      | with_reducible apply KeepsOut.done | with_reducible apply KeepsOut.next | exact trivial | dsimp only | split

theorem execEventSourceInactive_keeps {ft : Nat} {s₀ s : State} (n : EvSource) (hp : 8589934598 &&& ft = 8589934598)
    (h : Keeps ft s₀ s) :
    KeepsOut ft s₀ (execEventSourceInactive n s) := by
  delta execEventSourceInactive
  repeat' first
      | with_reducible assumption | exact Foot.sub hp rfl | intro _ | with_reducible apply State.unraise_keeps
      | with_reducible apply State.showOutside_keeps | with_reducible apply State.routeBit_keeps
      | with_reducible apply Keeps.ite | with_reducible apply KeepsOut.done | with_reducible apply KeepsOut.next
      | exact trivial | dsimp only | split

theorem execEvinChange_keeps {ft : Nat} {s₀ s : State} (k : Fin 8) (samples : List Bool) (hp : 6 &&& ft = 6)
    (h : Keeps ft s₀ s) :
    KeepsOut ft s₀ (execEvinChange k s samples) := by
  delta execEvinChange
  repeat' first
      | with_reducible assumption | exact Foot.sub hp rfl | intro _ | with_reducible apply State.evinSample_keeps
      | with_reducible apply Keeps.foldl | with_reducible apply KeepsOut.done | with_reducible apply KeepsOut.next
      | exact trivial | dsimp only | split

theorem execEvqTake_keeps {ft : Nat} {s₀ s : State}  (hp : 1048576 &&& ft = 1048576) (h : Keeps ft s₀ s) :
    KeepsOut ft s₀ (execEvqTake s) := by
  delta execEvqTake
  repeat' first
      | with_reducible assumption | exact Foot.sub hp rfl | intro _ | with_reducible apply State.evTake_keeps
      | with_reducible apply KeepsOut.done | with_reducible apply KeepsOut.next | exact trivial | dsimp only | split

theorem execEvtNext_keeps {ft : Nat} {s₀ s : State} (m : MfpId) (q : Master) (hp : 17180917762 &&& ft = 17180917762)
    (h : Keeps ft s₀ s) :
    KeepsOut ft s₀ (execEvtNext m q s) := by
  delta execEvtNext
  repeat' first
      | with_reducible assumption | exact Foot.sub hp rfl | intro _ | with_reducible apply State.reachUnit_keeps
      | with_reducible apply State.evtNext_keeps | with_reducible apply KeepsOut.done
      | with_reducible apply KeepsOut.next | exact trivial | dsimp only | split

theorem execEvtUnmask_keeps {ft : Nat} {s₀ s : State} (n : BitVec 11) (hp : 21610102790 &&& ft = 21610102790)
    (h : Keeps ft s₀ s) :
    KeepsOut ft s₀ (execEvtUnmask n s) := by
  delta execEvtUnmask
  repeat' first
      | with_reducible assumption | exact Foot.sub hp rfl | intro _ | with_reducible apply State.reach_keeps
      | with_reducible apply State.unmask_keeps | with_reducible apply KeepsOut.done
      | with_reducible apply KeepsOut.next | exact trivial | dsimp only | split

theorem execStormRel_keeps {ft : Nat} {s₀ s : State}  (hp : 17179869186 &&& ft = 17179869186) (h : Keeps ft s₀ s) :
    KeepsOut ft s₀ (execStormRel s) := by
  delta execStormRel
  repeat' first
      | with_reducible assumption | exact Foot.sub hp rfl | intro _ | with_reducible apply State.reach_keeps
      | with_reducible apply State.stormRel_keeps | with_reducible apply KeepsOut.done
      | with_reducible apply KeepsOut.next | exact trivial | dsimp only | split

theorem execStuckTimeout_keeps {ft : Nat} {s₀ s : State} (n : EvSource) (hp : 6 &&& ft = 6) (h : Keeps ft s₀ s) :
    KeepsOut ft s₀ (execStuckTimeout n s) := by
  delta execStuckTimeout
  repeat' first
      | with_reducible assumption | exact Foot.sub hp rfl | intro _ | with_reducible apply State.stormMask_keeps
      | with_reducible apply Keeps.ite | with_reducible apply KeepsOut.done | with_reducible apply KeepsOut.next
      | exact trivial | dsimp only | split
end Sys2Proof.Machine
end

