-- ==== Sys2Proof/Laws/KeepsLedger.lean ====
section
/-! SUPPORT. Once for each: what the operations of Machine/Ledger.lean keep: the parts of the
state they may change, and that the canonical form of the state survives them. -/

namespace Sys2Proof.Machine

theorem State.channelsReset_keeps {ft : Nat} {s₀ s : State} (hp : 2 &&& ft = 2) (h : Keeps ft s₀ s) :
    Keeps ft s₀ (State.channelsReset s) :=
  h.upd (fun p => by cases p <;> first | exact fun _ => rfl | exact Foot.not hp (by decide)) fun c =>
    { c with regs := SMap.sorted_filter _ c.regs }

theorem State.flushStart_keeps {ft : Nat} {s₀ s : State}  (hp : 6 &&& ft = 6) (h : Keeps ft s₀ s) :
    Keeps ft s₀ (State.flushStart s) := by
  delta State.flushStart
  repeat' first
      | with_reducible assumption | exact Foot.sub hp rfl | intro _ | with_reducible apply State.setFlag_keeps
      | with_reducible apply State.wr_keeps | with_reducible apply State.setTab_keeps
      | with_reducible apply Keeps.ite | dsimp only | split

theorem State.shutdownEnd_keeps {ft : Nat} {s₀ s : State}  (hp : 2 &&& ft = 2) (h : Keeps ft s₀ s) :
    Keeps ft s₀ (State.shutdownEnd s) := by
  delta State.shutdownEnd
  repeat' first
      | with_reducible assumption | exact Foot.sub hp rfl | intro _ | with_reducible apply State.setFlag_keeps
      | dsimp only | split

theorem State.safehold_keeps {ft : Nat} {s₀ s : State}  (hp : 2 &&& ft = 2) (h : Keeps ft s₀ s) :
    Keeps ft s₀ (State.safehold s) := by
  delta State.safehold
  repeat' first
      | with_reducible assumption | exact Foot.sub hp rfl | intro _ | with_reducible apply State.wr_keeps
      | with_reducible apply State.setFlag_keeps | dsimp only | split

theorem State.startGoesOn_keeps {ft : Nat} {s₀ s : State}  (hp : 2 &&& ft = 2) (h : Keeps ft s₀ s) :
    Keeps ft s₀ (State.startGoesOn s) := by
  delta State.startGoesOn
  repeat' first
      | with_reducible assumption | exact Foot.sub hp rfl | intro _ | with_reducible apply State.wr_keeps
      | dsimp only | split

theorem State.bstAct_keeps {ft : Nat} {s₀ s : State} (state : Nat) (hp : 6 &&& ft = 6) (h : Keeps ft s₀ s) :
    Keeps ft s₀ (State.bstAct s state) := by
  delta State.bstAct
  repeat' first
      | with_reducible assumption | exact Foot.sub hp rfl | intro _ | with_reducible apply State.channelsReset_keeps
      | with_reducible apply State.wr_keeps | with_reducible apply State.setFlag_keeps
      | with_reducible apply State.flushStart_keeps | with_reducible apply State.shutdownEnd_keeps
      | with_reducible apply State.safehold_keeps | with_reducible apply State.startGoesOn_keeps
      | with_reducible apply Keeps.ite | dsimp only | split

theorem State.bstRecord_keeps {ft : Nat} {s₀ s : State} (ws : List Nat) (hp : 6 &&& ft = 6) (h : Keeps ft s₀ s) :
    Keeps ft s₀ (State.bstRecord s ws) := by
  delta State.bstRecord
  repeat' first
      | with_reducible assumption | exact Foot.sub hp rfl | intro _ | with_reducible apply State.setFlag_keeps
      | with_reducible apply State.wr_keeps | with_reducible apply State.forUpTo_keeps
      | with_reducible apply State.setTab_keeps | with_reducible apply Keeps.ite | dsimp only | split

theorem State.bstNoRun_keeps {ft : Nat} {s₀ s : State} (why : Nat) (hp : 6 &&& ft = 6) (h : Keeps ft s₀ s) :
    Keeps ft s₀ (State.bstNoRun s why) := by
  delta State.bstNoRun
  repeat' first
      | with_reducible assumption | exact Foot.sub hp rfl | intro _ | with_reducible apply State.bstRecord_keeps
      | dsimp only | split

theorem State.bstStart_keeps {ft : Nat} {s₀ s : State} (w : Nat) (hp : 6 &&& ft = 6) (h : Keeps ft s₀ s) :
    Keeps ft s₀ (State.bstStart s w) := by
  delta State.bstStart
  repeat' first
      | with_reducible assumption | exact Foot.sub hp rfl | intro _ | with_reducible apply State.setFlag_keeps
      | with_reducible apply State.wr_keeps | with_reducible apply State.bstAct_keeps
      | with_reducible apply State.bstNoRun_keeps | with_reducible apply Keeps.ite | dsimp only | split

theorem State.bstTryStart_keeps {ft : Nat} {s₀ s : State}  (hp : 6 &&& ft = 6) (h : Keeps ft s₀ s) :
    Keeps ft s₀ (State.bstTryStart s) := by
  delta State.bstTryStart
  repeat' first
      | with_reducible assumption | exact Foot.sub hp rfl | intro _ | with_reducible apply State.bstStart_keeps
      | with_reducible apply State.setFlag_keeps | with_reducible apply Keeps.ite | dsimp only | split

theorem State.rtcLoad_keeps {ft : Nat} {s₀ s : State} (sec : Nat) (hp : 2 &&& ft = 2) (h : Keeps ft s₀ s) :
    Keeps ft s₀ (State.rtcLoad s sec) := by
  delta State.rtcLoad
  repeat' first
      | with_reducible assumption | exact Foot.sub hp rfl | intro _ | with_reducible apply State.wr_keeps
      | dsimp only | split

theorem State.rtcValid_keeps {ft : Nat} {s₀ s : State}  (hp : 6 &&& ft = 6) (h : Keeps ft s₀ s) :
    Keeps ft s₀ (State.rtcValid s) := by
  delta State.rtcValid
  repeat' first
      | with_reducible assumption | exact Foot.sub hp rfl | intro _ | with_reducible apply State.setFlag_keeps
      | with_reducible apply State.setTab_keeps | with_reducible apply Keeps.ite | dsimp only | split

theorem State.rtcAlign_keeps {ft : Nat} {s₀ s : State} (ptp : Nat) (hp : 6 &&& ft = 6) (h : Keeps ft s₀ s) :
    Keeps ft s₀ (State.rtcAlign s ptp) := by
  delta State.rtcAlign
  repeat' first
      | with_reducible assumption | exact Foot.sub hp rfl | intro _ | with_reducible apply State.rtcLoad_keeps
      | with_reducible apply State.rtcValid_keeps | with_reducible apply State.incSat_keeps
      | with_reducible apply Keeps.ite | dsimp only | split

theorem State.rtcSet_keeps {ft : Nat} {s₀ s : State}  (hp : 6 &&& ft = 6) (h : Keeps ft s₀ s) :
    Keeps ft s₀ (State.rtcSet s) := by
  delta State.rtcSet
  repeat' first
      | with_reducible assumption | exact Foot.sub hp rfl | intro _ | with_reducible apply State.rtcValid_keeps
      | with_reducible apply State.rtcLoad_keeps | dsimp only | split

theorem State.rtcTick_keeps {ft : Nat} {s₀ s : State} (n : Nat) (hp : 2 &&& ft = 2) (h : Keeps ft s₀ s) :
    Keeps ft s₀ (State.rtcTick s n) := by
  delta State.rtcTick
  repeat' first
      | with_reducible assumption | exact Foot.sub hp rfl | intro _ | with_reducible apply State.wr_keeps
      | with_reducible apply State.setFlag_keeps | with_reducible apply Keeps.ite | dsimp only | split

theorem execBstPrecheck_keeps {ft : Nat} {s₀ s : State}  (hp : 6 &&& ft = 6) (h : Keeps ft s₀ s) :
    KeepsOut ft s₀ (execBstPrecheck s) := by
  delta execBstPrecheck
  repeat' first
      | with_reducible assumption | exact Foot.sub hp rfl | intro _ | with_reducible apply State.bstAct_keeps
      | with_reducible apply State.bstNoRun_keeps | with_reducible apply Keeps.ite
      | with_reducible apply KeepsOut.done | with_reducible apply KeepsOut.next | exact trivial | dsimp only | split

theorem execBstStartTimeout_keeps {ft : Nat} {s₀ s : State}  (hp : 6 &&& ft = 6) (h : Keeps ft s₀ s) :
    KeepsOut ft s₀ (execBstStartTimeout s) := by
  delta execBstStartTimeout
  repeat' first
      | with_reducible assumption | exact Foot.sub hp rfl | intro _ | with_reducible apply State.wr_keeps
      | with_reducible apply State.setFlag_keeps | with_reducible apply State.bstAct_keeps
      | with_reducible apply State.bstNoRun_keeps | with_reducible apply Keeps.ite
      | with_reducible apply KeepsOut.done | with_reducible apply KeepsOut.next | exact trivial | dsimp only | split

theorem execFlushEnd_keeps {ft : Nat} {s₀ s : State} (ok : Bool) (hp : 2 &&& ft = 2) (h : Keeps ft s₀ s) :
    KeepsOut ft s₀ (execFlushEnd ok s) := by
  delta execFlushEnd
  repeat' first
      | with_reducible assumption | exact Foot.sub hp rfl | intro _ | with_reducible apply State.setFlag_keeps
      | with_reducible apply State.inc_keeps | with_reducible apply State.shutdownEnd_keeps
      | with_reducible apply Keeps.ite | with_reducible apply KeepsOut.done | with_reducible apply KeepsOut.next
      | exact trivial | dsimp only | split

theorem execFlushGo_keeps {ft : Nat} {s₀ s : State}  (hp : 17179869190 &&& ft = 17179869190) (h : Keeps ft s₀ s) :
    KeepsOut ft s₀ (execFlushGo s) := by
  delta execFlushGo
  repeat' first
      | with_reducible assumption | exact Foot.sub hp rfl | intro _ | with_reducible apply State.reach_keeps
      | with_reducible apply State.flushStart_keeps | with_reducible apply KeepsOut.done
      | with_reducible apply KeepsOut.next | exact trivial | dsimp only | split

theorem execFlushInterval_keeps {ft : Nat} {s₀ s : State}  (hp : 6 &&& ft = 6) (h : Keeps ft s₀ s) :
    KeepsOut ft s₀ (execFlushInterval s) := by
  delta execFlushInterval
  repeat' first
      | with_reducible assumption | exact Foot.sub hp rfl | intro _ | with_reducible apply State.flushStart_keeps
      | with_reducible apply Keeps.ite | with_reducible apply KeepsOut.done | with_reducible apply KeepsOut.next
      | exact trivial | dsimp only | split

theorem execLedgerMinute_keeps {ft : Nat} {s₀ s : State}  (hp : 6 &&& ft = 6) (h : Keeps ft s₀ s) :
    KeepsOut ft s₀ (execLedgerMinute s) := by
  delta execLedgerMinute
  repeat' first
      | with_reducible assumption | exact Foot.sub hp rfl | intro _ | with_reducible apply State.forUpTo_keeps
      | with_reducible apply State.ledgerInc_keeps | with_reducible apply State.wr_keeps
      | with_reducible apply Keeps.ite | with_reducible apply KeepsOut.done | with_reducible apply KeepsOut.next
      | exact trivial | dsimp only | split

theorem execRtcAlign_keeps {ft : Nat} {s₀ s : State} (ptp : BitVec 48) (hp : 6 &&& ft = 6) (h : Keeps ft s₀ s) :
    KeepsOut ft s₀ (execRtcAlign ptp s) := by
  delta execRtcAlign
  repeat' first
      | with_reducible assumption | exact Foot.sub hp rfl | intro _ | with_reducible apply State.rtcAlign_keeps
      | with_reducible apply State.wr_keeps | with_reducible apply Keeps.ite | with_reducible apply KeepsOut.done
      | with_reducible apply KeepsOut.next | exact trivial | dsimp only | split

theorem execRtcSet_keeps {ft : Nat} {s₀ s : State}  (hp : 17179869190 &&& ft = 17179869190) (h : Keeps ft s₀ s) :
    KeepsOut ft s₀ (execRtcSet s) := by
  delta execRtcSet
  repeat' first
      | with_reducible assumption | exact Foot.sub hp rfl | intro _ | with_reducible apply State.reach_keeps
      | with_reducible apply State.rtcSet_keeps | with_reducible apply KeepsOut.done
      | with_reducible apply KeepsOut.next | exact trivial | dsimp only | split

theorem execSelfTestEnd_keeps {ft : Nat} {s₀ s : State} (r : SelfTest) (hp : 6 &&& ft = 6) (h : Keeps ft s₀ s) :
    KeepsOut ft s₀ (execSelfTestEnd r s) := by
  delta execSelfTestEnd
  repeat' first
      | with_reducible assumption | exact Foot.sub hp rfl | intro _ | with_reducible apply State.forUpTo_keeps
      | with_reducible apply State.wr_keeps | with_reducible apply State.bstAct_keeps
      | with_reducible apply State.bstNoRun_keeps | with_reducible apply State.bstRecord_keeps
      | with_reducible apply Keeps.ite | with_reducible apply KeepsOut.done | with_reducible apply KeepsOut.next
      | exact trivial | dsimp only | split

theorem execVbatFall_keeps {ft : Nat} {s₀ s : State}  (hp : 2 &&& ft = 2) (h : Keeps ft s₀ s) :
    KeepsOut ft s₀ (execVbatFall s) := by
  delta execVbatFall
  repeat' first
      | with_reducible assumption | exact Foot.sub hp rfl | intro _ | with_reducible apply State.setFlag_keeps
      | with_reducible apply Keeps.ite | with_reducible apply KeepsOut.done | with_reducible apply KeepsOut.next
      | exact trivial | dsimp only | split
end Sys2Proof.Machine
end

