-- ==== Sys2Proof/Laws/KeepsStart.lean ====
section
/-! SUPPORT. Once for each: what the operations of Machine/Start.lean keep: the parts of the
state they may change, and that the canonical form of the state survives them. -/

namespace Sys2Proof.Machine

theorem State.startDir_keeps {ft : Nat} {s₀ s : State} (k : Nat) (hp : 166912 &&& ft = 166912) (h : Keeps ft s₀ s) :
    Keeps ft s₀ (State.startDir s k) := by
  delta State.startDir
  repeat' first
      | with_reducible assumption | exact Foot.sub hp rfl | with_reducible exact id
      | with_reducible exact SMap.sorted_set _ _ _ | with_reducible exact SMap.sorted_put _ _
      | with_reducible exact SMap.sorted_del _ | with_reducible exact SMap.sorted_filter _
      | with_reducible exact Memory.wf_filter _ | with_reducible exact fun _ => SMap.sorted_nil
      | with_reducible exact fun _ => Memory.wf_nil | intro _ | with_reducible apply State.withBadNodes_keeps
      | with_reducible apply State.withPzList_keeps | with_reducible apply State.withDir_keeps
      | with_reducible apply Keeps.ite | dsimp only | split

theorem State.resetDie_keeps {ft : Nat} {s₀ s : State} (k : Nat) (hp : 68719310846 &&& ft = 68719310846)
    (h : Keeps ft s₀ s) :
    Keeps ft s₀ (State.resetDie s k) :=
  h.upd (fun p => by cases p <;> first | exact fun _ => rfl | exact Foot.not hp (by decide)) fun c =>
    ⟨SMap.sorted_filter _ c.regs, SMap.sorted_filter _ c.tabs, Memory.wf_filter _ c.mem, rfl, rfl, rfl, rfl, rfl, rfl, rfl,
      c.dirCopy, rfl, rfl, rfl, rfl, rfl, rfl, rfl, rfl, rfl, rfl, rfl, rfl⟩

theorem State.countStart_keeps {ft : Nat} {s₀ s : State} (k : Nat) (hp : 6 &&& ft = 6) (h : Keeps ft s₀ s) :
    Keeps ft s₀ (State.countStart s k) := by
  delta State.countStart
  repeat' first
      | with_reducible assumption | exact Foot.sub hp rfl | intro _ | with_reducible apply State.ledgerInc_keeps
      | with_reducible apply State.setFlag_keeps | with_reducible apply Keeps.ite | dsimp only | split

theorem State.start_keeps {ft : Nat} {s₀ s : State} (k : Nat) (hp : 68719476734 &&& ft = 68719476734)
    (h : Keeps ft s₀ s) :
    Keeps ft s₀ (State.start s k) := by
  delta State.start
  repeat' first
      | with_reducible assumption | exact Foot.sub hp rfl | intro _ | with_reducible apply State.safeNTrips_keeps
      | with_reducible apply State.startDir_keeps | with_reducible apply State.resetDie_keeps
      | with_reducible apply State.countStart_keeps | with_reducible apply State.setFlag_keeps
      | with_reducible apply State.wr_keeps | dsimp only | split

theorem State.coldStart_keeps {ft : Nat} {s₀ s : State}  (hp : 68719476734 &&& ft = 68719476734) (h : Keeps ft s₀ s) :
    Keeps ft s₀ (State.coldStart s) := by
  delta State.coldStart
  repeat' first
      | with_reducible assumption | exact Foot.sub hp rfl | intro _ | with_reducible apply State.setFlag_keeps
      | with_reducible apply State.wr_keeps | with_reducible apply State.start_keeps
      | with_reducible apply State.bstTryStart_keeps | with_reducible apply State.safehold_keeps
      | with_reducible apply State.startGoesOn_keeps | with_reducible apply Keeps.ite | dsimp only | split

theorem State.failRel_keeps {ft : Nat} {s₀ s : State}  (hp : 2 &&& ft = 2) (h : Keeps ft s₀ s) :
    Keeps ft s₀ (State.failRel s) := by
  delta State.failRel
  repeat' first
      | with_reducible assumption | exact Foot.sub hp rfl | intro _ | with_reducible apply State.wr_keeps
      | with_reducible apply State.setFlag_keeps | dsimp only | split

theorem State.refreshSelf_keeps {ft : Nat} {s₀ s : State}  (hp : 2 &&& ft = 2) (h : Keeps ft s₀ s) :
    Keeps ft s₀ (State.refreshSelf s) := by
  delta State.refreshSelf
  repeat' first
      | with_reducible assumption | exact Foot.sub hp rfl | intro _ | with_reducible apply State.forUpTo_keeps
      | with_reducible apply State.selfRefresh_keeps | with_reducible apply Keeps.ite | dsimp only | split

theorem State.saveMeta_keeps {ft : Nat} {s₀ s : State}  (hp : 6 &&& ft = 6) (h : Keeps ft s₀ s) :
    Keeps ft s₀ (State.saveMeta s) := by
  delta State.saveMeta
  repeat' first
      | with_reducible assumption | exact Foot.sub hp rfl | intro _ | with_reducible apply State.metaFlush_keeps
      | with_reducible apply Keeps.ite | dsimp only | split

theorem State.warmStart_keeps {ft : Nat} {s₀ s : State}  (hp : 68719476734 &&& ft = 68719476734) (h : Keeps ft s₀ s) :
    Keeps ft s₀ (State.warmStart s) := by
  delta State.warmStart
  repeat' first
      | with_reducible assumption | exact Foot.sub hp rfl | intro _ | with_reducible apply State.coldStart_keeps
      | with_reducible apply State.sessEnd_keeps | with_reducible apply State.startGoesOn_keeps
      | with_reducible apply State.start_keeps | with_reducible apply State.refreshSelf_keeps
      | with_reducible apply State.saveMeta_keeps | with_reducible apply Keeps.ite | dsimp only | split

theorem State.warm_keeps {ft : Nat} {s₀ s : State}  (hp : 68719476734 &&& ft = 68719476734) (h : Keeps ft s₀ s) :
    Keeps ft s₀ (State.warm s) := by
  delta State.warm
  repeat' first
      | with_reducible assumption | exact Foot.sub hp rfl | intro _ | with_reducible apply State.warmStart_keeps
      | with_reducible apply Keeps.ite | dsimp only | split

theorem execFailRel_keeps {ft : Nat} {s₀ s : State}  (hp : 17179869186 &&& ft = 17179869186) (h : Keeps ft s₀ s) :
    KeepsOut ft s₀ (execFailRel s) := by
  delta execFailRel
  repeat' first
      | with_reducible assumption | exact Foot.sub hp rfl | intro _ | with_reducible apply State.reach_keeps
      | with_reducible apply State.failRel_keeps | with_reducible apply KeepsOut.done
      | with_reducible apply KeepsOut.next | exact trivial | dsimp only | split

theorem execWarm_keeps {ft : Nat} {s₀ s : State}  (hp : 68719476734 &&& ft = 68719476734) (h : Keeps ft s₀ s) :
    KeepsOut ft s₀ (execWarm s) := by
  delta execWarm
  repeat' first
      | with_reducible assumption | exact Foot.sub hp rfl | intro _ | with_reducible apply State.reach_keeps
      | with_reducible apply State.warm_keeps | with_reducible apply KeepsOut.done
      | with_reducible apply KeepsOut.next | exact trivial | dsimp only | split
end Sys2Proof.Machine
end

