-- ==== Sys2Proof/Laws/KeepsPower.lean ====
section
/-! SUPPORT. Once for each: what the operations of Machine/Power.lean keep: the parts of the
state they may change, and that the canonical form of the state survives them. -/

namespace Sys2Proof.Machine

theorem State.holdAll_keeps {ft : Nat} {s₀ s : State}  (hp : 398790102 &&& ft = 398790102) (h : Keeps ft s₀ s) :
    Keeps ft s₀ (State.holdAll s) := by
  delta State.holdAll
  repeat' first
      | with_reducible assumption | exact Foot.sub hp rfl | with_reducible exact id
      | with_reducible exact SMap.sorted_set _ _ _ | with_reducible exact SMap.sorted_put _ _
      | with_reducible exact SMap.sorted_del _ | with_reducible exact SMap.sorted_filter _
      | with_reducible exact Memory.wf_filter _ | with_reducible exact fun _ => SMap.sorted_nil
      | with_reducible exact fun _ => Memory.wf_nil | intro _ | with_reducible apply State.setFlag_keeps
      | with_reducible apply State.stopAll_keeps | with_reducible apply State.withResults_keeps
      | with_reducible apply State.withUpdates_keeps | with_reducible apply State.withFifos_keeps
      | with_reducible apply State.sessEnd_keeps | dsimp only | split

theorem State.railChange_keeps {ft : Nat} {s₀ s : State} (k : Nat) (f : State → State) (hp : 2 &&& ft = 2)
    (h : Keeps ft s₀ s) (h_f : ∀ s , Keeps ft s₀ s → Keeps ft s₀ (f s)) :
    Keeps ft s₀ (State.railChange s k f) := by
  delta State.railChange
  repeat' first
      | with_reducible assumption | exact Foot.sub hp rfl | intro _ | with_reducible apply State.setFlag_keeps
      | with_reducible apply State.wr_keeps | with_reducible apply h_f | with_reducible apply Keeps.ite | dsimp only
      | split

theorem State.railRel_keeps {ft : Nat} {s₀ s : State}  (hp : 2 &&& ft = 2) (h : Keeps ft s₀ s) :
    Keeps ft s₀ (State.railRel s) := by
  delta State.railRel
  repeat' first
      | with_reducible assumption | exact Foot.sub hp rfl | intro _ | with_reducible apply State.wr_keeps
      | with_reducible apply State.setFlag_keeps | dsimp only | split

theorem State.railSample_keeps {ft : Nat} {s₀ s : State} (k : Nat) (v : Nat) (i : Nat) (p : Nat) (hp : 2 &&& ft = 2)
    (h : Keeps ft s₀ s) :
    Keeps ft s₀ (State.railSample s k v i p) := by
  delta State.railSample
  repeat' first
      | with_reducible assumption | exact Foot.sub hp rfl | intro _ | with_reducible apply State.railChange_keeps
      | with_reducible apply State.setBit_keeps | with_reducible apply State.wr_keeps | dsimp only | split

theorem State.wakeBy_keeps {ft : Nat} {s₀ s : State} (src : Nat) (hp : 2 &&& ft = 2) (h : Keeps ft s₀ s) :
    Keeps ft s₀ (State.wakeBy s src) := by
  delta State.wakeBy
  repeat' first
      | with_reducible assumption | exact Foot.sub hp rfl | intro _ | with_reducible apply State.setFlag_keeps
      | with_reducible apply State.wr_keeps | dsimp only | split

theorem State.wakeSource_keeps {ft : Nat} {s₀ s : State} (src : Nat) (hp : 2 &&& ft = 2) (h : Keeps ft s₀ s) :
    Keeps ft s₀ (State.wakeSource s src) := by
  delta State.wakeSource
  repeat' first
      | with_reducible assumption | exact Foot.sub hp rfl | intro _ | with_reducible apply State.wakeBy_keeps
      | with_reducible apply State.wr_keeps | with_reducible apply Keeps.ite | dsimp only | split

theorem State.rtcPasses_keeps {ft : Nat} {s₀ s : State} (n : Nat) (hp : 2 &&& ft = 2) (h : Keeps ft s₀ s) :
    Keeps ft s₀ (State.rtcPasses s n) := by
  delta State.rtcPasses
  repeat' first
      | with_reducible assumption | exact Foot.sub hp rfl | intro _ | with_reducible apply State.rtcTick_keeps
      | with_reducible apply State.wakeSource_keeps | with_reducible apply Keeps.ite | dsimp only | split

theorem State.tempStore_keeps {ft : Nat} {s₀ s : State} (k : Nat) (v : Nat) (hp : 2 &&& ft = 2) (h : Keeps ft s₀ s) :
    Keeps ft s₀ (State.tempStore s k v) := by
  delta State.tempStore
  repeat' first
      | with_reducible assumption | exact Foot.sub hp rfl | intro _ | with_reducible apply State.wr_keeps
      | dsimp only | split

theorem State.sensorRead_keeps {ft : Nat} {s₀ s : State} (l : List (BitVec 12)) (hp : 22 &&& ft = 22)
    (h : Keeps ft s₀ s) :
    Keeps ft s₀ (State.sensorRead s l) := by
  delta State.sensorRead
  repeat' first
      | with_reducible assumption | exact Foot.sub hp rfl | intro _ | with_reducible apply State.forUpTo_keeps
      | with_reducible apply State.tempStore_keeps | with_reducible apply State.trkStatus_keeps
      | with_reducible apply State.setBit_keeps | with_reducible apply State.stopAll_keeps
      | with_reducible apply State.tripEvery_keeps | with_reducible apply State.wr_keeps
      | with_reducible apply State.setFlag_keeps | with_reducible apply Keeps.ite | dsimp only | split

theorem State.shutdownRequest_keeps {ft : Nat} {s₀ s : State} (hp : 398790102 &&& ft = 398790102)
    (h : Keeps ft s₀ s) :
    Keeps ft s₀ (State.shutdownRequest s) := by
  delta State.shutdownRequest
  repeat' first
      | with_reducible assumption | exact Foot.sub hp rfl | intro _ | with_reducible apply State.wr_keeps
      | with_reducible apply State.bstStart_keeps | with_reducible apply State.holdAll_keeps
      | with_reducible apply Keeps.ite | dsimp only | split

theorem State.standbyBegin_keeps {ft : Nat} {s₀ s : State}  (hp : 8990821846 &&& ft = 8990821846) (h : Keeps ft s₀ s) :
    Keeps ft s₀ (State.standbyBegin s) := by
  delta State.standbyBegin
  repeat' first
      | with_reducible assumption | exact Foot.sub hp rfl | intro _ | with_reducible apply State.holdAll_keeps
      | with_reducible apply State.setFlag_keeps | with_reducible apply State.forUpTo_keeps
      | with_reducible apply State.portDown_keeps | with_reducible apply Keeps.ite | dsimp only | split

theorem State.standbyRequest_keeps {ft : Nat} {s₀ s : State} (how : Nat) (hp : 8990821846 &&& ft = 8990821846)
    (h : Keeps ft s₀ s) :
    Keeps ft s₀ (State.standbyRequest s how) := by
  delta State.standbyRequest
  repeat' first
      | with_reducible assumption | exact Foot.sub hp rfl | intro _ | with_reducible apply State.setFlag_keeps
      | with_reducible apply State.wr_keeps | with_reducible apply State.standbyBegin_keeps
      | with_reducible apply Keeps.ite | dsimp only | split

theorem State.settleHeld_keeps {ft : Nat} {s₀ s : State}  (hp : 8990821846 &&& ft = 8990821846) (h : Keeps ft s₀ s) :
    Keeps ft s₀ (State.settleHeld s) := by
  delta State.settleHeld
  repeat' first
      | with_reducible assumption | exact Foot.sub hp rfl | intro _ | with_reducible apply State.wr_keeps
      | with_reducible apply State.shutdownRequest_keeps | with_reducible apply State.standbyRequest_keeps
      | with_reducible apply Keeps.ite | dsimp only | split

theorem State.standbyEnd_keeps {ft : Nat} {s₀ s : State}  (hp : 68719310846 &&& ft = 68719310846) (h : Keeps ft s₀ s) :
    Keeps ft s₀ (State.standbyEnd s) := by
  delta State.standbyEnd
  repeat' first
      | with_reducible assumption | exact Foot.sub hp rfl | intro _ | with_reducible apply State.setFlag_keeps
      | with_reducible apply State.resetDie_keeps | with_reducible apply State.refreshSelf_keeps
      | with_reducible apply State.saveMeta_keeps | with_reducible apply State.wakeBy_keeps
      | with_reducible apply Keeps.ite | dsimp only | split

theorem State.tcritRel_keeps {ft : Nat} {s₀ s : State}  (hp : 2 &&& ft = 2) (h : Keeps ft s₀ s) :
    Keeps ft s₀ (State.tcritRel s) := by
  delta State.tcritRel
  repeat' first
      | with_reducible assumption | exact Foot.sub hp rfl | intro _ | with_reducible apply State.wr_keeps
      | with_reducible apply State.setFlag_keeps | dsimp only | split

theorem State.vaonLoss_keeps {ft : Nat} {s₀ s : State} (hp : 68719476734 &&& ft = 68719476734) (h : Keeps ft s₀ s) :
    Keeps ft s₀ (State.vaonLoss s) := by
  have hb := Keeps.upd (t := { s.resetDie 0 with
    regs := (s.resetDie 0).regs.filter fun e => keptVbat.any fun l => l.owns e.1
    tabs := [], mem := [], dir := [], dirCopy := [], pzList := [], badNodes := [] }) (State.resetDie_keeps 0 (Foot.sub hp rfl) h)
    (fun p => by cases p <;> first | exact fun _ => rfl | exact Foot.not hp (by decide))
    fun c => { c with regs := SMap.sorted_filter _ c.regs, tabs := rfl, mem := ⟨rfl, rfl⟩, dir := rfl, dirCopy := rfl }
  have hf := State.setFlag_keeps PWR.EN_MAIN.f false (Foot.sub hp rfl)
    (State.setFlag_keeps PWR.VAON.f false (Foot.sub hp rfl) hb)
  exact Keeps.ite (State.setFlag_keeps _ _ (Foot.sub hp rfl) hf) hf

theorem State.wakeWarm_keeps {ft : Nat} {s₀ s : State}  (hp : 68719476734 &&& ft = 68719476734) (h : Keeps ft s₀ s) :
    Keeps ft s₀ (State.wakeWarm s) := by
  delta State.wakeWarm
  repeat' first
      | with_reducible assumption | exact Foot.sub hp rfl | intro _ | with_reducible apply State.startGoesOn_keeps
      | with_reducible apply State.wr_keeps | with_reducible apply State.start_keeps | dsimp only | split

theorem State.wakeResume_keeps {ft : Nat} {s₀ s : State}  (hp : 68719476734 &&& ft = 68719476734) (h : Keeps ft s₀ s) :
    Keeps ft s₀ (State.wakeResume s) := by
  delta State.wakeResume
  repeat' first
      | with_reducible assumption | exact Foot.sub hp rfl | intro _ | with_reducible apply State.coldStart_keeps
      | with_reducible apply State.wakeWarm_keeps | with_reducible apply State.wr_keeps
      | with_reducible apply State.start_keeps | with_reducible apply Keeps.ite | dsimp only | split

theorem execPsPgRise_keeps {ft : Nat} {s₀ s : State}  (hp : 68719476734 &&& ft = 68719476734) (h : Keeps ft s₀ s) :
    KeepsOut ft s₀ (execPsPgRise s) := by
  delta execPsPgRise
  repeat' first
      | with_reducible assumption | exact Foot.sub hp rfl | intro _ | with_reducible apply State.wakeResume_keeps
      | with_reducible apply Keeps.ite | with_reducible apply KeepsOut.done | with_reducible apply KeepsOut.next
      | exact trivial | dsimp only | split

theorem execRailRel_keeps {ft : Nat} {s₀ s : State}  (hp : 17179869186 &&& ft = 17179869186) (h : Keeps ft s₀ s) :
    KeepsOut ft s₀ (execRailRel s) := by
  delta execRailRel
  repeat' first
      | with_reducible assumption | exact Foot.sub hp rfl | intro _ | with_reducible apply State.reach_keeps
      | with_reducible apply State.railRel_keeps | with_reducible apply KeepsOut.done
      | with_reducible apply KeepsOut.next | exact trivial | dsimp only | split

theorem execRailSample_keeps {ft : Nat} {s₀ s : State} (k : Fin 20) (v : BitVec 16) (i : BitVec 16) (p : BitVec 24)
    (hp : 2 &&& ft = 2) (h : Keeps ft s₀ s) :
    KeepsOut ft s₀ (execRailSample k v i p s) := by
  delta execRailSample
  repeat' first
      | with_reducible assumption | exact Foot.sub hp rfl | intro _ | with_reducible apply State.railSample_keeps
      | with_reducible apply KeepsOut.done | with_reducible apply KeepsOut.next | exact trivial | dsimp only | split

theorem execResetThresholdFall_keeps {ft : Nat} {s₀ s : State} (what : ResetFall)
    (hp : 68719310846 &&& ft = 68719310846) (h : Keeps ft s₀ s) :
    KeepsOut ft s₀ (execResetThresholdFall s what) := by
  delta execResetThresholdFall
  repeat' first
      | with_reducible assumption | exact Foot.sub hp rfl | intro _ | with_reducible apply State.setFlag_keeps
      | with_reducible apply State.resetDie_keeps | with_reducible apply Keeps.ite
      | with_reducible apply KeepsOut.done | with_reducible apply KeepsOut.next | exact trivial | dsimp only | split

theorem execRetentionSupplyLoss_keeps {ft : Nat} {s₀ s : State}  (hp : 2 &&& ft = 2) (h : Keeps ft s₀ s) :
    KeepsOut ft s₀ (execRetentionSupplyLoss s) := by
  delta execRetentionSupplyLoss
  repeat' first
      | with_reducible assumption | exact Foot.sub hp rfl | intro _ | with_reducible apply State.setFlag_keeps
      | with_reducible apply Keeps.ite | with_reducible apply KeepsOut.done | with_reducible apply KeepsOut.next
      | exact trivial | dsimp only | split

theorem execRtcAlarm_keeps {ft : Nat} {s₀ s : State}  (hp : 2 &&& ft = 2) (h : Keeps ft s₀ s) :
    KeepsOut ft s₀ (execRtcAlarm s) := by
  delta execRtcAlarm
  repeat' first
      | with_reducible assumption | exact Foot.sub hp rfl | intro _ | with_reducible apply State.wakeSource_keeps
      | with_reducible apply Keeps.ite | with_reducible apply KeepsOut.done | with_reducible apply KeepsOut.next
      | exact trivial | dsimp only | split

theorem execSensorRead_keeps {ft : Nat} {s₀ s : State} (temps : List (BitVec 12)) (hp : 22 &&& ft = 22)
    (h : Keeps ft s₀ s) :
    KeepsOut ft s₀ (execSensorRead temps s) := by
  delta execSensorRead
  repeat' first
      | with_reducible assumption | exact Foot.sub hp rfl | intro _ | with_reducible apply State.sensorRead_keeps
      | with_reducible apply Keeps.ite | with_reducible apply KeepsOut.done | with_reducible apply KeepsOut.next
      | exact trivial | dsimp only | split

theorem execStandbyEntryEnd_keeps {ft : Nat} {s₀ s : State} (hp : 68719310846 &&& ft = 68719310846)
    (h : Keeps ft s₀ s) :
    KeepsOut ft s₀ (execStandbyEntryEnd s) := by
  delta execStandbyEntryEnd
  repeat' first
      | with_reducible assumption | exact Foot.sub hp rfl | intro _ | with_reducible apply State.standbyEnd_keeps
      | with_reducible apply Keeps.ite | with_reducible apply KeepsOut.done | with_reducible apply KeepsOut.next
      | exact trivial | dsimp only | split

theorem execStbyGo_keeps {ft : Nat} {s₀ s : State}  (hp : 26170691030 &&& ft = 26170691030) (h : Keeps ft s₀ s) :
    KeepsOut ft s₀ (execStbyGo s) := by
  delta execStbyGo
  repeat' first
      | with_reducible assumption | exact Foot.sub hp rfl | intro _ | with_reducible apply State.reach_keeps
      | with_reducible apply State.standbyRequest_keeps | with_reducible apply KeepsOut.done
      | with_reducible apply KeepsOut.next | exact trivial | dsimp only | split

theorem execStbyRefRel_keeps {ft : Nat} {s₀ s : State}  (hp : 17179869186 &&& ft = 17179869186) (h : Keeps ft s₀ s) :
    KeepsOut ft s₀ (execStbyRefRel s) := by
  delta execStbyRefRel
  repeat' first
      | with_reducible assumption | exact Foot.sub hp rfl | intro _ | with_reducible apply State.reach_keeps
      | with_reducible apply State.setFlag_keeps | with_reducible apply KeepsOut.done
      | with_reducible apply KeepsOut.next | exact trivial | dsimp only | split

theorem execTcritRel_keeps {ft : Nat} {s₀ s : State}  (hp : 17179869186 &&& ft = 17179869186) (h : Keeps ft s₀ s) :
    KeepsOut ft s₀ (execTcritRel s) := by
  delta execTcritRel
  repeat' first
      | with_reducible assumption | exact Foot.sub hp rfl | intro _ | with_reducible apply State.reach_keeps
      | with_reducible apply State.tcritRel_keeps | with_reducible apply KeepsOut.done
      | with_reducible apply KeepsOut.next | exact trivial | dsimp only | split

theorem execVaonLoss_keeps {ft : Nat} {s₀ s : State}  (hp : 68719476734 &&& ft = 68719476734) (h : Keeps ft s₀ s) :
    KeepsOut ft s₀ (execVaonLoss s) := by
  delta execVaonLoss
  repeat' first
      | with_reducible assumption | exact Foot.sub hp rfl | intro _ | with_reducible apply State.vaonLoss_keeps
      | with_reducible apply KeepsOut.done | with_reducible apply KeepsOut.next | exact trivial | dsimp only | split

theorem execVaonSettled_keeps {ft : Nat} {s₀ s : State}  (hp : 2 &&& ft = 2) (h : Keeps ft s₀ s) :
    KeepsOut ft s₀ (execVaonSettled s) := by
  delta execVaonSettled
  repeat' first
      | with_reducible assumption | exact Foot.sub hp rfl | intro _ | with_reducible apply State.setFlag_keeps
      | with_reducible apply Keeps.ite | with_reducible apply KeepsOut.done | with_reducible apply KeepsOut.next
      | exact trivial | dsimp only | split

theorem execWakeNFall_keeps {ft : Nat} {s₀ s : State}  (hp : 2 &&& ft = 2) (h : Keeps ft s₀ s) :
    KeepsOut ft s₀ (execWakeNFall s) := by
  delta execWakeNFall
  repeat' first
      | with_reducible assumption | exact Foot.sub hp rfl | intro _ | with_reducible apply State.wakeSource_keeps
      | with_reducible apply Keeps.ite | with_reducible apply KeepsOut.done | with_reducible apply KeepsOut.next
      | exact trivial | dsimp only | split
end Sys2Proof.Machine
end

