-- ==== Sys2Proof/Laws/KeepsBus.lean ====
section
/-! SUPPORT. Once for each: what the operations of Machine/Bus.lean keep: the parts of the
state they may change, and that the canonical form of the state survives them. -/

namespace Sys2Proof.Machine

/-- Every action of a list keeps what is outside `ft`. -/
def ActsKeep (ft : Nat) (acts : List Act) : Prop :=
  ∀ c ∈ acts, ∀ s₀ s i j x, Keeps ft s₀ s → Keeps ft s₀ (c.2 s i j x)

theorem ActsKeep.nil {ft : Nat} : ActsKeep ft [] := fun _ h => by cases h

theorem ActsKeep.cons {ft : Nat} {c : Act} {l : List Act}
    (h : ∀ s₀ s i j x, Keeps ft s₀ s → Keeps ft s₀ (c.2 s i j x)) (hl : ActsKeep ft l) : ActsKeep ft (c :: l) := by
  intro d hd; rcases List.mem_cons.1 hd with rfl | hd
  · exact h
  · exact hl d hd

theorem ActsKeep.append {ft : Nat} {l r : List Act} (hl : ActsKeep ft l) (hr : ActsKeep ft r) : ActsKeep ft (l ++ r)
    := by
  intro d hd; rcases List.mem_append.1 hd with hd | hd
  · exact hl d hd
  · exact hr d hd

theorem ActsKeep.map {α : Type} {ft : Nat} {l : List α} {f : α → Act}
    (h : ∀ a s₀ s i j x, Keeps ft s₀ s → Keeps ft s₀ ((f a).2 s i j x)) : ActsKeep ft (l.map f) := by
  intro c hc
  obtain ⟨a, _, rfl⟩ := List.mem_map.1 hc
  exact h a

theorem thenDo_keeps {ft : Nat} {l : Lay} {f : State → Nat → Nat → State} (hp : 2 &&& ft = 2)
    (hf : ∀ s₀ s i j, Keeps ft s₀ s → Keeps ft s₀ (f s i j)) (s₀ s : State) (i j x : Nat) (h : Keeps ft s₀ s) :
    Keeps ft s₀ ((thenDo l f).2 s i j x) := hf _ _ _ _ (State.wr_keeps _ _ hp h)

theorem State.actOn_keeps {ft : Nat} {s₀ s : State} (acts : List Act) (l : Lay) (i : Nat) (j : Nat) (x : Nat)
    (hp : 2 &&& ft = 2) (h : Keeps ft s₀ s) (ha : ActsKeep ft acts) : Keeps ft s₀ (State.actOn s acts l i j x) := by
  delta State.actOn
  split
  · rename_i c hc; exact ha c (List.mem_of_find?_eq_some hc) _ _ _ _ _ h
  · exact Keeps.ite h (State.wr_keeps _ _ hp h)

/-- A write through an indirect pair keeps what is outside `ft`. -/
def PairKeeps (ft : Nat) (p : Pair) : Prop := ∀ s₀ s i a v, Keeps ft s₀ s → Keeps ft s₀ (p.write s i a v)

theorem State.pairAccess_keeps {ft : Nat} {s₀ s : State} (m : Master) (p : Pair) (i : Nat) (v : Option Nat)
    (hp : 2 &&& ft = 2) (h : Keeps ft s₀ s) (hw : PairKeeps ft p) : Keeps ft s₀ (State.pairAccess s m p i v).1 := by
  delta State.pairAccess
  extract_lets a
  split
  · exact h
  · cases v with
    | none => exact Keeps.ite (State.wr_keeps _ _ (Foot.sub hp rfl) h) h
    | some x =>
      exact Keeps.ite (State.wr_keeps _ _ (Foot.sub hp rfl) (hw _ _ _ _ _ h)) (hw _ _ _ _ _ h)

theorem State.rxTake_keeps {ft : Nat} {s₀ s : State} (q : Nat) (hp : 536870912 &&& ft = 536870912)
    (h : Keeps ft s₀ s) :
    Keeps ft s₀ (State.rxTake s q) := by
  delta State.rxTake
  repeat' first
      | with_reducible assumption | exact Foot.sub hp rfl | with_reducible exact id
      | with_reducible exact SMap.sorted_set _ _ _ | with_reducible exact SMap.sorted_put _ _
      | with_reducible exact SMap.sorted_del _ | with_reducible exact SMap.sorted_filter _
      | with_reducible exact Memory.wf_filter _ | with_reducible exact fun _ => SMap.sorted_nil
      | with_reducible exact fun _ => Memory.wf_nil | intro _ | with_reducible apply State.withRxMsgs_keeps
      | with_reducible apply Keeps.ite | dsimp only | split

theorem State.readEffect_keeps {ft : Nat} {s₀ s : State} (m : Master) (a : Nat) (hp : 9128640778 &&& ft = 9128640778)
    (h : Keeps ft s₀ s) :
    Keeps ft s₀ (State.readEffect s m a) := by
  delta State.readEffect
  repeat' first
      | with_reducible assumption | exact Foot.sub hp rfl | intro _ | with_reducible apply State.wr_keeps
      | with_reducible apply State.ringDetect_keeps | with_reducible apply State.evTake_keeps
      | with_reducible apply State.consumeRecord_keeps | with_reducible apply State.portTake_keeps
      | with_reducible apply State.adcPortTake_keeps | with_reducible apply State.rxTake_keeps
      | with_reducible apply Keeps.ite | dsimp only | split

theorem State.writePtpEn_keeps {ft : Nat} {s₀ s : State} (x : Nat) (hp : 2 &&& ft = 2) (h : Keeps ft s₀ s) :
    Keeps ft s₀ (State.writePtpEn s x) := by
  delta State.writePtpEn
  repeat' first
      | with_reducible assumption | exact Foot.sub hp rfl | intro _ | with_reducible apply State.wr_keeps
      | with_reducible apply State.setFlag_keeps | with_reducible apply Keeps.ite | dsimp only | split

theorem State.rxSkip_keeps {ft : Nat} {s₀ s : State} (q : Nat) (hp : 536870912 &&& ft = 536870912)
    (h : Keeps ft s₀ s) :
    Keeps ft s₀ (State.rxSkip s q) := by
  delta State.rxSkip
  repeat' first
      | with_reducible assumption | exact Foot.sub hp rfl | with_reducible exact id
      | with_reducible exact SMap.sorted_set _ _ _ | with_reducible exact SMap.sorted_put _ _
      | with_reducible exact SMap.sorted_del _ | with_reducible exact SMap.sorted_filter _
      | with_reducible exact Memory.wf_filter _ | with_reducible exact fun _ => SMap.sorted_nil
      | with_reducible exact fun _ => Memory.wf_nil | intro _ | with_reducible apply State.withRxMsgs_keeps
      | dsimp only | split

theorem State.txSend_keeps {ft : Nat} {s₀ s : State} (q : Nat) (hp : 1086324738 &&& ft = 1086324738)
    (h : Keeps ft s₀ s) :
    Keeps ft s₀ (State.txSend s q) := by
  delta State.txSend
  repeat' first
      | with_reducible assumption | exact Foot.sub hp rfl | with_reducible exact id
      | with_reducible exact SMap.sorted_set _ _ _ | with_reducible exact SMap.sorted_put _ _
      | with_reducible exact SMap.sorted_del _ | with_reducible exact SMap.sorted_filter _
      | with_reducible exact Memory.wf_filter _ | with_reducible exact fun _ => SMap.sorted_nil
      | with_reducible exact fun _ => Memory.wf_nil | intro _ | with_reducible apply State.slpMessage_keeps
      | with_reducible apply State.withTxBuf_keeps | with_reducible apply Keeps.ite | dsimp only | split

theorem State.eachBit_keeps {ft : Nat} {s₀ s : State} (n : Nat) (x : Nat) (f : State → Nat → State)
    (h : Keeps ft s₀ s) (h_f : ∀ s a0, Keeps ft s₀ s → Keeps ft s₀ (f s a0)) :
    Keeps ft s₀ (State.eachBit s n x f) := by
  delta State.eachBit
  repeat' first
      | with_reducible assumption | exact Foot.sub hp rfl | intro _ | with_reducible apply h_f
      | with_reducible apply Keeps.foldl | dsimp only | split

theorem State.writeLedger_keeps {ft : Nat} {s₀ s : State} (a : Nat) (v : Nat) (hp : 4 &&& ft = 4) (h : Keeps ft s₀ s) :
    Keeps ft s₀ (State.writeLedger s a v) := by
  delta State.writeLedger
  repeat' first
      | with_reducible assumption | exact Foot.sub hp rfl | intro _ | with_reducible apply State.setTab_keeps
      | with_reducible apply Keeps.ite | dsimp only | split

theorem State.writeBar_keeps {ft : Nat} {s₀ s : State} (a : Nat) (v : Nat) (hp : 4 &&& ft = 4) (h : Keeps ft s₀ s) :
    Keeps ft s₀ (State.writeBar s a v) := by
  delta State.writeBar
  repeat' first
      | with_reducible assumption | exact Foot.sub hp rfl | intro _ | with_reducible apply State.setTab_keeps
      | with_reducible apply Keeps.ite | dsimp only | split

theorem State.writeRoute_keeps {ft : Nat} {s₀ s : State} (n : Nat) (v : Nat) (hp : 22 &&& ft = 22)
    (h : Keeps ft s₀ s) :
    Keeps ft s₀ (State.writeRoute s n v) := by
  delta State.writeRoute
  repeat' first
      | with_reducible assumption | exact Foot.sub hp rfl | intro _ | with_reducible apply State.absentHit_keeps
      | with_reducible apply State.setTab_keeps | with_reducible apply State.tripEvery_keeps
      | with_reducible apply Keeps.ite | dsimp only | split

theorem State.writeMx_keeps {ft : Nat} {s₀ s : State} (t : Nat) (a : Nat) (v : Nat) (hp : 4 &&& ft = 4)
    (h : Keeps ft s₀ s) :
    Keeps ft s₀ (State.writeMx s t a v) := by
  delta State.writeMx
  repeat' first
      | with_reducible assumption | exact Foot.sub hp rfl | intro _ | with_reducible apply State.setTab_keeps
      | dsimp only | split

theorem actsSys_keeps {ft : Nat} (hp : 2 &&& ft = 2) : ActsKeep ft actsSys := by
  delta actsSys
  repeat' first
      | with_reducible assumption | exact Foot.sub hp rfl | with_reducible apply State.wr_keeps
      | with_reducible apply State.setFlag_keeps | with_reducible refine ActsKeep.append ?_ ?_
      | with_reducible refine ActsKeep.map fun a s₀ s i j x h => ?_ | with_reducible exact ActsKeep.nil
      | with_reducible refine ActsKeep.cons (fun s₀ s i j x h => ?_) ?_
      | with_reducible refine thenDo_keeps (Foot.sub hp rfl) (fun s₀ s i j h => ?_) _ _ _ _ _ (by assumption)
      | with_reducible exact SMap.sorted_set _ _ _ | with_reducible exact SMap.sorted_put _ _
      | with_reducible exact SMap.sorted_del _ | with_reducible apply Keeps.ite | with_reducible apply Keeps.foldl
      | intro _ | dsimp only

theorem actsClk_keeps {ft : Nat} (hp : 786442 &&& ft = 786442) : ActsKeep ft actsClk := by
  delta actsClk
  repeat' first
      | with_reducible assumption | exact Foot.sub hp rfl | with_reducible apply State.fmGo_keeps
      | with_reducible apply State.forcedRel_keeps | with_reducible apply State.lossRel_keeps
      | with_reducible apply State.writeClkEn_keeps | with_reducible apply State.writeMult_keeps
      | with_reducible refine ActsKeep.append ?_ ?_ | with_reducible refine ActsKeep.map fun a s₀ s i j x h => ?_
      | with_reducible exact ActsKeep.nil | with_reducible refine ActsKeep.cons (fun s₀ s i j x h => ?_) ?_
      | with_reducible refine thenDo_keeps (Foot.sub hp rfl) (fun s₀ s i j h => ?_) _ _ _ _ _ (by assumption)
      | with_reducible exact SMap.sorted_set _ _ _ | with_reducible exact SMap.sorted_put _ _
      | with_reducible exact SMap.sorted_del _ | with_reducible apply Keeps.ite | with_reducible apply Keeps.foldl
      | intro _ | dsimp only

theorem actsPwr_keeps {ft : Nat} (hp : 8990821846 &&& ft = 8990821846) : ActsKeep ft actsPwr := by
  delta actsPwr
  repeat' first
      | with_reducible assumption | exact Foot.sub hp rfl | with_reducible apply State.standbyRequest_keeps
      | with_reducible apply State.tcritRel_keeps | with_reducible apply State.railRel_keeps
      | with_reducible apply State.setFlag_keeps | with_reducible refine ActsKeep.append ?_ ?_
      | with_reducible refine ActsKeep.map fun a s₀ s i j x h => ?_ | with_reducible exact ActsKeep.nil
      | with_reducible refine ActsKeep.cons (fun s₀ s i j x h => ?_) ?_
      | with_reducible refine thenDo_keeps (Foot.sub hp rfl) (fun s₀ s i j h => ?_) _ _ _ _ _ (by assumption)
      | with_reducible exact SMap.sorted_set _ _ _ | with_reducible exact SMap.sorted_put _ _
      | with_reducible exact SMap.sorted_del _ | with_reducible apply Keeps.ite | with_reducible apply Keeps.foldl
      | intro _ | dsimp only
      | delta actRails
      | with_reducible refine State.railChange_keeps _ _ (Foot.sub hp rfl) ?_ fun s h => State.wr_keeps _ _ (Foot.sub hp rfl) h

theorem actsEvt_keeps {ft : Nat} (hp : 4430233606 &&& ft = 4430233606) : ActsKeep ft actsEvt := by
  delta actsEvt
  repeat' first
      | with_reducible assumption | exact Foot.sub hp rfl | with_reducible apply State.stormRel_keeps
      | with_reducible apply State.unmask_keeps | with_reducible refine ActsKeep.append ?_ ?_
      | with_reducible refine ActsKeep.map fun a s₀ s i j x h => ?_ | with_reducible exact ActsKeep.nil
      | with_reducible refine ActsKeep.cons (fun s₀ s i j x h => ?_) ?_
      | with_reducible refine thenDo_keeps (Foot.sub hp rfl) (fun s₀ s i j h => ?_) _ _ _ _ _ (by assumption)
      | with_reducible exact SMap.sorted_set _ _ _ | with_reducible exact SMap.sorted_put _ _
      | with_reducible exact SMap.sorted_del _ | with_reducible apply Keeps.ite | with_reducible apply Keeps.foldl
      | intro _ | dsimp only

theorem actsCfg_keeps {ft : Nat} (hp : 68719476734 &&& ft = 68719476734) : ActsKeep ft actsCfg := by
  delta actsCfg
  repeat' first
      | with_reducible assumption | exact Foot.sub hp rfl | with_reducible apply State.warm_keeps
      | with_reducible apply State.failRel_keeps | with_reducible refine ActsKeep.append ?_ ?_
      | with_reducible refine ActsKeep.map fun a s₀ s i j x h => ?_ | with_reducible exact ActsKeep.nil
      | with_reducible refine ActsKeep.cons (fun s₀ s i j x h => ?_) ?_
      | with_reducible refine thenDo_keeps (Foot.sub hp rfl) (fun s₀ s i j h => ?_) _ _ _ _ _ (by assumption)
      | with_reducible exact SMap.sorted_set _ _ _ | with_reducible exact SMap.sorted_put _ _
      | with_reducible exact SMap.sorted_del _ | with_reducible apply Keeps.ite | with_reducible apply Keeps.foldl
      | intro _ | dsimp only

theorem actsLdg_keeps {ft : Nat} (hp : 6 &&& ft = 6) : ActsKeep ft actsLdg := by
  delta actsLdg
  repeat' first
      | with_reducible assumption | exact Foot.sub hp rfl | with_reducible apply State.flushStart_keeps
      | with_reducible apply State.rtcSet_keeps | with_reducible refine ActsKeep.append ?_ ?_
      | with_reducible refine ActsKeep.map fun a s₀ s i j x h => ?_ | with_reducible exact ActsKeep.nil
      | with_reducible refine ActsKeep.cons (fun s₀ s i j x h => ?_) ?_
      | with_reducible refine thenDo_keeps (Foot.sub hp rfl) (fun s₀ s i j h => ?_) _ _ _ _ _ (by assumption)
      | with_reducible exact SMap.sorted_set _ _ _ | with_reducible exact SMap.sorted_put _ _
      | with_reducible exact SMap.sorted_del _ | with_reducible apply Keeps.ite | with_reducible apply Keeps.foldl
      | intro _ | dsimp only

theorem actsTim_keeps {ft : Nat} (hp : 6 &&& ft = 6) : ActsKeep ft actsTim := by
  delta actsTim
  repeat' first
      | with_reducible assumption | exact Foot.sub hp rfl | with_reducible apply State.sqCommit_keeps
      | with_reducible apply State.tdrStart_keeps | with_reducible apply State.tdrAbort_keeps
      | with_reducible apply State.timErrRel_keeps | with_reducible apply State.tCommit_keeps
      | with_reducible apply State.trkStatus_keeps | with_reducible apply State.writePlane_keeps
      | with_reducible refine ActsKeep.append ?_ ?_ | with_reducible refine ActsKeep.map fun a s₀ s i j x h => ?_
      | with_reducible exact ActsKeep.nil | with_reducible refine ActsKeep.cons (fun s₀ s i j x h => ?_) ?_
      | with_reducible refine thenDo_keeps (Foot.sub hp rfl) (fun s₀ s i j h => ?_) _ _ _ _ _ (by assumption)
      | with_reducible exact SMap.sorted_set _ _ _ | with_reducible exact SMap.sorted_put _ _
      | with_reducible exact SMap.sorted_del _ | with_reducible apply Keeps.ite | with_reducible apply Keeps.foldl
      | intro _ | dsimp only

theorem actsTwl_keeps {ft : Nat} (hp : 22 &&& ft = 22) : ActsKeep ft actsTwl := by
  delta actsTwl
  repeat' first
      | with_reducible assumption | exact Foot.sub hp rfl | with_reducible apply State.stopSeq_keeps
      | with_reducible apply State.mapCommit_keeps | with_reducible apply State.mapErrRel_keeps
      | with_reducible refine ActsKeep.append ?_ ?_ | with_reducible refine ActsKeep.map fun a s₀ s i j x h => ?_
      | with_reducible exact ActsKeep.nil | with_reducible refine ActsKeep.cons (fun s₀ s i j x h => ?_) ?_
      | with_reducible refine thenDo_keeps (Foot.sub hp rfl) (fun s₀ s i j h => ?_) _ _ _ _ _ (by assumption)
      | with_reducible exact SMap.sorted_set _ _ _ | with_reducible exact SMap.sorted_put _ _
      | with_reducible exact SMap.sorted_del _ | with_reducible apply Keeps.ite | with_reducible apply Keeps.foldl
      | intro _ | dsimp only

theorem actsGng_keeps {ft : Nat} (hp : 2 &&& ft = 2) : ActsKeep ft actsGng := by
  delta actsGng
  repeat' first
      | with_reducible assumption | exact Foot.sub hp rfl | with_reducible apply State.gngErrRel_keeps
      | with_reducible apply State.writeRefEn_keeps | with_reducible apply State.wr_keeps
      | with_reducible refine ActsKeep.append ?_ ?_ | with_reducible refine ActsKeep.map fun a s₀ s i j x h => ?_
      | with_reducible exact ActsKeep.nil | with_reducible refine ActsKeep.cons (fun s₀ s i j x h => ?_) ?_
      | with_reducible refine thenDo_keeps (Foot.sub hp rfl) (fun s₀ s i j h => ?_) _ _ _ _ _ (by assumption)
      | with_reducible exact SMap.sorted_set _ _ _ | with_reducible exact SMap.sorted_put _ _
      | with_reducible exact SMap.sorted_del _ | with_reducible apply Keeps.ite | with_reducible apply Keeps.foldl
      | intro _ | dsimp only

theorem actsDmk_keeps {ft : Nat} (hp : 3858 &&& ft = 3858) : ActsKeep ft actsDmk := by
  delta actsDmk
  repeat' first
      | with_reducible assumption | exact Foot.sub hp rfl | with_reducible apply State.wr_keeps
      | with_reducible apply State.forUpTo_keeps | with_reducible apply State.raAbort_keeps
      | with_reducible apply State.eachBit_keeps | with_reducible apply State.raOpen_keeps
      | with_reducible apply State.raClose_keeps | with_reducible apply State.bmapClear_keeps
      | with_reducible apply State.purgeResults_keeps | with_reducible apply State.writeRingRd_keeps
      | with_reducible refine ActsKeep.append ?_ ?_ | with_reducible refine ActsKeep.map fun a s₀ s i j x h => ?_
      | with_reducible exact ActsKeep.nil | with_reducible refine ActsKeep.cons (fun s₀ s i j x h => ?_) ?_
      | with_reducible refine thenDo_keeps (Foot.sub hp rfl) (fun s₀ s i j h => ?_) _ _ _ _ _ (by assumption)
      | with_reducible exact SMap.sorted_set _ _ _ | with_reducible exact SMap.sorted_put _ _
      | with_reducible exact SMap.sorted_del _ | with_reducible apply Keeps.ite | with_reducible apply Keeps.foldl
      | intro _ | dsimp only

theorem actsCal_keeps {ft : Nat} (hp : 8589967362 &&& ft = 8589967362) : ActsKeep ft actsCal := by
  delta actsCal
  repeat' first
      | with_reducible assumption | exact Foot.sub hp rfl | with_reducible apply State.writeCmdGo_keeps
      | with_reducible apply State.pzNext_keeps | with_reducible apply State.setFlag_keeps
      | with_reducible apply State.eachBit_keeps | with_reducible apply State.postPort_keeps
      | with_reducible apply State.withdrawPort_keeps | with_reducible apply State.setBit_keeps
      | with_reducible apply State.writeCmdReg_keeps | with_reducible apply State.writeRq_keeps
      | with_reducible refine ActsKeep.append ?_ ?_ | with_reducible refine ActsKeep.map fun a s₀ s i j x h => ?_
      | with_reducible exact ActsKeep.nil | with_reducible refine ActsKeep.cons (fun s₀ s i j x h => ?_) ?_
      | with_reducible refine thenDo_keeps (Foot.sub hp rfl) (fun s₀ s i j h => ?_) _ _ _ _ _ (by assumption)
      | with_reducible exact SMap.sorted_set _ _ _ | with_reducible exact SMap.sorted_put _ _
      | with_reducible exact SMap.sorted_del _ | with_reducible apply Keeps.ite | with_reducible apply Keeps.foldl
      | intro _ | dsimp only

theorem actsDdr_keeps {ft : Nat} (hp : 8589934594 &&& ft = 8589934594) : ActsKeep ft actsDdr := by
  delta actsDdr
  repeat' first
      | with_reducible assumption | exact Foot.sub hp rfl | with_reducible apply State.retire_keeps
      | with_reducible apply State.ddrCapRel_keeps | with_reducible apply State.autoRetire_keeps
      | with_reducible refine ActsKeep.append ?_ ?_ | with_reducible refine ActsKeep.map fun a s₀ s i j x h => ?_
      | with_reducible exact ActsKeep.nil | with_reducible refine ActsKeep.cons (fun s₀ s i j x h => ?_) ?_
      | with_reducible refine thenDo_keeps (Foot.sub hp rfl) (fun s₀ s i j h => ?_) _ _ _ _ _ (by assumption)
      | with_reducible exact SMap.sorted_set _ _ _ | with_reducible exact SMap.sorted_put _ _
      | with_reducible exact SMap.sorted_del _ | with_reducible apply Keeps.ite | with_reducible apply Keeps.foldl
      | intro _ | dsimp only

theorem actsEnc_keeps {ft : Nat} (hp : 2 &&& ft = 2) : ActsKeep ft actsEnc := by
  delta actsEnc
  repeat' first
      | with_reducible assumption | exact Foot.sub hp rfl | with_reducible apply State.writeKwGo_keeps
      | with_reducible apply State.encCapRel_keeps | with_reducible apply State.eachBit_keeps
      | with_reducible apply State.rkreq_keeps | with_reducible apply State.writeKwReg_keeps
      | with_reducible refine ActsKeep.append ?_ ?_ | with_reducible refine ActsKeep.map fun a s₀ s i j x h => ?_
      | with_reducible exact ActsKeep.nil | with_reducible refine ActsKeep.cons (fun s₀ s i j x h => ?_) ?_
      | with_reducible refine thenDo_keeps (Foot.sub hp rfl) (fun s₀ s i j h => ?_) _ _ _ _ _ (by assumption)
      | with_reducible exact SMap.sorted_set _ _ _ | with_reducible exact SMap.sorted_put _ _
      | with_reducible exact SMap.sorted_del _ | with_reducible apply Keeps.ite | with_reducible apply Keeps.foldl
      | intro _ | dsimp only

theorem actsAdc_keeps {ft : Nat} (hp : 786442 &&& ft = 786442) : ActsKeep ft actsAdc := by
  delta actsAdc
  repeat' first
      | with_reducible assumption | exact Foot.sub hp rfl | with_reducible apply State.adcStart_keeps
      | with_reducible apply State.adcStop_keeps | with_reducible apply State.urgGo_keeps
      | with_reducible apply State.calGo_keeps | with_reducible apply State.adcSettle_keeps
      | with_reducible apply State.writeAdcRefEn_keeps | with_reducible apply State.wr_keeps
      | with_reducible apply State.writeStrRd_keeps | with_reducible refine ActsKeep.append ?_ ?_
      | with_reducible refine ActsKeep.map fun a s₀ s i j x h => ?_ | with_reducible exact ActsKeep.nil
      | with_reducible refine ActsKeep.cons (fun s₀ s i j x h => ?_) ?_
      | with_reducible refine thenDo_keeps (Foot.sub hp rfl) (fun s₀ s i j h => ?_) _ _ _ _ _ (by assumption)
      | with_reducible exact SMap.sorted_set _ _ _ | with_reducible exact SMap.sorted_put _ _
      | with_reducible exact SMap.sorted_del _ | with_reducible apply Keeps.ite | with_reducible apply Keeps.foldl
      | intro _ | dsimp only

theorem actsTwd_keeps {ft : Nat} (hp : 8592100374 &&& ft = 8592100374) : ActsKeep ft actsTwd := by
  delta actsTwd
  repeat' first
      | with_reducible assumption | exact Foot.sub hp rfl | with_reducible apply State.gstop_keeps
      | with_reducible apply State.bcGo_keeps | with_reducible apply State.twdCapRel_keeps
      | with_reducible apply State.writeCascEn_keeps | with_reducible apply State.portDown_keeps
      | with_reducible apply State.twRetrain_keeps | with_reducible apply State.writePrbsEn_keeps
      | with_reducible refine ActsKeep.append ?_ ?_ | with_reducible refine ActsKeep.map fun a s₀ s i j x h => ?_
      | with_reducible exact ActsKeep.nil | with_reducible refine ActsKeep.cons (fun s₀ s i j x h => ?_) ?_
      | with_reducible refine thenDo_keeps (Foot.sub hp rfl) (fun s₀ s i j h => ?_) _ _ _ _ _ (by assumption)
      | with_reducible exact SMap.sorted_set _ _ _ | with_reducible exact SMap.sorted_put _ _
      | with_reducible exact SMap.sorted_del _ | with_reducible apply Keeps.ite | with_reducible apply Keeps.foldl
      | intro _ | dsimp only

theorem actsEth_keeps {ft : Nat} (hp : 2009402374 &&& ft = 2009402374) : ActsKeep ft actsEth := by
  delta actsEth
  repeat' first
      | with_reducible assumption | exact Foot.sub hp rfl | with_reducible apply State.sessEnd_keeps
      | with_reducible apply State.writePtpEn_keeps | with_reducible apply State.eachBit_keeps
      | with_reducible apply State.txSend_keeps | with_reducible apply State.rxSkip_keeps
      | with_reducible apply State.withTxBuf_keeps | with_reducible refine ActsKeep.append ?_ ?_
      | with_reducible refine ActsKeep.map fun a s₀ s i j x h => ?_ | with_reducible exact ActsKeep.nil
      | with_reducible refine ActsKeep.cons (fun s₀ s i j x h => ?_) ?_
      | with_reducible refine thenDo_keeps (Foot.sub hp rfl) (fun s₀ s i j h => ?_) _ _ _ _ _ (by assumption)
      | with_reducible exact SMap.sorted_set _ _ _ | with_reducible exact SMap.sorted_put _ _
      | with_reducible exact SMap.sorted_del _ | with_reducible apply Keeps.ite | with_reducible apply Keeps.foldl
      | intro _ | dsimp only

theorem actsCnv_keeps {ft : Nat} (hp : 6 &&& ft = 6) : ActsKeep ft actsCnv := by
  delta actsCnv
  repeat' first
      | with_reducible assumption | exact Foot.sub hp rfl | with_reducible apply State.icfpAbort_keeps
      | with_reducible apply State.icfpRel_keeps | with_reducible apply State.injRel_keeps
      | with_reducible apply State.upsetRel_keeps | with_reducible apply State.openBay_keeps
      | with_reducible apply State.setFlag_keeps | with_reducible refine ActsKeep.append ?_ ?_
      | with_reducible refine ActsKeep.map fun a s₀ s i j x h => ?_ | with_reducible exact ActsKeep.nil
      | with_reducible refine ActsKeep.cons (fun s₀ s i j x h => ?_) ?_
      | with_reducible refine thenDo_keeps (Foot.sub hp rfl) (fun s₀ s i j h => ?_) _ _ _ _ _ (by assumption)
      | with_reducible exact SMap.sorted_set _ _ _ | with_reducible exact SMap.sorted_put _ _
      | with_reducible exact SMap.sorted_del _ | with_reducible apply Keeps.ite | with_reducible apply Keeps.foldl
      | intro _ | dsimp only

theorem actsVlv_keeps {ft : Nat} (hp : 22 &&& ft = 22) : ActsKeep ft actsVlv := by
  delta actsVlv
  repeat' first
      | with_reducible assumption | exact Foot.sub hp rfl | with_reducible apply State.protRel_keeps
      | with_reducible apply State.tripLocal_keeps | with_reducible apply State.vlvCapRel_keeps
      | with_reducible apply State.mxCommit_keeps | with_reducible apply State.mxErrRel_keeps
      | with_reducible apply State.lvlCommit_keeps | with_reducible apply State.writeProtEn_keeps
      | with_reducible apply State.writePmuEn_keeps | with_reducible apply State.detectorJudge_keeps
      | with_reducible apply State.writePmu_keeps | with_reducible refine ActsKeep.append ?_ ?_
      | with_reducible refine ActsKeep.map fun a s₀ s i j x h => ?_ | with_reducible exact ActsKeep.nil
      | with_reducible refine ActsKeep.cons (fun s₀ s i j x h => ?_) ?_
      | with_reducible refine thenDo_keeps (Foot.sub hp rfl) (fun s₀ s i j h => ?_) _ _ _ _ _ (by assumption)
      | with_reducible exact SMap.sorted_set _ _ _ | with_reducible exact SMap.sorted_put _ _
      | with_reducible exact SMap.sorted_del _ | with_reducible apply Keeps.ite | with_reducible apply Keeps.foldl
      | intro _ | dsimp only | exact State.writeLevel_keeps _ _ _ (Foot.sub hp rfl) (by assumption)

theorem actsAt_keeps {ft : Nat} (a : Nat) (hp : 68719476734 &&& ft = 68719476734) : ActsKeep ft (actsAt a) := by
  delta actsAt
  split
  all_goals first
      | exact ActsKeep.nil | exact actsSys_keeps (Foot.sub hp rfl) | exact actsClk_keeps (Foot.sub hp rfl)
      | exact actsPwr_keeps (Foot.sub hp rfl) | exact actsEvt_keeps (Foot.sub hp rfl)
      | exact actsCfg_keeps (Foot.sub hp rfl) | exact actsLdg_keeps (Foot.sub hp rfl)
      | exact actsTim_keeps (Foot.sub hp rfl) | exact actsTwl_keeps (Foot.sub hp rfl)
      | exact actsGng_keeps (Foot.sub hp rfl) | exact actsDmk_keeps (Foot.sub hp rfl)
      | exact actsCal_keeps (Foot.sub hp rfl) | exact actsDdr_keeps (Foot.sub hp rfl)
      | exact actsEnc_keeps (Foot.sub hp rfl) | exact actsAdc_keeps (Foot.sub hp rfl)
      | exact actsTwd_keeps (Foot.sub hp rfl) | exact actsEth_keeps (Foot.sub hp rfl)
      | exact actsCnv_keeps (Foot.sub hp rfl) | exact actsVlv_keeps (Foot.sub hp rfl) | skip
  all_goals split <;> first
      | exact ActsKeep.nil | exact actsSys_keeps (Foot.sub hp rfl) | exact actsClk_keeps (Foot.sub hp rfl)
      | exact actsPwr_keeps (Foot.sub hp rfl) | exact actsEvt_keeps (Foot.sub hp rfl)
      | exact actsCfg_keeps (Foot.sub hp rfl) | exact actsLdg_keeps (Foot.sub hp rfl)
      | exact actsTim_keeps (Foot.sub hp rfl) | exact actsTwl_keeps (Foot.sub hp rfl)
      | exact actsGng_keeps (Foot.sub hp rfl) | exact actsDmk_keeps (Foot.sub hp rfl)
      | exact actsCal_keeps (Foot.sub hp rfl) | exact actsDdr_keeps (Foot.sub hp rfl)
      | exact actsEnc_keeps (Foot.sub hp rfl) | exact actsAdc_keeps (Foot.sub hp rfl)
      | exact actsTwd_keeps (Foot.sub hp rfl) | exact actsEth_keeps (Foot.sub hp rfl)
      | exact actsCnv_keeps (Foot.sub hp rfl) | exact actsVlv_keeps (Foot.sub hp rfl)

theorem pairs_keep {ft : Nat} (hp : 22 &&& ft = 22) : ∀ p ∈ pairs, PairKeeps ft p := by
  intro p hp_
  delta pairs at hp_
  simp only [List.mem_cons, List.not_mem_nil, or_false] at hp_
  rcases hp_ with rfl | rfl | rfl | rfl | rfl | rfl | rfl | rfl | rfl | rfl <;> intro s₀ s i a v h
  all_goals repeat' first
      | with_reducible assumption | exact Foot.sub hp rfl | with_reducible apply State.writeMx_keeps
      | with_reducible apply State.writeSq_keeps | with_reducible apply State.writeT_keeps
      | with_reducible apply State.writeCmap_keeps | with_reducible apply State.writeApg_keeps
      | with_reducible apply State.writeDmkCh_keeps | with_reducible apply State.writeBar_keeps
      | with_reducible apply State.writeRoute_keeps | with_reducible apply State.writeLedger_keeps | dsimp only

theorem pairAt_keeps {ft : Nat} {a : Nat} {p : Pair} {i : Nat} (hp : 22 &&& ft = 22) (h : pairAt a = some (p, i)) :
    PairKeeps ft p := by
  obtain ⟨q, hq, e⟩ := List.exists_of_findSome?_eq_some h
  obtain ⟨x, _, e⟩ := Option.map_eq_some_iff.1 e
  cases e
  exact pairs_keep hp _ hq

theorem State.regRead_keeps {ft : Nat} {s₀ s : State} (m : Master) (a : Nat) (hp : 9128640798 &&& ft = 9128640798)
    (h : Keeps ft s₀ s) :
    Keeps ft s₀ (State.regRead s m a).1 := by
  delta State.regRead
  repeat' first
      | with_reducible assumption | with_reducible exact pairAt_keeps (Foot.sub hp rfl) (by assumption)
      | exact Foot.sub hp rfl | intro _ | with_reducible apply State.pairAccess_keeps
      | with_reducible apply State.readEffect_keeps | with_reducible refine Keeps.of_fst (by assumption) ?_
      | dsimp only | split

theorem State.blockRead_keeps {ft : Nat} {s₀ s : State} (m : Master) (a : Nat) (hp : 9128640798 &&& ft = 9128640798)
    (h : Keeps ft s₀ s) :
    Keeps ft s₀ (State.blockRead s m a).1 := by
  delta State.blockRead
  repeat' first
      | with_reducible assumption | exact Foot.sub hp rfl | intro _ | with_reducible apply State.absentHit_keeps
      | with_reducible apply State.regRead_keeps | with_reducible apply Keeps.ite
      | with_reducible refine Keeps.of_fst (by assumption) ?_ | dsimp only | split

theorem State.writeField_keeps {ft : Nat} {s₀ s : State} (acts : List Act) (l : Lay) (i : Nat) (j : Nat) (v : Nat)
    (mask : Nat) (hp : 2 &&& ft = 2) (h : Keeps ft s₀ s) (ha : ActsKeep ft acts) :
    Keeps ft s₀ (State.writeField s acts l i j v mask) := by
  delta State.writeField
  repeat' first
      | with_reducible assumption | exact Foot.sub hp rfl | intro _ | with_reducible apply State.actOn_keeps
      | with_reducible apply Keeps.ite | dsimp only | split

theorem State.writeWord_keeps {ft : Nat} {s₀ s : State} (acts : List Act) (a : Nat) (a0 : Nat) (v : Nat) (mask : Nat)
    (hp : 2 &&& ft = 2) (h : Keeps ft s₀ s) (ha : ActsKeep ft acts) :
    Keeps ft s₀ (State.writeWord s acts a a0 v mask) := by
  delta State.writeWord
  repeat' first
      | with_reducible assumption | exact Foot.sub hp rfl | intro _ | with_reducible apply State.absentHit_keeps
      | with_reducible apply State.writeField_keeps | with_reducible apply Keeps.ite
      | with_reducible apply Keeps.foldl | dsimp only | split

theorem State.writePtr_keeps {ft : Nat} {s₀ s : State} (m : Master) (p : Pair) (i : Nat) (v : Nat) (hp : 2 &&& ft = 2)
    (h : Keeps ft s₀ s) (hw : PairKeeps ft p) :
    Keeps ft s₀ (State.writePtr s m p i v) := by
  delta State.writePtr
  repeat' first
      | with_reducible assumption | exact Foot.sub hp rfl | intro _ | with_reducible apply State.wr_keeps
      | with_reducible refine hw _ _ _ _ _ ?_ | dsimp only | split

theorem State.regWrite_keeps {ft : Nat} {s₀ s : State} (m : Master) (a : Nat) (v : Nat)
    (hp : 68719476734 &&& ft = 68719476734) (h : Keeps ft s₀ s) :
    KeepsOpt ft s₀ (State.regWrite s m a v) := by
  delta State.regWrite
  repeat' first
      | with_reducible assumption | with_reducible exact actsAt_keeps _ (Foot.sub hp rfl)
      | with_reducible exact pairAt_keeps (Foot.sub hp rfl) (by assumption) | exact Foot.sub hp rfl | intro _
      | with_reducible apply State.writePtr_keeps | with_reducible apply State.pairAccess_keeps
      | with_reducible apply State.setTab_keeps | with_reducible apply State.adcGstart_keeps
      | with_reducible apply State.writePort_keeps | with_reducible apply State.writeWord_keeps
      | with_reducible apply Keeps.ite | with_reducible apply KeepsOpt.some | exact KeepsOpt.none
      | with_reducible refine Keeps.of_fst (by assumption) ?_ | dsimp only | split

theorem State.blockWrite_keeps {ft : Nat} {s₀ s : State} (m : Master) (a : Nat) (v : Nat)
    (hp : 68719476734 &&& ft = 68719476734) (h : Keeps ft s₀ s) :
    KeepsOpt ft s₀ (State.blockWrite s m a v) := by
  delta State.blockWrite
  repeat' first
      | with_reducible assumption | with_reducible exact actsAt_keeps _ (Foot.sub hp rfl) | exact Foot.sub hp rfl
      | intro _ | with_reducible apply State.absentHit_keeps | with_reducible apply State.writeWord_keeps
      | with_reducible apply State.regWrite_keeps | with_reducible apply Keeps.ite
      | with_reducible apply KeepsOpt.some | exact KeepsOpt.none
      | with_reducible refine Keeps.of_some (by assumption) ?_ | dsimp only | split

theorem State.viewRead_keeps {ft : Nat} {s₀ s : State} (n : Nat) (a : Nat) (size : Nat) (hp : 2 &&& ft = 2)
    (h : Keeps ft s₀ s) :
    Keeps ft s₀ (State.viewRead s n a size).1 := by
  delta State.viewRead
  repeat' first
      | with_reducible assumption | exact Foot.sub hp rfl | intro _ | with_reducible apply State.absentHit_keeps
      | with_reducible apply State.localRead_keeps | with_reducible apply Keeps.ite
      | with_reducible refine Keeps.of_fst (by assumption) ?_ | dsimp only | split

theorem State.ctlRead_keeps {ft : Nat} {s₀ s : State} (m : Master) (w : Option (Nat × Nat × Bool)) (a : Nat)
    (size : Nat) (hp : 77982371102 &&& ft = 77982371102) (h : Keeps ft s₀ s) :
    Keeps ft s₀ (State.ctlRead s m w a size).1 := by
  delta State.ctlRead
  repeat' first
      | with_reducible assumption | exact Foot.sub hp rfl | intro _ | with_reducible apply State.apRead_keeps
      | with_reducible apply State.viewRead_keeps | with_reducible apply State.draw_keeps
      | with_reducible apply State.blockRead_keeps | with_reducible apply Keeps.ite
      | with_reducible refine Keeps.of_fst (by assumption) ?_ | dsimp only | split

theorem State.viewWrite_keeps {ft : Nat} {s₀ s : State} (n : Nat) (a : Nat) (size : Nat) (v : Nat)
    (hp : 330766 &&& ft = 330766) (h : Keeps ft s₀ s) :
    KeepsOpt ft s₀ (State.viewWrite s n a size v) := by
  delta State.viewWrite
  repeat' first
      | with_reducible assumption | exact Foot.sub hp rfl | intro _ | with_reducible apply State.breakRes_keeps
      | with_reducible apply State.setBytes_keeps | with_reducible apply State.localWrite_keeps
      | with_reducible apply State.absentHit_keeps | with_reducible apply Keeps.ite
      | with_reducible apply KeepsOpt.some | exact KeepsOpt.none | dsimp only | split

theorem State.ctlWrite_keeps {ft : Nat} {s₀ s : State} (m : Master) (w : Option (Nat × Nat × Bool)) (a : Nat)
    (size : Nat) (v : Nat) (hp : 137438953470 &&& ft = 137438953470) (h : Keeps ft s₀ s) :
    Keeps ft s₀ (State.ctlWrite s m w a size v).1 := by
  delta State.ctlWrite
  repeat' first
      | with_reducible assumption | exact Foot.sub hp rfl | intro _ | with_reducible apply State.apWrite_keeps
      | with_reducible apply State.viewWrite_keeps | with_reducible apply State.draw_keeps
      | with_reducible apply State.blockWrite_keeps | with_reducible apply Keeps.ite
      | with_reducible refine Keeps.of_some (by assumption) ?_ | dsimp only | split
end Sys2Proof.Machine
end

