-- ==== Sys2Proof/Laws/KeepsRemote.lean ====
section
/-! SUPPORT. Once for each: what the operations of Machine/Remote.lean keep: the parts of the
state they may change, and that the canonical form of the state survives them. -/

namespace Sys2Proof.Machine

theorem State.fedResult_keeps {ft : Nat} {s₀ s : State} (n : Nat) (cause : Nat) (bad : Bool) (hp : 2 &&& ft = 2)
    (h : Keeps ft s₀ s) :
    Keeps ft s₀ (State.fedResult s n cause bad) := by
  delta State.fedResult
  repeat' first
      | with_reducible assumption | exact Foot.sub hp rfl | intro _ | with_reducible apply State.wr_keeps
      | with_reducible apply State.setFlag_keeps | dsimp only | split

theorem State.remoteLoad_keeps {ft : Nat} {s₀ s : State} (n : Nat) (r : Remote) (m : Master) (signed : Bool)
    (hp : 77982371102 &&& ft = 77982371102) (h : Keeps ft s₀ s) :
    Keeps ft s₀ (State.remoteLoad s n r m signed) := by
  delta State.remoteLoad
  repeat' first
      | with_reducible assumption | exact Foot.sub hp rfl | intro _ | with_reducible apply State.ctlRead_keeps
      | with_reducible apply State.dataComparators_keeps | with_reducible apply State.updCore_keeps
      | with_reducible apply State.addImprecise_keeps | with_reducible refine Keeps.of_fst (by assumption) ?_
      | dsimp only | split

theorem State.remoteStore_keeps {ft : Nat} {s₀ s : State} (n : Nat) (r : Remote) (m : Master)
    (hp : 137438953470 &&& ft = 137438953470) (h : Keeps ft s₀ s) :
    Keeps ft s₀ (State.remoteStore s n r m) := by
  delta State.remoteStore
  repeat' first
      | with_reducible assumption | exact Foot.sub hp rfl | intro _ | with_reducible apply State.ctlWrite_keeps
      | with_reducible apply State.addImprecise_keeps | with_reducible apply Keeps.ite
      | with_reducible refine Keeps.of_fst (by assumption) ?_ | dsimp only | split

theorem State.remoteSc_keeps {ft : Nat} {s₀ s : State} (n : Nat) (r : Remote) (m : Master)
    (hp : 137438953470 &&& ft = 137438953470) (h : Keeps ft s₀ s) :
    Keeps ft s₀ (State.remoteSc s n r m) := by
  delta State.remoteSc
  repeat' first
      | with_reducible assumption | exact Foot.sub hp rfl | intro _ | with_reducible apply State.updCore_keeps
      | with_reducible apply State.remoteStore_keeps | with_reducible apply Keeps.ite | dsimp only | split

theorem State.remoteEnd_keeps {ft : Nat} {s₀ s : State} (n : Nat) (r : Remote) (m : Master)
    (hp : 137438953470 &&& ft = 137438953470) (h : Keeps ft s₀ s) :
    Keeps ft s₀ (State.remoteEnd s n r m) := by
  delta State.remoteEnd
  repeat' first
      | with_reducible assumption | exact Foot.sub hp rfl | intro _ | with_reducible apply State.remoteLoad_keeps
      | with_reducible apply State.remoteStore_keeps | with_reducible apply State.remoteSc_keeps | dsimp only | split

theorem State.remoteStep_keeps {ft : Nat} {s₀ s : State} (m : MfpId) (k : Nat) (r : Remote)
    (hp : 137438953470 &&& ft = 137438953470) (h : Keeps ft s₀ s) :
    Keeps ft s₀ (State.remoteStep s m k r) := by
  delta State.remoteStep
  repeat' first
      | with_reducible assumption | exact Foot.sub hp rfl | intro _ | with_reducible apply State.remoteEnd_keeps
      | with_reducible apply State.updCore_keeps | dsimp only | split

theorem State.drainRemotes_keeps {ft : Nat} {s₀ s : State} (m : MfpId) (x0 : Nat)
    (hp : 137438953470 &&& ft = 137438953470) (h : Keeps ft s₀ s) :
    Keeps ft s₀ (State.drainRemotes s m x0) := by
  induction x0 generalizing s m with
  | zero => first | exact h | trivial
  | succ k ih =>
    unfold State.drainRemotes
    repeat' first
        | with_reducible assumption | exact Foot.sub hp rfl | intro _ | with_reducible apply ih
        | with_reducible apply State.remoteStep_keeps | dsimp only | split

theorem State.fedRun_keeps {ft : Nat} {s₀ s : State} (m : MfpId) (w0 : Nat) (w1 : Nat)
    (hp : 137438953470 &&& ft = 137438953470) (h : Keeps ft s₀ s) :
    Keeps ft s₀ (State.fedRun s m w0 w1) := by
  delta State.fedRun
  repeat' first
      | with_reducible assumption | exact Foot.sub hp rfl | intro _ | with_reducible apply State.drainRemotes_keeps
      | with_reducible apply State.mfpAny_keeps | with_reducible apply State.setCore_keeps
      | with_reducible apply State.fedResult_keeps | with_reducible apply Keeps.foldl | dsimp only | split

theorem State.feed_keeps {ft : Nat} {s₀ s : State} (m : MfpId) (hp : 137438953470 &&& ft = 137438953470)
    (h : Keeps ft s₀ s) :
    Keeps ft s₀ (State.feed s m) := by
  delta State.feed
  repeat' first
      | with_reducible assumption | exact Foot.sub hp rfl | intro _ | with_reducible apply State.fedResult_keeps
      | with_reducible apply State.fedRun_keeps | with_reducible apply Keeps.ite | dsimp only | split

theorem State.dbgFeed_keeps {ft : Nat} {s₀ s : State} (p : DbgPort) (m : MfpId)
    (hp : 137438953470 &&& ft = 137438953470) (h : Keeps ft s₀ s) :
    Keeps ft s₀ (State.dbgFeed s p m) := by
  delta State.dbgFeed
  repeat' first
      | with_reducible assumption | exact Foot.sub hp rfl | intro _ | with_reducible apply State.runControl_keeps
      | with_reducible apply State.feed_keeps | dsimp only | split

theorem doneClk_keeps {ft : Nat} {s₀ s : State}  (h : Keeps ft s₀ s) :
    KeepsOut ft s₀ (doneClk s) := by
  delta doneClk
  repeat' first
      | with_reducible assumption | exact Foot.sub hp rfl | intro _ | with_reducible apply Keeps.ite
      | with_reducible apply KeepsOut.done | with_reducible apply KeepsOut.next | exact trivial | dsimp only | split

theorem execFeedGo_keeps {ft : Nat} {s₀ s : State} (p : DbgPort) (m : MfpId) (hp : 137438953470 &&& ft = 137438953470)
    (h : Keeps ft s₀ s) :
    KeepsOut ft s₀ (execFeedGo p m s) := by
  delta execFeedGo
  repeat' first
      | with_reducible assumption | exact Foot.sub hp rfl | intro _ | with_reducible apply doneClk_keeps
      | with_reducible apply State.portWrite_keeps | with_reducible apply State.dbgFeed_keeps
      | with_reducible apply KeepsOut.done | with_reducible apply KeepsOut.next | exact trivial | dsimp only | split

theorem execRemoteLoadReturn_keeps {ft : Nat} {s₀ s : State} (m : MfpId) (k : Fin 24)
    (hp : 137438953470 &&& ft = 137438953470) (h : Keeps ft s₀ s) :
    KeepsOut ft s₀ (execRemoteLoadReturn m k s) := by
  delta execRemoteLoadReturn
  repeat' first
      | with_reducible assumption | exact Foot.sub hp rfl | intro _ | with_reducible apply doneClk_keeps
      | with_reducible apply State.remoteStep_keeps | with_reducible apply Keeps.ite
      | with_reducible apply KeepsOut.done | with_reducible apply KeepsOut.next | exact trivial | dsimp only | split

theorem execRemoteStoreDone_keeps {ft : Nat} {s₀ s : State} (m : MfpId) (k : Fin 24)
    (hp : 137438953470 &&& ft = 137438953470) (h : Keeps ft s₀ s) :
    KeepsOut ft s₀ (execRemoteStoreDone m k s) := by
  delta execRemoteStoreDone
  repeat' first
      | with_reducible assumption | exact Foot.sub hp rfl | intro _ | with_reducible apply doneClk_keeps
      | with_reducible apply State.remoteStep_keeps | with_reducible apply Keeps.ite
      | with_reducible apply KeepsOut.done | with_reducible apply KeepsOut.next | exact trivial | dsimp only | split

theorem execRemoteStoreError_keeps {ft : Nat} {s₀ s : State} (m : MfpId) (k : Fin 24)
    (hp : 137438953470 &&& ft = 137438953470) (h : Keeps ft s₀ s) :
    KeepsOut ft s₀ (execRemoteStoreError m k s) := by
  delta execRemoteStoreError
  repeat' first
      | with_reducible assumption | exact Foot.sub hp rfl | intro _ | with_reducible apply doneClk_keeps
      | with_reducible apply State.remoteStep_keeps | with_reducible apply Keeps.ite
      | with_reducible apply KeepsOut.done | with_reducible apply KeepsOut.next | exact trivial | dsimp only | split
end Sys2Proof.Machine
end

