-- ==== Sys2Proof/Laws/KeepsDbgBus.lean ====
section
/-! SUPPORT. Once for each: what the operations of Machine/DbgBus.lean keep: the parts of the
state they may change, and that the canonical form of the state survives them. -/

namespace Sys2Proof.Machine

theorem State.mirrorRead_keeps {ft : Nat} {s₀ s : State} (p : DbgPort) (n : Nat) (off : Nat) (hp : 2 &&& ft = 2)
    (h : Keeps ft s₀ s) :
    Keeps ft s₀ (State.mirrorRead s p n off).1 := by
  delta State.mirrorRead
  repeat' first
      | with_reducible assumption | exact Foot.sub hp rfl | intro _ | with_reducible apply State.wr_keeps
      | with_reducible apply Keeps.ite | dsimp only | split

theorem State.dbgRead_keeps {ft : Nat} {s₀ s : State} (p : DbgPort) (a : Nat) (hp : 262146 &&& ft = 262146)
    (h : Keeps ft s₀ s) :
    Keeps ft s₀ (State.dbgRead s p a).1 := by
  delta State.dbgRead
  repeat' first
      | with_reducible assumption | exact Foot.sub hp rfl | intro _ | with_reducible apply State.mirrorRead_keeps
      | with_reducible apply State.regAccess_keeps | with_reducible apply Keeps.ite
      | with_reducible refine Keeps.of_fst (by assumption) ?_
      | with_reducible refine Keeps.of_someP (by assumption) ?_ | dsimp only | split

theorem State.mirrorWrite_keeps {ft : Nat} {s₀ s : State} (n : Nat) (off : Nat) (v : Nat)
    (hp : 330766 &&& ft = 330766) (h : Keeps ft s₀ s) :
    Keeps ft s₀ (State.mirrorWrite s n off v) := by
  delta State.mirrorWrite
  repeat' first
      | with_reducible assumption | exact Foot.sub hp rfl | intro _ | with_reducible apply State.localStore_keeps
      | with_reducible apply State.dmemPort_keeps | with_reducible apply State.mfpRegWrite_keeps
      | with_reducible apply Keeps.ite | dsimp only | split

theorem State.dbgMfpWord_keeps {ft : Nat} {s₀ s : State} (p : DbgPort) (m : MfpId) (v : Nat) (mask : Nat)
    (hp : 137438953470 &&& ft = 137438953470) (h : Keeps ft s₀ s) :
    Keeps ft s₀ (State.dbgMfpWord s p m v mask) := by
  delta State.dbgMfpWord
  repeat' first
      | with_reducible assumption | exact Foot.sub hp rfl | intro _ | with_reducible apply State.deny_keeps
      | with_reducible apply State.setFlag_keeps | with_reducible apply State.dbgHalt_keeps
      | with_reducible apply State.dbgResume_keeps | with_reducible apply State.dbgStep_keeps
      | with_reducible apply State.dbgFeed_keeps | with_reducible apply State.dbgReset_keeps
      | with_reducible apply Keeps.ite | dsimp only | split

theorem State.writeHgrp_keeps {ft : Nat} {s₀ s : State} (m : Nat) (a : Nat) (v : Nat) (hp : 2 &&& ft = 2)
    (h : Keeps ft s₀ s) :
    Keeps ft s₀ (State.writeHgrp s m a v) := by
  delta State.writeHgrp
  repeat' first
      | with_reducible assumption | exact Foot.sub hp rfl | intro _ | with_reducible apply State.absentHit_keeps
      | with_reducible apply State.wr_keeps | with_reducible apply Keeps.ite | dsimp only | split

theorem State.dbgMWrite_keeps {ft : Nat} {s₀ s : State} (p : DbgPort) (m : MfpId) (off a v : Nat)
    (hp : 262146 &&& ft = 262146) (h : Keeps ft s₀ s) : KeepsOpt ft s₀ (State.dbgMWrite s p m off a v) := by
  delta State.dbgMWrite
  split
  · have hr := State.regAccess_keeps p m (some v) (Foot.sub hp rfl) h
    cases e : s.regAccess p m (some v) with
    | none => exact trivial
    | some x => rw [e] at hr; exact hr
  · split
    · exact State.wr_keeps _ _ (Foot.sub hp rfl) (State.wr_keeps _ _ (Foot.sub hp rfl) h)
    · split
      · exact State.owning_keeps _ _ _ (Foot.sub hp rfl) h fun s h => State.writeHgrp_keeps _ _ _ (Foot.sub hp rfl) h
      · split
        · exact State.owning_keeps _ _ _ (Foot.sub hp rfl) h fun s h => State.writeFields_keeps _ _ _ (Foot.sub hp rfl) h
        · exact State.writeFields_keeps _ _ _ (Foot.sub hp rfl) h

theorem State.dbgWord0_keeps {ft : Nat} {s₀ s : State} (p : DbgPort) (v : Nat) (mask : Nat)
    (hp : 68719738882 &&& ft = 68719738882) (h : Keeps ft s₀ s) :
    Keeps ft s₀ (State.dbgWord0 s p v mask) := by
  delta State.dbgWord0
  repeat' first
      | with_reducible assumption | exact Foot.sub hp rfl | intro _ | with_reducible apply State.deny_keeps
      | with_reducible apply State.setFlag_keeps | with_reducible apply State.chalGo_keeps
      | with_reducible apply State.authGo_keeps | with_reducible apply State.dbgEnd_keeps
      | with_reducible apply Keeps.ite | dsimp only | split

theorem State.writeAp_keeps {ft : Nat} {s₀ s : State} (p : DbgPort) (a : Nat) (v : Nat) (hp : 2 &&& ft = 2)
    (h : Keeps ft s₀ s) :
    Keeps ft s₀ (State.writeAp s p a v) := by
  delta State.writeAp
  repeat' first
      | with_reducible assumption | exact Foot.sub hp rfl | intro _ | with_reducible apply State.wr_keeps
      | with_reducible apply State.absentHit_keeps | with_reducible apply Keeps.ite | dsimp only | split

theorem State.dbgRegWrite_keeps {ft : Nat} {s₀ s : State} (p : DbgPort) (a : Nat) (v : Nat) (mask : Nat)
    (hp : 137438953470 &&& ft = 137438953470) (h : Keeps ft s₀ s) :
    KeepsOpt ft s₀ (State.dbgRegWrite s p a v mask) := by
  delta State.dbgRegWrite
  repeat' first
      | with_reducible assumption | exact Foot.sub hp rfl | intro _ | with_reducible apply State.dbgMfpWord_keeps
      | with_reducible apply State.dbgMWrite_keeps | with_reducible apply State.dbgWord0_keeps
      | with_reducible apply State.writeAp_keeps | with_reducible apply State.writeFields_keeps
      | with_reducible apply Keeps.ite | with_reducible apply KeepsOpt.some | exact KeepsOpt.none
      | with_reducible refine Keeps.of_some (by assumption) ?_ | dsimp only | split

theorem State.dbgWrite_keeps {ft : Nat} {s₀ s : State} (p : DbgPort) (a : Nat) (v : Nat)
    (hp : 137438953470 &&& ft = 137438953470) (h : Keeps ft s₀ s) :
    KeepsOpt ft s₀ (State.dbgWrite s p a v) := by
  delta State.dbgWrite
  repeat' first
      | with_reducible assumption | exact Foot.sub hp rfl | intro _ | with_reducible apply State.mirrorWrite_keeps
      | with_reducible apply State.dbgRegWrite_keeps | with_reducible apply KeepsOpt.some | exact KeepsOpt.none
      | with_reducible refine Keeps.of_some (by assumption) ?_ | dsimp only | split

theorem State.dbgBlock_keeps {ft : Nat} {s₀ s : State} (p : DbgPort) (a : Nat) (size : Nat) (v : Option Nat)
    (hp : 137438953470 &&& ft = 137438953470) (h : Keeps ft s₀ s) :
    Keeps ft s₀ (State.dbgBlock s p a size v).1 := by
  delta State.dbgBlock
  repeat' first
      | with_reducible assumption | exact Foot.sub hp rfl | intro _ | with_reducible apply State.absentHit_keeps
      | with_reducible apply State.dbgRead_keeps | with_reducible apply State.dbgWrite_keeps
      | with_reducible apply Keeps.ite | with_reducible refine Keeps.of_fst (by assumption) ?_
      | with_reducible refine Keeps.of_some (by assumption) ?_ | dsimp only | split

theorem State.dbgAccess_keeps {ft : Nat} {s₀ s : State} (p : DbgPort) (a : Nat) (size : Nat) (v : Option Nat)
    (hp : 137438953470 &&& ft = 137438953470) (h : Keeps ft s₀ s) :
    Keeps ft s₀ (State.dbgAccess s p a size v).1 := by
  delta State.dbgAccess
  repeat' first
      | with_reducible assumption | exact Foot.sub hp rfl | intro _ | with_reducible apply State.setFlag_keeps
      | with_reducible apply State.deny_keeps | with_reducible apply State.dbgBlock_keeps
      | with_reducible apply State.ctlRead_keeps | with_reducible apply State.ctlWrite_keeps
      | with_reducible apply Keeps.ite | with_reducible refine Keeps.of_fst (by assumption) ?_ | dsimp only | split

theorem State.busWrite_keeps {ft : Nat} {s₀ s : State} (m : Master) (a : Nat) (size : Nat) (v : Nat)
    (hp : 137438953470 &&& ft = 137438953470) (h : Keeps ft s₀ s) :
    Keeps ft s₀ (State.busWrite s m a size v).1 := by
  delta State.busWrite
  repeat' first
      | with_reducible assumption | exact Foot.sub hp rfl | intro _ | with_reducible apply State.dbgAccess_keeps
      | with_reducible apply State.ctlWrite_keeps | with_reducible refine Keeps.of_fst (by assumption) ?_
      | dsimp only | split

theorem State.busRead_keeps {ft : Nat} {s₀ s : State} (m : Master) (a : Nat) (size : Nat)
    (hp : 137438953470 &&& ft = 137438953470) (h : Keeps ft s₀ s) :
    Keeps ft s₀ (State.busRead s m a size).1 := by
  delta State.busRead
  repeat' first
      | with_reducible assumption | exact Foot.sub hp rfl | intro _ | with_reducible apply State.dbgAccess_keeps
      | with_reducible apply State.ctlRead_keeps | with_reducible refine Keeps.of_fst (by assumption) ?_ | dsimp only
      | split

theorem State.readAnswer_keeps {ft : Nat} {s₀ s : State} (m : Master) (a : Nat)
    (hp : 137438953470 &&& ft = 137438953470) (h : Keeps ft s₀ s) :
    Keeps ft s₀ (State.readAnswer s m a) := by
  delta State.readAnswer
  repeat' first
      | with_reducible assumption | exact Foot.sub hp rfl | intro _ | with_reducible apply State.busRead_keeps
      | with_reducible apply State.answer_keeps | with_reducible refine Keeps.of_fst (by assumption) ?_ | dsimp only
      | split

theorem State.setEffect_keeps {ft : Nat} {s₀ s : State} (a : Nat) (f : State → State) (hp : 2 &&& ft = 2)
    (h : Keeps ft s₀ s) (h_f : ∀ s , Keeps ft s₀ s → Keeps ft s₀ (f s)) :
    Keeps ft s₀ (State.setEffect s a f) := by
  delta State.setEffect
  repeat' first
      | with_reducible assumption | exact Foot.sub hp rfl | intro _ | with_reducible apply State.absentHit_keeps
      | with_reducible apply h_f | with_reducible apply Keeps.ite | dsimp only | split

theorem State.serve_keeps {ft : Nat} {s₀ s : State} (x : Access) (hp : 137438953470 &&& ft = 137438953470)
    (h : Keeps ft s₀ s) :
    Keeps ft s₀ (State.serve s x) := by
  delta State.serve
  repeat' first
      | with_reducible assumption | with_reducible exact actsAt_keeps _ (Foot.sub hp rfl) | exact Foot.sub hp rfl
      | intro _ | with_reducible apply State.busWrite_keeps | with_reducible apply State.setFlag_keeps
      | with_reducible apply State.readAnswer_keeps | with_reducible apply State.setEffect_keeps
      | with_reducible apply State.regWrite_keeps | with_reducible apply State.writeWord_keeps
      | with_reducible apply State.writeSq_keeps | with_reducible apply State.writeT_keeps
      | with_reducible apply State.writePlane_keeps | with_reducible apply State.writeCascEn_keeps
      | with_reducible apply State.prbsEffect_keeps | with_reducible apply Keeps.ite
      | with_reducible apply Keeps.getD | with_reducible apply KeepsOpt.some | exact KeepsOpt.none
      | with_reducible refine Keeps.of_fst (by assumption) ?_
      | with_reducible refine Keeps.of_some (by assumption) ?_ | dsimp only | split

theorem State.access_keeps {ft : Nat} {s₀ s : State} (x : Access) (hp : 137438953470 &&& ft = 137438953470)
    (h : Keeps ft s₀ s) :
    Keeps ft s₀ (State.access s x) := by
  delta State.access
  repeat' first
      | with_reducible assumption | exact Foot.sub hp rfl | intro _ | with_reducible apply State.hold_keeps
      | with_reducible apply State.serve_keeps | with_reducible apply Keeps.ite | dsimp only | split

theorem State.serveOne_keeps {ft : Nat} {s₀ s : State} (k : Nat) (hp : 137438953470 &&& ft = 137438953470)
    (h : Keeps ft s₀ s) :
    Keeps ft s₀ (State.serveOne s k) := by
  delta State.serveOne
  repeat' first
      | with_reducible assumption | exact Foot.sub hp rfl | with_reducible exact id
      | with_reducible exact SMap.sorted_set _ _ _ | with_reducible exact SMap.sorted_put _ _
      | with_reducible exact SMap.sorted_del _ | with_reducible exact SMap.sorted_filter _
      | with_reducible exact Memory.wf_filter _ | with_reducible exact fun _ => SMap.sorted_nil
      | with_reducible exact fun _ => Memory.wf_nil | intro _ | with_reducible apply State.serve_keeps
      | with_reducible apply State.withHeld_keeps | with_reducible apply Keeps.ite | dsimp only | split

theorem State.serveTurn_keeps {ft : Nat} {s₀ s : State} (hp : 137438953470 &&& ft = 137438953470)
    (h : Keeps ft s₀ s) :
    Keeps ft s₀ (State.serveTurn s) := by
  delta State.serveTurn
  repeat' first
      | with_reducible assumption | exact Foot.sub hp rfl | intro _ | with_reducible apply State.forUpTo_keeps
      | with_reducible apply State.serveOne_keeps | with_reducible apply Keeps.ite | dsimp only | split

theorem State.serveHeld_keeps {ft : Nat} {s₀ s : State} (hp : 137438953470 &&& ft = 137438953470)
    (h : Keeps ft s₀ s) :
    Keeps ft s₀ (State.serveHeld s) := by
  delta State.serveHeld
  repeat' first
      | with_reducible assumption | exact Foot.sub hp rfl | intro _ | with_reducible apply State.forUpTo_keeps
      | with_reducible apply State.serveTurn_keeps | dsimp only | split

theorem execAbsentRel_keeps {ft : Nat} {s₀ s : State}  (hp : 17179869186 &&& ft = 17179869186) (h : Keeps ft s₀ s) :
    KeepsOut ft s₀ (execAbsentRel s) := by
  delta execAbsentRel
  repeat' first
      | with_reducible assumption | with_reducible exact actsSys_keeps (Foot.sub hp rfl) | exact Foot.sub hp rfl
      | intro _ | with_reducible apply State.reach_keeps | with_reducible apply State.writeWord_keeps
      | with_reducible apply KeepsOut.done | with_reducible apply KeepsOut.next | exact trivial | dsimp only | split

theorem execDbgaccDone_keeps {ft : Nat} {s₀ s : State}  (hp : 137438953470 &&& ft = 137438953470) (h : Keeps ft s₀ s) :
    KeepsOut ft s₀ (execDbgaccDone s) := by
  delta execDbgaccDone
  repeat' first
      | with_reducible assumption | exact Foot.sub hp rfl | intro _ | with_reducible apply State.dbgAccess_keeps
      | with_reducible apply doneClk_keeps | with_reducible apply State.wr_keeps | with_reducible apply Keeps.ite
      | with_reducible apply KeepsOut.done | with_reducible apply KeepsOut.next | exact trivial
      | with_reducible refine Keeps.of_fst (by assumption) ?_ | dsimp only | split

theorem execIndirectDataAccess_keeps {ft : Nat} {s₀ s : State} (m : Master) (addr : Word) (v : Option Word)
    (hp : 137438953470 &&& ft = 137438953470) (h : Keeps ft s₀ s) :
    KeepsOut ft s₀ (execIndirectDataAccess m addr v s) := by
  delta execIndirectDataAccess
  repeat' first
      | with_reducible assumption | exact Foot.sub hp rfl | intro _ | with_reducible apply doneClk_keeps
      | with_reducible apply State.access_keeps | with_reducible apply Keeps.ite | with_reducible apply KeepsOut.done
      | with_reducible apply KeepsOut.next | exact trivial | dsimp only | split

theorem execRegisterWrite_keeps {ft : Nat} {s₀ s : State} (m : Master) (addr : Word) (v : Word)
    (hp : 137438953470 &&& ft = 137438953470) (h : Keeps ft s₀ s) :
    KeepsOut ft s₀ (execRegisterWrite m addr v s) := by
  delta execRegisterWrite
  repeat' first
      | with_reducible assumption | exact Foot.sub hp rfl | intro _ | with_reducible apply doneClk_keeps
      | with_reducible apply State.access_keeps | with_reducible apply KeepsOut.done
      | with_reducible apply KeepsOut.next | exact trivial | dsimp only | split
end Sys2Proof.Machine
end

