-- ==== Sys2Proof/Laws/KeepsLoad.lean ====
section
/-! SUPPORT. Once for each: what the operations of Machine/Load.lean keep: the parts of the
state they may change, and that the canonical form of the state survives them. -/

namespace Sys2Proof.Machine

theorem State.applyPairs_keeps {ft : Nat} {s₀ s : State} (i : Nat) (x0 : Nat)
    (hp : 137438953470 &&& ft = 137438953470) (h : Keeps ft s₀ s) :
    Keeps ft s₀ (State.applyPairs s i x0).1 := by
  induction x0 generalizing s i with
  | zero => first | exact h | trivial
  | succ k ih =>
    unfold State.applyPairs
    repeat' first
        | with_reducible assumption | exact Foot.sub hp rfl | intro _ | with_reducible apply ih
        | with_reducible apply State.hold_keeps | with_reducible apply State.busWrite_keeps
        | with_reducible refine Keeps.of_fst (by assumption) ?_ | dsimp only | split

theorem State.startBays_keeps {ft : Nat} {s₀ s : State}  (hp : 2 &&& ft = 2) (h : Keeps ft s₀ s) :
    Keeps ft s₀ (State.startBays s) := by
  delta State.startBays
  repeat' first
      | with_reducible assumption | exact Foot.sub hp rfl | intro _ | with_reducible apply State.forUpTo_keeps
      | with_reducible apply State.setFlag_keeps | dsimp only | split

theorem State.clearLoad_keeps {ft : Nat} {s₀ s : State} (hp : 14 &&& ft = 14) (h : Keeps ft s₀ s) :
    Keeps ft s₀ (State.clearLoad s) := by
  refine State.wr_keeps _ _ (Foot.sub hp rfl) (State.wr_keeps _ _ (Foot.sub hp rfl) (State.wr_keeps _ _ (Foot.sub hp rfl)
    (State.wr_keeps _ _ (Foot.sub hp rfl) (h.upd
      (fun p => by cases p <;> first | exact fun _ => rfl | exact Foot.not hp (by decide)) fun c => ?_))))
  exact { c with tabs := SMap.sorted_filter _ c.tabs, mem := Memory.wf_filter _ c.mem }

theorem State.loadDead_keeps {ft : Nat} {s₀ s : State}  (hp : 8990821854 &&& ft = 8990821854) (h : Keeps ft s₀ s) :
    Keeps ft s₀ (State.loadDead s) := by
  delta State.loadDead
  repeat' first
      | with_reducible assumption | exact Foot.sub hp rfl | with_reducible exact id
      | with_reducible exact SMap.sorted_set _ _ _ | with_reducible exact SMap.sorted_put _ _
      | with_reducible exact SMap.sorted_del _ | with_reducible exact SMap.sorted_filter _
      | with_reducible exact Memory.wf_filter _ | with_reducible exact fun _ => SMap.sorted_nil
      | with_reducible exact fun _ => Memory.wf_nil | intro _ | with_reducible apply State.withCores_keeps
      | with_reducible apply State.clearLoad_keeps | with_reducible apply State.forUpTo_keeps
      | with_reducible apply State.setFlag_keeps | with_reducible apply State.wr_keeps
      | with_reducible apply State.settleHeld_keeps | with_reducible apply State.safehold_keeps | dsimp only | split

theorem State.cfgCapture_keeps {ft : Nat} {s₀ s : State} (cause : Nat) (slot : Nat) (seg : Nat) (hp : 2 &&& ft = 2)
    (h : Keeps ft s₀ s) :
    Keeps ft s₀ (State.cfgCapture s cause slot seg) := by
  delta State.cfgCapture
  repeat' first
      | with_reducible assumption | exact Foot.sub hp rfl | intro _ | with_reducible apply State.wr_keeps
      | with_reducible apply State.setFlag_keeps | with_reducible apply Keeps.ite | dsimp only | split

theorem State.loadStop_keeps {ft : Nat} {s₀ s : State} (cause : Nat) (hp : 8990821854 &&& ft = 8990821854)
    (h : Keeps ft s₀ s) :
    Keeps ft s₀ (State.loadStop s cause) := by
  delta State.loadStop
  repeat' first
      | with_reducible assumption | exact Foot.sub hp rfl | intro _ | with_reducible apply State.loadDead_keeps
      | with_reducible apply State.cfgCapture_keeps | dsimp only | split

theorem State.applyImage_keeps {ft : Nat} {s₀ s : State} (hp : 137438953470 &&& ft = 137438953470)
    (h : Keeps ft s₀ s) :
    Keeps ft s₀ (State.applyImage s) := by
  delta State.applyImage
  repeat' first
      | with_reducible assumption | exact Foot.sub hp rfl | intro _ | with_reducible apply State.forUpTo_keeps
      | with_reducible apply State.wr_keeps | with_reducible apply State.applyPairs_keeps
      | with_reducible apply State.startBays_keeps | with_reducible apply State.loadStop_keeps
      | with_reducible apply Keeps.ite | with_reducible refine Keeps.of_fst (by assumption) ?_ | dsimp only | split

theorem State.beginOrder_keeps {ft : Nat} {s₀ s : State}  (hp : 2 &&& ft = 2) (h : Keeps ft s₀ s) :
    Keeps ft s₀ (State.beginOrder s) := by
  delta State.beginOrder
  repeat' first
      | with_reducible assumption | exact Foot.sub hp rfl | intro _ | with_reducible apply State.wr_keeps
      | with_reducible apply State.setFlag_keeps | dsimp only | split

theorem State.dropGold_keeps {ft : Nat} {s₀ s : State}  (hp : 3072 &&& ft = 3072) (h : Keeps ft s₀ s) :
    Keeps ft s₀ (State.dropGold s) := by
  delta State.dropGold
  repeat' first
      | with_reducible assumption | exact Foot.sub hp rfl | with_reducible exact id
      | with_reducible exact SMap.sorted_set _ _ _ | with_reducible exact SMap.sorted_put _ _
      | with_reducible exact SMap.sorted_del _ | with_reducible exact SMap.sorted_filter _
      | with_reducible exact Memory.wf_filter _ | with_reducible exact fun _ => SMap.sorted_nil
      | with_reducible exact fun _ => Memory.wf_nil | intro _ | with_reducible apply State.forUpTo_keeps
      | with_reducible apply State.setAlloc_keeps | with_reducible apply State.freeDeleted_keeps
      | with_reducible apply State.withDir_keeps | with_reducible apply Keeps.ite | dsimp only | split

theorem State.loadFail_keeps {ft : Nat} {s₀ s : State} (cause : Nat) (seg : Nat) (hp : 8990821854 &&& ft = 8990821854)
    (h : Keeps ft s₀ s) :
    Keeps ft s₀ (State.loadFail s cause seg) := by
  delta State.loadFail
  repeat' first
      | with_reducible assumption | exact Foot.sub hp rfl | intro _ | with_reducible apply State.cfgCapture_keeps
      | with_reducible apply State.wr_keeps | with_reducible apply State.clearLoad_keeps
      | with_reducible apply State.loadDead_keeps | with_reducible apply Keeps.ite | dsimp only | split

theorem State.endRecord_keeps {ft : Nat} {s₀ s : State} (crc : Nat) (hp : 137438953470 &&& ft = 137438953470)
    (h : Keeps ft s₀ s) :
    Keeps ft s₀ (State.endRecord s crc) := by
  delta State.endRecord
  repeat' first
      | with_reducible assumption | exact Foot.sub hp rfl | intro _ | with_reducible apply State.wr_keeps
      | with_reducible apply State.loadFail_keeps | with_reducible apply State.applyImage_keeps
      | with_reducible apply Keeps.ite | dsimp only | split

theorem State.goldFrames_keeps {ft : Nat} {s₀ s : State} (r : Nat) (x0 : List Nat)
    (hp : 77309411342 &&& ft = 77309411342) (h : Keeps ft s₀ s) :
    KeepsOpt ft s₀ (State.goldFrames s r x0) := by
  induction x0 generalizing s r with
  | nil => first | exact h | trivial
  | cons a r ih =>
    unfold State.goldFrames
    repeat' first
        | with_reducible assumption | exact Foot.sub hp rfl | intro _ | with_reducible apply ih
        | with_reducible apply State.goldWrite_keeps | with_reducible apply KeepsOpt.some | exact KeepsOpt.none
        | with_reducible refine Keeps.of_some (by assumption) ?_ | dsimp only | split

theorem State.newGold_keeps {ft : Nat} {s₀ s : State} (r : Nat) (hp : 77309414414 &&& ft = 77309414414)
    (h : Keeps ft s₀ s) :
    KeepsOpt ft s₀ (State.newGold s r) := by
  delta State.newGold
  repeat' first
      | with_reducible assumption | exact Foot.sub hp rfl | intro _ | with_reducible apply State.newAlloc_keeps
      | with_reducible apply State.draw_keeps | with_reducible apply State.wr_keeps
      | with_reducible apply State.goldFrames_keeps | with_reducible apply Keeps.ite
      | with_reducible apply KeepsOpt.some | exact KeepsOpt.none
      | with_reducible refine Keeps.of_some (by assumption) ?_ | dsimp only | split

theorem State.newGolds_keeps {ft : Nat} {s₀ s : State} (x0 : List Nat) (hp : 77309414414 &&& ft = 77309414414)
    (h : Keeps ft s₀ s) :
    KeepsOpt ft s₀ (State.newGolds s x0) := by
  induction x0 generalizing s  with
  | nil => first | exact h | trivial
  | cons a r ih =>
    unfold State.newGolds
    repeat' first
        | with_reducible assumption | exact Foot.sub hp rfl | intro _ | with_reducible apply ih
        | with_reducible apply State.newGold_keeps | with_reducible apply KeepsOpt.some | exact KeepsOpt.none
        | with_reducible refine Keeps.of_some (by assumption) ?_ | dsimp only | split

theorem State.newResume_keeps {ft : Nat} {s₀ s : State} (hp : 77309414414 &&& ft = 77309414414) (h : Keeps ft s₀ s) :
    KeepsOpt ft s₀ (State.newResume s) := by
  have hn := State.newAlloc_keeps resumeId 7 3 { id := resumeId, size := s.resumeBytes.length, kind := 7, key := 0 }
    (Foot.sub hp rfl) h
  have hb : ∀ x : Option State, KeepsOpt ft s₀ x → KeepsOpt ft s₀ (x.bind fun t =>
      (t.alloc? resumeId).map fun a => t.allocWrite a 0 s.resumeBytes) := by
    intro x hx
    cases x with
    | none => exact trivial
    | some t =>
      have ha : ∀ y : Option Alloc, KeepsOpt ft s₀ (y.map fun a => t.allocWrite a 0 s.resumeBytes) := by
        intro y
        cases y with
        | none => exact trivial
        | some a => exact State.allocWrite_keeps _ _ _ _ (Foot.sub hp rfl) hx
      exact ha _
  exact hb _ hn

theorem State.goldenBuild_keeps {ft : Nat} {s₀ s : State} (hp : 77710298590 &&& ft = 77710298590) (h : Keeps ft s₀ s) :
    Keeps ft s₀ (State.goldenBuild s) := by
  have h1 : Keeps ft s₀ s.dropGold := State.dropGold_keeps (Foot.sub hp rfl) h
  have h2 : ∀ l, KeepsOpt ft s₀ (s.dropGold.newGolds l) := fun l => State.newGolds_keeps l (Foot.sub hp rfl) h1
  have hb : ∀ x : Option State, KeepsOpt ft s₀ x → KeepsOpt ft s₀ (x.bind State.newResume) := by
    intro x hx
    cases x with
    | none => exact trivial
    | some t => rw [Option.bind_some]; exact State.newResume_keeps (Foot.sub hp rfl) hx
  have hc : ∀ x : Option State, KeepsOpt ft s₀ x → Keeps ft s₀ (x.elim (s.dropGold.loadStop 10) fun t =>
      (t.forUpTo 16 fun s b => s.setFlag (CNV.HALF.f b) false).beginOrder) := by
    intro x hx
    cases x with
    | none => rw [Option.elim_none]; exact State.loadStop_keeps _ (Foot.sub hp rfl) h1
    | some t =>
      rw [Option.elim_some]
      exact State.beginOrder_keeps (Foot.sub hp rfl)
        (State.forUpTo_keeps hx fun s k h => State.setFlag_keeps _ _ (Foot.sub hp rfl) h)
  have hd : ∀ l, Keeps ft s₀ (((s.dropGold.newGolds l).bind State.newResume).elim (s.dropGold.loadStop 10) fun t =>
      (t.forUpTo 16 fun s b => s.setFlag (CNV.HALF.f b) false).beginOrder) := fun l => hc _ (hb _ (h2 l))
  exact hd (16 :: List.range 16)

theorem State.keepPayload_keeps {ft : Nat} {s₀ s : State} (i : Nat) (l : List Nat) (hp : 4 &&& ft = 4)
    (h : Keeps ft s₀ s) :
    Keeps ft s₀ (State.keepPayload s i l) := by
  delta State.keepPayload
  repeat' first
      | with_reducible assumption | exact Foot.sub hp rfl | intro _ | with_reducible apply State.forUpTo_keeps
      | with_reducible apply State.setTab_keeps | with_reducible apply Keeps.foldl | dsimp only | split

theorem State.ledgerLoad_keeps {ft : Nat} {s₀ s : State} (w : Nat → Nat) (hp : 4 &&& ft = 4) (h : Keeps ft s₀ s) :
    Keeps ft s₀ (State.ledgerLoad s w) := by
  delta State.ledgerLoad
  repeat' first
      | with_reducible assumption | exact Foot.sub hp rfl | intro _ | with_reducible apply State.forUpTo_keeps
      | with_reducible apply State.setTab_keeps | with_reducible apply h_w | dsimp only | split

theorem State.ledgerRestore_keeps {ft : Nat} {s₀ s : State} (l : List LedgerBlock) (head : Option (Fin 16))
    (hp : 6 &&& ft = 6) (h : Keeps ft s₀ s) :
    Keeps ft s₀ (State.ledgerRestore s l head) := by
  delta State.ledgerRestore
  repeat' first
      | with_reducible assumption | exact Foot.sub hp rfl | intro _ | with_reducible apply State.setFlag_keeps
      | with_reducible apply State.setTab_keeps | with_reducible apply State.ledgerLoad_keeps
      | with_reducible apply State.wr_keeps | with_reducible apply Keeps.ite | dsimp only | split

theorem State.orderEnd_keeps {ft : Nat} {s₀ s : State}  (hp : 8990821846 &&& ft = 8990821846) (h : Keeps ft s₀ s) :
    Keeps ft s₀ (State.orderEnd s) := by
  delta State.orderEnd
  repeat' first
      | with_reducible assumption | exact Foot.sub hp rfl | intro _ | with_reducible apply State.wr_keeps
      | with_reducible apply State.setFlag_keeps | with_reducible apply State.settleHeld_keeps
      | with_reducible apply State.pulse_keeps | with_reducible apply Keeps.ite | dsimp only | split

theorem State.orderSettle_keeps {ft : Nat} {s₀ s : State}  (hp : 8990821846 &&& ft = 8990821846) (h : Keeps ft s₀ s) :
    Keeps ft s₀ (State.orderSettle s) := by
  delta State.orderSettle
  repeat' first
      | with_reducible assumption | exact Foot.sub hp rfl | intro _ | with_reducible apply State.orderEnd_keeps
      | with_reducible apply Keeps.ite | dsimp only | split

theorem State.pairsFailed_keeps {ft : Nat} {s₀ s : State}  (hp : 8990821854 &&& ft = 8990821854) (h : Keeps ft s₀ s) :
    Keeps ft s₀ (State.pairsFailed s) := by
  delta State.pairsFailed
  repeat' first
      | with_reducible assumption | exact Foot.sub hp rfl | intro _ | with_reducible apply State.setFlag_keeps
      | with_reducible apply State.loadStop_keeps | with_reducible apply Keeps.ite | dsimp only | split

theorem State.loadTick_keeps {ft : Nat} {s₀ s : State}  (hp : 8990821854 &&& ft = 8990821854) (h : Keeps ft s₀ s) :
    Keeps ft s₀ (State.loadTick s) := by
  delta State.loadTick
  repeat' first
      | with_reducible assumption | exact Foot.sub hp rfl | intro _ | with_reducible apply State.orderSettle_keeps
      | with_reducible apply State.pairsFailed_keeps | dsimp only | split

theorem State.phaseAct_keeps {ft : Nat} {s₀ s : State} (c : Nat) (hp : 262146 &&& ft = 262146) (h : Keeps ft s₀ s) :
    Keeps ft s₀ (State.phaseAct s c) := by
  delta State.phaseAct
  repeat' first
      | with_reducible assumption | exact Foot.sub hp rfl | intro _ | with_reducible apply State.leaveAll_keeps
      | with_reducible apply State.setFlag_keeps | with_reducible apply State.forUpTo_keeps
      | with_reducible apply State.updCore_keeps | with_reducible apply Keeps.ite | dsimp only | split

theorem State.phase_keeps {ft : Nat} {s₀ s : State}  (hp : 8990821846 &&& ft = 8990821846) (h : Keeps ft s₀ s) :
    Keeps ft s₀ (State.phase s) := by
  delta State.phase
  repeat' first
      | with_reducible assumption | exact Foot.sub hp rfl | intro _ | with_reducible apply State.wr_keeps
      | with_reducible apply State.inc_keeps | with_reducible apply State.phaseAct_keeps
      | with_reducible apply State.orderSettle_keeps | with_reducible apply State.setFlag_keeps
      | with_reducible apply Keeps.ite | dsimp only | split

theorem State.readDirectory_keeps {ft : Nat} {s₀ s : State} (id : Nat) (mib : Nat) (a : List Word) (b : List Word)
    (hp : 8990821854 &&& ft = 8990821854) (h : Keeps ft s₀ s) :
    Keeps ft s₀ (State.readDirectory s id mib a b) := by
  delta State.readDirectory
  repeat' first
      | with_reducible assumption | exact Foot.sub hp rfl | intro _ | with_reducible apply State.wr_keeps
      | with_reducible apply State.loadDead_keeps | with_reducible apply State.cfgCapture_keeps
      | with_reducible apply State.setFlag_keeps | with_reducible apply State.forUpTo_keeps
      | with_reducible apply State.setTab_keeps | dsimp only | split

theorem State.readFuses_keeps {ft : Nat} {s₀ s : State} (master : Bool) (authOnly : Bool) (mac : Nat) (serial : Nat)
    (hp : 2 &&& ft = 2) (h : Keeps ft s₀ s) :
    Keeps ft s₀ (State.readFuses s master authOnly mac serial) := by
  delta State.readFuses
  repeat' first
      | with_reducible assumption | exact Foot.sub hp rfl | intro _ | with_reducible apply State.setFlag_keeps
      | with_reducible apply State.wr_keeps | dsimp only | split

theorem State.readHeader_keeps {ft : Nat} {s₀ s : State} (w : Nat → Nat) (hp : 8990821854 &&& ft = 8990821854)
    (h : Keeps ft s₀ s) :
    Keeps ft s₀ (State.readHeader s w) := by
  delta State.readHeader
  repeat' first
      | with_reducible assumption | exact Foot.sub hp rfl | intro _ | with_reducible apply State.loadFail_keeps
      | with_reducible apply State.wr_keeps | with_reducible apply State.forUpTo_keeps
      | with_reducible apply State.setTab_keeps | with_reducible apply h_w | dsimp only | split

theorem State.readSegment_keeps {ft : Nat} {s₀ s : State} (ws : List Word) (hp : 8990821854 &&& ft = 8990821854)
    (h : Keeps ft s₀ s) :
    Keeps ft s₀ (State.readSegment s ws) := by
  delta State.readSegment
  repeat' first
      | with_reducible assumption | exact Foot.sub hp rfl | intro _ | with_reducible apply State.loadFail_keeps
      | with_reducible apply State.inc_keeps | with_reducible apply State.wr_keeps
      | with_reducible apply State.keepPayload_keeps | with_reducible apply Keeps.ite | dsimp only | split

theorem State.resumeHeader_keeps {ft : Nat} {s₀ s : State} (a : Alloc) (hp : 6 &&& ft = 6) (h : Keeps ft s₀ s) :
    Keeps ft s₀ (State.resumeHeader s a) := by
  delta State.resumeHeader
  repeat' first
      | with_reducible assumption | exact Foot.sub hp rfl | intro _ | with_reducible apply State.forUpTo_keeps
      | with_reducible apply State.setTab_keeps | with_reducible apply State.wr_keeps | dsimp only | split

theorem State.resumeImages_keeps {ft : Nat} {s₀ s : State} (a : Alloc) (hp : 8 &&& ft = 8) (h : Keeps ft s₀ s) :
    Keeps ft s₀ (State.resumeImages s a) := by
  delta State.resumeImages
  repeat' first
      | with_reducible assumption | exact Foot.sub hp rfl | intro _ | with_reducible apply State.forUpTo_keeps
      | with_reducible apply State.setByte_keeps | dsimp only | split

theorem State.stagePair_keeps {ft : Nat} {s₀ s : State} (p : Word × Word) (hp : 6 &&& ft = 6) (h : Keeps ft s₀ s) :
    Keeps ft s₀ (State.stagePair s p) := by
  delta State.stagePair
  repeat' first
      | with_reducible assumption | exact Foot.sub hp rfl | intro _ | with_reducible apply State.wr_keeps
      | with_reducible apply State.setTab_keeps | dsimp only | split

theorem State.wakeLoad_keeps {ft : Nat} {s₀ s : State}  (hp : 137438953470 &&& ft = 137438953470) (h : Keeps ft s₀ s) :
    Keeps ft s₀ (State.wakeLoad s) := by
  delta State.wakeLoad
  repeat' first
      | with_reducible assumption | exact Foot.sub hp rfl | intro _ | with_reducible apply State.wakeWarm_keeps
      | with_reducible apply State.startBays_keeps | with_reducible apply State.resumeHeader_keeps
      | with_reducible apply State.applyPairs_keeps | with_reducible apply State.beginOrder_keeps
      | with_reducible apply State.resumeImages_keeps | with_reducible apply State.loadStop_keeps
      | with_reducible apply Keeps.ite | with_reducible refine Keeps.of_fst (by assumption) ?_ | dsimp only | split

theorem State.systemAreaBuilt_keeps {ft : Nat} {s₀ s : State} (hp : 137438953470 &&& ft = 137438953470)
    (h : Keeps ft s₀ s) :
    Keeps ft s₀ (State.systemAreaBuilt s) := by
  delta State.systemAreaBuilt
  repeat' first
      | with_reducible assumption | exact Foot.sub hp rfl | intro _ | with_reducible apply State.calicoReady_keeps
      | with_reducible apply State.wakeLoad_keeps | with_reducible apply State.wr_keeps
      | with_reducible apply Keeps.ite | dsimp only | split

theorem State.takeFrames_keeps {ft : Nat} {s₀ s : State} (a : Nat) (x0 : List (BitVec 3072)) (hp : 12 &&& ft = 12)
    (h : Keeps ft s₀ s) :
    KeepsOpt ft s₀ (State.takeFrames s a x0) := by
  induction x0 generalizing s a with
  | nil => first | exact h | trivial
  | cons a r ih =>
    unfold State.takeFrames
    repeat' first
        | with_reducible assumption | exact Foot.sub hp rfl | intro _ | with_reducible apply ih
        | with_reducible apply State.setTab_keeps | with_reducible apply State.fabricWrite_keeps
        | with_reducible apply KeepsOpt.some | exact KeepsOpt.none | dsimp only | split

theorem State.takeMfp_keeps {ft : Nat} {s₀ s : State} (m : MfpId) (base : Nat) (size : Nat) (al : Nat) (off : Nat)
    (data : List Word) (hp : 8 &&& ft = 8) (h : Keeps ft s₀ s) :
    KeepsOpt ft s₀ (State.takeMfp s m base size al off data) := by
  delta State.takeMfp
  repeat' first
      | with_reducible assumption | exact Foot.sub hp rfl | intro _ | with_reducible apply State.storeList_keeps
      | with_reducible apply Keeps.ite | with_reducible apply KeepsOpt.some | exact KeepsOpt.none | dsimp only
      | split

theorem State.takeRecord_keeps {ft : Nat} {s₀ s : State} (typ : Nat) (body : List Nat) (f : State → Option State)
    (hp : 8990821854 &&& ft = 8990821854) (h : Keeps ft s₀ s) (h_f : ∀ s, Keeps ft s₀ s → KeepsOpt ft s₀ (f s)) :
    Keeps ft s₀ (State.takeRecord s typ body f) := by
  have hl : Keeps ft s₀ (s.loadFail 7 s.segAt) := State.loadFail_keeps _ _ (Foot.sub hp rfl) h
  delta State.takeRecord
  refine Keeps.ite h ?_
  have hf := h_f s h
  split
  · exact hl
  · rename_i t e
    rw [e] at hf
    exact State.wr_keeps _ _ (Foot.sub hp rfl) (State.wr_keeps _ _ (Foot.sub hp rfl) hf)

theorem execColdStart_keeps {ft : Nat} {s₀ s : State} (master : Bool) (authOnly : Bool) (mac : BitVec 48)
    (serial : BitVec 64) (ledger : List LedgerBlock) (head : Option (Fin 16)) (hp : 68719476734 &&& ft = 68719476734)
    (h : Keeps ft s₀ s) :
    KeepsOut ft s₀ (execColdStart master authOnly mac serial ledger head s) := by
  delta execColdStart
  repeat' first
      | with_reducible assumption | exact Foot.sub hp rfl | intro _ | with_reducible apply State.coldStart_keeps
      | with_reducible apply State.ledgerRestore_keeps | with_reducible apply State.setFlag_keeps
      | with_reducible apply State.readFuses_keeps | with_reducible apply Keeps.ite
      | with_reducible apply KeepsOut.done | with_reducible apply KeepsOut.next | exact trivial | dsimp only | split

theorem execDmem_keeps {ft : Nat} {s₀ s : State} (m : MfpId) (off : Word) (data : List Word)
    (hp : 8990821854 &&& ft = 8990821854) (h : Keeps ft s₀ s) :
    KeepsOut ft s₀ (execDmem m off data s) := by
  delta execDmem
  repeat' first
      | with_reducible assumption | exact Foot.sub hp rfl | intro _ | with_reducible apply State.takeRecord_keeps
      | with_reducible apply State.takeMfp_keeps | with_reducible apply KeepsOut.done
      | with_reducible apply KeepsOut.next | exact trivial | with_reducible refine Keeps.of_some (by assumption) ?_
      | dsimp only | split

theorem execDoneRise_keeps {ft : Nat} {s₀ s : State}  (hp : 2 &&& ft = 2) (h : Keeps ft s₀ s) :
    KeepsOut ft s₀ (execDoneRise s) := by
  delta execDoneRise
  repeat' first
      | with_reducible assumption | exact Foot.sub hp rfl | intro _ | with_reducible apply State.setFlag_keeps
      | with_reducible apply Keeps.ite | with_reducible apply KeepsOut.done | with_reducible apply KeepsOut.next
      | exact trivial | dsimp only | split

theorem execEndRecord_keeps {ft : Nat} {s₀ s : State} (crc : Word) (hp : 137438953470 &&& ft = 137438953470)
    (h : Keeps ft s₀ s) :
    KeepsOut ft s₀ (execEndRecord crc s) := by
  delta execEndRecord
  repeat' first
      | with_reducible assumption | exact Foot.sub hp rfl | intro _ | with_reducible apply doneClk_keeps
      | with_reducible apply State.endRecord_keeps | with_reducible apply KeepsOut.done
      | with_reducible apply KeepsOut.next | exact trivial | dsimp only | split

theorem execFrames_keeps {ft : Nat} {s₀ s : State} (addr : BitVec 32) (frames : List (BitVec 3072))
    (hp : 8990821854 &&& ft = 8990821854) (h : Keeps ft s₀ s) :
    KeepsOut ft s₀ (execFrames addr frames s) := by
  delta execFrames
  repeat' first
      | with_reducible assumption | exact Foot.sub hp rfl | intro _ | with_reducible apply State.takeRecord_keeps
      | with_reducible apply State.takeFrames_keeps | with_reducible apply Keeps.ite
      | with_reducible apply KeepsOut.done | with_reducible apply KeepsOut.next | exact trivial
      | with_reducible refine Keeps.of_some (by assumption) ?_ | dsimp only | split

theorem execGoldenBuildEnd_keeps {ft : Nat} {s₀ s : State} (hp : 77710298590 &&& ft = 77710298590)
    (h : Keeps ft s₀ s) :
    KeepsOut ft s₀ (execGoldenBuildEnd s) := by
  delta execGoldenBuildEnd
  repeat' first
      | with_reducible assumption | exact Foot.sub hp rfl | intro _ | with_reducible apply State.goldenBuild_keeps
      | with_reducible apply Keeps.ite | with_reducible apply KeepsOut.done | with_reducible apply KeepsOut.next
      | exact trivial | dsimp only | split

theorem execImem_keeps {ft : Nat} {s₀ s : State} (m : MfpId) (off : Word) (data : List Word)
    (hp : 8990821854 &&& ft = 8990821854) (h : Keeps ft s₀ s) :
    KeepsOut ft s₀ (execImem m off data s) := by
  delta execImem
  repeat' first
      | with_reducible assumption | exact Foot.sub hp rfl | intro _ | with_reducible apply State.takeRecord_keeps
      | with_reducible apply State.takeMfp_keeps | with_reducible apply KeepsOut.done
      | with_reducible apply KeepsOut.next | exact trivial | with_reducible refine Keeps.of_some (by assumption) ?_
      | dsimp only | split

theorem execLockTimeout_keeps {ft : Nat} {s₀ s : State}  (hp : 8990821854 &&& ft = 8990821854) (h : Keeps ft s₀ s) :
    KeepsOut ft s₀ (execLockTimeout s) := by
  delta execLockTimeout
  repeat' first
      | with_reducible assumption | exact Foot.sub hp rfl | intro _ | with_reducible apply State.loadStop_keeps
      | with_reducible apply Keeps.ite | with_reducible apply KeepsOut.done | with_reducible apply KeepsOut.next
      | exact trivial | dsimp only | split

theorem execSegmentRead_keeps {ft : Nat} {s₀ s : State} (r : FlashRead) (hp : 8990821854 &&& ft = 8990821854)
    (h : Keeps ft s₀ s) :
    KeepsOut ft s₀ (execSegmentRead r s) := by
  delta execSegmentRead
  repeat' first
      | with_reducible assumption | exact Foot.sub hp rfl | intro _ | with_reducible apply State.loadFail_keeps
      | with_reducible apply State.readDirectory_keeps | with_reducible apply State.readHeader_keeps
      | with_reducible apply State.readSegment_keeps | with_reducible apply Keeps.ite
      | with_reducible apply KeepsOut.done | with_reducible apply KeepsOut.next | exact trivial | dsimp only | split

theorem execStartUpPhase_keeps {ft : Nat} {s₀ s : State}  (hp : 8990821846 &&& ft = 8990821846) (h : Keeps ft s₀ s) :
    KeepsOut ft s₀ (execStartUpPhase s) := by
  delta execStartUpPhase
  repeat' first
      | with_reducible assumption | exact Foot.sub hp rfl | intro _ | with_reducible apply State.phase_keeps
      | with_reducible apply Keeps.ite | with_reducible apply KeepsOut.done | with_reducible apply KeepsOut.next
      | exact trivial | dsimp only | split

theorem execSystemAreaBuilt_keeps {ft : Nat} {s₀ s : State} (hp : 137438953470 &&& ft = 137438953470)
    (h : Keeps ft s₀ s) :
    KeepsOut ft s₀ (execSystemAreaBuilt s) := by
  delta execSystemAreaBuilt
  repeat' first
      | with_reducible assumption | exact Foot.sub hp rfl | intro _ | with_reducible apply doneClk_keeps
      | with_reducible apply State.systemAreaBuilt_keeps | with_reducible apply KeepsOut.done
      | with_reducible apply KeepsOut.next | exact trivial | dsimp only | split

theorem execWriteRecord_keeps {ft : Nat} {s₀ s : State} (pairs : List (Word × Word))
    (hp : 8990821854 &&& ft = 8990821854)
    (h : Keeps ft s₀ s) : KeepsOut ft s₀ (execWriteRecord pairs s) := by
  refine KeepsOut.done (State.takeRecord_keeps _ _ _ (Foot.sub hp rfl) h fun s h => ?_)
  split
  · exact KeepsOpt.some (Keeps.foldl h fun s p h => State.stagePair_keeps _ (Foot.sub hp rfl) h)
  · exact KeepsOpt.none
end Sys2Proof.Machine
end

