-- ==== Sys2Proof/Laws/KeepsSlp.lean ====
section
/-! SUPPORT. Once for each: what the operations of Machine/Slp.lean keep: the parts of the
state they may change, and that the canonical form of the state survives them. -/

namespace Sys2Proof.Machine

theorem State.ackFull_keeps {ft : Nat} {s₀ s : State} (n : Nat) (hp : 2 &&& ft = 2) (h : Keeps ft s₀ s) :
    Keeps ft s₀ (State.ackFull s n) := by
  delta State.ackFull
  repeat' first
      | with_reducible assumption | exact Foot.sub hp rfl | intro _ | with_reducible apply State.sendAck_keeps
      | with_reducible apply Keeps.ite | dsimp only | split

theorem State.slpTake_keeps {ft : Nat} {s₀ s : State} (site : Nat) (hp : 256 &&& ft = 256) (h : Keeps ft s₀ s) :
    Keeps ft s₀ (State.slpTake s site) := by
  delta State.slpTake
  repeat' first
      | with_reducible assumption | exact Foot.sub hp rfl | intro _ | with_reducible apply State.purgeResults_keeps
      | with_reducible apply State.setResultQ_keeps | dsimp only | split

theorem State.releaseOf_keeps {ft : Nat} {s₀ s : State} (r : TxRelease) (hp : 33026 &&& ft = 33026)
    (h : Keeps ft s₀ s) :
    Keeps ft s₀ (State.releaseOf s r) := by
  delta State.releaseOf
  repeat' first
      | with_reducible assumption | exact Foot.sub hp rfl | with_reducible exact id
      | with_reducible exact SMap.sorted_set _ _ _ | with_reducible exact SMap.sorted_put _ _
      | with_reducible exact SMap.sorted_del _ | with_reducible exact SMap.sorted_filter _
      | with_reducible exact Memory.wf_filter _ | with_reducible exact fun _ => SMap.sorted_nil
      | with_reducible exact fun _ => Memory.wf_nil | intro _ | with_reducible apply State.slpTake_keeps
      | with_reducible apply State.wr_keeps | with_reducible apply State.withPzList_keeps
      | with_reducible apply Keeps.foldl | dsimp only | split

theorem State.countSkips_keeps {ft : Nat} {s₀ s : State} (a : SlpAck) (l : List SlpTx) (x0 : List SlpTx)
    (hp : 2 &&& ft = 2) (h : Keeps ft s₀ s) :
    Keeps ft s₀ (State.countSkips s a l x0).1 := by
  induction x0 generalizing s a l with
  | nil => first | exact h | trivial
  | cons a r ih =>
    unfold State.countSkips
    repeat' first
        | with_reducible assumption | exact Foot.sub hp rfl | intro _ | with_reducible apply ih
        | with_reducible apply State.resend_keeps | with_reducible refine Keeps.of_fst (by assumption) ?_
        | dsimp only | split

theorem State.ackTake_keeps {ft : Nat} {s₀ s : State} (n : Nat) (a : SlpAck) (hp : 12615938 &&& ft = 12615938)
    (h : Keeps ft s₀ s) :
    Keeps ft s₀ (State.ackTake s n a) := by
  delta State.ackTake
  repeat' first
      | with_reducible assumption | exact Foot.sub hp rfl | intro _ | with_reducible apply State.wr_keeps
      | with_reducible apply State.releaseOf_keeps | with_reducible apply State.countSkips_keeps
      | with_reducible apply State.flushWait_keeps | with_reducible apply State.setUnacked_keeps
      | with_reducible apply Keeps.ite | with_reducible apply Keeps.foldl
      | with_reducible refine Keeps.of_fst (by assumption) ?_ | dsimp only | split
      | with_reducible apply Keeps.foldlP

theorem State.upload_keeps {ft : Nat} {s₀ s : State} (id : Nat) (off : Nat) (bs : List Byte)
    (hp : 77443632142 &&& ft = 77443632142) (h : Keeps ft s₀ s) :
    Keeps ft s₀ (State.upload s id off bs) := by
  delta State.upload
  repeat' first
      | with_reducible assumption | exact Foot.sub hp rfl | intro _ | with_reducible apply State.notice_keeps
      | with_reducible apply State.objWrite_keeps | with_reducible apply State.uploaded_keeps
      | with_reducible refine Keeps.of_some (by assumption) ?_ | dsimp only | split

theorem State.flashData_keeps {ft : Nat} {s₀ s : State} (slot : Nat) (off : Nat) (n : Nat) (ok : Bool)
    (hp : 134217730 &&& ft = 134217730) (h : Keeps ft s₀ s) :
    Keeps ft s₀ (State.flashData s slot off n ok) := by
  delta State.flashData
  repeat' first
      | with_reducible assumption | exact Foot.sub hp rfl | intro _ | with_reducible apply State.notice_keeps
      | with_reducible apply State.setFlag_keeps | with_reducible apply State.wr_keeps
      | with_reducible apply Keeps.ite | dsimp only | split

theorem State.runEntry_keeps {ft : Nat} {s₀ s : State} (m : Master) (k : Nat) (e : CsrEntry)
    (hp : 137438953470 &&& ft = 137438953470) (h : Keeps ft s₀ s) :
    Keeps ft s₀ (State.runEntry s m k e) := by
  delta State.runEntry
  repeat' first
      | with_reducible assumption | exact Foot.sub hp rfl | intro _ | with_reducible apply State.busWrite_keeps
      | with_reducible apply State.busRead_keeps | with_reducible apply State.inc_keeps
      | with_reducible apply State.setTab_keeps | with_reducible apply Keeps.ite
      | with_reducible refine Keeps.of_fst (by assumption) ?_ | dsimp only | split

theorem State.runEntries_keeps {ft : Nat} {s₀ s : State} (m : Master) (k : Nat) (x0 : List CsrEntry)
    (hp : 137438953470 &&& ft = 137438953470) (h : Keeps ft s₀ s) :
    Keeps ft s₀ (State.runEntries s m k x0).1 := by
  induction x0 generalizing s m k with
  | nil => first | exact h | trivial
  | cons a r ih =>
    unfold State.runEntries
    repeat' first
        | with_reducible assumption | exact Foot.sub hp rfl | intro _ | with_reducible apply ih
        | with_reducible apply State.runEntry_keeps | with_reducible apply State.serveTurn_keeps
        | with_reducible apply State.clearAnswers_keeps | dsimp only | split

theorem State.dbgRun_keeps {ft : Nat} {s₀ s : State} (x0 : Nat) (hp : 137438953470 &&& ft = 137438953470)
    (h : Keeps ft s₀ s) :
    Keeps ft s₀ (State.dbgRun s x0) := by
  induction x0 generalizing s  with
  | zero => first | exact h | trivial
  | succ k ih =>
    unfold State.dbgRun
    repeat' first
        | with_reducible assumption | exact Foot.sub hp rfl | with_reducible exact id
        | with_reducible exact SMap.sorted_set _ _ _ | with_reducible exact SMap.sorted_put _ _
        | with_reducible exact SMap.sorted_del _ | with_reducible exact SMap.sorted_filter _
        | with_reducible exact Memory.wf_filter _ | with_reducible exact fun _ => SMap.sorted_nil
        | with_reducible exact fun _ => Memory.wf_nil | intro _ | with_reducible apply ih
        | with_reducible apply State.runEntries_keeps | with_reducible apply State.withDbgQ_keeps
        | with_reducible apply State.clearAnswers_keeps | with_reducible apply State.slpMessage_keeps
        | with_reducible refine Keeps.of_fst (by assumption) ?_ | dsimp only | split

theorem State.respond_keeps {ft : Nat} {s₀ s : State} (typ : Nat) (tag : Word) (gcode : Nat) (bcode : Nat)
    (data : List Nat) (hp : 12582914 &&& ft = 12582914) (h : Keeps ft s₀ s) :
    Keeps ft s₀ (State.respond s typ tag gcode bcode data) := by
  delta State.respond
  repeat' first
      | with_reducible assumption | exact Foot.sub hp rfl | intro _ | with_reducible apply State.slpMessage_keeps
      | dsimp only | split

theorem State.slpCalRun_keeps {ft : Nat} {s₀ s : State} (op : Nat) (a : CalArgs)
    (hp : 77443664902 &&& ft = 77443664902) (h : Keeps ft s₀ s) :
    Keeps ft s₀ (State.slpCalRun s op a) := by
  delta State.slpCalRun
  repeat' first
      | with_reducible assumption | exact Foot.sub hp rfl | intro _ | with_reducible apply State.calDo_keeps
      | with_reducible apply State.create_keeps | with_reducible apply State.allocNew_keeps
      | with_reducible apply State.seal_keeps | with_reducible apply State.delete_keeps
      | with_reducible apply State.query_keeps | with_reducible apply State.calEnd_keeps | dsimp only | split

theorem State.reqCal_keeps {ft : Nat} {s₀ s : State} (tag : Word) (cmd : Word) (id : Word) (lo : Word) (hi : Word)
    (hp : 77724683270 &&& ft = 77724683270) (h : Keeps ft s₀ s) :
    Keeps ft s₀ (State.reqCal s tag cmd id lo hi) := by
  delta State.reqCal
  repeat' first
      | with_reducible assumption | exact Foot.sub hp rfl | with_reducible exact id
      | with_reducible exact SMap.sorted_set _ _ _ | with_reducible exact SMap.sorted_put _ _
      | with_reducible exact SMap.sorted_del _ | with_reducible exact SMap.sorted_filter _
      | with_reducible exact Memory.wf_filter _ | with_reducible exact fun _ => SMap.sorted_nil
      | with_reducible exact fun _ => Memory.wf_nil | intro _ | with_reducible apply State.respond_keeps
      | with_reducible apply State.slpCalRun_keeps | with_reducible apply State.withSlpObjs_keeps
      | with_reducible apply Keeps.ite | dsimp only | split

theorem State.reqRead_keeps {ft : Nat} {s₀ s : State} (tag : Word) (id : Word) (off : BitVec 64) (len : Word)
    (hp : 12648450 &&& ft = 12648450) (h : Keeps ft s₀ s) :
    Keeps ft s₀ (State.reqRead s tag id off len) := by
  delta State.reqRead
  repeat' first
      | with_reducible assumption | exact Foot.sub hp rfl | intro _ | with_reducible apply State.respond_keeps
      | with_reducible apply State.wr_keeps | with_reducible apply State.setFlag_keeps
      | with_reducible apply State.addUse_keeps | with_reducible apply Keeps.ite | dsimp only | split

theorem State.reqKey_keeps {ft : Nat} {s₀ s : State} (tag : Word) (cmd : Word) (blob : BitVec 320)
    (hp : 12582914 &&& ft = 12582914) (h : Keeps ft s₀ s) :
    Keeps ft s₀ (State.reqKey s tag cmd blob) := by
  delta State.reqKey
  repeat' first
      | with_reducible assumption | exact Foot.sub hp rfl | intro _ | with_reducible apply State.kwDo_keeps
      | with_reducible apply State.kwLoad_keeps | with_reducible apply State.kwErase_keeps
      | with_reducible apply State.kwEnd_keeps | with_reducible apply State.respond_keeps | dsimp only | split

theorem State.reqFlBegin_keeps {ft : Nat} {s₀ s : State} (tag : Word) (slot : Word) (size : Word) (ok : Bool)
    (hp : 12582914 &&& ft = 12582914) (h : Keeps ft s₀ s) :
    Keeps ft s₀ (State.reqFlBegin s tag slot size ok) := by
  delta State.reqFlBegin
  repeat' first
      | with_reducible assumption | exact Foot.sub hp rfl | intro _ | with_reducible apply State.respond_keeps
      | with_reducible apply State.wr_keeps | with_reducible apply State.setFlag_keeps
      | with_reducible apply Keeps.ite | dsimp only | split

theorem State.commitDir_keeps {ft : Nat} {s₀ s : State} (w2 : Nat) (hp : 4 &&& ft = 4) (h : Keeps ft s₀ s) :
    Keeps ft s₀ (State.commitDir s w2) := by
  delta State.commitDir
  repeat' first
      | with_reducible assumption | exact Foot.sub hp rfl | intro _ | with_reducible apply State.forUpTo_keeps
      | with_reducible apply State.setTab_keeps | with_reducible apply Keeps.ite | dsimp only | split

theorem State.reqFlCommit_keeps {ft : Nat} {s₀ s : State} (tag : Word) (crc : Word) (dir2 : Word) (readback : Word)
    (ok : Bool) (hp : 12582918 &&& ft = 12582918) (h : Keeps ft s₀ s) :
    Keeps ft s₀ (State.reqFlCommit s tag crc dir2 readback ok) := by
  delta State.reqFlCommit
  repeat' first
      | with_reducible assumption | exact Foot.sub hp rfl | intro _ | with_reducible apply State.respond_keeps
      | with_reducible apply State.setFlag_keeps | with_reducible apply State.commitDir_keeps
      | with_reducible apply Keeps.ite | dsimp only | split

theorem State.reqRestart_keeps {ft : Nat} {s₀ s : State} (tag : Word) (slot : Word)
    (hp : 68719476734 &&& ft = 68719476734) (h : Keeps ft s₀ s) :
    Keeps ft s₀ (State.reqRestart s tag slot) := by
  delta State.reqRestart
  repeat' first
      | with_reducible assumption | exact Foot.sub hp rfl | intro _ | with_reducible apply State.respond_keeps
      | with_reducible apply State.bstStart_keeps | with_reducible apply State.warmStart_keeps
      | with_reducible apply State.wr_keeps | with_reducible apply Keeps.ite | dsimp only | split

theorem State.reqStandby_keeps {ft : Nat} {s₀ s : State} (tag : Word) (hp : 8990821846 &&& ft = 8990821846)
    (h : Keeps ft s₀ s) :
    Keeps ft s₀ (State.reqStandby s tag) := by
  delta State.reqStandby
  repeat' first
      | with_reducible assumption | exact Foot.sub hp rfl | intro _ | with_reducible apply State.respond_keeps
      | with_reducible apply State.setFlag_keeps | with_reducible apply State.standbyRequest_keeps
      | with_reducible apply Keeps.ite | dsimp only | split

theorem State.reqCsr_keeps {ft : Nat} {s₀ s : State} (tag : Word) (l : List CsrEntry)
    (hp : 137438953470 &&& ft = 137438953470) (h : Keeps ft s₀ s) :
    Keeps ft s₀ (State.reqCsr s tag l) := by
  delta State.reqCsr
  repeat' first
      | with_reducible assumption | exact Foot.sub hp rfl | with_reducible exact id
      | with_reducible exact SMap.sorted_set _ _ _ | with_reducible exact SMap.sorted_put _ _
      | with_reducible exact SMap.sorted_del _ | with_reducible exact SMap.sorted_filter _
      | with_reducible exact Memory.wf_filter _ | with_reducible exact fun _ => SMap.sorted_nil
      | with_reducible exact fun _ => Memory.wf_nil | intro _ | with_reducible apply State.respond_keeps
      | with_reducible apply State.runEntries_keeps | with_reducible apply State.clearAnswers_keeps
      | with_reducible apply State.withCtrlQ_keeps | with_reducible apply Keeps.ite
      | with_reducible refine Keeps.of_fst (by assumption) ?_ | dsimp only | split

theorem State.runRequest_keeps {ft : Nat} {s₀ s : State} (m : SlpMsg) (hp : 137438953470 &&& ft = 137438953470)
    (h : Keeps ft s₀ s) :
    Keeps ft s₀ (State.runRequest s m) := by
  delta State.runRequest
  repeat' first
      | with_reducible assumption | exact Foot.sub hp rfl | intro _ | with_reducible apply State.sessEnd_keeps
      | with_reducible apply State.respond_keeps | with_reducible apply State.reqCal_keeps
      | with_reducible apply State.reqRead_keeps | with_reducible apply State.reqKey_keeps
      | with_reducible apply State.reqFlBegin_keeps | with_reducible apply State.reqFlCommit_keeps
      | with_reducible apply State.reqRestart_keeps | with_reducible apply State.shutdownRequest_keeps
      | with_reducible apply State.reqStandby_keeps | with_reducible apply State.reqCsr_keeps | dsimp only | split

theorem State.request_keeps {ft : Nat} {s₀ s : State} (m : SlpMsg) (hp : 137438953470 &&& ft = 137438953470)
    (h : Keeps ft s₀ s) :
    Keeps ft s₀ (State.request s m) := by
  delta State.request
  repeat' first
      | with_reducible assumption | exact Foot.sub hp rfl | intro _ | with_reducible apply State.runRequest_keeps
      | with_reducible apply State.respond_keeps | with_reducible apply State.clearAnswers_keeps
      | with_reducible apply Keeps.ite | dsimp only | split

theorem State.ctrlRun_keeps {ft : Nat} {s₀ s : State} (x0 : Nat) (hp : 137438953470 &&& ft = 137438953470)
    (h : Keeps ft s₀ s) :
    Keeps ft s₀ (State.ctrlRun s x0) := by
  induction x0 generalizing s  with
  | zero => first | exact h | trivial
  | succ k ih =>
    unfold State.ctrlRun
    repeat' first
        | with_reducible assumption | exact Foot.sub hp rfl | with_reducible exact id
        | with_reducible exact SMap.sorted_set _ _ _ | with_reducible exact SMap.sorted_put _ _
        | with_reducible exact SMap.sorted_del _ | with_reducible exact SMap.sorted_filter _
        | with_reducible exact Memory.wf_filter _ | with_reducible exact fun _ => SMap.sorted_nil
        | with_reducible exact fun _ => Memory.wf_nil | intro _ | with_reducible apply ih
        | with_reducible apply State.request_keeps | with_reducible apply State.withCtrlQ_keeps | dsimp only | split

theorem State.toConsumer_keeps {ft : Nat} {s₀ s : State} (m : SlpMsg) (hp : 137438953470 &&& ft = 137438953470)
    (h : Keeps ft s₀ s) :
    Keeps ft s₀ (State.toConsumer s m) := by
  delta State.toConsumer
  repeat' first
      | with_reducible assumption | exact Foot.sub hp rfl | with_reducible exact id
      | with_reducible exact SMap.sorted_set _ _ _ | with_reducible exact SMap.sorted_put _ _
      | with_reducible exact SMap.sorted_del _ | with_reducible exact SMap.sorted_filter _
      | with_reducible exact Memory.wf_filter _ | with_reducible exact fun _ => SMap.sorted_nil
      | with_reducible exact fun _ => Memory.wf_nil | intro _ | with_reducible apply State.upload_keeps
      | with_reducible apply State.flashData_keeps | with_reducible apply State.withRxMsgs_keeps
      | with_reducible apply State.dbgRun_keeps | with_reducible apply State.withDbgQ_keeps
      | with_reducible apply State.ctrlRun_keeps | with_reducible apply State.withCtrlQ_keeps
      | with_reducible apply Keeps.ite | dsimp only | split

theorem State.takeNext_keeps {ft : Nat} {s₀ s : State} (n : Nat) (more : Nat) (m : SlpMsg)
    (hp : 137438953470 &&& ft = 137438953470) (h : Keeps ft s₀ s) :
    Keeps ft s₀ (State.takeNext s n more m) := by
  delta State.takeNext
  repeat' first
      | with_reducible assumption | exact Foot.sub hp rfl | intro _ | with_reducible apply State.wr_keeps
      | with_reducible apply State.toConsumer_keeps | dsimp only | split

theorem State.takeHeld_keeps {ft : Nat} {s₀ s : State} (n : Nat) (x0 : Nat) (hp : 137438953470 &&& ft = 137438953470)
    (h : Keeps ft s₀ s) :
    Keeps ft s₀ (State.takeHeld s n x0) := by
  induction x0 generalizing s n with
  | zero => first | exact h | trivial
  | succ k ih =>
    unfold State.takeHeld
    repeat' first
        | with_reducible assumption | exact Foot.sub hp rfl | intro _ | with_reducible apply ih
        | with_reducible apply State.takeNext_keeps | with_reducible apply State.setHeld_keeps | dsimp only | split

theorem State.arrive_keeps {ft : Nat} {s₀ s : State} (n : Nat) (yh : SlpHdr) (m : SlpMsg)
    (hp : 137438953470 &&& ft = 137438953470) (h : Keeps ft s₀ s) :
    Keeps ft s₀ (State.arrive s n yh m) := by
  delta State.arrive
  repeat' first
      | with_reducible assumption | exact Foot.sub hp rfl | intro _ | with_reducible apply State.sendAck_keeps
      | with_reducible apply State.setHeld_keeps | with_reducible apply State.ackFull_keeps
      | with_reducible apply State.takeHeld_keeps | with_reducible apply Keeps.ite | dsimp only | split

theorem State.macDrain_keeps {ft : Nat} {s₀ s : State}  (hp : 2 &&& ft = 2) (h : Keeps ft s₀ s) :
    Keeps ft s₀ (State.macDrain s) := by
  delta State.macDrain
  repeat' first
      | with_reducible assumption | exact Foot.sub hp rfl | intro _ | with_reducible apply State.wr_keeps
      | with_reducible apply State.setFlag_keeps | with_reducible apply State.sent_keeps
      | with_reducible apply Keeps.ite | dsimp only | split

theorem State.macStore_keeps {ft : Nat} {s₀ s : State} (n : Nat) (hp : 2 &&& ft = 2) (h : Keeps ft s₀ s) :
    Keeps ft s₀ (State.macStore s n) := by
  delta State.macStore
  repeat' first
      | with_reducible assumption | exact Foot.sub hp rfl | intro _ | with_reducible apply State.wr_keeps
      | with_reducible apply State.setFlag_keeps | with_reducible apply State.sent_keeps
      | with_reducible apply Keeps.ite | dsimp only | split

theorem State.macFrame_keeps {ft : Nat} {s₀ s : State} (f : EthFrame) (hp : 2 &&& ft = 2) (h : Keeps ft s₀ s) :
    Keeps ft s₀ (State.macFrame s f).1 := by
  delta State.macFrame
  repeat' first
      | with_reducible assumption | exact Foot.sub hp rfl | intro _ | with_reducible apply State.incSat_keeps
      | with_reducible apply State.macStore_keeps | with_reducible apply Keeps.ite | dsimp only | split

theorem State.noticeFrame_keeps {ft : Nat} {s₀ s : State}  (hp : 403701760 &&& ft = 403701760) (h : Keeps ft s₀ s) :
    KeepsOptP ft s₀ (State.noticeFrame s) := by
  delta State.noticeFrame
  repeat' first
      | with_reducible assumption | exact Foot.sub hp rfl | with_reducible exact id
      | with_reducible exact SMap.sorted_set _ _ _ | with_reducible exact SMap.sorted_put _ _
      | with_reducible exact SMap.sorted_del _ | with_reducible exact SMap.sorted_filter _
      | with_reducible exact Memory.wf_filter _ | with_reducible exact fun _ => SMap.sorted_nil
      | with_reducible exact fun _ => Memory.wf_nil | intro _ | with_reducible apply State.noticePump_keeps
      | with_reducible apply State.withNotices_keeps | with_reducible apply KeepsOptP.some | exact KeepsOptP.none
      | dsimp only | split

theorem State.resultsFrame_keeps {ft : Nat} {s₀ s : State}  (h : Keeps ft s₀ s) :
    KeepsOptP ft s₀ (State.resultsFrame s) := by
  delta State.resultsFrame
  repeat' first
      | with_reducible assumption | exact Foot.sub hp rfl | intro _ | with_reducible apply KeepsOptP.some
      | exact KeepsOptP.none | dsimp only | split

theorem State.recordsFrame_keeps {ft : Nat} {s₀ s : State}  (hp : 8589934592 &&& ft = 8589934592) (h : Keeps ft s₀ s) :
    KeepsOptP ft s₀ (State.recordsFrame s) := by
  delta State.recordsFrame
  repeat' first
      | with_reducible assumption | exact Foot.sub hp rfl | intro _ | with_reducible apply State.pulse_keeps
      | with_reducible apply Keeps.ite | with_reducible apply KeepsOptP.some | exact KeepsOptP.none | dsimp only
      | split

theorem State.readFinish_keeps {ft : Nat} {s₀ s : State} (deleted : Bool) (hp : 68610 &&& ft = 68610)
    (h : Keeps ft s₀ s) :
    Keeps ft s₀ (State.readFinish s deleted).1 := by
  delta State.readFinish
  repeat' first
      | with_reducible assumption | exact Foot.sub hp rfl | intro _ | with_reducible apply State.readStop_keeps
      | with_reducible apply Keeps.ite | dsimp only | split

theorem State.readData_keeps {ft : Nat} {s₀ s : State} (a : Alloc) (hp : 2 &&& ft = 2) (h : Keeps ft s₀ s) :
    Keeps ft s₀ (State.readData s a).1 := by
  delta State.readData
  repeat' first
      | with_reducible assumption | exact Foot.sub hp rfl | intro _ | with_reducible apply State.wr_keeps
      | with_reducible apply Keeps.ite | dsimp only | split

theorem State.readFrame_keeps {ft : Nat} {s₀ s : State}  (hp : 68610 &&& ft = 68610) (h : Keeps ft s₀ s) :
    KeepsOptP ft s₀ (State.readFrame s) := by
  delta State.readFrame
  repeat' first
      | with_reducible assumption | exact Foot.sub hp rfl | intro _ | with_reducible apply State.readFinish_keeps
      | with_reducible apply State.readData_keeps | with_reducible apply Keeps.ite
      | with_reducible apply KeepsOptP.some | exact KeepsOptP.none
      | with_reducible refine Keeps.of_fst (by assumption) ?_ | dsimp only | split

theorem State.nextFrame_keeps {ft : Nat} {s₀ s : State} (n : Nat) (hp : 8993704962 &&& ft = 8993704962)
    (h : Keeps ft s₀ s) :
    KeepsOptP ft s₀ (State.nextFrame s n) := by
  delta State.nextFrame
  repeat' first
      | with_reducible assumption | exact Foot.sub hp rfl | intro _ | with_reducible apply State.noticeFrame_keeps
      | with_reducible apply State.resultsFrame_keeps | with_reducible apply State.recordsFrame_keeps
      | with_reducible apply State.readFrame_keeps | with_reducible apply Keeps.ite
      | with_reducible apply KeepsOptP.some | exact KeepsOptP.none
      | with_reducible refine Keeps.of_someP (by assumption) ?_ | dsimp only | split

theorem State.openRequest_keeps {ft : Nat} {s₀ s : State} (p : SlpPeer) (tag : Word) (maxpay : Nat) (force : Bool)
    (bad : Bool) (hp : 71265750022 &&& ft = 71265750022) (h : Keeps ft s₀ s) :
    Keeps ft s₀ (State.openRequest s p tag maxpay force bad) := by
  delta State.openRequest
  repeat' first
      | with_reducible assumption | exact Foot.sub hp rfl | intro _ | with_reducible apply State.reply_keeps
      | with_reducible apply State.sessOpen_keeps | with_reducible apply State.sessEnd_keeps
      | with_reducible apply State.respond_keeps | with_reducible apply Keeps.ite | dsimp only | split

theorem State.receive_keeps {ft : Nat} {s₀ s : State} (n : Nat) (yh : SlpHdr) (m : SlpMsg)
    (hp : 137438953470 &&& ft = 137438953470) (h : Keeps ft s₀ s) :
    Keeps ft s₀ (State.receive s n yh m) := by
  delta State.receive
  repeat' first
      | with_reducible assumption | exact Foot.sub hp rfl | intro _ | with_reducible apply State.reply_keeps
      | with_reducible apply State.wr_keeps | with_reducible apply State.ackTake_keeps
      | with_reducible apply State.arrive_keeps | with_reducible apply State.ctrlRun_keeps
      | with_reducible apply Keeps.ite | dsimp only | split

theorem State.retransmit_keeps {ft : Nat} {s₀ s : State} (n : Nat) (seq : Nat) (hp : 398789638 &&& ft = 398789638)
    (h : Keeps ft s₀ s) :
    Keeps ft s₀ (State.retransmit s n seq) := by
  delta State.retransmit
  repeat' first
      | with_reducible assumption | exact Foot.sub hp rfl | intro _ | with_reducible apply State.sessEnd_keeps
      | with_reducible apply State.resend_keeps | with_reducible apply State.setUnacked_keeps
      | with_reducible apply Keeps.ite | with_reducible refine Keeps.of_fst (by assumption) ?_ | dsimp only | split

theorem State.sendOn_keeps {ft : Nat} {s₀ s : State} (n : Nat) (hp : 9006287874 &&& ft = 9006287874)
    (h : Keeps ft s₀ s) :
    Keeps ft s₀ (State.sendOn s n) := by
  delta State.sendOn
  repeat' first
      | with_reducible assumption | exact Foot.sub hp rfl | intro _ | with_reducible apply State.flushWait_keeps
      | with_reducible apply State.nextFrame_keeps | with_reducible apply State.sendNew_keeps
      | with_reducible apply Keeps.ite | with_reducible refine Keeps.of_someP (by assumption) ?_ | dsimp only | split

theorem State.slpTick_keeps {ft : Nat} {s₀ s : State}  (hp : 137438953470 &&& ft = 137438953470) (h : Keeps ft s₀ s) :
    Keeps ft s₀ (State.slpTick s) := by
  delta State.slpTick
  repeat' first
      | with_reducible assumption | exact Foot.sub hp rfl | intro _ | with_reducible apply State.forUpTo_keeps
      | with_reducible apply State.ackFull_keeps | with_reducible apply State.takeHeld_keeps
      | with_reducible apply State.dbgRun_keeps | with_reducible apply State.ctrlRun_keeps | dsimp only | split

theorem State.txResume_keeps {ft : Nat} {s₀ s : State}  (hp : 2160066562 &&& ft = 2160066562) (h : Keeps ft s₀ s) :
    Keeps ft s₀ (State.txResume s) := by
  delta State.txResume
  repeat' first
      | with_reducible assumption | exact Foot.sub hp rfl | intro _ | with_reducible apply State.forUpTo_keeps
      | with_reducible apply State.flushReplies_keeps | with_reducible apply State.flushWait_keeps | dsimp only
      | split

theorem execAckDelay_keeps {ft : Nat} {s₀ s : State} (stream : Fin 11) (hp : 2 &&& ft = 2) (h : Keeps ft s₀ s) :
    KeepsOut ft s₀ (execAckDelay stream s) := by
  delta execAckDelay
  repeat' first
      | with_reducible assumption | exact Foot.sub hp rfl | intro _ | with_reducible apply State.sendAck_keeps
      | with_reducible apply Keeps.ite | with_reducible apply KeepsOut.done | with_reducible apply KeepsOut.next
      | exact trivial | dsimp only | split

theorem execAcknowledgement_keeps {ft : Nat} {s₀ s : State} (session : Word) (stream : Fin 11) (a : SlpAck)
    (hp : 137438953470 &&& ft = 137438953470) (h : Keeps ft s₀ s) :
    KeepsOut ft s₀ (execAcknowledgement session stream a s) := by
  delta execAcknowledgement
  repeat' first
      | with_reducible assumption | exact Foot.sub hp rfl | intro _ | with_reducible apply State.reply_keeps
      | with_reducible apply State.ackTake_keeps | with_reducible apply State.wr_keeps
      | with_reducible apply State.ctrlRun_keeps | with_reducible apply Keeps.ite
      | with_reducible apply KeepsOut.done | with_reducible apply KeepsOut.next | exact trivial | dsimp only | split

theorem execAnnounce_keeps {ft : Nat} {s₀ s : State} (domain : Byte) (ds : BitVec 127) (utc : BitVec 16)
    (hp : 2 &&& ft = 2) (h : Keeps ft s₀ s) :
    KeepsOut ft s₀ (execAnnounce domain ds utc s) := by
  delta execAnnounce
  repeat' first
      | with_reducible assumption | exact Foot.sub hp rfl | intro _ | with_reducible apply State.setFlag_keeps
      | with_reducible apply State.wr_keeps | with_reducible apply Keeps.ite | with_reducible apply KeepsOut.done
      | with_reducible apply KeepsOut.next | exact trivial | dsimp only | split

theorem execArp_keeps {ft : Nat} {s₀ s : State} (ip : Word) (hp : 2147483650 &&& ft = 2147483650) (h : Keeps ft s₀ s) :
    KeepsOut ft s₀ (execArp ip s) := by
  delta execArp
  repeat' first
      | with_reducible assumption | exact Foot.sub hp rfl | intro _ | with_reducible apply State.reply_keeps
      | with_reducible apply Keeps.ite | with_reducible apply KeepsOut.done | with_reducible apply KeepsOut.next
      | exact trivial | dsimp only | split

theorem execEcho_keeps {ft : Nat} {s₀ s : State} (v6 : Bool) (dst : BitVec 128) (len : BitVec 14)
    (hp : 2147483650 &&& ft = 2147483650) (h : Keeps ft s₀ s) :
    KeepsOut ft s₀ (execEcho v6 dst len s) := by
  delta execEcho
  repeat' first
      | with_reducible assumption | exact Foot.sub hp rfl | intro _ | with_reducible apply State.reply_keeps
      | with_reducible apply Keeps.ite | with_reducible apply KeepsOut.done | with_reducible apply KeepsOut.next
      | exact trivial | dsimp only | split

theorem execEthFrame_keeps {ft : Nat} {s₀ s : State} (f : EthFrame) (hp : 137438953470 &&& ft = 137438953470)
    (h : Keeps ft s₀ s) :
    KeepsOut ft s₀ (execEthFrame f s) := by
  delta execEthFrame
  repeat' first
      | with_reducible assumption | exact Foot.sub hp rfl | intro _ | with_reducible apply State.macFrame_keeps
      | with_reducible apply State.receive_keeps | with_reducible apply Keeps.ite
      | with_reducible apply KeepsOut.done | with_reducible apply KeepsOut.next | exact trivial
      | with_reducible refine Keeps.of_fst (by assumption) ?_ | dsimp only | split

theorem execEthRxRead_keeps {ft : Nat} {s₀ s : State} (q : Fin 4) (m : Master) (hp : 17716740098 &&& ft = 17716740098)
    (h : Keeps ft s₀ s) :
    KeepsOut ft s₀ (execEthRxRead q m s) := by
  delta execEthRxRead
  repeat' first
      | with_reducible assumption | exact Foot.sub hp rfl | intro _ | with_reducible apply State.reach_keeps
      | with_reducible apply State.answer_keeps | with_reducible apply State.rxTake_keeps
      | with_reducible apply Keeps.ite | with_reducible apply KeepsOut.done | with_reducible apply KeepsOut.next
      | exact trivial | dsimp only | split

theorem execLinkChange_keeps {ft : Nat} {s₀ s : State} (link : Bool) (modAbs : Bool) (los : Bool)
    (hp : 2160066562 &&& ft = 2160066562) (h : Keeps ft s₀ s) :
    KeepsOut ft s₀ (execLinkChange link modAbs los s) := by
  delta execLinkChange
  repeat' first
      | with_reducible assumption | exact Foot.sub hp rfl | intro _ | with_reducible apply State.setFlag_keeps
      | with_reducible apply State.txResume_keeps | with_reducible apply Keeps.ite
      | with_reducible apply KeepsOut.done | with_reducible apply KeepsOut.next | exact trivial | dsimp only | split

theorem execNeighbourSolicitation_keeps {ft : Nat} {s₀ s : State} (target : BitVec 128)
    (hp : 2147483650 &&& ft = 2147483650) (h : Keeps ft s₀ s) :
    KeepsOut ft s₀ (execNeighbourSolicitation target s) := by
  delta execNeighbourSolicitation
  repeat' first
      | with_reducible assumption | exact Foot.sub hp rfl | intro _ | with_reducible apply State.reply_keeps
      | with_reducible apply Keeps.ite | with_reducible apply KeepsOut.done | with_reducible apply KeepsOut.next
      | exact trivial | dsimp only | split

theorem execPause_keeps {ft : Nat} {s₀ s : State} (quanta : BitVec 16) (hp : 2160066562 &&& ft = 2160066562)
    (h : Keeps ft s₀ s) :
    KeepsOut ft s₀ (execPause quanta s) := by
  delta execPause
  repeat' first
      | with_reducible assumption | exact Foot.sub hp rfl | intro _ | with_reducible apply State.txResume_keeps
      | with_reducible apply State.setFlag_keeps | with_reducible apply State.wr_keeps
      | with_reducible apply Keeps.ite | with_reducible apply KeepsOut.done | with_reducible apply KeepsOut.next
      | exact trivial | dsimp only | split

theorem execPauseExpiry_keeps {ft : Nat} {s₀ s : State}  (hp : 2160066562 &&& ft = 2160066562) (h : Keeps ft s₀ s) :
    KeepsOut ft s₀ (execPauseExpiry s) := by
  delta execPauseExpiry
  repeat' first
      | with_reducible assumption | exact Foot.sub hp rfl | intro _ | with_reducible apply State.txResume_keeps
      | with_reducible apply State.setFlag_keeps | with_reducible apply Keeps.ite
      | with_reducible apply KeepsOut.done | with_reducible apply KeepsOut.next | exact trivial | dsimp only | split

theorem execRetransmitTimeout_keeps {ft : Nat} {s₀ s : State} (stream : Fin 11) (seq : Word)
    (hp : 398789638 &&& ft = 398789638) (h : Keeps ft s₀ s) :
    KeepsOut ft s₀ (execRetransmitTimeout stream seq s) := by
  delta execRetransmitTimeout
  repeat' first
      | with_reducible assumption | exact Foot.sub hp rfl | intro _ | with_reducible apply State.retransmit_keeps
      | with_reducible apply KeepsOut.done | with_reducible apply KeepsOut.next | exact trivial | dsimp only | split

theorem execRxSkip_keeps {ft : Nat} {s₀ s : State} (mask : BitVec 4) (hp : 17716740098 &&& ft = 17716740098)
    (h : Keeps ft s₀ s) :
    KeepsOut ft s₀ (execRxSkip mask s) := by
  delta execRxSkip
  repeat' first
      | with_reducible assumption | exact Foot.sub hp rfl | intro _ | with_reducible apply State.reach_keeps
      | with_reducible apply State.eachBit_keeps | with_reducible apply State.rxSkip_keeps
      | with_reducible apply KeepsOut.done | with_reducible apply KeepsOut.next | exact trivial | dsimp only | split

theorem execSessEnd_keeps {ft : Nat} {s₀ s : State}  (hp : 17578658822 &&& ft = 17578658822) (h : Keeps ft s₀ s) :
    KeepsOut ft s₀ (execSessEnd s) := by
  delta execSessEnd
  repeat' first
      | with_reducible assumption | exact Foot.sub hp rfl | intro _ | with_reducible apply State.reach_keeps
      | with_reducible apply State.sessEnd_keeps | with_reducible apply KeepsOut.done
      | with_reducible apply KeepsOut.next | exact trivial | dsimp only | split

theorem execSessionTimeout_keeps {ft : Nat} {s₀ s : State}  (hp : 398789638 &&& ft = 398789638) (h : Keeps ft s₀ s) :
    KeepsOut ft s₀ (execSessionTimeout s) := by
  delta execSessionTimeout
  repeat' first
      | with_reducible assumption | exact Foot.sub hp rfl | intro _ | with_reducible apply State.sessEnd_keeps
      | with_reducible apply Keeps.ite | with_reducible apply KeepsOut.done | with_reducible apply KeepsOut.next
      | exact trivial | dsimp only | split

theorem execSlpCal_keeps {ft : Nat} {s₀ s : State} (yh : SlpHdr) (tag : Word) (cmd : Word) (id : Word) (sizeLo : Word)
    (sizeHi : Word) (hp : 137438953470 &&& ft = 137438953470) (h : Keeps ft s₀ s) :
    KeepsOut ft s₀ (execSlpCal yh tag cmd id sizeLo sizeHi s) := by
  delta execSlpCal
  repeat' first
      | with_reducible assumption | exact Foot.sub hp rfl | intro _ | with_reducible apply State.receive_keeps
      | with_reducible apply KeepsOut.done | with_reducible apply KeepsOut.next | exact trivial | dsimp only | split

theorem execSlpClose_keeps {ft : Nat} {s₀ s : State} (yh : SlpHdr) (tag : Word)
    (hp : 137438953470 &&& ft = 137438953470) (h : Keeps ft s₀ s) :
    KeepsOut ft s₀ (execSlpClose yh tag s) := by
  delta execSlpClose
  repeat' first
      | with_reducible assumption | exact Foot.sub hp rfl | intro _ | with_reducible apply State.receive_keeps
      | with_reducible apply KeepsOut.done | with_reducible apply KeepsOut.next | exact trivial | dsimp only | split

theorem execSlpCsr_keeps {ft : Nat} {s₀ s : State} (yh : SlpHdr) (tag : Word) (entries : List CsrEntry)
    (hp : 137438953470 &&& ft = 137438953470) (h : Keeps ft s₀ s) :
    KeepsOut ft s₀ (execSlpCsr yh tag entries s) := by
  delta execSlpCsr
  repeat' first
      | with_reducible assumption | exact Foot.sub hp rfl | intro _ | with_reducible apply doneClk_keeps
      | with_reducible apply State.receive_keeps | with_reducible apply KeepsOut.done
      | with_reducible apply KeepsOut.next | exact trivial | dsimp only | split

theorem execSlpDebugRequest_keeps {ft : Nat} {s₀ s : State} (yh : SlpHdr) (tag : Word) (entries : List CsrEntry)
    (hp : 137438953470 &&& ft = 137438953470) (h : Keeps ft s₀ s) :
    KeepsOut ft s₀ (execSlpDebugRequest yh tag entries s) := by
  delta execSlpDebugRequest
  repeat' first
      | with_reducible assumption | exact Foot.sub hp rfl | intro _ | with_reducible apply doneClk_keeps
      | with_reducible apply State.receive_keeps | with_reducible apply Keeps.ite
      | with_reducible apply KeepsOut.done | with_reducible apply KeepsOut.next | exact trivial | dsimp only | split

theorem execSlpFlBegin_keeps {ft : Nat} {s₀ s : State} (yh : SlpHdr) (tag : Word) (slot : Word) (size : Word)
    (ok : Bool) (hp : 137438953470 &&& ft = 137438953470) (h : Keeps ft s₀ s) :
    KeepsOut ft s₀ (execSlpFlBegin yh tag slot size ok s) := by
  delta execSlpFlBegin
  repeat' first
      | with_reducible assumption | exact Foot.sub hp rfl | intro _ | with_reducible apply State.receive_keeps
      | with_reducible apply KeepsOut.done | with_reducible apply KeepsOut.next | exact trivial | dsimp only | split

theorem execSlpFlCommit_keeps {ft : Nat} {s₀ s : State} (yh : SlpHdr) (tag : Word) (crc : Word) (dir2 : Word)
    (readback : Word) (ok : Bool) (hp : 137438953470 &&& ft = 137438953470) (h : Keeps ft s₀ s) :
    KeepsOut ft s₀ (execSlpFlCommit yh tag crc dir2 readback ok s) := by
  delta execSlpFlCommit
  repeat' first
      | with_reducible assumption | exact Foot.sub hp rfl | intro _ | with_reducible apply State.receive_keeps
      | with_reducible apply KeepsOut.done | with_reducible apply KeepsOut.next | exact trivial | dsimp only | split

theorem execSlpFlData_keeps {ft : Nat} {s₀ s : State} (yh : SlpHdr) (slot : Word) (off : Word) (data : List Byte)
    (ok : Bool) (hp : 137438953470 &&& ft = 137438953470) (h : Keeps ft s₀ s) :
    KeepsOut ft s₀ (execSlpFlData yh slot off data ok s) := by
  delta execSlpFlData
  repeat' first
      | with_reducible assumption | exact Foot.sub hp rfl | intro _ | with_reducible apply State.receive_keeps
      | with_reducible apply KeepsOut.done | with_reducible apply KeepsOut.next | exact trivial | dsimp only | split

theorem execSlpKey_keeps {ft : Nat} {s₀ s : State} (yh : SlpHdr) (tag : Word) (cmd : Word) (blob : BitVec 320)
    (hp : 137438953470 &&& ft = 137438953470) (h : Keeps ft s₀ s) :
    KeepsOut ft s₀ (execSlpKey yh tag cmd blob s) := by
  delta execSlpKey
  repeat' first
      | with_reducible assumption | exact Foot.sub hp rfl | intro _ | with_reducible apply State.receive_keeps
      | with_reducible apply KeepsOut.done | with_reducible apply KeepsOut.next | exact trivial | dsimp only | split

theorem execSlpMsg_keeps {ft : Nat} {s₀ s : State} (yh : SlpHdr) (q : Fin 4) (words : List Word)
    (hp : 137438953470 &&& ft = 137438953470) (h : Keeps ft s₀ s) :
    KeepsOut ft s₀ (execSlpMsg yh q words s) := by
  delta execSlpMsg
  repeat' first
      | with_reducible assumption | exact Foot.sub hp rfl | intro _ | with_reducible apply State.receive_keeps
      | with_reducible apply KeepsOut.done | with_reducible apply KeepsOut.next | exact trivial | dsimp only | split

theorem execSlpObjData_keeps {ft : Nat} {s₀ s : State} (yh : SlpHdr) (id : Word) (off : BitVec 64) (data : List Byte)
    (hp : 137438953470 &&& ft = 137438953470) (h : Keeps ft s₀ s) :
    KeepsOut ft s₀ (execSlpObjData yh id off data s) := by
  delta execSlpObjData
  repeat' first
      | with_reducible assumption | exact Foot.sub hp rfl | intro _ | with_reducible apply State.receive_keeps
      | with_reducible apply KeepsOut.done | with_reducible apply KeepsOut.next | exact trivial | dsimp only | split

theorem execSlpOpen_keeps {ft : Nat} {s₀ s : State} (yh : SlpHdr) (p : SlpPeer) (tag : Word) (maxpay : Word)
    (force : Bool) (hp : 137438953470 &&& ft = 137438953470) (h : Keeps ft s₀ s) :
    KeepsOut ft s₀ (execSlpOpen yh p tag maxpay force s) := by
  delta execSlpOpen
  repeat' first
      | with_reducible assumption | exact Foot.sub hp rfl | intro _ | with_reducible apply State.openRequest_keeps
      | with_reducible apply State.receive_keeps | with_reducible apply Keeps.ite
      | with_reducible apply KeepsOut.done | with_reducible apply KeepsOut.next | exact trivial | dsimp only | split

theorem execSlpRead_keeps {ft : Nat} {s₀ s : State} (yh : SlpHdr) (tag : Word) (id : Word) (off : BitVec 64)
    (len : Word) (hp : 137438953470 &&& ft = 137438953470) (h : Keeps ft s₀ s) :
    KeepsOut ft s₀ (execSlpRead yh tag id off len s) := by
  delta execSlpRead
  repeat' first
      | with_reducible assumption | exact Foot.sub hp rfl | intro _ | with_reducible apply State.receive_keeps
      | with_reducible apply KeepsOut.done | with_reducible apply KeepsOut.next | exact trivial | dsimp only | split

theorem execSlpRestart_keeps {ft : Nat} {s₀ s : State} (yh : SlpHdr) (tag : Word) (slot : Word)
    (hp : 137438953470 &&& ft = 137438953470) (h : Keeps ft s₀ s) :
    KeepsOut ft s₀ (execSlpRestart yh tag slot s) := by
  delta execSlpRestart
  repeat' first
      | with_reducible assumption | exact Foot.sub hp rfl | intro _ | with_reducible apply State.receive_keeps
      | with_reducible apply KeepsOut.done | with_reducible apply KeepsOut.next | exact trivial | dsimp only | split

theorem execSlpSend_keeps {ft : Nat} {s₀ s : State} (stream : Fin 11) (hp : 137438953470 &&& ft = 137438953470)
    (h : Keeps ft s₀ s) :
    KeepsOut ft s₀ (execSlpSend stream s) := by
  delta execSlpSend
  repeat' first
      | with_reducible assumption | exact Foot.sub hp rfl | intro _ | with_reducible apply State.ctrlRun_keeps
      | with_reducible apply State.sendOn_keeps | with_reducible apply KeepsOut.done
      | with_reducible apply KeepsOut.next | exact trivial | dsimp only | split

theorem execSlpShutdown_keeps {ft : Nat} {s₀ s : State} (yh : SlpHdr) (tag : Word)
    (hp : 137438953470 &&& ft = 137438953470) (h : Keeps ft s₀ s) :
    KeepsOut ft s₀ (execSlpShutdown yh tag s) := by
  delta execSlpShutdown
  repeat' first
      | with_reducible assumption | exact Foot.sub hp rfl | intro _ | with_reducible apply State.receive_keeps
      | with_reducible apply KeepsOut.done | with_reducible apply KeepsOut.next | exact trivial | dsimp only | split

theorem execSlpStandby_keeps {ft : Nat} {s₀ s : State} (yh : SlpHdr) (tag : Word)
    (hp : 137438953470 &&& ft = 137438953470) (h : Keeps ft s₀ s) :
    KeepsOut ft s₀ (execSlpStandby yh tag s) := by
  delta execSlpStandby
  repeat' first
      | with_reducible assumption | exact Foot.sub hp rfl | intro _ | with_reducible apply State.receive_keeps
      | with_reducible apply KeepsOut.done | with_reducible apply KeepsOut.next | exact trivial | dsimp only | split

theorem execSlpStatus_keeps {ft : Nat} {s₀ s : State} (yh : SlpHdr) (tag : Word)
    (hp : 137438953470 &&& ft = 137438953470) (h : Keeps ft s₀ s) :
    KeepsOut ft s₀ (execSlpStatus yh tag s) := by
  delta execSlpStatus
  repeat' first
      | with_reducible assumption | exact Foot.sub hp rfl | intro _ | with_reducible apply State.receive_keeps
      | with_reducible apply KeepsOut.done | with_reducible apply KeepsOut.next | exact trivial | dsimp only | split

theorem execSyncMessage_keeps {ft : Nat} {s₀ s : State} (domain : Byte) (ds : BitVec 127) (ofs : Word)
    (hp : 2 &&& ft = 2) (h : Keeps ft s₀ s) :
    KeepsOut ft s₀ (execSyncMessage domain ds ofs s) := by
  delta execSyncMessage
  repeat' first
      | with_reducible assumption | exact Foot.sub hp rfl | intro _ | with_reducible apply State.wr_keeps
      | with_reducible apply State.setFlag_keeps | with_reducible apply Keeps.ite
      | with_reducible apply KeepsOut.done | with_reducible apply KeepsOut.next | exact trivial | dsimp only | split

theorem execTxSend_keeps {ft : Nat} {s₀ s : State} (mask : BitVec 4) (hp : 18266193922 &&& ft = 18266193922)
    (h : Keeps ft s₀ s) :
    KeepsOut ft s₀ (execTxSend mask s) := by
  delta execTxSend
  repeat' first
      | with_reducible assumption | exact Foot.sub hp rfl | intro _ | with_reducible apply State.reach_keeps
      | with_reducible apply State.eachBit_keeps | with_reducible apply State.txSend_keeps
      | with_reducible apply KeepsOut.done | with_reducible apply KeepsOut.next | exact trivial | dsimp only | split
end Sys2Proof.Machine
end

