-- ==== Sys2Proof/Laws/KeepsBackground.lean ====
section
/-! SUPPORT. Once for each: what the operations of Machine/Background.lean keep: the parts of the
state they may change, and that the canonical form of the state survives them. -/

namespace Sys2Proof.Machine

theorem State.migTurn_keeps {ft : Nat} {s₀ s : State}  (hp : 77309411334 &&& ft = 77309411334) (h : Keeps ft s₀ s) :
    Keeps ft s₀ (State.migTurn s) := by
  delta State.migTurn
  repeat' first
      | with_reducible assumption | exact Foot.sub hp rfl | intro _ | with_reducible apply State.copyLine_keeps
      | with_reducible apply State.wr_keeps | dsimp only | split

theorem State.rekeyTurn_keeps {ft : Nat} {s₀ s : State}  (hp : 77309542406 &&& ft = 77309542406) (h : Keeps ft s₀ s) :
    Keeps ft s₀ (State.rekeyTurn s) := by
  delta State.rekeyTurn
  repeat' first
      | with_reducible assumption | exact Foot.sub hp rfl | intro _ | with_reducible apply State.rebuildStep_keeps
      | with_reducible apply State.rekeyStart_keeps | with_reducible apply State.inc_keeps
      | with_reducible apply State.rekeyStep_keeps | with_reducible apply Keeps.ite | dsimp only | split

theorem State.scanTurn_keeps {ft : Nat} {s₀ s : State} (id : Nat) (a : Alloc) (hp : 8724188162 &&& ft = 8724188162)
    (h : Keeps ft s₀ s) :
    Keeps ft s₀ (State.scanTurn s id a) := by
  delta State.scanTurn
  repeat' first
      | with_reducible assumption | exact Foot.sub hp rfl | intro _ | with_reducible apply State.pageMark_keeps
      | with_reducible apply State.setAlloc_keeps | with_reducible apply State.scanRest_keeps
      | with_reducible apply Keeps.ite | dsimp only | split

theorem State.loadTurn_keeps {ft : Nat} {s₀ s : State}  (hp : 8724188162 &&& ft = 8724188162) (h : Keeps ft s₀ s) :
    Keeps ft s₀ (State.loadTurn s) := by
  delta State.loadTurn
  repeat' first
      | with_reducible assumption | exact Foot.sub hp rfl | intro _ | with_reducible apply State.wr_keeps
      | with_reducible apply State.inc_keeps | with_reducible apply State.scanTurn_keeps
      | with_reducible apply Keeps.ite | dsimp only | split

theorem State.zeroTurn_keeps {ft : Nat} {s₀ s : State} (id : Nat) (a : Alloc) (hp : 77309414414 &&& ft = 77309414414)
    (h : Keeps ft s₀ s) :
    Keeps ft s₀ (State.zeroTurn s id a) := by
  delta State.zeroTurn
  repeat' first
      | with_reducible assumption | exact Foot.sub hp rfl | intro _ | with_reducible apply State.setAlloc_keeps
      | with_reducible apply State.zeroLine_keeps | with_reducible apply Keeps.ite | dsimp only | split

theorem State.clearTurn_keeps {ft : Nat} {s₀ s : State} (site : Nat) (hp : 77309411342 &&& ft = 77309411342)
    (h : Keeps ft s₀ s) :
    Keeps ft s₀ (State.clearTurn s site) := by
  delta State.clearTurn
  repeat' first
      | with_reducible assumption | exact Foot.sub hp rfl | intro _ | with_reducible apply State.clearEnd_keeps
      | with_reducible apply State.inc_keeps | with_reducible apply State.zeroLine_keeps
      | with_reducible apply Keeps.ite | dsimp only | split

theorem State.fillTurn_keeps {ft : Nat} {s₀ s : State}  (hp : 77309414414 &&& ft = 77309414414) (h : Keeps ft s₀ s) :
    Keeps ft s₀ (State.fillTurn s) := by
  delta State.fillTurn
  repeat' first
      | with_reducible assumption | exact Foot.sub hp rfl | intro _ | with_reducible apply State.zeroTurn_keeps
      | with_reducible apply State.clearTurn_keeps | dsimp only | split

theorem State.bgTurn_keeps {ft : Nat} {s₀ s : State} (x0 : BgJob) (hp : 77443795982 &&& ft = 77443795982)
    (h : Keeps ft s₀ s) :
    Keeps ft s₀ (State.bgTurn s x0) := by
  delta State.bgTurn
  repeat' first
      | with_reducible assumption | exact Foot.sub hp rfl | intro _ | with_reducible apply State.migTurn_keeps
      | with_reducible apply State.rekeyTurn_keeps | with_reducible apply State.loadTurn_keeps
      | with_reducible apply State.fillTurn_keeps | dsimp only | split

theorem State.bgLines_keeps {ft : Nat} {s₀ s : State} (k n : Nat) (hp : 77443795982 &&& ft = 77443795982)
    (h : Keeps ft s₀ s) :
    Keeps ft s₀ (State.bgLines k n s) := by
  induction k generalizing s n with
  | zero => exact h
  | succ k ih =>
    unfold State.bgLines
    refine Keeps.ite h ?_
    split
    · exact h
    · exact ih _ (State.bgTurn_keeps _ (Foot.sub hp rfl) (State.wr_keeps _ _ (Foot.sub hp rfl)
        (State.wr_keeps _ _ (Foot.sub hp rfl) h)))

theorem State.migCredit_keeps {ft : Nat} {s₀ s : State} (n : Nat) (hp : 2 &&& ft = 2) (h : Keeps ft s₀ s) :
    Keeps ft s₀ (State.migCredit s n) := by
  delta State.migCredit
  repeat' first
      | with_reducible assumption | exact Foot.sub hp rfl | intro _ | with_reducible apply State.wr_keeps
      | with_reducible apply Keeps.ite | dsimp only | split

theorem State.bgTick_keeps {ft : Nat} {s₀ s : State}  (hp : 77443795982 &&& ft = 77443795982) (h : Keeps ft s₀ s) :
    Keeps ft s₀ (State.bgTick s) := by
  delta State.bgTick
  repeat' first
      | with_reducible assumption | exact Foot.sub hp rfl | intro _ | with_reducible apply State.forUpTo_keeps
      | with_reducible apply State.migCredit_keeps | with_reducible apply State.bgLines_keeps
      | with_reducible apply Keeps.ite | dsimp only | split
end Sys2Proof.Machine
end

