-- ==== Sys2Proof/Laws/KeepsTick.lean ====
section
/-! SUPPORT. Once for each: what the operations of Machine/Tick.lean keep: the parts of the
state they may change, and that the canonical form of the state survives them. -/

namespace Sys2Proof.Machine

theorem State.later_keeps {ft : Nat} {s₀ s : State} (hp : 34359738368 &&& ft = 34359738368) (h : Keeps ft s₀ s) :
    Keeps ft s₀ (State.later s) :=
  Keeps.ite (h.upd (t := { s with time := s.time + 1000 })
    (fun p => by cases p <;> first | exact fun _ => rfl | exact Foot.not hp (by decide)) fun c => { c with }) h

theorem State.wdtTick_keeps {ft : Nat} {s₀ s : State} (n : Nat) (hp : 330754 &&& ft = 330754) (h : Keeps ft s₀ s) :
    Keeps ft s₀ (State.wdtTick s n) := by
  delta State.wdtTick
  repeat' first
      | with_reducible assumption | exact Foot.sub hp rfl | intro _ | with_reducible apply State.mfpReset_keeps
      | with_reducible apply State.wr_keeps | with_reducible apply Keeps.ite | dsimp only | split

theorem State.tmrTick_keeps {ft : Nat} {s₀ s : State} (g : Nat) (hp : 8589934594 &&& ft = 8589934594)
    (h : Keeps ft s₀ s) :
    Keeps ft s₀ (State.tmrTick s g) := by
  delta State.tmrTick
  repeat' first
      | with_reducible assumption | exact Foot.sub hp rfl | intro _ | with_reducible apply State.tmrZero_keeps
      | with_reducible apply State.wr_keeps | with_reducible apply Keeps.ite | dsimp only | split

theorem State.fetchRound_keeps {ft : Nat} {s₀ s : State}  (hp : 77443664918 &&& ft = 77443664918) (h : Keeps ft s₀ s) :
    Keeps ft s₀ (State.fetchRound s) := by
  delta State.fetchRound
  repeat' first
      | with_reducible assumption | exact Foot.sub hp rfl | intro _ | with_reducible apply State.forUpTo_keeps
      | with_reducible apply State.fetch_keeps | dsimp only | split

theorem State.memTick_keeps {ft : Nat} {s₀ s : State}  (hp : 77443804734 &&& ft = 77443804734) (h : Keeps ft s₀ s) :
    Keeps ft s₀ (State.memTick s) := by
  delta State.memTick
  repeat' first
      | with_reducible assumption | exact Foot.sub hp rfl | intro _ | with_reducible apply State.bgTick_keeps
      | with_reducible apply State.serveLines_keeps | with_reducible apply State.kwTick_keeps
      | with_reducible apply State.calTick_keeps | with_reducible apply State.decideTick_keeps
      | with_reducible apply State.forUpTo_keeps | with_reducible apply State.fetchRound_keeps
      | with_reducible apply Keeps.ite | dsimp only | split

theorem State.runTick_keeps {ft : Nat} {s₀ s : State} (q : Nat) (hp : 726 &&& ft = 726) (h : Keeps ft s₀ s) :
    Keeps ft s₀ (State.runTick s q) := by
  delta State.runTick
  repeat' first
      | with_reducible assumption | exact Foot.sub hp rfl | intro _ | with_reducible apply State.settle_keeps
      | with_reducible apply Keeps.ite | dsimp only | split

theorem State.dieTick_keeps {ft : Nat} {s₀ s : State}  (hp : 137438953470 &&& ft = 137438953470) (h : Keeps ft s₀ s) :
    Keeps ft s₀ (State.dieTick s) := by
  delta State.dieTick
  repeat' first
      | with_reducible assumption | exact Foot.sub hp rfl | intro _ | with_reducible apply State.forUpTo_keeps
      | with_reducible apply State.later_keeps | with_reducible apply State.wdtTick_keeps
      | with_reducible apply State.mfpTick_keeps | with_reducible apply State.ddrTick_keeps
      | with_reducible apply State.tmrTick_keeps | with_reducible apply State.memTick_keeps
      | with_reducible apply State.runTick_keeps | with_reducible apply State.adcTick_keeps
      | with_reducible apply State.macDrain_keeps | with_reducible apply State.flushReplies_keeps
      | with_reducible apply State.noticePump_keeps | with_reducible apply State.twdTick_keeps
      | with_reducible apply State.icfpSigLow_keeps | with_reducible apply State.ringTick_keeps
      | with_reducible apply State.settleHeld_keeps | with_reducible apply State.bstTryStart_keeps
      | with_reducible apply State.loadTick_keeps | with_reducible apply State.serveHeld_keeps
      | with_reducible apply State.slpTick_keeps | dsimp only | split

theorem State.tick_keeps {ft : Nat} {s₀ s : State}  (hp : 137438953470 &&& ft = 137438953470) (h : Keeps ft s₀ s) :
    Keeps ft s₀ (State.tick s) := by
  delta State.tick
  repeat' first
      | with_reducible assumption | exact Foot.sub hp rfl | intro _ | with_reducible apply State.rtcPasses_keeps
      | with_reducible apply State.dieTick_keeps | with_reducible apply Keeps.ite | dsimp only | split
end Sys2Proof.Machine
end

