-- ==== Sys2Proof/Laws/KeepsFoot.lean ====
section
/-! SUPPORT. From a footprint as a list of parts to one as the bits of a number, and back; what a state without a queue
keeps. -/

namespace Sys2Proof.Machine

/-- The parts of a list as the bits of a number. -/
def maskOf : List Part → Nat
  | [] => 0
  | p :: l => 2 ^ p.idx ||| maskOf l

theorem Part.idx_inj {p q : Part} (h : p.idx = q.idx) : p = q := by
  cases p <;> cases q <;> first | rfl | cases h

theorem maskOf_testBit (l : List Part) (p : Part) (h : p ∉ l) : (maskOf l).testBit p.idx = false := by
  induction l with
  | nil => exact Nat.zero_testBit _
  | cons q l ih =>
    have hq : q.idx ≠ p.idx := fun e => h (List.mem_cons.2 (.inl (Part.idx_inj e.symm)))
    rw [maskOf, Nat.testBit_or, Nat.testBit_two_pow_of_ne hq, ih fun hp => h (List.mem_cons.2 (.inr hp))]
    rfl

theorem Keeps.only {l : List Part} {s t : State} (h : Keeps (maskOf l) s t) : Only l s t :=
  fun p hp => h.kept p (maskOf_testBit l p hp)

theorem doneClk_answers (s : State) :
    doneClk s = .next s ∨ doneClk s = .fault .clockRatioUndefined := by
  unfold doneClk
  split
  · exact .inr rfl
  · exact .inl rfl

theorem State.Canon.queue {s : State} (c : s.Canon) (l : List Instr) : State.Canon { s with pending := l } := { c with }

end Sys2Proof.Machine
end

