-- ==== Sys2Proof/Laws/Keys.lean ====
section
/-! SUPPORT. When two register fields have different keys, and what a read gives after a write of another field. -/

namespace Sys2Proof.Machine

/-- No instance of one field shares its key with an instance of the other, seen from their addresses modulo the
strides. -/
def Lay.apart (l m : Lay) : Bool :=
  let g := Nat.gcd (Nat.gcd l.s1 l.s2) (Nat.gcd m.s1 m.s2)
  (l.base * 32 + l.lsb) % (g * 32) != (m.base * 32 + m.lsb) % (g * 32)

theorem Lay.key_eq (l : Lay) (i j : Nat) : (l.f i j).key = l.base * 32 + l.lsb + (i * l.s1 + j * l.s2) * 32 := by
  simp only [Lay.f, Fld.key]
  generalize i * l.s1 = a
  generalize j * l.s2 = b
  omega

theorem Lay.key_mod (l : Lay) (i j g : Nat) (h1 : g ∣ l.s1) (h2 : g ∣ l.s2) :
    (l.f i j).key % (g * 32) = (l.base * 32 + l.lsb) % (g * 32) := by
  rw [l.key_eq]
  obtain ⟨a, ha⟩ := h1
  obtain ⟨b, hb⟩ := h2
  rw [ha, hb, Nat.mul_left_comm, Nat.mul_left_comm j, ← Nat.mul_add, Nat.mul_right_comm, Nat.add_mul_mod_self_left]

theorem Lay.key_ne {l m : Lay} {i j i' j' : Nat} (h : l.apart m = true) : (l.f i j).key ≠ (m.f i' j').key := fun e => by
  have h' := bne_iff_ne.1 h
  apply h'
  rw [← l.key_mod i j _ (Nat.dvd_trans (Nat.gcd_dvd_left _ _) (Nat.gcd_dvd_left _ _))
    (Nat.dvd_trans (Nat.gcd_dvd_left _ _) (Nat.gcd_dvd_right _ _)), e,
    m.key_mod i' j' _ (Nat.dvd_trans (Nat.gcd_dvd_right _ _) (Nat.gcd_dvd_left _ _))
    (Nat.dvd_trans (Nat.gcd_dvd_right _ _) (Nat.gcd_dvd_right _ _))]

theorem Lay.key_ne_idx {l : Lay} {i i' : Nat} (hs : l.s1 ≠ 0) (h : i ≠ i') : (l.f i).key ≠ (l.f i').key := by
  rw [l.key_eq, l.key_eq]
  intro e
  have : i * l.s1 = i' * l.s1 := by omega
  exact h (Nat.eq_of_mul_eq_mul_right (Nat.pos_of_ne_zero hs) this)

variable {s : State}

theorem State.rd_setFlag_ne {f g : Fld} (b : Bool) (h : f.key ≠ g.key) : (s.setFlag f b).rd g = s.rd g :=
  State.rd_wr_ne s _ h

theorem State.flag_setFlag_ne {f g : Fld} (b : Bool) (h : f.key ≠ g.key) : (s.setFlag f b).flag g = s.flag g :=
  State.flag_wr_ne s _ h

theorem State.rd_wr_lt {f : Fld} {v : Nat} (h : v < 2 ^ f.width) : (s.wr f v).rd f = v := by
  rw [State.rd_wr_same, Nat.mod_eq_of_lt h]

theorem State.flag_setFlag_f {l : Lay} {i j : Nat} {b : Bool} (h : l.width = 1) :
    (s.setFlag (l.f i j) b).flag (l.f i j) = b := State.flag_setFlag_same _ _ _ h

theorem State.flag_wr_f {l : Lay} {i j v : Nat} (h : l.width = 1) :
    (s.wr (l.f i j) v).flag (l.f i j) = (v % 2 != 0) := by
  show ((s.wr (l.f i j) v).rd (l.f i j) != 0) = _
  rw [State.rd_wr_same, show (l.f i j).width = 1 from h, Nat.pow_one]

end Sys2Proof.Machine
end

