-- ==== Sys2Proof/Laws/Payload.lean ====
section
/-! SUPPORT. The payload of an image: what is kept of its first segment is what its first record is taken from. -/

namespace Sys2Proof.Machine

/-- The little-endian word of four bytes from place `4 k` on. -/
def wordAt (l : List Nat) (k : Nat) : Nat := (List.range 4).foldl (fun v b => v + l.getD (4 * k + b) 0 * 256 ^ b) 0

theorem State.rd_keepPayload (s : State) (l : List Nat) (f : Fld) : (s.keepPayload 0 l).rd f = s.rd f :=
  State.forUpTo_ind (fun _ t => t.rd f = s.rd f) rfl fun _ _ _ h => by rw [State.rd_setTab, h]

theorem State.tab_keepPayload (s : State) (l : List Nat) {b : Tab} {n i : Nat}
    (h : ∀ k, k < (l.length + 3) / 4 → CFG.pay.key 0 (16380 * 0 + k) ≠ b.key n i) :
    (s.keepPayload 0 l).tab b n i = s.tab b n i :=
  State.forUpTo_ind (fun _ t => t.tab b n i = s.tab b n i) rfl fun k _ hk ht => by rw [State.tab_setTab_ne _ _ (h k hk), ht]

theorem State.payWord_keepPayload (s : State) (l : List Nat) {k : Nat} (hk : k < (l.length + 3) / 4) :
    (s.keepPayload 0 l).payWord k = wordAt l k % 2 ^ 32 := by
  refine State.forUpTo_ind (fun m t => ∀ k < m, t.payWord k = wordAt l k % 2 ^ 32) (fun _ h => absurd h (Nat.not_lt_zero _))
    (fun m t _ ih j hj => ?_) k hk
  by_cases e : j = m
  · subst e
    simp only [State.payWord, Nat.mul_zero, Nat.zero_add, State.tab_setTab_same]
    rfl
  · have h : CFG.pay.key 0 (16380 * 0 + m) ≠ CFG.pay.key 0 j := by simp only [Tab.key]; omega
    rw [State.payWord, State.tab_setTab_ne _ _ h]
    exact ih j (by omega)

theorem foldl_range_four (f : Nat → Nat → Nat) (a : Nat) : (List.range 4).foldl f a = f (f (f (f a 0) 1) 2) 3 := rfl

theorem wordAt_eq (l : List Nat) (k : Nat) : wordAt l k =
    0 + l.getD (4 * k + 0) 0 * 256 ^ 0 + l.getD (4 * k + 1) 0 * 256 ^ 1 + l.getD (4 * k + 2) 0 * 256 ^ 2 +
      l.getD (4 * k + 3) 0 * 256 ^ 3 := by
  rw [wordAt, foldl_range_four]

/-- A byte of a word of four bytes. -/
theorem byte_of_word {a b c d j x : Nat} (ha : a < 256) (hb : b < 256) (hc : c < 256) (hd : d < 256)
    (hx : (j = 0 ∧ x = a) ∨ (j = 1 ∧ x = b) ∨ (j = 2 ∧ x = c) ∨ (j = 3 ∧ x = d)) :
    (0 + a * 256 ^ 0 + b * 256 ^ 1 + c * 256 ^ 2 + d * 256 ^ 3) % 2 ^ 32 / 256 ^ j % 256 = x := by
  rcases hx with ⟨rfl, rfl⟩ | ⟨rfl, rfl⟩ | ⟨rfl, rfl⟩ | ⟨rfl, rfl⟩ <;> simp only [Nat.reducePow] <;> omega

theorem State.payByte_keepPayload (s : State) {l : List Nat} (hl : ∀ b ∈ l, b < 256) {p : Nat} (hp : p < l.length) :
    (s.keepPayload 0 l).payByte p = l.getD p 0 := by
  have hb : ∀ i, l.getD i 0 < 256 := fun i => by
    by_cases h : i < l.length
    · rw [List.getD_eq_getElem?_getD, List.getElem?_eq_getElem h]; exact hl _ (List.getElem_mem h)
    · rw [List.getD_eq_getElem?_getD, List.getElem?_eq_none (by omega)]; exact Nat.zero_lt_succ _
  have hc : p % 4 = 0 ∨ p % 4 = 1 ∨ p % 4 = 2 ∨ p % 4 = 3 := by omega
  have hq : ∀ j, p % 4 = j → p = 4 * (p / 4) + j := fun j h => by omega
  rw [State.payByte, State.payWord_keepPayload s l (by omega), wordAt_eq]
  refine byte_of_word (hb _) (hb _) (hb _) (hb _) ?_
  rcases hc with h | h | h | h
  · exact .inl ⟨h, congrArg (fun i => l.getD i 0) (hq 0 h)⟩
  · exact .inr (.inl ⟨h, congrArg (fun i => l.getD i 0) (hq 1 h)⟩)
  · exact .inr (.inr (.inl ⟨h, congrArg (fun i => l.getD i 0) (hq 2 h)⟩))
  · exact .inr (.inr (.inr ⟨h, congrArg (fun i => l.getD i 0) (hq 3 h)⟩))

/-- The payload that has arrived spells what was kept of it. -/
theorem State.paySpells_keepPayload (s : State) {l : List Nat} (hl : ∀ b ∈ l, b < 256)
    (ha : l.length ≤ s.arrived) : (s.keepPayload 0 l).paySpells 0 l = true := by
  have he : (s.keepPayload 0 l).arrived = s.arrived := by
    have h : (s.keepPayload 0 l).tab CFG.hdr 0 5 = s.tab CFG.hdr 0 5 :=
      State.tab_keepPayload s l fun k hk => by simp only [Tab.key, CFG.pay, CFG.hdr]; omega
    simp only [State.arrived, State.payLen, State.imageHdr, h, State.rd_keepPayload]
  suffices h : ∀ n p, p + n = l.length → (s.keepPayload 0 l).paySpells p (l.drop p) = true from h l.length 0 (Nat.zero_add _)
  intro n
  induction n with
  | zero => intro p h; rw [List.drop_eq_nil_of_le (by omega)]; rfl
  | succ n ih =>
    intro p h
    have hp : p < l.length := by omega
    rw [List.drop_eq_getElem_cons hp, State.paySpells, ih (p + 1) (by omega), State.payByte_keepPayload s hl hp, he,
      List.getD_eq_getElem?_getD, List.getElem?_eq_getElem hp]
    simp; omega

end Sys2Proof.Machine
end

