-- ==== Sys2Proof/Tests/Slice0.lean ====
section
/-! SUPPORT. The checks of well-formed commands, each with a term it refuses; what the statements assume, each met by a
concrete state; and steps of a few commands on small states. -/

open Sys2Proof Sys2Proof.Machine

namespace Sys2Proof.Tests

set_option Elab.async false

/-- `s` with some register fields set. -/
def st (l : List (Fld × Nat)) (s : State := State.reset) : State := l.foldl (fun s x => s.wr x.1 x.2) s

/-- `s` with some table words set. -/
def tb (b : Tab) (n : Nat) (l : List (Nat × Nat)) (s : State) : State := l.foldl (fun s x => s.setTab b n x.1 x.2) s

/-- The die is powered and clocked, every block is enabled, the references are locked, and the outputs are free. -/
def on : State := st [(PWR.EN_MAIN.f, 1), (CLK.EN.f, 2 ^ 32 - 1), (CLK.LK.f, 31), (CLK.LK_MFP.f, 255), (CLK.LK_DC.f, 4095),
  (CLK.LK_TM.f, 15), (CLK.LK_TW.f, 15), (CLK.LK_FAB.f, 255), (CLK.REF_OK.f, 1), (CLK.TREF_OK.f, 1), (CLK.XTAL_OK.f, 1),
  (VLV.OUT_HELD.f, 0)]

/-- The logic die is off. -/
def off : State := st [(PWR.EN_MAIN.f, 0)] on

/-! Well-formed commands: for each check a term that it refuses, beside one that it takes. -/

theorem test_wellFormed_lists : ∀ twice : Bool,
    (Instr.tdrLaunch 3 [(31, .searching), (if twice then 31 else 30, .exhausted)]).wellFormed = !twice ∧
    (Instr.strobeResult 15 [(127, []), (if twice then 127 else 126, [])]).wellFormed = !twice ∧
    (Instr.muxSwitch [3, if twice then 3 else 4]).wellFormed = !twice := by decide +kernel

theorem test_wellFormed_lengths : ∀ bad : Bool,
    (Instr.partialWrite 5 0 (if bad then [] else [7]) 0).wellFormed = !bad ∧
    (Instr.adcOutput 15 (if bad then [] else [7]) false false).wellFormed = !bad ∧
    (Instr.frames 0 (if bad then [] else [7])).wellFormed = !bad ∧
    (Instr.bcast (.message 5 0 (if bad then [] else [7]))).wellFormed = !bad ∧
    (Instr.prbsEn 3 true (List.replicate (if bad then 5 else 4) 0)).wellFormed = !bad ∧
    (Instr.sensorRead (List.replicate (if bad then 11 else 12) 0)).wellFormed = !bad ∧
    (Instr.segmentRead (.header (List.replicate (if bad then 63 else 64) 0))).wellFormed = !bad ∧
    (Instr.segmentRead (.directory 0 0 (List.replicate 16 0) (List.replicate (if bad then 15 else 16) 0))).wellFormed = !bad ∧
    (Instr.injectionPortInput 127 (List.replicate (if bad then 9 else 8) 0)).wellFormed = !bad ∧
    (Instr.slpFlData ⟨7, 0, 0, none, false⟩ 0 0 (List.replicate (if bad then 3 else 4) 0) true).wellFormed = !bad ∧
    (Instr.slpObjData ⟨7, 0, 0, none, false⟩ 5 0 (List.replicate (if bad then 3 else 4) 0)).wellFormed = !bad ∧
    (Instr.slpMsg ⟨7, 0, 0, none, false⟩ 3 (if bad then [] else [7])).wellFormed = !bad := by decide +kernel

theorem test_wellFormed_bounds : (Instr.bcast (.message 5 0 (List.replicate 4033 0))).wellFormed = false ∧
    (Instr.slpMsg ⟨7, 0, 0, none, false⟩ 3 (List.replicate 4097 0)).wellFormed = false ∧
    (Instr.channelTrained 11 ⟨some ⟨.rdimm, [], List.replicate 513 0⟩, none⟩).wellFormed = false ∧
    (Instr.coldStart true false 0 0 [⟨3, []⟩] none).wellFormed = false := by decide +kernel
/-! Chapter 2: the bus. -/

/-- A plain register, as a check of its fields. -/
theorem plain (a : Nat) (h : ∀ l ∈ layoutAt a, (l.idx? a).isSome = true → (actsAt a).find? (fun c => c.1 == l) = none)
    (h' : a % 4 = 0 ∧ 0x10000000 ≤ a ∧ a < 0x3C000000 ∧ inDbg a = false ∧ aliasAt a = none ∧ (pairAt a).isNone = true ∧
      (pairAt (a - 4)).isNone = true ∧ adcEntryAt a = none ∧ a ≠ 0x2C001800 ∧ CNV.PORT_TAPDST.idx? a = none) : PlainReg a := by
  obtain ⟨h1, h2, h3, h4, h5, h6, h7, h8, h9, h10⟩ := h'
  exact ⟨h1, h2, h3, h4, h5, Option.isNone_iff_eq_none.1 h6, Option.isNone_iff_eq_none.1 h7, h8, h9, h10,
    fun l hl x hx => h l hl (by rw [hx]; rfl)⟩

theorem masterMay_core (m : Master) (h : masterPort m = none) (lvl : Nat) (s : State) : MasterMay m lvl s :=
  fun p e => by rw [h] at e; cases e

/-- EVT_INV, written by a flow processor; and the word alias of one of its 1-bit neighbours. -/
theorem wit_plainReg : PlainReg 0x1200000C ∧ MasterMay (.mfp 7) 2 on ∧ Reached on 0x1200000C .evt ∧
    on.writesAbsent 0x1200000C 5 (2 ^ 32 - 1) = false ∧ on.ratioBad = false ∧
    on.mustWait (.write (.mfp 7) 0x1200000C 5) = false :=
  ⟨plain _ (by decide +kernel) (by decide +kernel), masterMay_core _ rfl _ _,
    ⟨by decide +kernel, by decide +kernel, by decide +kernel, by decide +kernel⟩, by decide +kernel, by decide +kernel,
    by decide +kernel⟩

/-- A write that waits: the island of its block stands still, or an earlier access of its master waits. -/
theorem wit_mustWait : (let s := st [(CLK.LK.f, 27)] on
    s.mustWait (.write (.mfp 7) 0x24001000 5) = true ∧ s.ratioBad = false ∧
    (s.hold (.write (.mfp 7) 0x24001000 5)).mustWait (.write (.mfp 7) 0x1200000C 5) = true ∧
    (s.hold (.write (.mfp 7) 0x24001000 5)).mustWait (.write (.mfp 6) 0x1200000C 5) = false) := by decide +kernel

/-- The blocks are open to every queue of accesses; what holds a row up, in each way. -/
theorem wit_open : (∀ k : Fin 13, ∀ b ∈ [Blk.sys, .clk, .pwr, .evt, .dbg, .cfg, .ldg, .bst, .vlv 3, .tim, .twl, .gng, .dmk,
      .cal, .enc, .ddr 11, .adc, .cnv, .twd, .eth], on.openTo k b = true) ∧
    (let c := Instr.gngErrRel 3
     let x := Access.set (GNG.ERR_REL.f 3).addr (2 ^ (GNG.ERR_REL.f 3).lsb) (2 ^ (GNG.ERR_REL.f 3).lsb)
     rowAccess c on = some (x, .gng, true) ∧ on.dieOn = true ∧ on.heldIn 12 = [] ∧ on.absent .gng = false ∧
     on.gated .gng = false ∧ on.islandUp .gng = true ∧ off.dieOn = false ∧ rowAccess c off = some (x, .gng, true) ∧
     (st [(CLK.LK.f, 30)] on).bit CLK.LK.f 0 = false ∧ (st [(CLK.LK.f, 27)] on).islandUp .gng = false ∧
     { on with opt := .l }.absent .gng = true ∧ (st [(CLK.EN.f, 0)] on).gated .gng = true ∧
     (on.hold x).heldIn 12 = [x]) := by decide +kernel

/-- The alias of LVL_STAGED of channel 0: a field that only stores. -/
theorem wit_alias : aliasAt 0x20802014 = some (0x20000100, 5) ∧ inDbg 0x20802014 = false ∧
    (actsAt 0x20000100).find? (fun c => c.1 == VLV.LVL_STAGED) = none ∧ Reached on 0x20802014 (.vlv 0) ∧
    VLV.LVL_STAGED ∈ layoutAt 0x20000100 ∧ VLV.LVL_STAGED.idx? 0x20000100 = some (0, 0) ∧
    VLV.LVL_STAGED.kind = .rw ∧ VLV.LVL_STAGED.width = 1 ∧ on.fieldAbsent VLV.LVL_STAGED = false ∧
    on.mustWait (.write (.mfp 7) 0x20802014 1) = false := by
  refine ⟨?_, ?_, ?_, ⟨?_, ?_, ?_, ?_⟩, ?_, ?_, ?_, ?_, ?_, ?_⟩ <;> decide +kernel

/-- An address outside every block, one of the debug block, and one of a channel that ST9128-B lacks. -/
theorem wit_noBlock : blkAt (regOf 0x16000000) = none ∧ inDbg 0x14001000 = true ∧ masterPort .slp = none ∧
    (let s : State := { on with opt := .b }
     blkAt (regOf (DDR.CFG_SPARE.f 8).addr) = some (.ddr 8) ∧ s.absent (.ddr 8) = true) ∧
    masterPort .dbgS = some .s ∧ on.level .s < needLevel 0x12000008 true := by decide +kernel

/-- A pointer inside the ledger and the matrix, one beyond, and an address that is no IDATA register. -/
theorem wit_pairs : isIdata 0x12000008 = false ∧ on.gated .ldg = false ∧ on.gated (.vlv 3) = false ∧
    (∀ v : Bool, let f := fun a : Nat => on.mustWait (if v then .read .slp a else .write .slp a 5)
      f 0x15001034 = false ∧ f (0x20001014 + 3 * 0x1000000) = false) ∧
    on.rd (ptrFld .slp LDG.IADDR_ADDR.f) < 16384 ∧ on.rd (ptrFld .slp (VLV.MX_IADDR_ADDR.f 3)) < 194 ∧
    16384 ≤ (st [(LDG.IADDR_ADDR.f, 16384)] on).rd (ptrFld .slp LDG.IADDR_ADDR.f) ∧
    194 ≤ (st [(VLV.MX_IADDR_ADDR.f 3, 194)] on).rd (ptrFld .cfg (VLV.MX_IADDR_ADDR.f 3)) := by decide +kernel

/-- A present block whose clock is off. -/
theorem wit_gated : (let s := st [(CLK.EN.f, 0)] on
    s.dieOn = true ∧ blkAt (regOf 0x24001000) = some .tim ∧ s.absent .tim = false ∧ s.unitAbsent (regOf 0x24001000) = false ∧
    s.gated .tim = true ∧ s.ratioBad = false ∧ s.mustWait (.write (.mfp 7) 0x24001000 5) = false) := by decide +kernel

/-! Chapter 3. -/

theorem wit_levels : on.openTo 12 (.vlv 3) = true ∧ (on.flag (VLV.LVL_STAGED.ch 127) && staged .voh) = false ∧
    ((st [(VLV.LVL_STAGED.ch 127, 1)] on).flag (VLV.LVL_STAGED.ch 127) && staged .voh) = true ∧
    (tb VLV.held 127 [(levelIdx .voh, 0xFFFF + 1)] on).tab VLV.held (32 * 3 + 31) (levelIdx .voh) = 0xFFFF + 1 := by
  decide +kernel

theorem wit_pmuSettle : (let s := st [(VLV.PMU_EN.ch 127, 1), (VLV.CH_PMU_MODE.ch 127, 1)] on
    s.flag (VLV.PMU_EN.ch 127) = true ∧ s.inSafe 127 = false ∧ s.pmuTarget 127 ≠ .none) := by decide +kernel

theorem wit_trip : (let s := st [((detectorIn .clampOverload).f 127, 1), (VLV.PROT_EN.ch 127, 0)] on
    s.flag ((detectorIn .clampOverload).f 127) = true ∧ s.flag ((detectorLay .clampOverload).ch 127) = false ∧
    s.flag (VLV.PROT_EN.ch 127) = false ∧ s.flag (VLV.OC.ch 127) = false ∧
    (st [(VLV.PROT_EN.ch 127, 1)] s).flag (VLV.PROT_EN.ch 127) = true ∧
    ((st [(VLV.OC.ch 127, 1)] s).flag (VLV.OC.ch 127) || false) = true ∧ s.flag (VLV.CAP_FULL.f 3) = false ∧
    (st [(VLV.CAP_FULL.f 3, 1)] s).flag (VLV.CAP_FULL.f 3) = true ∧ s.dieOn = true ∧ off.dieOn = false ∧
    (39 : Word).toNat < s.deglitchNs 127 ∧ (min 199 (s.rd (VLV.CH_PROT_FILT.ch 127)) + 1) * 10 ≤ (40 : Word).toNat) := by
  decide +kernel

/-- The check of a release: nothing holds it, a local cause does, SAFE_N does. -/
theorem wit_release : (let s := st [(VLV.REL_WAIT.f, 1)] on
    s.flag VLV.REL_WAIT.f = true ∧ s.localCause = false ∧ s.flag (VLV.EXT_IN.f 0) = false ∧
    (st [(VLV.EXT_IN.f 0, 1)] s).localCause = false ∧ (st [(VLV.EXT_IN.f 0, 1)] s).flag (VLV.EXT_IN.f 0) = true ∧
    (st [(VLV.PROT_EN.ch 5, 1), (VLV.OC.ch 5, 1)] s).localCause = true ∧
    (st [(VLV.TRIP.f 0, 1)] s).inSafe 3 = true) := by decide +kernel

theorem wit_matrix : (let s := st [(VLV.MX_BUSY.f 3, 1)] on
    on.flag (VLV.MX_BUSY.f 3) = false ∧ on.mxConflict 3 = none ∧ s.flag (VLV.MX_BUSY.f 3) = true ∧
    s.flag (VLV.MX_PEND.f 3) = false ∧ (st [(VLV.MX_PEND.f 3, 1)] s).flag (VLV.MX_PEND.f 3) = true ∧
    (st [(VLV.MX_PEND.f 3, 1)] s).mxConflict 3 = none) := by decide +kernel

/-- Two sources on node 1. -/
theorem wit_matrixConflict : ((tb VLV.mxShadow 3 [(0, 0x81), (1, 0x81)] on).mxConflict 3).isSome = true := by decide +kernel

/-! Chapter 4. -/

theorem wit_timing : on.openTo 12 .tim = true ∧ on.hasExpress = true ∧ on.flag TIM.SQ_STAGE.f = false ∧
    on.issuing 15 = false ∧ (st [(TWL.STATE_STATE.f 15, 2)] on).issuing (1023 / 64) = true ∧
    (st [(TIM.SQ_STAGE.f, 1)] on).flag TIM.SQ_STAGE.f = true ∧ (tWordMask (524287 % 0x4000)).isSome = false ∧
    (tWordMask (0x4000 % 0x4000)).isSome = true ∧ on.flag (TIM.T_STAGE.f 3) = false ∧
    (st [(TIM.T_STAGE.f 3, 1)] on).flag (TIM.T_STAGE.f 3) = true ∧ on.chanRunning (32 * 3 + 0x4000 / 0x4000) = false ∧
    (st [(TWL.OWNER.f 97, 1), (TWL.STATE_STATE.f 0, 2)] on).chanRunning (32 * 3 + 0x4000 / 0x4000) = true ∧
    { on with opt := .b }.hasExpress = false ∧ bitOf (0x80000000 : Word).toNat 31 = true ∧
    on.listed TIM.sqHeld 0 = [] ∧ on.listed TIM.sqCommitted 0 = [] ∧ on.tab TIM.tHeld 3 0 = 0 ∧
    (tb TIM.sqHeld 0 [(1023, 8)] on).tab TIM.sqHeld 0 1023 = 7 + 1 ∧ 0x2202 % 0x4000 = 0x2202 ∧
    SMap.sorted (tb TIM.sqHeld 0 [(1023, 8)] on).tabs = true := by decide +kernel

theorem wit_timErr : (∀ k, k < 32 → on.tdOf (32 * 3 + k) ≤ on.planeOf (32 * 3 + k)) ∧
    (let s := on.setChWord 127 0x2201 20000
     s.planeOf (32 * 3 + 31) < s.tdOf (32 * 3 + 31)) := by decide +kernel

theorem wit_tdr : on.flag (TIM.TDR_BUSY.f 3) = false ∧
    (let s := st [(TIM.TDR_BUSY.f 3, 1), (TIM.TDR_UNF.f 3, 2 ^ 31), (TIM.TDR_PHASE.f 3, 1)] on
     s.flag (TIM.TDR_BUSY.f 3) = true ∧ s.bit (TIM.TDR_UNF.f 3) 31 = true ∧ s.bit (TIM.TDR_GOT.f 3) 31 = false ∧
     s.rd (TIM.TDR_PHASE.f 3) = 1 ∧ (st [(TIM.TDR_PHASE.f 3, 2)] s).rd (TIM.TDR_PHASE.f 3) = 2 ∧
     (st [(TIM.TDR_UNF.f 3, 0)] s).rd (TIM.TDR_UNF.f 3) = 0 ∧
     s.rd (TIM.TDR_CNT.f 3) + 1 < 2 ^ max 4 (min 12 (s.rd (TIM.TDR_CFG_AVG.f 3))) ∧
     (let u := st [(TIM.TDR_CFG_AVG.f 3, 0), (TIM.TDR_CNT.f 3, 15)] s
      2 ^ max 4 (min 12 (u.rd (TIM.TDR_CFG_AVG.f 3))) ≤ u.rd (TIM.TDR_CNT.f 3) + 1) ∧
     (let u := st [(TIM.TDR_UNF.f 3, 0), (TIM.TDR_OK.f 3, 2 ^ 31), (TIM.TDR_CFG_LOAD.f 3, 1)] s |>.setChWord 127 0x2203 0x20064
      u.chWord (32 * 3 + 31) 0x2203 < 2 ^ 31 ∧ u.bit (TIM.TDR_OK.f 3) 31 = true ∧ u.flag (TIM.TDR_CFG_LOAD.f 3) = true ∧
      u.chanRunning (32 * 3 + 31) = false ∧ bits (u.chWord (32 * 3 + 31) 0x2203) 16 3 = 2)) := by decide +kernel

/-- A masked channel that may be measured, and one that R113 names. -/
theorem wit_tdrMasked : (let s := st [(TIM.TDR_MASK.f 3, 2 ^ 31)] on
    31 ∈ s.tdrMasked 3 ∧ (s.tdrMasked 3).find? (fun k => s.tdrOffends 3 k) = some 31 ∧
    (∀ k ∈ (st [(VLV.EXT_TH.f 3 31, 1)] s).tdrMasked 3, (st [(VLV.EXT_TH.f 3 31, 1)] s).tdrOffends 3 k = false) ∧
    on.tdrMasked 3 = [] ∧ on.flag (VLV.TRIP.f 3) = false ∧ (st [(VLV.TRIP.f 3, 1)] on).flag (VLV.TRIP.f 3) = true) := by
  decide +kernel

theorem wit_calibration : on.dieOn = true ∧ on.flag CLK.TREF_OK.f = true ∧ on.bit CLK.LK.f 2 = true ∧
    on.rd CLK.LK_TM.f = 15 ∧ on.recalMayBegin 127 = false ∧
    (st [(TIM.RECAL.f 127, 1)] on).flag (TIM.RECAL.f 127) = true ∧
    (st [(TIM.TRK_EN.f 3, 1), (TIM.CAL_DONE.f, 1), (PWR.TEMP.f 3, 400)] on).recalMayBegin 127 = true := by decide +kernel
/-! Chapters 5 and 6. -/

/-- A line with an opcode, and a run that stands at it. -/
def line (op opnd arg : Nat) : TwlLine :=
  { addr := 7, next := 11, op := op, opnd := opnd, arg := arg, tsc := false, tset := 0, cmask := false, bytes := [0x12, 0x34] }

def run (l : TwlLine) (fresh : Bool) : SeqRun :=
  { obj := 5, hdr := { width := 2, dictN := 0, bodyWords := 32, entry := 0, tset0 := 0 }, demand := 1, need := none, line := some l, fresh := fresh, hof := 0,
    bursts := [{ grp := 7, site := 63, bseq := 1, ctx := 2, ring := false, ringBad := false, ringId := 0, rspace := false,
                 bmap := false, bmapId := 0, xw := 0, yw := 0, zw := 0, db := 0, space := false }] }

/-- Sequencer 15 in a state, with a run. -/
def seq (code : Nat) (r : SeqRun) (s : State := on) : State := (st [(TWL.STATE_STATE.f 15, code)] s).setRun 15 r


theorem wit_atLine : ∀ op : Fin 16, AtLine (seq 2 (run (line op 0 0) true)) 15 (run (line op 0 0) true) (line op 0 0) :=
  fun op => ⟨by revert op; decide +kernel, by revert op; decide +kernel, by revert op; decide +kernel, rfl, rfl⟩

/-- Every opcode but RET on an empty stack and APG without one selected is allowed, outside a MATCH. -/
theorem wit_allowed : (∀ op : Fin 16, op.val ≠ 2 → op.val ≠ 7 → op.val ≠ 14 →
    ((seq 2 (run (line op 0 0) true)).settle 15).insnErr 15 (run (line op 0 0) true) (line op 0 0) = false) ∧
    (let r := { run (line 7 0 0) true with stack := [3] }
     ((seq 2 r).settle 15).run? 15 = some r ∧ ((seq 2 r).settle 15).insnErr 15 r (line 7 0 0) = false) ∧
    (line 1 0 1).arg ≤ 1 ∧ 1 < (line 1 0 2).arg ∧ (run (line 1 0 2) false).left ≤ 1 ∧
    1 < { run (line 1 0 2) false with left := 2 : SeqRun }.left := by decide +kernel

/-- The APG line with APG 3 selected; in a cascade and out of it. -/
theorem wit_apgLine : (let s := st [(TWL.AF_EN.f 15, 1), (TWL.AF_APG.f 15, 3)]
    let u := (seq 2 (run (line 14 0 4095) true) (s := st [(TWL.AF_EN.f 15, 1), (TWL.AF_APG.f 15, 3)] on)).settle 15
    u.run? 15 = some (run (line 14 0 4095) true) ∧ u.apgOf 15 = some 3 ∧ on.gated .gng = false ∧
    u.insnErr 15 (run (line 14 0 4095) true) (line 14 0 4095) = false ∧
    ((seq 2 (run (line 14 0 4095) true) (s := st [(TWL.AF_EN.f 15, 1), (TWL.AF_APG.f 15, 3)] on)).wr
      (GNG.STATE_SP.f 3) 0).apgCause 3 4095 = none ∧ s.hasGng = true) ∧
    on.inCascade = false ∧ on.flag TWD.CASC_EN.f = false := by decide +kernel

theorem wit_cascade : (st [(TWD.STAT_STATE.f, 3)] on).inCascade = true ∧ (st [(TWD.CASC_EN.f, 1)] on).inCascade = false ∧
    (st [(TWD.CASC_EN.f, 1)] on).flag TWD.CASC_EN.f = true := by decide +kernel

/-- A MATCH in progress: in its body, at its last line, waiting for its iterations, and at its tail. -/
def matchAt (l : Option TwlLine) (idx iter decided : Nat) (tail : Bool) : SeqRun :=
  { run (line 0 0 0) true with
    line := l
    mtch := some { line := 7, body := 2, agg := false, limit := 3, idx := idx, iter := iter, decided := decided, matched := [],
                   sat := none, tail := tail, after := 20 } }

theorem wit_match : (∀ idx : Fin 2, let r := matchAt (some (line 0 0 0)) idx 0 0 false
      ((seq 4 r).settle 15).run? 15 = some r ∧ ((seq 4 r).settle 15).issuing 15 = true ∧
      ((seq 4 r).settle 15).awaiting 15 r = false ∧ ((seq 4 r).settle 15).insnErr 15 r (line 0 0 0) = false) ∧
    (let r := matchAt (some (line 9 1 3)) 0 1 0 false
     ((seq 4 r).settle 15).run? 15 = some r ∧ ((seq 4 r).settle 15).insnErr 15 r (line 9 1 3) = false) ∧
    (let r := matchAt none 0 3 2 true
     ((seq 3 r).settle 15).run? 15 = some r ∧ ((seq 3 r).settle 15).awaiting 15 r = false ∧ r.line = none ∧ r.need = none) ∧
    (let r := matchAt none 0 3 3 true
     ((seq 3 r).settle 15).run? 15 = some r ∧ 7 ∈ r.liveGroups) := by decide +kernel

/-- STOP: while vectors are issued, in BOUND, in IDLE and DRAIN. -/
theorem wit_stop : on.openTo 12 .twl = true ∧ ((seq 2 (run (line 0 0 0) true)).settle 15).issuing 15 = true ∧
    ((seq 1 (run (line 0 0 0) true)).settle 15).run? 15 = some (run (line 0 0 0) true) ∧
    ((seq 1 (run (line 0 0 0) true)).settle 15).rd (TWL.STATE_STATE.f 15) = 1 ∧
    on.rd (TWL.STATE_STATE.f 15) = 0 ∧ (seq 7 (run (line 0 0 0) true)).rd (TWL.STATE_STATE.f 15) = 7 ∧
    (let r := { run (line 0 0 0) true with ending := some (5, 7) }
     (seq 2 r).run? 15 = some r ∧ (seq 2 r).awaiting 15 r = false ∧ ((seq 2 r).haltDue 15).run? 15 = some r ∧
     ((seq 2 r).haltDue 15).issuing 15 = true ∧ ∀ b ∈ r.bursts, b.ended = none) := by decide +kernel

/-- Object 5, of two pages, with a header that says what its 32 body words of two-byte vectors are, and a run of it that
needs a line. -/
def object (s : State) : State :=
  s.withDir (s.dir.put 5 { kind := 0, size := 0x20000, key := 0, st := 3, root := 1, tables := tablesOf 0 [2] [9, 4] })

def needs (w : Nat) : SeqRun := { run (line 0 0 0) true with line := none, need := some w }

/-- Every DRAM channel is up, with no draw for a neighbour refresh, and key 0 is loaded. -/
def dram (s : State) : State := st ((ENC.KEYV.f, 1) :: (List.range 12).flatMap fun n => [(DDR.UP.f n, 1), (DDR.NRF_EN.f n, 0)]) s

/-- A header of two-byte vectors and 32 body words, which are all zero. -/
def header (s : State) : State :=
  (dram s).allocWrite { kind := 0, size := 0x20000, key := 0, st := 3, root := 1, tables := tablesOf 0 [2] [9, 4] } 0
    ([0, 0, 0, 0, 2, 0, 0, 0, 32] ++ List.replicate 183 0)

/-- A run whose fetcher has asked for the first lines of its object. -/
def fetching (w : Nat) (s : State := on) : State := (header (object (seq 2 (needs w) (s := s)))).fetch 15 w

/-- What the fetcher's next turn finds of the line at a word: the word needed, what the buffer holds of the line, and
where it goes, none where it is malformed. -/
def look (s : State) (w : Nat) : Option (Option Nat × Buffered × Option Nat) :=
  let u := (s.settle 15).fetch 15 w
  (u.run? 15).map fun r => (r.need, u.buffered 15 (lineParts (u.bufByte 15) r.hdr w),
    match decodeLine (u.bufByte 15) r.hdr w r.flow r.prev with
    | .bad => none
    | .line l => some l.next)

/-- Line 0 is not in the buffer yet, then it is and decodes; word 32 lies beyond the body; line 0 reads as poison. -/
theorem wit_decode : (look (header (object (seq 2 (needs 0)))) 0 = some (some 0, .missing, some 2) ∧
    look (fetching 0) 0 = some (some 0, .whole, some 2) ∧ look (fetching 32) 32 = some (some 32, .whole, none) ∧
    look (((header (object (seq 2 (needs 0)))).setWide DDR.pois ((9 * 65536) / 64 + 1) 1).fetch 15 0) 0 =
      some (some 0, .poison, some 2)) ∧
    (∀ w ∈ [0, 32], (let s := fetching w
      ((s.settle 15).run? 15).any (fun r => r.need == some w && !(s.settle 15).awaiting 15 r) = true ∧
      (s.settle 15).issuing 15 = true)) := by decide +kernel

/-- A commit of nothing, and one whose group 7 names channel 127 twice. -/
theorem wit_map : on.mapCheck 15 = none ∧
    (tb TWL.cmap 15 [(7 * 128, 0xFF), (7 * 128 + 1, 0xFF)] (st [(TWL.GRP_EN.f 15 7, 1)] on)).mapCheck 15 = some (1, 127, 0) ∧
    (tb TWL.cmap 15 [(7 * 128, 0xFF)] (st [(TWL.GRP_EN.f 15 7, 1)] on)).mapCheck 15 = none ∧
    (tb TWL.cmap 15 [(7 * 128, 0xFF)] (st [(TWL.GRP_EN.f 15 7, 1)] on)).heldEntries 15 = [(7, 0, 127)] := by decide +kernel

/-- An APG that works for sequencer 15 and stands at instruction 4095. -/
def apg (op : Nat) (spanPos : Nat) (period : Nat) : State :=
  tb GNG.tab 3 [(4095 * 8, op), (4095 * 8 + 1, 2)] (tb TIM.sq 0 [(15 * 64, period)]
    (seq 6 { run (line 14 0 4095) false with spanPos := spanPos }
      (st [(TWL.AF_EN.f 15, 1), (TWL.AF_APG.f 15, 3), (GNG.NPC.f 3, 4095), (GNG.STATE_SP.f 3, 1), (GNG.STATE_DEBT.f 3, 15)] on)))

theorem wit_atApg (op : Nat) (h : op < 12) : AtApg (apg op 0 4000) 3 15 { run (line 14 0 4095) false with spanPos := 0 }
    (line 14 0 4095) 4095 := by
  have key : ∀ op : Fin 12, ((List.range 16).find? fun q => (apg op 0 4000).apgOf q == some 3 &&
        (apg op 0 4000).rd (TWL.STATE_STATE.f q) == 6) = some 15 ∧
      ((apg op 0 4000).settle 15).run? 15 = some { run (line 14 0 4095) false with spanPos := 0 } ∧
      ((apg op 0 4000).settle 15).issuing 15 = true ∧
      ((apg op 0 4000).settle 15).awaiting 15 { run (line 14 0 4095) false with spanPos := 0 } = false ∧
      ((apg op 0 4000).settle 15).rd (TWL.STATE_STATE.f 15) = 6 ∧ ((apg op 0 4000).settle 15).rd (GNG.NPC.f 3) = 4095 := by
    decide +kernel
  obtain ⟨h1, h2, h3, h4, h5, h6⟩ := key ⟨op, h⟩
  exact ⟨h1, h2, h3, h4, h5, rfl, h6⟩

/-- The last vector of each flow operation, one vector a span; with two, the first and the second. -/
theorem wit_lastOf : (∀ op : Fin 12, let s := apg op 0 4000
      (s.settle 15).apgCause 3 4095 = none ∧ (s.settle 15).apgFop 3 4095 = op.val ∧ (s.settle 15).spanLen 15 = 1 ∧
      s.rd (GNG.STATE_SP.f 3) ≤ 8 ∧ bits (s.apgWord 3 4095 0) 22 2 = 0) ∧
    (let s := apg 0 0 1999
     (s.settle 15).spanLen 15 = 2 ∧ (s.settle 15).apgCause 3 4095 = none) ∧
    ((apg 12 0 4000).settle 15).apgCause 3 4095 = some 1 := by decide +kernel

theorem wit_apgUnits : (let s := apg 0 0 4000
    s.flag (GNG.CTRL_CHAIN.f 3) = false ∧ (s.unitRange 3 0).1 ≤ s.rd (GNG.XCUR.f 3) ∧
    s.rd (GNG.XCUR.f 3) ≤ (s.unitRange 3 0).2 ∧ (s.unitRange 3 1).1 ≤ s.rd (GNG.YCUR.f 3) ∧
    s.rd (GNG.YCUR.f 3) ≤ (s.unitRange 3 1).2 ∧ s.rd (GNG.STATE_DEBT.f 3) = 15 ∧
    (st [(GNG.REF_RUN.f 3, 1)] s).flag (GNG.REF_RUN.f 3) = true ∧ (st [(GNG.TMR.f 3, 1)] s).rd (GNG.TMR.f 3) ≠ 0 ∧
    s.absent .gng = false ∧ s.openTo 12 .gng = true ∧ s.rd (GNG.RPT_LEFT.f 3) = 0 ∧
    (st [(GNG.RPT_LEFT.f 3, 1)] s).rd (GNG.RPT_LEFT.f 3) = 1) := by decide +kernel
/-! Chapters 7 to 10. -/

/-- A vector in flight with one strobe of channel 127, masked or not. -/
def flight (masked : Bool) : Flight :=
  { cyc := 9, ends := 0, maskGrp := 0, cmask := false, iter := 0, iterEnd := false, express := false, tag := none,
    cols := [{ ch := 127, col := 0, grp := 7, pb := 0, slots := [.edge 1], masked := masked, lane := none }] }

theorem wit_judged : ∀ masked : Bool, (let r := { run (line 0 0 0) true with flights := [flight masked] }
    let s := seq 2 r
    s.run? 15 = some r ∧ r.mtch = none ∧ s.apgOf 15 = none ∧ (flight masked).iter = 0 ∧
    (∀ d ∈ (flight masked).cols, d.ch < 128 ∧ d.mode = none) ∧ ((flight masked).cols.map fun d => d.ch).Nodup ∧
    (∀ c ∈ (flight masked).cols, (s.slotPairs c.ch [(127, [[0], [0]])] 0 c.slots).1 = s ∧
      (flight masked).masks (flight masked).maskGrp c = masked)) := by decide +kernel

/-- Allocation 5 of a kind, in a state, marked in some pages. -/
def alloc (kind st : Nat) (s : State := on) (marked : List Nat := []) : State :=
  let s := dram s
  s.withDir (s.dir.put 5
    { kind := kind, size := 0x20000, key := 0, st := st, root := 1, tables := tablesOf 0 [2] [9, 4], marked := marked })

def failRec (ring : Bool) : FailRec :=
  { words := [1, 2, 3, 4, 5, 6, 7, 8], seq := 15, grp := 7, ring := ring, ringId := 5, bmapId := 0, bits := [] }

theorem wit_records : (let s0 := alloc 1 3 (st [(DMK.RING_ID.f 63, 5), (DMK.RP_SEL_SITE.f 3, 63), (DMK.RSP_SEL_SITE.f, 63),
      (DMK.REC_TURN.f, 63)] on)
    let s := State.setFifo s0 63 [failRec true, failRec true]
    s.fifo 63 = [failRec true, failRec true] ∧ (s.alloc? 5).any (fun a => !s.lineHeld 63 a && a.size == 0x20000) = true ∧
    s.mergeRoom 63 [failRec true, failRec true] = true ∧ s.recordTurn 63 = true ∧ (failRec true).words.length = 8 ∧
    s.ringFill 63 + 2 ≤ 0x20000 / 64 * 2 ∧ s.openTo 12 .dmk = true ∧ (s.ringAlloc (s.rd (DMK.RING_ID.f 63))).isSome = true ∧
    s.openTo (masterIdx .slp) .dmk = true ∧ s.ringWaits 63 0 = false ∧
    s.ringFill 63 = 0 ∧ (st [(DMK.RING_WR.f 63, 2)] s).ringFill 63 ≠ 0 ∧ s.ringAlloc (s.rd (DMK.RING_ID.f 62)) = none ∧
    (let u := State.setFifo s0 63 [failRec true]
     u.fifo 63 = [failRec true] ∧ u.mergeRoom 63 [failRec true] = true)) := by decide +kernel

/-- A run that has ended, whose result may be posted; a result at a port; a queue that is full. -/
theorem wit_results : (let r := { run (line 0 0 0) true with
      line := none, bursts := (run (line 0 0 0) true).bursts.map fun b => { b with ended := some 1 } }
    let s := seq 7 r (s := st [(DMK.SITE_CFG_RES_PORT.f 63, 1), (DMK.RSP_SEL_SITE.f, 63)] on)
    let e : ResultEntry := { words := List.replicate 16 1, byPort := false, bySlp := false, upto := 0, ord := 0 }
    ((s.passHead 63).postable 63).isSome = true ∧ s.run? 15 = some r ∧ (s.resultQ 63).length < 32 ∧
    (∀ x ∈ r.bursts, x.grp = 7) ∧ s.openTo (masterIdx .dbgJ) .dmk = true ∧
    s.flag (DMK.SITE_CFG_RES_PORT.f 63) = true ∧ s.portResult 63 = none ∧
    (s.withResults (s.results.put 63 (List.replicate 32 e))).resultQ 63 = List.replicate 32 e) := by decide +kernel

theorem wit_bitmaps : (let s := alloc 2 3 (st [(DMK.BMAP_ID.f 63, 5), (DMK.CLR_ID.f 63, 5)] on)
    s.openTo 12 .dmk = true ∧ s.siteFlag DMK.BMAP_BUSY 63 = false ∧ s.clearWaits 63 = false ∧
    (s.alloc? 5).any (fun a => !s.writeWaits a.key (a.pa 0) && !s.linePoison a.key (a.pa 0)) = true ∧ (s.bmapAlloc (s.rd (DMK.BMAP_ID.f 63))).isSome = true ∧
    s.bmapAlloc (s.rd (DMK.BMAP_ID.f 62)) = none ∧ s.updatesOf 63 = [] ∧ s.siteIdle 63 = true ∧
    (st [((siteBit DMK.BMAP_BUSY 63).1, 2 ^ 31)] s).siteFlag DMK.BMAP_BUSY 63 = true ∧
    0x20000 % 64 = 0 ∧ 0x20000 ≤ 65536 * [9, 4].length ∧
    (let u : BitmapUpdate := { seq := 15, grp := 7, bmapId := 5, bits := [0, 511, 512] }
     (s.withUpdates (s.updates.put 63 [u])).updatesOf 63 = [u] ∧ u.bits = 0 :: [511, 512])) := by decide +kernel

/-- Repair unit 3: may open, may not, and its session before and in the search. -/
def session : RaSession := { on.raSession 3 with workId := 5, outId := 5, gmask := 0xFF }

theorem wit_repair : on.openTo 12 .dmk = true ∧ on.hasRa = true ∧ on.bit DMK.RA_EN.f 3 = false ∧
    (let s := st [(DMK.RA_EN.f, 8), (DMK.RA_WORK_ID.f 3, 5), (DMK.RA_OUT_ID.f 3, 5)] on
     let t := s.withDir (s.dir.put 5 { kind := 3, size := 256 * 2 ^ 20, key := 0, st := 3, root := 1, tables := [] })
     t.bit DMK.RA_EN.f 3 = true ∧ t.bit DMK.BUSY.f 3 = false ∧ t.raCfgErr 3 = false ∧ s.raCfgErr 3 = true ∧
     (t.setSession 3 session).sessions.find? 3 = some session ∧ session.searching = false ∧ session.queue = [] ∧
     (t.setSession 3 { session with closing := true }).raDrained 3 = true ∧
     (t.alloc? session.outId).any (fun o => !t.outWaits session o) = true ∧ bitOf session.gmask 7 = true) := by decide +kernel

/-! Calico. -/

/-- Ready, with a command in its registers. -/
def cal (op id kind : Nat) (s : State := on) : State :=
  st [(CAL.READY.f, 1), (CAL.CMD_OP.f, op), (CAL.CMD_ID.f, id), (CAL.CMD_KIND.f, kind), (CAL.CMD_SIZE_LO.f, 0x20000),
    (CAL.PAGES_TOTAL.f, 16), (ENC.KEYV.f, 1)] s

theorem wit_calMay : CalMay .regs 1 (cal 1 7 0) ∧ CalMay (.msg 7 0x20000 0 0) 1 (cal 0 0 0) :=
  ⟨⟨by decide +kernel, by decide +kernel, by decide +kernel⟩, by decide +kernel, trivial⟩

/-- CMD_BUSY is set, and Calico's clocks run; a write of CMD_GO and of a field of a held port that reach their block. -/
theorem wit_calBusy : CalMay .regs 1 (st [(CAL.CMD_BUSY.f, 1)] (cal 1 7 0)) ∧
    (let s := st [(CAL.HELD.f, 16)] (cal 1 7 0)
     ∀ a ∈ [CAL.CMD_GO.f.addr, (CAL.RQ_OBJ.f 4).addr, (CAL.RQ_SITE.f 4).addr, (CAL.RQ_CTX.f 4).addr],
      blkAt (regOf a) = some .cal ∧ s.absent .cal = false ∧ s.unitAbsent (regOf a) = false ∧ s.gated .cal = false ∧
      s.mustWait (.write (.mfp 7) a 1) = false ∧ s.ratioBad = false ∧ s.bit CAL.HELD.f 4 = true) :=
  ⟨⟨by decide +kernel, by decide +kernel, by decide +kernel⟩, by decide +kernel⟩

/-- Channel 0 has ranks in use, so there are pages. -/
def pages (s : State) : State := st [(DDR.FITTED.f 0, 1), (DDR.UP.f 0, 1), (DDR.STAT_RANKS.f 0, 3), (DDR.USE.f 0, 3),
  (DDR.STAT_RSIZE.f 0, 1)] s

theorem wit_create : (let s := pages (cal 1 7 0)
    (s.calCmd .regs).kind = 0 ∧ (s.calCmd .regs).id = 7 ∧ s.alloc? 7 = none ∧ s.allocCheck (s.calCmd .regs) = none ∧
    ((cal 1 0 0).calCmd .regs).id = 0 ∧ ((cal 1 (2 ^ 31) 0).calCmd .regs).id = 2 ^ 31 ∧ s.freeId.isSome = true ∧
    ((cal 2 0 1).calCmd .regs).kind = 1 ∧ ((cal 2 0 7).calCmd .regs).kind = 7 ∧
    ((st [(CAL.CMD_SIZE_LO.f, 0)] s).allocCheck ((st [(CAL.CMD_SIZE_LO.f, 0)] s).calCmd .regs)).isSome = true) := by
  decide +kernel

theorem findPage_isSome (ok : Nat → Bool) (m n p : Nat) (hn : 0 < n) (h : ok p = true) : (findPage ok m n p).isSome = true := by
  obtain ⟨k, rfl⟩ := Nat.exists_eq_add_of_lt hn
  rw [Nat.zero_add, findPage, if_pos h]; rfl

/-- Every page in rotation lies in channel 0. -/
theorem rotAt_zero (i : Nat) : (rotAt (pages (cal 1 7 0)).chanCaps 13 0 i).1 = 0 := by
  have hc : (pages (cal 1 7 0)).chanCaps = [65536, 0, 0, 0, 0, 0, 0, 0, 0, 0, 0, 0] := by decide +kernel
  rw [hc, rotAt]
  have e0 : ((List.range [65536, 0, 0, 0, 0, 0, 0, 0, 0, 0, 0, 0].length).filter fun c =>
      decide (0 < [65536, 0, 0, 0, 0, 0, 0, 0, 0, 0, 0, 0].getD c 0)) = [0] := by decide
  have e1 : ((List.range [65536, 0, 0, 0, 0, 0, 0, 0, 0, 0, 0, 0].length).filter fun c =>
      decide (65536 < [65536, 0, 0, 0, 0, 0, 0, 0, 0, 0, 0, 0].getD c 0)) = [] := by decide
  simp only [e0]
  split
  · simp [Nat.mod_one]
  · rw [rotAt]
    have e2 : ([0] : List Nat).foldl (fun m c => min m ([65536, 0, 0, 0, 0, 0, 0, 0, 0, 0, 0, 0].getD c 0)) (2 ^ 32) = 65536 := by
      decide
    rw [e2]; simp only [e1]; rfl

/-- So every metadata line can be read. -/
theorem metaPa_good (x : Nat × Nat) : (pages (cal 1 7 0)).lineDead ((pages (cal 1 7 0)).metaPa x) = false := by
  have hp : ∀ k, (pages (cal 1 7 0)).wide DDR.pois k = 0 := by intro k; rfl
  have hr : ∀ i, (pages (cal 1 7 0)).rotPage i % 16 = 0 := by
    intro i
    simp only [State.rotPage, pageName, rotAt_zero]
    omega
  have hc : paChan ((pages (cal 1 7 0)).metaPa x) = 0 := by
    unfold paChan State.metaPa
    dsimp only
    generalize he : (pages (cal 1 7 0)).rotPage (metaLine (pages (cal 1 7 0)).protPages x / 1024) = q
    have := hr (metaLine (pages (cal 1 7 0)).protPages x / 1024)
    rw [he] at this
    omega
  have hu : (pages (cal 1 7 0)).flag (DDR.UP.f 0) = true := by decide +kernel
  have hl : (pages (cal 1 7 0)).flag (DDR.LOST.f 0) = false := by decide +kernel
  simp [State.lineDead, hc, hp, hu, hl]

/-- With a rank of free pages there is a page to take, wherever the draw of the model begins. -/
theorem wit_takePages : ((pages (cal 1 7 0)).takePages (pages (cal 1 7 0)).usedPages 1).isSome = true := by
  have hu : (pages (cal 1 7 0)).usedPages = [] := by decide +kernel
  have hb : (pages (cal 1 7 0)).badNodes = [] := by decide +kernel
  have hf : ∀ p, (pages (cal 1 7 0)).pageFree [] p = true := by
    have hy : (pages (cal 1 7 0)).rd CAL.SYS_PAGES.f = 0 := by decide +kernel
    have hv : (pages (cal 1 7 0)).rd ENC.LEVELS.f = 0 := by decide +kernel
    have hk : ∀ n, (pages (cal 1 7 0)).climb 16 (0, n) = true := by
      intro n; simp [State.climb, metaPa_good, hv]
    intro p; simp [State.pageFree, State.pageWithheld, State.pathGood, State.pageSystem, hb, hy, hk]
  have hr : ((pages (cal 1 7 0)).rankPage [] 0 0).isSome = true := by
    have h0 : (pages (cal 1 7 0)).rankUsable 0 0 = true := by decide +kernel
    rw [State.rankPage, if_pos h0]
    dsimp only
    rw [Option.isSome_map]
    exact findPage_isSome _ _ _ _ (Nat.two_pow_pos _) (hf _)
  have hc : ((pages (cal 1 7 0)).chanPage [] 0 0).isSome = true := by
    rw [State.chanPage, List.findSome?_isSome_iff]
    refine ⟨0, by decide, ?_⟩
    rw [Option.isSome_map]; exact hr
  have hn : ((pages (cal 1 7 0)).nextPage []).isSome = true := by
    rw [State.nextPage, List.findSome?_isSome_iff]
    refine ⟨0, by decide, ?_⟩
    have e1 : ((pages (cal 1 7 0)).rd CAL.ROT.f + 0) % 12 = 0 := by decide +kernel
    have e2 : (pages (cal 1 7 0)).rd (CAL.ROT_RANK.f 0) = 0 := by decide +kernel
    dsimp only
    rw [Option.isSome_map, e1, e2]; exact hc
  rw [hu]
  unfold State.takePages State.takePage
  cases h : (pages (cal 1 7 0)).nextPage [] with
  | none => rw [h] at hn; cases hn
  | some x => rfl

/-- The bytes of a Twill object of 32 body words, which are NOP lines of one-byte vectors. -/
def object2 (st : Nat) (s : State) : State :=
  (s.withDir (s.dir.put 5 { kind := 0, size := 0x20000, key := 0, st := st, root := 1, tables := tablesOf 0 [2] [9, 4] })).allocWrite
    { kind := 0, size := 0x20000, key := 0, st := st, root := 1, tables := tablesOf 0 [2] [9, 4] } 0
    ([0x31, 0x4C, 0x57, 0x54, 8, 0, 0, 0, 32] ++ List.replicate 183 0)

theorem wit_seal : (let s := object2 1 (dram (cal 3 5 0))
    (s.calCmd .regs).id = 5 ∧ (s.alloc? 5).any (fun x => x.kind == 0 && x.st == 1 && x.marked.isEmpty && !x.allpois &&
      !s.headerBad x && !s.allocPoison x 0 64) = true ∧
    (s.alloc? 5).any (fun x => (s.setWide DDR.pois ((9 * 65536) / 64) 1).allocPoison x 0 64) = true ∧
    ((alloc 0 1 (cal 3 5 0)).alloc? 5).any (fun x =>
      ((alloc 0 1 (cal 3 5 0)).allocWrite x 0 [0x32, 0x4C, 0x57, 0x54]).headerBad x) = true ∧
    (alloc 0 1 (cal 3 5 0)).alloc? 6 = none ∧
    ((alloc 0 3 (cal 3 5 0)).alloc? 5).any (fun x => x.st != 1) = true) := by decide +kernel

/-- DELETE of an unused allocation, of one that a burst uses, and of one that is DELETING; QUERY; OP 0, 6 and 15. -/
theorem wit_delete : (let s := alloc 0 3 (cal 4 5 0)
    (s.calCmd .regs).id = 5 ∧ s.allocUsed 5 = false ∧ SMap.sorted s.dir = true ∧
    (alloc 0 3 (seq 2 (run (line 0 0 0) true) (s := cal 4 5 0))).allocUsed 5 = true ∧
    ((alloc 0 5 (cal 4 5 0)).alloc? 5).any (fun x => x.st == 5) = true ∧ s.rd CAL.CMD_OP.f = 4 ∧
    (cal 15 0 0).rd CAL.CMD_OP.f = 15) := by decide +kernel

/-- The lines of a scan that read as poison. -/
def scanPoison (s : State) (x : Alloc) : List Nat :=
  (List.range (s.scanLines x)).filter fun l => s.linePoison x.key (x.pa (64 * l))

/-- The end of a scan without poison. -/
theorem wit_scan : (let s := object2 2 (dram on)
    (s.alloc? 5).any (fun x => x.st == 2 && x.marked.isEmpty && x.pos == 0 &&
      !s.loadWaits x (64 * x.pos) (64 * (s.scanLines x - x.pos)) && (scanPoison s x).isEmpty) = true) := by decide +kernel

/-- The end of one with a poisoned line. -/
theorem wit_scanPoison : (let s := (object2 2 (dram on)).setWide DDR.pois ((9 * 65536) / 64 + 2) 1
    (s.alloc? 5).any (fun x => scanPoison s x == [2]) = true) := by decide +kernel

/-- The end of a zero-fill. -/
theorem wit_zero : ((alloc 3 6).alloc? 5).any (fun x => x.st == 6 && x.size % 64 == 0 &&
    decide (x.size ≤ 65536 * x.pages.length) &&
    !(alloc 3 6).storeWaits x (64 * x.pos) (x.size - 64 * x.pos)) = true := by decide +kernel

/-- Requests: held, not held, refused for a missing object, and one that is admitted. -/
def request : State :=
  object2 3 (dram (st [(CAL.READY.f, 1), (CAL.RQ_OBJ.f 4, 5), (CAL.RQ_SITE.f 4, 63), (TWL.GF_EN.f 15 7, 1),
    (TWL.GF_SITE.f 15 7, 63), (TWL.MAPW.f 15, 8), (TIM.CAL_DONE.f, 1), (CAL.VBUDGET.f, 100000)] on))

theorem wit_requests : request.openTo 12 .cal = true ∧ request.flag CAL.READY.f = true ∧ request.bit CAL.HELD.f 4 = false ∧
    (st [(CAL.HELD.f, 16)] request).bit CAL.HELD.f 4 = true ∧ (st [(CAL.HELD.f, 16)] request).heldPorts = [4] ∧
    (st [(CAL.RQ_OBJ.f 4, 6)] request).refuseReason 4 = some 1 := by decide +kernel

/-- A fill that ends with a header of width 8, one whose header reads as poison, and one whose lines have yet to come.
-/
theorem wit_fill : (let s := object2 3 (dram (seq 1 (run (line 0 0 0) true)))
    let filled := fun (s : State) (r : SeqRun) => ((s.fill 15 r).run? 15).map fun x =>
      (x.filled, (s.fill 15 r).bufPois 15 0, (ObjHeader.of ((s.fill 15 r).bufByte 15)).width)
    s.run? 15 = some (run (line 0 0 0) true) ∧ s.rd (TWL.STATE_STATE.f 15) = 1 ∧
    filled s (run (line 0 0 0) true) = some (true, false, 8) ∧ s.rd (TWL.MAPW.f 15) ≠ 8 ∧
    (st [(TWL.MAPW.f 15, 8)] s).rd (TWL.MAPW.f 15) = 8 ∧ (s.alloc? (run (line 0 0 0) true).obj).isSome = true ∧
    (filled (s.setWide DDR.pois ((9 * 65536) / 64) 1) (run (line 0 0 0) true)).any (fun x => x.1 && x.2.1) = true ∧
    (filled (st [(DDR.SETUP.f 9, 1)] s) (run (line 0 0 0) true)).any (fun x => !x.1) = true) := by decide +kernel

theorem wit_admission : (st [(CAL.HELD.f, 16)] request).refuseReason 4 = none ∧
    request.siteOwner (request.rd (CAL.RQ_SITE.f 4)) = some (15, 7) ∧
    (request.rqObject 4).any (fun a => request.admits 4 15 (request.demandOf 15 a)) = true ∧
    (request.rqObject 4).any (fun a => !(st [(TIM.CAL_DONE.f, 0)] request).admits 4 15 (request.demandOf 15 a)) = true ∧
    (∀ x ∈ request.runSites 15, x.2 < 64) ∧ request.apgOf 15 = none ∧ request.calRuns = true := by decide +kernel

/-! DRAM and encryption. -/

/-- A rank that meets the requirements, and the same with its width. -/
def rankOf (width : Byte) : RankReport :=
  { width := width, sub := 40, gb := 16, high := 1, trfc1 := 295, rates := 7, trained := true }

/-- The two slots with one rank each, of a width. -/
def spdOf (w0 w1 : Byte) : SpdReport :=
  { slot0 := some { typ := .rdimm, ranks := [rankOf w0], spd := [7] }, slot1 := some { typ := .rdimm, ranks := [rankOf w1], spd := [] } }

theorem wit_channels : on.chanAwaits 11 = true ∧ on.rd CFG.STATE_START.f = 0 ∧ spdRefusal (spdOf 4 4) = none ∧
    spdRefusal (spdOf 4 8) ≠ none ∧ spdList ⟨none, none⟩ = [] ∧ spdList (spdOf 4 4) ≠ [] ∧
    (let s := st [(CFG.STATE_START.f, 1), (DDR.TRAINED.f 11, 1), (DDR.STAT_RANKS.f 11, 5)] on
     s.chanAwaits 11 = true ∧ s.rd CFG.STATE_START.f ≠ 0 ∧ s.flag (DDR.TRAINED.f 11) = true ∧
     (10 : BitVec 4).toNat &&& s.rd (DDR.STAT_RANKS.f 11) = 0 ∧ (4 : BitVec 4).toNat &&& s.rd (DDR.STAT_RANKS.f 11) ≠ 0) ∧
    paChan 0xB0000 = 11 ∧ (dram on).flag (DDR.UP.f (paChan 0xB0000)) = true ∧ (dram on).dramQueue 11 0 = [] ∧
    (dram on).dramWaiting 11 0 = [] ∧ (dram on).flag (DDR.SETUP.f 11) = false ∧
    ((dram on).setDramQueue 11 0 (List.replicate 64 { pa := 0xB0000, write := true })).dramQueue 11 0 =
      List.replicate 64 { pa := 0xB0000, write := true } := by decide +kernel

/-- Rank 3 of channel 11: fitted, not in self-refresh, not retired, idle. -/
theorem wit_ranks : (let s := st [(DDR.STAT_RANKS.f 11, 15), (DDR.ISR_EN.f 11, 1)] (dram on)
    s.flag (DDR.UP.f 11) = true ∧ bitOf (s.rd (DDR.STAT_RANKS.f 11)) 3 = true ∧ s.bit (DDR.RSR.f 11) 3 = false ∧
    s.rankRetired 11 3 = false ∧ s.flag (DDR.ISR_EN.f 11) = true ∧ s.rankQueue 11 3 = 0 ∧ s.rd (DDR.DEBT_N.f 11 3) = 0 ∧
    s.flag (DDR.SETUP.f 11) = false ∧ s.rd (DDR.SPARE_ACT.f 11) ≠ 4 + 3 ∧ s.bit (DDR.DBL.f 11) 3 = false ∧
    (st [(DDR.DBL.f 11, 8)] s).bit (DDR.DBL.f 11) 3 = true) := by decide +kernel

/-- Codewords: as stored, with one device in error, with two, and with the check bytes of a line stored poisoned. -/
theorem wit_codewords : rsDecode (errBytes []) = .clean ∧
    (match rsDecode (errBytes [(3, 5)]) with
     | .device _ _ => true
     | _ => false) = true ∧
    rsDecode (errBytes [(0, 1), (9, 1), (30, 7), (63, 9), (70, 3)]) = .other ∧
    rsDecode (xorBytes (errBytes []) rsReserved) = .reserved := by decide +kernel

/-- A line that reads good, one that is stored poisoned, and one whose MAC fails. -/
theorem wit_dramReads : (let s := alloc 1 3
    let pa := 9 * 65536
    s.dramHeld = false ∧ (takeRead pa (s.dramQueue (paChan pa) (pa / 64 % 2))).2 = false ∧ s.metaAt pa = none ∧
    s.flag (DDR.UP.f (paChan pa)) = true ∧ s.pathGood pa = true ∧ s.linePoison (s.allocAt pa).key pa = false ∧
    s.macMisses (s.allocAt pa) pa ((errBytes []).take 64) = false ∧ s.wide DDR.pois (pa / 64) ≠ 1 ∧
    (s.setWide DDR.pois (pa / 64) 1).wide DDR.pois (pa / 64) = 1 ∧
    s.absent (.ddr 11) = false ∧ s.openTo 12 (.ddr 11) = true) := by decide +kernel

/-- RETIRE: refused without a spare, for the spare itself and while REDIR is set; and one that may be done. -/
theorem wit_retire : on.rd (DDR.SPARE_ACT.f 11) < 4 ∧
    (let s := st [(DDR.SPARE_ACT.f 11, 7), (DDR.RET_RANK.f 11, 2), (DDR.STAT_RANKS.f 11, 15)] on
     ¬ (s.rd (DDR.SPARE_ACT.f 11) < 4 ∨ s.rd (DDR.SPARE_ACT.f 11) % 4 = s.rd (DDR.RET_RANK.f 11) ∨
      bitOf (s.rd (DDR.STAT_RANKS.f 11)) (s.rd (DDR.RET_RANK.f 11)) = false ∨ s.flag (DDR.SETUP.f 11) = true ∨
      s.flag (DDR.REDIR.f 11) = true) ∧ s.rd (DDR.RET_RANK.f 11) < 4 ∧
     (st [(DDR.SETUP.f 11, 1)] s).flag (DDR.SETUP.f 11) = true ∧ s.rankQueue 11 (s.rd (DDR.RETIRING.f 11)) = 0 ∧
     (st [(DDR.UP.f 11, 1)] s).flag (DDR.UP.f 11) = true ∧ s.dramHeld = false ∧
     0 + 1 < (st [(DDR.STAT_RSIZE.f 11, 1)] s).rankLines 11 ∧ s.flag (DDR.AUTO.f 11) = false ∧ (st [(DDR.MIG.f 11, 1)] s).flag (DDR.MIG.f 11) = true ∧
     (st [(DDR.MIG.f 11, 1)] s).rd (DDR.MIG_PTR.f 11) + 1 < 2 ^ 31) := by decide +kernel

/-- LOAD and ERASE in tenant mode: key 15 free, loaded, in use by an allocation; and key 0. -/
theorem wit_keys : (let s := st [(ENC.TENANT.f, 1), (ENC.KW_CMD_OP.f, 1), (ENC.KW_CMD_KID.f, 15)] on
    (s.kwCmd .regs).op = 1 ∧ (s.kwCmd .regs).kid < 16 ∧ s.openTo 12 .enc = true ∧ s.flag ENC.KW_BUSY.f = false ∧
    s.kidBad 15 = false ∧ s.kidBad 0 = true ∧ s.keyLoaded 15 = false ∧ s.keyInDir 15 = false ∧
    (st [(ENC.KEYV.f, 2 ^ 15)] s).keyLoaded 15 = true ∧ (st [(ENC.KEYV.f, 2 ^ 15)] s).keyBusy 15 = false ∧
    (st [(ENC.RK_RUN.f, 1), (ENC.RK_STAT_KID.f, 15)] s).keyBusy 15 = true ∧
    (s.withDir (s.dir.put 5
      { kind := 1, size := 0x20000, key := 15, st := 3, root := 1, tables := tablesOf 0 [2] [9, 4] })).keyInDir 15 = true ∧
    (st [(ENC.KW_BUSY.f, 1)] s).encRuns = true) := by decide +kernel

/-- An unwrapped blob is either a key or none; one of the clauses on it applies. -/
theorem wit_unwrap (b : List Nat) : kwUnwrap Config.kwk b = none ∨ ∃ v, kwUnwrap Config.kwk b = some v := by
  cases kwUnwrap Config.kwk b with
  | none => exact .inl rfl
  | some v => exact .inr ⟨v, rfl⟩

/-- A walk that starts, its first page and its end. -/
theorem wit_rekey : (let s := alloc 1 3 (st [(ENC.RKPEND.f, 1), (ENC.KEYV.f, 1), (CAL.READY.f, 1)] on)
    s.flag ENC.RK_RUN.f = false ∧ s.badNodes = [] ∧ s.memServes = true ∧ s.rekeyNext = some 0 ∧
    s.walkPage 0 0 = some 64 ∧ s.walkPage 0 (10 * 16) = none ∧ s.keyLoaded 0 = true ∧ s.walkRuns = false ∧
    s.cacheList.length + 256 ≤ 131072 ∧ (∀ i < 64, s.metaPa (15, s.macNo ((64 * 64 + i) * 64)) / 4096 ≠ 64) ∧
    (st [(ENC.RK_RUN.f, 1)] s).walkRuns = true) := by decide +kernel

/-- Writes that are done: with a good path, of a line that is known bad, at the last minor counter, and without a key.
-/
theorem wit_writes : (let s := alloc 1 3
    let pa := 4 * 65536 + 0xFFC0
    (s.alloc? 5).any (fun a => decide (0x1FFC0 + 63 ≤ a.size) && a.kind != 0 && a.pa 0x1FFC0 == pa) = true ∧
    s.lineWriteWaits ⟨5, 0x1FFC0, [1]⟩ = false ∧ s.dramHeld = false ∧ s.pathGood pa = true ∧ s.keyLoaded 0 = true ∧
    s.lineDead pa = false ∧ s.macGood pa = true ∧ s.majorFull pa = false ∧ s.wide ENC.minor (pa / 64) = 0 ∧
    (s.setWide DDR.pois (pa / 64) 1).lineDead pa = true ∧ (s.setWide ENC.minor (pa / 64) 127).wide ENC.minor (pa / 64) = 127 ∧
    (s.withBadNodes [(0, s.ctrNo pa)]).pathGood pa = false ∧
    (st [(DDR.SETUP.f 4, 1)] s).lineWriteWaits ⟨5, 0x1FFC0, [1]⟩ = true) := by decide +kernel

/-- Objects that accept a write and that refuse it. -/
theorem wit_objectWrites : ((alloc 0 3).alloc? 5).any (fun a => a.kind == 0 && !a.accepts 0 8) = true ∧
    ((alloc 0 1).alloc? 5).any (fun a => a.st == 1 && !a.allpois && a.marked.isEmpty) = true := by decide +kernel

/-- Channel 0 with one rank, its metadata region laid out. -/
def laidOut : State := st [(DDR.FITTED.f 0, 1), (DDR.UP.f 0, 1), (DDR.STAT_RANKS.f 0, 1), (DDR.USE.f 0, 1),
  (CAL.SYS_MD.f, 2112), (CAL.SYS_PAGES.f, 2150), (ENC.LEVELS.f, 4), (CAL.READY.f, 1)] on

/-- The region has the size and the levels of R283 and R282; a failed node of level 1, its subtree outside its own
pages. -/
theorem wit_rebuild : laidOut.rd CAL.SYS_MD.f = (laidOut.pagesInUse * 33 + 255) / 256 ∧
    laidOut.rd ENC.LEVELS.f = treeLevels 16 (16 * laidOut.protPages) ∧
    (let s := laidOut.withBadNodes [(1, 1500)]
     s.badNodes = (1, 1500) :: [] ∧ s.memServes = true ∧ s.rd ENC.MAJ_TOP.f + 1 < 2 ^ 64 ∧
     ∀ c ∈ s.subtree (1, 1500) 0, s.ctrPage c < 2 ^ 32 ∧
      ∀ k ≤ 1, ∀ i ∈ s.subtree (1, 1500) k, s.metaPa (k, i) < 2 ^ 44 ∧ s.metaPa (k, i) / 4096 ≠ s.ctrPage c) := by
  decide +kernel

/-! Chapters 11 and 12. -/

/-- The converters: idle, running, in an urgent request, calibrating; their outputs; the stream pointer. -/
theorem wit_converters : on.openTo 12 .adc = true ∧ on.gated .adc = false ∧ on.bit CLK.LK.f 0 = true ∧ on.flag (ADC.RUN.f 15) = false ∧ on.flag (ADC.CAL_BUSY.f 15) = false ∧
    on.flag (ADC.URG_BUSY.f 15) = false ∧ on.flag (ADC.REF_RDY.f 3) = false ∧ on.flag (ADC.HOLD.f 15) = false ∧
    on.flag (ADC.STREAM.f 15) = false ∧ (on.adcQ 15).length < 1024 ∧
    (let s := st [(ADC.RUN.f 15, 1), (ADC.LEFT.f 15, 1), (ADC.CTRL_LEN.f 15, 63), (ADC.POS_ENTRY.f 15, 62)] on
     s.flag (ADC.RUN.f 15) = true ∧ s.rd (ADC.LEFT.f 15) ≤ 1 ∧ s.rd (ADC.POS_ENTRY.f 15) < s.rd (ADC.CTRL_LEN.f 15) ∧
     s.rd (ADC.CTRL_LEN.f 15) < 64 ∧ bits (s.rd (ADC.CUR.f 15)) 12 4 = 0 ∧
     (st [(ADC.LEFT.f 15, 2)] s).rd (ADC.LEFT.f 15) = 2 ∧
     (st [(ADC.POS_ENTRY.f 15, 63)] s).rd (ADC.POS_ENTRY.f 15) = s.rd (ADC.CTRL_LEN.f 15)) ∧
    (let s := st [(ADC.URG_BUSY.f 15, 1), (ADC.URG_LEFT.f 15, 1), (ADC.URG_CUR.f 15, 0xF000)] on
     s.flag (ADC.URG_BUSY.f 15) = true ∧ s.rd (ADC.URG_LEFT.f 15) ≤ 1 ∧
     bits (s.rd (ADC.URG_CUR.f 15)) 12 4 = 15 ∧ (st [(ADC.URG_LEFT.f 15, 2)] s).rd (ADC.URG_LEFT.f 15) = 2 ∧
     (st [(ADC.START_HELD.f 15, 1)] s).flag (ADC.START_HELD.f 15) = true) ∧
    (st [(ADC.CAL_BUSY.f 15, 1)] on).flag (ADC.CAL_BUSY.f 15) = true ∧ (st [(ADC.REF_EN.f 3, 1)] on).flag (ADC.REF_EN.f 3) = true ∧
    (st [(ADC.REF_RDY.f 3, 1)] on).flag (ADC.REF_RDY.f 3) = true := by
  decide +kernel

/-- The first sample of an entry with WMX waits for MX_BUSY. -/
theorem wit_waits : (let s := st [(ADC.RUN.f 15, 1), (ADC.CUR.f 15, 2 ^ 19 + 3), (ADC.LEFT.f 15, 4), (VLV.MX_BUSY.f 3, 1)] on
    s.flag (ADC.RUN.f 15) = true ∧ bitOf (s.rd (ADC.CUR.f 15)) 19 = true ∧
    s.rd (ADC.LEFT.f 15) = s.rd (ADC.CUR.f 15) % 4096 + 1 ∧ s.flag (VLV.MX_BUSY.f (15 / 4)) = true ∧
    s.bit (ADC.CHG.f 15) 0 = false ∧ (st [(ADC.CHG.f 15, 3)] s).bit (ADC.CHG.f 15) 1 = true) := by decide +kernel

/-- Factors at the ends of their ranges, and one beyond. -/
theorem wit_factors : (0x400 : BitVec 16).toInt = 1024 ∧ (0xFC00 : BitVec 16).toInt = -1024 ∧ (0x401 : BitVec 16).toInt = 1025 ∧
    (0x7999 : BitVec 16).toNat = 0x7999 ∧ (0x8666 : BitVec 16).toNat = 0x8666 := by decide +kernel

/-- MFP 7, released and clocked, with a core and the words of the bundle at its PC. -/
def mfp7 (c : MfpCore) (w0 w1 : Nat) (s : State := on) : State :=
  (((st [(CLK.LK_MFP.f, 128)] s).setCore 7 { c with released := true }).setBytes (mfpKey 7 (0x01000000 + c.pc)) 4 w0).setBytes
    (mfpKey 7 (0x01000000 + c.pc) + 4) 4 w1

def ok : BundleEcc := ⟨.clean, .clean⟩

/-- A word of each instruction that may stand in slot 0, with rd and ra 30 where it names registers. -/
def words0 : List Nat :=
  [0] ++ [1, 2, 3, 4, 5, 6, 7, 8, 9, 10, 11, 12, 13, 14, 15, 16, 17, 18, 19, 20, 21].map (fun k => k * 2 ^ 25 + 30 * 2 ^ 19 +
    30 * 2 ^ 14) ++ [0x2C000000 + 30 * 2 ^ 19, 0x2E000000 + 30 * 2 ^ 19, 0x30000000 + 30 * 2 ^ 19] ++
    [0x70000000, 0x72000000, 0x74000000, 0x76000000, 0x78007FFF, 0x79000000, 0x7A000000, 0x7C001FFF, 0x7E000000,
      0x7E000001, 0x7E000002, 0x7E000003, 0x7E000205, 0x7E000206]

/-- Each of them issues from slot 0; TRAP raises its exception instead. -/
theorem wit_slot0 : (∀ w ∈ words0, ((mfp7 {} w 0).core 7).slot = 0 ∧ (mfp7 {} w 0).slotWord 7 0 % 2 ^ 31 = w ∧
      ((mfp7 {} w 0).mfpBoundary 7 ok).2 = true) ∧
    words0.map mfpKind = List.range 25 ++ [0x38, 0x39, 0x3A, 0x3B, 0x3C, 0x400, 0x3D, 0x3E, 0x200, 0x201, 0x202, 0x203,
      0x205, 0x206] ∧
    mfpKind 0x7E000004 = 0x204 := by decide +kernel

/-- The instructions of slot 1, and where each issues: an address in DMEM, IMEM, SHM or an aperture. -/
theorem wit_slot1 : (∀ k ∈ [0x20, 0x21, 0x22, 0x23, 0x24, 0x25, 0x26, 0x27, 0x28, 0x29, 0x2A, 0x2B, 0x2C, 0x2D, 0x30, 0x31, 0x32,
      0x33, 0x34], ∀ a ∈ [0x0207FFF8, 0x0103FFF8, 0x043FFFF8, 0x80000000],
      let w := k * 2 ^ 25 + 30 * 2 ^ 19 + 2 ^ 14
      let s := mfp7 { slot := 1, x := SMap.set [] 1 a 0 } 0 w
      (s.core 7).slot = 1 ∧ s.slotWord 7 1 = w ∧ mfpKind w = k ∧ s.bit CLK.LK_MFP.f 7 = true ∧
      (s.core 7).stepping = false ∧ (s.core 7).memAddr w = a) := by decide +kernel

theorem wit_regions : inDmem 0x0207FFF8 = true ∧ inImem 0x0103FFF8 = true ∧ inShm 0x043FFFF8 = true ∧ inAperture 0x80000000 = true ∧
    isLocal 0x043FFFF8 = false ∧ isLocal 0x80000000 = false ∧ 0x0207FFF8 % 8 = 0 := by decide +kernel

/-- A bundle at LE of an active loop, in its last pass and before it; and one with a target. -/
theorem wit_ends : (let c : MfpCore := { pc := 8, le := 8, ls := 0, lc := 2, stat := 24, rb := 0 }
    c.srNext = [] ∧ c.target = none ∧ c.la = true ∧ c.pc = c.le ∧ c.looped = false ∧ 1 < c.lc ∧
    { c with lc := 1 }.lc ≤ 1 ∧ { c with stat := 0 }.la = false ∧ { c with target := some 16 }.target = some 16) ∧
    srnValid 23 = true ∧ srnValid 11 = true := by decide +kernel

/-- Two results in flight for register 31, of which the later stands. -/
theorem wit_flight : (let p : MfpResult := { left := 1, reg := 31, val := 3 }
    let q : MfpResult := { left := 2, reg := 31, val := 4 }
    let c : MfpCore := { flight := [p, q] }
    c.flight = [] ++ p :: [q] ∧ p.left ≤ 1 ∧ p.reg ≠ 0 ∧ (∀ r ∈ [q], r.left ≤ 1 → r.reg ≠ p.reg) ∧
    ∀ r ∈ c.flight, r.left ≤ 1 → r.reg ≠ 30) := by decide +kernel

theorem wit_atBoundary : ∀ stat : Fin 32, AtBoundary (mfp7 { stat := stat } 0x7E000004 0) 7 := fun stat =>
  ⟨by revert stat; decide +kernel, by revert stat; decide +kernel, by revert stat; decide +kernel, by revert stat; decide +kernel,
    by revert stat; decide +kernel, by revert stat; decide +kernel, by revert stat; decide +kernel, by revert stat; decide +kernel,
    by revert stat; decide +kernel⟩

/-- TRAP, an imprecise exception, an interrupt, and the NMI. -/
theorem wit_exceptions : (let s := mfp7 {} 0x7E000004 0
    (s.core 7).exl = false ∧ mfpKind (s.slotWord 7 0 % 2 ^ 31) = 0x204 ∧ s.preciseCause 7 ok = some (11, none) ∧
    ((mfp7 { stat := 2 } 0x7E000004 0).core 7).exl = true) ∧
    (let i : Imprecise := { cause := 9, addr := 0x80000000, st := true }
     let s := mfp7 { imprecise := [i] } 0 0
     s.preciseCause 7 ok = none ∧ (s.core 7).imprecise = i :: [] ∧ (s.core 7).lastNi = false) ∧
    (let s := st [(MFP.IE.f 7, 4), (MFP.TMR_CAP.f 7, 1)] (mfp7 { stat := 1 } 0 0)
     s.preciseCause 7 ok = none ∧ (s.core 7).imprecise = [] ∧ s.irqDue 7 = true ∧ s.mfpIrq 7 = 4 ∧
     (mfp7 {} 0 0).mfpIrq 7 = 0 ∧ (s.core 7).ie = true) ∧
    (let s := mfp7 { nmi := true } 0 0
     (s.core 7).released = true ∧ s.flag (DBG.HALTED.f 7) = false ∧ (s.core 7).haltDue = false ∧ s.nmiDue 7 = true) ∧
    ((mfp7 { waiting := true, nmi := true, res := some 5 } 0 0).core 7).waiting = true ∧
    ((mfp7 { res := some 5 } 0 0).core 7).res.isSome = true := by decide +kernel

/-- A remote access of each kind at the last word of SHM, and through a window that maps nothing. -/
theorem wit_remote : (∀ kind ∈ [RemoteKind.load true, .ll, .sc, .store], ∀ win ∈ [true, false],
      let r : Remote := { kind := kind, addr := if win then 0x80000000 else 0x043FFFFC, size := 4, data := 5, dest := [31], win := none, res := some (shmKey 0x3FFFFC / 64) }
      let q : Remote := { r with addr := 0xF0000000 }
      let s := mfp7 { remotes := [q, r], res := some (shmKey 0x3FFFFC / 64) } 0 0
      s.remoteTurn 7 1 = some r ∧ s.remoteTurn 7 2 = none ∧ s.ratioBad = false ∧ r.addr % r.size = 0 ∧
      (win = true → inAperture r.addr = true ∧ r.win = none) ∧ (win = false → inShm r.addr = true) ∧
      r.res = some (shmKey (r.addr - 0x04000000) / 64) ∨ win = true) := by decide +kernel

theorem wit_mfpRows : on.hasMfp 7 = true ∧ { on with opt := .b }.hasMfp 7 = false ∧
    (st [(MFP.WDT_CTRL_LOCK.f 7, 1)] on).flag (MFP.WDT_CTRL_LOCK.f 7) = true ∧ on.flag (MFP.WDT_CTRL_LOCK.f 7) = false ∧
    ({ on with opt := .b }.hasMfp 7 = false ∧ bitOf (128 : BitVec 8).toNat 7 = true) ∧ on.alloc? 5 = none ∧
    (st [(MFP.WDT_CTRL_EN.f 7, 1)] (mfp7 {} 0 0)).wdtCounts 7 = true ∧ on.wdtCounts 7 = false ∧
    (st [(MFP.TMR_LOAD.f 7, 2 ^ 32 - 1), (MFP.TMR_CAP.f 7, 1)] on).rd (MFP.TMR_LOAD.f 7) = 2 ^ 32 - 1 ∧
    (st [(MFP.TMR_CAP.f 7, 1)] on).flag (MFP.TMR_CAP.f 7) = true ∧ on.rd (MFP.TMR_MISS.f 7) + 1 < 2 ^ 32 ∧
    ((alloc 5 3).alloc? 5).any (fun a => a.st != 5 && a.st != 6) = true := by decide +kernel

/-! Chapters 13 and 14. -/

/-- A bay that may open, one that may not, and the rings that each wants. -/
theorem wit_bays : on.openTo 12 .cnv = true ∧ on.rd (CNV.BAY_STAT_BSTATE.f 15) ≠ 1 ∧
    (st [(CNV.BAY_STAT_BSTATE.f 15, 1), (CNV.HOLD.f 15, 0)] on).rd (CNV.BAY_STAT_BSTATE.f 15) = 1 ∧
    (st [(CNV.BAY_STAT_BSTATE.f 15, 1), (CNV.HOLD.f 15, 0)] on).flag (CNV.HOLD.f 15) = false ∧
    (st [(CNV.BAY_STAT_BSTATE.f 15, 1), (CNV.HOLD.f 15, 0)] on).flag (CNV.RST.f 15) = false := by decide +kernel

/-- Channel 127 owned by sequencer 15 in a state, by column 1, which its table feeds from the injection port. -/
def owned (code : Nat) : State :=
  tb TWL.src 15 [(1, 2)] (st [(TWL.OWNER.f 127, 16), (TWL.OWN_COL.f 127, 1), (TWL.STATE_STATE.f 15, code),
    (CNV.INJ_ACT.f 127, 16)] on)

theorem wit_ports : (owned 2).ownerOf 127 = some 15 ∧ (owned 2).rd (TWL.STATE_STATE.f 15) ≠ 0 ∧
    (owned 0).rd (TWL.STATE_STATE.f 15) = 0 ∧ on.ownerOf 127 = none ∧ (owned 2).rd (CNV.INJ_ACT.f 127) < 17 ∧
    (owned 2).tab TWL.src 15 ((owned 2).rd (TWL.OWN_COL.f 127)) % 4 = 2 ∧ ((owned 2).inj.get 127 []).length ≤ 64 ∧
    17 ≤ (st [(CNV.INJ_ACT.f 127, 17)] on).rd (CNV.INJ_ACT.f 127) := by decide +kernel

/-- A golden copy of a region that can be read and written. -/
def golden (r : Nat) (s : State := on) : State :=
  let s := st [(if r < 16 then CNV.BAY_GOLD.f r else CNV.STATIC_GOLD.f, 5)] (dram s)
  let a : Alloc := { kind := 6, size := 2 ^ 24, key := 0, st := 3, root := 1, tables := tablesOf 0 [2] ((List.range 256).map (· + 9)) }
  ((s.withDir (s.dir.put 5 a)).allocWrite a (goldOffset 0 0) (List.replicate 384 7)).allocWrite a
    (if r < 16 then 6912000 else 12288000) [0]

/-- The last frame of bay 15 and of the static region, a frame of type 1, a frame that does not exist; and the
scrubber. -/
theorem wit_scrub : frameOf (15 * 2 ^ 27 + 12623) = some (15, 12623) ∧ frameOf (16 * 2 ^ 27 + 2 * 2 ^ 24 + 511) = some (16, 31999) ∧
    frameOf (2 ^ 24) = some (0, 12624) ∧ bits (2 ^ 24) 24 3 = 1 ∧ frameOf (15 * 2 ^ 27 + 12624) = none ∧
    (let s := st [(CNV.SCRUB_EN.f, 1), (CNV.BAY_STAT_BSTATE.f 15, 1)] (golden 15)
     s.flag CNV.SCRUB_EN.f = true ∧ s.gated .cnv = false ∧ s.rd (CNV.BAY_STAT_BSTATE.f 15) = 1 ∧
     (s.goldRead 15 (s.halfOf 15) 0).isSome = true ∧ s.goldRead 16 (s.halfOf 16) 31999 = none) ∧
    on.flag CNV.SCRUB_EN.f = false := by decide +kernel

/-- A frame that the scrubber has reached, with another behind it and with none; and one that must wait. -/
theorem wit_scrubOrder : (∀ x ∈ [(16, 0), (15, 12623)],
      let s := st [(CNV.SCRUB_EN.f, 1), (CNV.BAY_STAT_BSTATE.f 15, 1), (CNV.SCRUB_POS.f, scrubPlace x.1 x.2)] (golden 16)
      s.gated .cnv = false ∧ s.dynamicBit x.1 x.2 = false ∧ s.rd CNV.SCRUB_POS.f = scrubPlace x.1 x.2 ∧
      s.scrubWaits x.1 x.2 .multi = false ∧ (st [(CLK.FALLBACK.f, 1)] s).scrubWaits x.1 x.2 .multi = true ∧
      (s.goldRead x.1 0 x.2).isSome = (x.1 == 16) ∧
      (x.1 = 16 → scrubPlace 16 0 < 1 ∧ s.scrubReads (scrubAt 1).1 (scrubAt 1).2 = true)) ∧
    ∀ q, scrubPlace 15 12623 < q → q < 544000 → ∀ s : State, s.scrubReads (scrubAt q).1 (scrubAt q).2 = false := by
  refine ⟨by decide +kernel, ?_⟩
  intro q h1 h2 s
  have e : scrubPlace 15 12623 = 524623 := by decide
  have e1 : (scrubAt q).1 = 15 := by simp only [scrubAt]; rw [if_neg (by omega)]; omega
  have e2 : (scrubAt q).2 = q % 32000 := rfl
  rw [e1, e2]
  simp only [State.scrubReads, regionTotal, regionFrames]
  by_cases h : q % 32000 < 18000
  · have h3 : 12624 ≤ q % 32000 := by omega
    simp [h, h3]
  · simp [h]

/-- A load of bay 15 in the header, in the frames, in tag mode or not, and decided. -/
def loading (pos w1 out bad bstate : Nat) (s : State := golden 15) : State :=
  tb CNV.hdr 0 [(1, w1)] (st [(CNV.ICFP_BUSY.f, 1), (CNV.ICFP_REGION.f, 15), (CNV.ICFP_POS.f, pos), (CNV.ICFP_OUT.f, out),
    (CNV.ICFP_BAD.f, bad), (CNV.BAY_STAT_BSTATE.f 15, bstate)] s)

theorem wit_streams : (∀ pos ∈ [1, 62, 63, 64], ∀ w1 ∈ [1, 0x301], let s := loading pos w1 0 0 1
      s.flag CNV.ICFP_BUSY.f = true ∧ s.flag CNV.ICFP_WRITING.f = false ∧ s.rd CNV.ICFP_OUT.f = 0 ∧ s.rd CNV.ICFP_REGION.f = 15 ∧
      s.rd CNV.ICFP_POS.f = pos ∧ s.rd (CNV.BAY_STAT_BSTATE.f 15) ≠ 2 ∧ s.icfpTag = (w1 == 0x301) ∧ s.openTo 12 .cnv = true) ∧
    on.flag CNV.ICFP_BUSY.f = false ∧ (st [(CFG.BUSY.f, 0)] on).flag CFG.BUSY.f = false ∧ (15 : Word).toNat % 32 < 16 ∧ 16 ≤ (16 : Word).toNat % 32 := by
  decide +kernel

/-- A load of bay 15 past its header that has taken `n` words, with FLAGS of its header and words of its payload. -/
def taken (flags n : Nat) (pay : List (Nat × Nat)) (l : List (Fld × Nat) := []) (s : State := golden 15) : State :=
  tb CNV.pay 0 pay (tb CNV.hdr 0 [(1, flags), (5, 412)] (st ([(CNV.ICFP_BUSY.f, 1), (CNV.ICFP_REGION.f, 15),
    (CNV.ICFP_POS.f, 64), (CNV.ICFP_N.f, n)] ++ l) s))

/-- The head of a FRAMES record of one frame at the payload's beginning. -/
def frameHead (a : Nat) : List (Nat × Nat) := [(0, 2), (1, 392), (2, a), (3, 1)]

/-- The word that completes a frame of the bay or of another, the second and the fourth word of a record, and END's
CRC. -/
theorem wit_icfpMay : ∀ x ∈ [(0x300, 99, frameHead (15 * 2 ^ 27 + 9), 0), (0, 99, frameHead (15 * 2 ^ 27 + 9), 0),
      (0x300, 99, frameHead (14 * 2 ^ 27 + 9), 0), (0, 99, frameHead (14 * 2 ^ 27 + 9), 0), (0x200, 1, [(0, 2)], 0),
      (0, 1, [(0, 2)], 0), (0x200, 3, [(0, 2), (1, 392)], 0), (0, 3, [(0, 2), (1, 392)], 0), (0, 102, [(100, 15), (101, 4)], 100)],
    IcfpMay (taken x.1 x.2.1 x.2.2.1 [(CNV.ICFP_REC.f, x.2.2.2)]) 15 0 x.2.1 := by
  have h : ∀ x ∈ [(0x300, 99, frameHead (15 * 2 ^ 27 + 9), 0), (0, 99, frameHead (15 * 2 ^ 27 + 9), 0),
      (0x300, 99, frameHead (14 * 2 ^ 27 + 9), 0), (0, 99, frameHead (14 * 2 ^ 27 + 9), 0), (0x200, 1, [(0, 2)], 0),
      (0, 1, [(0, 2)], 0), (0x200, 3, [(0, 2), (1, 392)], 0), (0, 3, [(0, 2), (1, 392)], 0), (0, 102, [(100, 15), (101, 4)], 100)],
      let s := taken x.1 x.2.1 x.2.2.1 [(CNV.ICFP_REC.f, x.2.2.2)]
      s.flag CNV.ICFP_BUSY.f = true ∧ s.rd CNV.ICFP_REGION.f = 15 ∧ s.rd CNV.ICFP_POS.f = 64 ∧ s.icfpReady = true ∧
      s.rd CNV.ICFP_N.f = 16384 * 0 + x.2.1 ∧ x.2.1 < s.icfpSegWords 0 ∧ s.rd CNV.ICFP_END.f = 0 := by decide +kernel
  intro x hx
  obtain ⟨h1, h2, h3, h4, h5, h6, h7⟩ := h x hx
  exact ⟨h1, h2, h3, h4, h5, h6, h7⟩

/-- What those words complete: frames that the golden copy takes, or refuses where there is none; and malformed
records. -/
theorem wit_icfpRecords : (∀ flags ∈ [0x200, 0], ∀ r ∈ [15, 14],
      ((taken flags 99 (frameHead (r * 2 ^ 27 + 9))).icfpStored 0 99 5 |>.icfpFrameAt 100).any (fun x => x.1 == r * 2 ^ 27 + 9) = true) ∧
    frameOf (15 * 2 ^ 27 + 9) = some (15, 9) ∧ frameOf (14 * 2 ^ 27 + 9) = some (14, 9) ∧
    (∀ v, (((taken 0x200 99 (frameHead (15 * 2 ^ 27 + 9)) [] on).icfpStored 0 99 5).goldWrite 15 (1 - 0) 9 v).isSome = false) ∧
    (taken 0x200 99 (frameHead (15 * 2 ^ 27 + 9))).rd (CNV.BAY_STAT_BSTATE.f 15) ≠ 2 ∧
    (∀ flags ∈ [0x200, 0], (taken flags 1 [(0, 2)]).icfpTag = (flags == 0x200) ∧
      ((taken flags 1 [(0, 2)]).icfpStored 0 1 5).icfpHeadOk 0 = false ∧
      (let u := (taken flags 3 [(0, 2), (1, 392)]).icfpStored 0 3 2
       u.icfpPayload 0 ≠ 15 ∧ frameCountOk (u.icfpPayload 3) (u.icfpPayload 1) = false)) ∧
    ((taken 0 102 [(100, 15), (101, 4)] [(CNV.ICFP_REC.f, 100)]).icfpStored 0 102 5).icfpPayload 100 = 15 := by
  refine ⟨by decide +kernel, by decide +kernel, by decide +kernel, fun v => rfl, by decide +kernel, by decide +kernel, by decide +kernel⟩

/-- The last word of a segment's tag; the whole stream taken, its CRC fitting or not; its outcome to be written. -/
theorem wit_icfpSegments : (∀ flags ∈ [0x300, 0], let s := tb CNV.hdr 0 [(5, 70000)] (taken flags 16383 [])
      s.icfpReady = true ∧ s.icfpSegWords 0 + 3 < 16384 ∧ s.rd CNV.ICFP_N.f = 16384 * 0 + s.icfpSegWords 0 + 3 ∧
      s.rd CNV.ICFP_N.f + 1 < s.icfpTotal ∧ s.icfpTag = (flags == 0x300)) ∧
    (∀ e ∈ [1, 2], let s := taken 0 107 [] [(CNV.ICFP_END.f, e)]
      s.icfpEnded = true ∧ s.icfpTag = false ∧ s.icfpGood = (e == 1)) ∧
    (let s := taken 0x300 107 [] [(CNV.ICFP_END.f, 2)]
     s.icfpEnded = true ∧ s.icfpTag = true ∧ s.icfpGood = false ∧ s.stagedWait = false ∧
     (st [(CLK.FALLBACK.f, 1)] s).stagedWait = true) ∧
    (taken 0 106 []).icfpEnded = false := by decide +kernel

/-- Of two words that end a segment's tag at most one makes it verify, so one of the clauses on it applies with each. -/
theorem wit_segVerifies (s : State) (i : Nat) : s.segVerifies i = true ∨ s.segVerifies i = false := by
  cases s.segVerifies i <;> simp

/-- A header that fits; one that does not. -/
theorem wit_icfpHeader : (let h := fun (i : Nat) => [0x524E580F, 1, 0x4D4B9128, 1].getD i 0
      headerFits h = true ∧ keyUnwraps h = true) ∧ headerFits (fun _ => 0) = false ∧ on.flag CFG.FUSE_AUTH_ONLY.f = false := by
  decide +kernel

theorem wit_icfpFrames : frameOf (15 * 2 ^ 27) = some (15, 0) ∧ ((loading 64 0x301 0 0 1).goldWrite 15 1 0 5).isSome = true ∧
    ((loading 64 0x301 0 0 1).halfOf 15) = 0 ∧ frameOf (14 * 2 ^ 27) = some (14, 0) := by decide +kernel

theorem wit_icfpEnd : (loading 64 0x301 1 0 2).rd CNV.ICFP_OUT.f ≠ 0 ∧ (loading 64 0x301 1 0 2).icfpTag = true ∧
    ((loading 64 0x301 1 0 2).copyStaged 15 ((loading 64 0x301 1 0 2).listed CNV.staged 0)).isSome = true ∧
    ((tb CNV.staged 0 [(0, 1)] (st [(CNV.HALF.f 15, 1)] (loading 64 0x301 1 0 2))).copyStaged 15 [(0, 1)]).isSome = true ∧
    (loading 64 1 1 0 2).icfpTag = false ∧ (loading 64 1 2 0 2).rd CNV.ICFP_OUT.f = 2 ∧ (loading 64 1 1 5 2).rd CNV.ICFP_BAD.f ≠ 0 ∧
    (loading 64 1 1 5 2).rd (CNV.BAY_STAT_BSTATE.f 15) = 2 ∧
    (st [(CNV.ICFP_WRITING.f, 1)] (loading 64 0x301 1 0 2)).flag CNV.ICFP_WRITING.f = true := by decide +kernel

/-- An image is loaded: at a step, with a header. -/
def image (step pay : Nat) (h : List (Nat × Nat)) (s : State := on) : State :=
  tb CFG.hdr 0 ((5, pay) :: h) (st [(CFG.BUSY.f, 1), (CFG.STATE_STEP.f, step), (CFG.ORD.f 0, 2), (CFG.ORD.f 1, 0), (CFG.ORD.f 2, 3)] s)

theorem wit_coldStart : (st [(PWR.VAON.f, 1)] on).flag PWR.VAON.f = true ∧ (st [(PWR.VAON.f, 0)] on).flag PWR.VAON.f = false ∧
    on.tab LDG.sram 0 0 ≠ ledgerMagic ∧ (∀ b ∈ ([] : List LedgerBlock), blockVerifies b = false) := by decide +kernel

/-- A directory copy that is valid: slots 2 and 0 in this order. -/
def copy : List Word := [0x52445852, 7, 2 ^ 7 + 2, 10, 4, 20, 4, 30, 4, 40, 0, 0, 0, 0, 0, 257272912]

theorem wit_reads : (∀ k ∈ [2, 3, 4, 5], let s := image k 100 []
      s.dieOn = true ∧ s.flag CFG.BUSY.f = true ∧ s.rd PWR.STBY_HELD.f = 0 ∧ s.rd CFG.TRY.f < 3 ∧ s.rd CFG.STATE_STEP.f = k) ∧
    dirValid (wordOf copy) = true ∧ (dirChoose (wordOf copy) (wordOf [])).isSome = true ∧ (dirChoose (wordOf []) (wordOf [])).isNone = true := by decide +kernel

/-- A header that passes, and one that fails by MAGIC; a segment that is still to come. -/
theorem wit_header : (let s := tb CFG.dirw 0 [(8, 10)] (image 3 0 [])
    let l : List Word := [0x524E581F, 1, 0x4D4B9128, 1, 0, 400, 0xE4]
    s.headerFault (wordOf l) = none ∧ s.headerFault (wordOf []) = some 2) ∧
    (∀ w1 ∈ [1, 0x301], let s := image 4 65521 [(1, w1)]
      s.rd CFG.SEGS.f < segmentsOf s.payLen ∧ s.rd CFG.SEGS.f + 1 < 2 ^ 24 ∧ s.tagMode = (w1 == 0x301) ∧ s.payLen < 2 ^ 32) := by
  decide +kernel

/-- An image of one segment, which has arrived, whose payload spells these bytes at its beginning. -/
def spelt (l : List Nat) (fs : List (Fld × Nat)) (h : List (Nat × Nat) := []) : State :=
  (st ((CFG.SEGS.f, 1) :: fs) (image 4 4096 h)).keepPayload 0 l

theorem spelt_next (l : List Nat) (hl : ∀ b ∈ l, b < 256) (hn : l.length ≤ 4096) : (spelt l []).recordNext l = true := by
  have h1 : (st [(CFG.SEGS.f, 1)] (image 4 4096 [])).arrived = 4096 := by decide +kernel
  have h2 : (st [(CFG.SEGS.f, 1)] (image 4 4096 [])).rd PWR.EN_MAIN.f = 1 := by decide +kernel
  have h3 : (st [(CFG.SEGS.f, 1)] (image 4 4096 [])).rd CFG.STATE_STEP.f = 4 := by decide +kernel
  have h4 : (st [(CFG.SEGS.f, 1)] (image 4 4096 [])).rd CFG.POS.f = 0 := by decide +kernel
  simp only [spelt, State.recordNext, State.dieOn, State.flag, State.rd_keepPayload, h2, h3, h4,
    State.paySpells_keepPayload _ hl (by rw [h1]; exact hn)]
  rfl

/-- Two words to write, the second to an address that no image may write; the records of pairs, frames and data. -/
def pairsOf (a : Nat) : List (Word × Word) := [(0x10000004, 5), (BitVec.ofNat 32 a, 7)]
def writeBody (a : Nat) : List Nat := wordsBytes ((pairsOf a).flatMap fun x => [x.1, x.2])
def framesBody (a : Nat) (fs : List (BitVec 3072)) : List Nat :=
  natBytes a 4 ++ natBytes fs.length 4 ++ fs.flatMap fun d => natBytes d.toNat 384
def dataBody (m off : Nat) (d : List Word) : List Nat := natBytes m 4 ++ wordsBytes (BitVec.ofNat 32 off :: d)

theorem wit_writeRecords : (∀ a ∈ [0x2A000000, 0x3C000000], (spelt (recordHead 1 16 ++ writeBody a) []).recordNext (recordHead 1 16 ++ writeBody a) = true ∧
      (writeBody a).length = 16) ∧
    ((pairsOf 0x2A000000).all fun x => pairAddrOk x.1.toNat) = true ∧ pairAddrOk (0x3C000000 : Word).toNat = false ∧
    (spelt [] [(CFG.PAIRS.f, 8190)]).rd CFG.PAIRS.f + 2 ≤ 8192 ∧ 8192 < (spelt [] [(CFG.PAIRS.f, 8191)]).rd CFG.PAIRS.f + 2 ∧
    (spelt [] []).recordNext (recordHead 1 16 ++ writeBody 0x2A000000) = false ∧
    (spelt [9, 0, 0, 0, 1] []).recordBad = true ∧ (spelt (recordHead 1 16) []).recordBad = false := by
  refine ⟨fun a ha => ?_, by decide +kernel, by decide +kernel, by decide +kernel, by decide +kernel, by decide +kernel,
    by decide +kernel, by decide +kernel⟩
  have h : ∀ a ∈ [0x2A000000, 0x3C000000], (∀ b ∈ recordHead 1 16 ++ writeBody a, b < 256) ∧
      (recordHead 1 16 ++ writeBody a).length ≤ 4096 ∧ (writeBody a).length = 16 := by decide +kernel
  exact ⟨spelt_next _ (h a ha).1 (h a ha).2.1, (h a ha).2.2⟩

/-- The last two frames of bay 15, which were not seen before; one beyond them; and none. -/
theorem wit_frameRecords : (∀ fs ∈ [[77, 78], ([] : List (BitVec 3072))], ∀ ix ∈ [12622, 12623],
      let l := recordHead 2 (framesBody (15 * 2 ^ 27 + ix) fs).length ++ framesBody (15 * 2 ^ 27 + ix) fs
      (spelt l []).recordNext l = true) ∧
    bits (15 * 2 ^ 27 + 12622) 0 24 + 2 ≤ 2 ^ 24 ∧ frameOf (15 * 2 ^ 27 + 12622) = some (15, 12622) ∧
    frameOf (15 * 2 ^ 27 + 12622 + (2 - 1)) = some (15, 12622 + (2 - 1)) ∧
    (∀ i, i < 2 → (spelt [] []).tab CFG.seen 15 (12622 + i) = 0) ∧ frameOf (15 * 2 ^ 27 + 12624) = none ∧
    (tb CFG.seen 15 [(12622, 1)] (spelt [] [])).tab CFG.seen 15 12622 ≠ 0 := by
  refine ⟨fun fs hf ix hi => ?_, by decide +kernel, by decide +kernel, by decide +kernel, by decide +kernel, by decide +kernel,
    by decide +kernel⟩
  have h : ∀ fs ∈ [[77, 78], ([] : List (BitVec 3072))], ∀ ix ∈ [12622, 12623],
      let l := recordHead 2 (framesBody (15 * 2 ^ 27 + ix) fs).length ++ framesBody (15 * 2 ^ 27 + ix) fs
      (∀ b ∈ l, b < 256) ∧ l.length ≤ 4096 := by decide +kernel
  exact spelt_next _ (h fs hf ix hi).1 (h fs hf ix hi).2

/-- IMEM and DMEM records that fit at the end, that do not, and that are not aligned. -/
theorem wit_dataRecords : (∀ x ∈ [(3, 0x3FFF8, 0x40000), (3, 4, 0), (4, 0x7FFF8, 0x80000), (4, 0x7FFFC, 0)],
      let l := recordHead x.1 16 ++ dataBody 7 x.2.1 [1, 2]
      (spelt l []).recordNext l = true ∧ (x.2.2 ≠ 0 → x.2.1 % 8 = 0 ∧ x.2.1 + 4 * 2 = x.2.2) ∧
      (x.2.2 = 0 → x.2.1 % 8 ≠ 0 ∧ (x.1 = 4 → 0x80000 < x.2.1 + 4 * 2))) ∧
    on.hasMfp 7 = true ∧ { on with opt := .b }.hasMfp 7 = false := by
  refine ⟨fun x hx => ?_, by decide +kernel, by decide +kernel⟩
  have h : ∀ x ∈ [(3, 0x3FFF8, 0x40000), (3, 4, 0), (4, 0x7FFF8, 0x80000), (4, 0x7FFFC, 0)],
      let l := recordHead x.1 16 ++ dataBody 7 x.2.1 [1, 2]
      (∀ b ∈ l, b < 256) ∧ l.length ≤ 4096 ∧ (x.2.2 ≠ 0 → x.2.1 % 8 = 0 ∧ x.2.1 + 4 * 2 = x.2.2) ∧
      (x.2.2 = 0 → x.2.1 % 8 ≠ 0 ∧ (x.1 = 4 → 0x80000 < x.2.1 + 4 * 2)) := by decide +kernel
  exact ⟨spelt_next _ (h x hx).1 (h x hx).2.1, (h x hx).2.2.1, (h x hx).2.2.2⟩

/-- END as the last record, or not; the CRC that fits and one that does not. -/
def endCrc (s : State) : Nat := crcFeed (s.rd CFG.CRC.f) (recordHead 0x0F 4) ^^^ 0xFFFFFFFF

def ending (crc len : Nat) (h : List (Nat × Nat)) (fs : List (Fld × Nat) := []) : State :=
  (st ((CFG.SEGS.f, 1) :: fs) (image 4 len h)).keepPayload 0 (recordHead 0x0F 4 ++ natBytes crc 4)

theorem wit_ends14 : (∀ crc ∈ [endCrc (ending 0 12 []), 5], ∀ len ∈ [12, 16], let s := ending crc len []
      s.recordNext (recordHead 0x0F 4 ++ natBytes crc 4) = true ∧ s.tagMode = false ∧ s.ratioBad = false ∧
      s.complete = false ∧ (s.rd CFG.POS.f + 12 = s.payLen ↔ len = 12) ∧ s.rd CFG.PAIRS.f = 0 ∧
      (crc = 5 → crc ≠ endCrc s)) ∧
    (let s := ending 5 12 [(1, 0x301)]
     s.recordNext (recordHead 0x0F 4 ++ natBytes 5 4) = true ∧ s.tagMode = true ∧ segmentsOf s.payLen ≤ s.rd CFG.SEGS.f) ∧
    (ending 5 12 []).recordNext (recordHead 0x0F 4 ++ natBytes 6 4) = false := by decide +kernel

/-- The staged pairs of the image end well, or one of them with a bus error. -/
theorem wit_lastPairs : (∀ a ∈ [0x10000004, 0x50000000],
      let u := tb CFG.staged 0 [(0, a), (1, 5)] (st [(CFG.PAIRS.f, 1), (CFG.STATE_STEP.f, 6)] on)
      (u.applyPairs 0 1).1.ratioBad = false ∧ (u.applyPairs 0 1).2 = (a == 0x10000004) ∧
      (u.applyPairs 0 1).1.rd PWR.STBY_HELD.f = 0) := by decide +kernel

/-- With each segment there are words whose tag does not verify: of two that differ in the tag alone, one. -/
theorem wit_segmentTag : ∃ ws ∈ [List.replicate 29 (5 : Word), List.replicate 28 5 ++ [6]],
    let s := image 4 100 [(1, 0x301)]
    let n := segBytes s.payLen 0
    let l := leBytes (ws.map BitVec.toNat)
    s.rd CFG.SEGS.f < segmentsOf s.payLen ∧ s.tagMode = true ∧ n ≤ 4 * ws.length ∧
      ofBe ((List.range 16).map fun j => l.getD (n + j) 0) ≠ segTag s.imageHdr 0 (s.rd CFG.SEG_TAG.f) (l.take n) := by
  have e : segBytes (image 4 100 [(1, 0x301)]).payLen 0 = 100 := by decide +kernel
  have h1 : (image 4 100 [(1, 0x301)]).rd CFG.SEGS.f < segmentsOf (image 4 100 [(1, 0x301)]).payLen ∧
      (image 4 100 [(1, 0x301)]).tagMode = true := by decide +kernel
  have h2 : (leBytes ((List.replicate 29 (5 : Word)).map BitVec.toNat)).take 100 =
      (leBytes ((List.replicate 28 (5 : Word) ++ [6]).map BitVec.toNat)).take 100 := by decide +kernel
  have h3 : ofBe ((List.range 16).map fun j => (leBytes ((List.replicate 29 (5 : Word)).map BitVec.toNat)).getD (100 + j) 0) ≠
      ofBe ((List.range 16).map fun j => (leBytes ((List.replicate 28 (5 : Word) ++ [6]).map BitVec.toNat)).getD (100 + j) 0) := by
    decide +kernel
  dsimp only
  rw [e]
  by_cases h : ofBe ((List.range 16).map fun j => (leBytes ((List.replicate 29 (5 : Word)).map BitVec.toNat)).getD (100 + j) 0) =
      segTag (image 4 100 [(1, 0x301)]).imageHdr 0 ((image 4 100 [(1, 0x301)]).rd CFG.SEG_TAG.f)
        ((leBytes ((List.replicate 29 (5 : Word)).map BitVec.toNat)).take 100)
  · refine ⟨_, List.mem_cons_of_mem _ List.mem_cons_self, h1.1, h1.2, by decide, fun h4 => h3 ?_⟩
    rw [h, h2]; exact h4.symm
  · exact ⟨_, List.mem_cons_self, h1.1, h1.2, by decide, h⟩

/-- The listed frames of the static region have been written, and no others. -/
def written (l : List Nat) (s : State) : State := s.withTabs (l.map (fun f => (CFG.seen.key 16 f, 1)) ++ s.tabs)

/-- A wake whose resume copy can be read, and one in which it is poisoned; a start that keeps and one that empties
DRAM. -/
def waking (s : State := on) : State :=
  let s := dram (st [(CFG.STATE_STEP.f, 6), (CFG.STATE_START.f, 2), (CAL.KEEP.f, 1)] s)
  let a : Alloc := { kind := 7, size := 512, key := 0, st := 3, root := 1, tables := tablesOf 0 [2] [9] }
  (s.withDir (s.dir.put resumeId a)).allocWrite a 0 (List.replicate 512 0)

theorem wit_system : (let s := waking
    s.dieOn = true ∧ s.rd CFG.STATE_STEP.f = 6 ∧ s.flag CAL.READY.f = false ∧ s.ratioBad = false ∧ s.rd CFG.STATE_START.f = 2 ∧
    s.flag CAL.KEEP.f = true ∧ (s.alloc? resumeId).any (fun a => !s.allocPoison a 0 a.size && s.allocRead a 256 4 == 0) = true ∧
    (let u := s.setWide DDR.pois ((9 * 65536) / 64) 1
     (u.alloc? resumeId).any (fun a => u.allocPoison a 0 a.size) = true) ∧
    (st [(CFG.STATE_START.f, 1)] s).rd CFG.STATE_START.f ≠ 2 ∧ on.flag CAL.KEEP.f = false) := by decide +kernel

theorem wit_golden : (let s := image 7 0 []
    s.dieOn = true ∧ s.rd CFG.STATE_STEP.f = 7 ∧ s.flag CFG.BUSY.f = true ∧ s.rd PWR.STBY_HELD.f = 0 ∧
    ((s.dropGold.newGolds (16 :: List.range 16)).bind State.newResume).isNone = true) := by decide +kernel

/-- The order with a phase next: its codes, whether DONE reads high, the locks, and the time since the phase before. -/
def ordering (n : Nat) (l : List (Fld × Nat)) (h6 : Nat := 0x000100E4) : State :=
  tb CFG.hdr 0 [(6, h6), (7, 99), (1, 0x400)]
    (st ([(CFG.BUSY.f, 1), (CFG.STATE_STEP.f, 9), (CFG.PHASE.f, n), (CFG.MASTER.f, 1)] ++ l) on)

theorem wit_order : (∀ n : Fin 5, ∀ done : Fin 2, let s := ordering n [(CFG.DONE_IN.f, done), (CLK.LK.f, 0)]
      s.inOrder = true ∧ s.rd PWR.STBY_HELD.f = 0 ∧ s.time + 2 ^ 20 < 2 ^ 64 ∧ s.rd CFG.PHASE.f = n ∧
      s.phases.getD n 0 = n % 4 ∧ s.rd CFG.PHASE_AT.f ≤ s.time ∧ s.refIslandsLocked = false ∧
      s.flag CFG.DONE_IN.f = (done == 1) ∧ s.flag CFG.DONE_SEEN.f = false ∧ s.flag CFG.PAIR_ERR.f = false) ∧
    (let s := ordering 0 [(CLK.LK.f, 2 ^ 32 - 1), (CLK.LK_FAB.f, 15)]
     s.phases.getD 0 0 = 0 ∧ s.refIslandsLocked = true) ∧
    (∀ w ∈ [0, 5], (ordering 3 [(CFG.DONE_SEEN.f, 1)] (0x000100E4 + w * 256)).stepWait = w) ∧
    (ordering 3 [(CFG.PHASE_AT.f, 7)]).time < (ordering 3 [(CFG.PHASE_AT.f, 7)]).rd CFG.PHASE_AT.f ∧
    (let s := ordering 0 [(CLK.LK.f, 0)]
     s.time < s.rd CFG.PHASE_AT.f + 1000000 * s.lockLimit ∧
     s.rd CFG.PHASE_AT.f + 1000000 * s.lockLimit ≤ { s with time := 1000000 }.time) ∧
    on.flag CFG.DONE_DRV.f = true ∧ (st [(CFG.DONE_DRV.f, 0)] on).flag CFG.DONE_DRV.f = false ∧ on.openTo 12 .cfg = true ∧
    on.flag CFG.BUSY.f = true ∧ (st [(CFG.BUSY.f, 0)] on).flag CFG.BUSY.f = false ∧ on.flag BST.HOLD.f = false ∧
    on.dramHeld = false := by decide +kernel

theorem written_listed (l : List Nat) (hl : ∀ f ∈ l, f < 32000) (s : State) (r : Nat) :
    (written l s).listed CFG.seen r = (if r = 16 then l.map fun f => (f, 1) else []) ++ s.listed CFG.seen r := by
  show List.filterMap _ (_ ++ _) = _
  rw [List.filterMap_append]
  congr 1
  induction l with
  | nil => by_cases h : r = 16 <;> simp only [h, if_true, if_false] <;> rfl
  | cons f l ih =>
    have hf := hl f List.mem_cons_self
    have k1 : CFG.seen.key 16 f / 2 ^ 32 = CFG.seen.id * 2 ^ 16 + 16 := by simp only [Tab.key, CFG.seen]; omega
    have k2 : CFG.seen.key 16 f % 2 ^ 32 = f := by simp only [Tab.key, CFG.seen]; omega
    rw [List.map_cons, List.filterMap_cons, ih fun x hx => hl x (List.mem_cons_of_mem _ hx)]
    dsimp only
    rw [k1, k2]
    by_cases h : r = 16
    · subst h; simp
    · rw [if_neg (by omega)]; simp [h]

/-- With every frame of the static region and none of a bay, the image is complete. -/
theorem wit_whole : (written (List.range 32000) (image 4 12 [(1, 1)])).complete = true := by
  have h16 : (image 4 12 [(1, 1)]).listed CFG.seen 16 = [] := by decide +kernel
  have hb : ∀ b ∈ List.range 16, (image 4 12 [(1, 1)]).listed CFG.seen b = [] := by decide +kernel
  have hl : ∀ f ∈ List.range 32000, f < 32000 := fun f hf => List.mem_range.1 hf
  have hn : (List.range 32000).length = regionTotal 16 := List.length_range
  generalize List.range 32000 = l at hl hn ⊢
  unfold State.complete State.regionSeen
  rw [written_listed l hl, if_pos rfl, h16, Bool.and_eq_true, List.all_eq_true]
  refine ⟨by rw [List.append_nil, List.length_map, hn]; exact beq_self_eq_true _, fun b hm => ?_⟩
  have : b < 16 := List.mem_range.1 hm
  rw [written_listed l hl, if_neg (by omega), hb b hm]; rfl

/-! Chapter 15. -/

/-- Port 3 in a state, with lanes. -/
def port (pst lanes : Nat) (s : State := on) : State :=
  st [(TWD.EN.f 3, 1), (CLK.LK_TW.f, 15), (TWD.P_STAT_PSTATE.f 3, pst), (TWD.P_STAT_LANES.f 3, lanes)] s

theorem wit_ports15 : (let s := port 0 0
    s.hasTwp 3 = true ∧ s.flag (TWD.EN.f 3) = true ∧ s.flag (TWD.PRBS_EN.f 3) = false ∧ s.rd (TWD.P_STAT_PSTATE.f 3) = 0 ∧
    s.bit CLK.LK_TW.f 3 = true ∧ s.openTo 12 .twd = true ∧ { s with opt := .b }.hasTwp 3 = false ∧
    { s with opt := .b }.openTo 12 .twd = true) ∧
    (let s := port 1 15
     s.rd (TWD.P_STAT_PSTATE.f 3) = 1 ∧ s.rd (TWD.P_STAT_RATE.f 3) = 0 ∧ s.rd (TWD.P_STAT_LANES.f 3) ≠ 0 ∧
     s.flag CFG.MASTER.f = false ∧ (st [(CFG.MASTER.f, 1)] s).flag CFG.MASTER.f = true ∧ bitOf (0x48 : Byte).toNat 3 = true ∧
     (0x4D4B9128 : Word).toNat = SYS.ID.reset ∧ (1 : Byte).toNat = SYS.REV_MAJOR.reset) := by decide +kernel

/-- The ladder below its top, at the step to it, and at it; a rate at which every lane passes or not. -/
theorem wit_ladder : (∀ r ∈ [0, 3, 4], let s := st [(TWD.P_MAXR.f 3, 7), (TWD.P_PCAP.f 3, 4 * 2 ^ 16), (TWD.P_STAT_RATE.f 3, r)] (port 1 7)
      s.rd (TWD.P_STAT_RATE.f 3) = r ∧ min (min (s.rd (TWD.P_MAXR.f 3)) (bits (s.rd (TWD.P_PCAP.f 3)) 16 3)) 4 = 4 ∧
      (s.rd (TWD.P_STAT_LANES.f 3) &&& 0xF) = s.rd (TWD.P_STAT_LANES.f 3) ∧
      (s.rd (TWD.P_STAT_LANES.f 3) &&& 0xB) ≠ s.rd (TWD.P_STAT_LANES.f 3)) := by decide +kernel

theorem wit_recover : (∀ x ∈ [2, 3], (port x 8).rd (TWD.P_STAT_PSTATE.f 3) = x ∧ (port x 8).bit (TWD.P_STAT_LANES.f 3) 3 = true) ∧
    (st [(TWD.P_DROPPED.f 3, 8)] (port 2 7)).bit (TWD.P_DROPPED.f 3) 3 = true ∧
    (st [(TWD.PRBS_EN.f 3, 1)] (port 2 7)).flag (TWD.PRBS_EN.f 3) = true := by decide +kernel

/-- 32 invalid sync headers of 64 drop the lane, 31 do not; a recovery that has lasted 100 µs, and one that has not. -/
theorem wit_laneFaults : (headsTake 0 (List.replicate 32 1 ++ List.replicate 31 3)).2 = false ∧
    (headsTake 0 (List.replicate 32 1 ++ List.replicate 32 3)).2 = true ∧
    headsBad (headsTake 0 (List.replicate 32 1 ++ List.replicate 31 3)).1 = 31 ∧
    (port 3 8).rd (TWD.P_STAT_LANES.f 3) ≠ 0 ∧ (port 3 0).rd (TWD.P_STAT_LANES.f 3) = 0 ∧
    (port 3 8).rd (TWD.P_RECOV_AT.f 3) + 100000 ≤ { port 3 8 with time := 100000 }.time ∧
    { port 3 8 with time := 99999 }.time < (port 3 8).rd (TWD.P_RECOV_AT.f 3) + 100000 ∧
    ((port 4 8).rd (TWD.P_STAT_PSTATE.f 3) = 4 ∧ (port 4 8).rd (TWD.P_STAT_LANES.f 3) ≠ 0) := by decide +kernel

/-- A LINK that acknowledges one of two messages that have been sent. -/
theorem wit_link : (let s := (port 2 15).withTwOut [(3, [{ seq := some 65535, body := .gstop }, { seq := some 1, body := .ack 5 }])]
    (s.twQ 3).filter (fun m => !(m.seq.any fun x => (0 + 2 ^ 16 - x) % 2 ^ 16 < 2 ^ 15)) = [{ seq := some 1, body := .ack 5 }] ∧
    (s.twQ 3).filter (fun m => !(m.seq.any fun x => (1 + 2 ^ 16 - x) % 2 ^ 16 < 2 ^ 15)) = []) := by decide +kernel

/-- A member with port 3 upstream, and the master, with device 31 joined there and taking part in barrier 255. -/
def member (state : Nat) : State := st [(TWD.STAT_STATE.f, state), (TWD.STAT_DEV.f, 31), (TWD.UPSTREAM.f 3, 1), (TWD.CASC_EN.f, 1)] (port 2 15)

def master (parts arr next relT : Nat) (s : State := port 2 15) : State :=
  tb TWD.barNext 0 [(255, next)] (tb TWD.barT 0 [(255, relT)] (tb TWD.bar 0 [(255, parts), (768 + 255, arr), (256 + 255, 0x8000)]
    (st [(CFG.MASTER.f, 1), (TWD.CASC_EN.f, 1), (TWD.STAT_STATE.f, 5), (TWD.ROST_PRES.f 31, 1), (TWD.ROST_VIA.f 31, 3),
      (TWD.ROST_PRES.f 0, 1)] s)))

theorem wit_arrivals : (∀ relT ∈ [0, 100], ∀ p ∈ [2 ^ 31, 2 ^ 31 + 2, 2], let u := (master p 0 0 relT).barrierSyncAll
      (master p 0 0 relT).isMaster = true ∧ u.participants 255 = p ∧ bitOf (u.participants 255) 31 = (p != 2) ∧
      u.releasing 255 = (relT == 100) ∧ p < 2 ^ 32 ∧ u.arrivedDevs 255 < 2 ^ 32 ∧
      (p = 2 ^ 31 → (putBit (u.arrivedDevs 255) 31 true &&& p) = p) ∧
      (p = 2 ^ 31 + 2 → (putBit (u.arrivedDevs 255) 31 true &&& p) ≠ p)) ∧ (member 3).isMaster = false := by decide +kernel

/-- A sequencer that holds at barrier 255. -/
def holding (s : State) : State := seq 5 (run (line 12 255 0) false) (s := s)

theorem wit_barriers : (holding (member 3)).waitingAt 255 = [15] ∧ (holding (member 3)).run? 15 = some (run (line 12 255 0) false) ∧
    (holding (member 3)).rd (TWL.STATE_STATE.f 15) = 5 ∧ (member 3).rd TWD.STAT_STATE.f = 3 ∧
    (member 3).barrierSyncAll.upstream = some 3 ∧ (member 3).barrierSyncAll.rd (TWD.P_STAT_PSTATE.f 3) = 2 ∧
    (0 : BitVec 48).toNat < (st [(TWD.CT_OFS.f, 5)] (member 3)).barrierSyncAll.cascadeTime ∧
    (member 3).barrierSyncAll.cascadeTime ≤ (0 : BitVec 48).toNat ∧
    (master (2 ^ 31) 0 0 100).releasing 255 = true ∧ (master (2 ^ 31) 0 0 0).releasing 255 = false ∧
    bitOf ((master (2 ^ 31) 0 0 100).participants 255) 31 = true ∧ bitOf ((master (2 ^ 31) 0 0 100).tab TWD.acks 0 255) 31 = false ∧
    (master (2 ^ 31) 0 0 100).devJoined 31 = true ∧ (∀ i : Fin 32, bitOf ((master 0 0 0 100).participants 255) i = false) ∧
    (master (2 ^ 31) 0 0 100).bseq 255 ≠ 0 := by decide +kernel

theorem wit_forming : (let s := port 2 15
    s.openTo 12 .twd = true ∧ s.flag TWD.CASC_EN.f = false ∧ s.flag CFG.MASTER.f = false ∧ (member 1).flag TWD.CASC_EN.f = true ∧
    (st [(CFG.MASTER.f, 1)] s).flag CFG.MASTER.f = true ∧ (st [(CFG.MASTER.f, 1)] s).flag TWD.CASC_EN.f = false ∧
    (member 1).rd TWD.STAT_STATE.f ≠ 5 ∧ (member 1).flag CFG.MASTER.f = false ∧ (member 1).rd (TWD.P_STAT_PSTATE.f 3) = 2) ∧
    (let x : TwReach := ⟨[3], 7⟩
     ((port 2 15).numbered (List.replicate 32 x))[31]? = some x ∧ (port 2 15).numbered [⟨[2, 1], 9⟩, x, ⟨[3, 1], 9⟩] = [x, ⟨[3, 1], 9⟩]) := by
  decide +kernel

theorem wit_lost : (let s := st [(TWD.CTRL_AUTOREJ.f, 1), (TWD.ROST_LOSTD.f 31, 1)] (master 0 0 0 0)
    s.isMaster = true ∧ s.flag TWD.CTRL_AUTOREJ.f = true ∧ s.flag (TWD.ROST_LOSTD.f 31) = true ∧
    s.rd (TWD.P_STAT_PSTATE.f (s.rd (TWD.ROST_VIA.f 31))) = 2) ∧
    (st [(TWD.CTRL_AUTOREJ.f, 0)] (master 0 0 0 0)).flag TWD.CTRL_AUTOREJ.f = false ∧ (member 4).rd TWD.STAT_STATE.f = 4 ∧
    (member 4).rd TWD.STAT_DEV.f = 31 ∧ (member 3).rd TWD.STAT_STATE.f ≠ 4 := by decide +kernel

/-- A global stop of sequencer 15 alone, on the master and on a member; a member that sends one up. -/
theorem wit_globalStop : (∀ m ∈ [true, false],
      let s := st [(TWD.GS_SEQ.f, 0x8000)] (seq 2 (run (line 0 0 0) true) (s := if m then master 0 0 0 0 else member 3))
      bitOf (s.rd TWD.GS_SEQ.f) 15 = true ∧ (s.haltDue 15).run? 15 = some (run (line 0 0 0) true) ∧
      (s.haltDue 15).issuing 15 = true ∧ (∀ p : SeqId, p ≠ 15 → bitOf (s.rd TWD.GS_SEQ.f) p = false) ∧ s.isMaster = m ∧
      s.openTo 12 .twd = true ∧ (m = false → s.rd TWD.STAT_STATE.f = 3 ∧ s.upstream = some 3 ∧ s.rd (TWD.P_STAT_PSTATE.f 3) = 2)) ∧
    on.rd TWD.STAT_STATE.f = 0 := by decide +kernel

/-- BC_GO: ignored, without the object, with a device that is not joined, and done. -/
theorem wit_broadcast : (let s := st [(CAL.READY.f, 1), (TWD.BC_OBJ.f, 5), (TWD.BC_MASK.f, 2 ^ 31)] (alloc 0 3 (master 0 0 0 0))
    s.openTo 12 .twd = true ∧ s.flag CFG.MASTER.f = true ∧ s.flag TWD.BC_BUSY.f = false ∧ s.flag CAL.READY.f = true ∧
    (s.alloc? (s.rd TWD.BC_OBJ.f)).any (fun a => a.kind == 0 && a.st == 3 && decide (a.size < 2 ^ 36)) = true ∧
    s.rd TWD.BC_MASK.f = 2 ^ 31 ∧ s.isMaster = true ∧
    (∀ d : Fin 32, bitOf (2 ^ 31) d = true → s.devJoined d = true) ∧ bitOf (2 ^ 31) 0 = false ∧ s.devJoined 30 = false ∧
    (st [(TWD.BC_OBJ.f, 6)] s).alloc? 6 = none ∧ (st [(TWD.BC_BUSY.f, 1)] s).flag TWD.BC_BUSY.f = true ∧
    (st [(CAL.READY.f, 1)] (member 3)).flag CAL.READY.f = true ∧ (member 2).rd TWD.STAT_STATE.f ≠ 3) := by decide +kernel

/-- A broadcast of the master in a phase, at a place of its object. -/
def casting (ph off : Nat) : State :=
  st [(TWD.BC_PH.f, ph), (TWD.BC_WAIT.f, 2 ^ 31), (TWD.BC_OBJ.f, 5), (TWD.BC_MASK.f, 2 ^ 31), (TWD.BC_BUSY.f, 1), (TWD.BC_OFF.f, off),
    (TWD.BC_LIVE.f, 2 ^ 31)] (alloc 0 3 (master 0 0 0 0))

/-- An outcome awaited; the last data sent, poison, a line that must wait, and the end; a message that has not gone
yet. -/
theorem wit_phases : (∀ ph ∈ [1, 2, 3], let s := casting ph 0x1FFC0
      s.rd TWD.BC_PH.f = ph ∧ bitOf (s.rd TWD.BC_WAIT.f) 31 = true ∧ s.rd TWD.BC_WAIT.f = 2 ^ 31 ∧
      (s.alloc? (s.rd TWD.BC_OBJ.f)).any (fun a => decide (s.rd TWD.BC_OFF.f < a.size) && !s.allocPoison a 0x1FFC0 64 &&
        !s.loadWaits a 0x1FFC0 64 && (s.setWide DDR.pois (a.pa 0x1FFC0 / 64) 1).allocPoison a 0x1FFC0 64 &&
        (st [(DDR.SETUP.f 4, 1)] s).loadWaits a 0x1FFC0 64) = true ∧
      s.flag TWD.BC_BUSY.f = true ∧ s.dramHeld = false ∧ (∀ w : TwPort, s.bcRoom w = true) ∧
      s.rd TWD.BC_MASK.f < 2 ^ 32 ∧ s.rd TWD.BC_DONE.f < 2 ^ 32 ∧ s.rd TWD.BC_FAILM.f < 2 ^ 32) ∧
    (2 ^ 31 + 1 : Nat) ≠ 2 ^ 31 ∧
    ((casting 2 0x20000).alloc? 5).any (fun a => decide (a.size ≤ (casting 2 0x20000).rd TWD.BC_OFF.f)) = true ∧
    bitOf ((casting 2 0x20000).rd TWD.BC_LIVE.f) 31 = true ∧ (casting 2 0).devJoined 31 = true ∧
    ((casting 2 0).rd (TWD.P_STAT_PSTATE.f ((casting 2 0).rd (TWD.ROST_VIA.f 31)))) = 2 ∧
    ((casting 2 0).withTwOut [(3, [{ seq := none, body := .bcast 5 0 64 }])]).bcRoom 3 = false := by decide +kernel

/-- A member receives broadcast data: they pass, wait behind a held line, or find no credits; a SEAL with none before
it. -/
theorem wit_bcast : (let x : HeldWrite := { id := 5, off := 0, data := [1, 2] }
    let s := st [(CAL.READY.f, 1)] (alloc 0 1 (member 3))
    s.rd TWD.STAT_STATE.f = 3 ∧ s.upstream = some 3 ∧ s.rd (TWD.P_RBC.f 3) + x.cells ≤ 224 ∧ s.bcIn = [] ∧
    s.bcPasses x = true ∧ s.rd TWD.BC_SEALQ.f = 0 ∧ (s.objWrite 5 0 [1, 2]).isSome = true ∧
    ((alloc 0 3 (member 3)).objWrite 5 0 [1, 2]).isNone = true ∧
    (st [(DDR.SETUP.f 9, 1)] s).bcPasses x = false ∧ 224 < (st [(TWD.P_RBC.f 3, 224)] s).rd (TWD.P_RBC.f 3) + x.cells ∧
    s.flag (TWD.UPSTREAM.f 2) = false ∧ (st [(TWD.P_STAT_PSTATE.f 2, 2)] s).rd (TWD.P_STAT_PSTATE.f 2) = 2) := by decide +kernel

/-! Chapter 16. -/

/-- The host port is linked and a session is bound on a loaded device. -/
def slp (s : State := on) : State :=
  st ([(ETH.EN.f, 1), (ETH.LINK.f, 1), (ETH.SESS.f, 1), (ETH.SESSION.f, 7), (CFG.LOADED.f, 1), (CFG.BUSY.f, 0), (CFG.SAFEHOLD.f, 0),
    (ETH.MAXPAY.f, 1024)] ++ (List.range 11).flatMap fun n => [(ETH.RX_NEXT.f n, 2 ^ 32 - 1), (ETH.ADV_ACK.f n, 2 ^ 32 - 1), (ETH.RX_WIN.f n, 4096),
    (ETH.PEER_WIN.f n, 4096)]) s

/-- The header of the next message of a stream, of two frames. -/
def hdr (wrong : Bool) : SlpHdr := ⟨7, 0xFFFFFFFF, 1, none, wrong⟩

theorem wit_slpMay : ∀ n : Fin 11, ∀ wrong : Bool, SlpMay (slp) n (hdr wrong) := fun n wrong =>
  ⟨by decide +kernel, by decide +kernel, by revert wrong; decide +kernel, fun h => absurd h (by decide +kernel), rfl,
    by revert n wrong; decide +kernel, by revert n wrong; decide +kernel, by revert n wrong; decide +kernel,
    by revert n; decide +kernel, by decide +kernel⟩

theorem wit_mayAnswer : ∀ n : Fin 11, MayAnswer slp n := fun n =>
  ⟨by revert n; decide +kernel, by revert n; decide +kernel, by decide +kernel⟩

theorem wit_requestMay : ∀ wrong : Bool, RequestMay slp (hdr wrong) := fun wrong =>
  ⟨wit_slpMay 0 wrong, wit_mayAnswer 0, by decide +kernel⟩

/-- The longest request of CSR entries and one too long; a debug request; the device in SAFE_ONLY. -/
theorem wit_lengths : SlpMay slp 3 (hdr false) ∧ MayAnswer slp 3 ∧ slp.dbgQ = [] ∧ slp.rd (ETH.ANS_N.f 1) = 0 ∧
    RequestMay (st [(CFG.LOADED.f, 0)] slp) (hdr true) ∧ (st [(CFG.LOADED.f, 0)] slp).safeOnly = true := by
  refine ⟨wit_slpMay 3 false, wit_mayAnswer 3, by decide +kernel, by decide +kernel,
    ⟨⟨?_, ?_, ?_, ?_, ?_, ?_, ?_, ?_, ?_, ?_⟩, ⟨?_, ?_, ?_⟩, ?_⟩, by decide +kernel⟩ <;> decide +kernel

/-- A frame that is taken, tagged and not, one for an empty buffer and one that does not fit. -/
theorem wit_frames : slp.rxOk = true ∧ on.rxOk = false ∧ slp.flag ETH.VLAN_EN.f = false ∧
    (let s := st [(ETH.VLAN_EN.f, 1), (ETH.VLAN_VID.f, 9), (ETH.RX_FILL.f, 262144 - 9220), (ETH.PAUSE_EN.f, 1)] slp
     s.flag ETH.VLAN_EN.f = true ∧ (9 : BitVec 12).toNat = s.rd ETH.VLAN_VID.f ∧ s.rd ETH.RX_FILL.f + 9220 = 262144 ∧
     s.flag ETH.PAUSE_EN.f = true ∧ 196608 ≤ s.rd ETH.RX_FILL.f + 9220) ∧
    (st [(ETH.PAUSED.f, 1)] slp).flag ETH.PAUSED.f = true ∧ slp.flag ETH.PAUSED.f = false ∧ (st [(ETH.PAUSE_EN.f, 0)] slp).flag ETH.PAUSE_EN.f = false := by
  decide +kernel

/-- Addresses of this device and others; PTP with a best master, with a better and a worse one. -/
theorem wit_addresses : (let s := st [(ETH.IPV4.f, 0xC0A80001), (ETH.MAC_LO.f, 0xFFFFFFFF), (ETH.MAC_HI.f, 0xFFFF)] slp
    s.rd ETH.MAC_LO.f < 2 ^ 32 ∧ s.rd ETH.MAC_HI.f < 2 ^ 16 ∧ (0xC0A80001 : Word).toNat = s.rd ETH.IPV4.f ∧
    (0 : Word).toNat ≠ s.rd ETH.IPV4.f ∧
    (let mac := s.rd ETH.MAC_LO.f + s.rd ETH.MAC_HI.f * 2 ^ 32
     let a := 0xFE80 * 2 ^ 112 + (mac / 2 ^ 24 ^^^ 0x020000) * 2 ^ 40 + 0xFFFE * 2 ^ 24 + mac % 2 ^ 24
     a / 2 ^ 64 = 0xFE80 * 2 ^ 48 ∧ a / 2 ^ 40 % 2 ^ 24 = (mac / 2 ^ 24 ^^^ 0x020000))) ∧
    (let s := st [(ETH.PTP_EN.f, 1), (ETH.PTP_BEST.f, 8), (ETH.PTP_CFG_DOMAIN.f, 3)] slp
     s.flag ETH.PTP_EN.f = true ∧ (3 : Byte).toNat = s.rd ETH.PTP_CFG_DOMAIN.f ∧ (7 : BitVec 127).toNat + 1 = s.rd ETH.PTP_BEST.f ∧
     (6 : BitVec 127).toNat + 1 < s.rd ETH.PTP_BEST.f ∧ s.rd ETH.PTP_BEST.f < (8 : BitVec 127).toNat + 1) ∧
    slp.rd ETH.PTP_BEST.f = 0 ∧ slp.flag ETH.PTP_EN.f = false ∧ (1000 : Word).toInt = 1000 ∧ (0xFFFFFC17 : Word).toInt = -1001 := by
  decide +kernel

/-- An OPEN that is refused by its MAXPAY, and the largest that is not; sessions bound and not; a device in SAFE_ONLY.
-/
theorem wit_sessions : ((9088 : Word).toNat % 64 = 0 ∧ ¬ 9088 < (9088 : Word).toNat) ∧ (9089 : Word).toNat % 64 ≠ 0 ∧
    (let s := st [(ETH.SESS.f, 0)] slp
     s.rxOk = true ∧ s.flag ETH.SESS.f = false ∧ s.waitOf 0 = [] ∧ s.unackedOf 0 = [] ∧ s.ratioBad = false ∧ s.dramHeld = false) ∧
    (st [(CFG.LOADED.f, 0)] slp).safeOnly = true ∧ slp.openTo 12 .eth = true ∧ slp.safeOnly = false ∧
    (st [(CLK.EN.f, 0)] slp).gated .eth = true ∧ (7 : Word) ≠ 0 ∧ (8 : Word).toNat ≠ slp.rd ETH.SESSION.f := by decide +kernel

/-- A session without a frame of its peer for SESS_TO, and for less. -/
theorem wit_stale : (let s := st [(ETH.SESS_TO.f, 5)] slp
    s.rd ETH.LAST_RX.f + max 1 (s.rd ETH.SESS_TO.f) * 10 ^ 6 ≤ { s with time := 5000000 }.time ∧
    { s with time := 4999999 }.time < s.rd ETH.LAST_RX.f + max 1 (s.rd ETH.SESS_TO.f) * 10 ^ 6) ∧
    (st [(ETH.PAUSED.f, 1), (ETH.PAUSE_END.f, 52)] slp).rd ETH.PAUSE_END.f ≤ { slp with time := 52 }.time ∧
    slp.time < (st [(ETH.PAUSE_END.f, 52)] slp).rd ETH.PAUSE_END.f ∧
    ((0xFFFF : BitVec 16).toNat * 512 + 9) / 10 < 2 ^ 64 := by decide +kernel

/-- A request of TYPE 0x13, which is not listed, within a frame that is taken; and one of TYPE 0x12. -/
def requestFrame (typ : Nat) : EthFrame :=
  { bytes := 100, fcsOk := true, wellFormed := true, dst := 0, vid := none
    body := .ip4 0xC0A80001 false false (.udp 5000 true
      (([1 + typ * 2 ^ 16 + 3 * 2 ^ 24, 7, 0xFFFFFFFF, 0, 4, 0, 9] : List Nat).flatMap fun w => (natBytes w 4).map (BitVec.ofNat 8))) }

theorem wit_unlisted : (let s := st [(ETH.IPV4.f, 0xC0A80001), (ETH.SLP_PORT.f, 5000), (ETH.MAC_LO.f, 0), (ETH.MAC_HI.f, 0)] slp
    s.bodyOk (requestFrame 0x13).body = true ∧ s.dstOk (requestFrame 0x13) = true ∧
    unlistedRequest (requestFrame 0x13) = some (⟨7, 0xFFFFFFFF, 0, none, false⟩, 0x13, 9) ∧ unlistedRequest (requestFrame 0x12) = none) ∧
    RequestMay slp ⟨7, 0xFFFFFFFF, 0, none, false⟩ := by
  refine ⟨by decide +kernel, ⟨⟨?_, ?_, ?_, ?_, ?_, ?_, ?_, ?_, ?_, ?_⟩, ⟨?_, ?_, ?_⟩, ?_⟩⟩ <;> decide +kernel

/-- RESTART: a slot that is none, while BUSY, in a hold, and done; with the other requests that must be executable at
once. -/
theorem wit_requests16 : (4 : Word).toNat = 4 ∧ slp.flag BST.HOLD.f = false ∧ slp.flag CFG.BUSY.f = false ∧
    (st [(CFG.BUSY.f, 1)] slp).flag CFG.BUSY.f = true ∧ RequestMay (st [(CFG.BUSY.f, 1)] slp) (hdr false) ∧ slp.dramHeld = false ∧
    (let s := st [(BST.HOLD.f, 1), (CLK.IOSC_OK.f, 1)] slp
     s.flag BST.HOLD.f = true ∧ s.flag BST.RUN.f = false ∧ s.bstWhy = 0) := by
  refine ⟨by decide +kernel, by decide +kernel, by decide +kernel, by decide +kernel, ⟨⟨?_, ?_, ?_, ?_, ?_, ?_, ?_, ?_, ?_, ?_⟩,
    ⟨?_, ?_, ?_⟩, ?_⟩, by decide +kernel, by decide +kernel⟩ <;> decide +kernel

theorem wit_flash : (let s := tb CFG.dirw 0 [(4, 10)] (st [(CFG.DIR_OK.f, 1)] slp)
    s.requestWaits (.flBegin 1 0 655360 true) = false ∧ s.flag ETH.FL_OPEN.f = false ∧ s.flag CFG.DIR_OK.f = true ∧
    (655360 : Word).toNat ≤ s.tab CFG.dirw 0 (4 + 2 * (0 : Word).toNat) * 65536 ∧ slp.flag CFG.DIR_OK.f = false ∧
    (st [(ETH.FL_OPEN.f, 1)] s).flag ETH.FL_OPEN.f = true ∧ (st [(ETH.FL_BAD.f, 1)] s).flag ETH.FL_BAD.f = true ∧
    orderWordOk 0x82 = true ∧ orderWordOk 0 = false) := by decide +kernel

/-- CAL, KEY, READ, SHUTDOWN and STANDBY. -/
theorem wit_effects : slp.flag CAL.READY.f = false ∧ (st [(CAL.READY.f, 1)] slp).flag CAL.READY.f = true ∧
    (∀ k ∈ [0, 1, 2, 3], (BitVec.ofNat 32 k).toNat % 4 = k) ∧
    ((alloc 5 5 slp).alloc? 5).any (fun a => decide (a.kind ∈ [0, 1, 2, 4, 5]) && a.st == 5 && decide (64 + 0x1FFC0 ≤ a.size)) = true ∧
    (alloc 5 5 slp).alloc? 6 = none ∧ (st [(ETH.RD_OPEN.f, 1)] slp).flag ETH.RD_OPEN.f = true ∧ slp.flag ETH.RD_OPEN.f = false ∧
    (st [(CLK.FALLBACK.f, 1)] slp).standbyRefused = true ∧ slp.standbyRefused = false ∧ slp.flag PWR.STBY_PEND.f = false := by
  decide +kernel

/-- What the entries of a request leave, where all are done. -/
def ran (m : Master) (n k : Nat) (l : List CsrEntry) : State × List CsrEntry := (slp.slpTook n (hdr false)).runEntries m k l

theorem wit_entries : (let p := ran .slp 0 0 [⟨true, 0x24001000, 5⟩, ⟨false, 0x24001000, 0⟩]
    p.2 = [] ∧ p.1.ratioBad = false ∧ p.1.flag ETH.SESS.f = true ∧ p.1.heldOf 0 = [] ∧ p.1.ctrlQ = [] ∧
    8 + 4 * (p.1.answers 0).length ≤ p.1.rd ETH.MAXPAY.f ∧ p.1.waitOf 0 = [] ∧ p.1.mayNew 0 = true ∧
    1024 ≤ p.1.rd ETH.MAXPAY.f) ∧
    (let p := ran .dbgS 3 1 [⟨false, 0x14000000, 0⟩]
     p.2 = [] ∧ p.1.ratioBad = false ∧ p.1.flag ETH.SESS.f = true ∧ p.1.heldOf 3 = [] ∧ p.1.ctrlQ = [] ∧ p.1.dbgQ = [] ∧
     4 + 4 * (p.1.answers 1).length ≤ p.1.rd ETH.MAXPAY.f ∧ p.1.waitOf 3 = [] ∧ p.1.mayNew 3 = true ∧
     1024 ≤ p.1.rd ETH.MAXPAY.f) := by decide +kernel

/-- An entry that must wait, and one that ends the session. -/
theorem wit_entriesWait : (st [(CLK.LK.f, 0)] slp).mustWait (.read .slp 0x24001000) = true ∧
    slp.mustWait (.read .slp 0x24001000) = false ∧ slp.mustWait (.write .slp 0x24001000 5) = false ∧
    ((slp.busRead .slp 0x24001000 4).1.flag ETH.SESS.f = true ∧ (slp.busRead .slp 0x24001000 4).1.rd (ETH.ANS_N.f 0) = 0) ∧
    (ran .slp 0 0 [⟨true, 0x33000000, 4096⟩]).1.flag ETH.SESS.f = false := by decide +kernel

/-- The distance of a frame from the next: a duplicate, the next, one to hold, the last in the window, one beyond. -/
theorem wit_distances : (∀ x ∈ [(0xFFFFFFFE, 2 ^ 32 - 1), (0xFFFFFFFF, 0), (0, 1), (4093, 4094), (4094, 4095)],
      seqDist (BitVec.ofNat 32 x.1 : Word).toNat (slp.rd (ETH.ADV_ACK.f 6)) = x.2 % 2 ^ 32) ∧
    slp.rd (ETH.RX_NEXT.f 6) < 2 ^ 32 ∧ 4094 + 1 < slp.rd (ETH.RX_WIN.f 6) ∧ slp.rd (ETH.RX_WIN.f 6) ≤ 4095 + 1 ∧
    (let k : SlpAck := ⟨0, 4096, 0⟩
     (slp.ackTake 6 k).rxOk = true ∧ (slp.ackTake 6 k).flag ETH.SESS.f = true ∧ (slp.ackTake 6 k).rd ETH.SESSION.f = slp.rd ETH.SESSION.f ∧
     (slp.ackTake 6 k).safeOnly = false ∧ (slp.ackTake 6 k).dramHeld = false) := by decide +kernel

theorem wit_flow : (let y : SlpHeld := { seq := 1, more := 0, msg := .flow 3 [4] }
    let s := slp.setHeld 7 [y]
    s.heldOf 7 = [y] ∧ ((hdr false).seq.toNat + (hdr false).more.toNat + 1) % 2 ^ 32 = 1 ∧ slp.heldOf 7 = []) ∧
    SlpMay { slp.setHeld 7 [{ seq := 1, more := 0, msg := .flow 3 [4] }] with slpHeld := [] } (4 + 3) (hdr false) := by
  refine ⟨by decide +kernel, ⟨?_, ?_, ?_, ?_, ?_, ?_, ?_, ?_, ?_, ?_⟩⟩ <;> decide +kernel

/-- FL_DATA outside its update, out of order, beyond its size, and taken; and an upload. -/
theorem wit_upload : (let s := st [(ETH.FL_OPEN.f, 1), (ETH.FL_SLOT.f, 2), (ETH.FL_SIZE.f, 64), (ETH.FL_POS.f, 32)] slp
    s.rd ETH.FL_SIZE.f < 2 ^ 32 ∧ (2 : Word).toNat = s.rd ETH.FL_SLOT.f ∧ (32 : Word).toNat = s.rd ETH.FL_POS.f ∧
    32 + 32 ≤ s.rd ETH.FL_SIZE.f ∧ ¬ 32 + 33 ≤ s.rd ETH.FL_SIZE.f ∧ s.flag ETH.FL_OPEN.f = true ∧ slp.flag ETH.FL_OPEN.f = false) ∧
    (let s := alloc 0 1 slp
     s.dramHeld = false ∧ s.safeOnly = false ∧ (s.alloc? 5).any (fun a => a.kind == 0 && a.st == 1 && !a.allpois && a.marked.isEmpty &&
      decide (a.pages.getD (0x1FFFF / 65536) 0 < 2 ^ 28) && decide (0x1FFFF + 1 ≤ a.size)) = true ∧
     0x1FFFF % 65536 + 1 ≤ 65536 ∧ s.alloc? 6 = none ∧ s.uploadWaits 5 0x1FFFF 1 = false ∧ s.uploadFault 5 0x1FFFF 1 = none ∧
     (st [(DDR.SETUP.f 4, 1)] s).uploadWaits 5 0x1FFFF 1 = true ∧ ((s.slpTook 1 (hdr false)).objWrite 5 0x1FFFF [1]).isSome = true ∧
     ((alloc 0 1 slp [1]).alloc? 5).any (fun a => a.marked == [1]) = true) := by decide +kernel

/-- Frames that are not acknowledged: one that an ACK covers, of each kind; two of which the first is skipped. -/
theorem wit_acks : (let x : SlpTx := { typ := 0x90, words := [1], first := true, last := true, rel := .records 63 2, seq := 2 ^ 32 - 1 }
    let y : SlpTx := { x with seq := 0 }
    let k : SlpAck := ⟨0xFFFFFFFF, 4096, 1⟩
    (∀ sends ∈ [1, 16], ∀ skips ∈ [0, 2],
      let s := st [(ETH.PEER_ACK.f 9, 2 ^ 32 - 1)] (slp.setUnacked 9 [{ x with sends := sends, skips := skips, rto := 5 }, y])
      s.unackedOf 9 = [{ x with sends := sends, skips := skips, rto := 5 }, y] ∧
      seqDist k.ack.toNat (s.rd (ETH.PEER_ACK.f 9)) ≤ (s.unackedOf 9).length ∧ s.waitOf 9 = [] ∧ s.ctrlQ = [] ∧ x.seq = k.ack.toNat ∧
      y.seq = (x.seq + 1) % 2 ^ 32 ∧ k.sack.getLsbD 0 = true ∧ s.txOk = true ∧
      (s.unackedOf 9).filter (fun z => z.seq == (0xFFFFFFFF : Word).toNat) = [{ x with sends := sends, skips := skips, rto := 5 }] ∧
      x.sentAt + 1000 * 5 ≤ { s with time := 5000 }.time ∧ s.time < x.sentAt + 1000 * 5) ∧
    (let s := st [(ETH.PEER_ACK.f 9, 2 ^ 32 - 1)] (slp.setUnacked 9 [x])
     seqDist (0 : Word).toNat (s.rd (ETH.PEER_ACK.f 9)) ≤ (s.unackedOf 9).length ∧
     (s.unackedOf 9).length < seqDist (1 : Word).toNat (s.rd (ETH.PEER_ACK.f 9)) ∧
     (s.unackedOf 9).filter (fun z => seqBefore z.seq (0 : Word).toNat) = [x]) ∧
    (st [(ETH.OWED.f 9, 3)] slp).rd (ETH.OWED.f 9) ≠ 0) := by decide +kernel

/-- What the streams send: results that are ready, records, notices, an open read. -/
theorem wit_sources : (∀ n : Fin 11, slp.mayNew n = true ∧ slp.ctrlQ = [] ∧ slp.waitOf n = []) ∧
    (let e : ResultEntry := { words := List.replicate 16 1, byPort := false, bySlp := false, upto := 0, ord := 0 }
     let s := st [(DMK.SITE_CFG_RES_SLP.f 63, 1), (DMK.SITE_CFG_RES_PORT.f 63, 0)] (slp.withResults (slp.results.put 63 [e]))
     s.resultsReady.take (s.rd ETH.MAXPAY.f / 64) = [(63, e)] ∧ s.dramHeld = false ∧ slp.resultsReady = [] ∧
     s.resultQ 63 = e :: [] ∧ s.flag (DMK.SITE_CFG_RES_SLP.f 63) = true ∧ s.flag (DMK.SITE_CFG_RES_PORT.f 63) = false) ∧
    (let s := st [(DMK.RING_ID.f 63, 5), (DMK.RING_WR.f 63, 2), (ETH.REC_SITES_HI.f, 2 ^ 31)] (alloc 1 3 slp)
     s.recordsLeft 63 = 2 ∧ s.ringWaits 63 (s.recordsInFlight 63) = false ∧ (st [(CLK.FALLBACK.f, 1)] s).dramHeld = true ∧ (∀ k, k < 63 → s.recordsLeft k = 0) ∧ (∀ k, k < 64 → slp.recordsLeft k = 0)) ∧
    (let s := slp.withNotices [{ kind := 1, count := 1, arg0 := 0, arg1 := 0, ts := 0 }]
     (s.noticePump.notices.take (s.rd ETH.MAXPAY.f / 16)).length = 1 ∧ s.noticePump.waitOf 2 = []) ∧
    (let s := st [(ETH.RD_OPEN.f, 1), (ETH.RD_ID.f, 5), (ETH.RD_END.f, 0x20000), (ETH.RD_POS.f, 0x1FFC0), (ETH.RD_CRED.f, 1)] (alloc 5 3 slp)
     s.flag ETH.RD_OPEN.f = true ∧ (s.alloc? (s.rd ETH.RD_ID.f)).any (fun a => !s.allocPoison a 0x1FFC0 64 &&
      (s.setWide DDR.pois (a.pa 0x1FFC0 / 64) 1).allocPoison a 0x1FFC0 64) = true ∧ s.rd ETH.RD_POS.f < s.rd ETH.RD_END.f ∧
     s.rd ETH.RD_END.f < 2 ^ 37 ∧ (st [(ETH.RD_POS.f, 0x20000)] s).rd (ETH.RD_POS.f) = s.rd ETH.RD_END.f ∧
     (st [(ETH.RD_ID.f, 6)] s).alloc? 6 = none ∧ s.rd ETH.RD_POIS.f = 0 ∧
     min ((s.rd ETH.MAXPAY.f - 12) / 64) ((s.rd ETH.RD_END.f - s.rd ETH.RD_POS.f) / 64) ≤ s.rd ETH.RD_CRED.f ∧
     (st [(ETH.RD_CRED.f, 0)] s).rd ETH.RD_CRED.f < 1) := by decide +kernel

/-- The flow ports: a port with words to send, and received messages of one word and of two. -/
theorem wit_flowPorts : (let s := slp.withTxBuf (SMap.set slp.txBuf 3 [1, 2] [])
    s.txBuf.get 3 [] = [1, 2] ∧ [1, 2].length ≤ 4096 ∧ (8 : BitVec 4).getLsbD 3 = true ∧ s.flag ETH.SESS.f = true ∧
    (∀ ws ∈ [[7], [7, 8]], let m : FlowMsg := { len := 8, words := ws }
      (slp.withRxMsgs (SMap.set slp.rxMsgs 3 [m] [])).rxMsgs.get 3 [] = m :: []) ∧
    s.consumes .dbgS = false ∧ s.consumes .slp = true) := by decide +kernel

/-! Chapters 17 to 20, and the whole machine. -/

/-- A run that each loss ends, on a member of a cascade, with everything locked. -/
def running (s : State := on) : State :=
  st [(CLK.LK_MFP.f, 255), (CLK.LK_DC.f, 4095), (CLK.LK_TM.f, 15), (CLK.LK_TW.f, 15), (CLK.LK_FAB.f, 255), (TWD.STAT_STATE.f, 3)]
    (seq 2 (run (line 0 0 0) true) (s := s))

theorem wit_losses : running.flag CLK.REF_OK.f = true ∧ running.flag CLK.TREF_OK.f = true ∧ running.flag CLK.XTAL_OK.f = true ∧
    (st [(CLK.IOSC_OK.f, 1)] running).flag CLK.IOSC_OK.f = true ∧ running.flag CLK.IOSC_OK.f = false ∧
    running.run? 15 = some (run (line 0 0 0) true) ∧ running.issuing 15 = true ∧ running.rd TWD.STAT_STATE.f = 3 ∧
    (seq 1 (run (line 0 0 0) true)).rd (TWL.STATE_STATE.f 15) = 1 ∧
    State.reset.flag CLK.REF_OK.f = false ∧ State.reset.flag CLK.TREF_OK.f = false ∧ State.reset.flag CLK.XTAL_OK.f = false := by
  decide +kernel

/-- Faults that count and that do not: of REFCLK and TREF at 256 cycles a window, of XTAL32 at 1,374. -/
theorem wit_faults : (50 ≤ (50 : Word).toNat ∧ ¬ 50 ≤ (49 : Word).toNat ∧ 60000 ≤ (60000 : Word).toNat ∧
      ¬ 60000 ≤ (59999 : Word).toNat) ∧
    (∀ x ∈ [(256, 248, true), (256, 249, false), (256, 264, true), (256, 263, false), (1374, 1331, true), (1374, 1332, false),
        (1374, 1417, true), (1374, 1416, false)],
      decide (31 * x.1 < 1000 * (max x.2.1 x.1 - min x.2.1 x.1)) = x.2.2) := by decide +kernel

/-- Sixteen windows that pass, fifteen, and sixteen with one that fails; a return in fallback and one without. -/
theorem wit_returns : (let within := fun (l : List Nat) (n : Nat) => l.length = 16 ∧ ∀ c ∈ l, 1000 * (max c n - min c n) ≤ 31 * n
      within (List.replicate 15 256 ++ [263]) 256 ∧ within (List.replicate 16 1332) 1374 ∧ ¬ within (List.replicate 15 256) 256 ∧
      ¬ within (List.replicate 15 256 ++ [264]) 256 ∧ ¬ within (List.replicate 16 1331) 1374) ∧
    (let s := st [(CLK.REF_OK.f, 0)] running
     s.flag CLK.REF_OK.f = false ∧ s.dramHeld = false ∧ (st [(CLK.FALLBACK.f, 1)] s).dramHeld = true ∧
     (st [(CLK.IOSC_OK.f, 1), (CLK.WAITREF.f, 1)] s).flag CLK.WAITREF.f = true ∧ s.flag CLK.RET_PEND.f = false) ∧
    (765625 ≤ (765625 : Word).toNat ∧ (796875 : Word).toNat ≤ 796875 ∧ ¬ 765625 ≤ (765624 : Word).toNat ∧
      ¬ (796876 : Word).toNat ≤ 796875) := by decide +kernel

/-- A PLL whose lock is the last of a fallback, of a return and of the channels' release; and one that does not lock. -/
theorem wit_locks : lockMay (.mfp 7) running ∧ lockMay .seq running ∧ ¬ lockMay (.mfp 7) { running with opt := .b } ∧
    (let s := st [(CLK.FB_PEND.f, 1)] (dram running)
     (s.setBit (lockBit (.mfp 7)).1 (lockBit (.mfp 7)).2 true).refIslandsLocked = true ∧ s.flag CLK.FB_PEND.f = true ∧
     s.flag (DDR.UP.f 11) = true) ∧
    (let s := st [(CLK.RET_PEND.f, 1)] (dram running)
     (s.setBit (lockBit (.mfp 7)).1 (lockBit (.mfp 7)).2 true).refIslandsLocked = true ∧ s.flag CLK.FB_PEND.f = false ∧
     s.flag CLK.RET_PEND.f = true) ∧
    (let s := st [(VLV.TREF_SAFE.f, 1)] running
     s.flag VLV.TREF_SAFE.f = true ∧ s.flag CLK.TREF_OK.f = true ∧ (s.setBit (lockBit .seq).1 (lockBit .seq).2 true).tmLocked = true) ∧
    running.flag VLV.TREF_SAFE.f = false ∧ running.flag CLK.FB_PEND.f = false ∧ running.flag CLK.RET_PEND.f = false := by
  unfold lockMay; decide +kernel

theorem wit_clocks : on.flag CLK.FORCED.f = false ∧ ([5, 3] : List (BitVec 7)) ≠ [] ∧ (st [(CLK.FORCED.f, 1)] on).flag CLK.FORCED.f = true ∧
    on.openTo 12 .clk = true ∧ on.openTo 12 .pwr = true ∧
    15 < (16 : Word).toNat % 32 ∧ (15 : Word).toNat % 32 ≤ 15 ∧ on.hasMfp 7 = true ∧ { on with opt := .b }.hasMfp 7 = false ∧
    on.bit CLK.EN.f 5 = true ∧ bitOf (0 : Word).toNat 5 = false ∧ on.rd (TWL.STATE_STATE.f 15) = 0 ∧
    running.rd (TWL.STATE_STATE.f 15) ≠ 0 ∧ (0xFFFFFFFF : Word).toNat &&& { on with opt := .b }.absentEn ≠ 0 ∧
    (0 : Word).toNat &&& on.absentEn = 0 ∧ on.bit CLK.EN.f 9 = true := by decide +kernel

/-- The meter measures MEMCLK over TREF cycles; a stopped clock measures 0, and a gate over one never ends. -/
theorem wit_meter : (let hz : ClkHz := ⟨100000000, 100000000, 32768, 400000000, 5⟩
    let s := fun (meas ref lk : Nat) => st [(CLK.FM_BUSY.f, 1), (CLK.FM_CFG_MEAS.f, meas), (CLK.FM_CFG_REF.f, ref), (CLK.LK.f, lk)] on
    (s 6 1 31).flag CLK.FM_BUSY.f = true ∧ (s 6 1 31).clockRate hz 1 ≠ 0 ∧ (s 6 1 23).clockRuns 6 = false ∧
    (s 6 6 23).clockRate hz 6 = 0 ∧ on.flag CLK.FM_BUSY.f = false ∧
    (∀ c ∈ [0, 1, 2, 3, 4, 5, 6, 7, 0x1C], on.clockRuns c = true) ∧ (∀ n : MfpId, on.clockRuns (8 + n) = true) ∧
    (∀ n : DcId, on.clockRuns (16 + n) = true) ∧ (st [(CLK.REF_OK.f, 0)] on).clockRuns 0 = false ∧
    { on with opt := .b }.clockRuns 15 = false ∧ on.clockRuns 0x60 = false) := by decide +kernel

/-- Rails: below, above and at a limit, the last negative rail among them; the capture empty or not. -/
theorem wit_rails : (let s := st [(railLo 15, 0xFB50), (railHi 15, 0xFBB4), (railLo 16, 700), (railHi 16, 900)] on
    let mv := fun (k x : Nat) => if 12 ≤ k ∧ k < 16 then signedOf 16 x else (x : Int)
    mv 15 0xFB4F < mv 15 (s.rd (railLo 15)) ∧ ¬ mv 15 0xFB50 < mv 15 (s.rd (railLo 15)) ∧ mv 15 (s.rd (railHi 15)) < mv 15 0xFBB5 ∧
    mv 15 (s.rd (railHi 15)) < mv 15 5 ∧ mv 16 699 < mv 16 (s.rd (railLo 16)) ∧ mv 16 (s.rd (railHi 16)) < mv 16 0xFB50 ∧
    s.railAlarm 15 = false ∧ s.railAlarm 16 = false ∧ s.flag PWR.RAIL_FULL.f = false ∧
    (st [(PWR.SEEN.f, 2 ^ 15), (PWR.RAIL_V.f 15, 5), (PWR.RAIL_FULL.f, 1)] s).railAlarm 15 = true ∧
    (st [(PWR.RAIL_FULL.f, 1)] s).flag PWR.RAIL_FULL.f = true) := by decide +kernel

/-- Sensors at TCRIT and below: new at it, or there before; a list shorter than the sensors. -/
theorem wit_sensors : on.dieOn = true ∧ off.dieOn = false ∧
    (let s := st [(PWR.SCRIT.f, 1)] on
     let crit := fun x : Nat => signedOf 8 (s.rd PWR.TLIM_TCRIT.f) * 8 ≤ signedOf 12 x
     s.bit PWR.SCRIT.f 0 = true ∧ s.bit PWR.SCRIT.f 11 = false ∧ crit 0x7FF ∧ ¬ crit 0x800 ∧ crit (s.rd PWR.TLIM_TCRIT.f * 8) ∧
     ¬ crit (s.rd PWR.TLIM_TCRIT.f * 8 - 1) ∧ signedOf 8 (s.rd PWR.TLIM_TWARN.f) * 8 ≤ signedOf 12 0x7FF ∧
     ([5] : List (BitVec 12))[0]? = some 5 ∧ ([5] : List (BitVec 12))[11]? = none ∧ s.flag PWR.TCRIT_HIT.f = false ∧
     (st [(PWR.TCRIT_HIT.f, 1)] s).flag PWR.TCRIT_HIT.f = true) := by decide +kernel

/-- Standby: refused, held, beginning, its end with and without a wake that came meanwhile. -/
theorem wit_standby : (let s := st [(CFG.BUSY.f, 0)] running
    s.openTo 12 .pwr = true ∧ s.flag PWR.STBY_PEND.f = false ∧ s.flag CFG.BUSY.f = false ∧ s.flag CLK.FALLBACK.f = false ∧
    s.flag CLK.WAITREF.f = false ∧ (st [(CLK.WAITREF.f, 1)] s).flag CLK.WAITREF.f = true ∧
    (st [(CLK.FALLBACK.f, 1)] s).flag CLK.FALLBACK.f = true ∧ (st [(CFG.BUSY.f, 1)] s).flag CFG.BUSY.f = true ∧
    (∀ p ∈ [0, 3], let u := st [(PWR.STBY_PEND.f, 1), (PWR.WAKE_PEND.f, p)] (dram s)
      u.flag PWR.STBY_PEND.f = true ∧ u.rd PWR.WAKE_PEND.f < 4 ∧ u.rd PWR.WAKE_PEND.f = p ∧ u.flag (DDR.UP.f 11) = true)) := by
  decide +kernel

/-- A wake by either source, in standby and during entry; the alarm in its second, and before it. -/
theorem wit_wakes : ∀ x ∈ [(1, PWR.WAKEN_EN.f), (2, PWR.ALARM_EN.f)],
    (∀ w ∈ [(PWR.STBY.f, true), (PWR.STBY_PEND.f, false)],
      let s := st [(x.2, 1), (w.1, 1), (LDG.RTC_S.f, 2 ^ 47 + 5), (PWR.WAKE_AT_LO.f, 5), (PWR.WAKE_AT_HI.f, 2 ^ 15)] on
      s.flag x.2 = true ∧ s.rd LDG.RTC_S.f = s.rd PWR.WAKE_AT_LO.f + s.rd PWR.WAKE_AT_HI.f * 2 ^ 32 ∧
      s.flag PWR.STBY.f = w.2 ∧ s.flag PWR.WAKING.f = false ∧ s.flag PWR.STBY_PEND.f = !w.2 ∧ s.rd PWR.WAKE_PEND.f = 0 ∧
      (st [(LDG.RTC_S.f, 5)] s).rd LDG.RTC_S.f ≠ s.rd PWR.WAKE_AT_LO.f + s.rd PWR.WAKE_AT_HI.f * 2 ^ 32) := by decide +kernel

/-- The supplies: a wake of each kind, a rail that falls in and out of standby, VAON present and lost. -/
theorem wit_supplies : (∀ cold : Fin 2, ∀ ret : Fin 2,
      let s := st [(PWR.STBY.f, 1), (PWR.WAKING.f, 1), (PWR.COLD_NEXT.f, cold), (PWR.RET_OK.f, ret)] on
      s.flag PWR.STBY.f = true ∧ s.flag PWR.WAKING.f = true ∧ s.flag PWR.COLD_NEXT.f = (cold == 1) ∧ s.flag PWR.RET_OK.f = (ret == 1)) ∧
    on.flag PWR.STBY.f = false ∧ on.flag PWR.STBY_PEND.f = false ∧ (st [(PWR.STBY_PEND.f, 1)] on).flag PWR.STBY_PEND.f = true ∧
    (st [(PWR.VAON.f, 1)] on).flag PWR.VAON.f = true ∧ (st [(PWR.VAON.f, 0)] on).flag PWR.VAON.f = false := by decide +kernel

/-- Source 1632, whose condition is outside the device, with a route to every destination; masked, active, and in a
storm. -/
def source (w : Nat) : State := tb EVT.src 0 [(1632, w)] on

theorem wit_events : (source 0x7FF).condHolds 1632 = true ∧ on.condHolds 1620 = false ∧
    (∀ b ∈ [20, 21], bitOf ((source (0x7FF + 2 ^ b)).route 1632) b = true) ∧ bitOf ((source 0x7FF).route 1632) 21 = false ∧
    bitOf ((source 0x7FF).route 1632) 20 = false ∧ (∀ d : Fin 11, bitOf ((source 0x7FF).route 1632) d = true) ∧
    (∀ d : Fin 11, bitOf ((source 0).route 1632) d = false) ∧
    (let e : EvEntry := { src := 1632, ts := 0, count := 255 }
     let s := (source 0x7FF).withEvq (SMap.set (source 0x7FF).evq 8 [e] [])
     e ∈ s.evq.get 8 [] ∧ e.src = 1632 ∧ (source 0x7FF).evq.get 8 [] = []) ∧
    (st [(DBG.HALTED.f 7, 1)] on).flag (DBG.HALTED.f 7) = true ∧ on.sourceCond 1632 ≠ .level true ∧ on.sourceCond 1632 = .outside ∧
    on.openTo 12 .evt = true ∧ 1792 ≤ (1792 : BitVec 11).toNat := by decide +kernel

/-- RATE 1: seventeen occurrences in 1 µs are a storm, and not if the first of them came 1 ns earlier; a source that was
raised before is stamped with that. -/
theorem wit_storm : (let storm := fun (ts k : Nat) (l : List Nat) =>
      k ≠ 0 ∧ 16 < (((ts :: l).take 17).filter fun x => decide (ts - x ≤ 1000 * 2 ^ (k - 1))).length
    storm 5000 1 (List.replicate 15 5000 ++ [4000]) ∧ ¬ storm 5000 1 (List.replicate 15 5000 ++ [3999]) ∧
    ¬ storm 5000 1 (List.replicate 15 5000) ∧ storm 5000 15 (List.replicate 16 0) ∧ ¬ storm 5000 0 (List.replicate 16 5000)) ∧
    bits (source 0x107FF |>.route 1632) 16 4 = 1 ∧
    ((({ source 0 with raised := [(7, 3), (1632, 5)] } : State).raised.find? fun e => e.1 == 1632).map Prod.snd).getD 9 = 5 := by decide +kernel

/-- The notice queue of stream 5, empty and full: with an entry of the source, with one of another, and with none of
events. -/
theorem wit_notices : (source 0x7FF).evq.get 9 [] = [] ∧ (source 0x7FF).notices.length < 1024 ∧
    (let x := fun (kind arg : Nat) => ({ kind := kind, count := 1, arg0 := arg, arg1 := 0, ts := 0 } : Notice)
     let l := fun (kind arg : Nat) => List.replicate 1023 (x 1 1632) ++ x kind arg :: []
     (∀ k ∈ [(0, 1632), (0, 5), (1, 1632)], 1024 ≤ ({ source 0x7FF with notices := l k.1 k.2 } : State).notices.length) ∧
     (x 0 1632).kind = 0 ∧ (x 0 1632).arg0 = 1632 ∧ (∀ y ∈ l 0 5, y.kind = 0 → y.arg0 ≠ 1632) ∧ (∀ y ∈ l 1 1632, y.kind ≠ 0)) := by
  decide +kernel

/-- A stuck time of 1 µs that has run out, and one that has not. -/
theorem wit_stuck : (let s := fun (t : Nat) => ({ tb EVT.since 0 [(1632, 5)] (source 0x201000) with time := t } : State)
    let sticks := fun (s : State) => bitOf (s.route 1632) 21 = true ∧ bitOf (s.route 1632) 20 = false ∧ bits (s.route 1632) 12 4 ≠ 0 ∧
      s.tab EVT.since 0 1632 + 1000 * 2 ^ (bits (s.route 1632) 12 4 - 1) ≤ s.time
    sticks (s 1005) ∧ ¬ sticks (s 1004)) := by decide +kernel

theorem wit_next : (let e : EvEntry := { src := 2047, ts := 0, count := 255 }
    let s := on.withEvq (SMap.set on.evq 7 [e] [])
    s.evq.get 7 [] = e :: [] ∧ e.src < 2048 ∧ e.count < 256 ∧ s.hasMfp 7 = true ∧ on.evq.get 7 [] = [] ∧
    (∀ q : Fin 13, s.openTo q .evt = true) ∧
    { s with opt := .b }.hasMfp 7 = false ∧ { s with opt := .b }.openTo 12 .evt = true) := by decide +kernel

/-- The samples of an EVIN: a third that differs after the hold and one within it, rising and falling. -/
theorem wit_evin : (∀ k ∈ [0, 7], let change := fun (s : State) (ball : Bool) =>
      let level := ball != s.bit EVT.INV.f k
      (if level = s.bit EVT.IN_LVL.f k then 0 else min 3 (s.rd (EVT.IN_RUN.f k) + 1)) = 3 ∧ (s.rd (EVT.IN_HOLD.f k) - 1) % 8 = 0
    change (st [(EVT.IN_RUN.f k, 2), (EVT.IN_HOLD.f k, 1)] on) true ∧ ¬ change (st [(EVT.IN_RUN.f k, 2), (EVT.IN_HOLD.f k, 2)] on) true ∧
    change (st [(EVT.IN_RUN.f k, 2), (EVT.IN_LVL.f, 255)] on) false ∧ change (st [(EVT.IN_RUN.f k, 2), (EVT.INV.f, 255)] on) false ∧
    ¬ change (st [(EVT.IN_RUN.f k, 1)] on) true) ∧
    (st [(VLV.DRV_EN.ch 127, 1)] on).flag (VLV.DRV_EN.ch 127) = true := by decide +kernel

/-- The calendar: an alignment that is due and one that is not; a load that reads flash; the flush of a shutdown. -/
theorem wit_calendar : on.openTo 12 .ldg = true ∧ slp.flag ETH.PTP_LOCK.f = false ∧
    (let s := ({ st [(ETH.PTP_LOCK.f, 1), (LDG.ALIGN_NEXT.f, 60 * 10 ^ 9)] slp with time := 60 * 10 ^ 9 } : State)
     s.flag ETH.PTP_LOCK.f = true ∧ s.rd LDG.ALIGN_NEXT.f ≤ s.time ∧ ¬ s.rd LDG.ALIGN_NEXT.f ≤ ({ s with time := 60 * 10 ^ 9 - 1 } : State).time) ∧
    (st [(LDG.TMAX.f 11, 4096)] on).rd (LDG.TMAX.f 11) ≠ 0 ∧
    (st [(LDG.FLUSH_BUSY.f, 1)] on).flag LDG.FLUSH_BUSY.f = true ∧ on.loadReads = false ∧ (image 3 0 []).loadReads = true ∧
    (st [(LDG.FLUSH_OFF.f, 1)] on).flag LDG.FLUSH_OFF.f = true ∧ on.flag LDG.FLUSH_OFF.f = false ∧
    (st [(CFG.DIR_OK.f, 1)] on).flag CFG.DIR_OK.f = true ∧ on.flag CFG.DIR_OK.f = false := by decide +kernel

/-- A bin of the temperatures at each end and in between. -/
theorem wit_bins : (let inBin := fun (m : Int) (b : Fin 32) => (-160 + 40 * (b.val : Int) ≤ m ∨ b = 0) ∧ (m < -120 + 40 * (b.val : Int) ∨ b = 31)
    inBin (-2048) 0 ∧ inBin (-121) 0 ∧ inBin (-120) 1 ∧ inBin 1079 30 ∧ inBin 1080 31 ∧ inBin 2047 31 ∧ ¬ inBin 1079 31) := by decide +kernel

/-- A flush that is due at the least and the greatest interval and at the start, and the same 1 ns earlier. -/
theorem wit_flushes : (let at' := fun (fs : List (Fld × Nat)) (t : Nat) => ({ st fs on with time := t } : State)
    let due := fun (s : State) => s.dieOn = true ∧ if s.flag LDG.FLUSHED.f = true
      then s.rd LDG.FLUSH_AT.f + min 10 (max 1 (s.rd LDG.CTRL_FLUSH_INT.f)) * 60 * 10 ^ 9 ≤ s.time else 60 * 10 ^ 9 ≤ s.time
    due (at' [] (60 * 10 ^ 9)) ∧ ¬ due (at' [] (60 * 10 ^ 9 - 1)) ∧
    (∀ x ∈ [(0, 1), (1, 1), (10, 10), (15, 10)],
      let fs := [(LDG.FLUSHED.f, 1), (LDG.FLUSH_AT.f, 5), (LDG.CTRL_FLUSH_INT.f, x.1)]
      due (at' fs (5 + x.2 * 60 * 10 ^ 9)) ∧ ¬ due (at' fs (4 + x.2 * 60 * 10 ^ 9)))) := by decide +kernel

theorem wit_selfTest : (∀ w ∈ [0, 1, 2, 3], let s := st [(BST.RUN.f, 1), (BST.WAIT.f, w)] on
      s.flag BST.RUN.f = true ∧ s.rd BST.WAIT.f = w ∧ s.bstWhy ≠ 0 ∧ (st [(CLK.IOSC_OK.f, 1)] s).bstWhy = 0 ∧
      (st [(CLK.IOSC_OK.f, 1), (PWR.SEEN.f, 2 ^ 19), (PWR.RAIL_V.f 19, 0xFFFF)] s).bstWhy = 2 ∧
      (st [(CLK.IOSC_OK.f, 1), (PWR.TEMP.f 11, 0x7FF)] s).bstWhy = 4) ∧
    on.flag BST.RUN.f = false ∧ (st [(BST.TRYING.f, 1)] on).flag BST.TRYING.f = true ∧ on.flag BST.TRYING.f = false := by
  decide +kernel

/-- Both ports at level 3, in a session whose stream 3 is served; MFP 7 is released, and halted or not. -/
def debug (halted : Nat) (c : MfpCore := {}) (w0 w1 : Nat := 0) : State :=
  st [(DBG.LEVEL.f 0, 3), (DBG.LEVEL.f 1, 3), (DBG.HALTED.f 7, halted), (DBG.M_FEED_LO.f 7, w0), (DBG.M_FEED_HI.f 7, w1),
    (CFG.LOADED.f, 1), (CFG.BUSY.f, 0), (ETH.SESS.f, 1)] (mfp7 c 0 0)

theorem wit_portOpen (p : DbgPort) : PortOpen (debug 1) p :=
  ⟨by cases p <;> decide +kernel, fun _ => by decide +kernel⟩

/-- Challenges: valid or not, locked out or not; the instants at which a lockout and a challenge end, and those before.
-/
theorem wit_sessions20 : (∀ i ∈ [0, 1], let s := st [(DBG.CHAL_VALID.f i, 1), (DBG.LOCK_AT.f i, 5), (DBG.CHAL_AT.f i, 5)] (debug 1)
      s.flag (DBG.CHAL_VALID.f i) = true ∧ s.flag (DBG.LOCKOUT.f i) = false ∧ on.flag (DBG.CHAL_VALID.f i) = false ∧
      (st [(DBG.LOCKOUT.f i, 1)] on).flag (DBG.LOCKOUT.f i) = true ∧
      s.rd (DBG.LOCK_AT.f i) + 10 ^ 9 ≤ ({ s with time := 5 + 10 ^ 9 } : State).time ∧
      ¬ s.rd (DBG.LOCK_AT.f i) + 10 ^ 9 ≤ ({ s with time := 4 + 10 ^ 9 } : State).time ∧
      s.rd (DBG.CHAL_AT.f i) + 60 * 10 ^ 9 ≤ ({ s with time := 5 + 60 * 10 ^ 9 } : State).time ∧
      ¬ s.rd (DBG.CHAL_AT.f i) + 60 * 10 ^ 9 ≤ ({ s with time := 4 + 60 * 10 ^ 9 } : State).time) ∧
    on.flag ETH.SESS.f = false ∧ (st [(CFG.LOADED.f, 0)] (debug 1)).safeOnly = true := by decide +kernel

/-- Of two responses one is not the right one, whatever the key is; and the right one can be given. -/
theorem wit_responses : (∀ tag : Nat, ∃ r : Fin 2, (st [(DBG.RESP.f 1 0, r)] (debug 1)).words8 (fun w => DBG.RESP.f 1 w) ≠ tag) ∧
    ∀ r : Fin 2, ∃ tag : Nat, (st [(DBG.RESP.f 1 0, r)] (debug 1)).words8 (fun w => DBG.RESP.f 1 w) = tag := by
  have h : ∀ r : Fin 2, (st [(DBG.RESP.f 1 0, r)] (debug 1)).words8 (fun w => DBG.RESP.f 1 w) = r := by decide +kernel
  refine ⟨fun tag => ?_, fun r => ⟨_, rfl⟩⟩
  by_cases h0 : tag = 0
  · exact ⟨1, by rw [h, h0]; decide⟩
  · exact ⟨0, by rw [h]; exact fun e => h0 e.symm⟩

/-- The TAP: a boundary scan that acts and one that does not, by each of its conditions; an access that waits, that has
the level it needs, and that has not. -/
theorem wit_tap : (let may := fun (s : State) => s.rd (DBG.LEVEL.f 0) = 3 ∧ s.flag BST.RUN.f = false ∧ ∀ q : SeqId, s.rd (TWL.STATE_STATE.f q) = 0
      may (debug 1) ∧ ¬ may on ∧ ¬ may (st [(BST.RUN.f, 1)] (debug 1)) ∧ ¬ may (st [(DBG.LEVEL.f 0, 3)] running)) ∧
    scanBalls[0]?.any (fun b => !(debug 1).ballAbsent b) = true ∧ scanBalls.any ({ debug 1 with opt := .b } : State).ballAbsent = true ∧
    on.rd DBG.TAP_STAT.f ≠ 1 ∧
    (let s := st [(DBG.TAP_STAT.f, 1), (DBG.TAP_AT.f, 0x1400100C)] on
     let held := fun (s : State) => s.mustWait (.read .dbgJ (s.rd DBG.TAP_AT.f))
     s.rd DBG.TAP_STAT.f = 1 ∧ held s = false ∧ s.rd DBG.TAP_AT.f = 0x1400100C ∧ s.flag DBG.TAP_WR.f = false ∧ s.ratioBad = false ∧
     s.dieOn = true ∧ held (st [(DBG.TAP_AT.f, 0x24001000), (CLK.LK.f, 0)] s) = true ∧
     (st [(DBG.TAP_AT.f, 0x12000008)] s).rd (DBG.LEVEL.f 0) < needLevel 0x12000008 false ∧
     (s.dbgAccess .j 0x1400100C 4 none).1.ratioBad = false ∧
     (s.dbgAccess .j 0x1400100C 4 none).1.flag (DBG.DENIED.f 0) = false) := by decide +kernel

theorem wit_runMay : ∀ p : DbgPort, RunMay (debug 1) p 7 3 ∧ RunMay (debug 0) p 7 2 ∧ (debug 1).ratioBad = false ∧
    RunOp p 7 (3, .drst p 7) ∧ PortOpen { debug 1 with opt := .b } p ∧ { debug 1 with opt := .b }.hasMfp 7 = false := fun p =>
  ⟨⟨wit_portOpen p, by decide +kernel, by cases p <;> decide +kernel⟩,
    ⟨⟨by cases p <;> decide +kernel, fun _ => by decide +kernel⟩, by decide +kernel, by cases p <;> decide +kernel⟩, by decide +kernel,
    by simp [RunOp], ⟨by cases p <;> decide +kernel, fun _ => by decide +kernel⟩, by decide +kernel⟩

theorem wit_runControl : (debug 1).flag (DBG.HALTED.f 7) = true ∧ (debug 0).flag (DBG.HALTED.f 7) = false ∧
    ((debug 0).core 7).released = true ∧ ((debug 0).core 7).haltReq = none ∧ (on.core 7).released = false ∧
    on.level .j < 2 ∧ (st [(DBG.OWN.f 7, 2)] (debug 0)).ownedByOther .j 7 = true ∧
    (let c := (debug 0 { haltReq := some (5, 0) }).core 7
     c.haltReq = some (5, 0) ∧ c.released = true ∧ c.slot = 0 ∧ c.lastNi = false ∧ c.res = none) ∧
    ((debug 0 { haltReq := some (5, 0), res := some 3 }).core 7).res = some 3 ∧
    (let s := (st [(DBG.M_HGRP.f 7, 64)] (debug 0)).updCore 6 fun c => { c with released := true }
     s.bit (DBG.M_HGRP.f 7) 6 = true ∧ s.hasMfp 6 = true ∧ (s.core 6).released = true ∧ s.flag (DBG.HALTED.f 6) = false ∧
     (s.core 6).haltReq = none) := by decide +kernel

/-- A fed bundle that is excluded, one that would raise an exception, and an ADD. -/
theorem wit_fed : fedExcluded 0x70000000 = true ∧ fedExcluded 0x02080000 = false ∧
    (debug 1).bundleCause 7 0x7E000004 0 = some (11, none) ∧ fedExcluded 0x7E000004 = false ∧
    (let s := debug 1 {} (2 ^ 25 + 31 * 2 ^ 19 + 2 ^ 24) 0
     s.bundleCause 7 (s.rd (DBG.M_FEED_LO.f 7)) (s.rd (DBG.M_FEED_HI.f 7)) = none ∧
     mfpKind (s.rd (DBG.M_FEED_LO.f 7) % 2 ^ 31) = 1 ∧ mfpKind (s.rd (DBG.M_FEED_HI.f 7)) = 0 ∧ (s.core 7).remotes = [] ∧
     (s.core 7).flight = [] ∧ (s.core 7).srNext = []) := by decide +kernel

theorem wit_registerFile : (∀ p : Fin 2, let q := if p = 0 then DbgPort.j else .s
    1 ≤ (debug 1).level q ∧ 2 ≤ (debug 1).level q ∧ on.level q < 1 ∧
    (∀ w ∈ [0, 31, 32, 35, 36, 39, 40, 41, 47, 48, 59, 60, 63, 64, 71, 72],
      (st [(dbgPtr q (DBG.M_REG_IADDR_ADDR.f 7), w)] (debug 1)).rd (dbgPtr q (DBG.M_REG_IADDR_ADDR.f 7)) = w) ∧
    (st [(dbgPtr q (DBG.M_REG_IADDR_INC.f 7), 1)] (debug 1)).flag (dbgPtr q (DBG.M_REG_IADDR_INC.f 7)) = true ∧
    (st [(dbgPtr q (DBG.M_REG_IADDR_INC.f 7), 0)] (debug 1)).flag (dbgPtr q (DBG.M_REG_IADDR_INC.f 7)) = false) := by decide +kernel

/-- The machine as reset leaves it is in canonical form, and its queue is empty; with a command in it, it is not. -/
theorem wit_canon : State.reset.Canon ∧ State.reset.pending = [] ∧ off.dieOn = false ∧
    State.reset.flag CLK.XTAL_OK.f = false ∧ (st [(CLK.XTAL_OK.f, 1)]).flag CLK.XTAL_OK.f = true := by
  refine ⟨?_, by decide +kernel, by decide +kernel, by decide +kernel, by decide +kernel⟩
  constructor <;> decide +kernel

/-- The sources of the host port, each in both states. -/
theorem wit_sources18 : bitOf (on.route 1623) 21 = false ∧ bitOf ((tb EVT.src 0 [(1623, 2 ^ 21)] on).route 1623) 21 = true ∧
    1 ≤ (debug 1).rd (DBG.LEVEL.f 1) ∧ ¬ 1 ≤ on.rd (DBG.LEVEL.f 1) ∧ masterPort .slp = none ∧ on.dieOn = true := by decide +kernel

/-- The next cell of an analyser's queue, of a block that is known or new. -/
theorem wit_repairCell : (let c : RaCell := { grp := 7, block := 5, row := 3, col := 1 }
    let u := { session with queue := [c] }
    (on.setSession 3 u).sessions.find? 3 = some u ∧ u.queue = c :: []) := by decide +kernel

/-- The steps of the empty queue: a held write of a processor's clock takes effect when its island is back, and the
alarm comes with the second. -/
theorem wit_tick : on.pending = [] ∧ on.tick.ratioBad = false ∧
    (on.hold (.write .slp (CLK.MFP_MULT.f 7).addr 16)).tick.ratioBad = true ∧
    (let s := st [(PWR.STBY.f, 1), (PWR.ALARM_EN.f, 1), (PWR.WAKE_AT_LO.f, 5), (LDG.RTC_S.f, 4), (LDG.RTC_NS.f, 999999500)] off
     s.pending = [] ∧ s.dieOn = false ∧ s.flag CLK.XTAL_OK.f = true ∧ s.flag PWR.STBY.f = true ∧ s.flag PWR.ALARM_EN.f = true ∧
     s.flag PWR.WAKING.f = false ∧ s.atAlarm = false ∧ s.tick.rd LDG.RTC_S.f = s.rd PWR.WAKE_AT_LO.f + s.rd PWR.WAKE_AT_HI.f * 2 ^ 32) := by
  decide +kernel

/-- The sources of the host port and EV1615: each condition holds in one state and not in another. -/
theorem wit_levels18 : (∀ f ∈ [ETH.SESS.f, ETH.LINK.f, ETH.PTP_LOCK.f, LDG.FLUSH_ERR.f, LDG.RTC_VALID.f, LDG.BST_ANY.f],
      (st [(f, 1)] on).flag f = true ∧ (st [(f, 0)] on).flag f = false) ∧
    (∀ h ∈ [0, 9], ∀ v ∈ [1, 2], let s := tb LDG.sram 0 [(0x800 + 8 * h, v)] (st [(LDG.BST_HEAD.f, h)] on)
      s.tab LDG.sram 0 (0x800 + 8 * s.rd LDG.BST_HEAD.f) % 4 = v) ∧
    (∀ k : Fin 4, bitOf (on.view ETH.RX_NE.f) k = false ∧ bitOf ((on.withRxMsgs (SMap.set on.rxMsgs k [{ len := 4, words := [5] }] [])).view ETH.RX_NE.f) k = true) := by
  decide +kernel

/-! Worked examples of the spec, one step or one computed value each. -/

/-- The state after a command, if it answers a next state. -/
def after (c : Instr) (s : State) : Option State :=
  match Machine.exec c s with
  | .next t => some t
  | _ => none

/-- Chapter 2, worked example 1: the alias of bit 1 of the Damask word at 0x0024. -/
theorem test_alias : aliasAt 0x2A800484 = some (0x2A000024, 1) := by decide +kernel

/-- Chapter 11, worked example 1: START of ADC8 through its alias, with the entry 0x0000_8000. -/
theorem test_adcStart : (after (.registerWrite (.mfp 1) 0x2C800420 1) (tb ADC.list 8 [(0, 0x8000)] on)).map (fun t =>
    (t.rd (ADC.RUN.f 8), t.rd (ADC.LEFT.f 8), t.rd (ADC.CUR.f 8), t.rd (ADC.RUN.f 7))) = some (1, 1, 0x8000, 0) := by decide +kernel

/-- Chapter 4, worked example 2: TD 10,800 of CH79 exceeds the reset PLANE, and PLANE = 12,000 covers it. -/
theorem test_plane : (after (.timErrRel 2) ((on.setChWord 79 0x2201 10800))).map (fun t =>
      (t.rd (TIM.ERR_FULL.f 2), t.rd (TIM.ERR_CAP_CH.f 2), t.rd (TIM.ERR_CAP_KIND.f 2))) = some (1, 79, 2) ∧
    (after (.timErrRel 2) ((st [(TIM.PLANE.f, 12000)] on).setChWord 79 0x2201 10800)).map (fun t => t.rd (TIM.ERR_FULL.f 2)) =
      some 0 := by decide +kernel

/-- Chapter 8, worked example 1: the demand and quota of the bursts of TS0 and of the held request on TS9. -/
theorem test_demand : (let a : Alloc :=
      { kind := 0, size := 2 ^ 28, key := 0, st := 3, stored := 200 * 2 ^ 20, bpv := 36 * 256, tsmask := 1 }
    let s := tb TIM.sq 0 [(0, 1000), (9 * 64, 4000), (9 * 64 + 3, 1000)] on
    (s.demandOf 0 a).d = 1440 ∧ (s.demandOf 0 a).q = 299 ∧ (s.demandOf 9 { a with pfx := 131072, tsmask := 9 }).d = 1440 ∧
    (s.demandOf 9 { a with pfx := 131072, tsmask := 9 }).q = 301) := by decide +kernel

/-- Chapter 15, worked example 1: with two devices at 118 ns and 236 ns the release lead is 3.0 µs. -/
theorem test_releaseLead : (tb TWD.bar 0 [(7, 7)] (st [(TWD.ROST_LAT.f 1, 11800), (TWD.ROST_LAT.f 2, 23600)] on)).releaseLead 7 = 3000 := by
  decide +kernel

/-- R324: a value written as x16 in one pass of a rotating loop is read as x17 in the next. -/
theorem test_rotation : ∀ rb : Fin 16, ∀ k : Fin 15, (({ rb := rb } : MfpCore).phys (16 + k)) =
    ({ rb := (rb + 15) % 16 } : MfpCore).phys (17 + k) := by decide +kernel

/-- A step takes the command at the front of the queue, and leaves the rest. -/
theorem test_queue : (match Machine.step { on with pending := [.lockoutEnd .j, .stbyGo] } with
    | .next t => t.pending
    | _ => []) = [.stbyGo] := by decide +kernel

/-- FIPS 197, appendix C.3, which R277 names: AES-256 of the example block. -/
theorem test_aes256 : (let key := 0x000102030405060708090A0B0C0D0E0F101112131415161718191A1B1C1D1E1F
    aes256 key 0x00112233445566778899AABBCCDDEEFF = 0x8EA2B7CA516745BFEAFC49904B496089) := by decide +kernel

/-- FIPS 180-4 and RFC 4231, test case 2, which R530 names by SHA-256 and HMAC. -/
theorem test_sha256 : ofBe (sha256 [0x61, 0x62, 0x63]) = 0xBA7816BF8F01CFEA414140DE5DAE2223B00361A396177A9CB410FF61F20015AD := by
  decide +kernel
theorem test_hmac : ofBe (hmacSha256 [0x4A, 0x65, 0x66, 0x65] [0x77, 0x68, 0x61, 0x74, 0x20, 0x64, 0x6F, 0x20, 0x79, 0x61, 0x20, 0x77,
    0x61, 0x6E, 0x74, 0x20, 0x66, 0x6F, 0x72, 0x20, 0x6E, 0x6F, 0x74, 0x68, 0x69, 0x6E, 0x67, 0x3F]) =
      0x5BDCC146BF60754E6A042426089575C75A003F089D2739839DEC58B964EC3843 := by decide +kernel

/-- A scrambled block comes back from any state of a lane, and a message whose CRC block is changed is not taken. -/
theorem test_lineCode : (∀ b ∈ [idleBlock, amBlock 7, linkBlock 65535 true 3 4, startBlock 2 1 9 0], ∀ s ∈ [0, 1, 2 ^ 58 - 1, 0x123456789ABCDE],
      blockOff s (b.onLane s).1 = (some b, (b.onLane s).2)) ∧
    messageOk (messageBlocks 1 65535 0 [1, 2, 3]) = true ∧
    messageOk ((messageBlocks 1 65535 0 [1, 2, 3]).dropLast ++ [endBlock 5]) = false := by decide +kernel

/-- Chapter 10, worked example 1: 446 GiB of 512 are protected; LEVELS is 7, the root holds 56 counters. -/
theorem test_treeLevels : (512 * 16384 - (512 * 16384 * 33 + 255) / 256) / 16384 = 446 ∧
    treeLevels 16 116916224 = 7 ∧ nodesAt (116916224 / 16) 7 = 56 ∧ nodesTo (116916224 / 16) 7 = 16702310 := by decide +kernel

end Sys2Proof.Tests
end

section
/-! PROOF. The statements on the control plane: what a register access does where it reaches its unit, where the unit
is absent and where it ends with a bus error; and the three statements of this family, each of which a concrete state
refutes. -/

namespace Sys2Proof.Machine

variable {s : State}

/-! Where an access reaches its unit. -/

theorem State.openTo_iff {k : Nat} {b : Blk} :
    s.openTo k b = true ↔ s.gated b = false ∧ s.islandUp b = true ∧ s.heldIn k = [] := by
  simp [State.openTo, and_assoc]

theorem State.dieOn_of_not_gated {b : Blk} (h : s.gated b = false) : s.dieOn = true := by
  unfold State.gated at h
  cases hd : s.dieOn
  · simp [hd] at h
  · rfl

theorem State.islandUp_interconnect {b : Blk} (h : s.islandUp b = true) : s.bit CLK.LK.f 0 = true :=
  (Bool.and_eq_true_iff.1 h).1

/-- An access that is answered at once has its effect and no other (R10, R41). -/
theorem State.reach_of_openTo {x : Access} {b : Blk} {f : State → State} (h : s.openTo x.queue b = true)
    (hb : s.absent b = false) : s.reach x b f = f s := by
  obtain ⟨hg, hi, hq⟩ := State.openTo_iff.1 h
  simp [State.reach, State.reachUnit, State.dieOn_of_not_gated hg, State.islandUp_interconnect hi, hq, hb, hg, hi]

/-- An access whose way is free and whose unit is absent is one to an absent unit (R42). -/
theorem State.reachUnit_absent {x : Access} {b : Blk} {f : State → State} (hd : s.dieOn = true)
    (hl : s.bit CLK.LK.f 0 = true) (hq : s.heldIn x.queue = []) : s.reachUnit x b false f = s.absentUnit x := by
  simp [State.reachUnit, hd, hl, hq]

/-! A read of the queue of an absent flow processor: besides the capture, the read answers 0 (R42), so that the value
that the last read returned changes too. -/

theorem exec_evtNext_absent {m : MfpId} {q : Master} (hm : s.hasMfp m = false) (hd : s.dieOn = true)
    (hl : s.bit CLK.LK.f 0 = true) (hq : s.heldIn (masterIdx q) = []) :
    exec (.evtNext m q) s = .next ((s.absentHit (EVT.M_NEXT.f m).addr).answer 0) := by
  rw [exec_evtNext, execEvtNext, hm, State.reachUnit_absent (x := .read q _) hd hl hq]
  rfl

/-- An ST9128-B after its start, the clock of the interconnect running, whose last read answered 1. -/
def answeredB : State := ({ State.reset with opt := .b }.wr CLK.LK.f 1).wr SYS.RDATA.f 1

/-- Refutes O4. On an ST9128-B a read of the event queue of MFP 7, which is absent, answers 0 (R42) and so writes the
answer of the last read, SYS.RDATA, beside SYS_ABSENT_HIT: the frame of the clause on absent units leaves it out. -/
theorem not_everyCommandAnswers : ¬ Obligations.EveryCommandAnswers := by
  unfold Obligations.EveryCommandAnswers
  rintro ⟨-, -, hrow⟩
  have hd : answeredB.dieOn = true := by decide
  have hl : answeredB.bit CLK.LK.f 0 = true := by decide
  have hm : answeredB.hasMfp (7 : MfpId) = false := by decide
  obtain ⟨-, -, habsent, -⟩ := hrow (.evtNext 7 .slp) answeredB _ _ _ rfl
  obtain ⟨t, ht, -, hframe⟩ := habsent hd ⟨hl, rfl⟩ fun h => Bool.false_ne_true (hm.symm.trans h.2)
  rw [exec_evtNext_absent hm hd hl rfl] at ht
  cases ht
  have hkept := hframe.rd (f := SYS.RDATA.f) (by decide)
  rw [State.answer, State.rd_wr_same] at hkept
  exact absurd hkept (by decide)

/-! A write beyond the table of an indirect pair: it ends with a bus error (R40), which the configuration controller
notes where the write is its own (R382). -/

theorem State.pairAccess_beyond {m : Master} {p : Pair} {i : Nat} {v : Option Nat}
    (h : p.size ≤ s.rd (ptrFld m (p.addr.f i))) : s.pairAccess m p i v = (s, .busError) := by
  simp [State.pairAccess, h]

/-- A write of an IDATA register whose pointer lies beyond the table has no effect (R40). -/
theorem State.regWrite_beyond {m : Master} {a v i : Nat} {p : Pair} (ha : pairAt a = none)
    (hp : pairAt (a - 4) = some (p, i)) (h : p.size ≤ s.rd (ptrFld m (p.addr.f i))) : s.regWrite m a v = none := by
  simp [State.regWrite, ha, hp, State.pairAccess_beyond h]

/-- A word write of control space that its block refuses ends with a bus error. -/
theorem State.ctlWrite_refused {m : Master} {w : Option (Nat × Nat × Bool)} {a v : Nat} (ha : a % 4 = 0)
    (hlow : 0x10000000 ≤ a) (hhigh : a < 0x3C000000) (hdbg : inDbg a = false)
    (h : s.blockWrite m a (v % 2 ^ 32) = none) : s.ctlWrite m w a 4 v = (s, .busError) := by
  have hap : ¬ 0x80000000 ≤ a := by omega
  have hview : ¬ a < 0x10000000 := by omega
  have huser : ¬ 0x3C000000 ≤ a := by omega
  unfold State.ctlWrite
  rw [if_neg (by simp [ha]), if_neg hap, if_neg hview, if_neg (by simp [hdbg]), if_neg (by simp [huser]), h]

theorem State.serve_cfgWrite_busError {a v : Nat} (h : s.busWrite .cfg a 4 v = (s, .busError)) :
    s.serve (.write .cfg a v) = s.setFlag CFG.PAIR_ERR.f true := by
  simp [State.serve, h]

/-- The address of LDG_IDATA, in front of which its pointer lies. -/
def ledgerData : Nat := 0x15001034

/-- A write of LDG_IDATA by the configuration controller, the pointer being beyond the ledger. -/
theorem State.busWrite_ledgerData_beyond (v : Nat) (hg : s.gated .ldg = false) (hw : 16384 ≤ s.rd LDG.IADDR_ADDR.f) :
    s.busWrite .cfg ledgerData 4 v = (s, .busError) := by
  have hblk : blkAt (regOf ledgerData) = some .ldg := rfl
  have halias : aliasAt ledgerData = none := rfl
  have hunit : s.unitAbsent (regOf ledgerData) = false := rfl
  have hwrite : s.blockWrite .cfg ledgerData (v % 2 ^ 32) = none := by
    simp [State.blockWrite, hblk, halias, hunit, hg, State.absent,
      State.regWrite_beyond (m := .cfg) (a := ledgerData) rfl rfl hw]
  exact State.ctlWrite_refused (w := none) rfl (by decide) (by decide) rfl hwrite

/-- All that such a write does is to be noted by the controller. -/
theorem exec_ledgerWrite_beyond {v : Word} {t : State} (hg : s.gated .ldg = false)
    (hw : 16384 ≤ s.rd LDG.IADDR_ADDR.f)
    (hwait : s.mustWait (.write .cfg ledgerData v.toNat) = false)
    (ht : exec (.indirectDataAccess .cfg ledgerData (some v)) s = .next t) : t = s.setFlag CFG.PAIR_ERR.f true := by
  have haccess : s.access (.write .cfg ledgerData v.toNat) = s.setFlag CFG.PAIR_ERR.f true := by
    rw [State.access, hwait, if_neg Bool.false_ne_true,
      State.serve_cfgWrite_busError (State.busWrite_ledgerData_beyond v.toNat hg hw)]
  have hexec : exec (.indirectDataAccess .cfg ledgerData (some v)) s =
      doneClk (s.access (.write .cfg ledgerData v.toNat)) := rfl
  rw [hexec, haccess] at ht
  rcases doneClk_answers (s.setFlag CFG.PAIR_ERR.f true) with h | h
  · exact (Host.Outcome.next.inj (h.symm.trans ht)).symm
  · exact absurd (h.symm.trans ht) nofun

/-- A device whose ledger is clocked, the pointer into it just beyond its last word. -/
def beyondLedger : State := ((State.reset.wr CLK.EN.f (2 ^ 27)).wr CLK.LK.f 1).wr LDG.IADDR_ADDR.f 16384

/-- Refutes O6. A write of LDG_IDATA by the configuration controller with the pointer at 16,384 ends with a bus error,
which the controller notes in CFG.PAIR_ERR: the clause on a pointer beyond the ledger allows no such change. -/
theorem not_registerAndTableAccesses : ¬ Obligations.RegisterAndTableAccesses := by
  unfold Obligations.RegisterAndTableAccesses
  rintro ⟨-, -, -, -, hpair⟩
  have hg : beyondLedger.gated .ldg = false := by decide
  have hw : 16384 ≤ beyondLedger.rd LDG.IADDR_ADDR.f := by decide
  have hwait : beyondLedger.mustWait (.write .cfg ledgerData 0) = false := by decide
  obtain ⟨hledger, -⟩ := hpair .cfg (some 0) beyondLedger (by decide) nofun
  obtain ⟨hbeyond, -, -⟩ := hledger hg hwait
  obtain ⟨t, ht, hframe⟩ := hbeyond hw
  cases exec_ledgerWrite_beyond hg hw hwait ht
  have hkept := hframe.rd (f := CFG.PAIR_ERR.f) nofun
  rw [State.setFlag, State.rd_wr_same] at hkept
  exact absurd hkept (by decide)

/-! A read of the result port: the value answered is that of word 15 of the head result as the queue holds it, cut to
the 64 bits of the answer. -/

theorem State.rd_answer (s : State) (v : Nat) : (s.answer v).rd SYS.RDATA.f = v % 2 ^ 64 := State.rd_wr_same _ _ _

theorem State.portTake_regs (s : State) (site : Nat) : (s.portTake site).regs = s.regs := by
  unfold State.portTake
  split <;> rfl

theorem exec_resultPortRead_answer {m : Master} (h : s.openTo (masterIdx m) .dmk = true) :
    ∃ t, exec (.resultPortRead m) s = .next t ∧
      t.rd SYS.RDATA.f = s.headResult (s.rd DMK.RSP_SEL_SITE.f) 15 % 2 ^ 64 := by
  refine ⟨_, congrArg Host.Outcome.next (State.reach_of_openTo (x := .read m _) h rfl), ?_⟩
  dsimp only
  split
  · rw [State.rd, State.portTake_regs]
    exact State.rd_answer _ _
  · exact State.rd_answer _ _

/-- A result whose word 15 is 2^32, one more than 32 bits hold. -/
def wideResult : ResultEntry :=
  { words := List.replicate 15 0 ++ [2 ^ 32], byPort := false, bySlp := false, upto := 0, ord := 0 }

/-- A device whose Damask is clocked, with one result in the queue of site 0. -/
def oneWideResult : State := ({ State.reset with results := [(0, [wideResult])] }.wr CLK.EN.f (2 ^ 7)).wr CLK.LK.f 5

/-- Refutes O24. The answer of the last read, SYS.RDATA, is 64 bits wide, so a read of DMK_RSP_D15 answers a word 15 of
2^32 as it is, where the clause on the result port has it cut to 32 bits without asking that the words of the queue
fit in 32 bits. -/
theorem not_recordsAndResultsReachTheirConsumers : ¬ Obligations.RecordsAndResultsReachTheirConsumers := by
  unfold Obligations.RecordsAndResultsReachTheirConsumers
  rintro ⟨-, -, -, -, -, -, hport⟩
  have hopen : oneWideResult.openTo (masterIdx .slp) .dmk = true := by decide
  obtain ⟨-, hhead⟩ := hport .slp oneWideResult hopen
  obtain ⟨t, ht, hcut, -⟩ := hhead wideResult [] rfl (by decide) (by simp [wideResult])
  obtain ⟨u, hu, hword⟩ := exec_resultPortRead_answer hopen
  cases Host.Outcome.next.inj (ht.symm.trans hu)
  rw [hword] at hcut
  exact absurd hcut (by decide)

end Sys2Proof.Machine
end

section
/-! PROOF. What the statements on the pin front end share: when the keys of fields differ, how a value is followed
through an update that leaves it alone, and through a loop of which one turn alone concerns it. -/

namespace Sys2Proof.Machine

variable {s t u : State} {ks : List Nat} {fs : List Fld}

/-! Keys of fields. -/

/-- Every register of `l` lies below the first register of `m`. -/
def Lay.below (l m : Lay) : Bool :=
  decide (l.lsb < 32 ∧ l.base + (l.n1 - 1) * l.s1 + (l.n2 - 1) * l.s2 < m.base)

theorem Lay.key_lt_of_below {l m : Lay} {i j i' j' : Nat} (h : l.below m = true) (hi : i < l.n1) (hj : j < l.n2) :
    (l.f i j).key < (m.f i' j').key := by
  obtain ⟨hlsb, hbase⟩ := of_decide_eq_true h
  have h1 : i * l.s1 ≤ (l.n1 - 1) * l.s1 := Nat.mul_le_mul_right _ (by omega)
  have h2 : j * l.s2 ≤ (l.n2 - 1) * l.s2 := Nat.mul_le_mul_right _ (by omega)
  rw [l.key_eq, m.key_eq]
  omega

/-- The fields of two channels of one layout differ where a tile's channels fit between one tile and the next. -/
theorem Lay.ch_key_ne {l : Lay} {c c' : Nat} (h0 : 0 < l.s2) (h1 : 32 * l.s2 ≤ l.s1) (h : c ≠ c') :
    (l.ch c).key ≠ (l.ch c').key := fun e => h <| by
  have hin : ∀ a : Nat, a % 32 * l.s2 < l.s1 := fun a =>
    Nat.lt_of_lt_of_le (Nat.mul_lt_mul_of_pos_right (Nat.mod_lt a (by decide)) h0) h1
  have hsum : c % 32 * l.s2 + l.s1 * (c / 32) = c' % 32 * l.s2 + l.s1 * (c' / 32) := by
    rw [Lay.ch, Lay.ch, l.key_eq, l.key_eq, Nat.mul_comm (c / 32), Nat.mul_comm (c' / 32)] at e
    omega
  have hmod := congrArg (· % l.s1) hsum
  simp only [Nat.add_mul_mod_self_left, Nat.mod_eq_of_lt (hin _)] at hmod
  have hdiv : l.s1 * (c / 32) = l.s1 * (c' / 32) := by omega
  have htile := Nat.eq_of_mul_eq_mul_left (Nat.lt_of_le_of_lt (Nat.zero_le _) (hin c)) hdiv
  have hchan := Nat.eq_of_mul_eq_mul_right h0 hmod
  omega

/-- No register of `l` is one of the first `n` of `m`: by their strides, or since one of the two lies below the other.
-/
def Lay.clearOf (n : Nat) (l m : Lay) : Bool := l.apart m || l.below m || decide (n ≤ m.n1 ∧ 0 < m.n2) && m.below l

theorem Lay.key_ne_of_clear {l m : Lay} {n i j k : Nat} (h : l.clearOf n m = true) (hi : i < l.n1) (hj : j < l.n2)
    (hk : k < n) : (l.f i j).key ≠ (m.f k).key := by
  rcases Bool.or_eq_true_iff.1 h with h | h
  · rcases Bool.or_eq_true_iff.1 h with h | h
    · exact Lay.key_ne h
    · exact Nat.ne_of_lt (Lay.key_lt_of_below h hi hj)
  · obtain ⟨hn, h⟩ := Bool.and_eq_true_iff.1 h
    obtain ⟨hn, h0⟩ := of_decide_eq_true hn
    exact Nat.ne_of_gt (Lay.key_lt_of_below h (Nat.lt_of_lt_of_le hk hn) h0)

/-- The keys of the fields numbered `k` of some layouts. -/
def keysAt (k : Nat) (ls : List Lay) : List Nat := ls.map fun l => (l.f k).key

theorem Lay.key_notMem_keysAt {l : Lay} {n i j k : Nat} {ls : List Lay} (h : ls.all (l.clearOf n) = true)
    (hi : i < l.n1) (hj : j < l.n2) (hk : k < n) : (l.f i j).key ∉ keysAt k ls := fun hmem => by
  obtain ⟨m, hm, hkey⟩ := List.mem_map.1 hmem
  exact Lay.key_ne_of_clear (List.all_eq_true.1 h m hm) hi hj hk hkey.symm

theorem Lay.key_notMem_keys {l : Lay} {i j n : Nat} {ls : List Lay} (h : ls.all (l.clearOf n) = true) (hi : i < l.n1)
    (hj : j < l.n2) : (l.f i j).key ∉ keys n ls := fun hmem => by
  obtain ⟨m, hm, hmem⟩ := List.mem_flatMap.1 hmem
  obtain ⟨k, hk, hkey⟩ := List.mem_map.1 hmem
  exact Lay.key_ne_of_clear (List.all_eq_true.1 h m hm) hi hj (List.mem_range.1 hk) hkey.symm

theorem keysAt_subset_keys {k n : Nat} {ls : List Lay} (hk : k < n) : keysAt k ls ⊆ keys n ls := fun _ hx => by
  obtain ⟨l, hl, rfl⟩ := List.mem_map.1 hx
  exact mem_keys hl hk

theorem keys_subset {n : Nat} {ls ms : List Lay} (h : ls ⊆ ms) : keys n ls ⊆ keys n ms := fun _ hx => by
  obtain ⟨l, hl, hx⟩ := List.mem_flatMap.1 hx
  exact List.mem_flatMap.2 ⟨l, h hl, hx⟩

/-! Values that an update leaves alone. -/

theorem Same.refl (fs : List Fld) (s : State) : Same fs s s := fun _ _ => rfl

theorem Same.trans (h : Same fs s t) (h' : Same fs t u) : Same fs s u := fun f hf => (h' f hf).trans (h f hf)

theorem Same.mono {gs : List Fld} (h : Same fs s t) (hg : ∀ f ∈ gs, f ∈ fs) : Same gs s t := fun f hf => h f (hg f hf)

theorem Same.wr {f : Fld} {v : Nat} (h : Same fs s t) (hk : ∀ g ∈ fs, f.key ≠ g.key) : Same fs s (t.wr f v) :=
  fun g hg => (State.rd_wr_ne t v (hk g hg)).trans (h g hg)

theorem Same.of_regs (h : t.regs = s.regs) : Same fs s t := fun f _ => by rw [State.rd, State.rd, h]

theorem State.flag_congr {f : Fld} (h : t.rd f = s.rd f) : t.flag f = s.flag f := congrArg (· != 0) h

theorem Same.flag {f : Fld} (h : Same fs s t) (hf : f ∈ fs) : t.flag f = s.flag f := State.flag_congr (h f hf)

theorem RegsBut.same (h : RegsBut ks s t) (hk : ∀ f ∈ fs, f.key ∉ ks) : Same fs s t := fun f hf => h.rd (hk f hf)

theorem RegsBut.flag {f : Fld} (h : RegsBut ks s t) (hk : f.key ∉ ks) : t.flag f = s.flag f :=
  State.flag_congr (h.rd hk)

/-- Fields of tile `k` that an update of other fields leaves alone. -/
theorem RegsBut.same_lays {ls : List Lay} {k : Nat} (h : RegsBut ks s t) (hl : ∀ l ∈ ls, (l.f k).key ∉ ks) :
    Same (ls.map fun l => l.f k) s t := h.same fun _ hf => by
  obtain ⟨l, hl', rfl⟩ := List.mem_map.1 hf
  exact hl l hl'

theorem RegsBut.setFlag {f : Fld} {b : Bool} (h : RegsBut ks s t) (hk : f.key ∈ ks) : RegsBut ks s (t.setFlag f b) :=
  h.wr hk

theorem RegsBut.mono {ks' : List Nat} (h : RegsBut ks s t) (hk : ks ⊆ ks') : RegsBut ks' s t :=
  fun k hn => h k fun hm => hn (hk hm)

theorem OnlyRegs.flag {f : Fld} (h : OnlyRegs ks s t) (hk : f.key ∉ ks) : t.flag f = s.flag f := h.2.flag hk

theorem State.tab_congr {b : Tab} {n i : Nat} (h : t.tabs = s.tabs) : t.tab b n i = s.tab b n i := by
  rw [State.tab, State.tab, h]

theorem OnlyRegs.tab {b : Tab} {n i : Nat} (h : OnlyRegs ks s t) : t.tab b n i = s.tab b n i :=
  State.tab_congr (h.1 .tabs (by decide))

theorem Only.mono {ps qs : List Part} (h : Only ps s t) (hq : ps ⊆ qs) : Only qs s t :=
  fun p hn => h p fun hp => hn (hq hp)

/-! Loops. -/

/-- A loop of which turn `k` alone concerns some fields: they hold what they held at first when that turn begins, and
what it gave them when the loop ends. -/
theorem State.forUpTo_turn {n k : Nat} {f : State → Nat → State} (hk : k < n)
    (hf : ∀ u j, j < n → j ≠ k → Same fs u (f u j)) :
    ∃ u, Same fs s u ∧ Same fs (f u k) (s.forUpTo n f) := by
  have h := State.forUpTo_ind (s := s) (n := n) (f := f)
    (fun m v => (m ≤ k ∧ Same fs s v) ∨ (k < m ∧ ∃ u, Same fs s u ∧ Same fs (f u k) v))
    (.inl ⟨Nat.zero_le k, Same.refl fs s⟩) fun m v hm hv => by
      rcases hv with ⟨hle, hv⟩ | ⟨hlt, u, hu, hv⟩
      · rcases Nat.lt_or_eq_of_le hle with hlt | rfl
        · exact .inl ⟨hlt, hv.trans (hf v m hm (Nat.ne_of_lt hlt))⟩
        · exact .inr ⟨Nat.lt_succ_self m, v, hv, Same.refl fs _⟩
      · exact .inr ⟨Nat.lt_succ_of_lt hlt, u, hu, hv.trans (hf v m hm (Nat.ne_of_gt hlt))⟩
  rcases h with ⟨hle, -⟩ | ⟨-, h⟩
  · exact absurd hk (Nat.not_lt.2 hle)
  · exact h

/-- A loop no turn of which concerns some fields. -/
theorem Same.forUpTo {n : Nat} {f : State → Nat → State} (hf : ∀ u j, j < n → Same fs u (f u j)) :
    Same fs s (s.forUpTo n f) :=
  State.forUpTo_ind (fun _ v => Same fs s v) (Same.refl fs s) fun m v hm hv => hv.trans (hf v m hm)

theorem RegsBut.forUpTo {n : Nat} {f : State → Nat → State} (hf : ∀ u j, j < n → RegsBut ks u (f u j)) :
    RegsBut ks s (s.forUpTo n f) :=
  State.forUpTo_ind (fun _ v => RegsBut ks s v) (RegsBut.refl ks s) fun m v hm hv => hv.trans (hf v m hm)

/-- A loop that sets the flag of every tile. -/
theorem State.flag_forUpTo_setFlag {l : Lay} {k n : Nat} {b : Bool} (hk : k < n) (hw : l.width = 1) (hs : l.s1 ≠ 0) :
    (s.forUpTo n fun s i => s.setFlag (l.f i) b).flag (l.f k) = b := by
  obtain ⟨u, -, hu⟩ := State.forUpTo_turn (s := s) (fs := [l.f k]) (f := fun s i => s.setFlag (l.f i) b) hk
    fun u j _ hj => (Same.refl _ u).wr fun g hg => List.mem_singleton.1 hg ▸ Lay.key_ne_idx hs hj
  rw [hu.flag (List.mem_singleton.2 rfl)]
  exact State.flag_setFlag_f hw

theorem OnlyRegs.forUpTo_setFlag {l : Lay} {n : Nat} {b : Bool} (hl : ∀ i, i < n → (l.f i).key ∈ ks) :
    OnlyRegs ks s (s.forUpTo n fun s i => s.setFlag (l.f i) b) :=
  (OnlyRegs.refl ks s).forUpTo fun _ i hi ht => ht.setFlag (hl i hi)

theorem KeepsOut.only {l : List Part} {o : Out} (h : KeepsOut (maskOf l) s o) (e : o = .next t) : Only l s t := by
  subst e
  exact Keeps.only h

end Sys2Proof.Machine
end

section
/-! PROOF. Levels, the driver's swing and the PMU: the statement on level writes. -/

namespace Sys2Proof.Machine

variable {s t : State}

/-! Levels (R53 to R58). -/

theorem mem_allLevels (l : Level) : l ∈ allLevels := by cases l <;> decide

theorem levelIdx_inj {l l' : Level} (h : levelIdx l = levelIdx l') : l = l' :=
  (by decide : ∀ l ∈ allLevels, ∀ l' ∈ allLevels, levelIdx l = levelIdx l' → l = l')
    l (mem_allLevels l) l' (mem_allLevels l') h

theorem levelLay_apart {l l' : Level} (h : l ≠ l') : (levelLay l).apart (levelLay l') = true :=
  (by decide : ∀ l ∈ allLevels, ∀ l' ∈ allLevels, l ≠ l' → (levelLay l).apart (levelLay l') = true)
    l (mem_allLevels l) l' (mem_allLevels l') h

theorem levelLay_apart_range (l : Level) : (levelLay l).apart VLV.LVL_RANGE = true := by cases l <;> rfl

theorem levelLay_width (l : Level) : (levelLay l).width = 16 := by cases l <;> rfl

theorem levelLo_le_levelHi (l : Level) : levelLo l ≤ levelHi l := by cases l <;> decide

/-- The registers of two levels differ where the level or the channel does. -/
theorem levelKey_ne {l l' : Level} {c c' : Nat} (h : c ≠ c' ∨ l ≠ l') :
    ((levelLay l).ch c).key ≠ ((levelLay l').ch c').key := by
  by_cases hl : l = l'
  · subst hl
    exact Lay.ch_key_ne (by cases l <;> decide) (by cases l <;> decide) (h.resolve_right (· rfl))
  · exact Lay.key_ne (levelLay_apart hl)

theorem levelKey_ne_range (l : Level) (c c' : Nat) : ((levelLay l).ch c).key ≠ (VLV.LVL_RANGE.ch c').key :=
  Lay.key_ne (levelLay_apart_range l)

theorem heldKey_ne {l l' : Level} {c c' : Nat} (h : c ≠ c' ∨ l ≠ l') :
    VLV.held.key c (levelIdx l) ≠ VLV.held.key c' (levelIdx l') := fun e => by
  have hlt : ∀ l, levelIdx l < 9 := fun l => by cases l <;> decide
  have := hlt l
  have := hlt l'
  have hkeys : (3 * 2 ^ 16 + c) * 2 ^ 32 + levelIdx l = (3 * 2 ^ 16 + c') * 2 ^ 32 + levelIdx l' := e
  rcases h with h | h
  · omega
  · exact h (levelIdx_inj (by omega))

theorem State.rd_wr_level (s : State) (l : Level) (c v : Nat) :
    (s.wr ((levelLay l).ch c) v).rd ((levelLay l).ch c) = v % 2 ^ 16 :=
  (State.rd_wr_same _ _ _).trans (congrArg (v % 2 ^ ·) (levelLay_width l))

/-- LVL_RANGE is no input of what it shows. -/
theorem State.levelBad_levelStatus (s : State) (c : Nat) : (s.levelStatus c).levelBad c = s.levelBad c := by
  have hlevel : ∀ l, (s.levelStatus c).rd ((levelLay l).ch c) = s.rd ((levelLay l).ch c) := fun l =>
    State.rd_setFlag_ne _ (levelKey_ne_range l c c).symm
  have hmode : (s.levelStatus c).rd (VLV.CH_PMU_MODE.ch c) = s.rd (VLV.CH_PMU_MODE.ch c) :=
    State.rd_setFlag_ne _ (Lay.key_ne rfl)
  have hforce : (s.levelStatus c).rd (VLV.CH_PMU_FORCE.ch c) = s.rd (VLV.CH_PMU_FORCE.ch c) :=
    State.rd_setFlag_ne _ (Lay.key_ne rfl)
  simp only [State.levelBad, State.levelCode, State.pmuMode, hlevel, hmode, hforce]

theorem State.flag_levelStatus (s : State) (c : Nat) :
    (s.levelStatus c).flag (VLV.LVL_RANGE.ch c) = (s.levelStatus c).levelBad c := by
  rw [State.levelBad_levelStatus]
  exact State.flag_setFlag_f rfl

theorem State.writeLevel_staged {c code : Nat} {l : Level} (h : (s.flag (VLV.LVL_STAGED.ch c) && staged l) = true) :
    s.writeLevel c l code = s.setTab VLV.held c (levelIdx l) (code + 1) := if_pos h

theorem State.writeLevel_unstaged {c code : Nat} {l : Level}
    (h : (s.flag (VLV.LVL_STAGED.ch c) && staged l) = false) : s.writeLevel c l code =
      ((s.setTab VLV.held c (levelIdx l) 0).wr ((levelLay l).ch c) code).levelStatus c :=
  if_neg (by rw [h]; exact Bool.false_ne_true)

theorem State.tab_writeLevel_unstaged {c code : Nat} {l : Level}
    (h : (s.flag (VLV.LVL_STAGED.ch c) && staged l) = false) :
    (s.writeLevel c l code).tab VLV.held c (levelIdx l) = 0 := by
  rw [State.writeLevel_unstaged h]
  exact State.tab_setTab_same s VLV.held c (levelIdx l) 0

theorem State.rd_writeLevel_unstaged {c code : Nat} {l : Level}
    (h : (s.flag (VLV.LVL_STAGED.ch c) && staged l) = false) :
    (s.writeLevel c l code).rd ((levelLay l).ch c) = code % 2 ^ 16 := by
  rw [State.writeLevel_unstaged h, State.levelStatus, State.rd_setFlag_ne _ (levelKey_ne_range l c c).symm,
    State.rd_wr_level]

theorem State.writeLevel_unstaged_frame {c code : Nat} {l : Level}
    (h : (s.flag (VLV.LVL_STAGED.ch c) && staged l) = false) :
    OnlyRegsTabs [((levelLay l).ch c).key, (VLV.LVL_RANGE.ch c).key] [VLV.held.key c (levelIdx l)] s
      (s.writeLevel c l code) := by
  have htabs : TabsBut [VLV.held.key c (levelIdx l)] s (s.setTab VLV.held c (levelIdx l) 0) :=
    (TabsBut.refl _ s).setTab (by simp)
  rw [State.writeLevel_unstaged h]
  exact ⟨(((Only.refl _ s).setTab (by simp)).wr (by simp)).wr (by simp),
    ((RegsBut.refl _ s).wr (by simp)).wr (by simp), htabs⟩

theorem State.readLevel_of_held {c v : Nat} {l : Level} (h : s.tab VLV.held c (levelIdx l) = v + 1) :
    s.readLevel c l = v := by rw [State.readLevel, h]

theorem State.readLevel_of_none {c : Nat} {l : Level} (h : s.tab VLV.held c (levelIdx l) = 0) :
    s.readLevel c l = s.levelCode l c := by rw [State.readLevel, h]

theorem State.levelCode_bounds (s : State) (l : Level) (c : Nat) :
    levelLo l ≤ s.levelCode l c ∧ s.levelCode l c ≤ levelHi l :=
  ⟨Nat.le_max_left _ _, Nat.max_le.2 ⟨levelLo_le_levelHi l, Nat.min_le_left _ _⟩⟩

theorem State.levelCode_of_valid {c : Nat} {l : Level} (hlo : levelLo l ≤ s.rd ((levelLay l).ch c))
    (hhi : s.rd ((levelLay l).ch c) ≤ levelHi l) : s.levelCode l c = s.rd ((levelLay l).ch c) := by
  rw [State.levelCode, clampCode, Nat.min_eq_right hhi, Nat.max_eq_right hlo]

theorem State.levelUv_eq (s : State) (l : Level) (c : Nat) :
    s.levelUv l c = -2000000 + 100 * (s.levelCode l c : Int) := by
  rw [State.levelUv, codeUv]
  omega

/-- What a commit leaves in the register of a level: the value held, or the register as it stands. -/
def State.committed (s : State) (c : Nat) (l : Level) : Nat :=
  match s.tab VLV.held c (levelIdx l) with
  | 0 => s.rd ((levelLay l).ch c)
  | v + 1 => v % 2 ^ 16

theorem State.committed_of_none {c : Nat} {l : Level} (h : s.tab VLV.held c (levelIdx l) = 0) :
    s.committed c l = s.rd ((levelLay l).ch c) := by rw [State.committed, h]

theorem State.committed_of_held {c v : Nat} {l : Level} (h : s.tab VLV.held c (levelIdx l) = v + 1) :
    s.committed c l = v % 2 ^ 16 := by rw [State.committed, h]

theorem State.committed_congr {c : Nat} {l : Level}
    (ht : t.tab VLV.held c (levelIdx l) = s.tab VLV.held c (levelIdx l))
    (hr : t.rd ((levelLay l).ch c) = s.rd ((levelLay l).ch c)) : t.committed c l = s.committed c l := by
  rw [State.committed, State.committed, ht, hr]

theorem State.applyHeld_of_none {c : Nat} {l : Level} (h : s.tab VLV.held c (levelIdx l) = 0) :
    s.applyHeld c l = s := by rw [State.applyHeld, h]

theorem State.applyHeld_of_held {c v : Nat} {l : Level} (h : s.tab VLV.held c (levelIdx l) = v + 1) :
    s.applyHeld c l = (s.setTab VLV.held c (levelIdx l) 0).wr ((levelLay l).ch c) v := by rw [State.applyHeld, h]

theorem State.applyHeld_tab_same (s : State) (c : Nat) (l : Level) :
    (s.applyHeld c l).tab VLV.held c (levelIdx l) = 0 := by
  cases h : s.tab VLV.held c (levelIdx l) with
  | zero => rw [State.applyHeld_of_none h, h]
  | succ v => rw [State.applyHeld_of_held h, State.tab_wr, State.tab_setTab_same, Nat.zero_mod]

theorem State.applyHeld_tab_ne (s : State) {c c' : Nat} {l l' : Level} (hne : c ≠ c' ∨ l ≠ l') :
    (s.applyHeld c l).tab VLV.held c' (levelIdx l') = s.tab VLV.held c' (levelIdx l') := by
  cases h : s.tab VLV.held c (levelIdx l) with
  | zero => rw [State.applyHeld_of_none h]
  | succ v => rw [State.applyHeld_of_held h, State.tab_wr, State.tab_setTab_ne _ _ (heldKey_ne hne)]

theorem State.applyHeld_rd (s : State) {c : Nat} {l : Level} {f : Fld} (hne : ((levelLay l).ch c).key ≠ f.key) :
    (s.applyHeld c l).rd f = s.rd f := by
  cases h : s.tab VLV.held c (levelIdx l) with
  | zero => rw [State.applyHeld_of_none h]
  | succ v => rw [State.applyHeld_of_held h, State.rd_wr_ne _ _ hne, State.rd_setTab]

/-- Applying one held value changes nothing of what a commit leaves. -/
theorem State.applyHeld_committed (s : State) (c c' : Nat) (l l' : Level) :
    (s.applyHeld c l).committed c' l' = s.committed c' l' := by
  by_cases hne : c ≠ c' ∨ l ≠ l'
  · exact State.committed_congr (s.applyHeld_tab_ne hne) (s.applyHeld_rd (levelKey_ne hne))
  obtain ⟨rfl, rfl⟩ : c = c' ∧ l = l' := by simpa using hne
  rw [State.committed_of_none (s.applyHeld_tab_same c l)]
  cases h : s.tab VLV.held c (levelIdx l) with
  | zero => rw [State.applyHeld_of_none h, State.committed_of_none h]
  | succ v => rw [State.applyHeld_of_held h, State.committed_of_held h, State.rd_wr_level]

theorem State.levelStatus_committed (s : State) (c c' : Nat) (l : Level) :
    (s.levelStatus c).committed c' l = s.committed c' l :=
  State.committed_congr rfl (State.rd_setFlag_ne _ (levelKey_ne_range l c' c).symm)

/-- A level of which no value is held has none held after another is applied. -/
theorem State.applyHeld_tab_zero {c c' : Nat} {l l' : Level} (h : s.tab VLV.held c' (levelIdx l') = 0) :
    (s.applyHeld c l).tab VLV.held c' (levelIdx l') = 0 := by
  by_cases hne : c ≠ c' ∨ l ≠ l'
  · rw [s.applyHeld_tab_ne hne, h]
  obtain ⟨rfl, rfl⟩ : c = c' ∧ l = l' := by simpa using hne
  exact s.applyHeld_tab_same c l

theorem State.foldl_applyHeld_tab_zero {c c' : Nat} {l' : Level} {ls : List Level}
    (h : s.tab VLV.held c' (levelIdx l') = 0) :
    (ls.foldl (fun s l => s.applyHeld c l) s).tab VLV.held c' (levelIdx l') = 0 := by
  induction ls generalizing s with
  | nil => exact h
  | cons l ls ih => exact ih (State.applyHeld_tab_zero h)

theorem State.foldl_applyHeld_tab_mem {c : Nat} {l' : Level} {ls : List Level} (hl : l' ∈ ls) :
    (ls.foldl (fun s l => s.applyHeld c l) s).tab VLV.held c (levelIdx l') = 0 := by
  induction ls generalizing s with
  | nil => cases hl
  | cons l ls ih =>
    rcases List.mem_cons.1 hl with rfl | hl
    · exact State.foldl_applyHeld_tab_zero (s := s.applyHeld c l') (s.applyHeld_tab_same c l')
    · exact ih hl

theorem State.foldl_applyHeld_committed {c c' : Nat} {l' : Level} {ls : List Level} :
    (ls.foldl (fun s l => s.applyHeld c l) s).committed c' l' = s.committed c' l' := by
  induction ls generalizing s with
  | nil => rfl
  | cons l ls ih => exact ih.trans (s.applyHeld_committed c c' l l')

theorem State.foldl_applyHeld_rd {c : Nat} {f : Fld} {ls : List Level}
    (h : ∀ l, f.key ≠ ((levelLay l).ch c).key) : (ls.foldl (fun s l => s.applyHeld c l) s).rd f = s.rd f := by
  induction ls generalizing s with
  | nil => rfl
  | cons l ls ih => exact ih.trans (s.applyHeld_rd (h l).symm)

/-- A commit leaves no value of the tile held (R55). -/
theorem State.lvlCommit_tab {n k : Nat} {l : Level} (hk : k < 32) :
    (s.lvlCommit n).tab VLV.held (32 * n + k) (levelIdx l) = 0 := by
  have h : ∀ j, j < 32 → (s.lvlCommit n).tab VLV.held (32 * n + j) (levelIdx l) = 0 := by
    unfold State.lvlCommit
    refine State.forUpTo_ind (fun m v => ∀ j, j < m → v.tab VLV.held (32 * n + j) (levelIdx l) = 0)
      (fun _ hj => absurd hj (Nat.not_lt_zero _)) fun m v _ hv j hj => ?_
    rw [State.levelStatus, State.setFlag, State.tab_wr]
    rcases Nat.lt_succ_iff_lt_or_eq.1 hj with hj | rfl
    · exact State.foldl_applyHeld_tab_zero (hv j hj)
    · exact State.foldl_applyHeld_tab_mem (mem_allLevels l)
  exact h k hk

theorem State.lvlCommit_committed {n c : Nat} {l : Level} : (s.lvlCommit n).committed c l = s.committed c l := by
  unfold State.lvlCommit
  refine State.forUpTo_ind (fun _ v => v.committed c l = s.committed c l) rfl fun m v _ hv => ?_
  rw [State.levelStatus_committed, State.foldl_applyHeld_committed, hv]

/-- Each register of a level of the tile holds what the commit leaves in it (R55). -/
theorem State.lvlCommit_rd_level {n k : Nat} {l : Level} (hk : k < 32) :
    (s.lvlCommit n).rd ((levelLay l).ch (32 * n + k)) = s.committed (32 * n + k) l := by
  rw [← State.committed_of_none (State.lvlCommit_tab hk), State.lvlCommit_committed]

theorem State.lvlCommit_rd_other {n : Nat} {f : Fld}
    (hl : ∀ k l, k < 32 → f.key ≠ ((levelLay l).ch (32 * n + k)).key)
    (hr : ∀ k, k < 32 → f.key ≠ (VLV.LVL_RANGE.ch (32 * n + k)).key) : (s.lvlCommit n).rd f = s.rd f := by
  unfold State.lvlCommit
  refine State.forUpTo_ind (fun _ v => v.rd f = s.rd f) rfl fun m v hm hv => ?_
  rw [State.levelStatus, State.rd_setFlag_ne _ (hr m hm).symm, State.foldl_applyHeld_rd fun l => hl m l hm, hv]

/-! The driver's swing (R58). -/

theorem State.driveHigh_of_swing_le {c : Nat} (h : s.swing c ≤ s.swingLimit c) :
    s.driveHigh c = s.levelCode .vih c := if_pos h

/-- A limited VIH stands at the swing limit from VIL, on the side of the level as it is held. -/
theorem State.driveHigh_limited {c : Nat} (h : s.swingLimit c < s.swing c) :
    (s.levelCode .vil c < s.levelCode .vih c ∧ s.driveHigh c = s.levelCode .vil c + s.swingLimit c ∧
      s.driveHigh c < s.levelCode .vih c) ∨
    (s.levelCode .vih c < s.driveHigh c ∧ s.driveHigh c + s.swingLimit c = s.levelCode .vil c) := by
  have hswing : s.swing c = (s.levelCode .vih c - s.levelCode .vil c) + (s.levelCode .vil c - s.levelCode .vih c) := rfl
  by_cases hlt : s.levelCode .vil c < s.levelCode .vih c
  · have hd : s.driveHigh c = s.levelCode .vil c + s.swingLimit c := by
      rw [State.driveHigh, if_neg (Nat.not_le.2 h), if_pos hlt]
    exact .inl ⟨hlt, hd, by omega⟩
  · have hd : s.driveHigh c = s.levelCode .vil c - s.swingLimit c := by
      rw [State.driveHigh, if_neg (Nat.not_le.2 h), if_neg hlt]
    exact .inr (by omega)

theorem State.driveHigh_le (s : State) (c : Nat) : s.driveHigh c ≤ s.levelCode .vil c + s.swingLimit c ∧
    s.levelCode .vil c ≤ s.driveHigh c + s.swingLimit c := by
  rcases Nat.lt_or_ge (s.swingLimit c) (s.swing c) with h | h
  · rcases State.driveHigh_limited h with ⟨-, h, -⟩ | ⟨-, h⟩ <;> omega
  · have hd := State.driveHigh_of_swing_le h
    rw [State.swing] at h
    omega

theorem State.driveHigh_eq_vih_iff (s : State) (c : Nat) :
    s.driveHigh c = s.levelCode .vih c ↔ s.swingLimited c = false := by
  rw [State.swingLimited, decide_eq_false_iff_not, Nat.not_lt]
  refine ⟨fun hd => Nat.not_lt.1 fun h => ?_, State.driveHigh_of_swing_le⟩
  rcases State.driveHigh_limited h with ⟨-, -, h⟩ | ⟨h, -⟩ <;> omega

/-! How the computed status fields of a channel read. -/

theorem shownAt_vlv {a : Nat} (h : a / 2 ^ 24 = 0x20 ∨ a / 2 ^ 24 = 0x21 ∨ a / 2 ^ 24 = 0x22 ∨ a / 2 ^ 24 = 0x23) :
    shownAt a = shownVlv := by
  unfold shownAt
  rcases h with h | h | h | h <;> rw [h] <;> rfl

/-- The register of a channel is found to be that channel's. -/
theorem Lay.idx?_ch {l : Lay} {c : Nat} (h1 : l.n1 = 4) (h2 : l.n2 = 32) (h0 : 0 < l.s2) (hs : 32 * l.s2 ≤ l.s1)
    (hc : c < 128) : l.idx? (l.ch c).addr = some (c / 32, c % 32) := by
  have hin : c % 32 * l.s2 < l.s1 :=
    Nat.lt_of_lt_of_le (Nat.mul_lt_mul_of_pos_right (Nat.mod_lt c (by decide)) h0) hs
  have haddr : (l.ch c).addr = l.base + (c % 32 * l.s2 + l.s1 * (c / 32)) := by
    rw [Nat.mul_comm l.s1, Nat.add_comm (c % 32 * l.s2), ← Nat.add_assoc]
    rfl
  have hdiv : (c % 32 * l.s2 + l.s1 * (c / 32)) / l.s1 = c / 32 := by
    rw [Nat.add_mul_div_left _ _ (Nat.lt_of_le_of_lt (Nat.zero_le _) hin), Nat.div_eq_of_lt hin, Nat.zero_add]
  have hmod : (c % 32 * l.s2 + l.s1 * (c / 32)) % l.s1 = c % 32 * l.s2 := by
    rw [Nat.add_mul_mod_self_left, Nat.mod_eq_of_lt hin]
  have htile : c / 32 < 4 := by omega
  have hchan : c % 32 < 32 := Nat.mod_lt c (by decide)
  have hle : l.s2 ≤ l.s1 := by omega
  simp [Lay.idx?, haddr, h1, h2, hle, hdiv, hmod, htile, hchan, Nat.mul_div_cancel _ h0]

theorem State.view_of_find {f : Fld} {v : Nat} {l : List Shown} (ha : shownAt f.addr = l)
    (hv : l.findSome? (fun d =>
      if d.1.lsb = f.lsb then (d.1.idx? f.addr).map fun x => d.2 s x.1 x.2 else none) = some v) :
    s.view f = v % 2 ^ f.width := by
  rw [State.view, ha, hv]

/-- The computed status fields of Velvet, each found under its bit at the addresses of its own registers. -/
theorem shownVlv_find (s : State) {a i j : Nat} :
    (VLV.DRV_SWING.idx? a = some (i, j) → shownVlv.findSome? (fun d =>
      if d.1.lsb = VLV.DRV_SWING.lsb then (d.1.idx? a).map fun x => d.2 s x.1 x.2 else none) =
        some (b2n (s.swingLimited (32 * i + j)))) ∧
    (VLV.PMU_SETTLED.idx? a = some (i, j) → shownVlv.findSome? (fun d =>
      if d.1.lsb = VLV.PMU_SETTLED.lsb then (d.1.idx? a).map fun x => d.2 s x.1 x.2 else none) =
        some (b2n (s.pmuSettled (32 * i + j)))) ∧
    (VLV.PMU_COMPL.idx? a = some (i, j) → shownVlv.findSome? (fun d =>
      if d.1.lsb = VLV.PMU_COMPL.lsb then (d.1.idx? a).map fun x => d.2 s x.1 x.2 else none) =
        some (b2n (s.pmuCompl (32 * i + j)))) := by
  have hlsb : VLV.CH_CSELF.lsb = 0 ∧ VLV.DRV_SWING.lsb = 5 ∧ VLV.PMU_SETTLED.lsb = 3 ∧ VLV.PMU_COMPL.lsb = 2 :=
    ⟨rfl, rfl, rfl, rfl⟩
  refine ⟨fun h => ?_, fun h => ?_, fun h => ?_⟩ <;> simp [shownVlv, hlsb, h]

/-- The status fields of a channel that are computed read what they show (R58, R75). -/
theorem State.view_status (s : State) {c : Nat} (h : c < 128) :
    s.view (VLV.DRV_SWING.ch c) = b2n (s.swingLimited c) ∧ s.view (VLV.PMU_SETTLED.ch c) = b2n (s.pmuSettled c) ∧
    s.view (VLV.PMU_COMPL.ch c) = b2n (s.pmuCompl c) := by
  have hc : 32 * (c / 32) + c % 32 = c := by omega
  have hbit : ∀ b : Bool, b2n b % 2 ^ 1 = b2n b := by decide
  have haddr : shownAt (0x20000104 + c / 32 * 0x1000000 + c % 32 * 0x20) = shownVlv := shownAt_vlv (by omega)
  obtain ⟨hswing, hsettled, hcompl⟩ := shownVlv_find s (a := 0x20000104 + c / 32 * 0x1000000 + c % 32 * 0x20)
    (i := c / 32) (j := c % 32)
  rw [hc] at hswing hsettled hcompl
  refine ⟨?_, ?_, ?_⟩
  · exact (State.view_of_find haddr (hswing (Lay.idx?_ch rfl rfl (by decide) (by decide) h))).trans (hbit _)
  · exact (State.view_of_find haddr (hsettled (Lay.idx?_ch rfl rfl (by decide) (by decide) h))).trans (hbit _)
  · exact (State.view_of_find haddr (hcompl (Lay.idx?_ch rfl rfl (by decide) (by decide) h))).trans (hbit _)

/-! The PMU (R72 to R76). -/

theorem State.pmuForces_eq_true {c : Nat} : s.pmuForces c = true ↔ s.pmuTarget c ≠ .none := decide_eq_true_iff

theorem State.pmuForces_of_mode {c : Nat} (hc : s.pmuConnected c = true) (hm : s.rd (VLV.CH_PMU_MODE.ch c) < 2) :
    s.pmuForces c = true := by
  rw [State.pmuForces_eq_true, State.pmuTarget, hc]
  have hmode : s.pmuMode c = s.rd (VLV.CH_PMU_MODE.ch c) := Nat.min_eq_right (by omega)
  rcases (by omega : s.rd (VLV.CH_PMU_MODE.ch c) = 0 ∨ s.rd (VLV.CH_PMU_MODE.ch c) = 1) with h | h <;>
    simp [hmode, h]

/-- What a force loop's target is made of. -/
def pmuInputs (c : Nat) : List Fld :=
  [VLV.CH_PMU_MODE.ch c, VLV.CH_PMU_RANGE.ch c, VLV.CH_PMU_FORCE.ch c, VLV.PMU_EN.ch c, VLV.TRIP.f (c / 32),
    VLV.TREF_SAFE.f, CLK.WAITREF.f, BST.HOLD.f, VLV.OUT_HELD.f, PWR.EN_MAIN.f, PWR.STBY.f, PWR.DIE_OFF.f]

theorem State.pmuTarget_congr {c : Nat} (h : Same (pmuInputs c) s t) : t.pmuTarget c = s.pmuTarget c := by
  simp only [pmuInputs, Same, List.forall_mem_cons] at h
  obtain ⟨hmode, hrange, hforce, hen, htrip, htref, hwait, hhold, hout, hmain, hstby, hoff, -⟩ := h
  have hconn : t.pmuConnected c = s.pmuConnected c := by
    simp only [State.pmuConnected, State.inSafe, State.dieOn, State.flag, hen, htrip, htref, hwait, hhold, hout, hmain,
      hstby, hoff]
  rw [State.pmuTarget, State.pmuTarget, hconn, State.pmuMode, State.pmuMode, State.pmuRange, State.pmuRange, hmode,
    hrange, hforce]

/-- PMU_SETTLED and LVL_RANGE are no part of a loop's target. -/
theorem pmuInputs_apart (c : Nat) : ∀ g ∈ pmuInputs c,
    (VLV.PMU_SETTLED.ch c).key ≠ g.key ∧ (VLV.LVL_RANGE.ch c).key ≠ g.key := by
  simp only [pmuInputs, List.forall_mem_cons]
  refine ⟨?_, ?_, ?_, ?_, ?_, ?_, ?_, ?_, ?_, ?_, ?_, ?_, nofun⟩ <;> exact ⟨Lay.key_ne rfl, Lay.key_ne rfl⟩

/-- A write of MODE and RANGE or of the force value, before its effect on the loop. -/
def State.putPmu (s : State) (c : Nat) : PmuWrite → State
  | .ctl m r => (s.wr (VLV.CH_PMU_MODE.ch c) m.toNat).wr (VLV.CH_PMU_RANGE.ch c) r.toNat
  | .force v => s.wr (VLV.CH_PMU_FORCE.ch c) v.toNat

theorem State.writePmu_eq (s : State) (c : Nat) (w : PmuWrite) : s.writePmu c w =
    (if (s.putPmu c w).pmuTarget c = s.pmuTarget c then s.putPmu c w
      else (s.putPmu c w).setFlag (VLV.PMU_SETTLED.ch c) false).levelStatus c := by
  cases w <;> rfl

/-- The fields that a PMU write may write. -/
def pmuKeys (c : Nat) : List Nat :=
  [(VLV.CH_PMU_MODE.ch c).key, (VLV.CH_PMU_RANGE.ch c).key, (VLV.CH_PMU_FORCE.ch c).key,
    (VLV.PMU_SETTLED.ch c).key, (VLV.LVL_RANGE.ch c).key]

theorem State.putPmu_onlyRegs (s : State) (c : Nat) (w : PmuWrite) : OnlyRegs (pmuKeys c) s (s.putPmu c w) := by
  cases w with
  | ctl m r => exact ((OnlyRegs.refl _ s).wr (by simp [pmuKeys])).wr (by simp [pmuKeys])
  | force v => exact (OnlyRegs.refl _ s).wr (by simp [pmuKeys])

theorem State.putPmu_settled (s : State) (c : Nat) (w : PmuWrite) :
    (s.putPmu c w).flag (VLV.PMU_SETTLED.ch c) = s.flag (VLV.PMU_SETTLED.ch c) := by
  cases w with
  | ctl m r => exact (State.flag_wr_ne _ _ (Lay.key_ne rfl)).trans (State.flag_wr_ne s _ (Lay.key_ne rfl))
  | force v => exact State.flag_wr_ne s _ (Lay.key_ne rfl)

/-- Where the target stays, so does PMU_SETTLED; where it moves, PMU_SETTLED clears (R75, R76). -/
theorem State.writePmu_cases (s : State) (c : Nat) (w : PmuWrite) :
    (s.writePmu c w).pmuTarget c = (s.putPmu c w).pmuTarget c ∧
    (s.writePmu c w).flag (VLV.PMU_SETTLED.ch c) =
      (decide ((s.putPmu c w).pmuTarget c = s.pmuTarget c) && s.flag (VLV.PMU_SETTLED.ch c)) := by
  have hrange : ∀ u : State, (u.levelStatus c).flag (VLV.PMU_SETTLED.ch c) = u.flag (VLV.PMU_SETTLED.ch c) := fun u =>
    State.flag_setFlag_ne _ (Lay.key_ne rfl)
  have htarget : ∀ u : State, (u.levelStatus c).pmuTarget c = u.pmuTarget c := fun u =>
    State.pmuTarget_congr ((Same.refl _ u).wr fun g hg => (pmuInputs_apart c g hg).2)
  rw [State.writePmu_eq]
  by_cases h : (s.putPmu c w).pmuTarget c = s.pmuTarget c
  · rw [if_pos h, hrange, htarget, s.putPmu_settled, decide_eq_true h, Bool.true_and]
    exact ⟨rfl, rfl⟩
  · rw [if_neg h, hrange, htarget, State.flag_setFlag_same _ _ _ rfl, decide_eq_false h, Bool.false_and]
    exact ⟨State.pmuTarget_congr ((Same.refl _ _).wr fun g hg => (pmuInputs_apart c g hg).1), rfl⟩

theorem State.writePmu_onlyRegs (s : State) (c : Nat) (w : PmuWrite) :
    OnlyRegs (pmuKeys c) s (s.writePmu c w) := by
  rw [State.writePmu_eq]
  refine OnlyRegs.setFlag ?_ (by simp [pmuKeys])
  split
  · exact s.putPmu_onlyRegs c w
  · exact (s.putPmu_onlyRegs c w).setFlag (by simp [pmuKeys])

/-- The effect of a PMU write on other fields than the two status bits is that of its register write. -/
theorem State.writePmu_rd (s : State) (c : Nat) (w : PmuWrite) {f : Fld} (hs : (VLV.PMU_SETTLED.ch c).key ≠ f.key)
    (hr : (VLV.LVL_RANGE.ch c).key ≠ f.key) : (s.writePmu c w).rd f = (s.putPmu c w).rd f := by
  rw [State.writePmu_eq, State.levelStatus, State.rd_setFlag_ne _ hr]
  split
  · rfl
  · exact State.rd_setFlag_ne _ hs

/-! The commands where the registers of the tile are open. -/

theorem exec_levelWrite_open {ch : Channel} {l : Level} {code : BitVec 16} (h : s.openTo 12 (.vlv (ch / 32)) = true) :
    exec (.levelWrite ch l code) s = .next (s.writeLevel ch l code.toNat) :=
  congrArg Host.Outcome.next (State.reach_of_openTo h rfl)

theorem exec_lvlCommit_open {n : Tile} (h : s.openTo 12 (.vlv n) = true) :
    exec (.lvlCommit n) s = .next (s.lvlCommit n) :=
  congrArg Host.Outcome.next (State.reach_of_openTo h rfl)

theorem exec_vlvChPmu_open {ch : Channel} {w : PmuWrite} (h : s.openTo 12 (.vlv (ch / 32)) = true) :
    exec (.vlvChPmu ch w) s = .next (s.writePmu ch w) :=
  congrArg Host.Outcome.next (State.reach_of_openTo (x := pmuAccess ch w) (by cases w <;> exact h) rfl)

theorem exec_pmuSettle_forces {ch : Channel} (h : s.pmuForces ch = true) :
    exec (.pmuSettle ch) s = .next (s.setFlag (VLV.PMU_SETTLED.ch ch) true) :=
  congrArg Host.Outcome.next (if_pos h)

/-- Settles O8: a staged write is one word of the table of held levels, a commit leaves what was held, and the force
loop's target decides about PMU_SETTLED. -/
theorem levelWritesAreStagedAndCommitted : Obligations.LevelWritesAreStagedAndCommitted := by
  unfold Obligations.LevelWritesAreStagedAndCommitted
  refine ⟨fun ch l code s hopen => ⟨_, exec_levelWrite_open hopen, fun h => ?_, fun h => ?_⟩, fun ch l s => ?_,
    fun ch s => ?_, fun n s hopen => ⟨_, exec_lvlCommit_open hopen, fun k l hk => ⟨State.lvlCommit_tab hk, ?_⟩, ?_, ?_⟩,
    fun ch w s hopen => ⟨_, exec_vlvChPmu_open hopen, ?_, ?_, ?_, s.writePmu_onlyRegs ch w⟩,
    fun ch s hdie hen hsafe hmode => ?_⟩
  · rw [State.writeLevel_staged h]
    have hlt := code.isLt
    refine ⟨State.readLevel_of_held ?_, (Only.refl _ s).setTab (by simp), (TabsBut.refl _ s).setTab (by simp)⟩
    rw [State.tab_setTab_same]
    exact Nat.mod_eq_of_lt (show code.toNat + 1 < 2 ^ 17 by omega)
  · have hrd : (s.writeLevel ch l code.toNat).rd ((levelLay l).ch ch) = code.toNat :=
      (State.rd_writeLevel_unstaged h).trans (Nat.mod_eq_of_lt code.isLt)
    obtain ⟨honly, hregs, htabs⟩ := State.writeLevel_unstaged_frame (code := code.toNat) h
    refine ⟨hrd, ?_, ?_, honly, htabs, hregs⟩
    · rw [State.readLevel_of_none (State.tab_writeLevel_unstaged h), State.levelCode, hrd, clampCode]
    · rw [State.writeLevel_unstaged h]
      exact State.flag_levelStatus _ _
  · exact ⟨(s.levelCode_bounds l ch).1, (s.levelCode_bounds l ch).2, State.levelCode_of_valid, s.levelUv_eq l ch⟩
  · obtain ⟨hswing, hsettled, hcompl⟩ := s.view_status ch.isLt
    refine ⟨(s.driveHigh_le ch).1, (s.driveHigh_le ch).2, ?_, fun h => ?_⟩
    · rw [hswing, s.driveHigh_eq_vih_iff]
      cases s.swingLimited ch <;> decide
    · rw [hsettled, hcompl, State.pmuSettled, State.pmuCompl, h, Bool.and_false, Bool.and_false]
      exact ⟨rfl, rfl⟩
  · rw [State.lvlCommit_rd_level hk]
    exact ⟨State.committed_of_none, fun v => State.committed_of_held⟩
  · exact (State.lvlCommit_keeps (ft := maskOf [.regs, .tabs]) n (by decide) (Keeps.refl s)).only
  · exact fun f => State.lvlCommit_rd_other
  · have hput : ∀ f ∈ [VLV.CH_PMU_MODE.ch ch, VLV.CH_PMU_RANGE.ch ch, VLV.CH_PMU_FORCE.ch ch],
        (s.writePmu ch w).rd f = (s.putPmu ch w).rd f := by
      simp only [List.forall_mem_cons]
      refine ⟨?_, ?_, ?_, nofun⟩ <;> exact s.writePmu_rd ch w (Lay.key_ne rfl) (Lay.key_ne rfl)
    simp only [List.forall_mem_cons] at hput
    obtain ⟨hmode, hrange, hforce, -⟩ := hput
    cases w with
    | ctl m r =>
      refine ⟨hmode.trans ?_, hrange.trans ?_⟩
      · exact (State.rd_wr_ne _ _ (Lay.key_ne rfl)).trans (State.rd_wr_lt m.isLt)
      · exact State.rd_wr_lt r.isLt
    | force v => exact hforce.trans (State.rd_wr_lt v.isLt)
  · rw [(s.writePmu_cases ch w).1, (s.writePmu_cases ch w).2]
    exact fun h => by rw [decide_eq_true h, Bool.true_and]
  · rw [(s.writePmu_cases ch w).1, (s.writePmu_cases ch w).2]
    exact fun h => by rw [decide_eq_false h, Bool.false_and]
  · have hconn : s.pmuConnected ch = true := by rw [State.pmuConnected, hen, hsafe, hdie]; rfl
    refine ⟨_, exec_pmuSettle_forces (State.pmuForces_of_mode hconn hmode), State.flag_setFlag_f rfl, ?_⟩
    exact (OnlyRegs.refl _ s).setFlag (by simp)

end Sys2Proof.Machine
end

section
/-! PROOF. The trip: what sets the latches, the detectors, SAFE_N; the statement on setting the trip. -/

namespace Sys2Proof.Machine

variable {s u : State}

/-! The trip (R64 to R67). -/

/-- The capture of a tile. -/
def captureLays : List Lay := [VLV.CAP_FULL, VLV.TRIP_CAP_CH, VLV.TRIP_CAP_CAUSE]

/-- What a tile shows of its trip. -/
def latchLays : List Lay := VLV.TRIP :: captureLays

/-- What the end of a run of a tile's TDR engine clears. -/
def tdrLays : List Lay := [TIM.TDR_UNF, TIM.TDR_ACT]

theorem latchLays_size : ∀ l ∈ latchLays, l.n1 = 4 ∧ l.n2 = 1 ∧ l.s1 ≠ 0 := by decide

/-- The setting of one tile's latch concerns no other tile. -/
theorem latchKey_notMem {k j : Nat} (hk : k < 4) (hj : j < 4) (h : k ≠ j) :
    ∀ l ∈ latchLays, (l.f k).key ∉ keysAt j (latchLays ++ tdrLays) := fun l hl hmem => by
  have hcap : ∀ l ∈ latchLays, ∀ m ∈ latchLays, l = m ∨ l.apart m = true := by decide
  have htdr : ∀ l ∈ latchLays, tdrLays.all (l.clearOf 4) = true := by decide
  obtain ⟨h1, h2, hs⟩ := latchLays_size l hl
  rw [keysAt, List.map_append, List.mem_append] at hmem
  rcases hmem with hmem | hmem
  · obtain ⟨m, hm, hkey⟩ := List.mem_map.1 hmem
    rcases hcap l hl m hm with rfl | ha
    · exact Lay.key_ne_idx hs h hkey.symm
    · exact Lay.key_ne ha hkey.symm
  · exact Lay.key_notMem_keysAt (htdr l hl) (h1 ▸ hk) (h2 ▸ Nat.one_pos) hj hmem

/-- From `s` to `u` the latch of tile `k` was set with a cause: an empty capture took it, a full one kept what it held
(R64, R65, R67). -/
structure Latched (s u : State) (k ch cause : Nat) : Prop where
  trip : u.flag (VLV.TRIP.f k) = true
  full : u.flag (VLV.CAP_FULL.f k) = true
  empty : s.flag (VLV.CAP_FULL.f k) = false →
    u.rd (VLV.TRIP_CAP_CAUSE.f k) = cause % 8 ∧ u.rd (VLV.TRIP_CAP_CH.f k) = ch % 256
  kept : s.flag (VLV.CAP_FULL.f k) = true →
    u.rd (VLV.TRIP_CAP_CAUSE.f k) = s.rd (VLV.TRIP_CAP_CAUSE.f k) ∧
    u.rd (VLV.TRIP_CAP_CH.f k) = s.rd (VLV.TRIP_CAP_CH.f k)

theorem Latched.before {r : State} {k ch cause : Nat} (h : Latched s u k ch cause)
    (hs : Same (captureLays.map fun l => l.f k) r s) : Latched r u k ch cause := by
  simp only [Same, captureLays, List.map_cons, List.map_nil, List.forall_mem_cons] at hs
  obtain ⟨hfull, hch, hcause, -⟩ := hs
  refine ⟨h.trip, h.full, fun he => h.empty ((State.flag_congr hfull).trans he), fun hk => ?_⟩
  rw [← hcause, ← hch]
  exact h.kept ((State.flag_congr hfull).trans hk)

theorem Latched.after {v : State} {k ch cause : Nat} (h : Latched s u k ch cause)
    (hu : Same (latchLays.map fun l => l.f k) u v) : Latched s v k ch cause := by
  simp only [Same, latchLays, captureLays, List.map_cons, List.map_nil, List.forall_mem_cons] at hu
  obtain ⟨htrip, hfull, hch, hcause, -⟩ := hu
  refine ⟨(State.flag_congr htrip).trans h.trip, (State.flag_congr hfull).trans h.full, ?_, ?_⟩
  · rw [hcause, hch]
    exact h.empty
  · rw [hcause, hch]
    exact h.kept

/-- The first part of the setting of a latch: TRIP, counted where it was clear. -/
def State.raiseTrip (s : State) (k cause : Nat) : State :=
  if s.flag (VLV.TRIP.f k) then s else (s.setFlag (VLV.TRIP.f k) true).ledgerInc (0x2E8 + cause)

theorem State.latchSet_eq (s : State) (k ch cause : Nat) :
    s.latchSet k ch cause = (((s.raiseTrip k cause).tripCapture k ch cause).tdrStop k).tripMarks := rfl

theorem State.raiseTrip_flag (s : State) (k cause : Nat) : (s.raiseTrip k cause).flag (VLV.TRIP.f k) = true := by
  unfold State.raiseTrip
  split
  · assumption
  · exact State.flag_setFlag_same s (VLV.TRIP.f k) true rfl

theorem State.raiseTrip_regsBut (s : State) (k cause : Nat) : RegsBut [(VLV.TRIP.f k).key] s (s.raiseTrip k cause) := by
  unfold State.raiseTrip
  split
  · exact RegsBut.refl _ s
  · exact (RegsBut.refl _ s).setFlag (b := true) (List.mem_singleton.2 rfl)

theorem State.tripCapture_full {k ch cause : Nat} (h : s.flag (VLV.CAP_FULL.f k) = true) :
    s.tripCapture k ch cause = s := if_pos h

theorem State.tripCapture_empty {k ch cause : Nat} (h : s.flag (VLV.CAP_FULL.f k) = false) :
    s.tripCapture k ch cause =
      ((s.setFlag (VLV.CAP_FULL.f k) true).wr (VLV.TRIP_CAP_CH.f k) ch).wr (VLV.TRIP_CAP_CAUSE.f k) cause :=
  if_neg (by rw [h]; exact Bool.false_ne_true)

theorem State.tripCapture_regsBut (s : State) (k ch cause : Nat) :
    RegsBut (keysAt k captureLays) s (s.tripCapture k ch cause) := by
  cases h : s.flag (VLV.CAP_FULL.f k) with
  | true => rw [State.tripCapture_full h]; exact RegsBut.refl _ s
  | false =>
    rw [State.tripCapture_empty h]
    refine (((RegsBut.refl _ s).setFlag ?_).wr ?_).wr ?_ <;> simp [keysAt, captureLays]

theorem State.tdrStop_regsBut (s : State) (k : Nat) : RegsBut (keysAt k tdrLays) s (s.tdrStop k).tripMarks := by
  have hunf : RegsBut (keysAt k tdrLays) s (s.wr (TIM.TDR_UNF.f k) 0) :=
    (RegsBut.refl _ s).wr (by simp [keysAt, tdrLays])
  exact hunf.wr (f := TIM.TDR_ACT.f k) (v := 0) (by simp [keysAt, tdrLays])

theorem State.latchSet_regsBut (s : State) (k ch cause : Nat) :
    RegsBut (keysAt k (latchLays ++ tdrLays)) s (s.latchSet k ch cause) := by
  rw [State.latchSet_eq]
  refine ((RegsBut.mono (s.raiseTrip_regsBut k cause) ?_).trans
    (RegsBut.mono (State.tripCapture_regsBut _ k ch cause) ?_)).trans (RegsBut.mono (State.tdrStop_regsBut _ k) ?_) <;>
  simp [keysAt, latchLays, captureLays, tdrLays]

/-- Filling the capture of a tile whose TRIP is set. -/
theorem State.tripCapture_latched {k ch cause : Nat} (hk : k < 4) (h : s.flag (VLV.TRIP.f k) = true) :
    Latched s (s.tripCapture k ch cause) k ch cause := by
  refine ⟨?_, ?_, fun he => ?_, fun hf => ?_⟩
  · rw [(s.tripCapture_regsBut k ch cause).flag (Lay.key_notMem_keysAt (n := 4) (by decide) hk Nat.one_pos hk), h]
  · cases he : s.flag (VLV.CAP_FULL.f k) with
    | true => rw [State.tripCapture_full he, he]
    | false =>
      rw [State.tripCapture_empty he, State.flag_wr_ne _ _ (Lay.key_ne rfl), State.flag_wr_ne _ _ (Lay.key_ne rfl)]
      exact State.flag_setFlag_f rfl
  · rw [State.tripCapture_empty he, State.rd_wr_same, State.rd_wr_ne _ _ (Lay.key_ne rfl), State.rd_wr_same]
    exact ⟨rfl, rfl⟩
  · rw [State.tripCapture_full hf]
    exact ⟨rfl, rfl⟩

theorem State.latchSet_latched (s : State) {k : Nat} (ch cause : Nat) (hk : k < 4) :
    Latched s (s.latchSet k ch cause) k ch cause := by
  have hpre : ∀ l ∈ captureLays, (l.f k).key ∉ [(VLV.TRIP.f k).key] := fun l hl h =>
    Lay.key_ne ((by decide : ∀ l ∈ captureLays, l.apart VLV.TRIP = true) l hl) (List.mem_singleton.1 h)
  have hpost : ∀ l ∈ latchLays, (l.f k).key ∉ keysAt k tdrLays := fun l hl =>
    have ⟨h1, h2, _⟩ := latchLays_size l hl
    Lay.key_notMem_keysAt ((by decide : ∀ l ∈ latchLays, tdrLays.all (l.clearOf 4) = true) l hl) (h1 ▸ hk)
      (h2 ▸ Nat.one_pos) hk
  exact ((State.tripCapture_latched hk (s.raiseTrip_flag k cause)).before
    ((s.raiseTrip_regsBut k cause).same_lays hpre)).after ((State.tdrStop_regsBut _ k).same_lays hpost)

theorem State.latchSet_other (s : State) {j k : Nat} (ch cause : Nat) (hk : k < 4) (hj : j < 4) (h : j ≠ k) :
    Same (latchLays.map fun l => l.f k) s (s.latchSet j ch cause) :=
  (s.latchSet_regsBut j ch cause).same_lays (latchKey_notMem hk hj h.symm)

/-- The last part of a local trip: LOCAL in every tile, and SAFE_N is driven (R65). -/
def State.markLocal (s : State) : State :=
  (s.forUpTo 4 fun s k => s.setFlag (VLV.LOCAL.f k) true).setFlag VLV.SAFE_N_DRV.f true

theorem State.markLocal_onlyRegs (s : State) :
    OnlyRegs (VLV.SAFE_N_DRV.f.key :: keys 4 [VLV.LOCAL]) s s.markLocal :=
  (OnlyRegs.forUpTo_setFlag fun _ hi => List.mem_cons_of_mem _ (mem_keys (by simp) hi)).setFlag (by simp)

theorem State.markLocal_local (s : State) {k : Nat} (hk : k < 4) : s.markLocal.flag (VLV.LOCAL.f k) = true := by
  rw [State.markLocal, State.flag_setFlag_ne _ (Lay.key_ne rfl)]
  exact State.flag_forUpTo_setFlag hk rfl (by decide)

theorem State.markLocal_drv (s : State) : s.markLocal.flag VLV.SAFE_N_DRV.f = true := State.flag_setFlag_same _ _ _ rfl

/-- The trip lines: every tile but that of the cause. -/
def State.tripLines (s : State) (k : Nat) : State := s.forUpTo 4 fun s j => if j = k then s else s.latchSet j 0 3

theorem State.tripLocal_eq (s : State) (k ch cause : Nat) :
    s.tripLocal k ch cause = ((s.latchSet k ch cause).tripLines k).markLocal := rfl

/-- Every latch is set, with its cause in the originating tile and CAUSE 3 in the others (R65, R67). -/
theorem State.tripLocal_latched (s : State) {k j : Nat} (ch cause : Nat) (hk : k < 4) (hj : j < 4) :
    Latched s (s.tripLocal k ch cause) j (if j = k then ch else 0) (if j = k then cause else 3) := by
  rw [State.tripLocal_eq]
  have hmark : Same (latchLays.map fun l => l.f j) ((s.latchSet k ch cause).tripLines k)
      ((s.latchSet k ch cause).tripLines k).markLocal :=
    (State.markLocal_onlyRegs _).2.same_lays fun l hl => by
      have hclear : ∀ l ∈ latchLays, l.apart VLV.SAFE_N_DRV = true ∧ [VLV.LOCAL].all (l.clearOf 4) = true := by decide
      obtain ⟨h1, h2, -⟩ := latchLays_size l hl
      exact List.not_mem_cons_of_ne_of_not_mem (Lay.key_ne (hclear l hl).1)
        (Lay.key_notMem_keys (hclear l hl).2 (h1 ▸ hj) (h2 ▸ Nat.one_pos))
  refine Latched.after ?_ hmark
  by_cases h : j = k
  · subst h
    rw [if_pos rfl, if_pos rfl]
    refine (s.latchSet_latched ch cause hj).after (Same.forUpTo fun u i hi => ?_)
    split
    · exact Same.refl _ u
    · exact u.latchSet_other 0 3 hj hi ‹_›
  · rw [if_neg h, if_neg h]
    obtain ⟨u, hu, hend⟩ := State.forUpTo_turn (s := s.latchSet k ch cause) (fs := latchLays.map fun l => l.f j)
      (f := fun s i => if i = k then s else s.latchSet i 0 3) hj fun u i hi hne => by
        split
        · exact Same.refl _ u
        · exact u.latchSet_other 0 3 hj hi hne
    rw [if_neg h] at hend
    exact ((u.latchSet_latched 0 3 hj).before
      (((s.latchSet_other ch cause hj hk (Ne.symm h)).trans hu).mono (fun _ => List.mem_cons_of_mem _))).after hend

theorem State.tripLocal_local (s : State) {j : Nat} (k ch cause : Nat) (hj : j < 4) :
    (s.tripLocal k ch cause).flag (VLV.LOCAL.f j) = true := State.markLocal_local _ hj

theorem State.tripLocal_drv (s : State) (k ch cause : Nat) :
    (s.tripLocal k ch cause).flag VLV.SAFE_N_DRV.f = true := State.markLocal_drv _

/-- The fields of every tile that a trip may write. -/
def tripLays : List Lay :=
  [VLV.TRIP, VLV.LOCAL, VLV.CAP_FULL, VLV.TRIP_CAP_CH, VLV.TRIP_CAP_CAUSE, TIM.TDR_UNF, TIM.TDR_ACT]

theorem State.latchSet_tripLays (s : State) {k : Nat} (ch cause : Nat) (hk : k < 4) :
    RegsBut (keys 4 tripLays) s (s.latchSet k ch cause) :=
  (s.latchSet_regsBut k ch cause).mono (List.Subset.trans (keysAt_subset_keys hk) (keys_subset (by decide)))

theorem State.tripLocal_regsBut (s : State) {k : Nat} (ch cause : Nat) (hk : k < 4) :
    RegsBut (VLV.SAFE_N_DRV.f.key :: keys 4 tripLays) s (s.tripLocal k ch cause) := by
  have hlines : RegsBut (keys 4 tripLays) (s.latchSet k ch cause) ((s.latchSet k ch cause).tripLines k) :=
    RegsBut.forUpTo fun u j hj => by
      split
      · exact RegsBut.refl _ u
      · exact u.latchSet_tripLays 0 3 hj
  exact (((s.latchSet_tripLays ch cause hk).trans hlines).mono (List.subset_cons_self _ _)).trans
    ((State.markLocal_onlyRegs _).2.mono (List.cons_subset_cons _ (keys_subset (by decide))))

/-- A one-bit field of the channels that no trip writes. -/
def Lay.outsideTrip (l : Lay) : Bool :=
  tripLays.all (l.clearOf 4) && l.clearOf 1 VLV.SAFE_N_DRV && decide (l.n1 = 4 ∧ l.n2 = 32 ∧ l.width = 1)

theorem Lay.outsideTrip_iff {l : Lay} : l.outsideTrip = true ↔ tripLays.all (l.clearOf 4) = true ∧
    l.clearOf 1 VLV.SAFE_N_DRV = true ∧ l.n1 = 4 ∧ l.n2 = 32 ∧ l.width = 1 := by
  simp only [Lay.outsideTrip, Bool.and_eq_true, decide_eq_true_eq, and_assoc]

theorem State.tripLocal_flag {l : Lay} {k ch cause c : Nat} (hk : k < 4) (h : l.outsideTrip = true) (hc : c < 128) :
    (s.tripLocal k ch cause).flag (l.ch c) = s.flag (l.ch c) := by
  obtain ⟨htrip, hdrive, h1, h2, -⟩ := Lay.outsideTrip_iff.1 h
  have htile : c / 32 < l.n1 := by omega
  have hchan : c % 32 < l.n2 := by omega
  exact (s.tripLocal_regsBut ch cause hk).flag (List.not_mem_cons_of_ne_of_not_mem
    (Lay.key_ne_of_clear hdrive htile hchan Nat.one_pos) (Lay.key_notMem_keys htrip htile hchan))

/-! Detectors (R63, R64). -/

theorem detectorLay_outsideTrip (d : Detector) : (detectorLay d).outsideTrip = true := by cases d <;> decide

/-- A detector's trip is that of its tile; the ledger's count for the channel stands beside it (R515). -/
theorem State.detectorTrip_eq (s : State) (c : Nat) (d : Detector) :
    ∃ u : State, u.regs = s.regs ∧ s.detectorTrip c d = u.tripLocal (c / 32) c (detectorCause d) :=
  ⟨if s.flag (VLV.TRIP.f (c / 32)) then s else s.ledgerInc (0x11 + 4 * c), by split <;> rfl, rfl⟩

/-- From `s` to `u` a cause of channel `c` tripped the device: every latch is set and LOCAL in every tile, SAFE_N is
driven, and an empty capture took the cause and the channel, or CAUSE 3 in the other tiles (R64, R65, R67). -/
structure Tripped (s u : State) (c cause : Nat) : Prop where
  latches : ∀ k, k < 4 → u.flag (VLV.TRIP.f k) = true ∧ u.flag (VLV.LOCAL.f k) = true
  drive : u.flag VLV.SAFE_N_DRV.f = true
  capture : ∀ k, k < 4 → s.flag (VLV.CAP_FULL.f k) = false →
    u.rd (VLV.TRIP_CAP_CAUSE.f k) = (if k = c / 32 then cause else 3) ∧
    (k = c / 32 → u.rd (VLV.TRIP_CAP_CH.f k) = c)

theorem State.detectorTrip_tripped (s : State) {c : Nat} (d : Detector) (hc : c < 128) :
    Tripped s (s.detectorTrip c d) c (detectorCause d) := by
  obtain ⟨u, hu, htrip⟩ := s.detectorTrip_eq c d
  have hlatched : ∀ k, k < 4 → Latched s (s.detectorTrip c d) k (if k = c / 32 then c else 0)
      (if k = c / 32 then detectorCause d else 3) := fun k hk =>
    htrip ▸ (u.tripLocal_latched c (detectorCause d) (by omega) hk).before (Same.of_regs hu)
  refine ⟨fun k hk => ⟨(hlatched k hk).trip, ?_⟩, ?_, fun k hk he => ?_⟩
  · rw [htrip]
    exact u.tripLocal_local _ _ _ hk
  · rw [htrip]
    exact u.tripLocal_drv _ _ _
  · obtain ⟨hcause, hch⟩ := (hlatched k hk).empty he
    refine ⟨hcause.trans ?_, fun e => hch.trans ?_⟩
    · split <;> cases d <;> rfl
    · rw [if_pos e]
      omega

/-- The trip of a detector after a flag of its channel was set: the flag stays, and the trip is as from before. -/
theorem State.setFlag_detectorTrip (s : State) {l : Lay} {c : Nat} (d : Detector) (h : l.outsideTrip = true)
    (hc : c < 128) : ((s.setFlag (l.ch c) true).detectorTrip c d).flag (l.ch c) = true ∧
    Tripped s ((s.setFlag (l.ch c) true).detectorTrip c d) c (detectorCause d) := by
  obtain ⟨htrip, -, h1, h2, hwidth⟩ := Lay.outsideTrip_iff.1 h
  obtain ⟨u, hu, heq⟩ := (s.setFlag (l.ch c) true).detectorTrip_eq c d
  obtain ⟨hlatches, hdrive, hcapture⟩ := (s.setFlag (l.ch c) true).detectorTrip_tripped d hc
  refine ⟨?_, hlatches, hdrive, fun k hk he => hcapture k hk ((State.flag_setFlag_ne _ ?_).trans he)⟩
  · rw [heq, State.tripLocal_flag (by omega) h hc]
    exact (State.flag_congr (Same.of_regs hu _ (List.mem_singleton.2 rfl))).trans (State.flag_setFlag_f hwidth)
  · have hfull : l.clearOf 4 VLV.CAP_FULL = true := List.all_eq_true.1 htrip _ (by decide)
    exact Lay.key_ne_of_clear hfull (by omega) (by omega) hk

theorem exec_protForce_open {n : Tile} (h : s.openTo 12 (.vlv n) = true) :
    exec (.protForce n) s = .next (s.tripLocal n 0 2) :=
  congrArg Host.Outcome.next (State.reach_of_openTo h rfl)

theorem exec_protEn_open {ch : Channel} {on : Bool} (h : s.openTo 12 (.vlv (ch / 32)) = true) :
    exec (.protEn ch on) s = .next (s.writeProtEn ch on) :=
  congrArg Host.Outcome.next (State.reach_of_openTo h rfl)

/-- Before the filter time has passed, nothing happens (R64). -/
theorem exec_deglitchExpiry_early {ch : Channel} {d : Detector} {ns : Word} (h : ns.toNat < s.deglitchNs ch) :
    exec (.deglitchExpiry ch d ns) s = .next s := by
  rw [exec_deglitchExpiry, execDeglitchExpiry, if_neg]
  · rfl
  · simp only [Bool.and_eq_true, decide_eq_true_eq]
    exact fun hc => Nat.not_le.2 h hc.2

/-- Once it has, the detector is filtered active, and trips where PROT_EN = 1 (R64). -/
theorem exec_deglitchExpiry_due {ch : Channel} {d : Detector} {ns : Word} (hdie : s.dieOn = true)
    (hin : s.flag ((detectorIn d).f ch) = true) (hf : s.flag ((detectorLay d).ch ch) = false)
    (hns : s.deglitchNs ch ≤ ns.toNat) :
    exec (.deglitchExpiry ch d ns) s = .next (if (s.setFlag ((detectorLay d).ch ch) true).flag (VLV.PROT_EN.ch ch)
      then (s.setFlag ((detectorLay d).ch ch) true).detectorTrip ch d else s.setFlag ((detectorLay d).ch ch) true) := by
  rw [exec_deglitchExpiry, execDeglitchExpiry, if_pos]
  · rfl
  · simp [hdie, hin, hf, hns]

/-- PROT_EN goes from 0 to 1: the trip of a detector that is filtered active already (R64, log entry 12). -/
theorem State.writeProtEn_rise {c : Nat} (h : s.flag (VLV.PROT_EN.ch c) = false) : s.writeProtEn c true =
    if s.flag (VLV.OC.ch c) then (s.setFlag (VLV.PROT_EN.ch c) true).detectorTrip c .overcurrent
    else if s.flag (VLV.CLAMP_OVL.ch c) then (s.setFlag (VLV.PROT_EN.ch c) true).detectorTrip c .clampOverload
    else s.setFlag (VLV.PROT_EN.ch c) true := by
  have hoc : (s.setFlag (VLV.PROT_EN.ch c) true).flag (VLV.OC.ch c) = s.flag (VLV.OC.ch c) :=
    State.flag_setFlag_ne _ (Lay.key_ne rfl)
  have hcl : (s.setFlag (VLV.PROT_EN.ch c) true).flag (VLV.CLAMP_OVL.ch c) = s.flag (VLV.CLAMP_OVL.ch c) :=
    State.flag_setFlag_ne _ (Lay.key_ne rfl)
  rw [State.writeProtEn, h, hoc, hcl]
  rfl

theorem State.writeProtEn_quiet {c : Nat} (h : s.flag (VLV.PROT_EN.ch c) = false)
    (hoc : s.flag (VLV.OC.ch c) = false) (hcl : s.flag (VLV.CLAMP_OVL.ch c) = false) :
    s.writeProtEn c true = s.setFlag (VLV.PROT_EN.ch c) true := by
  rw [State.writeProtEn_rise h, hoc, hcl]
  rfl

/-- The detector that PROT_EN meets: overcurrent where both are filtered active. -/
theorem State.writeProtEn_meets {c : Nat} (h : s.flag (VLV.PROT_EN.ch c) = false)
    (hd : (s.flag (VLV.OC.ch c) || s.flag (VLV.CLAMP_OVL.ch c)) = true) :
    ∃ d, s.writeProtEn c true = (s.setFlag (VLV.PROT_EN.ch c) true).detectorTrip c d ∧
      detectorCause d = if s.flag (VLV.OC.ch c) then 0 else 1 := by
  rw [State.writeProtEn_rise h]
  cases hoc : s.flag (VLV.OC.ch c) with
  | true => exact ⟨.overcurrent, rfl, rfl⟩
  | false =>
    rw [hoc, Bool.false_or] at hd
    rw [hd]
    exact ⟨.clampOverload, rfl, rfl⟩

/-- The register of a detector's threshold. -/
def thresholdLay : Detector → Lay
  | .overcurrent => VLV.CH_PROT_OCTH
  | .clampOverload => VLV.CH_PROT_CLTH

theorem State.thresholdMa_eq (s : State) (d : Detector) (c : Nat) :
    s.thresholdMa d c = 4 * max 1 (min 20 (s.rd ((thresholdLay d).ch c))) := by cases d <;> rfl

/-- The current and the input of a detector are none of the registers of its channel. -/
theorem detectorKeys_ne (d : Detector) {c : Nat} (hc : c < 128) :
    ((detectorUa d).f c).key ≠ ((thresholdLay d).ch c).key ∧ ((detectorUa d).f c).key ≠ ((detectorLay d).ch c).key ∧
    ((detectorIn d).f c).key ≠ ((detectorLay d).ch c).key := by
  have hregs : (thresholdLay d).clearOf 128 (detectorUa d) = true ∧ (detectorLay d).clearOf 128 (detectorUa d) = true ∧
      (detectorLay d).clearOf 128 (detectorIn d) = true ∧ (thresholdLay d).n1 = 4 ∧ (thresholdLay d).n2 = 32 ∧
      (detectorLay d).n1 = 4 ∧ (detectorLay d).n2 = 32 := by cases d <;> decide
  obtain ⟨hth, hua, hin, h1, h2, h3, h4⟩ := hregs
  have htile : c / 32 < 4 := by omega
  have hchan : c % 32 < 32 := Nat.mod_lt c (by decide)
  exact ⟨(Lay.key_ne_of_clear hth (h1 ▸ htile) (h2 ▸ hchan) hc).symm,
    (Lay.key_ne_of_clear hua (h3 ▸ htile) (h4 ▸ hchan) hc).symm,
    (Lay.key_ne_of_clear hin (h3 ▸ htile) (h4 ▸ hchan) hc).symm⟩

theorem detector_widths (d : Detector) (c : Nat) : ((detectorUa d).f c).width = 32 ∧ ((detectorIn d).f c).width = 1 ∧
    ((detectorLay d).ch c).width = 1 := by cases d <;> exact ⟨rfl, rfl, rfl⟩

/-- The input follows the comparison; the filtered state ends where the input is inactive (R63, R64). -/
theorem State.detectorJudge_flags {c : Nat} {d : Detector} {active : Bool} (hc : c < 128)
    (h : decide (s.thresholdMa d c * 1000 < s.rd ((detectorUa d).f c)) = active) :
    (s.detectorJudge c d).flag ((detectorIn d).f c) = active ∧
    (s.detectorJudge c d).flag ((detectorLay d).ch c) = (s.flag ((detectorLay d).ch c) && active) := by
  obtain ⟨-, -, hne⟩ := detectorKeys_ne d hc
  obtain ⟨-, hin, hlay⟩ := detector_widths d c
  rw [State.detectorJudge, h]
  cases active with
  | true =>
    rw [if_pos rfl, State.flag_setFlag_ne _ hne, Bool.and_true]
    exact ⟨State.flag_setFlag_same _ _ _ hin, rfl⟩
  | false =>
    rw [if_neg Bool.false_ne_true, State.flag_setFlag_ne _ hne.symm, Bool.and_false]
    exact ⟨State.flag_setFlag_same _ _ _ hin, State.flag_setFlag_same _ _ _ hlay⟩

theorem State.detectorJudge_onlyRegs (s : State) (c : Nat) (d : Detector) :
    OnlyRegs [((detectorIn d).f c).key, ((detectorLay d).ch c).key] s (s.detectorJudge c d) := by
  unfold State.detectorJudge
  dsimp only
  split
  · exact (OnlyRegs.refl _ s).setFlag (by simp)
  · exact ((OnlyRegs.refl _ s).setFlag (by simp)).setFlag (by simp)

theorem exec_detectorInputChange_powered {ch : Channel} {d : Detector} {ua : Word} (h : s.dieOn = true) :
    exec (.detectorInputChange ch d ua) s = .next ((s.wr ((detectorUa d).f ch) ua.toNat).detectorJudge ch d) :=
  congrArg Host.Outcome.next (if_pos h)

/-- What a new current makes of its detector (R63, R64). -/
theorem exec_detectorInputChange_judges {ch : Channel} {d : Detector} {ua : Word} {limit : Nat} (hdie : s.dieOn = true)
    (hl : s.thresholdMa d ch * 1000 = limit) : ∃ t, exec (.detectorInputChange ch d ua) s = .next t ∧
      t.flag ((detectorIn d).f ch) = decide (limit < ua.toNat) ∧
      t.flag ((detectorLay d).ch ch) = (s.flag ((detectorLay d).ch ch) && decide (limit < ua.toNat)) ∧
      OnlyRegs [((detectorUa d).f ch).key, ((detectorIn d).f ch).key, ((detectorLay d).ch ch).key] s t := by
  obtain ⟨hth, hua, -⟩ := detectorKeys_ne d ch.isLt
  obtain ⟨hwidth, -⟩ := detector_widths d ch
  have hactive : decide ((s.wr ((detectorUa d).f ch) ua.toNat).thresholdMa d ch * 1000 <
      (s.wr ((detectorUa d).f ch) ua.toNat).rd ((detectorUa d).f ch)) = decide (limit < ua.toNat) := by
    rw [← hl, State.thresholdMa_eq, State.thresholdMa_eq, State.rd_wr_ne _ _ hth,
      State.rd_wr_lt (by rw [hwidth]; exact ua.isLt)]
  obtain ⟨hin, hlay⟩ := State.detectorJudge_flags ch.isLt hactive
  refine ⟨_, exec_detectorInputChange_powered hdie, hin, ?_, ?_⟩
  · rw [hlay, State.flag_wr_ne _ _ hua]
  · exact ((OnlyRegs.refl _ s).wr (by simp)).trans ((State.detectorJudge_onlyRegs _ ch d).mono (by simp))

/-! SAFE_N (R65). -/

/-- SAFE_N as it reads in every tile. -/
def State.senseSafeN (s : State) (low : Bool) : State := s.forUpTo 4 fun s k => s.setFlag (VLV.EXT_IN.f k) low

theorem State.senseSafeN_flag (s : State) {k : Nat} (low : Bool) (hk : k < 4) :
    (s.senseSafeN low).flag (VLV.EXT_IN.f k) = low := State.flag_forUpTo_setFlag hk rfl (by decide)

theorem State.senseSafeN_onlyRegs (s : State) (low : Bool) : OnlyRegs (keys 4 [VLV.EXT_IN]) s (s.senseSafeN low) :=
  OnlyRegs.forUpTo_setFlag fun _ => mem_keys (List.mem_singleton.2 rfl)

/-- A low SAFE_N sets every latch with CAUSE 4. -/
def State.extTrip (s : State) : State := s.forUpTo 4 fun s k => s.latchSet k 0 4

theorem State.extTrip_latched (s : State) {k : Nat} (hk : k < 4) : Latched s s.extTrip k 0 4 := by
  obtain ⟨u, hu, hend⟩ := State.forUpTo_turn (s := s) (fs := latchLays.map fun l => l.f k)
    (f := fun s j => s.latchSet j 0 4) hk fun u j hj hne => u.latchSet_other 0 4 hk hj hne
  exact ((u.latchSet_latched 0 4 hk).before (hu.mono fun _ => List.mem_cons_of_mem _)).after hend

theorem State.extTrip_regsBut (s : State) : RegsBut (keys 4 (latchLays ++ tdrLays)) s s.extTrip :=
  RegsBut.forUpTo fun u k hk => (u.latchSet_regsBut k 0 4).mono (keysAt_subset_keys hk)

theorem State.extTrip_flag {l : Lay} {i j : Nat} (h : (latchLays ++ tdrLays).all (l.clearOf 4) = true) (hi : i < l.n1)
    (hj : j < l.n2) : s.extTrip.flag (l.f i j) = s.flag (l.f i j) :=
  s.extTrip_regsBut.flag (Lay.key_notMem_keys h hi hj)

theorem State.senseSafeN_other {l : Lay} {i j : Nat} (s : State) (low : Bool)
    (h : [VLV.EXT_IN].all (l.clearOf 4) = true) (hi : i < l.n1) (hj : j < l.n2) :
    (s.senseSafeN low).flag (l.f i j) = s.flag (l.f i j) :=
  (s.senseSafeN_onlyRegs low).flag (Lay.key_notMem_keys h hi hj)

theorem exec_safeNFall_eq (s : State) : exec .safeNFall s =
    .next (if s.dieOn then (s.senseSafeN true).extTrip else s.senseSafeN true) := by
  have hdie : (s.senseSafeN true).dieOn = s.dieOn := by
    have hkept : ∀ l ∈ [PWR.EN_MAIN, PWR.STBY, PWR.DIE_OFF], (s.senseSafeN true).flag l.f = s.flag l.f := fun l hl =>
      have ⟨h, h1, h2⟩ := (by decide : ∀ l ∈ [PWR.EN_MAIN, PWR.STBY, PWR.DIE_OFF],
        [VLV.EXT_IN].all (l.clearOf 4) = true ∧ 0 < l.n1 ∧ 0 < l.n2) l hl
      s.senseSafeN_other true h h1 h2
    rw [State.dieOn, State.dieOn, hkept PWR.EN_MAIN (by simp), hkept PWR.STBY (by simp), hkept PWR.DIE_OFF (by simp)]
  have htrips : exec .safeNFall s = .next (s.senseSafeN true).safeNTrips := rfl
  rw [htrips, State.safeNTrips, s.senseSafeN_flag true (by decide : 0 < 4), hdie, Bool.true_and]
  rfl

/-- Settles O9: each cause sets one latch after another, and no later setting concerns an earlier tile. -/
theorem tripSetsEveryLatch : Obligations.TripSetsEveryLatch := by
  unfold Obligations.TripSetsEveryLatch
  refine ⟨fun n s hopen => ⟨_, exec_protForce_open hopen, fun k hk => ?_, s.tripLocal_drv n 0 2, ?_,
      s.tripLocal_regsBut 0 2 n.isLt⟩, fun ch d ns s => exec_deglitchExpiry_early, fun ch d ns s hdie hin hf hns => ?_,
    fun ch s hopen hen => ⟨_, exec_protEn_open hopen, ?_, fun hoc hcl => ?_, fun hd => ?_⟩,
    fun ch s hopen => ⟨_, exec_protEn_open hopen, State.flag_setFlag_f rfl, ?_⟩, fun ch d ua s hdie => ?_,
    fun s => ?_⟩
  · have h := s.tripLocal_latched 0 2 n.isLt hk
    refine ⟨h.trip, s.tripLocal_local n 0 2 hk, h.full, fun he => ?_, h.kept⟩
    rw [(h.empty he).1]
    split <;> rfl
  · exact (State.tripLocal_keeps (ft := maskOf [.regs, .tabs, .runs]) n 0 2 (by decide) (Keeps.refl s)).only
  · have hwidth : (detectorLay d).width = 1 := by cases d <;> rfl
    have hen : (s.setFlag ((detectorLay d).ch ch) true).flag (VLV.PROT_EN.ch ch) = s.flag (VLV.PROT_EN.ch ch) :=
      State.flag_setFlag_ne _ (Lay.key_ne (by cases d <;> rfl))
    obtain ⟨hset, htrip⟩ := s.setFlag_detectorTrip d (detectorLay_outsideTrip d) ch.isLt
    refine ⟨_, exec_deglitchExpiry_due hdie hin hf hns, ?_, fun hoff => ?_, fun hon => ?_⟩
    · split
      · exact hset
      · exact State.flag_setFlag_f hwidth
    · rw [hen, hoff, if_neg Bool.false_ne_true]
      exact (OnlyRegs.refl _ s).setFlag (by simp)
    · rw [hen, hon, if_pos rfl]
      refine ⟨fun k hk => ⟨(htrip.latches k hk).1, (htrip.latches k hk).2, htrip.capture k hk⟩, htrip.drive, ?_⟩
      exact (State.detectorTrip_keeps (ft := maskOf [.regs, .tabs, .runs]) ch d (by decide)
        (State.setFlag_keeps _ _ (by decide) (Keeps.refl s))).only
  · cases hd : s.flag (VLV.OC.ch ch) || s.flag (VLV.CLAMP_OVL.ch ch) with
    | false =>
      obtain ⟨hoc, hcl⟩ := Bool.or_eq_false_iff.1 hd
      rw [State.writeProtEn_quiet hen hoc hcl]
      exact State.flag_setFlag_f rfl
    | true =>
      obtain ⟨d, hw, -⟩ := State.writeProtEn_meets hen hd
      rw [hw]
      exact (s.setFlag_detectorTrip d (by decide) ch.isLt).1
  · rw [State.writeProtEn_quiet hen hoc hcl]
    exact (OnlyRegs.refl _ s).setFlag (by simp)
  · obtain ⟨d, hw, hcause⟩ := State.writeProtEn_meets hen hd
    obtain ⟨-, htrip⟩ := s.setFlag_detectorTrip (l := VLV.PROT_EN) d (by decide) ch.isLt
    rw [hw, ← hcause]
    exact ⟨fun k hk => ⟨(htrip.latches k hk).1, (htrip.latches k hk).2, fun he => (htrip.capture k hk he).1⟩,
      htrip.drive⟩
  · exact (OnlyRegs.refl _ s).setFlag (by simp)
  · intro th limit
    exact exec_detectorInputChange_judges hdie (by cases d <;> exact Nat.mul_right_comm _ _ _)
  · have hfall := exec_safeNFall_eq s
    have honly := (execSafeNFall_keeps (ft := maskOf [.regs, .tabs, .runs]) (by decide) (Keeps.refl s)).only hfall
    refine ⟨_, hfall, fun k hk => ⟨?_, ?_, fun hdie => ?_⟩, fun hoff => ?_, ?_, honly⟩
    · split
      · exact (State.extTrip_flag (by decide) hk Nat.one_pos).trans (s.senseSafeN_flag true hk)
      · exact s.senseSafeN_flag true hk
    · split
      · exact (State.extTrip_flag (by decide) hk Nat.one_pos).trans (s.senseSafeN_other true (by decide) hk Nat.one_pos)
      · exact s.senseSafeN_other true (by decide) hk Nat.one_pos
    · have h := (s.senseSafeN true).extTrip_latched hk
      rw [hdie, if_pos rfl]
      exact ⟨h.trip, fun he => (h.empty ((s.senseSafeN_other true (by decide) hk Nat.one_pos).trans he)).1⟩
    · rw [hoff]
      exact s.senseSafeN_onlyRegs true
    · split
      · exact (State.extTrip_flag (by decide) Nat.one_pos Nat.one_pos).trans
          (s.senseSafeN_other true (by decide) Nat.one_pos Nat.one_pos)
      · exact s.senseSafeN_other true (by decide) Nat.one_pos Nat.one_pos

end Sys2Proof.Machine
end

section
/-! PROOF. The release of a trip: the statement on its steps. -/

namespace Sys2Proof.Machine

variable {s t : State}

/-! Loops that set two flags of every tile. -/

theorem State.flags_forUpTo_setFlag {l m : Lay} {n k : Nat} {b c : Bool} (hk : k < n)
    (hl : l.width = 1 ∧ l.s1 ≠ 0) (hm : m.width = 1 ∧ m.s1 ≠ 0) (hlm : l.apart m = true) :
    (s.forUpTo n fun s i => (s.setFlag (l.f i) b).setFlag (m.f i) c).flag (l.f k) = b ∧
    (s.forUpTo n fun s i => (s.setFlag (l.f i) b).setFlag (m.f i) c).flag (m.f k) = c := by
  obtain ⟨u, -, hu⟩ := State.forUpTo_turn (s := s) (fs := [l.f k, m.f k])
    (f := fun s i => (s.setFlag (l.f i) b).setFlag (m.f i) c) hk fun u j _ hj => by
      refine ((Same.refl _ u).wr ?_).wr ?_ <;> simp only [List.forall_mem_cons]
      · exact ⟨Lay.key_ne_idx hl.2 hj, Lay.key_ne hlm, nofun⟩
      · exact ⟨(Lay.key_ne hlm).symm, Lay.key_ne_idx hm.2 hj, nofun⟩
  rw [hu.flag (by simp), hu.flag (by simp), State.flag_setFlag_ne _ (Lay.key_ne hlm).symm]
  exact ⟨State.flag_setFlag_f hl.1, State.flag_setFlag_f hm.1⟩

theorem OnlyRegs.forUpTo_setFlags {l m : Lay} {n : Nat} {b c : Bool} :
    OnlyRegs (keys n [l, m]) s (s.forUpTo n fun s i => (s.setFlag (l.f i) b).setFlag (m.f i) c) :=
  (OnlyRegs.refl _ s).forUpTo fun _ _ hi ht => (ht.setFlag (mem_keys (by simp) hi)).setFlag (mem_keys (by simp) hi)

/-! What a release looks at (R70, R71). -/

/-- What holds a channel in its safe state (R69). -/
def holders (c : Nat) : List Fld :=
  [VLV.TRIP.f (c / 32), VLV.TREF_SAFE.f, CLK.WAITREF.f, BST.HOLD.f, VLV.OUT_HELD.f]

theorem State.inSafe_congr {c : Nat} (h : Same (holders c) s t) : t.inSafe c = s.inSafe c := by
  simp only [Same, holders, List.forall_mem_cons] at h
  obtain ⟨htrip, htref, hwait, hhold, hout, -⟩ := h
  simp only [State.inSafe, State.flag, htrip, htref, hwait, hhold, hout]

/-- Whether a burst runs a channel is read from its owner and the states of the sequencers. -/
theorem State.chanRunning_congr {c : Nat} (ho : t.rd (TWL.OWNER.f c) = s.rd (TWL.OWNER.f c))
    (hq : ∀ q, q < 16 → t.rd (TWL.STATE_STATE.f q) = s.rd (TWL.STATE_STATE.f q)) :
    t.chanRunning c = s.chanRunning c := by
  have howner : t.ownerOf c = s.ownerOf c := by rw [State.ownerOf, State.ownerOf, ho]
  have hlt : ∀ q, s.ownerOf c = some q → q < 16 := fun q h => by
    unfold State.ownerOf at h
    split at h
    · cases h
    · cases h
      exact Nat.mod_lt _ (by decide)
  rw [State.chanRunning, State.chanRunning, howner]
  cases h : s.ownerOf c with
  | none => rfl
  | some q =>
    show t.issuing q = s.issuing q
    rw [State.issuing, hq q (hlt q h)]
    rfl

/-- The wait of a release is no local cause. -/
theorem State.localCause_setRelWait (s : State) (b : Bool) :
    (s.setFlag VLV.REL_WAIT.f b).localCause = s.localCause := by
  have hdet : ∀ c, (s.setFlag VLV.REL_WAIT.f b).flag (VLV.PROT_EN.ch c) = s.flag (VLV.PROT_EN.ch c) ∧
      (s.setFlag VLV.REL_WAIT.f b).flag (VLV.OC.ch c) = s.flag (VLV.OC.ch c) ∧
      (s.setFlag VLV.REL_WAIT.f b).flag (VLV.CLAMP_OVL.ch c) = s.flag (VLV.CLAMP_OVL.ch c) := fun c =>
    ⟨State.flag_setFlag_ne _ (Lay.key_ne rfl), State.flag_setFlag_ne _ (Lay.key_ne rfl),
      State.flag_setFlag_ne _ (Lay.key_ne rfl)⟩
  have hlimit : (s.setFlag VLV.REL_WAIT.f b).rd PWR.TLIM_TCRIT.f = s.rd PWR.TLIM_TCRIT.f :=
    State.rd_setFlag_ne _ (Lay.key_ne rfl)
  have htemp : ∀ k, k < 12 → (s.setFlag VLV.REL_WAIT.f b).sensorCritical k = s.sensorCritical k := fun k hk => by
    rw [State.sensorCritical, State.sensorCritical, hlimit,
      State.rd_setFlag_ne _ (Lay.key_ne_of_clear (n := 1) (by decide) hk Nat.one_pos Nat.one_pos).symm]
  have hsensors : ((List.range 12).any fun k => (s.setFlag VLV.REL_WAIT.f b).sensorCritical k) =
      (List.range 12).any fun k => s.sensorCritical k := by
    rw [Bool.eq_iff_iff, List.any_eq_true, List.any_eq_true]
    exact exists_congr fun k => and_congr_right fun hk => by rw [htemp k (List.mem_range.1 hk)]
  simp only [State.localCause, hdet, hsensors]
  rfl

/-! A channel leaves its safe state (R71). -/

theorem State.leaveSafe_held {c : Nat} (h : s.inSafe c = true) : s.leaveSafe c = s := if_pos h

theorem State.leaveSafe_free {c : Nat} (h : s.inSafe c = false) : s.leaveSafe c =
    ((s.setFlag (VLV.SAFE.ch c) false).setFlag (VLV.PMU_SETTLED.ch c) false).wr (VLV.AWAIT.f c)
      (if s.chanRunning c then 1 else 0) := if_neg (by rw [h]; exact Bool.false_ne_true)

/-- The fields that the release of a channel writes. -/
def leaveKeys (j : Nat) : List Nat := [(VLV.SAFE.ch j).key, (VLV.PMU_SETTLED.ch j).key, (VLV.AWAIT.f j).key]

theorem State.leaveSafe_regsBut (s : State) (c : Nat) :
    RegsBut (leaveKeys c) s (s.leaveSafe c) := by
  cases h : s.inSafe c with
  | true => rw [State.leaveSafe_held h]; exact RegsBut.refl _ s
  | false =>
    rw [State.leaveSafe_free h]
    refine (((RegsBut.refl _ s).setFlag ?_).setFlag ?_).wr ?_ <;> simp [leaveKeys]

theorem State.leaveSafe_free_shows {c : Nat} (h : s.inSafe c = false) :
    (s.leaveSafe c).flag (VLV.SAFE.ch c) = false ∧
    (s.leaveSafe c).rd (VLV.AWAIT.f c) = if s.chanRunning c then 1 else 0 := by
  rw [State.leaveSafe_free h]
  constructor
  · exact (State.flag_wr_ne _ _ (Lay.key_ne rfl)).trans
      ((State.flag_setFlag_ne _ (Lay.key_ne rfl)).trans (State.flag_setFlag_f rfl))
  · rw [State.rd_wr_same]
    split <;> rfl

/-- No release of a channel writes the registers of `l`. -/
def Lay.clearOfLeave (l : Lay) : Bool := l.apart VLV.SAFE && l.apart VLV.PMU_SETTLED && l.clearOf 128 VLV.AWAIT

theorem Lay.key_notMem_leaveKeys {l : Lay} {i k j : Nat} (h : l.clearOfLeave = true) (hi : i < l.n1) (hk : k < l.n2)
    (hj : j < 128) : (l.f i k).key ∉ leaveKeys j := by
  obtain ⟨h, hawait⟩ := Bool.and_eq_true_iff.1 h
  obtain ⟨hsafe, hsettled⟩ := Bool.and_eq_true_iff.1 h
  simp only [leaveKeys, List.mem_cons, List.not_mem_nil, or_false, not_or]
  exact ⟨Lay.key_ne hsafe, Lay.key_ne hsettled, Lay.key_ne_of_clear hawait hi hk hj⟩

/-- What decides what a release makes of a channel: what holds it, its owner, and the states of the sequencers. -/
def releaseInputs (c : Nat) : List Fld :=
  holders c ++ TWL.OWNER.f c :: (List.range 16).map fun q => TWL.STATE_STATE.f q

theorem releaseInputs_notMem {c j : Nat} (hc : c < 128) (hj : j < 128) :
    ∀ f ∈ releaseInputs c, f.key ∉ leaveKeys j := by
  intro f hf
  rcases List.mem_append.1 hf with hf | hf
  · have htile : c / 32 < 4 := by omega
    simp only [holders, List.mem_cons, List.not_mem_nil, or_false] at hf
    rcases hf with rfl | rfl | rfl | rfl | rfl
    · exact Lay.key_notMem_leaveKeys rfl htile Nat.one_pos hj
    all_goals exact Lay.key_notMem_leaveKeys rfl Nat.one_pos Nat.one_pos hj
  · rcases List.mem_cons.1 hf with rfl | hf
    · exact Lay.key_notMem_leaveKeys rfl hc Nat.one_pos hj
    · obtain ⟨q, hq, rfl⟩ := List.mem_map.1 hf
      exact Lay.key_notMem_leaveKeys rfl (List.mem_range.1 hq) Nat.one_pos hj

theorem State.leaveSafe_inputs (s : State) {c j : Nat} (hc : c < 128) (hj : j < 128) :
    Same (releaseInputs c) s (s.leaveSafe j) := (s.leaveSafe_regsBut j).same (releaseInputs_notMem hc hj)


theorem State.leaveSafe_other (s : State) {c j : Nat} (h : j ≠ c) :
    Same [VLV.SAFE.ch c, VLV.AWAIT.f c] s (s.leaveSafe j) :=
  (s.leaveSafe_regsBut j).same fun f hf => by
    simp only [List.mem_cons, List.not_mem_nil, or_false] at hf
    simp only [leaveKeys, List.mem_cons, List.not_mem_nil, or_false, not_or]
    rcases hf with rfl | rfl
    · exact ⟨Lay.ch_key_ne (by decide) (by decide) h.symm, Lay.key_ne rfl, Lay.key_ne rfl⟩
    · exact ⟨Lay.key_ne rfl, Lay.key_ne rfl, Lay.key_ne_idx (by decide) h.symm⟩

/-- The last step of a release: every channel that nothing holds leaves its safe state. -/
def State.releaseChannels (s : State) : State := s.forUpTo 128 fun s c => s.leaveSafe c

theorem State.releaseChannels_rd {l : Lay} {i k : Nat} (h : l.clearOfLeave = true) (hi : i < l.n1) (hk : k < l.n2) :
    s.releaseChannels.rd (l.f i k) = s.rd (l.f i k) :=
  Same.forUpTo (fs := [l.f i k]) (fun u _ hj => (u.leaveSafe_regsBut _).same fun _ hf =>
    List.mem_singleton.1 hf ▸ Lay.key_notMem_leaveKeys h hi hk hj) _ (List.mem_singleton.2 rfl)

theorem State.releaseChannels_flag {l : Lay} {i k : Nat} (h : l.clearOfLeave = true) (hi : i < l.n1) (hk : k < l.n2) :
    s.releaseChannels.flag (l.f i k) = s.flag (l.f i k) := State.flag_congr (State.releaseChannels_rd h hi hk)

theorem State.releaseChannels_inputs (s : State) {c : Nat} (hc : c < 128) :
    Same (releaseInputs c) s s.releaseChannels := Same.forUpTo fun u _ hj => u.leaveSafe_inputs hc hj

theorem Same.inSafe {c : Nat} (h : Same (releaseInputs c) s t) : t.inSafe c = s.inSafe c :=
  State.inSafe_congr (h.mono fun _ => List.mem_append_left _)

theorem Same.chanRunning {c : Nat} (h : Same (releaseInputs c) s t) : t.chanRunning c = s.chanRunning c :=
  State.chanRunning_congr (h _ (by simp [releaseInputs])) fun q hq =>
    h _ (List.mem_append_right _ (List.mem_cons_of_mem _ (List.mem_map.2 ⟨q, List.mem_range.2 hq, rfl⟩)))

/-- What the release makes of a channel (R71). -/
theorem State.releaseChannels_shows (s : State) {c : Nat} (hc : c < 128) :
    (s.inSafe c = true → Same [VLV.SAFE.ch c, VLV.AWAIT.f c] s s.releaseChannels) ∧
    (s.inSafe c = false → s.releaseChannels.flag (VLV.SAFE.ch c) = false ∧
      s.releaseChannels.rd (VLV.AWAIT.f c) = if s.chanRunning c then 1 else 0) := by
  obtain ⟨u, hu, hend⟩ := State.forUpTo_turn (s := s) (fs := [VLV.SAFE.ch c, VLV.AWAIT.f c] ++ releaseInputs c)
    (f := fun s c => s.leaveSafe c) hc fun u j hj hne f hf => by
      rcases List.mem_append.1 hf with hf | hf
      · exact u.leaveSafe_other hne f hf
      · exact u.leaveSafe_inputs hc hj f hf
  have hin : Same (releaseInputs c) s u := hu.mono fun _ => List.mem_append_right _
  have hsafe : u.inSafe c = s.inSafe c := hin.inSafe
  have hshown : Same [VLV.SAFE.ch c, VLV.AWAIT.f c] (u.leaveSafe c) s.releaseChannels :=
    hend.mono fun _ => List.mem_append_left _
  refine ⟨fun h => ?_, fun h => ?_⟩
  · rw [State.leaveSafe_held (hsafe.trans h)] at hshown
    exact (hu.mono fun _ => List.mem_append_left _).trans hshown
  · obtain ⟨hs, ha⟩ := State.leaveSafe_free_shows (hsafe.trans h)
    rw [hshown.flag (by simp), hshown _ (by simp : VLV.AWAIT.f c ∈ _), ← hin.chanRunning]
    exact ⟨hs, ha⟩

/-! The steps of a release (R70). -/

/-- A local cause is still there: the release is refused (step 2). -/
theorem State.releaseCheck_local (h : s.localCause = true) : s.releaseCheck =
    (s.setFlag VLV.SAFE_N_DRV.f true).forUpTo 4 fun s k => s.setFlag (VLV.LOCAL.f k) true := if_pos h

/-- SAFE_N is low: the release is blocked (step 3). -/
theorem State.releaseCheck_blocked (h : s.localCause = false) (he : s.flag (VLV.EXT_IN.f 0) = true) : s.releaseCheck =
    s.forUpTo 4 fun s k => (s.setFlag (VLV.LOCAL.f k) false).setFlag (VLV.REL_BLOCKED.f k) true := by
  rw [State.releaseCheck, h, he]
  rfl

/-- Nothing is in the way: latches and channels are released (step 4). -/
theorem State.releaseCheck_free (h : s.localCause = false) (he : s.flag (VLV.EXT_IN.f 0) = false) : s.releaseCheck =
    (s.forUpTo 4 fun s k => (s.setFlag (VLV.TRIP.f k) false).setFlag (VLV.LOCAL.f k) false).releaseChannels := by
  rw [State.releaseCheck, h, he]
  rfl

theorem exec_protRel_open {n : Tile} (h : s.openTo 12 (.vlv n) = true) : exec (.protRel n) s = .next s.protRel :=
  congrArg Host.Outcome.next (State.reach_of_openTo h rfl)

theorem exec_vlvCapRel_open {n : Tile} (h : s.openTo 12 (.vlv n) = true) :
    exec (.vlvCapRel n) s = .next (s.vlvCapRel n) :=
  congrArg Host.Outcome.next (State.reach_of_openTo h rfl)

theorem exec_releaseCheck_due (h : s.flag VLV.REL_WAIT.f = true) :
    exec .releaseCheck s = .next (s.setFlag VLV.REL_WAIT.f false).releaseCheck :=
  congrArg Host.Outcome.next (if_pos h)

theorem exec_safeSettled_held {ch : Channel} (hs : s.inSafe ch = true) (hd : s.dieOn = true) :
    exec (.safeSettled ch) s = .next (s.setFlag (VLV.SAFE.ch ch) true) :=
  congrArg Host.Outcome.next (if_pos (Bool.and_eq_true_iff.2 ⟨hs, hd⟩))

/-- Step 2 of R70: nothing but SAFE_N_DRV and LOCAL. -/
theorem State.releaseCheck_local_shows (h : s.localCause = true) : s.releaseCheck.flag VLV.SAFE_N_DRV.f = true ∧
    (∀ k, k < 4 → s.releaseCheck.flag (VLV.LOCAL.f k) = true) ∧
    OnlyRegs (VLV.SAFE_N_DRV.f.key :: keys 4 [VLV.LOCAL]) s s.releaseCheck := by
  rw [State.releaseCheck_local h]
  have hloop : OnlyRegs (keys 4 [VLV.LOCAL]) (s.setFlag VLV.SAFE_N_DRV.f true)
      ((s.setFlag VLV.SAFE_N_DRV.f true).forUpTo 4 fun s k => s.setFlag (VLV.LOCAL.f k) true) :=
    OnlyRegs.forUpTo_setFlag fun _ => mem_keys (List.mem_singleton.2 rfl)
  refine ⟨?_, fun k hk => State.flag_forUpTo_setFlag hk rfl (by decide), ?_⟩
  · rw [hloop.flag (Lay.key_notMem_keys (by decide) Nat.one_pos Nat.one_pos)]
    exact State.flag_setFlag_f rfl
  · exact ((OnlyRegs.refl _ s).setFlag (by simp)).trans (hloop.mono fun _ => List.mem_cons_of_mem _)

/-- Step 3 of R70: nothing but LOCAL and REL_BLOCKED. -/
theorem State.releaseCheck_blocked_shows (h : s.localCause = false) (he : s.flag (VLV.EXT_IN.f 0) = true) :
    (∀ k, k < 4 → s.releaseCheck.flag (VLV.LOCAL.f k) = false ∧ s.releaseCheck.flag (VLV.REL_BLOCKED.f k) = true) ∧
    OnlyRegs (keys 4 [VLV.LOCAL, VLV.REL_BLOCKED]) s s.releaseCheck := by
  rw [State.releaseCheck_blocked h he]
  exact ⟨fun k hk => State.flags_forUpTo_setFlag hk (by decide) (by decide) rfl, OnlyRegs.forUpTo_setFlags⟩

/-- Step 4 of R70: TRIP and LOCAL in every tile, then every channel for itself. -/
theorem State.releaseCheck_free_shows (h : s.localCause = false) (he : s.flag (VLV.EXT_IN.f 0) = false) :
    ∃ u, s.releaseCheck = u.releaseChannels ∧ OnlyRegs (keys 4 [VLV.TRIP, VLV.LOCAL]) s u ∧
      ∀ k, k < 4 → u.flag (VLV.TRIP.f k) = false ∧ u.flag (VLV.LOCAL.f k) = false :=
  ⟨_, State.releaseCheck_free h he, OnlyRegs.forUpTo_setFlags,
    fun _ hk => State.flags_forUpTo_setFlag hk (by decide) (by decide) rfl⟩

/-- What step 4 makes of a channel, which nothing but the latches and the releases of channels decides (R71). -/
theorem State.releaseCheck_free_channel {c : Nat} (h : s.localCause = false) (he : s.flag (VLV.EXT_IN.f 0) = false)
    (hc : c < 128) :
    (s.releaseCheck.inSafe c = true → s.releaseCheck.flag (VLV.SAFE.ch c) = s.flag (VLV.SAFE.ch c) ∧
      s.releaseCheck.rd (VLV.AWAIT.f c) = s.rd (VLV.AWAIT.f c)) ∧
    (s.releaseCheck.inSafe c = false → s.releaseCheck.flag (VLV.SAFE.ch c) = false ∧
      s.releaseCheck.rd (VLV.AWAIT.f c) = if s.chanRunning c then 1 else 0) := by
  obtain ⟨u, hu, hframe, -⟩ := State.releaseCheck_free_shows h he
  have hkept : ∀ (l : Lay) (i j : Nat), [VLV.TRIP, VLV.LOCAL].all (l.clearOf 4) = true → i < l.n1 → j < l.n2 →
      u.rd (l.f i j) = s.rd (l.f i j) := fun l i j hl hi hj => hframe.rd (Lay.key_notMem_keys hl hi hj)
  obtain ⟨hheld, hfree⟩ := u.releaseChannels_shows hc
  rw [hu, (u.releaseChannels_inputs hc).inSafe]
  refine ⟨fun hin => ?_, fun hout => ?_⟩
  · have hsafe : u.flag (VLV.SAFE.ch c) = s.flag (VLV.SAFE.ch c) := State.flag_congr <|
      hkept VLV.SAFE (c / 32) (c % 32) (by decide) (by simp only [VLV.SAFE]; omega) (Nat.mod_lt _ (by decide))
    exact ⟨((hheld hin).flag (by simp)).trans hsafe, (hheld hin _ (by simp)).trans
      (hkept VLV.AWAIT c 0 (by decide) hc Nat.one_pos)⟩
  · have hrun : u.chanRunning c = s.chanRunning c := State.chanRunning_congr
      (hkept TWL.OWNER c 0 (by decide) hc Nat.one_pos) fun q hq => hkept TWL.STATE_STATE q 0 (by decide) hq Nat.one_pos
    exact hrun ▸ hfree hout

theorem State.releaseCheck_free_flags (h : s.localCause = false) (he : s.flag (VLV.EXT_IN.f 0) = false) :
    (∀ k, k < 4 → s.releaseCheck.flag (VLV.LOCAL.f k) = false ∧ s.releaseCheck.flag (VLV.TRIP.f k) = false) ∧
    s.releaseCheck.flag VLV.SAFE_N_DRV.f = s.flag VLV.SAFE_N_DRV.f := by
  obtain ⟨u, hu, hframe, hflags⟩ := State.releaseCheck_free_shows h he
  refine ⟨fun k hk => ?_, ?_⟩ <;> rw [hu]
  · rw [State.releaseChannels_flag rfl hk Nat.one_pos, State.releaseChannels_flag rfl hk Nat.one_pos]
    exact ⟨(hflags k hk).2, (hflags k hk).1⟩
  · rw [State.releaseChannels_flag rfl Nat.one_pos Nat.one_pos]
    exact hframe.flag (Lay.key_notMem_keys (by decide) Nat.one_pos Nat.one_pos)

theorem State.releaseCheck_relWait (s : State) : s.releaseCheck.flag VLV.REL_WAIT.f = s.flag VLV.REL_WAIT.f := by
  cases h : s.localCause with
  | true =>
    obtain ⟨-, -, hframe⟩ := State.releaseCheck_local_shows h
    exact hframe.flag (List.not_mem_cons_of_ne_of_not_mem (Lay.key_ne rfl)
      (Lay.key_notMem_keys (by decide) Nat.one_pos Nat.one_pos))
  | false =>
    cases he : s.flag (VLV.EXT_IN.f 0) with
    | true =>
      obtain ⟨-, hframe⟩ := State.releaseCheck_blocked_shows h he
      exact hframe.flag (Lay.key_notMem_keys (by decide) Nat.one_pos Nat.one_pos)
    | false =>
      obtain ⟨u, hu, hframe, -⟩ := State.releaseCheck_free_shows h he
      rw [hu, State.releaseChannels_flag rfl Nat.one_pos Nat.one_pos]
      exact hframe.flag (Lay.key_notMem_keys (by decide) Nat.one_pos Nat.one_pos)

theorem exec_safeNRise_eq (s : State) : exec .safeNRise s =
    .next ((s.senseSafeN false).forUpTo 4 fun s k => s.setFlag (VLV.REL_BLOCKED.f k) false) := rfl

/-- Settles O10: the three outcomes of the check are its three branches, and each channel is released for itself. -/
theorem tripReleaseFollowsItsSteps : Obligations.TripReleaseFollowsItsSteps := by
  unfold Obligations.TripReleaseFollowsItsSteps
  have hwaited : ∀ s : State, OnlyRegs [VLV.REL_WAIT.f.key] s (s.setFlag VLV.REL_WAIT.f false) := fun s =>
    (OnlyRegs.refl _ s).setFlag (by simp)
  have hext : ∀ s : State, (s.setFlag VLV.REL_WAIT.f false).flag (VLV.EXT_IN.f 0) = s.flag (VLV.EXT_IN.f 0) := fun s =>
    State.flag_setFlag_ne _ (Lay.key_ne rfl)
  refine ⟨fun n s hopen => ⟨_, exec_protRel_open hopen, ?_, State.flag_setFlag_f rfl, ?_⟩,
    fun s hwait => ⟨_, exec_releaseCheck_due hwait, ?_, fun hloc => ?_, fun hloc he => ?_, fun hloc he => ?_⟩,
    fun s => ⟨_, exec_safeNRise_eq s, fun k hk => ⟨?_, State.flag_forUpTo_setFlag hk rfl (by decide)⟩, ?_⟩,
    fun ch s hsafe hdie => ⟨_, exec_safeSettled_held hsafe hdie, State.flag_setFlag_f rfl, ?_⟩,
    fun n s hopen => ⟨_, exec_vlvCapRel_open hopen, ?_, ?_, State.rd_wr_same _ _ _, ?_⟩⟩
  · exact (State.flag_setFlag_ne _ (Lay.key_ne rfl)).trans (State.flag_setFlag_f rfl)
  · exact ((OnlyRegs.refl _ s).setFlag (by simp)).setFlag (by simp)
  · exact (State.releaseCheck_relWait _).trans (State.flag_setFlag_f rfl)
  · obtain ⟨hdrv, hlocal, hframe⟩ := State.releaseCheck_local_shows ((s.localCause_setRelWait false).trans hloc)
    have hall := ((hwaited s).mono (ks' := VLV.REL_WAIT.f.key :: VLV.SAFE_N_DRV.f.key :: keys 4 [VLV.LOCAL])
      (by simp)).trans (hframe.mono fun _ => List.mem_cons_of_mem _)
    refine ⟨hdrv, fun k hk => ⟨hlocal k hk, hall.flag ?_⟩, hall⟩
    exact List.not_mem_cons_of_ne_of_not_mem (Lay.key_ne rfl) (List.not_mem_cons_of_ne_of_not_mem (Lay.key_ne rfl)
      (Lay.key_notMem_keys (by decide) hk Nat.one_pos))
  · obtain ⟨hflags, hframe⟩ := State.releaseCheck_blocked_shows ((s.localCause_setRelWait false).trans hloc)
      ((hext s).trans he)
    have hall := ((hwaited s).mono (ks' := VLV.REL_WAIT.f.key :: keys 4 [VLV.LOCAL, VLV.REL_BLOCKED])
      (by simp)).trans (hframe.mono fun _ => List.mem_cons_of_mem _)
    refine ⟨fun k hk => ⟨(hflags k hk).1, (hflags k hk).2, hall.flag ?_⟩, hall⟩
    exact List.not_mem_cons_of_ne_of_not_mem (Lay.key_ne rfl) (Lay.key_notMem_keys (by decide) hk Nat.one_pos)
  · have hloc' := (s.localCause_setRelWait false).trans hloc
    have he' := (hext s).trans he
    obtain ⟨hflags, hdrive⟩ := State.releaseCheck_free_flags hloc' he'
    refine ⟨hflags, fun ch hin => ?_, fun ch hout => ?_, ?_, ?_⟩
    · obtain ⟨hsafe, hawait⟩ := (State.releaseCheck_free_channel hloc' he' ch.isLt).1 hin
      exact ⟨hsafe.trans (State.flag_setFlag_ne _ (Lay.key_ne rfl)), hawait.trans (State.rd_setFlag_ne _
        (Lay.key_ne_of_clear (n := 1) (by decide) ch.isLt Nat.one_pos Nat.one_pos).symm)⟩
    · have hrun : (s.setFlag VLV.REL_WAIT.f false).chanRunning ch = s.chanRunning ch := State.chanRunning_congr
        (State.rd_setFlag_ne _ (Lay.key_ne_of_clear (n := 1) (by decide) ch.isLt Nat.one_pos Nat.one_pos).symm)
        fun q _ => State.rd_setFlag_ne _ (Lay.key_ne rfl)
      exact hrun ▸ (State.releaseCheck_free_channel hloc' he' ch.isLt).2 hout
    · exact hdrive.trans (State.flag_setFlag_ne _ (Lay.key_ne rfl))
    · exact (State.releaseCheck_keeps (ft := maskOf [.regs]) (by decide)
        (State.setFlag_keeps VLV.REL_WAIT.f false (by decide) (Keeps.refl s))).only
  · have hloop : OnlyRegs (keys 4 [VLV.REL_BLOCKED]) (s.senseSafeN false)
        ((s.senseSafeN false).forUpTo 4 fun s k => s.setFlag (VLV.REL_BLOCKED.f k) false) :=
      OnlyRegs.forUpTo_setFlag fun _ => mem_keys (List.mem_singleton.2 rfl)
    exact (hloop.flag (Lay.key_notMem_keys (by decide) hk Nat.one_pos)).trans (s.senseSafeN_flag false hk)
  · exact ((s.senseSafeN_onlyRegs false).mono (keys_subset (by simp))).trans
      (OnlyRegs.forUpTo_setFlag fun _ => mem_keys (by simp))
  · exact (OnlyRegs.refl _ s).setFlag (by simp)
  · exact (State.flag_wr_ne _ _ (Lay.key_ne rfl)).trans
      ((State.flag_wr_ne _ _ (Lay.key_ne rfl)).trans (State.flag_setFlag_f rfl))
  · exact (State.rd_wr_ne _ _ (Lay.key_ne rfl)).trans (State.rd_wr_same _ _ _)
  · exact (((OnlyRegs.refl _ s).setFlag (by simp)).wr (by simp)).wr (by simp)

end Sys2Proof.Machine
end

section
/-! PROOF. The analogue matrix: the statement on its commits. -/

namespace Sys2Proof.Machine

variable {s t : State}

/-! MX_BUSY and the converters of the tile (R303, R307). -/

def adcLays : List Lay := [ADC.CHG, ADC.TS_WAIT, ADC.TS_LO, ADC.TS_HI]

/-- What a change of MX_BUSY may write of the converters of tile `n`. -/
def adcKeys (n : Nat) : List Nat := (List.range 4).flatMap fun j => keysAt (4 * n + j) adcLays

theorem adcKeys_mem {n j : Nat} (hj : j < 4) : keysAt (4 * n + j) adcLays ⊆ adcKeys n := fun _ hx =>
  List.mem_flatMap.2 ⟨j, List.mem_range.2 hj, hx⟩

theorem Lay.key_notMem_adcKeys {l : Lay} {n i j : Nat} (h : adcLays.all (l.clearOf 16) = true) (hi : i < l.n1)
    (hj : j < l.n2) (hn : n < 4) : (l.f i j).key ∉ adcKeys n := fun hmem => by
  obtain ⟨k, hk, hmem⟩ := List.mem_flatMap.1 hmem
  have hk := List.mem_range.1 hk
  exact Lay.key_notMem_keysAt h hi hj (by omega) hmem

/-- A converter sees MX_BUSY change: it notes the change, and where MX_BUSY clears, a list that waited goes on. -/
def State.adcSees (s : State) (m : Nat) (b : Bool) : State :=
  let s := s.setBit (ADC.CHG.f m) 0 true
  if !b && s.flag (ADC.TS_WAIT.f m) then
    let ts := s.time + entryWait (s.rd (ADC.CUR.f m))
    ((s.setFlag (ADC.TS_WAIT.f m) false).wr (ADC.TS_LO.f m) ts).wr (ADC.TS_HI.f m) (ts / 2 ^ 32)
  else s

theorem State.setMxBusy_eq (s : State) (n : Nat) (b : Bool) :
    s.setMxBusy n b = (s.setFlag (VLV.MX_BUSY.f n) b).forUpTo 4 fun s j => s.adcSees (4 * n + j) b := rfl

theorem State.adcSees_onlyRegs (s : State) (m : Nat) (b : Bool) : OnlyRegs (keysAt m adcLays) s (s.adcSees m b) := by
  unfold State.adcSees
  have hchg : OnlyRegs (keysAt m adcLays) s (s.setBit (ADC.CHG.f m) 0 true) :=
    (OnlyRegs.refl _ s).wr (by simp [keysAt, adcLays])
  dsimp only
  split
  · refine ((hchg.setFlag ?_).wr ?_).wr ?_ <;> simp [keysAt, adcLays]
  · exact hchg

/-- No list waits any more once its converter has seen MX_BUSY clear (R303). -/
theorem State.adcSees_clear (s : State) {m : Nat} (hm : m < 16) :
    (s.adcSees m false).flag (ADC.TS_WAIT.f m) = false := by
  unfold State.adcSees
  dsimp only
  split
  · exact (State.flag_wr_ne _ _ (Lay.key_ne_of_clear (n := 16) (by decide) hm Nat.one_pos hm)).trans
      ((State.flag_wr_ne _ _ (Lay.key_ne_of_clear (n := 16) (by decide) hm Nat.one_pos hm)).trans
        (State.flag_setFlag_f rfl))
  · next h => simpa using h

/-- No other converter's list is concerned. -/
theorem State.adcSees_other (s : State) {m k : Nat} (b : Bool) (hm : m < 16) (hk : k < 16) (h : k ≠ m) :
    Same [ADC.TS_WAIT.f m] s (s.adcSees k b) :=
  (s.adcSees_onlyRegs k b).2.same fun f hf hmem => by
    cases List.mem_singleton.1 hf
    obtain ⟨l, hl, hkey⟩ := List.mem_map.1 hmem
    have hclear : ∀ l ∈ adcLays, l = ADC.TS_WAIT ∨ ADC.TS_WAIT.clearOf 16 l = true := by decide
    rcases hclear l hl with rfl | hc
    · exact Lay.key_ne_idx (by decide) h hkey
    · exact Lay.key_ne_of_clear hc hm Nat.one_pos hk hkey.symm

theorem State.setMxBusy_onlyRegs (s : State) (n : Nat) (b : Bool) :
    OnlyRegs ((VLV.MX_BUSY.f n).key :: adcKeys n) s (s.setMxBusy n b) := by
  rw [State.setMxBusy_eq]
  exact ((OnlyRegs.refl _ s).setFlag (by simp)).forUpTo fun t j hj ht =>
    ht.trans ((t.adcSees_onlyRegs (4 * n + j) b).mono fun _ hk => List.mem_cons_of_mem _ (adcKeys_mem hj hk))

theorem State.setMxBusy_busy (s : State) {n : Nat} (b : Bool) (hn : n < 4) :
    (s.setMxBusy n b).flag (VLV.MX_BUSY.f n) = b := by
  have hloop : OnlyRegs (adcKeys n) (s.setFlag (VLV.MX_BUSY.f n) b) (s.setMxBusy n b) :=
    (OnlyRegs.refl _ _).forUpTo fun t j hj ht => ht.trans ((t.adcSees_onlyRegs (4 * n + j) b).mono (adcKeys_mem hj))
  rw [hloop.flag (Lay.key_notMem_adcKeys (by decide) hn Nat.one_pos hn)]
  exact State.flag_setFlag_f rfl

/-- Once MX_BUSY clears no list of the tile waits for it. -/
theorem State.setMxBusy_tsWait (s : State) {n j : Nat} (hn : n < 4) (hj : j < 4) :
    (s.setMxBusy n false).flag (ADC.TS_WAIT.f (4 * n + j)) = false := by
  obtain ⟨u, -, hend⟩ := State.forUpTo_turn (s := s.setFlag (VLV.MX_BUSY.f n) false) (fs := [ADC.TS_WAIT.f (4 * n + j)])
    (f := fun s j => s.adcSees (4 * n + j) false) hj fun u i hi hne =>
      u.adcSees_other false (by omega) (by omega) (by omega)
  exact (hend.flag (List.mem_singleton.2 rfl)).trans (u.adcSees_clear (by omega))

/-! Commits (R82 to R84). -/

/-- The shadow route table becomes the one in force. -/
def State.switchRoutes (s : State) (n : Nat) : State :=
  s.forUpTo 194 fun s k => s.setTab VLV.mxRoute n k (s.tab VLV.mxShadow n k)

theorem routeKey_ne {n i k : Nat} (h : i ≠ k) : VLV.mxRoute.key n i ≠ VLV.mxRoute.key n k := fun e => by
  have he : (2 * 2 ^ 16 + n) * 2 ^ 32 + i = (2 * 2 ^ 16 + n) * 2 ^ 32 + k := e
  omega

theorem routeKey_ne_shadow {n i k : Nat} (hk : k < 194) : VLV.mxRoute.key n i ≠ VLV.mxShadow.key n k := fun e => by
  have he : (2 * 2 ^ 16 + n) * 2 ^ 32 + i = (1 * 2 ^ 16 + n) * 2 ^ 32 + k := e
  omega

/-- Every terminal's route in force is then that of the shadow table (R83). -/
theorem State.switchRoutes_tab (s : State) {n k : Nat} (hk : k < 194) :
    (s.switchRoutes n).tab VLV.mxRoute n k = s.tab VLV.mxShadow n k % 256 := by
  have h : (∀ i, i < 194 → (s.switchRoutes n).tab VLV.mxShadow n i = s.tab VLV.mxShadow n i) ∧
      ∀ i, i < 194 → (s.switchRoutes n).tab VLV.mxRoute n i = s.tab VLV.mxShadow n i % 256 := by
    unfold State.switchRoutes
    refine State.forUpTo_ind (fun m u => (∀ i, i < 194 → u.tab VLV.mxShadow n i = s.tab VLV.mxShadow n i) ∧
      ∀ i, i < m → u.tab VLV.mxRoute n i = s.tab VLV.mxShadow n i % 256)
      ⟨fun _ _ => rfl, fun _ hi => absurd hi (Nat.not_lt_zero _)⟩
      fun m u hm ⟨hshadow, hroute⟩ => ⟨fun i hi => ?_, fun i hi => ?_⟩
    · rw [State.tab_setTab_ne _ _ (routeKey_ne_shadow hi), hshadow i hi]
    · rcases Nat.lt_succ_iff_lt_or_eq.1 hi with hi | rfl
      · rw [State.tab_setTab_ne _ _ (routeKey_ne (Nat.ne_of_gt hi)), hroute i hi]
      · rw [State.tab_setTab_same, hshadow i hm]
        rfl
  exact h.2 k hk

theorem State.switchRoutes_frame (s : State) (n : Nat) : Only [.tabs] s (s.switchRoutes n) ∧
    TabsBut ((List.range 194).map fun k => VLV.mxRoute.key n k) s (s.switchRoutes n) := by
  unfold State.switchRoutes
  refine State.forUpTo_ind (fun _ u => Only [.tabs] s u ∧
    TabsBut ((List.range 194).map fun k => VLV.mxRoute.key n k) s u) ⟨Only.refl _ s, TabsBut.refl _ s⟩
    fun m u hm ⟨honly, htabs⟩ => ⟨honly.setTab (by simp), htabs.setTab ?_⟩
  exact List.mem_map.2 ⟨m, List.mem_range.2 hm, rfl⟩

theorem State.mxConflict_congr {n : Nat} (h : t.tabs = s.tabs) : t.mxConflict n = s.mxConflict n := by
  simp only [State.mxConflict, State.nodeSources, State.tab, h]

theorem State.mxRun_refused {n : Nat} {x : Nat × Nat} (h : s.mxConflict n = some x) : s.mxRun n =
    if s.flag (VLV.MX_ERR.f n) then s
    else ((s.setFlag (VLV.MX_ERR.f n) true).wr (VLV.MX_ERR_CAP_NODE.f n) x.1).wr (VLV.MX_ERR_CAP_TERM.f n) x.2 := by
  rw [State.mxRun, h]

theorem State.mxRun_free {n : Nat} (h : s.mxConflict n = none) :
    s.mxRun n = ((s.switchRoutes n).setMxBusy n true).setFlag (VLV.MX_DONE.f n) false := by
  rw [State.mxRun, h]
  rfl

/-- What a commit that runs leaves: the shadow's routes in force, MX_BUSY set, and its frame (R83). -/
theorem State.mxRun_free_shows {n : Nat} (hn : n < 4) (h : s.mxConflict n = none) :
    (∀ k, k < 194 → (s.mxRun n).tab VLV.mxRoute n k = s.tab VLV.mxShadow n k % 256) ∧
    (s.mxRun n).flag (VLV.MX_BUSY.f n) = true ∧
    OnlyRegsTabs ((VLV.MX_BUSY.f n).key :: (VLV.MX_DONE.f n).key :: adcKeys n)
      ((List.range 194).map fun k => VLV.mxRoute.key n k) s (s.mxRun n) := by
  rw [State.mxRun_free h]
  obtain ⟨honly, htabs⟩ := s.switchRoutes_frame n
  have hbusy := ((s.switchRoutes n).setMxBusy_onlyRegs n true).mono
    (ks' := (VLV.MX_BUSY.f n).key :: (VLV.MX_DONE.f n).key :: adcKeys n)
    (List.cons_subset_cons _ (List.subset_cons_self _ _))
  have hframe := hbusy.setFlag (f := VLV.MX_DONE.f n) (b := false) (by simp)
  have hregs : RegsBut ((VLV.MX_BUSY.f n).key :: (VLV.MX_DONE.f n).key :: adcKeys n) s (s.switchRoutes n) :=
    RegsBut.of_eq (honly .regs (by decide))
  refine ⟨fun k hk => hframe.tab.trans (s.switchRoutes_tab hk), ?_, ?_, hregs.trans hframe.2, fun k hk d => ?_⟩
  · exact (State.flag_setFlag_ne _ (Lay.key_ne_of_clear (n := 4) (by decide) hn Nat.one_pos hn).symm).trans
      (State.setMxBusy_busy _ true hn)
  · exact (honly.mono (by simp)).trans (hframe.1.mono (by simp))
  · rw [hframe.1 .tabs (by decide)]
    exact htabs k hk d

/-- A refused commit: MX_ERR, and an empty capture takes the node and its second source (R83). -/
theorem State.mxRun_refused_shows {n : Nat} {x : Nat × Nat} (h : s.mxConflict n = some x) :
    (s.mxRun n).flag (VLV.MX_ERR.f n) = true ∧
    (s.flag (VLV.MX_ERR.f n) = false → (s.mxRun n).rd (VLV.MX_ERR_CAP_NODE.f n) = x.1 % 64 ∧
      (s.mxRun n).rd (VLV.MX_ERR_CAP_TERM.f n) = x.2 % 256) ∧
    OnlyRegs [(VLV.MX_ERR.f n).key, (VLV.MX_ERR_CAP_NODE.f n).key, (VLV.MX_ERR_CAP_TERM.f n).key] s (s.mxRun n) := by
  rw [State.mxRun_refused h]
  cases he : s.flag (VLV.MX_ERR.f n) with
  | true =>
    rw [if_pos rfl]
    exact ⟨he, nofun, OnlyRegs.refl _ s⟩
  | false =>
    rw [if_neg Bool.false_ne_true]
    refine ⟨?_, fun _ => ⟨?_, State.rd_wr_same _ _ _⟩, ?_⟩
    · exact (State.flag_wr_ne _ _ (Lay.key_ne rfl)).trans
        ((State.flag_wr_ne _ _ (Lay.key_ne rfl)).trans (State.flag_setFlag_f rfl))
    · exact (State.rd_wr_ne _ _ (Lay.key_ne rfl)).trans (State.rd_wr_same _ _ _)
    · exact (((OnlyRegs.refl _ s).setFlag (by simp)).wr (by simp)).wr (by simp)

theorem exec_mxCommit_open {n : Tile} (h : s.openTo 12 (.vlv n) = true) :
    exec (.mxCommit n) s = .next (s.mxCommit n) :=
  congrArg Host.Outcome.next (State.reach_of_openTo h rfl)

theorem exec_mxErrRel_open {n : Tile} (h : s.openTo 12 (.vlv n) = true) :
    exec (.mxErrRel n) s = .next (s.mxErrRel n) :=
  congrArg Host.Outcome.next (State.reach_of_openTo h rfl)

theorem State.mxCommit_idle {n : Nat} (h : s.flag (VLV.MX_BUSY.f n) = false) : s.mxCommit n = s.mxRun n :=
  if_neg (by rw [h]; exact Bool.false_ne_true)

theorem State.mxCommit_busy {n : Nat} (h : s.flag (VLV.MX_BUSY.f n) = true) :
    s.mxCommit n = s.setFlag (VLV.MX_PEND.f n) true := if_pos h

/-- The settle of a commit has ended (R84, R87). -/
def State.mxSettled (s : State) (n : Nat) : State := (s.setMxBusy n false).setFlag (VLV.MX_DONE.f n) true

theorem exec_mxCommitEnd_busy {n : Tile} (h : s.flag (VLV.MX_BUSY.f n) = true) : exec (.mxCommitEnd n) s =
    .next (if (s.mxSettled n).flag (VLV.MX_PEND.f n) then ((s.mxSettled n).setFlag (VLV.MX_PEND.f n) false).mxRun n
      else s.mxSettled n) := by
  rw [exec_mxCommitEnd, execMxCommitEnd, if_pos h]
  rfl

theorem State.mxSettled_onlyRegs (s : State) (n : Nat) :
    OnlyRegs ((VLV.MX_BUSY.f n).key :: (VLV.MX_DONE.f n).key :: adcKeys n) s (s.mxSettled n) :=
  ((s.setMxBusy_onlyRegs n false).mono (List.cons_subset_cons _ (List.subset_cons_self _ _))).setFlag (by simp)

/-- A commit that is held stays held while its tile settles and while another commit runs. -/
theorem mxPend_notMem {n : Nat} (hn : n < 4) :
    (VLV.MX_PEND.f n).key ∉ (VLV.MX_BUSY.f n).key :: (VLV.MX_DONE.f n).key :: adcKeys n :=
  List.not_mem_cons_of_ne_of_not_mem (Lay.key_ne rfl) (List.not_mem_cons_of_ne_of_not_mem
    (Lay.key_ne_of_clear (n := 4) (by decide) hn Nat.one_pos hn) (Lay.key_notMem_adcKeys (by decide) hn Nat.one_pos hn))

/-- Settles O11: a commit is refused whole or switches every terminal, and MX_BUSY reaches the converters alone. -/
theorem matrixCommitSwitchesOrIsRefused : Obligations.MatrixCommitSwitchesOrIsRefused := by
  unfold Obligations.MatrixCommitSwitchesOrIsRefused
  refine ⟨fun n s hopen hidle => ⟨_, exec_mxCommit_open hopen, fun x hx => ?_, fun hfree => ?_⟩,
    fun n s hopen hbusy => ⟨_, exec_mxCommit_open hopen, ?_, ?_⟩,
    fun n s hbusy => ⟨_, exec_mxCommitEnd_busy hbusy, fun hpend => ?_, fun hpend hfree => ?_⟩,
    fun n s hopen => ⟨_, exec_mxErrRel_open hopen, ?_, ?_, State.rd_wr_same _ _ _, ?_⟩⟩
  · rw [State.mxCommit_idle hidle]
    exact State.mxRun_refused_shows hx
  · rw [State.mxCommit_idle hidle]
    obtain ⟨htab, hbusy, honly, hregs, htabs⟩ := State.mxRun_free_shows n.isLt hfree
    exact ⟨htab, hbusy, honly, hregs, htabs⟩
  · rw [State.mxCommit_busy hbusy]
    exact State.flag_setFlag_f rfl
  · rw [State.mxCommit_busy hbusy]
    exact (OnlyRegs.refl _ s).setFlag (by simp)
  · rw [(s.mxSettled_onlyRegs n).flag (mxPend_notMem n.isLt), hpend, if_neg Bool.false_ne_true]
    refine ⟨?_, fun j => ?_, s.mxSettled_onlyRegs n⟩
    · exact (State.flag_setFlag_ne _ (Lay.key_ne_of_clear (n := 4) (by decide) n.isLt Nat.one_pos n.isLt).symm).trans
        (s.setMxBusy_busy false n.isLt)
    · have hne : (VLV.MX_DONE.f n).key ≠ (ADC.TS_WAIT.f (4 * n + j)).key :=
        Lay.key_ne_of_clear (n := 16) (by decide) n.isLt Nat.one_pos (by omega)
      exact (State.flag_setFlag_ne _ hne).trans (s.setMxBusy_tsWait n.isLt j.isLt)
  · rw [(s.mxSettled_onlyRegs n).flag (mxPend_notMem n.isLt), hpend, if_pos rfl]
    have hsettled := (s.mxSettled_onlyRegs n).1.trans
      ((Only.refl [.regs] (s.mxSettled n)).wr (f := VLV.MX_PEND.f n) (v := b2n false) (by simp))
    have htabs := hsettled .tabs (by decide)
    obtain ⟨htab, hbusy, hframe⟩ := State.mxRun_free_shows n.isLt ((State.mxConflict_congr htabs).trans hfree)
    refine ⟨?_, hbusy, fun k hk => ?_⟩
    · exact (hframe.2.1.flag (mxPend_notMem n.isLt)).trans (State.flag_setFlag_f rfl)
    · rw [← State.tab_congr htabs]
      exact htab k hk
  · exact (State.flag_wr_ne _ _ (Lay.key_ne rfl)).trans
      ((State.flag_wr_ne _ _ (Lay.key_ne rfl)).trans (State.flag_setFlag_f rfl))
  · exact (State.rd_wr_ne _ _ (Lay.key_ne rfl)).trans (State.rd_wr_same _ _ _)
  · exact (((OnlyRegs.refl _ s).setFlag (by simp)).wr (by simp)).wr (by simp)

end Sys2Proof.Machine
end
